-- ==== Sys2Proof/Word.lean ====
section
/-!
DEFINITION. Word.lean: sparse maps from numbers, the form in which every large table of the state is held: a list of
(key, value) pairs with keys strictly rising. A `get` names the value that an unlisted key reads as, and a `put` of that
value removes the entry, so that equal tables are equal lists.
-/

namespace Sys2Proof

/-- A sparse table keyed by a number. -/
abbrev Map (α : Type) := List (Nat × α)

namespace Map

variable {α : Type}

/-- The value listed at a key. -/
def find? : Map α → Nat → Option α
  | [], _ => none
  | (k, v) :: r, x => if x = k then some v else find? r x

/-- The value at a key, `d` where none is listed. -/
def get (d : α) (m : Map α) (x : Nat) : α := (m.find? x).getD d

/-- List a value at a key, in key order. -/
def insert : Map α → Nat → α → Map α
  | [], x, v => [(x, v)]
  | (k, w) :: r, x, v =>
    if x < k then (x, v) :: (k, w) :: r
    else if x = k then (x, v) :: r
    else (k, w) :: insert r x v

/-- Drop every entry of a key. -/
def erase : Map α → Nat → Map α
  | [], _ => []
  | (k, w) :: r, x => if x = k then erase r x else (k, w) :: erase r x

/-- Give a key a value; the value that unlisted keys read as drops the entry. -/
def put [DecidableEq α] (d : α) (m : Map α) (x : Nat) (v : α) : Map α :=
  if v = d then m.erase x else m.insert x v

/-- Keys rise strictly. -/
def sorted : Map α → Bool
  | [] => true
  | [_] => true
  | (a, _) :: (b, w) :: r => decide (a < b) && sorted ((b, w) :: r)

/-- Drop every entry whose key meets a test. -/
def dropKeys (m : Map α) (f : Nat → Bool) : Map α := m.filter fun e => !f e.1

end Map

end Sys2Proof
end

