-- ==== Sys2Proof/Syntax.lean ====
section
/-!
DEFINITION. Syntax.lean: the commands of the JPV4160 package, one constructor of `Instr` per row of
spec/opcode_table.json, with the operands that the rules of spec/ give them. The table gives its rows no bits, so the
operands here are the values themselves. Unit numbers are the global numbers of R5 unless a docstring says otherwise.
-/

namespace Sys2Proof

/-- Who makes a register access (R25, R42, R464). `user` is the privilege mode of the issuing hart: user mode or not. -/
inductive Agent where
  /-- Server core n, 0 to 95. -/
  | server (n : Nat) (user : Bool)
  /-- Control core, by its global number, 0 to 31. -/
  | control (c : Nat) (user : Bool)
  /-- Management access through MGMT_SCL and MGMT_SDA. -/
  | mgmt
  /-- Test access through REGACC. -/
  | test
deriving DecidableEq, Repr

/-- The four engines of a tile (R169). -/
inductive Engine where
  | dma | array | vector | store
deriving DecidableEq, Repr

/-- The element formats of R160 that a view may hold. -/
inductive Fmt where
  | e4m3 | e5m2 | bf16 | fp16 | int8 | int4 | fwn8 | i16 | int32
deriving DecidableEq, Repr

/-- The types a vector operand may have (R135, R178). -/
inductive VTy where
  | bf16 | fp16 | i16
deriving DecidableEq, Repr

/-- The relations of CMP and ICMP (R140). -/
inductive Rel where
  | eq | ne | lt | le | gt | ge
deriving DecidableEq, Repr

/-- The axes of a reduction (R146). -/
inductive Axis where
  | row | col | all
deriving DecidableEq, Repr

/-- The modes of the matrix array (R107). -/
inductive MmaMode where
  | f8 | bf16 | fp16 | i8 | i4
deriving DecidableEq, Repr

/-- How an MMA initialises its accumulator set (R114). -/
inductive MmaInit where
  | zero | load | cont
deriving DecidableEq, Repr

/-- Where an MMA's output goes, and where a LOAD source lies (R174, R175). -/
inductive Place where
  | none | view | regs
deriving DecidableEq, Repr

/-- The slot selector of a MOV (R172). -/
inductive VSel where
  | plain | current | next
deriving DecidableEq, Repr

/-- The COMBINE field of SUMM (R153, R181). -/
inductive Combine where
  | lead | sum | max | min
deriving DecidableEq, Repr

/-- A WAIT or POST field (R170). -/
structure Cred where
  en : Bool
  early : Bool
  engine : Engine
deriving DecidableEq, Repr

/-- Operands of the MOV class (R172). -/
structure MovOps where
  wait : Cred
  post : Cred
  dslot : Nat
  view : Nat
  org : Nat
  vsel : VSel
  recs : Bool
  fawn : Bool
deriving DecidableEq, Repr

/-- Operands of MMUL (R174). `out` is the 6-bit OUT field. -/
structure MmulOps where
  wait : Cred
  post : Cred
  mode : MmaMode
  set : Nat
  init : MmaInit
  av : Nat
  akm : Bool
  bv : Nat
  bkm : Bool
  okind : Place
  out : Nat
  ofmt : Fmt
  pair : Bool
  sr : Bool
  outT : Bool
  keygrp : Nat
  pslot : Nat
  pg : Bool
deriving DecidableEq, Repr

/-- Operands of MSPAN (R175): the raw fields K0 = k0 / 16, KLEN = K / 16 - 1, MACT = M_ACT - 1, NACT = N_ACT - 1. -/
structure SpanOps where
  slot : Nat
  k0 : Nat
  klen : Nat
  mact : Nat
  nact : Nat
deriving DecidableEq, Repr

/-- Operands of MWIN (R175): ROWOFF and COLOFF count units of 16. -/
structure WinOps where
  slot : Nat
  rowoff : Nat
  coloff : Nat
  lkind : Place
  lsrc : Nat
  lpair : Bool
  lfmt : Fmt
deriving DecidableEq, Repr

/-- One source field of a VEC instruction (R178). -/
structure VSrc where
  scl : Bool
  neg : Bool
  abs : Bool
  reg : Nat
deriving DecidableEq, Repr

/-- Operands of the VEC class (R178). `vl` is 1 to 128 columns and `vr` is 1 to 16 rows. `subTy` and `subFawn` are the
two SUB bits of PADD. -/
structure VecOps where
  vl : Nat
  vr : Nat
  ty : VTy
  sr : Bool
  keygrp : Nat
  men : Bool
  mask : Nat
  mz : Bool
  dst : Nat
  a : VSrc
  b : VSrc
  c : VSrc
  subTy : Bool
  subFawn : Bool
deriving DecidableEq, Repr

/-- Operands of CVT (R179). -/
structure CvtOps where
  wait : Cred
  post : Cred
  sfmt : Fmt
  dfmt : Fmt
  smem : Bool
  src : Nat
  dmem : Bool
  dst : Nat
  vl : Nat
  vr : Nat
  sr : Bool
  keygrp : Nat
  org : Nat
  men : Bool
  mask : Nat
  mz : Bool
deriving DecidableEq, Repr

/-- Operands of the RED class (R180). -/
structure RedOps where
  vl : Nat
  vr : Nat
  ty : VTy
  sr : Bool
  keygrp : Nat
  men : Bool
  mask : Nat
  mz : Bool
  axis : Axis
  dst : Nat
  src : Nat
  idx : Nat
  dpos : Nat
deriving DecidableEq, Repr

/-- The four counts of CWAIT and CPOST (R181). -/
structure Counts where
  dma : Nat
  array : Nat
  vector : Nat
  store : Nat
deriving DecidableEq, Repr

/-- Operands of SUMM (R181). `reg` is Tn, Sn or Mn, `k` is 1 to 8, `imm` is the immediate of MARK. -/
structure SummOps where
  kind : Nat
  tag : Nat
  clr : Bool
  drain : Bool
  combine : Combine
  ty : VTy
  imm : Nat
  vl : Nat
  vr : Nat
  men : Bool
  mask : Nat
  reg : Nat
  k : Nat
deriving DecidableEq, Repr

/-- Operands of the COL class (R182). -/
structure ColOps where
  wait : Cred
  sslot : Nat
  dslot : Nat
  group : Nat
  sem : Nat
  rop : Nat
deriving DecidableEq, Repr

/-- A command record of the command ring (R395): word 0 less its opcode, and words 1 to 7. -/
structure CmdRec where
  ctx : Nat
  tag : Nat
  rsvd : Nat
  w1 : Nat
  w2 : Nat
  w3 : Nat
  w4 : Nat
  w5 : Nat
  w6 : Nat
  w7 : Nat
deriving DecidableEq, Repr

/-- An Afraeri message (R332): its header fields and its data slots of 128 bits each, slot 0 first. -/
structure AfrMsg where
  vc : Nat
  typ : Nat
  dst : Nat
  src : Nat
  epoch : Nat
  len : Nat
  tag : Nat
  arg : Nat
  data : List Nat
deriving DecidableEq, Repr

/-- What a chain message of a collective carries (R353), from the element on that its stream offset names: values with fawns,
and the block status that goes with each. `recs` holds records of destination blocks that an ALLGATHER brings. `words` are the
words of a commit exchange (R356). `back` marks results on their way back along the chain. Beside each partial value of a MAX or MIN stands
its exact value (R351): 0 or 1 for a finite one by its sign, with magnitude and exponent of 2, 2 or 3 for an infinity, 4 for a NaN. -/
structure CollPart where
  pairs : List (Nat × Nat)
  status : List Nat
  recs : List (Nat × Nat)
  back : Bool
  words : List Nat := []
  exact : List (Nat × Nat × Int) := []
deriving DecidableEq, Repr

/-- What the header of a coherence request says beside its line (R302): SRC, TXN and PART. -/
structure CohHdr where
  ag : Nat
  txn : Nat
  part : Nat
deriving DecidableEq, Repr

/-- A request of a line to its channel (R312): the line, and the class (0 urgent, 1 demand, 2 bulk, 3 scrub). -/
structure LineReq where
  line : Nat
  cls : Nat
deriving DecidableEq, Repr

/-- A commit-exchange result (R218, R356): NF, BLOCKS, Imax, and for each enabled slot its bins and MAXEXP. `status` is
0 (OK) or the completion status of a failed exchange. -/
structure XchgRes where
  status : Nat
  nf : Nat
  blocks : Nat
  imax : Nat
  slots : List (Nat × List Nat × Int)
deriving DecidableEq, Repr

/-- A received Ethernet frame as the port's MAC sees it (R357): whether the frame check and form are good, its length,
its kind as the transport sorts it, and whether it carries a CE mark or is a flow-control frame. -/
structure EthFrame where
  good : Bool
  bytes : Nat
  ce : Bool
  pfc : Bool
  ptpEvent : Bool
  roce : Bool
  qpn : Nat
  /-- VLAN tags, and the priority of the tag (R357). -/
  tags : Nat := 0
  prio : Nat := 0
  /-- A pause frame; and a packet with IPv4 options, an IPv6 extension header, or a fragment. -/
  pause : Bool := false
  ipBad : Bool := false
  /-- Priorities that a flow-control frame stops and lets go on. -/
  xoff : Nat := 0
  xon : Nat := 0
  /-- The packet sequence number that an acknowledgement covers. -/
  ack : Option Nat := none
deriving DecidableEq, Repr

/-- The header of a record in a shard (R369). -/
structure RecHdr where
  magic : Nat
  kind : Nat
  codec : Nat
  rsvd : Nat
  sampleId : Nat
  storedLen : Nat
  decodedLen : Nat
  pcrc : Nat
  hcrc : Nat
deriving DecidableEq, Repr

/-- What start-up finds outside the package (R443): the read mode of the configuration memory (none when its SFDP tables
do not serve), UCIe modules, stacks and buses that fail training (as bit masks), the physical tiles that fail the
self-test (bit 13 h + k), and whether the configuration-read timeout expired. -/
structure StartIn where
  mode : Option Nat
  ucieFail : Nat
  stackFail : Nat
  busFail : Nat
  tileFail : Nat
  timeout : Bool
  payloadDiffers : Bool
deriving DecidableEq, Repr

/-- The sensor readings of one second (R466), in °C and W. -/
structure Sensors where
  host : Nat
  die0 : Nat
  die1 : Nat
  stack : Nat
  power : Nat
deriving DecidableEq, Repr

/-- The commands of the package: one constructor per row of spec/opcode_table.json, in its order. Each docstring gives the
row's mnemonic, its rule and its summary. -/
inductive Instr where
  /-- REGISTER_WRITE (R16): A write to a register that has no row of its own sets its fields under the access codes, reserved-encoding and lock rules. -/
  | registerWrite (a : Agent) (off bytes value : Nat)
  /-- TICK_BOUNDARY (R55): The time base reaches a multiple of 2^p and the package carries out the ordered boundary actions. -/
  | tickBoundary
  /-- PERIOD_LOG2_WRITE (R54): A write of TCK_CTRL.PERIOD_LOG2 is refused or takes effect at once, with TCK_COUNT recomputed. -/
  | periodLog2Write (a : Agent) (value : Nat)
  /-- PPS_OUT_EN_WRITE (R68): Clearing PPS_OUT_EN ends any pulse and holds the output low; setting it arms the next multiple. -/
  | ppsOutEnWrite (a : Agent) (en : Nat)
  /-- TIME_STEP (R489): A TCK_STEP write moves the time base forward or backward in one cycle, or is ignored with STEP_REFUSED. -/
  | timeStep (a : Agent) (value : Nat)
  /-- PPS_OUT_PULSE (R68): The time base reaches a multiple of 1,100,000,000 by advancing, and a 100 ms pulse starts on TIME_PPS. -/
  | ppsOutPulse
  /-- PPS_PULSE_END (R68): 100 ms after its latest start, the TIME_PPS output pulse ends. -/
  | ppsPulseEnd
  /-- PPS_IN_EDGE (R68): A rising edge on TIME_PPS input latches the time base in TCK_PPS and sets PPS_IN_SEEN. -/
  | ppsInEdge
  /-- SEG_OVERRUN (R59): One tick period after its start a segment has not retired; SEG_OVERRUN is set and counted and it runs on. -/
  | segOverrun (t : Nat)
  /-- SEG_HANG (R69): The segment watchdog reaches SEG_TICKS; the segment is dropped and its tile domain fenced and reset. -/
  | segHang (t : Nat)
  /-- HEARTBEAT_EXPIRY (R69): A control core holding work has neither beaten nor pushed for HB_TICKS boundaries; interrupt and event, no reset. -/
  | heartbeatExpiry (c : Nat)
  /-- HERD_WATCHDOG (R69): A herd holding work shows no progress for HERD_TICKS boundaries; its herd domain is fenced and reset. -/
  | herdWatchdog (h : Nat)
  /-- DIE_WATCHDOG (R69): A die holding work shows no progress for DIE_TICKS boundaries; its die compute domain is fenced and reset. -/
  | dieWatchdog (d : Nat)
  /-- MEM_REQUEST_TIMEOUT (R69): A request to the package's tiers has no answer after MEM_US and ends with an error response under R71. -/
  | memRequestTimeout (ag line : Nat)
  /-- UCIE_TIMEOUT (R69): A UCIe transaction has no answer after UCIE_US; error response to the requester and the module is retrained. -/
  | ucieTimeout (d module ag line : Nat)
  /-- AFR_REPLAY_TIMEOUT (R69): A go-back-N replay has not succeeded within AFR_US; the port goes down and retrains and its requests end with TIMEOUT. -/
  | afrReplayTimeout (port : Nat)
  /-- CONFIG_READ_TIMEOUT (R69): The configuration image is not read and checked within 5 s; the package stays in configuration failure. -/
  | configReadTimeout
  /-- HEARTBEAT (R69): A write to HRD_HEARTBEAT beats for the named control cores and resets their heartbeat counts. -/
  | heartbeat (a : Agent) (h value : Nat)
  /-- TICK (R63): A follower receives a tick marker on its upstream port, compensates the hop delay, checks its count and forwards it. -/
  | tick (port bnd time delay : Nat)
  /-- MARKER_LOSS (R64): Four consecutive markers fail to arrive; LOCKED clears, HOLDOVER sets and the follower ticks on its own REFCLK. -/
  | markerLoss
  /-- NUMCTL_WRITE (R491): A write of TIL_NUMCTL is held until the running segment retires, while reads return the written value at once. -/
  | numctlWrite (a : Agent) (t value : Nat)
  /-- RESUME (R220): A write of 1 to SCH_NUM_CTL.RESUME clears SKIP_RUN and HELD and releases a held job. -/
  | resume (a : Agent) (p : Nat)
  /-- NOP (R171): The CTL NOP instruction has no effect. -/
  | nop (t idx : Nat)
  /-- VBASE (R171): VBASE sets BASE of a view from a scalar and ends the segment with VIEW_RANGE if the view becomes invalid. -/
  | vbase (t idx view sreg : Nat)
  /-- TRAP (R171): TRAP ends the segment with a fault attributed to the job and records its code. -/
  | trap (t idx code : Nat)
  /-- LD (R173): LD copies a tensor window, and its records and fawns where asked, from unified memory into a view. -/
  | ld (t idx : Nat) (ops : MovOps)
  /-- ST (R173): ST copies a view into a tensor window, merging record status and write-map bits at the homes. -/
  | st (t idx : Nat) (ops : MovOps)
  /-- STREC (R173): STREC overwrites the covered tensor records with the full view records. -/
  | strec (t idx : Nat) (ops : MovOps)
  /-- HLD (R173): HLD copies a packed view from herd memory into tile memory. -/
  | hld (t idx : Nat) (ops : MovOps)
  /-- HST (R173): HST copies a view from tile memory into herd memory. -/
  | hst (t idx : Nat) (ops : MovOps)
  /-- MMUL (R174): MMUL issues a product on the array, accumulating in chunk order and draining through the output stage. -/
  | mmul (t idx : Nat) (ops : MmulOps)
  /-- MSPAN (R175): MSPAN writes the K span and active extents of a parameter slot in the dispatcher. -/
  | mspan (t idx : Nat) (ops : SpanOps)
  /-- MWIN (R175): MWIN writes the output window offsets and LOAD source of a parameter slot in the dispatcher. -/
  | mwin (t idx : Nat) (ops : WinOps)
  /-- ADD (R141): Vector ADD adds two operands per lane and rounds once to the 16-bit destination. -/
  | add (t idx : Nat) (ops : VecOps)
  /-- MUL (R141): Vector MUL multiplies two operands per lane and rounds once. -/
  | mul (t idx : Nat) (ops : VecOps)
  /-- FMA (R141): Vector FMA computes a × b + c exactly and rounds once. -/
  | fma (t idx : Nat) (ops : VecOps)
  /-- VEC_MIN (R91): Vector MIN takes the minimum of two operands per lane without rounding. -/
  | vecMin (t idx : Nat) (ops : VecOps)
  /-- VEC_MAX (R91): Vector MAX takes the maximum of two operands per lane without rounding. -/
  | vecMax (t idx : Nat) (ops : VecOps)
  /-- SEL (R140): SEL copies a where the mask is 1 and b elsewhere, bit for bit. -/
  | sel (t idx : Nat) (ops : VecOps)
  /-- IADD (R142): IADD adds I16 operands with saturation. -/
  | iadd (t idx : Nat) (ops : VecOps)
  /-- IMIN (R142): IMIN takes the I16 minimum. -/
  | imin (t idx : Nat) (ops : VecOps)
  /-- IMAX (R142): IMAX takes the I16 maximum. -/
  | imax (t idx : Nat) (ops : VecOps)
  /-- CMP (R92): CMP.rel compares float operands and writes the active bits of a mask register. -/
  | cmp (t idx : Nat) (rel : Rel) (ops : VecOps)
  /-- ICMP (R140): ICMP.rel compares I16 operands as signed integers into a mask register. -/
  | icmp (t idx : Nat) (rel : Rel) (ops : VecOps)
  /-- MAND (R140): MAND writes the bitwise AND of two masks. -/
  | mand (t idx : Nat) (ops : VecOps)
  /-- MOR (R140): MOR writes the bitwise OR of two masks. -/
  | mor (t idx : Nat) (ops : VecOps)
  /-- MXOR (R140): MXOR writes the bitwise XOR of two masks. -/
  | mxor (t idx : Nat) (ops : VecOps)
  /-- MANDN (R140): MANDN writes a AND NOT b of two masks. -/
  | mandn (t idx : Nat) (ops : VecOps)
  /-- MNOT (R140): MNOT writes the complement of a mask. -/
  | mnot (t idx : Nat) (ops : VecOps)
  /-- PADD (R145): PADD adds an addend, possibly a pair, to a value-plus-fawn pair and writes the new pair. -/
  | padd (t idx : Nat) (ops : VecOps)
  /-- CVT (R179): CVT converts or moves elements between registers and views under the conversion of R94. -/
  | cvt (t idx : Nat) (ops : CvtOps)
  /-- SUM (R146): RED SUM reduces the active area exactly and rounds once. -/
  | sum (t idx : Nat) (ops : RedOps)
  /-- SUMSQ (R146): RED SUMSQ reduces the sum of squares exactly and rounds once. -/
  | sumsq (t idx : Nat) (ops : RedOps)
  /-- RED_MAX (R146): RED MAX reduces the active area to its maximum. -/
  | redMax (t idx : Nat) (ops : RedOps)
  /-- RED_MIN (R146): RED MIN reduces the active area to its minimum. -/
  | redMin (t idx : Nat) (ops : RedOps)
  /-- MAXABS (R146): RED MAXABS reduces the active area to its largest magnitude. -/
  | maxabs (t idx : Nat) (ops : RedOps)
  /-- ARGMAX (R146): RED ARGMAX returns the position of the first maximum. -/
  | argmax (t idx : Nat) (ops : RedOps)
  /-- POPC (R146): RED POPC counts the 1 bits of a mask over the area. -/
  | popc (t idx : Nat) (ops : RedOps)
  /-- PERMC (R148): PERMC rearranges a register along columns under an index register. -/
  | permc (t idx : Nat) (ops : RedOps)
  /-- PERMR (R148): PERMR rearranges a register along rows under an index register. -/
  | permr (t idx : Nat) (ops : RedOps)
  /-- CWAIT (R181): CWAIT stalls its engine until every named credit count is available and takes them. -/
  | cwait (t idx : Nat) (eng : Engine) (n : Counts)
  /-- CPOST (R181): CPOST posts credit counts to consumers once earlier instructions of its engine complete. -/
  | cpost (t idx : Nat) (eng : Engine) (n : Counts)
  /-- SEMWAIT (R189): SEMWAIT queues its engine at the semaphore unit until VALUE ≥ n. -/
  | semwait (t idx : Nat) (eng : Engine) (sem n : Nat)
  /-- SEMSIG (R189): SEMSIG sends an add of n to a semaphore once earlier instructions of its engine have completed. -/
  | semsig (t idx : Nat) (eng : Engine) (sem n : Nat)
  /-- SEM_SIGNAL_APPLY (R189): The semaphore unit applies a signal or add to VALUE, checking lock misuse and overflow. -/
  | semSignalApply (p : Nat)
  /-- SEM_GRANT (R189): The semaphore unit grants the head waiter, subtracts n and records a lock holder. -/
  | semGrant (p sem : Nat)
  /-- SUMM (R150): SUMM computes a scalar summary and appends an entry to the tile's summary queue. -/
  | summ (t idx : Nat) (ops : SummOps)
  /-- FLAGCLR (R149): FLAGCLR clears the named sticky flags, in every gang member. -/
  | flagclr (t idx flags : Nat)
  /-- ALLREDUCE (R350): A COL ALLREDUCE hands a reduction into every rank's destination to the collective engine. -/
  | allreduce (t idx : Nat) (ops : ColOps)
  /-- REDUCE_SCATTER (R350): A COL REDUCE_SCATTER hands a reduction that leaves chunk r at rank r to the collective engine. -/
  | reduceScatter (t idx : Nat) (ops : ColOps)
  /-- ALLGATHER (R350): A COL ALLGATHER hands a bit-for-bit gather of every rank's source to the collective engine. -/
  | allgather (t idx : Nat) (ops : ColOps)
  /-- INSTR_COMPLETE (R184): An engine completes an instruction in program order, making its effects visible and posting its credits. -/
  | instrComplete (t : Nat) (eng : Engine) (wait lat : Nat)
  /-- SUMM_POP (R152): A read of HRD_SUMM_Qt pops the head entry of a tile's summary queue. -/
  | summPop (a : Agent) (t : Nat)
  /-- SREG_WRITE (R137): A write of TIL_SREGn sets a scalar register, held to the next segment start if one runs. -/
  | sregWrite (a : Agent) (t n value : Nat)
  /-- SEGQ_PUSH (R195): A write of TIL_SEGQ_PUSH appends a segment to the tile's queue or discards it with PUSH_LOST. -/
  | segqPush (a : Agent) (t value : Nat)
  /-- SEGMENT_FETCH (R196): The tile finishes fetching a queued segment and its descriptors and applies the segment and descriptor checks. -/
  | segmentFetch (t : Nat)
  /-- SEGMENT_START (R197): The head segment starts once its predecessor retired, checks passed and FIT allows, resetting slots, credits and accumulators. -/
  | segmentStart (t : Nat)
  /-- SEGMENT_RETIRE (R198): A segment whose instructions have all completed retires and is counted. -/
  | segmentRetire (t : Nat)
  /-- SEM_WRITE (R190): A write of SCH_SEMs sets VALUE and LOCK, the LOCK write being ignored while HELD. -/
  | semWrite (a : Agent) (p sem value : Nat)
  /-- SEM_ADD (R189): A write of SCH_SEMADDs adds to a semaphore, granting waiters and freeing a held lock. -/
  | semAdd (a : Agent) (p sem value : Nat)
  /-- GANG_WRITE (R129): A write of HRD_GANG.JOIN becomes pending until a boundary with no running segment. -/
  | gangWrite (a : Agent) (h value : Nat)
  /-- GANG_WIDTH_WRITE (R129): A write of HRD_GANG_WIDTH becomes pending until a boundary with no running segment. -/
  | gangWidthWrite (a : Agent) (h value : Nat)
  /-- GANG_APPLY (R60): At the first boundary with no running segment the pending gang setting takes effect. -/
  | gangApply (h : Nat)
  /-- STEP_RELEASE (R44): At a boundary the step scheduler releases the next step once commit, rescale, staging, step sizes and batch allow. -/
  | stepRelease (p slot : Nat)
  /-- ITEM_DISPATCH (R240): At a boundary with no item running a stage picks its next forward or backward item by next_item. -/
  | itemDispatch (p slot : Nat)
  /-- TASK_DISPATCH (R289): A dispatchable task is checked and placed on its herds by choose_herd within 200 ns. -/
  | taskDispatch (p slot task : Nat)
  /-- PREFETCH_REQUEST (R234): PF_TICKS before a BWD_DATA task's estimated start, the scheduler asks placement to prefetch its ranges. -/
  | prefetchRequest (p slot task : Nat)
  /-- GATHER_DISPATCH (R230): After all backward items of the stage complete, the scheduler dispatches a GATHER task for each live tied group. -/
  | gatherDispatch (p slot : Nat)
  /-- UPD_DISPATCH (R246): UPD tasks are dispatched at a boundary once backward and gather are done and the next generation has no pin. -/
  | updDispatch (p slot : Nat)
  /-- TASK_POP (R289): A read of HRD_TASK_POP gives the head task of the herd's queue to a control core. -/
  | taskPop (a : Agent) (h : Nat)
  /-- TASK_DONE (R492): A write of HRD_TASK_DONE reports a task finished on the herd; the task retires when all its herds report. -/
  | taskDone (a : Agent) (h value : Nat)
  /-- STEP_COMPLETE (R247): When all items, gather and UPD tasks are done, the stage issues the commit exchange with its tick. -/
  | stepComplete (p slot : Nat)
  /-- EXCHANGE_RESULT (R248): The commit exchange result arrives and fixes the commit point and decision inputs. -/
  | exchangeResult (p slot : Nat) (res : XchgRes)
  /-- EXCHANGE_TIMEOUT (R250): The exchange has not completed XCH_TICKS boundaries after issue; the member aborts and sends STOT. -/
  | exchangeTimeout (p slot : Nat)
  /-- COMMIT_FLIP (R249): At commit point B the member flips G, advances the step number and consumes the batch unless a STOT or vote cancels it. -/
  | commitFlip (p slot : Nat)
  /-- RESCALE_PASS (R213): After a commit or skip the step scheduler rewrites records and clears write maps of every listed tensor. -/
  | rescalePass (p slot : Nat)
  /-- RESCALE_PASS_DONE (R214): The rescale pass has completed in every place, enabling the next release. -/
  | rescalePassDone (p slot : Nat)
  /-- STEP_ABORT (R251): A STOT or abort takes effect at a boundary: in-flight work stops, next-slot writes are dropped and the step returns to its start. -/
  | stepAbort (p slot : Nat)
  /-- VER_PIN (R245): SCH_VER_PIN OP 0b01 pins generation G, or is refused with PIN_REFUSED. -/
  | verPin (a : Agent) (p gen : Nat)
  /-- VER_UNPIN (R245): SCH_VER_PIN OP 0b10 releases one pin of a generation, or is refused. -/
  | verUnpin (a : Agent) (p gen : Nat)
  /-- LR_WRITE (R258): A write of SCH_LRn sets a step size and WRITTEN, or is a reserved encoding for invalid values. -/
  | lrWrite (a : Agent) (p n value : Nat)
  /-- ROOT_KEPT (R262): A write of HRD_UPD_EVT.ROOT_KEPT counts a kept root in HRD_UPD_STAT. -/
  | rootKept (a : Agent) (h : Nat)
  /-- MAP (R269): MAP gives each range of its span a zeroed frame in its tier and sets VALID. -/
  | map (p : Nat) (rec : CmdRec)
  /-- UNMAP (R270): UNMAP clears VALID and returns frames to the pool, abandoning any migration. -/
  | unmap (p : Nat) (rec : CmdRec)
  /-- SETATTR (R268): SETATTR sets hint, affinity and pin, starting a migration for a pin elsewhere. -/
  | setattr (p : Nat) (rec : CmdRec)
  /-- MOVE (R268): MOVE migrates each range of its span now to the named tier, die, bus or peer range. -/
  | move (p : Nat) (rec : CmdRec)
  /-- RESERVE (R284): RESERVE evacuates and reserves frames for direct use by a partition. -/
  | reserve (p : Nat) (rec : CmdRec)
  /-- RELEASE (R284): RELEASE returns reserved frames to the pool. -/
  | release (p : Nat) (rec : CmdRec)
  /-- PEER (R285): PEER maps each range of its span to a range of another package through a window. -/
  | peer (p : Nat) (rec : CmdRec)
  /-- PLACEMENT_EPOCH (R273): Every EPOCH_TICKS boundaries HEAT halves, LEAN decays and promotion and demotion candidates are chosen. -/
  | placementEpoch
  /-- SAVED_ACT_DEMOTE (R272): A SAVED_ACT stack range without writes for DEMOTE_TICKS boundaries is queued for demotion. -/
  | savedActDemote (r : Nat)
  /-- MIGRATION_START (R277): A migration engine takes a queued range, a destination frame, and sets STATE migrating. -/
  | migrationStart (d e : Nat)
  /-- RMC_UPDATE_ACK (R266): Every Range Map cache has acknowledged an entry update, letting placement proceed. -/
  | rmcUpdateAck (d r : Nat)
  /-- RMC_MISS_FILL (R266): A Range Map cache miss is filled from the store, replacing the LRU entry. -/
  | rmcMissFill (d r : Nat)
  /-- MIGRATION_PRECOPY_END (R277): The pre-copy of all 16,384 lines ends and the delta is judged. -/
  | migrationPrecopyEnd (d e : Nat)
  /-- MIGRATION_ROUND_END (R278): A dirty-line round ends; the engine enters the final phase, runs another round or abandons. -/
  | migrationRoundEnd (d e : Nat)
  /-- MIGRATION_FINAL_END (R308): The final phase's drain, invalidation and dirty copy end and the entry is switched to the destination. -/
  | migrationFinalEnd (d e : Nat)
  /-- MIGRATION_UNBLOCK (R277): After the switch is acknowledged the source homes answer waiting requests with REDO and free the source frame. -/
  | migrationUnblock (d e : Nat)
  /-- FRAME_RETIRE (R282): A retired frame's range is queued for class 1 evacuation, then the frame is marked bad and persisted. -/
  | frameRetire (tier frame : Nat)
  /-- REGULATOR_ISSUE (R291): A request waiting for tokens is issued once its bucket or the tier's common pool holds them. -/
  | regulatorIssue (p tier tokens final : Nat)
  /-- GET (R305): A caching agent's GET reaches its home, which serves it from an owner, cache or memory, or makes it wait busy. -/
  | get (ag line writable txn part : Nat)
  /-- CLAIM (R306): A CLAIM for write permission reaches the home and is granted by KILLs and DONE, or served as GET writable. -/
  | claim (hdr : CohHdr) (line : Nat)
  /-- PEEK (R300): A one-way read reaches the home and is served from owner, last-level cache or memory. -/
  | peek (hdr : CohHdr) (line : Nat)
  /-- PUT_FULL (R300): A full-line one-way write kills every holder and writes the line, clearing poison. -/
  | putFull (hdr : CohHdr) (line data hint : Nat)
  /-- PUT_MASKED (R300): A masked one-way write takes the owner's dirty data, merges the masked bytes and writes the line. -/
  | putMasked (hdr : CohHdr) (line data mask hint : Nat)
  /-- MERGE (R89): A status merge with map OR updates a block record atomically at its home. -/
  | merge (hdr : CohHdr) (recAddr status mapAddr mapBits : Nat)
  /-- DROP (R307): A caching agent's writeback reaches the home and completes at once or is held while the line is busy. -/
  | drop (ag line dirty data : Nat)
  /-- SEND (R305): A SEND snoop makes the owner forward data to the requester and change state by PASS. -/
  | send (owner line req reqTxn pass : Nat)
  /-- KILL (R300): A KILL snoop sends a holder to I, first returning dirty data when RETURN is 1. -/
  | kill (ag line ret : Nat)
  /-- SNP_DONE (R303): A holder's snoop answer reaches the home, possibly ending the transaction and completing a held drop. -/
  | snpDone (ag line flags : Nat)
  /-- DONE (R302): The home's DONE reaches the requester, granting a CLAIM or completing a one-way write. -/
  | done (ag line : Nat)
  /-- GOT (R303): A caching requester's GOT reaches the home and ends the transaction, freeing the busy line. -/
  | got (ag line : Nat)
  /-- REDO (R308): A REDO makes the requester translate again and reissue to the destination home. -/
  | redo (ag line : Nat)
  /-- DROP_OK (R299): DROP_OK reaches the writer, which frees its writeback buffer. -/
  | dropOk (ag line stale : Nat)
  /-- FAIL (R309): A FAIL reaches the requester for a poisoned line, decode error or timeout. -/
  | fail (ag line : Nat)
  /-- LINE (R302): Line data with its grant reaches a requester, which installs it and answers GOT. -/
  | line (ag line data grant dirty : Nat)
  /-- LINE_HOME (R307): An owner's dirty data reaches the home, which writes it and marks it dirty during migration. -/
  | lineHome (ag line data : Nat)
  /-- BUSY_REQUEST_SERVE (R303): A request waiting at a busy line starts once the line's previous transaction ends. -/
  | busyRequestServe (line : Nat)
  /-- CHANNEL_READ (R316): A channel serves a line read, decoding it good, poisoned, corrected or uncorrectable. -/
  | channelRead (req : LineReq)
  /-- CHANNEL_WRITE (R312): A channel serves a line write, updating check bytes or the capacity check-line cache. -/
  | channelWrite (req : LineReq) (data : Nat)
  /-- SCRUB_READ (R318): The controller issues the next scrub read of its pass in ascending line order. -/
  | scrubRead (unit : Nat)
  /-- REFRESH (R319): A channel's refresh interval expires and it issues or postpones an all-bank REF. -/
  | refresh (chan postpone : Nat)
  /-- REFRESH_SLOT_END (R62): The refresh slot ends and requests waiting at locked channels resume. -/
  | refreshSlotEnd
  /-- REF_LOCK_WRITE (R320): A write of STK_CTRL.REF_LOCK clears lock at once, sets it at the next boundary, or is reserved. -/
  | refLockWrite (a : Agent) (stack value : Nat)
  /-- REF_LOCK_SUSPEND (R321): A stack die above 85 °C suspends refresh lock at the next boundary. -/
  | refLockSuspend (stack : Nat)
  /-- REF_LOCK_RESUME (R321): At the first boundary after all dies fall below 80 °C refresh lock resumes. -/
  | refLockResume (stack : Nat)
  /-- ROW_REMAP (R322): A failing row is remapped line by line to a field spare, or its frame retired. -/
  | rowRemap (unit chan bank row : Nat)
  /-- MAINT_WRITE (R326): A write of STK_CTRL.MAINT enters or leaves maintenance, reserved while frames are in use. -/
  | maintWrite (a : Agent) (stack value : Nat)
  /-- READ_STATUS (R326): STK_REPAIR_CMD READ_STATUS reads the repair status of the named bank. -/
  | readStatus (a : Agent) (stack value : Nat)
  /-- FUSE_ROW (R326): STK_REPAIR_CMD FUSE_ROW permanently repairs a row with a fuse spare. -/
  | fuseRow (a : Agent) (stack value : Nat)
  /-- FUSE_COL (R326): STK_REPAIR_CMD FUSE_COL permanently repairs a column with a spare column group. -/
  | fuseCol (a : Agent) (stack value : Nat)
  /-- UCIE_MODULE_REMOVE (R29): A module that fails lane repair leaves its link and its in-flight transactions are retried elsewhere. -/
  | ucieModuleRemove (link module : Nat)
  /-- UCIE_HASH_RESPREAD (R29): At the next boundary the line hash is re-spread over the remaining modules. -/
  | ucieHashRespread (link : Nat)
  /-- FLIT_RECEIVE (R333): A flit arrives; its check, sequence, ACK, NAK and credits are processed and its messages delivered. -/
  | flitReceive (port flit : Nat)
  /-- REPLAY_START (R333): Data flits unacknowledged for 4 µs make the transmitter replay from ACK + 1. -/
  | replayStart (port : Nat)
  /-- NAK_REPEAT (R333): A replayed flit not arrived within 2 µs makes the receiver repeat its NAK. -/
  | nakRepeat (port : Nat)
  /-- LINK_LOSS (R336): No good flit for 4 µs or lane lock loss takes the port down, ends its requests and may send STOT LOST. -/
  | linkLoss (port : Nat)
  /-- HELLO (R336): A HELLO arrives during training and the port comes up once both ends have exchanged them. -/
  | hello (port : Nat) (msg : AfrMsg)
  /-- PORT_RETRAIN (R336): A write of AFR_PORT_CTL.RETRAIN takes the link down and retrains it. -/
  | portRetrain (a : Agent) (port value : Nat)
  /-- TRUNK_CHANGE (R61): At a boundary ports join or leave a trunk. -/
  | trunkChange (d : Nat)
  /-- RD (R341): A remote RD arrives, is checked and issued at the home as PEEK, or answered with NACK. -/
  | rd (port : Nat) (msg : AfrMsg)
  /-- WR_LINE (R341): A remote WR_LINE arrives, is checked and issued as PUT_FULL. -/
  | wrLine (port : Nat) (msg : AfrMsg)
  /-- WR_MASK (R341): A remote WR_MASK arrives, is checked and issued as PUT_MASKED. -/
  | wrMask (port : Nat) (msg : AfrMsg)
  /-- RD_DATA (R343): Remote read data returns to the requester. -/
  | rdData (port : Nat) (msg : AfrMsg)
  /-- WR_ACK (R343): A remote write's acknowledgement returns and completes it. -/
  | wrAck (port : Nat) (msg : AfrMsg)
  /-- NACK (R341): A NACK returns, ending the remote access with its status. -/
  | nack (port : Nat) (msg : AfrMsg)
  /-- REMOTE_TIMEOUT (R343): A remote request without response after RMT_US ends with TIMEOUT. -/
  | remoteTimeout (d tag : Nat)
  /-- COLL_DATA (R353): A chain message of pairs arrives; the rank folds its elements and sends on or writes back. -/
  | collData (port : Nat) (msg : AfrMsg) (part : CollPart)
  /-- COLL_NACK (R355): A COLL_NACK arrives and fails the collective with its status. -/
  | collNack (port : Nat) (msg : AfrMsg)
  /-- COLL_TIMEOUT (R355): No COLL_DATA for COLL_TICKS boundaries fails the collective with TIMEOUT. -/
  | collTimeout (d g : Nat)
  /-- COLLECTIVE_END (R355): A collective ends, records its status and adds 1 to its semaphore. -/
  | collectiveEnd (d g : Nat)
  /-- STOT (R346): A STOT arrives, is deduplicated, flooded and delivered to the step schedulers concerned. -/
  | stot (port : Nat) (msg : AfrMsg)
  /-- STOT_CMD (R347): A write of AFR_STOT_CMD originates a STOT of kind JOB. -/
  | stotCmd (a : Agent) (d value : Nat)
  /-- EPOCH_INC (R344): A write of AFR_ID.INC requests an epoch increment. -/
  | epochInc (a : Agent) (d value : Nat)
  /-- EPOCH_INCREMENT (R344): At the next boundary the role epoch increments on both dies. -/
  | epochIncrement (d : Nat)
  /-- ETH_FRAME_RX (R357): An Ethernet frame arrives and is processed by the port's MAC and transport. -/
  | ethFrameRx (port : Nat) (frame : EthFrame)
  /-- ROCE_SEND (R357): An inbound RoCEv2 SEND is delivered on its queue pair. -/
  | roceSend (port qpn : Nat) (payload : List Nat)
  /-- ROCE_WRITE (R358): An inbound RoCEv2 WRITE is served within a registered region or refused. -/
  | roceWrite (port qpn addr : Nat) (data : List Nat)
  /-- ROCE_READ (R358): An inbound RoCEv2 READ is served within a registered region or refused. -/
  | roceRead (port qpn addr len : Nat)
  /-- CNP_RX (R359): A congestion notification cuts the queue pair's rate by ALPHA / 256. -/
  | cnpRx (port qpn : Nat)
  /-- RATE_RECOVER (R359): RECOVER_US without a notification raises the queue pair's rate by 1/32 of line rate. -/
  | rateRecover (port qpn : Nat)
  /-- ROCE_RETRANSMIT (R359): A sequence NAK or RTO_US expiry retransmits by go-back-N. -/
  | roceRetransmit (port qpn psn : Nat)
  /-- PCIE_INBOUND (R364): An inbound device access is translated by the IOMMU and issued as a one-way agent. -/
  | pcieInbound (rp : Nat) (write : Bool) (addr : Nat) (data : List Nat)
  /-- SHARD_READ_ISSUE (R367): A stream issues the next 256 KiB read of its shard, up to 32 outstanding. -/
  | shardReadIssue (stream : Nat)
  /-- NVME_COMPLETION (R368): An NVMe read completes; a failed read is retried or its shard abandoned. -/
  | nvmeCompletion (stream tag status : Nat) (data : List Nat)
  /-- SHARD_READ_TIMEOUT (R368): A read without completion after 500 ms counts as failed. -/
  | shardReadTimeout (stream tag : Nat)
  /-- RECORD_START (R376): A record whose header passes its checks takes a staging slot and starts decoding. -/
  | recordStart (stream : Nat) (hdr : RecHdr)
  /-- SAMPLE_FINISH (R376): A sample finishes decoding and is placed in the open batch or sequence. Slots from 256 on are the slow
  slots; `payload` is the record's payload as read. -/
  | sampleFinish (stream slot : Nat) (payload : List Nat)
  /-- SAMPLE_BUDGET (R378): A sample still decoding at its budget moves to the slow lane or is abandoned. -/
  | sampleBudget (stream slot : Nat)
  /-- SAMPLE_HARD_LIMIT (R378): A sample reaching its hard limit is abandoned with cause 0x9. -/
  | sampleHardLimit (stream slot : Nat)
  /-- BATCH_CLOSE (R381): A batch with all slots filled closes and its manifest is written. -/
  | batchClose (stream : Nat)
  /-- BATCH_READY (R381): Every write of a closed batch has completed at its home and the batch is marked READY. -/
  | batchReady (stream : Nat)
  /-- STREAM_EN_WRITE (R386): A write of INK_Sn_CTRL.EN starts or stops a stream, or is reserved for bad settings. -/
  | streamEnWrite (a : Agent) (stream value : Nat)
  /-- CMD_TAIL_WRITE (R394): A write of SCH_CMD_PTR.TAIL makes the scheduler read and execute new commands in order. -/
  | cmdTailWrite (a : Agent) (p value : Nat)
  /-- CMD_NOP (R396): NOP completes with OK. -/
  | cmdNop (p : Nat) (rec : CmdRec)
  /-- JOB_START (R396): JOB_START makes a context known and gives it a slot, or leaves it swapped out and ready. -/
  | jobStart (p : Nat) (rec : CmdRec)
  /-- JOB_END (R396): JOB_END forgets a context and frees its slot. -/
  | jobEnd (p : Nat) (rec : CmdRec)
  /-- RUN (R396): RUN adds to or sets STEPS_LEFT. -/
  | run (p : Nat) (rec : CmdRec)
  /-- SWAP_IN (R396): SWAP_IN gives a context a slot and loads its record. -/
  | swapIn (p : Nat) (rec : CmdRec)
  /-- SWAP_OUT (R396): SWAP_OUT writes a context's record and frees its slot. -/
  | swapOut (p : Nat) (rec : CmdRec)
  /-- READY (R396): READY marks a swapped context ready or waiting. -/
  | ready (p : Nat) (rec : CmdRec)
  /-- ABORT (R396): ABORT aborts the step in flight at the next boundary and sends STOT. -/
  | abort (p : Nat) (rec : CmdRec)
  /-- PART_SET (R388): PART_SET requests a new herd set for the partition. -/
  | partSet (p : Nat) (rec : CmdRec)
  /-- PART_SET_APPLY (R388): At the next boundary joining and leaving herds are reset and semaphores zeroed. -/
  | partSetApply (p : Nat)
  /-- GROUP_SET (R404): GROUP_SET replaces a job group's members and zeroes its semaphores. -/
  | groupSet (p : Nat) (rec : CmdRec)
  /-- CONTEXT_SWITCH (R400): At a boundary the scheduler decides a slice-end, blocked switch or automatic swap. -/
  | contextSwitch (p : Nat)
  /-- CONTEXT_SAVE_DONE (R401): Every herd has saved the outgoing context and restore of the incoming one begins. -/
  | contextSaveDone (p : Nat)
  /-- CONTEXT_RESTORE_DONE (R401): Every herd has restored the incoming context's herd state. -/
  | contextRestoreDone (p : Nat)
  /-- CONTEXT_START (R401): At the first boundary after restore the incoming context becomes running. -/
  | contextStart (p : Nat)
  /-- LOCK_DEFER_EXPIRY (R403): A context still holding a lock eight boundaries after its switch was due takes a job fault. -/
  | lockDeferExpiry (p slot : Nat)
  /-- JOB_FAULT (R406): A fault attributed to a job aborts resident steps, saves records and resets package compute. -/
  | jobFault
  /-- FLT_RESET (R410): A write of FLT_RESET requests a reset of the named domain and unit. -/
  | fltReset (a : Agent) (value : Nat)
  /-- FENCE (R412): A domain is fenced: its units issue nothing new and outside requests are refused. -/
  | fence (code unit : Nat)
  /-- DRAIN_END (R412): The drain ends or reaches DRAIN_US; unanswered requests get FAIL, poison is written and the reset begins. -/
  | drainEnd (code unit : Nat)
  /-- RESET_END (R410): A domain's reset completes and is counted, possibly escalating to out of service. -/
  | resetEnd (code unit : Nat)
  /-- DOMAIN_RELEASE (R412): At the first boundary after the reset the domain is released and control cores restart. -/
  | domainRelease (code unit : Nat)
  /-- TILE_FAIL (R416): A self-test failure or repeated hangs fence a physical tile until the next start-up. -/
  | tileFail (h phys : Nat)
  /-- OOS_CLEAR (R419): A management write of FLT_OOS.CLEAR after a power-on ends out of service. -/
  | oosClear (a : Agent) (value : Nat)
  /-- REJOIN (R422): A write of SCH_REGROUP.REJOIN ends regroup at the next boundary. -/
  | rejoin (a : Agent) (p : Nat)
  /-- REGROUP_EXPIRY (R422): The regroup window runs out; EXPIRED is set and the context stays held. -/
  | regroupExpiry (p slot : Nat)
  /-- SNAPSHOT_CAPTURE (R431): A due snapshot is captured at the first boundary after rescale: G pinned and staged pieces copied. -/
  | snapshotCapture (p slot : Nat)
  /-- SNAPSHOT_STAGING_DONE (R431): Staging of a captured snapshot has completed, allowing the next release. -/
  | snapshotStagingDone (p slot : Nat)
  /-- SNAPSHOT_ANCHOR (R432): Once all chunks and the manifest are acknowledged the anchor is written last. -/
  | snapshotAnchor (p slot : Nat)
  /-- SNAPSHOT (R437): SNAPSHOT makes a snapshot of a context due at the next or named commit. -/
  | snapshot (p : Nat) (rec : CmdRec)
  /-- SNAP_CANCEL (R437): SNAP_CANCEL cancels a due snapshot or fails one in progress. -/
  | snapCancel (p : Nat) (rec : CmdRec)
  /-- RESTORE (R436): RESTORE verifies and writes back a snapshot into memory and the save area. -/
  | restore (p : Nat) (rec : CmdRec)
  /-- REFILL (R424): REFILL copies a live replica's committed state through a remote window. -/
  | refill (p : Nat) (rec : CmdRec)
  /-- RECORD (R437): RECORD writes a resident context's record into its save area without a swap. -/
  | record (p : Nat) (rec : CmdRec)
  /-- VERIFY (R437): VERIFY checks a snapshot's anchors, signature and digests without writing. -/
  | verify (p : Nat) (rec : CmdRec)
  /-- STARTUP (R443): Start-up reads and checks the image, applies preloads, trains links and memory and releases server core 0. -/
  | startup (inp : StartIn)
  /-- LIFETIME_WRITE (R447): A due lifetime area update is written into its other bank, erase, content then header. -/
  | lifetimeWrite (area : Nat)
  /-- GUARD_BLOCK (R449): VDD_IO below 1.71 V makes the supply guard block flash writes, fuse and repair programming. -/
  | guardBlock
  /-- GUARD_RELEASE (R449): After VDD_IO has stayed above 1.74 V for 10 ms the guard releases and blocked work resumes. -/
  | guardRelease
  /-- FLASH_ERASE (R450): CFG_FLASH_CMD ERASE erases a 64 KiB sector outside the lifetime region. -/
  | flashErase (a : Agent) (value : Nat)
  /-- FLASH_PROGRAM (R450): CFG_FLASH_CMD PROGRAM writes a sector from unified memory. -/
  | flashProgram (a : Agent) (value : Nat)
  /-- FLASH_READ (R450): CFG_FLASH_CMD READ copies a sector into unified memory. -/
  | flashRead (a : Agent) (value : Nat)
  /-- PROGRAM_OWNER (R452): PROGRAM_OWNER blows an owner key digest into a slot and then its VALID bit. -/
  | programOwner (a : Agent) (value : Nat)
  /-- REVOKE (R452): REVOKE blows the revocation bit of a slot. -/
  | revoke (a : Agent) (value : Nat)
  /-- ADVANCE_SVN (R452): ADVANCE_SVN blows thermometer bits up to the named count. -/
  | advanceSvn (a : Agent) (value : Nat)
  /-- PROVISION (R454): PROVISION generates, wraps and fuses the sealing and identity keys. -/
  | provision (a : Agent) (value : Nat)
  /-- ATTEST (R455): SEC_ATTEST_CMD writes a signed 512-byte attestation report for a nonce. -/
  | attest (a : Agent) (value : Nat)
  /-- CORE_RELEASE (R445): Setting bits of PKG_CORE_RELm releases server cores at the last written ENTRY. -/
  | coreRelease (a : Agent) (m value : Nat)
  /-- PMC_OVERFLOW (R457): A programmable counter wraps, sets OVF and may raise an event or freeze all counters. -/
  | pmcOverflow (unit k : Nat)
  /-- SAMPLE_CONSUME (R463): A write of PMC_SMP_PTR.RD consumes sampling records and updates FILL. -/
  | sampleConsume (a : Agent) (t value : Nat)
  /-- BW_WINDOW_LATCH (R461): At every boundary that is a multiple of W each byte-counter set latches its window. -/
  | bwWindowLatch
  /-- LIFETIME_SECOND (R466): Each second the temperature, power and score histograms add one second to a bin. -/
  | lifetimeSecond (inp : Sensors)
  /-- LOG_RECORD (R468): Every PERIOD_H powered hours the lifetime log writes its next record. -/
  | logRecord
  /-- FLUSH (R468): A write of LIF_CMD.FLUSH writes a log record now and sets FLUSHED. -/
  | flush (a : Agent) (value : Nat)
  /-- RESET_L_ASSERT (R472): RESET_L asserted for 10 µs or more causes and holds a package reset. -/
  | resetLAssert (ns : Nat)
  /-- RESET_L_DEASSERT (R443): RESET_L deasserted with supplies and REFCLK up begins start-up. -/
  | resetLDeassert
  /-- PWR_OK_FALL (R472): PWR_OK deasserted fences every domain and holds the package in reset. -/
  | pwrOkFall
  /-- DROOP_EVENT (R474): A rail below nominal less DROOP_MV for 20 ns starts a counted droop event with clock skipping. -/
  | droopEvent (rail depth : Nat)
  /-- POWER_CAP_UPDATE (R475): Every 1 ms the power-cap limit moves by one against CAP_W. -/
  | powerCapUpdate (avg : Nat)
  /-- POWER_BRAKE (R475): PWRBRK_L falling sets the issue-share limit to BRAKE_SHARE within 20 µs. -/
  | powerBrake
  /-- BRAKE_RECOVERY (R475): From 1 ms after PWRBRK_L rises the limit rises by 1 every 100 µs. -/
  | brakeRecovery
  /-- THERMTRIP (R476): A sensor at its trip temperature asserts THERMTRIP_L and fences every domain. -/
  | thermtrip (sensor : Nat)
  /-- MGMT_READ64 (R479): Management command 0x10 reads 64 bits of register space. -/
  | mgmtRead64 (off : Nat)
  /-- MGMT_READ32 (R479): Management command 0x11 reads 32 bits at the offset's half. -/
  | mgmtRead32 (off : Nat)
  /-- MGMT_WRITE64 (R479): Management command 0x20 writes 64 bits of register space. -/
  | mgmtWrite64 (off value : Nat)
  /-- MGMT_WRITE32 (R479): Management command 0x21 writes 32 bits of register space. -/
  | mgmtWrite32 (off value : Nat)
  /-- REGACC (R480): The TAP instruction REGACC reaches register space as a management access, confined when owned. -/
  | regacc (write : Bool) (off value : Nat)
  /-- BYPASS (R480): The TAP BYPASS instruction selects the bypass register. -/
  | bypass
  /-- IDCODE (R480): The TAP IDCODE instruction returns 0x1416_094B. -/
  | idcode
  /-- SAMPLE_PRELOAD (R480): The TAP SAMPLE/PRELOAD instruction samples and preloads boundary cells. -/
  | samplePreload (cells : List Nat)
  /-- EXTEST (R480): The TAP EXTEST instruction drives and captures lands through boundary cells. -/
  | extest
  /-- EXTEST_PULSE (R480): The IEEE 1149.6 EXTEST_PULSE instruction tests AC-coupled lanes. -/
  | extestPulse
  /-- EXTEST_TRAIN (R480): The IEEE 1149.6 EXTEST_TRAIN instruction tests AC-coupled lanes with pulse trains. -/
  | extestTrain
  /-- REGISTER_READ (R16): A server-core or control-core read of register space returns fields under the access codes, clearing RC fields and reporting bad sizes or offsets as register access errors. -/
  | registerRead (a : Agent) (off bytes : Nat)
  /-- BUDGET_OVER (R198): A running segment's time passes its budget, and the tile sets BUDGET_OVER while the segment runs on. -/
  | budgetOver (t : Nat)
  /-- ETH_LINK_DOWN (R357): An Ethernet port loses its link, clears ETH_STATUS.UP and counts a link down. -/
  | ethLinkDown (port : Nat)
  /-- ETH_LINK_UP (R357): An Ethernet port completes auto-negotiation and training and sets ETH_STATUS.UP. -/
  | ethLinkUp (port : Nat)
  /-- RAIL_FAULT (R470): A rail leaves its operating range, setting its PWR_STATUS.RAIL_FAULT bit and alerting the board controller. -/
  | railFault (n : Nat)
  /-- RAIL_FAULT_CLEAR (R470): A rail returns within its operating range and its RAIL_FAULT bit clears. -/
  | railFaultClear (n : Nat)
  /-- DROOP_EVENT_END (R474): A drooping rail rises above nominal less DROOP_MV / 2, ending the droop event and its tile-clock skipping. -/
  | droopEventEnd (rail : Nat)
  /-- PWR_OK_RISE (R472): PWR_OK is asserted, ending the hold in reset, and the start-up that follows counts as a power-on. -/
  | pwrOkRise
  /-- PWRBRK_L_RISE (R475): PWRBRK_L rises, clearing PWR_STATUS.BRAKE and starting the 1 ms wait before the brake limit recovers. -/
  | pwrbrkLRise
  /-- FUSE_COMMAND_DONE (R452): A fuse command finishes within 200 ms, writes its RESULT and clears SEC_FUSE_STAT.BUSY. -/
  | fuseCommandDone (result : Nat)
  /-- REPAIR_COMMAND_DONE (R326): A stack repair command finishes, sets STK_REPAIR_STAT, clears BUSY and raises an event. -/
  | repairCommandDone (stack result : Nat)
  /-- FLASH_COMMAND_DONE (R450): A configuration memory ERASE, PROGRAM or READ finishes and CFG_FLASH_STAT reports its result with BUSY cleared. -/
  | flashCommandDone (result : Nat)
  /-- ATTEST_REPORT_DONE (R455): The attestation report is written, and SEC_ATTEST_STAT sets DONE and clears BUSY. -/
  | attestReportDone
  /-- COMMAND_COMPLETION (R394): A long-running ring command such as REFILL, RESTORE, VERIFY, MAP or RESERVE ends, its completion record is written, and the scheduler takes the next command. -/
  | commandCompletion (p status : Nat) (lines : List Nat)
  /-- SNAPSHOT_READ_DONE (R431): Every in-place piece of a snapshot has been read, and the engine releases its pin on G. -/
  | snapshotReadDone (p slot : Nat)
  /-- SETDASA (R479): The I3C command SETDASA gives the management target a dynamic address, after which it runs SDR at up to 12.5 MHz. -/
  | setdasa (addr : Nat)
  /-- ENTDAA (R479): The I3C command ENTDAA assigns the management target a dynamic address by arbitration. -/
  | entdaa (addr : Nat)
deriving DecidableEq, Repr

end Sys2Proof
end

