-- ==== Sys2Proof/Machine/Bits.lean ====
section
/-!
DEFINITION. Bits.lean: bit fields of numbers, signed readings of fields, little-endian byte strings, saturating sums, and
the sums over lists that the meanings use.
-/

namespace Sys2Proof.Machine

/-- Bits [lo + w - 1 : lo] of a number. -/
def bits (x lo w : Nat) : Nat := (x >>> lo) % 2 ^ w

/-- Bit k of a number, as a truth value. -/
def bit (x k : Nat) : Bool := bits x k 1 == 1

/-- A number with bits [lo + w - 1 : lo] set to v. -/
def setBits (x lo w v : Nat) : Nat :=
  x - (bits x lo w) <<< lo + (v % 2 ^ w) <<< lo

/-- A w-bit number read as two's complement. -/
def toInt (w x : Nat) : Int :=
  if x % 2 ^ w < 2 ^ (w - 1) then (x % 2 ^ w : Nat) else (x % 2 ^ w : Nat) - (2 ^ w : Nat)

/-- An integer as a w-bit two's complement number. -/
def ofInt (w : Nat) (x : Int) : Nat := (x % (2 ^ w : Nat)).toNat

/-- A sum that stays at the largest w-bit number. -/
def satAdd (w a b : Nat) : Nat := min (a + b) (2 ^ w - 1)

/-- A truth value as a bit. -/
def b2n (b : Bool) : Nat := if b then 1 else 0

/-- The low n bytes of a number, least significant first (R12). -/
def leBytes : Nat → Nat → List (BitVec 8)
  | 0, _ => []
  | n + 1, x => BitVec.ofNat 8 x :: leBytes n (x / 256)

/-- The number that a little-endian byte string spells. -/
def ofLe : List (BitVec 8) → Nat
  | [] => 0
  | b :: r => b.toNat + 256 * ofLe r

/-- The number that little-endian words of w bits spell, least significant first. -/
def ofWords (w : Nat) : List Nat → Nat
  | [] => 0
  | x :: r => x % 2 ^ w + 2 ^ w * ofWords w r

/-- A number as n little-endian words of w bits. -/
def toWords (w : Nat) : Nat → Nat → List Nat
  | 0, _ => []
  | n + 1, x => x % 2 ^ w :: toWords w n (x / 2 ^ w)

/-- The number of 1 bits among the low n bits. -/
def popcount : Nat → Nat → Nat
  | 0, _ => 0
  | n + 1, x => x % 2 + popcount n (x / 2)

/-- The lowest k below n that meets a test. -/
def firstUpTo (n : Nat) (f : Nat → Bool) : Option Nat := (List.range n).find? f

/-- Apply a function for each k below n in order. -/
def forRange {σ : Type} (n : Nat) (f : Nat → σ → σ) (s : σ) : σ := (List.range n).foldl (fun s k => f k s) s

/-- The sum of a list of numbers. -/
def sumList : List Nat → Nat
  | [] => 0
  | x :: r => x + sumList r

/-- One byte into the reflected CRC-32C of R369. -/
def crc32cByte (c b : Nat) : Nat := forRange 8 (fun _ c => if c % 2 = 1 then (c / 2) ^^^ 0x82F63B78 else c / 2) (c ^^^ b)

/-- CRC-32C of a string of bytes (R369). -/
def crc32c (l : List Nat) : Nat := l.foldl (fun c b => crc32cByte c (b % 256)) 0xFFFFFFFF ^^^ 0xFFFFFFFF

/-- The low n bytes of a number as numbers, least significant first. -/
def numBytes (n x : Nat) : List Nat := (List.range n).map fun i => bits x (8 * i) 8

/-- Replace entry k of a list. -/
def setAt {α : Type} : List α → Nat → α → List α
  | [], _, _ => []
  | _ :: r, 0, v => v :: r
  | x :: r, k + 1, v => x :: setAt r k v

end Sys2Proof.Machine
end

