-- ==== Sys2Proof/Config.lean ====
section
/-!
DEFINITION. Config.lean: what the spec leaves to an implementation or to a standard that it names. Every constant here is
opaque: nothing can be proved of its value, and a statement holds whatever it is (log entries 2 and 3).
-/

namespace Sys2Proof.Config

/-- A value that the spec leaves open, by the count of values drawn so far (log entry 2). -/
opaque freeValue : Nat → Nat

/-- SHA-512 of a byte string, as its 512-bit digest (FIPS 180-4; log entry 3). -/
opaque sha512 : List (BitVec 8) → Nat

/-- Whether an ECDSA P-521 signature over a byte string is right under a public point (FIPS 186-5; log entry 3). -/
opaque ecdsaOk : Nat → List (BitVec 8) → Nat → Bool

/-- An ECDSA P-521 signature by a private key over a byte string (FIPS 186-5; log entry 3). -/
opaque ecdsaSign : Nat → List (BitVec 8) → Nat

/-- The uncompressed public point of a private key (log entry 3). -/
opaque publicPoint : Nat → Nat

/-- AES key wrap of a key under a wrapping key (log entry 3). -/
opaque keyWrap : Nat → Nat → Nat

/-- AES key unwrap; none where the wrapped key does not unwrap (log entry 3). -/
opaque keyUnwrap : Nat → Nat → Option Nat

/-- The output of a record codec: DEFLATE, Zstandard or JPEG by its code (log entry 3). -/
opaque decodeBytes : Nat → List (BitVec 8) → Option (List (BitVec 8))

/-- The translation of a device address by the IOMMU of a root port (RISC-V IOMMU specification; log entry 3). -/
opaque iommu : Nat → List (Nat × Nat × Nat) → Bool → Nat → Option Nat

/-- The server core to which a write of a device at an address is a message-signalled interrupt, by root port and address: the interrupt
controller of the RISC-V ISA and its place are not given (R363; log entry 3). -/
opaque msiTarget : Nat → Nat → Option Nat

/-- What a read of the configuration space of a root port returns, from the writes that it has taken since the reset of its domain, as
offset, bytes and value, oldest first, and the offset and bytes read (PCIe 6.0; log entry 3). -/
opaque pcieRead : Nat → List (Nat × Nat × Nat) → Nat → Nat → Nat

/-- The data slot of a tick marker, from its boundary number and time base (its layout is not given; log entry 3). -/
opaque tickSlot : Nat → Nat → Nat

/-- The hops to the master of the domain behind an Afraeri port (R63): only the packages around tell it (log entry 2). -/
opaque tickHops : Nat → Nat

/-- The member of a trunk that carries a REQ or RSP message, from the members that are up, SRC, DST and the line address (the hash
of R337 is not given; log entry 3). -/
opaque trunkMember : List Nat → Nat → Nat → Nat → Nat

/-- The hash by which a UCIe link spreads lines over the modules listed (R29; the hash is not given; log entry 3). -/
opaque ucieHash : Nat → List Nat → Nat → Nat

/-- The number that the home of a line gives its transaction, which its snoops carry (R302; how a home numbers them is not given; log
entry 3). -/
opaque homeTxn : Nat → Nat

/-- Die, port number and role epoch in the data slot of a HELLO (its layout is not given; log entry 3). -/
opaque helloFields : Nat → Nat × Nat × Nat

/-- The data slot of the HELLO that a port sends: package id, die, port number and role epoch (its layout is not given; log entry 3). -/
opaque helloSlot : Nat → Nat → Nat → Nat → Nat

/-- The bits of the stored word of a line in a row that a spare column group replaces, from the column address of the repair and the line's
place in its row (R326; which columns an address names is not given; log entry 3). -/
opaque columnBits : Nat → Nat → Nat

/-- Data slot i of a COLL_DATA message, from what it carries (the layout beside the 3 bytes of an element is not given; log entry 3). -/
opaque collSlot : CollPart → Nat → Nat

/-- What a queue pair's 256-byte context says (its layout is not given; log entry 3): its user, 0 the collective engine, 1 the intake
engine, 2 the snapshot engine, 3 host software; and the partition of the registered region that holds all of a span. -/
opaque qpUser : Nat → Nat
opaque qpRegion : Nat → Nat → Nat → Option Nat

/-- The payload of a SEND between collective engines (its layout is not given; log entry 3): the slot of a STOT, or group, element and part
of a chain message; and the payloads that carry a STOT and a chain message. -/
opaque ethStot : List Nat → Option Nat
opaque ethColl : List Nat → Option (Nat × Nat × CollPart)
opaque ethStotPayload : Nat → List Nat
opaque ethPayload : Nat → Nat → CollPart → List Nat

/-- The bytes of an intake commit record, from the values that it holds (its layout is not given; log entry 3). -/
opaque intakeRecord : List Nat → Nat

/-- Reading of an intake commit record: the values that it holds, in their order (log entry 3). -/
opaque intakeParse : Nat → List Nat

/-- What the context record holds of the exchanged tables of the last steps (R222, R429; their place in the record is not given; log
entry 3), as slot, bins and MAXEXP of each row, and its reading. -/
opaque pgWindow : List (List (Nat × List Nat × Option Int)) → Nat
opaque pgParse : Nat → List (List (Nat × List Nat × Option Int))

/-- The bytes of a bank of the service area from the FAILED masks of the herds and the out-of-service state with OOS_CLEARABLE, and
its reading (its layout is not given; log entry 3). -/
opaque serviceBank : List Nat → Nat
opaque serviceParse : Nat → List Nat

end Sys2Proof.Config
end

