-- ==== Sys2Proof/Machine/Num.lean ====
section
/-!
DEFINITION. Num.lean: the number formats of spec/03_number_formats.md, exact values, the two rounding modes, conversions
(R94), arithmetic roundings (R95), pairs of a value and a fawn (R81, R82), and the dither generator (R99).
-/

namespace Sys2Proof.Machine

/-- An exact value: a NaN, an infinity, or a signed magnitude mag × 2^exp with a signed zero. -/
inductive XVal where
  | nan
  | inf (neg : Bool)
  | fin (neg : Bool) (mag : Nat) (exp : Int)
deriving DecidableEq, Repr

/-- +0. -/
def XVal.zero : XVal := .fin false 0 0

/-- An integer as an exact value. -/
def XVal.ofInt (i : Int) : XVal := .fin (decide (i < 0)) i.natAbs 0

/-- The exact value is a NaN. -/
def XVal.isNan : XVal → Bool
  | .nan => true
  | _ => false

/-- The exact value is an infinity. -/
def XVal.isInf : XVal → Bool
  | .inf _ => true
  | _ => false

/-- The exact value is a NaN or an infinity. -/
def XVal.nonfinite (x : XVal) : Bool := x.isNan || x.isInf

/-- NEG of R493 on a value. -/
def XVal.negate : XVal → XVal
  | .nan => .nan
  | .inf n => .inf (!n)
  | .fin n m e => .fin (!n) m e

/-- The magnitude of a value. -/
def XVal.magnitude : XVal → XVal
  | .nan => .nan
  | .inf _ => .inf false
  | .fin _ m e => .fin false m e

/-- A magnitude m × 2^e in units of 2^g, for g at most e. -/
def scaleTo (m : Nat) (e g : Int) : Nat := m <<< (e - g).toNat

/-- Compare the magnitudes m1 × 2^e1 and m2 × 2^e2. -/
def cmpMag (m1 : Nat) (e1 : Int) (m2 : Nat) (e2 : Int) : Ordering :=
  compare (scaleTo m1 e1 (min e1 e2)) (scaleTo m2 e2 (min e1 e2))

/-- The signed integer that a finite value is in units of 2^g, for g at most its exponent. -/
def signedAt (n : Bool) (m : Nat) (e g : Int) : Int :=
  if n then -(scaleTo m e g : Nat) else (scaleTo m e g : Nat)

/-- The exact sum (R117, R141): an exact zero is +0 unless both terms are −0. -/
def XVal.add : XVal → XVal → XVal
  | .nan, _ => .nan
  | _, .nan => .nan
  | .inf a, .inf b => if a = b then .inf a else .nan
  | .inf a, _ => .inf a
  | _, .inf b => .inf b
  | .fin n m e, .fin n' m' e' =>
    let g := min e e'
    let t := signedAt n m e g + signedAt n' m' e' g
    if t = 0 then .fin (n && m == 0 && n' && m' == 0) 0 g else .fin (decide (t < 0)) t.natAbs g

/-- The exact product; an infinity times a zero has no value. -/
def XVal.mul : XVal → XVal → XVal
  | .nan, _ => .nan
  | _, .nan => .nan
  | .inf a, .inf b => .inf (a != b)
  | .inf a, .fin n m _ => if m = 0 then .nan else .inf (a != n)
  | .fin n m _, .inf b => if m = 0 then .nan else .inf (n != b)
  | .fin n m e, .fin n' m' e' => .fin (n != n') (m * m') (e + e')

/-- The order of two values that are not NaN, with −0 below +0 (R91). -/
def XVal.totLt : XVal → XVal → Bool
  | .nan, _ => false
  | _, .nan => false
  | .inf a, .inf b => a && !b
  | .inf a, _ => a
  | _, .inf b => !b
  | .fin n m e, .fin n' m' e' =>
    if n != n' then n
    else if n then cmpMag m' e' m e == .lt else cmpMag m e m' e' == .lt

/-- Minimum under R91. -/
def XVal.min (a b : XVal) : XVal := if a.isNan then b else if b.isNan then a else if b.totLt a then b else a

/-- Maximum under R91. -/
def XVal.max (a b : XVal) : XVal := if a.isNan then b else if b.isNan then a else if a.totLt b then b else a

/-- The comparisons of R92: +0 and −0 are equal, a NaN is unordered. -/
def XVal.cmp (a b : XVal) : Option Ordering :=
  match a, b with
  | .nan, _ => none
  | _, .nan => none
  | .fin n m e, .fin n' m' e' =>
    some (compare (signedAt n m e (Min.min e e')) (signedAt n' m' e' (Min.min e e')))
  | x, y => some (if x = y then .eq else if x.totLt y then .lt else .gt)

/-- A relation of CMP on the outcome of a comparison (R92). -/
def relHolds : Rel → Option Ordering → Bool
  | .eq, o => o == some .eq
  | .ne, o => o != some .eq
  | .lt, o => o == some .lt
  | .le, o => o == some .lt || o == some .eq
  | .gt, o => o == some .gt
  | .ge, o => o == some .gt || o == some .eq

/-- The layout of a binary floating-point format (R74): exponent and fraction widths, bias, its largest finite code, and
whether it has infinities. -/
structure FF where
  eb : Nat
  mb : Nat
  bias : Nat
  maxCode : Nat
  hasInf : Bool
  nanCode : Nat
deriving DecidableEq, Repr

/-- E4M3. -/
def FF.e4m3 : FF := ⟨4, 3, 7, 0x7E, false, 0x7F⟩
/-- E5M2. -/
def FF.e5m2 : FF := ⟨5, 2, 15, 0x7B, true, 0x7E⟩
/-- BF16. -/
def FF.bf16 : FF := ⟨8, 7, 127, 0x7F7F, true, 0x7FC0⟩
/-- FP16. -/
def FF.fp16 : FF := ⟨5, 10, 15, 0x7BFF, true, 0x7E00⟩
/-- binary32, the format of scalar registers (R137). -/
def FF.b32 : FF := ⟨8, 23, 127, 0x7F7FFFFF, true, 0x7FC00000⟩

/-- The width of a format's code in bits. -/
def FF.width (f : FF) : Nat := 1 + f.eb + f.mb

/-- The exponent of the grid step of the smallest binade. -/
def FF.gmin (f : FF) : Int := 1 - (f.bias : Int) - f.mb

/-- The code of an infinity, without its sign. -/
def FF.infCode (f : FF) : Nat := (2 ^ f.eb - 1) <<< f.mb

/-- A magnitude code with a sign. -/
def FF.signed (f : FF) (neg : Bool) (c : Nat) : Nat := if neg then c + 2 ^ (f.eb + f.mb) else c

/-- The value of a code (R75). -/
def FF.value (f : FF) (code : Nat) : XVal :=
  let neg := bit code (f.eb + f.mb)
  let e := bits code f.mb f.eb
  let m := bits code 0 f.mb
  let mag := bits code 0 (f.eb + f.mb)
  if e = 0 then .fin neg m f.gmin
  else if f.hasInf && e == 2 ^ f.eb - 1 then (if m = 0 then .inf neg else .nan)
  else if !f.hasInf && mag == f.nanCode then .nan
  else .fin neg (2 ^ f.mb + m) (f.gmin + ((e : Int) - 1))

/-- The value of the largest finite code: magnitude and exponent. -/
def FF.largest (f : FF) : Nat × Int :=
  match f.value f.maxCode with
  | .fin _ m e => (m, e)
  | _ => (0, 0)

/-- The rounding mode in force, SR with its dither (R93). -/
inductive Rnd where
  | rne
  | sr (d : Nat)
deriving DecidableEq, Repr

/-- The rounding of R96 of num / den to an integer. -/
def roundQ (r : Rnd) (num den : Nat) : Nat :=
  let n := num / den
  match r with
  | .rne => if 2 * (num - n * den) > den ∨ (2 * (num - n * den) = den ∧ n % 2 = 1) then n + 1 else n
  | .sr d => if ((num - n * den) * 65536) / den + d ≥ 65536 then n + 1 else n

/-- Round to nearest with ties toward +∞, of a magnitude with a sign (step 3 of R82). -/
def roundUpTies (neg : Bool) (num den : Nat) : Nat :=
  let n := num / den
  if 2 * (num - n * den) > den ∨ (2 * (num - n * den) = den ∧ neg = false) then n + 1 else n

/-- A magnitude m × 2^e as num / den in units of 2^g. -/
def asQ (m : Nat) (e g : Int) : Nat × Nat :=
  if g ≤ e then (m <<< (e - g).toNat, 1) else (m, 2 ^ (g - e).toNat)

/-- The exponent of the grid step for a magnitude: max(E, E_min) − M (R96). -/
def FF.grid (f : FF) (m : Nat) (e : Int) : Int :=
  if m = 0 then f.gmin else max ((Nat.log2 m : Int) + e - f.mb) f.gmin

/-- The magnitude code of n grid steps of 2^g. -/
def FF.encode (f : FF) (n : Nat) (g : Int) : Nat := n + ((g - f.gmin).toNat) * 2 ^ f.mb

/-- A magnitude rounded to the grid of a format: its code (R96). -/
def FF.roundMag (f : FF) (r : Rnd) (m : Nat) (e : Int) : Nat :=
  let g := f.grid m e
  let q := asQ m e g
  f.encode (roundQ r q.1 q.2) g

/-- What an operation writes and reports for one element: the code, CVT_OVF, CVT_INVALID, ARITH_OVF, ARITH_INVALID,
whether the element counts as saturated (R488) or as non-finite, and PERM_RANGE. -/
structure Res where
  code : Nat
  cvtOvf : Bool := false
  cvtInv : Bool := false
  arOvf : Bool := false
  arInv : Bool := false
  sat : Bool := false
  nonfin : Bool := false
  perm : Bool := false
deriving DecidableEq, Repr

/-- The flags of a result in the order of TIL_VSTATUS (R149); above them, from bit 5 on, the count of conversions that set
CVT_OVF (R458). -/
def Res.flags (r : Res) : Nat :=
  33 * b2n r.cvtOvf + 2 * b2n r.cvtInv + 4 * b2n r.arOvf + 8 * b2n r.arInv + 16 * b2n r.perm

/-- The flags of two parts of one instruction: bits are set by either, counts add up. -/
def joinFlags (a b : Nat) : Nat := (a % 32 ||| b % 32) + 32 * (a / 32 + b / 32)

/-- Flags with a count of output blocks whose status merged non-finite (R458), from bit 40 on. -/
def blockFlags (fl n : Nat) : Nat := fl + 2 ^ 40 * n

/-- The block status that one written element asks for (R89). -/
def Res.status (r : Res) : Nat := if r.nonfin then 2 else if r.sat then 1 else 0

/-- Divide by the scale 2^(c − 127) (R94, case 5). -/
def unscale (c : Nat) : XVal → XVal
  | .fin n m e => .fin n m (e - ((c : Int) - 127))
  | x => x

/-- Multiply by the scale 2^(c − 127) (R83). -/
def rescale (c : Nat) : XVal → XVal
  | .fin n m e => .fin n m (e + ((c : Int) - 127))
  | x => x

/-- The conversion of R94 into a floating-point format; `scaled` gives the scale code of a block-scaled destination and
`e4inf` is TIL_NUMCTL.E4M3_INF. -/
def FF.convert (f : FF) (r : Rnd) (e4inf : Bool) (scaled : Option Nat) (x : XVal) : Res :=
  match x with
  | .nan => { code := f.nanCode, nonfin := true }
  | .inf n =>
    if f.hasInf then { code := f.signed n f.infCode, nonfin := true }
    else if e4inf then { code := f.nanCode, nonfin := true }
    else { code := f.signed n f.maxCode, cvtOvf := true, sat := true }
  | .fin _ _ _ =>
    match (match scaled with | some c => unscale c x | none => x) with
    | .fin n m e =>
      if cmpMag m e f.largest.1 f.largest.2 = .gt then { code := f.signed n f.maxCode, cvtOvf := true, sat := true }
      else { code := f.signed n (f.roundMag r m e) }
    | _ => { code := f.nanCode, nonfin := true }

/-- The conversion of R94 into a signed integer format of w bits. -/
def intConvert (w : Nat) (r : Rnd) (x : XVal) : Res :=
  match x with
  | .nan => { code := 0, cvtInv := true }
  | .inf n => { code := if n then 2 ^ (w - 1) else 2 ^ (w - 1) - 1, cvtOvf := true }
  | .fin n m e =>
    let lim := if n then 2 ^ (w - 1) else 2 ^ (w - 1) - 1
    if cmpMag m e lim 0 = .gt then { code := lim, cvtOvf := true }
    else
      let q := asQ m e 0
      let k := roundQ r q.1 q.2
      { code := ofInt w (if n then -(k : Nat) else (k : Nat)) }

/-- The arithmetic rounding of R95 of an exact value that is not the outcome of an undefined operation. -/
def FF.arith (f : FF) (r : Rnd) (x : XVal) : Res :=
  match x with
  | .nan => { code := f.nanCode, nonfin := true }
  | .inf n => { code := f.signed n f.infCode, nonfin := true }
  | .fin n m e =>
    let c := f.roundMag r m e
    if c ≥ f.infCode then { code := f.signed n f.infCode, arOvf := true, nonfin := true }
    else { code := f.signed n c }

/-- The result of an undefined operation on operands that are not NaN (R95). -/
def FF.undefined (f : FF) : Res := { code := f.nanCode, arInv := true, nonfin := true }

/-- The layout of a floating-point element format. -/
def fmtFF : Fmt → Option FF
  | .e4m3 => some .e4m3
  | .e5m2 => some .e5m2
  | .bf16 => some .bf16
  | .fp16 => some .fp16
  | _ => none

/-- The width of an element in bits (R73, R160). -/
def fmtBits : Fmt → Nat
  | .e4m3 => 8
  | .e5m2 => 8
  | .bf16 => 16
  | .fp16 => 16
  | .int8 => 8
  | .int4 => 4
  | .fwn8 => 8
  | .i16 => 16
  | .int32 => 32

/-- The FP8 formats, whose elements are block-scaled (R83). -/
def fmtFp8 : Fmt → Bool
  | .e4m3 => true
  | .e5m2 => true
  | _ => false

/-- The value of an element code in any element format, before the scale of a block. -/
def fmtValue (f : Fmt) (code : Nat) : XVal :=
  match fmtFF f with
  | some ff => ff.value code
  | none => XVal.ofInt (toInt (fmtBits f) code)

/-- The conversion of R94 into any element format. -/
def fmtConvert (f : Fmt) (r : Rnd) (e4inf : Bool) (scale : Nat) (x : XVal) : Res :=
  match fmtFF f with
  | some ff => ff.convert r e4inf (if fmtFp8 f then some scale else none) x
  | none => intConvert (fmtBits f) r x

/-- The canonical NaN of a format, 0 for an integer format (R76, R94). -/
def fmtNan (f : Fmt) : Nat :=
  match fmtFF f with
  | some ff => ff.nanCode
  | none => 0

/-- What a conversion writes into an invalid block (R88): the canonical NaN code. -/
def invalidRes (f : Fmt) : Res := { code := fmtNan f, cvtInv := true, nonfin := true }

/-- A conversion into a block whose record holds this scale (R88, R94). -/
def blockConvert (f : Fmt) (r : Rnd) (e4inf : Bool) (scale : Nat) (x : XVal) : Res :=
  if scale = 0xFF then invalidRes f else fmtConvert f r e4inf scale x

/-- The floating-point layout of a vector operand type; I16 has none. -/
def vtyFF : VTy → FF
  | .fp16 => .fp16
  | _ => .bf16

/-- A vector operand type as an element format. -/
def vtyFmt : VTy → Fmt
  | .bf16 => .bf16
  | .fp16 => .fp16
  | .i16 => .i16

/-- The exponent of ulp(v) of a finite 16-bit code (R80). -/
def FF.ulpExp (f : FF) (code : Nat) : Int := f.gmin + ((bits code f.mb f.eb - 1 : Nat) : Int)

/-- The exact value of a pair (R81): the fawn of an infinity or a NaN is ignored. -/
def pairValue (f : FF) (code : Nat) (fawn : Int) : XVal :=
  match f.value code with
  | .fin n m e =>
    let u := f.ulpExp code - 8
    let g := min e u
    let t := signedAt n m e g + fawn * (2 ^ (u - g).toNat : Nat)
    if t = 0 then .fin (n && m == 0 && fawn == 0) 0 g else .fin (decide (t < 0)) t.natAbs g
  | x => x

/-- The successor of a finite code toward +∞. -/
def FF.succ (f : FF) (code : Nat) : Nat := if bit code (f.eb + f.mb) then code - 1 else code + 1

/-- The signed value of a finite code in units of 2^g. -/
def FF.unitsOf (f : FF) (code : Nat) (g : Int) : Int :=
  match f.value code with
  | .fin n m e => signedAt n m e g
  | _ => 0

/-- The pair that the device writes for an exact value (R82): the value's result and the fawn. -/
def writePair (f : FF) (r : Rnd) (x : XVal) : Res × Int :=
  match x with
  | .fin n m e =>
    if cmpMag m e f.largest.1 f.largest.2 = .gt then ({ code := f.signed n f.maxCode, cvtOvf := true, sat := true }, 0)
    else
      let gr := f.grid m e
      let q := asQ m e gr
      let v0 := f.signed n (f.encode (roundUpTies n q.1 q.2) gr)
      let u := f.ulpExp v0
      let g := min e (min u f.gmin)
      let d := signedAt n m e g - f.unitsOf v0 g
      let qn := d.natAbs * 256
      let k := roundQ r qn (2 ^ (u - g).toNat)
      let fw : Int := if d < 0 then -(k : Nat) else (k : Nat)
      if fw = 128 then
        let v := f.succ v0
        let t := 128 * ((2 ^ (u - g).toNat : Nat) : Int) - (f.unitsOf v g - f.unitsOf v0 g) * 256
        ({ code := v }, t / ((2 ^ (f.ulpExp v - g).toNat : Nat) : Int))
      else ({ code := v0 }, fw)
  | _ => (f.convert r false none x, 0)

/-- The store of a pair into a block whose record holds this scale (R82, R88). -/
def blockPair (f : Fmt) (r : Rnd) (scale : Nat) (x : XVal) : Res × Int :=
  if scale = 0xFF then (invalidRes f, 0) else writePair ((fmtFF f).getD .bf16) r x

/-- mix32 of R99. -/
def mix32 (x : Nat) : Nat :=
  let x := x ^^^ (x >>> 16)
  let x := (x * 0x21F0AAAD) % 2 ^ 32
  let x := x ^^^ (x >>> 15)
  let x := (x * 0xD35A2D97) % 2 ^ 32
  x ^^^ (x >>> 15)

/-- The dither of R99: 16 bits from the job seed, the tensor id, the logical index and the step number. -/
def dither (seed tensor index step : Nat) : Nat :=
  let k0 := bits seed 0 32
  let k1 := bits seed 32 32
  let k2 := bits seed 64 32
  let k3 := bits seed 96 32
  let h := mix32 (k0 ^^^ bits tensor 0 32)
  let h := mix32 (h ^^^ k1 ^^^ bits index 0 32)
  let h := mix32 (h ^^^ k2 ^^^ bits index 32 16)
  let h := mix32 (h ^^^ k3 ^^^ bits step 0 32)
  let h := mix32 (h ^^^ k0 ^^^ k2 ^^^ bits step 32 16)
  bits h 0 16

/-- Rounding to 48-bit precision under RNE without an exponent limit (R116). -/
def roundP48 : XVal → XVal
  | .fin n m e =>
    if m < 2 ^ 48 then .fin n m e
    else
      let s := Nat.log2 m - 47
      .fin n (roundQ .rne m (2 ^ s)) (e + s)
  | x => x

/-- merge_status of R88: finite < saturated < non-finite. -/
def mergeStatus (a b : Nat) : Nat :=
  if 2 ≤ a ∨ 2 ≤ b then 2 else if a = 1 ∨ b = 1 then 1 else 0

/-- A STATUS field as read (R84): the reserved value reads as non-finite. -/
def readStatus (a : Nat) : Nat := if 2 ≤ a then 2 else a

/-- A saturating 32-bit integer sum (R122) and whether it saturated. -/
def satAdd32 (a p : Int) : Int × Bool :=
  let t := a + p
  if t > 2147483647 then (2147483647, true) else if t < -2147483648 then (-2147483648, true) else (t, false)

/-- The integer that an integer accumulator's value is. -/
def XVal.toInt32 : XVal → Int
  | .fin n m e => signedAt n m e (Min.min e 0)
  | _ => 0

/-- A signed integer held to the range of w bits, and whether it was held. -/
def satInt (w : Nat) (i : Int) : Int × Bool :=
  let hi : Int := (2 ^ (w - 1) : Nat)
  if i > hi - 1 then (hi - 1, true) else if i < -hi then (-hi, true) else (i, false)

end Sys2Proof.Machine
end

