-- ==== Sys2Proof/Machine/Regs.lean ====
section
/-!
DEFINITION. Regs.lean: register space as the register tables of spec/ lay it out: the block bases (R5, R37 to R40), the
offset of every register (`R`), every field with its bits, reset value and access code (`F`), and the table of rows by
block that a register access looks its offset up in (R13, R16). The per-context registers of R391 carry their offset in
the SCH_ block; all other offsets are register-space offsets.
-/

namespace Sys2Proof.Machine

/-- The access codes of R16, and CFG (R440). -/
inductive Acc where
  | ro | rw | wo | w1c | w1s | rc | lk | cfg
deriving DecidableEq, Repr

/-- One field of a register: its name, least bit, width, reset value (0 where the table gives a dash) and access code. -/
structure Fld where
  lo : Nat
  w : Nat
  rst : Nat
  acc : Acc
deriving DecidableEq, Repr

/-- The kinds of block that hold registers (R38 to R40); `bw` is a byte-counter set (R460). -/
inductive Blk where
  | tck | til | hrd | sch | schg | plcHost | plcDie | coh | stk | cap | afrPort | afrEng | eth | ink | inks | pkg | flt | hlt | snap | cfg | sec | lif | pwr | bw | dieB
deriving DecidableEq, Repr

/-- Every register of the register tables. -/
inductive RegName where
  | TCK_COUNT | TCK_TIME | TCK_CTRL | TCK_STATUS | TCK_SYNC | TCK_OFFSET
  | TCK_RATE | TCK_STEP | TCK_PPS | TCK_WDOG | TCK_TMO | TCK_STOT
  | TIL_NUMCTL | TIL_MMA_STATUS | HRD_GANG | HRD_GANG_WIDTH | TIL_VSTATUS | TIL_SREG
  | HRD_SUMM_Q | HRD_SUMM_CTL | HRD_SUMM_LEVEL | TIL_SEGQ_PUSH | TIL_SEGQ_STATUS | TIL_SEG_STATUS
  | TIL_SEG_RETIRED | TIL_CRED | HRD_HEARTBEAT | SCH_SEM | SCH_SEMADD | SCH_GSEM
  | SCH_GSEMADD | SCH_NUM_CTL | SCH_RESCALE_BASE | SCH_RESCALE_COUNT | SCH_NUM_STAT | SCH_SCALE_STAT
  | SCH_PG_CTL | SCH_PG | SCH_PG_ID | SCH_PIPE_CTL | SCH_PIPE_READY | SCH_PIPE_TAG
  | SCH_PIPE_STAT | SCH_TIED_BASE | SCH_VER | SCH_VER_PIN | SCH_COMMIT | SCH_VTAB
  | SCH_LR | SCH_LR_LAT | SCH_UPD_CTL | SCH_UPD_STAT | HRD_UPD_EVT | HRD_UPD_STAT
  | PLC_CTRL | PLC_POLICY | PLC_FRAMES | PLC_RESV | PLC_STAT | PLC_RM_INDEX
  | PLC_RM_DATA | PLC_PART_QUOTA | PLC_REG | PLC_REG_LVL | PLC_MIG_CTL | PLC_MIG_STAT
  | PLC_RMC_STAT | PLC_MIG | SCH_TASK_BASE | SCH_TASK_COUNT | HRD_TASK_POP | HRD_TASK_IDX
  | HRD_TASK_DONE | COH_CTL | COH_STAT | COH_SF | COH_BUSY | COH_POISON
  | STK_CTRL | STK_STATUS | STK_ERR | STK_ERR_ADDR | STK_SCRUB | STK_REMAP_STAT
  | STK_REMAP_IDX | STK_REMAP_DATA | STK_REPAIR_CMD | STK_REPAIR_STAT | CAP_CTRL | CAP_ERR
  | CAP_ERR_ADDR | CAP_SCRUB | CAP_REMAP_STAT | CAP_REMAP_IDX | CAP_REMAP_DATA | AFR_PORT_CTL
  | AFR_PORT_STATUS | AFR_PORT_ERR | AFR_ID | AFR_CTL | AFR_COLL_BASE | AFR_STAT
  | AFR_STOT_CMD | AFR_RPERM | AFR_WIN | AFR_ROUTE | ETH_CTL | ETH_STATUS
  | ETH_QPC_BASE | ETH_CC | ETH_ERR | INK_CTRL | INK_S_CTRL | INK_S_SHAPE
  | INK_S_AREA | INK_S_BATCH | INK_S_SHARDS | INK_S_SHARDN | INK_S_TIME | INK_S_STATE
  | INK_S_CURSOR | INK_S_OFFSET | INK_S_CNT | INK_S_BAD | SCH_PART | SCH_CMDQ
  | SCH_CPLQ | SCH_CMD_PTR | SCH_CPL_PTR | SCH_CMD_STAT | SCH_CTX_SEL | SCH_SLOT
  | SCH_SW_STAT | SCH_KCTX | PKG_EVQ | PKG_EVQ_PTR | FLT_CTL | FLT_STATUS
  | FLT_RESET | FLT_OOS | FLT_ERRCNT | FLT_REGERR | FLT_RSTCNT | FLT_LOG_PTR
  | FLT_HERD | FLT_LOG | HLT_CTL | HLT_WGT | HLT_WGT2 | HLT_SCORE
  | HLT_AGE | SNAP_CTL | SNAP_NVQ | SNAP_STATUS | SNAP_STAT | SCH_SNAP_CTL
  | SCH_SNAP_LIST | SCH_SNAP_TGT | SCH_SNAP_STAT | SCH_REGROUP | PKG_IDENT | PKG_SERIAL
  | PKG_STATUS | PKG_CORE_REL | PKG_CORE_RELM | CFG_STATUS | CFG_IMAGE | CFG_LIFE
  | CFG_MEM_FAIL | CFG_DIGEST | CFG_FLASH_CMD | CFG_FLASH_STAT | SEC_FUSE_CMD | SEC_FUSE_STAT
  | SEC_OWNER | SEC_IDPUB | SEC_ATTEST_CMD | SEC_ATTEST_STAT | PMC_TCYC | PMC_TEVT
  | PMC_TCNT | PMC_HEVT | PMC_HCNT | PMC_SMP_CTL | PMC_SMP_PTR | SCH_PMC_CTL
  | PKG_PMC_CTL | LIF_CTL | LIF_CMD | LIF_STATUS | LIF_CNT | LIF_HIST
  | PWR_CTRL | PWR_STATUS | PWR_DROOP | PWR_RAIL | PMC_BW_CTL | PMC_BW_END
  | PMC_BW_A | PMC_BW_B | PMC_BW_WA | PMC_BW_WB | PMC_SMP_REC
deriving DecidableEq, Repr

/-- The block base of accelerator die d (R37). -/
def B.die (d : Nat) : Nat := 0x40000000 * (d + 1)
/-- The block base of the global herd h (R40). -/
def B.hrd (h : Nat) : Nat := B.die (h / 8) + 0x1000000 * (h % 8 + 1)
/-- The block base of the global tile t (R40). -/
def B.til (t : Nat) : Nat := B.hrd (t / 12) + 0x100000 * (t % 12 + 1)
/-- The block base of the global stack s (R40). -/
def B.stk (s : Nat) : Nat := B.die (s / 8) + 0x0A000000 + 0x40000 * (s % 8)
/-- The block base of the capacity bus b (R39). -/
def B.cap (b : Nat) : Nat := 0x11000000 + 0x10000 * b
/-- The block base of a home slice: 0 to 63 are the host die's, 64 + 32 d + n is slice n of die d (R39, R40). -/
def B.coh (n : Nat) : Nat :=
  if n < 64 then 0x12000000 + 0x10000 * n else B.die ((n - 64) / 32) + 0x09800000 + 0x10000 * ((n - 64) % 32)
/-- The SCH_ block of partition p (R38). -/
def B.sch (p : Nat) : Nat := 0x800000 + 0x10000 * p
/-- The stream registers of partition p (R39). -/
def B.inks (p : Nat) : Nat := 0x10000000 + 0x10000 * (p + 1)
/-- The placement block of die d (R40). -/
def B.plcDie (d : Nat) : Nat := B.die d + 0x09000000
/-- The block of the global Afraeri port g (R40). -/
def B.afrPort (g : Nat) : Nat := B.die (g / 18) + 0x0C000000 + 0x10000 * (g % 18)
/-- The collective engine block of die d (R40). -/
def B.afrEng (d : Nat) : Nat := B.die d + 0x0D000000
/-- The block of the global Ethernet port e (R40). -/
def B.eth (e : Nat) : Nat := B.die (e / 4) + 0x0E000000 + 0x40000 * (e % 4)

/-- TCK_COUNT. -/
def R.TCK_COUNT : Nat := 0x300000
/-- TCK_COUNT.COUNT. -/
def F.TCK_COUNT_COUNT : Fld := ⟨0, 48, 0, .ro⟩

/-- TCK_TIME. -/
def R.TCK_TIME : Nat := 0x300008
/-- TCK_TIME.TIME. -/
def F.TCK_TIME_TIME : Fld := ⟨0, 64, 0, .ro⟩

/-- TCK_CTRL. -/
def R.TCK_CTRL : Nat := 0x300010
/-- TCK_CTRL.LOCK. -/
def F.TCK_CTRL_LOCK : Fld := ⟨63, 1, 0, .w1s⟩
/-- TCK_CTRL.PPS_OUT_EN. -/
def F.TCK_CTRL_PPS_OUT_EN : Fld := ⟨7, 1, 0, .rw⟩
/-- TCK_CTRL.PERIOD_LOG2. -/
def F.TCK_CTRL_PERIOD_LOG2 : Fld := ⟨0, 5, 0x10, .lk⟩

/-- TCK_STATUS. -/
def R.TCK_STATUS : Nat := 0x300018
/-- TCK_STATUS.LATE_COUNT. -/
def F.TCK_STATUS_LATE_COUNT : Fld := ⟨16, 8, 0, .rc⟩
/-- TCK_STATUS.UNLOCK_COUNT. -/
def F.TCK_STATUS_UNLOCK_COUNT : Fld := ⟨8, 8, 0, .rc⟩
/-- TCK_STATUS.STEP_REFUSED. -/
def F.TCK_STATUS_STEP_REFUSED : Fld := ⟨5, 1, 0, .w1c⟩
/-- TCK_STATUS.CTRL_REFUSED. -/
def F.TCK_STATUS_CTRL_REFUSED : Fld := ⟨4, 1, 0, .w1c⟩
/-- TCK_STATUS.PPS_IN_SEEN. -/
def F.TCK_STATUS_PPS_IN_SEEN : Fld := ⟨3, 1, 0, .w1c⟩
/-- TCK_STATUS.SYNC_ERR. -/
def F.TCK_STATUS_SYNC_ERR : Fld := ⟨2, 1, 0, .w1c⟩
/-- TCK_STATUS.HOLDOVER. -/
def F.TCK_STATUS_HOLDOVER : Fld := ⟨1, 1, 0, .ro⟩
/-- TCK_STATUS.LOCKED. -/
def F.TCK_STATUS_LOCKED : Fld := ⟨0, 1, 0, .ro⟩

/-- TCK_SYNC. -/
def R.TCK_SYNC : Nat := 0x300020
/-- TCK_SYNC.UPSTREAM. -/
def F.TCK_SYNC_UPSTREAM : Fld := ⟨24, 8, 0xFF, .ro⟩
/-- TCK_SYNC.HOPS. -/
def F.TCK_SYNC_HOPS : Fld := ⟨16, 8, 0, .ro⟩
/-- TCK_SYNC.ROLE. -/
def F.TCK_SYNC_ROLE : Fld := ⟨0, 2, 0, .rw⟩

/-- TCK_OFFSET. -/
def R.TCK_OFFSET : Nat := 0x300028
/-- TCK_OFFSET.OFFSET. -/
def F.TCK_OFFSET_OFFSET : Fld := ⟨0, 32, 0, .ro⟩

/-- TCK_RATE. -/
def R.TCK_RATE : Nat := 0x300030
/-- TCK_RATE.RATE_PPB. -/
def F.TCK_RATE_RATE_PPB : Fld := ⟨0, 32, 0, .rw⟩

/-- TCK_STEP. -/
def R.TCK_STEP : Nat := 0x300038
/-- TCK_STEP.STEP. -/
def F.TCK_STEP_STEP : Fld := ⟨0, 48, 0, .wo⟩

/-- TCK_PPS. -/
def R.TCK_PPS : Nat := 0x300040
/-- TCK_PPS.EDGE. -/
def F.TCK_PPS_EDGE : Fld := ⟨0, 64, 0, .ro⟩

/-- TCK_WDOG. -/
def R.TCK_WDOG : Nat := 0x300048
/-- TCK_WDOG.DIE_TICKS. -/
def F.TCK_WDOG_DIE_TICKS : Fld := ⟨24, 8, 0x10, .rw⟩
/-- TCK_WDOG.HERD_TICKS. -/
def F.TCK_WDOG_HERD_TICKS : Fld := ⟨16, 8, 8, .rw⟩
/-- TCK_WDOG.HB_TICKS. -/
def F.TCK_WDOG_HB_TICKS : Fld := ⟨8, 8, 4, .rw⟩
/-- TCK_WDOG.SEG_TICKS. -/
def F.TCK_WDOG_SEG_TICKS : Fld := ⟨0, 8, 2, .rw⟩

/-- TCK_TMO. -/
def R.TCK_TMO : Nat := 0x300050
/-- TCK_TMO.AFR_US. -/
def F.TCK_TMO_AFR_US : Fld := ⟨16, 8, 0x32, .rw⟩
/-- TCK_TMO.MEM_US. -/
def F.TCK_TMO_MEM_US : Fld := ⟨8, 8, 0x14, .rw⟩
/-- TCK_TMO.UCIE_US. -/
def F.TCK_TMO_UCIE_US : Fld := ⟨0, 8, 0xA, .rw⟩

/-- TCK_STOT. -/
def R.TCK_STOT : Nat := 0x300058
/-- TCK_STOT.LAST_LATE. -/
def F.TCK_STOT_LAST_LATE : Fld := ⟨16, 48, 0, .ro⟩
/-- TCK_STOT.LAG. -/
def F.TCK_STOT_LAG : Fld := ⟨0, 4, 2, .rw⟩

/-- TIL_NUMCTL. -/
def R.TIL_NUMCTL (u : Nat) : Nat := B.til u + 0xF00
/-- TIL_NUMCTL.SR_EN. -/
def F.TIL_NUMCTL_SR_EN : Fld := ⟨1, 1, 1, .rw⟩
/-- TIL_NUMCTL.E4M3_INF. -/
def F.TIL_NUMCTL_E4M3_INF : Fld := ⟨0, 1, 0, .rw⟩

/-- TIL_MMA_STATUS. -/
def R.TIL_MMA_STATUS (u : Nat) : Nat := B.til u + 0xF08
/-- TIL_MMA_STATUS.SAT_COUNT. -/
def F.TIL_MMA_STATUS_SAT_COUNT : Fld := ⟨16, 32, 0, .rc⟩
/-- TIL_MMA_STATUS.SET_VALID. -/
def F.TIL_MMA_STATUS_SET_VALID : Fld := ⟨6, 2, 0, .ro⟩
/-- TIL_MMA_STATUS.SET_DRAINING. -/
def F.TIL_MMA_STATUS_SET_DRAINING : Fld := ⟨4, 2, 0, .ro⟩
/-- TIL_MMA_STATUS.STALE_ACC. -/
def F.TIL_MMA_STATUS_STALE_ACC : Fld := ⟨3, 1, 0, .w1c⟩
/-- TIL_MMA_STATUS.IN_NONFINITE. -/
def F.TIL_MMA_STATUS_IN_NONFINITE : Fld := ⟨2, 1, 0, .w1c⟩
/-- TIL_MMA_STATUS.INT_SAT. -/
def F.TIL_MMA_STATUS_INT_SAT : Fld := ⟨1, 1, 0, .w1c⟩
/-- TIL_MMA_STATUS.BUSY. -/
def F.TIL_MMA_STATUS_BUSY : Fld := ⟨0, 1, 0, .ro⟩

/-- HRD_GANG. -/
def R.HRD_GANG (u : Nat) : Nat := B.hrd u + 0x400
/-- HRD_GANG.ACTIVE_WIDTH. -/
def F.HRD_GANG_ACTIVE_WIDTH : Fld := ⟨28, 8, 0, .ro⟩
/-- HRD_GANG.ACTIVE_JOIN. -/
def F.HRD_GANG_ACTIVE_JOIN : Fld := ⟨17, 11, 0, .ro⟩
/-- HRD_GANG.PENDING. -/
def F.HRD_GANG_PENDING : Fld := ⟨16, 1, 0, .ro⟩
/-- HRD_GANG.PUSH_REFUSED. -/
def F.HRD_GANG_PUSH_REFUSED : Fld := ⟨15, 1, 0, .w1c⟩
/-- HRD_GANG.JOIN. -/
def F.HRD_GANG_JOIN : Fld := ⟨1, 11, 0, .rw⟩

/-- HRD_GANG_WIDTH. -/
def R.HRD_GANG_WIDTH (u : Nat) : Nat := B.hrd u + 0x408
/-- HRD_GANG_WIDTH.WIDTH. -/
def F.HRD_GANG_WIDTH_WIDTH : Fld := ⟨0, 4, 0, .rw⟩

/-- TIL_VSTATUS. -/
def R.TIL_VSTATUS (u : Nat) : Nat := B.til u + 0xF10
/-- TIL_VSTATUS.PERM_RANGE. -/
def F.TIL_VSTATUS_PERM_RANGE : Fld := ⟨4, 1, 0, .w1c⟩
/-- TIL_VSTATUS.ARITH_INVALID. -/
def F.TIL_VSTATUS_ARITH_INVALID : Fld := ⟨3, 1, 0, .w1c⟩
/-- TIL_VSTATUS.ARITH_OVF. -/
def F.TIL_VSTATUS_ARITH_OVF : Fld := ⟨2, 1, 0, .w1c⟩
/-- TIL_VSTATUS.CVT_INVALID. -/
def F.TIL_VSTATUS_CVT_INVALID : Fld := ⟨1, 1, 0, .w1c⟩
/-- TIL_VSTATUS.CVT_OVF. -/
def F.TIL_VSTATUS_CVT_OVF : Fld := ⟨0, 1, 0, .w1c⟩

/-- TIL_SREG. -/
def R.TIL_SREG (u i : Nat) : Nat := B.til u + 0xF40 + 0x8 * i
/-- TIL_SREG.STATUS. -/
def F.TIL_SREG_STATUS : Fld := ⟨32, 2, 0, .rw⟩
/-- TIL_SREG.VALUE. -/
def F.TIL_SREG_VALUE : Fld := ⟨0, 32, 0, .rw⟩

/-- HRD_SUMM_Q. -/
def R.HRD_SUMM_Q (u i : Nat) : Nat := B.hrd u + 0x500 + 0x8 * i
/-- HRD_SUMM_Q.VALID. -/
def F.HRD_SUMM_Q_VALID : Fld := ⟨63, 1, 0, .rc⟩
/-- HRD_SUMM_Q.KIND. -/
def F.HRD_SUMM_Q_KIND : Fld := ⟨56, 4, 0, .rc⟩
/-- HRD_SUMM_Q.TAG. -/
def F.HRD_SUMM_Q_TAG : Fld := ⟨48, 8, 0, .rc⟩
/-- HRD_SUMM_Q.STATUS. -/
def F.HRD_SUMM_Q_STATUS : Fld := ⟨40, 2, 0, .rc⟩
/-- HRD_SUMM_Q.FLAGS. -/
def F.HRD_SUMM_Q_FLAGS : Fld := ⟨32, 5, 0, .rc⟩
/-- HRD_SUMM_Q.VALUE. -/
def F.HRD_SUMM_Q_VALUE : Fld := ⟨0, 32, 0, .rc⟩

/-- HRD_SUMM_CTL. -/
def R.HRD_SUMM_CTL (u : Nat) : Nat := B.hrd u + 0x560
/-- HRD_SUMM_CTL.ROUTE. -/
def F.HRD_SUMM_CTL_ROUTE : Fld := ⟨12, 12, 0, .rw⟩
/-- HRD_SUMM_CTL.IRQ_EN. -/
def F.HRD_SUMM_CTL_IRQ_EN : Fld := ⟨0, 12, 0, .rw⟩

/-- HRD_SUMM_LEVEL. -/
def R.HRD_SUMM_LEVEL (u : Nat) : Nat := B.hrd u + 0x568
/-- HRD_SUMM_LEVEL.LEVEL. -/
def F.HRD_SUMM_LEVEL_LEVEL : Fld := ⟨0, 48, 0, .ro⟩

/-- TIL_SEGQ_PUSH. -/
def R.TIL_SEGQ_PUSH (u : Nat) : Nat := B.til u + 0xE00
/-- TIL_SEGQ_PUSH.HERD. -/
def F.TIL_SEGQ_PUSH_HERD : Fld := ⟨63, 1, 0, .wo⟩
/-- TIL_SEGQ_PUSH.ADDR. -/
def F.TIL_SEGQ_PUSH_ADDR : Fld := ⟨6, 50, 0, .wo⟩

/-- TIL_SEGQ_STATUS. -/
def R.TIL_SEGQ_STATUS (u : Nat) : Nat := B.til u + 0xE08
/-- TIL_SEGQ_STATUS.RUN_SEG_ID. -/
def F.TIL_SEGQ_STATUS_RUN_SEG_ID : Fld := ⟨48, 16, 0, .ro⟩
/-- TIL_SEGQ_STATUS.RUN_INDEX. -/
def F.TIL_SEGQ_STATUS_RUN_INDEX : Fld := ⟨36, 12, 0, .ro⟩
/-- TIL_SEGQ_STATUS.RUNNING. -/
def F.TIL_SEGQ_STATUS_RUNNING : Fld := ⟨8, 1, 0, .ro⟩
/-- TIL_SEGQ_STATUS.LEVEL. -/
def F.TIL_SEGQ_STATUS_LEVEL : Fld := ⟨0, 7, 0, .ro⟩

/-- TIL_SEG_STATUS. -/
def R.TIL_SEG_STATUS (u : Nat) : Nat := B.til u + 0xE10
/-- TIL_SEG_STATUS.FAULT_SEG_ID. -/
def F.TIL_SEG_STATUS_FAULT_SEG_ID : Fld := ⟨48, 16, 0, .ro⟩
/-- TIL_SEG_STATUS.FAULT_INDEX. -/
def F.TIL_SEG_STATUS_FAULT_INDEX : Fld := ⟨36, 12, 0, .ro⟩
/-- TIL_SEG_STATUS.FAULT_CAUSE. -/
def F.TIL_SEG_STATUS_FAULT_CAUSE : Fld := ⟨32, 4, 0, .ro⟩
/-- TIL_SEG_STATUS.REC_ALIGN. -/
def F.TIL_SEG_STATUS_REC_ALIGN : Fld := ⟨12, 1, 0, .w1c⟩
/-- TIL_SEG_STATUS.PUSH_LOST. -/
def F.TIL_SEG_STATUS_PUSH_LOST : Fld := ⟨11, 1, 0, .w1c⟩
/-- TIL_SEG_STATUS.TRAP. -/
def F.TIL_SEG_STATUS_TRAP : Fld := ⟨10, 1, 0, .w1c⟩
/-- TIL_SEG_STATUS.VIEW_RANGE. -/
def F.TIL_SEG_STATUS_VIEW_RANGE : Fld := ⟨9, 1, 0, .w1c⟩
/-- TIL_SEG_STATUS.SEM_FAULT. -/
def F.TIL_SEG_STATUS_SEM_FAULT : Fld := ⟨8, 1, 0, .w1c⟩
/-- TIL_SEG_STATUS.CRED_OVF. -/
def F.TIL_SEG_STATUS_CRED_OVF : Fld := ⟨7, 1, 0, .w1c⟩
/-- TIL_SEG_STATUS.SCALE_BAD. -/
def F.TIL_SEG_STATUS_SCALE_BAD : Fld := ⟨6, 1, 0, .w1c⟩
/-- TIL_SEG_STATUS.ADDR_ERR. -/
def F.TIL_SEG_STATUS_ADDR_ERR : Fld := ⟨5, 1, 0, .w1c⟩
/-- TIL_SEG_STATUS.DESC_BAD. -/
def F.TIL_SEG_STATUS_DESC_BAD : Fld := ⟨4, 1, 0, .w1c⟩
/-- TIL_SEG_STATUS.ILLEGAL. -/
def F.TIL_SEG_STATUS_ILLEGAL : Fld := ⟨3, 1, 0, .w1c⟩
/-- TIL_SEG_STATUS.BUDGET_OVER. -/
def F.TIL_SEG_STATUS_BUDGET_OVER : Fld := ⟨2, 1, 0, .w1c⟩
/-- TIL_SEG_STATUS.SEG_HANG. -/
def F.TIL_SEG_STATUS_SEG_HANG : Fld := ⟨1, 1, 0, .w1c⟩
/-- TIL_SEG_STATUS.SEG_OVERRUN. -/
def F.TIL_SEG_STATUS_SEG_OVERRUN : Fld := ⟨0, 1, 0, .w1c⟩

/-- TIL_SEG_RETIRED. -/
def R.TIL_SEG_RETIRED (u : Nat) : Nat := B.til u + 0xE18
/-- TIL_SEG_RETIRED.LAST_SEG_ID. -/
def F.TIL_SEG_RETIRED_LAST_SEG_ID : Fld := ⟨48, 16, 0, .ro⟩
/-- TIL_SEG_RETIRED.OVERRUNS. -/
def F.TIL_SEG_RETIRED_OVERRUNS : Fld := ⟨32, 16, 0, .rc⟩
/-- TIL_SEG_RETIRED.COUNT. -/
def F.TIL_SEG_RETIRED_COUNT : Fld := ⟨0, 32, 0, .ro⟩

/-- TIL_CRED. -/
def R.TIL_CRED (u : Nat) : Nat := B.til u + 0xE20
/-- TIL_CRED.COUNTS. -/
def F.TIL_CRED_COUNTS : Fld := ⟨0, 60, 0, .ro⟩

/-- HRD_HEARTBEAT. -/
def R.HRD_HEARTBEAT (u : Nat) : Nat := B.hrd u + 0x300
/-- HRD_HEARTBEAT.BEAT. -/
def F.HRD_HEARTBEAT_BEAT : Fld := ⟨0, 2, 0, .wo⟩

/-- SCH_SEM. -/
def R.SCH_SEM (u i : Nat) : Nat := B.sch u + 0x8000 + 0x10 * i
/-- SCH_SEM.LOCK. -/
def F.SCH_SEM_LOCK : Fld := ⟨63, 1, 0, .rw⟩
/-- SCH_SEM.GROUP. -/
def F.SCH_SEM_GROUP : Fld := ⟨62, 1, 0, .ro⟩
/-- SCH_SEM.HOLDER. -/
def F.SCH_SEM_HOLDER : Fld := ⟨48, 8, 0, .ro⟩
/-- SCH_SEM.HELD. -/
def F.SCH_SEM_HELD : Fld := ⟨47, 1, 0, .ro⟩
/-- SCH_SEM.WAITERS. -/
def F.SCH_SEM_WAITERS : Fld := ⟨32, 15, 0, .ro⟩
/-- SCH_SEM.VALUE. -/
def F.SCH_SEM_VALUE : Fld := ⟨0, 32, 0, .rw⟩

/-- SCH_SEMADD. -/
def R.SCH_SEMADD (u i : Nat) : Nat := B.sch u + 0x8008 + 0x10 * i
/-- SCH_SEMADD.ADD. -/
def F.SCH_SEMADD_ADD : Fld := ⟨0, 32, 0, .wo⟩

/-- SCH_GSEM. -/
def R.SCH_GSEM (i j : Nat) : Nat := 0x882000 + 0x200 * i + 0x10 * j
/-- SCH_GSEM.LOCK. -/
def F.SCH_GSEM_LOCK : Fld := ⟨63, 1, 0, .rw⟩
/-- SCH_GSEM.GROUP. -/
def F.SCH_GSEM_GROUP : Fld := ⟨62, 1, 0, .ro⟩
/-- SCH_GSEM.HOLDER. -/
def F.SCH_GSEM_HOLDER : Fld := ⟨48, 8, 0, .ro⟩
/-- SCH_GSEM.HELD. -/
def F.SCH_GSEM_HELD : Fld := ⟨47, 1, 0, .ro⟩
/-- SCH_GSEM.WAITERS. -/
def F.SCH_GSEM_WAITERS : Fld := ⟨32, 15, 0, .ro⟩
/-- SCH_GSEM.VALUE. -/
def F.SCH_GSEM_VALUE : Fld := ⟨0, 32, 0, .rw⟩

/-- SCH_GSEMADD. -/
def R.SCH_GSEMADD (i j : Nat) : Nat := 0x882008 + 0x200 * i + 0x10 * j
/-- SCH_GSEMADD.ADD. -/
def F.SCH_GSEMADD_ADD : Fld := ⟨0, 32, 0, .wo⟩

/-- SCH_NUM_CTL, a per-context register. -/
def R.SCH_NUM_CTL : Nat := 0x3000
/-- SCH_NUM_CTL.XGROUP. -/
def F.SCH_NUM_CTL_XGROUP : Fld := ⟨48, 12, 0, .rw⟩
/-- SCH_NUM_CTL.NF_FRAC. -/
def F.SCH_NUM_CTL_NF_FRAC : Fld := ⟨32, 16, 0x100, .rw⟩
/-- SCH_NUM_CTL.SKIP_LIMIT. -/
def F.SCH_NUM_CTL_SKIP_LIMIT : Fld := ⟨24, 8, 8, .rw⟩
/-- SCH_NUM_CTL.QUIET_LIMIT. -/
def F.SCH_NUM_CTL_QUIET_LIMIT : Fld := ⟨8, 6, 0x10, .rw⟩
/-- SCH_NUM_CTL.RESUME. -/
def F.SCH_NUM_CTL_RESUME : Fld := ⟨2, 1, 0, .wo⟩
/-- SCH_NUM_CTL.XCHG_EN. -/
def F.SCH_NUM_CTL_XCHG_EN : Fld := ⟨1, 1, 0, .rw⟩
/-- SCH_NUM_CTL.PG_EN. -/
def F.SCH_NUM_CTL_PG_EN : Fld := ⟨0, 1, 1, .rw⟩

/-- SCH_RESCALE_BASE, a per-context register. -/
def R.SCH_RESCALE_BASE : Nat := 0x3008
/-- SCH_RESCALE_BASE.ADDR. -/
def F.SCH_RESCALE_BASE_ADDR : Fld := ⟨6, 50, 0, .rw⟩

/-- SCH_RESCALE_COUNT, a per-context register. -/
def R.SCH_RESCALE_COUNT : Nat := 0x3010
/-- SCH_RESCALE_COUNT.COUNT. -/
def F.SCH_RESCALE_COUNT_COUNT : Fld := ⟨0, 20, 0, .rw⟩

/-- SCH_NUM_STAT, a per-context register. -/
def R.SCH_NUM_STAT : Nat := 0x3018
/-- SCH_NUM_STAT.NF_SKIPS. -/
def F.SCH_NUM_STAT_NF_SKIPS : Fld := ⟨48, 16, 0, .rc⟩
/-- SCH_NUM_STAT.SKIP_RUN. -/
def F.SCH_NUM_STAT_SKIP_RUN : Fld := ⟨40, 8, 0, .ro⟩
/-- SCH_NUM_STAT.RESCALE_BAD. -/
def F.SCH_NUM_STAT_RESCALE_BAD : Fld := ⟨16, 16, 0, .rc⟩
/-- SCH_NUM_STAT.PG_DROPPED. -/
def F.SCH_NUM_STAT_PG_DROPPED : Fld := ⟨0, 16, 0, .rc⟩

/-- SCH_SCALE_STAT, a per-context register. -/
def R.SCH_SCALE_STAT : Nat := 0x3020
/-- SCH_SCALE_STAT.SCALE_CEIL. -/
def F.SCH_SCALE_STAT_SCALE_CEIL : Fld := ⟨32, 32, 0, .rc⟩
/-- SCH_SCALE_STAT.SCALE_FLOOR. -/
def F.SCH_SCALE_STAT_SCALE_FLOOR : Fld := ⟨0, 32, 0, .rc⟩

/-- SCH_PG_CTL, a per-context register. -/
def R.SCH_PG_CTL : Nat := 0x3028
/-- SCH_PG_CTL.MIN_COUNT. -/
def F.SCH_PG_CTL_MIN_COUNT : Fld := ⟨48, 16, 0x1000, .rw⟩
/-- SCH_PG_CTL.HOLD. -/
def F.SCH_PG_CTL_HOLD : Fld := ⟨40, 8, 8, .rw⟩
/-- SCH_PG_CTL.D5. -/
def F.SCH_PG_CTL_D5 : Fld := ⟨24, 5, 0x1C, .rw⟩
/-- SCH_PG_CTL.D4. -/
def F.SCH_PG_CTL_D4 : Fld := ⟨16, 5, 0xD, .rw⟩
/-- SCH_PG_CTL.TAU. -/
def F.SCH_PG_CTL_TAU : Fld := ⟨0, 5, 0xA, .rw⟩

/-- SCH_PG, a per-context register. -/
def R.SCH_PG (i : Nat) : Nat := 0x3100 + 0x10 * i
/-- SCH_PG.EN. -/
def F.SCH_PG_EN : Fld := ⟨63, 1, 0, .rw⟩
/-- SCH_PG.FMT. -/
def F.SCH_PG_FMT : Fld := ⟨56, 4, 0, .rw⟩
/-- SCH_PG.DESC. -/
def F.SCH_PG_DESC : Fld := ⟨6, 50, 0, .rw⟩

/-- SCH_PG_ID, a per-context register. -/
def R.SCH_PG_ID (i : Nat) : Nat := 0x3108 + 0x10 * i
/-- SCH_PG_ID.SINCE. -/
def F.SCH_PG_ID_SINCE : Fld := ⟨48, 16, 0, .ro⟩
/-- SCH_PG_ID.MAXEXP. -/
def F.SCH_PG_ID_MAXEXP : Fld := ⟨32, 10, 0x200, .ro⟩
/-- SCH_PG_ID.TENSOR_ID. -/
def F.SCH_PG_ID_TENSOR_ID : Fld := ⟨0, 32, 0, .rw⟩

/-- SCH_PIPE_CTL, a per-context register. -/
def R.SCH_PIPE_CTL : Nat := 0x4000
/-- SCH_PIPE_CTL.NMB. -/
def F.SCH_PIPE_CTL_NMB : Fld := ⟨52, 12, 0, .rw⟩
/-- SCH_PIPE_CTL.NSTAGE. -/
def F.SCH_PIPE_CTL_NSTAGE : Fld := ⟨44, 8, 0, .rw⟩
/-- SCH_PIPE_CTL.STAGE. -/
def F.SCH_PIPE_CTL_STAGE : Fld := ⟨36, 8, 0, .rw⟩
/-- SCH_PIPE_CTL.EXTRA_FWD. -/
def F.SCH_PIPE_CTL_EXTRA_FWD : Fld := ⟨32, 4, 1, .rw⟩
/-- SCH_PIPE_CTL.ACT_CRED. -/
def F.SCH_PIPE_CTL_ACT_CRED : Fld := ⟨24, 8, 0, .rw⟩
/-- SCH_PIPE_CTL.PF_TICKS. -/
def F.SCH_PIPE_CTL_PF_TICKS : Fld := ⟨16, 8, 3, .rw⟩
/-- SCH_PIPE_CTL.FLIP_LAG. -/
def F.SCH_PIPE_CTL_FLIP_LAG : Fld := ⟨12, 4, 2, .rw⟩
/-- SCH_PIPE_CTL.XCH_TICKS. -/
def F.SCH_PIPE_CTL_XCH_TICKS : Fld := ⟨0, 8, 0x10, .rw⟩

/-- SCH_PIPE_READY, a per-context register. -/
def R.SCH_PIPE_READY : Nat := 0x4008
/-- SCH_PIPE_READY.ADDR. -/
def F.SCH_PIPE_READY_ADDR : Fld := ⟨6, 50, 0, .rw⟩

/-- SCH_PIPE_TAG, a per-context register. -/
def R.SCH_PIPE_TAG : Nat := 0x4010
/-- SCH_PIPE_TAG.RELEASES. -/
def F.SCH_PIPE_TAG_RELEASES : Fld := ⟨48, 16, 0, .ro⟩
/-- SCH_PIPE_TAG.STEP1. -/
def F.SCH_PIPE_TAG_STEP1 : Fld := ⟨0, 48, 0, .ro⟩

/-- SCH_PIPE_STAT, a per-context register. -/
def R.SCH_PIPE_STAT : Nat := 0x4018
/-- SCH_PIPE_STAT.EXTRA_FWDS. -/
def F.SCH_PIPE_STAT_EXTRA_FWDS : Fld := ⟨48, 16, 0, .rc⟩
/-- SCH_PIPE_STAT.STARVED. -/
def F.SCH_PIPE_STAT_STARVED : Fld := ⟨32, 16, 0, .rc⟩
/-- SCH_PIPE_STAT.FROZEN_SKIPS. -/
def F.SCH_PIPE_STAT_FROZEN_SKIPS : Fld := ⟨16, 16, 0, .rc⟩
/-- SCH_PIPE_STAT.REFUSED. -/
def F.SCH_PIPE_STAT_REFUSED : Fld := ⟨8, 8, 0, .rc⟩
/-- SCH_PIPE_STAT.HELD. -/
def F.SCH_PIPE_STAT_HELD : Fld := ⟨0, 1, 0, .ro⟩

/-- SCH_TIED_BASE, a per-context register. -/
def R.SCH_TIED_BASE : Nat := 0x4020
/-- SCH_TIED_BASE.ADDR. -/
def F.SCH_TIED_BASE_ADDR : Fld := ⟨6, 50, 0, .rw⟩

/-- SCH_VER, a per-context register. -/
def R.SCH_VER : Nat := 0x5000
/-- SCH_VER.UPD_STALL. -/
def F.SCH_VER_UPD_STALL : Fld := ⟨48, 16, 0, .rc⟩
/-- SCH_VER.PIN1. -/
def F.SCH_VER_PIN1 : Fld := ⟨40, 8, 0, .ro⟩
/-- SCH_VER.PIN0. -/
def F.SCH_VER_PIN0 : Fld := ⟨32, 8, 0, .ro⟩
/-- SCH_VER.MB_REF. -/
def F.SCH_VER_MB_REF : Fld := ⟨19, 13, 0, .ro⟩
/-- SCH_VER.UPD_HELD. -/
def F.SCH_VER_UPD_HELD : Fld := ⟨3, 1, 0, .ro⟩
/-- SCH_VER.PIN_REFUSED. -/
def F.SCH_VER_PIN_REFUSED : Fld := ⟨2, 1, 0, .w1c⟩
/-- SCH_VER.GEN. -/
def F.SCH_VER_GEN : Fld := ⟨0, 1, 0, .ro⟩

/-- SCH_VER_PIN, a per-context register. -/
def R.SCH_VER_PIN : Nat := 0x5008
/-- SCH_VER_PIN.GEN. -/
def F.SCH_VER_PIN_GEN : Fld := ⟨8, 1, 0, .wo⟩
/-- SCH_VER_PIN.OP. -/
def F.SCH_VER_PIN_OP : Fld := ⟨0, 2, 0, .wo⟩

/-- SCH_COMMIT, a per-context register. -/
def R.SCH_COMMIT : Nat := 0x5010
/-- SCH_COMMIT.LAST_B. -/
def F.SCH_COMMIT_LAST_B : Fld := ⟨16, 48, 0, .ro⟩
/-- SCH_COMMIT.LATE_RESULTS. -/
def F.SCH_COMMIT_LATE_RESULTS : Fld := ⟨8, 8, 0, .rc⟩
/-- SCH_COMMIT.OUTCOME. -/
def F.SCH_COMMIT_OUTCOME : Fld := ⟨0, 3, 0, .ro⟩

/-- SCH_VTAB, a per-context register. -/
def R.SCH_VTAB (i : Nat) : Nat := 0xC000 + 0x8 * i
/-- SCH_VTAB.ENTRIES. -/
def F.SCH_VTAB_ENTRIES : Fld := ⟨0, 64, 0, .rw⟩

/-- SCH_LR, a per-context register. -/
def R.SCH_LR (i : Nat) : Nat := 0x6000 + 0x10 * i
/-- SCH_LR.EN. -/
def F.SCH_LR_EN : Fld := ⟨63, 1, 0, .rw⟩
/-- SCH_LR.HOLD. -/
def F.SCH_LR_HOLD : Fld := ⟨62, 1, 0, .rw⟩
/-- SCH_LR.WRITTEN. -/
def F.SCH_LR_WRITTEN : Fld := ⟨61, 1, 0, .ro⟩
/-- SCH_LR.VALUE. -/
def F.SCH_LR_VALUE : Fld := ⟨0, 32, 0, .rw⟩

/-- SCH_LR_LAT, a per-context register. -/
def R.SCH_LR_LAT (i : Nat) : Nat := 0x6008 + 0x10 * i
/-- SCH_LR_LAT.LATCHED. -/
def F.SCH_LR_LAT_LATCHED : Fld := ⟨0, 32, 0, .ro⟩

/-- SCH_UPD_CTL, a per-context register. -/
def R.SCH_UPD_CTL : Nat := 0x7000
/-- SCH_UPD_CTL.FROZEN_FAULT. -/
def F.SCH_UPD_CTL_FROZEN_FAULT : Fld := ⟨0, 1, 0, .rw⟩

/-- SCH_UPD_STAT, a per-context register. -/
def R.SCH_UPD_STAT : Nat := 0x7008
/-- SCH_UPD_STAT.FROZEN_UPDATE. -/
def F.SCH_UPD_STAT_FROZEN_UPDATE : Fld := ⟨32, 32, 0, .rc⟩
/-- SCH_UPD_STAT.HOLD_REUSE. -/
def F.SCH_UPD_STAT_HOLD_REUSE : Fld := ⟨16, 16, 0, .rc⟩
/-- SCH_UPD_STAT.LR_WAIT. -/
def F.SCH_UPD_STAT_LR_WAIT : Fld := ⟨0, 16, 0, .rc⟩

/-- HRD_UPD_EVT. -/
def R.HRD_UPD_EVT (u : Nat) : Nat := B.hrd u + 0x600
/-- HRD_UPD_EVT.ROOT_KEPT. -/
def F.HRD_UPD_EVT_ROOT_KEPT : Fld := ⟨0, 1, 0, .wo⟩

/-- HRD_UPD_STAT. -/
def R.HRD_UPD_STAT (u : Nat) : Nat := B.hrd u + 0x608
/-- HRD_UPD_STAT.ROOT_KEPT. -/
def F.HRD_UPD_STAT_ROOT_KEPT : Fld := ⟨0, 32, 0, .rc⟩

/-- PLC_CTRL. -/
def R.PLC_CTRL : Nat := 0x13000000
/-- PLC_CTRL.LOCK. -/
def F.PLC_CTRL_LOCK : Fld := ⟨63, 1, 0, .w1s⟩
/-- PLC_CTRL.PF_EN. -/
def F.PLC_CTRL_PF_EN : Fld := ⟨1, 1, 1, .rw⟩
/-- PLC_CTRL.AUTO_EN. -/
def F.PLC_CTRL_AUTO_EN : Fld := ⟨0, 1, 1, .rw⟩

/-- PLC_POLICY. -/
def R.PLC_POLICY : Nat := 0x13000008
/-- PLC_POLICY.PROMOTE_MAX. -/
def F.PLC_POLICY_PROMOTE_MAX : Fld := ⟨48, 16, 0x1000, .rw⟩
/-- PLC_POLICY.LOW_WATER. -/
def F.PLC_POLICY_LOW_WATER : Fld := ⟨32, 16, 0x400, .rw⟩
/-- PLC_POLICY.HOT_THRESH. -/
def F.PLC_POLICY_HOT_THRESH : Fld := ⟨24, 8, 0x20, .rw⟩
/-- PLC_POLICY.COLD_THRESH. -/
def F.PLC_POLICY_COLD_THRESH : Fld := ⟨16, 8, 4, .rw⟩
/-- PLC_POLICY.EPOCH_TICKS. -/
def F.PLC_POLICY_EPOCH_TICKS : Fld := ⟨8, 8, 0x10, .rw⟩
/-- PLC_POLICY.DEMOTE_TICKS. -/
def F.PLC_POLICY_DEMOTE_TICKS : Fld := ⟨4, 4, 1, .rw⟩
/-- PLC_POLICY.HEAT_SHIFT. -/
def F.PLC_POLICY_HEAT_SHIFT : Fld := ⟨0, 4, 8, .rw⟩

/-- PLC_FRAMES. -/
def R.PLC_FRAMES : Nat := 0x13000010
/-- PLC_FRAMES.FREE_CAP. -/
def F.PLC_FRAMES_FREE_CAP : Fld := ⟨42, 22, 0, .ro⟩
/-- PLC_FRAMES.FREE_STACK. -/
def F.PLC_FRAMES_FREE_STACK : Fld := ⟨21, 21, 0, .ro⟩
/-- PLC_FRAMES.RESERVED. -/
def F.PLC_FRAMES_RESERVED : Fld := ⟨0, 21, 0, .ro⟩

/-- PLC_RESV. -/
def R.PLC_RESV : Nat := 0x13000018
/-- PLC_RESV.BAD. -/
def F.PLC_RESV_BAD : Fld := ⟨32, 32, 0, .ro⟩
/-- PLC_RESV.MIG_RESERVE. -/
def F.PLC_RESV_MIG_RESERVE : Fld := ⟨0, 8, 0x10, .lk⟩

/-- PLC_STAT. -/
def R.PLC_STAT : Nat := 0x13000020
/-- PLC_STAT.PF_LATE. -/
def F.PLC_STAT_PF_LATE : Fld := ⟨32, 32, 0, .rc⟩
/-- PLC_STAT.RETIRED. -/
def F.PLC_STAT_RETIRED : Fld := ⟨16, 16, 0, .ro⟩
/-- PLC_STAT.REFUSED. -/
def F.PLC_STAT_REFUSED : Fld := ⟨0, 16, 0, .rc⟩

/-- PLC_RM_INDEX. -/
def R.PLC_RM_INDEX : Nat := 0x13000028
/-- PLC_RM_INDEX.RANGE. -/
def F.PLC_RM_INDEX_RANGE : Fld := ⟨0, 22, 0, .rw⟩

/-- PLC_RM_DATA. -/
def R.PLC_RM_DATA : Nat := 0x13000030
/-- PLC_RM_DATA.ENTRY. -/
def F.PLC_RM_DATA_ENTRY : Fld := ⟨0, 64, 0, .ro⟩

/-- PLC_PART_QUOTA. -/
def R.PLC_PART_QUOTA (i : Nat) : Nat := 0x13000100 + 0x10 * i
/-- PLC_PART_QUOTA.USED. -/
def F.PLC_PART_QUOTA_USED : Fld := ⟨42, 22, 0, .ro⟩
/-- PLC_PART_QUOTA.FRAMES. -/
def F.PLC_PART_QUOTA_FRAMES : Fld := ⟨0, 22, 0, .rw⟩

/-- PLC_REG. -/
def R.PLC_REG (i j : Nat) : Nat := 0x13000200 + 0x40 * i + 0x10 * j
/-- PLC_REG.MODE. -/
def F.PLC_REG_MODE : Fld := ⟨63, 1, 0, .rw⟩
/-- PLC_REG.SHARE. -/
def F.PLC_REG_SHARE : Fld := ⟨56, 7, 0, .rw⟩
/-- PLC_REG.BURST. -/
def F.PLC_REG_BURST : Fld := ⟨28, 28, 0, .rw⟩
/-- PLC_REG.RATE. -/
def F.PLC_REG_RATE : Fld := ⟨0, 28, 0, .rw⟩

/-- PLC_REG_LVL. -/
def R.PLC_REG_LVL (i j : Nat) : Nat := 0x13000208 + 0x40 * i + 0x10 * j
/-- PLC_REG_LVL.WAITS. -/
def F.PLC_REG_LVL_WAITS : Fld := ⟨32, 32, 0, .rc⟩
/-- PLC_REG_LVL.LEVEL. -/
def F.PLC_REG_LVL_LEVEL : Fld := ⟨0, 32, 0, .ro⟩

/-- PLC_MIG_CTL. -/
def R.PLC_MIG_CTL (u : Nat) : Nat := B.plcDie u + 0x0
/-- PLC_MIG_CTL.ROUNDS_MAX. -/
def F.PLC_MIG_CTL_ROUNDS_MAX : Fld := ⟨12, 4, 4, .rw⟩
/-- PLC_MIG_CTL.DELTA_MAX. -/
def F.PLC_MIG_CTL_DELTA_MAX : Fld := ⟨0, 10, 0x100, .rw⟩

/-- PLC_MIG_STAT. -/
def R.PLC_MIG_STAT (u : Nat) : Nat := B.plcDie u + 0x8
/-- PLC_MIG_STAT.COMPLETED. -/
def F.PLC_MIG_STAT_COMPLETED : Fld := ⟨32, 32, 0, .rc⟩
/-- PLC_MIG_STAT.ABANDONED. -/
def F.PLC_MIG_STAT_ABANDONED : Fld := ⟨16, 16, 0, .rc⟩
/-- PLC_MIG_STAT.MAX_STALL. -/
def F.PLC_MIG_STAT_MAX_STALL : Fld := ⟨0, 16, 0, .rc⟩

/-- PLC_RMC_STAT. -/
def R.PLC_RMC_STAT (u : Nat) : Nat := B.plcDie u + 0x10
/-- PLC_RMC_STAT.HITS. -/
def F.PLC_RMC_STAT_HITS : Fld := ⟨32, 32, 0, .rc⟩
/-- PLC_RMC_STAT.MISSES. -/
def F.PLC_RMC_STAT_MISSES : Fld := ⟨0, 32, 0, .rc⟩

/-- PLC_MIG. -/
def R.PLC_MIG (u i : Nat) : Nat := B.plcDie u + 0x100 + 0x8 * i
/-- PLC_MIG.PHASE. -/
def F.PLC_MIG_PHASE : Fld := ⟨61, 3, 0, .ro⟩
/-- PLC_MIG.CLASS. -/
def F.PLC_MIG_CLASS : Fld := ⟨58, 3, 0, .ro⟩
/-- PLC_MIG.ROUND. -/
def F.PLC_MIG_ROUND : Fld := ⟨54, 4, 0, .ro⟩
/-- PLC_MIG.DIRTY. -/
def F.PLC_MIG_DIRTY : Fld := ⟨39, 15, 0, .ro⟩
/-- PLC_MIG.RANGE. -/
def F.PLC_MIG_RANGE : Fld := ⟨0, 22, 0, .ro⟩

/-- SCH_TASK_BASE, a per-context register. -/
def R.SCH_TASK_BASE : Nat := 0x2000
/-- SCH_TASK_BASE.ADDR. -/
def F.SCH_TASK_BASE_ADDR : Fld := ⟨6, 50, 0, .rw⟩

/-- SCH_TASK_COUNT, a per-context register. -/
def R.SCH_TASK_COUNT : Nat := 0x2008
/-- SCH_TASK_COUNT.SPILL. -/
def F.SCH_TASK_COUNT_SPILL : Fld := ⟨16, 1, 1, .rw⟩
/-- SCH_TASK_COUNT.COUNT. -/
def F.SCH_TASK_COUNT_COUNT : Fld := ⟨0, 16, 0, .rw⟩

/-- HRD_TASK_POP. -/
def R.HRD_TASK_POP (u : Nat) : Nat := B.hrd u + 0x700
/-- HRD_TASK_POP.VALID. -/
def F.HRD_TASK_POP_VALID : Fld := ⟨63, 1, 0, .rc⟩
/-- HRD_TASK_POP.RANK. -/
def F.HRD_TASK_POP_RANK : Fld := ⟨59, 4, 0, .rc⟩
/-- HRD_TASK_POP.ARG. -/
def F.HRD_TASK_POP_ARG : Fld := ⟨6, 50, 0, .rc⟩

/-- HRD_TASK_IDX. -/
def R.HRD_TASK_IDX (u : Nat) : Nat := B.hrd u + 0x708
/-- HRD_TASK_IDX.INDEX. -/
def F.HRD_TASK_IDX_INDEX : Fld := ⟨0, 16, 0, .ro⟩

/-- HRD_TASK_DONE. -/
def R.HRD_TASK_DONE (u : Nat) : Nat := B.hrd u + 0x710
/-- HRD_TASK_DONE.STATUS. -/
def F.HRD_TASK_DONE_STATUS : Fld := ⟨16, 8, 0, .wo⟩
/-- HRD_TASK_DONE.INDEX. -/
def F.HRD_TASK_DONE_INDEX : Fld := ⟨0, 16, 0, .wo⟩

/-- COH_CTL. -/
def R.COH_CTL (u : Nat) : Nat := B.coh u + 0x0
/-- COH_CTL.LOCK. -/
def F.COH_CTL_LOCK : Fld := ⟨63, 1, 0, .w1s⟩
/-- COH_CTL.LLC_OW_ALLOC. -/
def F.COH_CTL_LLC_OW_ALLOC : Fld := ⟨1, 1, 0, .lk⟩
/-- COH_CTL.ARB. -/
def F.COH_CTL_ARB : Fld := ⟨0, 1, 0, .lk⟩

/-- COH_STAT. -/
def R.COH_STAT (u : Nat) : Nat := B.coh u + 0x8
/-- COH_STAT.REQS. -/
def F.COH_STAT_REQS : Fld := ⟨32, 32, 0, .rc⟩
/-- COH_STAT.RETRIES. -/
def F.COH_STAT_RETRIES : Fld := ⟨16, 16, 0, .rc⟩
/-- COH_STAT.STALE_WB. -/
def F.COH_STAT_STALE_WB : Fld := ⟨0, 16, 0, .rc⟩

/-- COH_SF. -/
def R.COH_SF (u : Nat) : Nat := B.coh u + 0x10
/-- COH_SF.BACK_INV. -/
def F.COH_SF_BACK_INV : Fld := ⟨32, 32, 0, .rc⟩
/-- COH_SF.USED. -/
def F.COH_SF_USED : Fld := ⟨0, 17, 0, .ro⟩

/-- COH_BUSY. -/
def R.COH_BUSY (u : Nat) : Nat := B.coh u + 0x18
/-- COH_BUSY.MAX_WAIT. -/
def F.COH_BUSY_MAX_WAIT : Fld := ⟨48, 16, 0, .rc⟩
/-- COH_BUSY.WAITING. -/
def F.COH_BUSY_WAITING : Fld := ⟨16, 9, 0, .ro⟩
/-- COH_BUSY.BUSY. -/
def F.COH_BUSY_BUSY : Fld := ⟨0, 9, 0, .ro⟩

/-- COH_POISON. -/
def R.COH_POISON (u : Nat) : Nat := B.coh u + 0x20
/-- COH_POISON.COUNT. -/
def F.COH_POISON_COUNT : Fld := ⟨56, 8, 0, .rc⟩
/-- COH_POISON.ADDR. -/
def F.COH_POISON_ADDR : Fld := ⟨6, 50, 0, .ro⟩

/-- STK_CTRL. -/
def R.STK_CTRL (u : Nat) : Nat := B.stk u + 0x0
/-- STK_CTRL.LOCK. -/
def F.STK_CTRL_LOCK : Fld := ⟨63, 1, 0, .w1s⟩
/-- STK_CTRL.SCRUB_HOURS. -/
def F.STK_CTRL_SCRUB_HOURS : Fld := ⟨8, 8, 0x18, .lk⟩
/-- STK_CTRL.MAINT. -/
def F.STK_CTRL_MAINT : Fld := ⟨1, 1, 0, .rw⟩
/-- STK_CTRL.REF_LOCK. -/
def F.STK_CTRL_REF_LOCK : Fld := ⟨0, 1, 0, .rw⟩

/-- STK_STATUS. -/
def R.STK_STATUS (u : Nat) : Nat := B.stk u + 0x8
/-- STK_STATUS.TEMP. -/
def F.STK_STATUS_TEMP : Fld := ⟨32, 8, 0, .ro⟩
/-- STK_STATUS.LOCK_SUSPENDED. -/
def F.STK_STATUS_LOCK_SUSPENDED : Fld := ⟨2, 1, 0, .ro⟩
/-- STK_STATUS.THERM_2X. -/
def F.STK_STATUS_THERM_2X : Fld := ⟨1, 1, 0, .ro⟩
/-- STK_STATUS.MAINT_ACTIVE. -/
def F.STK_STATUS_MAINT_ACTIVE : Fld := ⟨0, 1, 0, .ro⟩

/-- STK_ERR. -/
def R.STK_ERR (u : Nat) : Nat := B.stk u + 0x10
/-- STK_ERR.CE. -/
def F.STK_ERR_CE : Fld := ⟨32, 32, 0, .rc⟩
/-- STK_ERR.HARD. -/
def F.STK_ERR_HARD : Fld := ⟨16, 16, 0, .rc⟩
/-- STK_ERR.UE. -/
def F.STK_ERR_UE : Fld := ⟨0, 16, 0, .rc⟩

/-- STK_ERR_ADDR. -/
def R.STK_ERR_ADDR (u : Nat) : Nat := B.stk u + 0x18
/-- STK_ERR_ADDR.KIND. -/
def F.STK_ERR_ADDR_KIND : Fld := ⟨62, 2, 0, .ro⟩
/-- STK_ERR_ADDR.ADDR. -/
def F.STK_ERR_ADDR_ADDR : Fld := ⟨6, 50, 0, .ro⟩

/-- STK_SCRUB. -/
def R.STK_SCRUB (u : Nat) : Nat := B.stk u + 0x20
/-- STK_SCRUB.PASSES. -/
def F.STK_SCRUB_PASSES : Fld := ⟨48, 16, 0, .ro⟩
/-- STK_SCRUB.POS. -/
def F.STK_SCRUB_POS : Fld := ⟨16, 30, 0, .ro⟩

/-- STK_REMAP_STAT. -/
def R.STK_REMAP_STAT (u : Nat) : Nat := B.stk u + 0x28
/-- STK_REMAP_STAT.RETIRED. -/
def F.STK_REMAP_STAT_RETIRED : Fld := ⟨32, 16, 0, .ro⟩
/-- STK_REMAP_STAT.FULL. -/
def F.STK_REMAP_STAT_FULL : Fld := ⟨29, 1, 0, .ro⟩
/-- STK_REMAP_STAT.PERSIST_PENDING. -/
def F.STK_REMAP_STAT_PERSIST_PENDING : Fld := ⟨28, 1, 0, .ro⟩
/-- STK_REMAP_STAT.USED. -/
def F.STK_REMAP_STAT_USED : Fld := ⟨0, 13, 0, .ro⟩

/-- STK_REMAP_IDX. -/
def R.STK_REMAP_IDX (u : Nat) : Nat := B.stk u + 0x30
/-- STK_REMAP_IDX.ENTRY. -/
def F.STK_REMAP_IDX_ENTRY : Fld := ⟨0, 12, 0, .rw⟩

/-- STK_REMAP_DATA. -/
def R.STK_REMAP_DATA (u : Nat) : Nat := B.stk u + 0x38
/-- STK_REMAP_DATA.ENTRY. -/
def F.STK_REMAP_DATA_ENTRY : Fld := ⟨0, 64, 0, .ro⟩

/-- STK_REPAIR_CMD. -/
def R.STK_REPAIR_CMD (u : Nat) : Nat := B.stk u + 0x40
/-- STK_REPAIR_CMD.OP. -/
def F.STK_REPAIR_CMD_OP : Fld := ⟨60, 4, 0, .wo⟩
/-- STK_REPAIR_CMD.DIE. -/
def F.STK_REPAIR_CMD_DIE : Fld := ⟨56, 4, 0, .wo⟩
/-- STK_REPAIR_CMD.CHAN. -/
def F.STK_REPAIR_CMD_CHAN : Fld := ⟨50, 6, 0, .wo⟩
/-- STK_REPAIR_CMD.BANK. -/
def F.STK_REPAIR_CMD_BANK : Fld := ⟨46, 4, 0, .wo⟩
/-- STK_REPAIR_CMD.ROW. -/
def F.STK_REPAIR_CMD_ROW : Fld := ⟨30, 16, 0, .wo⟩
/-- STK_REPAIR_CMD.COL. -/
def F.STK_REPAIR_CMD_COL : Fld := ⟨20, 10, 0, .wo⟩

/-- STK_REPAIR_STAT. -/
def R.STK_REPAIR_STAT (u : Nat) : Nat := B.stk u + 0x48
/-- STK_REPAIR_STAT.BUSY. -/
def F.STK_REPAIR_STAT_BUSY : Fld := ⟨63, 1, 0, .ro⟩
/-- STK_REPAIR_STAT.RESULT. -/
def F.STK_REPAIR_STAT_RESULT : Fld := ⟨60, 3, 0, .ro⟩
/-- STK_REPAIR_STAT.FUSE_ROWS_FREE. -/
def F.STK_REPAIR_STAT_FUSE_ROWS_FREE : Fld := ⟨32, 8, 0, .ro⟩
/-- STK_REPAIR_STAT.COL_FREE. -/
def F.STK_REPAIR_STAT_COL_FREE : Fld := ⟨24, 8, 0, .ro⟩
/-- STK_REPAIR_STAT.FIELD_USED. -/
def F.STK_REPAIR_STAT_FIELD_USED : Fld := ⟨16, 8, 0, .ro⟩
/-- STK_REPAIR_STAT.DIE_REPAIRS. -/
def F.STK_REPAIR_STAT_DIE_REPAIRS : Fld := ⟨0, 16, 0, .ro⟩

/-- CAP_CTRL. -/
def R.CAP_CTRL (u : Nat) : Nat := B.cap u + 0x0
/-- CAP_CTRL.LOCK. -/
def F.CAP_CTRL_LOCK : Fld := ⟨63, 1, 0, .w1s⟩
/-- CAP_CTRL.SCRUB_HOURS. -/
def F.CAP_CTRL_SCRUB_HOURS : Fld := ⟨8, 8, 0x18, .lk⟩

/-- CAP_ERR. -/
def R.CAP_ERR (u : Nat) : Nat := B.cap u + 0x10
/-- CAP_ERR.CE. -/
def F.CAP_ERR_CE : Fld := ⟨32, 32, 0, .rc⟩
/-- CAP_ERR.HARD. -/
def F.CAP_ERR_HARD : Fld := ⟨16, 16, 0, .rc⟩
/-- CAP_ERR.UE. -/
def F.CAP_ERR_UE : Fld := ⟨0, 16, 0, .rc⟩

/-- CAP_ERR_ADDR. -/
def R.CAP_ERR_ADDR (u : Nat) : Nat := B.cap u + 0x18
/-- CAP_ERR_ADDR.KIND. -/
def F.CAP_ERR_ADDR_KIND : Fld := ⟨62, 2, 0, .ro⟩
/-- CAP_ERR_ADDR.ADDR. -/
def F.CAP_ERR_ADDR_ADDR : Fld := ⟨6, 50, 0, .ro⟩

/-- CAP_SCRUB. -/
def R.CAP_SCRUB (u : Nat) : Nat := B.cap u + 0x20
/-- CAP_SCRUB.PASSES. -/
def F.CAP_SCRUB_PASSES : Fld := ⟨48, 16, 0, .ro⟩
/-- CAP_SCRUB.POS. -/
def F.CAP_SCRUB_POS : Fld := ⟨16, 30, 0, .ro⟩

/-- CAP_REMAP_STAT. -/
def R.CAP_REMAP_STAT (u : Nat) : Nat := B.cap u + 0x28
/-- CAP_REMAP_STAT.RETIRED. -/
def F.CAP_REMAP_STAT_RETIRED : Fld := ⟨32, 16, 0, .ro⟩
/-- CAP_REMAP_STAT.FULL. -/
def F.CAP_REMAP_STAT_FULL : Fld := ⟨29, 1, 0, .ro⟩
/-- CAP_REMAP_STAT.PERSIST_PENDING. -/
def F.CAP_REMAP_STAT_PERSIST_PENDING : Fld := ⟨28, 1, 0, .ro⟩
/-- CAP_REMAP_STAT.USED. -/
def F.CAP_REMAP_STAT_USED : Fld := ⟨0, 13, 0, .ro⟩

/-- CAP_REMAP_IDX. -/
def R.CAP_REMAP_IDX (u : Nat) : Nat := B.cap u + 0x30
/-- CAP_REMAP_IDX.ENTRY. -/
def F.CAP_REMAP_IDX_ENTRY : Fld := ⟨0, 10, 0, .rw⟩

/-- CAP_REMAP_DATA. -/
def R.CAP_REMAP_DATA (u : Nat) : Nat := B.cap u + 0x38
/-- CAP_REMAP_DATA.ENTRY. -/
def F.CAP_REMAP_DATA_ENTRY : Fld := ⟨0, 64, 0, .ro⟩

/-- AFR_PORT_CTL. -/
def R.AFR_PORT_CTL (u : Nat) : Nat := B.afrPort u + 0x0
/-- AFR_PORT_CTL.LOCK. -/
def F.AFR_PORT_CTL_LOCK : Fld := ⟨63, 1, 0, .w1s⟩
/-- AFR_PORT_CTL.RETRAIN. -/
def F.AFR_PORT_CTL_RETRAIN : Fld := ⟨11, 1, 0, .wo⟩
/-- AFR_PORT_CTL.LOSS_STOT. -/
def F.AFR_PORT_CTL_LOSS_STOT : Fld := ⟨10, 1, 1, .lk⟩
/-- AFR_PORT_CTL.COLL_WT. -/
def F.AFR_PORT_CTL_COLL_WT : Fld := ⟨8, 2, 1, .rw⟩
/-- AFR_PORT_CTL.TRUNK. -/
def F.AFR_PORT_CTL_TRUNK : Fld := ⟨4, 4, 0, .rw⟩
/-- AFR_PORT_CTL.EN. -/
def F.AFR_PORT_CTL_EN : Fld := ⟨0, 1, 1, .lk⟩

/-- AFR_PORT_STATUS. -/
def R.AFR_PORT_STATUS (u : Nat) : Nat := B.afrPort u + 0x8
/-- AFR_PORT_STATUS.NBR_PKG. -/
def F.AFR_PORT_STATUS_NBR_PKG : Fld := ⟨48, 16, 0xFFFF, .ro⟩
/-- AFR_PORT_STATUS.NBR_DIE. -/
def F.AFR_PORT_STATUS_NBR_DIE : Fld := ⟨45, 1, 0, .ro⟩
/-- AFR_PORT_STATUS.NBR_PORT. -/
def F.AFR_PORT_STATUS_NBR_PORT : Fld := ⟨40, 5, 0, .ro⟩
/-- AFR_PORT_STATUS.NBR_EPOCH. -/
def F.AFR_PORT_STATUS_NBR_EPOCH : Fld := ⟨24, 16, 0, .ro⟩
/-- AFR_PORT_STATUS.IN_TRUNK. -/
def F.AFR_PORT_STATUS_IN_TRUNK : Fld := ⟨3, 1, 0, .ro⟩
/-- AFR_PORT_STATUS.REPLAYING. -/
def F.AFR_PORT_STATUS_REPLAYING : Fld := ⟨2, 1, 0, .ro⟩
/-- AFR_PORT_STATUS.TRAINING. -/
def F.AFR_PORT_STATUS_TRAINING : Fld := ⟨1, 1, 0, .ro⟩
/-- AFR_PORT_STATUS.UP. -/
def F.AFR_PORT_STATUS_UP : Fld := ⟨0, 1, 0, .ro⟩

/-- AFR_PORT_ERR. -/
def R.AFR_PORT_ERR (u : Nat) : Nat := B.afrPort u + 0x10
/-- AFR_PORT_ERR.DOWNS. -/
def F.AFR_PORT_ERR_DOWNS : Fld := ⟨48, 16, 0, .rc⟩
/-- AFR_PORT_ERR.REPLAYS. -/
def F.AFR_PORT_ERR_REPLAYS : Fld := ⟨32, 16, 0, .rc⟩
/-- AFR_PORT_ERR.FLIT_BAD. -/
def F.AFR_PORT_ERR_FLIT_BAD : Fld := ⟨16, 16, 0, .rc⟩
/-- AFR_PORT_ERR.BAD. -/
def F.AFR_PORT_ERR_BAD : Fld := ⟨0, 16, 0, .rc⟩

/-- AFR_ID. -/
def R.AFR_ID (u : Nat) : Nat := B.afrEng u + 0x0
/-- AFR_ID.LOCK. -/
def F.AFR_ID_LOCK : Fld := ⟨63, 1, 0, .w1s⟩
/-- AFR_ID.INC. -/
def F.AFR_ID_INC : Fld := ⟨32, 1, 0, .wo⟩
/-- AFR_ID.EPOCH. -/
def F.AFR_ID_EPOCH : Fld := ⟨16, 16, 0, .ro⟩
/-- AFR_ID.PKG_ID. -/
def F.AFR_ID_PKG_ID : Fld := ⟨0, 16, 0xFFFF, .lk⟩

/-- AFR_CTL. -/
def R.AFR_CTL (u : Nat) : Nat := B.afrEng u + 0x8
/-- AFR_CTL.COLL_TICKS. -/
def F.AFR_CTL_COLL_TICKS : Fld := ⟨32, 16, 0x40, .rw⟩
/-- AFR_CTL.RMT_US. -/
def F.AFR_CTL_RMT_US : Fld := ⟨8, 8, 0x64, .rw⟩
/-- AFR_CTL.COLL_EN. -/
def F.AFR_CTL_COLL_EN : Fld := ⟨0, 1, 1, .rw⟩

/-- AFR_COLL_BASE. -/
def R.AFR_COLL_BASE (u : Nat) : Nat := B.afrEng u + 0x10
/-- AFR_COLL_BASE.ADDR. -/
def F.AFR_COLL_BASE_ADDR : Fld := ⟨6, 50, 0, .rw⟩

/-- AFR_STAT. -/
def R.AFR_STAT (u : Nat) : Nat := B.afrEng u + 0x18
/-- AFR_STAT.STALE_DROPS. -/
def F.AFR_STAT_STALE_DROPS : Fld := ⟨48, 16, 0, .rc⟩
/-- AFR_STAT.STOT_RX. -/
def F.AFR_STAT_STOT_RX : Fld := ⟨32, 16, 0, .rc⟩
/-- AFR_STAT.COLL_FAILED. -/
def F.AFR_STAT_COLL_FAILED : Fld := ⟨16, 16, 0, .rc⟩
/-- AFR_STAT.LAST_STATUS. -/
def F.AFR_STAT_LAST_STATUS : Fld := ⟨8, 8, 0, .ro⟩
/-- AFR_STAT.ACTIVE. -/
def F.AFR_STAT_ACTIVE : Fld := ⟨0, 8, 0, .ro⟩

/-- AFR_STOT_CMD. -/
def R.AFR_STOT_CMD (u : Nat) : Nat := B.afrEng u + 0x20
/-- AFR_STOT_CMD.JOB. -/
def F.AFR_STOT_CMD_JOB : Fld := ⟨0, 16, 0, .wo⟩

/-- AFR_RPERM. -/
def R.AFR_RPERM (u i : Nat) : Nat := B.afrEng u + 0x100 + 0x8 * i
/-- AFR_RPERM.EN. -/
def F.AFR_RPERM_EN : Fld := ⟨63, 1, 0, .rw⟩
/-- AFR_RPERM.WR. -/
def F.AFR_RPERM_WR : Fld := ⟨62, 1, 0, .rw⟩
/-- AFR_RPERM.MASK. -/
def F.AFR_RPERM_MASK : Fld := ⟨16, 16, 0, .rw⟩
/-- AFR_RPERM.BASE. -/
def F.AFR_RPERM_BASE : Fld := ⟨0, 16, 0, .rw⟩

/-- AFR_WIN. -/
def R.AFR_WIN (u i : Nat) : Nat := B.afrEng u + 0x10000 + 0x8 * i
/-- AFR_WIN.ENTRY. -/
def F.AFR_WIN_ENTRY : Fld := ⟨0, 64, 0, .rw⟩

/-- AFR_ROUTE. -/
def R.AFR_ROUTE (u i : Nat) : Nat := B.afrEng u + 0x20000 + 0x8 * i
/-- AFR_ROUTE.ENTRIES. -/
def F.AFR_ROUTE_ENTRIES : Fld := ⟨0, 64, 0, .rw⟩

/-- ETH_CTL. -/
def R.ETH_CTL (u : Nat) : Nat := B.eth u + 0x0
/-- ETH_CTL.LOCK. -/
def F.ETH_CTL_LOCK : Fld := ⟨63, 1, 0, .w1s⟩
/-- ETH_CTL.FB_PCT. -/
def F.ETH_CTL_FB_PCT : Fld := ⟨16, 8, 0x28, .rw⟩
/-- ETH_CTL.COLL_PRIO. -/
def F.ETH_CTL_COLL_PRIO : Fld := ⟨9, 3, 3, .rw⟩
/-- ETH_CTL.PFC_EN. -/
def F.ETH_CTL_PFC_EN : Fld := ⟨8, 1, 1, .rw⟩
/-- ETH_CTL.LOSSY. -/
def F.ETH_CTL_LOSSY : Fld := ⟨1, 1, 0, .rw⟩
/-- ETH_CTL.EN. -/
def F.ETH_CTL_EN : Fld := ⟨0, 1, 1, .lk⟩

/-- ETH_STATUS. -/
def R.ETH_STATUS (u : Nat) : Nat := B.eth u + 0x8
/-- ETH_STATUS.PFC_SEEN. -/
def F.ETH_STATUS_PFC_SEEN : Fld := ⟨50, 1, 0, .ro⟩
/-- ETH_STATUS.ECN_SEEN. -/
def F.ETH_STATUS_ECN_SEEN : Fld := ⟨49, 1, 0, .ro⟩
/-- ETH_STATUS.UP. -/
def F.ETH_STATUS_UP : Fld := ⟨48, 1, 0, .ro⟩
/-- ETH_STATUS.MAC. -/
def F.ETH_STATUS_MAC : Fld := ⟨0, 48, 0, .cfg⟩

/-- ETH_QPC_BASE. -/
def R.ETH_QPC_BASE (u : Nat) : Nat := B.eth u + 0x10
/-- ETH_QPC_BASE.ADDR. -/
def F.ETH_QPC_BASE_ADDR : Fld := ⟨6, 50, 0, .rw⟩

/-- ETH_CC. -/
def R.ETH_CC (u : Nat) : Nat := B.eth u + 0x18
/-- ETH_CC.RECOVER_US. -/
def F.ETH_CC_RECOVER_US : Fld := ⟨16, 16, 0x37, .rw⟩
/-- ETH_CC.RTO_US. -/
def F.ETH_CC_RTO_US : Fld := ⟨8, 8, 0x40, .rw⟩
/-- ETH_CC.ALPHA. -/
def F.ETH_CC_ALPHA : Fld := ⟨0, 8, 0x40, .rw⟩

/-- ETH_ERR. -/
def R.ETH_ERR (u : Nat) : Nat := B.eth u + 0x20
/-- ETH_ERR.RETX. -/
def F.ETH_ERR_RETX : Fld := ⟨48, 16, 0, .rc⟩
/-- ETH_ERR.CNP_RX. -/
def F.ETH_ERR_CNP_RX : Fld := ⟨32, 16, 0, .rc⟩
/-- ETH_ERR.ECN_CE. -/
def F.ETH_ERR_ECN_CE : Fld := ⟨16, 16, 0, .rc⟩
/-- ETH_ERR.DROPS. -/
def F.ETH_ERR_DROPS : Fld := ⟨0, 16, 0, .rc⟩

/-- INK_CTRL. -/
def R.INK_CTRL : Nat := 0x10000000
/-- INK_CTRL.LOCK. -/
def F.INK_CTRL_LOCK : Fld := ⟨63, 1, 0, .w1s⟩
/-- INK_CTRL.NVQ_BASE. -/
def F.INK_CTRL_NVQ_BASE : Fld := ⟨6, 50, 0, .lk⟩
/-- INK_CTRL.EN. -/
def F.INK_CTRL_EN : Fld := ⟨0, 1, 0, .rw⟩

/-- INK_S_CTRL. -/
def R.INK_S_CTRL (u : Nat) : Nat := B.inks u + 0x0
/-- INK_S_CTRL.EN. -/
def F.INK_S_CTRL_EN : Fld := ⟨63, 1, 0, .rw⟩
/-- INK_S_CTRL.BIND. -/
def F.INK_S_CTRL_BIND : Fld := ⟨62, 1, 1, .rw⟩
/-- INK_S_CTRL.MODE. -/
def F.INK_S_CTRL_MODE : Fld := ⟨60, 2, 0, .rw⟩
/-- INK_S_CTRL.SPLIT. -/
def F.INK_S_CTRL_SPLIT : Fld := ⟨59, 1, 1, .rw⟩
/-- INK_S_CTRL.PYR_FMT. -/
def F.INK_S_CTRL_PYR_FMT : Fld := ⟨58, 1, 0, .rw⟩
/-- INK_S_CTRL.PYR_LEVELS. -/
def F.INK_S_CTRL_PYR_LEVELS : Fld := ⟨55, 3, 1, .rw⟩
/-- INK_S_CTRL.QDEPTH. -/
def F.INK_S_CTRL_QDEPTH : Fld := ⟨48, 7, 8, .rw⟩
/-- INK_S_CTRL.LOW_WATER. -/
def F.INK_S_CTRL_LOW_WATER : Fld := ⟨40, 8, 2, .rw⟩
/-- INK_S_CTRL.BATCH. -/
def F.INK_S_CTRL_BATCH : Fld := ⟨24, 16, 0, .rw⟩
/-- INK_S_CTRL.INFLIGHT. -/
def F.INK_S_CTRL_INFLIGHT : Fld := ⟨16, 8, 0x40, .rw⟩
/-- INK_S_CTRL.SLOW_SLOTS. -/
def F.INK_S_CTRL_SLOW_SLOTS : Fld := ⟨13, 3, 2, .rw⟩

/-- INK_S_SHAPE. -/
def R.INK_S_SHAPE (u : Nat) : Nat := B.inks u + 0x8
/-- INK_S_SHAPE.SLOT_PAGES. -/
def F.INK_S_SHAPE_SLOT_PAGES : Fld := ⟨48, 16, 0, .rw⟩
/-- INK_S_SHAPE.SEQ_LEN. -/
def F.INK_S_SHAPE_SEQ_LEN : Fld := ⟨32, 16, 0, .rw⟩
/-- INK_S_SHAPE.IMG_W. -/
def F.INK_S_SHAPE_IMG_W : Fld := ⟨16, 16, 0, .rw⟩
/-- INK_S_SHAPE.IMG_H. -/
def F.INK_S_SHAPE_IMG_H : Fld := ⟨0, 16, 0, .rw⟩

/-- INK_S_AREA. -/
def R.INK_S_AREA (u : Nat) : Nat := B.inks u + 0x10
/-- INK_S_AREA.ADDR. -/
def F.INK_S_AREA_ADDR : Fld := ⟨12, 44, 0, .rw⟩

/-- INK_S_BATCH. -/
def R.INK_S_BATCH (u : Nat) : Nat := B.inks u + 0x18
/-- INK_S_BATCH.ADDR. -/
def F.INK_S_BATCH_ADDR : Fld := ⟨12, 44, 0, .rw⟩

/-- INK_S_SHARDS. -/
def R.INK_S_SHARDS (u : Nat) : Nat := B.inks u + 0x20
/-- INK_S_SHARDS.ADDR. -/
def F.INK_S_SHARDS_ADDR : Fld := ⟨6, 50, 0, .rw⟩

/-- INK_S_SHARDN. -/
def R.INK_S_SHARDN (u : Nat) : Nat := B.inks u + 0x28
/-- INK_S_SHARDN.PAD_ID. -/
def F.INK_S_SHARDN_PAD_ID : Fld := ⟨32, 32, 0, .rw⟩
/-- INK_S_SHARDN.COUNT. -/
def F.INK_S_SHARDN_COUNT : Fld := ⟨0, 32, 0, .rw⟩

/-- INK_S_TIME. -/
def R.INK_S_TIME (u : Nat) : Nat := B.inks u + 0x30
/-- INK_S_TIME.BUDGET_MULT. -/
def F.INK_S_TIME_BUDGET_MULT : Fld := ⟨56, 8, 0x14, .rw⟩
/-- INK_S_TIME.HARD_MULT. -/
def F.INK_S_TIME_HARD_MULT : Fld := ⟨40, 16, 0x3E8, .rw⟩
/-- INK_S_TIME.HARD_MS. -/
def F.INK_S_TIME_HARD_MS : Fld := ⟨24, 16, 0x7D0, .rw⟩
/-- INK_S_TIME.INIT_MEAN_US. -/
def F.INK_S_TIME_INIT_MEAN_US : Fld := ⟨0, 24, 0x64, .rw⟩

/-- INK_S_STATE. -/
def R.INK_S_STATE (u : Nat) : Nat := B.inks u + 0x38
/-- INK_S_STATE.READY. -/
def F.INK_S_STATE_READY : Fld := ⟨56, 8, 0, .ro⟩
/-- INK_S_STATE.BOUND_IDX. -/
def F.INK_S_STATE_BOUND_IDX : Fld := ⟨50, 6, 0, .ro⟩
/-- INK_S_STATE.BOUND. -/
def F.INK_S_STATE_BOUND : Fld := ⟨49, 1, 0, .ro⟩
/-- INK_S_STATE.ERR. -/
def F.INK_S_STATE_ERR : Fld := ⟨48, 1, 0, .ro⟩
/-- INK_S_STATE.LAST_CAUSE. -/
def F.INK_S_STATE_LAST_CAUSE : Fld := ⟨44, 4, 0, .ro⟩
/-- INK_S_STATE.MEAN_US. -/
def F.INK_S_STATE_MEAN_US : Fld := ⟨0, 32, 0, .ro⟩

/-- INK_S_CURSOR. -/
def R.INK_S_CURSOR (u : Nat) : Nat := B.inks u + 0x40
/-- INK_S_CURSOR.SHARD. -/
def F.INK_S_CURSOR_SHARD : Fld := ⟨32, 32, 0, .rw⟩
/-- INK_S_CURSOR.PASS. -/
def F.INK_S_CURSOR_PASS : Fld := ⟨0, 32, 0, .rw⟩

/-- INK_S_OFFSET. -/
def R.INK_S_OFFSET (u : Nat) : Nat := B.inks u + 0x48
/-- INK_S_OFFSET.OFFSET. -/
def F.INK_S_OFFSET_OFFSET : Fld := ⟨0, 64, 0, .rw⟩

/-- INK_S_CNT. -/
def R.INK_S_CNT (u : Nat) : Nat := B.inks u + 0x50
/-- INK_S_CNT.CORRUPT. -/
def F.INK_S_CNT_CORRUPT : Fld := ⟨44, 20, 0, .rc⟩
/-- INK_S_CNT.TIMEOUT. -/
def F.INK_S_CNT_TIMEOUT : Fld := ⟨32, 12, 0, .rc⟩
/-- INK_S_CNT.SLOW. -/
def F.INK_S_CNT_SLOW : Fld := ⟨20, 12, 0, .rc⟩
/-- INK_S_CNT.SHARD_FAIL. -/
def F.INK_S_CNT_SHARD_FAIL : Fld := ⟨16, 4, 0, .rc⟩
/-- INK_S_CNT.STARVE. -/
def F.INK_S_CNT_STARVE : Fld := ⟨0, 16, 0, .rc⟩

/-- INK_S_BAD. -/
def R.INK_S_BAD (u : Nat) : Nat := B.inks u + 0x58
/-- INK_S_BAD.SAMPLE_ID. -/
def F.INK_S_BAD_SAMPLE_ID : Fld := ⟨0, 64, 0, .ro⟩

/-- SCH_PART. -/
def R.SCH_PART (u : Nat) : Nat := B.sch u + 0x0
/-- SCH_PART.RUN_V. -/
def F.SCH_PART_RUN_V : Fld := ⟨24, 1, 0, .ro⟩
/-- SCH_PART.RUN_SLOT. -/
def F.SCH_PART_RUN_SLOT : Fld := ⟨22, 2, 0, .ro⟩
/-- SCH_PART.RESIDENT. -/
def F.SCH_PART_RESIDENT : Fld := ⟨16, 4, 0, .ro⟩
/-- SCH_PART.HERDS. -/
def F.SCH_PART_HERDS : Fld := ⟨0, 16, 0, .ro⟩

/-- SCH_CMDQ. -/
def R.SCH_CMDQ (u : Nat) : Nat := B.sch u + 0x10
/-- SCH_CMDQ.ADDR. -/
def F.SCH_CMDQ_ADDR : Fld := ⟨12, 44, 0, .rw⟩
/-- SCH_CMDQ.SIZE_LOG2. -/
def F.SCH_CMDQ_SIZE_LOG2 : Fld := ⟨0, 4, 4, .rw⟩

/-- SCH_CPLQ. -/
def R.SCH_CPLQ (u : Nat) : Nat := B.sch u + 0x18
/-- SCH_CPLQ.ADDR. -/
def F.SCH_CPLQ_ADDR : Fld := ⟨12, 44, 0, .rw⟩

/-- SCH_CMD_PTR. -/
def R.SCH_CMD_PTR (u : Nat) : Nat := B.sch u + 0x20
/-- SCH_CMD_PTR.TAIL. -/
def F.SCH_CMD_PTR_TAIL : Fld := ⟨32, 16, 0, .rw⟩
/-- SCH_CMD_PTR.HEAD. -/
def F.SCH_CMD_PTR_HEAD : Fld := ⟨0, 16, 0, .ro⟩

/-- SCH_CPL_PTR. -/
def R.SCH_CPL_PTR (u : Nat) : Nat := B.sch u + 0x28
/-- SCH_CPL_PTR.TAIL. -/
def F.SCH_CPL_PTR_TAIL : Fld := ⟨32, 16, 0, .ro⟩
/-- SCH_CPL_PTR.HEAD. -/
def F.SCH_CPL_PTR_HEAD : Fld := ⟨0, 16, 0, .rw⟩

/-- SCH_CMD_STAT. -/
def R.SCH_CMD_STAT (u : Nat) : Nat := B.sch u + 0x30
/-- SCH_CMD_STAT.EXECUTED. -/
def F.SCH_CMD_STAT_EXECUTED : Fld := ⟨32, 32, 0, .rc⟩
/-- SCH_CMD_STAT.REFUSED_STATE. -/
def F.SCH_CMD_STAT_REFUSED_STATE : Fld := ⟨16, 16, 0, .rc⟩
/-- SCH_CMD_STAT.REFUSED_RANGE. -/
def F.SCH_CMD_STAT_REFUSED_RANGE : Fld := ⟨8, 8, 0, .rc⟩
/-- SCH_CMD_STAT.REFUSED_FORMAT. -/
def F.SCH_CMD_STAT_REFUSED_FORMAT : Fld := ⟨0, 8, 0, .rc⟩

/-- SCH_CTX_SEL. -/
def R.SCH_CTX_SEL (u : Nat) : Nat := B.sch u + 0x38
/-- SCH_CTX_SEL.SLOT. -/
def F.SCH_CTX_SEL_SLOT : Fld := ⟨0, 2, 0, .rw⟩

/-- SCH_SLOT. -/
def R.SCH_SLOT (u i : Nat) : Nat := B.sch u + 0x40 + 0x8 * i
/-- SCH_SLOT.V. -/
def F.SCH_SLOT_V : Fld := ⟨63, 1, 0, .ro⟩
/-- SCH_SLOT.STATE. -/
def F.SCH_SLOT_STATE : Fld := ⟨60, 3, 0, .ro⟩
/-- SCH_SLOT.BLOCK. -/
def F.SCH_SLOT_BLOCK : Fld := ⟨56, 4, 0, .ro⟩
/-- SCH_SLOT.CTX. -/
def F.SCH_SLOT_CTX : Fld := ⟨48, 8, 0, .ro⟩
/-- SCH_SLOT.SLICE. -/
def F.SCH_SLOT_SLICE : Fld := ⟨36, 12, 0, .ro⟩
/-- SCH_SLOT.BLOCKED_TICKS. -/
def F.SCH_SLOT_BLOCKED_TICKS : Fld := ⟨0, 32, 0, .ro⟩

/-- SCH_SW_STAT. -/
def R.SCH_SW_STAT (u : Nat) : Nat := B.sch u + 0x60
/-- SCH_SW_STAT.SWITCHES. -/
def F.SCH_SW_STAT_SWITCHES : Fld := ⟨32, 32, 0, .rc⟩
/-- SCH_SW_STAT.SWAPS. -/
def F.SCH_SW_STAT_SWAPS : Fld := ⟨16, 16, 0, .rc⟩
/-- SCH_SW_STAT.LOCK_DEFER. -/
def F.SCH_SW_STAT_LOCK_DEFER : Fld := ⟨8, 8, 0, .rc⟩
/-- SCH_SW_STAT.GROUP_FAULTS. -/
def F.SCH_SW_STAT_GROUP_FAULTS : Fld := ⟨0, 8, 0, .rc⟩

/-- SCH_KCTX. -/
def R.SCH_KCTX (i : Nat) : Nat := 0x880000 + 0x8 * i
/-- SCH_KCTX.STATE. -/
def F.SCH_KCTX_STATE : Fld := ⟨62, 2, 0, .ro⟩
/-- SCH_KCTX.PART. -/
def F.SCH_KCTX_PART : Fld := ⟨56, 3, 0, .ro⟩
/-- SCH_KCTX.SLOT. -/
def F.SCH_KCTX_SLOT : Fld := ⟨54, 2, 0, .ro⟩
/-- SCH_KCTX.GRP_V. -/
def F.SCH_KCTX_GRP_V : Fld := ⟨48, 1, 0, .ro⟩
/-- SCH_KCTX.GROUP. -/
def F.SCH_KCTX_GROUP : Fld := ⟨45, 3, 0, .ro⟩
/-- SCH_KCTX.JOB. -/
def F.SCH_KCTX_JOB : Fld := ⟨0, 16, 0, .ro⟩

/-- PKG_EVQ. -/
def R.PKG_EVQ : Nat := 0x100
/-- PKG_EVQ.IRQ_EN. -/
def F.PKG_EVQ_IRQ_EN : Fld := ⟨63, 1, 0, .rw⟩
/-- PKG_EVQ.ADDR. -/
def F.PKG_EVQ_ADDR : Fld := ⟨12, 44, 0, .rw⟩
/-- PKG_EVQ.SIZE_LOG2. -/
def F.PKG_EVQ_SIZE_LOG2 : Fld := ⟨0, 4, 4, .rw⟩

/-- PKG_EVQ_PTR. -/
def R.PKG_EVQ_PTR : Nat := 0x108
/-- PKG_EVQ_PTR.LOST. -/
def F.PKG_EVQ_PTR_LOST : Fld := ⟨48, 16, 0, .rc⟩
/-- PKG_EVQ_PTR.TAIL. -/
def F.PKG_EVQ_PTR_TAIL : Fld := ⟨32, 16, 0, .ro⟩
/-- PKG_EVQ_PTR.HEAD. -/
def F.PKG_EVQ_PTR_HEAD : Fld := ⟨0, 16, 0, .rw⟩

/-- FLT_CTL. -/
def R.FLT_CTL : Nat := 0x400000
/-- FLT_CTL.LOCK. -/
def F.FLT_CTL_LOCK : Fld := ⟨63, 1, 0, .w1s⟩
/-- FLT_CTL.ESC_COUNT. -/
def F.FLT_CTL_ESC_COUNT : Fld := ⟨40, 8, 3, .lk⟩
/-- FLT_CTL.ESC_WINDOW_S. -/
def F.FLT_CTL_ESC_WINDOW_S : Fld := ⟨24, 16, 0x384, .lk⟩
/-- FLT_CTL.TILE_HANGS. -/
def F.FLT_CTL_TILE_HANGS : Fld := ⟨16, 8, 3, .rw⟩
/-- FLT_CTL.DRAIN_US. -/
def F.FLT_CTL_DRAIN_US : Fld := ⟨0, 8, 0x64, .rw⟩

/-- FLT_STATUS. -/
def R.FLT_STATUS : Nat := 0x400008
/-- FLT_STATUS.OOS. -/
def F.FLT_STATUS_OOS : Fld := ⟨63, 1, 0, .ro⟩
/-- FLT_STATUS.OOS_CLEARABLE. -/
def F.FLT_STATUS_OOS_CLEARABLE : Fld := ⟨62, 1, 0, .ro⟩
/-- FLT_STATUS.ESC_RUN. -/
def F.FLT_STATUS_ESC_RUN : Fld := ⟨52, 4, 0, .ro⟩
/-- FLT_STATUS.RESET_ACTIVE. -/
def F.FLT_STATUS_RESET_ACTIVE : Fld := ⟨40, 7, 0, .ro⟩
/-- FLT_STATUS.RESET_REASON. -/
def F.FLT_STATUS_RESET_REASON : Fld := ⟨32, 2, 0, .ro⟩

/-- FLT_RESET. -/
def R.FLT_RESET : Nat := 0x400010
/-- FLT_RESET.DOMAIN. -/
def F.FLT_RESET_DOMAIN : Fld := ⟨60, 4, 0, .wo⟩
/-- FLT_RESET.UNIT. -/
def F.FLT_RESET_UNIT : Fld := ⟨0, 8, 0, .wo⟩

/-- FLT_OOS. -/
def R.FLT_OOS : Nat := 0x400018
/-- FLT_OOS.CLEAR. -/
def F.FLT_OOS_CLEAR : Fld := ⟨0, 1, 0, .wo⟩

/-- FLT_ERRCNT. -/
def R.FLT_ERRCNT : Nat := 0x400020
/-- FLT_ERRCNT.REG_ACCESS. -/
def F.FLT_ERRCNT_REG_ACCESS : Fld := ⟨48, 16, 0, .rc⟩
/-- FLT_ERRCNT.DECODE. -/
def F.FLT_ERRCNT_DECODE : Fld := ⟨32, 16, 0, .rc⟩
/-- FLT_ERRCNT.UE. -/
def F.FLT_ERRCNT_UE : Fld := ⟨16, 16, 0, .rc⟩
/-- FLT_ERRCNT.TIMEOUT. -/
def F.FLT_ERRCNT_TIMEOUT : Fld := ⟨0, 16, 0, .rc⟩

/-- FLT_REGERR. -/
def R.FLT_REGERR : Nat := 0x400028
/-- FLT_REGERR.WRITE. -/
def F.FLT_REGERR_WRITE : Fld := ⟨63, 1, 0, .ro⟩
/-- FLT_REGERR.AGENT. -/
def F.FLT_REGERR_AGENT : Fld := ⟨48, 10, 0, .ro⟩
/-- FLT_REGERR.OFFSET. -/
def F.FLT_REGERR_OFFSET : Fld := ⟨0, 32, 0, .ro⟩

/-- FLT_RSTCNT. -/
def R.FLT_RSTCNT : Nat := 0x400030
/-- FLT_RSTCNT.TILE. -/
def F.FLT_RSTCNT_TILE : Fld := ⟨48, 16, 0, .rc⟩
/-- FLT_RSTCNT.HERD. -/
def F.FLT_RSTCNT_HERD : Fld := ⟨32, 16, 0, .rc⟩
/-- FLT_RSTCNT.DIE_COMPUTE. -/
def F.FLT_RSTCNT_DIE_COMPUTE : Fld := ⟨24, 8, 0, .rc⟩
/-- FLT_RSTCNT.DIE_FABRIC. -/
def F.FLT_RSTCNT_DIE_FABRIC : Fld := ⟨16, 8, 0, .rc⟩
/-- FLT_RSTCNT.PKG_COMPUTE. -/
def F.FLT_RSTCNT_PKG_COMPUTE : Fld := ⟨8, 8, 0, .rc⟩
/-- FLT_RSTCNT.PACKAGE. -/
def F.FLT_RSTCNT_PACKAGE : Fld := ⟨0, 8, 0, .rc⟩

/-- FLT_LOG_PTR. -/
def R.FLT_LOG_PTR : Nat := 0x400038
/-- FLT_LOG_PTR.COUNT. -/
def F.FLT_LOG_PTR_COUNT : Fld := ⟨32, 32, 0, .ro⟩
/-- FLT_LOG_PTR.NEXT. -/
def F.FLT_LOG_PTR_NEXT : Fld := ⟨0, 6, 0, .ro⟩

/-- FLT_HERD. -/
def R.FLT_HERD (i : Nat) : Nat := 0x400200 + 0x8 * i
/-- FLT_HERD.FAILED. -/
def F.FLT_HERD_FAILED : Fld := ⟨16, 13, 0, .ro⟩
/-- FLT_HERD.ABSENT. -/
def F.FLT_HERD_ABSENT : Fld := ⟨0, 12, 0, .ro⟩

/-- FLT_LOG. -/
def R.FLT_LOG (i j : Nat) : Nat := 0x401000 + 0x20 * i + 0x8 * j
/-- FLT_LOG.WORD. -/
def F.FLT_LOG_WORD : Fld := ⟨0, 64, 0, .ro⟩

/-- HLT_CTL. -/
def R.HLT_CTL : Nat := 0x500000
/-- HLT_CTL.LOCK. -/
def F.HLT_CTL_LOCK : Fld := ⟨63, 1, 0, .w1s⟩
/-- HLT_CTL.T_REF. -/
def F.HLT_CTL_T_REF : Fld := ⟨24, 8, 0x5F, .rw⟩
/-- HLT_CTL.DECAY. -/
def F.HLT_CTL_DECAY : Fld := ⟨16, 5, 0x10, .rw⟩
/-- HLT_CTL.THRESH. -/
def F.HLT_CTL_THRESH : Fld := ⟨8, 8, 0xA0, .rw⟩
/-- HLT_CTL.EN. -/
def F.HLT_CTL_EN : Fld := ⟨0, 1, 1, .rw⟩

/-- HLT_WGT. -/
def R.HLT_WGT : Nat := 0x500008
/-- HLT_WGT.W_CE. -/
def F.HLT_WGT_W_CE : Fld := ⟨48, 16, 0x100, .rw⟩
/-- HLT_WGT.W_LINK. -/
def F.HLT_WGT_W_LINK : Fld := ⟨32, 16, 0x800, .rw⟩
/-- HLT_WGT.W_DROOP. -/
def F.HLT_WGT_W_DROOP : Fld := ⟨16, 16, 0x1000, .rw⟩
/-- HLT_WGT.W_RESET. -/
def F.HLT_WGT_W_RESET : Fld := ⟨0, 16, 0x2000, .rw⟩

/-- HLT_WGT2. -/
def R.HLT_WGT2 : Nat := 0x500010
/-- HLT_WGT2.W_THERM. -/
def F.HLT_WGT2_W_THERM : Fld := ⟨8, 8, 8, .rw⟩
/-- HLT_WGT2.W_AGE. -/
def F.HLT_WGT2_W_AGE : Fld := ⟨0, 8, 1, .rw⟩

/-- HLT_SCORE. -/
def R.HLT_SCORE : Nat := 0x500018
/-- HLT_SCORE.CE. -/
def F.HLT_SCORE_CE : Fld := ⟨56, 8, 0, .ro⟩
/-- HLT_SCORE.LINK. -/
def F.HLT_SCORE_LINK : Fld := ⟨48, 8, 0, .ro⟩
/-- HLT_SCORE.DROOP. -/
def F.HLT_SCORE_DROOP : Fld := ⟨40, 8, 0, .ro⟩
/-- HLT_SCORE.RESET. -/
def F.HLT_SCORE_RESET : Fld := ⟨32, 8, 0, .ro⟩
/-- HLT_SCORE.THERM. -/
def F.HLT_SCORE_THERM : Fld := ⟨24, 8, 0, .ro⟩
/-- HLT_SCORE.AGE. -/
def F.HLT_SCORE_AGE : Fld := ⟨16, 8, 0, .ro⟩
/-- HLT_SCORE.SCORE. -/
def F.HLT_SCORE_SCORE : Fld := ⟨0, 8, 0, .ro⟩

/-- HLT_AGE. -/
def R.HLT_AGE : Nat := 0x500020
/-- HLT_AGE.TICKS. -/
def F.HLT_AGE_TICKS : Fld := ⟨0, 48, 0, .ro⟩

/-- SNAP_CTL. -/
def R.SNAP_CTL : Nat := 0x14000000
/-- SNAP_CTL.LOCK. -/
def F.SNAP_CTL_LOCK : Fld := ⟨63, 1, 0, .w1s⟩
/-- SNAP_CTL.EN. -/
def F.SNAP_CTL_EN : Fld := ⟨0, 1, 1, .rw⟩

/-- SNAP_NVQ. -/
def R.SNAP_NVQ : Nat := 0x14000008
/-- SNAP_NVQ.ADDR. -/
def F.SNAP_NVQ_ADDR : Fld := ⟨6, 50, 0, .lk⟩

/-- SNAP_STATUS. -/
def R.SNAP_STATUS : Nat := 0x14000010
/-- SNAP_STATUS.BUSY. -/
def F.SNAP_STATUS_BUSY : Fld := ⟨63, 1, 0, .ro⟩
/-- SNAP_STATUS.OP. -/
def F.SNAP_STATUS_OP : Fld := ⟨60, 3, 0, .ro⟩
/-- SNAP_STATUS.PART. -/
def F.SNAP_STATUS_PART : Fld := ⟨56, 3, 0, .ro⟩
/-- SNAP_STATUS.CTX. -/
def F.SNAP_STATUS_CTX : Fld := ⟨48, 8, 0, .ro⟩
/-- SNAP_STATUS.CHUNKS. -/
def F.SNAP_STATUS_CHUNKS : Fld := ⟨0, 32, 0, .ro⟩

/-- SNAP_STAT. -/
def R.SNAP_STAT : Nat := 0x14000018
/-- SNAP_STAT.COMPLETED. -/
def F.SNAP_STAT_COMPLETED : Fld := ⟨48, 16, 0, .rc⟩
/-- SNAP_STAT.FAILED. -/
def F.SNAP_STAT_FAILED : Fld := ⟨32, 16, 0, .rc⟩
/-- SNAP_STAT.DIGEST_FAIL. -/
def F.SNAP_STAT_DIGEST_FAIL : Fld := ⟨16, 16, 0, .rc⟩
/-- SNAP_STAT.QUEUED. -/
def F.SNAP_STAT_QUEUED : Fld := ⟨0, 8, 0, .ro⟩

/-- SCH_SNAP_CTL, a per-context register. -/
def R.SCH_SNAP_CTL : Nat := 0x5100
/-- SCH_SNAP_CTL.AUTO. -/
def F.SCH_SNAP_CTL_AUTO : Fld := ⟨63, 1, 0, .rw⟩
/-- SCH_SNAP_CTL.SIGN. -/
def F.SCH_SNAP_CTL_SIGN : Fld := ⟨62, 1, 0, .rw⟩
/-- SCH_SNAP_CTL.COUNT. -/
def F.SCH_SNAP_CTL_COUNT : Fld := ⟨0, 20, 0, .rw⟩

/-- SCH_SNAP_LIST, a per-context register. -/
def R.SCH_SNAP_LIST : Nat := 0x5108
/-- SCH_SNAP_LIST.ADDR. -/
def F.SCH_SNAP_LIST_ADDR : Fld := ⟨6, 50, 0, .rw⟩

/-- SCH_SNAP_TGT, a per-context register. -/
def R.SCH_SNAP_TGT : Nat := 0x5110
/-- SCH_SNAP_TGT.ADDR. -/
def F.SCH_SNAP_TGT_ADDR : Fld := ⟨6, 50, 0, .rw⟩

/-- SCH_SNAP_STAT, a per-context register. -/
def R.SCH_SNAP_STAT : Nat := 0x5118
/-- SCH_SNAP_STAT.LAST_STEP. -/
def F.SCH_SNAP_STAT_LAST_STEP : Fld := ⟨16, 48, 0, .ro⟩
/-- SCH_SNAP_STAT.BANK. -/
def F.SCH_SNAP_STAT_BANK : Fld := ⟨7, 1, 0, .ro⟩
/-- SCH_SNAP_STAT.OUTCOME. -/
def F.SCH_SNAP_STAT_OUTCOME : Fld := ⟨0, 3, 0, .ro⟩

/-- SCH_REGROUP, a per-context register. -/
def R.SCH_REGROUP : Nat := 0x5120
/-- SCH_REGROUP.REJOIN. -/
def F.SCH_REGROUP_REJOIN : Fld := ⟨63, 1, 0, .wo⟩
/-- SCH_REGROUP.ACTIVE. -/
def F.SCH_REGROUP_ACTIVE : Fld := ⟨62, 1, 0, .ro⟩
/-- SCH_REGROUP.EXPIRED. -/
def F.SCH_REGROUP_EXPIRED : Fld := ⟨61, 1, 0, .ro⟩
/-- SCH_REGROUP.CAUSE. -/
def F.SCH_REGROUP_CAUSE : Fld := ⟨56, 2, 0, .ro⟩
/-- SCH_REGROUP.LOST_PKG. -/
def F.SCH_REGROUP_LOST_PKG : Fld := ⟨32, 16, 0, .ro⟩
/-- SCH_REGROUP.REGROUP_S. -/
def F.SCH_REGROUP_REGROUP_S : Fld := ⟨0, 16, 0x78, .rw⟩

/-- PKG_IDENT. -/
def R.PKG_IDENT : Nat := 0x0
/-- PKG_IDENT.VENDOR. -/
def F.PKG_IDENT_VENDOR : Fld := ⟨52, 12, 0x4A5, .ro⟩
/-- PKG_IDENT.PART. -/
def F.PKG_IDENT_PART : Fld := ⟨36, 16, 0x4160, .ro⟩
/-- PKG_IDENT.STEPPING. -/
def F.PKG_IDENT_STEPPING : Fld := ⟨28, 8, 0xA1, .ro⟩

/-- PKG_SERIAL. -/
def R.PKG_SERIAL : Nat := 0x8
/-- PKG_SERIAL.SERIAL. -/
def F.PKG_SERIAL_SERIAL : Fld := ⟨0, 64, 0, .ro⟩

/-- PKG_STATUS. -/
def R.PKG_STATUS : Nat := 0x10
/-- PKG_STATUS.STEP. -/
def F.PKG_STATUS_STEP : Fld := ⟨1, 4, 1, .ro⟩
/-- PKG_STATUS.READY. -/
def F.PKG_STATUS_READY : Fld := ⟨0, 1, 0, .ro⟩

/-- PKG_CORE_REL. -/
def R.PKG_CORE_REL : Nat := 0x18
/-- PKG_CORE_REL.ENTRY. -/
def F.PKG_CORE_REL_ENTRY : Fld := ⟨2, 54, 0, .wo⟩

/-- PKG_CORE_RELM. -/
def R.PKG_CORE_RELM (i : Nat) : Nat := 0x20 + 0x8 * i
/-- PKG_CORE_RELM.CORES. -/
def F.PKG_CORE_RELM_CORES : Fld := ⟨0, 64, 0, .w1s⟩

/-- CFG_STATUS. -/
def R.CFG_STATUS : Nat := 0x100000
/-- CFG_STATUS.RECORD. -/
def F.CFG_STATUS_RECORD : Fld := ⟨48, 16, 0, .ro⟩
/-- CFG_STATUS.GUARD. -/
def F.CFG_STATUS_GUARD : Fld := ⟨32, 1, 1, .ro⟩
/-- CFG_STATUS.MEM_FAIL. -/
def F.CFG_STATUS_MEM_FAIL : Fld := ⟨16, 16, 0, .ro⟩
/-- CFG_STATUS.LIFE_EMPTY. -/
def F.CFG_STATUS_LIFE_EMPTY : Fld := ⟨12, 4, 0, .ro⟩
/-- CFG_STATUS.MODE. -/
def F.CFG_STATUS_MODE : Fld := ⟨10, 2, 0, .ro⟩
/-- CFG_STATUS.FAILED. -/
def F.CFG_STATUS_FAILED : Fld := ⟨9, 1, 0, .ro⟩
/-- CFG_STATUS.OPEN. -/
def F.CFG_STATUS_OPEN : Fld := ⟨8, 1, 0, .ro⟩
/-- CFG_STATUS.CAUSE. -/
def F.CFG_STATUS_CAUSE : Fld := ⟨0, 4, 0, .ro⟩

/-- CFG_IMAGE. -/
def R.CFG_IMAGE : Nat := 0x100008
/-- CFG_IMAGE.SVN. -/
def F.CFG_IMAGE_SVN : Fld := ⟨56, 8, 0, .ro⟩
/-- CFG_IMAGE.KEY_SLOT. -/
def F.CFG_IMAGE_KEY_SLOT : Fld := ⟨48, 8, 0, .ro⟩
/-- CFG_IMAGE.RECORDS. -/
def F.CFG_IMAGE_RECORDS : Fld := ⟨32, 16, 0, .ro⟩
/-- CFG_IMAGE.LIFE_OFF. -/
def F.CFG_IMAGE_LIFE_OFF : Fld := ⟨0, 32, 0, .ro⟩

/-- CFG_LIFE. -/
def R.CFG_LIFE : Nat := 0x100010
/-- CFG_LIFE.WRITES. -/
def F.CFG_LIFE_WRITES : Fld := ⟨32, 32, 0, .rc⟩
/-- CFG_LIFE.BAD_FULL. -/
def F.CFG_LIFE_BAD_FULL : Fld := ⟨2, 1, 0, .ro⟩
/-- CFG_LIFE.WAIT_GUARD. -/
def F.CFG_LIFE_WAIT_GUARD : Fld := ⟨1, 1, 0, .ro⟩
/-- CFG_LIFE.PENDING. -/
def F.CFG_LIFE_PENDING : Fld := ⟨0, 1, 0, .ro⟩

/-- CFG_MEM_FAIL. -/
def R.CFG_MEM_FAIL : Nat := 0x100018
/-- CFG_MEM_FAIL.BUSES. -/
def F.CFG_MEM_FAIL_BUSES : Fld := ⟨32, 32, 0, .ro⟩
/-- CFG_MEM_FAIL.STACKS. -/
def F.CFG_MEM_FAIL_STACKS : Fld := ⟨0, 16, 0, .ro⟩

/-- CFG_DIGEST. -/
def R.CFG_DIGEST (i : Nat) : Nat := 0x100040 + 0x8 * i
/-- CFG_DIGEST.DIGEST. -/
def F.CFG_DIGEST_DIGEST : Fld := ⟨0, 64, 0, .ro⟩

/-- CFG_FLASH_CMD. -/
def R.CFG_FLASH_CMD : Nat := 0x100080
/-- CFG_FLASH_CMD.OP. -/
def F.CFG_FLASH_CMD_OP : Fld := ⟨62, 2, 0, .wo⟩
/-- CFG_FLASH_CMD.ADDR. -/
def F.CFG_FLASH_CMD_ADDR : Fld := ⟨16, 40, 0, .wo⟩
/-- CFG_FLASH_CMD.SECTOR. -/
def F.CFG_FLASH_CMD_SECTOR : Fld := ⟨0, 12, 0, .wo⟩

/-- CFG_FLASH_STAT. -/
def R.CFG_FLASH_STAT : Nat := 0x100088
/-- CFG_FLASH_STAT.BUSY. -/
def F.CFG_FLASH_STAT_BUSY : Fld := ⟨63, 1, 0, .ro⟩
/-- CFG_FLASH_STAT.RESULT. -/
def F.CFG_FLASH_STAT_RESULT : Fld := ⟨60, 3, 0, .ro⟩

/-- SEC_FUSE_CMD. -/
def R.SEC_FUSE_CMD : Nat := 0x200000
/-- SEC_FUSE_CMD.OP. -/
def F.SEC_FUSE_CMD_OP : Fld := ⟨60, 4, 0, .wo⟩
/-- SEC_FUSE_CMD.SLOT. -/
def F.SEC_FUSE_CMD_SLOT : Fld := ⟨59, 1, 0, .wo⟩
/-- SEC_FUSE_CMD.ADDR. -/
def F.SEC_FUSE_CMD_ADDR : Fld := ⟨6, 50, 0, .wo⟩
/-- SEC_FUSE_CMD.COUNT. -/
def F.SEC_FUSE_CMD_COUNT : Fld := ⟨0, 6, 0, .wo⟩

/-- SEC_FUSE_STAT. -/
def R.SEC_FUSE_STAT : Nat := 0x200008
/-- SEC_FUSE_STAT.BUSY. -/
def F.SEC_FUSE_STAT_BUSY : Fld := ⟨63, 1, 0, .ro⟩
/-- SEC_FUSE_STAT.RESULT. -/
def F.SEC_FUSE_STAT_RESULT : Fld := ⟨60, 3, 0, .ro⟩
/-- SEC_FUSE_STAT.ID_BAD. -/
def F.SEC_FUSE_STAT_ID_BAD : Fld := ⟨16, 1, 0, .ro⟩
/-- SEC_FUSE_STAT.PROVISIONED. -/
def F.SEC_FUSE_STAT_PROVISIONED : Fld := ⟨15, 1, 0, .ro⟩
/-- SEC_FUSE_STAT.VALID. -/
def F.SEC_FUSE_STAT_VALID : Fld := ⟨13, 2, 0, .ro⟩
/-- SEC_FUSE_STAT.REVOKED. -/
def F.SEC_FUSE_STAT_REVOKED : Fld := ⟨11, 2, 0, .ro⟩
/-- SEC_FUSE_STAT.SVN_COUNT. -/
def F.SEC_FUSE_STAT_SVN_COUNT : Fld := ⟨0, 7, 0, .ro⟩

/-- SEC_OWNER. -/
def R.SEC_OWNER (i j : Nat) : Nat := 0x200040 + 0x40 * i + 0x8 * j
/-- SEC_OWNER.DIGEST. -/
def F.SEC_OWNER_DIGEST : Fld := ⟨0, 64, 0, .ro⟩

/-- SEC_IDPUB. -/
def R.SEC_IDPUB (i : Nat) : Nat := 0x200100 + 0x8 * i
/-- SEC_IDPUB.POINT. -/
def F.SEC_IDPUB_POINT : Fld := ⟨0, 64, 0, .ro⟩

/-- SEC_ATTEST_CMD. -/
def R.SEC_ATTEST_CMD : Nat := 0x200200
/-- SEC_ATTEST_CMD.ADDR. -/
def F.SEC_ATTEST_CMD_ADDR : Fld := ⟨6, 50, 0, .wo⟩

/-- SEC_ATTEST_STAT. -/
def R.SEC_ATTEST_STAT : Nat := 0x200208
/-- SEC_ATTEST_STAT.BUSY. -/
def F.SEC_ATTEST_STAT_BUSY : Fld := ⟨63, 1, 0, .ro⟩
/-- SEC_ATTEST_STAT.DONE. -/
def F.SEC_ATTEST_STAT_DONE : Fld := ⟨62, 1, 0, .w1c⟩
/-- SEC_ATTEST_STAT.STATUS. -/
def F.SEC_ATTEST_STAT_STATUS : Fld := ⟨48, 8, 0, .ro⟩

/-- PMC_TCYC. -/
def R.PMC_TCYC (u : Nat) : Nat := B.til u + 0x1000
/-- PMC_TCYC.CYCLES. -/
def F.PMC_TCYC_CYCLES : Fld := ⟨0, 64, 0, .ro⟩

/-- PMC_TEVT. -/
def R.PMC_TEVT (u i : Nat) : Nat := B.til u + 0x1010 + 0x10 * i
/-- PMC_TEVT.EN. -/
def F.PMC_TEVT_EN : Fld := ⟨63, 1, 0, .rw⟩
/-- PMC_TEVT.OVF. -/
def F.PMC_TEVT_OVF : Fld := ⟨62, 1, 0, .w1c⟩
/-- PMC_TEVT.OVF_EVT. -/
def F.PMC_TEVT_OVF_EVT : Fld := ⟨61, 1, 0, .rw⟩
/-- PMC_TEVT.CTX_V. -/
def F.PMC_TEVT_CTX_V : Fld := ⟨60, 1, 0, .rw⟩
/-- PMC_TEVT.CTX. -/
def F.PMC_TEVT_CTX : Fld := ⟨52, 8, 0, .rw⟩
/-- PMC_TEVT.EVENT. -/
def F.PMC_TEVT_EVENT : Fld := ⟨0, 8, 0, .rw⟩

/-- PMC_TCNT. -/
def R.PMC_TCNT (u i : Nat) : Nat := B.til u + 0x1018 + 0x10 * i
/-- PMC_TCNT.COUNT. -/
def F.PMC_TCNT_COUNT : Fld := ⟨0, 48, 0, .rw⟩

/-- PMC_HEVT. -/
def R.PMC_HEVT (u i : Nat) : Nat := B.hrd u + 0x800 + 0x10 * i
/-- PMC_HEVT.EN. -/
def F.PMC_HEVT_EN : Fld := ⟨63, 1, 0, .rw⟩
/-- PMC_HEVT.OVF. -/
def F.PMC_HEVT_OVF : Fld := ⟨62, 1, 0, .w1c⟩
/-- PMC_HEVT.OVF_EVT. -/
def F.PMC_HEVT_OVF_EVT : Fld := ⟨61, 1, 0, .rw⟩
/-- PMC_HEVT.CTX_V. -/
def F.PMC_HEVT_CTX_V : Fld := ⟨60, 1, 0, .rw⟩
/-- PMC_HEVT.CTX. -/
def F.PMC_HEVT_CTX : Fld := ⟨52, 8, 0, .rw⟩
/-- PMC_HEVT.EVENT. -/
def F.PMC_HEVT_EVENT : Fld := ⟨0, 8, 0, .rw⟩

/-- PMC_HCNT. -/
def R.PMC_HCNT (u i : Nat) : Nat := B.hrd u + 0x808 + 0x10 * i
/-- PMC_HCNT.COUNT. -/
def F.PMC_HCNT_COUNT : Fld := ⟨0, 48, 0, .rw⟩

/-- PMC_SMP_CTL. -/
def R.PMC_SMP_CTL (u : Nat) : Nat := B.til u + 0x1100
/-- PMC_SMP_CTL.EN. -/
def F.PMC_SMP_CTL_EN : Fld := ⟨63, 1, 0, .rw⟩
/-- PMC_SMP_CTL.WRAP. -/
def F.PMC_SMP_CTL_WRAP : Fld := ⟨62, 1, 0, .rw⟩
/-- PMC_SMP_CTL.THRESH. -/
def F.PMC_SMP_CTL_THRESH : Fld := ⟨36, 4, 0, .rw⟩
/-- PMC_SMP_CTL.CLASSES. -/
def F.PMC_SMP_CTL_CLASSES : Fld := ⟨24, 8, 0xFF, .rw⟩
/-- PMC_SMP_CTL.PERIOD. -/
def F.PMC_SMP_CTL_PERIOD : Fld := ⟨0, 16, 0x3FF, .rw⟩

/-- PMC_SMP_PTR. -/
def R.PMC_SMP_PTR (u : Nat) : Nat := B.til u + 0x1108
/-- PMC_SMP_PTR.DROPPED. -/
def F.PMC_SMP_PTR_DROPPED : Fld := ⟨48, 16, 0, .rc⟩
/-- PMC_SMP_PTR.FILL. -/
def F.PMC_SMP_PTR_FILL : Fld := ⟨32, 11, 0, .ro⟩
/-- PMC_SMP_PTR.WR. -/
def F.PMC_SMP_PTR_WR : Fld := ⟨16, 10, 0, .ro⟩
/-- PMC_SMP_PTR.RD. -/
def F.PMC_SMP_PTR_RD : Fld := ⟨0, 10, 0, .rw⟩

/-- SCH_PMC_CTL. -/
def R.SCH_PMC_CTL (u : Nat) : Nat := B.sch u + 0x70
/-- SCH_PMC_CTL.USER_READ. -/
def F.SCH_PMC_CTL_USER_READ : Fld := ⟨0, 1, 0, .rw⟩

/-- PKG_PMC_CTL. -/
def R.PKG_PMC_CTL : Nat := 0x200
/-- PKG_PMC_CTL.FREEZE_ON_OVF. -/
def F.PKG_PMC_CTL_FREEZE_ON_OVF : Fld := ⟨3, 1, 0, .rw⟩
/-- PKG_PMC_CTL.FREEZE. -/
def F.PKG_PMC_CTL_FREEZE : Fld := ⟨2, 1, 0, .rw⟩
/-- PKG_PMC_CTL.USER_SHARED. -/
def F.PKG_PMC_CTL_USER_SHARED : Fld := ⟨1, 1, 0, .rw⟩

/-- LIF_CTL. -/
def R.LIF_CTL : Nat := 0x600000
/-- LIF_CTL.LOCK. -/
def F.LIF_CTL_LOCK : Fld := ⟨63, 1, 0, .w1s⟩
/-- LIF_CTL.PERIOD_H. -/
def F.LIF_CTL_PERIOD_H : Fld := ⟨0, 8, 4, .lk⟩

/-- LIF_CMD. -/
def R.LIF_CMD : Nat := 0x600008
/-- LIF_CMD.FLUSH. -/
def F.LIF_CMD_FLUSH : Fld := ⟨0, 1, 0, .wo⟩

/-- LIF_STATUS. -/
def R.LIF_STATUS : Nat := 0x600010
/-- LIF_STATUS.SEQ. -/
def F.LIF_STATUS_SEQ : Fld := ⟨32, 32, 0, .ro⟩
/-- LIF_STATUS.FLUSHED. -/
def F.LIF_STATUS_FLUSHED : Fld := ⟨17, 1, 0, .w1c⟩
/-- LIF_STATUS.PENDING. -/
def F.LIF_STATUS_PENDING : Fld := ⟨16, 1, 0, .ro⟩
/-- LIF_STATUS.SLOT. -/
def F.LIF_STATUS_SLOT : Fld := ⟨0, 10, 0, .ro⟩

/-- LIF_CNT. -/
def R.LIF_CNT (i : Nat) : Nat := 0x600100 + 0x8 * i
/-- LIF_CNT.VALUE. -/
def F.LIF_CNT_VALUE : Fld := ⟨0, 64, 0, .ro⟩

/-- LIF_HIST. -/
def R.LIF_HIST (i j : Nat) : Nat := 0x601000 + 0x100 * i + 0x8 * j
/-- LIF_HIST.VALUE. -/
def F.LIF_HIST_VALUE : Fld := ⟨0, 64, 0, .ro⟩

/-- PWR_CTRL. -/
def R.PWR_CTRL : Nat := 0x700000
/-- PWR_CTRL.LOCK. -/
def F.PWR_CTRL_LOCK : Fld := ⟨63, 1, 0, .w1s⟩
/-- PWR_CTRL.THROTTLE_C. -/
def F.PWR_CTRL_THROTTLE_C : Fld := ⟨48, 8, 0x64, .lk⟩
/-- PWR_CTRL.BRAKE_SHARE. -/
def F.PWR_CTRL_BRAKE_SHARE : Fld := ⟨43, 5, 6, .lk⟩
/-- PWR_CTRL.CAP_EN. -/
def F.PWR_CTRL_CAP_EN : Fld := ⟨40, 1, 0, .rw⟩
/-- PWR_CTRL.CAP_W. -/
def F.PWR_CTRL_CAP_W : Fld := ⟨28, 12, 0x898, .rw⟩
/-- PWR_CTRL.DROOP_MV. -/
def F.PWR_CTRL_DROOP_MV : Fld := ⟨0, 8, 0x1E, .lk⟩

/-- PWR_STATUS. -/
def R.PWR_STATUS : Nat := 0x700008
/-- PWR_STATUS.POWER_W. -/
def F.PWR_STATUS_POWER_W : Fld := ⟨48, 16, 0, .ro⟩
/-- PWR_STATUS.TJ_MAX. -/
def F.PWR_STATUS_TJ_MAX : Fld := ⟨40, 8, 0, .ro⟩
/-- PWR_STATUS.TSTK_MAX. -/
def F.PWR_STATUS_TSTK_MAX : Fld := ⟨32, 8, 0, .ro⟩
/-- PWR_STATUS.SHARE0. -/
def F.PWR_STATUS_SHARE0 : Fld := ⟨27, 5, 0x10, .ro⟩
/-- PWR_STATUS.SHARE1. -/
def F.PWR_STATUS_SHARE1 : Fld := ⟨22, 5, 0x10, .ro⟩
/-- PWR_STATUS.THERMTRIP. -/
def F.PWR_STATUS_THERMTRIP : Fld := ⟨18, 1, 0, .ro⟩
/-- PWR_STATUS.BRAKE. -/
def F.PWR_STATUS_BRAKE : Fld := ⟨17, 1, 0, .ro⟩
/-- PWR_STATUS.CAP_LIMIT. -/
def F.PWR_STATUS_CAP_LIMIT : Fld := ⟨16, 1, 0, .ro⟩
/-- PWR_STATUS.THERM_LIMIT. -/
def F.PWR_STATUS_THERM_LIMIT : Fld := ⟨15, 1, 0, .ro⟩
/-- PWR_STATUS.RAIL_FAULT. -/
def F.PWR_STATUS_RAIL_FAULT : Fld := ⟨0, 11, 0, .ro⟩

/-- PWR_DROOP. -/
def R.PWR_DROOP : Nat := 0x700010
/-- PWR_DROOP.COUNT. -/
def F.PWR_DROOP_COUNT : Fld := ⟨32, 32, 0, .rc⟩
/-- PWR_DROOP.LAST_RAIL. -/
def F.PWR_DROOP_LAST_RAIL : Fld := ⟨24, 4, 0, .ro⟩
/-- PWR_DROOP.LAST_DEPTH_MV. -/
def F.PWR_DROOP_LAST_DEPTH_MV : Fld := ⟨0, 16, 0, .ro⟩

/-- PWR_RAIL. -/
def R.PWR_RAIL (i : Nat) : Nat := 0x700100 + 0x8 * i
/-- PWR_RAIL.MIN_MV. -/
def F.PWR_RAIL_MIN_MV : Fld := ⟨32, 16, 0, .rc⟩
/-- PWR_RAIL.MV. -/
def F.PWR_RAIL_MV : Fld := ⟨0, 16, 0, .ro⟩

/-- PMC_BW_CTL. -/
def R.PMC_BW_CTL (u : Nat) : Nat := u + 0x0
/-- PMC_BW_CTL.WIN. -/
def F.PMC_BW_CTL_WIN : Fld := ⟨0, 16, 0, .rw⟩

/-- PMC_BW_END. -/
def R.PMC_BW_END (u : Nat) : Nat := u + 0x28
/-- PMC_BW_END.PARTIAL. -/
def F.PMC_BW_END_PARTIAL : Fld := ⟨63, 1, 0, .ro⟩
/-- PMC_BW_END.END. -/
def F.PMC_BW_END_END : Fld := ⟨0, 48, 0, .ro⟩

/-- PMC_BW_A. -/
def R.PMC_BW_A (u : Nat) : Nat := u + 0x8
/-- PMC_BW_A.BYTES. -/
def F.PMC_BW_A_BYTES : Fld := ⟨0, 64, 0, .ro⟩

/-- PMC_BW_B. -/
def R.PMC_BW_B (u : Nat) : Nat := u + 0x10
/-- PMC_BW_B.BYTES. -/
def F.PMC_BW_B_BYTES : Fld := ⟨0, 64, 0, .ro⟩

/-- PMC_BW_WA. -/
def R.PMC_BW_WA (u : Nat) : Nat := u + 0x18
/-- PMC_BW_WA.BYTES. -/
def F.PMC_BW_WA_BYTES : Fld := ⟨0, 48, 0, .ro⟩

/-- PMC_BW_WB. -/
def R.PMC_BW_WB (u : Nat) : Nat := u + 0x20
/-- PMC_BW_WB.BYTES. -/
def F.PMC_BW_WB_BYTES : Fld := ⟨0, 48, 0, .ro⟩

/-- PMC_SMP_REC. -/
def R.PMC_SMP_REC (u i j : Nat) : Nat := B.til u + 0x8000 + 0x20 * i + 0x8 * j
/-- PMC_SMP_REC.WORD. -/
def F.PMC_SMP_REC_WORD : Fld := ⟨0, 64, 0, .ro⟩

/-- One row of the register map: name, offset in its block, strides with counts, and fields. -/
structure Row where
  name : RegName
  off : Nat
  s1 : Nat
  n1 : Nat
  s2 : Nat
  n2 : Nat
  fields : List Fld
deriving DecidableEq, Repr

/-- The registers of the tck block kind. -/
def Rows.tck : List Row :=
  [⟨.TCK_COUNT, 0x0, 0x0, 1, 0x0, 1, [F.TCK_COUNT_COUNT]⟩,
    ⟨.TCK_TIME, 0x8, 0x0, 1, 0x0, 1, [F.TCK_TIME_TIME]⟩,
    ⟨.TCK_CTRL, 0x10, 0x0, 1, 0x0, 1, [F.TCK_CTRL_LOCK, F.TCK_CTRL_PPS_OUT_EN, F.TCK_CTRL_PERIOD_LOG2]⟩,
    ⟨.TCK_STATUS, 0x18, 0x0, 1, 0x0, 1, [F.TCK_STATUS_LATE_COUNT, F.TCK_STATUS_UNLOCK_COUNT, F.TCK_STATUS_STEP_REFUSED, F.TCK_STATUS_CTRL_REFUSED, F.TCK_STATUS_PPS_IN_SEEN, F.TCK_STATUS_SYNC_ERR, F.TCK_STATUS_HOLDOVER, F.TCK_STATUS_LOCKED]⟩,
    ⟨.TCK_SYNC, 0x20, 0x0, 1, 0x0, 1, [F.TCK_SYNC_UPSTREAM, F.TCK_SYNC_HOPS, F.TCK_SYNC_ROLE]⟩,
    ⟨.TCK_OFFSET, 0x28, 0x0, 1, 0x0, 1, [F.TCK_OFFSET_OFFSET]⟩,
    ⟨.TCK_RATE, 0x30, 0x0, 1, 0x0, 1, [F.TCK_RATE_RATE_PPB]⟩,
    ⟨.TCK_STEP, 0x38, 0x0, 1, 0x0, 1, [F.TCK_STEP_STEP]⟩]
  ++ [⟨.TCK_PPS, 0x40, 0x0, 1, 0x0, 1, [F.TCK_PPS_EDGE]⟩,
    ⟨.TCK_WDOG, 0x48, 0x0, 1, 0x0, 1, [F.TCK_WDOG_DIE_TICKS, F.TCK_WDOG_HERD_TICKS, F.TCK_WDOG_HB_TICKS, F.TCK_WDOG_SEG_TICKS]⟩,
    ⟨.TCK_TMO, 0x50, 0x0, 1, 0x0, 1, [F.TCK_TMO_AFR_US, F.TCK_TMO_MEM_US, F.TCK_TMO_UCIE_US]⟩,
    ⟨.TCK_STOT, 0x58, 0x0, 1, 0x0, 1, [F.TCK_STOT_LAST_LATE, F.TCK_STOT_LAG]⟩]

/-- The registers of the til block kind. -/
def Rows.til : List Row :=
  [⟨.TIL_NUMCTL, 0xF00, 0x0, 1, 0x0, 1, [F.TIL_NUMCTL_SR_EN, F.TIL_NUMCTL_E4M3_INF]⟩,
    ⟨.TIL_MMA_STATUS, 0xF08, 0x0, 1, 0x0, 1, [F.TIL_MMA_STATUS_SAT_COUNT, F.TIL_MMA_STATUS_SET_VALID, F.TIL_MMA_STATUS_SET_DRAINING, F.TIL_MMA_STATUS_STALE_ACC, F.TIL_MMA_STATUS_IN_NONFINITE, F.TIL_MMA_STATUS_INT_SAT, F.TIL_MMA_STATUS_BUSY]⟩,
    ⟨.TIL_VSTATUS, 0xF10, 0x0, 1, 0x0, 1, [F.TIL_VSTATUS_PERM_RANGE, F.TIL_VSTATUS_ARITH_INVALID, F.TIL_VSTATUS_ARITH_OVF, F.TIL_VSTATUS_CVT_INVALID, F.TIL_VSTATUS_CVT_OVF]⟩,
    ⟨.TIL_SREG, 0xF40, 0x8, 16, 0x0, 1, [F.TIL_SREG_STATUS, F.TIL_SREG_VALUE]⟩,
    ⟨.TIL_SEGQ_PUSH, 0xE00, 0x0, 1, 0x0, 1, [F.TIL_SEGQ_PUSH_HERD, F.TIL_SEGQ_PUSH_ADDR]⟩,
    ⟨.TIL_SEGQ_STATUS, 0xE08, 0x0, 1, 0x0, 1, [F.TIL_SEGQ_STATUS_RUN_SEG_ID, F.TIL_SEGQ_STATUS_RUN_INDEX, F.TIL_SEGQ_STATUS_RUNNING, F.TIL_SEGQ_STATUS_LEVEL]⟩,
    ⟨.TIL_SEG_STATUS, 0xE10, 0x0, 1, 0x0, 1, [F.TIL_SEG_STATUS_FAULT_SEG_ID, F.TIL_SEG_STATUS_FAULT_INDEX, F.TIL_SEG_STATUS_FAULT_CAUSE, F.TIL_SEG_STATUS_REC_ALIGN, F.TIL_SEG_STATUS_PUSH_LOST, F.TIL_SEG_STATUS_TRAP, F.TIL_SEG_STATUS_VIEW_RANGE, F.TIL_SEG_STATUS_SEM_FAULT, F.TIL_SEG_STATUS_CRED_OVF, F.TIL_SEG_STATUS_SCALE_BAD, F.TIL_SEG_STATUS_ADDR_ERR, F.TIL_SEG_STATUS_DESC_BAD, F.TIL_SEG_STATUS_ILLEGAL, F.TIL_SEG_STATUS_BUDGET_OVER, F.TIL_SEG_STATUS_SEG_HANG, F.TIL_SEG_STATUS_SEG_OVERRUN]⟩,
    ⟨.TIL_SEG_RETIRED, 0xE18, 0x0, 1, 0x0, 1, [F.TIL_SEG_RETIRED_LAST_SEG_ID, F.TIL_SEG_RETIRED_OVERRUNS, F.TIL_SEG_RETIRED_COUNT]⟩]
  ++ [⟨.TIL_CRED, 0xE20, 0x0, 1, 0x0, 1, [F.TIL_CRED_COUNTS]⟩,
    ⟨.PMC_TCYC, 0x1000, 0x0, 1, 0x0, 1, [F.PMC_TCYC_CYCLES]⟩,
    ⟨.PMC_TEVT, 0x1010, 0x10, 8, 0x0, 1, [F.PMC_TEVT_EN, F.PMC_TEVT_OVF, F.PMC_TEVT_OVF_EVT, F.PMC_TEVT_CTX_V, F.PMC_TEVT_CTX, F.PMC_TEVT_EVENT]⟩,
    ⟨.PMC_TCNT, 0x1018, 0x10, 8, 0x0, 1, [F.PMC_TCNT_COUNT]⟩,
    ⟨.PMC_SMP_CTL, 0x1100, 0x0, 1, 0x0, 1, [F.PMC_SMP_CTL_EN, F.PMC_SMP_CTL_WRAP, F.PMC_SMP_CTL_THRESH, F.PMC_SMP_CTL_CLASSES, F.PMC_SMP_CTL_PERIOD]⟩,
    ⟨.PMC_SMP_PTR, 0x1108, 0x0, 1, 0x0, 1, [F.PMC_SMP_PTR_DROPPED, F.PMC_SMP_PTR_FILL, F.PMC_SMP_PTR_WR, F.PMC_SMP_PTR_RD]⟩,
    ⟨.PMC_SMP_REC, 0x8000, 0x20, 1024, 0x8, 4, [F.PMC_SMP_REC_WORD]⟩]

/-- The registers of the hrd block kind. -/
def Rows.hrd : List Row :=
  [⟨.HRD_GANG, 0x400, 0x0, 1, 0x0, 1, [F.HRD_GANG_ACTIVE_WIDTH, F.HRD_GANG_ACTIVE_JOIN, F.HRD_GANG_PENDING, F.HRD_GANG_PUSH_REFUSED, F.HRD_GANG_JOIN]⟩,
    ⟨.HRD_GANG_WIDTH, 0x408, 0x0, 1, 0x0, 1, [F.HRD_GANG_WIDTH_WIDTH]⟩,
    ⟨.HRD_SUMM_Q, 0x500, 0x8, 12, 0x0, 1, [F.HRD_SUMM_Q_VALID, F.HRD_SUMM_Q_KIND, F.HRD_SUMM_Q_TAG, F.HRD_SUMM_Q_STATUS, F.HRD_SUMM_Q_FLAGS, F.HRD_SUMM_Q_VALUE]⟩,
    ⟨.HRD_SUMM_CTL, 0x560, 0x0, 1, 0x0, 1, [F.HRD_SUMM_CTL_ROUTE, F.HRD_SUMM_CTL_IRQ_EN]⟩,
    ⟨.HRD_SUMM_LEVEL, 0x568, 0x0, 1, 0x0, 1, [F.HRD_SUMM_LEVEL_LEVEL]⟩,
    ⟨.HRD_HEARTBEAT, 0x300, 0x0, 1, 0x0, 1, [F.HRD_HEARTBEAT_BEAT]⟩,
    ⟨.HRD_UPD_EVT, 0x600, 0x0, 1, 0x0, 1, [F.HRD_UPD_EVT_ROOT_KEPT]⟩,
    ⟨.HRD_UPD_STAT, 0x608, 0x0, 1, 0x0, 1, [F.HRD_UPD_STAT_ROOT_KEPT]⟩]
  ++ [⟨.HRD_TASK_POP, 0x700, 0x0, 1, 0x0, 1, [F.HRD_TASK_POP_VALID, F.HRD_TASK_POP_RANK, F.HRD_TASK_POP_ARG]⟩,
    ⟨.HRD_TASK_IDX, 0x708, 0x0, 1, 0x0, 1, [F.HRD_TASK_IDX_INDEX]⟩,
    ⟨.HRD_TASK_DONE, 0x710, 0x0, 1, 0x0, 1, [F.HRD_TASK_DONE_STATUS, F.HRD_TASK_DONE_INDEX]⟩,
    ⟨.PMC_HEVT, 0x800, 0x10, 8, 0x0, 1, [F.PMC_HEVT_EN, F.PMC_HEVT_OVF, F.PMC_HEVT_OVF_EVT, F.PMC_HEVT_CTX_V, F.PMC_HEVT_CTX, F.PMC_HEVT_EVENT]⟩,
    ⟨.PMC_HCNT, 0x808, 0x10, 8, 0x0, 1, [F.PMC_HCNT_COUNT]⟩]

/-- The registers of the sch block kind. -/
def Rows.sch : List Row :=
  [⟨.SCH_SEM, 0x8000, 0x10, 256, 0x0, 1, [F.SCH_SEM_LOCK, F.SCH_SEM_GROUP, F.SCH_SEM_HOLDER, F.SCH_SEM_HELD, F.SCH_SEM_WAITERS, F.SCH_SEM_VALUE]⟩,
    ⟨.SCH_SEMADD, 0x8008, 0x10, 256, 0x0, 1, [F.SCH_SEMADD_ADD]⟩,
    ⟨.SCH_NUM_CTL, 0x3000, 0x0, 1, 0x0, 1, [F.SCH_NUM_CTL_XGROUP, F.SCH_NUM_CTL_NF_FRAC, F.SCH_NUM_CTL_SKIP_LIMIT, F.SCH_NUM_CTL_QUIET_LIMIT, F.SCH_NUM_CTL_RESUME, F.SCH_NUM_CTL_XCHG_EN, F.SCH_NUM_CTL_PG_EN]⟩,
    ⟨.SCH_RESCALE_BASE, 0x3008, 0x0, 1, 0x0, 1, [F.SCH_RESCALE_BASE_ADDR]⟩,
    ⟨.SCH_RESCALE_COUNT, 0x3010, 0x0, 1, 0x0, 1, [F.SCH_RESCALE_COUNT_COUNT]⟩,
    ⟨.SCH_NUM_STAT, 0x3018, 0x0, 1, 0x0, 1, [F.SCH_NUM_STAT_NF_SKIPS, F.SCH_NUM_STAT_SKIP_RUN, F.SCH_NUM_STAT_RESCALE_BAD, F.SCH_NUM_STAT_PG_DROPPED]⟩,
    ⟨.SCH_SCALE_STAT, 0x3020, 0x0, 1, 0x0, 1, [F.SCH_SCALE_STAT_SCALE_CEIL, F.SCH_SCALE_STAT_SCALE_FLOOR]⟩,
    ⟨.SCH_PG_CTL, 0x3028, 0x0, 1, 0x0, 1, [F.SCH_PG_CTL_MIN_COUNT, F.SCH_PG_CTL_HOLD, F.SCH_PG_CTL_D5, F.SCH_PG_CTL_D4, F.SCH_PG_CTL_TAU]⟩]
  ++ [⟨.SCH_PG, 0x3100, 0x10, 64, 0x0, 1, [F.SCH_PG_EN, F.SCH_PG_FMT, F.SCH_PG_DESC]⟩,
    ⟨.SCH_PG_ID, 0x3108, 0x10, 64, 0x0, 1, [F.SCH_PG_ID_SINCE, F.SCH_PG_ID_MAXEXP, F.SCH_PG_ID_TENSOR_ID]⟩,
    ⟨.SCH_PIPE_CTL, 0x4000, 0x0, 1, 0x0, 1, [F.SCH_PIPE_CTL_NMB, F.SCH_PIPE_CTL_NSTAGE, F.SCH_PIPE_CTL_STAGE, F.SCH_PIPE_CTL_EXTRA_FWD, F.SCH_PIPE_CTL_ACT_CRED, F.SCH_PIPE_CTL_PF_TICKS, F.SCH_PIPE_CTL_FLIP_LAG, F.SCH_PIPE_CTL_XCH_TICKS]⟩,
    ⟨.SCH_PIPE_READY, 0x4008, 0x0, 1, 0x0, 1, [F.SCH_PIPE_READY_ADDR]⟩,
    ⟨.SCH_PIPE_TAG, 0x4010, 0x0, 1, 0x0, 1, [F.SCH_PIPE_TAG_RELEASES, F.SCH_PIPE_TAG_STEP1]⟩,
    ⟨.SCH_PIPE_STAT, 0x4018, 0x0, 1, 0x0, 1, [F.SCH_PIPE_STAT_EXTRA_FWDS, F.SCH_PIPE_STAT_STARVED, F.SCH_PIPE_STAT_FROZEN_SKIPS, F.SCH_PIPE_STAT_REFUSED, F.SCH_PIPE_STAT_HELD]⟩,
    ⟨.SCH_TIED_BASE, 0x4020, 0x0, 1, 0x0, 1, [F.SCH_TIED_BASE_ADDR]⟩,
    ⟨.SCH_VER, 0x5000, 0x0, 1, 0x0, 1, [F.SCH_VER_UPD_STALL, F.SCH_VER_PIN1, F.SCH_VER_PIN0, F.SCH_VER_MB_REF, F.SCH_VER_UPD_HELD, F.SCH_VER_PIN_REFUSED, F.SCH_VER_GEN]⟩]
  ++ [⟨.SCH_VER_PIN, 0x5008, 0x0, 1, 0x0, 1, [F.SCH_VER_PIN_GEN, F.SCH_VER_PIN_OP]⟩,
    ⟨.SCH_COMMIT, 0x5010, 0x0, 1, 0x0, 1, [F.SCH_COMMIT_LAST_B, F.SCH_COMMIT_LATE_RESULTS, F.SCH_COMMIT_OUTCOME]⟩,
    ⟨.SCH_VTAB, 0xC000, 0x8, 2048, 0x0, 1, [F.SCH_VTAB_ENTRIES]⟩,
    ⟨.SCH_LR, 0x6000, 0x10, 256, 0x0, 1, [F.SCH_LR_EN, F.SCH_LR_HOLD, F.SCH_LR_WRITTEN, F.SCH_LR_VALUE]⟩,
    ⟨.SCH_LR_LAT, 0x6008, 0x10, 256, 0x0, 1, [F.SCH_LR_LAT_LATCHED]⟩,
    ⟨.SCH_UPD_CTL, 0x7000, 0x0, 1, 0x0, 1, [F.SCH_UPD_CTL_FROZEN_FAULT]⟩,
    ⟨.SCH_UPD_STAT, 0x7008, 0x0, 1, 0x0, 1, [F.SCH_UPD_STAT_FROZEN_UPDATE, F.SCH_UPD_STAT_HOLD_REUSE, F.SCH_UPD_STAT_LR_WAIT]⟩,
    ⟨.SCH_TASK_BASE, 0x2000, 0x0, 1, 0x0, 1, [F.SCH_TASK_BASE_ADDR]⟩]
  ++ [⟨.SCH_TASK_COUNT, 0x2008, 0x0, 1, 0x0, 1, [F.SCH_TASK_COUNT_SPILL, F.SCH_TASK_COUNT_COUNT]⟩,
    ⟨.SCH_PART, 0x0, 0x0, 1, 0x0, 1, [F.SCH_PART_RUN_V, F.SCH_PART_RUN_SLOT, F.SCH_PART_RESIDENT, F.SCH_PART_HERDS]⟩,
    ⟨.SCH_CMDQ, 0x10, 0x0, 1, 0x0, 1, [F.SCH_CMDQ_ADDR, F.SCH_CMDQ_SIZE_LOG2]⟩,
    ⟨.SCH_CPLQ, 0x18, 0x0, 1, 0x0, 1, [F.SCH_CPLQ_ADDR]⟩,
    ⟨.SCH_CMD_PTR, 0x20, 0x0, 1, 0x0, 1, [F.SCH_CMD_PTR_TAIL, F.SCH_CMD_PTR_HEAD]⟩,
    ⟨.SCH_CPL_PTR, 0x28, 0x0, 1, 0x0, 1, [F.SCH_CPL_PTR_TAIL, F.SCH_CPL_PTR_HEAD]⟩,
    ⟨.SCH_CMD_STAT, 0x30, 0x0, 1, 0x0, 1, [F.SCH_CMD_STAT_EXECUTED, F.SCH_CMD_STAT_REFUSED_STATE, F.SCH_CMD_STAT_REFUSED_RANGE, F.SCH_CMD_STAT_REFUSED_FORMAT]⟩,
    ⟨.SCH_CTX_SEL, 0x38, 0x0, 1, 0x0, 1, [F.SCH_CTX_SEL_SLOT]⟩]
  ++ [⟨.SCH_SLOT, 0x40, 0x8, 4, 0x0, 1, [F.SCH_SLOT_V, F.SCH_SLOT_STATE, F.SCH_SLOT_BLOCK, F.SCH_SLOT_CTX, F.SCH_SLOT_SLICE, F.SCH_SLOT_BLOCKED_TICKS]⟩,
    ⟨.SCH_SW_STAT, 0x60, 0x0, 1, 0x0, 1, [F.SCH_SW_STAT_SWITCHES, F.SCH_SW_STAT_SWAPS, F.SCH_SW_STAT_LOCK_DEFER, F.SCH_SW_STAT_GROUP_FAULTS]⟩,
    ⟨.SCH_SNAP_CTL, 0x5100, 0x0, 1, 0x0, 1, [F.SCH_SNAP_CTL_AUTO, F.SCH_SNAP_CTL_SIGN, F.SCH_SNAP_CTL_COUNT]⟩,
    ⟨.SCH_SNAP_LIST, 0x5108, 0x0, 1, 0x0, 1, [F.SCH_SNAP_LIST_ADDR]⟩,
    ⟨.SCH_SNAP_TGT, 0x5110, 0x0, 1, 0x0, 1, [F.SCH_SNAP_TGT_ADDR]⟩,
    ⟨.SCH_SNAP_STAT, 0x5118, 0x0, 1, 0x0, 1, [F.SCH_SNAP_STAT_LAST_STEP, F.SCH_SNAP_STAT_BANK, F.SCH_SNAP_STAT_OUTCOME]⟩,
    ⟨.SCH_REGROUP, 0x5120, 0x0, 1, 0x0, 1, [F.SCH_REGROUP_REJOIN, F.SCH_REGROUP_ACTIVE, F.SCH_REGROUP_EXPIRED, F.SCH_REGROUP_CAUSE, F.SCH_REGROUP_LOST_PKG, F.SCH_REGROUP_REGROUP_S]⟩,
    ⟨.SCH_PMC_CTL, 0x70, 0x0, 1, 0x0, 1, [F.SCH_PMC_CTL_USER_READ]⟩]

/-- The registers of the schg block kind. -/
def Rows.schg : List Row :=
  [⟨.SCH_GSEM, 0x82000, 0x200, 8, 0x10, 32, [F.SCH_GSEM_LOCK, F.SCH_GSEM_GROUP, F.SCH_GSEM_HOLDER, F.SCH_GSEM_HELD, F.SCH_GSEM_WAITERS, F.SCH_GSEM_VALUE]⟩,
    ⟨.SCH_GSEMADD, 0x82008, 0x200, 8, 0x10, 32, [F.SCH_GSEMADD_ADD]⟩,
    ⟨.SCH_KCTX, 0x80000, 0x8, 256, 0x0, 1, [F.SCH_KCTX_STATE, F.SCH_KCTX_PART, F.SCH_KCTX_SLOT, F.SCH_KCTX_GRP_V, F.SCH_KCTX_GROUP, F.SCH_KCTX_JOB]⟩]

/-- The registers of the plcHost block kind. -/
def Rows.plcHost : List Row :=
  [⟨.PLC_CTRL, 0x0, 0x0, 1, 0x0, 1, [F.PLC_CTRL_LOCK, F.PLC_CTRL_PF_EN, F.PLC_CTRL_AUTO_EN]⟩,
    ⟨.PLC_POLICY, 0x8, 0x0, 1, 0x0, 1, [F.PLC_POLICY_PROMOTE_MAX, F.PLC_POLICY_LOW_WATER, F.PLC_POLICY_HOT_THRESH, F.PLC_POLICY_COLD_THRESH, F.PLC_POLICY_EPOCH_TICKS, F.PLC_POLICY_DEMOTE_TICKS, F.PLC_POLICY_HEAT_SHIFT]⟩,
    ⟨.PLC_FRAMES, 0x10, 0x0, 1, 0x0, 1, [F.PLC_FRAMES_FREE_CAP, F.PLC_FRAMES_FREE_STACK, F.PLC_FRAMES_RESERVED]⟩,
    ⟨.PLC_RESV, 0x18, 0x0, 1, 0x0, 1, [F.PLC_RESV_BAD, F.PLC_RESV_MIG_RESERVE]⟩,
    ⟨.PLC_STAT, 0x20, 0x0, 1, 0x0, 1, [F.PLC_STAT_PF_LATE, F.PLC_STAT_RETIRED, F.PLC_STAT_REFUSED]⟩,
    ⟨.PLC_RM_INDEX, 0x28, 0x0, 1, 0x0, 1, [F.PLC_RM_INDEX_RANGE]⟩,
    ⟨.PLC_RM_DATA, 0x30, 0x0, 1, 0x0, 1, [F.PLC_RM_DATA_ENTRY]⟩,
    ⟨.PLC_PART_QUOTA, 0x100, 0x10, 8, 0x0, 1, [F.PLC_PART_QUOTA_USED, F.PLC_PART_QUOTA_FRAMES]⟩]
  ++ [⟨.PLC_REG, 0x200, 0x40, 8, 0x10, 3, [F.PLC_REG_MODE, F.PLC_REG_SHARE, F.PLC_REG_BURST, F.PLC_REG_RATE]⟩,
    ⟨.PLC_REG_LVL, 0x208, 0x40, 8, 0x10, 3, [F.PLC_REG_LVL_WAITS, F.PLC_REG_LVL_LEVEL]⟩]

/-- The registers of the plcDie block kind. -/
def Rows.plcDie : List Row :=
  [⟨.PLC_MIG_CTL, 0x0, 0x0, 1, 0x0, 1, [F.PLC_MIG_CTL_ROUNDS_MAX, F.PLC_MIG_CTL_DELTA_MAX]⟩,
    ⟨.PLC_MIG_STAT, 0x8, 0x0, 1, 0x0, 1, [F.PLC_MIG_STAT_COMPLETED, F.PLC_MIG_STAT_ABANDONED, F.PLC_MIG_STAT_MAX_STALL]⟩,
    ⟨.PLC_RMC_STAT, 0x10, 0x0, 1, 0x0, 1, [F.PLC_RMC_STAT_HITS, F.PLC_RMC_STAT_MISSES]⟩,
    ⟨.PLC_MIG, 0x100, 0x8, 8, 0x0, 1, [F.PLC_MIG_PHASE, F.PLC_MIG_CLASS, F.PLC_MIG_ROUND, F.PLC_MIG_DIRTY, F.PLC_MIG_RANGE]⟩]

/-- The registers of the coh block kind. -/
def Rows.coh : List Row :=
  [⟨.COH_CTL, 0x0, 0x0, 1, 0x0, 1, [F.COH_CTL_LOCK, F.COH_CTL_LLC_OW_ALLOC, F.COH_CTL_ARB]⟩,
    ⟨.COH_STAT, 0x8, 0x0, 1, 0x0, 1, [F.COH_STAT_REQS, F.COH_STAT_RETRIES, F.COH_STAT_STALE_WB]⟩,
    ⟨.COH_SF, 0x10, 0x0, 1, 0x0, 1, [F.COH_SF_BACK_INV, F.COH_SF_USED]⟩,
    ⟨.COH_BUSY, 0x18, 0x0, 1, 0x0, 1, [F.COH_BUSY_MAX_WAIT, F.COH_BUSY_WAITING, F.COH_BUSY_BUSY]⟩,
    ⟨.COH_POISON, 0x20, 0x0, 1, 0x0, 1, [F.COH_POISON_COUNT, F.COH_POISON_ADDR]⟩]

/-- The registers of the stk block kind. -/
def Rows.stk : List Row :=
  [⟨.STK_CTRL, 0x0, 0x0, 1, 0x0, 1, [F.STK_CTRL_LOCK, F.STK_CTRL_SCRUB_HOURS, F.STK_CTRL_MAINT, F.STK_CTRL_REF_LOCK]⟩,
    ⟨.STK_STATUS, 0x8, 0x0, 1, 0x0, 1, [F.STK_STATUS_TEMP, F.STK_STATUS_LOCK_SUSPENDED, F.STK_STATUS_THERM_2X, F.STK_STATUS_MAINT_ACTIVE]⟩,
    ⟨.STK_ERR, 0x10, 0x0, 1, 0x0, 1, [F.STK_ERR_CE, F.STK_ERR_HARD, F.STK_ERR_UE]⟩,
    ⟨.STK_ERR_ADDR, 0x18, 0x0, 1, 0x0, 1, [F.STK_ERR_ADDR_KIND, F.STK_ERR_ADDR_ADDR]⟩,
    ⟨.STK_SCRUB, 0x20, 0x0, 1, 0x0, 1, [F.STK_SCRUB_PASSES, F.STK_SCRUB_POS]⟩,
    ⟨.STK_REMAP_STAT, 0x28, 0x0, 1, 0x0, 1, [F.STK_REMAP_STAT_RETIRED, F.STK_REMAP_STAT_FULL, F.STK_REMAP_STAT_PERSIST_PENDING, F.STK_REMAP_STAT_USED]⟩,
    ⟨.STK_REMAP_IDX, 0x30, 0x0, 1, 0x0, 1, [F.STK_REMAP_IDX_ENTRY]⟩,
    ⟨.STK_REMAP_DATA, 0x38, 0x0, 1, 0x0, 1, [F.STK_REMAP_DATA_ENTRY]⟩]
  ++ [⟨.STK_REPAIR_CMD, 0x40, 0x0, 1, 0x0, 1, [F.STK_REPAIR_CMD_OP, F.STK_REPAIR_CMD_DIE, F.STK_REPAIR_CMD_CHAN, F.STK_REPAIR_CMD_BANK, F.STK_REPAIR_CMD_ROW, F.STK_REPAIR_CMD_COL]⟩,
    ⟨.STK_REPAIR_STAT, 0x48, 0x0, 1, 0x0, 1, [F.STK_REPAIR_STAT_BUSY, F.STK_REPAIR_STAT_RESULT, F.STK_REPAIR_STAT_FUSE_ROWS_FREE, F.STK_REPAIR_STAT_COL_FREE, F.STK_REPAIR_STAT_FIELD_USED, F.STK_REPAIR_STAT_DIE_REPAIRS]⟩]

/-- The registers of the cap block kind. -/
def Rows.cap : List Row :=
  [⟨.CAP_CTRL, 0x0, 0x0, 1, 0x0, 1, [F.CAP_CTRL_LOCK, F.CAP_CTRL_SCRUB_HOURS]⟩,
    ⟨.CAP_ERR, 0x10, 0x0, 1, 0x0, 1, [F.CAP_ERR_CE, F.CAP_ERR_HARD, F.CAP_ERR_UE]⟩,
    ⟨.CAP_ERR_ADDR, 0x18, 0x0, 1, 0x0, 1, [F.CAP_ERR_ADDR_KIND, F.CAP_ERR_ADDR_ADDR]⟩,
    ⟨.CAP_SCRUB, 0x20, 0x0, 1, 0x0, 1, [F.CAP_SCRUB_PASSES, F.CAP_SCRUB_POS]⟩,
    ⟨.CAP_REMAP_STAT, 0x28, 0x0, 1, 0x0, 1, [F.CAP_REMAP_STAT_RETIRED, F.CAP_REMAP_STAT_FULL, F.CAP_REMAP_STAT_PERSIST_PENDING, F.CAP_REMAP_STAT_USED]⟩,
    ⟨.CAP_REMAP_IDX, 0x30, 0x0, 1, 0x0, 1, [F.CAP_REMAP_IDX_ENTRY]⟩,
    ⟨.CAP_REMAP_DATA, 0x38, 0x0, 1, 0x0, 1, [F.CAP_REMAP_DATA_ENTRY]⟩]

/-- The registers of the afrPort block kind. -/
def Rows.afrPort : List Row :=
  [⟨.AFR_PORT_CTL, 0x0, 0x0, 1, 0x0, 1, [F.AFR_PORT_CTL_LOCK, F.AFR_PORT_CTL_RETRAIN, F.AFR_PORT_CTL_LOSS_STOT, F.AFR_PORT_CTL_COLL_WT, F.AFR_PORT_CTL_TRUNK, F.AFR_PORT_CTL_EN]⟩,
    ⟨.AFR_PORT_STATUS, 0x8, 0x0, 1, 0x0, 1, [F.AFR_PORT_STATUS_NBR_PKG, F.AFR_PORT_STATUS_NBR_DIE, F.AFR_PORT_STATUS_NBR_PORT, F.AFR_PORT_STATUS_NBR_EPOCH, F.AFR_PORT_STATUS_IN_TRUNK, F.AFR_PORT_STATUS_REPLAYING, F.AFR_PORT_STATUS_TRAINING, F.AFR_PORT_STATUS_UP]⟩,
    ⟨.AFR_PORT_ERR, 0x10, 0x0, 1, 0x0, 1, [F.AFR_PORT_ERR_DOWNS, F.AFR_PORT_ERR_REPLAYS, F.AFR_PORT_ERR_FLIT_BAD, F.AFR_PORT_ERR_BAD]⟩]

/-- The registers of the afrEng block kind. -/
def Rows.afrEng : List Row :=
  [⟨.AFR_ID, 0x0, 0x0, 1, 0x0, 1, [F.AFR_ID_LOCK, F.AFR_ID_INC, F.AFR_ID_EPOCH, F.AFR_ID_PKG_ID]⟩,
    ⟨.AFR_CTL, 0x8, 0x0, 1, 0x0, 1, [F.AFR_CTL_COLL_TICKS, F.AFR_CTL_RMT_US, F.AFR_CTL_COLL_EN]⟩,
    ⟨.AFR_COLL_BASE, 0x10, 0x0, 1, 0x0, 1, [F.AFR_COLL_BASE_ADDR]⟩,
    ⟨.AFR_STAT, 0x18, 0x0, 1, 0x0, 1, [F.AFR_STAT_STALE_DROPS, F.AFR_STAT_STOT_RX, F.AFR_STAT_COLL_FAILED, F.AFR_STAT_LAST_STATUS, F.AFR_STAT_ACTIVE]⟩,
    ⟨.AFR_STOT_CMD, 0x20, 0x0, 1, 0x0, 1, [F.AFR_STOT_CMD_JOB]⟩,
    ⟨.AFR_RPERM, 0x100, 0x8, 8, 0x0, 1, [F.AFR_RPERM_EN, F.AFR_RPERM_WR, F.AFR_RPERM_MASK, F.AFR_RPERM_BASE]⟩,
    ⟨.AFR_WIN, 0x10000, 0x8, 4096, 0x0, 1, [F.AFR_WIN_ENTRY]⟩,
    ⟨.AFR_ROUTE, 0x20000, 0x8, 8192, 0x0, 1, [F.AFR_ROUTE_ENTRIES]⟩]

/-- The registers of the eth block kind. -/
def Rows.eth : List Row :=
  [⟨.ETH_CTL, 0x0, 0x0, 1, 0x0, 1, [F.ETH_CTL_LOCK, F.ETH_CTL_FB_PCT, F.ETH_CTL_COLL_PRIO, F.ETH_CTL_PFC_EN, F.ETH_CTL_LOSSY, F.ETH_CTL_EN]⟩,
    ⟨.ETH_STATUS, 0x8, 0x0, 1, 0x0, 1, [F.ETH_STATUS_PFC_SEEN, F.ETH_STATUS_ECN_SEEN, F.ETH_STATUS_UP, F.ETH_STATUS_MAC]⟩,
    ⟨.ETH_QPC_BASE, 0x10, 0x0, 1, 0x0, 1, [F.ETH_QPC_BASE_ADDR]⟩,
    ⟨.ETH_CC, 0x18, 0x0, 1, 0x0, 1, [F.ETH_CC_RECOVER_US, F.ETH_CC_RTO_US, F.ETH_CC_ALPHA]⟩,
    ⟨.ETH_ERR, 0x20, 0x0, 1, 0x0, 1, [F.ETH_ERR_RETX, F.ETH_ERR_CNP_RX, F.ETH_ERR_ECN_CE, F.ETH_ERR_DROPS]⟩]

/-- The registers of the ink block kind. -/
def Rows.ink : List Row :=
  [⟨.INK_CTRL, 0x0, 0x0, 1, 0x0, 1, [F.INK_CTRL_LOCK, F.INK_CTRL_NVQ_BASE, F.INK_CTRL_EN]⟩]

/-- The registers of the inks block kind. -/
def Rows.inks : List Row :=
  [⟨.INK_S_CTRL, 0x0, 0x0, 1, 0x0, 1, [F.INK_S_CTRL_EN, F.INK_S_CTRL_BIND, F.INK_S_CTRL_MODE, F.INK_S_CTRL_SPLIT, F.INK_S_CTRL_PYR_FMT, F.INK_S_CTRL_PYR_LEVELS, F.INK_S_CTRL_QDEPTH, F.INK_S_CTRL_LOW_WATER, F.INK_S_CTRL_BATCH, F.INK_S_CTRL_INFLIGHT, F.INK_S_CTRL_SLOW_SLOTS]⟩,
    ⟨.INK_S_SHAPE, 0x8, 0x0, 1, 0x0, 1, [F.INK_S_SHAPE_SLOT_PAGES, F.INK_S_SHAPE_SEQ_LEN, F.INK_S_SHAPE_IMG_W, F.INK_S_SHAPE_IMG_H]⟩,
    ⟨.INK_S_AREA, 0x10, 0x0, 1, 0x0, 1, [F.INK_S_AREA_ADDR]⟩,
    ⟨.INK_S_BATCH, 0x18, 0x0, 1, 0x0, 1, [F.INK_S_BATCH_ADDR]⟩,
    ⟨.INK_S_SHARDS, 0x20, 0x0, 1, 0x0, 1, [F.INK_S_SHARDS_ADDR]⟩,
    ⟨.INK_S_SHARDN, 0x28, 0x0, 1, 0x0, 1, [F.INK_S_SHARDN_PAD_ID, F.INK_S_SHARDN_COUNT]⟩,
    ⟨.INK_S_TIME, 0x30, 0x0, 1, 0x0, 1, [F.INK_S_TIME_BUDGET_MULT, F.INK_S_TIME_HARD_MULT, F.INK_S_TIME_HARD_MS, F.INK_S_TIME_INIT_MEAN_US]⟩,
    ⟨.INK_S_STATE, 0x38, 0x0, 1, 0x0, 1, [F.INK_S_STATE_READY, F.INK_S_STATE_BOUND_IDX, F.INK_S_STATE_BOUND, F.INK_S_STATE_ERR, F.INK_S_STATE_LAST_CAUSE, F.INK_S_STATE_MEAN_US]⟩]
  ++ [⟨.INK_S_CURSOR, 0x40, 0x0, 1, 0x0, 1, [F.INK_S_CURSOR_SHARD, F.INK_S_CURSOR_PASS]⟩,
    ⟨.INK_S_OFFSET, 0x48, 0x0, 1, 0x0, 1, [F.INK_S_OFFSET_OFFSET]⟩,
    ⟨.INK_S_CNT, 0x50, 0x0, 1, 0x0, 1, [F.INK_S_CNT_CORRUPT, F.INK_S_CNT_TIMEOUT, F.INK_S_CNT_SLOW, F.INK_S_CNT_SHARD_FAIL, F.INK_S_CNT_STARVE]⟩,
    ⟨.INK_S_BAD, 0x58, 0x0, 1, 0x0, 1, [F.INK_S_BAD_SAMPLE_ID]⟩]

/-- The registers of the pkg block kind. -/
def Rows.pkg : List Row :=
  [⟨.PKG_EVQ, 0x100, 0x0, 1, 0x0, 1, [F.PKG_EVQ_IRQ_EN, F.PKG_EVQ_ADDR, F.PKG_EVQ_SIZE_LOG2]⟩,
    ⟨.PKG_EVQ_PTR, 0x108, 0x0, 1, 0x0, 1, [F.PKG_EVQ_PTR_LOST, F.PKG_EVQ_PTR_TAIL, F.PKG_EVQ_PTR_HEAD]⟩,
    ⟨.PKG_IDENT, 0x0, 0x0, 1, 0x0, 1, [F.PKG_IDENT_VENDOR, F.PKG_IDENT_PART, F.PKG_IDENT_STEPPING]⟩,
    ⟨.PKG_SERIAL, 0x8, 0x0, 1, 0x0, 1, [F.PKG_SERIAL_SERIAL]⟩,
    ⟨.PKG_STATUS, 0x10, 0x0, 1, 0x0, 1, [F.PKG_STATUS_STEP, F.PKG_STATUS_READY]⟩,
    ⟨.PKG_CORE_REL, 0x18, 0x0, 1, 0x0, 1, [F.PKG_CORE_REL_ENTRY]⟩,
    ⟨.PKG_CORE_RELM, 0x20, 0x8, 2, 0x0, 1, [F.PKG_CORE_RELM_CORES]⟩,
    ⟨.PKG_PMC_CTL, 0x200, 0x0, 1, 0x0, 1, [F.PKG_PMC_CTL_FREEZE_ON_OVF, F.PKG_PMC_CTL_FREEZE, F.PKG_PMC_CTL_USER_SHARED]⟩]

/-- The registers of the flt block kind. -/
def Rows.flt : List Row :=
  [⟨.FLT_CTL, 0x0, 0x0, 1, 0x0, 1, [F.FLT_CTL_LOCK, F.FLT_CTL_ESC_COUNT, F.FLT_CTL_ESC_WINDOW_S, F.FLT_CTL_TILE_HANGS, F.FLT_CTL_DRAIN_US]⟩,
    ⟨.FLT_STATUS, 0x8, 0x0, 1, 0x0, 1, [F.FLT_STATUS_OOS, F.FLT_STATUS_OOS_CLEARABLE, F.FLT_STATUS_ESC_RUN, F.FLT_STATUS_RESET_ACTIVE, F.FLT_STATUS_RESET_REASON]⟩,
    ⟨.FLT_RESET, 0x10, 0x0, 1, 0x0, 1, [F.FLT_RESET_DOMAIN, F.FLT_RESET_UNIT]⟩,
    ⟨.FLT_OOS, 0x18, 0x0, 1, 0x0, 1, [F.FLT_OOS_CLEAR]⟩,
    ⟨.FLT_ERRCNT, 0x20, 0x0, 1, 0x0, 1, [F.FLT_ERRCNT_REG_ACCESS, F.FLT_ERRCNT_DECODE, F.FLT_ERRCNT_UE, F.FLT_ERRCNT_TIMEOUT]⟩,
    ⟨.FLT_REGERR, 0x28, 0x0, 1, 0x0, 1, [F.FLT_REGERR_WRITE, F.FLT_REGERR_AGENT, F.FLT_REGERR_OFFSET]⟩,
    ⟨.FLT_RSTCNT, 0x30, 0x0, 1, 0x0, 1, [F.FLT_RSTCNT_TILE, F.FLT_RSTCNT_HERD, F.FLT_RSTCNT_DIE_COMPUTE, F.FLT_RSTCNT_DIE_FABRIC, F.FLT_RSTCNT_PKG_COMPUTE, F.FLT_RSTCNT_PACKAGE]⟩,
    ⟨.FLT_LOG_PTR, 0x38, 0x0, 1, 0x0, 1, [F.FLT_LOG_PTR_COUNT, F.FLT_LOG_PTR_NEXT]⟩]
  ++ [⟨.FLT_HERD, 0x200, 0x8, 16, 0x0, 1, [F.FLT_HERD_FAILED, F.FLT_HERD_ABSENT]⟩,
    ⟨.FLT_LOG, 0x1000, 0x20, 64, 0x8, 4, [F.FLT_LOG_WORD]⟩]

/-- The registers of the hlt block kind. -/
def Rows.hlt : List Row :=
  [⟨.HLT_CTL, 0x0, 0x0, 1, 0x0, 1, [F.HLT_CTL_LOCK, F.HLT_CTL_T_REF, F.HLT_CTL_DECAY, F.HLT_CTL_THRESH, F.HLT_CTL_EN]⟩,
    ⟨.HLT_WGT, 0x8, 0x0, 1, 0x0, 1, [F.HLT_WGT_W_CE, F.HLT_WGT_W_LINK, F.HLT_WGT_W_DROOP, F.HLT_WGT_W_RESET]⟩,
    ⟨.HLT_WGT2, 0x10, 0x0, 1, 0x0, 1, [F.HLT_WGT2_W_THERM, F.HLT_WGT2_W_AGE]⟩,
    ⟨.HLT_SCORE, 0x18, 0x0, 1, 0x0, 1, [F.HLT_SCORE_CE, F.HLT_SCORE_LINK, F.HLT_SCORE_DROOP, F.HLT_SCORE_RESET, F.HLT_SCORE_THERM, F.HLT_SCORE_AGE, F.HLT_SCORE_SCORE]⟩,
    ⟨.HLT_AGE, 0x20, 0x0, 1, 0x0, 1, [F.HLT_AGE_TICKS]⟩]

/-- The registers of the snap block kind. -/
def Rows.snap : List Row :=
  [⟨.SNAP_CTL, 0x0, 0x0, 1, 0x0, 1, [F.SNAP_CTL_LOCK, F.SNAP_CTL_EN]⟩,
    ⟨.SNAP_NVQ, 0x8, 0x0, 1, 0x0, 1, [F.SNAP_NVQ_ADDR]⟩,
    ⟨.SNAP_STATUS, 0x10, 0x0, 1, 0x0, 1, [F.SNAP_STATUS_BUSY, F.SNAP_STATUS_OP, F.SNAP_STATUS_PART, F.SNAP_STATUS_CTX, F.SNAP_STATUS_CHUNKS]⟩,
    ⟨.SNAP_STAT, 0x18, 0x0, 1, 0x0, 1, [F.SNAP_STAT_COMPLETED, F.SNAP_STAT_FAILED, F.SNAP_STAT_DIGEST_FAIL, F.SNAP_STAT_QUEUED]⟩]

/-- The registers of the cfg block kind. -/
def Rows.cfg : List Row :=
  [⟨.CFG_STATUS, 0x0, 0x0, 1, 0x0, 1, [F.CFG_STATUS_RECORD, F.CFG_STATUS_GUARD, F.CFG_STATUS_MEM_FAIL, F.CFG_STATUS_LIFE_EMPTY, F.CFG_STATUS_MODE, F.CFG_STATUS_FAILED, F.CFG_STATUS_OPEN, F.CFG_STATUS_CAUSE]⟩,
    ⟨.CFG_IMAGE, 0x8, 0x0, 1, 0x0, 1, [F.CFG_IMAGE_SVN, F.CFG_IMAGE_KEY_SLOT, F.CFG_IMAGE_RECORDS, F.CFG_IMAGE_LIFE_OFF]⟩,
    ⟨.CFG_LIFE, 0x10, 0x0, 1, 0x0, 1, [F.CFG_LIFE_WRITES, F.CFG_LIFE_BAD_FULL, F.CFG_LIFE_WAIT_GUARD, F.CFG_LIFE_PENDING]⟩,
    ⟨.CFG_MEM_FAIL, 0x18, 0x0, 1, 0x0, 1, [F.CFG_MEM_FAIL_BUSES, F.CFG_MEM_FAIL_STACKS]⟩,
    ⟨.CFG_DIGEST, 0x40, 0x8, 8, 0x0, 1, [F.CFG_DIGEST_DIGEST]⟩,
    ⟨.CFG_FLASH_CMD, 0x80, 0x0, 1, 0x0, 1, [F.CFG_FLASH_CMD_OP, F.CFG_FLASH_CMD_ADDR, F.CFG_FLASH_CMD_SECTOR]⟩,
    ⟨.CFG_FLASH_STAT, 0x88, 0x0, 1, 0x0, 1, [F.CFG_FLASH_STAT_BUSY, F.CFG_FLASH_STAT_RESULT]⟩]

/-- The registers of the sec block kind. -/
def Rows.sec : List Row :=
  [⟨.SEC_FUSE_CMD, 0x0, 0x0, 1, 0x0, 1, [F.SEC_FUSE_CMD_OP, F.SEC_FUSE_CMD_SLOT, F.SEC_FUSE_CMD_ADDR, F.SEC_FUSE_CMD_COUNT]⟩,
    ⟨.SEC_FUSE_STAT, 0x8, 0x0, 1, 0x0, 1, [F.SEC_FUSE_STAT_BUSY, F.SEC_FUSE_STAT_RESULT, F.SEC_FUSE_STAT_ID_BAD, F.SEC_FUSE_STAT_PROVISIONED, F.SEC_FUSE_STAT_VALID, F.SEC_FUSE_STAT_REVOKED, F.SEC_FUSE_STAT_SVN_COUNT]⟩,
    ⟨.SEC_OWNER, 0x40, 0x40, 2, 0x8, 8, [F.SEC_OWNER_DIGEST]⟩,
    ⟨.SEC_IDPUB, 0x100, 0x8, 17, 0x0, 1, [F.SEC_IDPUB_POINT]⟩,
    ⟨.SEC_ATTEST_CMD, 0x200, 0x0, 1, 0x0, 1, [F.SEC_ATTEST_CMD_ADDR]⟩,
    ⟨.SEC_ATTEST_STAT, 0x208, 0x0, 1, 0x0, 1, [F.SEC_ATTEST_STAT_BUSY, F.SEC_ATTEST_STAT_DONE, F.SEC_ATTEST_STAT_STATUS]⟩]

/-- The registers of the lif block kind. -/
def Rows.lif : List Row :=
  [⟨.LIF_CTL, 0x0, 0x0, 1, 0x0, 1, [F.LIF_CTL_LOCK, F.LIF_CTL_PERIOD_H]⟩,
    ⟨.LIF_CMD, 0x8, 0x0, 1, 0x0, 1, [F.LIF_CMD_FLUSH]⟩,
    ⟨.LIF_STATUS, 0x10, 0x0, 1, 0x0, 1, [F.LIF_STATUS_SEQ, F.LIF_STATUS_FLUSHED, F.LIF_STATUS_PENDING, F.LIF_STATUS_SLOT]⟩,
    ⟨.LIF_CNT, 0x100, 0x8, 256, 0x0, 1, [F.LIF_CNT_VALUE]⟩,
    ⟨.LIF_HIST, 0x1000, 0x100, 32, 0x8, 32, [F.LIF_HIST_VALUE]⟩]

/-- The registers of the pwr block kind. -/
def Rows.pwr : List Row :=
  [⟨.PWR_CTRL, 0x0, 0x0, 1, 0x0, 1, [F.PWR_CTRL_LOCK, F.PWR_CTRL_THROTTLE_C, F.PWR_CTRL_BRAKE_SHARE, F.PWR_CTRL_CAP_EN, F.PWR_CTRL_CAP_W, F.PWR_CTRL_DROOP_MV]⟩,
    ⟨.PWR_STATUS, 0x8, 0x0, 1, 0x0, 1, [F.PWR_STATUS_POWER_W, F.PWR_STATUS_TJ_MAX, F.PWR_STATUS_TSTK_MAX, F.PWR_STATUS_SHARE0, F.PWR_STATUS_SHARE1, F.PWR_STATUS_THERMTRIP, F.PWR_STATUS_BRAKE, F.PWR_STATUS_CAP_LIMIT, F.PWR_STATUS_THERM_LIMIT, F.PWR_STATUS_RAIL_FAULT]⟩,
    ⟨.PWR_DROOP, 0x10, 0x0, 1, 0x0, 1, [F.PWR_DROOP_COUNT, F.PWR_DROOP_LAST_RAIL, F.PWR_DROOP_LAST_DEPTH_MV]⟩,
    ⟨.PWR_RAIL, 0x100, 0x8, 11, 0x0, 1, [F.PWR_RAIL_MIN_MV, F.PWR_RAIL_MV]⟩]

/-- The registers of the bw block kind. -/
def Rows.bw : List Row :=
  [⟨.PMC_BW_CTL, 0x0, 0x0, 1, 0x0, 1, [F.PMC_BW_CTL_WIN]⟩,
    ⟨.PMC_BW_END, 0x28, 0x0, 1, 0x0, 1, [F.PMC_BW_END_PARTIAL, F.PMC_BW_END_END]⟩,
    ⟨.PMC_BW_A, 0x8, 0x0, 1, 0x0, 1, [F.PMC_BW_A_BYTES]⟩,
    ⟨.PMC_BW_B, 0x10, 0x0, 1, 0x0, 1, [F.PMC_BW_B_BYTES]⟩,
    ⟨.PMC_BW_WA, 0x18, 0x0, 1, 0x0, 1, [F.PMC_BW_WA_BYTES]⟩,
    ⟨.PMC_BW_WB, 0x20, 0x0, 1, 0x0, 1, [F.PMC_BW_WB_BYTES]⟩]

/-- The rows of a block kind. -/
def Blk.rows : Blk → List Row
  | .tck => Rows.tck
  | .til => Rows.til
  | .hrd => Rows.hrd
  | .sch => Rows.sch
  | .schg => Rows.schg
  | .plcHost => Rows.plcHost
  | .plcDie => Rows.plcDie
  | .coh => Rows.coh
  | .stk => Rows.stk
  | .cap => Rows.cap
  | .afrPort => Rows.afrPort
  | .afrEng => Rows.afrEng
  | .eth => Rows.eth
  | .ink => Rows.ink
  | .inks => Rows.inks
  | .pkg => Rows.pkg
  | .flt => Rows.flt
  | .hlt => Rows.hlt
  | .snap => Rows.snap
  | .cfg => Rows.cfg
  | .sec => Rows.sec
  | .lif => Rows.lif
  | .pwr => Rows.pwr
  | .bw => Rows.bw
  | .dieB => []

end Sys2Proof.Machine
end

