-- ==== Sys2Proof/Machine/StTile.lean ====
section
/-!
DEFINITION. StTile.lean: the plain data of the time base, the tiles, the herds and the semaphores.
-/

namespace Sys2Proof.Machine

/-- A memory, as the bytes that differ from 0 (log entry 4). -/
abbrev Mem := Map (BitVec 8)

/-- What the last register access returned to its agent (R16, R36): served, ended by a load or store access fault, or a
register access error. -/
inductive RspKind where
  | ok | accessFault | regError
deriving DecidableEq, Repr

/-- The answer to the last register access. -/
structure Rsp where
  kind : RspKind := .ok
  data : Nat := 0
deriving DecidableEq, Repr

/-- The time base and the TIME_PPS pins (R51 to R68). -/
structure Clock where
  /-- TCK_TIME, 64 bits. -/
  tb : Nat := 0
  /-- The last action of R55 taken at the present boundary; 9 between boundaries. -/
  phase : Nat := 9
  /-- Tile clock cycles since power-on, which rate adjustments let differ from the time base (R51, R456). -/
  cyc : Nat := 0
  /-- Parts in 10^9 of a count of the time base that TCK_RATE has gained and not yet given (R66). -/
  rateAcc : Nat := 0
  /-- Cycles left of the TIME_PPS pulse. -/
  ppsLeft : Nat := 0
  /-- Consecutive markers within 200 ns (R64). -/
  inLock : Nat := 0
  /-- The boundary number of the last marker (R64). -/
  lastMark : Option Nat := none
  /-- TCK_COUNT when the last marker came, or when the package became a follower (R64). -/
  markAt : Nat := 0
  /-- The follower has locked since start-up. -/
  locked1 : Bool := false
  /-- Cycles still to slew toward the master, and those that go in the present tick (R64). -/
  slew : Int := 0
  slewNow : Int := 0
  /-- The refresh slot of R62 is under way. -/
  refSlot : Bool := false
  /-- Action 8 of R55 has still to take place at the present boundary. -/
  refill : Bool := false
deriving DecidableEq, Repr

/-- A view of tile memory (R161), with its row and column counts. -/
structure View where
  base : Nat := 0
  recs : Nat := 0
  fawn : Nat := 0
  pitch : Nat := 1
  rows : Nat := 1
  cols : Nat := 1
  fmt : Fmt := .bf16
  recEn : Bool := false
  fawnEn : Bool := false
deriving DecidableEq, Repr

/-- A tensor descriptor (R164). -/
structure Desc where
  fmt : Fmt := .bf16
  ndim : Nat := 0
  base : Nat := 0
  n0 : Nat := 1
  n1 : Nat := 1
  n2 : Nat := 1
  n3 : Nat := 1
  s1 : Nat := 0
  s2 : Nat := 0
  s3 : Nat := 0
  tensorId : Nat := 0
  updClass : Nat := 0
  versioned : Bool := false
  savedAct : Bool := false
  privGrad : Bool := false
  frozen : Bool := false
  scalePtr : Nat := 0
  tiedGroup : Nat := 0
  fawnPtr : Nat := 0
  tiedUse : Nat := 0
  optGroup : Nat := 0
  voff : Nat := 0
deriving DecidableEq, Repr

/-- A parameter slot of the array (R175). -/
structure PSlot where
  k0 : Nat := 0
  k : Nat := 128
  m : Nat := 128
  n : Nat := 128
  rowoff : Nat := 0
  coloff : Nat := 0
  lkind : Place := .none
  lsrc : Nat := 0
  lpair : Bool := false
  lfmt : Fmt := .bf16
deriving DecidableEq, Repr

/-- What a load gives, or why it ended: an address decode error, uncorrectable or poisoned data, a refusal or timeout, or a line behind a
remote window that has not come yet, at the address that was loaded. -/
inductive Ld where
  | ok (v : Nat)
  | decode
  | data
  | timeout
  | wait (a : Nat)
deriving DecidableEq, Repr

/-- The value of a load that succeeded, 0 otherwise. -/
def Ld.val : Ld → Nat
  | .ok v => v
  | _ => 0

/-- A load succeeded. -/
def Ld.isOk : Ld → Bool
  | .ok _ => true
  | _ => false

/-- The status with which an engine's work ends at an access that fails (R36, R71). -/
def ldStatus : Ld → Nat
  | .ok _ => 0
  | .timeout => 6
  | _ => 2

/-- n bytes of a line that has come, from byte o on. -/
def Ld.slice (o n : Nat) : Ld → Ld
  | .ok v => .ok (v / 2 ^ (8 * o) % 2 ^ (8 * n))
  | e => e

/-- What waits for the answer to a remote request: nothing beside its agent, an instruction of a tile's segment, entry i of a pass over the
rescale list of a slot, another unit of the package by its number, or a piece of work that has ended (R184, R214, R343). -/
inductive Asker where
  | agent
  | unit (u : Nat)
  | ins (t idx : Nat)
  | pass (p k i : Nat)
  | gone
deriving DecidableEq, Repr

/-- What an instruction in flight waits for beside its engine's order: nothing, a semaphore grant, or that its signal has
been applied (R184). -/
inductive FlightKind where
  | plain
  | semWait
  | semSig (sem n : Nat)
deriving DecidableEq, Repr

/-- An instruction issued to an engine and not yet complete (R184). -/
structure Flight where
  idx : Nat
  cls : Nat
  op : Nat
  /-- Credits to post at completion. -/
  posts : List (Engine × Nat) := []
  kind : FlightKind := .plain
  /-- The grant has been received, or the signal applied. -/
  ready : Bool := true
  /-- The signal of a SEMSIG has been sent. -/
  sent : Bool := false
  /-- The accumulator set that it drains. -/
  drain : Option Nat := none
  /-- EADDR of its sampling record, with TSPACE in bit 63, when the instruction is tagged (R462). -/
  tag : Option Nat := none
  /-- It has issued, and its writes are still to be made, from these tile memories of its members where they count (R184, R186). -/
  held : Option (List Mem) := none
  /-- Lines that have come for it over the fabric, by remote line (R343). -/
  got : Map Ld := []
  /-- How far the regulators of its partition must have come before its accesses are issued (R291). -/
  marks : List (Nat × Nat) := []
  /-- Its accesses have been charged. -/
  paid : Bool := false
deriving DecidableEq, Repr

/-- An entry of a segment queue (R195): where the image lies, and the context that pushed it. -/
structure SegRef where
  herd : Bool
  addr : Nat
  ctx : Nat
  /-- Pushed for an UPD task (R246). -/
  upd : Bool := false
  /-- The tied group that the step scheduler's own GATHER segment sums, with the slot of its step (R230). -/
  gather : Option (Nat × Nat) := none
deriving DecidableEq, Repr

/-- A fetched segment (R193, R194): header, descriptors, views and instruction words. -/
structure SegImg where
  segId : Nat
  /-- The budget in cycles. -/
  budget : Nat
  fit : Bool
  /-- Pushed for an UPD task (R246). -/
  upd : Bool := false
  /-- The tied group of a GATHER segment, with the slot of its step (R230). -/
  gather : Option (Nat × Nat) := none
  /-- G when it was fetched and resolved (R241). -/
  gen : Nat := 0
  descs : List Desc
  /-- The slot that VSEL = current names for each descriptor, as resolved at the fetch (R241, R242); none where the version
  table does not serve it. -/
  cur : List (Option Nat)
  views : List View
  code : List Nat
deriving DecidableEq, Repr

/-- The statistics of one gradient-format slot over a segment (R221): the tensor id, the bins, and MAXEXP. -/
structure StatRec where
  tensor : Nat
  bins : List Nat
  maxexp : Int
deriving DecidableEq, Repr

/-- The running segment of a tile (R197). -/
structure Run where
  img : SegImg
  /-- For each engine in its code, and last for the dispatcher, the index below which its instructions have been issued. -/
  next : List Nat
  /-- BASEs that VBASE instructions have set in each member, with the index of the instruction and the view, oldest first
  (R171). -/
  vbases : List (Nat × Nat × List Nat)
  /-- Parameter slots as MSPAN and MWIN instructions have left them, with the index of the instruction, oldest first
  (R175). -/
  pslots : List (Nat × List PSlot)
  /-- The twelve credit counts, numbered as TIL_CRED numbers them. -/
  creds : List Nat
  /-- Instructions completed or taken by the dispatcher. -/
  finished : Nat
  dma : List Flight
  array : List Flight
  vector : List Flight
  store : List Flight
  /-- The time base at its start. -/
  start : Nat
  /-- Boundaries counted since its start (R69). -/
  bounds : Nat
  overran : Bool
  overBudget : Bool
  /-- TIL_NUMCTL in force (R491). -/
  numctl : Nat
  /-- The gang members that execute it, the lead first (R130). -/
  members : List Nat
  /-- The statistics units of the members, by their place (R221). -/
  stats : Map (List StatRec)
  /-- The context that runs it. -/
  ctx : Nat
  /-- Index of the last instruction dispatched (R196). -/
  lastIdx : Nat
  /-- A GATHER segment has done its work (R230). -/
  gathered : Bool := false
deriving DecidableEq, Repr

/-- One logical tile. -/
structure Tile where
  mem : Mem := []
  /-- Data registers: element r, c of Tn at key 2048 n + 128 r + c. -/
  tregs : Map Nat := []
  /-- Block status q of Tn at key 8 n + q. -/
  tstat : Map Nat := []
  /-- Mask bits: bit r, c of Mn at key 2048 n + 128 r + c. -/
  masks : Map Nat := []
  /-- Scalars: status in bits [33:32], value in bits [31:0]. -/
  sregs : Map Nat := []
  /-- Scalar writes held to the next segment start (R137). -/
  sregHeld : Map Nat := []
  /-- Accumulator r, c of set n at key 16384 n + 128 r + c. -/
  acc : Map XVal := []
  /-- Output blocks of an accumulator set that have met a non-finite input block, at key 64 n + 8 (r / 16) + c / 16
  (R127). -/
  accNf : Map Nat := []
  queue : List SegRef := []
  fetched : Option SegImg := none
  run : Option Run := none
  /-- The summary queue, oldest first, of up to 8 entries (R152). -/
  summ : List Nat := []
  /-- Fenced until the next start-up (R416). -/
  failed : Bool := false
  /-- Segment hangs since start-up (R416). -/
  hangs : Nat := 0
  /-- Instructions dispatched since the last sampling tag (R462). -/
  sampCount : Nat := 0
  /-- The sampling buffer: word w of record i at key 4 i + w (R462). -/
  samp : Map Nat := []
  /-- Tagged instructions in flight. -/
  sampFlight : Nat := 0
  /-- SEG_IDs of the segments retired since the last boundary, to be reported at the next, oldest first (R55, action 2). -/
  report : List Nat := []
  /-- The tile clock cycles at the last reset of its domain (R456). -/
  cycBase : Nat := 0
deriving DecidableEq, Repr

/-- A task queued to a herd (R289): its slot, task index, rank and ARG. -/
structure HerdTask where
  slot : Nat
  index : Nat
  rank : Nat
  arg : Nat
  /-- S15 and S14 of an UPD task (R253). -/
  upd : Option (Nat × Nat) := none
deriving DecidableEq, Repr

/-- A control core (R389, R393, R415): held or started, its program counter and start registers, every other register, and its pending
interrupts (bit 0 summary, bit 1 watchdog). -/
structure Core where
  held : Bool := true
  pc : Nat := 0
  a0 : Nat := 0
  a1 : Nat := 0
  a2 : Nat := 0
  /-- Its other integer registers at 0 to 31, its floating-point registers from 32 on, its vector registers from 64 on, and its CSRs from 4096
  on (R389). No operation of the package changes them but a start and a switch (log entry 86). -/
  regs : Map Nat := []
  irq : Nat := 0
  /-- Boundaries without a beat or a push (R69). -/
  hb : Nat := 0
deriving DecidableEq, Repr

/-- One herd. -/
structure Herd where
  mem : Mem := []
  /-- The herd task queue, oldest first. -/
  tasks : List HerdTask := []
  /-- Tasks popped and not yet reported done. -/
  popped : List HerdTask := []
  /-- A gang setting that awaits a boundary: JOIN and WIDTH as written (R129). -/
  gangPend : Option (Nat × Nat) := none
  /-- Boundaries without progress (R69). -/
  wd : Nat := 0
deriving DecidableEq, Repr

/-- A waiter at a semaphore: the tile, the engine, the instruction index and n (R189). -/
structure Waiter where
  tile : Nat
  eng : Engine
  idx : Nat
  n : Nat
deriving DecidableEq, Repr

/-- A semaphore (R189, R190). -/
structure Sem where
  value : Nat := 0
  lock : Bool := false
  held : Bool := false
  holder : Nat := 0
  waiters : List Waiter := []
deriving DecidableEq, Repr

/-- Who signals a semaphore: an engine of a tile running a context, a collective engine, or a write of SCH_SEMADDs. -/
inductive SigFrom where
  | tile (t : Nat) (eng : Engine) (idx ctx : Nat)
  /-- The segment of the engine that sent it has ended before it was applied. -/
  | gone (ctx : Nat)
  | coll
  | add
deriving DecidableEq, Repr

/-- A signal on its way to the semaphore unit (R189). -/
structure SemSig where
  sem : Nat
  n : Nat
  origin : SigFrom
deriving DecidableEq, Repr

end Sys2Proof.Machine
end

