-- ==== Sys2Proof/Machine/StSched.lean ====
section
/-!
DEFINITION. StSched.lean: the plain data of the step schedulers, the contexts, the snapshots and the reset domains.
-/

namespace Sys2Proof.Machine

/-- A task of the step in flight (R288, R289): waiting (phase 0), on its herds (1) or retired (2); its herds in rank order
and those that have reported it. -/
structure TaskSt where
  phase : Nat := 0
  /-- TCK_COUNT at its dispatch. -/
  since : Nat := 0
  herds : List Nat := []
  done : List Nat := []
deriving DecidableEq, Repr

/-- An abort that is due (R251, R421): the OUTCOME it leaves, the regroup cause (0 none) and the lost package. -/
structure AbortReq where
  outcome : Nat := 3
  /-- TCK_COUNT at which it was asked for. -/
  origin : Nat := 0
  regroup : Nat := 0
  lost : Nat := 0xFFFF
deriving DecidableEq, Repr

/-- A STOT delivered to a context and not yet taken (R57, R346). -/
structure StotIn where
  kind : Nat
  origin : Nat
  pkg : Nat
  /-- TCK_COUNT at its arrival. -/
  came : Nat
deriving DecidableEq, Repr

/-- Gradient statistics by slot number (R221, R222): 32 bins, and MAXEXP where an exponent was counted. -/
structure PgRow where
  slot : Nat
  bins : List Nat
  maxexp : Option Int
deriving DecidableEq, Repr

/-- The step in flight of a context (R235 to R251, R288). Items are (backward, micro-batch). -/
structure StepSt where
  live : Bool := false
  step : Nat := 0
  /-- The task records as read at release, eight words each. -/
  tasks : List (List Nat) := []
  state : Map TaskSt := []
  pos : Nat := 0
  ahead : List Nat := []
  item : Option (Bool × Nat) := none
  /-- TCK_COUNT at the release of the step, and at the start of the running item. -/
  releasedAt : Nat := 0
  itemSince : Nat := 0
  fwdStarted : Nat := 0
  bwdDone : Nat := 0
  doneItems : List (Bool × Nat) := []
  /-- Micro-batches that hold a reference, with the generation (R244). -/
  refs : Map Nat := []
  /-- Live uses, as 8 (g - 1) + u (R230). -/
  live8 : List Nat := []
  gathered : Bool := false
  /-- Groups whose GATHER task has been dispatched and has not retired (R230). -/
  gathers : List Nat := []
  updOpen : Bool := false
  /-- Reduction output blocks, and those non-finite (R218). -/
  nf : Nat := 0
  blocks : Nat := 0
  stats : List PgRow := []
  /-- TCK_COUNT at which the exchange was issued. -/
  issued : Option Nat := none
  /-- What the exchange has come to at the collective engine (R356). -/
  xres : Option XchgRes := none
  result : Option XchgRes := none
  abort : Option AbortReq := none
  /-- Task indices whose prefetch has been requested. -/
  prefetched : List Nat := []
deriving DecidableEq, Repr

/-- One piece of a snapshot (R429, R434). -/
structure Piece where
  kind : Nat
  addr : Nat
  len : Nat
  tensor : Nat
  /-- Where it is read from: its own address, or the staging area. -/
  src : Nat
deriving DecidableEq, Repr

/-- A snapshot of a context (R428 to R432): 0 none, 1 due, 2 staging, 3 reading, 4 read. -/
structure SnapSt where
  phase : Nat := 0
  atStep : Option Nat := none
  committed : Bool := false
  gen : Nat := 0
  step : Nat := 0
  commitTick : Nat := 0
  period : Nat := 0
  pieces : List Piece := []
  /-- The 512-bit digests of the chunks, in chunk order. -/
  digests : List Nat := []
  /-- At its capture: the target descriptor, the area written (0 A, 1 B), package id and role epoch, and SIGN. -/
  tgt : List Nat := []
  bank : Nat := 0
  pkg : Nat := 0
  epoch : Nat := 0
  sign : Bool := false
deriving DecidableEq, Repr

/-- A resident context in its slot (R389, R393). -/
structure Slot where
  ctx : Nat
  job : Nat
  slice : Nat
  saveTm : Bool
  nextStep : Nat
  seed : Nat
  stepsLeft : Nat
  entry : Nat
  save : Nat
  /-- The per-context registers of R391, at 8 times the SCH offset plus the least bit of the field. -/
  regs : Map Nat := []
  /-- SCH_PIPE_CTL as the last release took it, at the same keys. -/
  pipe : Map Nat := []
  step : StepSt := {}
  stots : List StotIn := []
  /-- The last step number released, none before the first. -/
  released : Option Nat := none
  /-- The pass over the rescale list: 0 none, 1 rescale due, 2 its writes and tokens awaited, 3 discard due, 4 its writes and
  tokens awaited. -/
  pass : Nat := 0
  /-- Lines that have come for the pass over the fabric, by remote line, its entries that have failed, and how far the regulators must have
  come for its end (R212, R214, R291). -/
  got : Map Ld := []
  passBad : List Nat := []
  passMarks : List (Nat × Nat) := []
  /-- The boundary at which the last step committed, was skipped or aborted. -/
  decidedAt : Option Nat := none
  /-- Boundary of the last flip (R58). -/
  lastFlip : Option Nat := none
  /-- The pass has completed at this boundary count; releases wait for a later boundary (R214). -/
  passAt : Option Nat := none
  lrEvent : Bool := false
  /-- The boundaries at which a release, the choice of an item, and the dispatch of UPD tasks were last examined: each is examined
  once at a boundary (R240, R246, R256, R382). -/
  relAt : Option Nat := none
  itemAt : Option Nat := none
  updAt : Option Nat := none
  /-- EN, HOLD, WRITTEN and VALUE of step-size groups before they were written in the cycle of a boundary, with that cycle's time
  base (R257). -/
  lrCycle : Map (List Nat) := []
  lrAt : Option Nat := none
  /-- The job is held after SKIP_LIMIT consecutive skips (R220). -/
  skipHeld : Bool := false
  /-- For each task of the last step decided, the ticks from its release to the task's dispatch; none before the first (R234). -/
  prevOff : Option (Map Nat) := none
  /-- Task indices of the next step whose prefetch has been requested ahead of its release (R44, R234). -/
  pfAhead : List Nat := []
  blockedTicks : Nat := 0
  /-- Boundaries run since it started running (R400). -/
  ran : Nat := 0
  /-- Boundaries since a switch or swap became due and was deferred (R403). -/
  deferred : Option Nat := none
  /-- The time base at which the regroup window ends (R421). -/
  regroupEnd : Option Nat := none
  rejoin : Bool := false
  /-- Exchanged tables of the last steps, newest first (R222). -/
  window : List (List PgRow) := []
  snap : SnapSt := {}
  /-- A snapshot that SNAPSHOT has made due while one is in progress, with its STEP; it becomes due when that one ends. -/
  snapNext : Option (Option Nat) := none
  /-- The status with which its last snapshot ended that failed (R36, R71, R435). -/
  snapEnded : Nat := 0
deriving DecidableEq, Repr

/-- The herd state of a context that does not run (R389), as its save area holds it. -/
structure SavedHerd where
  herd : Nat
  mem : Mem
  tasks : List HerdTask
  popped : List HerdTask
  tiles : List Tile
  cores : List Core
  /-- TIL_NUMCTL and the status registers of its tiles, at their register keys (R389). -/
  regs : Map Nat := []
deriving DecidableEq, Repr

/-- A known context (R389, R396). -/
structure Ctx where
  part : Nat
  slot : Option Nat := none
  ready : Bool := true
  readySince : Nat := 0
  job : Nat := 0
  slice : Nat := 0
  saveTm : Bool := false
  save : Nat := 0
  /-- Herd state of its last switch-out; none before its first switch-in (R393). -/
  herds : Option (List SavedHerd) := none
  /-- What the scheduler held in the slot at the last swap-out; its record overrides the registers and the header. -/
  kept : Option Slot := none
deriving DecidableEq, Repr

/-- A switch in progress (R401): the slot switched from, the slot switched to or the context that takes the place of the one
swapped out (R400), and how far it is: 0 saving, 1 restoring, 2 restored. -/
structure Switch where
  src : Option Nat
  dst : Option Nat := none
  swapIn : Option Nat := none
  phase : Nat := 0
deriving DecidableEq, Repr

/-- A ring command that runs on after its checks (R394). -/
structure Exec where
  op : Nat
  cmd : CmdRec
  result : Nat := 0
  /-- What the command asked of another package has been agreed to (R285). -/
  agreed : Bool := false
deriving DecidableEq, Repr

/-- What a tile reports of a segment to its step scheduler: its SEG_ID and how it ended, as R19 numbers statuses: OK, TIMEOUT or
ABORTED (R55, R198, R200). -/
structure SegReport where
  tile : Nat
  segId : Nat
  status : Nat
deriving DecidableEq, Repr

/-- A partition and its step scheduler (R387). -/
structure Part where
  slots : Map Slot := []
  /-- The segments that its tiles have reported at the last boundary and since (R55, action 2; R200). -/
  reports : List SegReport := []
  run : Option Nat := none
  sw : Option Switch := none
  /-- The boundary of the last automatic swap: at most one takes place at each boundary (R400). -/
  swapAt : Option Nat := none
  sems : Map Sem := []
  sigs : List SemSig := []
  exec : Option Exec := none
  /-- HERDS of a PART_SET that awaits its boundary (R388). -/
  partSet : Option Nat := none
  /-- The pass parity of the completion ring (R398). -/
  cplPhase : Bool := true
deriving DecidableEq, Repr

/-- A fault attributed to a job that awaits R406: its log entry, and what the event carries. -/
structure JobFault where
  unit : Nat
  kind : Nat
  cause : Nat
  segId : Nat := 0
  index : Nat := 0
  arg : Nat := 0
  ctx : Nat
  job : Nat
  part : Nat
deriving DecidableEq, Repr

/-- A reset domain on its way through R412: 1 fenced, 2 in reset, 3 reset ended and not yet released. -/
structure Dom where
  code : Nat
  unit : Nat
  phase : Nat
  /-- The time base at which the phase began. -/
  since : Nat
deriving DecidableEq, Repr

end Sys2Proof.Machine
end

