-- ==== Sys2Proof/Machine/StFab.lean ====
section
/-!
DEFINITION. StFab.lean: the plain data of the caches and home slices, the memory channels, the fabric ports, the
collectives and the Ethernet ports.
-/

namespace Sys2Proof.Machine

/-- The states of a line in a caching agent (R298); an unlisted line is in I. -/
inductive CSt where
  | s | e | o | m
deriving DecidableEq, Repr

/-- A line in a cache: its state and its 64 bytes. -/
structure CLine where
  st : CSt
  data : Nat
deriving DecidableEq, Repr

/-- The requests that a home serves (R300, R302), with a back-invalidation (R296). -/
inductive TxnKind where
  | getRead | getWrite | claim | peek | putFull | putMasked | merge | backInv
deriving DecidableEq, Repr

/-- A request at a home (R302). -/
structure Txn where
  kind : TxnKind
  /-- Agent id of the requester. -/
  ag : Nat
  txn : Nat := 0
  data : Nat := 0
  /-- Byte mask of PUT_MASKED, bit i for byte i. -/
  mask : Nat := 0
  /-- SAVED_ACT hint. -/
  saved : Bool := false
  /-- Partition of the requester. -/
  part : Nat := 0
  /-- Status and map bits of MERGE, with the byte address of the record and of the map byte. -/
  recAddr : Nat := 0
  status : Nat := 0
  mapAddr : Nat := 0
  mapBits : Nat := 0
  /-- The cycle of the tile clock in which its home accepted it. -/
  since : Nat := 0
deriving DecidableEq, Repr

/-- A writeback that waits in its reserved buffer at a busy home (R307), and how a snoop was answered from it: 0 by none,
1 normally, 2 as stale, 3 as a clean drop. -/
structure HeldDrop where
  ag : Nat
  dirty : Bool
  data : Nat
  how : Nat := 0
deriving DecidableEq, Repr

/-- A busy line at its home (R303). -/
structure Busy where
  /-- The transaction in progress; none between two transactions. -/
  cur : Option Txn := none
  /-- Agents whose SNP_DONE is awaited. -/
  snoops : List Nat := []
  /-- The owner that has been asked to forward the line. -/
  fwd : Option Nat := none
  /-- The requester's GOT is awaited. -/
  got : Bool := false
  /-- The requester's answer has been sent. -/
  answered : Bool := false
  waiters : List Txn := []
  drops : List HeldDrop := []
  /-- Its transaction waits for a refresh slot to end or for the line of its map byte (R62, R211). -/
  parked : Bool := false
  /-- The line whose snoop-filter entry is being freed for the first request that waits (R296). -/
  victim : Option Nat := none
deriving DecidableEq, Repr

/-- The requests for a line that ended at its home in the cycle in which they reached it, in the order in which they take effect, with the
line before them and after them (R90, R304). -/
structure Recent where
  cycle : Nat
  before : Nat
  after : Nat
  txns : List Txn := []
deriving DecidableEq, Repr

/-- The arbiter of a home slice (R304): the rotating pointer, and what it was as the last cycle began in which it moved. -/
structure Arb where
  ptr : Nat := 0
  was : Nat := 0
  cycle : Option Nat := none
deriving DecidableEq, Repr

/-- The coherence messages that a step of the table receives (R302). -/
inductive CohOp where
  | send | kill | snpDone | done | got | redo | dropOk | fail | line | lineHome
deriving DecidableEq, Repr

/-- A coherence message on its way: `ag` is the agent that receives or sent it, `a`, `b`, `c` the fields of its ARG; in a LINE that an
owner has forwarded, `c` is its id plus 1. Data is listed where it is known; what an owner has written since comes with the arrival. -/
structure CohMsg where
  op : CohOp
  ag : Nat
  line : Nat
  txn : Nat := 0
  part : Nat := 0
  a : Nat := 0
  b : Nat := 0
  c : Nat := 0
  data : Option Nat := none
deriving DecidableEq, Repr

/-- Where a migration is to bring its range (R268, R274): the tier; the die of a stack, where one is named; the bus of the
capacity tier, where one is named; the window and remote range of a peer range. -/
structure MigDest where
  tier : Nat
  die : Option Nat := none
  bus : Option Nat := none
  win : Nat := 0
  rrange : Nat := 0
deriving DecidableEq, Repr

/-- A migration that is queued (R274). `keep` is the frame key that a RESERVE or a retirement evacuates. -/
structure MigReq where
  cls : Nat
  range : Nat
  dest : MigDest
  evac : Option Nat := none
deriving DecidableEq, Repr

/-- A migration on an engine (R277), its phase as PLC_MIGe numbers it. -/
structure Mig where
  req : MigReq
  phase : Nat
  round : Nat := 0
  /-- The entry of the destination: TIER and FRAME. -/
  tier : Nat
  frame : Nat
  /-- Lines of the range marked dirty (R277). -/
  dirty : Map Bool := []
  /-- Caches that have yet to acknowledge the last update: bit 0 die 0, bit 1 die 1 (R266). -/
  acks : Nat := 0
  /-- Copies that the regulators of the owning partition hold back in this phase (R281, R291). -/
  marks : List (Nat × Nat) := []
  /-- Lines that have yet to go over the fabric, of a migration from or to a peer range (R285). -/
  todo : List Nat := []
  /-- The cycle of the tile clock in which the final phase began (R279). -/
  finalAt : Nat := 0
  /-- Whether a line could not be read (R283, R423). -/
  lost : Bool := false
  /-- The source frame, from the switch on (R277). -/
  src : Option Nat := none
  /-- Lines at which accesses have waited in the final phase, each once for an access: they are answered with REDO (R308). -/
  redone : List Nat := []
deriving DecidableEq, Repr

/-- An update of a Range Map entry that caches have yet to acknowledge (R266): bit 0 die 0, bit 1 die 1; the entry before it, by which
accesses go until then (R270), and the frames that return to the pool with it. -/
structure RmUpd where
  acks : Nat
  old : Nat
  frames : List Nat := []
deriving DecidableEq, Repr

/-- Requests that wait at a regulator (R291), as tokens of each and how many, oldest first; how many have waited so far, and how many of
them have been issued. -/
structure RegQ where
  wait : List (Nat × Nat) := []
  seq : Nat := 0
  done : Nat := 0
deriving DecidableEq, Repr

/-- A request in the queue of a stack channel (R312): the line, the data of a write, the class (0 urgent, 1 demand, 2 bulk, 3 scrub), and
how often a younger request has passed it. -/
structure ChanReq where
  line : Nat
  write : Option Nat := none
  cls : Nat
  passed : Nat := 0
deriving DecidableEq, Repr

/-- A stack channel (R310, R312): the requests that wait, oldest first; the open row of each bank; and the bursts that others have had
since a bulk request waits. -/
structure Chan where
  queue : List ChanReq := []
  rows : Map Nat := []
  bursts : Nat := 0
deriving DecidableEq, Repr

/-- A check line in the cache of a capacity controller (R328, R329): its group, whether it has been written since it was read, and the
differences of its check bytes from those of the codewords of its 8 lines. -/
structure ChkLine where
  group : Nat
  dirty : Bool := false
  bad : List Nat := []
deriving DecidableEq, Repr

/-- A failing row that is being copied to a spare (R322): its place, the spare that has served it so far, none for the row itself, and
the lines that have yet to be copied. -/
structure RowCopy where
  unit : Nat
  chan : Nat
  bank : Nat
  row : Nat
  src : Option Nat
  left : List Nat
deriving DecidableEq, Repr

/-- A byte-counter set (R460, R461). -/
structure BwSet where
  a : Nat := 0
  b : Nat := 0
  /-- W - 1 in force, and as written since the last boundary. -/
  win : Nat := 0
  pend : Option Nat := none
  /-- The running counts at the last latch. -/
  a0 : Nat := 0
  b0 : Nat := 0
  /-- The window began at a write of WIN. -/
  cut : Bool := false
  wa : Nat := 0
  wb : Nat := 0
  /-- END and PARTIAL. -/
  last : Nat := 0
  part : Bool := false
deriving DecidableEq, Repr

/-- One Afraeri port (R331 to R337). -/
structure Port where
  /-- Messages that wait at the transmitter, in the order in which they came. -/
  tx : List AfrMsg := []
  /-- Sequence number of the next data flit to send. -/
  seq : Nat := 0
  /-- The data flits sent and not yet acknowledged, with their messages, oldest first (R333). -/
  replay : List (Nat × List AfrMsg) := []
  /-- The next sequence number that the receiver expects. -/
  want : Nat := 0
  /-- A NAK has been sent and the replayed flit has not arrived. -/
  nak : Bool := false
  /-- NAKs sent. -/
  naks : Nat := 0
  /-- Slots that the transmitter may still send on each virtual channel (R334). -/
  credit : List Nat := [1024, 1024, 4096, 64]
  /-- Messages received and not yet taken (R334). -/
  rx : List AfrMsg := []
  /-- The trunk that it belongs to since the last boundary; 0 none (R337). -/
  trunk : Nat := 0
  /-- COLL messages sent since the last REQ (R334). -/
  collRun : Nat := 0
  /-- Slots of each virtual channel that have left the receive buffer, and whose credits have yet to go back (R334). -/
  owed : List Nat := [0, 0, 0, 0]
  /-- The flits that have left on the link, oldest first (R331). -/
  lane : List Nat := []
deriving DecidableEq, Repr

/-- New messages of a trunk wait after a member has gone down (R337): the trunk as 16 × die + number, its members before and the one that
fell, the messages that are sent again on the others, and those that wait, each with its line. -/
structure TrunkHold where
  key : Nat
  before : List Nat
  fell : Nat
  sent : List AfrMsg
  waiting : List (AfrMsg × Nat) := []
deriving DecidableEq, Repr

/-- A remote request without its response (R343). -/
structure RReq where
  write : Bool
  /-- Agent id of the requester (R297). -/
  ag : Nat
  win : Nat
  off : Nat
  part : Option Nat
  /-- The port over which it left. -/
  port : Option Nat
  /-- What waits for the answer. -/
  who : Asker := .agent
  /-- The line that a write brings, and the mask of its bytes. -/
  wr : Option (Nat × Nat) := none
  /-- Its place in the order of issue (R343). -/
  seq : Nat := 0
deriving DecidableEq, Repr

/-- What an access that cannot go on now waits for: a line behind a remote window, by the die and the request for it (R343); the end of a
final phase at a line (R308); the end of a refresh slot (R62). -/
inductive Halt where
  | ask (die : Nat) (q : RReq)
  | final (line : Nat)
  | slot
deriving DecidableEq, Repr

/-- The accesses of a piece of work under way, the model's own (log entry 111): whether its accesses may wait, its unit, whether its
tokens have been charged, the tokens that it needs, as 4 × partition + tier, tokens of a request and requests, the lines that it has
charged, each with whether it is written, and what its first access that cannot go on waits for. -/
structure Work where
  on : Bool := false
  unit : Nat := 0
  paid : Bool := false
  due : List (Nat × Nat × Nat) := []
  lines : List (Nat × Bool) := []
  halt : Option Halt := none
deriving DecidableEq, Repr

/-- A collective accepted by the engine of a die (R349 to R356): its operation is 0 ALLREDUCE, 1 REDUCE_SCATTER, 2 ALLGATHER, 3 the commit
exchange of a step. -/
structure Coll where
  op : Nat
  rop : Nat
  group : Nat
  sem : Nat
  part : Nat
  ctx : Nat
  tile : Nat
  sdesc : Desc
  ddesc : Desc
  /-- Slots that the source and destination resolve to (R241). -/
  sslot : Nat := 0
  dslot : Nat := 0
  /-- ACC, the rank of this die, the ranks of the group, and the member records of the ranks before and after (R349). -/
  acc : Nat := 0
  rank : Nat := 0
  nranks : Nat := 1
  prev : Nat := 0
  next : Nat := 0
  /-- The transaction number of its messages. -/
  tag : Nat := 0
  /-- TIL_NUMCTL.E4M3_INF of the segment whose COL it is (R94). -/
  e4inf : Bool := false
  /-- Its group has been read and its checks made (R349). -/
  ready : Bool := false
  /-- The words of a commit exchange (R356): this rank's own, then those of the result as they come; and the gradient-format slots that they
  are of. -/
  words : List Nat := []
  pg : List Nat := []
  /-- How far the regulators of its partition must have come for its end (R291). -/
  marks : List (Nat × Nat) := []
  started : Bool := false
  /-- Elements of the stream that this rank has received back, or completed. -/
  fin : Nat := 0
  /-- Boundaries waited for COLL_DATA. -/
  waited : Nat := 0
  /-- The status with which it fails. -/
  status : Nat := 0
  done : Bool := false
deriving DecidableEq, Repr

/-- A chain message of a collective at the die and group that it is for, from an element of the stream on (R353). -/
structure CollMsg where
  die : Nat
  group : Nat
  at0 : Nat
  part : CollPart
  /-- Operation, ROP and length of the stream at the sender, where it is the other die of the package (R354). -/
  of : Option (Nat × Nat × Nat) := none
deriving DecidableEq, Repr

/-- An NVMe command with its keyed scatter-gather entry (R361, R366, R367): 0 Flush, 1 Write, 2 Read; queue, namespace, first logical block,
blocks, and the memory that it names with its key. -/
structure NvmeCmd where
  op : Nat
  qid : Nat
  nsid : Nat
  slba : Nat := 0
  blocks : Nat := 0
  addr : Nat := 0
  len : Nat := 0
  key : Nat := 0
deriving DecidableEq, Repr

/-- What leaves an Ethernet port on a queue pair (R358, R359, R361): a SEND, an NVMe command, an acknowledgement, the data of a READ, a remote
access error, or a congestion notification. -/
inductive EthOut where
  | send (payload : List Nat)
  | nvme (c : NvmeCmd)
  | ack
  | readData (data : List Nat)
  | accessError
  | cnp
deriving DecidableEq, Repr

/-- A packet of a queue pair: its sequence number, where it is of a request, and whether more packets of its message follow (R358). -/
structure EthPkt where
  psn : Option Nat := none
  out : EthOut
  more : Bool := false
deriving DecidableEq, Repr

/-- A reliable-connection queue pair of an Ethernet port (R358 to R360): its rate in bit/s, the next packet sequence number, the requests
sent and not acknowledged, those that wait to be sent, what it has sent, and the payloads of SENDs delivered to its user. -/
structure Qp where
  rate : Nat := 800000000000
  psn : Nat := 0
  unacked : List EthPkt := []
  wait : List EthPkt := []
  tx : List EthPkt := []
  rx : List (List Nat) := []
deriving DecidableEq, Repr

/-- An Ethernet port (R66, R357, R358): the time stamps of received event messages, the frames on the raw receive queue, the priorities that
flow control has stopped, and the status with which the last operation of its DMA ended that met an error (R36, R71). -/
structure EthPort where
  ended : Nat := 0
  stopped : Nat := 0
  stamps : List Nat := []
  raw : List EthFrame := []
deriving DecidableEq, Repr

/-- A shard read in flight (R366 to R368): the read buffer that takes it, its pass, shard and offset, the I/O queue that it was sent on and
the port of that queue, and its retries. -/
structure ShardRead where
  tag : Nat
  pass : Nat := 0
  shard : Nat
  off : Nat
  nvq : Nat := 0
  port : Nat := 0
  tries : Nat := 0
deriving DecidableEq, Repr

/-- A read buffer that holds shard bytes: its number, and the pass, shard and offset of the bytes. -/
structure ReadBuf where
  tag : Nat
  pass : Nat := 0
  shard : Nat
  off : Nat
deriving DecidableEq, Repr

/-- A sample that decodes or waits to be placed (R376 to R378). -/
structure Sample where
  hdr : RecHdr
  shard : Nat
  off : Nat
  /-- The cycle of the tile clock in which its decode started, and its place in the order in which samples started. -/
  start : Nat
  seq : Nat := 0
  /-- It holds the decoding unit that it needs (R365). -/
  unit : Bool := false
  /-- The cycle in which it finished. -/
  doneAt : Nat := 0
  /-- Budget and hard limit in microseconds. -/
  budget : Nat
  hard : Nat
  /-- What has been decoded, once it has finished: token ids, or the bytes of its slot. -/
  out : Option (List Nat) := none
  /-- Width and height of an image, or the length of a raw payload. -/
  dims : Nat × Nat := (0, 0)
  /-- Token ids already packed (R374). -/
  placed : Nat := 0
deriving DecidableEq, Repr

/-- The open batch (R380, R381). -/
structure OpenBatch where
  seq : Nat
  buf : Nat
  filled : Nat := 0
  /-- Manifest entries, four words each, in order of placement. -/
  entries : List (List Nat) := []
  corrupt : Nat := 0
  timeout : Nat := 0
  /-- Ids and pieces in the open sequence, and its boundary map (R374). -/
  pos : Nat := 0
  pieces : Nat := 0
  bmap : Nat := 0
deriving DecidableEq, Repr

/-- A batch bound to a step of a context (R382, R389). -/
structure Bound where
  seq : Nat
  buf : Nat
  ctx : Nat
deriving DecidableEq, Repr

/-- A stream of the intake engine (R365 to R386). -/
structure Stream where
  /-- The status with which its last memory access ended that met an error (R36, R71). -/
  ended : Nat := 0
  reads : List ShardRead := []
  bufs : List ReadBuf := []
  /-- Shards that have been abandoned and that the cursor has not reached, as pass and shard (R368). -/
  lost : List (Nat × Nat) := []
  /-- Pass, shard and offset of the next read to issue. -/
  rpass : Nat := 0
  rshard : Nat := 0
  roff : Nat := 0
  /-- The engine searches for the next good header (R370). -/
  seek : Bool := false
  staging : Map Sample := []
  slow : Map Sample := []
  cur : Option OpenBatch := none
  /-- Sequence number of the next batch to open. -/
  nextSeq : Nat := 0
  /-- Closed batches whose writes have not all completed, then READY batches, as (sequence, buffer), oldest first. -/
  closed : List (Nat × Nat) := []
  ready : List (Nat × Nat) := []
  /-- Bound batches, oldest first (R382): a context has at most one. -/
  bound : List Bound := []
  /-- The rolling mean times 256 (R377); none before the stream first runs. -/
  mean : Option Nat := none
  /-- The low-water event may not be raised: READY has not been at LOW_WATER or above since it last was (R383). -/
  low : Bool := true
  /-- Samples that have started. -/
  taken : Nat := 0
  /-- The boundary at which a release last waited for a batch (R382). -/
  starvedAt : Option Nat := none
deriving DecidableEq, Repr

end Sys2Proof.Machine
end

