-- ==== Sys2Proof/Machine/State.lean ====
section
/-!
DEFINITION. State.lean: the state of the package as plain data, the reasons for which a step stops, and the state right
after power-on reset.
-/

namespace Sys2Proof.Machine

/-- Why the machine stops: nothing does. Every command of the table has an effect in every state, and a command that names
no unit of the package changes nothing (log entry 7). -/
inductive Fault where
deriving DecidableEq, Repr

/-- Why a command has no meaning. -/
inductive Refusal where
  /-- Raised only by an arm of `exec` whose command has no meaning yet. Safe. -/
  | notModelled (mnemonic : String)
deriving DecidableEq, Repr

/-- The fuses (R451): owner digests of the two slots, their VALID and revocation bits, the blown bits of the thermometer, the
sealing key, the wrapped identity key with PROVISIONED, and the serial number. -/
structure Fuses where
  owner : List Nat := [0, 0]
  valid : Nat := 0
  revoked : Nat := 0
  count : Nat := 0
  sealKey : Nat := 0
  wrapped : Nat := 0
  provisioned : Bool := false
  serial : Nat := 0
deriving DecidableEq, Repr

/-- A fuse command in progress (R452): its value, the result of its checks, and the digest it has read. -/
structure FuseCmd where
  value : Nat
  result : Nat
  digest : Nat := 0
deriving DecidableEq, Repr

/-- Supplies, throttling and the control lands (R471 to R476). -/
structure Pwr where
  /-- The thermal limits of die 0 and die 1, the power-cap limit and the brake limit of the issue share. -/
  therm0 : Nat := 16
  therm1 : Nat := 16
  cap : Nat := 16
  brake : Nat := 16
  /-- The time base at which PWRBRK_L rose, until the brake limit has recovered. -/
  brakeRise : Option Nat := none
  /-- Rails with a droop event in progress. -/
  droops : List Nat := []
  /-- PWR_OK is asserted; RESET_L is asserted and has caused a package reset. -/
  pwrOk : Bool := true
  resetL : Bool := false
  /-- RESET_REASON of the next start-up. -/
  reason : Nat := 0
  /-- THERMTRIP_L is asserted. -/
  trip : Bool := false
  /-- The last sensor readings: host die, die 0, die 1, stacks, in °C. -/
  temps : List Nat := [0, 0, 0, 0]
deriving DecidableEq, Repr

/-- The management target (R479): its dynamic address, MGMT_ALERT_L, the in-band interrupts sent, and the 9 bytes of the last
answer as status and data. -/
structure Mgmt where
  dyn : Option Nat := none
  alert : Bool := false
  ibis : Nat := 0
  status : Nat := 0
  data : Nat := 0
deriving DecidableEq, Repr

/-- The instructions of the test access port that select a data register (R480). -/
inductive TapInstr where
  | bypass | idcode | sample | extest | pulse | train | regacc
deriving DecidableEq, Repr

/-- The test access port (R480): the instruction in force, the data register that it selects, the boundary cells as preloaded,
and the lands that the cells drive. -/
structure Tap where
  instr : TapInstr := .idcode
  dr : Nat := 0x1416094B
  cells : List Nat := []
  driven : List Nat := []
deriving DecidableEq, Repr

/-- A server core that has been started, as far as the package drives it (R445). -/
structure Srv where
  pc : Nat
  a0 : Nat := 0
  a1 : Nat := 0
deriving DecidableEq, Repr

/-- The package. -/
structure State where
  /-- The commands that wait, oldest first. -/
  pending : List Instr := []
  /-- The count of open values drawn (log entry 2); the model's own field. -/
  free : Nat := 0
  /-- The answer to the last register access or inbound device read. -/
  rsp : Rsp := {}
  /-- Registers that differ from their reset values, at 8 times the offset plus the least bit of the field. -/
  regs : Map Nat := []
  /-- The frames of both tiers, by their direct-window addresses (R32, R33). -/
  mem : Mem := []
  /-- Lines that hold poison, by address / 64 (R309, R316). -/
  poison : Map Bool := []
  /-- Differences of stored words from their codewords: those that a write clears, and those of failing cells, by line; the latter of
field spares by spare line (R314, R317, R322). -/
  soft : Map Nat := []
  hard : Map Nat := []
  spareHard : Map Nat := []
  /-- Remap tables, by unit: a stack 0 to 15 or 16 + bus; the entries in order (R323), and the spares that have failed, at
  256 × (16 × channel + bank) + spare of a stack, or the spare row of a bus (R324). -/
  remap : Map (List Nat) := []
  spent : Map (List Nat) := []
  /-- Check lines in the cache of each capacity controller, most recently used first (R329), and the rows that are being copied to a
spare (R322). -/
  chkCache : Map (List ChkLine) := []
  copies : List RowCopy := []
  /-- New messages of trunks that wait after a member has gone down (R337). -/
  holds : List TrunkHold := []
  /-- REF commands that each global stack channel has issued (R319, R320). -/
  refs : Map Nat := []
  /-- Stack channels, by global channel (R312). -/
  chans : Map Chan := []
  /-- REF commands that each global stack channel has postponed (R319). -/
  postponed : Map Nat := []
  /-- Stacks whose refresh lock is in effect since the last boundary (R320). -/
  refLocked : List Nat := []
  /-- The repair command in progress at each stack (R326). -/
  repairs : Map Nat := []
  /-- Fuse spare rows and spare column groups used, at 1024 × stack + 16 × channel + bank, fuse repairs of a DRAM die, at
  16 × stack + die, and the repairs of each stack, as the commands spelled them, oldest first (R326). -/
  fuseList : Map (List Nat) := []
  fuseRows : Map Nat := []
  fuseCols : Map Nat := []
  dieRepairs : Map Nat := []
  /-- Modules removed from each UCIe link as a mask, and those that its hash leaves out since the last boundary (R29): link 0 and 1
  die 0 and die 1 to the host die, link 2 die 0 to die 1. -/
  ucieOut : Map Nat := []
  ucieHash : Map Nat := []
  /-- Byte-counter sets by their offset, and the last boundary at which sets of W = 1 latched (R460, R461). -/
  bw : Map BwSet := []
  bwEnd : Nat := 0
  /-- The Range Map store (R264), by range; unlisted entries are 0. -/
  rangeMap : Map Nat := []
  /-- Frames reserved for direct use, by frame key, with their partition (R284). -/
  reserved : Map Nat := []
  /-- Frames marked bad, by frame key (R282). -/
  bad : Map Bool := []
  /-- The ranges in the Range Map cache of each die, most recently used first (R266). -/
  rmc : Map (List Nat) := []
  /-- Line accesses since the last HEAT step of a range, by 4 × range + translating die (2 the host die) (R271). -/
  heat : Map Nat := []
  /-- Lines held by caching agents, at 128 × line + agent id (R298). -/
  cache : Map CLine := []
  /-- Lines in writeback buffers, at 128 × line + agent id: dropped and not yet answered by DROP_OK (R299). -/
  wback : Map CLine := []
  /-- Busy lines at their homes, by line (R303). -/
  busy : Map Busy := []
  /-- Lines with a snoop-filter entry in each home slice, most recently used first (R296); entries of lines that no agent
  holds are free. -/
  snoop : Map (List Nat) := []
  /-- The arbiter of each home slice, and the requests of this cycle that ended at once, by line (R304). -/
  arb : Map Arb := []
  recent : Map Recent := []
  /-- Lines in the last-level cache of each host slice, most recently used first (R295). -/
  llc : Map (List Nat) := []
  /-- Requests that wait in the channel of each home slice for its request buffer, with their lines, oldest first (R302). -/
  reqQ : Map (List (Nat × Txn)) := []
  /-- Coherence messages on their way, oldest first (R302). -/
  msgs : List CohMsg := []
  /-- Common pools of the stack tier, the capacity tier and the fabric, in lines (R291), and the requests that wait at each regulator, at
  4 × partition + tier. -/
  pools : List Nat := [38130048, 2033536, 4096000]
  regQs : Map RegQ := []
  /-- Queued migrations of die 0 and die 1, oldest first (R274), and the engines, at 8 × die + engine. -/
  migQ : Map (List MigReq) := []
  migs : Map Mig := []
  /-- Frames that are being retired (R282), and updates of Range Map entries that await acknowledgement, by range (R266). -/
  retiring : List Nat := []
  rmUpd : Map RmUpd := []
  /-- Promotion and demotion candidates of each die in this epoch, and the boundary at which it began (R273). -/
  promo : Map (List Nat) := []
  demo : Map (List Nat) := []
  epochTick : Option Nat := none
  /-- Boundaries since the last SAVED_ACT write of a range; listed ranges only (R272). -/
  quiet : Map Nat := []
  ports : Map Port := []
  /-- The rotation of COLL messages over the members of each trunk, by 16 × die + trunk (R337). -/
  trunkRr : Map Nat := []
  /-- Remote requests in flight, by 4096 × die + TAG (R332, R343). -/
  rreqs : Map RReq := []
  /-- Remote requests of each die that wait for a transaction number, oldest first (log entry 41). -/
  rwait : List (Nat × RReq) := []
  /-- Accesses of the work under way, the lines that have come for units that wait for them, by unit and remote line, and how far the
regulators must have come for the work of a unit that waits for tokens (R291, R343; log entry 111). -/
  acc : Work := {}
  came : Map (Map Ld) := []
  tickets : Map (List (Nat × Nat)) := []
  /-- The dedupe table of each die: STOT keys of the last 16 boundaries with the tick of each, oldest first (R346). -/
  stotSeen : Map (List (Nat × Nat)) := []
  /-- STOT slots that have gone to the Ethernet ports, each as a SEND to every member reached over Ethernet (R348). -/
  ethStot : List Nat := []
  /-- Collectives accepted by each die, oldest first; and chain messages that have arrived for a die and wait for its
  collective (R353, R354). -/
  colls : Map (List Coll) := []
  collIn : List CollMsg := []
  /-- Message-signalled interrupts that wait at the interrupt controller, as server core and data, oldest first (R363). -/
  msis : List (Nat × Nat) := []
  /-- Queue pairs, at 2^24 × port + number (R358), and the Ethernet ports. -/
  qps : Map Qp := []
  eths : Map EthPort := []
  /-- Dies whose epoch increments at the next boundary (R344). -/
  epochInc : Bool := false
  streams : Map Stream := []
  /-- The stream that last got a decoding unit, by the kind of unit: 0 decompressor, 1 JPEG pipeline (R365). -/
  inkTurn : Map Nat := []
  /-- Writes that the configuration space of each root port has taken, as offset, bytes and value, oldest first (R39). -/
  pcieCfg : Map (List (Nat × Nat × Nat)) := []
  /-- Windows of gradient statistics that context records have spelled: the model's own field, with which a record reads back as it was
  written (R222; log entry 3). -/
  pgSeen : List (List (List PgRow)) := []
  /-- The configuration memory, each byte as its complement, so that unlisted bytes are erased (R446, R450; log entry 5). -/
  flash : Mem := []
  /-- Areas of the lifetime region with an update due, oldest first: 0 remaps, 1 bad frames, 2 service (R447). -/
  lifeDue : List Nat := []
  clk : Clock := {}
  tiles : Map Tile := []
  herds : Map Herd := []
  cores : Map Core := []
  /-- Boundaries without progress of each die (R69). -/
  dieWd : Map Nat := []
  parts : Map Part := []
  ctxs : Map Ctx := []
  /-- Members of the job groups (R404). -/
  groups : Map (List Nat) := []
  /-- Group semaphore 224 + k of group g at key 32 g + k (R404). -/
  gsems : Map Sem := []
  /-- Job faults that await R406, oldest first. -/
  jobFaults : List JobFault := []
  /-- Resets that are due, as (code, unit), oldest first (R411). -/
  resetsDue : List (Nat × Nat) := []
  /-- Domains fenced or in reset. -/
  doms : List Dom := []
  /-- The time bases at which package-compute resets have completed within the window (R418). -/
  escTimes : List Nat := []
  /-- The pass parity of the event ring (R399), and events lost since space last returned. -/
  evqPhase : Bool := true
  evqLost : Bool := false
  /-- The interrupt of PKG_EVQ.IRQ_EN, of the watchdog and summary lines: events of the event ring awaiting the server cores. -/
  evqIrq : Bool := false
  /-- The accumulators of R427 in the order ce, link, droop, reset, and the events since the last boundary. -/
  hltAcc : List Nat := [0, 0, 0, 0]
  hltEv : List Nat := [0, 0, 0, 0]
  /-- Contexts whose snapshots have been captured and not yet completed, in capture order (R431). -/
  snapQ : List Nat := []
  /-- Physical tiles that had failed at start-up, by herd, from which the logical numbers follow (R417). -/
  sparing : Map Nat := []
  /-- Sequence number of the last record of the lifetime log, the powered seconds at which it was written, the cause of a record
  that is due (0 periodic, 1 flush), and the energy short of a kJ, in J (R465, R468). -/
  logSeq : Nat := 0
  logAt : Nat := 0
  logDue : Option Nat := none
  joules : Nat := 0
  fuses : Fuses := {}
  fuseCmd : Option FuseCmd := none
  /-- The command of CFG_FLASH_CMD in progress, with the result of its checks (R450). -/
  flashCmd : Option (Nat × Nat) := none
  /-- The value of the SEC_ATTEST_CMD in progress (R455). -/
  attest : Option Nat := none
  /-- The private identity key in the key store (R454), and SHA-512 of the PUBKEY of the running image (R442). -/
  idKey : Option Nat := none
  pubDigest : Nat := 0
  servers : Map Srv := []
  pwr : Pwr := {}
  mgmt : Mgmt := {}
  tap : Tap := {}
deriving DecidableEq, Repr

/-- The package right after power-on reset (R15): every register at its reset value, everything else empty. -/
def State.reset : State := {}

end Sys2Proof.Machine
end

