-- ==== Sys2Proof/Machine/Flits.lean ====
section
/-!
DEFINITION. Flits.lean: the flits and messages of the Afraeri fabric, as they are read and as they are formed (R331, R332).
-/

namespace Sys2Proof.Machine

/-! ### Flits (R331) -/

/-- One byte into the reflected CRC-64 of R331. -/
def crc64Byte (c b : Nat) : Nat :=
  forRange 8 (fun _ c => if c % 2 = 1 then (c / 2) ^^^ 0xC96C5795D7870F42 else c / 2) (c ^^^ b)

/-- CRC-64 over the n low bytes of a number (R331). -/
def crc64 (n v : Nat) : Nat := forRange n (fun i c => crc64Byte c (bits v (8 * i) 8)) (2 ^ 64 - 1) ^^^ (2 ^ 64 - 1)

/-- The header of a flit. -/
def flitHdr (f : Nat) : Nat := bits f 0 64
/-- Slot i of a flit. -/
def flitSlot (f i : Nat) : Nat := bits f (64 + 128 * i) 128
/-- The check of a flit is good. -/
def flitGood (f : Nat) : Bool := crc64 248 f == bits f 1984 64

/-- The channel and LEN of each TYPE, as (least, most) (R332). -/
def msgForm : Nat → Option (Nat × Nat × Nat)
  | 0x00 => some (0, 0, 0)
  | 0x01 => some (0, 4, 4)
  | 0x02 => some (0, 5, 5)
  | 0x10 => some (1, 4, 4)
  | 0x11 => some (1, 0, 0)
  | 0x12 => some (1, 0, 0)
  | 0x20 => some (2, 1, 14)
  | 0x21 => some (2, 0, 0)
  | 0x30 => some (3, 1, 1)
  | 0x31 => some (3, 1, 1)
  | 0x32 => some (3, 1, 1)
  | _ => none

/-- A message has a TYPE and the LEN and channel that go with it (R332). -/
def msgOk (m : AfrMsg) : Bool :=
  match msgForm m.typ with
  | some (vc, lo, hi) => m.vc == vc && decide (lo ≤ m.len) && decide (m.len ≤ hi) && m.data.length == m.len
  | none => false

/-- The message whose header lies in slot i of a flit (R332). -/
def msgAt (f i : Nat) : AfrMsg :=
  let h := flitSlot f i
  let len := bits h 68 4
  { vc := bits h 126 2, typ := bits h 120 6, dst := bits h 104 16, src := bits h 88 16, epoch := bits h 72 16, len := len,
    tag := bits h 56 12, arg := bits h 0 56, data := (List.range (min len (14 - i))).map fun k => flitSlot f (i + 1 + k) }

/-- The messages of a flit, by its SOM bits (R331). A message whose slots run into the next header or past the flit is one of
the wrong LEN. -/
def flitMsgs (f : Nat) : List AfrMsg :=
  (List.range 15).filterMap fun i =>
    if bit (flitHdr f) (16 + i) then
      let m := msgAt f i
      let n := ((List.range m.data.length).find? fun k => bit (flitHdr f) (17 + i + k)).getD m.data.length
      some { m with data := m.data.take n }
    else none

/-! ### Flits as they are formed -/

/-- The header slot of a message (R332). -/
def msgHeader (m : AfrMsg) : Nat :=
  m.vc * 2 ^ 126 + m.typ * 2 ^ 120 + m.dst * 2 ^ 104 + m.src * 2 ^ 88 + m.epoch * 2 ^ 72 + m.len * 2 ^ 68 + m.tag % 4096 * 2 ^ 56 + m.arg % 2 ^ 56

/-- The slots of messages, each with its SOM bit. -/
def msgsSlots (ms : List AfrMsg) : List (Bool × Nat) := ms.flatMap fun m => (true, msgHeader m) :: m.data.map fun w => (false, w)

/-- A flit of a KIND (0 data, 1 idle), its SEQ, ACK, NAK, CVC and CRED, its messages, and its check (R331). -/
def flitWord (kind seq ack : Nat) (nak : Bool) (cvc cred : Nat) (ms : List AfrMsg) : Nat :=
  let l := msgsSlots ms
  let som := sumList ((List.range l.length).map fun i => b2n (l.getD i (false, 0)).1 * 2 ^ (16 + i))
  let h := kind * 2 ^ 62 + seq * 2 ^ 52 + ack * 2 ^ 42 + b2n nak * 2 ^ 41 + cvc * 2 ^ 39 + cred * 2 ^ 31 + som
  let body := h + 2 ^ 64 * ofWords 128 (l.map fun x => x.2)
  body + 2 ^ 1984 * crc64 248 body

end Sys2Proof.Machine
end

