-- ==== Sys2Proof/Machine/Operands.lean ====
section
/-!
DEFINITION. Operands.lean: every operand form of a tile instruction: bytes of a memory, elements, records and fawns of a
view (R161, R162), elements of tile registers, masks and scalars (R135, R137), and the dither keys (R100, R141, R177).
-/

namespace Sys2Proof.Machine

/-- The byte at an address of a memory. -/
def Mem.rd (m : Mem) (a : Nat) : Nat := (Map.get 0#8 m a).toNat

/-- A memory with one byte written. -/
def Mem.wr (m : Mem) (a v : Nat) : Mem := Map.put 0#8 m a (BitVec.ofNat 8 v)

/-- n bytes from an address, as a little-endian number (R12). -/
def Mem.rdN (m : Mem) (a : Nat) : Nat → Nat
  | 0 => 0
  | n + 1 => m.rd a + 256 * Mem.rdN m (a + 1) n

/-- A memory with the n low bytes of v written from an address. -/
def Mem.wrN (m : Mem) (a : Nat) : Nat → Nat → Mem
  | 0, _ => m
  | n + 1, v => Mem.wrN (m.wr a v) (a + 1) n (v / 256)

/-- A memory with every byte of an address range zero. -/
def Mem.zeroRange (m : Mem) (a n : Nat) : Mem := m.filter fun e => e.1 < a || a + n ≤ e.1

/-- The listed bytes of an address range. -/
def Mem.slice (m : Mem) (a n : Nat) : Mem := m.filter fun e => a ≤ e.1 && e.1 < a + n

/-- A memory with n bytes of another copied into it. -/
def Mem.copyRange (dst src : Mem) (d a n : Nat) : Mem :=
  (src.slice a n).foldl (fun m e => Map.put 0#8 m (e.1 - a + d) e.2) (dst.zeroRange d n)

/-- The bytes of one row of elements of a format. -/
def rowBytes (f : Fmt) (cols : Nat) : Nat := (cols * fmtBits f + 7) / 8

/-- The number of block columns of a view or tensor of n columns (R85, R162). -/
def blocks16 (n : Nat) : Nat := (n + 15) / 16

/-- The byte address of element (i, j) of a view (R162). -/
def View.addr (v : View) (i j : Nat) : Nat := v.base + i * v.pitch + j * fmtBits v.fmt / 8

/-- The byte address of the record of block (bi, bj) of a view (R162). -/
def View.recAddr (v : View) (bi bj : Nat) : Nat := v.recs + (bi * blocks16 v.cols + bj) * 2

/-- The byte address of the fawn of element (i, j) of a view (R162). -/
def View.fawnAddr (v : View) (i j : Nat) : Nat := v.fawn + i * v.pitch / 2 + j

/-- Element (i, j) lies in the view. -/
def View.holds (v : View) (i j : Nat) : Bool := decide (i < v.rows) && decide (j < v.cols)

/-- An element code read from a memory at a byte address; INT4 takes the half of the byte that its column names (R78). -/
def Mem.elem (m : Mem) (f : Fmt) (a j : Nat) : Nat :=
  match f with
  | .int4 => bits (m.rd a) (4 * (j % 2)) 4
  | _ => m.rdN a (fmtBits f / 8)

/-- An element code written to a memory at a byte address. -/
def Mem.setElem (m : Mem) (f : Fmt) (a j v : Nat) : Mem :=
  match f with
  | .int4 => m.wr a (setBits (m.rd a) (4 * (j % 2)) 4 v)
  | _ => m.wrN a (fmtBits f / 8) v

/-- The element code at (i, j) of a view, 0 outside it (R85). -/
def Tile.vElem (t : Tile) (v : View) (i j : Nat) : Nat := if v.holds i j then t.mem.elem v.fmt (v.addr i j) j else 0

/-- The record of block (bi, bj) of a view; a view without records reads scale 1 and status finite. -/
def Tile.vRec (t : Tile) (v : View) (bi bj : Nat) : Nat :=
  if v.recEn && decide (bi < blocks16 v.rows) && decide (bj < blocks16 v.cols) then t.mem.rdN (v.recAddr bi bj) 2
  else 0x7F00

/-- SCALE of a record (R84). -/
def recScale (r : Nat) : Nat := bits r 8 8
/-- STATUS of a record, as read (R84). -/
def recStatus (r : Nat) : Nat := if recScale r = 0xFF then 2 else readStatus (bits r 6 2)

/-- The value of element (i, j) of a view: block-scaled for FP8, a NaN in an invalid block, +0 outside (R83, R88). -/
def Tile.vVal (t : Tile) (v : View) (i j : Nat) : XVal :=
  if v.holds i j then
    let r := t.vRec v (i / 16) (j / 16)
    if v.recEn && recScale r == 0xFF then .nan
    else if fmtFp8 v.fmt then rescale (recScale r) (fmtValue v.fmt (t.vElem v i j))
    else fmtValue v.fmt (t.vElem v i j)
  else .zero

/-- The fawn of element (i, j) of a view. -/
def Tile.vFawn (t : Tile) (v : View) (i j : Nat) : Int := toInt 8 (t.mem.rd (v.fawnAddr i j))

/-- Element (r, c) of data register n. -/
def Tile.treg (t : Tile) (n r c : Nat) : Nat := Map.get 0 t.tregs (2048 * n + 128 * r + c)

/-- The tile with element (r, c) of data register n written. -/
def Tile.setTreg (t : Tile) (n r c v : Nat) : Tile :=
  { t with tregs := Map.put 0 t.tregs (2048 * n + 128 * r + c) (v % 2 ^ 16) }

/-- The status of block q of data register n (R136). -/
def Tile.rstat (t : Tile) (n q : Nat) : Nat := Map.get 0 t.tstat (8 * n + q)

/-- The tile with the status of block q of data register n set. -/
def Tile.setRstat (t : Tile) (n q v : Nat) : Tile := { t with tstat := Map.put 0 t.tstat (8 * n + q) v }

/-- Bit (r, c) of mask register n. -/
def Tile.mask (t : Tile) (n r c : Nat) : Bool := Map.get 0 t.masks (2048 * n + 128 * r + c) == 1

/-- The tile with bit (r, c) of mask register n written. -/
def Tile.setMask (t : Tile) (n r c : Nat) (b : Bool) : Tile :=
  { t with masks := Map.put 0 t.masks (2048 * n + 128 * r + c) (b2n b) }

/-- The 32-bit value of scalar n. -/
def Tile.sval (t : Tile) (n : Nat) : Nat := bits (Map.get 0 t.sregs n) 0 32

/-- The status of scalar n as read. -/
def Tile.sstat (t : Tile) (n : Nat) : Nat := readStatus (bits (Map.get 0 t.sregs n) 32 2)

/-- The tile with scalar n written. -/
def Tile.setScalar (t : Tile) (n v st : Nat) : Tile :=
  { t with sregs := Map.put 0 t.sregs n (v % 2 ^ 32 + 2 ^ 32 * st) }

/-- Element (r, c) is not masked off (R139). -/
def Tile.unmasked (t : Tile) (men : Bool) (mask r c : Nat) : Bool := !men || t.mask mask r c

/-- NEG and ABS on the code of a 16-bit operand (R493): with both set, ABS acts first (log entry 101). -/
def modCode (neg abs : Bool) (c : Nat) : Nat :=
  let c := if abs then c % 2 ^ 15 else c
  if neg then (if c < 2 ^ 15 then c + 2 ^ 15 else c - 2 ^ 15) else c

/-- NEG and ABS on a value, in the same order. -/
def modVal (neg abs : Bool) (x : XVal) : XVal :=
  let x := if abs then x.magnitude else x
  if neg then x.negate else x

/-- The value of a floating-point source at (r, c): a register of the instruction's type or a scalar (R140, R178). -/
def Tile.srcVal (t : Tile) (ty : VTy) (s : VSrc) (r c : Nat) : XVal :=
  if s.scl then modVal s.neg s.abs (FF.b32.value (t.sval s.reg))
  else modVal s.neg s.abs ((vtyFF ty).value (t.treg s.reg r c))

/-- The 16-bit code of a source at (r, c); a scalar is converted to the instruction's type first (R493). -/
def Tile.srcCode (t : Tile) (ty : VTy) (s : VSrc) (r c : Nat) : Res :=
  if s.scl then
    match ty with
    | .i16 => intConvert 16 .rne (XVal.ofInt (toInt 32 (t.sval s.reg)))
    | _ => (vtyFF ty).convert .rne false none (modVal s.neg s.abs (FF.b32.value (t.sval s.reg)))
  else { code := modCode s.neg s.abs (t.treg s.reg r c) }

/-- The integer of an I16 source or an INT32 scalar at (r, c) (R142). -/
def Tile.srcInt (t : Tile) (s : VSrc) (r c : Nat) : Int :=
  if s.scl then toInt 32 (t.sval s.reg) else toInt 16 (t.treg s.reg r c)

/-- The status that a source passes at column c: its register block's or the scalar's (R144). -/
def Tile.srcStat (t : Tile) (s : VSrc) (c : Nat) : Nat :=
  if s.scl then t.sstat s.reg else readStatus (t.rstat s.reg (c / 16))

/-- The keys of stochastic rounding: seed and step of the context, tensor id, base index and row length (R99, R141, R177). -/
structure Keys where
  seed : Nat
  step : Nat
  tensor : Nat
  base : Nat
  rowLen : Nat
deriving DecidableEq, Repr

/-- The keys that the scalar group KEYGRP of a tile names (R141, R177). -/
def Tile.keys (t : Tile) (seed step g : Nat) : Keys :=
  { seed := seed, step := step, tensor := t.sval (4 * g),
    base := t.sval (4 * g + 1) + 2 ^ 32 * bits (t.sval (4 * g + 2)) 0 16, rowLen := t.sval (4 * g + 3) }

/-- The rounding mode of an element: RNE unless SR is selected and SR_EN is 1 (R93, R99). The dither takes the index modulo 2^48 (log
entry 96). -/
def Keys.rnd (k : Keys) (sr srEn : Bool) (index : Nat) : Rnd :=
  if sr && srEn then .sr (dither k.seed k.tensor (index % 2 ^ 48) k.step) else .rne

/-- The index of a register destination's element (R100). -/
def Keys.regIndex (k : Keys) (r c : Nat) : Nat := k.base + r * 128 + c

/-- The index of a view destination's element (R177). -/
def Keys.viewIndex (k : Keys) (r c : Nat) : Nat := k.base + r * k.rowLen + c

/-- The origin that ORG names: row and column (R172, R179). -/
def Tile.origin (t : Tile) (j : Nat) : Nat × Nat := (t.sval (2 * j), t.sval (2 * j + 1))

end Sys2Proof.Machine
end

