-- ==== Sys2Proof/Machine/Fields.lean ====
section
/-!
DEFINITION. Fields.lean: the named operations on registers and units that every meaning is built from: register fields, counters,
register access errors, the fault log, reset domains, and the bandwidth regulators.
-/

namespace Sys2Proof.Machine

/-- The state after a command whose numbers name units of the package (R5) and whose instruction word is legal (R168 to
R182). Another command has no effect: no unit receives it, and an illegal instruction's segment is dropped before it starts
and has no effect (R196; log entry 7). -/
def State.runIf (s : State) (ok : Bool) (t : State) : Host.Outcome State Fault Refusal := .next (if ok then t else s)

/-- An effect under a condition. -/
def State.when (s : State) (b : Bool) (f : State → State) : State := if b then f s else s

/-- An open value (log entry 2). -/
def State.draw (s : State) : Nat × State := (Config.freeValue s.free, { s with free := s.free + 1 })

/-! ### Register fields -/

/-- The key of a field of the register at an offset. -/
def regKey (off : Nat) (f : Fld) : Nat := 8 * off + f.lo

/-- The value a register field holds (R15). -/
def State.fget (s : State) (off : Nat) (f : Fld) : Nat := Map.get f.rst s.regs (regKey off f)

/-- A field as a truth value. -/
def State.fbit (s : State) (off : Nat) (f : Fld) : Bool := s.fget off f == 1

/-- Give a register field a value. -/
def State.fset (s : State) (off : Nat) (f : Fld) (v : Nat) : State :=
  { s with regs := Map.put f.rst s.regs (regKey off f) (v % 2 ^ f.w) }

/-- Count in a saturating counter field. -/
def State.fadd (s : State) (off : Nat) (f : Fld) (n : Nat) : State := s.fset off f (satAdd f.w (s.fget off f) n)

/-- Set bits of a field. -/
def State.fOr (s : State) (off : Nat) (f : Fld) (v : Nat) : State := s.fset off f (s.fget off f ||| v)

/-- The value of a per-context register field (R391). -/
def Slot.fget (k : Slot) (off : Nat) (f : Fld) : Nat := Map.get f.rst k.regs (regKey off f)

/-- Give a per-context register field a value. -/
def Slot.fset (k : Slot) (off : Nat) (f : Fld) (v : Nat) : Slot :=
  { k with regs := Map.put f.rst k.regs (regKey off f) (v % 2 ^ f.w) }

/-- Count in a per-context counter. -/
def Slot.fadd (k : Slot) (off : Nat) (f : Fld) (n : Nat) : Slot := k.fset off f (satAdd f.w (k.fget off f) n)

/-! ### Units -/

/-- The tile with a global number. -/
def State.tile (s : State) (t : Nat) : Tile := Map.get {} s.tiles t
/-- Replace a tile. -/
def State.setTile (s : State) (t : Nat) (x : Tile) : State := { s with tiles := Map.put {} s.tiles t x }
/-- The herd with a global number. -/
def State.herd (s : State) (h : Nat) : Herd := Map.get {} s.herds h
/-- Replace a herd. -/
def State.setHerd (s : State) (h : Nat) (x : Herd) : State := { s with herds := Map.put {} s.herds h x }
/-- The control core with a global number. -/
def State.core (s : State) (c : Nat) : Core := Map.get {} s.cores c
/-- Replace a control core. -/
def State.setCore (s : State) (c : Nat) (x : Core) : State := { s with cores := Map.put {} s.cores c x }
/-- A partition. -/
def State.part (s : State) (p : Nat) : Part := Map.get {} s.parts p
/-- Replace a partition. -/
def State.setPart (s : State) (p : Nat) (x : Part) : State := { s with parts := Map.put {} s.parts p x }
/-- The resident context in a slot of a partition. -/
def State.slot? (s : State) (p k : Nat) : Option Slot := (s.part p).slots.find? k
/-- Replace the context in a slot. -/
def State.setSlot (s : State) (p k : Nat) (x : Slot) : State :=
  s.setPart p { s.part p with slots := (s.part p).slots.insert k x }
/-- Change the context in a slot, where there is one. -/
def State.modSlot (s : State) (p k : Nat) (f : Slot → Slot) : State :=
  match s.slot? p k with
  | some x => s.setSlot p k (f x)
  | none => s
/-- The running context of a partition (R389). -/
def State.running (s : State) (p : Nat) : Option Slot :=
  match (s.part p).run with
  | some k => s.slot? p k
  | none => none
/-- Herds of a partition (R387). -/
def State.herdsOf (s : State) (p : Nat) : Nat := s.fget (R.SCH_PART p) F.SCH_PART_HERDS
/-- The herds of a partition as a list, ascending. -/
def State.herdList (s : State) (p : Nat) : List Nat := (List.range 16).filter fun h => bit (s.herdsOf p) h
/-- The partition that owns a herd (R387). -/
def State.partOfHerd (s : State) (h : Nat) : Option Nat := firstUpTo 8 fun p => bit (s.herdsOf p) h
/-- The partition that owns a tile. -/
def State.partOfTile (s : State) (t : Nat) : Option Nat := s.partOfHerd (t / 12)
/-- The running context that a herd serves, with its partition. -/
def State.ctxOfHerd (s : State) (h : Nat) : Option (Nat × Slot) :=
  match s.partOfHerd h with
  | some p => (s.running p).map fun x => (p, x)
  | none => none
/-- The group of which the running context of a partition is a member (R404). -/
def State.groupOf (s : State) (p : Nat) : Option Nat :=
  match s.running p with
  | some x => firstUpTo 8 fun g => (Map.get [] s.groups g).contains x.ctx
  | none => none
/-- Logical tile t of a herd has no physical tile (R417). -/
def State.absent (s : State) (t : Nat) : Bool := bit (s.fget (R.FLT_HERD (t / 12)) F.FLT_HERD_ABSENT) (t % 12)

/-! ### Time (R51, R52) -/

/-- p, the logarithm of the tick period. -/
def State.pLog (s : State) : Nat := s.fget R.TCK_CTRL F.TCK_CTRL_PERIOD_LOG2
/-- The tick period in cycles. -/
def State.period (s : State) : Nat := 2 ^ s.pLog
/-- TCK_COUNT. -/
def State.tick (s : State) : Nat := (s.clk.tb / s.period) % 2 ^ 48
/-- Cycles of one second of the time base (R4). -/
def cyclesPerSecond : Nat := 1100000000

/-! ### Register access errors (R409) -/

/-- Record and count a register access error. -/
def State.regError (s : State) (agent : Nat) (write : Bool) (off : Nat) : State :=
  ((((s.fset R.FLT_REGERR F.FLT_REGERR_WRITE (b2n write)).fset R.FLT_REGERR F.FLT_REGERR_AGENT agent).fset R.FLT_REGERR
    F.FLT_REGERR_OFFSET off).fadd R.FLT_ERRCNT F.FLT_ERRCNT_REG_ACCESS 1)

/-- The agent id of R297, 0x3FF for management and test (R409). -/
def agentId : Agent → Nat
  | .server n _ => n
  | .control c _ => 96 + c
  | .mgmt => 0x3FF
  | .test => 0x3FF

/-- Answer the agent of a register access. -/
def State.answer (s : State) (k : RspKind) (d : Nat) : State := { s with rsp := { kind := k, data := d } }

/-- A write that is ignored and reported as a register access error. -/
def State.badWrite (s : State) (a : Agent) (off : Nat) : State := (s.regError (agentId a) true off).answer .regError 0

/-- A read that returns 0 and is reported as a register access error. -/
def State.badRead (s : State) (a : Agent) (off : Nat) : State := (s.regError (agentId a) false off).answer .regError 0

/-! ### Counters of the fault controller and the health monitor (R407, R427) -/

/-- An address decode error (R36). -/
def State.decodeErr (s : State) : State := s.fadd R.FLT_ERRCNT F.FLT_ERRCNT_DECODE 1
/-- An event of the health monitor: 0 ce, 1 link, 2 droop, 3 reset (R427). -/
def State.health (s : State) (i n : Nat) : State := { s with hltEv := setAt s.hltEv i (s.hltEv.getD i 0 + n) }

/-- Count in a lifetime counter (R465). -/
def State.lifeAdd (s : State) (i n : Nat) : State := s.fadd (R.LIF_CNT i) F.LIF_CNT_VALUE n
/-- Count in a bin of a lifetime histogram (R465, R466). -/
def State.histAdd (s : State) (h bin n : Nat) : State :=
  let v := s.fget (R.LIF_HIST h (bin / 2)) F.LIF_HIST_VALUE
  let lo := 32 * (bin % 2)
  s.fset (R.LIF_HIST h (bin / 2)) F.LIF_HIST_VALUE (setBits v lo 32 (satAdd 32 (bits v lo 32) n))

/-- Count bytes of one direction in the byte-counter set at an offset: 0 A, 1 B (R460). -/
def State.bwAdd (s : State) (base dir n : Nat) : State :=
  let x : BwSet := Map.get { last := s.bwEnd } s.bw base
  let y := if dir = 0 then { x with a := (x.a + n) % 2 ^ 64 } else { x with b := (x.b + n) % 2 ^ 64 }
  { s with bw := s.bw.insert base y }

/-- One entry of the fault log (R408). -/
structure LogEntry where
  cls : Nat
  dom : Nat := 0
  unit : Nat
  kind : Nat
  cause : Nat
  segId : Nat := 0
  index : Nat := 0
  arg : Nat := 0
  job : Nat := 0
  ctx : Nat := 0
  part : Nat := 0
deriving DecidableEq, Repr

/-- The four words of an entry (R408). -/
def LogEntry.words (e : LogEntry) (tick : Nat) : List Nat :=
  [e.cls % 16 * 2 ^ 60 + e.dom % 16 * 2 ^ 56 + tick % 2 ^ 48,
   e.unit % 2 ^ 16 * 2 ^ 48 + e.kind % 16 * 2 ^ 44 + e.cause % 64 * 2 ^ 38 + e.segId % 2 ^ 16 * 2 ^ 12 + e.index % 2 ^ 12,
   e.arg % 2 ^ 64,
   e.job % 2 ^ 16 * 2 ^ 48 + e.ctx % 256 * 2 ^ 40 + e.part % 8 * 2 ^ 37]

/-- Write an entry at FLT_LOG_PTR.NEXT (R408). -/
def State.logFault (s : State) (e : LogEntry) : State :=
  let n := s.fget R.FLT_LOG_PTR F.FLT_LOG_PTR_NEXT % 64
  let s1 := forRange 4 (fun w s => s.fset (R.FLT_LOG n w) F.FLT_LOG_WORD ((e.words s.tick).getD w 0)) s
  (s1.fset R.FLT_LOG_PTR F.FLT_LOG_PTR_NEXT (n + 1)).fset R.FLT_LOG_PTR F.FLT_LOG_PTR_COUNT
    (s.fget R.FLT_LOG_PTR F.FLT_LOG_PTR_COUNT + 1)

/-- A timeout of a unit is counted and logged (R72, R407, class 0x5). -/
def State.timeoutLog (s : State) (e : LogEntry) : State := (s.logFault { e with cls := 5 }).fadd R.FLT_ERRCNT F.FLT_ERRCNT_TIMEOUT 1

/-- A timeout that is no watchdog's: the health monitor takes it as a corrected error (R72; log entry 90). -/
def State.timeoutAt (s : State) (e : LogEntry) : State := (s.timeoutLog e).health 0 1

/-- A request refused at a fence (R407, R413): `kind` and `unit` name the fenced unit as the fault log does. -/
def State.fenceRefusal (s : State) (kind unit : Nat) : State := s.timeoutAt { cls := 5, kind := kind, unit := unit, cause := 0x13 }

/-! ### Reset domains -/

/-- Domain `code` of `unit` contains the domain (c, u) or is it (R410). -/
def contains (code unit c u : Nat) : Bool :=
  match code with
  | 1 => c == 1 && u == unit
  | 2 => (c == 1 && u / 12 == unit) || (c == 2 && u == unit)
  | 3 => (c == 1 && u / 96 == unit) || (c == 2 && u / 8 == unit) || (c == 3 && u == unit)
  | 4 => (c == 1 && u / 96 == unit) || (c == 2 && u / 8 == unit) || ((c == 3 || c == 4) && u == unit)
  | 5 => c == 1 || c == 2 || c == 3 || c == 5
  | 6 => true
  | _ => false

/-- A unit, given as a domain code with a number, lies in a domain that is fenced or in reset, or in a herd that belongs to no
partition (R387). -/
def State.fenced (s : State) (c u : Nat) : Bool :=
  (s.doms.any fun d => contains d.code d.unit c u)
    || (c == 1 && (s.partOfTile u).isNone) || (c == 2 && (s.partOfHerd u).isNone)

/-- The tile is fenced by R416. -/
def State.tileFenced (s : State) (t : Nat) : Bool := s.fenced 1 t || (Map.get {} s.tiles t).failed

/-! ### Regulators (R290 to R292) -/

/-- PEAK1K of a tier (R292). -/
def peak1k (t : Nat) : Nat := if t = 0 then 595782 else if t = 1 then 31774 else 64000
/-- The peak of a tier per tick, in lines (R292). -/
def State.peak (s : State) (t : Nat) : Nat := peak1k t * 2 ^ (s.pLog - 10)
/-- RATE in effect (R292). -/
def State.rate (s : State) (p t : Nat) : Nat :=
  if s.fbit (R.PLC_REG p t) F.PLC_REG_MODE then s.fget (R.PLC_REG p t) F.PLC_REG_RATE
  else s.peak t * s.fget (R.PLC_REG p t) F.PLC_REG_SHARE / 400
/-- BURST in effect (R292). -/
def State.burst (s : State) (p t : Nat) : Nat :=
  if s.fbit (R.PLC_REG p t) F.PLC_REG_MODE then s.fget (R.PLC_REG p t) F.PLC_REG_BURST else s.rate p t
/-- A bucket, in lines. -/
def State.bucket (s : State) (p t : Nat) : Int := toInt 32 (s.fget (R.PLC_REG_LVL p t) F.PLC_REG_LVL_LEVEL)
/-- Set a bucket. -/
def State.setBucket (s : State) (p t : Nat) (v : Int) : State :=
  s.fset (R.PLC_REG_LVL p t) F.PLC_REG_LVL_LEVEL (ofInt 32 v)
/-- The requests that wait at a regulator. -/
def State.regQ (s : State) (p t : Nat) : RegQ := Map.get {} s.regQs (4 * p + t)
/-- Replace the requests that wait at a regulator. -/
def State.setRegQ (s : State) (p t : Nat) (q : RegQ) : State := { s with regQs := Map.put {} s.regQs (4 * p + t) q }

/-- Of c requests of n tokens, those that the bucket and then the common pool hold tokens for are issued (R291): the package, and the
requests that are left. -/
def State.issueTokens (s : State) (p t n c : Nat) : State × Nat :=
  if n = 0 then (s, 0)
  else
    let kb := min c ((s.bucket p t).toNat / n)
    let pool := s.pools.getD t 0
    let kp := min (c - kb) (pool / n)
    let s1 := if kb = 0 then s else s.setBucket p t (s.bucket p t - (n * kb : Nat))
    (if kp = 0 then s1 else { s1 with pools := setAt s1.pools t (pool - n * kp) }, c - kb - kp)

/-- c requests of n tokens reach the regulator of a partition and tier: those without tokens wait, and are counted once (R291). -/
def State.chargeNow (s : State) (p t n c : Nat) : State :=
  match s.issueTokens p t n c with
  | (s1, 0) => s1
  | (s1, k) =>
    let q := s1.regQ p t
    (s1.setRegQ p t { q with wait := q.wait ++ [(n, k)], seq := q.seq + k }).fadd (R.PLC_REG_LVL p t) F.PLC_REG_LVL_WAITS k

/-- c requests of n tokens are made: by a piece of work whose accesses may wait, they are noted until it is known what it needs; by any
other, they reach the regulator (R291; log entry 111). -/
def State.charge (s : State) (p t n c : Nat) : State :=
  if s.acc.on then (if s.acc.paid then s else { s with acc := { s.acc with due := s.acc.due ++ [(4 * p + t, n, c)] } })
  else s.chargeNow p t n c

/-- A dirty line that is written back takes a token of its agent's partition (R290). -/
def State.chargeBack (s : State) (part : Option Nat) (t : Nat) : State :=
  match part with
  | some p => s.when (decide (p < 8)) fun s => s.chargeNow p t 1 1
  | none => s

/-- A line access of a regulated agent (R290); a piece of work charges each line that it reads, or writes, once. -/
def State.chargeLine (s : State) (part : Option Nat) (t line : Nat) (write : Bool) : State :=
  match part with
  | some p =>
    if p < 8 ∧ ¬ (s.acc.on && s.acc.lines.contains (line, write)) then
      (if s.acc.on then { s with acc := { s.acc with lines := (line, write) :: s.acc.lines } } else s).charge p t 1 1
    else s
  | none => s

/-- Final-phase copies of n lines are charged without waiting (R291). -/
def State.chargeFinal (s : State) (p t n : Nat) : State :=
  if n = 0 then s else s.setBucket p t (max (s.bucket p t - n) (-(4 * s.burst p t : Nat)))

/-- Requests that wait are issued in order, as far as the tokens go; at most `fuel` kinds of them. -/
def State.drainReg (p t : Nat) : Nat → State → State
  | 0, s => s
  | fuel + 1, s =>
    let q := s.regQ p t
    match q.wait with
    | [] => s
    | (n, c) :: l =>
      match s.issueTokens p t n c with
      | (s1, 0) => State.drainReg p t fuel (s1.setRegQ p t { q with wait := l, done := q.done + c })
      | (s1, k) => s1.setRegQ p t { q with wait := (n, k) :: l, done := q.done + (c - k) }

/-- What the common pool of a tier receives at a boundary (R291). -/
def State.poolRefill (s : State) (t : Nat) : Nat := s.peak t - 4 * sumList ((List.range 8).map fun p => s.rate p t)

/-- REGULATOR_REFILL (R291): every bucket and every common pool, at action 8; then requests that wait are issued. -/
def State.refill (s : State) : State :=
  forRange 3 (fun t s =>
    let s1 := forRange 8 (fun p s => s.setBucket p t (min (s.bucket p t + 4 * s.rate p t) (4 * s.burst p t))) s
    forRange 8 (fun p s => State.drainReg p t (s.regQ p t).wait.length s) { s1 with pools := setAt s1.pools t (s1.poolRefill t) }) s

/-- Action 8 of R55 takes place, where it has still to, as time passes beyond the actions of a boundary (log entry 9). -/
def State.leaves (s : State) : State := if s.clk.refill then { s with clk := { s.clk with refill := false } }.refill else s

/-- How far the requests of a partition that wait have come, for each tier: an operation that ends now still waits for them (R291). -/
def State.regMarks (s : State) (part : Option Nat) : List (Nat × Nat) :=
  match part with
  | some p => ((List.range 3).filter fun t => (s.regQ p t).wait != []).map fun t => (4 * p + t, (s.regQ p t).seq)
  | none => []

/-- The tokens of a piece of work are charged: the package, and how far the regulators must have come for its requests to be issued. -/
def State.chargeAll (s : State) (due : List (Nat × Nat × Nat)) : State × List (Nat × Nat) :=
  let s1 := due.foldl (fun s d => s.chargeNow (d.1 / 4) (d.1 % 4) d.2.1 d.2.2) s
  (s1, ((due.map fun d => d.1).eraseDups.filter fun k => (Map.get {} s.regQs k).seq != (Map.get {} s1.regQs k).seq).map fun k =>
    (k, (Map.get {} s1.regQs k).seq))

/-- Every request that an operation waited for has been issued. -/
def State.regPast (s : State) (l : List (Nat × Nat)) : Bool := l.all fun m => decide (m.2 ≤ (Map.get {} s.regQs m.1).done)

end Sys2Proof.Machine
end

