-- ==== Sys2Proof/Machine/Ranges.lean ====
section
/-!
DEFINITION. Ranges.lean: who reaches memory and where an address leads: the Range Map with its heat and caches, the homes of frames, and
the links between the dies (R28 to R36, R264 to R272, R294).
-/

namespace Sys2Proof.Machine

/-! ### Address translation (R30 to R36) -/

/-- Who reaches memory: the partition whose ownership it passes (none passes every check, R267), whether it reaches the
direct windows and the remote windows (R42), and the die it lies on (2 the host die). -/
structure Reach where
  part : Option Nat
  direct : Bool
  remote : Bool
  die : Nat
  /-- Agent id of R297; 1023 for a unit without one. -/
  ag : Nat
  /-- What waits for lines behind a remote window, and those that have come for it, by remote line. -/
  who : Asker := .agent
  got : Map Ld := []
deriving DecidableEq, Repr

/-- A tile. -/
def Reach.tile (p t : Nat) : Reach := { part := some p, direct := true, remote := true, die := t / 96, ag := 128 + t }
/-- The step scheduler of a partition, which also runs its rescale passes (R214). -/
def Reach.sched (p : Nat) : Reach := { part := some p, direct := true, remote := true, die := 2, ag := 1023 }
/-- The step scheduler writing or reading save areas on behalf of every partition (R390). -/
def Reach.save : Reach := { part := none, direct := false, remote := false, die := 2, ag := 1023 }
/-- A stream of the intake engine. -/
def Reach.intake (p : Nat) : Reach := { part := some p, direct := false, remote := false, die := 2, ag := 346 }
/-- The snapshot engine (R42, R267). -/
def Reach.snap : Reach := { part := none, direct := false, remote := true, die := 2, ag := 347 }
/-- A collective engine serving a partition. -/
def Reach.coll (p d : Nat) : Reach := { part := some p, direct := false, remote := true, die := d, ag := 336 + d }
/-- A collective engine reading its group table (R349): with no check of an owning partition (DESIGN CHOICE, log entry 110). -/
def Reach.engine (d : Nat) : Reach := { part := none, direct := false, remote := true, die := d, ag := 336 + d }
/-- The collective engine of a die issuing a request of another package for a partition (R341). -/
def Reach.remoteReq (p d : Nat) : Reach := { part := some p, direct := false, remote := false, die := d, ag := 336 + d }
/-- The DMA of an Ethernet port, for a partition or for none. -/
def Reach.eth (p : Option Nat) (e : Nat) : Reach := { part := p, direct := false, remote := false, die := e / 4, ag := 338 + e }
/-- An inbound device access (R364). -/
def Reach.pcie (rp : Nat) : Reach := { part := none, direct := false, remote := false, die := 2, ag := 348 + rp }
/-- A server core, and the blocks of the host die that write rings that host software names. -/
def Reach.server : Reach := { part := none, direct := true, remote := true, die := 2, ag := 1023 }
/-- A tile for an instruction of a segment, with the lines that have come for it. -/
def Reach.ins (p u t idx : Nat) (got : Map Ld) : Reach := { Reach.tile p u with who := .ins t idx, got := got }
/-- A step scheduler for entry i of a pass of a slot, with the lines that have come for the pass. -/
def Reach.pass (p k i : Nat) (got : Map Ld) : Reach := { Reach.sched p with who := .pass p k i, got := got }
/-- A line behind a window, by the window and the line there. -/
def remoteKey (win off : Nat) : Nat := win * 2 ^ 36 + off / 64

/-- Where an address leads: a frame byte, a byte behind a remote window of a die, an address decode error, or a home that
is fenced (R413). -/
inductive Loc where
  | frame (a : Nat)
  | window (die win off : Nat)
  | bad
  | fence (die : Nat)
deriving DecidableEq, Repr

/-- The Range Map entry of a range (R264). -/
def State.rm (s : State) (r : Nat) : Nat := Map.get 0 s.rangeMap r
/-- The entry by which accesses to a range are translated: until every cache has acknowledged an update, that before it (R266, R270). -/
def State.rmSeen (s : State) (r : Nat) : Nat :=
  match s.rmUpd.find? r with
  | some u => u.old
  | none => s.rm r
/-- Set the Range Map entry of a range. -/
def State.setRm (s : State) (r e : Nat) : State := { s with rangeMap := Map.put 0 s.rangeMap r e }
/-- VALID of an entry. -/
def rmValid (e : Nat) : Bool := bit e 63
/-- TIER of an entry. -/
def rmTier (e : Nat) : Nat := bits e 61 2
/-- STATE of an entry. -/
def rmState (e : Nat) : Nat := bits e 59 2
/-- PART of an entry. -/
def rmPart (e : Nat) : Nat := bits e 56 3
/-- FRAME of an entry. -/
def rmFrame (e : Nat) : Nat := bits e 0 34
/-- The key of a frame: its direct-window address without its low 20 bits (R265). -/
def frameKey (tier frame : Nat) : Nat := (if tier = 0 then 0x400000 else 0x800000) + frame
/-- The die whose stacks hold a frame, none for the capacity tier. -/
def dieOfKey (k : Nat) : Option Nat := if k < 0x800000 then some ((k - 0x400000) / 0x80000 % 2) else none

/-- The window entry of a die admits an access (R340). -/
def State.winOk (s : State) (die win : Nat) (write : Bool) (part : Option Nat) : Bool :=
  let e := s.fget (R.AFR_WIN die win) F.AFR_WIN_ENTRY
  bit e 63 && (!write || bit e 62) && (bit e 55 || (match part with | some p => p == bits e 56 3 | none => true))

/-- The home of a frame is fenced: that of a stack with its die fabric (R410). -/
def State.homeFenced (s : State) (k : Nat) : Bool :=
  match dieOfKey k with
  | some d => s.fenced 4 d
  | none => false

/-- Translate an address for an access (R31 to R35). -/
def State.xlate (s : State) (r : Reach) (write : Bool) (a : Nat) : Loc :=
  let frame (k : Nat) : Loc := if s.homeFenced k then .fence ((dieOfKey k).getD 0) else .frame (k * 2 ^ 20 + a % 2 ^ 20)
  let window (win off : Nat) : Loc :=
    let die := if r.die = 2 then win % 2 else r.die
    if s.winOk die win write r.part then .window die win off else .bad
  if a < 2 ^ 42 then
    let e := s.rmSeen (a / 2 ^ 20)
    if !rmValid e || rmTier e == 3 || (match r.part with | some p => p != rmPart e | none => false) then .bad
    else if rmTier e = 2 then window (bits e 22 12) (bits e 0 22 * 2 ^ 20 + a % 2 ^ 20)
    else frame (frameKey (rmTier e) (rmFrame e))
  else if (2 ^ 42 ≤ a ∧ a < 0x50000000000) ∨ (0x80000000000 ≤ a ∧ a < 0xA0000000000) then
    match r.direct, s.reserved.find? (a / 2 ^ 20) with
    | true, some o => if decide (o < 8) && (r.part == none || r.part == some o) then frame (a / 2 ^ 20) else .bad
    | _, _ => .bad
  else if 2 ^ 54 ≤ a ∧ a < 2 ^ 55 then
    if r.remote then window (a / 2 ^ 42 % 4096) (a % 2 ^ 42) else .bad
  else .bad

/-! ### What a range and a frame hold (R264, R265, R277, R294) -/

/-- The frame key that an entry holds, none for a peer or retired range or no range. -/
def keyOf (e : Nat) : Option Nat := if rmValid e ∧ rmTier e < 2 then some (frameKey (rmTier e) (rmFrame e)) else none
/-- TIER of a frame key. -/
def tierOfKey (k : Nat) : Nat := if k < 0x800000 then 0 else 1
/-- FRAME of a frame key. -/
def frameOfKey (k : Nat) : Nat := if k < 0x800000 then k - 0x400000 else k - 0x800000
/-- The range that a frame holds. -/
def State.rangeAt (s : State) (k : Nat) : Option Nat :=
  (List.find? (fun e : Nat × Nat => keyOf e.2 == some k) s.rangeMap).map fun e => e.1

/-- The destination frame of a migration, none for a peer range. -/
def Mig.key (m : Mig) : Option Nat := if m.tier < 2 then some (frameKey m.tier m.frame) else none
/-- The source frame of a migration, also once the switch has been made (R277). -/
def State.migSrc (s : State) (m : Mig) : Option Nat := if m.phase < 5 then keyOf (s.rm m.req.range) else m.src

/-- A range of another package that migrates hither, whose accesses still go over the fabric: a write marks its line dirty (R277, R285). -/
def State.markPeer (s : State) (a : Nat) : State :=
  { s with migs := s.migs.map fun e =>
      if (2 ≤ e.2.phase && e.2.phase ≤ 4) && e.2.req.range == a / 2 ^ 20 && (keyOf (s.rm e.2.req.range)).isNone then
        (e.1, { e.2 with dirty := Map.put false e.2.dirty (a / 64 % 16384) true })
      else e }

/-- A line is busy for the final phase of a migration of its frame, until it is unblocked (R308). -/
def State.finalLine (s : State) (line : Nat) : Bool :=
  s.migs.any fun e => decide (4 ≤ e.2.phase) && s.migSrc e.2 == some (line / 16384)

/-- Every engine that migrates the range of a frame marks the line dirty (R277). -/
def State.markDirty (s : State) (line : Nat) : State :=
  { s with migs := s.migs.map fun e =>
      if (2 ≤ e.2.phase && e.2.phase ≤ 4) && s.migSrc e.2 == some (line / 16384) then
        (e.1, { e.2 with dirty := Map.put false e.2.dirty (line % 16384) true })
      else e }

/-- The host slice of a capacity line (R294). -/
def hostSlice (a : Nat) : Nat := forRange 6 (fun i s => s ^^^ bits a (6 * i) 6) 0
/-- The slice of a stack line on its die (R294). -/
def dieSlice (a : Nat) : Nat := forRange 7 (fun i s => s ^^^ bits a (5 * i) 5) 0
/-- The home slice of a frame line, as register space numbers it: 0 to 63, or 64 + 32 × die + slice (R294). -/
def sliceOf (line : Nat) : Nat :=
  let k := line / 16384
  match dieOfKey k with
  | some d => 64 + 32 * d + dieSlice (line - 0x400000 * 16384)
  | none => hostSlice (line - 0x800000 * 16384)
/-- The die of the home of a frame: 2 the host die. -/
def homeDie (k : Nat) : Nat := (dieOfKey k).getD 2

/-! ### UCIe links (R27 to R29, R460) -/

/-- The link between two dies: 0 and 1 join die 0 and die 1 to the host die, 2 joins die 0 and die 1 (R28). -/
def ucieLink (a b : Nat) : Option Nat :=
  if a = b then none else if a = 2 then some b else if b = 2 then some a else some 2
/-- Modules of a link. -/
def ucieCount (link : Nat) : Nat := if link < 2 then 12 else 16
/-- Modules of a link that have been removed, as a mask. -/
def State.ucieGone (s : State) (link : Nat) : Nat := Map.get 0 s.ucieOut link
/-- Every module of a link has been removed. -/
def State.ucieLost (s : State) (link : Nat) : Bool := s.ucieGone link == 2 ^ ucieCount link - 1
/-- Modules of a link outside a mask. -/
def modulesBut (link m : Nat) : List Nat := (List.range (ucieCount link)).filter fun k => !bit m k

/-- The module that carries a line over a link (R29): by the hash over the modules that the last boundary left in, and where that one has
been removed since, by the hash over those that work, on which the transaction is issued again; none where none works. -/
def State.ucieModule (s : State) (link line : Nat) : Option Nat × Bool :=
  let pick (l : List Nat) : Option Nat := l[Config.ucieHash link l line % l.length]?
  let m := pick (modulesBut link (Map.get 0 s.ucieHash link))
  if m.all fun k => bit (s.ucieGone link) k then (pick (modulesBut link (s.ucieGone link)), m.isSome) else (m, false)

/-- The byte-counter set of a module at an accelerator die: modules 0 to 11 of a die are its link to the host die, 12 to 27 its end of the
link between the dies (R460). -/
def moduleSet (link die m : Nat) : Nat := B.die die + 0x1000 + 0x40 * (if link < 2 then m else 12 + m)

/-- n bytes pass over a module from die a to die b, and are counted at the accelerator-die ends (R460). -/
def State.ucieBytes (s : State) (link m a b n : Nat) : State :=
  (s.when (decide (a < 2)) fun s => s.bwAdd (moduleSet link a m) 1 n).when (decide (b < 2)) fun s => s.bwAdd (moduleSet link b m) 0 n

/-- A line access of a unit on die a whose home lies on die b crosses their link (R28): `out` and `back` are the bytes of the request and
of its answer. False where no module of the link works. A transaction that meets a removed module is issued again on another, which the
health monitor counts (R407). -/
def State.cross (s : State) (a b line out back : Nat) : Bool × State :=
  match ucieLink a b with
  | none => (true, s)
  | some l =>
    match s.ucieModule l line with
    | (some m, again) => (true, (((s.when again fun s => s.health 0 1).ucieBytes l m a b out).ucieBytes l m b a back))
    | (none, _) => (false, s)

/-! ### Heat and the Range Map caches (R266, R271) -/

/-- Entries of a Range Map cache (R266). -/
def rmcSize : Nat := 65536

/-- A die translates through its Range Map cache: a hit is counted and made the most recent; a miss is counted and filled
in place of the least recently used entry (R266). -/
def State.rmcUse (s : State) (d r : Nat) : State :=
  let l := Map.get [] s.rmc d
  if l.contains r then
    { s with rmc := Map.put [] s.rmc d (r :: l.erase r) }.fadd (R.PLC_RMC_STAT d) F.PLC_RMC_STAT_HITS 1
  else
    { s with rmc := Map.put [] s.rmc d (r :: l.take (rmcSize - 1)) }.fadd (R.PLC_RMC_STAT d) F.PLC_RMC_STAT_MISSES 1

/-- AFF as LEAN leaves it (R271). -/
def affOf (lean : Int) (aff : Nat) : Nat := if lean ≤ -3 then 1 else if 3 ≤ lean then 2 else aff

/-- A line access to a range through the translating cache of a die, or the store on the host die (R271). -/
def State.touch (s : State) (die range : Nat) : State :=
  let s0 := if die < 2 then s.rmcUse die range else s
  let key := 4 * range + die
  let n := Map.get 0 s0.heat key + 1
  let full := 2 ^ s0.fget R.PLC_POLICY F.PLC_POLICY_HEAT_SHIFT
  if !s0.fbit R.PLC_CTRL F.PLC_CTRL_AUTO_EN then s0
  else if n < full then { s0 with heat := Map.put 0 s0.heat key n }
  else
    let e := s0.rm range
    let lean := toInt 3 (bits e 40 3)
    let lean1 := if die = 0 then max (lean - 1) (-4) else if die = 1 then min (lean + 1) 3 else lean
    let e1 := setBits (setBits e 43 8 (min 255 (bits e 43 8 + 1))) 40 3 (ofInt 3 lean1)
    let e2 := if bit e 55 then e1 else setBits e1 53 2 (affOf lean1 (bits e 53 2))
    { s0 with heat := Map.put 0 s0.heat key 0 }.setRm range e2

/-- A write that carries the SAVED_ACT hint marks an unpinned range and restarts its quiet count (R272). -/
def State.savedWrite (s : State) (range : Nat) : State :=
  let e := s.rm range
  let s1 := if bit e 55 || !s.fbit R.PLC_CTRL F.PLC_CTRL_AUTO_EN then s else s.setRm range (setBits e 51 2 3)
  { s1 with quiet := Map.put 0 s1.quiet range 0 }

end Sys2Proof.Machine
end

