-- ==== Sys2Proof/Machine/Rs.lean ====
section
/-!
DEFINITION. Rs.lean: the line code RS(72,64) over GF(2^8) and its decoder (R314 to R316). The code is linear, so a stored word is
held as the difference from the codeword of its data: byte j of a difference stands at bits [8j + 7 : 8j], and is the coefficient
of x^(71 - j).
-/

namespace Sys2Proof.Machine

/-- α times an element, modulo x^8 + x^4 + x^3 + x^2 + 1. -/
def gfDouble (a : Nat) : Nat := if a < 128 then 2 * a else (2 * a) ^^^ 0x11D
/-- A product, over the n low bits of b. -/
def gfMulN : Nat → Nat → Nat → Nat
  | 0, _, _ => 0
  | n + 1, a, b => (if b % 2 = 1 then a else 0) ^^^ gfMulN n (gfDouble a) (b / 2)
/-- A product in GF(2^8). -/
def gfMul (a b : Nat) : Nat := gfMulN 8 a b
/-- A power. -/
def gfPow (a : Nat) : Nat → Nat
  | 0 => 1
  | n + 1 => gfMul a (gfPow a n)
/-- An inverse. -/
def gfInv (a : Nat) : Nat := gfPow a 254
/-- α^n. -/
def alpha (n : Nat) : Nat := gfPow 2 (n % 255)
/-- The value of a polynomial, its coefficients least first. -/
def gfEval (x : Nat) : List Nat → Nat
  | [] => 0
  | c :: r => c ^^^ gfMul x (gfEval x r)
/-- A sum of polynomials. -/
def gfAdd : List Nat → List Nat → List Nat
  | [], b => b
  | a, [] => a
  | x :: a, y :: b => (x ^^^ y) :: gfAdd a b
/-- A polynomial times a constant. -/
def gfScale (c : Nat) (p : List Nat) : List Nat := p.map (gfMul c)

/-- Bytes of a codeword. -/
def rsLen : Nat := 72
/-- Coefficients of a difference, least power first. -/
def rsCoefs (e : Nat) : List Nat := (List.range rsLen).map fun i => bits e (8 * (71 - i)) 8
/-- The eight syndromes of a difference: its values at α^0 to α^7. -/
def rsSynd (e : Nat) : List Nat := (List.range 8).map fun i => gfEval (alpha i) (rsCoefs e)

/-! ### Codewords (R314) -/

/-- The coefficients of the generator polynomial g(x), the product of x - α^i for i up to 7, least power first. -/
def rsGen : List Nat := (List.range 8).foldl (fun g i => gfAdd (0 :: g) (gfScale (alpha i) g)) [1]
/-- The remainder after the next coefficient, from the highest power down: r · x + c · x^8 modulo g. -/
def rsShift (r : List Nat) (c : Nat) : List Nat :=
  let f := r.getD 7 0 ^^^ c
  (List.range 8).map fun i => (if i = 0 then 0 else r.getD (i - 1) 0) ^^^ gfMul f (rsGen.getD i 0)
/-- The check bytes of a line, byte 64 first: the coefficients of x^7 down to x^0 of the remainder of its data times x^8. -/
def rsCheck (data : Nat) : List Nat :=
  ((List.range 64).foldl (fun r j => rsShift r (bits data (8 * j) 8)) (List.replicate 8 0)).reverse
/-- The codeword of a line: its 64 bytes and its check bytes. -/
def rsWord (data : Nat) : Nat := data % 2 ^ 512 + 2 ^ 512 * ofWords 8 (rsCheck data)
/-- The pin on which byte j of a codeword travels in a stack burst: DQ0 to DQ31, then CB0 to CB3. -/
def rsPin (j : Nat) : Nat := j / 2
/-- The beat in which bit i of byte j travels. -/
def rsBeat (j i : Nat) : Nat := 8 * (j % 2) + i

/-- The state of the search for the error locator: the locator, its last change, its degree, and the last discrepancy. -/
structure RsLoc where
  c : List Nat := [1]
  b : List Nat := [1]
  l : Nat := 0
  m : Nat := 1
  d : Nat := 1
deriving DecidableEq, Repr

/-- One step of the search, for syndrome n. -/
def rsStep (s : List Nat) (n : Nat) (x : RsLoc) : RsLoc :=
  let d := (List.range (x.l + 1)).foldl (fun a i => a ^^^ gfMul (x.c.getD i 0) (s.getD (n - i) 0)) 0
  if d = 0 then { x with m := x.m + 1 }
  else
    let c := gfAdd x.c (List.replicate x.m 0 ++ gfScale (gfMul d (gfInv x.d)) x.b)
    if 2 * x.l ≤ n then { c := c, b := x.c, l := n + 1 - x.l, m := 1, d := d } else { x with c := c, m := x.m + 1 }

/-- The error locator of the syndromes. -/
def rsLocator (s : List Nat) : RsLoc := forRange 8 (rsStep s) {}

/-- The magnitude of the error at power i (Forney). -/
def rsMag (s loc : List Nat) (i : Nat) : Nat :=
  let x := alpha i
  let y := gfInv x
  let om := (List.range 8).map fun k =>
    (List.range (k + 1)).foldl (fun a j => a ^^^ gfMul (loc.getD j 0) (s.getD (k - j) 0)) 0
  let dl := (List.range 8).map fun k => if k % 2 = 0 then loc.getD (k + 1) 0 else 0
  gfMul x (gfMul (gfEval y om) (gfInv (gfEval y dl)))

/-- The error of at most four bytes whose syndromes are given, as a difference; none where there is none. -/
def rsError (s : List Nat) : Option Nat :=
  let x := rsLocator s
  let ps := (List.range rsLen).filter fun i => gfEval (gfInv (alpha i)) x.c == 0
  let e := ps.foldl (fun a i => setBits a (8 * (71 - i)) 8 (rsMag s x.c i)) 0
  if x.l ≤ 4 ∧ ps.length = x.l ∧ rsSynd e = s then some e else none

/-- The poison pattern P: 0x5A in each of the eight check bytes (R316). -/
def rsPoison : Nat := (List.range 8).foldl (fun a i => setBits a (8 * (64 + i)) 8 0x5A) 0

/-- How a word decodes (R316): good, corrected by a pattern, poisoned, or uncorrectable. -/
inductive RsOut where
  | good
  | corrected (f : Nat)
  | poisoned
  | bad
deriving DecidableEq, Repr

/-- The decoder, on the difference of a stored word from the codeword of its data, in the order of R316. -/
def rsDecode (e : Nat) : RsOut :=
  let s := rsSynd e
  if s.all fun x => x == 0 then .good
  else if s = rsSynd rsPoison then .poisoned
  else
    match rsError s with
    | some f => .corrected f
    | none => .bad

end Sys2Proof.Machine
end

