-- ==== Sys2Proof/Machine/Lines.lean ====
section
/-!
DEFINITION. Lines.lean: a line at its channel: where it lies, its stored word, and what a controller does when it reads or writes one
(R310 to R317, R328, R329). A unit is a stack, 0 to 15, or 16 + bus. A line is named by its direct-window address divided by 64.
-/

namespace Sys2Proof.Machine

/-! ### Where a line lies (R313, R328) -/

/-- The first line of the stack-direct window. -/
def stackLine0 : Nat := 0x400000 * 16384
/-- The first line of the capacity-direct window. -/
def capLine0 : Nat := 0x800000 * 16384

/-- The unit that holds a line, and the line's number within it. -/
def unitOf (line : Nat) : Nat × Nat :=
  if line < capLine0 then ((line - stackLine0) / 2 ^ 30 % 16, line % 2 ^ 30) else (16 + (line - capLine0) / 2 ^ 30 % 32, line % 2 ^ 30)

/-- The line with a number within a unit. -/
def lineOf (unit n : Nat) : Nat := if unit < 16 then stackLine0 + unit * 2 ^ 30 + n else capLine0 + (unit - 16) * 2 ^ 30 + n

/-- Lines of a unit. -/
def unitLines (unit : Nat) : Nat := if unit < 16 then 2 ^ 30 else 954204160

/-- Channel, bank and row of a line of a stack (stack_place, R313). -/
def stackPlace (a : Nat) : Nat × Nat × Nat :=
  ((a % 64 ^^^ a / 2 ^ 12 % 64) ^^^ a / 2 ^ 24 % 64, a / 2 ^ 10 % 16 ^^^ a / 2 ^ 14 % 16, a / 2 ^ 14)
/-- The line within its bank row: the column of stack_place (R313). -/
def stackCol (a : Nat) : Nat := a / 64 % 16

/-- The raw bytes of a bus at which the data of a line and its check bytes begin (R328). -/
def dataPlace (n : Nat) : Nat := 576 * (n / 8) + 64 * (n % 8)
/-- The raw bytes at which the check bytes of a line begin. -/
def checkPlace (n : Nat) : Nat := 576 * (n / 8) + 512 + 8 * (n % 8)
/-- The raw row that holds a data line of a bus (R327, R328). -/
def rawRow (n : Nat) : Nat := dataPlace n / 4096
/-- The raw row that holds the check line of a data line. -/
def checkRow (n : Nat) : Nat := checkPlace n / 4096
/-- The sub-channel of a raw row (R327). -/
def subChannel (row : Nat) : Nat := row % 2
/-- The raw row of a spare row of a bus (R328). -/
def spareRow (i : Nat) : Nat := 0xFFF0BD + i

/-- A line of a stack or of the capacity tier (R32, R33, R293). -/
def homeLine (line : Nat) : Bool :=
  let k := line / 16384
  decide (0x400000 ≤ k ∧ k < 0x500000) || (decide (0x800000 ≤ k) && decide ((k - 0x800000) / 65536 < 32)
    && decide ((k - 0x800000) % 65536 < 58240))

/-- The unit that serves a line, as the fault log names it: the kind, with the global stack channel (R313) or the capacity bus
(R408). -/
def memUnit (line : Nat) : Nat × Nat :=
  let u := unitOf line
  if u.1 < 16 then (4, 64 * u.1 + (stackPlace u.2).1) else (5, u.1 - 16)

/-! ### Registers of a unit -/

/-- The offset of a unit's block. -/
def B.unit (u : Nat) : Nat := if u < 16 then B.stk u else B.cap (u - 16)
/-- The byte-counter set of a line's channel or bus (R460). -/
def bwSetOf (line : Nat) : Nat :=
  let u := unitOf line
  if u.1 < 16 then B.stk u.1 + 0x1000 + 0x40 * (stackPlace u.2).1 else B.cap (u.1 - 16) + 0x100
/-- Offset of the ERR register of a unit; CAP_ERR has the layout of STK_ERR. -/
def errReg (u : Nat) : Nat := B.unit u + 0x10
/-- Offset of ERR_ADDR. -/
def errAddrReg (u : Nat) : Nat := B.unit u + 0x18

/-! ### Refresh lock (R62, R320, R321) -/

/-- The refresh lock of a stack is in effect: set since a boundary and not suspended (R320, R321). -/
def State.lockOn (s : State) (stack : Nat) : Bool :=
  s.refLocked.contains stack && !s.fbit (R.STK_STATUS stack) F.STK_STATUS_LOCK_SUSPENDED

/-- The refresh slot lasts 1/32 of the period from a boundary on (R62). -/
def State.slotOpen (s : State) : Bool := s.clk.refSlot && decide (s.clk.tb % s.period < s.period / 32)

/-- A request to a unit waits for the refresh slot to end (R62). -/
def State.slotWait (s : State) (unit : Nat) : Bool := s.slotOpen && decide (unit < 16) && s.lockOn unit

/-! ### The cells of a line (R322 to R325) -/

/-- The remap table of a unit. -/
def State.remaps (s : State) (unit : Nat) : List Nat := Map.get [] s.remap unit
/-- The key of a spare: of a bank of a stack, or of a bus. -/
def spareKey (unit chan bank i : Nat) : Nat := if unit < 16 then 256 * (16 * chan + bank) + i else i
/-- The key of a line of a spare: its place there is the column of a stack row, or the 64-byte place within a raw row. -/
def spareCell (unit key col : Nat) : Nat := (unit * 2 ^ 18 + key) * 64 + col
/-- The entry of a row: its index. -/
def State.remapIdx (s : State) (unit chan bank row : Nat) : Option Nat :=
  (s.remaps unit).findIdx? fun e => bits e 55 6 == chan && bits e 51 4 == bank && bits e 27 24 == row
/-- Two entries name the same spare of the same bank. -/
def sameSpare (e f : Nat) : Bool := bits e 51 10 == bits f 51 10 && bits e 15 12 == bits f 15 12

/-- The spare that serves a row by the table: a retired row is still served where it was (R324; log entry 112). -/
def State.spareOf (s : State) (unit chan bank row : Nat) : Option Nat :=
  match s.remapIdx unit chan bank row with
  | none => none
  | some k =>
    let e := (s.remaps unit).getD k 0
    if bits e 61 2 = 3 ∧ ((s.remaps unit).take k).any (sameSpare e) then none else some (bits e 15 12)

/-- The spare that serves a line of a row: while a row is copied, lines that have yet to be copied are served where they were (R322). -/
def State.spareAt (s : State) (unit chan bank row line : Nat) : Option Nat :=
  match s.copies.find? fun c => c.unit == unit && c.chan == chan && c.bank == bank && c.row == row && c.left.contains line with
  | some c => c.src
  | none => s.spareOf unit chan bank row

/-- The failing cells where a line lies: of its row or of the spare that serves it; data and check bytes of a line of a bus lie apart
(R317, R322, R328). -/
def State.cells (s : State) (line : Nat) : Nat :=
  let u := unitOf line
  let h := Map.get 0 s.hard line
  let at? (key col : Nat) : Nat := Map.get 0 s.spareHard (spareCell u.1 key col)
  if u.1 < 16 then
    let p := stackPlace u.2
    match s.spareAt u.1 p.1 p.2.1 p.2.2 line with
    | none => h
    | some i => at? (spareKey u.1 p.1 p.2.1 i) (stackCol u.2)
  else
    (match s.spareAt u.1 0 0 (rawRow u.2) line with
      | none => h % 2 ^ 512
      | some i => at? i (dataPlace u.2 / 64 % 64) % 2 ^ 512)
    + 2 ^ 512 * (match s.spareAt u.1 0 0 (checkRow u.2) line with
      | none => h / 2 ^ 512
      | some i => bits (at? i (checkPlace u.2 / 64 % 64)) (64 * (u.2 % 8)) 64)

/-! ### Stored words (R314, R316, R329) -/

/-- Write the bytes of a line, which makes its stored word a codeword again but for the cells that no write clears. -/
def State.putLine (s : State) (line data : Nat) : State :=
  { s with mem := s.mem.wrN (line * 64) 64 data, soft := s.soft.erase line }

/-- The check line of a line of the capacity tier, where its controller holds it (R329). -/
def State.chkLine (s : State) (line : Nat) : Option ChkLine :=
  let u := unitOf line
  if u.1 < 16 then none else (Map.get [] s.chkCache (u.1 - 16)).find? fun c => c.group == u.2 / 8

/-- The difference of a line's stored word from the codeword of its data, poison apart: a check line that its controller holds is taken
from there (R314, R317, R329). -/
def State.lineErr (s : State) (line : Nat) : Nat :=
  let d := Map.get 0 s.soft line ^^^ s.cells line
  match s.chkLine line with
  | none => d
  | some c => d % 2 ^ 512 + 2 ^ 512 * c.bad.getD ((unitOf line).2 % 8) 0

/-- The difference with the poison pattern of a poisoned line (R316). -/
def State.lineDiff (s : State) (line : Nat) : Nat :=
  s.lineErr line ^^^ (if Map.get false s.poison line then rsPoison else 0)

/-- The word that a unit stores for a line: the codeword of its data but for that difference (R314, R316). -/
def State.storedWord (s : State) (line : Nat) : Nat := rsWord (s.mem.rdN (line * 64) 64) ^^^ s.lineDiff line

/-- A line as its channel delivers it; none for a poisoned or uncorrectable word (R316). -/
def State.homeWord (s : State) (line : Nat) : Option Nat :=
  if s.lineErr line = 0 then (if Map.get false s.poison line then none else some (s.mem.rdN (line * 64) 64))
  else
    match rsDecode (s.lineDiff line) with
    | .good => some (s.mem.rdN (line * 64) 64 ^^^ s.lineDiff line % 2 ^ 512)
    | .corrected f => some (s.mem.rdN (line * 64) 64 ^^^ (s.lineDiff line ^^^ f) % 2 ^ 512)
    | _ => none

/-- An uncorrectable or poisoned line is answered with FAIL: counted and logged (R316, R407). -/
def State.ueAt (s : State) (line : Nat) : State :=
  (s.fadd R.FLT_ERRCNT F.FLT_ERRCNT_UE 1).logFault
    { cls := 4, unit := (memUnit line).2, kind := (memUnit line).1, cause := 0x14, arg := line * 64 }

/-! ### Reads and writes of a line at its channel (R312, R316, R317, R329, R460) -/

/-- How a unit raises the event of its error record (R317): each operation below is given it. -/
abbrev ErrEv := State → Nat → State

/-- Record a hard error (1), an uncorrectable word (2) or a poisoned line that was read (3); an event is raised for the first
two (R317). -/
def State.errAt (ev : ErrEv) (s : State) (unit line kind : Nat) : State :=
  let s1 := (s.fset (errAddrReg unit) F.STK_ERR_ADDR_KIND kind).fset (errAddrReg unit) F.STK_ERR_ADDR_ADDR line
  s1.when (kind != 3) fun s => ev s unit

/-- Count a corrected word (R317, R427, R465, R466). -/
def State.countCe (s : State) (unit line : Nat) : State :=
  let s1 := ((s.fadd (errReg unit) F.STK_ERR_CE 1).health 0 1).lifeAdd (if unit < 16 then 12 else 15) 1
  if unit < 16 then s1.histAdd unit (stackPlace (unitOf line).2).1 1 else s1.histAdd 16 (unit - 16) 1

/-- Count a hard error. -/
def State.countHard (ev : ErrEv) (s : State) (unit line : Nat) : State :=
  State.errAt ev ((s.fadd (errReg unit) F.STK_ERR_HARD 1).lifeAdd (if unit < 16 then 13 else 16) 1) unit line 1

/-- Count an uncorrectable word. -/
def State.countUe (ev : ErrEv) (s : State) (unit line : Nat) : State :=
  State.errAt ev ((s.fadd (errReg unit) F.STK_ERR_UE 1).lifeAdd (if unit < 16 then 14 else 17) 1) unit line 2

/-- A stack channel, by its number in the package. -/
def State.chan (s : State) (k : Nat) : Chan := Map.get {} s.chans k
/-- Replace a stack channel. -/
def State.setChan (s : State) (k : Nat) (c : Chan) : State := { s with chans := Map.put {} s.chans k c }

/-- A check line as it is read from memory (R329). -/
def State.chkRead (s : State) (bus g : Nat) : ChkLine :=
  { group := g,
    bad := (List.range 8).map fun j =>
      let l := lineOf (16 + bus) (8 * g + j)
      (Map.get 0 s.soft l ^^^ s.cells l) / 2 ^ 512 }

/-- A check line that has been written in its cache is written to memory (R329). -/
def State.chkWrite (s : State) (bus : Nat) (c : ChkLine) : State :=
  if c.dirty then
    { s with soft := forRange 8 (fun j (m : Map Nat) =>
        let l := lineOf (16 + bus) (8 * c.group + j)
        Map.put 0 m l (Map.get 0 m l % 2 ^ 512 + 2 ^ 512 * c.bad.getD j 0)) s.soft }
  else s

/-- Check lines that a capacity controller holds. -/
def chkSize : Nat := 512

/-- A line of a unit is accessed: a stack channel opens its row, and in a capacity controller its check line enters the cache, the least
recently used one leaving it (R312, R329). -/
def State.chkTouch (s : State) (unit n : Nat) : State :=
  if unit < 16 then
    let p := stackPlace n
    let c := s.chan (64 * unit + p.1)
    s.setChan (64 * unit + p.1) { c with rows := c.rows.insert p.2.1 p.2.2 }
  else
    let l := Map.get [] s.chkCache (unit - 16)
    match l.find? fun c => c.group == n / 8 with
    | some c => { s with chkCache := s.chkCache.insert (unit - 16) (c :: l.filter fun c => c.group != n / 8) }
    | none =>
      let s1 := { s with chkCache := s.chkCache.insert (unit - 16) (s.chkRead (unit - 16) (n / 8) :: l.take (chkSize - 1)) }
      (l.drop (chkSize - 1)).foldl (fun s c => s.chkWrite (unit - 16) c) s1

/-- A line of a unit is written: its check bytes are those of its data, in the cache of a capacity controller (R329). -/
def State.chkWrote (s : State) (unit n : Nat) : State :=
  let s1 := s.chkTouch unit n
  if unit < 16 then s1
  else
    { s1 with chkCache := s1.chkCache.insert (unit - 16) ((Map.get [] s1.chkCache (unit - 16)).map fun c =>
        if c.group = n / 8 then { c with dirty := true, bad := setAt c.bad (n % 8) 0 } else c) }

/-- A capacity controller writes its check lines back: those that it has written are clean (R329). -/
def State.chkFlush (s : State) (bus : Nat) : State :=
  let l := Map.get [] s.chkCache bus
  let s1 := l.foldl (fun s c => s.chkWrite bus c) s
  { s1 with chkCache := Map.put [] s1.chkCache bus (l.map fun c => { c with dirty := false }) }

/-- Every line of a capacity frame is written: the check lines that its controller holds of it are those of its data. -/
def State.chkFrame (s : State) (k : Nat) : State :=
  if k * 16384 < capLine0 then s
  else
    let b := (unitOf (k * 16384)).1 - 16
    { s with chkCache := Map.put [] s.chkCache b ((Map.get [] s.chkCache b).map fun c =>
        if lineOf (16 + b) (8 * c.group) / 16384 = k then { c with dirty := true, bad := c.bad.map fun _ => 0 } else c) }

/-- Every capacity controller writes its check lines back. -/
def State.chkFlushAll (s : State) : State := forRange 32 (fun b (s : State) => s.chkFlush b) s

/-- A corrected word is written back and read again; an error that stays is hard (R317). -/
def State.correct (ev : ErrEv) (s : State) (unit line f : Nat) : State :=
  let d := s.mem.rdN (line * 64) 64 ^^^ (s.lineDiff line ^^^ f) % 2 ^ 512
  let s1 := { s.putLine line d with poison := Map.put false s.poison line false }.chkWrote unit (unitOf line).2
  s1.when (rsDecode (s1.lineErr line) != .good) fun s => State.countHard ev s unit line

/-- What a controller does with a word that it has read (R316, R317). -/
def State.decodeLine (ev : ErrEv) (s : State) (line : Nat) : State :=
  let unit := (unitOf line).1
  match (if s.lineErr line = 0 then (if Map.get false s.poison line then .poisoned else .good) else rsDecode (s.lineDiff line)) with
  | .good => s
  | .poisoned => State.errAt ev s unit line 3
  | .corrected f => State.correct ev (s.countCe unit line) unit line f
  | .bad => State.countUe ev s unit line

/-- A controller reads a line. -/
def State.chanRead (ev : ErrEv) (s : State) (line : Nat) : State :=
  let u := unitOf line
  State.decodeLine ev ((s.bwAdd (bwSetOf line) 0 64).chkTouch u.1 u.2) line

/-- A controller has written a line. -/
def State.chanWrote (s : State) (line : Nat) : State :=
  let u := unitOf line
  (s.bwAdd (bwSetOf line) 1 64).chkWrote u.1 u.2

end Sys2Proof.Machine
end

