-- ==== Sys2Proof/Machine/Homes.lean ====
section
/-!
DEFINITION. Homes.lean: the home slices: the snoop filter and the last-level cache, transactions and their end, held writebacks, the
arbiter, the messages between homes and agents, and the accesses of one-way agents (R293 to R309). The memory that a home shows, with its
last-level cache, is `State.mem` (R295). Operations that read a channel are given how it raises the event of its error record.
-/

namespace Sys2Proof.Machine

/-! ### Agents (R297) -/

/-- A caching agent. -/
def caching (ag : Nat) : Bool := decide (ag < 128)
/-- A one-way agent. -/
def oneWay (ag : Nat) : Bool := decide (128 ≤ ag ∧ ag ≤ 349)
/-- A migration engine. -/
def isMigEngine (ag : Nat) : Bool := decide (320 ≤ ag ∧ ag < 336)
/-- The die of an agent: 2 the host die. -/
def agDie (ag : Nat) : Nat :=
  if ag < 96 then 2 else if ag < 128 then (ag - 96) / 16 else if ag < 320 then (ag - 128) / 96 else if ag < 336 then (ag - 320) / 8
  else if ag < 338 then ag - 336 else if ag < 346 then (ag - 338) / 4 else 2
/-- The partition whose ownership an agent passes: none passes every check (R267). The partition of a control core or tile follows from
its herd; an engine serves the partition that its message names. -/
def State.agPart (s : State) (ag part : Nat) : Option (Option Nat) :=
  if ag < 96 || isMigEngine ag || decide (347 ≤ ag) then none
  else if ag < 128 then some (s.partOfHerd ((ag - 96) / 2))
  else if ag < 320 then some (s.partOfTile (ag - 128))
  else some (some part)
/-- An agent passes the ownership check of a partition (R31, R267). -/
def State.agOwns (s : State) (ag part p : Nat) : Bool :=
  match s.agPart ag part with
  | none => true
  | some q => q == some p
/-- An agent reaches the direct windows (R42). -/
def agDirect (ag : Nat) : Bool := decide (ag < 320)
/-- An agent reaches the remote windows (R42). -/
def agRemote (ag : Nat) : Bool := decide (ag < 320) || ag == 336 || ag == 337 || ag == 347

/-- The home serves a line to an agent: its frame holds a range that the agent owns, or it is reserved for direct use by an agent that
reaches the direct windows and owns it, or it takes part in a migration, or its range is being unmapped (R31, R34, R42, R270, R277). -/
def State.lineOk (s : State) (ag part line : Nat) : Bool :=
  let k := line / 16384
  match s.rangeAt k, s.reserved.find? k with
  | some r, _ => s.agOwns ag part (rmPart (s.rm r))
  | none, some o => decide (o < 8) && agDirect ag && s.agOwns ag part o
  | none, none =>
    (s.migs.any fun e =>
      (s.migSrc e.2 == some k && s.agOwns ag part (rmPart (s.rm e.2.req.range))) || (isMigEngine ag && e.2.key == some k))
      || s.rmUpd.any fun e => keyOf e.2.old == some k && s.agOwns ag part (rmPart e.2.old)

/-! ### Caches (R296, R298, R299) -/

/-- The key of a line in an agent's cache. -/
def cacheKey (line ag : Nat) : Nat := 128 * line + ag
/-- What an agent holds of a line. -/
def State.held? (s : State) (line ag : Nat) : Option CLine := s.cache.find? (cacheKey line ag)
/-- Entries of the caches that hold a line. -/
def State.holders (s : State) (line : Nat) : Map CLine := s.cache.filter fun e => e.1 / 128 == line
/-- Agents that hold a line. -/
def State.holderIds (s : State) (line : Nat) : List Nat := (s.holders line).map fun e => e.1 % 128
/-- The owner of a line, in M, E or O, with what it holds (R296). -/
def State.ownerOf (s : State) (line : Nat) : Option (Nat × CLine) :=
  (List.find? (fun e : Nat × CLine => e.2.st != .s) (s.holders line)).map fun e => (e.1 % 128, e.2)
/-- The owner of a line. -/
def State.owner (s : State) (line : Nat) : Option Nat := (s.ownerOf line).map fun e => e.1
/-- A state that is dirty (R298). -/
def CSt.dirty : CSt → Bool
  | .m => true
  | .o => true
  | _ => false
/-- An agent holds the line no more. -/
def State.uncache (s : State) (line ag : Nat) : State := { s with cache := s.cache.erase (cacheKey line ag) }
/-- An agent holds the line in a state. -/
def State.hold (s : State) (line ag : Nat) (c : CLine) : State := { s with cache := s.cache.insert (cacheKey line ag) c }
/-- The agent's DROP of the line has not been answered (R299). -/
def State.dropping (s : State) (line ag : Nat) : Bool := (s.wback.find? (cacheKey line ag)).isSome

/-! ### Messages (R302) -/

/-- CLASS and OP of an operation. -/
def CohOp.code : CohOp → Nat × Nat
  | .send => (2, 0)
  | .kill => (2, 1)
  | .snpDone => (3, 0)
  | .done => (3, 1)
  | .got => (3, 2)
  | .redo => (3, 3)
  | .dropOk => (3, 4)
  | .fail => (3, 5)
  | .line => (4, 0)
  | .lineHome => (4, 1)

/-- CLASS and OP of a request. -/
def TxnKind.code : TxnKind → Nat × Nat
  | .getRead => (0, 0)
  | .getWrite => (0, 0)
  | .claim => (0, 1)
  | .peek => (0, 8)
  | .putFull => (0, 9)
  | .putMasked => (0, 10)
  | .merge => (0, 11)
  | .backInv => (2, 1)

/-- The agent id of the home of a line. -/
def homeId (line : Nat) : Nat := 512 + sliceOf line
/-- A message goes to the home. -/
def CohMsg.toHome (m : CohMsg) : Bool := m.op == .snpDone || m.op == .got || m.op == .lineHome
/-- The agent that sends a message to another agent or receives one: the owner of a forwarded line, or the home. -/
def CohMsg.peer (m : CohMsg) : Nat := if m.op == .line && m.c != 0 then m.c - 1 else homeId m.line
/-- ARG of a message. -/
def CohMsg.arg (m : CohMsg) : Nat :=
  match m.op with
  | .send => m.b * 2 ^ 22 + m.c * 2 ^ 10 + m.a
  | .line => m.b * 2 ^ 3 + m.a
  | .fail => 0
  | _ => m.a
/-- The header of a message. -/
def cohHeader (code : Nat × Nat) (src dst txn line part hint arg : Nat) : Nat :=
  code.1 * 2 ^ 125 + code.2 * 2 ^ 119 + src * 2 ^ 109 + dst * 2 ^ 99 + txn * 2 ^ 87 + line * 2 ^ 37 + part * 2 ^ 34 + hint * 2 ^ 32 + arg
/-- TXN of a message: a snoop carries the number of its home. -/
def CohMsg.txnNo (m : CohMsg) : Nat := if m.op == .send || m.op == .kill then Config.homeTxn m.line % 4096 else m.txn
/-- The header of a message on its way. -/
def CohMsg.header (m : CohMsg) : Nat :=
  if m.toHome then cohHeader m.op.code m.ag (homeId m.line) m.txnNo m.line m.part 0 m.arg
  else cohHeader m.op.code m.peer m.ag m.txnNo m.line m.part 0 m.arg
/-- The header of a DROP (R299). -/
def dropHeader (ag line txn part dirty : Nat) : Nat := cohHeader (1, 0) ag (homeId line) txn line part 0 dirty
/-- The header of a request for a line. -/
def Txn.header (t : Txn) (line : Nat) : Nat :=
  let arg :=
    match t.kind with
    | .getWrite => 1
    | .putMasked => t.mask % 2 ^ 32
    | .merge => t.recAddr % 64 + t.status * 2 ^ 8 + t.mapBits * 2 ^ 16
    | _ => 0
  cohHeader t.kind.code t.ag (homeId line) t.txn line t.part (if t.saved then 3 else 0) arg
/-- The second header word of a PUT_MASKED: the upper half of its mask. -/
def Txn.header2 (t : Txn) : Option Nat := if t.kind = .putMasked then some (t.mask / 2 ^ 32) else none

/-- Bytes of a message on a link: its header, and its data. -/
def CohMsg.bytes (m : CohMsg) : Nat := if m.op == .line || m.op == .lineHome then 80 else 16
/-- Bytes of a request on a link. -/
def Txn.bytes (t : Txn) : Nat :=
  match t.kind with
  | .putFull => 80
  | .merge => 80
  | .putMasked => 96
  | _ => 16

/-- n bytes for a line pass from one die to another. -/
def State.carry (s : State) (a b line n : Nat) : State :=
  match ucieLink a b with
  | none => s
  | some l =>
    match s.ucieModule l line with
    | (some m, again) => (s.when again fun s => s.health 0 1).ucieBytes l m a b n
    | (none, _) => s

/-- A line passes between two dies: there is no link between them, or it has a module that works (R28, R29). -/
def State.linked (s : State) (a b : Nat) : Bool :=
  match ucieLink a b with
  | none => true
  | some l => !s.ucieLost l

/-- An access whose link has no working module ends with an error response (R29, R71). -/
def State.linkRefusal (s : State) (a b : Nat) : State := s.timeoutAt { cls := 5, kind := 8, unit := (ucieLink a b).getD 0, cause := 0x15 }

/-- Where a coherence message comes from and where it goes, as dies. -/
def CohMsg.path (m : CohMsg) : Nat × Nat :=
  let home := homeDie (m.line / 16384)
  (if m.toHome then agDie m.ag else if m.op == .line && m.c != 0 then agDie (m.c - 1) else home, if m.toHome then home else agDie m.ag)

/-- Send a coherence message: it is lost where its link has no working module (R29). -/
def State.post (s : State) (m : CohMsg) : State :=
  if s.linked m.path.1 m.path.2 then
    let s1 := s.carry m.path.1 m.path.2 m.line m.bytes
    { s1 with msgs := s1.msgs ++ [m] }
  else s
/-- An error response that the requester's own side of a link makes, or that of its translation (R36, R71). -/
def State.postHere (s : State) (m : CohMsg) : State := { s with msgs := s.msgs ++ [m] }
/-- A message of an operation on its way to or from an agent for a line. -/
def msgIs (m : CohMsg) (op : CohOp) (ag line : Nat) : Bool := m.op == op && m.ag == ag && m.line == line
/-- The oldest such message arrives. -/
def State.arrive (s : State) (op : CohOp) (ag line : Nat) : Option (CohMsg × State) :=
  match s.msgs.find? fun m => msgIs m op ag line with
  | some m => some (m, { s with msgs := s.msgs.erase m })
  | none => none

/-! ### Busy lines -/

/-- The entry of a busy line. -/
def State.busyAt (s : State) (line : Nat) : Option Busy := s.busy.find? line
/-- Replace the entry of a busy line. -/
def State.setBusy (s : State) (line : Nat) (b : Busy) : State := { s with busy := s.busy.insert line b }
/-- Change the entry of a busy line, where it is one. -/
def State.modBusy (s : State) (line : Nat) (f : Busy → Busy) : State :=
  match s.busyAt line with
  | some b => s.setBusy line (f b)
  | none => s

/-! ### The line as its home shows it (R295, R316) -/

/-- Lines of the last-level cache in a host slice: 3 MiB (R295). -/
def llcSize : Nat := 49152
/-- The last-level cache holds a line. -/
def State.llcHas (s : State) (line : Nat) : Bool := decide (capLine0 ≤ line) && (Map.get [] s.llc (sliceOf line)).contains line
/-- A capacity line is used in the last-level cache of its slice, which drops the least recently used line for it (R295; log entry 29). -/
def State.llcUse (s : State) (line : Nat) : State :=
  if line < capLine0 then s
  else
    let k := sliceOf line
    { s with llc := s.llc.insert k ((line :: (Map.get [] s.llc k).erase line).take llcSize) }
/-- The last-level cache drops a line. -/
def State.llcDrop (s : State) (line : Nat) : State :=
  if s.llcHas line then { s with llc := s.llc.insert (sliceOf line) ((Map.get [] s.llc (sliceOf line)).erase line) } else s

/-- The line reads poisoned or uncorrectable at its home (R316). -/
def State.lineBad (s : State) (line : Nat) : Bool := !s.llcHas line && (s.homeWord line).isNone
/-- The line as its home reads it. -/
def State.homeRead (s : State) (line : Nat) : Nat := if s.llcHas line then s.mem.rdN (line * 64) 64 else (s.homeWord line).getD 0
/-- n bytes of a line as its home reads them. -/
def State.homeBytes (s : State) (f n : Nat) : Nat :=
  if s.llcHas (f / 64) || s.lineErr (f / 64) == 0 then s.mem.rdN f n else bits (s.homeRead (f / 64)) (8 * (f % 64)) (8 * n)

/-- The home reads a line: from the last-level cache, or from its channel, and where `alloc` asks for it the cache takes it (R295). -/
def State.fetch (ev : ErrEv) (s : State) (line : Nat) (alloc : Bool) : State :=
  if s.llcHas line then s.llcUse line
  else (State.chanRead ev s line).when (alloc && !s.lineBad line) fun s => s.llcUse line

/-- A line is written at its home, and marked dirty in a migration (R277). A poisoned line stays so (R316). -/
def State.homeWrite (s : State) (line data : Nat) : State := ((s.putLine line data).markDirty line).chanWrote line
/-- A PUT_FULL clears poison (R316). -/
def State.homeFull (s : State) (line data : Nat) : State :=
  let s1 := s.homeWrite line data
  { s1 with poison := Map.put false s1.poison line false }
/-- n bytes of a line that reads well are written at its home. -/
def State.patch (s : State) (f n v : Nat) : State :=
  let line := f / 64
  let s1 := if s.llcHas line || s.lineErr line == 0 then s else s.putLine line (s.homeRead line)
  ({ s1 with mem := s1.mem.wrN f n v, soft := s1.soft.erase line }.markDirty line).chanWrote line

/-- What the owner of a line has in its cache: nobody outside sees what it writes in M, or in E, which moves the line to M silently (R298). -/
def State.ownerData (s : State) (c : CLine) : Nat × State :=
  match c.st with
  | .o => (c.data, s)
  | _ => (s.draw.1 % 2 ^ 512, s.draw.2)
/-- An open bit. -/
def State.drawBit (s : State) : Bool × State := (s.draw.1 % 2 == 1, s.draw.2)
/-- The owner's copy differs from memory (R298): in E it may have been written silently. -/
def State.ownerDirty (s : State) (c : CLine) : Bool × State :=
  match c.st with
  | .e => s.drawBit
  | .s => (false, s)
  | _ => (true, s)

/-! ### The snoop filter (R295, R296) -/

/-- Entries of the snoop filter of a slice. -/
def filterSize (slice : Nat) : Nat := if slice < 64 then 65536 else 32768

/-- Lines of a slice with an entry of the filter, each once: those that a caching agent holds, and those that one is being given. -/
def State.filterLines (s : State) (slice : Nat) : List Nat :=
  let given (b : Busy) : Bool := match b.cur with | some t => caching t.ag | none => false
  (((s.cache.map fun (e : Nat × CLine) => e.1 / 128) ++ (s.busy.filter fun (e : Nat × Busy) => given e.2).map
    fun (e : Nat × Busy) => e.1).filter fun l => sliceOf l == slice).eraseDups

/-- A use of a line's entry makes it the most recent. -/
def State.filterUse (s : State) (line : Nat) : State :=
  let k := sliceOf line
  { s with snoop := Map.insert s.snoop k (line :: (Map.get [] s.snoop k).erase line) }

/-- The entry that an allocation evicts (R296): none where there is room, otherwise the least recently used that is not busy;
`some none` where every entry is busy. -/
def State.filterVictim (s : State) (line : Nat) : Option (Option Nat) :=
  let k := sliceOf line
  let ls := s.filterLines k
  if ls.contains line || decide (ls.length < filterSize k) then none
  else some ((Map.get [] s.snoop k).reverse.find? fun l => ls.contains l && (s.busyAt l).isNone)

/-! ### The end of a transaction (R303, R307) -/

/-- Send KILL to agents. -/
def State.killAll (s : State) (line : Nat) (ret : Nat → Nat) (ags : List Nat) : State :=
  ags.foldl (fun s g => s.post { op := .kill, ag := g, line := line, a := ret g }) s

/-- The home invalidates every copy of a line, and takes the owner's dirty data (R296, R308): `b` is the entry that the line keeps. -/
def State.invalidate (s : State) (line : Nat) (b : Busy) : State :=
  let own := s.owner line
  (s.setBusy line { b with cur := some { kind := .backInv, ag := homeId line }, snoops := s.holderIds line, fwd := none, got := false,
                           answered := false }).killAll line (fun g => b2n (own == some g)) (s.holderIds line)

/-- An agent's data is written at the home: a line that its partition writes (R290). -/
def State.writeBack (s : State) (line ag data : Nat) : State :=
  (s.chargeBack ((s.agPart ag 0).getD none) (tierOfKey (line / 16384))).homeWrite line data

/-- A writeback is completed (R307): its data is written, or discarded as stale. -/
def State.endDrop (line : Nat) (s : State) (d : HeldDrop) : State :=
  let s1 := if d.how = 2 then s.fadd (R.COH_STAT (sliceOf line)) F.COH_STAT_STALE_WB 1
    else if d.dirty && d.how != 3 then s.writeBack line d.ag d.data else s
  s1.post { op := .dropOk, ag := d.ag, line := line, a := if d.how = 2 then 1 else 0 }

/-- A transaction ends with nothing further to send: writebacks held at the line are completed, and it stays busy only for requests that
wait; in the final phase of a migration the home then invalidates what is still cached (R303, R307, R308). -/
def State.endTxn (s : State) (line : Nat) : State :=
  match s.busyAt line with
  | none => s
  | some b =>
    let s1 := b.drops.foldl (State.endDrop line) s
    if s1.finalLine line && s1.holders line != [] then s1.invalidate line { waiters := b.waiters }
    else if b.waiters = [] then { s1 with busy := s1.busy.erase line }
    else s1.setBusy line { waiters := b.waiters }

/-- The home answers a request with FAIL: 0 poison, 1 decode error, 2 timeout (R309). -/
def State.postFail (s : State) (line : Nat) (t : Txn) (why : Nat) : State :=
  s.post { op := .fail, ag := t.ag, line := line, txn := t.txn, part := t.part, a := why }

/-- FAIL where the request met the requester's own link or translation (R36, R71). -/
def State.failHere (s : State) (line : Nat) (t : Txn) (why : Nat) : State :=
  s.postHere { op := .fail, ag := t.ag, line := line, txn := t.txn, part := t.part, a := why }

/-- A line that cannot be read ends its transaction with FAIL (R309, R316). -/
def State.failTxn (s : State) (line : Nat) (t : Txn) : State := ((s.ueAt line).postFail line t 0).endTxn line

/-- The home sends the line's data to a requester. -/
def State.sendLine (s : State) (line : Nat) (t : Txn) (grant v : Nat) : State :=
  s.post { op := .line, ag := t.ag, line := line, txn := t.txn, part := t.part, a := grant, data := some v }

/-- DONE to a requester. -/
def State.postDone (s : State) (line : Nat) (t : Txn) : State :=
  s.post { op := .done, ag := t.ag, line := line, txn := t.txn, part := t.part }

/-- Bytes of a line under a mask. -/
def maskLine (old new mask : Nat) : Nat :=
  (List.range 64).foldl (fun x i => if bit mask i then setBits x (8 * i) 8 (bits new (8 * i) 8) else x) old

/-! ### Accesses of one-way agents, once their line is idle (R300, R301) -/

/-- The home takes the data of the owner of a line where it is dirty. -/
def State.ownerHome (s : State) (line : Nat) : State :=
  match s.ownerOf line with
  | some (_, c) =>
    match s.ownerDirty c with
    | (true, s1) => (s1.ownerData c).2.homeWrite line (s1.ownerData c).1
    | (false, s1) => s1
  | none => s

/-- No agent holds the line any more: each has been sent KILL and has answered. -/
def State.dropHolders (s : State) (line : Nat) : State :=
  let home := homeDie (line / 16384)
  let s1 := (s.holderIds line).foldl (fun s g => (s.carry home (agDie g) line 16).carry (agDie g) home line 16) s
  { s1 with cache := s1.cache.filter fun e => e.1 / 128 != line }

/-- PEEK of n bytes of a line: the owner's data, or what the home reads; none for a line that cannot be read. -/
def State.rawLoad (ev : ErrEv) (s : State) (f n : Nat) : Option Nat × State :=
  let line := f / 64
  match s.ownerOf line with
  | some (_, c) => (some (bits (s.ownerData c).1 (8 * (f % 64)) (8 * n)), (s.ownerData c).2)
  | none =>
    (if s.lineBad line then none else some (s.homeBytes f n),
     State.fetch ev s line (s.fbit (R.COH_CTL 0) F.COH_CTL_LLC_OW_ALLOC))

/-- PUT_FULL of a whole line, or PUT_MASKED of n bytes of one: false for FAIL. -/
def State.rawStore (ev : ErrEv) (s : State) (f n v : Nat) : Bool × State :=
  let line := f / 64
  if n = 64 then (true, (s.dropHolders line).homeFull line v)
  else
    let s1 := (s.ownerHome line).dropHolders line
    (!s1.lineBad line, let s2 := State.fetch ev s1 line false; if s1.lineBad line then s2 else s2.patch f n v)

/-- PUT_MASKED of the bytes of a line that a mask names: false for FAIL. -/
def State.rawMask (ev : ErrEv) (s : State) (line v mask : Nat) : Bool × State :=
  let s1 := (s.ownerHome line).dropHolders line
  (!s1.lineBad line,
   let s2 := State.fetch ev s1 line false; if s1.lineBad line then s2 else s2.homeWrite line (maskLine (s1.homeRead line) v mask))

/-- A record with a status merged into it (R89). -/
def mergeWord (rec st : Nat) : Nat := setBits rec 6 2 (mergeStatus (readStatus (bits rec 6 2)) st)

/-- The line of the map byte of a MERGE. -/
def Txn.mapLine (t : Txn) : Nat := t.mapAddr / 64
/-- A MERGE writes a map byte in another line than its record's. -/
def Txn.mapsOther (t : Txn) (line : Nat) : Bool := t.kind == .merge && t.mapBits != 0 && t.mapLine != line

/-- The cause with which a MERGE fails at its map byte: 0 a line that cannot be read, 1 an address decode error, 2 a fenced home; none where
it does not (R31, R36, R42, R309, R413). -/
def State.mapBad (s : State) (t : Txn) : Option Nat :=
  if t.mapBits = 0 then none
  else if !homeLine t.mapLine || !s.lineOk t.ag t.part t.mapLine then some 1
  else if s.homeFenced (t.mapLine / 16384) then some 2
  else if (s.owner t.mapLine).isNone && s.lineBad t.mapLine then some 0
  else none

/-- A MERGE fails at its map byte: nothing of it is written. -/
def State.mapFails (s : State) (line : Nat) (t : Txn) (why : Nat) : State :=
  (if why = 1 then s.decodeErr else if why = 2 then s.fenceRefusal 3 (homeDie (t.mapLine / 16384)) else s.ueAt t.mapLine).postFail
    line t why

/-- The atomic update of MERGE at its home (R89, R211, R300): the record, and the map bits where there are any; the map byte may lie in
another line (log entry 45). -/
def State.mergeAt (ev : ErrEv) (s : State) (t : Txn) : State :=
  let s1 := State.fetch ev s (t.recAddr / 64) false
  let s2 := s1.patch t.recAddr 2 (mergeWord (s.homeBytes t.recAddr 2) t.status)
  if t.mapBits = 0 then s2
  else
    match State.rawLoad ev s2 t.mapAddr 1 with
    | (some m, s3) => (State.rawStore ev s3 t.mapAddr 1 (m ||| t.mapBits)).2
    | (none, s3) => s3

/-! ### Transactions (R303 to R307) -/

/-- A write that carries the SAVED_ACT hint (R165, R272). -/
def State.savedAt (s : State) (line : Nat) (t : Txn) : State :=
  s.when t.saved fun s => match s.rangeAt (line / 16384) with | some r => s.savedWrite r | none => s

/-- The answer of the home once every snoop has been answered: it sends what it still owes, and ends the transaction unless a
GOT is awaited (R300, R303, R305). -/
def State.finishTxn (ev : ErrEv) (s : State) (line : Nat) (b : Busy) (t : Txn) : State :=
  let bad := s.lineBad line
  let v := s.homeRead line
  let read (alloc : Bool) : State := State.fetch ev (s.setBusy line { b with answered := true }) line alloc
  let give (grant : Nat) : State := if bad then (read true).failTxn line t else (read true).sendLine line t grant v
  let ended (s : State) : State := if b.got then s else s.endTxn line
  match t.kind with
  | .getRead => if b.answered then ended s else give (if (s.holderIds line).all fun g => g == t.ag then 2 else 1)
  | .getWrite => if b.answered then ended s else give 2
  | .claim => if b.answered then ended s else (s.setBusy line { b with answered := true }).postDone line t
  | .peek =>
    if b.answered then s.endTxn line
    else
      let s1 := read (s.fbit (R.COH_CTL 0) F.COH_CTL_LLC_OW_ALLOC)
      if bad then s1.failTxn line t else (s1.sendLine line t 0 v).endTxn line
  | .putFull => (((s.savedAt line t).homeFull line t.data).postDone line t).endTxn line
  | .putMasked =>
    let s1 := read false
    if bad then s1.failTxn line t
    else (((s1.savedAt line t).homeWrite line (maskLine v t.data t.mask)).postDone line t).endTxn line
  | .merge =>
    if bad then (read false).failTxn line t
    else
      match s.mapBad t with
      | some why => (s.mapFails line t why).endTxn line
      | none => ((State.mergeAt ev s t).postDone line t).endTxn line
  | .backInv => s.endTxn line

/-- No SNP_DONE and no LINE_HOME is awaited for a line. -/
def State.snooped (s : State) (line : Nat) (b : Busy) : Bool := b.snoops == [] && !(s.msgs.any fun m => m.op == .lineHome && m.line == line)

/-- What the transaction has left to do reaches the channel of its line. -/
def Busy.reaches (b : Busy) (t : Txn) : Bool :=
  match t.kind with
  | .claim => false
  | .backInv => false
  | .putFull => true
  | .putMasked => true
  | .merge => true
  | _ => !b.answered

/-- A transaction waits where its line's channel does for a refresh slot, or where the line of its map byte is busy, but with a MERGE that
awaits nothing (R62, R300, R303). -/
def State.parks (s : State) (line : Nat) (b : Busy) (t : Txn) : Bool :=
  (b.reaches t && s.slotWait (unitOf line).1)
    || (t.mapsOther line && (s.slotWait (unitOf t.mapLine).1
      || match s.busyAt t.mapLine with
         | some o => !(s.snooped t.mapLine o && o.cur.any fun c => c.kind == .merge)
         | none => false))

/-- A transaction goes on: it is finished once no SNP_DONE and no LINE_HOME is awaited, and it need not wait. -/
def State.goTxn (ev : ErrEv) (s : State) (line : Nat) : State :=
  match s.busyAt line with
  | some b =>
    match b.cur with
    | some t =>
      if !s.snooped line b then s
      else if s.parks line b t then s.setBusy line { b with parked := true }
      else State.finishTxn ev s line { b with parked := false } t
    | none => s
  | none => s

/-- Transactions that wait go on as far as they can: those of lines that `which` names. -/
def State.unpark (ev : ErrEv) (which : Nat → Txn → Bool) (s : State) : State :=
  s.busy.foldl (fun s (e : Nat × Busy) => if e.2.parked && e.2.cur.any (which e.1) then State.goTxn ev s e.1 else s) s

/-- The snoops that a request sends, and whether the owner answers the requester: PASS of the SEND (none sends no SEND), and the
holders that receive KILL (R300, R305, R306). -/
def State.snoopsOf (s : State) (line : Nat) (t : Txn) : Option (Nat × Nat) × List Nat :=
  let others := (s.holderIds line).filter fun g => g != t.ag
  let own := (s.owner line).filter fun g => g != t.ag
  match t.kind with
  | .getRead => (own.map fun o => (o, 1), [])
  | .getWrite => (own.map fun o => (o, 2), others.filter fun g => some g != own)
  | .peek => (own.map fun o => (o, 0), [])
  | _ => (none, others)

/-- Start a request at its home (R303); `b` is the entry that the line keeps. A CLAIM of an agent that no longer holds the line is a GET
writable (R306). -/
def State.startTxn (ev : ErrEv) (s : State) (line : Nat) (q : Txn) (b : Busy) : State :=
  let t := if q.kind = .claim ∧ (s.held? line q.ag).isNone then { q with kind := .getWrite } else q
  let sn := s.snoopsOf line t
  let takes : Bool := t.kind == .putMasked || t.kind == .merge
  let own := s.owner line
  let s1 := s.setBusy line { b with cur := some t, snoops := (sn.1.map fun o => o.1).toList ++ sn.2, fwd := sn.1.map fun o => o.1,
                                    got := caching t.ag, answered := sn.1.isSome, victim := none }
  let s2 :=
    match sn.1 with
    | some o => s1.post { op := .send, ag := o.1, line := line, part := t.part, a := o.2, b := t.ag, c := t.txn }
    | none => s1
  State.goTxn ev (s2.killAll line (fun g => b2n (takes && own == some g)) sn.2) line

/-- A request begins: where the snoop filter has no entry for the line, it waits at the line until the home has freed the entry of
another, or until one of the entries ceases to be busy (R296). -/
def State.beginTxn (ev : ErrEv) (s : State) (line : Nat) (t : Txn) (b : Busy) : State :=
  match if caching t.ag then s.filterVictim line else none with
  | none => State.startTxn ev (s.when (caching t.ag) fun s => s.filterUse line) line t b
  | some none => s.setBusy line { b with cur := none, waiters := t :: b.waiters }
  | some (some v) =>
    ((s.setBusy line { b with cur := none, waiters := t :: b.waiters, victim := some v }).fadd (R.COH_SF (sliceOf line))
      F.COH_SF_BACK_INV 1).invalidate v {}

/-- The oldest waiting request of a line without a transaction starts, but in a final phase (R303, R308), and unless the entry that it
needs is still being freed; the longest wait is kept. -/
def State.serveLine (ev : ErrEv) (s : State) (line : Nat) : State :=
  match s.busyAt line with
  | none => s
  | some b =>
    match b.cur, b.waiters with
    | none, t :: r =>
      if s.finalLine line || b.victim.any fun v => (s.busyAt v).any fun x => x.cur.any fun c => c.kind == .backInv then s
      else
        let g := R.COH_BUSY (sliceOf line)
        let w := min 65535 (s.clk.cyc - t.since)
        State.beginTxn ev (s.fset g F.COH_BUSY_MAX_WAIT (max (s.fget g F.COH_BUSY_MAX_WAIT) w)) line t { b with waiters := r }
    | _, _ => s

/-! ### Acceptance and arbitration (R295, R302 to R304) -/

/-- The rotating pointer of a slice as the cycle found it. -/
def State.arbPtr (s : State) (slice : Nat) : Nat :=
  let a := Map.get {} s.arb slice
  if a.cycle = some s.clk.cyc then a.was else a.ptr

/-- COH_CTL.ARB of the block of a slice. -/
def State.arbFixed (s : State) (slice : Nat) : Bool :=
  s.fbit (R.COH_CTL (if slice < 64 then 0 else 64 + 32 * ((slice - 64) / 32))) F.COH_CTL_ARB

/-- Rank of an agent for the arbiter: by its id from the rotating pointer on, or by its id. -/
def State.arbRank (s : State) (slice ag : Nat) : Nat :=
  if s.arbFixed slice then ag else (ag + 1024 - s.arbPtr slice) % 1024

/-- The pointer moves past a winner. -/
def State.arbWin (s : State) (slice ag : Nat) : State :=
  if s.arbFixed slice then s
  else { s with arb := Map.put {} s.arb slice { ptr := (ag + 1) % 1024, was := s.arbPtr slice, cycle := some s.clk.cyc } }

/-- A request stores the whole record that another merges a status into (R90). -/
def Txn.stores (t w : Txn) : Bool :=
  let o := w.recAddr % 64
  w.kind == .merge && (t.kind == .putFull || (t.kind == .putMasked && bit t.mask o && bit t.mask (o + 1)))

/-- Of two requests of one cycle the first goes first: a store of a record goes before a merge into it, and the arbiter orders the others
(R90, R304). -/
def Txn.before (rank : Nat → Nat) (t w : Txn) : Bool := t.stores w || (!w.stores t && decide (rank t.ag < rank w.ag))

/-- A request joins those that wait: behind those of earlier cycles, and among those of its own cycle in their order. -/
def insertTxn (rank : Nat → Nat) (t : Txn) : List Txn → List Txn
  | [] => [t]
  | w :: r => if w.since = t.since ∧ t.before rank w then t :: w :: r else w :: insertTxn rank t r

/-- The agent that the arbiter puts first. -/
def bestAgent (rank : Nat → Nat) (l : List Txn) (ag : Nat) : Nat := l.foldl (fun g t => if rank t.ag < rank g then t.ag else g) ag

/-- A message that a transaction exchanges before it ends. -/
def CohMsg.live (m : CohMsg) (line : Nat) : Bool :=
  m.line == line && (m.op != .dropOk && m.op != .redo && m.op != .fail)

/-- Nothing that the transaction in progress has sent has arrived. -/
def State.untouched (s : State) (line : Nat) (b : Busy) (c : Txn) : Bool :=
  let ms := s.msgs.filter fun m => m.live line
  ms.length == max 1 b.snoops.length && b.got == caching c.ag
    && ms.all fun m => m.op == .send || m.op == .kill || (m.ag == c.ag && (m.op == .done || (m.op == .line && m.c == 0)))

/-- A request reaches a busy line (R303, R304): it waits, and the arbiter orders those that reached the line in one cycle. Where that puts
it before the request in progress, of which no message has arrived yet, it goes first and the other waits. -/
def State.join (ev : ErrEv) (s : State) (line : Nat) (b : Busy) (t : Txn) : State :=
  let slice := sliceOf line
  let mates := (b.cur.toList ++ b.waiters).filter fun w => w.since == t.since && w.kind != .backInv
  if mates = [] then s.setBusy line { b with waiters := b.waiters ++ [t] }
  else
    let rank := s.arbRank slice
    let s1 := s.arbWin slice (bestAgent rank mates t.ag)
    match b.cur with
    | some c =>
      if c.since == t.since && t.before rank c && s.untouched line b c then
        State.beginTxn ev { s1 with msgs := s1.msgs.filter fun m => !m.live line } line t
          { b with cur := none, waiters := insertTxn rank c b.waiters }
      else s1.setBusy line { b with waiters := insertTxn rank t b.waiters }
    | none => s1.setBusy line { b with waiters := insertTxn rank t b.waiters }

/-- What a request that ends at once makes of its line. -/
def Txn.onLine (t : Txn) (v : Nat) : Nat :=
  match t.kind with
  | .putFull => t.data
  | .putMasked => maskLine v t.data t.mask
  | .merge =>
    let o := 8 * (t.recAddr % 64)
    let v1 := setBits v o 16 (mergeWord (bits v o 16) t.status)
    if t.mapBits ≠ 0 ∧ t.mapLine = t.recAddr / 64 then
      setBits v1 (8 * (t.mapAddr % 64)) 8 (bits v1 (8 * (t.mapAddr % 64)) 8 ||| t.mapBits)
    else v1
  | _ => v

/-- The answers to reads of a line among requests that take effect in an order, and the line after them. -/
def runTxns (line : Nat) : List Txn → Nat → List CohMsg → Nat × List CohMsg
  | [], v, ms => (v, ms)
  | t :: l, v, ms =>
    runTxns line l (t.onLine v) (if t.kind = .peek then
      ms.map fun m => if m.op == .line && m.line == line && m.ag == t.ag && m.txn == t.txn && m.c == 0 then { m with data := some v } else m
      else ms)

/-- A request has ended in the cycle in which it reached its line, `s` before it: it takes effect among the others that did so in the order
of the arbiter and of R90 (R304; log entry 31). -/
def State.sameCycle (s s2 : State) (line : Nat) (t : Txn) : State :=
  let slice := sliceOf line
  let now := s2.clk.cyc
  let r : Recent :=
    match s.recent.find? line with
    | some r => if r.cycle = now ∧ r.after = s.homeRead line then r else { cycle := now, before := s.homeRead line, after := 0 }
    | none => { cycle := now, before := s.homeRead line, after := 0 }
  let l := insertTxn (s2.arbRank slice) t r.txns
  let z := runTxns line l r.before s2.msgs
  let s3 := if r.txns = [] then s2 else s2.arbWin slice (bestAgent (s2.arbRank slice) r.txns t.ag)
  let s4 := if l = r.txns ++ [t] then s3 else { s3 with mem := s3.mem.wrN (line * 64) 64 z.1, msgs := z.2 }
  { s4 with recent := Map.insert (s4.recent.filter fun (e : Nat × Recent) => e.2.cycle == now) line
                      { r with after := s4.homeRead line, txns := l } }

/-- The home accepts a request (R303). -/
def State.accept (ev : ErrEv) (s : State) (line : Nat) (q : Txn) : State :=
  let t := { q with since := s.clk.cyc }
  let s1 := s.fadd (R.COH_STAT (sliceOf line)) F.COH_STAT_REQS 1
  match s1.busyAt line with
  | some b => State.join ev s1 line b t
  | none =>
    if s1.finalLine line then s1.setBusy line { waiters := [t] }
    else
      let s2 := State.beginTxn ev s1 line t {}
      if (s2.busyAt line).isSome || s1.lineBad line then s2 else s1.sameCycle s2 line t

/-- Entries of the request buffer of a slice in use: one for each request from its acceptance to its end (R295; log entry 31). -/
def State.bufUsed (s : State) (slice : Nat) : Nat :=
  sumList ((s.busy.filter fun e => sliceOf e.1 == slice).map fun e =>
    e.2.waiters.length + b2n (e.2.cur.any fun t => t.kind != .backInv))

/-- Entries of a request buffer. -/
def bufSize : Nat := 256

/-- Requests that wait in the channel of a slice are accepted as its buffer has room (R302); at most `n` of them. -/
def State.acceptAll (ev : ErrEv) (slice : Nat) : Nat → State → State
  | 0, s => s
  | n + 1, s =>
    match Map.get [] s.reqQ slice with
    | [] => s
    | (line, q) :: r =>
      if s.bufUsed slice < bufSize then
        State.acceptAll ev slice n (State.accept ev { s with reqQ := Map.put [] s.reqQ slice r } line q)
      else s

/-- What follows an answer at a home: a MERGE that waits for the line goes on, and requests that wait in the channel of its slice are
accepted as there is room. -/
def State.admitAt (ev : ErrEv) (line : Nat) (s : State) : State :=
  let s1 := State.unpark ev (fun l t => t.mapsOther l && t.mapLine == line) s
  State.acceptAll ev (sliceOf line) (Map.get [] s1.reqQ (sliceOf line)).length s1

/-! ### What agents and homes do with a message (R302 to R309) -/

/-- SNP_DONE of a holder. -/
def State.snpDone (s : State) (line ag flags : Nat) : State := s.post { op := .snpDone, ag := ag, line := line, a := flags }

/-- What an owner keeps after a SEND (R305): PASS 0 READER, 1 SHARED, 2 OWNER. -/
def State.afterSend (s : State) (line owner pass : Nat) (c : CLine) : State :=
  if pass = 2 then s.uncache line owner
  else if pass = 1 then s.hold line owner { c with st := match c.st with | .e => .s | .m => .o | x => x }
  else s

/-- The grant that a SEND gives the requester, and whether its data is dirty (R305): S is 1, E is 2, M is 3. -/
def sendGrant (pass : Nat) (dirty : Bool) : Nat × Nat :=
  if pass = 2 then (if dirty then (3, 1) else (2, 0)) else if pass = 1 then (1, 0) else (0, 0)

/-- A SEND arrives (R305): it is answered from the cache, from the writeback buffer (R307), or with NONE. The data of a line that the
owner may have written since it took it comes with the arrival of its LINE. -/
def State.takeSend (s : State) (m : CohMsg) : State :=
  match s.wback.find? (cacheKey m.line m.ag), s.held? m.line m.ag with
  | some w, _ =>
    if w.st.dirty then
      let g := sendGrant m.a true
      (s.post { op := .line, ag := m.b, line := m.line, txn := m.c, part := m.part, a := g.1, b := g.2, c := m.ag + 1,
                data := some w.data }).snpDone m.line m.ag 5
    else s.snpDone m.line m.ag 12
  | none, some c =>
    if c.st = .s then s.snpDone m.line m.ag 8
    else
      let g := sendGrant m.a c.st.dirty
      ((s.afterSend m.line m.ag m.a c).post
        { op := .line, ag := m.b, line := m.line, txn := m.c, part := m.part, a := g.1, b := g.2, c := m.ag + 1,
          data := if c.st = .o then some c.data else none }).snpDone m.line m.ag 1
  | none, none => s.snpDone m.line m.ag 8

/-- A KILL arrives (R300, R307): with RETURN = 1 dirty data goes to the home first, also that of a line in E that has been written
silently (R298). -/
def State.takeKill (s : State) (m : CohMsg) : State :=
  match s.wback.find? (cacheKey m.line m.ag), s.held? m.line m.ag with
  | some w, _ =>
    if w.st.dirty then (s.post { op := .lineHome, ag := m.ag, line := m.line, data := some w.data }).snpDone m.line m.ag 6
    else s.snpDone m.line m.ag 12
  | none, some c =>
    let s1 := s.uncache m.line m.ag
    if m.a = 1 then
      match s1.ownerDirty c with
      | (true, s2) =>
        (s2.post { op := .lineHome, ag := m.ag, line := m.line, data := if c.st = .o then some c.data else none }).snpDone m.line m.ag 2
      | (false, s2) => s2.snpDone m.line m.ag 0
    else s1.snpDone m.line m.ag 0
  | none, none => s.snpDone m.line m.ag 8

/-- How a held writeback is completed, by the flags of the snoop's answer (R307). -/
def dropHow (flags : Nat) (kind : TxnKind) : Nat :=
  if bit flags 1 then 2 else if bit flags 0 then (if kind = .getWrite then 2 else 1) else 3

/-- The home takes the answer of a holder (R303, R307): where the owner that was to forward the line does not hold it, the home supplies
it. -/
def Busy.snpDone (b : Busy) (ag flags : Nat) : Busy :=
  let kind := match b.cur with | some t => t.kind | none => .backInv
  { b with snoops := b.snoops.filter fun g => g != ag,
           answered := b.answered && !(bit flags 3 && b.fwd == some ag),
           drops := b.drops.map fun d => if bit flags 2 && d.ag == ag then { d with how := dropHow flags kind } else d }

/-- An SNP_DONE arrives. -/
def State.takeSnpDone (ev : ErrEv) (s : State) (m : CohMsg) : State :=
  State.goTxn ev (s.modBusy m.line fun b => b.snpDone m.ag m.a) m.line

/-- A LINE_HOME arrives with its data: the home writes it and marks it dirty in a migration (R277). -/
def State.takeLineHome (ev : ErrEv) (s : State) (m : CohMsg) (data : Nat) : State :=
  State.goTxn ev (s.writeBack m.line m.ag (m.data.getD data)) m.line

/-- A DONE arrives: a CLAIM is granted, and a one-way write is complete. -/
def State.takeDone (s : State) (m : CohMsg) : State :=
  if caching m.ag then
    match s.held? m.line m.ag with
    | some c => (s.hold m.line m.ag { c with st := .m }).post { op := .got, ag := m.ag, line := m.line, txn := m.txn, part := m.part }
    | none => s.post { op := .got, ag := m.ag, line := m.line, txn := m.txn, part := m.part }
  else s

/-- A GOT arrives. -/
def State.takeGot (ev : ErrEv) (s : State) (m : CohMsg) : State :=
  State.goTxn ev (s.modBusy m.line fun b => { b with got := false }) m.line

/-- The state that a grant names. -/
def grantSt (g : Nat) : CSt := if g = 3 then .m else if g = 2 then .e else .s

/-- An owner thought to be in E that passed on changed data had written it silently, and keeps it dirty in O (R298, R305). -/
def State.ownerWrote (s : State) (line ref data : Nat) : State :=
  if ref = 0 then s
  else
    match s.held? line (ref - 1) with
    | some c =>
      if c.st = .s ∧ data ≠ s.homeRead line then s.hold line (ref - 1) { st := .o, data := data }
      else s.hold line (ref - 1) { c with data := data }
    | none => s

/-- A LINE arrives with its data: a caching requester installs the line in the granted state and answers GOT; a one-way reader takes the
data. Whether the data of an owner in E is dirty comes with it. -/
def State.takeLine (s : State) (m : CohMsg) (data dirty : Nat) : State :=
  let v := m.data.getD data
  let g := if m.a = 2 ∧ m.data = none ∧ dirty = 1 then 3 else m.a
  let s1 := s.ownerWrote m.line m.c v
  if caching m.ag then
    (s1.hold m.line m.ag { st := grantSt g, data := v }).post { op := .got, ag := m.ag, line := m.line, txn := m.txn, part := m.part }
  else s1

/-! ### A line comes to rest -/

/-- A message moves the transaction of its line on. -/
def CohMsg.moves (m : CohMsg) : Bool :=
  match m.op with
  | .line => caching m.ag
  | .done => caching m.ag
  | .redo => false
  | .dropOk => false
  | .fail => false
  | _ => true

/-- A message on its way arrives, whatever data it brings. -/
def State.land (ev : ErrEv) (s : State) (m : CohMsg) : State :=
  let s1 := { s with msgs := s.msgs.erase m }
  let d := if m.data.isSome then (0, s1) else s1.draw
  match m.op with
  | .send => s1.takeSend m
  | .kill => s1.takeKill m
  | .snpDone => State.takeSnpDone ev s1 m
  | .lineHome => State.takeLineHome ev d.2 m (d.1 % 2 ^ 512)
  | .line => if m.data.isSome then s1.takeLine m 0 0 else d.2.draw.2.takeLine m (d.1 % 2 ^ 512) (d.2.draw.1 % 2)
  | .done => s1.takeDone m
  | .got => State.takeGot ev s1 m
  | _ => s1

/-- Lines on which the transaction of a busy line waits: that whose filter entry is being freed, and that of its map byte. -/
def Busy.others (b : Busy) (line : Nat) : List Nat :=
  b.victim.toList ++ match b.cur with | some t => if t.mapsOther line then [t.mapLine] else [] | none => []

/-- What is on its way for a line, and for a line on which it waits, arrives, and requests that wait are served; at most `n` steps. -/
def State.settleN (ev : ErrEv) (line : Nat) : Nat → State → State
  | 0, s => s
  | n + 1, s =>
    let others := match s.busyAt line with | some b => b.others line | none => []
    match s.msgs.find? fun m => m.moves && (m.line == line || others.contains m.line) with
    | some m => State.settleN ev line n (State.unpark ev (fun l t => l == line && t.mapLine == m.line) (State.land ev s m))
    | none =>
      match s.busyAt line with
      | some b => if b.cur.isNone && b.waiters != [] && !s.finalLine line then State.settleN ev line n (State.serveLine ev s line) else s
      | none => s

/-- A line comes to rest: the requests that its home has accepted take effect (R293). -/
def State.settle (ev : ErrEv) (s : State) (line : Nat) : State :=
  match s.busyAt line with
  | none => if s.msgs.any fun m => m.moves && m.line == line then State.settleN ev line 1024 s else s
  | some b => State.settleN ev line (2048 * (b.waiters.length + 1)) s

/-- A migration engine reads a line as its home orders it: with what its owner holds, and none for a line that cannot be read (R277,
R301). -/
def State.peekLine (ev : ErrEv) (s : State) (line : Nat) : Option Nat × State :=
  State.rawLoad ev ((State.settle ev s line).fadd (R.COH_STAT (sliceOf line)) F.COH_STAT_REQS 1) (line * 64) 64

/-! ### Loads and stores of one-way agents (R293, R300, R301) -/

/-- An access to a line in the final phase of a migration waits there, and is answered with REDO at unblock (R308). -/
def State.waitsFinal (s : State) (line : Nat) : State :=
  if s.finalLine line then
    { s with migs := s.migs.map fun e =>
        if s.migSrc e.2 == some (line / 16384) then (e.1, { e.2 with redone := e.2.redone ++ [line] }) else e }
  else s

/-- The home orders an access behind the requests that it has accepted, and counts it. -/
def State.ordered (ev : ErrEv) (s : State) (line : Nat) : State :=
  ((State.settle ev s line).waitsFinal line).fadd (R.COH_STAT (sliceOf line)) F.COH_STAT_REQS 1

/-- Load n bytes at a frame address within one line; none for a line that cannot be read. -/
def State.homeLoad (ev : ErrEv) (s : State) (f n : Nat) : Option Nat × State := State.rawLoad ev (State.ordered ev s (f / 64)) f n

/-- Store n bytes at a frame address within one line; false where the line cannot be read for it. -/
def State.homeStore (ev : ErrEv) (s : State) (f n v : Nat) : Bool × State := State.rawStore ev (State.ordered ev s (f / 64)) f n v

/-- Store the bytes of a line that a mask names; false where the line cannot be read for it. -/
def State.homeMask (ev : ErrEv) (s : State) (line v mask : Nat) : Bool × State := State.rawMask ev (State.ordered ev s line) line v mask

end Sys2Proof.Machine
end

