-- ==== Sys2Proof/Machine/Flags.lean ====
section
/-!
DEFINITION. Flags.lean: every flag and status computation of the tile: the sticky flags of TIL_VSTATUS (R104, R149), the
block status that a written element asks for (R89, R144, R488), the merge and the replacement of the block statuses of
data registers (R126, R136) and of the records of a view (R125), and the masked write of an active area (R138, R139).
-/

namespace Sys2Proof.Machine

/-- One element as an instruction writes it: what it writes and reports, and whether a source that contributed to it has
a non-finite status (R144). -/
structure Out where
  res : Res
  nf : Bool := false
deriving DecidableEq, Repr

/-- The status that the element asks for (R144). -/
def Out.status (o : Out) : Nat := if o.nf then 2 else o.res.status

/-- The positions of an active area, row by row (R138). -/
def area (vr vl : Nat) : List (Nat × Nat) := (List.range vr).flatMap fun r => (List.range vl).map fun c => (r, c)

/-- An element written at a position. -/
structure Wr where
  r : Nat
  c : Nat
  out : Out
deriving DecidableEq, Repr

/-- The elements that a masked instruction writes: its results at the positions kept, zeros at the masked-off positions
under MZ (R139), also in an invalid block (log entry 95). -/
def maskedWrites (t : Tile) (men : Bool) (mask : Nat) (mz : Bool) (vr vl : Nat) (f : Nat → Nat → Out) : List Wr :=
  (area vr vl).filterMap fun p =>
    if t.unmasked men mask p.1 p.2 then some ⟨p.1, p.2, f p.1 p.2⟩
    else if mz then some ⟨p.1, p.2, { res := { code := 0 } }⟩
    else none

/-- The sticky flags that a list of writes sets. -/
def writeFlags (ws : List Wr) : Nat := ws.foldl (fun a w => joinFlags a w.out.res.flags) 0

/-- The merged status of the writes that fall into column block q. -/
def statusOf (ws : List Wr) (q : Nat) : Nat :=
  ws.foldl (fun a w => if w.c / 16 = q then mergeStatus a w.out.status else a) 0

/-- Some write falls into column block q. -/
def touches (ws : List Wr) (q : Nat) : Bool := ws.any fun w => w.c / 16 == q

/-- All 256 elements of column block q are written (R136). -/
def fillsBlock (ws : List Wr) (q : Nat) : Bool := (ws.filter fun w => w.c / 16 == q).length == 256

/-- Merge or replace the status of block q of register n after writes (R126, R136). -/
def putRstat (n : Nat) (ws : List Wr) (t : Tile) (q : Nat) : Tile :=
  if touches ws q then
    t.setRstat n q (if fillsBlock ws q then statusOf ws q else mergeStatus (readStatus (t.rstat n q)) (statusOf ws q))
  else t

/-- Write elements into data register n, with its block statuses. -/
def Tile.writeReg (t : Tile) (n : Nat) (ws : List Wr) : Tile :=
  (List.range 8).foldl (putRstat n ws) (ws.foldl (fun t w => t.setTreg n w.r w.c w.out.res.code) t)

/-- Write fawn register m at the positions of writes of a value register, and give each block that they touch the status that the block of
the value register gets: it replaces that of m where all 256 elements are written, and is merged into it otherwise (R126, R145; log entry
114). -/
def Tile.writeRegAs (t : Tile) (m : Nat) (ws : List Wr) (code : Wr → Nat) : Tile :=
  (List.range 8).foldl (putRstat m ws) (ws.foldl (fun t w => t.setTreg m w.r w.c (code w)) t)

/-- Merge a status into the record of block (bi, bj) of a view that carries records (R89, R125). -/
def Tile.mergeRec (t : Tile) (v : View) (bi bj st : Nat) : Tile :=
  if v.recEn then
    let a := v.recAddr bi bj
    let r := t.mem.rdN a 2
    { t with mem := t.mem.wrN a 2 (setBits r 6 2 (mergeStatus (readStatus (bits r 6 2)) st)) }
  else t

/-- Write one element of a view and merge its status into its block's record. -/
def Tile.setView (t : Tile) (v : View) (i j : Nat) (o : Out) : Tile :=
  if v.holds i j then
    ({ t with mem := t.mem.setElem v.fmt (v.addr i j) j o.res.code } : Tile).mergeRec v (i / 16) (j / 16) o.status
  else t

/-- Write elements into a view at an origin (R179). -/
def Tile.writeView (t : Tile) (v : View) (orow ocol : Nat) (ws : List Wr) : Tile :=
  ws.foldl (fun t w => t.setView v (orow + w.r) (ocol + w.c) w.out) t

/-- The sticky flags of writes that fall inside a view. -/
def viewFlags (v : View) (orow ocol : Nat) (ws : List Wr) : Nat :=
  writeFlags (ws.filter fun w => v.holds (orow + w.r) (ocol + w.c))

/-- Blocks of data register n that writes fall into and that read non-finite after them (R458). -/
def regNf (t : Tile) (n : Nat) (ws : List Wr) : Nat :=
  ((List.range 8).filter fun q => touches ws q && readStatus (t.rstat n q) == 2).length

/-- Blocks of a view at these positions whose records read non-finite (R458). -/
def viewNf (t : Tile) (v : View) (ps : List (Nat × Nat)) : Nat :=
  if v.recEn then
    (((ps.filter fun p => v.holds p.1 p.2).map fun p => (p.1 / 16, p.2 / 16)).dedup.filter fun b =>
      recStatus (t.vRec v b.1 b.2) == 2).length
  else 0

/-- Write elements into data register n: the tile, and the flags. -/
def Tile.putReg (t : Tile) (n : Nat) (ws : List Wr) : Tile × Nat :=
  (t.writeReg n ws, blockFlags (writeFlags ws) (regNf (t.writeReg n ws) n ws))

/-- Write elements into a view: the tile, and the flags. -/
def Tile.putView (t : Tile) (v : View) (orow ocol : Nat) (ws : List Wr) : Tile × Nat :=
  (t.writeView v orow ocol ws,
   blockFlags (viewFlags v orow ocol ws)
     (viewNf (t.writeView v orow ocol ws) v (ws.map fun w => (orow + w.r, ocol + w.c))))

/-- A code is a NaN or an infinity of an element format. -/
def codeNonfinite (f : Fmt) (code : Nat) : Bool := (fmtValue f code).nonfinite

/-- An integer result held to w bits, with ARITH_OVF when it is held (R142, R490). -/
def intRes (w : Nat) (i : Int) : Res :=
  { code := ofInt w (satInt w i).1, arOvf := (satInt w i).2 }

end Sys2Proof.Machine
end

