-- ==== Sys2Proof/Machine/Vector.lean ====
section
/-!
DEFINITION. Vector.lean: what the vector engine computes (spec/05_vector_engine.md): element-wise operations, pair-add,
conversions and moves, reductions, permutations and the summary of one tile. Each works on one tile and answers the tile
with the sticky flags it sets.
-/

namespace Sys2Proof.Machine

/-- The arithmetic rounding of an exact result over its operands: a NaN operand gives the canonical NaN without a flag,
and an undefined result sets ARITH_INVALID (R95, R141). -/
def arithRes (f : FF) (rnd : Rnd) (operands : List XVal) (x : XVal) : Res :=
  if operands.any XVal.isNan then { code := f.nanCode, nonfin := true }
  else if x.isNan then f.undefined
  else f.arith rnd x

/-- The numeric context of a segment: keys, SR_EN and E4M3_INF. -/
structure NumCtx where
  seed : Nat
  step : Nat
  srEn : Bool
  e4inf : Bool
deriving DecidableEq, Repr

/-- The keys of KEYGRP in a numeric context. -/
def NumCtx.keys (n : NumCtx) (t : Tile) (g : Nat) : Keys := t.keys n.seed n.step g

/-- The element function of ADD. -/
def addOut (n : NumCtx) (t : Tile) (o : VecOps) (r c : Nat) : Out :=
  let a := t.srcVal o.ty o.a r c
  let b := t.srcVal o.ty o.b r c
  let k := n.keys t o.keygrp
  { res := arithRes (vtyFF o.ty) (k.rnd o.sr n.srEn (k.regIndex r c)) [a, b] (a.add b),
    nf := t.srcStat o.a c == 2 || t.srcStat o.b c == 2 }

/-- The element function of MUL. -/
def mulOut (n : NumCtx) (t : Tile) (o : VecOps) (r c : Nat) : Out :=
  let a := t.srcVal o.ty o.a r c
  let b := t.srcVal o.ty o.b r c
  let k := n.keys t o.keygrp
  { res := arithRes (vtyFF o.ty) (k.rnd o.sr n.srEn (k.regIndex r c)) [a, b] (a.mul b),
    nf := t.srcStat o.a c == 2 || t.srcStat o.b c == 2 }

/-- The element function of FMA. -/
def fmaOut (n : NumCtx) (t : Tile) (o : VecOps) (r c : Nat) : Out :=
  let a := t.srcVal o.ty o.a r c
  let b := t.srcVal o.ty o.b r c
  let d := t.srcVal o.ty o.c r c
  let k := n.keys t o.keygrp
  { res := arithRes (vtyFF o.ty) (k.rnd o.sr n.srEn (k.regIndex r c)) [a, b, d] ((a.mul b).add d),
    nf := t.srcStat o.a c == 2 || t.srcStat o.b c == 2 || t.srcStat o.c c == 2 }

/-- The element that MIN or MAX takes: `first` says whether the first operand's value is the result (R91, R493). -/
def pickOut (t : Tile) (o : VecOps) (r c : Nat) (first : XVal → XVal → Bool) : Out :=
  let f := vtyFF o.ty
  let ra := t.srcCode o.ty o.a r c
  let rb := t.srcCode o.ty o.b r c
  let a := f.value ra.code
  let b := f.value rb.code
  let ovf := ra.cvtOvf || rb.cvtOvf
  let nf := t.srcStat o.a c == 2 || t.srcStat o.b c == 2
  if a.isNan && b.isNan then { res := { code := f.nanCode, cvtOvf := ovf, nonfin := true }, nf := nf }
  else
    let useA := b.isNan || (!a.isNan && first a b)
    let w := if useA then ra else rb
    { res := { code := w.code, cvtOvf := ovf, sat := w.sat, nonfin := (f.value w.code).nonfinite }, nf := nf }

/-- The element function of MIN. -/
def minOut (t : Tile) (o : VecOps) (r c : Nat) : Out := pickOut t o r c fun a b => !b.totLt a

/-- The element function of MAX. -/
def maxOut (t : Tile) (o : VecOps) (r c : Nat) : Out := pickOut t o r c fun a b => !a.totLt b

/-- The element function of SEL: source C names the mask (R140, R178). Both sources are converted first, with their flags (R493). -/
def selOut (t : Tile) (o : VecOps) (r c : Nat) : Out :=
  let ra := t.srcCode o.ty o.a r c
  let rb := t.srcCode o.ty o.b r c
  let first := t.mask o.c.reg r c
  let w := if first then ra else rb
  { res := { w with nonfin := codeNonfinite (vtyFmt o.ty) w.code, cvtOvf := ra.cvtOvf || rb.cvtOvf,
                    cvtInv := ra.cvtInv || rb.cvtInv },
    nf := t.srcStat (if first then o.a else o.b) c == 2 }

/-- The element function of the I16 operations (R142). -/
def intOut (t : Tile) (o : VecOps) (op : Int → Int → Int) (r c : Nat) : Out :=
  { res := intRes 16 (op (t.srcInt o.a r c) (t.srcInt o.b r c)),
    nf := t.srcStat o.a c == 2 || t.srcStat o.b c == 2 }

/-- Write an element function over the active area of a VEC instruction. -/
def vecApply (t : Tile) (o : VecOps) (f : Nat → Nat → Out) : Tile × Nat :=
  let ws := maskedWrites t o.men o.mask o.mz o.vr o.vl f
  t.putReg o.dst ws

/-- Write a bit function over the active area into mask register Md (R139, R140). -/
def maskApply (t : Tile) (o : VecOps) (f : Nat → Nat → Bool) : Tile :=
  (area o.vr o.vl).foldl
    (fun u p =>
      if t.unmasked o.men o.mask p.1 p.2 then u.setMask o.dst p.1 p.2 (f p.1 p.2)
      else if o.mz then u.setMask o.dst p.1 p.2 false
      else u) t

/-- CMP.rel (R92). -/
def cmpApply (t : Tile) (o : VecOps) (rel : Rel) : Tile :=
  maskApply t o fun r c => relHolds rel ((t.srcVal o.ty o.a r c).cmp (t.srcVal o.ty o.b r c))

/-- ICMP.rel (R140). -/
def icmpApply (t : Tile) (o : VecOps) (rel : Rel) : Tile :=
  maskApply t o fun r c => relHolds rel (some (compare (t.srcInt o.a r c) (t.srcInt o.b r c)))

/-- The fawn that a fawn register's element holds: its bits [7:0] (R145). -/
def Tile.fawnReg (t : Tile) (n r c : Nat) : Int := toInt 8 (t.treg n r c)

/-- The exact value of an addend with its fawn (R145). -/
def addendValue (f : FF) (code : Nat) (g : Int) : XVal := pairValue f code g

/-- PADD on one element: the value's result and the fawn (R145). -/
def paddElem (f fa : FF) (rnd : Rnd) (v : Nat) (fw : Int) (a : Nat) (g : Int) : Res × Int :=
  let x := f.value v
  let y := fa.value a
  if x.isNan || y.isNan then ({ code := f.nanCode, nonfin := true }, 0)
  else
    match x, y with
    | .inf p, .inf q => if p = q then (f.arith rnd (.inf p), 0) else (f.undefined, 0)
    | .inf p, _ => (f.arith rnd (.inf p), 0)
    | _, .inf q => (f.arith rnd (.inf q), 0)
    | _, _ => writePair f rnd ((pairValue f v fw).add (addendValue fa a g))

/-- PADD at a position (R145, R178): DST the value register, A the fawn register, B the addend, C its fawn. -/
def paddAt (n : NumCtx) (t : Tile) (o : VecOps) (r c : Nat) : Res × Int :=
  let fa := if o.subTy then FF.fp16 else FF.bf16
  let k := n.keys t o.keygrp
  paddElem (vtyFF o.ty) fa (k.rnd o.sr n.srEn (k.regIndex r c)) (t.treg o.dst r c) (t.fawnReg o.a.reg r c)
    (modCode o.b.neg o.b.abs (t.treg o.b.reg r c)) (if o.subFawn then t.fawnReg o.c.reg r c else 0)

/-- PADD over the active area: the value register, and the fawn register with the same statuses (R145). -/
def paddApply (n : NumCtx) (t : Tile) (o : VecOps) : Tile × Nat :=
  let nf (c : Nat) : Bool := readStatus (t.rstat o.dst (c / 16)) == 2 || readStatus (t.rstat o.a.reg (c / 16)) == 2
    || readStatus (t.rstat o.b.reg (c / 16)) == 2 || (o.subFawn && readStatus (t.rstat o.c.reg (c / 16)) == 2)
  let ws := maskedWrites t o.men o.mask o.mz o.vr o.vl fun r c => { res := (paddAt n t o r c).1, nf := nf c }
  let fawnOf (w : Wr) : Nat := if t.unmasked o.men o.mask w.r w.c then ofInt 16 (paddAt n t o w.r w.c).2 else 0
  ((t.putReg o.dst ws).1.writeRegAs o.a.reg ws fawnOf, (t.putReg o.dst ws).2)

/-- The value and the non-finite status of a CVT source at a window position (R179). -/
def cvtSrc (t : Tile) (views : List View) (o : CvtOps) (r c : Nat) : XVal × Bool :=
  if o.smem then
    match views[o.src]? with
    | some v =>
      let i := (t.origin o.org).1 + r
      let j := (t.origin o.org).2 + c
      (t.vVal v i j, v.holds i j && recStatus (t.vRec v (i / 16) (j / 16)) == 2)
    | none => (.zero, false)
  else (fmtValue o.sfmt (t.treg o.src r c), readStatus (t.rstat o.src (c / 16)) == 2)

/-- The records that a window's positions read hold SCALE 0x7F, where the view is 16 bits wide (R87). -/
def scaleAt (t : Tile) (v : View) (orow ocol : Nat) (ps : List (Nat × Nat)) : Bool :=
  !(v.recEn && fmtBits v.fmt == 16) ||
    ps.all fun p =>
      !(v.holds (orow + p.1) (ocol + p.2)) || recScale (t.vRec v ((orow + p.1) / 16) ((ocol + p.2) / 16)) == 0x7F

/-- The same for every position of a window. -/
def scaleOk (t : Tile) (v : View) (orow ocol rows cols : Nat) : Bool := scaleAt t v orow ocol (area rows cols)

/-- CVT: convert or move a window (R179). -/
def cvtApply (n : NumCtx) (t : Tile) (views : List View) (o : CvtOps) : Tile × Nat :=
  let k := n.keys t o.keygrp
  if o.dmem then
    match views[o.dst]? with
    | some v =>
      let orow := (t.origin o.org).1
      let ocol := (t.origin o.org).2
      let ws := maskedWrites t o.men o.mask o.mz o.vr o.vl fun r c =>
        { res := blockConvert o.dfmt (k.rnd o.sr n.srEn (k.viewIndex r c)) n.e4inf
            (recScale (t.vRec v ((orow + r) / 16) ((ocol + c) / 16))) (cvtSrc t views o r c).1,
          nf := (cvtSrc t views o r c).2 }
      t.putView v orow ocol ws
    | none => (t, 0)
  else
    let ws := maskedWrites t o.men o.mask o.mz o.vr o.vl fun r c =>
      { res := blockConvert o.dfmt (k.rnd o.sr n.srEn (k.regIndex r c)) n.e4inf 0x7F (cvtSrc t views o r c).1,
        nf := (cvtSrc t views o r c).2 }
    t.putReg o.dst ws

/-- The operations of a reduction (R146). -/
inductive RedOp where
  | sum | sumsq | max | min | maxabs | argmax | popc
deriving DecidableEq, Repr

/-- The positions of the sets that an axis reduces, one list per result (R146). -/
def redSets (ax : Axis) (vr vl : Nat) : List (List (Nat × Nat)) :=
  match ax with
  | .row => (List.range vr).map fun r => (List.range vl).map fun c => (r, c)
  | .col => (List.range vl).map fun c => (List.range vr).map fun r => (r, c)
  | .all => [area vr vl]

/-- The exact float result of a reduction over the values of a set (R146). -/
def redFloat (op : RedOp) (xs : List XVal) : XVal :=
  match op, xs with
  | .sum, [] => .zero
  | .sum, x :: r => r.foldl XVal.add x
  | .sumsq, [] => .zero
  | .sumsq, x :: r => r.foldl (fun a y => a.add (y.mul y)) (x.mul x)
  | .max, [] => .inf true
  | .max, x :: r => r.foldl XVal.max x
  | .min, [] => .inf false
  | .min, x :: r => r.foldl XVal.min x
  | .maxabs, [] => .zero
  | .maxabs, x :: r => r.foldl (fun a y => a.max y.magnitude) x.magnitude
  | _, _ => .zero

/-- The exact integer result of a reduction over a set of I16 elements (R490). -/
def redInt (op : RedOp) (xs : List Int) : Int :=
  match op, xs with
  | .sum, _ => xs.foldl (· + ·) 0
  | .sumsq, _ => xs.foldl (fun a y => a + y * y) 0
  | .max, [] => -32768
  | .max, x :: r => r.foldl Max.max x
  | .min, [] => 32767
  | .min, x :: r => r.foldl Min.min x
  | .maxabs, _ => xs.foldl (fun a y => Max.max a (y.natAbs : Int)) 0
  | _, _ => 0

/-- The position that ARGMAX reports for an element (R146). -/
def argPos (ax : Axis) (p : Nat × Nat) : Nat :=
  match ax with
  | .row => p.2
  | .col => p.1
  | .all => p.1 * 128 + p.2

/-- The first maximum of a set with its position; none when every element is a NaN (R146). -/
def argFirst (ax : Axis) : List ((Nat × Nat) × XVal) → Option (Nat × XVal)
  | [] => none
  | (p, x) :: r =>
    match argFirst ax r with
    | some (q, y) => if x.isNan then some (q, y) else if x.totLt y then some (q, y) else some (argPos ax p, x)
    | none => if x.isNan then none else some (argPos ax p, x)

/-- The result of a reduction over one set, into a register (`w` = 16) or a scalar (`w` = 32). -/
def redRes (t : Tile) (o : RedOps) (op : RedOp) (w : Nat) (rnd : Rnd) (ps : List (Nat × Nat)) : Res :=
  let set := ps.filter fun p => t.unmasked o.men o.mask p.1 p.2
  match op with
  | .popc => intRes w ((set.filter fun p => t.mask o.src p.1 p.2).length : Nat)
  | .argmax =>
    match argFirst o.axis (set.map fun p => (p, (vtyFF o.ty).value (t.treg o.src p.1 p.2))) with
    | some (q, _) => { code := ofInt w (q : Nat) }
    | none => { code := ofInt w (-1) }
  | _ =>
    match o.ty with
    | .i16 => intRes w (redInt op (set.map fun p => toInt 16 (t.treg o.src p.1 p.2)))
    | _ =>
      let xs := set.map fun p => (vtyFF o.ty).value (t.treg o.src p.1 p.2)
      let x := redFloat op xs
      let f := if w = 32 then FF.b32 else vtyFF o.ty
      match op with
      | .sum => arithRes f rnd xs x
      | .sumsq => arithRes f rnd xs x
      | _ => f.arith rnd x

/-- A source of a set lies in a block whose status is non-finite (R147). -/
def redNf (t : Tile) (o : RedOps) (op : RedOp) (ps : List (Nat × Nat)) : Bool :=
  match op with
  | .popc => false
  | _ => ps.any fun p => t.unmasked o.men o.mask p.1 p.2 && readStatus (t.rstat o.src (p.2 / 16)) == 2

/-- A reduction over the active area (R146, R147, R490). -/
def redApply (n : NumCtx) (t : Tile) (o : RedOps) (op : RedOp) : Tile × Nat :=
  let sets := redSets o.axis o.vr o.vl
  let k := n.keys t o.keygrp
  match o.axis with
  | .all =>
    let ps := area o.vr o.vl
    let res := redRes t o op 32 .rne ps
    let out : Out := { res := res, nf := redNf t o op ps }
    (t.setScalar o.dst res.code out.status, res.flags)
  | .row =>
    let ws := (List.range o.vr).map fun r =>
      ({ r := r, c := o.dpos,
         out := { res := redRes t o op 16 (k.rnd o.sr n.srEn (k.regIndex r o.dpos)) (sets.getD r []),
                  nf := redNf t o op (sets.getD r []) } } : Wr)
    t.putReg o.dst ws
  | .col =>
    let ws := (List.range o.vl).map fun c =>
      ({ r := o.dpos, c := c,
         out := { res := redRes t o op 16 (k.rnd o.sr n.srEn (k.regIndex o.dpos c)) (sets.getD c []),
                  nf := redNf t o op (sets.getD c []) } } : Wr)
    t.putReg o.dst ws

/-- A permutation: `src` gives the source position for an index, and `lim` the first index out of range (R148). -/
def permApply (t : Tile) (o : RedOps) (lim : Nat) (src : Nat → Nat → Nat → Nat × Nat) : Tile × Nat :=
  let ws := maskedWrites t o.men o.mask o.mz o.vr o.vl fun r c =>
    let i := t.treg o.idx r c
    if i < lim then
      let p := src r c i
      { res := { code := t.treg o.src p.1 p.2, nonfin := codeNonfinite (vtyFmt o.ty) (t.treg o.src p.1 p.2) },
        nf := readStatus (t.rstat o.src (p.2 / 16)) == 2 }
    else { res := { code := 0, perm := true } }
  t.putReg o.dst ws

/-- What one tile contributes to a summary: VALUE and status (R150, R153). -/
structure SummPart where
  value : Nat := 0
  status : Nat := 0
deriving DecidableEq, Repr

/-- The elements that NONFINITE or MAXABS examines: value and block status (R150). SUMM's encoding has no bit by which these kinds
name a scalar register, so what they examine are data registers (R181; log entry 97). -/
def summElems (t : Tile) (o : SummOps) : List (XVal × Nat) :=
  (List.range o.k).flatMap fun q => (area o.vr o.vl).filterMap fun p =>
    if t.unmasked o.men o.mask p.1 p.2 then
      some ((vtyFF o.ty).value (t.treg (o.reg + q) p.1 p.2), readStatus (t.rstat (o.reg + q) (p.2 / 16)))
    else none

/-- The summary of one tile (R150). MAXABS over no element gives +0 (log entry 110). -/
def summPart (t : Tile) (o : SummOps) : SummPart :=
  let es := summElems t o
  let st := es.foldl (fun a e => mergeStatus a e.2) 0
  match o.kind with
  | 0 => { value := t.sval o.reg, status := t.sstat o.reg }
  | 1 =>
    { value := b2n (es.any fun e => e.1.isNan) + 2 * b2n (es.any fun e => e.1.isInf)
        + 4 * b2n (es.any fun e => e.2 == 2) + 8 * b2n (es.any fun e => e.2 == 1),
      status := st }
  | 2 => { value := (FF.b32.arith .rne (redFloat .maxabs (es.map Prod.fst))).code, status := st }
  | 3 =>
    { value := ((area o.vr o.vl).filter fun p => t.unmasked o.men o.mask p.1 p.2 && t.mask o.reg p.1 p.2).length }
  | _ => { value := o.imm % 2 ^ 32 }

/-- Combine two binary32 values of SCALAR or MAXABS as exact values. -/
def summCombine (kind : Nat) (cm : Combine) (a b : XVal) : XVal :=
  if kind = 2 then a.max b
  else
    match cm with
    | .lead => a
    | .sum => a.add b
    | .max => a.max b
    | .min => a.min b

/-- The VALUE of a summary over the parts of a gang, the lead's first (R153). -/
def summValue (o : SummOps) (parts : List SummPart) : Nat :=
  match parts with
  | [] => 0
  | p :: [] => p.value
  | p :: r =>
    match o.kind with
    | 0 =>
      match o.combine with
      | .lead => p.value
      | cm => (FF.b32.arith .rne (r.foldl (fun a q => summCombine 0 cm a (FF.b32.value q.value)) (FF.b32.value p.value))).code
    | 1 => r.foldl (fun a q => a ||| q.value) p.value
    | 2 => (FF.b32.arith .rne (r.foldl (fun a q => a.max (FF.b32.value q.value)) (FF.b32.value p.value))).code
    | 3 => (r.foldl (fun a q => a + q.value) p.value) % 2 ^ 32
    | _ => p.value

end Sys2Proof.Machine
end

