-- ==== Sys2Proof/Machine/Array.lean ====
section
/-!
DEFINITION. Array.lean: what the matrix array computes (spec/04_matrix_engine.md): operand streaming by block, the five
modes with their accumulation order, initial values, the output stage with its formats, statuses and dither, and the
statistics that PG collects (R221).
-/

namespace Sys2Proof.Machine

/-- The operand position that a K index and an outer index name: K-major reads view(k, x), K-minor view(x, k) (R109, R174). -/
def opPos (kmajor : Bool) (x k : Nat) : Nat × Nat := if kmajor then (k, x) else (x, k)

/-- The value of an operand element before its block scale; a NaN in an invalid block (R88, R117). -/
def Tile.opElem (t : Tile) (v : View) (kmajor : Bool) (x k : Nat) : XVal :=
  let p := opPos kmajor x k
  if v.holds p.1 p.2 then
    if v.recEn && recScale (t.vRec v (p.1 / 16) (p.2 / 16)) == 0xFF then .nan
    else fmtValue v.fmt (t.vElem v p.1 p.2)
  else .zero

/-- The record of the block that holds an operand element (R110). -/
def Tile.opRec (t : Tile) (v : View) (kmajor : Bool) (x k : Nat) : Nat :=
  let p := opPos kmajor x k
  t.vRec v (p.1 / 16) (p.2 / 16)

/-- The operand element lies in a block whose status reads non-finite (R127). -/
def Tile.opNf (t : Tile) (v : View) (kmajor : Bool) (x k : Nat) : Bool :=
  let p := opPos kmajor x k
  v.recEn && v.holds p.1 p.2 && recStatus (t.vRec v (p.1 / 16) (p.2 / 16)) == 2

/-- One chunk of 16 products in F8 mode, summed exactly and scaled (R116, R117). -/
def f8Chunk (ta tb : Tile) (av bv : View) (akm bkm : Bool) (r c j : Nat) : XVal :=
  let s := (List.range 16).foldl
    (fun a i => a.add ((ta.opElem av akm r (16 * j + i)).mul (tb.opElem bv bkm c (16 * j + i)))) XVal.zero
  rescale (recScale (tb.opRec bv bkm c (16 * j))) (rescale (recScale (ta.opRec av akm r (16 * j))) s)

/-- The accumulation of one element in F8 mode (R116). -/
def f8Accum (ta tb : Tile) (av bv : View) (akm bkm : Bool) (k0 k r c : Nat) (acc : XVal) : XVal :=
  (List.range (k / 16)).foldl (fun a j => roundP48 (a.add (f8Chunk ta tb av bv akm bkm r c (k0 / 16 + j)))) acc

/-- The accumulation of one element in BF16 and FP16 modes (R118). -/
def f16Accum (ta tb : Tile) (av bv : View) (akm bkm : Bool) (k0 k r c : Nat) (acc : XVal) : XVal :=
  (List.range k).foldl
    (fun a i => roundP48 (a.add ((ta.opElem av akm r (k0 + i)).mul (tb.opElem bv bkm c (k0 + i))))) acc

/-- The accumulation of one element in the integer modes, and whether an addition saturated (R122). A value that a float mode has left
is taken as an integer, a NaN or an infinity as 0 (log entry 100). -/
def intAccum (ta tb : Tile) (av bv : View) (akm bkm : Bool) (k0 k r c : Nat) (acc : XVal) : XVal × Bool :=
  let z := (List.range k).foldl
    (fun (a : Int × Bool) i =>
      let p := (ta.opElem av akm r (k0 + i)).toInt32 * (tb.opElem bv bkm c (k0 + i)).toInt32
      ((satAdd32 a.1 p).1, a.2 || (satAdd32 a.1 p).2)) (acc.toInt32, false)
  (XVal.ofInt z.1, z.2)

/-- The integer modes. -/
def mmaIsInt : MmaMode → Bool
  | .i8 => true
  | .i4 => true
  | _ => false

/-- One element of a product from its initial value (R116, R118, R122). -/
def mmaAccum (mode : MmaMode) (ta tb : Tile) (av bv : View) (akm bkm : Bool) (k0 k r c : Nat) (acc : XVal) : XVal × Bool :=
  match mode with
  | .f8 => (f8Accum ta tb av bv akm bkm k0 k r c acc, false)
  | .bf16 => (f16Accum ta tb av bv akm bkm k0 k r c acc, false)
  | .fp16 => (f16Accum ta tb av bv akm bkm k0 k r c acc, false)
  | .i8 => intAccum ta tb av bv akm bkm k0 k r c acc
  | .i4 => intAccum ta tb av bv akm bkm k0 k r c acc

/-- Some input block that array element (r, c) multiplies has a non-finite status (R127). -/
def mmaNf (ta tb : Tile) (av bv : View) (akm bkm : Bool) (k0 k r c : Nat) : Bool :=
  (List.range (k / 16)).any fun j => ta.opNf av akm r (k0 + 16 * j) || tb.opNf bv bkm c (k0 + 16 * j)

/-- The destination position of array element (r, c), after OUT_T (R124). -/
def outPos (outT : Bool) (r c : Nat) : Nat × Nat := if outT then (c, r) else (r, c)

/-- The value of a register element that holds a pair or a plain value (R114, R123). -/
def Tile.loadReg (t : Tile) (p : PSlot) (R C : Nat) : XVal :=
  let n := 8 * bits p.lsrc 4 2 + R / 16
  let m := 8 * bits p.lsrc 2 2 + R / 16
  let f := match p.lfmt with | .fp16 => FF.fp16 | _ => FF.bf16
  if p.lpair then pairValue f (t.treg n (R % 16) C) (t.fawnReg m (R % 16) C) else f.value (t.treg n (R % 16) C)

/-- The accumulator that LOAD gives array element (r, c), and whether its source status is non-finite (R114, R127, R175). -/
def loadAcc (t : Tile) (views : List View) (p : PSlot) (coloff : Nat) (outT : Bool) (r c : Nat) : XVal × Bool :=
  let d := outPos outT r c
  match p.lkind with
  | .view =>
    match views[p.lsrc]? with
    | some v =>
      let i := p.rowoff + d.1
      let j := coloff + d.2
      if v.holds i j then
        let x := t.vVal v i j
        (match fmtFF v.fmt with
         | some f => if p.lpair && !x.isNan then pairValue f (t.vElem v i j) (t.vFawn v i j) else x
         | none => x,
         v.recEn && recStatus (t.vRec v (i / 16) (j / 16)) == 2)
      else (.zero, false)
    | none => (.zero, false)
  | .regs =>
    let n := 8 * bits p.lsrc 4 2 + d.1 / 16
    let m := 8 * bits p.lsrc 2 2 + d.1 / 16
    (t.loadReg p d.1 d.2,
     readStatus (t.rstat n (d.2 / 16)) == 2 || (p.lpair && readStatus (t.rstat m (d.2 / 16)) == 2))
  | .none => (.zero, false)

/-- The accumulator of set `set` at array element (r, c). -/
def Tile.accAt (t : Tile) (set r c : Nat) : XVal := Map.get XVal.zero t.acc (16384 * set + 128 * r + c)

/-- The key of the block that array element (r, c) of a set lies in. -/
def accBlock (set r c : Nat) : Nat := 64 * set + 8 * (r / 16) + c / 16

/-- The state of the array while it runs one MMUL: the tile, and whether an addition saturated or a non-finite input
status was read. -/
structure MmaAcc where
  tile : Tile
  sat : Bool := false
  nf : Bool := false
deriving DecidableEq, Repr

/-- Run one array element of an MMUL: initial value, accumulation, and the block's non-finite mark. -/
def mmaElem (lead : Tile) (bviews : List View) (o : MmulOps) (p : PSlot) (coloff : Nat) (av bv : View)
    (s : MmaAcc) (rc : Nat × Nat) : MmaAcc :=
  let t := s.tile
  let ini : XVal × Bool :=
    match o.init with
    | .zero => (.zero, false)
    | .load => loadAcc t bviews p coloff o.outT rc.1 rc.2
    | .cont => (t.accAt o.set rc.1 rc.2, false)
  let z := mmaAccum o.mode lead t av bv o.akm o.bkm p.k0 p.k rc.1 rc.2 ini.1
  let nf := ini.2 || mmaNf lead t av bv o.akm o.bkm p.k0 p.k rc.1 rc.2
  let t := { t with acc := Map.put XVal.zero t.acc (16384 * o.set + 128 * rc.1 + rc.2) z.1,
                    accNf := if nf then Map.put 0 t.accNf (accBlock o.set rc.1 rc.2) 1 else t.accNf }
  { tile := t, sat := s.sat || z.2, nf := s.nf || nf }

/-- Clear one accumulator set before ZERO or LOAD (R108, R114). -/
def Tile.clearSet (t : Tile) (set : Nat) : Tile :=
  { t with acc := t.acc.dropKeys (fun k => k / 16384 == set), accNf := t.accNf.dropKeys (fun k => k / 64 == set) }

/-- The output result of an array element in OFMT, for a block with a scale code: a pair, or a plain value with fawn 0 (R82, R94,
R123). -/
def outRes (n : NumCtx) (o : MmulOps) (rnd : Rnd) (scale : Nat) (x : XVal) : Res × Int :=
  if o.pair then blockPair o.ofmt rnd scale x else (blockConvert o.ofmt rnd n.e4inf scale x, 0)

/-- The output stage into a view, one array element (R123 to R126). -/
def outView (n : NumCtx) (o : MmulOps) (p : PSlot) (coloff : Nat) (v : View) (k : Keys) (s : Tile × Nat) (rc : Nat × Nat) :
    Tile × Nat :=
  let t := s.1
  let d := outPos o.outT rc.1 rc.2
  let i := p.rowoff + d.1
  let j := coloff + d.2
  if v.holds i j then
    let x := t.accAt o.set rc.1 rc.2
    let rnd := k.rnd o.sr n.srEn (k.viewIndex d.1 d.2)
    let nf := Map.get 0 t.accNf (accBlock o.set rc.1 rc.2) == 1
    let w := outRes n o rnd (recScale (t.vRec v (i / 16) (j / 16))) x
    let t1 := t.setView v i j { res := w.1, nf := nf }
    (if o.pair then { t1 with mem := t1.mem.wr (v.fawnAddr i j) (ofInt 8 w.2) } else t1, joinFlags s.2 w.1.flags)
  else s

/-- The output stage into registers Tn to Tn+7, and the fawns into Tm to Tm+7 (R123, R126). -/
def outRegs (n : NumCtx) (o : MmulOps) (p : PSlot) (k : Keys) (t : Tile) : Tile × Nat :=
  let nb := 8 * bits o.out 4 2
  let mb := 8 * bits o.out 2 2
  let cells := (area p.m p.n).map fun rc =>
    let d := outPos o.outT rc.1 rc.2
    let rnd := k.rnd o.sr n.srEn (k.regIndex d.1 d.2)
    let x := t.accAt o.set rc.1 rc.2
    let w := outRes n o rnd 0x7F x
    (d, ({ res := w.1, nf := Map.get 0 t.accNf (accBlock o.set rc.1 rc.2) == 1 } : Out), w.2)
  let fl := cells.foldl (fun a e => joinFlags a e.2.1.res.flags) 0
  (List.range 8).foldl
    (fun (a : Tile × Nat) q =>
      let mine := cells.filter fun e => e.1.1 / 16 == q
      let ws := mine.map fun e => ({ r := e.1.1 % 16, c := e.1.2, out := e.2.1 } : Wr)
      let t := a.1.writeReg (nb + q) ws
      let t1 :=
        if o.pair then
          t.writeRegAs (mb + q) ws fun w =>
            match mine.find? fun e => e.1.1 % 16 == w.r && e.1.2 == w.c with
            | some e => ofInt 16 e.2.2
            | none => 0
        else t
      (t1, blockFlags a.2 (regNf t (nb + q) ws))) (t, fl)

/-- floor(log2 |x|) of a non-zero finite value (R221). -/
def xExp : XVal → Option Int
  | .fin _ m e => if m = 0 then none else some ((Nat.log2 m : Int) + e)
  | _ => none

/-- block_bins of R221: add one block's exponents to 32 bins. -/
def blockBins (exps : List Int) (hist : List Nat) : List Nat :=
  match exps with
  | [] => hist
  | e :: r =>
    let emax := r.foldl Max.max e
    exps.foldl (fun h x => let d := Min.min (emax - x).toNat 31; setAt h d (h.getD d 0 + 1)) hist

/-- Clamp MAXEXP to −511 to 511 (R221). -/
def clampExp (e : Int) : Int := Max.max (-511) (Min.min 511 e)

/-- The statistics of one MMUL with PG: bins and MAXEXP over its output blocks (R221). Blocks are those of the destination
window, after OUT_T. -/
def pgStats (o : MmulOps) (p : PSlot) (t : Tile) (written : Nat → Nat → Bool) (old : StatRec) : StatRec :=
  (List.range 64).foldl
    (fun s b =>
      let es := (area p.m p.n).filterMap fun rc =>
        let d := outPos o.outT rc.1 rc.2
        if (d.1 / 16) * 8 + d.2 / 16 == b && written d.1 d.2 then xExp (t.accAt o.set rc.1 rc.2) else none
      { s with bins := blockBins es s.bins, maxexp := es.foldl (fun a e => Max.max a (clampExp e)) s.maxexp }) old

/-- Add the exponents of an MMUL to a statistics unit of up to 4 tensor ids; the second part counts what a fifth id drops
(R222). -/
def statsAdd (stats : List StatRec) (tensor : Nat) (f : StatRec → StatRec) : List StatRec × Nat :=
  if stats.any fun s => s.tensor == tensor then
    (stats.map fun s => if s.tensor == tensor then f s else s, 0)
  else if stats.length < 4 then (stats ++ [f { tensor := tensor, bins := List.replicate 32 0, maxexp := -512 }], 0)
  else (stats, 1)

/-- What one member's MMUL does: the tile, the sticky flags, INT_SAT and IN_NONFINITE. -/
structure MmaDone where
  tile : Tile
  flags : Nat
  sat : Bool
  nf : Bool
deriving DecidableEq, Repr

/-- One member's part of an MMUL: A is read from the lead, B and the records from the member's own memory, and the window
column offset is moved by 128 for each member after the lead (R131). CONTINUE leaves accumulators beyond its extents as they are (R114;
log entry 99). -/
def mmaRun (n : NumCtx) (lead t : Tile) (views mviews : List View) (o : MmulOps) (p : PSlot) (m : Nat) : MmaDone :=
  match views[o.av]?, mviews[o.bv]? with
  | some av, some bv =>
    let coloff := p.coloff + 128 * m
    let t0 := match o.init with | .cont => t | _ => t.clearSet o.set
    let z := (area p.m p.n).foldl (mmaElem lead mviews o p coloff av bv) { tile := t0 }
    let k := n.keys t o.keygrp
    match o.okind with
    | .none => { tile := z.tile, flags := 0, sat := z.sat, nf := z.nf }
    | .view =>
      match mviews[o.out]? with
      | some v =>
        let w := (area p.m p.n).foldl (outView n o p coloff v k) (z.tile, 0)
        let at1 := (area p.m p.n).map fun rc => (p.rowoff + (outPos o.outT rc.1 rc.2).1, coloff + (outPos o.outT rc.1 rc.2).2)
        { tile := w.1, flags := blockFlags w.2 (viewNf w.1 v at1), sat := z.sat, nf := z.nf }
      | none => { tile := z.tile, flags := 0, sat := z.sat, nf := z.nf }
    | .regs =>
      let w := outRegs n o p k z.tile
      { tile := w.1, flags := w.2, sat := z.sat, nf := z.nf }
  | _, _ => { tile := t, flags := 0, sat := false, nf := false }

/-- The record scales of the operands and the LOAD source that an MMUL reads are those that R87 asks of 16-bit views. -/
def mmaScaleOk (lead t : Tile) (views mviews : List View) (o : MmulOps) (p : PSlot) (m : Nat) : Bool :=
  let side (u : Tile) (vs : List View) (n : Nat) (km : Bool) (x : Nat) : Bool :=
    match vs[n]? with
    | some v => if km then scaleOk u v p.k0 0 p.k x else scaleOk u v 0 p.k0 x p.k
    | none => true
  let load : Bool :=
    match o.init, p.lkind with
    | .load, .view =>
      match mviews[p.lsrc]? with
      | some v =>
        if o.outT then scaleOk t v p.rowoff (p.coloff + 128 * m) p.n p.m else scaleOk t v p.rowoff (p.coloff + 128 * m) p.m p.n
      | none => true
    | _, _ => true
  side lead views o.av o.akm p.m && side t mviews o.bv o.bkm p.n && load

end Sys2Proof.Machine
end

