-- ==== Sys2Proof/Machine/TileCode.lean ====
section
/-!
DEFINITION. TileCode.lean: the encodings that a tile reads from memory: views (R161, R163), tensor descriptors (R164,
R166), instruction words (R168 to R182) and segment headers (R193, R194). A word that the tables do not have decodes to
none: it is an illegal instruction, view or descriptor.
-/

namespace Sys2Proof.Machine

/-- The format that a 4-bit code names (R160). -/
def fmtOf : Nat → Option Fmt
  | 0 => some .e4m3
  | 1 => some .e5m2
  | 2 => some .bf16
  | 3 => some .fp16
  | 4 => some .int8
  | 5 => some .int4
  | 6 => some .fwn8
  | 7 => some .i16
  | 8 => some .int32
  | _ => none

/-- A format that a descriptor may name (R160). -/
def fmtInDesc : Fmt → Bool
  | .i16 => false
  | .int32 => false
  | _ => true

/-- A format that a register operand may name (R160). -/
def fmtInReg : Fmt → Bool
  | .bf16 => true
  | .fp16 => true
  | .i16 => true
  | _ => false

/-- BF16 or FP16. -/
def fmt16 : Fmt → Bool
  | .bf16 => true
  | .fp16 => true
  | _ => false

/-- The engine of a 2-bit code (R169). -/
def engineOf : Nat → Engine
  | 0 => .dma
  | 1 => .array
  | 2 => .vector
  | _ => .store

/-- The code of an engine. -/
def engineCode : Engine → Nat
  | .dma => 0
  | .array => 1
  | .vector => 2
  | .store => 3

/-- A WAIT or POST field (R170). -/
def credOf (x : Nat) : Cred := { en := bit x 3, early := bit x 2, engine := engineOf (x % 4) }

/-- A field without effect. -/
def credOff : Cred := { en := false, early := false, engine := .dma }

/-- WAIT of an engine is legal (R170). -/
def waitOk (eng : Engine) (c : Cred) : Bool := !c.en || (!c.early && c.engine != eng)

/-- POST of an engine is legal, `early` saying whether EARLY is permitted (R170). -/
def postOk (eng : Engine) (early : Bool) (c : Cred) : Bool := !c.en || ((!c.early || early) && c.engine != eng)

/-- A view from its 128 bits; none where a field is reserved (R161). -/
def viewOf (x : Nat) : Option View :=
  match fmtOf (bits x 4 4) with
  | some f =>
    if bits x 0 2 = 0 then
      some { base := bits x 106 22, recs := bits x 84 22, fawn := bits x 62 22, pitch := bits x 40 22,
             rows := bits x 24 16 + 1, cols := bits x 8 16 + 1, fmt := f, recEn := bit x 3, fawnEn := bit x 2 }
    else none
  | none => none

/-- The size of tile memory (R156). -/
def tileSpace : Nat := 0x400000

/-- A view meets R163. -/
def View.valid (v : View) : Bool :=
  let recOk : Bool :=
    match v.fmt with
    | .e4m3 => v.recEn
    | .e5m2 => v.recEn
    | .bf16 => true
    | .fp16 => true
    | _ => !v.recEn
  decide (1 ≤ v.pitch)
    && decide (v.base + (v.rows - 1) * v.pitch + rowBytes v.fmt v.cols ≤ tileSpace)
    && decide (rowBytes v.fmt v.cols ≤ v.pitch)
    && (decide (fmtBits v.fmt < 16) || v.base % (fmtBits v.fmt / 8) == 0)
    && recOk
    && (!v.recEn || (v.recs % 2 == 0
        && decide (v.recs + blocks16 v.rows * blocks16 v.cols * 2 ≤ tileSpace)))
    && (!v.fawnEn || (fmt16 v.fmt && v.pitch % 2 == 0
        && decide (v.fawn + (v.rows - 1) * v.pitch / 2 + v.cols ≤ tileSpace)))

/-- The fields of a descriptor, given its format (R164). -/
def descFields (f : Fmt) (ws : List Nat) : Desc :=
  let w (i : Nat) : Nat := ws.getD i 0
  { fmt := f, ndim := bits (w 0) 58 2 + 1, base := bits (w 0) 0 56, n0 := bits (w 1) 0 32, n1 := bits (w 1) 32 32,
    n2 := bits (w 2) 0 32, n3 := bits (w 2) 32 32, s1 := bits (w 3) 0 32, s2 := bits (w 3) 32 32,
    s3 := bits (w 4) 0 32, tensorId := bits (w 4) 32 32, updClass := bits (w 5) 60 2, versioned := bit (w 5) 59,
    savedAct := bit (w 5) 58, privGrad := bit (w 5) 57, frozen := bit (w 5) 56, scalePtr := bits (w 5) 0 56,
    tiedGroup := bits (w 6) 56 8, fawnPtr := bits (w 6) 0 56, tiedUse := bits (w 7) 56 3,
    optGroup := bits (w 7) 48 8, voff := bits (w 7) 0 48 }

/-- The reserved fields of a descriptor are 0 and UPD_CLASS is not reserved (R166). -/
def descRsvdOk (ws : List Nat) : Bool :=
  let w (i : Nat) : Nat := ws.getD i 0
  bits (w 0) 56 2 == 0 && bits (w 5) 62 2 == 0 && bits (w 7) 59 5 == 0 && bits (w 5) 60 2 != 3

/-- A descriptor from its eight words; none where the format is not one or a reserved bit is set (R164, R166). -/
def descOf (ws : List Nat) : Option Desc :=
  match fmtOf (bits (ws.getD 0 0) 60 4) with
  | some f => if fmtInDesc f && descRsvdOk ws then some (descFields f ws) else none
  | none => none

/-- The rows of a tensor's two-dimensional view (R85). -/
def Desc.rows (d : Desc) : Nat := d.n1 * d.n2 * d.n3

/-- The byte offset of row i of a tensor from its slot base (R164). -/
def Desc.rowOff (d : Desc) (i : Nat) : Nat :=
  (i % d.n1 * d.s1 + i / d.n1 % d.n2 * d.s2 + i / d.n1 / d.n2 * d.s3) * 16

/-- The bytes that the elements of one slot span (R430). -/
def Desc.extent (d : Desc) : Nat :=
  rowBytes d.fmt d.n0 + ((d.n1 - 1) * d.s1 + (d.n2 - 1) * d.s2 + (d.n3 - 1) * d.s3) * 16

/-- The bytes that the fawns of one slot span (R430). -/
def Desc.fawnExtent (d : Desc) : Nat := d.n0 + ((d.n1 - 1) * d.s1 + (d.n2 - 1) * d.s2 + (d.n3 - 1) * d.s3) * 8

/-- The bytes of the scale table of one slot (R85). -/
def Desc.tableBytes (d : Desc) : Nat := blocks16 d.rows * blocks16 d.n0 * 2

/-- The offset of the write map from SCALE_PTR (R210). -/
def Desc.mapOff (d : Desc) : Nat := 64 * ((d.tableBytes + 63) / 64)

/-- The bytes of the write map (R210). -/
def Desc.mapBytes (d : Desc) : Nat := (blocks16 d.rows * blocks16 d.n0 + 3) / 4

/-- The descriptor meets every FORMAT condition of R166. -/
def Desc.formatOk (d : Desc) : Bool :=
  decide (1 ≤ d.n0 ∧ 1 ≤ d.n1 ∧ 1 ≤ d.n2 ∧ 1 ≤ d.n3)
    && (decide (2 ≤ d.ndim) || d.n1 == 1) && (decide (3 ≤ d.ndim) || d.n2 == 1) && (decide (4 ≤ d.ndim) || d.n3 == 1)
    && decide (d.n0 * d.n1 * d.n2 * d.n3 < 2 ^ 48)
    && decide (rowBytes d.fmt d.n0 ≤ d.s1 * 16) && decide (d.n1 * d.s1 ≤ d.s2) && decide (d.n2 * d.s2 ≤ d.s3)
    && d.base % 16 == 0 && d.scalePtr % 64 == 0 && d.voff % 64 == 0
    && (match d.fmt with
        | .int8 => d.scalePtr == 0
        | .int4 => d.scalePtr == 0
        | .e4m3 => d.scalePtr != 0
        | .e5m2 => d.scalePtr != 0
        | _ => true)
    && (d.fawnPtr == 0 || fmt16 d.fmt)
    && (d.versioned == (d.voff != 0))
    && (d.tiedUse == 0 || d.tiedGroup != 0)

/-- The end of the address range, among those that the tile DMA reaches, in which an address lies; none outside them
(R30, R42). -/
def rangeEnd (a : Nat) : Option Nat :=
  if a < 0x40000000000 then some 0x40000000000
  else if 0x40000000000 ≤ a ∧ a < 0x50000000000 then some 0x50000000000
  else if 0x80000000000 ≤ a ∧ a < 0xA0000000000 then some 0xA0000000000
  else if 0x40000000000000 ≤ a ∧ a < 0x80000000000000 then some 0x80000000000000
  else none

/-- An extent stays in the range in which its pointer lies. -/
def extentOk (p n : Nat) : Bool :=
  match rangeEnd p with
  | some e => decide (p + n ≤ e)
  | none => false

/-- The descriptor meets the RANGE condition of R166. -/
def Desc.rangeOk (d : Desc) : Bool :=
  extentOk d.base (d.extent + d.voff)
    && (d.fawnPtr == 0 || extentOk d.fawnPtr (d.fawnExtent + d.voff))
    && (d.scalePtr == 0 || extentOk d.scalePtr (d.tableBytes + d.voff))

/-- The five MOV operations (R172). -/
inductive MovOp where
  | ld | st | strec | hld | hst
deriving DecidableEq, Repr

/-- The two-source and three-source float operations, the I16 operations and SEL (R178). -/
inductive VecOp where
  | add | mul | fma | min | max | sel | iadd | imin | imax
  | cmp (r : Rel) | icmp (r : Rel)
  | mand | mor | mxor | mandn | mnot | padd
deriving DecidableEq, Repr

/-- The RED operations (R180). -/
inductive RedKind where
  | red (o : RedOp) | permc | permr
deriving DecidableEq, Repr

/-- A tile instruction as its word names it. -/
inductive TIns where
  | nop
  | vbase (view sreg : Nat)
  | trap (code : Nat)
  | mov (op : MovOp) (o : MovOps)
  | mmul (o : MmulOps)
  | mspan (o : SpanOps)
  | mwin (o : WinOps)
  | vec (op : VecOp) (o : VecOps)
  | cvt (o : CvtOps)
  | red (op : RedKind) (o : RedOps)
  | cwait (e : Engine) (n : Counts)
  | cpost (e : Engine) (n : Counts)
  | semwait (e : Engine) (sem n : Nat)
  | semsig (e : Engine) (sem n : Nat)
  | summ (o : SummOps)
  | flagclr (flags : Nat)
  | col (op : Nat) (o : ColOps)
deriving DecidableEq, Repr

/-- Answer a value only under a condition. -/
def guardO {α : Type} (b : Bool) (x : α) : Option α := if b then some x else none

/-- The CTL class (R171). -/
def decCtl (w : Nat) : Option TIns :=
  match bits w 52 8 with
  | 0 => guardO (bits w 0 52 == 0) .nop
  | 1 => guardO (bits w 0 42 == 0) (.vbase (bits w 46 6) (bits w 42 4))
  | 2 => guardO (bits w 32 20 == 0) (.trap (bits w 0 32))
  | _ => none

/-- The slot selector of a MOV (R172). -/
def vselOf : Nat → Option VSel
  | 0 => some .plain
  | 1 => some .current
  | 2 => some .next
  | _ => none

/-- The MOV class (R172). -/
def decMov (w : Nat) : Option TIns :=
  match vselOf (bits w 29 2) with
  | none => none
  | some vs =>
    let o : MovOps := {
      wait := credOf (bits w 48 4), post := credOf (bits w 44 4), dslot := bits w 40 4, view := bits w 34 6,
      org := bits w 31 3, vsel := vs, recs := bit w 28, fawn := bit w 27 }
    let eng : Engine := match bits w 52 8 with | 0 => .dma | 3 => .dma | _ => .store
    let st := eng == .store
    let ok := bits w 0 27 == 0 && waitOk eng o.wait && postOk eng st o.post
    let herdOk := o.dslot == 0
    match bits w 52 8 with
    | 0 => guardO ok (.mov .ld o)
    | 1 => guardO ok (.mov .st o)
    | 2 => guardO ok (.mov .strec o)
    | 3 => guardO (ok && herdOk) (.mov .hld o)
    | 4 => guardO (ok && herdOk) (.mov .hst o)
    | _ => none

/-- The mode code of MMUL (R174). -/
def modeOf : Nat → Option MmaMode
  | 0 => some .f8
  | 1 => some .bf16
  | 2 => some .fp16
  | 3 => some .i8
  | 4 => some .i4
  | _ => none

/-- The INIT code of MMUL (R174). -/
def initOf : Nat → Option MmaInit
  | 0 => some .zero
  | 1 => some .load
  | 2 => some .cont
  | _ => none

/-- The OKIND and LKIND codes (R174, R175). -/
def placeOf : Nat → Option Place
  | 0 => some .none
  | 1 => some .view
  | 2 => some .regs
  | _ => none

/-- MMUL (R174). With OKIND NONE the output fields are not used. -/
def decMmul (w : Nat) : Option TIns :=
  match modeOf (bits w 41 3), initOf (bits w 38 2), placeOf (bits w 22 2), fmtOf (bits w 12 4) with
  | some mode, some init, some ok, some f =>
    let o : MmulOps := {
      wait := credOf (bits w 48 4), post := credOf (bits w 44 4), mode := mode, set := bits w 40 1,
      init := init, av := bits w 32 6, akm := bit w 31, bv := bits w 25 6, bkm := bit w 24, okind := ok, out := bits w 16 6,
      ofmt := f, pair := bit w 11, sr := bit w 10, outT := bit w 9, keygrp := bits w 7 2, pslot := bits w 4 3, pg := bit w 3 }
    guardO (bits w 0 3 == 0 && waitOk .array o.wait && postOk .array true o.post
      && (ok != .regs || bits w 16 2 == 0)) (.mmul o)
  | _, _, _, _ => none

/-- The MMA class (R174, R175). -/
def decMma (w : Nat) : Option TIns :=
  match bits w 52 8 with
  | 0 => decMmul w
  | 1 => guardO (bits w 44 8 == 0 && bits w 0 3 == 0)
      (.mspan { slot := bits w 41 3, k0 := bits w 29 12, klen := bits w 17 12, mact := bits w 10 7, nact := bits w 3 7 })
  | 2 =>
    match placeOf (bits w 15 2), fmtOf (bits w 4 4) with
    | some .none, _ => guardO (bits w 44 8 == 0 && bits w 0 4 == 0)
        (.mwin { slot := bits w 41 3, rowoff := bits w 29 12, coloff := bits w 17 12, lkind := .none, lsrc := 0,
                 lpair := false, lfmt := .bf16 })
    | some lk, some f => guardO (bits w 44 8 == 0 && bits w 0 4 == 0 && (fmt16 f || f == .int32))
        (.mwin { slot := bits w 41 3, rowoff := bits w 29 12, coloff := bits w 17 12, lkind := lk, lsrc := bits w 9 6,
                 lpair := bit w 8, lfmt := f })
    | _, _ => none
  | _ => none

/-- The TYP code (R178). -/
def vtyOf : Nat → Option VTy
  | 0 => some .bf16
  | 1 => some .fp16
  | 2 => some .i16
  | _ => none

/-- A source field (R178). -/
def vsrcOf (x : Nat) : VSrc := { scl := bit x 7, neg := bit x 6, abs := bit x 5, reg := bits x 0 5 }

/-- An unused source field must be 0. -/
def srcZero (s : VSrc) : Bool := !s.scl && !s.neg && !s.abs && s.reg == 0

/-- A scalar source is numbered in 4 bits. -/
def srcNum (s : VSrc) : Bool := !s.scl || decide (s.reg < 16)

/-- An integer source takes no modifier (R178). -/
def srcInt (s : VSrc) : Bool := srcNum s && !s.neg && !s.abs

/-- A mask source: no scalar, no modifier, numbered in 3 bits (R178). -/
def srcMask (s : VSrc) : Bool := !s.scl && !s.neg && !s.abs && decide (s.reg < 8)

/-- A register source without modifiers. -/
def srcReg (s : VSrc) : Bool := !s.scl && !s.neg && !s.abs

/-- The relation of a CMP or ICMP code. -/
def relOf : Nat → Option Rel
  | 0 => some .eq
  | 1 => some .ne
  | 2 => some .lt
  | 3 => some .le
  | 4 => some .gt
  | 5 => some .ge
  | _ => none

/-- The VEC operation of a code (R178). -/
def vecOpOf (op : Nat) : Option VecOp :=
  match op with
  | 0x00 => some .add
  | 0x01 => some .mul
  | 0x02 => some .fma
  | 0x03 => some .min
  | 0x04 => some .max
  | 0x05 => some .sel
  | 0x06 => some .iadd
  | 0x07 => some .imin
  | 0x08 => some .imax
  | 0x20 => some .mand
  | 0x21 => some .mor
  | 0x22 => some .mxor
  | 0x23 => some .mandn
  | 0x24 => some .mnot
  | 0x30 => some .padd
  | _ =>
    if op < 0x18 then (if 0x10 ≤ op then (relOf (op - 0x10)).map VecOp.cmp else none)
    else (relOf (op - 0x18)).map VecOp.icmp

/-- A float type. -/
def vtyFloat : VTy → Bool
  | .i16 => false
  | _ => true

/-- The operand rules of a VEC operation (R178). -/
def vecOk (op : VecOp) (o : VecOps) : Bool :=
  let sub0 := !o.subTy && !o.subFawn
  match op with
  | .add => vtyFloat o.ty && srcNum o.a && srcNum o.b && srcZero o.c && sub0
  | .mul => vtyFloat o.ty && srcNum o.a && srcNum o.b && srcZero o.c && sub0
  | .fma => vtyFloat o.ty && srcNum o.a && srcNum o.b && srcNum o.c && sub0
  | .min => vtyFloat o.ty && srcNum o.a && srcNum o.b && srcZero o.c && sub0
  | .max => vtyFloat o.ty && srcNum o.a && srcNum o.b && srcZero o.c && sub0
  | .sel => (if vtyFloat o.ty then srcNum o.a && srcNum o.b else srcInt o.a && srcInt o.b) && srcMask o.c && sub0
  | .iadd => o.ty == .i16 && srcInt o.a && srcInt o.b && srcZero o.c && sub0
  | .imin => o.ty == .i16 && srcInt o.a && srcInt o.b && srcZero o.c && sub0
  | .imax => o.ty == .i16 && srcInt o.a && srcInt o.b && srcZero o.c && sub0
  | .cmp _ => vtyFloat o.ty && srcNum o.a && srcNum o.b && srcZero o.c && decide (o.dst < 8) && sub0
  | .icmp _ => o.ty == .i16 && srcInt o.a && srcInt o.b && srcZero o.c && decide (o.dst < 8) && sub0
  | .mand => o.ty == .bf16 && srcMask o.a && srcMask o.b && srcZero o.c && decide (o.dst < 8) && sub0
  | .mor => o.ty == .bf16 && srcMask o.a && srcMask o.b && srcZero o.c && decide (o.dst < 8) && sub0
  | .mxor => o.ty == .bf16 && srcMask o.a && srcMask o.b && srcZero o.c && decide (o.dst < 8) && sub0
  | .mandn => o.ty == .bf16 && srcMask o.a && srcMask o.b && srcZero o.c && decide (o.dst < 8) && sub0
  | .mnot => o.ty == .bf16 && srcMask o.a && srcZero o.b && srcZero o.c && decide (o.dst < 8) && sub0
  | .padd => vtyFloat o.ty && srcReg o.a && !o.b.scl && (if o.subFawn then srcReg o.c else srcZero o.c) && o.dst != o.a.reg

/-- The VEC class (R178). -/
def decVec (w : Nat) : Option TIns :=
  match vecOpOf (bits w 52 8), vtyOf (bits w 39 2) with
  | some op, some ty =>
    let o : VecOps := {
      vl := bits w 45 7 + 1, vr := bits w 41 4 + 1, ty := ty, sr := bit w 38, keygrp := bits w 36 2,
      men := bit w 35, mask := bits w 32 3, mz := bit w 31, dst := bits w 26 5, a := vsrcOf (bits w 18 8),
      b := vsrcOf (bits w 10 8), c := vsrcOf (bits w 2 8), subTy := bit w 0, subFawn := bit w 1 }
    guardO (vecOk op o) (.vec op o)
  | _, _ => none

/-- The CVT class (R179). -/
def decCvt (w : Nat) : Option TIns :=
  match bits w 52 8, fmtOf (bits w 40 4), fmtOf (bits w 36 4) with
  | 0, some sf, some df =>
    let sm := bit w 35
    let dm := bit w 28
    let o : CvtOps := {
      wait := credOf (bits w 48 4), post := credOf (bits w 44 4), sfmt := sf, dfmt := df, smem := sm,
      src := if sm then bits w 29 6 else bits w 29 5, dmem := dm, dst := if dm then bits w 22 6 else bits w 22 5,
      vl := bits w 15 7 + 1, vr := bits w 11 4 + 1, sr := bit w 10, keygrp := bits w 8 2, org := bits w 5 3,
      men := bit w 4, mask := bits w 1 3, mz := bit w 0 }
    guardO (waitOk .vector o.wait && postOk .vector sm o.post && (sm || (fmtInReg sf && bits w 34 1 == 0))
      && (dm || (fmtInReg df && bits w 27 1 == 0))) (.cvt o)
  | _, _, _ => none

/-- The axis code (R180). -/
def axisOf : Nat → Option Axis
  | 0 => some .row
  | 1 => some .col
  | 2 => some .all
  | _ => none

/-- The RED operation of a code (R180). -/
def redKindOf : Nat → Option RedKind
  | 0x00 => some (.red .sum)
  | 0x01 => some (.red .sumsq)
  | 0x02 => some (.red .max)
  | 0x03 => some (.red .min)
  | 0x04 => some (.red .maxabs)
  | 0x05 => some (.red .argmax)
  | 0x06 => some (.red .popc)
  | 0x10 => some .permc
  | 0x11 => some .permr
  | _ => none

/-- The operand rules of a RED operation (R180). -/
def redOk (op : RedKind) (o : RedOps) : Bool :=
  let dposOk : Bool :=
    match o.axis with
    | .row => decide (o.dpos < 128)
    | .col => decide (o.dpos < 16)
    | .all => o.dpos == 0 && decide (o.dst < 16)
  match op with
  | .red .argmax => vtyFloat o.ty && dposOk && o.idx == 0
  | .red .popc => dposOk && o.idx == 0 && decide (o.src < 8)
  | .red _ => dposOk && o.idx == 0
  | .permc => o.axis == .row && o.dpos == 0
  | .permr => o.axis == .row && o.dpos == 0

/-- The RED class (R180). -/
def decRed (w : Nat) : Option TIns :=
  match redKindOf (bits w 52 8), vtyOf (bits w 39 2), axisOf (bits w 29 2) with
  | some op, some ty, some ax =>
    let o : RedOps := {
      vl := bits w 45 7 + 1, vr := bits w 41 4 + 1, ty := ty, sr := bit w 38, keygrp := bits w 36 2,
      men := bit w 35, mask := bits w 32 3, mz := bit w 31, axis := ax, dst := bits w 24 5, src := bits w 19 5,
      idx := bits w 14 5, dpos := bits w 7 7 }
    guardO (bits w 0 7 == 0 && redOk op o) (.red op o)
  | _, _, _ => none

/-- The count of an engine in CWAIT or CPOST (R181). -/
def countOf (n : Counts) : Engine → Nat
  | .dma => n.dma
  | .array => n.array
  | .vector => n.vector
  | .store => n.store

/-- Counts from a CWAIT or CPOST word, each 0 to 31 (R181). -/
def countsOf (w : Nat) : Option Counts :=
  let n : Counts := { dma := bits w 42 6, array := bits w 36 6, vector := bits w 30 6, store := bits w 24 6 }
  guardO (decide (n.dma ≤ 31 ∧ n.array ≤ 31 ∧ n.vector ≤ 31 ∧ n.store ≤ 31) && bits w 48 2 == 0 && bits w 0 24 == 0
    && countOf n (engineOf (bits w 50 2)) == 0) n

/-- The COMBINE code (R181). -/
def combineOf : Nat → Combine
  | 0 => .lead
  | 1 => .sum
  | 2 => .max
  | _ => .min

/-- SUMM (R150, R181). -/
def decSumm (w : Nat) : Option TIns :=
  let kind := bits w 48 4
  match vtyOf (bits w 34 2) with
  | some ty =>
    let mark := kind == 4
    let o : SummOps := {
      kind := kind, tag := bits w 40 8, clr := bit w 39, drain := bit w 38,
      combine := combineOf (bits w 36 2), ty := ty, imm := if mark then bits w 0 32 else 0,
      vl := if mark then 1 else bits w 25 7 + 1, vr := if mark then 1 else bits w 21 4 + 1, men := !mark && bit w 20,
      mask := if mark then 0 else bits w 17 3, reg := if mark then 0 else bits w 12 5, k := if mark then 1 else bits w 9 3 + 1 }
    let data := kind == 1 || kind == 2
    guardO (decide (kind ≤ 4) && bits w 32 2 == 0 && vtyFloat ty && (data || ty == .bf16) && (mark || bits w 0 9 == 0)
      && (kind != 0 || decide (o.reg < 16)) && (kind != 3 || decide (o.reg < 8)))
      (.summ o)
  | none => none

/-- The SYN class (R181). -/
def decSyn (w : Nat) : Option TIns :=
  let e := engineOf (bits w 50 2)
  let semOk := bits w 48 2 == 0 && bits w 0 24 == 0 && bits w 24 16 != 0
  match bits w 52 8 with
  | 0 => (countsOf w).map (.cwait e)
  | 1 => (countsOf w).map (.cpost e)
  | 2 => guardO semOk (.semwait e (bits w 40 8) (bits w 24 16))
  | 3 => guardO semOk (.semsig e (bits w 40 8) (bits w 24 16))
  | 4 => decSumm w
  | 5 => guardO (bits w 5 47 == 0) (.flagclr (bits w 0 5))
  | _ => none

/-- The COL class (R182). -/
def decCol (w : Nat) : Option TIns :=
  let o : ColOps := {
    wait := credOf (bits w 48 4), sslot := bits w 40 4, dslot := bits w 36 4, group := bits w 24 12,
    sem := bits w 16 8, rop := bits w 12 4 }
  guardO (decide (bits w 52 8 ≤ 2) && bits w 44 4 == 0 && bits w 0 12 == 0 && waitOk .store o.wait) (.col (bits w 52 8) o)

/-- A tile instruction from its word; none where it is illegal by its class table (R168). -/
def tileDecode (w : Nat) : Option TIns :=
  match bits w 60 4 with
  | 0 => decCtl w
  | 1 => decMov w
  | 2 => decMma w
  | 3 => decVec w
  | 4 => decCvt w
  | 5 => decRed w
  | 6 => decSyn w
  | 7 => decCol w
  | _ => none

/-- The engine that executes an instruction; none for the dispatcher (R168, R169). -/
def tinsEngine : TIns → Option Engine
  | .nop => none
  | .vbase _ _ => none
  | .trap _ => none
  | .mov .ld _ => some .dma
  | .mov .hld _ => some .dma
  | .mov _ _ => some .store
  | .mmul _ => some .array
  | .mspan _ => none
  | .mwin _ => none
  | .vec _ _ => some .vector
  | .cvt _ => some .vector
  | .red _ _ => some .vector
  | .cwait e _ => some e
  | .cpost e _ => some e
  | .semwait e _ _ => some e
  | .semsig e _ _ => some e
  | .summ _ => some .vector
  | .flagclr _ => some .vector
  | .col _ _ => some .store

/-- The format fits the mode (R107). -/
def modeFits (m : MmaMode) (f : Fmt) : Bool :=
  match m with
  | .f8 => fmtFp8 f
  | .bf16 => f == .bf16
  | .fp16 => f == .fp16
  | .i8 => f == .int8
  | .i4 => f == .int4

/-- The output format and mode stand in the table of R123. -/
def outFits (o : MmulOps) : Bool :=
  match o.okind with
  | .none => true
  | .view =>
    if o.pair then fmt16 o.ofmt && !mmaIsInt o.mode
    else fmt16 o.ofmt || (fmtFp8 o.ofmt && !mmaIsInt o.mode) || (o.ofmt == .int32 && mmaIsInt o.mode)
  | .regs => fmt16 o.ofmt && !(o.pair && mmaIsInt o.mode)

/-- The LOAD source fits the MMUL (R176). Bits [10:9] of the LSRC of a register source are not looked at (DESIGN CHOICE, log entry 110). -/
def loadFits (views : List View) (o : MmulOps) (p : PSlot) : Bool :=
  p.lkind != .none && (if mmaIsInt o.mode then p.lfmt == .int32 else fmt16 p.lfmt)
    && !(p.lpair && (mmaIsInt o.mode || p.lfmt == .int32))
    && (match p.lkind with
        | .regs => p.lfmt != .int32 && p.rowoff == 0 && p.coloff == 0
            && !(p.lpair && bits p.lsrc 4 2 == bits p.lsrc 2 2)
        | .view =>
          match views[p.lsrc]? with
          | some v => v.fmt == p.lfmt && (!p.lpair || v.fawnEn)
          | none => false
        | .none => false)

/-- An MMUL is legal with the slot it names (R107, R176). -/
def mmulOk (views : List View) (o : MmulOps) (p : PSlot) : Bool :=
  match views[o.av]?, views[o.bv]? with
  | some a, some b =>
    modeFits o.mode a.fmt && modeFits o.mode b.fmt && outFits o
      && (match o.okind with
          | .none => true
          | .view =>
            match views[o.out]? with
            | some v => v.fmt == o.ofmt && (!o.pair || v.fawnEn)
            | none => false
          | .regs => p.rowoff == 0 && p.coloff == 0 && !(o.pair && bits o.out 4 2 == bits o.out 2 2))
      && (o.init != .load || loadFits views o p)
  | _, _ => false

/-- The parameter slot that MSPAN leaves (R175). -/
def spanSlot (o : SpanOps) (p : PSlot) : PSlot :=
  { p with k0 := 16 * o.k0, k := 16 * (o.klen + 1), m := o.mact + 1, n := o.nact + 1 }

/-- The parameter slot that MWIN leaves (R175). -/
def winSlot (o : WinOps) (p : PSlot) : PSlot :=
  { p with rowoff := 16 * o.rowoff, coloff := 16 * o.coloff, lkind := o.lkind, lsrc := o.lsrc, lpair := o.lpair,
           lfmt := o.lfmt }

/-- A MOV fits its descriptor, its mark and its view (R173, R196, R242). -/
def movOk (descs : List Desc) (marks : List Nat) (views : List View) (op : MovOp) (o : MovOps) : Bool :=
  match views[o.view]? with
  | none => false
  | some v =>
    match op with
    | .hld => (!o.recs || v.recEn) && (!o.fawn || v.fawnEn)
    | .hst => (!o.recs || v.recEn) && (!o.fawn || v.fawnEn)
    | _ =>
      match descs[o.dslot]?, marks[o.dslot]? with
      | some d, some k =>
        v.fmt == d.fmt
          && (if op == .ld then bit k 0 else bit k 1)
          && (d.versioned == (o.vsel != .plain))
          && (op == .ld || o.vsel != .current)
          && (!(o.recs || op == .strec) || v.recEn)
          && (!o.fawn || (d.fawnPtr != 0 && v.fawnEn))
      | _, _ => false

/-- One instruction is legal against the tables of its segment (R196); `ps` are the parameter slots before it. -/
def insOk (descs : List Desc) (marks : List Nat) (views : List View) (ps : List PSlot) (i : TIns) : Bool :=
  match i with
  | .vbase v _ => decide (v < views.length)
  | .mov op o => movOk descs marks views op o
  | .mmul o => mmulOk views o (ps.getD o.pslot {})
  | .mwin o => o.lkind != .view || decide (o.lsrc < views.length)
  | .cvt o =>
    (!o.smem || (match views[o.src]? with | some v => v.fmt == o.sfmt | none => false))
      && (!o.dmem || (match views[o.dst]? with | some v => v.fmt == o.dfmt | none => false))
  | .col _ o =>
    (match marks[o.sslot]? with | some k => bit k 0 | none => false)
      && (match marks[o.dslot]? with | some k => bit k 1 | none => false)
  | _ => true

/-- The parameter slots after an instruction (R175). -/
def slotsAfter (ps : List PSlot) : TIns → List PSlot
  | .mspan o => setAt ps o.slot (spanSlot o (ps.getD o.slot {}))
  | .mwin o => setAt ps o.slot (winSlot o (ps.getD o.slot {}))
  | _ => ps

/-- Every instruction word of a segment is legal (R196). -/
def codeOk (descs : List Desc) (marks : List Nat) (views : List View) : List PSlot → List Nat → Bool
  | _, [] => true
  | ps, w :: r =>
    match tileDecode w with
    | some i => insOk descs marks views ps i && codeOk descs marks views (slotsAfter ps i) r
    | none => false

/-- The fields of a segment header (R194). -/
structure Header where
  segId : Nat
  budget : Nat
  fit : Bool
  nDesc : Nat
  nView : Nat
  nInstr : Nat
deriving DecidableEq, Repr

/-- A header word; none where it is invalid (R194). -/
def headerOf (w : Nat) : Option Header :=
  guardO (bits w 0 4 == 1 && bits w 4 7 == 0 && decide (bits w 30 5 ≤ 16) && decide (bits w 23 7 ≤ 64))
    { segId := bits w 48 16, budget := (bits w 36 12 + 1) * 256, fit := bit w 35, nDesc := bits w 30 5, nView := bits w 23 7,
      nInstr := bits w 11 12 + 1 }

/-- A descriptor pointer word has no bit set that R193 requires to be 0. -/
def ptrOk (w : Nat) : Bool := bits w 56 7 == 0 && bits w 2 4 == 0

/-- The default parameter slots (R175). -/
def defaultSlots : List PSlot := List.replicate 8 {}

end Sys2Proof.Machine
end

