-- ==== Sys2Proof/Machine/Ops.lean ====
section
/-!
DEFINITION. Ops.lean: loads and stores of unified memory, through the homes of the package or over the fabric, the event ring, and
performance counters.
-/

namespace Sys2Proof.Machine

/-! ### Afraeri ports and remote requests (R331 to R343) -/

/-- The package id (R338). -/
def State.pkgId (s : State) : Nat := s.fget (R.AFR_ID 0) F.AFR_ID_PKG_ID
/-- The role epoch (R344). -/
def State.epoch (s : State) : Nat := s.fget (R.AFR_ID 0) F.AFR_ID_EPOCH
/-- A port. -/
def State.port (s : State) (g : Nat) : Port := Map.get {} s.ports g
/-- Replace a port. -/
def State.setPort (s : State) (g : Nat) (x : Port) : State := { s with ports := Map.put {} s.ports g x }
/-- A port is up (R336). -/
def State.portUp (s : State) (g : Nat) : Bool := s.fbit (R.AFR_PORT_STATUS g) F.AFR_PORT_STATUS_UP

/-- Slots that a message takes (R332). -/
def msgSlots (m : AfrMsg) : Nat := 1 + m.data.length

/-- The first message of a channel that has the credits for all of its slots (R334). -/
def Port.firstOf (x : Port) (vc : Nat) : Option AfrMsg :=
  match x.tx.find? fun m => m.vc == vc with
  | some m => if msgSlots m ≤ x.credit.getD vc 0 then some m else none
  | none => none

/-- The message that the transmitter sends next: CTRL, then RSP, then 2^COLL_WT COLL messages for each REQ while both wait
(R334). -/
def Port.choose (x : Port) (wt : Nat) : Option AfrMsg :=
  match x.firstOf 3, x.firstOf 1, x.firstOf 2, x.firstOf 0 with
  | some m, _, _, _ => some m
  | none, some m, _, _ => some m
  | none, none, some c, some r => if x.collRun < 2 ^ wt then some c else some r
  | none, none, some c, none => some c
  | none, none, none, r => r

/-- The lowest channel whose credits have yet to go back. -/
def Port.owes (x : Port) : Nat := ((List.range 4).find? fun v => x.owed.getD v 0 != 0).getD 0

/-- A flit leaves on the link: it carries the last data flit received in order, whether a replay is asked for, and credits (R331, R333,
R334). -/
def Port.put (x : Port) (kind seq : Nat) (nak : Bool) (ms : List AfrMsg) : Port :=
  let v := x.owes
  let n := min 255 (x.owed.getD v 0)
  { x with lane := x.lane ++ [flitWord kind seq ((x.want + 1023) % 1024) nak v n ms], owed := setAt x.owed v (x.owed.getD v 0 - n) }

/-- An idle flit leaves. -/
def State.idleFlit (s : State) (g : Nat) (nak : Bool) : State := s.setPort g ((s.port g).put 1 0 nak [])

/-- A message leaves in the next data flit, which waits in the replay buffer for its ACK (R333). One message goes into each
data flit (log entry 33). -/
def Port.emit (x : Port) (m : AfrMsg) : Port :=
  { x.put 0 x.seq false [m] with
      tx := x.tx.erase m, seq := (x.seq + 1) % 1024, replay := x.replay ++ [(x.seq, [m])],
      credit := setAt x.credit m.vc (x.credit.getD m.vc 0 - msgSlots m),
      collRun := if m.vc = 2 then x.collRun + 1 else if m.vc = 0 then 0 else x.collRun }

/-- Data flits that the replay buffer holds (R333). -/
def replayMax : Nat := 512

/-- Send what waits at a port, as long as its credits and its replay buffer allow; at most `n` messages. While the buffer is full idle
flits leave (R333). -/
def State.pump (g : Nat) : Nat → State → State
  | 0, s => s
  | n + 1, s =>
    let x := s.port g
    if replayMax ≤ x.replay.length then s.idleFlit g false
    else
      match x.choose (s.fget (R.AFR_PORT_CTL g) F.AFR_PORT_CTL_COLL_WT) with
      | some m => State.pump g n ((s.setPort g (x.emit m)).bwAdd (B.afrPort g + 0x100) 1 (16 * msgSlots m))
      | none => s

/-- Hand a message to the transmitter of a port that is up. -/
def State.sendOn (s : State) (g : Nat) (m : AfrMsg) : State :=
  s.when (s.portUp g) fun s => State.pump g ((s.port g).tx.length + 1) (s.setPort g { s.port g with tx := (s.port g).tx ++ [m] })

/-- The flit of a port's HELLO (R336, log entry 33). -/
def State.helloFlit (s : State) (g : Nat) : Nat :=
  flitWord 0 0 1023 false 0 0
    [{ vc := 3, typ := 0x32, dst := 0xFFFF, src := s.pkgId, epoch := 0, len := 1, tag := 0, arg := 0,
       data := [Config.helloSlot s.pkgId (g / 18) g s.epoch % 2 ^ 128] }]

/-- A port trains, where its EN is 1: it sends its HELLO, in a data flit of its own (R336, log entry 33). -/
def State.trains (s : State) (g : Nat) : State :=
  let en := s.fget (R.AFR_PORT_CTL g) F.AFR_PORT_CTL_EN
  (s.fset (R.AFR_PORT_STATUS g) F.AFR_PORT_STATUS_TRAINING en).when (en == 1) fun s =>
    s.setPort g { s.port g with lane := (s.port g).lane ++ [s.helloFlit g] }

/-- The members of a trunk of a die that are up, ascending (R337). -/
def State.trunkPorts (s : State) (d k : Nat) : List Nat :=
  ((List.range 18).map fun i => 18 * d + i).filter fun g => (s.port g).trunk == k && s.portUp g

/-- The route entry of a package id at a die (R338); an entry for the package's own id is ignored. -/
def State.route (s : State) (d dst : Nat) : Option Nat :=
  let e := bits (s.fget (R.AFR_ROUTE d (dst / 8)) F.AFR_ROUTE_ENTRIES) (8 * (dst % 8)) 8
  if bit e 7 && dst != s.pkgId && (bit e 6 || decide (e % 64 < 36)) then some (e % 128) else none

/-- The line by which a trunk keeps messages in order (R337). -/
def msgLine (m : AfrMsg) : Nat := m.arg % 2 ^ 42 / 64

/-- The port over which a message leaves by a route entry: the port itself, or a member of the trunk, chosen by a hash for REQ
and RSP with the line that they are of, round robin for COLL, and the lowest for CTRL (R337). -/
def State.outPort (s : State) (e : Nat) (m : AfrMsg) (line : Nat) : Option Nat × State :=
  if e < 64 then (some e, s)
  else
    let key := e % 32
    let l := s.trunkPorts (key / 16) (key % 16)
    if l = [] then (none, s)
    else if m.vc = 2 then
      let n := Map.get 0 s.trunkRr key
      (l[n % l.length]?, { s with trunkRr := Map.put 0 s.trunkRr key ((n + 1) % l.length) })
    else if m.vc = 3 then (l[0]?, s)
    else (l[Config.trunkMember l m.src m.dst line % l.length]?, s)

/-- A new message of a trunk falls into a hash bucket of the member that has gone down (R337). -/
def TrunkHold.takes (h : TrunkHold) (e : Nat) (m : AfrMsg) (line : Nat) : Bool :=
  decide (64 ≤ e) && h.key == e % 32 && decide (m.vc < 2)
    && h.before[Config.trunkMember h.before m.src m.dst line % h.before.length]? == some h.fell

/-- Send a message of a line toward its destination from a die, over the link to the other die where its port is there: the port it takes, or none where no port takes it, or where it waits for the
replay of a fallen member of its trunk (R337). -/
def State.sendVia (s : State) (d : Nat) (m : AfrMsg) (line : Nat) : Option Nat × State :=
  match s.route d m.dst with
  | none => (none, s)
  | some e =>
    match s.holds.findIdx? fun h => h.takes e m line with
    | some i => (none, { s with holds := s.holds.modify i fun h => { h with waiting := h.waiting ++ [(m, line)] } })
    | none =>
      match s.outPort e m line with
      | (some g, s1) => (some g, (s1.carry d (g / 18) line (16 * msgSlots m)).sendOn g m)
      | (none, s1) => (none, s1)

/-- Send a message toward its destination from a die: a request names its line. -/
def State.sendTo (s : State) (d : Nat) (m : AfrMsg) : Option Nat × State := s.sendVia d m (msgLine m)

/-- A message that a trunk has sent again still waits for its acknowledgement. -/
def State.holdPends (s : State) (h : TrunkHold) : Bool :=
  s.ports.any fun e => (e.2.tx ++ e.2.replay.flatMap fun r => r.2).any fun m => h.sent.contains m

/-- Once the replay of a fallen member has been acknowledged, the messages that waited for it leave (R337). -/
def State.holdsEnd (s : State) : State :=
  (s.holds.filter fun h => !s.holdPends h).foldl
    (fun s h => h.waiting.foldl (fun s m => (s.sendVia (h.key / 16) m.1 m.2).2) s)
    { s with holds := s.holds.filter fun h => s.holdPends h }

/-- The lowest transaction number of the package that is free. -/
def State.freeTag (s : State) : Option Nat :=
  firstUpTo 4096 fun t => !(s.rreqs.any fun e => e.1 % 4096 == t) && !s.colls.any fun e => e.2.any fun c => c.tag == t

/-- The request that an access through a window becomes (R332, R341): `wr` holds the line written and the mask of its bytes. -/
def remoteMsg (src tag e off : Nat) (wr : Option (Nat × Nat)) : AfrMsg :=
  let m : AfrMsg := { vc := 0, typ := 0, dst := bits e 0 16, src := src, epoch := bits e 16 16, len := 0, tag := tag,
                      arg := bits e 59 3 * 2 ^ 42 + off / 64 * 64, data := [] }
  match wr with
  | none => m
  | some (v, k) =>
    if k = 2 ^ 64 - 1 then { m with typ := 1, len := 4, data := toWords 128 4 v }
    else { m with typ := 2, len := 5, data := k :: toWords 128 4 v }

/-- The line that n bytes of v at an offset become, and their mask. -/
def lineBytes (off n v : Nat) : Nat × Nat := ((v % 2 ^ (8 * n)) <<< (8 * (off % 64)), (2 ^ n - 1) <<< (off % 64))

/-- A remote request leaves with a transaction number (R341, R343). A request that no port takes waits for its timeout. -/
def State.sendReq (s : State) (die tag : Nat) (q : RReq) : State :=
  let z := s.sendTo die (remoteMsg s.pkgId tag (s.fget (R.AFR_WIN die q.win) F.AFR_WIN_ENTRY) q.off q.wr)
  { z.2 with rreqs := z.2.rreqs.insert (4096 * die + tag) { q with port := z.1 } }

/-- The place of the next remote request in the order of issue. -/
def State.nextSeq (s : State) : Nat := s.rreqs.foldl (fun n e => max n (e.2.seq + 1)) (s.rwait.foldl (fun n e => max n (e.2.seq + 1)) 0)

/-- The oldest remote request that waits takes a transaction number that is free. -/
def State.nextReq (s : State) : State :=
  match s.rwait, s.freeTag with
  | e :: l, some tag => { s with rwait := l }.sendReq e.1 tag e.2
  | _, _ => s

/-- The remote requests that wait leave, oldest first, as far as there are transaction numbers (log entry 41). -/
def State.sendReqs (s : State) : State := forRange s.rwait.length (fun _ s => s.nextReq) s

/-- An entry of a pass reaches its lines from the die where they lie, and every line that it reads or writes is charged (R214). -/
def Reach.passes (r : Reach) : Bool := match r.who with | .pass _ _ _ => true | _ => false

/-- Issue a remote access through a window (R341, R343): false where its package has no route (R338). The payload of a write is charged to
the fabric regulator (R290). -/
def State.remote (s : State) (r : Reach) (die win off : Nat) (wr : Option (Nat × Nat)) : Bool × State :=
  let q : RReq := { write := wr.isSome, ag := r.ag, win := win, off := off, part := r.part, port := none, who := r.who, wr := wr,
                    seq := s.nextSeq }
  match s.route die (bits (s.fget (R.AFR_WIN die win) F.AFR_WIN_ENTRY) 0 16) with
  | none => (false, s)
  | some _ =>
    (true, { s.when wr.isSome (fun s => s.chargeLine r.part 2 (remoteKey win off) true) with
             rwait := s.rwait ++ [(die, q)] }.sendReqs)

/-- A line with the bytes that a mask names taken from another. -/
def overLine (v w mask : Nat) : Nat := forRange 64 (fun i v => if bit mask i then setBits v (8 * i) 8 (bits w (8 * i) 8) else v) v

/-- A line that has come, with what the same piece of work has since written to it (R343). -/
def State.seenLine (s : State) (who : Asker) (win off v : Nat) : Nat :=
  let mine (q : RReq) : Bool := q.who == who && q.win == win && q.off / 64 == off / 64
  let l := ((s.rreqs.map fun (e : Nat × RReq) => e.2) ++ s.rwait.map fun e => e.2).filter mine
  (l.mergeSort fun a b => decide (a.seq ≤ b.seq)).foldl
    (fun v q => match q.wr with | some w => overLine v w.1 w.2 | none => v) v

/-! ### Loads and stores -/

/-- A line access that a unit makes to a frame is issued (R28, R271, R290, R291): it is counted against the range, charged to the
regulator, and carried to the home; false where it does not arrive. -/
def State.reach (s : State) (r : Reach) (a f out back : Nat) (write : Bool) : Bool × State :=
  let k := f / 2 ^ 20
  let die := if r.passes then homeDie k else r.die
  let s1 := if a < 2 ^ 42 then s.touch die (a / 2 ^ 20) else s
  match (s1.chargeLine r.part (tierOfKey k) (f / 64) write).cross die (homeDie k) (f / 64) out back with
  | (true, s2) => (true, s2)
  | (false, s2) => (false, s2.linkRefusal die (homeDie k))

/-- A unit, as it stands behind an access of a piece of work whose accesses may wait (log entry 111). -/
def State.asker (s : State) (r : Reach) : Reach :=
  if s.acc.on && r.who == .agent then { r with who := .unit s.acc.unit, got := Map.get [] s.came s.acc.unit } else r

/-- The work under way cannot go on: its first such access says what it waits for. -/
def State.halts (s : State) (h : Halt) : State :=
  if s.acc.on && s.acc.halt.isNone then { s with acc := { s.acc with halt := some h } } else s

/-- The remote request by which a unit asks for a line behind a window. -/
def Reach.ask (r : Reach) (win off : Nat) : RReq :=
  { write := false, ag := r.ag, win := win, off := off, part := r.part, port := none, who := r.who, seq := 0 }

/-- Load n bytes through a window: a unit takes the line that has come for it, which is charged where a pass reads it (R214), or waits
(R343); for accesses that do not wait the value is
open (log entry 41). -/
def State.loadWindow (s : State) (q : Reach) (a n die win off : Nat) : Ld × State :=
  let r := s.asker q
  let seen : State := if a < 2 ^ 42 then s.touch r.die (a / 2 ^ 20) else s
  match r.got.find? (remoteKey win off), r.who with
  | some (.ok v), _ =>
    ((Ld.ok (s.seenLine r.who win off v)).slice (off % 64) n,
     seen.when r.passes fun s => s.chargeLine r.part 2 (remoteKey win off) false)
  | some e, _ => (e, seen)
  | none, .agent =>
    match seen.remote r die win off none with
    | (true, s1) => (.ok (s1.draw.1 % 2 ^ (8 * n)), s1.draw.2)
    | (false, s1) => (.decode, s1.decodeErr)
  | none, _ =>
    if (s.route die (bits (s.fget (R.AFR_WIN die win) F.AFR_WIN_ENTRY) 0 16)).isSome then (.wait a, s.halts (.ask die (r.ask win off)))
    else (.decode, s.decodeErr)

/-- What an access of work that may wait meets at a line: the final phase of a migration, or a refresh slot at its channel (R62, R308). An
access that an action of a boundary issues reaches its channel after that boundary's slot (log entry 111). -/
def State.lineWait (s : State) (line : Nat) : Option Halt :=
  if !s.acc.on then none
  else if s.finalLine line then some (.final line)
  else if decide (9 ≤ s.clk.phase) && s.slotWait (unitOf line).1 then some .slot
  else none

/-- Load n bytes that lie in one line. -/
def State.loadLineE (ev : ErrEv) (s : State) (r : Reach) (a n : Nat) : Ld × State :=
  match s.xlate r false a with
  | .frame f =>
    match s.lineWait (f / 64) with
    | some h => (.wait a, s.halts h)
    | none =>
      match s.reach r a f 16 80 false with
      | (true, s1) =>
        match State.homeLoad ev s1 f n with
        | (some v, s2) => (.ok v, s2)
        | (none, s2) => (.data, s2.ueAt (f / 64))
      | (false, s1) => (.timeout, s1)
  | .window die win off => s.loadWindow r a n die win off
  | .bad => (.decode, s.decodeErr)
  | .fence d => (.timeout, s.fenceRefusal 3 d)

/-- What a store writes within one line: n bytes, or the bytes of the line that a mask names. -/
inductive StoreForm where
  | bytes (n v : Nat)
  | masked (v mask : Nat)
deriving DecidableEq, Repr

/-- Bytes of its request on a link (R302). -/
def StoreForm.size : StoreForm → Nat
  | .bytes n _ => if n = 64 then 80 else 96
  | .masked _ _ => 96
/-- The line and mask that it sends through a window at an offset. -/
def StoreForm.line (off : Nat) : StoreForm → Nat × Nat
  | .bytes n v => lineBytes off n v
  | .masked v mask => (v, mask)
/-- It is carried out at the home of a frame address. -/
def StoreForm.home (ev : ErrEv) (s : State) (f : Nat) : StoreForm → Bool × State
  | .bytes n v => State.homeStore ev s f n v
  | .masked v mask => State.homeMask ev s (f / 64) v mask

/-- Store within one line; `sa` is the SAVED_ACT hint. -/
def State.storeFormE (ev : ErrEv) (s : State) (r : Reach) (sa : Bool) (a : Nat) (w : StoreForm) : Ld × State :=
  match s.xlate r true a with
  | .frame f =>
    match s.lineWait (f / 64) with
    | some h => (.wait a, s.halts h)
    | none =>
      match s.reach r a f w.size 16 true with
      | (true, s1) =>
        match w.home ev (if a < 2 ^ 42 ∧ sa then s1.savedWrite (a / 2 ^ 20) else s1) f with
        | (true, s2) => (.ok 0, s2)
        | (false, s2) => (.data, s2.ueAt (f / 64))
      | (false, s1) => (.timeout, s1)
  | .window die win off =>
    match (if a < 2 ^ 42 then (s.touch r.die (a / 2 ^ 20)).markPeer a else s).remote (s.asker r) die win off (some (w.line off)) with
    | (true, s1) => (.ok 0, s1)
    | (false, s1) => (.decode, s1.decodeErr)
  | .bad => (.decode, s.decodeErr)
  | .fence d => (.timeout, s.fenceRefusal 3 d)

/-- Store n bytes that lie in one line. -/
def State.storeLineE (ev : ErrEv) (s : State) (r : Reach) (sa : Bool) (a n v : Nat) : Ld × State :=
  State.storeFormE ev s r sa a (.bytes n v)

/-! ### The event ring (R399) and the alert (R479) -/

/-- A condition of R479 becomes true: MGMT_ALERT_L is asserted, and a target with a dynamic address sends an in-band
interrupt. -/
def State.alert (s : State) : State :=
  { s with mgmt := { s.mgmt with alert := true, ibis := if s.mgmt.dyn.isSome then s.mgmt.ibis + 1 else s.mgmt.ibis } }

/-- Write the record of an event, a full line of the ring. What the channel meets while a request that waits at that line is served raises
no event of its own (log entry 43). -/
def State.putRing (s : State) (a : Nat) (ws : List Nat) : State :=
  (State.storeLineE (fun s _ => s) s Reach.server false a 64 (ofWords 64 ws)).2

/-- Raise an event that names the field `f` of the register at `off` (the whole register where f is none), carrying the
values `args`. -/
def State.event (s : State) (off : Nat) (f : Option Fld) (args : List Nat) : State :=
  let n := 2 ^ (s.fget R.PKG_EVQ F.PKG_EVQ_SIZE_LOG2 + 4)
  let tail := s.fget R.PKG_EVQ_PTR F.PKG_EVQ_PTR_TAIL
  let head := s.fget R.PKG_EVQ_PTR F.PKG_EVQ_PTR_HEAD
  let next := (tail + 1) % n
  if next = head then { s with evqLost := true }.fadd R.PKG_EVQ_PTR F.PKG_EVQ_PTR_LOST 1
  else
    let lsb := match f with | some x => x.lo | none => 0x3F
    let w0 := b2n s.evqPhase * 2 ^ 63 + off % 2 ^ 32 / 8 * 2 ^ 32 + lsb * 2 ^ 26
    let arg (i : Nat) : Nat := args.getD i 0 % 2 ^ 64
    let a5 := if s.evqLost then s.fget R.PKG_EVQ_PTR F.PKG_EVQ_PTR_LOST else arg 5
    let s1 := s.putRing (s.fget R.PKG_EVQ F.PKG_EVQ_ADDR * 4096 + 64 * tail)
      [w0, s.tick, arg 0, arg 1, arg 2, arg 3, arg 4, a5]
    let s2 := { s1 with evqLost := false, evqPhase := if next = 0 then !s1.evqPhase else s1.evqPhase,
                        evqIrq := s1.evqIrq || (tail == head && s1.fbit R.PKG_EVQ F.PKG_EVQ_IRQ_EN) }.fset R.PKG_EVQ_PTR
      F.PKG_EVQ_PTR_TAIL next
    s2.when (tail == head && !s2.fbit R.PKG_EVQ F.PKG_EVQ_IRQ_EN) State.alert

/-- The event of a unit's error record (R317). -/
def unitEvent : ErrEv := fun s u => s.event (errAddrReg u) (some F.STK_ERR_ADDR_KIND) []

/-! ### Work that waits (R62, R291, R308, R343; log entry 111) -/

/-- The units whose accesses may wait: the fetch of a tile's segments, the GATHER segment of a tile, its MOV instructions, the intake stream and the snapshot of a
partition, an Ethernet port, a slot of a step scheduler, a group at a collective engine, a port's requests that this package
serves, and an agent's request for a line. -/
def fetchUnit (t : Nat) : Nat := t
def gatherUnit (t : Nat) : Nat := 256 + t
def movUnit (t : Nat) : Nat := 512 + t
def inkUnit (p : Nat) : Nat := 2000 + p
def snapUnit (p : Nat) : Nat := 3000 + p
def ethUnit (e : Nat) : Nat := 4000 + e
def schedUnit (p k : Nat) : Nat := 5000 + 4 * p + k
def portUnit (g : Nat) : Nat := 7000 + g
def rootUnit (rp : Nat) : Nat := 8000 + rp
def collUnit (d g : Nat) : Nat := 10000 + 4096 * d + g
def lineUnit (ag line : Nat) : Nat := 2 ^ 60 + 1024 * line + ag

/-- A unit has issued requests whose answers are still to come (R343). -/
def State.unitAsks (s : State) (u : Nat) : Bool :=
  (s.rreqs.any fun e => e.2.who == .unit u) || s.rwait.any fun e => e.2.who == .unit u

/-- A unit has asked for a line that is still to come. -/
def State.unitReads (s : State) (u : Nat) : Bool :=
  (s.rreqs.any fun e => e.2.who == .unit u && !e.2.write) || s.rwait.any fun e => e.2.who == .unit u && !e.2.write

/-- A single request needs tokens, which `due` lists as a piece of work does: true once its unit has them, and until then it waits before
issue (R291). -/
def State.ticket (s : State) (u : Nat) (due : List (Nat × Nat × Nat)) : Bool × State :=
  match s.tickets.find? u with
  | some m => if s.regPast m then (true, { s with tickets := s.tickets.erase u }) else (false, s)
  | none =>
    match s.chargeAll due with
    | (s1, []) => (true, s1)
    | (s1, m) => (false, { s1 with tickets := s1.tickets.insert u m })

/-- The token of a line that a partition reads or writes in a tier (R290). -/
def dueLine (part : Option Nat) (t : Nat) : List (Nat × Nat × Nat) :=
  match part with
  | some p => if p < 8 then [(4 * p + t, 1, 1)] else []
  | none => []

/-- A piece of work is done as a unit whose accesses may wait, and its tokens noted. -/
def State.attempt (s : State) (u : Nat) (paid : Bool) (f : State → State) : State := f { s with acc := { on := true, unit := u, paid := paid } }

/-- What the work that cannot go on has asked for: a line behind a window is asked for once, and an access to a line in a final phase is
counted with those that wait there. -/
def State.haltAt (s : State) (u : Nat) (h : Halt) : State :=
  match h with
  | .slot => s
  | .final line =>
    { s with migs := s.migs.map fun e =>
        if s.migSrc e.2 == some (line / 16384) && !e.2.redone.contains line then (e.1, { e.2 with redone := e.2.redone ++ [line] }) else e }
  | .ask die q =>
    if (s.rreqs.any fun e => e.2.who == q.who && e.2.win == q.win && e.2.off / 64 == q.off / 64 && !e.2.write)
        || s.rwait.any fun e => e.2.who == q.who && e.2.win == q.win && e.2.off / 64 == q.off / 64 && !e.2.write then s
    else { s with rwait := s.rwait ++ [(die, { q with seq := s.nextSeq })] }.sendReqs

/-- The work of a unit ends: what had come for it and its tokens are used up. -/
def State.workEnds (s : State) (u : Nat) : State :=
  { s with acc := {}, came := s.came.erase u, tickets := s.tickets.erase u }

/-- The work of a unit as far as it comes: what its accesses need and wait for stands in `acc`. -/
def State.workTry (s : State) (u : Nat) (f : State → State) : State := s.attempt u (s.tickets.find? u).isSome f

/-- The tokens that the work of a unit needs and has not waited for: none where `ok` is false, for work that has been refused. -/
def State.workDue (s : State) (u : Nat) (ok : State → Bool) (f : State → State) : List (Nat × Nat × Nat) :=
  let t := s.workTry u f
  if (s.tickets.find? u).isSome || !ok t then [] else t.acc.due

/-- The tokens that the work of a unit waits for have come. -/
def State.workFree (s : State) (u : Nat) : Bool := match s.tickets.find? u with | some m => s.regPast m | none => true

/-- The work of a unit can be done now: its accesses wait for nothing, and it has its tokens. -/
def State.workGoes (s : State) (u : Nat) (ok : State → Bool) (f : State → State) : Bool :=
  s.workFree u && (s.workTry u f).acc.halt.isNone && (s.chargeAll (s.workDue u ok f)).2.isEmpty

/-- The package once the work of a unit is done: its tokens are charged, and nothing of it waits. -/
def State.workDone (s : State) (u : Nat) (ok : State → Bool) (f : State → State) : State :=
  ((s.workTry u f).chargeAll (s.workDue u ok f)).1.workEnds u

/-- The work of a unit is done, or waits for what its accesses wait for: then nothing of it has happened but that its requests have been
issued, and its command, sent again, does it (R62, R291, R308, R343; log entry 111). -/
def State.workIf (s : State) (u : Nat) (ok : State → Bool) (f : State → State) : State :=
  if s.workGoes u ok f then s.workDone u ok f
  else if !s.workFree u then s
  else
    match (s.workTry u f).acc.halt with
    | some h => s.haltAt u h
    | none =>
      let z := s.chargeAll (s.workDue u ok f)
      { z.1 with tickets := z.1.tickets.insert u z.2 }

/-- The work of a unit is done, or waits. -/
def State.work (s : State) (u : Nat) (f : State → State) : State := s.workIf u (fun _ => true) f

/-- Load n bytes that lie in one line. -/
def State.loadLine (s : State) (r : Reach) (a n : Nat) : Ld × State := State.loadLineE unitEvent s r a n
/-- Store n bytes that lie in one line; `sa` is the SAVED_ACT hint. -/
def State.storeLine (s : State) (r : Reach) (sa : Bool) (a n v : Nat) : Ld × State := State.storeLineE unitEvent s r sa a n v

/-- Store the bytes of a line that a mask names. -/
def State.storeMask (s : State) (r : Reach) (a v mask : Nat) : Ld × State := State.storeFormE unitEvent s r false a (.masked v mask)

/-- Load n bytes, line by line from the lowest address, up to `fuel` lines; the first line that fails ends the load. -/
def State.loadN (r : Reach) : Nat → State → Nat → Nat → Ld × State
  | 0, s, _, _ => (.ok 0, s)
  | fuel + 1, s, a, n =>
    if n = 0 then (.ok 0, s)
    else
      let k := min n (64 - a % 64)
      match s.loadLine r a k with
      | (.ok v, s1) =>
        match State.loadN r fuel s1 (a + k) (n - k) with
        | (.ok w, s2) => (.ok (v + 2 ^ (8 * k) * w), s2)
        | (e, s2) => (e, s2)
      | (e, s1) => (e, s1)

/-- Load n bytes at an address. -/
def State.load (s : State) (r : Reach) (a n : Nat) : Ld × State := State.loadN r (n / 64 + 2) s a n

/-- Store n bytes, line by line from the lowest address; the first line that fails ends the store. -/
def State.storeN (r : Reach) (sa : Bool) : Nat → State → Nat → Nat → Nat → Ld × State
  | 0, s, _, _, _ => (.ok 0, s)
  | fuel + 1, s, a, n, v =>
    if n = 0 then (.ok 0, s)
    else
      let k := min n (64 - a % 64)
      match s.storeLine r sa a k (v % 2 ^ (8 * k)) with
      | (.ok _, s1) => State.storeN r sa fuel s1 (a + k) (n - k) (v / 2 ^ (8 * k))
      | (e, s1) => (e, s1)

/-- Store the n low bytes of v at an address. -/
def State.store (s : State) (r : Reach) (a n v : Nat) : Ld × State := State.storeN r false (n / 64 + 2) s a n v

/-- Store 64-bit words at an address, whatever comes of it. -/
def State.storeWords (s : State) (r : Reach) (a : Nat) (ws : List Nat) : State :=
  (s.store r a (8 * ws.length) (ofWords 64 ws)).2

/-- Load k 64-bit words; none where the load fails. -/
def State.loadWords (s : State) (r : Reach) (a k : Nat) : Option (List Nat) × State :=
  match s.load r a (8 * k) with
  | (.ok v, s1) => (some (toWords 64 k v), s1)
  | (_, s1) => (none, s1)

/-! ### Performance counters (R456 to R459) -/

/-- A programmable counter has wrapped (R457): `e` is the offset of its event register, and its counter lies above it. -/
def State.pmcWrap (s : State) (e : Nat) : State :=
  let s1 := s.fset e F.PMC_TEVT_OVF 1
  let s2 := if s1.fbit e F.PMC_TEVT_OVF_EVT then s1.event (e + 8) none [] else s1
  if s2.fbit R.PKG_PMC_CTL F.PKG_PMC_CTL_FREEZE_ON_OVF then s2.fset R.PKG_PMC_CTL F.PKG_PMC_CTL_FREEZE 1 else s2

/-- A programmable counter counts now (R456): `ctx` is the context that runs on its partition. -/
def State.pmcOn (s : State) (e : Nat) (ctx : Option Nat) : Bool :=
  s.fbit e F.PMC_TEVT_EN && !s.fbit R.PKG_PMC_CTL F.PKG_PMC_CTL_FREEZE
    && (!s.fbit e F.PMC_TEVT_CTX_V || ctx == some (s.fget e F.PMC_TEVT_CTX))

/-- n occurrences of an event reach one programmable counter. -/
def State.pmcCount (s : State) (e : Nat) (ctx : Option Nat) (code n : Nat) : State :=
  if s.pmcOn e ctx && s.fget e F.PMC_TEVT_EVENT == code then
    let c := s.fget (e + 8) F.PMC_TCNT_COUNT + n
    let s1 := s.fset (e + 8) F.PMC_TCNT_COUNT c
    if c < 2 ^ 48 then s1 else s1.pmcWrap e
  else s

/-- Lines that n bytes at an address lie in. -/
def spanLines (a n : Nat) : Nat := if n = 0 then 0 else (a + n - 1) / 64 - a / 64 + 1

/-- n occurrences of a tile event of R458. -/
def State.pmcTile (s : State) (t code n : Nat) : State :=
  if n = 0 then s
  else forRange 8 (fun k s => s.pmcCount (R.PMC_TEVT t k) ((s.ctxOfHerd (t / 12)).map fun e => e.2.ctx) code n) s

/-- n occurrences of a herd event of R459. -/
def State.pmcHerd (s : State) (h code n : Nat) : State :=
  if n = 0 then s
  else forRange 8 (fun k s => s.pmcCount (R.PMC_HEVT h k) ((s.ctxOfHerd h).map fun e => e.2.ctx) code n) s

end Sys2Proof.Machine
end

