-- ==== Sys2Proof/WellFormed.lean ====
section
/-!
DEFINITION. WellFormed.lean: the commands that the package can receive: every unit number names a unit (R5), every value
fits its field, and every tile instruction meets its class table (R168 to R182).
-/

namespace Sys2Proof

open Sys2Proof.Machine

/-- A server core is numbered 0 to 95 and a control core 0 to 31 (R5). -/
def agentWf : Agent → Bool
  | .server n _ => decide (n < 96)
  | .control c _ => decide (c < 32)
  | .mgmt => true
  | .test => true

/-- The fields of a command record fit (R395). -/
def recWf (r : CmdRec) : Bool :=
  decide (r.ctx < 256) && decide (r.tag < 65536) && decide (r.rsvd < 2 ^ 32) && [r.w1, r.w2, r.w3, r.w4, r.w5, r.w6, r.w7].all
    fun x => decide (x < 2 ^ 64)

/-- The fields of a message fit (R332). -/
def msgWf (m : AfrMsg) : Bool :=
  decide (m.vc < 4) && decide (m.typ < 64) && decide (m.dst < 65536) && decide (m.src < 65536) && decide (m.epoch < 65536)
    && decide (m.len < 16) && decide (m.tag < 4096) && decide (m.arg < 2 ^ 56) && decide (m.data.length < 15) && m.data.all fun x => decide (x < 2 ^ 128)

/-- The fields of a record header fit (R369). -/
def hdrWf (h : RecHdr) : Bool :=
  decide (h.magic < 2 ^ 32) && decide (h.kind < 16) && decide (h.codec < 16) && decide (h.rsvd < 2 ^ 24)
    && decide (h.sampleId < 2 ^ 64) && decide (h.storedLen < 2 ^ 32) && decide (h.decodedLen < 2 ^ 32)
    && decide (h.pcrc < 2 ^ 32) && decide (h.hcrc < 2 ^ 32)

/-- A list of bytes. -/
def bytesWf (l : List Nat) : Bool := l.all fun x => decide (x < 256)

/-- Operands of the MOV class (R172). -/
def movWf (e : Engine) (early : Bool) (o : MovOps) : Bool :=
  waitOk e o.wait && postOk e early o.post && decide (o.dslot < 16) && decide (o.view < 64) && decide (o.org < 8)

/-- Operands of MMUL (R174). -/
def mmulWf (o : MmulOps) : Bool :=
  waitOk .array o.wait && postOk .array true o.post && decide (o.set < 2) && decide (o.av < 64) && decide (o.bv < 64)
    && decide (o.out < 64) && decide (o.keygrp < 4) && decide (o.pslot < 8) && (o.okind != .regs || o.out % 4 == 0)

/-- Operands of MSPAN (R175). -/
def spanWf (o : SpanOps) : Bool :=
  decide (o.slot < 8) && decide (o.k0 < 4096) && decide (o.klen < 4096) && decide (o.mact < 128) && decide (o.nact < 128)

/-- Operands of MWIN (R175). -/
def winWf (o : WinOps) : Bool :=
  decide (o.slot < 8) && decide (o.rowoff < 4096) && decide (o.coloff < 4096) && decide (o.lsrc < 64)
    && (o.lkind == .none || fmt16 o.lfmt || o.lfmt == .int32)

/-- Active area, keys and mask of the vector classes (R178, R180). -/
def areaWf (vl vr keygrp mask : Nat) : Bool :=
  decide (1 ≤ vl) && decide (vl ≤ 128) && decide (1 ≤ vr) && decide (vr ≤ 16) && decide (keygrp < 4) && decide (mask < 8)

/-- Operands of the VEC class (R178). -/
def vecWf (op : VecOp) (o : VecOps) : Bool :=
  areaWf o.vl o.vr o.keygrp o.mask && decide (o.dst < 32) && decide (o.a.reg < 32) && decide (o.b.reg < 32)
    && decide (o.c.reg < 32) && vecOk op o

/-- Operands of CVT (R179). -/
def cvtWf (o : CvtOps) : Bool :=
  areaWf o.vl o.vr o.keygrp o.mask && waitOk .vector o.wait && postOk .vector o.smem o.post && decide (o.org < 8)
    && (if o.smem then decide (o.src < 64) else decide (o.src < 32) && fmtInReg o.sfmt)
    && (if o.dmem then decide (o.dst < 64) else decide (o.dst < 32) && fmtInReg o.dfmt)

/-- Operands of the RED class (R180). -/
def redWf (op : RedKind) (o : RedOps) : Bool :=
  areaWf o.vl o.vr o.keygrp o.mask && decide (o.dst < 32) && decide (o.src < 32) && decide (o.idx < 32)
    && decide (o.dpos < 128) && redOk op o

/-- The counts of CWAIT and CPOST (R181). -/
def countsWf (e : Engine) (n : Counts) : Bool :=
  decide (n.dma ≤ 31) && decide (n.array ≤ 31) && decide (n.vector ≤ 31) && decide (n.store ≤ 31) && countOf n e == 0

/-- Operands of SUMM (R150, R181). -/
def summWf (o : SummOps) : Bool :=
  let data := o.kind == 1 || o.kind == 2
  decide (o.kind ≤ 4) && decide (o.tag < 256) && decide (o.imm < 2 ^ 32) && areaWf o.vl o.vr 0 o.mask && decide (1 ≤ o.k)
    && decide (o.k ≤ 8) && vtyFloat o.ty && (data || o.ty == .bf16) && decide (o.reg < 32)
    && (o.kind != 0 || decide (o.reg < 16)) && (o.kind != 3 || decide (o.reg < 8))

/-- Operands of the COL class (R182). -/
def colWf (o : ColOps) : Bool :=
  waitOk .store o.wait && decide (o.sslot < 16) && decide (o.dslot < 16) && decide (o.group < 4096) && decide (o.sem < 256)
    && decide (o.rop < 16)

/-- The header of a coherence request (R297, R302). -/
def cohHdrWf (h : CohHdr) : Bool := decide (h.ag < 1024) && decide (h.txn < 4096) && decide (h.part < 8)
/-- A request of a line to its channel (R312). -/
def lineReqWf (r : LineReq) : Bool := decide (r.line < 2 ^ 50) && decide (r.cls < 4)

/-- The command exists. -/
def instrWf : Instr → Bool
  | .registerWrite a off bytes value => agentWf a && decide (off < 2 ^ 32) && decide (bytes < 65) && decide (value < 2 ^ 64)
  | .tickBoundary => true
  | .periodLog2Write a value => agentWf a && decide (value < 2 ^ 64)
  | .ppsOutEnWrite a en => agentWf a && decide (en < 2)
  | .timeStep a value => agentWf a && decide (value < 2 ^ 64)
  | .ppsOutPulse => true
  | .ppsPulseEnd => true
  | .ppsInEdge => true
  | .segOverrun t => decide (t < 192)
  | .segHang t => decide (t < 192)
  | .heartbeatExpiry c => decide (c < 32)
  | .herdWatchdog h => decide (h < 16)
  | .dieWatchdog d => decide (d < 2)
  | .memRequestTimeout ag line => decide (ag < 1024) && decide (line < 2 ^ 50)
  | .ucieTimeout d module ag line => decide (d < 2) && decide (module < 28) && decide (ag < 1024) && decide (line < 2 ^ 50)
  | .afrReplayTimeout port => decide (port < 36)
  | .configReadTimeout => true
  | .heartbeat a h value => agentWf a && decide (h < 16) && decide (value < 2 ^ 64)
  | .tick port bnd time delay => decide (port < 36) && decide (bnd < 2 ^ 48) && decide (time < 2 ^ 64) && decide (delay < 2 ^ 64)
  | .markerLoss => true
  | .numctlWrite a t value => agentWf a && decide (t < 192) && decide (value < 2 ^ 64)
  | .resume a p => agentWf a && decide (p < 8)
  | .nop t idx => decide (t < 192) && decide (idx < 4096)
  | .vbase t idx view sreg => decide (t < 192) && decide (idx < 4096) && decide (view < 64) && decide (sreg < 16)
  | .trap t idx code => decide (t < 192) && decide (idx < 4096) && decide (code < 2 ^ 32)
  | .ld t idx ops => decide (t < 192) && decide (idx < 4096) && movWf .dma false ops
  | .st t idx ops => decide (t < 192) && decide (idx < 4096) && movWf .store true ops
  | .strec t idx ops => decide (t < 192) && decide (idx < 4096) && movWf .store true ops
  | .hld t idx ops => decide (t < 192) && decide (idx < 4096) && movWf .dma false ops && ops.dslot == 0
  | .hst t idx ops => decide (t < 192) && decide (idx < 4096) && movWf .store true ops && ops.dslot == 0
  | .mmul t idx ops => decide (t < 192) && decide (idx < 4096) && mmulWf ops
  | .mspan t idx ops => decide (t < 192) && decide (idx < 4096) && spanWf ops
  | .mwin t idx ops => decide (t < 192) && decide (idx < 4096) && winWf ops
  | .add t idx ops => decide (t < 192) && decide (idx < 4096) && vecWf .add ops
  | .mul t idx ops => decide (t < 192) && decide (idx < 4096) && vecWf .mul ops
  | .fma t idx ops => decide (t < 192) && decide (idx < 4096) && vecWf .fma ops
  | .vecMin t idx ops => decide (t < 192) && decide (idx < 4096) && vecWf .min ops
  | .vecMax t idx ops => decide (t < 192) && decide (idx < 4096) && vecWf .max ops
  | .sel t idx ops => decide (t < 192) && decide (idx < 4096) && vecWf .sel ops
  | .iadd t idx ops => decide (t < 192) && decide (idx < 4096) && vecWf .iadd ops
  | .imin t idx ops => decide (t < 192) && decide (idx < 4096) && vecWf .imin ops
  | .imax t idx ops => decide (t < 192) && decide (idx < 4096) && vecWf .imax ops
  | .cmp t idx rel ops => decide (t < 192) && decide (idx < 4096) && vecWf (.cmp rel) ops
  | .icmp t idx rel ops => decide (t < 192) && decide (idx < 4096) && vecWf (.icmp rel) ops
  | .mand t idx ops => decide (t < 192) && decide (idx < 4096) && vecWf .mand ops
  | .mor t idx ops => decide (t < 192) && decide (idx < 4096) && vecWf .mor ops
  | .mxor t idx ops => decide (t < 192) && decide (idx < 4096) && vecWf .mxor ops
  | .mandn t idx ops => decide (t < 192) && decide (idx < 4096) && vecWf .mandn ops
  | .mnot t idx ops => decide (t < 192) && decide (idx < 4096) && vecWf .mnot ops
  | .padd t idx ops => decide (t < 192) && decide (idx < 4096) && vecWf .padd ops
  | .cvt t idx ops => decide (t < 192) && decide (idx < 4096) && cvtWf ops
  | .sum t idx ops => decide (t < 192) && decide (idx < 4096) && redWf (.red .sum) ops
  | .sumsq t idx ops => decide (t < 192) && decide (idx < 4096) && redWf (.red .sumsq) ops
  | .redMax t idx ops => decide (t < 192) && decide (idx < 4096) && redWf (.red .max) ops
  | .redMin t idx ops => decide (t < 192) && decide (idx < 4096) && redWf (.red .min) ops
  | .maxabs t idx ops => decide (t < 192) && decide (idx < 4096) && redWf (.red .maxabs) ops
  | .argmax t idx ops => decide (t < 192) && decide (idx < 4096) && redWf (.red .argmax) ops
  | .popc t idx ops => decide (t < 192) && decide (idx < 4096) && redWf (.red .popc) ops
  | .permc t idx ops => decide (t < 192) && decide (idx < 4096) && redWf .permc ops
  | .permr t idx ops => decide (t < 192) && decide (idx < 4096) && redWf .permr ops
  | .cwait t idx eng n => decide (t < 192) && decide (idx < 4096) && countsWf eng n
  | .cpost t idx eng n => decide (t < 192) && decide (idx < 4096) && countsWf eng n
  | .semwait t idx _ sem n => decide (t < 192) && decide (idx < 4096) && decide (sem < 256) && decide (1 ≤ n) && decide (n < 65536)
  | .semsig t idx _ sem n => decide (t < 192) && decide (idx < 4096) && decide (sem < 256) && decide (1 ≤ n) && decide (n < 65536)
  | .semSignalApply p => decide (p < 8)
  | .semGrant p sem => decide (p < 8) && decide (sem < 256)
  | .summ t idx ops => decide (t < 192) && decide (idx < 4096) && summWf ops
  | .flagclr t idx flags => decide (t < 192) && decide (idx < 4096) && decide (flags < 32)
  | .allreduce t idx ops => decide (t < 192) && decide (idx < 4096) && colWf ops
  | .reduceScatter t idx ops => decide (t < 192) && decide (idx < 4096) && colWf ops
  | .allgather t idx ops => decide (t < 192) && decide (idx < 4096) && colWf ops
  | .instrComplete t _ wait lat => decide (t < 192) && decide (wait < 2 ^ 64) && decide (lat < 2 ^ 64)
  | .summPop a t => agentWf a && decide (t < 192)
  | .sregWrite a t n value => agentWf a && decide (t < 192) && decide (n < 16) && decide (value < 2 ^ 64)
  | .segqPush a t value => agentWf a && decide (t < 192) && decide (value < 2 ^ 64)
  | .segmentFetch t => decide (t < 192)
  | .segmentStart t => decide (t < 192)
  | .segmentRetire t => decide (t < 192)
  | .semWrite a p sem value => agentWf a && decide (p < 8) && decide (sem < 256) && decide (value < 2 ^ 64)
  | .semAdd a p sem value => agentWf a && decide (p < 8) && decide (sem < 256) && decide (value < 2 ^ 64)
  | .gangWrite a h value => agentWf a && decide (h < 16) && decide (value < 2 ^ 64)
  | .gangWidthWrite a h value => agentWf a && decide (h < 16) && decide (value < 2 ^ 64)
  | .gangApply h => decide (h < 16)
  | .stepRelease p slot => decide (p < 8) && decide (slot < 4)
  | .itemDispatch p slot => decide (p < 8) && decide (slot < 4)
  | .taskDispatch p slot task => decide (p < 8) && decide (slot < 4) && decide (task < 65535)
  | .prefetchRequest p slot task => decide (p < 8) && decide (slot < 4) && decide (task < 65535)
  | .gatherDispatch p slot => decide (p < 8) && decide (slot < 4)
  | .updDispatch p slot => decide (p < 8) && decide (slot < 4)
  | .taskPop a h => agentWf a && decide (h < 16)
  | .taskDone a h value => agentWf a && decide (h < 16) && decide (value < 2 ^ 64)
  | .stepComplete p slot => decide (p < 8) && decide (slot < 4)
  | .exchangeResult p slot _ => decide (p < 8) && decide (slot < 4)
  | .exchangeTimeout p slot => decide (p < 8) && decide (slot < 4)
  | .commitFlip p slot => decide (p < 8) && decide (slot < 4)
  | .rescalePass p slot => decide (p < 8) && decide (slot < 4)
  | .rescalePassDone p slot => decide (p < 8) && decide (slot < 4)
  | .stepAbort p slot => decide (p < 8) && decide (slot < 4)
  | .verPin a p gen => agentWf a && decide (p < 8) && decide (gen < 2)
  | .verUnpin a p gen => agentWf a && decide (p < 8) && decide (gen < 2)
  | .lrWrite a p n value => agentWf a && decide (p < 8) && decide (n < 256) && decide (value < 2 ^ 64)
  | .rootKept a h => agentWf a && decide (h < 16)
  | .map p rec => decide (p < 8) && recWf rec
  | .unmap p rec => decide (p < 8) && recWf rec
  | .setattr p rec => decide (p < 8) && recWf rec
  | .move p rec => decide (p < 8) && recWf rec
  | .reserve p rec => decide (p < 8) && recWf rec
  | .release p rec => decide (p < 8) && recWf rec
  | .peer p rec => decide (p < 8) && recWf rec
  | .placementEpoch => true
  | .savedActDemote r => decide (r < 2 ^ 22)
  | .migrationStart d e => decide (d < 2) && decide (e < 8)
  | .rmcUpdateAck d r => decide (d < 2) && decide (r < 2 ^ 22)
  | .rmcMissFill d r => decide (d < 2) && decide (r < 2 ^ 22)
  | .migrationPrecopyEnd d e => decide (d < 2) && decide (e < 8)
  | .migrationRoundEnd d e => decide (d < 2) && decide (e < 8)
  | .migrationFinalEnd d e => decide (d < 2) && decide (e < 8)
  | .migrationUnblock d e => decide (d < 2) && decide (e < 8)
  | .frameRetire tier frame => decide (tier < 3) && decide (frame < 2 ^ 21)
  | .regulatorIssue p tier tokens final => decide (p < 8) && decide (tier < 3) && decide (tokens < 2 ^ 32) && decide (final < 2)
  | .get ag line writable txn part => decide (ag < 1024) && decide (line < 2 ^ 50) && decide (writable < 2) && decide (txn < 4096) && decide (part < 8)
  | .claim hdr line => cohHdrWf hdr && decide (line < 2 ^ 50)
  | .peek hdr line => cohHdrWf hdr && decide (line < 2 ^ 50)
  | .putFull hdr line data hint => cohHdrWf hdr && decide (line < 2 ^ 50) && decide (data < 2 ^ 512) && decide (hint < 2)
  | .putMasked hdr line data mask hint => cohHdrWf hdr && decide (line < 2 ^ 50) && decide (data < 2 ^ 512) && decide (mask < 2 ^ 64)
      && decide (hint < 2)
  | .merge hdr recAddr status mapAddr mapBits => cohHdrWf hdr && decide (recAddr < 2 ^ 56) && decide (status < 256)
      && decide (mapAddr < 2 ^ 56) && decide (mapBits < 256)
  | .drop ag line dirty data => decide (ag < 1024) && decide (line < 2 ^ 50) && decide (dirty < 2) && decide (data < 2 ^ 512)
  | .send owner line req reqTxn pass => decide (owner < 128) && decide (line < 2 ^ 50) && decide (req < 1024) && decide (reqTxn < 4096) && decide (pass < 4)
  | .kill ag line ret => decide (ag < 1024) && decide (line < 2 ^ 50) && decide (ret < 2)
  | .snpDone ag line flags => decide (ag < 1024) && decide (line < 2 ^ 50) && decide (flags < 256)
  | .done ag line => decide (ag < 1024) && decide (line < 2 ^ 50)
  | .got ag line => decide (ag < 1024) && decide (line < 2 ^ 50)
  | .redo ag line => decide (ag < 1024) && decide (line < 2 ^ 50)
  | .dropOk ag line stale => decide (ag < 1024) && decide (line < 2 ^ 50) && decide (stale < 2)
  | .fail ag line => decide (ag < 1024) && decide (line < 2 ^ 50)
  | .line ag line data grant dirty => decide (ag < 1024) && decide (line < 2 ^ 50) && decide (data < 2 ^ 512) && decide (grant < 4) && decide (dirty < 2)
  | .lineHome ag line data => decide (ag < 1024) && decide (line < 2 ^ 50) && decide (data < 2 ^ 512)
  | .busyRequestServe line => decide (line < 2 ^ 50)
  | .channelRead req => lineReqWf req
  | .channelWrite req data => lineReqWf req && decide (data < 2 ^ 512)
  | .scrubRead unit => decide (unit < 48)
  | .refresh chan postpone => decide (chan < 1024) && decide (postpone < 2)
  | .refreshSlotEnd => true
  | .refLockWrite a stack value => agentWf a && decide (stack < 16) && decide (value < 2 ^ 64)
  | .refLockSuspend stack => decide (stack < 16)
  | .refLockResume stack => decide (stack < 16)
  | .rowRemap unit chan bank row => decide (unit < 48) && decide (chan < 64) && decide (bank < 16) && decide (row < 2 ^ 24)
  | .maintWrite a stack value => agentWf a && decide (stack < 16) && decide (value < 2 ^ 64)
  | .readStatus a stack value => agentWf a && decide (stack < 16) && decide (value < 2 ^ 64)
  | .fuseRow a stack value => agentWf a && decide (stack < 16) && decide (value < 2 ^ 64)
  | .fuseCol a stack value => agentWf a && decide (stack < 16) && decide (value < 2 ^ 64)
  | .ucieModuleRemove link module => decide (link < 3) && decide (module < 16)
  | .ucieHashRespread link => decide (link < 3)
  | .flitReceive port flit => decide (port < 36) && decide (flit < 2 ^ 2048)
  | .replayStart port => decide (port < 36)
  | .nakRepeat port => decide (port < 36)
  | .linkLoss port => decide (port < 36)
  | .hello port msg => decide (port < 36) && msgWf msg
  | .portRetrain a port value => agentWf a && decide (port < 36) && decide (value < 2 ^ 64)
  | .trunkChange d => decide (d < 2)
  | .rd port msg => decide (port < 36) && msgWf msg
  | .wrLine port msg => decide (port < 36) && msgWf msg
  | .wrMask port msg => decide (port < 36) && msgWf msg
  | .rdData port msg => decide (port < 36) && msgWf msg
  | .wrAck port msg => decide (port < 36) && msgWf msg
  | .nack port msg => decide (port < 36) && msgWf msg
  | .remoteTimeout d tag => decide (d < 2) && decide (tag < 4096)
  | .collData port msg part => decide (port < 36) && msgWf msg && (part.words.all fun w => decide (w < 2 ^ 64)) && part.exact.all fun x => decide (x.1 < 5)
  | .collNack port msg => decide (port < 36) && msgWf msg
  | .collTimeout d g => decide (d < 2) && decide (g < 4096)
  | .collectiveEnd d g => decide (d < 2) && decide (g < 4096)
  | .stot port msg => decide (port < 36) && msgWf msg
  | .stotCmd a d value => agentWf a && decide (d < 2) && decide (value < 2 ^ 64)
  | .epochInc a d value => agentWf a && decide (d < 2) && decide (value < 2 ^ 64)
  | .epochIncrement d => decide (d < 2)
  | .ethFrameRx port _ => decide (port < 8)
  | .roceSend port qpn payload => decide (port < 8) && decide (qpn < 2 ^ 24) && bytesWf payload
  | .roceWrite port qpn addr data => decide (port < 8) && decide (qpn < 2 ^ 24) && decide (addr < 2 ^ 56) && bytesWf data
  | .roceRead port qpn addr len => decide (port < 8) && decide (qpn < 2 ^ 24) && decide (addr < 2 ^ 56) && decide (len < 2 ^ 32)
  | .cnpRx port qpn => decide (port < 8) && decide (qpn < 2 ^ 24)
  | .rateRecover port qpn => decide (port < 8) && decide (qpn < 2 ^ 24)
  | .roceRetransmit port qpn psn => decide (port < 8) && decide (qpn < 2 ^ 24) && decide (psn < 2 ^ 24)
  | .pcieInbound rp _ addr data => decide (rp < 2) && decide (addr < 2 ^ 56) && bytesWf data
  | .shardReadIssue stream => decide (stream < 8)
  | .nvmeCompletion stream tag status data => decide (stream < 8) && decide (tag < 32) && decide (status < 256) && bytesWf data
  | .shardReadTimeout stream tag => decide (stream < 8) && decide (tag < 32)
  | .recordStart stream hdr => decide (stream < 8) && hdrWf hdr
  | .sampleFinish stream slot payload => decide (stream < 8) && decide (slot < 260) && bytesWf payload
  | .sampleBudget stream slot => decide (stream < 8) && decide (slot < 256)
  | .sampleHardLimit stream slot => decide (stream < 8) && decide (slot < 260)
  | .batchClose stream => decide (stream < 8)
  | .batchReady stream => decide (stream < 8)
  | .streamEnWrite a stream value => agentWf a && decide (stream < 8) && decide (value < 2 ^ 64)
  | .cmdTailWrite a p value => agentWf a && decide (p < 8) && decide (value < 2 ^ 64)
  | .cmdNop p rec => decide (p < 8) && recWf rec
  | .jobStart p rec => decide (p < 8) && recWf rec
  | .jobEnd p rec => decide (p < 8) && recWf rec
  | .run p rec => decide (p < 8) && recWf rec
  | .swapIn p rec => decide (p < 8) && recWf rec
  | .swapOut p rec => decide (p < 8) && recWf rec
  | .ready p rec => decide (p < 8) && recWf rec
  | .abort p rec => decide (p < 8) && recWf rec
  | .partSet p rec => decide (p < 8) && recWf rec
  | .partSetApply p => decide (p < 8)
  | .groupSet p rec => decide (p < 8) && recWf rec
  | .contextSwitch p => decide (p < 8)
  | .contextSaveDone p => decide (p < 8)
  | .contextRestoreDone p => decide (p < 8)
  | .contextStart p => decide (p < 8)
  | .lockDeferExpiry p slot => decide (p < 8) && decide (slot < 4)
  | .jobFault => true
  | .fltReset a value => agentWf a && decide (value < 2 ^ 64)
  | .fence code unit => decide (code < 8) && decide (unit < 256)
  | .drainEnd code unit => decide (code < 8) && decide (unit < 256)
  | .resetEnd code unit => decide (code < 8) && decide (unit < 256)
  | .domainRelease code unit => decide (code < 8) && decide (unit < 256)
  | .tileFail h phys => decide (h < 16) && decide (phys < 13)
  | .oosClear a value => agentWf a && decide (value < 2 ^ 64)
  | .rejoin a p => agentWf a && decide (p < 8)
  | .regroupExpiry p slot => decide (p < 8) && decide (slot < 4)
  | .snapshotCapture p slot => decide (p < 8) && decide (slot < 4)
  | .snapshotStagingDone p slot => decide (p < 8) && decide (slot < 4)
  | .snapshotAnchor p slot => decide (p < 8) && decide (slot < 4)
  | .snapshot p rec => decide (p < 8) && recWf rec
  | .snapCancel p rec => decide (p < 8) && recWf rec
  | .restore p rec => decide (p < 8) && recWf rec
  | .refill p rec => decide (p < 8) && recWf rec
  | .record p rec => decide (p < 8) && recWf rec
  | .verify p rec => decide (p < 8) && recWf rec
  | .startup _ => true
  | .lifetimeWrite area => decide (area < 8)
  | .guardBlock => true
  | .guardRelease => true
  | .flashErase a value => agentWf a && decide (value < 2 ^ 64)
  | .flashProgram a value => agentWf a && decide (value < 2 ^ 64)
  | .flashRead a value => agentWf a && decide (value < 2 ^ 64)
  | .programOwner a value => agentWf a && decide (value < 2 ^ 64)
  | .revoke a value => agentWf a && decide (value < 2 ^ 64)
  | .advanceSvn a value => agentWf a && decide (value < 2 ^ 64)
  | .provision a value => agentWf a && decide (value < 2 ^ 64)
  | .attest a value => agentWf a && decide (value < 2 ^ 64)
  | .coreRelease a m value => agentWf a && decide (m < 2) && decide (value < 2 ^ 64)
  | .pmcOverflow unit k => decide (unit < 208) && decide (k < 8)
  | .sampleConsume a t value => agentWf a && decide (t < 192) && decide (value < 2 ^ 64)
  | .bwWindowLatch => true
  | .lifetimeSecond _ => true
  | .logRecord => true
  | .flush a value => agentWf a && decide (value < 2 ^ 64)
  | .resetLAssert ns => decide (ns < 2 ^ 64)
  | .resetLDeassert => true
  | .pwrOkFall => true
  | .droopEvent rail depth => decide (rail < 11) && decide (depth < 65536)
  | .powerCapUpdate avg => decide (avg < 65536)
  | .powerBrake => true
  | .brakeRecovery => true
  | .thermtrip sensor => decide (sensor < 64)
  | .mgmtRead64 off => decide (off < 2 ^ 32)
  | .mgmtRead32 off => decide (off < 2 ^ 32)
  | .mgmtWrite64 off value => decide (off < 2 ^ 32) && decide (value < 2 ^ 64)
  | .mgmtWrite32 off value => decide (off < 2 ^ 32) && decide (value < 2 ^ 64)
  | .regacc _ off value => decide (off < 2 ^ 32) && decide (value < 2 ^ 64)
  | .bypass => true
  | .idcode => true
  | .samplePreload cells => (cells.all fun x => decide (x < 2))
  | .extest => true
  | .extestPulse => true
  | .extestTrain => true
  | .registerRead a off bytes => agentWf a && decide (off < 2 ^ 32) && decide (bytes < 65)
  | .budgetOver t => decide (t < 192)
  | .ethLinkDown port => decide (port < 8)
  | .ethLinkUp port => decide (port < 8)
  | .railFault n => decide (n < 11)
  | .railFaultClear n => decide (n < 11)
  | .droopEventEnd rail => decide (rail < 11)
  | .pwrOkRise => true
  | .pwrbrkLRise => true
  | .fuseCommandDone result => decide (result < 256)
  | .repairCommandDone stack result => decide (stack < 16) && decide (result < 256)
  | .flashCommandDone result => decide (result < 256)
  | .attestReportDone => true
  | .commandCompletion p status lines => decide (p < 8) && decide (status < 8) && (lines.all fun x => decide (x < 2 ^ 512))
  | .snapshotReadDone p slot => decide (p < 8) && decide (slot < 4)
  | .setdasa addr => decide (addr < 2 ^ 56)
  | .entdaa addr => decide (addr < 2 ^ 56)

end Sys2Proof
end

