-- ==== Sys2Proof/Machine/Access.lean ====
section
/-!
DEFINITION. Access.lean: which agent reaches which block of register space (R42, R43, R417, R480), and the conditions
that the device keeps among the fields of the TCK_ block (R54, R70, R343).
-/

namespace Sys2Proof.Machine

/-- How an access to a block ends: it reaches the block, it is an address decode error, or it meets an absent tile. A fence stops no
register access (log entry 79). -/
inductive Entry where
  | reach | decode | absent
deriving DecidableEq, Repr

/-- A slot has VALID = 1: the package is owned (R451). -/
def State.owned (s : State) : Bool := s.fget R.SEC_FUSE_STAT F.SEC_FUSE_STAT_VALID != 0

/-- A register of the semaphores of a partition, or of a job group, that R43 lets a control core write: SCH_SEMs and SCH_SEMADDs, and
SCH_GSEMg_s and SCH_GSEMADDg_s of the group of the partition's running context. -/
def State.controlSem (s : State) (b : Blk) (p off : Nat) : Bool :=
  match b with
  | .sch => decide (B.sch p + 0x8000 ≤ off) && decide (off < B.sch p + 0x9000)
  | .schg =>
    match s.groupOf p with
    | some g => decide (0x882000 + 0x200 * g ≤ off) && decide (off < 0x882200 + 0x200 * g)
    | none => false
  | _ => false

/-- A control core reaches the blocks of its own herd and its own tiles, and of its partition's SCH_ block all to read and the
semaphores to write (R42, R43). -/
def State.controlReach (s : State) (c : Nat) (b : Blk) (u off : Nat) (wr : Bool) : Bool :=
  match b with
  | .hrd => u == c / 2
  | .til => u / 12 == c / 2
  | .sch => s.partOfHerd (c / 2) == some u && (!wr || s.controlSem .sch u off)
  | .schg => wr && (match s.partOfHerd (c / 2) with | some p => s.controlSem .schg p off | none => false)
  | _ => false

/-- Whether an agent reaches a register of a block (R25, R42, R43, R480). -/
def State.agentReach (s : State) (a : Agent) (b : Blk) (u off : Nat) (wr : Bool) : Bool :=
  match a with
  | .server _ _ => true
  | .control c _ => s.controlReach c b u off wr
  | .mgmt => true
  | .test => !s.owned || b == .pkg || b == .cfg || b == .flt || b == .pwr

/-- How an access ends. -/
def State.entry (s : State) (a : Agent) (b : Blk) (u off : Nat) (wr : Bool) : Entry :=
  if !s.agentReach a b u off wr then .decode
  else if b == .til && s.absent u then .absent
  else .reach

/-- The end of an access that did not reach its block: an access fault at a core, a zero and a register access error for
management and test (R36, R417). -/
def State.turnAway (s : State) (a : Agent) (wr : Bool) (off : Nat) (e : Entry) : State :=
  match e with
  | .reach => s
  | .absent => (s.regError (agentId a) wr off).answer .regError 0
  | .decode =>
    match a with
    | .server _ _ => s.decodeErr.answer .accessFault 0
    | .control _ _ => s.decodeErr.answer .accessFault 0
    | _ => (s.regError (agentId a) wr off).answer .regError 0

/-- A write of the register at an offset of a block: `f` is what it does there. -/
def State.writeReg (s : State) (a : Agent) (b : Blk) (u off : Nat) (f : State → State) : State :=
  match s.entry a b u off true with
  | .reach => f (s.answer .ok 0)
  | e => s.turnAway a true off e

/-- A read of the register at an offset of a block: `f` answers it. -/
def State.readReg (s : State) (a : Agent) (b : Blk) (u off : Nat) (f : State → State) : State :=
  match s.entry a b u off false with
  | .reach => f (s.answer .ok 0)
  | e => s.turnAway a false off e

/-- Whether any partition holds a resident context. -/
def State.anyResident (s : State) : Bool := s.parts.any fun e => !e.2.slots.isEmpty

/-- The slot of a partition that the per-context registers reach for an agent (R43, R391). -/
def State.selSlot (s : State) (a : Agent) (p : Nat) : Option Nat :=
  match a with
  | .control _ _ => (s.part p).run
  | _ =>
    let k := s.fget (R.SCH_CTX_SEL p) F.SCH_CTX_SEL_SLOT
    if (s.slot? p k).isSome then some k else none

/-- A write of a per-context register (R391). -/
def State.writeCtx (s : State) (a : Agent) (p off : Nat) (f : Nat → State → State) : State :=
  s.writeReg a .sch p (B.sch p + off) fun s =>
    match s.selSlot a p with
    | some k => f k s
    | none => s.badWrite a (B.sch p + off)

/-- The timing fields that R70 and R343 order: p, SEG, HB, HERD and DIE ticks, UCIE, MEM, AFR and RMT microseconds. -/
structure Tmo where
  p : Nat
  seg : Nat
  hb : Nat
  herd : Nat
  die : Nat
  ucie : Nat
  mem : Nat
  afr : Nat
  rmt : List Nat
deriving DecidableEq, Repr

/-- The timing fields in force. -/
def State.tmo (s : State) : Tmo where
  p := s.pLog
  seg := s.fget R.TCK_WDOG F.TCK_WDOG_SEG_TICKS
  hb := s.fget R.TCK_WDOG F.TCK_WDOG_HB_TICKS
  herd := s.fget R.TCK_WDOG F.TCK_WDOG_HERD_TICKS
  die := s.fget R.TCK_WDOG F.TCK_WDOG_DIE_TICKS
  ucie := s.fget R.TCK_TMO F.TCK_TMO_UCIE_US
  mem := s.fget R.TCK_TMO F.TCK_TMO_MEM_US
  afr := s.fget R.TCK_TMO F.TCK_TMO_AFR_US
  rmt := [s.fget (R.AFR_CTL 0) F.AFR_CTL_RMT_US, s.fget (R.AFR_CTL 1) F.AFR_CTL_RMT_US]

/-- The conditions of R70 and R343. -/
def Tmo.ok (t : Tmo) : Bool :=
  decide (t.seg < t.hb) && decide (t.hb < t.herd) && decide (t.herd < t.die) && decide (t.ucie < t.mem)
    && decide (t.mem * 1100 < t.seg * 2 ^ t.p) && decide (t.afr * 1100 < t.seg * 2 ^ t.p)
    && t.rmt.all fun r => decide (t.afr < r) && decide (r * 1100 < t.seg * 2 ^ t.p)

/-- PERIOD_LOG2 may change to v now (R54). -/
def State.periodOk (s : State) (v : Nat) : Bool :=
  !s.anyResident
    && (decide (v ≤ 16) || !((List.range 16).any fun k => s.fbit (R.STK_CTRL k) F.STK_CTRL_REF_LOCK))
    && Tmo.ok { s.tmo with p := v }

end Sys2Proof.Machine
end

