-- ==== Sys2Proof/Machine/QPairs.lean ====
section
/-!
DEFINITION. QPairs.lean: the Ethernet ports' queue pairs as the engines of the package use them: packets, what holds them back, and what
leaves (R357 to R361).
-/

namespace Sys2Proof.Machine

/-- An Ethernet port. -/
def State.eth (s : State) (e : Nat) : EthPort := Map.get {} s.eths e
/-- Replace an Ethernet port. -/
def State.setEth (s : State) (e : Nat) (x : EthPort) : State := { s with eths := Map.put {} s.eths e x }
/-- A queue pair of a port. -/
def State.qp (s : State) (e q : Nat) : Qp := Map.get {} s.qps (2 ^ 24 * e + q)
/-- Replace a queue pair. -/
def State.setQp (s : State) (e q : Nat) (x : Qp) : State := { s with qps := s.qps.insert (2 ^ 24 * e + q) x }
/-- The link of a port is up. -/
def State.ethUp (s : State) (e : Nat) : Bool := s.fbit (R.ETH_STATUS e) F.ETH_STATUS_UP
/-- The port runs in the fallback mode (R360). -/
def State.lossy (s : State) (e : Nat) : Bool := s.fbit (R.ETH_CTL e) F.ETH_CTL_LOSSY
/-- Queue pairs of a port (R358). -/
def qpCount : Nat := 16384
/-- Line rate in bit/s (R357). -/
def lineRate : Nat := 800000000000
/-- The rate at which a port may inject: FB_PCT of line rate in the fallback mode (R360). -/
def State.ethCap (s : State) (e : Nat) : Nat :=
  if s.lossy e then lineRate * s.fget (R.ETH_CTL e) F.ETH_CTL_FB_PCT / 100 else lineRate

/-- Bytes of a packet's payload, as the port counts them: a command capsule has 64. -/
def EthOut.bytes : EthOut → Nat
  | .send l => l.length
  | .nvme _ => 64
  | .readData l => l.length
  | _ => 0

/-- The path MTU (R358). -/
def mtu : Nat := 4096
/-- A payload cut to the path MTU, each part with whether more follow. -/
def mtuParts (l : List Nat) : List (List Nat × Bool) :=
  let n := max 1 ((l.length + mtu - 1) / mtu)
  (List.range n).map fun i => ((l.drop (mtu * i)).take mtu, decide (i + 1 < n))

/-- A packet leaves on a queue pair. -/
def State.qpOut (s : State) (e q : Nat) (k : EthPkt) : State :=
  (s.setQp e q { s.qp e q with tx := (s.qp e q).tx ++ [k] }).bwAdd (B.eth e + 0x100) 1 k.out.bytes

/-- An answer leaves on a queue pair. -/
def State.qpSend (s : State) (e q : Nat) (o : EthOut) : State := s.qpOut e q { out := o }

/-- A request packet of a collective or STOT queue pair has to wait: for acknowledgements of 32 packets in the fallback mode, where the limit
holds for every queue pair, or for flow control on COLL_PRIO (R359, R360). -/
def State.qpHeld (s : State) (e q : Nat) (coll : Bool) : Bool :=
  if s.lossy e then decide (32 ≤ (s.qp e q).unacked.length)
  else coll && s.fbit (R.ETH_CTL e) F.ETH_CTL_PFC_EN && bit (s.eth e).stopped (s.fget (R.ETH_CTL e) F.ETH_CTL_COLL_PRIO)

/-- Whether a packet is of a queue pair of the collective engine: it alone sends chain messages and STOTs; NVMe commands have queue pairs of
their own. -/
def EthPkt.coll (k : EthPkt) : Bool := match k.out with | .nvme _ => false | _ => true

/-- Requests that wait on a queue pair leave in order, as far as they may; at most n of them. -/
def State.qpDrain (e q : Nat) : Nat → State → State
  | 0, s => s
  | n + 1, s =>
    let x := s.qp e q
    match x.wait with
    | k :: r =>
      if s.qpHeld e q k.coll then s
      else State.qpDrain e q n ((s.setQp e q { x with wait := r, unacked := x.unacked ++ [k] }).qpOut e q k)
    | [] => s

/-- Requests join those of a queue pair, numbered in order, and leave as far as they may. -/
def State.qpRequest (s : State) (e q : Nat) (l : List (EthOut × Bool)) : State :=
  let x := s.qp e q
  let ks := (List.range l.length).map fun i =>
    ({ psn := some ((x.psn + i) % 2 ^ 24), out := (l.getD i (.ack, false)).1, more := (l.getD i (.ack, false)).2 } : EthPkt)
  let y := { x with psn := (x.psn + l.length) % 2 ^ 24, wait := x.wait ++ ks }
  State.qpDrain e q y.wait.length (s.setQp e q y)

/-- Send a payload on a queue pair of a die: pair q of port e of the die has the number 16,384 e + q (log entry 39). -/
def State.ethSend (s : State) (d qpn : Nat) (payload : List Nat) : State :=
  s.qpRequest (4 * d + qpn / qpCount % 4) (qpn % qpCount) ((mtuParts payload).map fun p => (.send p.1, p.2))

/-- An acknowledgement covers every request up to a packet sequence number, and what waited may leave. -/
def State.qpAck (s : State) (e q psn : Nat) : State :=
  let x := s.qp e q
  if x.unacked.any fun k => k.psn == some psn then
    let y := { x with unacked := (x.unacked.dropWhile fun k => k.psn != some psn).drop 1 }
    State.qpDrain e q y.wait.length (s.setQp e q y)
  else s

/-- Every queue pair of a port sends what it may. -/
def State.qpDrainAll (s : State) (e : Nat) : State :=
  (s.qps.filter fun (x : Nat × Qp) => x.1 / 2 ^ 24 == e && x.2.wait != []).foldl
    (fun s (x : Nat × Qp) => State.qpDrain e (x.1 % 2 ^ 24) x.2.wait.length s) s

/-! ### NVMe over Fabrics (R361, R366) -/

/-- An entry of an I/O queue table: two words. -/
def nvqOk (w : List Nat) : Bool := bit (w.getD 0 0) 63
/-- The port of an I/O queue. -/
def nvqPort (w : List Nat) : Nat := bits (w.getD 0 0) 59 4
/-- Commands that an I/O queue takes at once (R361, R366). -/
def nvqDepth (w : List Nat) : Nat := min 128 (bits (w.getD 0 0) 24 8 + 1)
/-- Bytes of a logical block by its code; none for a reserved one (R367). -/
def lbaBytes (code : Nat) : Option Nat := if code = 0 then some 512 else if code = 3 then some 4096 else none

/-- Send a command on the queue pair of an I/O queue. -/
def State.nvmeSend (s : State) (w : List Nat) (c : NvmeCmd) : State :=
  let n := bits (w.getD 0 0) 0 24
  s.qpRequest (nvqPort w) (n % qpCount) [(.nvme { c with qid := bits (w.getD 0 0) 32 16, key := bits (w.getD 1 0) 32 32 }, false)]

end Sys2Proof.Machine
end

