-- ==== Sys2Proof/Machine/Stot.lean ====
section
/-!
DEFINITION. Stot.lean: messages leaving through Afraeri ports, and the STOT: its slot, its flood and its delivery to the step
schedulers (R332, R346 to R348).
-/

namespace Sys2Proof.Machine

/-- Hand a CTRL message to every port that is up, except one (R63, R346). -/
def State.flood (s : State) (from? : Option Nat) (m : AfrMsg) : State :=
  forRange 36 (fun g s => if from? = some g then s else s.sendOn g m) s

/-- The data slot of a STOT (R346). -/
def stotSlot (kind job opkg lost origin : Nat) : Nat :=
  kind % 4 * 2 ^ 126 + job % 65536 * 2 ^ 110 + opkg % 65536 * 2 ^ 94 + lost % 65536 * 2 ^ 78 + origin % 2 ^ 48 * 2 ^ 30

/-- The CTRL message of a STOT slot. -/
def stotMsg (pkg slot : Nat) : AfrMsg :=
  { vc := 3, typ := 0x31, dst := 0xFFFF, src := pkg, epoch := 0, len := 1, tag := 0, arg := 0, data := [slot] }

/-- The key by which a STOT is deduplicated: bits [127:30] (R346). -/
def stotKey (slot : Nat) : Nat := slot / 2 ^ 30

/-- The dedupe table of a die (R346). -/
def State.stotTable (s : State) (d : Nat) : List (Nat × Nat) := Map.get [] s.stotSeen d

/-- Record a key in the table of a die, replacing the oldest of 256 where it is full (R346). -/
def State.stotNote (key : Nat) (s : State) (d : Nat) : State :=
  let l := s.stotTable d ++ [(key, s.tick)]
  { s with stotSeen := s.stotSeen.insert d (if 256 < l.length then l.drop 1 else l) }

/-- The package records a key: each die does (R346; log entry 36). -/
def State.stotRecord (s : State) (key : Nat) : State := (s.stotNote key 0).stotNote key 1

/-- The key stands in the table of a die: it was recorded within the last 16 boundaries (R346). -/
def State.stotKnown (s : State) (d key : Nat) : Bool :=
  (s.stotTable d).any fun e => e.1 == key && decide (s.tick < e.2 + 16)

/-- Entry g of the group table of a die (R349). -/
def State.groupEntry (s : State) (d g : Nat) : Option (List Nat) :=
  (s.loadWords (Reach.engine d) (s.fget (R.AFR_COLL_BASE d) F.AFR_COLL_BASE_ADDR * 64 + 64 * g) 8).1

/-- The member records of a group entry, up to a number of ranks. -/
def State.members (s : State) (d : Nat) (e : List Nat) (n : Nat) : List Nat :=
  ((s.loadWords (Reach.engine d) (bits (e.getD 1 0) 3 53 * 8) n).1).getD []

/-- The group table of a die, 256 KiB, lies in ranges that the engine reaches. -/
def State.tableThere (s : State) (d : Nat) : Bool :=
  let a := s.fget (R.AFR_COLL_BASE d) F.AFR_COLL_BASE_ADDR * 64
  [a, a + 262143].any fun x => s.xlate (Reach.engine d) false x != .bad

/-- The entries of the groups that are defined at a die (R349). -/
def State.groupsAt (s : State) (d : Nat) : List (List Nat) :=
  if s.tableThere d then
    (List.range 4096).filterMap fun g => (s.groupEntry d g).filter fun e => bit (e.getD 0 0) 63
  else []

/-- Every member record of a group entry. -/
def State.allMembers (s : State) (d : Nat) (e : List Nat) : List Nat := s.members d e (bits (e.getD 0 0) 32 16 + 1)

/-- Some group of a job names a package in a member record (R346). -/
def State.jobNames (s : State) (job pkg : Nat) : Bool :=
  (List.range 2).any fun d => (s.groupsAt d).any fun e =>
    bits (e.getD 0 0) 0 16 == job && (s.allMembers d e).any fun m => bits m 48 16 == pkg

/-- Hand a STOT to one resident context (R57, R393). A context in regroup only counts it (R421). -/
def Slot.hear (x : Slot) (kind origin pkg now : Nat) : Slot :=
  if x.fget R.SCH_REGROUP F.SCH_REGROUP_ACTIVE == 1 then x
  else { x with stots := x.stots ++ [{ kind := kind, origin := origin, pkg := pkg, came := now }] }

/-- The resident contexts to which a STOT is delivered (R346), as partition, slot and context. -/
def State.stotFor (s : State) (kind job lost : Nat) : List (Nat × Nat × Slot) :=
  ((List.range 8).flatMap fun p => (List.range 4).filterMap fun k => (s.slot? p k).map fun x => (p, k, x)).filter fun e =>
    (kind == 0 && e.2.2.job == job) || (kind == 1 && s.jobNames e.2.2.job lost)

/-- A STOT whose origin tick is at most the last flip boundary of its job less the lag comes late (R58): it is counted and recorded
once, and an event carries the origin tick and the flip. The in-flight work of the job ends with ABORTED as with any STOT, at the
next boundary. -/
def State.lateStot (s : State) (l : List (Nat × Nat × Slot)) (origin : Nat) : State :=
  match ((l.filterMap fun e => e.2.2.lastFlip).filter fun b => decide (origin + s.fget R.TCK_STOT F.TCK_STOT_LAG ≤ b)).max? with
  | some b =>
    let s1 := (s.fadd R.TCK_STATUS F.TCK_STATUS_LATE_COUNT 1).fset R.TCK_STOT F.TCK_STOT_LAST_LATE origin
    s1.event R.TCK_STATUS (some F.TCK_STATUS_LATE_COUNT) [origin, b]
  | none => s

/-- Deliver a STOT to the step schedulers concerned (R346). -/
def State.stotDeliver (s : State) (slot : Nat) : State :=
  let kind := bits slot 126 2
  let lost := bits slot 78 16
  let origin := bits slot 30 48
  let l := s.stotFor kind (bits slot 110 16) lost
  (l.foldl (fun s e => s.setSlot e.1 e.2.1 (e.2.2.hear kind origin lost s.tick)) s).lateStot l origin

/-- A STOT goes over Ethernet: a SEND on the queue pair of every member record with ETH = 1 in the groups of the partitions whose jobs it
concerns (R348). -/
def State.stotEthernet (s : State) (slot : Nat) : State :=
  let ps := (s.stotFor (bits slot 126 2) (bits slot 110 16) (bits slot 78 16)).map fun e => e.1
  let one (d : Nat) (s : State) (m : Nat) : State := if bit m 46 then s.ethSend d (bits m 0 24) (Config.ethStotPayload slot) else s
  let die (s : State) (d : Nat) : State :=
    ((s.groupsAt d).filter fun e => ps.contains (bits (e.getD 0 0) 60 3)).foldl (fun s e => (s.allMembers d e).foldl (one d) s) s
  let s1 := { s with ethStot := s.ethStot ++ [slot] }
  if ps = [] then s1 else die (die s1 0) 1

/-- A STOT received at a die, by any path: deduplicated, recorded, forwarded and delivered; `from?` is the Afraeri port (R346, R348). -/
def State.stotArrive (s : State) (d : Nat) (from? : Option Nat) (slot : Nat) : State :=
  if s.stotKnown d (stotKey slot) then s
  else
    let s0 := (s.stotRecord (stotKey slot)).fadd (R.AFR_STAT d) F.AFR_STAT_STOT_RX 1
    ((s0.flood from? (stotMsg s.pkgId slot)).stotEthernet slot).stotDeliver slot

/-- Originate a STOT stamped with this package's TCK_COUNT (R347, R348). -/
def State.stotOriginate (s : State) (kind job lost : Nat) : State :=
  let slot := stotSlot kind job s.pkgId lost s.tick
  ((s.stotRecord (stotKey slot)).flood none (stotMsg s.pkgId slot)).stotEthernet slot

end Sys2Proof.Machine
end

