-- ==== Sys2Proof/Machine/InkOps.lean ====
section
/-!
DEFINITION. InkOps.lean: the operations of an intake stream: its settings, its batches and manifests, its binding to a step,
and its commit record (R365 to R386).
-/

namespace Sys2Proof.Machine

/-- The stream of a partition. -/
def State.stream (s : State) (p : Nat) : Stream := Map.get {} s.streams p
/-- Replace the stream of a partition. -/
def State.setStream (s : State) (p : Nat) (x : Stream) : State := { s with streams := Map.put {} s.streams p x }
/-- A field of INK_Sn_CTRL. -/
def State.inkCtl (s : State) (p : Nat) (f : Fld) : Nat := s.fget (R.INK_S_CTRL p) f
/-- The stream runs: its EN and that of the engine are 1. -/
def State.inkOn (s : State) (p : Nat) : Bool := s.fbit R.INK_CTRL F.INK_CTRL_EN && s.fbit (R.INK_S_CTRL p) F.INK_S_CTRL_EN
/-- Bytes of a sample slot. -/
def State.slotBytes (s : State) (p : Nat) : Nat := s.fget (R.INK_S_SHAPE p) F.INK_S_SHAPE_SLOT_PAGES * 4096
/-- Samples per batch. -/
def State.batchLen (s : State) (p : Nat) : Nat := s.inkCtl p F.INK_S_CTRL_BATCH + 1
/-- Entries that a manifest has room for (R380). -/
def State.manifestRoom (s : State) (p : Nat) : Nat := if s.inkCtl p F.INK_S_CTRL_MODE = 0 then s.batchLen p * 64 else s.batchLen p
/-- STRIDE of the batch buffers (R380). -/
def State.batchStride (s : State) (p : Nat) : Nat :=
  (s.batchLen p * s.slotBytes p + 64 + 32 * s.manifestRoom p + 4095) / 4096 * 4096
/-- The address of batch buffer i. -/
def State.batchAddr (s : State) (p i : Nat) : Nat := s.fget (R.INK_S_BATCH p) F.INK_S_BATCH_ADDR * 4096 + i * s.batchStride p
/-- The address of the manifest of batch buffer i (R380). -/
def State.manifestAddr (s : State) (p i : Nat) : Nat := s.batchAddr p i + s.batchLen p * s.slotBytes p
/-- The stream area. -/
def State.inkArea (s : State) (p : Nat) : Nat := s.fget (R.INK_S_AREA p) F.INK_S_AREA_ADDR * 4096

/-- An error response to a memory access of the stream stops it (R386), and its operation ends with a status (R36, R71). -/
def State.inkError (s : State) (p status : Nat) : State :=
  let s1 := ((s.fset (R.INK_S_CTRL p) F.INK_S_CTRL_EN 0).fset (R.INK_S_STATE p) F.INK_S_STATE_ERR 1).setStream p
    { s.stream p with ended := status, reads := [], bufs := [], staging := [], slow := [] }
  s1.event (R.INK_S_STATE p) (some F.INK_S_STATE_ERR) []

/-- Load k 64-bit words for the stream; an error response stops the stream, and none where it does or has to wait. -/
def State.inkLoad (s : State) (p a k : Nat) : Option (List Nat) × State :=
  match s.load (Reach.intake p) a (8 * k) with
  | (.ok v, s1) => (some (toWords 64 k v), s1)
  | (.wait _, s1) => (none, s1)
  | (e, s1) => (none, s1.inkError p (ldStatus e))

/-- A store of the stream; an error response stops the stream. -/
def State.inkStore (s : State) (p a n v : Nat) : State :=
  match s.store (Reach.intake p) a n v with
  | (.ok _, s1) => s1
  | (e, s1) => s1.inkError p (ldStatus e)

/-- Buffers of the batch queue that are in use. -/
def Stream.used (x : Stream) : List Nat :=
  (match x.cur with | some o => [o.buf] | none => []) ++ x.closed.map (fun e => e.2) ++ x.ready.map (fun e => e.2)
    ++ x.bound.map fun e => e.buf

/-- A snapshot in progress has yet to read batch buffer i (R429). -/
def State.snapHolds (s : State) (p i : Nat) : Bool :=
  (s.part p).slots.any fun (e : Nat × Slot) =>
    (e.2.snap.phase == 2 || e.2.snap.phase == 3) && e.2.snap.pieces.any fun q => q.kind == 2 && q.addr == s.batchAddr p i

/-- Open the next batch in the next free buffer where none is open (R381). -/
def State.inkOpen (s : State) (p : Nat) : State :=
  let x := s.stream p
  if x.cur.isSome || !s.fbit (R.INK_S_CTRL p) F.INK_S_CTRL_EN then s
  else
    match firstUpTo (s.inkCtl p F.INK_S_CTRL_QDEPTH) fun i => !x.used.contains i && !s.snapHolds p i with
    | some i => s.setStream p { x with cur := some { seq := x.nextSeq, buf := i }, nextSeq := x.nextSeq + 1 }
    | none => s

/-- Show READY and the bound batch in INK_Sn_STATE, and raise the low-water event (R383). -/
def State.inkShow (s : State) (p : Nat) : State :=
  let x := s.stream p
  let n := x.ready.length
  let lw := s.inkCtl p F.INK_S_CTRL_LOW_WATER
  let s1 := ((s.fset (R.INK_S_STATE p) F.INK_S_STATE_READY n).fset (R.INK_S_STATE p) F.INK_S_STATE_BOUND
    (b2n !x.bound.isEmpty)).fset (R.INK_S_STATE p) F.INK_S_STATE_BOUND_IDX (match x.bound.getLast? with | some e => e.buf | none => 0)
  if n < lw && !x.low then
    (s1.setStream p { x with low := true }).event (R.INK_S_STATE p) (some F.INK_S_STATE_READY) []
  else if lw ≤ n && x.low then s1.setStream p { x with low := false }
  else s1

/-- LOW_WATER has been written: the event follows once the count, having been at it or above, falls below it (R383). -/
def State.inkWater (s : State) (p : Nat) : State :=
  s.setStream p { s.stream p with low := decide ((s.stream p).ready.length < s.inkCtl p F.INK_S_CTRL_LOW_WATER) }

/-- A release of a new step waits for a batch: of a stream that runs (R382; log entry 113). -/
def State.inkWaits (s : State) (p : Nat) : Bool :=
  s.fbit (R.INK_S_CTRL p) F.INK_S_CTRL_EN && s.fbit (R.INK_S_CTRL p) F.INK_S_CTRL_BIND && (s.stream p).ready.isEmpty

/-- STARVE counts a boundary at which a release waits for a batch, once (R382). -/
def State.inkStarves (s : State) (p : Nat) : State :=
  if (s.stream p).starvedAt = some s.tick then s
  else (s.setStream p { s.stream p with starvedAt := some s.tick }).fadd (R.INK_S_CNT p) F.INK_S_CNT_STARVE 1

/-- Bind the oldest READY batch to a step of a context (R382): also of a stream that has been stopped, which keeps its batches (R386). -/
def State.inkBind (s : State) (p ctx step : Nat) : State :=
  if !s.fbit (R.INK_S_CTRL p) F.INK_S_CTRL_BIND then s
  else
    match (s.stream p).ready with
    | [] => s
    | e :: r =>
      let s1 := s.inkStore p (s.manifestAddr p e.2 + 8) 8 step
      let s2 := s1.inkStore p (s.inkArea p + 0xFF8) 8 (s.batchAddr p e.2)
      (s2.setStream p { s2.stream p with ready := r, bound := (s2.stream p).bound ++ [{ seq := e.1, buf := e.2, ctx := ctx }] }).inkShow p

/-- A commit or a skip by vote consumes the batch bound to a context and frees its buffer (R382). -/
def State.inkConsume (s : State) (p ctx : Nat) : State :=
  ((s.setStream p { s.stream p with bound := (s.stream p).bound.filter fun e => e.ctx != ctx }).inkShow p).inkOpen p

/-- Write the commit record (R384). -/
def State.inkRecord (s : State) (p : Nat) : State :=
  let x := s.stream p
  if s.fget (R.INK_S_AREA p) F.INK_S_AREA_ADDR = 0 then s
  else
    let vals := [s.fget (R.INK_S_CURSOR p) F.INK_S_CURSOR_SHARD, s.fget (R.INK_S_CURSOR p) F.INK_S_CURSOR_PASS,
      s.fget (R.INK_S_OFFSET p) F.INK_S_OFFSET_OFFSET, x.nextSeq, x.mean.getD 0,
      s.fget (R.INK_S_CNT p) F.INK_S_CNT_CORRUPT, s.fget (R.INK_S_CNT p) F.INK_S_CNT_TIMEOUT,
      s.fget (R.INK_S_CNT p) F.INK_S_CNT_SLOW, s.fget (R.INK_S_CNT p) F.INK_S_CNT_SHARD_FAIL,
      s.fget (R.INK_S_CNT p) F.INK_S_CNT_STARVE] ++ x.ready.flatMap fun e => [e.1, e.2]
    s.inkStore p (s.inkArea p) 0xFF8 (Config.intakeRecord vals % 2 ^ (8 * 0xFF8))

/-- A restore rebuilds the batch queue of a stream from its commit record, and the cursor at which reading resumes (R384). -/
def State.inkRebuild (s : State) (p v : Nat) : State :=
  let l := Config.intakeParse v
  let w (i : Nat) : Nat := l.getD i 0
  let c := R.INK_S_CNT p
  let s1 := ((s.fset (R.INK_S_CURSOR p) F.INK_S_CURSOR_SHARD (w 0)).fset (R.INK_S_CURSOR p) F.INK_S_CURSOR_PASS (w 1)).fset
    (R.INK_S_OFFSET p) F.INK_S_OFFSET_OFFSET (w 2)
  let s2 := ((((s1.fset c F.INK_S_CNT_CORRUPT (w 5)).fset c F.INK_S_CNT_TIMEOUT (w 6)).fset c F.INK_S_CNT_SLOW (w 7)).fset c
    F.INK_S_CNT_SHARD_FAIL (w 8)).fset c F.INK_S_CNT_STARVE (w 9)
  let q := (List.range ((l.length - 10) / 2)).map fun i => (w (10 + 2 * i), w (11 + 2 * i))
  (s2.setStream p { nextSeq := w 3, mean := some (w 4 % 2 ^ 40), ready := q, low := (s.stream p).low, taken := (s.stream p).taken }).inkShow p

end Sys2Proof.Machine
end

