-- ==== Sys2Proof/Machine/SchedOps.lean ====
section
/-!
DEFINITION. SchedOps.lean: the operations of the step schedulers: task records, holds, aborts, job faults, the order of items,
and the choice of herds (R236 to R240, R252, R288, R289, R400, R406).
-/

namespace Sys2Proof.Machine

/-! ### Descriptors -/

/-- A descriptor read and checked: its status, 0 OK, 3 FORMAT, 2 RANGE (R166; an address decode error reads as RANGE), with
its fields. -/
structure DescRead where
  status : Nat
  desc : Desc
deriving DecidableEq, Repr

/-- Read and check the descriptor at an address (R166). -/
def State.readDesc (s : State) (r : Reach) (a : Nat) : DescRead × State :=
  match s.loadWords r a 8 with
  | (some ws, s1) =>
    match descOf ws with
    | some d => if !d.formatOk then (⟨3, d⟩, s1) else if !d.rangeOk then (⟨2, d⟩, s1) else (⟨0, d⟩, s1)
    | none => (⟨3, {}⟩, s1)
  | (none, s1) => (⟨2, {}⟩, s1)

/-- The ranges that one slot of a descriptor spans (R289). -/
def Desc.slotRanges (d : Desc) (off : Nat) : List Nat :=
  let lo := (d.base + off) / 2 ^ 20
  let hi := (d.base + off + d.extent - 1) / 2 ^ 20
  (List.range (hi + 1 - lo)).map fun i => lo + i

/-- ranges_of (R289): the span of slot 0, and of slot 1 if VERSIONED. -/
def Desc.ranges (d : Desc) : List Nat := d.slotRanges 0 ++ (if d.versioned then d.slotRanges d.voff else [])

/-! ### Task records (R236, R288) -/

/-- Word i of a task record. -/
def tw (t : List Nat) (i : Nat) : Nat := t.getD i 0
/-- KIND. -/
def tKind (t : List Nat) : Nat := bits (tw t 0) 60 4
/-- MB. -/
def tMb (t : List Nat) : Nat := bits (tw t 0) 48 12
/-- LAYER. -/
def tLayer (t : List Nat) : Nat := bits (tw t 0) 32 16
/-- RECOMP. -/
def tRecomp (t : List Nat) : Bool := bit (tw t 0) 31
/-- TG. -/
def tTg (t : List Nat) : Nat := bits (tw t 0) 16 8
/-- TU. -/
def tTu (t : List Nat) : Nat := bits (tw t 0) 13 3
/-- The address that DESC_A names. -/
def tDesc (t : List Nat) : Nat := bits (tw t 1) 6 50 * 64
/-- HERDS. -/
def tHerds (t : List Nat) : Nat := bits (tw t 2) 59 5
/-- ARG as an address. -/
def tArg (t : List Nat) : Nat := bits (tw t 2) 6 50 * 64
/-- DEP0 and DEP1 that name a task. -/
def tDeps (t : List Nat) : List Nat := [bits (tw t 3) 48 16, bits (tw t 3) 32 16].filter fun d => d != 0xFFFF
/-- HERD_MASK. -/
def tMask (t : List Nat) : Nat := bits (tw t 3) 16 16
/-- PMODE. -/
def tPmode (t : List Nat) : Nat := bits (tw t 3) 0 2
/-- The input descriptors IN0 to IN3. -/
def tInputs (t : List Nat) : List Nat := ([4, 5, 6, 7].map fun i => bits (tw t i) 6 50 * 64).filter fun a => a != 0

/-- A field of SCH_PIPE_CTL as the last release took it. -/
def Slot.pget (x : Slot) (f : Fld) : Nat := Map.get f.rst x.pipe (regKey R.SCH_PIPE_CTL f)
/-- Take SCH_PIPE_CTL at a release. -/
def Slot.takePipe (x : Slot) : Slot := { x with pipe := x.regs.filter fun e => e.1 / 64 == R.SCH_PIPE_CTL / 8 }
/-- Micro-batches per step. -/
def Slot.nmb (x : Slot) : Nat := x.pget F.SCH_PIPE_CTL_NMB + 1
/-- Stages. -/
def Slot.nstage (x : Slot) : Nat := x.pget F.SCH_PIPE_CTL_NSTAGE + 1
/-- STAGE. -/
def Slot.stage (x : Slot) : Nat := x.pget F.SCH_PIPE_CTL_STAGE
/-- The current tag (R238). -/
def Slot.tag (x : Slot) : Nat :=
  x.fget R.SCH_PIPE_TAG F.SCH_PIPE_TAG_RELEASES * 2 ^ 48 + x.fget R.SCH_PIPE_TAG F.SCH_PIPE_TAG_STEP1
/-- G. -/
def Slot.gen (x : Slot) : Nat := x.fget R.SCH_VER F.SCH_VER_GEN

/-- The herds that a task may use (R288). -/
def State.mayUse (s : State) (p : Nat) (t : List Nat) : List Nat :=
  (s.herdList p).filter fun h => tPmode t == 0 || bit (tMask t) h

/-- No record rule of R236 or R288 is broken. -/
def State.taskOk (s : State) (p idx nmb : Nat) (t : List Nat) : Bool :=
  decide (tKind t ≤ 4) && (tKind t == 0 || tKind t == 4 || decide (tMb t < nmb)) && (tTu t == 0 || tTg t != 0)
    && bits (tw t 0) 24 6 == 0 && bits (tw t 0) 0 13 == 0 && bits (tw t 1) 56 8 == 0 && bits (tw t 1) 0 6 == 0
    && bits (tw t 2) 56 3 == 0 && bits (tw t 2) 0 6 == 0 && bits (tw t 3) 2 14 == 0
    && ([4, 5, 6, 7].all fun i => bits (tw t i) 56 8 == 0 && bits (tw t i) 0 6 == 0)
    && decide (tPmode t ≤ 1) && tHerds t != 0 && (tDeps t).all (fun d => decide (d < idx))
    && (tPmode t == 0 || (List.range 16).all fun h => !bit (tMask t) h || bit (s.herdsOf p) h)
    && decide (tHerds t ≤ (s.mayUse p t).length)

/-! ### Aborts, holds and job faults -/

/-- Ask for an abort of the step in flight (R72, R250, R252), which takes effect at a boundary; a first request stands. -/
def State.askAbort (s : State) (p k : Nat) (r : AbortReq) : State :=
  s.modSlot p k fun x =>
    if x.step.live && x.step.abort.isNone then { x with step := { x.step with abort := some { r with origin := s.tick } } }
    else x

/-- Abort a step and send STOT to its job (R72): a job within one package has no exchange and so no member to reach. -/
def State.abortAndStot (s : State) (p k : Nat) (r : AbortReq) : State :=
  match s.slot? p k with
  | some x => if x.step.live then (s.askAbort p k r).stotOriginate 0 x.job 0xFFFF else s
  | none => s

/-- R252: a task that ends with FORMAT or RANGE aborts the step, sends STOT and holds the job. -/
def State.taskFail (s : State) (p k : Nat) (t : List Nat) (status : Nat) : State :=
  let s1 := (s.abortAndStot p k {}).modSlot p k fun x => x.fset R.SCH_PIPE_STAT F.SCH_PIPE_STAT_HELD 1
  s1.event (B.sch p + R.SCH_PIPE_STAT) (some F.SCH_PIPE_STAT_HELD) [tLayer t, tMb t, status]

/-- A fault attributed to a job awaits R406. -/
def State.jobFault (s : State) (f : JobFault) : State := { s with jobFaults := s.jobFaults ++ [f] }

/-- The reset of a domain becomes due (R411). -/
def State.resetDue (s : State) (code unit : Nat) : State :=
  if s.resetsDue.contains (code, unit) then s else { s with resetsDue := s.resetsDue ++ [(code, unit)] }

/-- R72: a step in flight that worked on a unit of a herd is aborted. -/
def State.abortHerd (s : State) (h : Nat) : State :=
  match s.partOfHerd h with
  | some p =>
    match (s.part p).run with
    | some k => s.abortAndStot p k {}
    | none => s
  | none => s

/-! ### Blocking (R400) -/

/-- A context is held under R105, R220, R252 or R421. -/
def Slot.held (x : Slot) : Bool :=
  x.fget R.SCH_PIPE_STAT F.SCH_PIPE_STAT_HELD == 1
    || x.skipHeld || x.fget R.SCH_REGROUP F.SCH_REGROUP_ACTIVE == 1

/-- The next release carries a new step number (R101). -/
def Slot.newStep (x : Slot) : Bool := x.released != some x.nextStep

/-- EN, HOLD, WRITTEN and VALUE of step-size group n. -/
def Slot.lrNow (x : Slot) (n : Nat) : List Nat :=
  [x.fget (R.SCH_LR n) F.SCH_LR_EN, x.fget (R.SCH_LR n) F.SCH_LR_HOLD, x.fget (R.SCH_LR n) F.SCH_LR_WRITTEN,
    x.fget (R.SCH_LR n) F.SCH_LR_VALUE]

/-- The same as held before the cycle with this time base: a write in the release cycle counts for the following step (R257). -/
def Slot.lrBefore (x : Slot) (tb n : Nat) : List Nat :=
  if x.lrAt = some tb then (x.lrCycle.find? n).getD (x.lrNow n) else x.lrNow n

/-- The lowest enabled optimiser group that is neither written nor held (R256). -/
def Slot.lrWaiting (x : Slot) (tb : Nat) : Option Nat :=
  firstUpTo 256 fun n =>
    let g := x.lrBefore tb n
    g.getD 0 0 == 1 && g.getD 2 0 == 0 && g.getD 1 0 == 0

/-- BLOCK of SCH_SLOTk: why the next release of a context cannot take place, 0 where it can (R400). -/
def State.blockCode (s : State) (p : Nat) (x : Slot) : Nat :=
  if x.step.live then 0
  else if x.stepsLeft = 0 ∧ x.newStep then 1
  else if x.fget R.SCH_TASK_COUNT F.SCH_TASK_COUNT_COUNT = 0 then 2
  else if x.newStep ∧ (x.lrWaiting s.clk.tb).isSome then 3
  else if x.newStep ∧ s.inkWaits p then 4
  else if x.held then 5
  else 0

/-! ### Items (R237 to R240) -/

/-- The items of a step in base order; with no backward task there is no backward item (R237, R239). -/
def Slot.order (x : Slot) : List (Bool × Nat) :=
  let n := x.nmb
  if x.step.tasks.any fun t => tKind t == 2 || tKind t == 3 then
    let w := min (x.nstage - 1 - x.stage) n
    (List.range w).map (fun m => (false, m))
      ++ (List.range (n - w)).flatMap (fun j => [(false, w + j), (true, j)])
      ++ (List.range w).map (fun j => (true, n - w + j))
  else (List.range n).map fun m => (false, m)

/-- END: the last task of its item (R236, R237). -/
def tEnd (t : List Nat) : Bool := bit (tw t 0) 30

/-- A task is of the kind and the micro-batch of an item (R237). -/
def ofItem (it : Bool × Nat) (t : List Nat) : Bool :=
  tMb t == it.2 && (if it.1 then tKind t == 2 || tKind t == 3 else tKind t == 1)

/-- Task i of a table belongs to an item, which ends at its first task with END = 1 (R237; log entry 91). -/
def inItem (ts : List (List Nat)) (it : Bool × Nat) (i : Nat) : Bool :=
  ofItem it (ts.getD i []) && (ts.take i).all fun t => !(ofItem it t && tEnd t)

/-- The item that task i of a table belongs to. -/
def itemOf (ts : List (List Nat)) (i : Nat) : Option (Bool × Nat) :=
  let t := ts.getD i []
  let it := (tKind t != 1, tMb t)
  if 1 ≤ tKind t ∧ tKind t ≤ 3 ∧ inItem ts it i then some it else none

/-- Every task of the step whose index meets a test has retired. -/
def StepSt.retired (st : StepSt) (f : Nat → Bool) : Bool :=
  (List.range st.tasks.length).all fun i => !f i || (Map.get {} st.state i).phase == 2

/-- act_cred (R240). -/
def Slot.actCred (x : Slot) : Nat :=
  let c := x.pget F.SCH_PIPE_CTL_ACT_CRED
  if c = 0 then x.nstage - x.stage + x.pget F.SCH_PIPE_CTL_EXTRA_FWD else c

/-- A ready word holds the current tag (R238). -/
def State.readyWord (s : State) (p : Nat) (x : Slot) (i : Nat) : Bool × State :=
  let z := s.load (Reach.sched p) (x.fget R.SCH_PIPE_READY F.SCH_PIPE_READY_ADDR * 64 + 8 * i) 8
  (z.1 == .ok x.tag, z.2)

/-- An item is ready (R238). -/
def State.itemReady (s : State) (p : Nat) (x : Slot) : Bool × Nat → Bool × State
  | (false, m) => if x.stage = 0 then (true, s) else s.readyWord p x m
  | (true, m) =>
    if x.stage + 1 = x.nstage then (x.step.doneItems.contains (false, m), s) else s.readyWord p x (x.nmb + m)

/-- What next_item finds: the item with the position and the ahead set it leaves, and whether it is an extra forward. -/
structure Pick where
  item : Option (Bool × Nat)
  pos : Nat
  ahead : List Nat
  extra : Bool := false
  remain : Bool := true
deriving DecidableEq, Repr

/-- The stage has an activation-memory credit for a forward item (R240). A step without backward items runs all of its forwards, so
no credit holds them (R237; log entry 91). -/
def Slot.credit (x : Slot) (order : List (Bool × Nat)) : Bool :=
  !(order.any fun y => y.1) || decide (x.step.fwdStarted - x.step.bwdDone < x.actCred)

/-- Pass over forwards that have run ahead (R240). -/
def skipAhead : List (Bool × Nat) → Nat → List Nat → Nat × List Nat
  | [], pos, ahead => (pos, ahead)
  | it :: r, pos, ahead =>
    if !it.1 && ahead.contains it.2 then skipAhead r (pos + 1) (ahead.erase it.2) else (pos, ahead)

/-- next_item (R240). -/
def State.nextItem (s : State) (p : Nat) (x : Slot) : Pick × State :=
  let order := x.order
  let (pos, ahead) := skipAhead (order.drop x.step.pos) x.step.pos x.step.ahead
  let credit := x.credit order
  match order[pos]? with
  | none => ({ item := none, pos := pos, ahead := ahead, remain := false }, s)
  | some it =>
    let z := s.itemReady p x it
    if z.1 && (it.1 || credit) then ({ item := some it, pos := pos + 1, ahead := ahead }, z.2)
    else if it.1 && decide (ahead.length < x.pget F.SCH_PIPE_CTL_EXTRA_FWD) then
      match (order.drop pos).find? fun y => !y.1 && !ahead.contains y.2 with
      | some f =>
        let z1 := z.2.itemReady p x f
        (if z1.1 && credit then { item := some f, pos := pos, ahead := ahead ++ [f.2], extra := true }
          else { item := none, pos := pos, ahead := ahead }, z1.2)
      | none => ({ item := none, pos := pos, ahead := ahead }, z.2)
    else ({ item := none, pos := pos, ahead := ahead }, z.2)

/-- The references of a slot, kept in SCH_VER.MB_REF (R244). -/
def Slot.setRefs (x : Slot) (r : Map Nat) : Slot :=
  { x with step := { x.step with refs := r } }.fset R.SCH_VER F.SCH_VER_MB_REF r.length

/-- The running item completes when all its tasks have retired: it is noted, and its micro-batch's reference is released
where it is the last of the micro-batch (R237, R244). -/
def Slot.closeItem (x : Slot) : Slot :=
  match x.step.item with
  | none => x
  | some it =>
    if x.step.retired (inItem x.step.tasks it) then
      let st := { x.step with item := none, doneItems := x.step.doneItems ++ [it],
                              bwdDone := if it.1 then x.step.bwdDone + 1 else x.step.bwdDone }
      let x1 := { x with step := st }
      if it.1 || !(x.order.any fun y => y.1) then x1.setRefs (st.refs.erase it.2) else x1
    else x

/-- Every item of the step has completed. -/
def Slot.itemsDone (x : Slot) : Bool := x.order.all fun it => x.step.doneItems.contains it

/-! ### Herds (R289) -/

/-- The load of a herd: tasks queued and running on it. -/
def State.herdLoad (s : State) (h : Nat) : Nat := (s.herd h).tasks.length + (s.herd h).popped.length

/-- The least element by a measure, the first on a tie. -/
def leastBy (f : Nat → Nat) : List Nat → Option Nat
  | [] => none
  | h :: r =>
    match leastBy f r with
    | some g => if f g < f h then some g else some h
    | none => some h

/-- The ranges of the inputs of a task that choose_die looks at (R289). -/
def State.inputRanges (s : State) (p : Nat) (t : List Nat) : List Nat × State :=
  (tInputs t).foldl
    (fun (a : List Nat × State) d =>
      let z := a.2.readDesc (Reach.sched p) d
      let l := z.1.desc.ranges
      (a.1 ++ (if 64 < l.length then (List.range 64).map fun i => l.getD (i * l.length / 64) 0 else l), z.2)) ([], s)

/-- choose_die (R289): stack ranges of the inputs on each die. -/
def State.chooseDie (s : State) (rs : List Nat) : Nat × Nat :=
  let on (d : Nat) : Nat := (rs.filter fun r => rmTier (s.rm r) == 0 && rmFrame (s.rm r) / 2 ^ 19 == d).length
  (on 0, on 1)

/-- choose_herd (R289). -/
def State.chooseHerd (s : State) (b : Nat × Nat) (spill : Bool) (herds : List Nat) (extra : List Nat) : Option Nat :=
  let load (h : Nat) : Nat := s.herdLoad h + (extra.filter fun e => e == h).length
  let die (d : Nat) : List Nat := herds.filter fun h => h / 8 == d
  let least (d : Nat) : Option Nat := (leastBy load (die d)).map load
  let want : Nat :=
    if b.1 ≠ b.2 then (if b.2 < b.1 then 0 else 1)
    else
      match least 0, least 1 with
      | some x, some y => if y < x then 1 else 0
      | none, some _ => 1
      | _, _ => 0
  let near := die want
  leastBy load (if near != [] || !spill then near else herds)

/-- Choose n herds one at a time, each choice removed from the list for the next. -/
def State.chooseHerds (s : State) (b : Nat × Nat) (spill : Bool) : Nat → List Nat → Option (List Nat)
  | 0, _ => some []
  | n + 1, herds =>
    match s.chooseHerd b spill herds [] with
    | some h => (State.chooseHerds s b spill n (herds.filter fun g => g != h)).map fun l => h :: l
    | none => none

/-- The tiles of a herd. -/
def herdTiles (h : Nat) : List Nat := (List.range 12).map fun i => 12 * h + i

/-- The run of the gang to which a tile belongs, where it runs a segment (R130). -/
def State.runAt (s : State) (t : Nat) : Option Run :=
  (herdTiles (t / 12)).findSome? fun u =>
    match (s.tile u).run with
    | some r => if r.members.contains t then some r else none
    | none => none

/-- The tile with scalar n written from outside: held to the next segment start while a segment of the tile runs (R137). -/
def Tile.putSreg (t : Tile) (running : Bool) (n v : Nat) : Tile :=
  if running then { t with sregHeld := t.sregHeld.insert n v }
  else { t with sregs := Map.put 0 t.sregs n v, sregHeld := t.sregHeld.erase n }

/-- Write a scalar of a tile from outside (R137). -/
def State.putSreg (s : State) (t n v : Nat) : State := s.setTile t ((s.tile t).putSreg (s.runAt t).isSome n v)

/-- What a scalar holds after every write that has been made from outside: a write to half of it keeps the other half (R16, R137). -/
def Tile.sregLast (t : Tile) (n : Nat) : Nat := (t.sregHeld.find? n).getD (Map.get 0 t.sregs n)

end Sys2Proof.Machine
end

