-- ==== Sys2Proof/Machine/StopOps.lean ====
section
/-!
DEFINITION. StopOps.lean: how a running segment is stopped (R189, R200), how a task ends (R228, R230, R237, R252, R289), and how a
collective fails (R355).
-/

namespace Sys2Proof.Machine

/-- The boundary has come and no action of R55 after the k-th has been taken at it. -/
def State.atBoundary (s : State) (k : Nat) : Bool := decide (s.clk.phase ≤ k)

/-- An action of R55 is taken. -/
def State.took (s : State) (k : Nat) : State := { s with clk := { s.clk with phase := max s.clk.phase k } }

/-! ### Segments -/

/-- A tile reports a segment to the step scheduler of its partition with a status (R55, R198, R200). -/
def State.segReport (s : State) (t segId status : Nat) : State :=
  match s.partOfTile t with
  | some p => s.setPart p { s.part p with reports := (s.part p).reports ++ [{ tile := t, segId := segId, status := status }] }
  | none => s

/-- Remove the waiters of a tile from a semaphore (R189). -/
def Sem.dropTile (x : Sem) (t : Nat) : Sem := { x with waiters := x.waiters.filter fun w => w.tile != t }

/-- A signal under way outlives the segment that sent it (R189, R200). -/
def SemSig.orphan (g : SemSig) (t : Nat) : SemSig :=
  match g.origin with
  | .tile u _ _ ctx => if u = t then { g with origin := .gone ctx } else g
  | _ => g

/-- Remove the waiters of a tile from every semaphore unit (R189); the signals that it has sent go on. -/
def State.dropWaiters (s : State) (t : Nat) : State :=
  { s with parts := s.parts.map fun e => (e.1, { e.2 with sems := e.2.sems.map fun m => (m.1, m.2.dropTile t),
                                                          sigs := e.2.sigs.map fun g => g.orphan t }),
           gsems := s.gsems.map fun m => (m.1, m.2.dropTile t) }

/-- Invalidate both accumulator sets of a tile (R200). -/
def State.dropAcc (s : State) (t : Nat) : State :=
  ((s.setTile t { s.tile t with acc := [], accNf := [] }).fset (R.TIL_MMA_STATUS t) F.TIL_MMA_STATUS_SET_VALID 0).fset
    (R.TIL_MMA_STATUS t) F.TIL_MMA_STATUS_SET_DRAINING 0

/-- The class code of an instruction word. -/
def wordClass (w : Nat) : Nat := bits w 60 4
/-- The instructions before index n of the segment whose class is sampled. -/
def State.sampled (s : State) (t : Nat) (r : Run) (n : Nat) : Nat :=
  let m := s.fget (R.PMC_SMP_CTL t) F.PMC_SMP_CTL_CLASSES
  ((r.img.code.take n).filter fun w => bit m (wordClass w)).length
/-- The instructions that a segment has dispatched count toward the next tag. -/
def State.sampEnd (s : State) (t : Nat) (r : Run) : State :=
  if s.fbit (R.PMC_SMP_CTL t) F.PMC_SMP_CTL_EN then
    let p := s.fget (R.PMC_SMP_CTL t) F.PMC_SMP_CTL_PERIOD + 1
    s.setTile t { s.tile t with sampCount := ((s.tile t).sampCount + s.sampled t r (r.lastIdx + 1)) % p }
  else s

/-- The work that waits for remote accesses has ended: their answers are for nobody, and what has come for its units goes. -/
def State.asksGone (s : State) (f : Asker → Bool) : State :=
  let g (q : RReq) : RReq := if f q.who then { q with who := .gone } else q
  { s with rreqs := s.rreqs.map fun (e : Nat × RReq) => (e.1, g e.2), rwait := s.rwait.map fun e => (e.1, g e.2),
           came := s.came.dropKeys fun u => f (.unit u), tickets := s.tickets.dropKeys fun u => f (.unit u) }

/-- Units that a test names have gone. -/
def Asker.isUnit (f : Nat → Bool) : Asker → Bool
  | .unit u => f u
  | _ => false

/-- How far a piece of work of a unit that keeps its own place comes now: its accesses are made and it ends, an access cannot go on, or it
waits at the regulators, with what these must have come to (R62, R291, R308, R343). -/
inductive WorkNow (α : Type) where
  | done (e : α) (s : State)
  | halts (h : Halt)
  | waits (s : State) (marks : List (Nat × Nat))
deriving DecidableEq, Repr

/-- The accesses of a unit that keeps its own place as far as they come, `paid` where their tokens have been charged. -/
def State.workNow {α : Type} (s : State) (u : Nat) (paid : Bool) (f : State → α × State) : WorkNow α :=
  let z := f (s.attempt u paid fun s => s)
  match z.2.acc.halt with
  | some h => .halts h
  | none =>
    match s.chargeAll z.2.acc.due with
    | (_, []) => .done z.1 { (z.2.chargeAll z.2.acc.due).1 with acc := {} }
    | (s1, m) => .waits s1 m

/-- The running segment of a tile stops where it stands: what has not been issued is discarded, its waiters leave, and the
accumulator sets of its members become invalid, and its statistics are dropped and counted (R189, R200, R222). -/
def State.stopRun (s : State) (t : Nat) : State :=
  match (s.tile t).run with
  | none => s
  | some r =>
    let n := sumList (r.stats.map fun e => e.2.length)
    let s0 :=
      match s.partOfTile t with
      | some p =>
        match (s.part p).run with
        | some k => s.modSlot p k fun x => x.fadd R.SCH_NUM_STAT F.SCH_NUM_STAT_PG_DROPPED n
        | none => s
      | none => s
    let s1 := (r.members.foldl (fun s m => s.dropAcc m) s0).asksGone fun w =>
      match w with | .ins u _ => u == t | .unit u => u == gatherUnit t | _ => false
    ((s1.sampEnd t r).setTile t { (s1.sampEnd t r).tile t with run := none, sampFlight := 0 }).dropWaiters t

/-- An abort of the job of a context reaches a tile (R200): its running segment stops and its queued segments go. -/
def State.abortTile (s : State) (ctx t : Nat) : State :=
  let x := s.tile t
  let s1 :=
    match x.run with
    | some r => if r.ctx = ctx then (s.stopRun t).segReport t r.img.segId 7 else s
    | none => s
  let y := s1.tile t
  let s2 := s1.when ((y.queue.head?.map fun q => q.ctx) == some ctx) fun s => s.asksGone (Asker.isUnit fun u => u == fetchUnit t)
  s2.setTile t { y with queue := y.queue.filter fun q => q.ctx != ctx,
                        fetched := match y.queue with
                          | q :: _ => if q.ctx = ctx then none else y.fetched
                          | [] => none }

/-! ### Tasks -/

/-- A task of the step in flight retires (R230, R237, R289). -/
def Slot.retire (x : Slot) (i : Nat) : Slot :=
  let t := x.step.tasks.getD i []
  let key := 8 * (tTg t - 1) + tTu t
  let st := { x.step with state := x.step.state.insert i { (Map.get {} x.step.state i : TaskSt) with phase := 2 },
                          live8 := if tKind t = 3 ∧ tTg t ≠ 0 ∧ ¬ x.step.live8.contains key then x.step.live8 ++ [key]
                            else x.step.live8 }
  { x with step := st }.closeItem

/-- A task completes with OK at its dispatch, without being dispatched (R228, R254): its use is not live. -/
def Slot.skipTask (x : Slot) (i now : Nat) : Slot :=
  { x with step := { x.step with state := x.step.state.insert i { phase := 2, since := now } } }.closeItem

/-- A task ends with a status (R252, R289, R406): OK retires it, FORMAT and RANGE hold the job, FAULT is a fault attributed
to the job, and every other status aborts the step with STOT as a timeout does (R72). -/
def State.taskEnd (s : State) (p k i status : Nat) : State :=
  match s.slot? p k with
  | none => s
  | some x =>
    let t := x.step.tasks.getD i []
    if status = 0 then s.setSlot p k (x.retire i)
    else
      let s1 := s.setSlot p k { x with step := { x.step with state := x.step.state.insert i { phase := 2 } } }
      if status = 3 ∨ status = 2 then s1.taskFail p k t status
      else if status = 4 then s1.jobFault { unit := p, kind := 0xA, cause := 0x10, ctx := x.ctx, job := x.job, part := p }
      else s1.abortAndStot p k {}

/-- A herd reports a task (R289): a status other than OK ends it at once; OK from its last herd retires it. -/
def State.herdReports (s : State) (p k i h status : Nat) : State :=
  match s.slot? p k with
  | none => s
  | some x =>
    let ts := Map.get {} x.step.state i
    if !x.step.live || ts.phase != 1 || !ts.herds.contains h then s
    else if status ≠ 0 then s.taskEnd p k i status
    else
      let ts1 := { ts with done := ts.done ++ [h] }
      let s1 := s.setSlot p k { x with step := { x.step with state := x.step.state.insert i ts1 } }
      s1.when (ts1.herds.all fun g => ts1.done.contains g) fun s => s.taskEnd p k i 0

/-- A segment of a herd ends its task with a status (R199): a push names no task, so the task that the herd popped last and
has not reported is meant. -/
def State.segTask (s : State) (h status : Nat) : State :=
  match s.partOfHerd h, (s.herd h).popped.getLast? with
  | some p, some q =>
    (s.setHerd h { s.herd h with popped := (s.herd h).popped.dropLast }).herdReports p q.slot q.index h status
  | _, _ => s

/-- The step works for a micro-batch: its first forward task takes a reference on G (R244). -/
def Slot.takeRef (x : Slot) (t : List Nat) : Slot :=
  if tKind t = 1 ∧ (x.step.refs.find? (tMb t)).isNone then x.setRefs (x.step.refs.insert (tMb t) x.gen) else x

/-- Pins of a generation (R245). -/
def Slot.pins (x : Slot) (g : Nat) : Nat := if g = 1 then x.fget R.SCH_VER F.SCH_VER_PIN1 else x.fget R.SCH_VER F.SCH_VER_PIN0
/-- Pins of the next generation (R246). -/
def Slot.nextPins (x : Slot) : Nat := x.pins (1 - x.gen)

/-! ### Failing collectives (R355) -/

/-- Change the first collective of a group in a queue. -/
def modFirst (g : Nat) (f : Coll → Coll) : List Coll → List Coll
  | [] => []
  | c :: l => if c.group = g then f c :: l else c :: modFirst g f l

/-- Change the collective at the head of a group at a die. -/
def State.modColl (s : State) (d g : Nat) (f : Coll → Coll) : State :=
  { s with colls := Map.put [] s.colls d (modFirst g f (Map.get [] s.colls d)) }

/-- The groups with a collective that has not ended, in order of acceptance. -/
def collGroups : List Coll → List Nat → List Nat
  | [], seen => seen
  | c :: l, seen => collGroups l (if seen.contains c.group then seen else seen ++ [c.group])

/-- Groups that run at once (R354). -/
def collActive (l : List Coll) : List Nat := (collGroups l []).take 16

/-- The collective at the head of a group at a die. -/
def State.collHead (s : State) (d g : Nat) : Option Coll := (Map.get [] s.colls d).find? fun c => c.group == g

/-- A collective has ended. -/
def Coll.over (c : Coll) : Bool := c.done || c.status != 0

/-- The collective at the head of a group at a die fails with a status, unless it has ended (R355). -/
def State.collFail (s : State) (d g status : Nat) : State :=
  s.modColl d g fun c => if c.over then c else { c with status := status }

/-- Fail every collective that meets a test, with its status (R355). -/
def State.collFailAll (s : State) (f : Nat → Coll → Bool) (status : Nat) : State :=
  { s with colls := s.colls.map fun (e : Nat × List Coll) =>
      (e.1, e.2.map fun c => if !c.over && f e.1 c then { c with status := status } else c) }

end Sys2Proof.Machine
end

