-- ==== Sys2Proof/Machine/PlaceOps.lean ====
section
/-!
DEFINITION. PlaceOps.lean: the frame pool, the choice of a frame, the queues of migrations, and what a migration does with
frames (R264, R265, R274, R276, R287).
-/

namespace Sys2Proof.Machine

/-- The frame key of the i-th frame of a die's stacks. -/
def stackKey (d i : Nat) : Nat := 0x400000 + d * 0x80000 + i
/-- The frame key of the i-th frame of the capacity tier, 58,240 to a bus (R265). -/
def capKey (i : Nat) : Nat := 0x800000 + i / 58240 * 65536 + i % 58240
/-- A stack is in maintenance, or failed training: no frame of it is given out (R326, R443). -/
def State.stackOut (s : State) (n : Nat) : Bool :=
  bit (s.fget R.CFG_MEM_FAIL F.CFG_MEM_FAIL_STACKS) n || s.fbit (R.STK_STATUS n) F.STK_STATUS_MAINT_ACTIVE

/-- A frame lies in a stack that is out, or in a bus that failed training. -/
def State.frameOut (s : State) (k : Nat) : Bool :=
  if k < 0x800000 then s.stackOut ((k - 0x400000) / 65536)
  else bit (s.fget R.CFG_MEM_FAIL F.CFG_MEM_FAIL_BUSES) ((k - 0x800000) / 65536)

/-- Frames that have yet to return to the pool: those of an update that is not acknowledged, those that a switched migration left and has
not unblocked, and those being retired (R266, R277, R282). -/
def State.leaving (s : State) : List Nat :=
  (s.rmUpd.flatMap fun e => e.2.frames) ++ (s.migs.filterMap fun e => if 5 ≤ e.2.phase then e.2.src else none) ++ s.retiring

/-- Frames that are mapped, reserved, bad or not yet back, or whose stack or bus gives out none (R287, R326, R443). -/
def State.held (s : State) (k : Nat) : Bool :=
  (s.reserved.find? k).isSome || Map.get false s.bad k || s.rangeMap.any (fun e => keyOf e.2 == some k) || s.frameOut k
    || s.leaving.contains k

/-- A frame is in the pool and no migration has taken it. -/
def State.freeKey (s : State) (k : Nat) : Bool := !s.held k && !s.migs.any fun e => e.2.key == some k

/-- Frames of a pool: a die's stacks, the capacity tier, or one capacity bus. -/
inductive Pool where
  | die (d : Nat)
  | cap
  | bus (b : Nat)
deriving DecidableEq, Repr

/-- Frames in a pool. -/
def Pool.size : Pool → Nat
  | .die _ => 0x80000
  | .cap => 1863680
  | .bus _ => 58240

/-- The i-th frame of a pool. -/
def Pool.key : Pool → Nat → Nat
  | .die d, i => stackKey d i
  | .cap, i => capKey i
  | .bus b, i => capKey (58240 * b + i)

/-- A key belongs to a pool. -/
def Pool.has (p : Pool) (k : Nat) : Bool :=
  match p with
  | .die d => dieOfKey k == some d
  | .cap => decide (0x800000 ≤ k)
  | .bus b => decide (0x800000 ≤ k) && (k - 0x800000) / 65536 == b

/-- Keys that the maps list, each once. -/
def State.listedKeys (s : State) : List Nat :=
  ((s.rangeMap.filterMap fun e => keyOf e.2) ++ s.reserved.map (fun e => e.1) ++ s.bad.map (fun e => e.1) ++ s.leaving).eraseDups

/-- Frames of a pool that are held out because a stack or bus gives out none (R326, R443). -/
def State.failedFrames (s : State) : Pool → Nat
  | .die d => 65536 * ((List.range 8).filter fun i => s.stackOut (8 * d + i)).length
  | .cap => 58240 * popcount 32 (s.fget R.CFG_MEM_FAIL F.CFG_MEM_FAIL_BUSES)
  | .bus b => 58240 * b2n (bit (s.fget R.CFG_MEM_FAIL F.CFG_MEM_FAIL_BUSES) b)

/-- Frames of a pool that are neither mapped, reserved, bad nor on their way back (R287). -/
def State.poolFree (s : State) (p : Pool) : Nat :=
  p.size - s.failedFrames p - (s.listedKeys.filter fun k => p.has k && !s.frameOut k).length

/-- Frames of a pool that migrations have taken. -/
def State.poolTaken (s : State) (p : Pool) : Nat :=
  (s.migs.filter fun e => match e.2.key with | some k => p.has k | none => false).length

/-- Frames that MAP may still take from a pool: the migration reserve stays, and destinations of migrations count against
it (R277, R287). -/
def State.poolRoom (s : State) (p : Pool) : Nat :=
  s.poolFree p - max (s.fget R.PLC_RESV F.PLC_RESV_MIG_RESERVE) (s.poolTaken p)

/-- The die with more free stack frames, die 0 when both have the same number (R269, R276). -/
def State.freerDie (s : State) : Nat := if s.poolFree (.die 0) < s.poolFree (.die 1) then 1 else 0

/-- The die that AFF names, or the one with more free frames. -/
def State.affDie (s : State) (aff : Nat) : Nat := if aff = 1 then 0 else if aff = 2 then 1 else s.freerDie

/-- The first of n frames of a pool, from the i-th on and round its end, that meets a test. -/
def Pool.search (p : Pool) (f : Nat → Bool) : Nat → Nat → Option Nat
  | 0, _ => none
  | n + 1, i => if f (p.key (i % p.size)) then some (p.key (i % p.size)) else p.search f n (i + 1)

/-- A free frame of a pool; which one is open (log entry 2). -/
def State.takeFrame (s : State) (p : Pool) : Option Nat × State := (p.search s.freeKey p.size s.draw.1, s.draw.2)

/-- Zero every byte of a frame and clear its poison (R269). -/
def State.zeroFrame (s : State) (k : Nat) : State :=
  { s.chkFrame k with mem := s.mem.zeroRange (k * 2 ^ 20) (2 ^ 20), poison := s.poison.dropKeys (fun l => l / 16384 == k),
                      soft := s.soft.dropKeys (fun l => l / 16384 == k),
                      cache := s.cache.dropKeys (fun c => c / 128 / 16384 == k),
                      llc := s.llc.map fun e => (e.1, e.2.filter fun l => l / 16384 != k) }

/-! ### Queues (R274) -/

/-- The die that queues a migration of a range: the destination stack's, or the source stack's for a demotion; die 0 for a
move within the host's tiers (log entry 6). -/
def State.migDie (s : State) (r : Nat) (d : MigDest) : Nat :=
  match d.tier, d.die with
  | 0, some x => x
  | _, _ => match keyOf (s.rm r) with
    | some k => (dieOfKey k).getD 0
    | none => 0

/-- The range migrates (R277). -/
def State.migrating (s : State) (r : Nat) : Bool := s.migs.any fun e => e.2.req.range == r

/-- The die on which an entry's stack frame lies. -/
def entryDie (e : Nat) : Option Nat := (keyOf e).bind dieOfKey

/-- An entry lies where a destination asks for. -/
def MigDest.met (d : MigDest) (e : Nat) : Bool :=
  rmTier e == d.tier && (match d.tier with
    | 0 => d.die.all fun x => entryDie e == some x
    | 1 => d.bus.all fun b => bits e 16 5 == b
    | _ => bits e 0 34 == d.win * 2 ^ 22 + d.rrange)

/-- A request has nothing more to do: its range is not mapped or retired, or has left the frame that is evacuated, or lies where it should
go; or it is one of policy or prefetch for a range that has been pinned (R264, R268, R276). One whose range migrates has to wait. -/
def State.migDead (s : State) (q : MigReq) : Bool :=
  let e := s.rm q.range
  !s.migrating q.range && (!rmValid e || rmTier e == 3 || (match q.evac with | some k => keyOf e != some k | none => q.dest.met e)
    || (bit e 55 && (q.cls == 2 || decide (4 ≤ q.cls))))

/-- Queued requests with nothing more to do leave their queues. -/
def State.prune (s : State) : State := { s with migQ := s.migQ.map fun e => (e.1, e.2.filter fun q => !s.migDead q) }

/-- A request makes another of its range needless: in its own class or a higher one; but what a command names is done (R274). -/
def MigReq.absorbs (a b : MigReq) : Bool :=
  a.range == b.range && decide (a.cls ≤ b.cls) && (b.cls != 3 || (a.dest == b.dest && (b.evac.isNone || a.evac == b.evac)))

/-- Queue a migration: a range queued twice is migrated once, in the higher class (R274). -/
def State.enqueue (s : State) (q : MigReq) : State :=
  let die := s.migDie q.range q.dest
  let s1 := s.prune
  if s.migDead q || s1.migQ.any fun e => e.2.any fun x => x.absorbs q then s1
  else
    let rest := s1.migQ.map fun e => (e.1, e.2.filter fun x => !q.absorbs x)
    { s1 with migQ := Map.insert rest die (Map.get [] rest die ++ [q]) }

/-- Queue the evacuation of a frame that holds a range, in a class: to its own tier and die (R282, R284). -/
def State.evacuate (s : State) (cls r k : Nat) : State :=
  s.enqueue { cls := cls, range := r, evac := some k,
              dest := match dieOfKey k with | some d => { tier := 0, die := some d } | none => { tier := 1 } }

/-- An update of an area of the lifetime region becomes due (R447). -/
def State.lifeTouch (s : State) (area : Nat) : State :=
  { s with lifeDue := if s.lifeDue.contains area then s.lifeDue else s.lifeDue ++ [area] }.fset R.CFG_LIFE
    F.CFG_LIFE_PENDING 1

/-- Mark a frame bad for good and persist it (R282, R448); it leaves any reservation. -/
def State.markBad (s : State) (k : Nat) : State :=
  let s1 := { s with bad := Map.put false s.bad k true, reserved := s.reserved.erase k }.lifeAdd 20 1
  if s.bad.length < 131056 then s1.lifeTouch 1 else s1.fset R.CFG_LIFE F.CFG_LIFE_BAD_FULL 1

/-- A frame that is being retired is marked bad once it holds nothing and no migration uses it, with the event of R282 where it has held a
range; while it holds a range, that is evacuated in class 1; a range that has come to a frame under reservation is
evacuated in class 3 (R282, R284). -/
def State.frameGo (s : State) (k : Nat) (last : Option Nat) : State :=
  if s.migs.any (fun e => e.2.key == some k || s.migSrc e.2 == some k) || s.rmUpd.any (fun e => e.2.frames.contains k) then s
  else
    match s.rangeAt k with
    | some r =>
      if s.retiring.contains k then s.evacuate 1 r k
      else if (s.reserved.find? k).isSome then s.evacuate 3 r k
      else s
    | none =>
      if s.retiring.contains k then
        let s1 := { s with retiring := s.retiring.filter fun x => x != k }.markBad k
        match last with
        | some r => s1.event R.PLC_CTRL none [r, frameOfKey k]
        | none => s1
      else s

/-- Ranges of a descriptor in the capacity tier that are not pinned, ascending (R276). -/
def State.coldRanges (s : State) (d : Desc) : List Nat :=
  (d.ranges.filter fun r => rmValid (s.rm r) && rmTier (s.rm r) == 1 && !bit (s.rm r) 55).eraseDups

/-- A prefetch request for a descriptor (R234, R276). -/
def State.prefetch (s : State) (d : Desc) : State :=
  if !s.fbit R.PLC_CTRL F.PLC_CTRL_PF_EN then s
  else
    (s.coldRanges d).foldl
      (fun s r => s.enqueue { cls := 2, range := r, dest := { tier := 0, die := some (s.affDie (bits (s.rm r) 53 2)) } }) s

/-- Ranges of a descriptor whose prefetch has been asked for and has not completed (R276). -/
def State.lateRanges (s : State) (d : Desc) : List Nat :=
  d.ranges.eraseDups.filter fun r =>
    (s.migQ.any fun e => e.2.any fun q => q.range == r && q.cls == 2)
      || s.migs.any fun e => e.2.req.range == r && e.2.req.cls == 2

end Sys2Proof.Machine
end

