-- ==== Sys2Proof/Machine/CmdOps.lean ====
section
/-!
DEFINITION. CmdOps.lean: the command rings: when a command executes, its checks in the order of R20, and its completion record
(R394 to R398).
-/

namespace Sys2Proof.Machine

/-- Records in a ring of a partition. -/
def State.ringSize (s : State) (p : Nat) : Nat := 2 ^ (s.fget (R.SCH_CMDQ p) F.SCH_CMDQ_SIZE_LOG2 + 4)

/-- The ring of a partition has a command to execute, none executes, and the completion ring has room (R394). -/
def State.ringReady (s : State) (p : Nat) : Bool :=
  s.fget (R.SCH_CMD_PTR p) F.SCH_CMD_PTR_HEAD != s.fget (R.SCH_CMD_PTR p) F.SCH_CMD_PTR_TAIL && (s.part p).exec.isNone
    && (s.fget (R.SCH_CPL_PTR p) F.SCH_CPL_PTR_TAIL + 1) % s.ringSize p != s.fget (R.SCH_CPL_PTR p) F.SCH_CPL_PTR_HEAD

/-- Word 0 of a completion record (R398). -/
def cplWord (phase : Bool) (status op index : Nat) (rec : CmdRec) : Nat :=
  b2n phase * 2 ^ 63 + status * 2 ^ 48 + rec.tag * 2 ^ 32 + op * 2 ^ 24 + rec.ctx * 2 ^ 16 + index

/-- The counts of a refused command (R396): SCH_CMD_STAT, and PLC_STAT for a placement command. -/
def State.countRefusal (s : State) (p op status : Nat) : State :=
  let r := R.SCH_CMD_STAT p
  let s1 :=
    match status with
    | 1 => s.fadd r F.SCH_CMD_STAT_REFUSED_STATE 1
    | 2 => s.fadd r F.SCH_CMD_STAT_REFUSED_RANGE 1
    | 3 => s.fadd r F.SCH_CMD_STAT_REFUSED_FORMAT 1
    | _ => s
  s1.when (decide (0x20 ≤ op ∧ op < 0x30 ∧ 1 ≤ status ∧ status ≤ 3)) fun s => s.fadd R.PLC_STAT F.PLC_STAT_REFUSED 1

/-- The completion record of the command at the head is written at the completion tail, and the command ring moves on (R394,
R398). -/
def State.completeHeadCmd (s : State) (p op : Nat) (rec : CmdRec) (status result : Nat) : State :=
  let n := s.ringSize p
  let head := s.fget (R.SCH_CMD_PTR p) F.SCH_CMD_PTR_HEAD
  let tail := s.fget (R.SCH_CPL_PTR p) F.SCH_CPL_PTR_TAIL
  let ph := (s.part p).cplPhase
  let s1 := s.storeWords (Reach.sched p) (s.fget (R.SCH_CPLQ p) F.SCH_CPLQ_ADDR * 4096 + 32 * tail)
    [cplWord ph status op head rec, result, s.tick, 0]
  let next := (tail + 1) % n
  let s2 := s1.setPart p { s1.part p with exec := none, cplPhase := if next = 0 then !ph else ph }
  let s3 := (s2.fset (R.SCH_CPL_PTR p) F.SCH_CPL_PTR_TAIL next).fset (R.SCH_CMD_PTR p) F.SCH_CMD_PTR_HEAD ((head + 1) % n)
  s3.fadd (R.SCH_CMD_STAT p) F.SCH_CMD_STAT_EXECUTED 1

/-- The opcodes of R396, R397 and R437. -/
def knownOp (op : Nat) : Bool :=
  decide (op ≤ 7) || op == 0x10 || op == 0x11 || decide (0x20 ≤ op ∧ op ≤ 0x26) || decide (0x30 ≤ op ∧ op ≤ 0x35)

/-- The fields of word 0 of a command record (R395), with its operand words. -/
def cmdOf (w : List Nat) : CmdRec :=
  let x := w.getD 0 0
  { ctx := bits x 48 8, tag := bits x 32 16, rsvd := bits x 0 32, w1 := w.getD 1 0, w2 := w.getD 2 0, w3 := w.getD 3 0,
    w4 := w.getD 4 0, w5 := w.getD 5 0, w6 := w.getD 6 0, w7 := w.getD 7 0 }

/-- Commands at the head of a ring whose opcode R396 does not list are refused with FORMAT as they come up, at most `n` of
them. -/
def State.refuseUnknown (p : Nat) : Nat → State → State
  | 0, s => s
  | n + 1, s =>
    if !s.ringReady p then s
    else
      match s.loadWords (Reach.sched p)
          (s.fget (R.SCH_CMDQ p) F.SCH_CMDQ_ADDR * 4096 + 64 * s.fget (R.SCH_CMD_PTR p) F.SCH_CMD_PTR_HEAD) 8 with
      | (some w, _) =>
        let op := bits (w.getD 0 0) 56 8
        if knownOp op then s
        else State.refuseUnknown p n ((s.countRefusal p op 3).completeHeadCmd p op (cmdOf w) 3 0)
      | (none, _) => s

/-- Records between the head and the tail of a command ring. -/
def State.ringLoad (s : State) (p : Nat) : Nat :=
  let n := s.ringSize p
  (s.fget (R.SCH_CMD_PTR p) F.SCH_CMD_PTR_TAIL + n - s.fget (R.SCH_CMD_PTR p) F.SCH_CMD_PTR_HEAD) % n

/-- A command completes (R394, R398), and commands behind it that have no opcode of R396 are refused. -/
def State.complete (s : State) (p op : Nat) (rec : CmdRec) (status result : Nat) : State :=
  let s1 := s.completeHeadCmd p op rec status result
  State.refuseUnknown p (s1.ringLoad p) s1

/-- The outcome of the checks of a command: each is true where the command passes it. -/
structure Chk where
  fmt : Bool := true
  range : Bool := true
  state : Bool := true
deriving DecidableEq, Repr

/-- The status that the checks give, in the order of R20. -/
def Chk.status (c : Chk) : Nat := if !c.fmt then 3 else if !c.range then 2 else if !c.state then 1 else 0

/-- The operand words that a command may set, as bit masks for words 1 to 7 (R395). -/
def wordsOk (r : CmdRec) (masks : List Nat) : Bool :=
  r.rsvd == 0
    && (List.range 7).all fun i => ([r.w1, r.w2, r.w3, r.w4, r.w5, r.w6, r.w7].getD i 0) &&& (masks.getD i 0) ==
        [r.w1, r.w2, r.w3, r.w4, r.w5, r.w6, r.w7].getD i 0

/-- Bits lo to hi of a mask. -/
def mask (lo hi : Nat) : Nat := (2 ^ (hi + 1 - lo) - 1) * 2 ^ lo

/-- The package is out of service (R418). -/
def State.oos (s : State) : Bool := s.fbit R.FLT_STATUS F.FLT_STATUS_OOS

/-- Execute the command at the head of a ring: refused by its checks, or carried out by `f` (R20, R394, R396, R418). Out of
service every command other than NOP is refused with STATE. -/
def State.command (s : State) (p op : Nat) (rec : CmdRec) (c : Chk) (f : State → State) : State :=
  if !s.ringReady p then s
  else
    let st := Chk.status { c with state := c.state && !s.oos }
    if st = 0 then f s else (s.countRefusal p op st).complete p op rec st 0

/-- A command whose effect ends at once completes with OK. -/
def State.commandOk (s : State) (p op : Nat) (rec : CmdRec) (c : Chk) (f : State → State × Nat) : State :=
  s.command p op rec c fun s => (f s).1.complete p op rec 0 (f s).2

/-- A command runs on after its checks, until COMMAND_COMPLETION (R394). -/
def State.startExec (s : State) (p op : Nat) (rec : CmdRec) (result : Nat) : State :=
  s.setPart p { s.part p with exec := some { op := op, cmd := rec, result := result } }

/-- The context that a command names is known on its partition; a context of another partition gives RANGE, an unknown one
STATE (R396). -/
def State.ctxChk (s : State) (p : Nat) (rec : CmdRec) : Chk :=
  match s.ctxs.find? rec.ctx with
  | some c => { range := c.part == p }
  | none => { state := false }

end Sys2Proof.Machine
end

