-- ==== Sys2Proof/Machine/Placement.lean ====
section
/-!
DEFINITION. Placement.lean: the placement commands, the automatic policy, the migration engines and the regulators
(spec/10_placement.md).
-/

namespace Sys2Proof.Machine

/-! ### Operands of placement commands (R397) -/

/-- FIRST. -/
def recFirst (r : CmdRec) : Nat := bits r.w1 0 22
/-- COUNT. -/
def recCount (r : CmdRec) : Nat := bits r.w1 32 16 + 1
/-- PART. -/
def recPart (r : CmdRec) : Nat := bits r.w2 0 3
/-- HINT. -/
def recHint (r : CmdRec) : Nat := bits r.w2 3 2
/-- AFF. -/
def recAff (r : CmdRec) : Nat := bits r.w2 5 2
/-- PIN. -/
def recPin (r : CmdRec) : Bool := bit r.w2 7
/-- TIER. -/
def recTier (r : CmdRec) : Nat := bits r.w2 8 2
/-- SETPIN. -/
def recSetpin (r : CmdRec) : Bool := bit r.w2 16
/-- The ranges of the span. -/
def recSpan (r : CmdRec) : List Nat := (List.range (recCount r)).map fun i => (recFirst r) + i
/-- The span stays within the unified region. -/
def recSpanOk (r : CmdRec) : Bool := decide ((recFirst r) + (recCount r) ≤ 2 ^ 22)
/-- The mask of word 1 for a span. -/
def spanMask : Nat := mask 0 21 ||| mask 32 47

/-- Every range of the span is free of another partition's ownership (R269). -/
def State.spanOwned (s : State) (p : Nat) (r : CmdRec) : Bool :=
  (recSpan r).all fun n => !rmValid (s.rm n) || rmPart (s.rm n) == p

/-- Every range of the span is mapped. -/
def State.spanValid (s : State) (r : CmdRec) : Bool := (recSpan r).all fun n => rmValid (s.rm n)
/-- No range of the span is mapped. -/
def State.spanFree (s : State) (r : CmdRec) : Bool := (recSpan r).all fun n => !rmValid (s.rm n)
/-- No range of the span is retired. -/
def State.spanLive (s : State) (r : CmdRec) : Bool := (recSpan r).all fun n => rmTier (s.rm n) != 3

/-- Ranges mapped by a partition (R287). -/
def State.usedRanges (s : State) (p : Nat) : Nat := (s.rangeMap.filter fun e => rmValid e.2 && rmPart e.2 == p).length

/-- The quota of a partition admits n more ranges (R287). -/
def State.quotaOk (s : State) (p n : Nat) : Bool :=
  let q := s.fget (R.PLC_PART_QUOTA p) F.PLC_PART_QUOTA_FRAMES
  q == 0 || decide (s.usedRanges p + n ≤ q)

/-- A Range Map entry of a freshly mapped range (R264, R269). -/
def newEntry (tier frame part : Nat) (pin : Bool) (aff hint : Nat) : Nat :=
  2 ^ 63 + tier * 2 ^ 61 + part * 2 ^ 56 + b2n pin * 2 ^ 55 + aff * 2 ^ 53 + hint * 2 ^ 51 + frame

/-! ### Updates of the Range Map (R266) -/

/-- Caches that hold a range: bit 0 die 0, bit 1 die 1 (R266). -/
def State.rmcHolders (s : State) (r : Nat) : Nat :=
  b2n ((Map.get [] s.rmc 0).contains r) + 2 * b2n ((Map.get [] s.rmc 1).contains r)

/-- The store takes a new entry for a range, which is complete once every cache that holds the range has acknowledged it; `frames` return
to the pool with it. -/
def State.update (s : State) (r e : Nat) (frames : List Nat) : State :=
  let u : RmUpd := (s.rmUpd.find? r).getD { acks := 0, old := s.rm r }
  let s1 := s.setRm r e
  if s.rmcHolders r = 0 && (s.rmUpd.find? r).isNone then frames.foldl (fun s k => s.frameGo k (some r)) s1
  else { s1 with rmUpd := s1.rmUpd.insert r { u with acks := u.acks ||| s.rmcHolders r, frames := u.frames ++ frames } }

/-- No update of a range of the span awaits an acknowledgement. -/
def State.spanAcked (s : State) (r : CmdRec) : Bool := (recSpan r).all fun n => (s.rmUpd.find? n).isNone

/-- A command on the Range Map completes with OK, at once where no cache holds what it changes, and otherwise once every cache has
acknowledged it (R266). -/
def State.commandMap (s : State) (p op : Nat) (rec : CmdRec) (c : Chk) (f : State → State) : State :=
  s.command p op rec c fun s => if (f s).spanAcked rec then (f s).complete p op rec 0 0 else (f s).startExec p op rec 0

/-! ### MAP -/

/-- The pool from which MAP takes the frame of one range; none where it has no room (R269). A pinned span goes to one die, `die`. -/
def State.mapPool (s : State) (r : CmdRec) (die : Nat) : Option Pool :=
  let room (p : Pool) : Option Pool := if 0 < s.poolRoom p then some p else none
  if (recPin r) then (if (recTier r) = 0 then room (.die die) else room .cap)
  else if (recHint r) = 2 ∨ (recHint r) = 3 then room .cap
  else (room (.die (s.affDie (recAff r)))).or (room .cap)

/-- Map one range to a zeroed frame; none where no frame serves. -/
def State.mapOne (s : State) (r : CmdRec) (die n : Nat) : Option State :=
  match s.mapPool r die with
  | none => none
  | some p =>
    match s.takeFrame p with
    | (some k, s1) =>
      some ((s1.zeroFrame k).update n (newEntry (tierOfKey k) (frameOfKey k) (recPart r) (recPin r) (recAff r) (recHint r)) [])
    | (none, _) => none

/-- Map every range of a list, or none of them. -/
def State.mapAll (r : CmdRec) (die : Nat) : List Nat → State → Option State
  | [], s => some s
  | n :: l, s =>
    match s.mapOne r die n with
    | some s1 => State.mapAll r die l s1
    | none => none

/-- Map every range of the span, or none of them. -/
def State.mapSpan (s : State) (r : CmdRec) : Option State := State.mapAll r (s.affDie (recAff r)) (recSpan r) s

/-- The checks of MAP (R269). -/
def State.mapChk (s : State) (r : CmdRec) : Chk where
  fmt := wordsOk r [spanMask, mask 0 9] && r.ctx == 0 && (recAff r) != 3 && (!(recPin r) || decide ((recTier r) < 2))
  range := (recSpanOk r)
  state := s.spanFree r && s.quotaOk (recPart r) (recCount r) && (s.mapSpan r).isSome

/-- MAP (R269): it runs on until every byte of its frames is written. -/
def execMap (p : Nat) (rec : CmdRec) (s : State) : Host.Outcome State Fault Refusal :=
  s.runIf (instrWf (.map p rec)) (s.command p 0x20 rec (s.mapChk rec) fun s =>
    ((s.mapSpan rec).getD s).startExec p 0x20 rec 0)

/-! ### UNMAP, SETATTR, MOVE -/

/-- The key and the migration of a range. -/
def State.migOf (s : State) (r : Nat) : Option (Nat × Mig) := List.find? (fun e : Nat × Mig => e.2.req.range == r) s.migs

/-- A request is answered with REDO, and counted. -/
def State.postRedo (s : State) (line : Nat) (w : Txn) : State :=
  (s.post { op := .redo, ag := w.ag, line := line, txn := w.txn, part := w.part }).fadd (R.COH_STAT (sliceOf line)) F.COH_STAT_RETRIES 1

/-- Every request that waits at a line of a source frame, or on the way to its home, is answered with REDO, and so is a MERGE that waits for
a map byte there (R277, R308). -/
def State.redoFrame (s : State) (k : Nat) : State :=
  let here (e : Nat × Busy) : Bool := e.1 / 16384 == k && e.2.cur.isNone
  let maps (e : Nat × Busy) : Bool := e.2.parked && e.2.cur.any fun t => t.mapsOther e.1 && t.mapLine / 16384 == k
  let waits := ((s.busy.filter here).flatMap fun e => e.2.waiters.map fun w => (e.1, w))
    ++ s.reqQ.flatMap fun (e : Nat × List (Nat × Txn)) => e.2.filter fun q => q.1 / 16384 == k
  let s1 := { s with busy := s.busy.filter fun b => !here b,
                     reqQ := s.reqQ.map fun (e : Nat × List (Nat × Txn)) => (e.1, e.2.filter fun q => q.1 / 16384 != k) }
  let s2 := waits.foldl (fun s q => s.postRedo q.1 q.2) s1
  (s2.busy.filter maps).foldl
    (fun s (e : Nat × Busy) => match e.2.cur with | some t => (s.postRedo e.1 t).endTxn e.1 | none => s) s2

/-- Drop every queued migration of a range. -/
def State.dropQueued (s : State) (r : Nat) : State :=
  { s with migQ := s.migQ.map fun e => (e.1, e.2.filter fun x => x.range != r) }

/-- Unmap one range: its migration is abandoned and its frames return to the pool (R270). -/
def State.unmapOne (s : State) (n : Nat) : State :=
  let ms := (s.migs.filter fun e => e.2.req.range == n).map fun e => e.2
  let frames := (keyOf (s.rm n)).toList ++ ms.filterMap Mig.key ++ ms.filterMap (fun m => if 5 ≤ m.phase then m.src else none)
  let off (ag : Nat) : Bool := s.migs.any fun e => e.2.req.range == n && ag == 320 + e.1
  { (s.dropQueued n) with migs := s.migs.filter (fun e => e.2.req.range != n), quiet := s.quiet.erase n,
                          rreqs := s.rreqs.filter (fun e => !off e.2.ag),
                          rwait := s.rwait.filter fun e => !off e.2.ag }.sendReqs.update n 0 frames.eraseDups

/-- UNMAP (R270). -/
def execUnmap (p : Nat) (rec : CmdRec) (s : State) : Host.Outcome State Fault Refusal :=
  s.runIf (instrWf (.unmap p rec)) (s.commandMap p 0x21 rec
    { fmt := wordsOk rec [spanMask] && rec.ctx == 0, range := (recSpanOk rec) && s.spanOwned p rec, state := s.spanValid rec }
    fun s => (recSpan rec).foldl State.unmapOne s)

/-- The tier and die of a migration's destination, or of a range that does not migrate. -/
def State.placeOf (s : State) (r : Nat) : Nat × Option Nat :=
  match s.migOf r with
  | some (_, m) => (m.tier, m.key.bind dieOfKey)
  | none => (rmTier (s.rm r), entryDie (s.rm r))

/-- SETATTR on one range (R268, R270): a pin to another tier or die than where it lies, or migrates to, queues a migration. -/
def State.setattrOne (r : CmdRec) (s : State) (n : Nat) : State :=
  let e := setBits (setBits (s.rm n) 51 2 (recHint r)) 53 2 (recAff r)
  let e1 := if (recSetpin r) then setBits e 55 1 (b2n (recPin r)) else e
  let s1 := s.update n e1 []
  let die : Option Nat := if (recAff r) = 0 then none else some ((recAff r) - 1)
  let at0 := s.placeOf n
  let meets : Bool := at0.1 == (recTier r) && ((recTier r) != 0 || die == none || at0.2 == die)
  if (recSetpin r) && (recPin r) && !meets then
    s1.enqueue { cls := 3, range := n,
                 dest := if (recTier r) = 0 then { tier := 0, die := some (s.affDie (recAff r)) } else { tier := 1 } }
  else s1

/-- SETATTR (R268). -/
def execSetattr (p : Nat) (rec : CmdRec) (s : State) : Host.Outcome State Fault Refusal :=
  s.runIf (instrWf (.setattr p rec)) (s.commandMap p 0x22 rec
    { fmt := wordsOk rec [spanMask, mask 3 9 ||| mask 16 16] && rec.ctx == 0 && (recAff rec) != 3
        && !((recSetpin rec) && (recPin rec) && decide (2 ≤ (recTier rec))),
      range := (recSpanOk rec) && s.spanOwned p rec, state := s.spanValid rec && s.spanLive rec }
    fun s => (recSpan rec).foldl (State.setattrOne rec) s)

/-- The operand words of MOVE by its TIER (R395, R397). -/
def moveMasks (tier : Nat) : List Nat :=
  match tier with
  | 0 => [spanMask, mask 8 10]
  | 1 => [spanMask, mask 8 14]
  | _ => [spanMask, mask 8 9, mask 0 11, mask 0 21]

/-- The destination of the i-th range of a MOVE. -/
def moveDest (r : CmdRec) (i : Nat) : MigDest :=
  match (recTier r) with
  | 0 => { tier := 0, die := some (bits r.w2 10 1) }
  | 1 => { tier := 1, bus := some (bits r.w2 10 5) }
  | _ => { tier := 2, win := bits r.w3 0 12, rrange := bits r.w4 0 22 + i }

/-- The remote span of a MOVE to the peer tier or of a PEER stays within the remote region. -/
def recRemoteOk (r : CmdRec) : Bool := decide (bits r.w4 0 22 + (recCount r) ≤ 2 ^ 22)

/-- The migrations of a MOVE are queued. -/
def State.moveStart (s : State) (r : CmdRec) : State :=
  (List.range (recCount r)).foldl (fun s i => s.enqueue { cls := 3, range := recFirst r + i, dest := moveDest r i }) s

/-- MOVE (R268, R269): it runs on until its ranges have moved; to the peer tier it begins once the remote side agrees (R285). -/
def execMove (p : Nat) (rec : CmdRec) (s : State) : Host.Outcome State Fault Refusal :=
  s.runIf (instrWf (.move p rec)) (s.command p 0x23 rec
    { fmt := wordsOk rec (moveMasks (recTier rec)) && rec.ctx == 0 && (recTier rec) != 3,
      range := (recSpanOk rec) && s.spanOwned p rec && ((recTier rec) != 2 || (recRemoteOk rec)),
      state := s.spanValid rec && s.spanLive rec }
    fun s => (if recTier rec = 2 then s else s.moveStart rec).startExec p 0x23 rec 0)

/-! ### RESERVE, RELEASE, PEER -/

/-- The frames that RESERVE and RELEASE name. -/
def recFrames (r : CmdRec) : List Nat :=
  (List.range (bits r.w3 32 21 + 1)).map fun i => frameKey (recTier r) (bits r.w3 0 21 + i)

/-- The frames lie within those of R265. -/
def recFramesOk (r : CmdRec) : Bool :=
  let lo := bits r.w3 0 21
  let n := bits r.w3 32 21 + 1
  if (recTier r) = 0 then decide (lo + n ≤ 2 ^ 20)
  else decide (lo + n ≤ 2 ^ 21) && (List.range n).all fun i => decide ((lo + i) % 65536 < 58240)

/-- Evacuation of the named frames leaves each pool its reserve (R284). -/
def State.reserveRoom (s : State) (ks : List Nat) : Bool :=
  let ok (p : Pool) : Bool :=
    let named := (ks.filter fun k => p.has k).length
    named == 0 || decide (s.fget R.PLC_RESV F.PLC_RESV_MIG_RESERVE + named ≤ s.poolFree p)
  ok (.die 0) && ok (.die 1) && ok .cap

/-- Take one frame out of the pool for a reservation; a frame that holds a range is evacuated first (R284). A frame reads
8 + PART in the reservation until RESERVE completes. -/
def State.reserveOne (part : Nat) (s : State) (k : Nat) : State :=
  let s1 := { s with reserved := s.reserved.insert k (8 + part) }
  s1.frameGo k none

/-- RESERVE (R284): it runs on until every named frame is free. -/
def execReserve (p : Nat) (rec : CmdRec) (s : State) : Host.Outcome State Fault Refusal :=
  s.runIf (instrWf (.reserve p rec)) (s.command p 0x24 rec
    { fmt := wordsOk rec [0, mask 0 2 ||| mask 8 9, mask 0 20 ||| mask 32 52] && rec.ctx == 0 && decide ((recTier rec) < 2),
      range := (recFramesOk rec),
      state := (recFrames rec).all (fun k => (s.reserved.find? k).isNone && !Map.get false s.bad k) && s.reserveRoom (recFrames rec) }
    fun s => ((recFrames rec).foldl (State.reserveOne (recPart rec)) s).startExec p 0x24 rec 0)

/-- An access through the direct window of a frame is in flight. -/
def State.windowBusy (s : State) (k : Nat) : Bool :=
  (s.busy.any fun e => e.1 / 16384 == k) || (s.msgs.any fun m => m.line / 16384 == k)
    || (s.wback.any fun e => e.1 / 128 / 16384 == k) || s.reqQ.any fun e => e.2.any fun q => q.1 / 16384 == k

/-- RELEASE (R284). -/
def execRelease (p : Nat) (rec : CmdRec) (s : State) : Host.Outcome State Fault Refusal :=
  s.runIf (instrWf (.release p rec)) (s.commandOk p 0x25 rec
    { fmt := wordsOk rec [0, mask 8 9, mask 0 20 ||| mask 32 52] && rec.ctx == 0 && decide ((recTier rec) < 2),
      range := (recFramesOk rec),
      state := (recFrames rec).all fun k =>
        (match s.reserved.find? k with | some o => decide (o < 8) | none => false) && !s.windowBusy k }
    fun s => ((recFrames rec).foldl (fun s k => { s with reserved := s.reserved.erase k }) s, 0))

/-- PEER (R285): it runs on while the remote side answers. -/
def execPeer (p : Nat) (rec : CmdRec) (s : State) : Host.Outcome State Fault Refusal :=
  s.runIf (instrWf (.peer p rec)) (s.command p 0x26 rec
    { fmt := wordsOk rec [spanMask, mask 0 2, mask 0 11, mask 0 21] && rec.ctx == 0,
      range := (recSpanOk rec) && (recRemoteOk rec), state := s.spanFree rec && s.quotaOk (recPart rec) (recCount rec) }
    fun s => s.startExec p 0x26 rec 0)

/-- PEER maps its ranges once the remote side has agreed (R285). -/
def State.peerDone (s : State) (rec : CmdRec) : State :=
  (List.range (recCount rec)).foldl
    (fun s i => s.update ((recFirst rec) + i)
      (newEntry 2 (bits rec.w3 0 12 * 2 ^ 22 + (bits rec.w4 0 22 + i)) (recPart rec) true 0 0) []) s

/-- The span of a PEER is still free and within the quota (R269). -/
def State.peerOk (s : State) (rec : CmdRec) : Bool := s.spanFree rec && s.quotaOk (recPart rec) (recCount rec)

/-- What the command of a partition has asked of another package has been agreed to. -/
def State.agree (s : State) (p : Nat) (e : Exec) : State := s.setPart p { s.part p with exec := some { e with agreed := true } }

/-- RESERVE completes: the frames are reachable through their direct window (R284). -/
def State.reserveDone (s : State) (rec : CmdRec) : State :=
  (recFrames rec).foldl (fun s k => if (s.reserved.find? k).isSome then { s with reserved := s.reserved.insert k (recPart rec) } else s) s

/-- Every named frame of a RESERVE is free: it holds no range, and no migration or update still uses it. -/
def State.reserveReady (s : State) (rec : CmdRec) : Bool :=
  (recFrames rec).all fun k => (s.rangeAt k).isNone && !(s.migs.any fun e => e.2.key == some k || s.migSrc e.2 == some k)
    && !s.rmUpd.any fun e => e.2.frames.contains k

/-- No range of a MOVE migrates or has yet to, be it as a request of another class with the same destination (R274). -/
def State.moveReady (s : State) (rec : CmdRec) : Bool :=
  (List.range (recCount rec)).all fun i =>
    !s.migrating (recFirst rec + i)
      && !s.migQ.any fun e => e.2.any fun q =>
          q.range == recFirst rec + i && (q.cls == 3 || q.dest == moveDest rec i) && !s.migDead q

/-! ### Automatic policy (R271 to R274) -/

/-- One range at an epoch: HEAT halves, LEAN moves a step toward 0, and AFF follows LEAN on an unpinned range (R271). -/
def epochEntry (e : Nat) : Nat :=
  if !rmValid e then e
  else
    let lean := toInt 3 (bits e 40 3)
    let lean1 := if lean < 0 then lean + 1 else if 0 < lean then lean - 1 else 0
    let e1 := setBits (setBits e 43 8 (bits e 43 8 / 2)) 40 3 (ofInt 3 lean1)
    if bit e 55 ∨ lean1 = lean then e1 else setBits e1 53 2 (affOf lean1 (bits e 53 2))

/-- Put a range into a list kept in order of a measure, highest first; equal measures keep their order. -/
def insertBy (f : Nat → Nat) (r : Nat) : List Nat → List Nat
  | [] => [r]
  | x :: l => if f x < f r then r :: x :: l else x :: insertBy f r l

/-- A list in order of a measure, highest first. -/
def sortBy (f : Nat → Nat) (l : List Nat) : List Nat := l.foldl (fun a r => insertBy f r a) []

/-- HEAT. -/
def rmHeat (e : Nat) : Nat := bits e 43 8
/-- HINT. -/
def rmHint (e : Nat) : Nat := bits e 51 2
/-- A stable, unpinned, mapped range. -/
def rmFreeToMove (e : Nat) : Bool := rmValid e && !bit e 55 && rmState e == 0

/-- Promotion candidates of a die (R273). -/
def State.promotions (s : State) (d : Nat) : List Nat :=
  let hot := s.fget R.PLC_POLICY F.PLC_POLICY_HOT_THRESH
  let c := s.rangeMap.filter fun e =>
    rmFreeToMove e.2 && rmTier e.2 == 1 && (bits e.2 53 2 == d + 1 || (bits e.2 53 2 == 0 && s.freerDie == d))
      && (decide (hot ≤ rmHeat e.2) || rmHint e.2 == 1)
  (sortBy (fun r => rmHeat (s.rm r)) (c.map fun e => e.1)).take 256

/-- Demotion candidates of a die (R273). -/
def State.demotions (s : State) (d : Nat) : List Nat :=
  let cold := s.fget R.PLC_POLICY F.PLC_POLICY_COLD_THRESH
  let c := s.rangeMap.filter fun e =>
    rmFreeToMove e.2 && entryDie e.2 == some d && (decide (rmHeat e.2 ≤ cold) || rmHint e.2 == 2)
  (sortBy (fun r => (if rmHint (s.rm r) = 2 then 256 else 0) + (255 - rmHeat (s.rm r))) (c.map fun e => e.1)).take 256

/-- Demotions that a die still has under way to restore LOW_WATER. -/
def State.demoting (s : State) (d : Nat) : Nat :=
  ((Map.get [] s.migQ d).filter fun q => q.cls == 5).length
    + (s.migs.filter fun e => e.1 / 8 == d && e.2.req.cls == 5 && decide (e.2.phase < 5)).length

/-- While fewer than LOW_WATER frames of a die's stacks are free, demotion candidates of the epoch are queued (R274). -/
def State.replenish (s : State) (d : Nat) : State :=
  let need := s.fget R.PLC_POLICY F.PLC_POLICY_LOW_WATER - s.poolFree (.die d) - s.demoting d
  if !s.fbit R.PLC_CTRL F.PLC_CTRL_AUTO_EN || need = 0 then s
  else
    let l := (Map.get [] s.demo d).filter fun r => rmFreeToMove (s.rm r) && entryDie (s.rm r) == some d
    (l.take need).foldl (fun s r => s.enqueue { cls := 5, range := r, dest := { tier := 1 } })
      { s with demo := Map.put [] s.demo d (l.drop need) }

/-- The epoch's work for one die: its candidates are kept, its promotions are queued, at most PROMOTE_MAX with those still queued, and
demotions as far as they are needed (R273, R274). -/
def State.epochDie (s : State) (d : Nat) : State :=
  let s1 := { s with promo := Map.put [] s.promo d (s.promotions d), demo := Map.put [] s.demo d (s.demotions d) }
  let left := ((Map.get [] s.migQ d).filter fun q => q.cls == 6).length
  (((Map.get [] s1.promo d).take (s.fget R.PLC_POLICY F.PLC_POLICY_PROMOTE_MAX - left)).foldl
    (fun s r => s.enqueue { cls := 6, range := r, dest := { tier := 0, die := some d } }) s1).replenish d

/-- PLACEMENT_EPOCH (R271, R273): at every EPOCH_TICKS-th boundary, after the actions of R55, once. -/
def execPlacementEpoch (s : State) : Host.Outcome State Fault Refusal :=
  .next (
    if s.clk.phase < 9 && s.tick % s.fget R.PLC_POLICY F.PLC_POLICY_EPOCH_TICKS == 0 && s.epochTick != some s.tick
        && s.fbit R.PLC_CTRL F.PLC_CTRL_AUTO_EN then
      (({ s with rangeMap := s.rangeMap.map (fun (e : Nat × Nat) => (e.1, epochEntry e.2)),
                 epochTick := some s.tick }.epochDie 0).epochDie 1)
    else s)

/-- SAVED_ACT_DEMOTE (R272). -/
def execSavedActDemote (r : Nat) (s : State) : Host.Outcome State Fault Refusal :=
  let e := s.rm r
  let rested : Bool :=
    match s.quiet.find? r with
    | some n => decide (s.fget R.PLC_POLICY F.PLC_POLICY_DEMOTE_TICKS ≤ n)
    | none => true
  s.runIf (instrWf (.savedActDemote r)) (
    if s.fbit R.PLC_CTRL F.PLC_CTRL_AUTO_EN && rmFreeToMove e && rmTier e == 0 && rmHint e == 3 && rested then
      s.enqueue { cls := 4, range := r, dest := { tier := 1 } }
    else s)

/-! ### Migration (R277 to R283) -/

/-- The key of engine e of die d. -/
def migKey (d e : Nat) : Nat := 8 * d + e

/-- The pool of a destination. -/
def MigDest.pool (d : MigDest) : Pool :=
  match d.tier, d.die, d.bus with
  | 0, some x, _ => .die x
  | 1, _, some b => .bus b
  | _, _, _ => .cap

/-- A pool lies on a die whose homes are fenced. -/
def State.poolFenced (s : State) : Pool → Bool
  | .die d => s.fenced 4 d
  | _ => false

/-- A free frame for a migration: a promotion leaves the reserve alone (R274), every other migration may use it (R287). An
evacuation of a stack frame falls back to the capacity tier when its stack tier has no free frame (R282). -/
def State.migFrame (s : State) (q : MigReq) : Option Nat × State :=
  if (q.cls = 6 && s.poolRoom q.dest.pool == 0) || s.poolFenced q.dest.pool then (none, s)
  else
    match s.takeFrame q.dest.pool with
    | (some k, s1) => (some k, s1)
    | (none, s1) => if q.evac.isSome && q.dest.tier == 0 then s1.takeFrame .cap else (none, s1)

/-- A pool has a frame that no migration has taken. -/
def State.poolHas (s : State) (p : Pool) : Bool := decide (s.poolTaken p < s.poolFree p)

/-- A frame is free for a request: one that has none lets those behind it go on (R274). -/
def State.migRoom (s : State) (q : MigReq) : Bool :=
  q.dest.tier == 2
    || (!(q.cls == 6 && s.poolRoom q.dest.pool == 0) && !s.poolFenced q.dest.pool
      && (s.poolHas q.dest.pool || (q.evac.isSome && q.dest.tier == 0 && s.poolHas .cap)))

/-- A request can start: it has something to do and a frame to go to, its range does not migrate, no update of its entry awaits an
acknowledgement (R266), and the homes of its source are not fenced. -/
def State.migCan (s : State) (q : MigReq) : Bool :=
  !s.migDead q && s.migRoom q && !s.migrating q.range && (s.rmUpd.find? q.range).isNone && !(keyOf (s.rm q.range)).any s.homeFenced

/-- The first request of a queue by class that can start (R274). -/
def State.migPick (s : State) (l : List MigReq) : Option MigReq :=
  (List.range 7).findSome? fun c => l.find? fun q => q.cls == c && s.migCan q

/-! ### Copies (R277, R281, R283, R285) -/

/-- The die and the agent id of an engine. -/
def engineReach (key part : Nat) : Reach := 
  { part := some part, direct := false, remote := true, die := key / 8, ag := 320 + key }

/-- A line is written as poisoned at its home (R309, R316). -/
def State.poisonAt (s : State) (line v : Nat) : State :=
  { (s.llcDrop line).putLine line v with poison := Map.put false s.poison line true }.chanWrote line

/-- An engine copies one line from frame to frame: the source home reads it as it orders it, and the destination home writes it. A line
that cannot be read is poisoned (R277, R283, R301, R423). -/
def State.copyLine (s : State) (d src dst i : Nat) : State :=
  let a := src * 16384 + i
  let b := dst * 16384 + i
  let z := State.peekLine unitEvent (s.cross d (homeDie src) a 16 80).2 a
  let s3 := (z.2.cross d (homeDie dst) b 80 16).2.fadd (R.COH_STAT (sliceOf b)) F.COH_STAT_REQS 1
  match z.1 with
  | some v => s3.homeFull b v
  | none => s3.poisonAt b 0

/-- The window and offset of line i of a peer range's FRAME (R265). -/
def peerWin (frame i : Nat) : Nat × Nat := (bits frame 22 12, bits frame 0 22 * 2 ^ 20 + 64 * i)

/-- An engine's line goes over the fabric (R285): to a peer destination as a write, from a peer source as a read, whose answer writes the
line; none where the window or the route fails. -/
def State.peerLine (s : State) (key : Nat) (m : Mig) (i : Nat) : Option State :=
  let e := s.rm m.req.range
  let send (frame : Nat) (wr : Option (Nat × Nat)) (s : State) : Option State :=
    let w := peerWin frame i
    if s.winOk (key / 8) w.1 wr.isSome (some (rmPart e)) then
      match s.remote (engineReach key (rmPart e)) (key / 8) w.1 w.2 wr with
      | (true, s1) => some s1
      | (false, _) => none
    else none
  match s.migSrc m with
  | none => send (rmFrame e) none s
  | some k =>
    let a := k * 16384 + i
    match State.peekLine unitEvent (s.cross (key / 8) (homeDie k) a 16 80).2 a with
    | (none, s1) => some { s1 with migs := s1.migs.insert key { (Map.find? s1.migs key).getD m with lost := true } }
    | (some v, s1) => send m.frame (some (v, 2 ^ 64 - 1)) s1

/-- An engine has a request outstanding on the fabric. -/
def State.engineWaits (s : State) (key : Nat) : Bool := s.rreqs.any (fun e => e.2.ag == 320 + key) || s.rwait.any fun e => e.2.ag == 320 + key

/-- A migration is abandoned: the range stays stable in its source frame and the destination returns to the pool (R278). -/
def State.migAbandon (s : State) (key : Nat) (m : Mig) : State :=
  let s1 := { s with migs := s.migs.erase key, rreqs := s.rreqs.filter (fun e => e.2.ag != 320 + key),
                     rwait := s.rwait.filter fun e => e.2.ag != 320 + key }.sendReqs.update m.req.range
    (setBits (s.rm m.req.range) 59 2 0) []
  let s2 := s1.fadd (R.PLC_MIG_STAT (key / 8)) F.PLC_MIG_STAT_ABANDONED 1
  match m.key with
  | some k => s2.frameGo k (some m.req.range)
  | none => s2

/-- A migration that its delta or a fence has ended is queued again at once in classes 1 to 4, and otherwise left to the next epoch
(R278). -/
def State.migAgain (s : State) (key : Nat) (m : Mig) : State :=
  (s.migAbandon key m).when (decide (m.req.cls ≤ 4)) fun s => s.enqueue m.req

/-- The MOVE of a range ends with a status: what it has still queued is dropped (log entry 105). -/
def State.moveFails (s : State) (r status : Nat) : State :=
  match firstUpTo 8 fun p => (s.part p).exec.any fun e => e.op == 0x23 && (recSpan e.cmd).contains r with
  | some p =>
    match (s.part p).exec with
    | some e =>
      { s with migQ := s.migQ.map fun (x : Nat × List MigReq) => (x.1, x.2.filter fun q => !(q.cls == 3 && (recSpan e.cmd).contains q.range)) }.complete
        p 0x23 e.cmd status 0
    | none => s
  | none => s

/-- A migration ends because an access of its engine failed, and with it the MOVE that asked for it (R36, R71). -/
def State.migFail (s : State) (key : Nat) (m : Mig) (status : Nat) : State := (s.migAbandon key m).moveFails m.req.range status

/-- Lines that have yet to go over the fabric go as far as there are transaction numbers; at most n of them. -/
def State.peerGo (key : Nat) : Nat → State → State
  | 0, s => s
  | n + 1, s =>
    match s.migs.find? key with
    | some m =>
      match m.todo, s.freeTag with
      | i :: l, some _ =>
        let s1 := { s with migs := s.migs.insert key { m with todo := l } }
        match s1.peerLine key { m with todo := l } i with
        | some s2 => State.peerGo key n s2
        | none => s1.decodeErr.migFail key m 2
      | _, _ => s
    | none => s

/-- Tokens for n lines of a copy (R281, R290): of the source's tier and the destination's. -/
def State.chargeCopy (s : State) (m : Mig) (n : Nat) (final : Bool) : State :=
  let p := rmPart (s.rm m.req.range)
  let one (t : Nat) (s : State) : State := if final then s.chargeFinal p t n else s.chargeNow p t 1 n
  let src (s : State) : State := match s.migSrc m with | some k => one (tierOfKey k) s | none => s
  if m.tier < 2 then one m.tier (src s) else src s

/-- Lines of a range that a test names. -/
def linesThat (f : Nat → Bool) : List Nat := (List.range 16384).filter f

/-- The lines of a range that a test names are copied (R277): within the package frame to frame, and otherwise over the fabric. -/
def State.copyLines (s : State) (key : Nat) (m : Mig) (f : Nat → Bool) (final : Bool) : State :=
  let s1 := s.chargeCopy m (linesThat f).length final
  let m1 := { m with marks := if final then [] else s1.regMarks (some (rmPart (s.rm m.req.range))),
                     todo := if m.key.isSome && (s.migSrc m).isSome then [] else linesThat f }
  let s2 := { s1 with migs := s1.migs.insert key m1 }
  match s.migSrc m, m.key with
  | some a, some b => forRange 16384 (fun i s => if f i then s.copyLine (key / 8) a b i else s) s2
  | _, _ => State.peerGo key 16384 s2

/-- The channels of a frame wait for a refresh slot to end (R62, R279). -/
def State.frameWaits (s : State) (k : Nat) : Bool := s.slotWait (unitOf (k * 16384)).1

/-- A copy has ended: the regulators hold none of it back, nothing of it is on the fabric, and its channels do not wait for a refresh slot to
end. -/
def State.copied (s : State) (key : Nat) (m : Mig) : Bool :=
  s.regPast m.marks && m.todo == [] && !s.engineWaits key && !(s.migSrc m).any s.frameWaits && !m.key.any s.frameWaits

/-- An answer to an engine's request has come: a read writes its line to the destination (R285). -/
def State.engineAnswer (s : State) (key off : Nat) (data : Option Nat) : State :=
  match s.migs.find? key with
  | none => s
  | some m =>
    let s1 :=
      match data, m.key with
      | some v, some b => (s.fadd (R.COH_STAT (sliceOf (b * 16384 + off / 64 % 16384))) F.COH_STAT_REQS 1).homeFull
          (b * 16384 + off / 64 % 16384) v
      | _, _ => s
    State.peerGo key 16384 s1

/-! ### The phases of a migration (R277, R278, R308) -/

/-- Lines of a range held in caches. -/
def State.cachedIn (s : State) (k : Option Nat) : List Nat :=
  match k with
  | some a => ((s.cache.filter fun e => e.1 / 128 / 16384 == a).map fun e => e.1 / 128).eraseDups
  | none => []

/-- The delta of a migration (R277). -/
def State.migDelta (s : State) (m : Mig) : Nat := m.dirty.length + (s.cachedIn (s.migSrc m)).length

/-- Begin a phase that copies: the copy takes the present contents, and lines written from now on are marked. -/
def State.migCopy (s : State) (key : Nat) (m : Mig) (phase round : Nat) (f : Nat → Bool) : State :=
  s.copyLines key { m with phase := phase, round := round, dirty := [] } f false

/-- The start has been acknowledged: the pre-copy begins (R277). -/
def State.migPrecopy (s : State) (key : Nat) (m : Mig) : State := s.migCopy key m 2 0 fun _ => true

/-- A request becomes a migration on an engine: STATE is migrating, and the pre-copy waits for the caches. -/
def State.migBegin (s : State) (key : Nat) (q : MigReq) (tier frame : Nat) : State :=
  let cleared := s.migQ.map fun e => (e.1, e.2.filter fun x => !(x == q || q.absorbs x))
  let s1 := { s with migQ := cleared }.setRm q.range (setBits (s.rm q.range) 59 2 1)
  let m : Mig := { req := q, phase := 1, tier := tier, frame := frame, acks := s.rmcHolders q.range }
  let s2 := { s1 with migs := s1.migs.insert key m }
  if m.acks = 0 then s2.migPrecopy key m else s2

/-- MIGRATION_START (R277). -/
def execMigrationStart (d e : Nat) (s : State) : Host.Outcome State Fault Refusal :=
  s.runIf (instrWf (.migrationStart d e)) (
    let key := migKey d e
    let s0 := (s.replenish d).prune
    if (s.migs.find? key).isSome || s.fenced 4 d then s
    else
      match s0.migPick (Map.get [] s0.migQ d) with
      | none => s0
      | some q =>
        if q.dest.tier = 2 then s0.migBegin key q 2 (q.dest.win * 2 ^ 22 + q.dest.rrange)
        else
          match s0.migFrame q with
          | (some k, s1) => s1.migBegin key q (tierOfKey k) (frameOfKey k)
          | (none, _) => s0)

/-- An update of a range that no migration awaits is acknowledged by a die's cache; with the last one its frames are free (R266). -/
def State.updAck (s : State) (d r : Nat) : State :=
  match s.rmUpd.find? r with
  | none => s
  | some u =>
    let a := setBits u.acks d 1 0
    if a ≠ 0 then { s with rmUpd := s.rmUpd.insert r { u with acks := a } }
    else u.frames.foldl (fun s k => s.frameGo k (some r)) { s with rmUpd := s.rmUpd.erase r }

/-- RMC_UPDATE_ACK (R266): the Range Map cache of die d acknowledges the update of a range. -/
def execRmcUpdateAck (d r : Nat) (s : State) : Host.Outcome State Fault Refusal :=
  s.runIf (instrWf (.rmcUpdateAck d r)) (
    match s.migOf r with
    | some (key, m) =>
      if !bit m.acks d then s.updAck d r
      else
        let m1 := { m with acks := setBits m.acks d 1 0 }
        let s1 := { s with migs := s.migs.insert key m1 }
        if m1.acks ≠ 0 then s1
        else if m.phase = 1 then s1.migPrecopy key m1
        else if m.phase = 5 then { s with migs := s.migs.insert key { m1 with phase := 6 } }
        else s1
    | none => s.updAck d r)

/-- RMC_MISS_FILL (R266). -/
def execRmcMissFill (d r : Nat) (s : State) : Host.Outcome State Fault Refusal :=
  s.runIf (instrWf (.rmcMissFill d r)) (if (Map.get [] s.rmc d).contains r then s else s.rmcUse d r)

/-- The final phase begins (R308): every line of the range is busy, and the source homes invalidate what is cached of lines that are at
rest. -/
def State.migFinal (s : State) (key : Nat) (m : Mig) : State :=
  (s.cachedIn (s.migSrc m)).foldl
    (fun s l =>
      match s.busyAt l with
      | none => s.invalidate l {}
      | some b => if b.cur.isNone then s.invalidate l { waiters := b.waiters, drops := b.drops } else s)
    { s with migs := s.migs.insert key { m with phase := 4, finalAt := s.clk.cyc } }

/-- The delta is judged (R278): final phase, a further round, or abandonment. -/
def State.migJudge (s : State) (key : Nat) (m : Mig) : State :=
  let ctl := R.PLC_MIG_CTL (key / 8)
  if s.migDelta m ≤ s.fget ctl F.PLC_MIG_CTL_DELTA_MAX then s.migFinal key m
  else if m.round < s.fget ctl F.PLC_MIG_CTL_ROUNDS_MAX then s.migCopy key m 3 (m.round + 1) fun i => Map.get false m.dirty i
  else s.migAgain key m

/-- A copy phase of an engine ends once its copy has (R277, R291). -/
def State.copyEnd (s : State) (key phase : Nat) : State :=
  match s.migs.find? key with
  | some m => if m.phase = phase && s.copied key m then s.migJudge key m else s
  | none => s

/-- MIGRATION_PRECOPY_END (R277). -/
def execMigrationPrecopyEnd (d e : Nat) (s : State) : Host.Outcome State Fault Refusal :=
  s.runIf (instrWf (.migrationPrecopyEnd d e)) (s.copyEnd (migKey d e) 2)

/-- MIGRATION_ROUND_END (R278). -/
def execMigrationRoundEnd (d e : Nat) (s : State) : Host.Outcome State Fault Refusal :=
  s.runIf (instrWf (.migrationRoundEnd d e)) (s.copyEnd (migKey d e) 3)

/-- The entry of a range after the switch: the destination's TIER and FRAME, stable; a prefetched range loses its HINT and
takes HEAT = HOT_THRESH (R276, R277). A range that lost a line as its frame was retired is retired with it (R283). -/
def State.switchEntry (s : State) (m : Mig) (lost : Bool) : Nat :=
  let e := s.rm m.req.range
  match (if lost && m.req.cls == 1 then m.req.evac else none) with
  | some k => setBits (setBits (setBits e 61 2 3) 59 2 2) 0 34 (frameOfKey k)
  | none =>
    let e1 := setBits (setBits (setBits e 61 2 m.tier) 59 2 0) 0 34 m.frame
    if m.req.cls = 2 then setBits (setBits e1 51 2 0) 43 8 (s.fget R.PLC_POLICY F.PLC_POLICY_HOT_THRESH)
    else if m.tier = 2 then setBits e1 55 1 1
    else e1

/-- The final phase of a frame has drained (R308): no transaction is in progress at its lines, and no agent holds one or sends one home. -/
def State.drained (s : State) (k : Nat) : Bool :=
  !(s.busy.any fun b => b.1 / 16384 == k && b.2.cur.isSome) && !(s.cache.any fun e => e.1 / 128 / 16384 == k)
    && !s.msgs.any fun m => m.line / 16384 == k && m.op == .lineHome

/-- A line of the destination could not be read at the source (R283, R423). -/
def State.copyLost (s : State) (m : Mig) : Bool :=
  m.lost || match m.key with | some k => s.poison.any fun e => e.1 / 16384 == k | none => false

/-- The last copy is made, and the store switches to the destination (R277). -/
def State.migSwitch (s : State) (key : Nat) (m : Mig) : State :=
  let lost := s.copyLost m
  let acks := s.rmcHolders m.req.range
  let m1 := { m with phase := if acks = 0 then 6 else 5, acks := acks, lost := lost, dirty := [], src := s.migSrc m }
  ({ s with migs := s.migs.insert key m1,
            llc := s.llc.map fun (e : Nat × List Nat) => (e.1, e.2.filter fun l => some (l / 16384) != s.migSrc m) }).setRm m.req.range (s.switchEntry m lost)

/-- MIGRATION_FINAL_END (R277, R308): the drain and the invalidation have ended; the lines marked dirty are copied, and the store switches
to the destination, once every update of the entry has been acknowledged (R266). Lines that go over the fabric have to be answered first
(R285). -/
def execMigrationFinalEnd (d e : Nat) (s : State) : Host.Outcome State Fault Refusal :=
  s.runIf (instrWf (.migrationFinalEnd d e)) (
    let key := migKey d e
    match s.migs.find? key with
    | some m =>
      if m.phase ≠ 4 || !(s.migSrc m).all s.drained || !s.copied key m || (s.rmUpd.find? m.req.range).isSome then s
      else
        let s1 := s.copyLines key { m with dirty := [] } (fun i => Map.get false m.dirty i) true
        match s1.migs.find? key with
        | some m1 => if s1.copied key m1 && m1.dirty == [] then s1.migSwitch key m1 else s1
        | none => s1
    | none => s)

/-- A migration ends after its switch (R277, R282, R283, R423): waiting requests retry, the longest final phase is kept, and the source
frame returns to the pool, is marked bad, or stays with its reservation. A frame that its range has been retired from, and has not
reached, returns too. -/
def State.migDone (s : State) (key : Nat) (m : Mig) : State :=
  let r := R.PLC_MIG_STAT (key / 8)
  let s1 := ({ s with migs := s.migs.erase key }.fadd r F.PLC_MIG_STAT_COMPLETED 1).fset r F.PLC_MIG_STAT_MAX_STALL
    (max (s.fget r F.PLC_MIG_STAT_MAX_STALL) (min 65535 (s.clk.cyc - m.finalAt)))
  let s2 := m.redone.foldl (fun s l => s.fadd (R.COH_STAT (sliceOf l)) F.COH_STAT_RETRIES 1) s1
  let s3 := match m.src with | some k => (s2.redoFrame k).frameGo k (some m.req.range) | none => s2
  let s4 := match m.key with | some k => s3.frameGo k (some m.req.range) | none => s3
  s4.when (m.lost && m.req.cls != 1) fun s => s.event R.PLC_CTRL none [m.req.range]

/-- MIGRATION_UNBLOCK (R277). -/
def execMigrationUnblock (d e : Nat) (s : State) : Host.Outcome State Fault Refusal :=
  s.runIf (instrWf (.migrationUnblock d e)) (
    match s.migs.find? (migKey d e) with
    | some m => if m.phase = 6 then s.migDone (migKey d e) m else s
    | none => s)

/-- The homes of a die are fenced: every migration from or to its stacks, and those of its engines, end, abandoned or, after the switch,
done (R281; log entry 105). -/
def State.migFence (s : State) (d : Nat) : State :=
  let on (k : Option Nat) : Bool := (k.bind dieOfKey) == some d
  (s.migs.filter fun (e : Nat × Mig) => e.1 / 8 == d || on e.2.key || on (s.migSrc e.2)).foldl
    (fun (s : State) (e : Nat × Mig) => if e.2.phase < 5 then s.migAgain e.1 e.2 else s.migDone e.1 e.2) s

/-- A frame is retired (R282): it leaves any reservation, its range is evacuated, and it is marked bad. -/
def State.retireFrame (s : State) (k : Nat) : State :=
  if s.retiring.contains k then s
  else { s with retiring := s.retiring ++ [k], reserved := s.reserved.erase k }.frameGo k none

/-- FRAME_RETIRE (R282). -/
def execFrameRetire (tier frame : Nat) (s : State) : Host.Outcome State Fault Refusal :=
  s.runIf (instrWf (.frameRetire tier frame)) (
    if Map.get false s.bad (frameKey tier frame) then s else s.retireFrame (frameKey tier frame))

/-! ### Regulators (R290 to R292) -/

/-- REGULATOR_ISSUE (R291): a request of so many tokens is issued from its bucket or the common pool, or waits; a
final-phase copy is charged without waiting. -/
def execRegulatorIssue (p tier tokens final : Nat) (s : State) : Host.Outcome State Fault Refusal :=
  s.runIf (instrWf (.regulatorIssue p tier tokens final)) (
    if final = 1 then s.chargeFinal p tier tokens else s.chargeNow p tier tokens 1)

end Sys2Proof.Machine
end

