-- ==== Sys2Proof/Machine/Time.lean ====
section
/-!
DEFINITION. Time.lean: the register commands of the time base, and the TIME_PPS pins (R51 to R54, R66, R68, R489).
-/

namespace Sys2Proof.Machine

/-- The time base counts `n`, in as many cycles: the TIME_PPS pulse runs on. -/
def Clock.pass (c : Clock) (n : Nat) : Clock := { c with tb := (c.tb + n) % 2 ^ 64, cyc := c.cyc + n, ppsLeft := c.ppsLeft - n }

/-- Cycles of a TIME_PPS pulse of 100 ms (R68). -/
def ppsCycles : Nat := 110000000

/-- Start a TIME_PPS pulse (R68). -/
def State.ppsStart (s : State) : State :=
  s.when (s.fbit R.TCK_CTRL F.TCK_CTRL_PPS_OUT_EN) fun s => { s with clk := { s.clk with ppsLeft := ppsCycles } }

/-- The effect of a write of PERIOD_LOG2 (R14, R16, R54). -/
def periodWrite (a : Agent) (v : Nat) (s : State) : State :=
  if s.fbit R.TCK_CTRL F.TCK_CTRL_LOCK || v == s.pLog then s
  else if !(decide (14 ≤ v) && decide (v ≤ 20)) then s.badWrite a R.TCK_CTRL
  else if s.periodOk v then s.fset R.TCK_CTRL F.TCK_CTRL_PERIOD_LOG2 v
  else (s.fset R.TCK_STATUS F.TCK_STATUS_CTRL_REFUSED 1).badWrite a R.TCK_CTRL

/-- PERIOD_LOG2_WRITE (R54). -/
def execPeriodLog2Write (a : Agent) (value : Nat) (s : State) : Host.Outcome State Fault Refusal :=
  s.runIf (instrWf (.periodLog2Write a value)) (s.writeReg a .tck 0 R.TCK_CTRL (periodWrite a value))

/-- The effect of a write of PPS_OUT_EN (R68). -/
def ppsEnWrite (en : Nat) (s : State) : State :=
  let s1 := s.fset R.TCK_CTRL F.TCK_CTRL_PPS_OUT_EN en
  if en = 0 then { s1 with clk := { s1.clk with ppsLeft := 0 } } else s1

/-- PPS_OUT_EN_WRITE (R68). -/
def execPpsOutEnWrite (a : Agent) (en : Nat) (s : State) : Host.Outcome State Fault Refusal :=
  s.runIf (instrWf (.ppsOutEnWrite a en)) (s.writeReg a .tck 0 R.TCK_CTRL (ppsEnWrite en))

/-- The effect of a write of TCK_STEP (R68, R489): applied on a master or standalone package without a resident context. -/
def stepWrite (value : Nat) (s : State) : State :=
  let d := toInt 48 value
  if s.fget R.TCK_SYNC F.TCK_SYNC_ROLE == 2 || s.anyResident then s.fset R.TCK_STATUS F.TCK_STATUS_STEP_REFUSED 1
  else
    let old := s.clk.tb
    let new := ((old : Int) + d) % (2 ^ 64 : Nat)
    let s0 := s.leaves
    let s1 := { s0 with clk := { s0.clk with tb := new.toNat, phase := 9 } }
    s1.when (decide (0 < d) && (decide (old / cyclesPerSecond < (old + d.toNat) / cyclesPerSecond) || decide (2 ^ 64 ≤ old + d.toNat)))
      State.ppsStart

/-- TIME_STEP (R489). -/
def execTimeStep (a : Agent) (value : Nat) (s : State) : Host.Outcome State Fault Refusal :=
  s.runIf (instrWf (.timeStep a value)) (s.writeReg a .tck 0 R.TCK_STEP (stepWrite value))

/-- The time base that the advance to the next multiple of 1,100,000,000 reaches (R68). -/
def nextSecond (tb : Nat) : Nat := (tb / cyclesPerSecond + 1) * cyclesPerSecond

/-- PPS_OUT_PULSE (R68): the time base reaches the next multiple by counting, unless that multiple lies beyond the next
boundary, and a pulse starts. -/
def execPpsOutPulse (s : State) : Host.Outcome State Fault Refusal :=
  let m := nextSecond s.clk.tb
  .next (if m < (s.clk.tb / s.period + 1) * s.period then { s.leaves with clk := { s.leaves.clk.pass (m - s.clk.tb) with phase := 9 } }.ppsStart
    else s)

/-- PPS_PULSE_END (R68): the cycles that the pulse has left pass, up to 100 ms from its latest start, unless the next boundary comes
first; TIME_PPS then runs on through the boundary. -/
def execPpsPulseEnd (s : State) : Host.Outcome State Fault Refusal :=
  .next (if 0 < s.clk.ppsLeft ∧ s.clk.tb + s.clk.ppsLeft < (s.clk.tb / s.period + 1) * s.period then
      { s.leaves with clk := { s.leaves.clk.pass s.clk.ppsLeft with phase := 9 } }
    else s)

/-- PPS_IN_EDGE (R68). -/
def execPpsInEdge (s : State) : Host.Outcome State Fault Refusal :=
  .next ((s.fset R.TCK_PPS F.TCK_PPS_EDGE s.clk.tb).fset R.TCK_STATUS F.TCK_STATUS_PPS_IN_SEEN 1)

/-- The effect of a write of HRD_HEARTBEAT (R69): a beat for each core whose bit is 1, which is progress of the herd. -/
def beatWrite (h value : Nat) (s : State) : State :=
  let beat (c : Nat) (s : State) : State :=
    s.when (bit value c) fun s => s.setCore (2 * h + c) { s.core (2 * h + c) with hb := 0 }
  let s1 := beat 1 (beat 0 s)
  s1.when (value % 4 != 0) fun s =>
    { s.setHerd h { s.herd h with wd := 0 } with dieWd := Map.put 0 s.dieWd (h / 8) 0 }.pmcHerd h 0x0A (popcount 2 (value % 4))

/-- HEARTBEAT (R69). -/
def execHeartbeat (a : Agent) (h value : Nat) (s : State) : Host.Outcome State Fault Refusal :=
  s.runIf (instrWf (.heartbeat a h value)) (s.writeReg a .hrd h (R.HRD_HEARTBEAT h) (beatWrite h value))

end Sys2Proof.Machine
end

