-- ==== Sys2Proof/Machine/Channels.lean ====
section
/-!
DEFINITION. Channels.lean: the stack and capacity controllers: line reads and writes of a channel, scrubbing, refresh and refresh
lock, row remapping and repair, and the UCIe modules (R29, R62, R310 to R329). A unit is a stack, 0 to 15, or 16 + bus.
-/

namespace Sys2Proof.Machine

/-! ### Where a line lies (R313, R328) -/

/-- The data lines of a raw row (R328). -/
def rawLines (r : Nat) : List Nat :=
  (((List.range 64).map fun q => 64 * r + q).filter fun u => u % 9 != 8).map (fun u => 8 * (u / 9) + u % 9)
    |>.filter fun n => decide (n < 954204160)

/-- The lines whose check line a raw row holds (R328). -/
def rawChecks (r : Nat) : List Nat :=
  (((List.range 64).map fun q => 64 * r + q).filter fun u => u % 9 == 8).flatMap (fun u => (List.range 8).map fun j => 8 * (u / 9) + j)
    |>.filter fun n => decide (n < 954204160)

/-- The lines of a row of a unit: of a bank row of a stack, or of a raw row of a bus. -/
def rowLines (unit chan bank row : Nat) : List Nat :=
  if unit < 16 then
    (((List.range 16384).map fun i => row * 16384 + i).filter fun a => stackPlace a == (chan, bank, row)).map (lineOf unit)
  else (rawLines row).map (lineOf unit)

/-! ### Registers of a unit -/

/-- Offset of SCRUB. -/
def scrubReg (u : Nat) : Nat := B.unit u + 0x20
/-- Offset of REMAP_STAT. -/
def remapReg (u : Nat) : Nat := B.unit u + 0x28

/-- The lines that a row holds any part of, one for each part: those, and the lines whose check line a raw row holds. -/
def rowParts (unit chan bank row : Nat) : List Nat :=
  rowLines unit chan bank row ++ if unit < 16 then [] else (rawChecks row).map (lineOf unit)
/-- The lines that a row holds any part of. -/
def rowAll (unit chan bank row : Nat) : List Nat := (rowParts unit chan bank row).eraseDups

/-! ### The queue of a channel (R312) -/

/-- Requests that a channel's queue holds; others wait behind them. -/
def chanSize : Nat := 64
/-- The number of a line's stack channel in the package. -/
def chanOf (line : Nat) : Nat := 64 * (unitOf line).1 + (stackPlace (unitOf line).2).1
/-- A request hits the open row of its bank. -/
def Chan.hits (c : Chan) (r : ChanReq) : Bool :=
  let p := stackPlace (unitOf r.line).2
  c.rows.find? p.2.1 == some p.2.2

/-- The places of the requests that a channel may serve next, those of the class it serves: the highest, or bulk where a bulk request has
waited through 15 bursts; requests for one line go in the order of their arrival (R312). -/
def Chan.ready (c : Chan) : List Nat :=
  let q := c.queue.take chanSize
  let cls (i : Nat) : Nat := (q[i]?.map fun r => r.cls).getD 4
  let line (i : Nat) : Nat := (q[i]?.map fun r => r.line).getD 0
  let first := (List.range q.length).filter fun i => (List.range i).all fun j => line j != line i
  let top := if first.any (fun i => cls i == 2) && decide (15 ≤ c.bursts) then 2 else first.foldl (fun m i => min m (cls i)) 4
  first.filter fun i => cls i == top

/-- The request that a channel serves next: of those, the first that hits its open row and passes none that has been passed 16 times, or
the oldest (R312; log entry 106). -/
def Chan.next (c : Chan) : Option Nat :=
  let l := c.ready
  let at? (i : Nat) : ChanReq := (c.queue[i]?).getD { line := 0, cls := 0 }
  match l.find? fun i => c.hits (at? i) && l.all fun j => decide (i ≤ j) || decide ((at? j).passed < 16) with
  | some i => some i
  | none => l.head?

/-- A request leaves the queue: those of its class that it passes have been passed once more. -/
def Chan.leave (c : Chan) (i : Nat) (r : ChanReq) : Chan :=
  let older := c.ready.filter fun j => decide (j < i)
  let q := (List.range c.queue.length).filterMap fun j =>
    if j = i then none else (c.queue[j]?).map fun x => if older.contains j then { x with passed := x.passed + 1 } else x
  { c with queue := q, bursts := if r.cls = 2 ∨ q.all (fun x => x.cls != 2) then 0 else c.bursts + 1 }

/-- A channel serves a request: a read delivers the line, or FAIL, to its reader; a full line, which is a PUT_FULL, is written with its
check bytes (R312, R316, R317; log entry 106). -/
def State.chanServe (s : State) (r : ChanReq) : State :=
  match r.write with
  | some d => { s.putLine r.line d with poison := Map.put false s.poison r.line false }.chanWrote r.line
  | none =>
    let s1 := State.chanRead unitEvent s r.line
    if r.cls = 3 then s1
    else s1.answer (if (s.homeWord r.line).isSome then .ok else .accessFault) ((s.homeWord r.line).getD 0)

/-- A stack channel serves what waits; at most `n` requests. -/
def State.chanDrain (k : Nat) : Nat → State → State
  | 0, s => s
  | n + 1, s =>
    let c := s.chan k
    match c.next with
    | none => s
    | some i =>
      match c.queue[i]? with
      | some r => State.chanDrain k n ((s.setChan k (c.leave i r)).chanServe r)
      | none => s

/-- Every channel of stacks serves what waits. -/
def State.chansServe (s : State) (which : Nat → Bool) : State :=
  s.chans.foldl (fun s (e : Nat × Chan) => if which (e.1 / 64) then State.chanDrain e.1 e.2.queue.length s else s) s

/-- A request reaches its channel: it waits for a refresh slot to end, or is served in its turn (R62, R312). -/
def State.chanTake (s : State) (r : ChanReq) : State :=
  let k := chanOf r.line
  if 16 ≤ (unitOf r.line).1 ∨ (!s.slotWait (unitOf r.line).1 ∧ (s.chan k).queue = []) then s.chanServe r
  else
    let s1 := s.setChan k { s.chan k with queue := (s.chan k).queue ++ [r] }
    if s.slotWait (unitOf r.line).1 then s1 else State.chanDrain k (s1.chan k).queue.length s1

/-! ### Reads and writes of a line (R312, R316, R317, R329) -/

/-- CHANNEL_READ (R316). -/
def execChannelRead (req : LineReq) (s : State) : Host.Outcome State Fault Refusal :=
  s.runIf (instrWf (.channelRead req)) (if homeLine req.line then s.chanTake { line := req.line, cls := req.cls } else s)

/-- CHANNEL_WRITE (R312). -/
def execChannelWrite (req : LineReq) (data : Nat) (s : State) : Host.Outcome State Fault Refusal :=
  s.runIf (instrWf (.channelWrite req data)) (
    if homeLine req.line then s.chanTake { line := req.line, write := some data, cls := req.cls } else s)

/-! ### Scrubbing (R318) -/

/-- SCRUB_HOURS of a unit. -/
def State.scrubHours (s : State) (u : Nat) : Nat := s.fget (B.unit u) F.STK_CTRL_SCRUB_HOURS

/-- The next line that a scrub pass reads from a line on, past frames marked bad. -/
def State.scrubNext (s : State) (unit : Nat) : Nat → Nat → Nat
  | 0, n => n
  | fuel + 1, n =>
    if n < unitLines unit ∧ Map.get false s.bad (lineOf unit n / 16384) then
      s.scrubNext unit fuel ((n / 16384 + 1) * 16384)
    else n

/-- SCRUB_READ (R318): a request of the scrub class; a pass ends behind the last line, and the next begins. -/
def execScrubRead (unit : Nat) (s : State) : Host.Outcome State Fault Refusal :=
  s.runIf (instrWf (.scrubRead unit)) (
    if s.scrubHours unit = 0 then s
    else
      let g := scrubReg unit
      let n := s.scrubNext unit 65536 (s.fget g F.STK_SCRUB_POS)
      let s1 := if n < unitLines unit then s.chanTake { line := lineOf unit n, cls := 3 } else s
      if n + 1 < unitLines unit then s1.fset g F.STK_SCRUB_POS (n + 1)
      else (s1.fset g F.STK_SCRUB_POS 0).fset g F.STK_SCRUB_PASSES (s1.fget g F.STK_SCRUB_PASSES + 1))

/-! ### Refresh (R319 to R321) -/

/-- n REF commands of a channel are issued. -/
def State.issueRefs (s : State) (chan n : Nat) : State := { s with refs := Map.put 0 s.refs chan (Map.get 0 s.refs chan + n) }

/-- A channel may postpone its REF: demand or urgent requests are queued, and fewer than 8 are postponed (R319). -/
def State.mayPostpone (s : State) (chan : Nat) : Bool :=
  decide (Map.get 0 s.postponed chan < 8) && (s.chan chan).queue.any fun r => decide (r.cls < 2)

/-- REFRESH (R319): without refresh lock the channel issues its REF with those that it postponed, or, where it may and `postpone` says so
(log entry 83), postpones it. -/
def execRefresh (chan postpone : Nat) (s : State) : Host.Outcome State Fault Refusal :=
  s.runIf (instrWf (.refresh chan postpone)) (
    let n := Map.get 0 s.postponed chan
    if s.lockOn (chan / 64) then s
    else if postpone = 1 ∧ s.mayPostpone chan then { s with postponed := Map.put 0 s.postponed chan (n + 1) }
    else { s with postponed := s.postponed.erase chan }.issueRefs chan (n + 1))

/-- The cycles that a refresh slot still lasts: it ends 1/32 of the period after the boundary (R62). -/
def State.slotLeft (s : State) : Nat := s.period / 32 - s.clk.tb % s.period

/-- A row is failing: a line of it holds a hard error or an uncorrectable word (R322). -/
def State.rowFails (s : State) (unit chan bank row : Nat) : Bool :=
  (rowParts unit chan bank row).any fun l => rsDecode (s.cells l) != .good || (s.lineErr l != 0 && rsDecode (s.lineDiff l) == .bad)

/-- Two copies are of the same row. -/
def RowCopy.same (x c : RowCopy) : Bool := x.unit == c.unit && x.chan == c.chan && x.bank == c.bank && x.row == c.row

/-- One line of a failing row goes to its spare: it is read, corrected where it can be, and written there, poisoned otherwise (R317,
R322). -/
def State.moveLine (c : RowCopy) (s : State) (l : Nat) : State :=
  let s1 := State.chanRead unitEvent s l
  let v := s1.homeWord l
  let s2 := { s1 with copies := s1.copies.map fun (x : RowCopy) => if x.same c then { x with left := x.left.erase l } else x }
  match v with
  | some d => (s2.putLine l d).chanWrote l
  | none => s2.poisonAt l (s2.mem.rdN (l * 64) 64)

/-- A copy goes on to its end, unless a refresh slot pauses it (R322). -/
def State.copyRow (s : State) (c : RowCopy) : State :=
  if s.slotWait c.unit then s
  else
    let s1 := c.left.foldl (State.moveLine c) s
    { s1 with copies := s1.copies.filter fun (x : RowCopy) => !x.same c }

/-- A refresh slot has ended for units: what waits at their channels goes on, then transactions that wait, and copies (R62, R303, R312,
R322). -/
def State.slotOver (s : State) (which : Nat → Bool) : State :=
  let s1 := State.unpark unitEvent (fun _ _ => true) (s.chansServe which)
  (s1.copies.filter fun c => which c.unit).foldl State.copyRow s1

/-- REFRESH_SLOT_END (R62): the slot's time passes, and the requests that wait go on. -/
def execRefreshSlotEnd (s : State) : Host.Outcome State Fault Refusal :=
  let s0 := if s.slotLeft = 0 then s else s.leaves
  .next (if s.clk.refSlot then
      { s0 with clk := { s0.clk.pass s.slotLeft with phase := if s.slotLeft = 0 then s.clk.phase else 9, refSlot := false } }.slotOver
        fun _ => true
    else s)

/-- The effect of a write of REF_LOCK (R14, R62, R320): it is set at the next boundary and cleared at once. -/
def refLockEffect (a : Agent) (stack value : Nat) (s : State) : State :=
  let g := R.STK_CTRL stack
  let v := bits value 0 1
  if v = 1 ∧ 16 < s.pLog ∧ ¬ s.fbit g F.STK_CTRL_REF_LOCK then s.badWrite a g
  else
    let s1 := s.fset g F.STK_CTRL_REF_LOCK v
    if v = 0 then { s1 with refLocked := s1.refLocked.erase stack }.slotOver fun k => k == stack else s1

/-- REF_LOCK_WRITE (R320). -/
def execRefLockWrite (a : Agent) (stack value : Nat) (s : State) : Host.Outcome State Fault Refusal :=
  s.runIf (instrWf (.refLockWrite a stack value)) (s.writeReg a .stk stack (R.STK_CTRL stack) (refLockEffect a stack value))

/-- The refresh lock of a stack is suspended (R321). -/
def State.suspendLock (s : State) (stack : Nat) : State :=
  let g := R.STK_STATUS stack
  ((s.fset g F.STK_STATUS_LOCK_SUSPENDED 1).lifeAdd 33 1).event g (some F.STK_STATUS_LOCK_SUSPENDED) []

/-- REF_LOCK_SUSPEND (R321): at a boundary, with a die of the stack above 85 °C, which also halves the refresh interval. -/
def execRefLockSuspend (stack : Nat) (s : State) : Host.Outcome State Fault Refusal :=
  s.runIf (instrWf (.refLockSuspend stack)) (
    let g := R.STK_STATUS stack
    if !s.atBoundary 8 || s.fbit g F.STK_STATUS_THERM_2X then s
    else
      let s1 := s.fset g F.STK_STATUS_THERM_2X 1
      if s.fbit (R.STK_CTRL stack) F.STK_CTRL_REF_LOCK then s1.suspendLock stack else s1)

/-- REF_LOCK_RESUME (R321): at the first boundary after every die has fallen below 80 °C. -/
def execRefLockResume (stack : Nat) (s : State) : Host.Outcome State Fault Refusal :=
  s.runIf (instrWf (.refLockResume stack)) (
    let g := R.STK_STATUS stack
    if !s.atBoundary 8 then s
    else (s.fset g F.STK_STATUS_THERM_2X 0).fset g F.STK_STATUS_LOCK_SUSPENDED 0)

/-! ### Row remapping (R322 to R325) -/

/-- A remap entry (R323). -/
def remapWord (gen chan bank row spare : Nat) : Nat :=
  2 ^ 63 + gen * 2 ^ 61 + chan * 2 ^ 55 + bank * 2 ^ 51 + row * 2 ^ 27 + spare * 2 ^ 15

/-- Entries that a unit's table holds. -/
def remapSize (unit : Nat) : Nat := if unit < 16 then 4096 else 1024
/-- The spares of a bank of a stack, or of a bus. -/
def spareCount (unit : Nat) : Nat := if unit < 16 then 16 else 3907
/-- A spare is in use: an entry names it. -/
def State.spareUsed (s : State) (unit chan bank i : Nat) : Bool :=
  (s.remaps unit).any fun e => bits e 55 6 == chan && bits e 51 4 == bank && bits e 15 12 == i
/-- A spare that is neither in use nor failed; which one the controller takes is its lowest. -/
def State.freeSpare (s : State) (unit chan bank : Nat) : Option Nat :=
  firstUpTo (spareCount unit) fun i =>
    !(s.spareUsed unit chan bank i || (Map.get [] s.spent unit).contains (spareKey unit chan bank i))

/-- Show the table of a unit, and have it persisted (R325). -/
def State.setRemaps (s : State) (unit : Nat) (l : List Nat) : State :=
  let g := remapReg unit
  let s1 := ({ s with remap := s.remap.insert unit l }.fset g F.STK_REMAP_STAT_USED l.length).fset g F.STK_REMAP_STAT_FULL
    (b2n (decide (l.length = remapSize unit)))
  ((s1.fset g F.STK_REMAP_STAT_RETIRED (l.filter fun e => bits e 61 2 == 3).length).fset g F.STK_REMAP_STAT_PERSIST_PENDING
    1).lifeTouch 0

/-- Retire the frames that hold lines (R282, R324). -/
def State.retireLines (s : State) (lines : List Nat) : State :=
  ((lines.map fun l => l / 16384).eraseDups).foldl (fun s k => if Map.get false s.bad k then s else s.retireFrame k) s

/-- A failing row is remapped (R322, R324): `l` is the table with its entry; the spare that has served the row has failed. -/
def State.remapTo (s : State) (unit chan bank row gen : Nat) (l : List Nat) : State :=
  let c : RowCopy := { unit := unit, chan := chan, bank := bank, row := row, src := s.spareOf unit chan bank row,
                       left := rowAll unit chan bank row }
  let failed := match c.src with | some i => [spareKey unit chan bank i] | none => []
  let s1 := { s with spent := Map.put [] s.spent unit (Map.get [] s.spent unit ++ failed), copies := s.copies ++ [c] }
  (((s1.setRemaps unit l).copyRow c).lifeAdd (17 + gen) 1).event (remapReg unit) (some F.STK_REMAP_STAT_USED) []

/-- The spare that the entry of a row names that has none: it is in use by another row of its bank (log entry 112). -/
def State.spareNamed (s : State) (unit chan bank : Nat) : Nat :=
  match (s.remaps unit).find? fun e => bits e 55 6 == chan && bits e 51 4 == bank with
  | some e => bits e 15 12
  | none => 0

/-- A failing row is acted on by the table of R324. -/
def State.failRow (s : State) (unit chan bank row : Nat) : State :=
  let t := s.remaps unit
  let retire (l : List Nat) : State := (s.setRemaps unit l).retireLines (rowLines unit chan bank row)
  match s.remapIdx unit chan bank row, s.freeSpare unit chan bank with
  | none, some i =>
    if t.length < remapSize unit then s.remapTo unit chan bank row 1 (t ++ [remapWord 1 chan bank row i])
    else s.retireLines (rowLines unit chan bank row)
  | none, none =>
    if t.length < remapSize unit then retire (t ++ [remapWord 3 chan bank row (s.spareNamed unit chan bank)])
    else s.retireLines (rowLines unit chan bank row)
  | some k, sp =>
    let e := t.getD k 0
    match bits e 61 2, sp with
    | 3, _ => s
    | 1, some i =>
      if t.length < remapSize unit then s.remapTo unit chan bank row 2 (setAt t k (remapWord 2 chan bank row i))
      else retire (setAt t k (setBits e 61 2 3))
    | _, _ => retire (setAt t k (setBits e 61 2 3))

/-- A row is being copied. -/
def State.copying (s : State) (unit chan bank row : Nat) : Bool :=
  s.copies.any fun c => c.unit == unit && c.chan == chan && c.bank == bank && c.row == row

/-- ROW_REMAP (R322): of a row that fails and is not being copied; suspended in a stack in maintenance (R326). -/
def execRowRemap (unit chan bank row : Nat) (s : State) : Host.Outcome State Fault Refusal :=
  s.runIf (instrWf (.rowRemap unit chan bank row)) (
    let go (c b : Nat) : State := if s.rowFails unit c b row && !s.copying unit c b row then s.failRow unit c b row else s
    if unit < 16 then (if s.fbit (R.STK_STATUS unit) F.STK_STATUS_MAINT_ACTIVE || decide (65536 ≤ row) then s else go chan bank)
    else if row < 0xFFF000 then go 0 0
    else s)

/-! ### Maintenance and repair (R326) -/

/-- A frame of a stack is mapped or reserved. -/
def State.stackUsed (s : State) (stack : Nat) : Bool :=
  let has (k : Nat) : Bool := decide (k < 0x800000) && (k - 0x400000) / 65536 == stack
  s.reserved.any (fun e => has e.1) || s.rangeMap.any fun e => match keyOf e.2 with | some k => has k | none => false

/-- The effect of a write of MAINT (R14, R326). -/
def maintEffect (a : Agent) (stack value : Nat) (s : State) : State :=
  let g := R.STK_CTRL stack
  let v := bits value 1 1
  if v = 1 ∧ ¬ s.fbit g F.STK_CTRL_MAINT ∧ s.stackUsed stack then s.badWrite a g
  else (s.fset g F.STK_CTRL_MAINT v).fset (R.STK_STATUS stack) F.STK_STATUS_MAINT_ACTIVE v

/-- MAINT_WRITE (R326). -/
def execMaintWrite (a : Agent) (stack value : Nat) (s : State) : Host.Outcome State Fault Refusal :=
  s.runIf (instrWf (.maintWrite a stack value)) (s.writeReg a .stk stack (R.STK_CTRL stack) (maintEffect a stack value))

/-- The key of the bank that a repair command names. -/
def bankKey (stack value : Nat) : Nat := 1024 * stack + 16 * bits value 50 6 + bits value 46 4
/-- The key of the DRAM die that a repair command names. -/
def dramKey (stack value : Nat) : Nat := 16 * stack + bits value 56 4

/-- Show the state of the bank that a command names, and its result. -/
def State.repairShow (s : State) (stack value result : Nat) : State :=
  let g := R.STK_REPAIR_STAT stack
  let bank := 16 * bits value 50 6 + bits value 46 4
  let used := ((List.range 16).filter fun i => s.spareUsed stack (bank / 16) (bank % 16) i).length
  let s1 := (s.fset g F.STK_REPAIR_STAT_BUSY 0).fset g F.STK_REPAIR_STAT_RESULT result
  let s2 := (s1.fset g F.STK_REPAIR_STAT_FUSE_ROWS_FREE (16 - Map.get 0 s.fuseRows (bankKey stack value))).fset g
    F.STK_REPAIR_STAT_COL_FREE (8 - Map.get 0 s.fuseCols (bankKey stack value))
  ((s2.fset g F.STK_REPAIR_STAT_FIELD_USED used).fset g F.STK_REPAIR_STAT_DIE_REPAIRS
    (Map.get 0 s.dieRepairs (dramKey stack value))).event g (some F.STK_REPAIR_STAT_RESULT) []

/-- VDD_IO blocks repair programming (R449). -/
def State.guardOn (s : State) : Bool := s.fbit R.CFG_STATUS F.CFG_STATUS_GUARD

/-- The result with which a command is refused: 0 none, 1 GUARD, 2 NO_SPARE, 3 NOT_MAINT. -/
def State.repairRefusal (s : State) (stack op value : Nat) : Nat :=
  if !s.fbit (R.STK_STATUS stack) F.STK_STATUS_MAINT_ACTIVE then 3
  else if op ≠ 1 ∧ s.guardOn then 1
  else if op = 2 ∧ 16 ≤ Map.get 0 s.fuseRows (bankKey stack value) then 2
  else if op = 3 ∧ 8 ≤ Map.get 0 s.fuseCols (bankKey stack value) then 2
  else 0

/-- The effect of a write of STK_REPAIR_CMD with an operation (R14, R326). -/
def repairEffect (a : Agent) (stack op value : Nat) (s : State) : State :=
  let g := R.STK_REPAIR_CMD stack
  if s.fbit (R.STK_REPAIR_STAT stack) F.STK_REPAIR_STAT_BUSY || bits value 60 4 != op
      || bits value 50 6 / 4 != bits value 56 4 then s.badWrite a g
  else
    let r := s.repairRefusal stack op value
    if r ≠ 0 then s.repairShow stack value r
    else { s with repairs := s.repairs.insert stack value }.fset (R.STK_REPAIR_STAT stack) F.STK_REPAIR_STAT_BUSY 1

/-- READ_STATUS (R326). -/
def execReadStatus (a : Agent) (stack value : Nat) (s : State) : Host.Outcome State Fault Refusal :=
  s.runIf (instrWf (.readStatus a stack value)) (
    s.writeReg a .stk stack (R.STK_REPAIR_CMD stack) (repairEffect a stack 1 value))

/-- FUSE_ROW (R326). -/
def execFuseRow (a : Agent) (stack value : Nat) (s : State) : Host.Outcome State Fault Refusal :=
  s.runIf (instrWf (.fuseRow a stack value)) (
    s.writeReg a .stk stack (R.STK_REPAIR_CMD stack) (repairEffect a stack 2 value))

/-- FUSE_COL (R326). -/
def execFuseCol (a : Agent) (stack value : Nat) (s : State) : Host.Outcome State Fault Refusal :=
  s.runIf (instrWf (.fuseCol a stack value)) (
    s.writeReg a .stk stack (R.STK_REPAIR_CMD stack) (repairEffect a stack 3 value))

/-- A fuse repair that has been verified: it is kept, and takes effect at the next start-up. -/
def State.fused (s : State) (stack value : Nat) : State :=
  let s1 := { s with dieRepairs := s.dieRepairs.insert (dramKey stack value) (Map.get 0 s.dieRepairs (dramKey stack value) + 1),
                     fuseList := Map.put [] s.fuseList stack (Map.get [] s.fuseList stack ++ [value]) }
  let k := bankKey stack value
  let s2 := if bits value 60 4 = 2 then { s1 with fuseRows := s1.fuseRows.insert k (Map.get 0 s1.fuseRows k + 1) }
    else { s1 with fuseCols := s1.fuseCols.insert k (Map.get 0 s1.fuseCols k + 1) }
  s2.lifeAdd 21 1

/-- What a fuse repair does at a start-up: the row or the columns that it names are served by its spare (R326). -/
def State.fuseApply (stack : Nat) (s : State) (value : Nat) : State :=
  let here (l : Nat) : Bool :=
    let u := unitOf l
    let p := stackPlace u.2
    u.1 == stack && p.1 == bits value 50 6 && p.2.1 == bits value 46 4
  { s with hard := if bits value 60 4 = 2 then s.hard.filter fun (e : Nat × Nat) => !(here e.1 && (stackPlace (unitOf e.1).2).2.2 == bits value 30 16)
      else (s.hard.map fun (e : Nat × Nat) =>
        if here e.1 then (e.1, e.2 ^^^ (e.2 &&& Config.columnBits (bits value 20 10) (stackCol (unitOf e.1).2))) else e).filter fun e => e.2 != 0 }

/-- A start-up: the fuse repairs of every stack take effect (R326). -/
def State.fuseLoad (s : State) : State :=
  { s.fuseList.foldl (fun s (e : Nat × List Nat) => e.2.foldl (State.fuseApply e.1) s) s with fuseList := [] }

/-- How a repair command ends: a fuse command that the supply guard meets ends with GUARD; otherwise with OK or, for a fuse command whose
repair the die's status does not show, with VERIFY_FAIL (R326, R449; log entry 83). -/
def State.repairEnd (s : State) (v result : Nat) : Nat :=
  if bits v 60 4 = 1 then 0 else if s.guardOn then 1 else if result = 0 then 0 else 4

/-- REPAIR_COMMAND_DONE (R326): `result` says whether the die's repair status shows the repair. -/
def execRepairCommandDone (stack result : Nat) (s : State) : Host.Outcome State Fault Refusal :=
  s.runIf (decide (stack < 16) && decide (result < 256)) (
    match s.repairs.find? stack with
    | none => s
    | some v =>
      let s1 := { s with repairs := s.repairs.erase stack }
      let r := s.repairEnd v result
      (if r = 0 ∧ bits v 60 4 ≠ 1 then s1.fused stack v else s1).repairShow stack v r)

/-! ### UCIe modules (R29) -/

/-- UCIE_MODULE_REMOVE (R29): with the last module of a link the die fabric domains that it serves are reset. -/
def execUcieModuleRemove (link module : Nat) (s : State) : Host.Outcome State Fault Refusal :=
  s.runIf (instrWf (.ucieModuleRemove link module)) (
    if bit (s.ucieGone link) module || ucieCount link ≤ module then s
    else
      let s1 := { s with ucieOut := Map.put 0 s.ucieOut link (s.ucieGone link + 2 ^ module) }.lifeAdd 28 1
      s1.when (s1.ucieLost link) fun s =>
        let s2 := s.logFault { cls := 7, dom := 4, unit := link, kind := 8, cause := 0x15 }
        if link < 2 then s2.resetDue 4 link else (s2.resetDue 4 0).resetDue 4 1)

/-- UCIE_HASH_RESPREAD (R29): at a boundary. -/
def execUcieHashRespread (link : Nat) (s : State) : Host.Outcome State Fault Refusal :=
  s.runIf (instrWf (.ucieHashRespread link)) (
    if s.atBoundary 8 then { s with ucieHash := Map.put 0 s.ucieHash link (s.ucieGone link) } else s)

end Sys2Proof.Machine
end

