-- ==== Sys2Proof/Machine/Intake.lean ====
section
/-!
DEFINITION. Intake.lean: the commands of the intake engine: shard reads, records, samples, batches and the enable of a stream (R365
to R386).
-/

namespace Sys2Proof.Machine

/-- Change the stream of a partition. -/
def State.modStream (s : State) (p : Nat) (f : Stream → Stream) : State := s.setStream p (f (s.stream p))

/-! ### Shards (R366 to R368) -/

/-- Bytes of one read, and of a read buffer. -/
def readBytes : Nat := 262144
/-- Reads outstanding, and read buffers. -/
def readMax : Nat := 32

/-- An entry of the shard table: its four words (R367). -/
def State.shardEntry (s : State) (p k : Nat) : Option (List Nat) × State :=
  s.inkLoad p (s.fget (R.INK_S_SHARDS p) F.INK_S_SHARDS_ADDR * 64 + 32 * k) 4

/-- LENGTH of a shard, from its entry. -/
def shardLen (e : List Nat) : Nat := e.getD 2 0
/-- The I/O queue of a shard (R366, R367). -/
def shardNvq (e : List Nat) : Nat := bits (e.getD 0 0) 58 6

/-- The entry of a shard's I/O queue in the table of the engine: two words (R366). -/
def State.nvqEntry (s : State) (p : Nat) (e : List Nat) : Option (List Nat) × State :=
  s.inkLoad p (s.fget R.INK_CTRL F.INK_CTRL_NVQ_BASE * 64 + 16 * shardNvq e) 2

/-- Reads of every stream that are outstanding on an I/O queue. -/
def State.nvqUsed (s : State) (q : Nat) : Nat := sumList (s.streams.map fun x => (x.2.reads.filter fun r => r.nvq == q).length)

/-- An I/O queue takes another command: it is connected, the die of its port serves and reaches the host die, and it has room (R28, R47,
R366). -/
def State.nvqTakes (s : State) (q : Nat) (w : List Nat) : Bool :=
  let d := nvqPort w / 4
  nvqOk w && !s.fenced 4 d && s.linked d 2 && decide (s.nvqUsed q < nvqDepth w)

/-- The address of a read buffer of the stream area. -/
def State.readBuf (s : State) (p i : Nat) : Nat := s.inkArea p + 4096 + readBytes * i

/-- The lowest read buffer that neither takes a read nor holds bytes. -/
def Stream.freeBuf (x : Stream) : Option Nat :=
  firstUpTo readMax fun i => !(x.reads.any fun r => r.tag == i) && !x.bufs.any fun b => b.tag == i

/-- The shard after one in the table. -/
def State.shardAfter (s : State) (p k : Nat) : Nat :=
  if k + 1 < s.fget (R.INK_S_SHARDN p) F.INK_S_SHARDN_COUNT then k + 1 else 0

/-- The pass in which the shard after one is read; PASS wraps (R367). -/
def State.passAfter (s : State) (p pass k : Nat) : Nat := if s.shardAfter p k = 0 then (pass + 1) % 2 ^ 32 else pass

/-- The NVMe Read of a shard read goes out on its I/O queue, over the link from the host die to the die of its port (R28, R361, R366, R367);
`e` and `w` are the entries of the shard and of the queue. -/
def State.readSend (s : State) (p : Nat) (r : ShardRead) (e w : List Nat) : State :=
  let b := (lbaBytes (bits (e.getD 0 0) 54 4)).getD 512
  let n := (min readBytes (shardLen e - r.off) + b - 1) / b
  (s.carry 2 (nvqPort w / 4) (s.readBuf p r.tag / 64) 64).nvmeSend w
    { op := 2, qid := 0, nsid := bits (e.getD 0 0) 0 32, slba := e.getD 1 0 + r.off / b, blocks := n, addr := s.readBuf p r.tag, len := n * b }

/-- Issue the next read (R367). -/
def State.readIssue (s : State) (p i : Nat) (e w : List Nat) : State :=
  let x := s.stream p
  let next := x.roff + readBytes
  let r : ShardRead := { tag := i, pass := x.rpass, shard := x.rshard, off := x.roff, nvq := shardNvq e, port := nvqPort w }
  let y := { x with reads := x.reads ++ [r] }
  (s.setStream p (if next < shardLen e then { y with roff := next }
    else { y with rpass := s.passAfter p x.rpass x.rshard, rshard := s.shardAfter p x.rshard, roff := 0 })).readSend p r e w

/-- The next read of a stream, where a read buffer is free and its I/O queue takes it. -/
def State.readNext (s : State) (p : Nat) : State :=
  match s.shardEntry p (s.stream p).rshard with
  | (none, s1) => s1
  | (some e, s1) =>
    match s1.nvqEntry p e with
    | (none, s2) => s2
    | (some w, s2) =>
      match (s2.stream p).freeBuf with
      | some i => if s2.nvqTakes (shardNvq e) w && (lbaBytes (bits (e.getD 0 0) 54 4)).isSome then s2.readIssue p i e w else s2
      | none => s2

/-- SHARD_READ_ISSUE (R367). -/
def execShardReadIssue (stream : Nat) (s : State) : Host.Outcome State Fault Refusal :=
  s.runIf (instrWf (.shardReadIssue stream)) (
    if s.inkOn stream then s.work (inkUnit stream) fun s => s.readNext stream else s)

/-- PASS and SHARD of the cursor. -/
def State.cursorAt (s : State) (p : Nat) : Nat × Nat :=
  (s.fget (R.INK_S_CURSOR p) F.INK_S_CURSOR_PASS, s.fget (R.INK_S_CURSOR p) F.INK_S_CURSOR_SHARD)

/-- The cursor moves to the start of the next shard; PASS counts after the last (R367). -/
def State.cursorStep (s : State) (p : Nat) : State :=
  let c := s.cursorAt p
  let n := s.shardAfter p c.2
  let s1 := (s.fset (R.INK_S_CURSOR p) F.INK_S_CURSOR_SHARD n).fset (R.INK_S_OFFSET p) F.INK_S_OFFSET_OFFSET 0
  (s1.fset (R.INK_S_CURSOR p) F.INK_S_CURSOR_PASS (s.passAfter p c.1 c.2)).modStream p fun x =>
    { x with seek := false, bufs := x.bufs.filter fun b => (b.pass, b.shard) != c, lost := x.lost.filter fun l => l != c }

/-- The cursor passes shards that have been abandoned; at most n of them (R368). -/
def State.cursorSkip (p : Nat) : Nat → State → State
  | 0, s => s
  | n + 1, s => if (s.stream p).lost.contains (s.cursorAt p) then State.cursorSkip p n (s.cursorStep p) else s

/-- The cursor moves to the start of the next shard that is read. -/
def State.cursorNext (s : State) (p : Nat) : State :=
  State.cursorSkip p ((s.cursorStep p).stream p).lost.length (s.cursorStep p)

/-- A shard is abandoned for a pass (R368): what of it has not been decoded is left out, also where the cursor has yet to reach it. -/
def State.shardFails (s : State) (p : Nat) (r : ShardRead) : State :=
  let c := (r.pass, r.shard)
  let s1 := (s.fadd (R.INK_S_CNT p) F.INK_S_CNT_SHARD_FAIL 1).event (R.INK_S_CNT p) (some F.INK_S_CNT_SHARD_FAIL) [r.shard]
  let s2 := s1.modStream p fun x =>
    let y := { x with reads := x.reads.filter fun q => (q.pass, q.shard) != c, bufs := x.bufs.filter fun b => (b.pass, b.shard) != c }
    if (x.rpass, x.rshard) = c then
      { y with rpass := s1.passAfter p x.rpass x.rshard, rshard := s1.shardAfter p x.rshard, roff := 0 }
    else y
  if s2.cursorAt p = c then s2.cursorNext p else s2.modStream p fun x => { x with lost := x.lost ++ [c] }

/-- A read that is retried is issued again. -/
def State.readAgain (s : State) (p : Nat) (r : ShardRead) : State :=
  match s.shardEntry p r.shard with
  | (none, s1) => s1
  | (some e, s1) =>
    match s1.nvqEntry p e with
    | (none, s2) => s2
    | (some w, s2) => s2.readSend p r e w

/-- A read has failed: retried up to 3 times (R368). -/
def State.readFails (s : State) (p : Nat) (r : ShardRead) : State :=
  if r.tries < 3 then
    (s.modStream p fun x => { x with reads := x.reads.map fun q => if q.tag = r.tag then { q with tries := q.tries + 1 } else q }).readAgain
      p r
  else s.shardFails p r

/-- The read of a stream with a tag. -/
def State.readOf (s : State) (p tag : Nat) : Option ShardRead := (s.stream p).reads.find? fun r => r.tag == tag

/-- The bytes of a good read pass from the die of their port to the host die, line by line (R28). -/
def State.readCarry (s : State) (p : Nat) (r : ShardRead) (l : List Nat) : State :=
  forRange ((l.length + 63) / 64) (fun i t => t.carry (r.port / 4) 2 (s.readBuf p r.tag / 64 + i) 80) s

/-- The bytes of a good read go into their read buffer. -/
def State.readTake (s : State) (p : Nat) (r : ShardRead) (l : List Nat) : State :=
  match (s.readCarry p r l).store (Reach.intake p) (s.readBuf p r.tag) l.length (ofWords 8 l) with
  | (.ok _, s1) =>
    s1.modStream p fun x =>
      { x with reads := x.reads.filter fun q => q.tag != r.tag,
               bufs := x.bufs ++ [{ tag := r.tag, pass := r.pass, shard := r.shard, off := r.off }] }
  | (e, s1) => s1.inkError p (ldStatus e)

/-- A read completes with a status; one whose link is lost has failed (R29, R71). -/
def State.readDone (s : State) (p : Nat) (r : ShardRead) (status : Nat) (data : List Nat) : State :=
  if status ≠ 0 then s.readFails p r
  else if !s.linked (r.port / 4) 2 then (s.linkRefusal (r.port / 4) 2).readFails p r
  else s.readTake p r (data.take readBytes)

/-- NVME_COMPLETION (R367, R368): the bytes of a good read lie in its read buffer. -/
def execNvmeCompletion (stream tag status : Nat) (data : List Nat) (s : State) : Host.Outcome State Fault Refusal :=
  s.runIf (instrWf (.nvmeCompletion stream tag status data)) (
    match s.readOf stream tag with
    | none => s
    | some r => s.work (inkUnit stream) fun s => s.readDone stream r status data)

/-- SHARD_READ_TIMEOUT (R368). -/
def execShardReadTimeout (stream tag : Nat) (s : State) : Host.Outcome State Fault Refusal :=
  s.runIf (instrWf (.shardReadTimeout stream tag)) (
    match s.readOf stream tag with
    | some r => s.work (inkUnit stream) fun s => s.readFails stream r
    | none => s)

/-! ### Records (R369, R370) -/

/-- Words of the shard at the cursor from an offset on, two at a time, where its read buffers hold them. -/
def State.shardPair (s : State) (p off : Nat) : Option (List Nat) × State :=
  match (s.stream p).bufs.find? fun b => (b.pass, b.shard) == s.cursorAt p && b.off == off / readBytes * readBytes with
  | some b => s.inkLoad p (s.readBuf p b.tag + off % readBytes) 2
  | none => (none, s)

/-- The four words of the header at an offset of the shard at the cursor. -/
def State.headerAt (s : State) (p off : Nat) : Option (List Nat) × State :=
  match s.shardPair p off with
  | (none, s1) => (none, s1)
  | (some a, s1) =>
    match s1.shardPair p (off + 16) with
    | (some b, s2) => (some (a ++ b), s2)
    | (none, s2) => (none, s2)

/-- A record header from its words (R369). -/
def recHeader (ws : List Nat) : RecHdr :=
  let w (i : Nat) : Nat := ws.getD i 0
  { magic := bits (w 0) 32 32, kind := bits (w 0) 28 4, codec := bits (w 0) 24 4, rsvd := bits (w 0) 0 24, sampleId := w 1,
    storedLen := bits (w 2) 32 32, decodedLen := bits (w 2) 0 32, pcrc := bits (w 3) 32 32, hcrc := bits (w 3) 0 32 }

/-- MAGIC (R369). -/
def recMagic : Nat := 0x4E574146

/-- The words of a header have a good HCRC. -/
def hcrcOk (ws : List Nat) : Bool := crc32c ((ws.take 3).flatMap (numBytes 8)) == bits (ws.getD 3 0) 0 32

/-- MAGIC is followed by a good HCRC (R370). -/
def headerGood (ws : List Nat) : Bool := bits (ws.getD 0 0) 32 32 == recMagic && hcrcOk ws

/-- The largest STORED_LEN and DECODED_LEN. -/
def lenMax : Nat := 67108864

/-- The cause for which the header of a record is corrupt, 0 for none (R370); `room` is what the shard holds after it. -/
def headerCause (ws : List Nat) (mode room : Nat) : Nat :=
  let h := recHeader ws
  if !headerGood ws || h.rsvd != 0 || decide (lenMax < h.storedLen) || decide (room < h.storedLen) then 1
  else if 2 < h.codec then 2
  else if h.kind = 15 then 0
  else if 2 < h.kind ∨ (h.kind = 1 ∧ h.codec ≠ 0) ∨ h.kind ≠ mode then 2
  else 0

/-- The first 16-byte boundary at or after an offset. -/
def up16 (n : Nat) : Nat := (n + 15) / 16 * 16

/-- Search from an offset for a good header: where it goes on, and whether it has ended, at a header or at the end of the shard (R370). -/
def State.seekFrom (p len : Nat) : Nat → Nat → State → Nat × Bool × State
  | 0, off, s => (off, false, s)
  | n + 1, off, s =>
    if len < off + 32 then (len, true, s)
    else
      match s.headerAt p off with
      | (none, s1) => (off, false, s1)
      | (some ws, s1) => if headerGood ws then (off, true, s1) else State.seekFrom p len n (off + 16) s1

/-- The cursor moves within its shard, or to the next one where no header fits any more. -/
def State.cursorTo (s : State) (p len off : Nat) : State :=
  if len < off + 32 then s.cursorNext p
  else
    (s.fset (R.INK_S_OFFSET p) F.INK_S_OFFSET_OFFSET off).modStream p fun x =>
      { x with bufs := x.bufs.filter fun b => (b.pass, b.shard) != s.cursorAt p || decide (off < b.off + readBytes) }

/-- The search of R370 goes on as far as the read buffers reach. -/
def State.seekOn (s : State) (p len : Nat) : State :=
  if !(s.stream p).seek then s
  else
    match State.seekFrom p len (readMax * readBytes / 16) (s.fget (R.INK_S_OFFSET p) F.INK_S_OFFSET_OFFSET) s with
    | (off, true, s1) => (s1.cursorTo p len off).modStream p fun x => { x with seek := false }
    | (off, false, s1) => s1.cursorTo p len off

/-- A bad sample is counted and recorded (R379): corrupt, or timed out. -/
def State.badSample (s : State) (p id cause : Nat) (corrupt : Bool) : State :=
  let f := if corrupt then F.INK_S_CNT_CORRUPT else F.INK_S_CNT_TIMEOUT
  let s1 := (s.fadd (R.INK_S_CNT p) f 1).fset (R.INK_S_BAD p) F.INK_S_BAD_SAMPLE_ID id
  (s1.fset (R.INK_S_STATE p) F.INK_S_STATE_LAST_CAUSE cause).modStream p fun x =>
    { x with cur := x.cur.map fun b =>
        if corrupt then { b with corrupt := b.corrupt + 1 } else { b with timeout := b.timeout + 1 } }

/-- The lowest free slot among the first n. -/
def freeSlot (m : Map Sample) (n : Nat) : Option Nat := firstUpTo n fun i => (m.find? i).isNone

/-- The mean in microseconds. -/
def Stream.meanUs (x : Stream) : Nat := x.mean.getD 0 / 256

/-! ### Decoding units (R365) -/

/-- The kind of decoding unit that a sample needs: 0 a decompressor, 1 a JPEG pipeline. -/
def hdrUnit (h : RecHdr) : Option Nat := if h.kind = 1 then some 1 else if h.codec ≠ 0 then some 0 else none
/-- Decoding units of a kind. -/
def unitCount (k : Nat) : Nat := if k = 0 then 8 else 16
/-- A sample decodes with a unit of a kind, or waits for one. -/
def Sample.wants (x : Sample) (k : Nat) (has : Bool) : Bool := hdrUnit x.hdr == some k && x.unit == has && x.out.isNone
/-- Units of a kind in use. -/
def State.unitsUsed (s : State) (k : Nat) : Nat :=
  sumList (s.streams.map fun e => ((e.2.staging ++ e.2.slow).filter fun x => x.2.wants k true).length)
/-- The staging slot of the oldest sample of a stream that waits for a unit of a kind. -/
def Stream.unitAsk (x : Stream) (k : Nat) : Option Nat :=
  let l := x.staging.filter fun e => e.2.wants k false
  (l.find? fun e => l.all fun f => decide (e.2.seq ≤ f.2.seq)).map fun e => e.1
/-- A free unit takes a sample of the next stream in rotation that has one waiting. -/
def State.unitGrant (s : State) (k : Nat) : State :=
  let turn := Map.get 7 s.inkTurn k
  if unitCount k ≤ s.unitsUsed k then s
  else
    match ((List.range 8).map fun i => (turn + 1 + i) % 8).find? fun p => ((s.stream p).unitAsk k).isSome with
    | some p =>
      match (s.stream p).unitAsk k with
      | some i =>
        { s.modStream p fun x => { x with staging := x.staging.map fun (e : Nat × Sample) =>
            if e.1 = i then (e.1, { e.2 with unit := true }) else e } with inkTurn := s.inkTurn.insert k p }
      | none => s
    | none => s
/-- The units take what waits for them. -/
def State.unitGrants (s : State) : State := forRange 16 (fun _ s => s.unitGrant 1) (forRange 8 (fun _ s => s.unitGrant 0) s)

/-- A sample begins to decode in a staging slot, with its budget and hard limit (R376, R377). -/
def State.sampleStart (s : State) (p i : Nat) (h : RecHdr) (k off : Nat) : State :=
  let m := (s.stream p).meanUs
  let t (f : Fld) : Nat := s.fget (R.INK_S_TIME p) f
  let x : Sample := { hdr := h, shard := k, off := off, start := s.clk.cyc, seq := (s.stream p).taken,
                      budget := t F.INK_S_TIME_BUDGET_MULT * m,
                      hard := min (t F.INK_S_TIME_HARD_MULT * m) (t F.INK_S_TIME_HARD_MS * 1000) }
  s.modStream p fun y => { y with staging := y.staging.insert i x, taken := y.taken + 1 }

/-- The record at the cursor, whose header words are given (R369, R370, R376). -/
def State.recordAt (s : State) (p off len : Nat) (ws : List Nat) : State :=
  let h := recHeader ws
  let next := up16 (off + 32 + h.storedLen)
  let c := headerCause ws (s.inkCtl p F.INK_S_CTRL_MODE) (len - (off + 32))
  if c = 1 then
    (((s.badSample p h.sampleId 1 true).modStream p fun x => { x with seek := true }).cursorTo p len (off + 16)).seekOn p len
  else if c ≠ 0 then (s.badSample p h.sampleId c true).cursorTo p len next
  else if h.kind = 15 then s.cursorTo p len next
  else
    match freeSlot (s.stream p).staging (s.inkCtl p F.INK_S_CTRL_INFLIGHT) with
    | some i => (s.sampleStart p i h (s.cursorAt p).2 off).cursorTo p len next
    | none => s

/-- The next record of a stream, where its header is the one given. -/
def State.recordNext (s : State) (p : Nat) (hdr : RecHdr) : State :=
  match s.shardEntry p (s.cursorAt p).2 with
  | (none, s1) => s1
  | (some e, s1) =>
    let s2 := s1.seekOn p (shardLen e)
    let off := s2.fget (R.INK_S_OFFSET p) F.INK_S_OFFSET_OFFSET
    if (s2.stream p).seek || s2.cursorAt p != s1.cursorAt p then s2
    else if shardLen e < off + 32 then s2.cursorNext p
    else
      match s2.headerAt p off with
      | (some ws, s3) => if recHeader ws = hdr then s3.recordAt p off (shardLen e) ws else s3
      | (none, s3) => s3

/-- RECORD_START (R369, R370, R376): the record at the cursor, where the read buffers hold its header. -/
def execRecordStart (stream : Nat) (hdr : RecHdr) (s : State) : Host.Outcome State Fault Refusal :=
  s.runIf (instrWf (.recordStart stream hdr)) (
    if s.inkOn stream then (s.work (inkUnit stream) fun s => s.recordNext stream hdr).unitGrants else s)

/-! ### What a sample decodes to (R370 to R375) -/

/-- The outcome of decoding: a cause, or what goes into the slot, with its dimensions. -/
structure Decoded where
  cause : Nat := 0
  out : List Nat := []
  dims : Nat × Nat := (0, 0)
deriving DecidableEq, Repr

/-- Bytes from numbers. -/
def toBytes (l : List Nat) : List (BitVec 8) := l.map fun x => BitVec.ofNat 8 x

/-- The payload after its codec; none where decompression fails (R370, R371). -/
def decompress (codec : Nat) (l : List Nat) : Option (List Nat) :=
  if codec = 0 then some l else (Config.decodeBytes codec (toBytes l)).map fun r => r.map BitVec.toNat

/-- Half of a size, rounded up. -/
def half (n : Nat) : Nat := (n + 1) / 2

/-- The taps of the pyramid filter. -/
def taps : List Nat := [1, 4, 6, 4, 1]

/-- Pixel component (i, j, c) of a level of width w. -/
def pix (prev : List Nat) (w i j c : Nat) : Nat := prev.getD ((i * w + j) * 3 + c) 0

/-- An index one of the taps away, at the edges replicated. -/
def clampIdx (i a n : Nat) : Nat := min (2 * i + a - 2) (n - 1)

/-- pyr_pixel of R373 for one component. -/
def pyrPixel (prev : List Nat) (i j c w h : Nat) (bf : Bool) : Nat :=
  let term (a b : Nat) : Nat × Nat := (taps.getD a 0 * taps.getD b 0, pix prev w (clampIdx i a h) (clampIdx j b w) c)
  let ts := (List.range 5).flatMap fun a => (List.range 5).map fun b => term a b
  if bf then
    let x := ts.foldl (fun acc t => XVal.add acc (XVal.mul (XVal.ofInt (t.1 : Int)) (FF.bf16.value t.2))) XVal.zero
    (FF.bf16.convert .rne false none (XVal.mul x (.fin false 1 (-8)))).code
  else (sumList (ts.map fun t => t.1 * t.2) + 128) / 256

/-- The next level of a pyramid. -/
def pyrLevel (prev : List Nat) (w h : Nat) (bf : Bool) : List Nat :=
  (List.range (half h)).flatMap fun i => (List.range (half w)).flatMap fun j =>
    (List.range 3).map fun c => pyrPixel prev i j c w h bf

/-- Bytes of a row of a level that reserves w pixels (R373). -/
def pyrRow (w : Nat) (bf : Bool) : Nat := (w * 3 * (if bf then 2 else 1) + 63) / 64 * 64

/-- ceil(n / 2^k). -/
def ceilShift (n k : Nat) : Nat := (n + 2 ^ k - 1) / 2 ^ k

/-- Bytes of the levels of a slot (R373). -/
def pyrBytes (iw ih levels : Nat) (bf : Bool) : Nat :=
  sumList ((List.range levels).map fun k => ceilShift ih k * pyrRow (ceilShift iw k) bf)

/-- The bytes of one level: its pixels in the top left corner, everything else 0. -/
def levelBytes (px : List Nat) (w h rw rh : Nat) (bf : Bool) : List Nat :=
  (List.range rh).flatMap fun i =>
    let row := if i < h then
        (List.range (3 * w)).flatMap fun j =>
          let v := px.getD (3 * w * i + j) 0
          if bf then [v % 256, v / 256] else [v]
      else []
    row ++ List.replicate (pyrRow rw bf - row.length) 0

/-- The levels of a pyramid from level k on. -/
def pyrFrom (bf : Bool) (iw ih : Nat) : Nat → Nat → List Nat → Nat → Nat → List Nat
  | 0, _, _, _, _ => []
  | n + 1, k, px, w, h =>
    levelBytes px w h (ceilShift iw k) (ceilShift ih k) bf
      ++ pyrFrom bf iw ih n (k + 1) (pyrLevel px w h bf) (half w) (half h)

/-- The settings of a stream that decoding reads. -/
structure SlotForm where
  mode : Nat
  bytes : Nat
  levels : Nat
  bf : Bool
  iw : Nat
  ih : Nat
deriving DecidableEq, Repr

/-- A decoded image: width and height, two bytes each, then the components of its pixels (R372). -/
def imageOut (f : SlotForm) (l : List Nat) : Decoded :=
  let w := l.getD 0 0 + 256 * l.getD 1 0
  let h := l.getD 2 0 + 256 * l.getD 3 0
  if f.iw < w ∨ f.ih < h then { cause := 7 }
  else
    let px := (l.drop 4).map fun (v : Nat) => if f.bf then (FF.bf16.convert .rne false none (XVal.ofInt (Int.ofNat v))).code else v
    { out := pyrFrom f.bf f.iw f.ih f.levels 0 px w h, dims := (w, h) }

/-- What the payload of a record decodes to (R370 to R375). -/
def decodeSample (f : SlotForm) (h : RecHdr) (payload : List Nat) : Decoded :=
  if crc32c payload ≠ h.pcrc then { cause := 3 }
  else
    match decompress h.codec payload with
    | none => { cause := 4 }
    | some l =>
      if l.length ≠ h.decodedLen || decide (lenMax < l.length) then { cause := 5 }
      else if h.kind = 1 then
        match decompress 3 payload with
        | some l => imageOut f l
        | none => { cause := 6 }
      else if f.mode = 0 then
        if l.length % 4 ≠ 0 then { cause := 8 } else { out := toWords 32 (l.length / 4) (ofWords 8 l) }
      else if f.bytes < l.length then { cause := 8 }
      else { out := l, dims := (l.length, 0) }

/-- The settings of a stream. -/
def State.slotForm (s : State) (p : Nat) : SlotForm where
  mode := s.inkCtl p F.INK_S_CTRL_MODE
  bytes := s.slotBytes p
  levels := s.inkCtl p F.INK_S_CTRL_PYR_LEVELS
  bf := s.inkCtl p F.INK_S_CTRL_PYR_FMT == 1
  iw := s.fget (R.INK_S_SHAPE p) F.INK_S_SHAPE_IMG_W
  ih := s.fget (R.INK_S_SHAPE p) F.INK_S_SHAPE_IMG_H

/-! ### Placement (R374, R376, R380) -/

/-- A manifest entry (R380). -/
def manifestEntry (x : Sample) (slot : Nat) (slow cut : Bool) (info : Nat) : List Nat :=
  [x.hdr.sampleId, slot * 2 ^ 48 + b2n slow * 2 ^ 47 + b2n cut * 2 ^ 46 + x.shard % 2 ^ 32, x.off, info]

/-- Ids per sequence. -/
def State.seqLen (s : State) (p : Nat) : Nat := s.fget (R.INK_S_SHAPE p) F.INK_S_SHAPE_SEQ_LEN

/-- The address of a slot of the open batch. -/
def State.slotAddr (s : State) (p : Nat) (b : OpenBatch) : Nat := s.batchAddr p b.buf + b.filled * s.slotBytes p

/-- The open sequence is full: its boundary map is written, and it is a finished sample (R374). -/
def State.seqFull (s : State) (p : Nat) (b : OpenBatch) : OpenBatch × State :=
  ({ b with filled := b.filled + 1, pos := 0, pieces := 0, bmap := 0 },
   s.inkStore p (s.slotAddr p b + 4 * s.seqLen p) (s.seqLen p / 8) b.bmap)

/-- Fill the rest of the open sequence with PAD_ID, with the boundary bit at the first pad (R374). -/
def State.seqPad (s : State) (p : Nat) (b : OpenBatch) : OpenBatch × State :=
  let n := s.seqLen p - b.pos
  let pad := s.fget (R.INK_S_SHARDN p) F.INK_S_SHARDN_PAD_ID
  let s1 := s.inkStore p (s.slotAddr p b + 4 * b.pos) (4 * n) (ofWords 32 (List.replicate n pad))
  s1.seqFull p { b with bmap := setBits b.bmap b.pos 1 1 }

/-- Place ids of a document at the next free position; `cut` where they do not begin their document (R374). -/
def State.piece (s : State) (p : Nat) (b : OpenBatch) (x : Sample) (slow : Bool) (ids : List Nat) : OpenBatch × State :=
  let cut := x.placed != 0
  let n := ids.length
  let s1 := s.inkStore p (s.slotAddr p b + 4 * b.pos) (4 * n) (ofWords 32 ids)
  let e := manifestEntry x b.filled slow cut (b.pos * 2 ^ 48 + n % 65536 * 2 ^ 32 + x.placed)
  let b1 := { b with pos := b.pos + n, pieces := b.pieces + 1, entries := b.entries ++ [e],
                     bmap := if cut then b.bmap else setBits b.bmap b.pos 1 1 }
  if s.seqLen p ≤ b1.pos then s1.seqFull p b1 else if 64 ≤ b1.pieces then s1.seqPad p b1 else (b1, s1)

/-- Pack a document into the open batch as far as its sequences reach: the batch, the ids packed, and the state (R374). -/
def State.packDoc (p : Nat) (slow : Bool) (doc : List Nat) : Nat → State → OpenBatch → Sample → OpenBatch × Sample × State
  | 0, s, b, x => (b, x, s)
  | n + 1, s, b, x =>
    let rest := doc.drop x.placed
    let room := s.seqLen p - b.pos
    if rest = [] || decide (s.batchLen p ≤ b.filled) then (b, x, s)
    else if room < rest.length && b.pos != 0 && s.inkCtl p F.INK_S_CTRL_SPLIT == 0 && x.placed % s.seqLen p == 0 then
      let z := s.seqPad p b
      State.packDoc p slow doc n z.2 z.1 x
    else
      let ids := rest.take room
      let z := s.piece p b x slow ids
      State.packDoc p slow doc n z.2 z.1 { x with placed := x.placed + ids.length }

/-- Place a finished sample: the open batch, what is left of the sample, and the state (R374 to R376, R380). -/
def State.placeSample (s : State) (p : Nat) (b : OpenBatch) (x : Sample) (slow : Bool) : OpenBatch × Option Sample × State :=
  let out := x.out.getD []
  if s.inkCtl p F.INK_S_CTRL_MODE = 0 then
    match State.packDoc p slow out (2 * out.length + 2) s b x with
    | (b1, y, s1) => (b1, if y.placed < out.length then some y else none, s1)
  else if s.batchLen p ≤ b.filled then (b, some x, s)
  else
    let info := if s.inkCtl p F.INK_S_CTRL_MODE = 1 then x.dims.1 * 2 ^ 48 + x.dims.2 * 2 ^ 32 else x.dims.1
    let raw := s.inkCtl p F.INK_S_CTRL_MODE == 2
    let n := if raw then s.slotBytes p else out.length
    let s1 := s.inkStore p (s.slotAddr p b) n (ofWords 8 (out ++ List.replicate (n - out.length) 0))
    ({ b with filled := b.filled + 1, entries := b.entries ++ [manifestEntry x b.filled slow false info] }, none, s1)

/-- Place the finished sample of a slot, where a batch is open; slots from 256 on are slow. -/
def State.placeFrom (s : State) (p i : Nat) : State :=
  let y := s.stream p
  let slow := decide (256 ≤ i)
  match y.cur, (if slow then y.slow.find? (i - 256) else y.staging.find? i) with
  | some b, some x =>
    if x.out.isNone then s
    else
      match s.placeSample p b x slow with
      | (b1, r, s1) =>
        if !s1.inkOn p then s1
        else
          s1.modStream p fun z =>
            if slow then
              { z with cur := some b1, slow := match r with | some x1 => z.slow.insert (i - 256) x1 | none => z.slow.erase (i - 256) }
            else
              { z with cur := some b1, staging := match r with | some x1 => z.staging.insert i x1 | none => z.staging.erase i }
  | _, _ => s

/-- Of two finished samples in slots the first is placed first: one that has been placed in part, then the one that finished earlier, in one
cycle staging slots ascending and slow slots after them (R374, R376). -/
def placedFirst (a b : Nat × Sample) : Bool :=
  if a.2.placed ≠ 0 ∨ b.2.placed ≠ 0 then a.2.placed != 0
  else decide (a.2.doneAt < b.2.doneAt) || (a.2.doneAt == b.2.doneAt && decide (a.1 ≤ b.1))

/-- Slots of the finished samples in the order in which they are placed; slow slots count from 256 on. -/
def Stream.finished (x : Stream) : List Nat :=
  (((x.staging ++ x.slow.map fun (e : Nat × Sample) => (256 + e.1, e.2)).filter fun (e : Nat × Sample) => e.2.out.isSome).mergeSort
    placedFirst).map fun (e : Nat × Sample) => e.1

/-- Place every finished sample (R374, R376, R381). -/
def State.placeAll (s : State) (p : Nat) : State := (s.stream p).finished.foldl (fun s i => s.placeFrom p i) s

/-- A buffer has become free: the next batch opens where none is open, and takes the samples that wait (R381). -/
def State.inkFill (s : State) (p : Nat) : State := (s.inkOpen p).placeAll p

/-- The rolling mean times 256, in 40 bits, after a sample (R377), shown in INK_Sn_STATE. -/
def State.meanStep (s : State) (p us : Nat) : State :=
  let m := (s.stream p).mean.getD 0
  let m1 := (m - m / 256 + us) % 2 ^ 40
  (s.modStream p fun x => { x with mean := some m1 }).fset (R.INK_S_STATE p) F.INK_S_STATE_MEAN_US (min (m1 / 256) 0xFFFFFFFF)

/-- Cycles of one microsecond. -/
def cyclesPerUs : Nat := 1100

/-- A sample leaves its slot. -/
def Stream.dropSample (x : Stream) (i : Nat) : Stream :=
  if 256 ≤ i then { x with slow := x.slow.erase (i - 256) } else { x with staging := x.staging.erase i }

/-- The sample in a slot. -/
def Stream.sample? (x : Stream) (i : Nat) : Option Sample := if 256 ≤ i then x.slow.find? (i - 256) else x.staging.find? i

/-- Replace the sample in a slot. -/
def Stream.putSample (x : Stream) (i : Nat) (y : Sample) : Stream :=
  if 256 ≤ i then { x with slow := x.slow.insert (i - 256) y } else { x with staging := x.staging.insert i y }

/-- A sample ends its decode (R370, R376, R377). -/
def State.sampleEnds (s : State) (p i : Nat) (x : Sample) (payload : List Nat) : State :=
  let d := decodeSample (s.slotForm p) x.hdr payload
  if d.cause ≠ 0 then (s.badSample p x.hdr.sampleId d.cause true).modStream p fun y => y.dropSample i
  else
    let s1 := s.when (decide (i < 256)) fun s => s.meanStep p ((s.clk.cyc - x.start) / cyclesPerUs)
    (s1.modStream p fun y => y.putSample i { x with out := some d.out, dims := d.dims, doneAt := s.clk.cyc }).placeAll p

/-- A sample may finish: it decodes, with the unit that it needs (R365). -/
def Sample.decoding (x : Sample) : Bool := x.out.isNone && (x.unit || (hdrUnit x.hdr).isNone)

/-- SAMPLE_FINISH (R365, R370, R376). -/
def execSampleFinish (stream slot : Nat) (payload : List Nat) (s : State) : Host.Outcome State Fault Refusal :=
  s.runIf (instrWf (.sampleFinish stream slot payload)) (
    match (s.stream stream).sample? slot with
    | some x =>
      if !x.decoding || payload.length != x.hdr.storedLen then s
      else (s.work (inkUnit stream) fun s => s.sampleEnds stream slot x payload).unitGrants
    | none => s)

/-- A sample is abandoned (R378, R379). -/
def State.abandon (s : State) (p i cause : Nat) (x : Sample) : State :=
  (s.badSample p x.hdr.sampleId cause false).modStream p fun y => y.dropSample i

/-- SAMPLE_BUDGET (R378). -/
def execSampleBudget (stream slot : Nat) (s : State) : Host.Outcome State Fault Refusal :=
  s.runIf (instrWf (.sampleBudget stream slot)) (
    match (s.stream stream).sample? slot with
    | some x =>
      if x.out.isSome || decide (x.hard ≤ x.budget) then s
      else
        match freeSlot (s.stream stream).slow (s.inkCtl stream F.INK_S_CTRL_SLOW_SLOTS) with
        | some k =>
          (s.modStream stream fun y => (y.dropSample slot).putSample (256 + k) x).fadd (R.INK_S_CNT stream) F.INK_S_CNT_SLOW 1
        | none => (s.abandon stream slot 0xA x).unitGrants
    | none => s)

/-- SAMPLE_HARD_LIMIT (R378). -/
def execSampleHardLimit (stream slot : Nat) (s : State) : Host.Outcome State Fault Refusal :=
  s.runIf (instrWf (.sampleHardLimit stream slot)) (
    match (s.stream stream).sample? slot with
    | some x => if x.out.isSome then s else (s.abandon stream slot 9 x).unitGrants
    | none => s)

/-! ### Batches (R380, R381) -/

/-- The words of a manifest (R380). -/
def State.manifestWords (s : State) (p : Nat) (b : OpenBatch) : List Nat :=
  let cursor := s.fget (R.INK_S_CURSOR p) F.INK_S_CURSOR_SHARD * 2 ^ 32 + s.fget (R.INK_S_CURSOR p) F.INK_S_CURSOR_PASS
  [b.seq, 2 ^ 64 - 1, b.entries.length * 2 ^ 32 + b.filled, b.corrupt * 2 ^ 32 + b.timeout, cursor,
   s.fget (R.INK_S_OFFSET p) F.INK_S_OFFSET_OFFSET, 0, 0] ++ b.entries.flatMap id

/-- A full batch closes: its manifest is written, and the next batch opens where a buffer is free (R381). An error response stops the
stream, and the batch does not close (R386). -/
def State.batchCloses (s : State) (p : Nat) (b : OpenBatch) : State :=
  let ws := s.manifestWords p b
  match s.store (Reach.intake p) (s.manifestAddr p b.buf) (8 * ws.length) (ofWords 64 ws) with
  | (.ok _, s1) => (s1.modStream p fun x => { x with cur := none, closed := x.closed ++ [(b.seq, b.buf)] }).inkFill p
  | (e, s1) => s1.inkError p (ldStatus e)

/-- BATCH_CLOSE (R381). -/
def execBatchClose (stream : Nat) (s : State) : Host.Outcome State Fault Refusal :=
  s.runIf (instrWf (.batchClose stream)) (
    match (s.stream stream).cur with
    | some b => if b.filled < s.batchLen stream then s else s.work (inkUnit stream) fun s => s.batchCloses stream b
    | none => s)

/-- BATCH_READY (R381). -/
def execBatchReady (stream : Nat) (s : State) : Host.Outcome State Fault Refusal :=
  s.runIf (instrWf (.batchReady stream)) (
    match (s.stream stream).closed with
    | e :: l => (s.modStream stream fun x => { x with closed := l, ready := x.ready ++ [e] }).inkShow stream
    | [] => s)

/-! ### The enable of a stream (R386) -/

/-- The fields that a stream uses hold no reserved value, and its slot is large enough (R373, R386). -/
def State.inkFormOk (s : State) (p : Nat) : Bool :=
  let f := s.slotForm p
  let n := s.seqLen p
  decide ((s.cursorAt p).2 < s.fget (R.INK_S_SHARDN p) F.INK_S_SHARDN_COUNT) && f.bytes != 0
    && (match f.mode with
        | 0 => decide (16 ≤ n) && decide (n ≤ 32768) && n % 16 == 0 && decide (4 * n + n / 8 ≤ f.bytes)
        | 1 => f.iw != 0 && decide (f.iw ≤ 16384) && f.ih != 0 && decide (f.ih ≤ 16384)
          && decide (pyrBytes f.iw f.ih f.levels f.bf ≤ f.bytes)
        | _ => true)

/-- A stream starts: reading begins at its cursor (R384, R386). -/
def State.inkStart (s : State) (p : Nat) : State :=
  let s1 := (s.fset (R.INK_S_CTRL p) F.INK_S_CTRL_EN 1).fset (R.INK_S_STATE p) F.INK_S_STATE_ERR 0
  let m := (s1.stream p).mean.getD (256 * s1.fget (R.INK_S_TIME p) F.INK_S_TIME_INIT_MEAN_US)
  let s2 := s1.modStream p fun x =>
    { x with rpass := (s1.cursorAt p).1, rshard := (s1.cursorAt p).2, lost := [],
             roff := s1.fget (R.INK_S_OFFSET p) F.INK_S_OFFSET_OFFSET / readBytes * readBytes, mean := some m }
  (s2.fset (R.INK_S_STATE p) F.INK_S_STATE_MEAN_US (min (m / 256) 0xFFFFFFFF)).inkFill p

/-- A stream stops: its reads, staging and slow samples are discarded, and its batches stay (R386). -/
def State.inkStop (s : State) (p : Nat) : State :=
  (s.fset (R.INK_S_CTRL p) F.INK_S_CTRL_EN 0).modStream p fun x =>
    { x with reads := [], bufs := [], lost := [], staging := [], slow := [], seek := false }

end Sys2Proof.Machine
end

