-- ==== Sys2Proof/Machine/TensorOps.lean ====
section
/-!
DEFINITION. TensorOps.lean: tensors in unified memory: elements, fawns, records and write maps of a slot, and their access by
tiles, step schedulers and collective engines (R84, R85, R89, R164, R210, R211).
-/

namespace Sys2Proof.Machine

/-- Go on with an access unless an earlier one failed. -/
def andThen (a : Ld × State) (f : State → Ld × State) : Ld × State := if a.1.isOk then f a.2 else a

/-- Accesses one after another until one fails. -/
def accessAll {α : Type} (l : List α) (f : α → State → Ld × State) (s : State) : Ld × State :=
  l.foldl (fun a x => andThen a (f x)) (.ok 0, s)

/-- A tensor slot: its descriptor and the offset of the slot. -/
structure Ten where
  d : Desc
  off : Nat := 0
deriving DecidableEq, Repr

/-- The slot with a number. -/
def Desc.ten (d : Desc) (slot : Nat) : Ten := { d := d, off := if slot = 1 then d.voff else 0 }

/-- Element (i, j) exists (R85). -/
def Ten.holds (t : Ten) (i j : Nat) : Bool := decide (i < t.d.rows) && decide (j < t.d.n0)
/-- The byte address at which row i begins. -/
def Ten.rowAddr (t : Ten) (i : Nat) : Nat := t.d.base + t.off + t.d.rowOff i
/-- The byte address of element (i, j). -/
def Ten.addr (t : Ten) (i j : Nat) : Nat := t.rowAddr i + j * fmtBits t.d.fmt / 8
/-- The byte address of the fawn of element (i, j) (R164). -/
def Ten.fawnAddr (t : Ten) (i j : Nat) : Nat := t.d.fawnPtr + t.off + j + t.d.rowOff i / 2
/-- Block columns of the tensor. -/
def Ten.blkCols (t : Ten) : Nat := blocks16 t.d.n0
/-- Block rows of the tensor. -/
def Ten.blkRows (t : Ten) : Nat := blocks16 t.d.rows
/-- The byte address of the record of block b, in the order of R85. -/
def Ten.recAddr (t : Ten) (b : Nat) : Nat := t.d.scalePtr + t.off + 2 * b
/-- The byte address of the write-map byte of block b (R210). -/
def Ten.mapAddr (t : Ten) (b : Nat) : Nat := t.d.scalePtr + t.off + t.d.mapOff + b / 4
/-- The number of a block. -/
def Ten.blk (t : Ten) (bi bj : Nat) : Nat := bi * t.blkCols + bj
/-- The row and column of the element with a logical index (R100). -/
def Ten.pos (t : Ten) (x : Nat) : Nat × Nat := (x / t.d.n0, x % t.d.n0)
/-- The number of elements. -/
def Ten.size (t : Ten) : Nat := t.d.n0 * t.d.rows

/-- Load the codes of n elements of row i from column j on. -/
def State.loadRow (s : State) (r : Reach) (t : Ten) (i j n : Nat) : Option (List Nat) × Ld × State :=
  let w := fmtBits t.d.fmt
  let lo := j * w / 8
  let hi := ((j + n) * w + 7) / 8
  match s.load r (t.rowAddr i + lo) (hi - lo) with
  | (.ok v, s1) => (some ((List.range n).map fun k => bits v ((j + k) * w - 8 * lo) w), .ok 0, s1)
  | (e, s1) => (none, e, s1)

/-- The number that codes of w bits spell, first code lowest. -/
def packCodes (w : Nat) : List Nat → Nat
  | [] => 0
  | c :: r => c % 2 ^ w + 2 ^ w * packCodes w r

/-- Store the codes of elements of row i from column j on. Half a byte that the codes do not cover keeps its value, but the
unused half of the last byte of a row becomes 0 (R78). -/
def State.storeRow (s : State) (r : Reach) (t : Ten) (i j : Nat) (codes : List Nat) : Ld × State :=
  let w := fmtBits t.d.fmt
  let n := codes.length
  let lo := j * w / 8
  let hi := ((j + n) * w + 7) / 8
  let v := packCodes w codes
  if n = 0 then (.ok 0, s)
  else if w ≠ 4 then State.storeN r t.d.savedAct ((hi - lo) / 64 + 2) s (t.rowAddr i + lo) (hi - lo) v
  else
    match s.load r (t.rowAddr i + lo) (hi - lo) with
    | (.ok old, s1) =>
      let old1 := if (j + n) % 2 = 1 ∧ j + n = t.d.n0 then setBits old ((j + n) * 4 - 8 * lo) 4 0 else old
      State.storeN r t.d.savedAct ((hi - lo) / 64 + 2) s1 (t.rowAddr i + lo) (hi - lo)
        (setBits old1 (j * 4 - 8 * lo) (4 * n) v)
    | (e, s1) => (e, s1)

/-- Load the fawns of n elements of row i from column j on. -/
def State.loadFawns (s : State) (r : Reach) (t : Ten) (i j n : Nat) : Option (List Nat) × Ld × State :=
  match s.load r (t.fawnAddr i j) n with
  | (.ok v, s1) => (some ((List.range n).map fun k => bits v (8 * k) 8), .ok 0, s1)
  | (e, s1) => (none, e, s1)

/-- Store the fawns of elements of row i from column j on. -/
def State.storeFawns (s : State) (r : Reach) (t : Ten) (i j : Nat) (codes : List Nat) : Ld × State :=
  State.storeN r t.d.savedAct (codes.length / 64 + 2) s (t.fawnAddr i j) codes.length (packCodes 8 codes)

/-- Load the record of a block; a tensor without records reads 0x7F00 (R173). -/
def State.loadRec (s : State) (r : Reach) (t : Ten) (b : Nat) : Option Nat × Ld × State :=
  if t.d.scalePtr = 0 then (some 0x7F00, .ok 0, s)
  else
    match s.load r (t.recAddr b) 2 with
    | (.ok v, s1) => (some v, .ok 0, s1)
    | (e, s1) => (none, e, s1)

/-- Store the record of a block. -/
def State.storeRec (s : State) (r : Reach) (t : Ten) (b v : Nat) : Ld × State :=
  State.storeN r t.d.savedAct 2 s (t.recAddr b) 2 v

/-- The atomic update of a block's record, and of its map pair in an FP8 tensor (R89, R211). -/
def State.mergeBlock (s : State) (r : Reach) (t : Ten) (b st mapBits : Nat) : Ld × State :=
  if t.d.scalePtr = 0 then (.ok 0, s)
  else
    match s.load r (t.recAddr b) 2 with
    | (.ok v, s1) =>
      if fmtFp8 t.d.fmt then
        match s1.load r (t.mapAddr b) 1 with
        | (.ok m, s2) =>
          match s2.storeRec r t b (mergeWord v st) with
          | (.ok _, s3) => State.storeN r t.d.savedAct 2 s3 (t.mapAddr b) 1 (m ||| (mapBits % 4) <<< (2 * (b % 4)))
          | e => e
        | e => e
      else s1.storeRec r t b (mergeWord v st)
    | e => e

/-- HIGH of R211 for one code. -/
def codeHigh (f : Fmt) (code : Nat) : Bool :=
  let m := code % 128
  match f with
  | .e4m3 => decide (0x6E ≤ m) && m != 0x7F
  | .e5m2 => decide (0x73 ≤ m ∧ m < 0x7C)
  | _ => false

/-- The map pair that codes written into a block give (R211). -/
def mapPair (f : Fmt) (codes : List Nat) : Nat := 1 + 2 * b2n (codes.any (codeHigh f))

/-- The value of an element code under the record of its block (R83, R88). -/
def elemValue (f : Fmt) (rec code : Nat) : XVal :=
  if recScale rec = 0xFF then .nan else if fmtFp8 f then rescale (recScale rec) (fmtValue f code) else fmtValue f code

end Sys2Proof.Machine
end

