-- ==== Sys2Proof/Machine/TileOps.lean ====
section
/-!
DEFINITION. TileOps.lean: the running segment of a tile: which instruction may issue, its credits and waits, its completion, its
faults, the gang members that execute it, and the semaphore units (R130, R151, R170, R183 to R190, R199, R404, R462).
-/

namespace Sys2Proof.Machine

/-- Change a tile. -/
def State.modTile (s : State) (t : Nat) (f : Tile → Tile) : State := s.setTile t (f (s.tile t))

/-! ### Program order (R183) -/

/-- The instruction with an index. -/
def Run.ins (r : Run) (i : Nat) : Option TIns := r.img.code[i]?.bind tileDecode
/-- An engine's code, 4 for the dispatcher. -/
def placeCode : Option Engine → Nat
  | some e => engineCode e
  | none => 4
/-- Who executes the instruction with an index. -/
def Run.insCode (r : Run) (i : Nat) : Nat :=
  match r.ins i with
  | some x => placeCode (tinsEngine x)
  | none => 4
/-- The instruction has been issued, or has taken effect in the dispatcher. -/
def Run.issued (r : Run) (i : Nat) : Bool := decide (i < r.next.getD (r.insCode i) 0)
/-- Instructions before an index that have not issued. -/
def Run.behind (r : Run) (i : Nat) : List Nat := (List.range i).filter fun j => !r.issued j
/-- The dispatcher can have passed every instruction before an index: each engine's queue holds 16 (R183). -/
def Run.reached (r : Run) (i : Nat) : Bool :=
  let w := r.behind i
  w.all (fun j => r.insCode j != 4) && (List.range 4).all fun e => decide ((w.filter fun j => r.insCode j == e).length ≤ 16)

/-- The instructions in flight on an engine, oldest first. -/
def Run.flights (r : Run) : Engine → List Flight
  | .dma => r.dma
  | .array => r.array
  | .vector => r.vector
  | .store => r.store
/-- Replace the instructions in flight on an engine. -/
def Run.setFlights (r : Run) (e : Engine) (l : List Flight) : Run :=
  match e with
  | .dma => { r with dma := l }
  | .array => { r with array := l }
  | .vector => { r with vector := l }
  | .store => { r with store := l }

/-- The engine stalls at a SEMWAIT that has not been granted (R189). -/
def Run.stalled (r : Run) (e : Engine) : Bool := (r.flights e).any fun f => f.kind == .semWait && !f.ready

/-! ### Register order (R186) -/

/-- The key of row n of a data register. -/
def rowKey (n r : Nat) : Nat := 16 * n + r
/-- Rows of a data register. -/
def rowKeys (n vr : Nat) : List Nat := (List.range vr).map fun r => rowKey n r
/-- Rows of a mask register. -/
def maskKeys (n vr : Nat) : List Nat := (List.range vr).map fun r => 512 + 16 * n + r
/-- A scalar register. -/
def scalarKey (n : Nat) : Nat := 1024 + n
/-- The scalars of a key group. -/
def groupKeys (g : Nat) : List Nat := [scalarKey (4 * g), scalarKey (4 * g + 1), scalarKey (4 * g + 2), scalarKey (4 * g + 3)]
/-- The scalars of an origin. -/
def originKeys (j : Nat) : List Nat := [scalarKey (2 * j), scalarKey (2 * j + 1)]
/-- Rows of eight data registers from 8 q on. -/
def octetKeys (q : Nat) : List Nat := (List.range 8).flatMap fun i => rowKeys (8 * q + i) 16

/-- What a source field reads. -/
def srcKeys (v : VSrc) (vr : Nat) : List Nat := if v.scl then [scalarKey v.reg] else rowKeys v.reg vr

/-- The mask that an instruction reads. -/
def menKeys (men : Bool) (mask vr : Nat) : List Nat := if men then maskKeys mask vr else []

/-- The rows, masks and scalars that an instruction reads; `p` is the parameter slot that an MMUL names. -/
def readKeys (p : PSlot) : TIns → List Nat
  | .vbase _ n => [scalarKey n]
  | .mov _ o => originKeys o.org
  | .mmul o =>
    (if o.sr || o.pg then groupKeys o.keygrp else [])
      ++ (if o.init == .load && p.lkind == .regs then
            octetKeys (bits p.lsrc 4 2) ++ (if p.lpair then octetKeys (bits p.lsrc 2 2) else [])
          else [])
  | .vec op o =>
    let m (v : VSrc) : List Nat := maskKeys v.reg o.vr
    menKeys o.men o.mask o.vr ++ (if o.sr then groupKeys o.keygrp else [])
      ++ (match op with
          | .sel => srcKeys o.a o.vr ++ srcKeys o.b o.vr ++ m o.c
          | .mand => m o.a ++ m o.b
          | .mor => m o.a ++ m o.b
          | .mxor => m o.a ++ m o.b
          | .mandn => m o.a ++ m o.b
          | .mnot => m o.a
          | .padd => rowKeys o.dst o.vr ++ srcKeys o.a o.vr ++ srcKeys o.b o.vr ++ (if o.subFawn then srcKeys o.c o.vr else [])
          | .fma => srcKeys o.a o.vr ++ srcKeys o.b o.vr ++ srcKeys o.c o.vr
          | _ => srcKeys o.a o.vr ++ srcKeys o.b o.vr)
  | .cvt o =>
    menKeys o.men o.mask o.vr ++ (if o.sr then groupKeys o.keygrp else [])
      ++ (if o.smem || o.dmem then originKeys o.org else []) ++ (if o.smem then [] else rowKeys o.src o.vr)
  | .red op o =>
    menKeys o.men o.mask o.vr ++ (if o.sr then groupKeys o.keygrp else [])
      ++ (match op with
          | .red .popc => maskKeys o.src o.vr
          | .red _ => rowKeys o.src o.vr
          | .permc => rowKeys o.src o.vr ++ rowKeys o.idx o.vr
          | .permr => rowKeys o.src o.vr ++ rowKeys o.idx o.vr)
  | .summ o =>
    menKeys o.men o.mask o.vr
      ++ (match o.kind with
          | 0 => [scalarKey o.reg]
          | 1 => (List.range o.k).flatMap fun i => rowKeys (o.reg + i) o.vr
          | 2 => (List.range o.k).flatMap fun i => rowKeys (o.reg + i) o.vr
          | 3 => maskKeys o.reg o.vr
          | _ => [])
  | _ => []

/-- The rows, masks and scalars that an instruction writes. -/
def writeKeys : TIns → List Nat
  | .mmul o =>
    if o.okind == .regs then octetKeys (bits o.out 4 2) ++ (if o.pair then octetKeys (bits o.out 2 2) else []) else []
  | .vec op o =>
    match op with
    | .cmp _ => maskKeys o.dst o.vr
    | .icmp _ => maskKeys o.dst o.vr
    | .mand => maskKeys o.dst o.vr
    | .mor => maskKeys o.dst o.vr
    | .mxor => maskKeys o.dst o.vr
    | .mandn => maskKeys o.dst o.vr
    | .mnot => maskKeys o.dst o.vr
    | .padd => rowKeys o.dst o.vr ++ rowKeys o.a.reg o.vr
    | _ => rowKeys o.dst o.vr
  | .cvt o => if o.dmem then [] else rowKeys o.dst o.vr
  | .red op o =>
    match op, o.axis with
    | .red _, .row => rowKeys o.dst o.vr
    | .red _, .col => [rowKey o.dst o.dpos]
    | .red _, .all => [scalarKey o.dst]
    | _, _ => rowKeys o.dst o.vr
  | _ => []

/-- Parameter slots as they stand for the instruction with an index (R175). -/
def Run.slotsAt (r : Run) (i : Nat) : List PSlot :=
  match (r.pslots.filter fun e => decide (e.1 < i)).getLast? with
  | some e => e.2
  | none => defaultSlots
/-- The parameter slot that the instruction with an index uses. -/
def Run.slotOf (r : Run) (i : Nat) (x : TIns) : PSlot :=
  match x with
  | .mmul o => (r.slotsAt i).getD o.pslot {}
  | _ => {}
/-- The views of member m as they stand for the instruction with an index (R171). -/
def Run.viewsAt (r : Run) (i m : Nat) : List View :=
  r.vbases.foldl
    (fun vs e => if e.1 < i then setAt vs e.2.1 { (vs.getD e.2.1 {}) with base := e.2.2.getD m 0 } else vs) r.img.views

/-- Instructions before an index that have issued and have still to make their writes. -/
def Run.heldBefore (r : Run) (i : Nat) : List Nat :=
  ((r.dma ++ r.array ++ r.vector ++ r.store).filter fun f => f.held.isSome && decide (f.idx < i)).map fun f => f.idx
/-- No earlier instruction that has still to make its writes writes what this one reads (R186). -/
def Run.readClear (r : Run) (i : Nat) (x : TIns) : Bool :=
  let rd := readKeys (r.slotOf i x) x
  (r.behind i ++ r.heldBefore i).all fun j =>
    match r.ins j with
    | some y => (writeKeys y).all fun k => !rd.contains k
    | none => true
/-- No earlier instruction that has still to issue, or to make its writes, reads or writes what this one writes (R186). -/
def Run.writeClear (r : Run) (i : Nat) (x : TIns) : Bool :=
  let wr := writeKeys x
  (r.behind i ++ r.heldBefore i).all fun j =>
    match r.ins j with
    | some y => (writeKeys y).all (fun k => !wr.contains k) && (readKeys (r.slotOf j y) y).all fun k => !wr.contains k
    | none => true
/-- An instruction may read and write its registers now. -/
def Run.clear (r : Run) (i : Nat) (x : TIns) : Bool := r.readClear i x && r.writeClear i x

/-! ### Credits (R170, R185) -/

/-- WAIT of an instruction. -/
def tinsWait : TIns → Cred
  | .mov _ o => o.wait
  | .mmul o => o.wait
  | .cvt o => o.wait
  | .col _ o => o.wait
  | _ => credOff
/-- POST of an instruction. -/
def tinsPost : TIns → Cred
  | .mov _ o => o.post
  | .mmul o => o.post
  | .cvt o => o.post
  | _ => credOff
/-- The number of the queue from a producer to a consumer, as TIL_CRED numbers it. -/
def credIdx (p c : Nat) : Nat := 3 * p + (if c < p then c else c - 1)
/-- A credit count. -/
def Run.cred (r : Run) (p c : Nat) : Nat := r.creds.getD (credIdx p c) 0
/-- Take credits. -/
def Run.take (r : Run) (p c n : Nat) : Run := { r with creds := setAt r.creds (credIdx p c) (r.cred p c - n) }
/-- Add credits; none where a count would pass 31. -/
def Run.give (r : Run) (p : Nat) : List (Engine × Nat) → Option Run
  | [] => some r
  | (c, n) :: l =>
    let v := r.cred p (engineCode c) + n
    if 31 < v then none else Run.give { r with creds := setAt r.creds (credIdx p (engineCode c)) v } p l
/-- The four counts of a CWAIT or CPOST by engine. -/
def countList (n : Counts) : List (Engine × Nat) :=
  [(Engine.dma, n.dma), (.array, n.array), (.vector, n.vector), (.store, n.store)].filter fun e => e.2 != 0

/-! ### The end of a segment by fault or timeout (R199, R200) -/

/-- The flag of TIL_SEG_STATUS that a FAULT_CAUSE sets. -/
def causeFlag : Nat → Option Fld
  | 1 => some F.TIL_SEG_STATUS_ILLEGAL
  | 2 => some F.TIL_SEG_STATUS_DESC_BAD
  | 3 => some F.TIL_SEG_STATUS_ADDR_ERR
  | 5 => some F.TIL_SEG_STATUS_SCALE_BAD
  | 6 => some F.TIL_SEG_STATUS_CRED_OVF
  | 7 => some F.TIL_SEG_STATUS_SEM_FAULT
  | 8 => some F.TIL_SEG_STATUS_VIEW_RANGE
  | 9 => some F.TIL_SEG_STATUS_TRAP
  | 0xA => some F.TIL_SEG_STATUS_REC_ALIGN
  | 0xB => some F.TIL_SEG_STATUS_SEG_HANG
  | _ => none

/-- Record a fault in TIL_SEG_STATUS. -/
def State.segRecord (s : State) (t segId idx cause : Nat) : State :=
  let s1 := ((s.fset (R.TIL_SEG_STATUS t) F.TIL_SEG_STATUS_FAULT_SEG_ID segId).fset (R.TIL_SEG_STATUS t)
    F.TIL_SEG_STATUS_FAULT_INDEX idx).fset (R.TIL_SEG_STATUS t) F.TIL_SEG_STATUS_FAULT_CAUSE cause
  match causeFlag cause with
  | some f => s1.fset (R.TIL_SEG_STATUS t) f 1
  | none => s1

/-- The job that a context runs. -/
def State.jobOf (s : State) (ctx : Nat) : Nat := (Map.get { part := 0 } s.ctxs ctx).job

/-- A fault of a tile attributed to the job of a context; `log` is the cause in the fault log. -/
def State.tileFault (s : State) (t segId idx cause log arg ctx : Nat) : State :=
  (s.segRecord t segId idx cause).jobFault
    { unit := t, kind := 1, cause := log, segId := segId, index := idx, arg := arg, ctx := ctx, job := s.jobOf ctx,
      part := (s.partOfTile t).getD 0 }

/-- The running segment ends with a fault attributed to the job (R199). -/
def State.segFault (s : State) (t : Nat) (r : Run) (idx cause log arg : Nat) : State :=
  (s.stopRun t).tileFault t r.img.segId idx cause log arg r.ctx

/-- The running segment ends by a timeout, and its task with TIMEOUT (R199, R200). -/
def State.segTimeout (s : State) (t : Nat) (r : Run) (idx : Nat) : State :=
  (((s.stopRun t).segRecord t r.img.segId idx 0xC).segReport t r.img.segId 6).segTask (t / 12) 6

/-- The end of a segment by what a memory access answered: an address decode error, a line that could not be read, which is
reported as one (R36, R407), or a timeout. -/
def State.segLd (s : State) (t : Nat) (r : Run) (idx : Nat) (e : Ld) : State :=
  match e with
  | .ok _ => s
  | .decode => s.segFault t r idx 3 3 0
  | .data => s.segFault t r idx 3 0x14 0
  | .timeout => s.segTimeout t r idx
  | .wait _ => s

/-! ### Sampling (R462) -/

/-- The instruction with an index is due for a tag. -/
def State.tagDue (s : State) (t : Nat) (r : Run) (idx : Nat) : Bool :=
  let p := s.fget (R.PMC_SMP_CTL t) F.PMC_SMP_CTL_PERIOD + 1
  s.fbit (R.PMC_SMP_CTL t) F.PMC_SMP_CTL_EN && !s.fbit R.PKG_PMC_CTL F.PKG_PMC_CTL_FREEZE
    && bit (s.fget (R.PMC_SMP_CTL t) F.PMC_SMP_CTL_CLASSES) (wordClass (r.img.code.getD idx 0))
    && ((s.tile t).sampCount + s.sampled t r (idx + 1)) % p == 0
/-- Write a sampling record (R462, R463): `eaddr` has TSPACE in bit 63. -/
def State.sampWrite (s : State) (t : Nat) (r : Run) (f : Flight) (eaddr wait lat : Nat) : State :=
  let q := R.PMC_SMP_PTR t
  let fill := s.fget q F.PMC_SMP_PTR_FILL
  let wr := s.fget q F.PMC_SMP_PTR_WR
  if fill = 1024 ∧ ¬ s.fbit (R.PMC_SMP_CTL t) F.PMC_SMP_CTL_WRAP then s.fadd q F.PMC_SMP_PTR_DROPPED 1
  else
    let w0 := r.img.segId * 2 ^ 48 + f.idx * 2 ^ 36 + f.cls * 2 ^ 32 + f.op * 2 ^ 24 + r.ctx * 2 ^ 16
    let w2 := min wait (2 ^ 32 - 1) * 2 ^ 32 + min lat (2 ^ 32 - 1)
    let ws := [w0, eaddr, w2, s.tick]
    let s1 := s.modTile t fun x =>
      { x with samp := forRange 4 (fun i m => Map.put 0 m (4 * wr + i) (ws.getD i 0)) x.samp }
    let s2 := s1.fset q F.PMC_SMP_PTR_WR ((wr + 1) % 1024)
    if fill = 1024 then s2.fset q F.PMC_SMP_PTR_RD ((s.fget q F.PMC_SMP_PTR_RD + 1) % 1024)
    else
      let s3 := s2.fset q F.PMC_SMP_PTR_FILL (fill + 1)
      let th := s.fget (R.PMC_SMP_CTL t) F.PMC_SMP_CTL_THRESH
      s3.when (th != 0 && fill + 1 == 64 * th) fun s => s.event q (some F.PMC_SMP_PTR_FILL) []

/-! ### Issue and completion -/

/-- The instruction with an index is `x`, and what it reads and the order of its engine let it issue now. -/
def Run.mayIssue (r : Run) (idx : Nat) (x : TIns) : Bool :=
  let c := placeCode (tinsEngine x)
  let w := tinsWait x
  r.ins idx == some x && !r.issued idx && r.reached idx && (r.behind idx).all (fun j => r.insCode j != c)
    && r.readClear idx x
    && (match tinsEngine x with
        | some e => !r.stalled e && (!w.en || decide (1 ≤ r.cred (engineCode w.engine) c))
        | none => true)

/-- An earlier move of an engine has still to make its writes. -/
def Run.heldOn (r : Run) (e : Engine) : Bool := (r.flights e).any fun f => f.held.isSome
/-- A move stays behind an earlier one of its engine that has still to make its writes, so that their accesses take effect in program order
(R187). -/
def Run.queues (r : Run) (x : TIns) : Bool :=
  match x, tinsEngine x with
  | .mov _ _, some e => r.heldOn e
  | _, _ => false

/-- The instruction with an index is `x` and can issue now on its engine and make its writes, or take effect in the dispatcher. -/
def Run.canIssue (r : Run) (idx : Nat) (x : TIns) : Bool := r.mayIssue idx x && r.writeClear idx x && !r.queues x

/-- The run once an instruction has issued: its WAIT credit is taken. -/
def Run.issue (r : Run) (idx : Nat) (x : TIns) : Run :=
  let c := placeCode (tinsEngine x)
  let w := tinsWait x
  let r1 := { r with next := setAt r.next c (idx + 1), lastIdx := max r.lastIdx idx }
  if w.en then r1.take (engineCode w.engine) c 1 else r1

/-- Issue an instruction of the running segment of a tile: `f` carries it out, given the run after its issue, and `g` where its writes
must wait (R186, R187). -/
def State.issueOr (s : State) (t idx : Nat) (x : TIns) (f g : Run → State → State) : State :=
  match (s.tile t).run with
  | some r =>
    let s1 := s.modTile t fun y => { y with run := some (r.issue idx x) }
    if r.canIssue idx x then f (r.issue idx x) s1
    else if r.mayIssue idx x && (writeKeys x != [] || r.queues x) then g (r.issue idx x) s1
    else s
  | none => s

/-- Issue an instruction that writes no registers. -/
def State.issue (s : State) (t idx : Nat) (x : TIns) (f : Run → State → State) : State := s.issueOr t idx x f fun _ s => s

/-- Change the run of a tile. -/
def State.modRun (s : State) (t : Nat) (f : Run → Run) : State :=
  s.modTile t fun x => { x with run := x.run.map f }

/-- Put an issued instruction in flight: POST at completion, or EARLY now (R170), and its tag (R462). A post that passes 31 ends
the segment with CRED_OVF (R185). -/
def State.launch (s : State) (t idx : Nat) (x : TIns) (kind : FlightKind) (ready : Bool) (posts : List (Engine × Nat))
    (drain : Option Nat) (eaddr : Nat) : State :=
  match (s.tile t).run, tinsEngine x with
  | some r, some e =>
    let due := s.tagDue t r idx
    let tag := due && decide ((s.tile t).sampFlight < 4)
    let w := r.img.code.getD idx 0
    let f : Flight := { idx := idx, cls := wordClass w, op := bits w 52 8, kind := kind, ready := ready, drain := drain,
                        posts := posts ++ (if (tinsPost x).en && !(tinsPost x).early then [((tinsPost x).engine, 1)] else []),
                        tag := if tag then some eaddr else none }
    let s1 := (s.when (due && !tag) fun s => s.fadd (R.PMC_SMP_PTR t) F.PMC_SMP_PTR_DROPPED 1).modTile t fun y =>
      { y with sampFlight := y.sampFlight + b2n tag }
    let r1 := r.setFlights e (r.flights e ++ [f])
    if (tinsPost x).en && (tinsPost x).early then
      match r1.give (engineCode e) [((tinsPost x).engine, 1)] with
      | some r2 => s1.modTile t fun y => { y with run := some r2 }
      | none => s1.segFault t r1 idx 6 6 0
    else s1.modTile t fun y => { y with run := some r1 }
  | _, _ => s

/-- Change the flight of an instruction. -/
def State.modFlight (s : State) (t : Nat) (e : Engine) (idx : Nat) (f : Flight → Flight) : State :=
  s.modRun t fun r => r.setFlights e ((r.flights e).map fun x => if x.idx = idx then f x else x)

/-- Launch an instruction whose writes wait (R184, R186): `ms` are the tile memories of its members as it issues, where it still has to
read them, and `marks` how far the regulators must have come where its accesses wait there (R291). -/
def State.launchHeld (s : State) (t idx : Nat) (x : TIns) (ms : List Mem) (drain : Option Nat) (eaddr : Nat)
    (marks : List (Nat × Nat)) : State :=
  match tinsEngine x with
  | some e =>
    (s.launch t idx x .plain true [] drain eaddr).modFlight t e idx fun f => { f with held := some ms, marks := marks, paid := marks != [] }
  | none => s

/-- Launch an instruction without a wait of its own. -/
def State.launched (s : State) (t idx : Nat) (x : TIns) (eaddr : Nat) : State := s.launch t idx x .plain true [] none eaddr

/-- Set sticky flags of a tile (R149), and count what its counters count of them (R458). -/
def State.setVflags (s : State) (t fl : Nat) : State :=
  let set (i : Nat) (f : Fld) (s : State) : State := s.when (bit fl i) fun s => s.fset (R.TIL_VSTATUS t) f 1
  let s1 := set 4 F.TIL_VSTATUS_PERM_RANGE (set 3 F.TIL_VSTATUS_ARITH_INVALID (set 2 F.TIL_VSTATUS_ARITH_OVF
    (set 1 F.TIL_VSTATUS_CVT_INVALID (set 0 F.TIL_VSTATUS_CVT_OVF s))))
  (s1.pmcTile t 0x0F (bits fl 5 35)).pmcTile t 0x10 (fl / 2 ^ 40)

/-- Clear sticky flags of a tile. -/
def State.clearVflags (s : State) (t fl : Nat) : State :=
  let clr (i : Nat) (f : Fld) (s : State) : State := s.when (bit fl i) fun s => s.fset (R.TIL_VSTATUS t) f 0
  clr 4 F.TIL_VSTATUS_PERM_RANGE (clr 3 F.TIL_VSTATUS_ARITH_INVALID (clr 2 F.TIL_VSTATUS_ARITH_OVF
    (clr 1 F.TIL_VSTATUS_CVT_INVALID (clr 0 F.TIL_VSTATUS_CVT_OVF s))))

/-- The sticky flags of a tile. -/
def State.vflags (s : State) (t : Nat) : Nat :=
  s.fget (R.TIL_VSTATUS t) F.TIL_VSTATUS_CVT_OVF + 2 * s.fget (R.TIL_VSTATUS t) F.TIL_VSTATUS_CVT_INVALID
    + 4 * s.fget (R.TIL_VSTATUS t) F.TIL_VSTATUS_ARITH_OVF + 8 * s.fget (R.TIL_VSTATUS t) F.TIL_VSTATUS_ARITH_INVALID
    + 16 * s.fget (R.TIL_VSTATUS t) F.TIL_VSTATUS_PERM_RANGE

/-- The context that a run belongs to, in its slot. -/
def State.slotOfRun (s : State) (t : Nat) : Option Slot := (s.ctxOfHerd (t / 12)).map fun e => e.2

/-- The numeric context of a running segment (R102, R105, R491); before the first release of a job the step number of its dither is 0 (log
entry 110). -/
def State.numCtx (s : State) (t : Nat) (r : Run) : NumCtx :=
  let x := s.slotOfRun t
  { seed := (x.map fun k => k.seed).getD 0, step := (x.map fun k => if k.step.live then k.step.step else k.released.getD 0).getD 0,
    srEn := bit r.numctl 1, e4inf := bit r.numctl 0 }

/-- Carry something out in every member, the lead first: `f` is given the member's place and its tile (R130). -/
def Run.onMembers (r : Run) (f : Nat → Nat → State → State) (s : State) : State :=
  forRange r.members.length (fun m s => f m (r.members.getD m 0) s) s

/-- Some member meets a test. -/
def Run.anyMember (r : Run) (f : Nat → Nat → Bool) : Bool :=
  (List.range r.members.length).any fun m => f m (r.members.getD m 0)

/-- Set the sticky flags that a tile function gives in every member. -/
def State.vecFlags (s : State) (r : Run) (f : Nat → Tile → Tile × Nat) : State :=
  r.onMembers (fun m u s => s.setVflags u (f m (s.tile u)).2) s
/-- Make the writes of a tile function in every member, whose flags have been set. -/
def State.vecWrites (s : State) (r : Run) (f : Nat → Tile → Tile × Nat) : State :=
  r.onMembers (fun m u s => s.setTile u (f m (s.tile u)).1) s

/-- Apply a tile function with sticky flags to every member. -/
def State.vecMembers (s : State) (r : Run) (f : Nat → Tile → Tile × Nat) : State :=
  r.onMembers (fun m u s => (s.setTile u (f m (s.tile u)).1).setVflags u (f m (s.tile u)).2) s

/-! ### Semaphores (R189, R190, R404) -/

/-- The semaphore that a number addresses for a partition: its own below 256, and 256 + 32 g + k for semaphore 224 + k of
group g (R404). -/
def State.semKey (s : State) (p n : Nat) : Nat :=
  match s.groupOf p with
  | some g => if 224 ≤ n then 256 + 32 * g + (n - 224) else n
  | none => n

/-- A semaphore. -/
def State.sem (s : State) (p key : Nat) : Sem :=
  if key < 256 then Map.get {} (s.part p).sems key else Map.get {} s.gsems (key - 256)

/-- Replace a semaphore. -/
def State.setSem (s : State) (p key : Nat) (x : Sem) : State :=
  if key < 256 then s.setPart p { s.part p with sems := Map.put {} (s.part p).sems key x }
  else { s with gsems := Map.put {} s.gsems (key - 256) x }

/-- Send a signal to the semaphore unit of a partition. -/
def State.sendSig (s : State) (p : Nat) (g : SemSig) : State := s.setPart p { s.part p with sigs := (s.part p).sigs ++ [g] }

/-- Mark the flight of an instruction: its grant has come, or its signal has been applied. -/
def State.flightReady (s : State) (t : Nat) (e : Engine) (idx : Nat) : State :=
  s.modFlight t e idx fun f => { f with ready := true }

/-- A SEMSIG that has become the oldest instruction in flight of its engine sends its signal (R189). -/
def State.sendHead (s : State) (t : Nat) (e : Engine) : State :=
  match (s.tile t).run with
  | none => s
  | some r =>
    match r.flights e with
    | f :: l =>
      match f.kind, f.sent with
      | .semSig n v, false =>
        let p := (s.partOfTile t).getD 0
        (s.modTile t fun x => { x with run := some (r.setFlights e ({ f with sent := true } :: l)) }).sendSig p
          { sem := s.semKey p n, n := v, origin := .tile t e f.idx r.ctx }
      | _, _ => s
    | [] => s

/-- A remote access of a piece of work has had no answer (R343). -/
def State.asks (s : State) (f : Asker → Bool) : Bool := s.rreqs.any (fun e => f e.2.who) || s.rwait.any fun e => f e.2.who
/-- A remote access of an instruction has had no answer. -/
def State.insAsks (s : State) (t idx : Nat) : Bool := s.asks fun w => w == .ins t idx

/-- Every effect of an instruction in flight is there: its grant or signal, its writes, and the answers to its remote accesses (R184,
R343). -/
def State.flightDone (s : State) (t : Nat) (f : Flight) : Bool := f.ready && f.held.isNone && !s.insAsks t f.idx


/-- The oldest instruction of an engine completes (R184): its drained set is free, its credits are posted, its record is
written, and a SEMSIG behind it sends its signal. -/
def State.completeHead (s : State) (t : Nat) (e : Engine) (wait lat : Nat) : State :=
  match (s.tile t).run with
  | none => s
  | some r =>
    match r.flights e with
    | [] => s
    | f :: l =>
      if !s.flightDone t f then s
      else
        let r1 := { r.setFlights e l with finished := r.finished + 1 }
        let s1 :=
          match f.drain with
          | some set => r.onMembers (fun _ u s => s.fset (R.TIL_MMA_STATUS u) F.TIL_MMA_STATUS_SET_DRAINING
              (setBits (s.fget (R.TIL_MMA_STATUS u) F.TIL_MMA_STATUS_SET_DRAINING) set 1 0)) s
          | none => s
        match r1.give (engineCode e) f.posts with
        | none => s1.segFault t r1 f.idx 6 6 0
        | some r2 =>
          let s2 := s1.modTile t fun x => { x with run := some r2, sampFlight := x.sampFlight - b2n f.tag.isSome }
          let s3 := match f.tag with | some a => s2.sampWrite t r f a wait lat | none => s2
          let s4 := if f.cls = 2 then s3.pmcTile t 0x0E 1 else s3
          s4.sendHead t e

/-- The dispatcher has taken an instruction. -/
def State.taken (s : State) (t : Nat) : State := s.modRun t fun r => { r with finished := r.finished + 1 }

end Sys2Proof.Machine
end

