-- ==== Sys2Proof/Machine/PassOps.lean ====
section
/-!
DEFINITION. PassOps.lean: the work that a step scheduler does on tensors itself: the rescale pass and the discard pass, gradient
format choice, and the gather of tied groups (R212 to R215, R223 to R225, R229, R230).
-/

namespace Sys2Proof.Machine

/-! ### Rescale and discard (R212 to R215) -/

/-- A block's record and map pair as the rescale pass leaves them, with the counts of SCALE_CEIL and SCALE_FLOOR (R213). -/
structure Rescaled where
  word : Nat
  ceil : Nat := 0
  floor : Nat := 0
deriving DecidableEq, Repr

/-- The function of R213 for one record of an FP8 tensor. -/
def rescaleRec (rec pair limit : Nat) : Rescaled :=
  let sc := recScale rec
  let st := readStatus (bits rec 6 2)
  let quiet := bits rec 0 6
  if st = 1 then
    if sc < 0xFE then { word := (sc + 1) * 256 } else { word := sc * 256, ceil := 1 }
  else if st = 2 then { word := sc * 256 }
  else if bit pair 0 && bit pair 1 then { word := sc * 256 }
  else if bit pair 0 then
    if limit ≤ quiet + 1 then
      if 0 < sc then { word := (sc - 1) * 256 } else { word := sc * 256, floor := 1 }
    else { word := sc * 256 + quiet + 1 }
  else { word := sc * 256 + quiet }

/-- A record as the discard pass leaves it (R215). -/
def discardRec (rec : Nat) : Nat := setBits rec 6 2 0

/-- Change every record of a tensor: `f` is given a record and its map pair, and answers the record and the counts. The map
pairs of an FP8 tensor are cleared (R213, R215). The first access that fails ends the work on the tensor. -/
def State.passTensor (s : State) (r : Reach) (t : Ten) (f : Nat → Nat → Rescaled) : Ld × Nat × Nat × State :=
  (List.range (t.blkRows * t.blkCols)).foldl
    (fun a b =>
      if !a.1.isOk then a
      else
        match a.2.2.2.loadRec r t b with
        | (none, e, s1) => (e, a.2.1, a.2.2.1, s1)
        | (some w, _, s1) =>
          let pair : Ld × State := if fmtFp8 t.d.fmt then s1.load r (t.mapAddr b) 1 else (.ok 0, s1)
          match pair with
          | (.ok m, s2) =>
            let z := f w (bits m (2 * (b % 4)) 2)
            match s2.storeRec r t b z.word with
            | (.ok _, s3) =>
              let s4 : Ld × State :=
                if fmtFp8 t.d.fmt then s3.store r (t.mapAddr b) 1 (setBits m (2 * (b % 4)) 2 0) else (.ok 0, s3)
              (s4.1, a.2.1 + z.ceil, a.2.2.1 + z.floor, s4.2)
            | (e, s3) => (e, a.2.1, a.2.2.1, s3)
          | (e, s2) => (e, a.2.1, a.2.2.1, s2))
    (.ok 0, 0, 0, s)

/-- Entry i of the rescale list of a context (R212). -/
def State.rescaleEntry (s : State) (r : Reach) (x : Slot) (i : Nat) : Ld × State :=
  s.load r (x.fget R.SCH_RESCALE_BASE F.SCH_RESCALE_BASE_ADDR * 64 + 8 * i) 8

/-- The tensor that an entry of the rescale list names; none where the pass skips it (R212). -/
def State.rescaleTensor (s : State) (r : Reach) (v : Nat) : Option Ten × State :=
  if setBits v 6 50 0 ≠ 0 then (none, s)
  else
    let d := s.readDesc r v
    if d.1.status = 0 ∧ d.1.desc.versioned = false then (some (d.1.desc.ten 0), d.2) else (none, d.2)

/-- Count entries that the pass skips. -/
def Slot.countBad (x : Slot) (n : Nat) : Slot := x.fadd R.SCH_NUM_STAT F.SCH_NUM_STAT_RESCALE_BAD n

/-- Entry i of the list cannot be served: it counts once, where the pass counts (R212, R215). -/
def Slot.passFails (x : Slot) (i : Nat) (count : Bool) : Slot :=
  if x.passBad.contains i then x else { x.countBad (b2n count) with passBad := x.passBad ++ [i] }

/-- The tables of entry i of the list in a pass: `f` says what becomes of a record of a format, and `skip` which descriptor addresses the
pass leaves alone. With `count` it counts what it skips, and the scales that meet their limits. -/
def State.passEntry (s : State) (p k : Nat) (x : Slot) (count : Bool) (skip : List Nat) (f : Fmt → Nat → Nat → Rescaled) (i : Nat) :
    State :=
  let r := Reach.pass p k i x.got
  let bad (s : State) : State := s.modSlot p k fun y => y.passFails i count
  match s.rescaleEntry r x i with
  | (.ok v, s1) =>
    if skip.contains v then s1
    else
      match s1.rescaleTensor r v with
      | (none, s2) => bad s2
      | (some ten, s2) =>
        if ten.d.scalePtr = 0 then s2
        else
          match s2.passTensor r ten (f ten.d.fmt) with
          | (e, up, down, s3) =>
            (if e.isOk then s3 else bad s3).when count fun s => s.modSlot p k fun y =>
              (y.fadd R.SCH_SCALE_STAT F.SCH_SCALE_STAT_SCALE_CEIL up).fadd R.SCH_SCALE_STAT F.SCH_SCALE_STAT_SCALE_FLOOR down
  | (_, s1) => bad s1

/-- Run a pass over the rescale list, as `passEntry` says for each entry. -/
def State.passList (s : State) (p k : Nat) (x : Slot) (count : Bool) (skip : List Nat) (f : Fmt → Nat → Nat → Rescaled) : State :=
  forRange (x.fget R.SCH_RESCALE_COUNT F.SCH_RESCALE_COUNT_COUNT) (fun i s => s.passEntry p k x count skip f i) s

/-- A pass of a slot has a request on the fabric. -/
def State.passAsks (s : State) (p k : Nat) : Bool := s.asks fun w => match w with | .pass q j _ => q == p && j == k | _ => false

/-- What the rescale pass does to a record: R213 for FP8, 0x7F00 for 16-bit tensors. -/
def rescaleOf (limit : Nat) (f : Fmt) (rec pair : Nat) : Rescaled :=
  if fmtFp8 f then rescaleRec rec pair limit else { word := 0x7F00 }

/-- What the discard pass does to a record. -/
def discardOf (_ : Fmt) (rec _ : Nat) : Rescaled := { word := discardRec rec }

/-- A pass of a slot is carried out at once, and `ends` says where it then stands; or it waits for what its accesses wait for, in the phase
`phase`, and nothing of it has happened but its requests (R214, R291, R343). -/
def State.runPass (s : State) (p k phase : Nat) (x : Slot) (f : State → State) (ends : State → Slot → Slot) : State :=
  match s.workNow (schedUnit p k) (x.passMarks != []) fun s => ((), f s) with
  | .done _ s1 => s1.modSlot p k fun y => { ends s1 y with got := [], passMarks := [] }
  | .halts h => (s.modSlot p k fun y => { y with pass := phase }).haltAt (schedUnit p k) h
  | .waits s1 m => s1.modSlot p k fun y => { y with pass := phase, passMarks := m }

/-- The discard pass of a context (R215). It is over at once unless it waits, as R214 lays down: 3 for lines that it reads or for tokens, 4
for its writes. -/
def State.discardPass (s : State) (p k : Nat) : State :=
  match s.slot? p k with
  | some x =>
    s.runPass p k 3 x (fun s => s.passList p k x false [] discardOf) fun s y => { y with pass := if s.passAsks p k then 4 else 0 }
  | none => s

/-! ### Gradient format choice (R223 to R225) -/

/-- The function `choose` of R223. -/
def chooseFmt (win : List Nat) (cur since tau d4 d5 hold minCount : Nat) : Nat :=
  let n := sumList win
  let over4 := sumList (win.drop d4)
  let over5 := sumList (win.drop d5)
  if n < minCount || since < hold then cur
  else if over4 * 2 ^ tau ≤ n then 0
  else if over5 * 2 ^ tau ≤ n then 1
  else 2

/-- The window of a slot, summed over its steps. -/
def Slot.winBins (x : Slot) (n : Nat) : List Nat :=
  (List.range 32).map fun i =>
    sumList (x.window.map fun st => sumList ((st.filter fun r => r.slot == n).map fun r => r.bins.getD i 0))

/-- MAXEXP of a slot over the window. -/
def Slot.winMax (x : Slot) (n : Nat) : Option Int :=
  (x.window.flatMap fun st => (st.filter fun r => r.slot == n).filterMap fun r => r.maxexp).foldl
    (fun a e => match a with | some m => some (max m e) | none => some e) none

/-- The seed scale code of R224. -/
def seedScale (fmt : Nat) (m : Option Int) : Nat :=
  match m with
  | none => 0x7F
  | some e => (min (max (e - (if fmt = 0 then 8 else 15) + 128) 0) 0xFE).toNat

/-- A descriptor serves with another format: its strides and its ranges (R166). -/
def Desc.servesAs (d : Desc) (f : Fmt) : Bool := ({ d with fmt := f } : Desc).formatOk && ({ d with fmt := f } : Desc).rangeOk

/-- The descriptor of a gradient slot meets R225: its buffer, strides and scale table are sized for BF16, and the scale table is
followed by the write map of an FP8 format. -/
def pgDescOk (d : Desc) : Bool :=
  d.privGrad && d.fawnPtr == 0 && d.scalePtr != 0 && d.servesAs .bf16 && d.servesAs .e4m3
    && extentOk d.scalePtr (d.mapOff + (blocks16 d.rows * blocks16 d.n0 + 3) / 4)

/-- Enabled gradient slots. -/
def Slot.pgSlots (x : Slot) : List Nat := (List.range 64).filter fun n => x.fget (R.SCH_PG n) F.SCH_PG_EN == 1

/-- The address of a slot's descriptor. -/
def Slot.pgAddr (x : Slot) (n : Nat) : Nat := x.fget (R.SCH_PG n) F.SCH_PG_DESC * 64

/-- A commit or a skip at which the format of a slot does not change (R224). -/
def Slot.pgStay (x : Slot) (n : Nat) : Slot := x.fadd (R.SCH_PG_ID n) F.SCH_PG_ID_SINCE 1

/-- Apply a new format to a gradient tensor (R224): an access that fails ends the work on its tables, and the slot takes the format
nevertheless (log entry 110). -/
def State.pgApply (s : State) (r : Reach) (p k n fmt : Nat) (x : Slot) (d : Desc) : State :=
  let f := (fmtOf fmt).getD .bf16
  let w0 := s.load r (x.pgAddr n) 8
  let s1 := (w0.2.store r (x.pgAddr n) 8 (setBits w0.1.val 60 4 fmt)).2
  let t := ({ d with fmt := f } : Desc).ten 0
  let rec0 := if fmtFp8 f then seedScale fmt (x.winMax n) * 256 else 0x7F00
  match s1.passTensor r t fun _ _ => { word := rec0 } with
  | (_, _, _, s2) => s2.modSlot p k fun y => (y.fset (R.SCH_PG n) F.SCH_PG_FMT fmt).fset (R.SCH_PG_ID n) F.SCH_PG_ID_SINCE 0

/-- The number under which slot n asks for lines, past every entry of the rescale list. -/
def pgAsk (n : Nat) : Nat := 2 ^ 20 + n

/-- Choose the format of one slot (R223 to R225): while PG_EN is 0 none changes. Answers the descriptor whose format has changed. A slot
whose descriptor cannot be read or fails R166 breaks R225 as well (log entry 110). -/
def State.pgChoose (s : State) (p k n : Nat) : List Nat × State :=
  match s.slot? p k with
  | none => ([], s)
  | some x =>
    let r := Reach.pass p k (pgAsk n) x.got
    let g (f : Fld) : Nat := x.fget R.SCH_PG_CTL f
    let cur := x.fget (R.SCH_PG n) F.SCH_PG_FMT
    let since := x.fget (R.SCH_PG_ID n) F.SCH_PG_ID_SINCE
    let d := s.readDesc r (x.pgAddr n)
    if d.1.status ≠ 0 || !pgDescOk d.1.desc then ([], d.2.modSlot p k fun y => (y.fset (R.SCH_PG n) F.SCH_PG_EN 0).countBad 1)
    else
      let c := if x.fget R.SCH_NUM_CTL F.SCH_NUM_CTL_PG_EN = 0 then cur
        else chooseFmt (x.winBins n) cur since (g F.SCH_PG_CTL_TAU) (g F.SCH_PG_CTL_D4) (g F.SCH_PG_CTL_D5) (g F.SCH_PG_CTL_HOLD)
          (g F.SCH_PG_CTL_MIN_COUNT)
      if c = cur then ([], d.2.modSlot p k fun y => y.pgStay n) else ([x.pgAddr n], d.2.pgApply r p k n c x d.1.desc)

/-- Gradient format choice over the enabled slots (R223 to R225): the descriptors whose format has changed. -/
def State.pgAll (s : State) (p k : Nat) (x : Slot) : List Nat × State :=
  x.pgSlots.foldl (fun (a : List Nat × State) n => let b := a.2.pgChoose p k n; (a.1 ++ b.1, b.2)) ([], s)

/-- The work of the rescale pass with gradient format choice (R213, R223 to R225). -/
def State.rescaleWork (s : State) (p k : Nat) (x : Slot) : State :=
  let a := s.pgAll p k x
  a.2.passList p k x true a.1 (rescaleOf (x.fget R.SCH_NUM_CTL F.SCH_NUM_CTL_QUIET_LIMIT))

/-- The rescale pass: it has run, or waits (R214). -/
def State.rescalePass (s : State) (p k : Nat) : State :=
  match s.slot? p k with
  | some x => s.runPass p k 1 x (fun s => s.rescaleWork p k x) fun _ y => { y with pass := 2 }
  | none => s

/-! ### Gather (R229, R230) -/

/-- padd of R145 with an exact addend, under RNE. -/
def paddValue (f : FF) (v : Nat) (fw : Int) (y : XVal) : Res × Int :=
  let x := f.value v
  if x.isNan || y.isNan then ({ code := f.nanCode, nonfin := true }, 0)
  else
    match x, y with
    | .inf p, .inf q => if p = q then (f.arith .rne (.inf p), 0) else (f.undefined, 0)
    | .inf p, _ => (f.arith .rne (.inf p), 0)
    | _, .inf q => (f.arith .rne (.inf q), 0)
    | _, _ => writePair f .rne ((pairValue f v fw).add y)

/-- The tied-table entry of (g, u). -/
def State.tiedEntry (s : State) (p : Nat) (x : Slot) (g u : Nat) : Ld × State :=
  s.load (Reach.sched p) (x.fget R.SCH_TIED_BASE F.SCH_TIED_BASE_ADDR * 64 + 8 * (8 * (g - 1) + u)) 8

/-- The buffer of a use: none where it is not registered; its status otherwise (R166, R229). -/
def State.tiedBuf (s : State) (p : Nat) (x : Slot) (g u : Nat) : Ld × Option DescRead × State :=
  match s.tiedEntry p x g u with
  | (.ok e, s1) =>
    if bit e 0 then
      let d := s1.readDesc (Reach.sched p) (bits e 6 50 * 64)
      (.ok 0, some d.1, d.2)
    else (.ok 0, none, s1)
  | (e, s1) => (e, none, s1)

/-- Two buffers have the same shape. -/
def sameShape (a b : Desc) : Bool := a.n0 == b.n0 && a.n1 == b.n1 && a.n2 == b.n2 && a.n3 == b.n3

/-- One element of a buffer: its exact value with its fawn, and whether its block reads non-finite. -/
def State.tElem (s : State) (r : Reach) (t : Ten) (i j : Nat) : Ld × (XVal × Bool) × State :=
  match s.loadRow r t i j 1 with
  | (none, e, s1) => (e, (.zero, false), s1)
  | (some cs, _, s1) =>
    match s1.loadRec r t (t.blk (i / 16) (j / 16)) with
    | (none, e, s2) => (e, (.zero, false), s2)
    | (some w, _, s2) =>
      let code := cs.getD 0 0
      let nf := t.d.scalePtr != 0 && recStatus w == 2
      let x := elemValue t.d.fmt w code
      if t.d.fawnPtr = 0 || x.nonfinite then (.ok 0, (x, nf), s2)
      else
        match s2.loadFawns r t i j 1 with
        | (some fs, _, s3) =>
          (.ok 0, (match fmtFF t.d.fmt with | some f => pairValue f code (toInt 8 (fs.getD 0 0)) | none => x, nf), s3)
        | (none, e, s3) => (e, (.zero, false), s3)

/-- The result that an exact pair, as an operation has written it in a fold format, gives in a block of a destination: itself where
the destination holds pairs of that format, another pair or a plain value by the conversion of R94 under RNE otherwise (R88, R351). -/
def foldRes (t : Ten) (rec : Nat) (f : FF) (e4inf : Bool) (w : Res × Int) : Res × Int :=
  let x := if (f.value w.1.code).nonfinite then f.value w.1.code else pairValue f w.1.code w.2
  if t.d.fawnPtr = 0 then (blockConvert t.d.fmt .rne e4inf (recScale rec) x, 0)
  else if recScale rec ≠ 0xFF ∧ fmtFF t.d.fmt = some f then w
  else blockPair t.d.fmt .rne (recScale rec) x

/-- The result that an exact value gives in a block of a destination that has not been rounded before (R351): a pair where the destination
holds fawns, a plain value by the conversion of R94 under RNE otherwise. -/
def foldExact (t : Ten) (rec : Nat) (f : FF) (e4inf : Bool) (x : XVal) : Res × Int :=
  if t.d.fawnPtr = 0 then (blockConvert t.d.fmt .rne e4inf (recScale rec) x, 0)
  else if recScale rec ≠ 0xFF ∧ fmtFF t.d.fmt = some f then writePair f .rne x
  else blockPair t.d.fmt .rne (recScale rec) x

/-- A tile writes one element of a tensor from an exact pair, with its status merged; a conversion sets the tile's sticky flags (R89, R104,
R144, R211). -/
def State.tPut (s : State) (tile : Nat) (r : Reach) (t : Ten) (i j : Nat) (f : FF) (e4inf : Bool) (w : Res × Int) (nf : Bool) : Ld × State :=
  let b := t.blk (i / 16) (j / 16)
  match s.loadRec r t b with
  | (none, e, s1) => (e, s1)
  | (some rec, _, s1) =>
    let z := foldRes t rec f e4inf w
    let a := (s1.when (t.d.fawnPtr = 0) fun s => s.setVflags tile z.1.flags).storeRow r t i j [z.1.code]
    let a1 := andThen a fun s => if t.d.fawnPtr ≠ 0 then s.storeFawns r t i j [ofInt 8 z.2] else (.ok 0, s)
    andThen a1 fun s => s.mergeBlock r t b (if nf then 2 else z.1.status) (mapPair t.d.fmt [z.1.code])

/-- The gather of one element over the live buffers, which sets the sticky flags of its tile (R104, R230). -/
def State.gatherElem (s : State) (tile : Nat) (r : Reach) (e4inf : Bool) (dst : Ten) (bufs : List Ten) (i j : Nat) : Ld × State :=
  let f := if dst.d.fmt = .fp16 then FF.fp16 else FF.bf16
  let z := bufs.foldl
    (fun (a : Ld × ((Res × Int) × Bool) × State) b =>
      if !a.1.isOk then a
      else
        match a.2.2.tElem r b i j with
        | (.ok _, (y, nf), s1) =>
          let w := paddValue f a.2.1.1.1.code a.2.1.1.2 y
          (.ok 0, (w, a.2.1.2 || nf), s1.setVflags tile w.1.flags)
        | (e, _, s1) => (e, a.2.1, s1))
    (.ok 0, (({ code := 0 }, 0), false), s)
  if z.1.isOk then z.2.2.tPut tile r dst i j f e4inf z.2.1.1 z.2.1.2 else (z.1, z.2.2)

/-- How the gather of a group ends: a status of R19, or what a memory access answered. -/
structure GatherEnd where
  status : Nat := 0
  mem : Ld := .ok 0
deriving DecidableEq, Repr

/-- The buffers of the named uses of a group, with the status of the first that does not serve: FORMAT for one that is not registered, and
what the check of R166 gives otherwise (log entry 110). -/
def State.gatherBufs (p : Nat) (x : Slot) (g : Nat) : List Nat → State → GatherEnd × List Ten × State
  | [], s => ({}, [], s)
  | u :: l, s =>
    match s.tiedBuf p x g u with
    | (.ok _, some d, s1) =>
      if d.status ≠ 0 then ({ status := d.status }, [], s1)
      else
        match State.gatherBufs p x g l s1 with
        | (e, ts, s2) => (e, d.desc.ten 0 :: ts, s2)
    | (.ok _, none, s1) => ({ status := 3 }, [], s1)
    | (e, _, s1) => ({ mem := e }, [], s1)

/-- The gather of one group with its live uses, ascending (R230), by a tile that reaches memory as `r` does. -/
def State.gatherGroup (s : State) (tile : Nat) (r : Reach) (e4inf : Bool) (p : Nat) (x : Slot) (g : Nat) (live : List Nat) : GatherEnd × State :=
  match State.gatherBufs p x g (0 :: live) s with
  | (e, ts, s1) =>
    if e ≠ {} then (e, s1)
    else
      match ts with
      | dst :: bufs =>
        if bufs.all fun b => sameShape dst.d b.d then
          let a := accessAll ((List.range dst.d.rows).flatMap fun i => (List.range dst.d.n0).map fun j => (i, j))
            (fun q s => s.gatherElem tile r e4inf dst bufs q.1 q.2) s1
          ({ mem := a.1 }, a.2)
        else ({ status := 3 }, s1)
      | [] => ({ status := 3 }, s1)

end Sys2Proof.Machine
end

