-- ==== Sys2Proof/Machine/TileMov.lean ====
section
/-!
DEFINITION. TileMov.lean: the MOV class and MMUL: the moves between unified memory, herd memory and tile memory, and the issue of
a product on the array (R114 to R115, R127 to R131, R172 to R176, R254).
-/

namespace Sys2Proof.Machine

/-- How the work of an instruction ends: as it should, by a memory access, or by a fault with its FAULT_CAUSE. -/
inductive TEnd where
  | ok
  | mem (e : Ld)
  | cause (c : Nat)
deriving DecidableEq, Repr

/-- Go on unless the work has ended. -/
def tThen (a : TEnd × State) (f : State → TEnd × State) : TEnd × State :=
  match a.1 with
  | .ok => f a.2
  | _ => a

/-- Work over a list until it ends. -/
def tAll {α : Type} (l : List α) (f : α → State → TEnd × State) (s : State) : TEnd × State :=
  l.foldl (fun a x => tThen a (f x)) (.ok, s)

/-- An access as a piece of work. -/
def ldEnd (a : Ld × State) : TEnd × State := if a.1.isOk then (.ok, a.2) else (.mem a.1, a.2)

/-- The slot that a MOV names (R241, R242); none where the version table does not serve it. -/
def movSlot (img : SegImg) (o : MovOps) : Option Ten :=
  match img.descs[o.dslot]? with
  | none => none
  | some d =>
    match o.vsel with
    | .plain => some (d.ten 0)
    | .current => if d.frozen then some (d.ten 0) else (img.cur.getD o.dslot none).map d.ten
    | .next => if d.frozen then some (d.ten 0) else (img.cur.getD o.dslot none).map fun k => d.ten (1 - k)

/-- Columns of row i of a window that exist in the tensor. -/
def winCols (t : Ten) (orow ocol cols i : Nat) : Nat := if orow + i < t.d.rows then min cols (t.d.n0 - ocol) else 0

/-- Write codes into a row of a view from column 0 on, and zeros after them. -/
def Tile.fillRow (u : Tile) (v : View) (i : Nat) (codes : List Nat) : Tile :=
  forRange v.cols (fun j (u : Tile) => { u with mem := u.mem.setElem v.fmt (v.addr i j) j (codes.getD j 0) }) u

/-- Write fawns into a row of a view, and zeros after them. -/
def Tile.fillFawns (u : Tile) (v : View) (i : Nat) (codes : List Nat) : Tile :=
  forRange v.cols (fun j (u : Tile) => { u with mem := u.mem.wr (v.fawnAddr i j) (codes.getD j 0) }) u

/-- The blocks of a view. -/
def viewBlocks (v : View) : List (Nat × Nat) :=
  (List.range (blocks16 v.rows)).flatMap fun bi => (List.range (blocks16 v.cols)).map fun bj => (bi, bj)

/-- The codes of the elements of a view's row. -/
def Tile.rowCodes (u : Tile) (v : View) (i n : Nat) : List Nat := (List.range n).map fun j => u.vElem v i j
/-- The fawns of a view's row. -/
def Tile.rowFawns (u : Tile) (v : View) (i n : Nat) : List Nat := (List.range n).map fun j => u.mem.rd (v.fawnAddr i j)

/-- A record that R87 does not allow for a format. -/
def recBad (f : Fmt) (rec : Nat) : Bool := fmtBits f == 16 && recScale rec != 0x7F

/-- Some record of these blocks of a view is not allowed (R87). -/
def viewRecBad (u : Tile) (v : View) (bs : List (Nat × Nat)) : Bool :=
  bs.any fun b => recBad v.fmt (u.mem.rdN (v.recAddr b.1 b.2) 2)

/-- The blocks of a view whose records a store at an origin takes to the tensor: those within it, and none where it has no records
(R87, R173). -/
def recBlocks (t : Ten) (v : View) (org : Nat × Nat) : List (Nat × Nat) :=
  if t.d.scalePtr = 0 then []
  else (viewBlocks v).filter fun b => decide (org.1 / 16 + b.1 < t.blkRows) && decide (org.2 / 16 + b.2 < t.blkCols)

/-- Lines of the elements, records and fawns of a window's rows and blocks, each row and each record an access of its own (R458). -/
def moveLines (t : Ten) (v : View) (org : Nat × Nat) (recs fawn elems : Bool) : Nat :=
  let rows := (List.range v.rows).filter fun i => winCols t org.1 org.2 v.cols i != 0
  let n (i : Nat) : Nat := winCols t org.1 org.2 v.cols i
  let w := fmtBits t.d.fmt
  let lo := org.2 * w / 8
  let el (i : Nat) : Nat := spanLines (t.rowAddr (org.1 + i) + lo) (((org.2 + n i) * w + 7) / 8 - lo)
  let fw (i : Nat) : Nat := spanLines (t.fawnAddr (org.1 + i) org.2) (n i)
  let bl := (viewBlocks v).filter fun b => decide (org.1 / 16 + b.1 < t.blkRows) && decide (org.2 / 16 + b.2 < t.blkCols)
  (if elems then sumList (rows.map el) else 0) + (if fawn then sumList (rows.map fw) else 0)
    + (if recs && t.d.scalePtr != 0 then bl.length else 0)

/-- LD in one member (R173): elements, then records, then fawns. -/
def State.ldMember (s : State) (rc : Reach) (t : Ten) (v : View) (o : MovOps) (u : Nat) : TEnd × State :=
  let org := (s.tile u).origin o.org
  if o.recs && (org.1 % 16 != 0 || org.2 % 16 != 0) then (.cause 0xA, s)
  else
    let cols := winCols t org.1 org.2 v.cols
    let row (i : Nat) (s : State) : TEnd × State :=
      let n := cols i
      if n = 0 then (.ok, s.modTile u fun x => x.fillRow v i [])
      else
        match s.loadRow rc t (org.1 + i) org.2 n with
        | (some cs, _, s1) => (.ok, s1.modTile u fun x => x.fillRow v i cs)
        | (none, e, s1) => (.mem e, s1)
    let rec1 (b : Nat × Nat) (s : State) : TEnd × State :=
      let bi := org.1 / 16 + b.1
      let bj := org.2 / 16 + b.2
      let put (w : Nat) (s : State) : State :=
        s.modTile u fun x => { x with mem := x.mem.wrN (v.recAddr b.1 b.2) 2 w }
      if bi < t.blkRows ∧ bj < t.blkCols then
        match s.loadRec rc t (t.blk bi bj) with
        | (some w, _, s1) => if recBad t.d.fmt w then (.cause 5, s1) else (.ok, put w s1)
        | (none, e, s1) => (.mem e, s1)
      else (.ok, put 0x7F00 s)
    let fawn (i : Nat) (s : State) : TEnd × State :=
      let n := cols i
      if n = 0 then (.ok, s.modTile u fun x => x.fillFawns v i [])
      else
        match s.loadFawns rc t (org.1 + i) org.2 n with
        | (some cs, _, s1) => (.ok, s1.modTile u fun x => x.fillFawns v i cs)
        | (none, e, s1) => (.mem e, s1)
    tThen (tThen (tThen (tAll (List.range v.rows) row s) (fun s => if o.recs then tAll (viewBlocks v) rec1 s else (.ok, s)))
      fun s => if o.fawn then tAll (List.range v.rows) fawn s else (.ok, s))
      fun s => (.ok, s.pmcTile u 8 (moveLines t v org o.recs o.fawn true))

/-- The codes of the elements of a view's block that exist in the tensor. -/
def blockCodes (u : Tile) (v : View) (t : Ten) (org : Nat × Nat) (b : Nat × Nat) : List Nat :=
  (List.range 16).flatMap fun i => (List.range 16).filterMap fun j =>
    let r := 16 * b.1 + i
    let c := 16 * b.2 + j
    if v.holds r c && t.holds (org.1 + r) (org.2 + c) then some (u.vElem v r c) else none

/-- ST in one member (R173): elements and fawns, then the status merges with their map bits (R89, R211). -/
def State.stMember (s : State) (rc : Reach) (t : Ten) (v : View) (o : MovOps) (u : Nat) : TEnd × State :=
  let x := s.tile u
  let org := x.origin o.org
  if o.recs && (org.1 % 16 != 0 || org.2 % 16 != 0) then (.cause 0xA, s)
  else if o.recs && viewRecBad x v (recBlocks t v org) then (.cause 5, s)
  else
    let cols := winCols t org.1 org.2 v.cols
    let row (i : Nat) (s : State) : TEnd × State :=
      ldEnd (s.storeRow rc t (org.1 + i) org.2 (x.rowCodes v i (cols i)))
    let fawn (i : Nat) (s : State) : TEnd × State :=
      if cols i = 0 then (.ok, s) else ldEnd (s.storeFawns rc t (org.1 + i) org.2 (x.rowFawns v i (cols i)))
    let merge (b : Nat × Nat) (s : State) : TEnd × State :=
      ldEnd (s.mergeBlock rc t (t.blk (org.1 / 16 + b.1) (org.2 / 16 + b.2)) (recStatus (x.mem.rdN (v.recAddr b.1 b.2) 2))
        (mapPair t.d.fmt (blockCodes x v t org b)))
    tThen (tThen (tThen (tAll (List.range v.rows) row s) (fun s => if o.fawn then tAll (List.range v.rows) fawn s else (.ok, s)))
      fun s => if o.recs then tAll (recBlocks t v org) merge s else (.ok, s))
      fun s => (.ok, s.pmcTile u 9 (moveLines t v org o.recs o.fawn true))

/-- STREC in one member (R173): it moves no fawns either, with FAWN = 1 (log entry 110). -/
def State.strecMember (s : State) (rc : Reach) (t : Ten) (v : View) (o : MovOps) (u : Nat) : TEnd × State :=
  let x := s.tile u
  let org := x.origin o.org
  if org.1 % 16 != 0 || org.2 % 16 != 0 then (.cause 0xA, s)
  else if viewRecBad x v (recBlocks t v org) then (.cause 5, s)
  else
    tThen (tAll (recBlocks t v org)
      (fun b s =>
        ldEnd (s.storeRec rc t (t.blk (org.1 / 16 + b.1) (org.2 / 16 + b.2)) (x.mem.rdN (v.recAddr b.1 b.2) 2))) s)
      fun s => (.ok, s.pmcTile u 9 (moveLines t v org true false false))

/-! ### Herd memory (R173) -/

/-- The next multiple of 64. -/
def up64 (n : Nat) : Nat := (n + 63) / 64 * 64
/-- Bytes of the packed elements of a view. -/
def packBytes (v : View) : Nat := v.rows * rowBytes v.fmt v.cols
/-- Bytes of the records of a view. -/
def packRecs (v : View) (o : MovOps) : Nat := if o.recs then blocks16 v.rows * blocks16 v.cols * 2 else 0
/-- Where the records begin. -/
def packRecAt (off : Nat) (v : View) : Nat := up64 (off + packBytes v)
/-- Where the fawns begin. -/
def packFawnAt (off : Nat) (v : View) (o : MovOps) : Nat := if o.recs then up64 (packRecAt off v + packRecs v o) else packRecAt off v
/-- The end of what a herd move touches. -/
def packEnd (off : Nat) (v : View) (o : MovOps) : Nat :=
  if o.fawn then packFawnAt off v o + v.rows * v.cols
  else if o.recs then packRecAt off v + packRecs v o
  else off + packBytes v
/-- The size of herd memory. -/
def herdSpace : Nat := 0x1000000
/-- The herd-memory offset of a herd move is a multiple of 64 and its bytes lie within herd memory. -/
def packOk (off : Nat) (v : View) (o : MovOps) : Bool := off % 64 == 0 && decide (packEnd off v o ≤ herdSpace)
/-- The herd-memory offset that ORG names. -/
def Tile.herdOff (u : Tile) (j : Nat) : Nat := u.sval (2 * j) % 2 ^ 24

/-- HLD in one member. -/
def State.hldMember (s : State) (h : Nat) (v : View) (o : MovOps) (u : Nat) : TEnd × State :=
  let off := (s.tile u).herdOff o.org
  let m := (s.herd h).mem
  if !packOk off v o then (.cause 3, s)
  else
    let el (x : Tile) : Tile :=
      forRange v.rows (fun i x =>
        x.fillRow v i ((List.range v.cols).map fun j =>
          m.elem v.fmt (off + i * rowBytes v.fmt v.cols + j * fmtBits v.fmt / 8) j)) x
    let rc (x : Tile) : Tile :=
      if o.recs then
        (viewBlocks v).foldl (fun x b =>
          let k := b.1 * blocks16 v.cols + b.2
          { x with mem := x.mem.wrN (v.recAddr b.1 b.2) 2 (m.rdN (packRecAt off v + 2 * k) 2) }) x
      else x
    let fw (x : Tile) : Tile :=
      if o.fawn then
        forRange v.rows (fun i x =>
          x.fillFawns v i ((List.range v.cols).map fun j => m.rd (packFawnAt off v o + i * v.cols + j))) x
      else x
    (.ok, (s.modTile u fun x => fw (rc (el x))).pmcHerd h 7 (spanLines off (packEnd off v o - off)))

/-- HST in one member. -/
def State.hstMember (s : State) (h : Nat) (v : View) (o : MovOps) (u : Nat) : TEnd × State :=
  let x := s.tile u
  let off := x.herdOff o.org
  if !packOk off v o then (.cause 3, s)
  else if o.recs && viewRecBad x v (viewBlocks v) then (.cause 5, s)
  else
    let w := fmtBits v.fmt
    let el (m : Mem) : Mem :=
      forRange v.rows (fun i m =>
        m.wrN (off + i * rowBytes v.fmt v.cols) (rowBytes v.fmt v.cols) (packCodes w (x.rowCodes v i v.cols))) m
    let rc (m : Mem) : Mem :=
      if o.recs then
        (viewBlocks v).foldl (fun m b =>
          m.wrN (packRecAt off v + 2 * (b.1 * blocks16 v.cols + b.2)) 2 (x.mem.rdN (v.recAddr b.1 b.2) 2)) m
      else m
    let fw (m : Mem) : Mem :=
      if o.fawn then
        forRange v.rows (fun i m => m.wrN (packFawnAt off v o + i * v.cols) v.cols (packCodes 8 (x.rowFawns v i v.cols))) m
      else m
    (.ok, (s.setHerd h { s.herd h with mem := fw (rc (el (s.herd h).mem)) }).pmcHerd h 8 (spanLines off (packEnd off v o - off)))

/-! ### The MOV instructions -/

/-- End a piece of work of an instruction: launched, or its segment ended (R199). -/
def tFinish (t idx : Nat) (x : TIns) (r : Run) (eaddr : Nat) (a : TEnd × State) : State :=
  match a.1 with
  | .ok => a.2.launched t idx x eaddr
  | .mem e => a.2.segLd t r idx e
  | .cause c => a.2.segFault t r idx c c 0

/-- A store through a frozen descriptor writes nothing and is counted, or ends its segment as TRAP does (R254). -/
def State.frozenStore (s : State) (t idx : Nat) (x : TIns) (r : Run) : State :=
  let p := (s.partOfTile t).getD 0
  match (s.part p).run with
  | some k =>
    match s.slot? p k with
    | some c =>
      if c.fget R.SCH_UPD_CTL F.SCH_UPD_CTL_FROZEN_FAULT = 1 then s.segFault t r idx 9 0x11 0xF201
      else (s.modSlot p k fun c => c.fadd R.SCH_UPD_STAT F.SCH_UPD_STAT_FROZEN_UPDATE 1).launched t idx x 0
    | none => s
  | none => s

/-- The work of a MOV between unified memory and tile memory: `f` is its work in one member, and `got` holds the lines that have come for
it. -/
def State.movAll (s : State) (t idx : Nat) (o : MovOps) (r : Run) (ten : Ten) (got : Map Ld)
    (f : State → Reach → Ten → View → MovOps → Nat → TEnd × State) : TEnd × State :=
  let p := (s.partOfTile t).getD 0
  tAll ((List.range r.members.length).map fun m => (m, r.members.getD m 0))
    (fun e s => f s (Reach.ins p e.2 t idx got) ten ((r.viewsAt idx e.1).getD o.view {}) o e.2) s

/-- The work of a MOV between herd memory and tile memory. -/
def State.movHerd (s : State) (t idx : Nat) (o : MovOps) (r : Run) (f : State → Nat → View → MovOps → Nat → TEnd × State) :
    TEnd × State :=
  tAll ((List.range r.members.length).map fun m => (m, r.members.getD m 0))
    (fun e s => f s (t / 12) ((r.viewsAt idx e.1).getD o.view {}) o e.2) s

/-- The work of a MOV: `got` holds the lines that have come for it. -/
def State.movWork (s : State) (t idx : Nat) (op : MovOp) (o : MovOps) (r : Run) (got : Map Ld) : TEnd × State :=
  let far (f : State → Reach → Ten → View → MovOps → Nat → TEnd × State) : TEnd × State :=
    match movSlot r.img o with
    | some ten => s.movAll t idx o r ten got f
    | none => (.cause 3, s)
  match op with
  | .ld => far State.ldMember
  | .st => far State.stMember
  | .strec => far State.strecMember
  | .hld => s.movHerd t idx o r State.hldMember
  | .hst => s.movHerd t idx o r State.hstMember

/-- A MOV that stores. -/
def movStores : MovOp → Bool
  | .ld => false
  | .hld => false
  | _ => true

/-- EADDR of a MOV (R462). -/
def State.movEaddr (s : State) (t : Nat) (op : MovOp) (o : MovOps) (r : Run) : Nat :=
  if op == .hld || op == .hst then (s.tile t).herdOff o.org
  else
    match movSlot r.img o with
    | some ten => ten.addr ((s.tile t).origin o.org).1 ((s.tile t).origin o.org).2 % 2 ^ 56
    | none => 0

/-- A MOV whose accesses are still to be made is in flight: a store keeps what it is to write. -/
def State.movHeld (s : State) (t idx : Nat) (op : MovOp) (o : MovOps) (r : Run) (marks : List (Nat × Nat)) : State :=
  s.launchHeld t idx (.mov op o) (if movStores op then r.members.map fun u => (s.tile u).mem else []) none (s.movEaddr t op o r) marks

/-- A MOV is a store through a frozen descriptor. -/
def movFrozen (op : MovOp) (o : MovOps) (r : Run) : Bool :=
  (op == .st || op == .strec) && (match movSlot r.img o with | some ten => ten.d.frozen | none => false)

/-- A MOV is carried out. Where its accesses must wait, for a line that has to come over the fabric, for the end of a final phase or of a
refresh slot, or for tokens, the whole of its work waits (R62, R184, R291, R308, R343). -/
def State.mov (s : State) (t idx : Nat) (op : MovOp) (o : MovOps) (r : Run) : State :=
  if movFrozen op o r then s.frozenStore t idx (.mov op o) r
  else
    match s.workNow (movUnit t) false fun s => s.movWork t idx op o r [] with
    | .done e s1 => tFinish t idx (.mov op o) r (s.movEaddr t op o r) (e, s1)
    | .halts h => (s.movHeld t idx op o r []).haltAt (movUnit t) h
    | .waits s1 m => s1.movHeld t idx op o r m

/-- A MOV issues behind one whose accesses are still to be made. -/
def State.movLater (s : State) (t idx : Nat) (op : MovOp) (o : MovOps) (r : Run) : State :=
  if movFrozen op o r then s.frozenStore t idx (.mov op o) r else s.movHeld t idx op o r []

/-- Issue a MOV. -/
def State.issueMov (s : State) (t idx : Nat) (op : MovOp) (o : MovOps) : State :=
  s.issueOr t idx (.mov op o) (fun r s => s.mov t idx op o r) fun r s => s.movLater t idx op o r

/-- A store to the next slot of a segment pushed outside an UPD task stalls while the generation of that slot is pinned
(R246). -/
def State.storeReady (s : State) (t : Nat) (o : MovOps) : Bool :=
  match (s.tile t).run, s.ctxOfHerd (t / 12) with
  | some r, some (_, x) =>
    o.vsel != .next || r.img.upd || x.pins (1 - r.img.gen) == 0
      || (match r.img.descs[o.dslot]? with | some d => d.frozen || (r.img.cur.getD o.dslot none).isNone | none => true)
  | _, _ => true

/-- LD (R173). -/
def execLd (t idx : Nat) (ops : MovOps) (s : State) : Host.Outcome State Fault Refusal :=
  s.runIf (instrWf (.ld t idx ops))
    (s.issueMov t idx .ld ops)

/-- ST (R173). -/
def execSt (t idx : Nat) (ops : MovOps) (s : State) : Host.Outcome State Fault Refusal :=
  s.runIf (instrWf (.st t idx ops))
    (if s.storeReady t ops then s.issueMov t idx .st ops else s)

/-- STREC (R173). -/
def execStrec (t idx : Nat) (ops : MovOps) (s : State) : Host.Outcome State Fault Refusal :=
  s.runIf (instrWf (.strec t idx ops))
    (if s.storeReady t ops then s.issueMov t idx .strec ops else s)

/-- HLD (R173). -/
def execHld (t idx : Nat) (ops : MovOps) (s : State) : Host.Outcome State Fault Refusal :=
  s.runIf (instrWf (.hld t idx ops)) (s.issueMov t idx .hld ops)

/-- HST (R173). -/
def execHst (t idx : Nat) (ops : MovOps) (s : State) : Host.Outcome State Fault Refusal :=
  s.runIf (instrWf (.hst t idx ops)) (s.issueMov t idx .hst ops)

/-! ### MMUL -/

/-- A ZERO or LOAD on a set that is being drained waits until its last row has been written (R134). -/
def State.mmulReady (s : State) (t : Nat) (o : MmulOps) : Bool :=
  match (s.tile t).run with
  | some r => o.init == .cont || r.array.all fun f => f.drain != some o.set
  | none => false

/-- The set of a member is valid. -/
def State.setValid (s : State) (u set : Nat) : Bool := bit (s.fget (R.TIL_MMA_STATUS u) F.TIL_MMA_STATUS_SET_VALID) set

/-- The bits of TIL_MMA_STATUS that an MMUL leaves (R115, R122, R127). -/
def State.mmaFlags (s : State) (u : Nat) (o : MmulOps) (d : MmaDone) : State :=
  let g := R.TIL_MMA_STATUS u
  let out := o.okind != .none
  let s1 := s.fset g F.TIL_MMA_STATUS_SET_VALID (setBits (s.fget g F.TIL_MMA_STATUS_SET_VALID) o.set 1 (b2n !out))
  let s2 := s1.when out fun s => s.fset g F.TIL_MMA_STATUS_SET_DRAINING (setBits (s.fget g F.TIL_MMA_STATUS_SET_DRAINING) o.set 1 1)
  let s3 := s2.when d.nf fun s => s.fset g F.TIL_MMA_STATUS_IN_NONFINITE 1
  s3.when d.sat fun s => (s.fset g F.TIL_MMA_STATUS_INT_SAT 1).fadd g F.TIL_MMA_STATUS_SAT_COUNT 1

/-- Array element positions that an MMUL writes (R128): all of a register destination, those within a view destination. -/
def mmaWritten (vs : List View) (o : MmulOps) (p : PSlot) (m i j : Nat) : Bool :=
  match o.okind with
  | .none => false
  | .regs => true
  | .view =>
    match vs[o.out]? with
    | some v => v.holds (p.rowoff + i) (p.coloff + 128 * m + j)
    | none => false

/-- A member's statistics unit receives the exponents of an MMUL with PG (R221, R222). -/
def State.mmaStats (s : State) (t idx : Nat) (o : MmulOps) (p : PSlot) (m u : Nat) (r : Run) : State :=
  match (s.tile t).run with
  | none => s
  | some now =>
    let mine := Map.get [] now.stats m
    let a := statsAdd mine ((s.tile u).sval (4 * o.keygrp)) (pgStats o p (s.tile u) (mmaWritten (r.viewsAt idx m) o p m))
    let s1 := s.modTile t fun x => { x with run := some { now with stats := Map.put [] now.stats m a.1 } }
    let q := (s.partOfTile t).getD 0
    match (s.part q).run with
    | some k => s1.modSlot q k fun c => c.fadd R.SCH_NUM_STAT F.SCH_NUM_STAT_PG_DROPPED a.2
    | none => s1

/-- An MMUL in one member; A is what the lead held before the instruction wrote anything (R112, R131). -/
def State.mmulMember (s : State) (t idx : Nat) (o : MmulOps) (p : PSlot) (r : Run) (lead : Tile) (m u : Nat) : State :=
  let d := mmaRun (s.numCtx t r) lead (s.tile u) (r.viewsAt idx 0) (r.viewsAt idx m) o p m
  let s1 := (((s.setTile u { d.tile with run := (s.tile u).run }).setVflags u d.flags).mmaFlags u o d)
  s1.when o.pg fun s => s.mmaStats t idx o p m u r

/-- An MMUL in one member whose output to registers waits (R186): the products are accumulated. -/
def State.mmulAccum (s : State) (t idx : Nat) (o : MmulOps) (p : PSlot) (r : Run) (lead : Tile) (m u : Nat) : State :=
  let d := mmaRun (s.numCtx t r) lead (s.tile u) (r.viewsAt idx 0) (r.viewsAt idx m) o p m
  let s1 := (s.modTile u fun x => { x with acc := d.tile.acc, accNf := d.tile.accNf }).mmaFlags u o d
  s1.when o.pg fun s => s.mmaStats t idx o p m u r

/-- The output of an MMUL to the registers of its members (R123, R126). -/
def State.mmulOut (s : State) (t idx : Nat) (o : MmulOps) (r : Run) : State :=
  s.vecMembers r fun _ u => outRegs (s.numCtx t r) o (r.slotOf idx (.mmul o)) ((s.numCtx t r).keys u o.keygrp) u

/-- MMUL (R174): CONTINUE into an invalid set, and a record that R87 does not allow, end the segment; `held` where its output to registers
waits. -/
def State.mmul (s : State) (t idx : Nat) (o : MmulOps) (held : Bool) (r : Run) : State :=
  let p := r.slotOf idx (.mmul o)
  if o.init == .cont && r.anyMember fun _ u => !s.setValid u o.set then
    (r.onMembers (fun _ u s => s.when (!s.setValid u o.set) fun s => s.fset (R.TIL_MMA_STATUS u) F.TIL_MMA_STATUS_STALE_ACC 1)
      s).segFault t r idx 4 4 0
  else if r.anyMember fun m u => !mmaScaleOk (s.tile t) (s.tile u) (r.viewsAt idx 0) (r.viewsAt idx m) o p m then
    s.segFault t r idx 5 5 0
  else
    let lead := s.tile t
    let drain := if o.okind == .none then none else some o.set
    let ea := 2 ^ 63 + ((r.viewsAt idx 0).getD o.av {}).base
    if held then (r.onMembers (fun m u s => s.mmulAccum t idx o p r lead m u) s).launchHeld t idx (.mmul o) [] drain ea []
    else (r.onMembers (fun m u s => s.mmulMember t idx o p r lead m u) s).launch t idx (.mmul o) .plain true [] drain ea

/-- MMUL (R174). -/
def execMmul (t idx : Nat) (ops : MmulOps) (s : State) : Host.Outcome State Fault Refusal :=
  s.runIf (instrWf (.mmul t idx ops))
    (if s.mmulReady t ops then
      s.issueOr t idx (.mmul ops) (fun r s => s.mmul t idx ops false r) fun r s => s.mmul t idx ops true r
    else s)

end Sys2Proof.Machine
end

