-- ==== Sys2Proof/Machine/TileSeg.lean ====
section
/-!
DEFINITION. TileSeg.lean: the life of a segment, from its push to its retirement, with the scalar and numeric control registers of
a tile and the gangs of a herd (R60, R129, R130, R137, R195 to R199, R222, R491).
-/

namespace Sys2Proof.Machine

/-! ### Gangs (R129, R130) -/

/-- Tile i of a herd, from 1 on, belongs to the gang of tile i - 1. -/
def State.joined (s : State) (h i : Nat) : Bool :=
  i != 0 && bit (s.fget (R.HRD_GANG h) F.HRD_GANG_ACTIVE_JOIN) (i - 1)

/-- The local number of the lead of tile i's gang. -/
def State.leadOf (s : State) (h : Nat) : Nat → Nat
  | 0 => 0
  | i + 1 => if s.joined h (i + 1) then State.leadOf s h i else i + 1

/-- The members of the gang that a tile leads, itself first (R7). -/
def State.gangOf (s : State) (t : Nat) : List Nat :=
  ((List.range 12).filter fun i => s.leadOf (t / 12) i == t % 12).map fun i => t / 12 * 12 + i

/-- A tile leads its gang, or is in none. -/
def State.isLead (s : State) (t : Nat) : Bool := s.leadOf (t / 12) (t % 12) == t % 12

/-- A pending setting of the gangs of a herd (R129): JOIN and WIDTH as they were last written. -/
def State.gangPending (s : State) (h : Nat) : Nat × Nat :=
  ((s.herd h).gangPend).getD (s.fget (R.HRD_GANG h) F.HRD_GANG_JOIN, s.fget (R.HRD_GANG_WIDTH h) F.HRD_GANG_WIDTH_WIDTH)

/-- Make a gang setting pending. -/
def State.pendGang (s : State) (h join width : Nat) : State :=
  (s.setHerd h { s.herd h with gangPend := some (join, width) }).fset (R.HRD_GANG h) F.HRD_GANG_PENDING 1

/-- The effect of a write of HRD_GANG (R16, R129). -/
def gangWriteEffect (h value : Nat) (s : State) : State :=
  let width := (s.gangPending h).2
  let s1 := s.when (bit value 15) fun s => s.fset (R.HRD_GANG h) F.HRD_GANG_PUSH_REFUSED 0
  (s1.fset (R.HRD_GANG h) F.HRD_GANG_JOIN (bits value 1 11)).pendGang h (bits value 1 11) width

/-- GANG_WRITE (R129). -/
def execGangWrite (a : Agent) (h value : Nat) (s : State) : Host.Outcome State Fault Refusal :=
  s.runIf (instrWf (.gangWrite a h value)) (s.writeReg a .hrd h (R.HRD_GANG h) (gangWriteEffect h value))

/-- Widths that HRD_GANG_WIDTH permits. -/
def gangWidths : List Nat := [0, 2, 3, 4, 6, 12]

/-- The effect of a write of HRD_GANG_WIDTH (R14, R129). -/
def gangWidthEffect (a : Agent) (h value : Nat) (s : State) : State :=
  let w := bits value 0 4
  if gangWidths.contains w || w == s.fget (R.HRD_GANG_WIDTH h) F.HRD_GANG_WIDTH_WIDTH then
    let join := (s.gangPending h).1
    (s.fset (R.HRD_GANG_WIDTH h) F.HRD_GANG_WIDTH_WIDTH w).pendGang h join w
  else s.badWrite a (R.HRD_GANG_WIDTH h)

/-- GANG_WIDTH_WRITE (R129). -/
def execGangWidthWrite (a : Agent) (h value : Nat) (s : State) : Host.Outcome State Fault Refusal :=
  s.runIf (instrWf (.gangWidthWrite a h value)) (s.writeReg a .hrd h (R.HRD_GANG_WIDTH h) (gangWidthEffect a h value))

/-- ACTIVE_JOIN of gangs of one width: tile i is joined to tile i - 1 unless it leads its gang (R129). -/
def widthJoin (w : Nat) : Nat := sumList ((List.range 11).map fun i => b2n ((i + 1) % w != 0) * 2 ^ i)

/-- GANG_APPLY (R60, R129): at a boundary at which no tile of the herd runs a segment. -/
def execGangApply (h : Nat) (s : State) : Host.Outcome State Fault Refusal :=
  s.runIf (instrWf (.gangApply h)) (
    match (s.herd h).gangPend with
    | some (join, width) =>
      if s.clk.phase < 9 && (herdTiles h).all fun t => (s.tile t).run.isNone then
        let s1 := s.setHerd h { s.herd h with gangPend := none }
        ((s1.fset (R.HRD_GANG h) F.HRD_GANG_PENDING 0).fset (R.HRD_GANG h) F.HRD_GANG_ACTIVE_JOIN
          (if width = 0 then join else widthJoin width)).fset (R.HRD_GANG h) F.HRD_GANG_ACTIVE_WIDTH width
      else s
    | none => s)

/-! ### Scalars and numeric control -/

/-- The effect of a write of TIL_SREGn (R14, R137). -/
def sregEffect (a : Agent) (t n value : Nat) (s : State) : State :=
  if bits value 32 2 = 3 then s.badWrite a (R.TIL_SREG t n) else s.putSreg t n (bits value 0 34)

/-- SREG_WRITE (R137). -/
def execSregWrite (a : Agent) (t n value : Nat) (s : State) : Host.Outcome State Fault Refusal :=
  s.runIf (instrWf (.sregWrite a t n value)) (s.writeReg a .til t (R.TIL_SREG t n) (sregEffect a t n value))

/-- The effect of a write of TIL_NUMCTL (R491): the running segment keeps the value in force at its start. -/
def numctlEffect (t value : Nat) (s : State) : State :=
  (s.fset (R.TIL_NUMCTL t) F.TIL_NUMCTL_SR_EN (bits value 1 1)).fset (R.TIL_NUMCTL t) F.TIL_NUMCTL_E4M3_INF (bits value 0 1)

/-- NUMCTL_WRITE (R491). -/
def execNumctlWrite (a : Agent) (t value : Nat) (s : State) : Host.Outcome State Fault Refusal :=
  s.runIf (instrWf (.numctlWrite a t value)) (s.writeReg a .til t (R.TIL_NUMCTL t) (numctlEffect t value))

/-! ### Push -/

/-- Entries of a segment queue. -/
def segQueueSize : Nat := 64

/-- The context that a push is for: the running context of the partition; 256, which names none, where there is none. -/
def State.pushCtx (s : State) (t : Nat) : Nat := ((s.ctxOfHerd (t / 12)).map fun e => e.2.ctx).getD 256
/-- A push is for the task that the herd popped last and has not reported: that is an UPD task (R246, log entry 26). -/
def State.pushUpd (s : State) (t : Nat) : Bool :=
  match (s.herd (t / 12)).popped.getLast? with
  | some q => q.upd.isSome
  | none => false

/-- Progress of a herd and its die (R69). -/
def State.progress (s : State) (h : Nat) : State :=
  { s.setHerd h { s.herd h with wd := 0 } with dieWd := Map.put 0 s.dieWd (h / 8) 0 }

/-- An accepted push counts as a heartbeat of the pushing control core, and so as progress of its herd (R69, R195). -/
def State.pushBeat (s : State) (a : Agent) : State :=
  match a with
  | .control c _ => ((s.setCore c { s.core c with hb := 0 }).progress (c / 2)).pmcHerd (c / 2) 3 1
  | _ => s

/-- A push is lost (R195). -/
def State.pushLost (s : State) (t : Nat) : State :=
  (s.fset (R.TIL_SEG_STATUS t) F.TIL_SEG_STATUS_PUSH_LOST 1).pmcHerd (t / 12) 4 1

/-- The effect of a write of TIL_SEGQ_PUSH that reaches the tile (R195). -/
def segqPushEffect (a : Agent) (t value : Nat) (s : State) : State :=
  if !s.isLead t then (s.fset (R.HRD_GANG (t / 12)) F.HRD_GANG_PUSH_REFUSED 1).pushLost t
  else if s.tileFenced t || decide (segQueueSize ≤ (s.tile t).queue.length) then s.pushLost t
  else
    (s.modTile t fun x =>
      { x with queue := x.queue ++ [{ herd := bit value 63, addr := bits value 6 50 * 64, ctx := s.pushCtx t, upd := s.pushUpd t }] }).pushBeat a

/-- SEGQ_PUSH (R195, R417): a push to an absent tile is not accepted and sets PUSH_LOST. -/
def execSegqPush (a : Agent) (t value : Nat) (s : State) : Host.Outcome State Fault Refusal :=
  s.runIf (instrWf (.segqPush a t value)) (
    let s1 := s.writeReg a .til t (R.TIL_SEGQ_PUSH t) (segqPushEffect a t value)
    let e := s.entry a .til t (R.TIL_SEGQ_PUSH t) true
    s1.when (e == .absent) fun s => s.pushLost t)

/-! ### Fetch (R196) -/

/-- Read 64-bit words of an image or a descriptor, from herd memory or from unified memory; a herd-memory offset past its end is an
address decode error. -/
def State.fetchWords (s : State) (t : Nat) (herd : Bool) (a n : Nat) : Option (List Nat) × Ld × State :=
  if herd then
    if a + 8 * n ≤ herdSpace then (some (toWords 64 n ((s.herd (t / 12)).mem.rdN a (8 * n))), .ok 0, s.pmcHerd (t / 12) 7 (spanLines a (8 * n)))
    else (none, .decode, s.decodeErr)
  else
    match s.load (Reach.tile ((s.partOfTile t).getD 0) t) a (8 * n) with
    | (.ok v, s1) => (some (toWords 64 n v), .ok 0, s1)
    | (e, s1) => (none, e, s1)

/-- Read the descriptors that pointer words name (R193); the first that cannot be read ends the fetch. -/
def State.fetchDescs (t : Nat) : List Nat → State → Option (List (List Nat)) × Ld × State
  | [], s => (some [], .ok 0, s)
  | w :: l, s =>
    match s.fetchWords t (bit w 63) (bits w 6 50 * 64) 8 with
    | (some ws, _, s1) =>
      match State.fetchDescs t l s1 with
      | (some r, e, s2) => (some (ws :: r), e, s2)
      | (none, e, s2) => (none, e, s2)
    | (none, e, s1) => (none, e, s1)

/-- The image of a segment after its header: pointer words, view entries of two words each, and instruction words. -/
structure Image where
  hdr : Header
  ptrs : List Nat
  views : List (Option View)
  code : List Nat
deriving DecidableEq, Repr

/-- The parts of an image (R193). -/
def imageOf (h : Header) (ws : List Nat) : Image :=
  let body := ws.drop (1 + h.nDesc)
  { hdr := h, ptrs := (ws.drop 1).take h.nDesc,
    views := (List.range h.nView).map fun i => viewOf (body.getD (2 * i) 0 + 2 ^ 64 * body.getD (2 * i + 1) 0),
    code := (body.drop (2 * h.nView)).take h.nInstr }

/-- Words of an image. -/
def Header.words (h : Header) : Nat := 1 + h.nDesc + 2 * h.nView + h.nInstr

/-- A descriptor slot that a MOV between unified memory and tile memory names. -/
def movNames (k : Nat) (w : Nat) : Bool :=
  match tileDecode w with
  | some (.mov .ld o) => o.dslot == k
  | some (.mov .st o) => o.dslot == k
  | some (.mov .strec o) => o.dslot == k
  | _ => false

/-- The segment check of R196 on an image and the words of its descriptors. -/
def segLegal (period : Nat) (im : Image) (dws : List (List Nat)) : Bool :=
  let vs := im.views.filterMap id
  let fmts := dws.map fun ws => fmtOf (bits (ws.getD 0 0) 60 4)
  let ds := dws.map fun ws => descFields ((fmtOf (bits (ws.getD 0 0) 60 4)).getD .i16) ws
  decide (im.hdr.budget ≤ period) && im.ptrs.all ptrOk && vs.length == im.views.length && vs.all View.valid
    && ((List.range fmts.length).all fun k => (fmts.getD k none).isSome || im.code.all fun w => !movNames k w)
    && codeOk ds (im.ptrs.map fun w => w % 4) vs defaultSlots im.code

/-- The index of the first instruction that makes a segment illegal, 0 where the fault lies elsewhere. -/
def segBadIdx (im : Image) (dws : List (List Nat)) : Nat :=
  let vs := im.views.filterMap id
  let ds := dws.map fun ws => descFields ((fmtOf (bits (ws.getD 0 0) 60 4)).getD .i16) ws
  ((List.range im.code.length).find? fun i => !codeOk ds (im.ptrs.map fun w => w % 4) vs defaultSlots (im.code.take (i + 1))).getD 0

/-- The descriptor check of R166 over the descriptors of a segment: 0, FORMAT or RANGE, FORMAT first (R20). -/
def descsStatus (dws : List (List Nat)) : Nat :=
  let ok (ws : List Nat) : Bool := match descOf ws with | some d => d.formatOk | none => false
  let range (ws : List Nat) : Bool := match descOf ws with | some d => d.rangeOk | none => true
  if !dws.all ok then 3 else if !dws.all range then 2 else 0

/-- The slot that VSEL = current names (R241, R242): P XOR G of the version table entry with V = 1. -/
def curSlot (x : Slot) (d : Desc) : Option Nat :=
  if !d.versioned || d.frozen then some 0
  else if 65536 ≤ d.tensorId then none
  else
    let e := bits (x.fget (R.SCH_VTAB (d.tensorId / 32)) F.SCH_VTAB_ENTRIES) (2 * (d.tensorId % 32)) 2
    if bit e 0 then some (b2n (bit e 1) ^^^ x.gen) else none

/-- The head of a segment queue is dropped. -/
def State.dropHead (s : State) (t : Nat) : State := s.modTile t fun x => { x with queue := x.queue.drop 1, fetched := none }

/-- The fetch of the head of a queue fails at memory (R196, R199). -/
def State.fetchFail (s : State) (t ctx segId : Nat) (e : Ld) : State :=
  let s1 := s.dropHead t
  match e with
  | .ok _ => s1
  | .decode => s1.tileFault t segId 0 3 3 0 ctx
  | .data => s1.tileFault t segId 0 3 0x14 0 ctx
  | .timeout => ((s1.segRecord t segId 0 0xC).segReport t segId 6).segTask (t / 12) 6
  | .wait _ => s1

/-- The checks of a fetched segment, in the order segment check, descriptor check (R196, R199). -/
def State.fetchCheck (s : State) (t : Nat) (q : SegRef) (x : Slot) (im : Image) (dws : List (List Nat)) : State :=
  if !segLegal s.period im dws then (s.dropHead t).tileFault t im.hdr.segId (segBadIdx im dws) 1 1 0 q.ctx
  else if descsStatus dws ≠ 0 then ((s.dropHead t).segRecord t im.hdr.segId 0 2).segTask (t / 12) (descsStatus dws)
  else
    let ds := dws.filterMap descOf
    s.modTile t fun y =>
      { y with fetched := some { segId := im.hdr.segId, budget := im.hdr.budget, fit := im.hdr.fit, upd := q.upd, gen := x.gen, descs := ds,
                                 cur := ds.map (curSlot x),
                                 views := im.views.filterMap id, code := im.code } }

/-- The segment of a GATHER task, which the step scheduler has built: its work has no instructions that software could see (R230). -/
def SegRef.gatherImg (q : SegRef) (budget gen : Nat) : SegImg :=
  { segId := q.addr, budget := budget, fit := false, gather := q.gather, gen := gen, descs := [], cur := [], views := [], code := [] }

/-- The image at the head of a queue is read, with its descriptors, and checked (R193, R196). A fault at a header that cannot be read records
SEG_ID 0 (log entry 110). -/
def State.fetchImage (s : State) (t : Nat) (q : SegRef) (x : Slot) : State :=
  match s.fetchWords t q.herd q.addr 1 with
  | (none, e, s1) => s1.fetchFail t q.ctx 0 e
  | (some w, _, s1) =>
    match headerOf (w.getD 0 0) with
    | none => (s1.dropHead t).tileFault t (bits (w.getD 0 0) 48 16) 0 1 1 0 q.ctx
    | some h =>
      match s1.fetchWords t q.herd q.addr h.words with
      | (none, e, s2) => s2.fetchFail t q.ctx h.segId e
      | (some ws, _, s2) =>
        match State.fetchDescs t (imageOf h ws).ptrs s2 with
        | (none, e, s3) => s3.fetchFail t q.ctx h.segId e
        | (some dws, _, s3) => s3.fetchCheck t q x (imageOf h ws) dws

/-- SEGMENT_FETCH (R196): the reads wait for lines that come over the fabric (R343). -/
def execSegmentFetch (t : Nat) (s : State) : Host.Outcome State Fault Refusal :=
  s.runIf (instrWf (.segmentFetch t)) (
    match (s.tile t).queue, (s.tile t).fetched, s.ctxOfHerd (t / 12) with
    | q :: _, none, some (p, x) =>
      if q.ctx != x.ctx || (s.part p).sw.isSome || s.tileFenced t then s
      else if q.gather.isSome then s.modTile t fun y => { y with fetched := some (q.gatherImg s.period x.gen) }
      else s.work (fetchUnit t) fun s => s.fetchImage t q x
    | _, _, _ => s)

/-! ### Start and retirement -/

/-- Cycles before the next boundary. -/
def State.cyclesLeft (s : State) : Nat := s.period - s.clk.tb % s.period

/-- The fetched segment of a tile may start (R60, R197). What was queued at a tile before it became a member of a gang other than its lead
waits for the end of the gang (log entry 94). -/
def State.canStart (s : State) (t : Nat) (img : SegImg) (p : Nat) (x : Slot) : Bool :=
  (s.tile t).run.isNone && s.isLead t && (match (s.tile t).queue with | q :: _ => q.ctx == x.ctx | [] => false)
    && (s.part p).sw.isNone && (s.gangOf t).all (fun u => !s.tileFenced u && (s.tile u).run.isNone)
    && (!img.fit || decide (img.budget ≤ s.cyclesLeft))

/-- Held scalar writes take effect (R137). -/
def Tile.takeHeld (x : Tile) : Tile :=
  { x with sregs := x.sregHeld.foldl (fun m e => Map.put 0 m e.1 e.2) x.sregs, sregHeld := [] }

/-- The run of a segment that starts. -/
def startRun (img : SegImg) (members : List Nat) (tb numctl ctx : Nat) : Run :=
  { img := img, next := [0, 0, 0, 0, 0], vbases := [], pslots := [], creds := List.replicate 12 0, finished := 0, dma := [],
    array := [], vector := [], store := [], start := tb, bounds := 0, overran := false, overBudget := false, numctl := numctl,
    members := members, stats := [], ctx := ctx, lastIdx := 0 }

/-- The TIL_NUMCTL of a tile, as its low bits. -/
def State.numctl (s : State) (t : Nat) : Nat :=
  2 * s.fget (R.TIL_NUMCTL t) F.TIL_NUMCTL_SR_EN + s.fget (R.TIL_NUMCTL t) F.TIL_NUMCTL_E4M3_INF

/-- SEGMENT_START (R197). The TIL_NUMCTL of the lead governs the whole gang segment (R491; log entry 103). -/
def execSegmentStart (t : Nat) (s : State) : Host.Outcome State Fault Refusal :=
  s.runIf (instrWf (.segmentStart t)) (
    match (s.tile t).fetched, s.ctxOfHerd (t / 12) with
    | some img, some (p, x) =>
      if !s.canStart t img p x then s
      else
        let ms := s.gangOf t
        let s1 := ms.foldl (fun s u => (s.dropAcc u).modTile u Tile.takeHeld) s
        (s1.dropHead t).modTile t fun y => { y with run := some (startRun img ms s.clk.tb (s.numctl t) x.ctx) }
    | _, _ => s)

/-- Add two lists of counts. -/
def addBins (a b : List Nat) : List Nat := (List.range 32).map fun i => a.getD i 0 + b.getD i 0

/-- Add a report to a per-step table (R222). -/
def addStats (rows : List PgRow) (slot : Nat) (st : StatRec) : List PgRow :=
  let m : Option Int := if st.maxexp = -512 then none else some st.maxexp
  let up (a : Option Int) : Option Int :=
    match a, m with
    | some x, some y => some (max x y)
    | some x, none => some x
    | none, y => y
  if rows.any fun r => r.slot == slot then
    rows.map fun r => if r.slot == slot then { r with bins := addBins r.bins st.bins, maxexp := up r.maxexp } else r
  else rows ++ [{ slot := slot, bins := addBins [] st.bins, maxexp := m }]

/-- The enabled slot of a context whose TENSOR_ID is a number: the lowest, where two have it (log entry 110). -/
def Slot.pgSlot (x : Slot) (tensor : Nat) : Option Nat :=
  firstUpTo 64 fun n => x.fget (R.SCH_PG n) F.SCH_PG_EN == 1 && x.fget (R.SCH_PG_ID n) F.SCH_PG_ID_TENSOR_ID == tensor

/-- A statistics report reaches the step scheduler, or is dropped and counted (R222). -/
def Slot.report (x : Slot) (st : StatRec) : Slot :=
  match x.pgSlot st.tensor with
  | some n => { x with step := { x.step with stats := addStats x.step.stats n st } }
  | none => x.fadd R.SCH_NUM_STAT F.SCH_NUM_STAT_PG_DROPPED 1

/-- Count a retired segment in a tile (R198). -/
def State.countSeg (s : State) (u segId : Nat) : State :=
  let g := R.TIL_SEG_RETIRED u
  (s.fset g F.TIL_SEG_RETIRED_COUNT (s.fget g F.TIL_SEG_RETIRED_COUNT + 1)).fset g F.TIL_SEG_RETIRED_LAST_SEG_ID segId

/-! ### Gather segments (R230) -/

/-- Live uses of a group, ascending. -/
def StepSt.liveUses (st : StepSt) (g : Nat) : List Nat := (List.range 8).filter fun u => st.live8.contains (8 * (g - 1) + u)

/-- Groups with a live use, ascending. -/
def StepSt.liveGroups (st : StepSt) : List Nat :=
  ((List.range 255).map fun g => g + 1).filter fun g => (st.liveUses g) != []

/-- Count a refusal of a GATHER task and hold the job (R252, R255). -/
def State.gatherRefused (s : State) (p k status : Nat) : State :=
  (s.modSlot p k fun x => x.fadd R.SCH_PIPE_STAT F.SCH_PIPE_STAT_REFUSED 1).taskFail p k [] status

/-- How the work of a GATHER segment ends on tile t: it is done, its task is refused, or the segment ends as any other (R199, R230,
R255). -/
def State.gatherEnd (s : State) (p k t : Nat) (r : Run) (e : GatherEnd) : State :=
  if e.status ≠ 0 then (s.stopRun t).gatherRefused p k e.status
  else
    match e.mem with
    | .ok _ => s.modRun t fun r => { r with gathered := true }
    | .timeout => (((s.stopRun t).segRecord t r.img.segId 0 0xC).segReport t r.img.segId 6).abortAndStot p k {}
    | e => s.segLd t r 0 e

/-- A GATHER segment does its work, which waits for the lines that it reads (R230, R343). -/
def State.gatherWork (s : State) (p k g t : Nat) (r : Run) : State :=
  match s.slot? p k with
  | some x =>
    if x.ctx = r.ctx ∧ x.step.gathers.contains g then
      s.work (gatherUnit t) fun s =>
        match s.gatherGroup t (Reach.tile p t) (s.numCtx t r).e4inf p x g (x.step.liveUses g) with
        | (e, s1) => s1.gatherEnd p k t r e
    else s.modRun t fun r => { r with gathered := true }
  | none => s.modRun t fun r => { r with gathered := true }

/-- What is still to be done of the segment of a tile whose instructions have all completed: the work of a GATHER segment. -/
def State.segWork (s : State) (t : Nat) (r : Run) : State :=
  match r.img.gather, s.partOfTile t with
  | some g, some p => if r.gathered then s else s.gatherWork p g.2 g.1 t r
  | _, _ => s

/-- A GATHER task has ended as it should (R230). -/
def State.gatherDone (s : State) (p : Nat) (r : Run) : State :=
  match r.img.gather with
  | some (g, k) =>
    s.modSlot p k fun x => if x.ctx = r.ctx then { x with step := { x.step with gathers := x.step.gathers.erase g } } else x
  | none => s

/-! ### Retirement -/

/-- A retired segment waits for the next boundary to be reported; one that retires in the cycle of a boundary belongs to the tick
before it and is reported there (R55, R56). -/
def State.noteRetired (s : State) (t segId : Nat) : State :=
  if s.clk.phase < 9 then s.segReport t segId 0 else s.modTile t fun x => { x with report := x.report ++ [segId] }

/-- Every instruction of the segment has completed. -/
def Run.over (r : Run) : Bool :=
  r.finished == r.img.code.length && r.dma.isEmpty && r.array.isEmpty && r.vector.isEmpty && r.store.isEmpty

/-- A segment has nothing left to do: its instructions have completed, and where it is a GATHER segment its work and its writes have
(R198, R230). -/
def State.segOver (s : State) (t : Nat) (r : Run) : Bool := r.over && (r.img.gather.isNone || (r.gathered && !s.unitAsks (gatherUnit t)))

/-- The segment of a tile retires (R198). -/
def State.retireSeg (s : State) (t : Nat) (r : Run) : State :=
  let s1 := r.members.foldl (fun s u => ((s.countSeg u r.img.segId).dropAcc u).pmcTile u 2 1) (s.sampEnd t r)
  let s2 := ((s1.modTile t fun x => { x with run := none, sampFlight := 0 }).noteRetired t r.img.segId).progress (t / 12)
  match s2.partOfTile t with
  | some p =>
    match (s2.part p).run with
    | some k =>
      (s2.modSlot p k fun x => if x.ctx = r.ctx then (r.stats.flatMap fun e => e.2).foldl Slot.report x else x).gatherDone p r
    | none => s2
  | none => s2

/-- SEGMENT_RETIRE (R198). -/
def execSegmentRetire (t : Nat) (s : State) : Host.Outcome State Fault Refusal :=
  s.runIf (instrWf (.segmentRetire t)) (
    match (s.tile t).run with
    | some r =>
      if !r.over then s
      else
        let s1 := s.segWork t r
        match (s1.tile t).run with
        | some r1 => if s1.segOver t r1 then s1.retireSeg t r1 else s1
        | none => s1
    | none => s)

end Sys2Proof.Machine
end

