-- ==== Sys2Proof/Machine/Sched.lean ====
section
/-!
DEFINITION. Sched.lean: the step scheduler up to the end of the update tasks: release, items, tasks, prefetch, gather and the
herd task queues (R44, R105, R228 to R246, R252 to R262, R288, R289, R492).
-/

namespace Sys2Proof.Machine

/-- The partition runs the context of a slot and no switch is in progress: its step may go on (R389, R401). -/
def State.active (s : State) (p k : Nat) : Bool := (s.part p).run == some k && (s.part p).sw.isNone

/-- The context of a slot with a step in flight that no abort awaits, whether it is running or not (R393); none of a step scheduler that is
fenced (R47). -/
def State.inStep (s : State) (p k : Nat) : Option Slot :=
  match s.slot? p k with
  | some x => if x.step.live && x.step.abort.isNone && !s.fenced 5 0 then some x else none
  | none => none

/-- The same for a context that runs: its tasks may be dispatched (R393). -/
def State.stepping (s : State) (p k : Nat) : Option Slot := if s.active p k then s.inStep p k else none

/-- Boundary b lies before the present one, or there is none. -/
def before (b : Option Nat) (now : Nat) : Bool :=
  match b with
  | some t => decide (t < now)
  | none => true

/-! ### Release (R44, R105, R214, R256, R257, R382, R431) -/

/-- The last step has been decided and its pass and staging have completed at an earlier boundary (R44, R214, R431). -/
def Slot.settled (x : Slot) (now : Nat) : Bool :=
  !x.step.live && x.pass == 0 && before x.passAt now && before x.decidedAt now && x.snap.phase != 2
    && !(x.snap.phase == 1 && x.snap.committed)

/-- Tiles of a partition that are present, ascending. -/
def State.partTiles (s : State) (p : Nat) : List Nat :=
  (s.herdList p).flatMap fun h => ((List.range 12).map fun i => 12 * h + i).filter fun t => !s.absent t

/-- The lowest tile whose TIL_NUMCTL differs from that of the partition's lowest tile (R105). -/
def State.numctlDiff (s : State) (p : Nat) : Option Nat :=
  match s.partTiles p with
  | t :: r => r.find? fun u => s.numctl u != s.numctl t
  | [] => none

/-- Read the task table; a record that cannot be read reads as zeros and is refused at its dispatch (R288). -/
def State.readTasks (s : State) (p : Nat) (x : Slot) : List (List Nat) × State :=
  (List.range (x.fget R.SCH_TASK_COUNT F.SCH_TASK_COUNT_COUNT)).foldl
    (fun (a : List (List Nat) × State) i =>
      let z := a.2.loadWords (Reach.sched p) (x.fget R.SCH_TASK_BASE F.SCH_TASK_BASE_ADDR * 64 + 64 * i) 8
      (a.1 ++ [z.1.getD (List.replicate 8 0)], z.2))
    ([], s)

/-- The latch of the step sizes at a release: it takes what each group held before the release cycle, and a write in that cycle leaves
WRITTEN set for the following step (R257). -/
def Slot.lrLatch (x : Slot) (tb : Nat) : Slot :=
  forRange 256 (fun n y =>
    let g := x.lrBefore tb n
    if g.getD 0 0 == 0 then y
    else if g.getD 2 0 == 1 then
      let z := y.fset (R.SCH_LR_LAT n) F.SCH_LR_LAT_LATCHED (g.getD 3 0)
      if x.lrAt = some tb ∧ (x.lrCycle.find? n).isSome then z else z.fset (R.SCH_LR n) F.SCH_LR_WRITTEN 0
    else if g.getD 1 0 == 1 then y.fadd R.SCH_UPD_STAT F.SCH_UPD_STAT_HOLD_REUSE 1
    else y) x

/-- What a release changes in the context (R101, R238, R257, R400): `tasks` is the table as read. -/
def Slot.release (x : Slot) (tasks : List (List Nat)) (now tb : Nat) : Slot :=
  let y := if x.newStep then
      { x.lrLatch tb with stepsLeft := if x.stepsLeft = 0xFFFFFFFF then x.stepsLeft else x.stepsLeft - 1 }
    else x
  let n := y.fget R.SCH_PIPE_TAG F.SCH_PIPE_TAG_RELEASES
  let z := ((y.fset R.SCH_PIPE_TAG F.SCH_PIPE_TAG_RELEASES (n + 1)).fset R.SCH_PIPE_TAG F.SCH_PIPE_TAG_STEP1
    (x.nextStep + 1)).fset R.SCH_VER F.SCH_VER_MB_REF 0
  { z.takePipe with step := { live := true, step := x.nextStep, tasks := tasks, releasedAt := now, prefetched := x.pfAhead },
                    released := some x.nextStep, pfAhead := [], lrCycle := [], lrAt := none, lrEvent := false, blockedTicks := 0, stots := x.stots.filter fun e => decide (now ≤ e.came) }

/-- A release that waits for step sizes (R256). -/
def State.lrWait (s : State) (p k : Nat) (x : Slot) : State :=
  let y := x.fadd R.SCH_UPD_STAT F.SCH_UPD_STAT_LR_WAIT 1
  let s1 := s.setSlot p k { y with lrEvent := true }
  s1.when (!x.lrEvent) fun s =>
    s.event (B.sch p + R.SCH_UPD_STAT) (some F.SCH_UPD_STAT_LR_WAIT) [(x.lrWaiting s.clk.tb).getD 0]

/-- The release of a step that is due (R44, R105). -/
def State.release (s : State) (p k : Nat) (x : Slot) : State :=
  match s.numctlDiff p with
  | some t =>
    (s.setSlot p k (x.fset R.SCH_PIPE_STAT F.SCH_PIPE_STAT_HELD 1)).event (B.sch p + R.SCH_PIPE_STAT)
      (some F.SCH_PIPE_STAT_HELD) [1, x.nextStep, t]
  | none =>
    let z := s.readTasks p x
    let s1 := if x.newStep then z.2.inkBind p x.ctx x.nextStep else z.2
    s1.setSlot p k (x.release z.1 s.tick s.clk.tb)

/-- STEP_RELEASE (R44), for every resident context, whether it is running or not (R393). A release that cannot take place, or waits for
its task table, is examined once at a boundary. -/
def execStepRelease (p slot : Nat) (s : State) : Host.Outcome State Fault Refusal :=
  s.runIf (instrWf (.stepRelease p slot)) (
    match s.slot? p slot with
    | none => s
    | some x =>
      if !(s.atBoundary 6 && x.settled s.tick) || x.relAt == some s.tick || s.fenced 5 0 then s
      else
        let y := { x with relAt := some s.tick }
        let s1 := (s.took 6).setSlot p slot y
        match s1.blockCode p y with
        | 0 => s1.work (schedUnit p slot) fun s => s.release p slot y
        | 3 => s1.lrWait p slot y
        | 4 => s1.inkStarves p
        | _ => s1)

/-! ### Items (R237 to R240) -/

/-- A stage takes what next_item gives it, or starves (R240). -/
def Slot.takeItem (x : Slot) (k : Pick) (now : Nat) : Slot :=
  let st := { x.step with pos := k.pos, ahead := k.ahead }
  match k.item with
  | none =>
    let y := { x with step := st }
    if k.remain then y.fadd R.SCH_PIPE_STAT F.SCH_PIPE_STAT_STARVED 1 else y
  | some it =>
    let y := { x with step := { st with item := some it, itemSince := now, fwdStarted := st.fwdStarted + b2n !it.1 } }
    (if k.extra then y.fadd R.SCH_PIPE_STAT F.SCH_PIPE_STAT_EXTRA_FWDS 1 else y).closeItem

/-- The stage of a slot takes its next item. -/
def State.takeNext (s : State) (p k : Nat) (x : Slot) : State :=
  let z := s.nextItem p x
  z.2.setSlot p k ({ x with itemAt := some s.tick }.takeItem z.1 s.tick)

/-- ITEM_DISPATCH (R240): once at a boundary at which the stage runs no item. -/
def execItemDispatch (p slot : Nat) (s : State) : Host.Outcome State Fault Refusal :=
  s.runIf (instrWf (.itemDispatch p slot)) (
    match s.inStep p slot with
    | none => s
    | some x =>
      if !(s.atBoundary 6 && x.step.item.isNone) || x.itemAt == some s.tick then s
      else (s.took 6).work (schedUnit p slot) fun s => s.takeNext p slot x)

/-! ### Tasks (R228, R231, R236, R244, R253 to R255, R288, R289) -/

/-- A task is refused at its dispatch: it is counted, and R252 applies (R255). -/
def State.refuseTask (s : State) (p k i status : Nat) : State :=
  match s.slot? p k with
  | none => s
  | some x =>
    let y := x.fadd R.SCH_PIPE_STAT F.SCH_PIPE_STAT_REFUSED 1
    let st := { y.step with state := y.step.state.insert i { phase := 2 } }
    (s.setSlot p k { y with step := st }).taskFail p k (x.step.tasks.getD i []) status

/-- Pipeline order and R246 let a task run: an OTHER task at any time, a forward or backward task while its item runs, an UPD
task at a boundary once the next slot is free; a record that no item can hold is met at once. -/
def State.admits (s : State) (x : Slot) (i : Nat) (t : List Nat) : Bool :=
  if tKind t = 0 ∨ 4 < tKind t then true
  else if tKind t = 4 then x.step.updOpen && decide (s.clk.phase < 9)
  else decide (x.nmb ≤ tMb t) || (match x.step.item with | some it => inItem x.step.tasks it i | none => false)

/-- The DEP tasks of a task have retired; an index that R288 refuses waits for nothing. -/
def Slot.depsDone (x : Slot) (i : Nat) (t : List Nat) : Bool :=
  (tDeps t).all fun d => decide (i ≤ d) || (Map.get {} x.step.state d).phase == 2

/-- What the checks at dispatch give a task that is well-formed: its run, a refusal, its completion without dispatch, or a
fault attributed to the job. -/
inductive TaskFate where
  | run (upd : Option (Nat × Nat)) (late : Nat)
  | refuse (status : Nat)
  | frozenSkip
  | frozenUpd
deriving DecidableEq, Repr

/-- The checks on DESC_A (R228, R231, R253, R254, R256), and the prefetches that come late (R276). FROZEN is looked at before the enable of
the group (log entry 110). -/
def State.taskFate (s : State) (p : Nat) (x : Slot) (t : List Nat) : TaskFate × State :=
  let d := s.readDesc (Reach.sched p) (tDesc t)
  if tKind t = 3 then
    (if d.1.status ≠ 0 then .refuse d.1.status else if d.1.desc.frozen then .frozenSkip else .run none 0, d.2)
  else if tKind t = 4 then
    let g := d.1.desc.optGroup
    (if d.1.status ≠ 0 then .refuse d.1.status
      else if d.1.desc.frozen then .frozenUpd
      else if x.fget (R.SCH_LR g) F.SCH_LR_EN = 0 then .refuse 2
      else .run (some (x.fget (R.SCH_LR_LAT g) F.SCH_LR_LAT_LATCHED, x.step.step % 2 ^ 32)) 0, d.2)
  else if tKind t = 2 ∧ (tRecomp t ∨ tDesc t ≠ 0) then
    (if tRecomp t ∧ d.1.status ≠ 0 then .refuse d.1.status
      else if tRecomp t ∧ 65536 < d.1.desc.n0 then .refuse 3
      else .run none (if d.1.status = 0 then (d.2.lateRanges d.1.desc).length else 0), d.2)
  else (.run none 0, s)

/-- Herds that a task may use and that have room in their queues (R288, R289). -/
def State.roomHerds (s : State) (p : Nat) (t : List Nat) : List Nat :=
  (s.mayUse p t).filter fun h => decide ((s.herd h).tasks.length < 4) && !s.fenced 2 h

/-- Put a task on its herds, in rank order. -/
def State.place (s : State) (k i : Nat) (t : List Nat) (upd : Option (Nat × Nat)) : Nat → List Nat → State
  | _, [] => s
  | r, h :: l =>
    State.place (s.setHerd h { s.herd h with tasks := (s.herd h).tasks ++
      [{ slot := k, index := i, rank := r, arg := tArg t, upd := upd }] }) k i t upd (r + 1) l

/-- Dispatch a task to herds (R244, R289), given the ranges of its inputs. -/
def State.runTask (s : State) (rs : List Nat) (p k i : Nat) (x : Slot) (t : List Nat) (upd : Option (Nat × Nat)) (late : Nat) : State :=
  match s.chooseHerds (s.chooseDie rs) (x.fget R.SCH_TASK_COUNT F.SCH_TASK_COUNT_SPILL == 1) (tHerds t) (s.roomHerds p t) with
  | none => s
  | some hs =>
    let y := x.takeRef t
    let st := { y.step with state := y.step.state.insert i { phase := 1, herds := hs, since := s.tick } }
    ((s.setSlot p k { y with step := st }).place k i t upd 0 hs).fadd R.PLC_STAT F.PLC_STAT_PF_LATE late

/-- An UPD task on a frozen tensor (R254). -/
def State.frozenTask (s : State) (p k i : Nat) (x : Slot) : State :=
  let y := x.fadd R.SCH_UPD_STAT F.SCH_UPD_STAT_FROZEN_UPDATE 1
  let s1 := s.setSlot p k (y.skipTask i s.tick)
  s1.when (x.fget R.SCH_UPD_CTL F.SCH_UPD_CTL_FROZEN_FAULT == 1) fun s =>
    s.jobFault { unit := p, kind := 0xA, cause := 0x11, ctx := x.ctx, job := x.job, part := p }

/-- The dispatch of a dispatchable task. -/
def State.dispatch (s : State) (p k i : Nat) (x : Slot) (t : List Nat) : State :=
  if !s.taskOk p i x.nmb t then s.refuseTask p k i 3
  else
    let f := s.taskFate p x t
    match f.1 with
    | .refuse st => f.2.refuseTask p k i st
    | .frozenSkip => f.2.setSlot p k ((x.fadd R.SCH_PIPE_STAT F.SCH_PIPE_STAT_FROZEN_SKIPS 1).skipTask i s.tick)
    | .frozenUpd => f.2.frozenTask p k i x
    | .run upd late => let z := f.2.inputRanges p t; z.2.runTask z.1 p k i x t upd late

/-- TASK_DISPATCH (R289). -/
def execTaskDispatch (p slot task : Nat) (s : State) : Host.Outcome State Fault Refusal :=
  s.runIf (instrWf (.taskDispatch p slot task)) (
    match s.stepping p slot with
    | none => s
    | some x =>
      match x.step.tasks[task]? with
      | none => s
      | some t =>
        if (x.step.state.find? task).isNone && x.depsDone task t && s.admits x task t then
          s.work (schedUnit p slot) fun s => s.dispatch p slot task x t
        else s)

/-- A task that R234 asks prefetches for. -/
def wantsPrefetch (t : List Nat) : Bool := tKind t == 2 && tDesc t != 0

/-- The estimated start of task i of a step (R234): while its item runs, the item's start with the ticks from the item's first dispatch
to the task's in the previous step; before, the release (the next boundary where the step is not yet released) with the ticks that the
previous step took from there. In the first step of a job a task is estimated once its item starts. -/
def Slot.estimate (x : Slot) (ts : List (List Nat)) (i now : Nat) : Option Nat :=
  match itemOf ts i, x.prevOff with
  | none, _ => none
  | some it, none => if x.step.item = some it then some x.step.itemSince else none
  | some it, some m =>
    let off := Map.get 0 m i
    if x.step.item = some it then
      let first := (((List.range ts.length).filter (inItem ts it)).map fun j => Map.get 0 m j).min?.getD 0
      some (x.step.itemSince + (off - first))
    else some ((if x.step.live then x.step.releasedAt else now + 1) + off)

/-- The prefetch of task i is due (R234): it has not been requested nor the task dispatched, the tasks before it in its item have been
asked for, and its estimated start is at most PF_TICKS away. -/
def Slot.prefetchDue (x : Slot) (ts : List (List Nat)) (i now : Nat) : Bool :=
  let pf := if x.step.live then x.pget F.SCH_PIPE_CTL_PF_TICKS else x.fget R.SCH_PIPE_CTL F.SCH_PIPE_CTL_PF_TICKS
  let asked := if x.step.live then x.step.prefetched else x.pfAhead
  let open_ (j : Nat) : Bool := (x.step.state.find? j).isNone && !asked.contains j
  wantsPrefetch (ts.getD i []) && pf != 0 && open_ i
    && (match itemOf ts i with
        | some it => (List.range i).all fun j => !(inItem ts it j && wantsPrefetch (ts.getD j []) && open_ j)
        | none => false)
    && (match x.estimate ts i now with | some e => decide (e ≤ now + pf) | none => false)

/-- The prefetch of a task is requested where it is due. -/
def State.prefetchTask (s : State) (p k task : Nat) (x : Slot) : State :=
  let z := if x.step.live then (x.step.tasks, s) else s.readTasks p x
  if x.step.abort.isNone && x.prefetchDue z.1 task s.tick then
    let d := z.2.readDesc (Reach.sched p) (tDesc (z.1.getD task []))
    let s1 := d.2.setSlot p k
      (if x.step.live then { x with step := { x.step with prefetched := x.step.prefetched ++ [task] } }
      else { x with pfAhead := x.pfAhead ++ [task] })
    s1.when (d.1.status == 0) fun s => s.prefetch d.1.desc
  else s

/-- PREFETCH_REQUEST (R44, R234): for a step in flight, or ahead of the release of the next. -/
def execPrefetchRequest (p slot task : Nat) (s : State) : Host.Outcome State Fault Refusal :=
  s.runIf (instrWf (.prefetchRequest p slot task)) (
    match s.slot? p slot with
    | none => s
    | some x => if s.fenced 5 0 then s else s.work (schedUnit p slot) fun s => s.prefetchTask p slot task x)

/-! ### Gather and update (R230, R246) -/

/-- Every backward item of the stage has completed. -/
def Slot.backwardDone (x : Slot) : Bool := (x.order.filter fun it => it.1).all fun it => x.step.doneItems.contains it

/-- The tiles of a herd to which the step scheduler may push: leads that are not fenced, with room in their queues (R195). -/
def State.roomTiles (s : State) (h : Nat) : List Nat :=
  (herdTiles h).filter fun t => s.isLead t && !s.absent t && !s.tileFenced t && decide ((s.tile t).queue.length < segQueueSize)

/-- Dispatch the GATHER task of a group as a segment of the partition's context: onto the herd with the least load, and there onto the
tile with the shortest queue (R230; log entry 93). The SEG_ID that the scheduler gives it is open (log entry 2). -/
def State.gatherPush (s : State) (p k ctx g : Nat) : Option State :=
  let hs := (s.herdList p).filter fun h => !s.fenced 2 h && s.roomTiles h != []
  match leastBy s.herdLoad hs with
  | none => none
  | some h =>
    (leastBy (fun t => (s.tile t).queue.length) (s.roomTiles h)).map fun t =>
      s.draw.2.modTile t fun y =>
        { y with queue := y.queue ++ [{ herd := true, addr := s.draw.1 % 2 ^ 16, ctx := ctx, gather := some (g, k) }] }

/-- Dispatch the GATHER tasks of several groups, all of them or none. -/
def State.gatherPushAll (p k ctx : Nat) : List Nat → State → Option State
  | [], s => some s
  | g :: l, s => (s.gatherPush p k ctx g).bind (State.gatherPushAll p k ctx l)

/-- GATHER_DISPATCH (R230). -/
def execGatherDispatch (p slot : Nat) (s : State) : Host.Outcome State Fault Refusal :=
  s.runIf (instrWf (.gatherDispatch p slot)) (
    match s.stepping p slot with
    | none => s
    | some x =>
      if x.backwardDone && !x.step.gathered && x.step.live8 != [] then
        (State.gatherPushAll p slot x.ctx x.step.liveGroups
          (s.setSlot p slot { x with step := { x.step with gathered := true, gathers := x.step.liveGroups } })).getD s
      else s)

/-- The gather pass of the step has ended, or there is none. -/
def StepSt.gatherOver (st : StepSt) : Bool := (st.gathered && st.gathers == []) || st.live8 == []

/-- UPD_DISPATCH (R246): once at a boundary. -/
def execUpdDispatch (p slot : Nat) (s : State) : Host.Outcome State Fault Refusal :=
  s.runIf (instrWf (.updDispatch p slot)) (
    match s.inStep p slot with
    | none => s
    | some x =>
      if s.atBoundary 6 && x.updAt != some s.tick && x.backwardDone && x.step.gatherOver && !x.step.updOpen
          && !x.step.retired (fun i => tKind (x.step.tasks.getD i []) == 4) then
        let y := { x with updAt := some s.tick }
        (s.took 6).setSlot p slot
          (if x.nextPins = 0 then
            { y with step := { y.step with updOpen := true } }.fset R.SCH_VER F.SCH_VER_UPD_HELD 0
          else (y.fset R.SCH_VER F.SCH_VER_UPD_HELD 1).fadd R.SCH_VER F.SCH_VER_UPD_STALL 1)
      else s)

/-! ### Herd task queues (R253, R289, R492) -/

/-- Write S15 and S14 into the tiles of a herd before the first segment of an UPD task (R137, R253). -/
def State.updScalars (s : State) (h : Nat) (u : Option (Nat × Nat)) : State :=
  match u with
  | none => s
  | some v => forRange 12 (fun i s => (s.putSreg (12 * h + i) 15 v.1).putSreg (12 * h + i) 14 v.2) s

/-- What HRD_TASK_POP returns for a task. -/
def popWord (q : HerdTask) : Nat := 2 ^ 63 + q.rank % 16 * 2 ^ 59 + q.arg

/-- The effect of a read of HRD_TASK_POP (R289). -/
def taskPopEffect (h : Nat) (s : State) : State :=
  match (s.herd h).tasks with
  | [] => s.answer .ok 0
  | q :: r =>
    let s1 := s.setHerd h { s.herd h with tasks := r, popped := (s.herd h).popped ++ [q] }
    (((s1.fset (R.HRD_TASK_IDX h) F.HRD_TASK_IDX_INDEX q.index).updScalars h q.upd).pmcHerd h 1 1).answer .ok (popWord q)

/-- TASK_POP (R289). -/
def execTaskPop (a : Agent) (h : Nat) (s : State) : Host.Outcome State Fault Refusal :=
  s.runIf (instrWf (.taskPop a h)) (s.readReg a .hrd h (R.HRD_TASK_POP h) (taskPopEffect h))

/-- The effect of a write of HRD_TASK_DONE (R289, R492). -/
def taskDoneEffect (a : Agent) (h value : Nat) (s : State) : State :=
  let i := bits value 0 16
  let status := bits value 16 8
  match s.partOfHerd h, (s.herd h).popped.find? fun q => q.index == i with
  | some p, some q =>
    if 7 < status then s.badWrite a (R.HRD_TASK_DONE h)
    else
      ((s.setHerd h { s.herd h with popped := (s.herd h).popped.erase q }).pmcHerd h 2 1).herdReports p q.slot i h status
  | _, _ => s.badWrite a (R.HRD_TASK_DONE h)

/-- TASK_DONE (R492). -/
def execTaskDone (a : Agent) (h value : Nat) (s : State) : Host.Outcome State Fault Refusal :=
  s.runIf (instrWf (.taskDone a h value)) (s.writeReg a .hrd h (R.HRD_TASK_DONE h) (taskDoneEffect a h value))

/-- ROOT_KEPT (R262). -/
def execRootKept (a : Agent) (h : Nat) (s : State) : Host.Outcome State Fault Refusal :=
  s.runIf (instrWf (.rootKept a h))
    (s.writeReg a .hrd h (R.HRD_UPD_EVT h) fun s => s.fadd (R.HRD_UPD_STAT h) F.HRD_UPD_STAT_ROOT_KEPT 1)

end Sys2Proof.Machine
end

