-- ==== Sys2Proof/Machine/Commit.lean ====
section
/-!
DEFINITION. Commit.lean: the end of a step: the commit exchange, the flip or the skip, the rescale pass, aborts and regroup, and
the version pins and step sizes (R45, R57, R213 to R222, R245 to R251, R258, R356, R421, R422).
-/

namespace Sys2Proof.Machine

/-! ### The end of a step (R218, R247) -/

/-- A task that runs in the step: one of an item, an OTHER or an UPD task, and one that no item could hold, which is refused. -/
def Slot.runs (x : Slot) (i : Nat) : Bool :=
  let t := x.step.tasks.getD i []
  tKind t == 0 || 4 ≤ tKind t || decide (x.nmb ≤ tMb t) || (itemOf x.step.tasks i).isSome

/-- Every task of the step has retired, with every item and the gather pass, and no reference is left (R218, R247). -/
def Slot.stepOver (x : Slot) : Bool :=
  x.itemsDone && x.step.gatherOver && x.step.retired x.runs && x.step.refs == []

/-- A segment gathers statistics: it has an MMUL with PG = 1 (R221). -/
def SegImg.gathers (g : SegImg) : Bool := g.code.any fun w => match tileDecode w with | some (.mmul o) => o.pg | _ => false

/-- Every statistics report of a context has arrived: no segment of it that runs has gathered or has yet to gather any (R222, R247). -/
def State.statsIn (s : State) (p : Nat) (x : Slot) : Bool :=
  (s.partTiles p).all fun t =>
    match (s.tile t).run with
    | some r => r.ctx != x.ctx || ((r.stats.all fun e => e.2.isEmpty) && !r.img.gathers)
    | none => true

/-- The commit point of a result (R247). -/
def Slot.commitPoint (x : Slot) (r : XchgRes) : Nat := r.imax + x.pget F.SCH_PIPE_CTL_FLIP_LAG

/-! ### The decision (R57, R219, R220, R248, R249) -/

/-- A STOT cancels a flip at boundary b (R57, R248): it was received before b, and its origin tick is at most b less the lag. -/
def cancels (lag b came origin : Nat) : Bool := decide (came < b ∧ origin + lag ≤ b)

/-- A flip due at boundary b is cancelled (R57): by a STOT, by an abort of this member's own that sent one, or by the failure of its
exchange. -/
def State.flipCancelled (s : State) (x : Slot) (b : Nat) : Bool :=
  let lag := s.fget R.TCK_STOT F.TCK_STOT_LAG
  (x.stots.any fun e => cancels lag b e.came e.origin)
    || (match x.step.abort with
        | some r => cancels lag b r.origin r.origin || r.outcome == 4
        | none => false)

/-- The commit point of a step whose exchange has been issued; before the result, the earliest that it can be (R247). -/
def Slot.flipAt (x : Slot) : Option Nat :=
  match x.step.result, x.step.issued with
  | some r, _ => some (x.commitPoint r)
  | none, some i => some (i + x.pget F.SCH_PIPE_CTL_FLIP_LAG)
  | none, none => none

/-- A STOT stops the step in flight rather than take effect after its flip (R57, R248): the step has not issued its exchange, or the
STOT cancels its flip wherever the commit point comes to lie. -/
def Slot.stopsStep (x : Slot) (lag came origin : Nat) : Bool :=
  match x.flipAt with
  | none => true
  | some b => cancels lag b came origin

/-- An abort of the step in flight is due at boundary `now` (R55, action 5): by a STOT received before it, or asked for by this member. -/
def State.abortDue (s : State) (x : Slot) : Bool :=
  let lag := s.fget R.TCK_STOT F.TCK_STOT_LAG
  (x.stots.any fun e => decide (e.came < s.tick) && x.stopsStep lag e.came e.origin)
    || (match x.step.abort with | some r => r.outcome == 4 || x.stopsStep lag r.origin r.origin | none => false)

/-- The exchange result of a step whose flip is due and not cancelled, with its boundary. -/
def State.flipDue (s : State) (x : Slot) : Option (XchgRes × Nat) :=
  match x.step.live, x.step.result with
  | true, some r =>
    let b := x.commitPoint r
    if b ≤ s.tick ∧ !s.flipCancelled x b then some (r, b) else none
  | _, _ => none

/-- The step is skipped by vote (R219). -/
def Slot.skipVote (x : Slot) (r : XchgRes) : Bool :=
  decide (x.fget R.SCH_NUM_CTL F.SCH_NUM_CTL_NF_FRAC * r.blocks < r.nf * 65536)

/-- A row of the exchanged table. -/
def xchgRow (e : Nat × List Nat × Int) : PgRow :=
  { slot := e.1, bins := e.2.1, maxexp := if e.2.2 = -512 then none else some e.2.2 }

/-- Show MAXEXP of every gradient-format slot, the largest over its window (R222). -/
def Slot.showMax (x : Slot) : Slot :=
  forRange 64 (fun n x => x.fset (R.SCH_PG_ID n) F.SCH_PG_ID_MAXEXP (ofInt 10 ((x.winMax n).getD (-512)))) x

/-- The ticks from the release of a step to the dispatch of each of its tasks (R234). -/
def StepSt.offsets (st : StepSt) : Map Nat := st.state.map fun (e : Nat × TaskSt) => (e.1, e.2.since - st.releasedAt)

/-- What a decided step leaves, committed or skipped (R101, R219, R222, R249): the step number advances, the table enters the
window, and the rescale pass becomes due. -/
def Slot.decided (x : Slot) (r : XchgRes) (b now outcome : Nat) : Slot :=
  let y := { (x.setRefs []).fset R.SCH_VER F.SCH_VER_UPD_HELD 0 with window := (r.slots.map xchgRow :: x.window).take 8 }.showMax
  let z := (y.fset R.SCH_COMMIT F.SCH_COMMIT_LAST_B b).fset R.SCH_COMMIT F.SCH_COMMIT_OUTCOME outcome
  { z with nextStep := x.nextStep + 1, pass := 1, got := [], passBad := [], decidedAt := some now, prevOff := some x.step.offsets, pfAhead := [], step := {} }

/-- The commit makes a due snapshot of the context ready for its capture (R428, R437): `x` is the context after the flip. -/
def Slot.snapCommit (x : Slot) (step b period : Nat) : Slot :=
  if x.snap.phase = 1 ∧ x.snap.committed = false ∧ (x.snap.atStep = none ∨ x.snap.atStep = some x.nextStep) then
    { x with snap := { x.snap with committed := true, gen := x.gen, step := step, commitTick := b, period := period } }
  else x

/-- The step commits (R249). -/
def Slot.commit (x : Slot) (r : XchgRes) (b now period : Nat) : Slot :=
  let y := (x.fset R.SCH_VER F.SCH_VER_GEN (1 - x.gen)).fset R.SCH_NUM_STAT F.SCH_NUM_STAT_SKIP_RUN 0
  { y.decided r b now 1 with lastFlip := some b }.snapCommit x.step.step b period

/-- The step is skipped by vote (R219); the job is held once SKIP_LIMIT steps in a row have been (R220). -/
def Slot.skip (x : Slot) (r : XchgRes) (b now : Nat) : Slot :=
  let y := (x.fadd R.SCH_NUM_STAT F.SCH_NUM_STAT_NF_SKIPS 1).fadd R.SCH_NUM_STAT F.SCH_NUM_STAT_SKIP_RUN 1
  { y with skipHeld := decide (y.fget R.SCH_NUM_CTL F.SCH_NUM_CTL_SKIP_LIMIT ≤ y.fget R.SCH_NUM_STAT F.SCH_NUM_STAT_SKIP_RUN) }.decided
    r b now 2

/-- The events of a skip (R219, R220). -/
def State.skipEvents (s : State) (p : Nat) (x y : Slot) (r : XchgRes) : State :=
  let s1 := s.event (B.sch p + R.SCH_NUM_STAT) (some F.SCH_NUM_STAT_NF_SKIPS) [x.step.step, r.nf, r.blocks]
  s1.when y.skipHeld fun s =>
    s.event (B.sch p + R.SCH_NUM_STAT) (some F.SCH_NUM_STAT_SKIP_RUN) []

/-- A flip that is due takes place, or the step is skipped. -/
def State.flip (s : State) (p k : Nat) (x : Slot) (r : XchgRes) (b : Nat) : State :=
  let s1 :=
    if x.skipVote r then
      let y := x.skip r b s.tick
      (s.setSlot p k y).skipEvents p x y r
    else s.setSlot p k (x.commit r b s.tick s.pLog)
  ((s1.inkConsume p x.ctx).placeAll p).inkRecord p

/-- COMMIT_FLIP (R249). -/
def execCommitFlip (p slot : Nat) (s : State) : Host.Outcome State Fault Refusal :=
  s.runIf (instrWf (.commitFlip p slot)) (
    match s.slot? p slot with
    | none => s
    | some x =>
      match s.atBoundary 4 && !s.fenced 5 0, s.flipDue x with
      | true, some d => (s.took 4).flip p slot x d.1 d.2
      | _, _ => s)

/-! ### The rescale pass (R213, R214) -/

/-- RESCALE_PASS (R213). -/
def execRescalePass (p slot : Nat) (s : State) : Host.Outcome State Fault Refusal :=
  s.runIf (instrWf (.rescalePass p slot)) (
    match s.slot? p slot with
    | some x =>
      if s.passAsks p slot || !s.regPast x.passMarks || s.fenced 5 0 then s
      else if x.pass = 1 then s.rescalePass p slot
      else if x.pass = 3 then s.discardPass p slot
      else s
    | none => s)

/-- RESCALE_PASS_DONE (R214). -/
def execRescalePassDone (p slot : Nat) (s : State) : Host.Outcome State Fault Refusal :=
  s.runIf (instrWf (.rescalePassDone p slot)) (
    match s.slot? p slot with
    | some x =>
      if s.passAsks p slot then s
      else if x.pass = 2 then s.setSlot p slot { x with pass := 0, passAt := some s.tick }
      else if x.pass = 4 then s.setSlot p slot { x with pass := 0 }
      else s
    | none => s)

/-! ### Aborts (R215, R251, R421) -/

/-- Forget the tasks of a slot's step in a herd. -/
def Herd.dropTasks (h : Herd) (k : Nat) : Herd :=
  { h with tasks := h.tasks.filter fun q => q.slot != k, popped := h.popped.filter fun q => q.slot != k }

/-- Herd state in a save area after an abort: its task queues and segment queues are empty (R200, R289). -/
def SavedHerd.drop (h : SavedHerd) : SavedHerd :=
  { h with tasks := [], popped := [], tiles := h.tiles.map fun t => { t with queue := [], fetched := none, run := none } }

/-- The collectives of a context end with ABORTED (R355). -/
def State.abortColls (s : State) (ctx : Nat) : State :=
  { s with colls := s.colls.map fun (e : Nat × List Coll) =>
      (e.1, e.2.map fun c => if c.ctx == ctx && c.status == 0 && !c.done then { c with status := 7 } else c) }

/-- The herds of a partition hold the herd state of the context in a slot: it runs, or it has been restored and is about to (R401). -/
def State.onHerds (s : State) (p k : Nat) : Bool :=
  (s.part p).run == some k || (match (s.part p).sw with | some w => w.dst == some k && w.phase == 2 | none => false)

/-- The in-flight work of a context stops on tiles, herds and collective engines, or in its save area (R200, R251, R289). -/
def State.stopWork (s : State) (p k ctx : Nat) : State :=
  let s1 :=
    if s.onHerds p k then
      let a := (s.partTiles p).foldl (fun s t => s.abortTile ctx t) s
      (s.herdList p).foldl (fun s h => s.setHerd h ((s.herd h).dropTasks k)) a
    else
      { s with ctxs := s.ctxs.map fun (e : Nat × Ctx) =>
          if e.1 == ctx then (e.1, { e.2 with herds := e.2.herds.map fun l => l.map SavedHerd.drop }) else e }
  s1.abortColls ctx

/-- Enter regroup (R421). -/
def Slot.enterRegroup (x : Slot) (cause lost tb : Nat) : Slot :=
  let g := R.SCH_REGROUP
  let y := (((x.fset g F.SCH_REGROUP_ACTIVE 1).fset g F.SCH_REGROUP_EXPIRED 0).fset g F.SCH_REGROUP_CAUSE cause).fset g
    F.SCH_REGROUP_LOST_PKG lost
  { y with rejoin := false, regroupEnd := some (tb + x.fget g F.SCH_REGROUP_REGROUP_S * cyclesPerSecond) }

/-- What an abort leaves in the context (R251): G and the step number stay, and the step returns to its start. -/
def Slot.aborted (x : Slot) (outcome now : Nat) : Slot :=
  let y := ((x.setRefs []).fset R.SCH_VER F.SCH_VER_UPD_HELD 0).fset R.SCH_COMMIT F.SCH_COMMIT_OUTCOME outcome
  { y with step := {}, got := [], passBad := [], decidedAt := some now, stots := x.stots.filter fun e => decide (now ≤ e.came) }

/-- Regroup follows an abort by STOT LOST, or by an exchange or collective that ended with STALE_ROLE or TIMEOUT (R421). -/
def Slot.regroupAfter (y x : Slot) (due : List StotIn) (tb : Nat) : Slot :=
  match due.find? (fun e => e.kind == 1), x.step.abort with
  | some e, _ => y.enterRegroup 1 e.pkg tb
  | none, some r => if r.regroup = 0 then y else y.enterRegroup r.regroup 0xFFFF tb
  | none, none => y

/-- An abort takes effect. -/
def State.abortStep (s : State) (p k : Nat) (x : Slot) (due : List StotIn) : State :=
  let s1 := s.stopWork p k x.ctx
  let out := match x.step.abort with | some r => r.outcome | none => 3
  (s1.modSlot p k fun y => (y.aborted out s.tick).regroupAfter x due s.clk.tb).discardPass p k

/-- A STOT that takes effect with no step in flight, such as after the flip of its boundary (R57, R58): in-flight work of the job stops,
and one of kind LOST starts the regroup window (R421). No tables are left to discard: the rescale pass rewrites them (R214; log entry
92). -/
def State.stopJob (s : State) (p k : Nat) (x : Slot) (due : List StotIn) : State :=
  (s.stopWork p k x.ctx).modSlot p k fun y =>
    { y with stots := x.stots.filter fun e => decide (s.tick ≤ e.came) }.regroupAfter x due s.clk.tb

/-- STEP_ABORT (R251): due at this boundary are the STOTs received before it and an abort asked for by an action above (R55); what may
not cancel the flip of the step in flight waits for that flip (R57, R248). -/
def execStepAbort (p slot : Nat) (s : State) : Host.Outcome State Fault Refusal :=
  s.runIf (instrWf (.stepAbort p slot)) (
    match s.slot? p slot with
    | none => s
    | some x =>
      let due := x.stots.filter fun e => decide (e.came < s.tick)
      if !s.atBoundary 5 then s
      else if x.step.live then (if s.abortDue x then (s.took 5).abortStep p slot x due else s)
      else if due != [] then (s.took 5).stopJob p slot x due
      else s)

/-- The effect of a write of REJOIN (R422). -/
def rejoinEffect (p k : Nat) (s : State) : State :=
  s.modSlot p k fun x => if x.fget R.SCH_REGROUP F.SCH_REGROUP_ACTIVE = 1 then { x with rejoin := true } else x

/-- REJOIN (R422). -/
def execRejoin (a : Agent) (p : Nat) (s : State) : Host.Outcome State Fault Refusal :=
  s.runIf (instrWf (.rejoin a p)) (s.writeCtx a p R.SCH_REGROUP (rejoinEffect p))

/-- The window of regroup has run out. -/
def Slot.regroupOut (x : Slot) (tb : Nat) : Bool :=
  x.fget R.SCH_REGROUP F.SCH_REGROUP_ACTIVE == 1 && x.fget R.SCH_REGROUP F.SCH_REGROUP_EXPIRED == 0
    && (match x.regroupEnd with | some e => decide (e ≤ tb) | none => false)

/-- REGROUP_EXPIRY (R422). -/
def execRegroupExpiry (p slot : Nat) (s : State) : Host.Outcome State Fault Refusal :=
  s.runIf (instrWf (.regroupExpiry p slot)) (
    match s.slot? p slot with
    | some x =>
      if x.regroupOut s.clk.tb then
        (s.setSlot p slot (x.fset R.SCH_REGROUP F.SCH_REGROUP_EXPIRED 1)).event (B.sch p + R.SCH_REGROUP)
          (some F.SCH_REGROUP_EXPIRED) []
      else s
    | none => s)

/-! ### Register commands of a context -/

/-- The effect of a write of 1 to RESUME (R220, R252). -/
def resumeEffect (p k : Nat) (s : State) : State :=
  s.modSlot p k fun x =>
    { (x.fset R.SCH_NUM_STAT F.SCH_NUM_STAT_SKIP_RUN 0).fset R.SCH_PIPE_STAT F.SCH_PIPE_STAT_HELD 0 with skipHeld := false }

/-- RESUME (R220). -/
def execResume (a : Agent) (p : Nat) (s : State) : Host.Outcome State Fault Refusal :=
  s.runIf (instrWf (.resume a p)) (s.writeCtx a p R.SCH_NUM_CTL (resumeEffect p))

/-- The pin count of a generation. -/
def pinFld (g : Nat) : Fld := if g = 0 then F.SCH_VER_PIN0 else F.SCH_VER_PIN1

/-- A pin of generation g, taken only if g is G and its count has room (R245). -/
def Slot.pin (x : Slot) (g : Nat) : Slot :=
  let n := x.fget R.SCH_VER (pinFld g)
  if g = x.gen ∧ n < 255 then x.fset R.SCH_VER (pinFld g) (n + 1) else x.fset R.SCH_VER F.SCH_VER_PIN_REFUSED 1

/-- The release of one pin of generation g (R245). -/
def Slot.unpin (x : Slot) (g : Nat) : Slot :=
  let n := x.fget R.SCH_VER (pinFld g)
  if n = 0 then x.fset R.SCH_VER F.SCH_VER_PIN_REFUSED 1 else x.fset R.SCH_VER (pinFld g) (n - 1)

/-- VER_PIN (R245). -/
def execVerPin (a : Agent) (p gen : Nat) (s : State) : Host.Outcome State Fault Refusal :=
  s.runIf (instrWf (.verPin a p gen)) (s.writeCtx a p R.SCH_VER_PIN fun k s => s.modSlot p k fun x => x.pin gen)

/-- VER_UNPIN (R245). -/
def execVerUnpin (a : Agent) (p gen : Nat) (s : State) : Host.Outcome State Fault Refusal :=
  s.runIf (instrWf (.verUnpin a p gen)) (s.writeCtx a p R.SCH_VER_PIN fun k s => s.modSlot p k fun x => x.unpin gen)

/-- A step size that R258 admits: from +0 to the largest finite binary32 value. -/
def lrOk (v : Nat) : Bool := decide (v < 0x7F800000)

/-- What step-size group n held is kept when it is written in the cycle of a boundary (R257). -/
def Slot.lrKeep (x : Slot) (c : Clock) (n : Nat) : Slot :=
  if c.phase < 9 then
    let m := if x.lrAt = some c.tb then x.lrCycle else []
    { x with lrAt := some c.tb, lrCycle := if (m.find? n).isSome then m else m.insert n (x.lrNow n) }
  else x

/-- The effect of a write of SCH_LRn that covers bits [31:0] (R14, R258). -/
def lrWriteEffect (a : Agent) (p n value k : Nat) (s : State) : State :=
  match s.slot? p k with
  | none => s
  | some x =>
    let v := bits value 0 32
    let g := R.SCH_LR n
    if !lrOk v && v != x.fget g F.SCH_LR_VALUE then s.badWrite a (B.sch p + g)
    else s.setSlot p k (((((x.lrKeep s.clk n).fset g F.SCH_LR_VALUE v).fset g F.SCH_LR_EN (bits value 63 1)).fset g F.SCH_LR_HOLD
      (bits value 62 1)).fset g F.SCH_LR_WRITTEN 1)

/-- LR_WRITE (R258). -/
def execLrWrite (a : Agent) (p n value : Nat) (s : State) : Host.Outcome State Fault Refusal :=
  s.runIf (instrWf (.lrWrite a p n value)) (s.writeCtx a p (R.SCH_LR n) (lrWriteEffect a p n value))

end Sys2Proof.Machine
end

