-- ==== Sys2Proof/Machine/RegTab.lean ====
section
/-!
DEFINITION. RegTab.lean: register space by its offsets: the block and the register that an offset names (R13, R37 to R40), the
values that a field may take (R14), and the words of registers.
-/

namespace Sys2Proof.Machine

/-! ### Blocks (R37 to R40, R363, R460) -/

/-- Where an offset of register space leads: a block with its unit and base, a byte of a tile's or herd's memory window, the
configuration space of a root port, its outbound window (R363), or no block (R13, R37). -/
inductive Place32 where
  | blk (b : Blk) (u base : Nat)
  | tileWin (t off : Nat)
  | herdWin (h off : Nat)
  | pcieCfg (rp off : Nat)
  | pcieOut (rp : Nat)
  | none
deriving DecidableEq, Repr

/-- Units of one size one after another; past the last of them lies no block (R37). -/
def unitAt (b : Blk) (first n base size rel : Nat) : Place32 :=
  if rel / size < n then .blk b (first + rel / size) (base + rel / size * size) else .none

/-- An offset of package control (R38). -/
def pkgPlace (o : Nat) : Place32 :=
  if 0x880000 ≤ o then (if o < 0x900000 then .blk .schg 0 0x800000 else .none)
  else if 0x800000 ≤ o then unitAt .sch 0 8 0x800000 0x10000 (o - 0x800000)
  else
    let base := o / 0x100000 * 0x100000
    match o / 0x100000 with
    | 0 => .blk .pkg 0 base
    | 1 => .blk .cfg 0 base
    | 2 => .blk .sec 0 base
    | 3 => .blk .tck 0 base
    | 4 => .blk .flt 0 base
    | 5 => .blk .hlt 0 base
    | 6 => .blk .lif 0 base
    | _ => .blk .pwr 0 base

/-- An offset of the host die blocks, and of the PCIe outbound windows (R39, R363). -/
def hostPlace (o : Nat) : Place32 :=
  let r := o - 0x10000000
  if 0x10000000 ≤ r ∧ r < 0x20000000 then .pcieOut ((r - 0x10000000) / 0x8000000)
  else
    match r / 0x1000000 with
    | 0 => if r < 0x10000 then .blk .ink 0 0x10000000 else unitAt .inks 0 8 0x10010000 0x10000 (r - 0x10000)
    | 1 => unitAt .cap 0 32 0x11000000 0x10000 (r - 0x1000000)
    | 2 => unitAt .coh 0 64 0x12000000 0x10000 (r - 0x2000000)
    | 3 => .blk .plcHost 0 0x13000000
    | 4 => .blk .snap 0 0x14000000
    | 5 => if r < 0x5100000 then .pcieCfg 0 (r - 0x5000000) else if r < 0x5200000 then .pcieCfg 1 (r - 0x5100000) else .none
    | _ => .none

/-- An offset of an accelerator die block (R40). -/
def diePlace (d o : Nat) : Place32 :=
  let base := B.die d
  let r := o - base
  match r / 0x1000000 with
  | 0 => .blk .dieB d base
  | 9 =>
    if r < 0x9800000 then .blk .plcDie d (base + 0x9000000)
    else unitAt .coh (64 + 32 * d) 32 (base + 0x9800000) 0x10000 (r - 0x9800000)
  | 10 => unitAt .stk (8 * d) 8 (base + 0xA000000) 0x40000 (r - 0xA000000)
  | 11 => .none
  | 12 => unitAt .afrPort (18 * d) 18 (base + 0xC000000) 0x10000 (r - 0xC000000)
  | 13 => .blk .afrEng d (base + 0xD000000)
  | 14 => unitAt .eth (4 * d) 4 (base + 0xE000000) 0x40000 (r - 0xE000000)
  | n =>
    if 14 < n then .none
    else
      let h := 8 * d + (n - 1)
      let t := r % 0x1000000 / 0x100000
      if t = 0 then .blk .hrd h (B.hrd h) else if t ≤ 12 then .blk .til (12 * h + (t - 1)) (B.til (12 * h + (t - 1))) else .none

/-- Where an offset of register space leads. -/
def regPlace (o : Nat) : Place32 :=
  if o < 0x10000000 then pkgPlace o
  else if o < 0x40000000 then hostPlace o
  else if o < 0x80000000 then diePlace 0 o
  else if o < 0xC0000000 then diePlace 1 o
  else if o < 0xF0000000 then .tileWin ((o - 0xC0000000) / 0x400000) ((o - 0xC0000000) % 0x400000)
  else .herdWin ((o - 0xF0000000) / 0x1000000) ((o - 0xF0000000) % 0x1000000)

/-- The byte-counter set that an offset within a block lies in: its offset from the block (R460). -/
def bwSetAt (b : Blk) (rel : Nat) : Option Nat :=
  let many (n : Nat) : Option Nat := if 0x1000 ≤ rel ∧ rel < 0x1000 + 0x40 * n then some (rel / 0x40 * 0x40) else Option.none
  let one : Option Nat := if 0x100 ≤ rel ∧ rel < 0x140 then some 0x100 else Option.none
  match b with
  | .stk => many 64
  | .dieB => many 28
  | .cap => one
  | .afrPort => one
  | .eth => one
  | _ => Option.none

/-- The configuration space of a root port takes a write (R39). -/
def State.pcieWrite (s : State) (rp off bytes value : Nat) : State :=
  { s with pcieCfg := s.pcieCfg.insert rp (Map.get [] s.pcieCfg rp ++ [(off, bytes, value % 2 ^ (8 * bytes))]) }

/-! ### Registers -/

/-- The indices at which a row of a register table has the register of a block-relative offset. -/
def Row.at (r : Row) (rel : Nat) : Option (Nat × Nat) :=
  if rel < r.off then none
  else
    let d := rel - r.off
    let i := if r.s1 = 0 then 0 else d / r.s1
    let j := if r.s2 = 0 then 0 else (d - i * r.s1) / r.s2
    if i < r.n1 ∧ j < r.n2 ∧ i * r.s1 + j * r.s2 = d then some (i, j) else none

/-- The register of a table at a block-relative offset, with its indices. -/
def findRow : List Row → Nat → Option (Row × Nat × Nat)
  | [], _ => none
  | r :: l, rel =>
    match r.at rel with
    | some (i, j) => some (r, i, j)
    | none => findRow l rel

/-- The bits of a field. -/
def Fld.mask (f : Fld) : Nat := (2 ^ f.w - 1) <<< f.lo
/-- The bits that fields name. -/
def fldsMask (l : List Fld) : Nat := l.foldl (fun m f => m ||| f.mask) 0

/-- The word that fields with given values spell; a write-only field reads 0 (R16). -/
def fldsWord (l : List Fld) (v : Fld → Nat) : Nat :=
  sumList (l.map fun f => if f.acc = .wo then 0 else (v f % 2 ^ f.w) <<< f.lo)

/-! ### Reserved encodings (R14) -/

/-- The field at bit `lo` of a register may take a value: no rule or table reserves it. -/
def legalFld : RegName → Nat → Nat → Bool
  | .TCK_CTRL, 0, v => decide (14 ≤ v ∧ v ≤ 20)
  | .TCK_SYNC, 0, v => v != 3
  | .TCK_RATE, 0, v => decide (-500000 ≤ toInt 32 v ∧ toInt 32 v ≤ 500000)
  | .TCK_WDOG, 24, v => decide (5 ≤ v ∧ v ≤ 128)
  | .TCK_WDOG, 16, v => decide (4 ≤ v ∧ v ≤ 64)
  | .TCK_WDOG, 8, v => decide (3 ≤ v ∧ v ≤ 32)
  | .TCK_WDOG, 0, v => decide (2 ≤ v ∧ v ≤ 8)
  | .TCK_TMO, 16, v => decide (20 ≤ v ∧ v ≤ 100)
  | .TCK_TMO, 8, v => decide (10 ≤ v ∧ v ≤ 28)
  | .TCK_TMO, 0, v => decide (4 ≤ v ∧ v ≤ 14)
  | .TCK_STOT, 0, v => decide (2 ≤ v)
  | .HRD_GANG_WIDTH, 0, v => [0, 2, 3, 4, 6, 12].contains v
  | .TIL_SREG, 32, v => v != 3
  | .SCH_NUM_CTL, 24, v => decide (1 ≤ v)
  | .SCH_NUM_CTL, 8, v => decide (1 ≤ v)
  | .SCH_PG_CTL, 40, v => decide (1 ≤ v)
  | .SCH_PG_CTL, 24, v => decide (1 ≤ v)
  | .SCH_PG_CTL, 16, v => decide (1 ≤ v ∧ v ≤ 30)
  | .SCH_PG_CTL, 0, v => decide (1 ≤ v ∧ v ≤ 24)
  | .SCH_PG, 56, v => decide (v ≤ 2)
  | .SCH_PIPE_CTL, 32, v => decide (v ≤ 8)
  | .SCH_PIPE_CTL, 12, v => decide (2 ≤ v)
  | .SCH_LR, 0, v => decide (v < 0x7F800000)
  | .PLC_POLICY, 24, v => decide (1 ≤ v)
  | .PLC_POLICY, 8, v => decide (1 ≤ v)
  | .PLC_POLICY, 4, v => decide (1 ≤ v)
  | .PLC_POLICY, 0, v => decide (4 ≤ v ∧ v ≤ 14)
  | .PLC_RESV, 0, v => decide (8 ≤ v)
  | .PLC_REG, 56, v => decide (v ≤ 100)
  | .PLC_MIG_CTL, 12, v => decide (1 ≤ v)
  | .PLC_MIG_CTL, 0, v => decide (16 ≤ v ∧ v ≤ 512)
  | .AFR_PORT_CTL, 4, v => decide (v ≤ 9)
  | .AFR_CTL, 32, v => decide (8 ≤ v ∧ v ≤ 4096)
  | .AFR_CTL, 8, v => decide (60 ≤ v ∧ v ≤ 250)
  | .ETH_CTL, 16, v => decide (10 ≤ v ∧ v ≤ 100)
  | .ETH_CC, 16, v => decide (1 ≤ v)
  | .ETH_CC, 8, v => decide (8 ≤ v)
  | .ETH_CC, 0, v => decide (1 ≤ v)
  | .INK_S_CTRL, 60, v => v != 3
  | .INK_S_CTRL, 55, v => decide (1 ≤ v ∧ v ≤ 6)
  | .INK_S_CTRL, 48, v => decide (2 ≤ v ∧ v ≤ 64)
  | .INK_S_CTRL, 16, v => decide (4 ≤ v)
  | .INK_S_CTRL, 13, v => decide (v ≤ 4)
  | .INK_S_SHAPE, 48, v => decide (1 ≤ v)
  | .INK_S_SHAPE, 32, v => decide (16 ≤ v ∧ v ≤ 32768) && v % 16 == 0
  | .INK_S_SHAPE, 16, v => decide (1 ≤ v ∧ v ≤ 16384)
  | .INK_S_SHAPE, 0, v => decide (1 ≤ v ∧ v ≤ 16384)
  | .INK_S_SHARDN, 0, v => decide (1 ≤ v)
  | .INK_S_TIME, 56, v => decide (2 ≤ v)
  | .INK_S_TIME, 40, v => decide (2 ≤ v)
  | .INK_S_TIME, 24, v => decide (1 ≤ v)
  | .INK_S_TIME, 0, v => decide (1 ≤ v)
  | .INK_S_OFFSET, 0, v => v % 16 == 0
  | .SCH_CMDQ, 0, v => decide (v ≤ 0xC)
  | .PKG_EVQ, 0, v => decide (v ≤ 0xC)
  | .FLT_CTL, 40, v => decide (2 ≤ v ∧ v ≤ 15)
  | .FLT_CTL, 24, v => decide (60 ≤ v)
  | .FLT_CTL, 16, v => decide (1 ≤ v)
  | .FLT_CTL, 0, v => decide (20 ≤ v ∧ v ≤ 250)
  | .HLT_CTL, 16, v => decide (8 ≤ v ∧ v ≤ 24)
  | .SCH_REGROUP, 0, v => decide (1 ≤ v ∧ v ≤ 3600)
  | .LIF_CTL, 0, v => decide (1 ≤ v ∧ v ≤ 24)
  | .PMC_TEVT, 0, v => decide (v ≤ 0x14)
  | .PMC_HEVT, 0, v => decide (v ≤ 0x0C)
  | .PWR_CTRL, 48, v => decide (85 ≤ v ∧ v ≤ 105)
  | .PWR_CTRL, 43, v => decide (4 ≤ v ∧ v ≤ 16)
  | .PWR_CTRL, 28, v => decide (600 ≤ v ∧ v ≤ 2200)
  | .PWR_CTRL, 0, v => decide (10 ≤ v ∧ v ≤ 100)
  | _, _, _ => true

/-- The relations that a rule or table asks among fields of one register, by their least bits: `v` gives their values, and `ch` says
which of them a write changes (R14). -/
def legalRel (n : RegName) (ch : Nat → Bool) (v : Nat → Nat) : Bool :=
  match n with
  | .SCH_PG_CTL => !(ch 24 || ch 16) || decide (v 16 < v 24)
  | .SCH_PIPE_CTL => (!(ch 44 || ch 36) || decide (v 36 ≤ v 44)) && (!(ch 12 || ch 0) || decide (v 12 + 2 ≤ v 0))
  | .PLC_POLICY => !(ch 24 || ch 16) || decide (v 16 < v 24)
  | .INK_S_CTRL => !(ch 48 || ch 40) || decide (v 40 ≤ v 48)
  | _ => true

/-- Fields that software sets. -/
def Fld.written (f : Fld) : Bool := f.acc == .rw || f.acc == .lk || f.acc == .cfg

/-- A register may hold a word: its reserved bits are 0, and its fields and their relations hold no reserved value (R14, R392). -/
def Row.wordOk (r : Row) (w : Nat) : Bool :=
  (w &&& fldsMask r.fields) == w
    && (r.fields.all fun f => !f.written || bits w f.lo f.w == f.rst || legalFld r.name f.lo (bits w f.lo f.w))
    && legalRel r.name (fun lo => r.fields.any fun f => f.lo == lo && bits w lo f.w != f.rst)
      (fun lo => match r.fields.find? fun f => f.lo == lo with | some f => bits w lo f.w | none => 0)

/-! ### Per-context registers (R391, R392) -/

/-- The tables of the per-context registers. -/
def ctxRows : List Row := Rows.sch.filter fun r => decide (0x2000 ≤ r.off ∧ r.off < 0x8000) || decide (0xC000 ≤ r.off)

/-- Every per-context register: its offset in the SCH_ block and its row. -/
def ctxRegs : List (Nat × Row) := ctxRows.flatMap fun r => (List.range r.n1).map fun i => (r.off + r.s1 * i, r)

/-- The place of a per-context register in the context record (R392). -/
def recordOff (x : Nat) : Nat := if x < 0x8000 then x - 0x2000 else x - 0x6000

/-- The word of a per-context register. -/
def Slot.word (x : Slot) (off : Nat) (r : Row) : Nat := fldsWord r.fields fun f => x.fget off f

/-- Give a per-context register the word of a record. -/
def Slot.putWord (x : Slot) (off : Nat) (r : Row) (w : Nat) : Slot :=
  r.fields.foldl (fun x f => if f.acc = .wo then x else x.fset off f (bits w f.lo f.w)) x

end Sys2Proof.Machine
end

