-- ==== Sys2Proof/Machine/CtxOps.lean ====
section
/-!
DEFINITION. CtxOps.lean: the operations on contexts: locks, context records, slots, the save area of the herd state, and the failure
of a snapshot (R389 to R393, R402, R403, R435).
-/

namespace Sys2Proof.Machine

/-! ### Locks (R403) -/

/-- A context holds a semaphore as a lock (R190). -/
def Sem.heldBy (x : Sem) (ctx : Nat) : Bool := x.lock && x.held && x.holder == ctx

/-- The number of a semaphore that a context of a partition holds as a lock. -/
def State.lockOf (s : State) (p ctx : Nat) : Option Nat :=
  match List.find? (fun (e : Nat × Sem) => e.2.heldBy ctx) (s.part p).sems with
  | some e => some e.1
  | none => (List.find? (fun (e : Nat × Sem) => e.2.heldBy ctx) s.gsems).map fun e => 224 + e.1 % 32

/-! ### The context record (R392) -/

/-- The header of a record; `faulted` is FAULTED. -/
def Slot.header (x : Slot) (p faulted : Nat) : List Nat :=
  [x.job % 2 ^ 16 * 2 ^ 48 + x.ctx % 2 ^ 8 * 2 ^ 40 + p % 8 * 2 ^ 37 + x.gen % 2 * 2 ^ 36 + b2n x.saveTm * 2 ^ 35
      + faulted % 2 * 2 ^ 34 + x.slice % 2 ^ 12 * 2 ^ 22,
    x.nextStep % 2 ^ 48, x.seed % 2 ^ 64, x.seed / 2 ^ 64 % 2 ^ 64, x.stepsLeft % 2 ^ 32, x.entry % 2 ^ 56 / 4 * 4]

/-- The offset of the header in a record, and of what it holds behind the header (log entry 3). -/
def headerOff : Nat := 0xA000
def windowOff : Nat := 0xA030

def windowBytes : Nat := 0x10000 - windowOff

/-- How a record spells a window (log entry 3). -/
def windowCode (w : List (List PgRow)) : Nat :=
  Config.pgWindow (w.map fun l => l.map fun r => (r.slot, r.bins, r.maxexp)) % 2 ^ (8 * windowBytes)

/-- Write the record of a context to an address. The window that it spells is kept beside it (log entry 3). -/
def State.writeRecordAt (s : State) (p : Nat) (x : Slot) (faulted addr : Nat) : State :=
  let s1 := ctxRegs.foldl (fun s e => (s.store Reach.save (addr + recordOff e.1) 8 (x.word e.1 e.2)).2) s
  let s2 := s1.storeWords Reach.save (addr + headerOff) (x.header p faulted)
  ({ s2 with pgSeen := if s2.pgSeen.contains x.window then s2.pgSeen else x.window :: s2.pgSeen }.store Reach.save
    (addr + windowOff) windowBytes (windowCode x.window)).2

/-- Write the record of a context into its save area. -/
def State.writeRecord (s : State) (p : Nat) (x : Slot) (faulted : Nat) : State := s.writeRecordAt p x faulted x.save

/-- The status with which an access of the scheduler ends (R36, R71). -/
def Ld.status : Ld → Nat
  | .ok _ => 0
  | .timeout => 6
  | _ => 2

/-- The header of a record has no reserved value (R392). -/
def headerOk (w : List Nat) : Bool :=
  bits (w.getD 0 0) 0 22 == 0 && bits (w.getD 1 0) 48 16 == 0 && bits (w.getD 4 0) 32 32 == 0
    && bits (w.getD 5 0) 56 8 == 0 && bits (w.getD 5 0) 0 2 == 0

/-- Take the header of a record. -/
def Slot.putHeader (x : Slot) (w : List Nat) : Slot :=
  let h := w.getD 0 0
  { x with job := bits h 48 16, slice := bits h 22 12, saveTm := bit h 35, nextStep := bits (w.getD 1 0) 0 48,
           seed := w.getD 2 0 + 2 ^ 64 * w.getD 3 0, stepsLeft := bits (w.getD 4 0) 0 32,
           entry := w.getD 5 0 }.fset R.SCH_VER F.SCH_VER_GEN (bits h 36 1)

/-- A context as it stands before its record or its command says more. -/
def newSlot (ctx save : Nat) : Slot where
  ctx := ctx
  job := 0
  slice := 0
  saveTm := false
  nextStep := 0
  seed := 0
  stepsLeft := 0
  entry := 0
  save := save

/-- The word of a record's registers that holds one of them. -/
def recordWord (v x : Nat) : Nat := bits v (8 * recordOff x) 64
/-- Every register of a record holds a value that is not reserved (R392). -/
def recordOk (v : Nat) : Bool := ctxRegs.all fun e => e.2.wordOk (recordWord v e.1)
/-- A context takes the registers of a record. -/
def Slot.putRecord (x : Slot) (v : Nat) : Slot := ctxRegs.foldl (fun y e => y.putWord e.1 e.2 (recordWord v e.1)) x

/-- Read the registers of a record into a context: the status of the reading, 3 for a reserved value, and the context. -/
def State.readRegs (s : State) (addr : Nat) (x : Slot) : (Nat × Slot) × State :=
  match s.load Reach.save addr headerOff with
  | (.ok v, s1) => ((if recordOk v then 0 else 3, x.putRecord v), s1)
  | (l, s1) => ((l.status, x), s1)

/-- Read a record into a context that otherwise stands as `x`: the status of the reading, 3 where the record holds a reserved value
(R392), and the context. -/
def State.readRecord (s : State) (addr : Nat) (x : Slot) : (Nat × Slot) × State :=
  match s.load Reach.save (addr + headerOff) 48 with
  | (.ok v, s1) =>
    let w := toWords 64 6 v
    if !headerOk w then ((3, x), s1)
    else
      match s1.readRegs addr x with
      | ((0, y), s2) => ((0, y.putHeader w), s2)
      | r => r
  | (l, s1) => ((l.status, x), s1)

/-- The exchanged tables that a record holds (R222, R429): a window that the package has written is read back as it was. -/
def State.readWindow (s : State) (addr : Nat) : List (List PgRow) :=
  let v := (s.load Reach.save (addr + windowOff) windowBytes).1.val
  match s.pgSeen.find? fun w => windowCode w == v with
  | some w => w
  | none => (Config.pgParse v).map fun l => l.map fun r => { slot := r.1, bins := r.2.1, maxexp := r.2.2 }

/-! ### Slots (R393) -/

/-- The lowest free slot of a partition. -/
def State.freeSlot (s : State) (p : Nat) : Option Nat := firstUpTo 4 fun k => (s.slot? p k).isNone

/-- The slot of a context, with the context as it stands there. -/
def State.resident (s : State) (p ctx : Nat) : Option (Nat × Slot) :=
  List.find? (fun (e : Nat × Slot) => e.2.ctx == ctx) (s.part p).slots

/-- What the package knows of a context. -/
def State.ctx (s : State) (c : Nat) : Ctx := (s.ctxs.find? c).getD { part := 0 }
/-- Change what the package knows of a context. -/
def State.setCtx (s : State) (c : Nat) (x : Ctx) : State := { s with ctxs := s.ctxs.insert c x }

/-- A context takes a slot. -/
def State.takeSlot (s : State) (p k : Nat) (x : Slot) : State :=
  (s.setSlot p k x).setCtx x.ctx { s.ctx x.ctx with
    part := p, slot := some k, ready := false, job := x.job, slice := x.slice, saveTm := x.saveTm, save := x.save }

/-- Empty a slot. -/
def State.emptySlot (s : State) (p k : Nat) : State :=
  (s.setPart p { s.part p with slots := (s.part p).slots.erase k }).asksGone fun w =>
    match w with | .pass q j _ => q == p && j == k | _ => false

/-- A context leaves its slot: its record is written, and it waits until it is marked ready (R392, R396). -/
def State.leaveSlot (s : State) (p k : Nat) (x : Slot) : State :=
  ((s.writeRecord p x 0).emptySlot p k).setCtx x.ctx
    { s.ctx x.ctx with slot := none, ready := false, kept := some { x with deferred := none, ran := 0, blockedTicks := 0 } }

/-- A context takes a slot from its record: the status of the reading, and the context in its slot where it is 0. -/
def State.enterSlot (s : State) (p k c : Nat) : Nat × State :=
  let x := s.ctx c
  let y := x.kept.getD (newSlot c x.save)
  match s.readRecord x.save { y with ctx := c, save := x.save } with
  | ((0, z), s1) => (0, s1.takeSlot p k z)
  | ((st, _), s1) => (st, s1)

/-- Steps still to release of a context that is swapped out, in its record (R392, R396): change the word. -/
def State.recordSteps (s : State) (c : Nat) (f : Nat → Nat) : State :=
  let a := (s.ctx c).save + headerOff + 32
  match s.load Reach.save a 8 with
  | (.ok w, s1) => (s1.store Reach.save a 8 (f (w % 2 ^ 32))).2
  | (_, s1) => s1

/-- The step sizes of RUN (R396). -/
def runSteps (count steps : Nat) : Nat :=
  if count = 0 then 0
  else if count = 0xFFFFFFFF ∨ steps = 0xFFFFFFFF then 0xFFFFFFFF
  else min (steps + count) 0xFFFFFFFE

/-! ### Herd state (R389, R390, R402) -/

/-- Copy a memory to an address of the unified region, in pieces of 4 KiB. -/
def State.copyOut (s : State) (m : Mem) (addr n : Nat) : State :=
  forRange (n / 4096) (fun i s => (s.store Reach.save (addr + 4096 * i) 4096 (m.rdN (4096 * i) 4096)).2) s

/-- Copy from an address of the unified region to a memory; what cannot be read is open (log entry 2). -/
def State.copyIn (s : State) (addr n : Nat) : Mem × State :=
  forRange (n / 4096)
    (fun i (a : Mem × State) =>
      match a.2.load Reach.save (addr + 4096 * i) 4096 with
      | (.ok v, s1) => (a.1.wrN (4096 * i) 4096 v, s1)
      | (_, s1) => (a.1.wrN (4096 * i) 4096 (s1.draw.1 % 2 ^ 32768), s1.draw.2))
    ([], s)

/-- Offsets of the save area (R390): the part of the i-th herd, its tile t, and its herd memory. -/
def herdPart (i : Nat) : Nat := 0x10000 + 68736 * 1024 * i
def tilePart (t : Nat) : Nat := 4352 * 1024 * t
def herdMemPart : Nat := 52224 * 1024
/-- Bytes of a tile memory and of a herd memory. -/
def tileMemBytes : Nat := 0x400000
def herdMemBytes : Nat := 0x1000000
/-- Bytes of a tile's registers and queues and of a control core in a save area. -/
def tileRegBytes : Nat := 0x40000
def coreBytes : Nat := 0x10000

/-- The keys of TIL_NUMCTL, TIL_MMA_STATUS and TIL_VSTATUS of a tile. -/
def statusKey (t k : Nat) : Bool := decide (8 * R.TIL_NUMCTL t ≤ k ∧ k < 8 * (R.TIL_VSTATUS t + 8))

/-- What a save area keeps of a tile beside its memory: registers, summary queue and segment queue (R159). -/
def Tile.saved (t : Tile) : Tile :=
  { tregs := t.tregs, tstat := t.tstat, masks := t.masks, sregs := t.sregs, sregHeld := t.sregHeld, queue := t.queue, summ := t.summ }

/-- Give a tile the context state of another, with its memory. -/
def Tile.restored (t x : Tile) (m : Mem) : Tile :=
  { t with mem := m, tregs := x.tregs, tstat := x.tstat, masks := x.masks, sregs := x.sregs, sregHeld := x.sregHeld,
           queue := x.queue, summ := x.summ, fetched := none, acc := [], accNf := [] }

/-- The state of a herd beside its memories. -/
def State.herdState (s : State) (h : Nat) : SavedHerd where
  herd := h
  mem := []
  tasks := (s.herd h).tasks
  popped := (s.herd h).popped
  tiles := (herdTiles h).map fun t => (s.tile t).saved
  cores := [s.core (2 * h), s.core (2 * h + 1)]
  regs := s.regs.filter fun e => (herdTiles h).any fun t => statusKey t e.1

/-- Write state whose layout the spec leaves open to an address of the unified region, in pieces of 4 KiB: its bytes there are open (log
entries 2 and 45). -/
def State.copyOpen (s : State) (addr n : Nat) : State :=
  forRange (n / 4096) (fun i s => (s.draw.2.store Reach.save (addr + 4096 * i) 4096 (s.draw.1 % 2 ^ 32768)).2) s

/-- Save the i-th herd of a context (R390): each tile's memory and its registers and queues, the herd memory, and the two control cores with
the task queue. -/
def State.saveHerd (s : State) (x : Slot) (i h : Nat) : State :=
  let a := x.save + herdPart i
  let s1 := forRange 12
    (fun t s =>
      (s.when x.saveTm fun s => s.copyOut (s.tile (12 * h + t)).mem (a + tilePart t) tileMemBytes).copyOpen
        (a + tilePart t + tileMemBytes) tileRegBytes) s
  (s1.copyOut (s.herd h).mem (a + herdMemPart) herdMemBytes).copyOpen (a + herdMemPart + herdMemBytes) (2 * coreBytes)

/-- Save the herd state of the context in a slot (R401). -/
def State.saveContext (s : State) (p : Nat) (x : Slot) : State :=
  let hs := s.herdList p
  let saved := hs.map s.herdState
  let s1 := hs.zipIdx.foldl (fun (s : State) (e : Nat × Nat) => s.saveHerd x e.2 e.1) s
  (s1.setCtx x.ctx { s1.ctx x.ctx with herds := some saved }).asksGone
    (Asker.isUnit fun u => (s.partTiles p).any fun t => u == fetchUnit t)

/-- A control core as a context starts it: at ENTRY, with its herd and its number within it (R393). -/
def startCore (entry h i a2 : Nat) : Core := { held := false, pc := entry, a0 := h, a1 := i, a2 := a2 }

/-- Drop the context registers of the tiles of a herd, which take their reset values. -/
def State.clearStatus (s : State) (h : Nat) : State :=
  { s with regs := s.regs.filter fun e => !(herdTiles h).any fun t => statusKey t e.1 }

/-- Give a herd the state of a context that has not run: zero, with its cores at ENTRY (R393). -/
def State.freshHerd (s : State) (x : Slot) (h : Nat) : State :=
  let s1 := (herdTiles h).foldl (fun s t => s.setTile t ((s.tile t).restored {} [])) (s.clearStatus h)
  ((s1.setHerd h { s1.herd h with mem := [], tasks := [], popped := [] }).setCore (2 * h) (startCore x.entry h 0 0)).setCore
    (2 * h + 1) (startCore x.entry h 1 0)

/-- Restore the i-th herd of a context from its save area (R390, R402). -/
def State.restoreHerd (s : State) (x : Slot) (i h : Nat) (v : SavedHerd) : State :=
  let a := x.save + herdPart i
  let s1 := { s.clearStatus h with regs := v.regs.foldl (fun (m : Map Nat) (e : Nat × Nat) => m.insert e.1 e.2) (s.clearStatus h).regs }
  let s2 := forRange 12
    (fun t s =>
      let m := if x.saveTm then s.copyIn (a + tilePart t) tileMemBytes else ([], s)
      m.2.setTile (12 * h + t) ((m.2.tile (12 * h + t)).restored (v.tiles.getD t {}) m.1)) s1
  let hm := s2.copyIn (a + herdMemPart) herdMemBytes
  ((hm.2.setHerd h { hm.2.herd h with mem := hm.1, tasks := v.tasks, popped := v.popped }).setCore (2 * h)
    (v.cores.getD 0 {})).setCore (2 * h + 1) (v.cores.getD 1 {})

/-- Restore the herd state of the context in a slot (R393, R401). -/
def State.restoreContext (s : State) (p : Nat) (x : Slot) : State :=
  (s.herdList p).zipIdx.foldl
    (fun (s : State) (e : Nat × Nat) =>
      match (s.ctx x.ctx).herds with
      | none => s.freshHerd x e.1
      | some l =>
        match l.find? fun v => v.herd == e.1 with
        | some v => s.restoreHerd x e.2 e.1 v
        | none => s.freshHerd x e.1) s

/-! ### Snapshots that fail (R435) -/

/-- A snapshot of a context is due or in progress. -/
def Slot.snapBusy (x : Slot) : Bool := x.snap.phase != 0

/-- The pin of a snapshot is released, where it still holds one (R431). -/
def Slot.snapUnpin (x : Slot) : Slot := if x.snap.phase = 2 ∨ x.snap.phase = 3 then x.unpin x.snap.gen else x

/-- The snapshot that waits for the end of another becomes due (R437). -/
def Slot.snapAgain (x : Slot) : Slot :=
  match x.snapNext with
  | some a => { x with snap := { phase := 1, atStep := a }, snapNext := none }.fset R.SCH_SNAP_STAT F.SCH_SNAP_STAT_OUTCOME 1
  | none => x

/-- The snapshot of the context in a slot ends with an outcome. -/
def State.snapEnd (s : State) (p k outcome : Nat) : State :=
  match s.slot? p k with
  | some x =>
    let y := { x.snapUnpin with snap := {} }.fset R.SCH_SNAP_STAT F.SCH_SNAP_STAT_OUTCOME outcome
    { s.setSlot p k y.snapAgain with snapQ := s.snapQ.erase x.ctx }
  | none => s

/-- A snapshot fails (R435), and its operation ends with a status (R36, R71): 7 where no access of it failed. -/
def State.snapFail (s : State) (p k status : Nat) : State :=
  let s1 := (((s.snapEnd p k 4).modSlot p k fun x => { x with snapEnded := status }).fadd R.SNAP_STAT F.SNAP_STAT_FAILED 1).lifeAdd 32 1
  s1.event R.SNAP_STAT (some F.SNAP_STAT_FAILED) []

end Sys2Proof.Machine
end

