-- ==== Sys2Proof/Machine/Coherence.lean ====
section
/-!
DEFINITION. Coherence.lean: the coherence commands: requests and writebacks that reach a home, snoops that reach a holder, and
answers that reach a home or a requester (R89, R299 to R309). An agent's silent writes become known where its data leaves it.
-/

namespace Sys2Proof.Machine

/-! ### Requests -/

/-- The line lies behind a remote window (R35). -/
def remoteLine (line : Nat) : Bool := decide (2 ^ 48 ≤ line ∧ line < 2 ^ 49)

/-- An access of an agent through a remote window, which no cache holds (R35, R42, R293): it goes over the fabric, and is answered by FAIL
where it is an address decode error. -/
def State.remoteAccess (s : State) (line : Nat) (q : Txn) : State :=
  let wr : Option (Nat × Nat) :=
    match q.kind with
    | .putFull => some (q.data, 2 ^ 64 - 1)
    | .putMasked => some (q.data, q.mask)
    | _ => none
  let r : Reach := { part := (s.agPart q.ag q.part).getD none, direct := false, remote := agRemote q.ag, die := agDie q.ag, ag := q.ag }
  let bad (s : State) : State := s.decodeErr.failHere line q 1
  match s.xlate r wr.isSome (line * 64) with
  | .window die win off =>
    s.work (lineUnit q.ag line) fun s =>
      match s.remote r die win off wr with
      | (true, s1) => s1
      | (false, s1) => bad s1
  | _ => bad s

/-- A request of an agent goes to the home of its line, which accepts it, or it waits in the channel while the request buffer of the slice is
full (R302, R303). -/
def State.sendHome (s : State) (line : Nat) (q : Txn) : State :=
  let k := line / 16384
  let s1 := match s.rangeAt k with | some r => s.when (!isMigEngine q.ag) fun s => s.touch (agDie q.ag) r | none => s
  let s2 := s1.carry (agDie q.ag) (homeDie k) line q.bytes
  let slice := sliceOf line
  if s2.bufUsed slice < bufSize && Map.get [] s2.reqQ slice == [] then State.admitAt unitEvent line (State.accept unitEvent s2 line q)
  else { s2 with reqQ := Map.put [] s2.reqQ slice (Map.get [] s2.reqQ slice ++ [(line, q)]) }

/-- A request of an agent for a line of the package's own memory: an address decode error, a refusal at a fence, an error response where its
link is lost, a wait for its token before issue, or a request to the home (R29, R31, R34, R36, R42, R291, R413). -/
def State.request (s : State) (line : Nat) (q : Txn) : State :=
  let k := line / 16384
  if !homeLine line || !s.lineOk q.ag q.part line then s.decodeErr.failHere line q 1
  else if s.homeFenced k then (s.fenceRefusal 3 (homeDie k)).failHere line q 2
  else if !s.linked (agDie q.ag) (homeDie k) then (s.linkRefusal (agDie q.ag) (homeDie k)).failHere line q 2
  else
    match s.ticket (lineUnit q.ag line) (dueLine ((s.agPart q.ag q.part).getD none) (tierOfKey k)) with
    | (true, s1) => s1.sendHome line q
    | (false, s1) => s1

/-- A request of an agent that may send it. -/
def State.requestBy (s : State) (ok : Bool) (line : Nat) (q : Txn) : State := s.when ok fun s => s.request line q

/-- GET (R305): of a caching agent that does not hold the line and awaits no DROP_OK for it (R299, R302). A core reads through a remote
window by it; a writable one, which only an atomic operation, a load-reserved or a store-conditional asks for there, is an access fault
(R341). -/
def execGet (ag line writable txn part : Nat) (s : State) : Host.Outcome State Fault Refusal :=
  let q : Txn := { kind := if writable = 1 then .getWrite else .getRead, ag := ag, txn := txn, part := part }
  s.runIf (instrWf (.get ag line writable txn part)) (
    if remoteLine line then s.when (caching ag) fun s => if writable = 1 then s.answer .accessFault 0 else s.remoteAccess line q
    else s.requestBy (caching ag && (s.held? line ag).isNone && !s.dropping line ag) line q)

/-- The request that a header begins (R302). -/
def hdrRequest (h : CohHdr) (k : TxnKind) : Txn := { kind := k, ag := h.ag, txn := h.txn, part := h.part }

/-- CLAIM (R306): of a remote line, an atomic operation or a store-conditional, it is an access fault (R341). -/
def execClaim (hdr : CohHdr) (line : Nat) (s : State) : Host.Outcome State Fault Refusal :=
  s.runIf (instrWf (.claim hdr line)) (
    if remoteLine line then s.when (caching hdr.ag) fun s => s.answer .accessFault 0
    else s.requestBy (caching hdr.ag && !s.dropping line hdr.ag) line (hdrRequest hdr .claim))

/-- PEEK (R300), also through a remote window (R42). -/
def execPeek (hdr : CohHdr) (line : Nat) (s : State) : Host.Outcome State Fault Refusal :=
  let q := hdrRequest hdr .peek
  s.runIf (instrWf (.peek hdr line)) (
    if remoteLine line then s.when (oneWay hdr.ag) fun s => s.remoteAccess line q else s.requestBy (oneWay hdr.ag) line q)

/-- A write of a one-way agent goes to the home of its line, or through a remote window; a core's goes through a remote window only
(R42, R300). -/
def State.putBy (s : State) (line : Nat) (q : Txn) : State :=
  if remoteLine line then s.when (oneWay q.ag || caching q.ag) fun s => s.remoteAccess line q else s.requestBy (oneWay q.ag) line q

/-- PUT_FULL (R300); a core writes through a remote window by it too. -/
def execPutFull (hdr : CohHdr) (line data hint : Nat) (s : State) : Host.Outcome State Fault Refusal :=
  s.runIf (instrWf (.putFull hdr line data hint)) (
    s.putBy line { hdrRequest hdr .putFull with data := data, saved := hint == 1 })

/-- PUT_MASKED (R300); a core writes through a remote window by it too. -/
def execPutMasked (hdr : CohHdr) (line data mask hint : Nat) (s : State) : Host.Outcome State Fault Refusal :=
  s.runIf (instrWf (.putMasked hdr line data mask hint)) (
    s.putBy line { hdrRequest hdr .putMasked with data := data, mask := mask, saved := hint == 1 })

/-- MERGE (R89): of a record whose line the home serves. -/
def execMerge (hdr : CohHdr) (recAddr status mapAddr mapBits : Nat) (s : State) : Host.Outcome State Fault Refusal :=
  s.runIf (instrWf (.merge hdr recAddr status mapAddr mapBits)) (
    s.requestBy (oneWay hdr.ag) (recAddr / 64)
      { hdrRequest hdr .merge with recAddr := recAddr, status := status, mapAddr := mapAddr, mapBits := mapBits })

/-! ### Writebacks -/

/-- An agent has a writeback outstanding at a home slice (R302). -/
def State.wbkAt (s : State) (slice ag : Nat) : Bool :=
  s.wback.any fun (e : Nat × CLine) => e.1 % 128 == ag && sliceOf (e.1 / 128) == slice

/-- An owner that has forwarded a line that it may have written silently holds it in O (R298): its LINE has not arrived. -/
def State.forwarding (s : State) (line ag : Nat) : Bool :=
  s.msgs.any fun m => m.op == .line && m.line == line && m.c == ag + 1 && m.data.isNone

/-- What an agent holds of a line may be dropped with this DIRTY (R298, R299). -/
def State.dropFits (s : State) (line ag dirty : Nat) (c : CLine) : Bool :=
  if dirty = 1 then c.st != .s || s.forwarding line ag else !c.st.dirty

/-- DROP (R299, R307): of a line that the agent holds, with at most one outstanding at a slice; one in E may have been written silently. -/
def execDrop (ag line dirty data : Nat) (s : State) : Host.Outcome State Fault Refusal :=
  s.runIf (instrWf (.drop ag line dirty data)) (
    match caching ag && !s.wbkAt (sliceOf line) ag, s.held? line ag with
    | true, some c =>
      if !s.dropFits line ag dirty c then s
      else
        let w : CLine := { st := if dirty = 1 then .m else .s, data := data }
        let d : HeldDrop := { ag := ag, dirty := dirty == 1, data := data }
        let home := homeDie (line / 16384)
        let s1 := { s.uncache line ag with wback := s.wback.insert (cacheKey line ag) w }.carry (agDie ag) home line
          (if dirty = 1 then 80 else 16)
        if !s1.linked (agDie ag) home then s1.linkRefusal (agDie ag) home
        else
          match s1.busyAt line with
          | some b => if b.cur.isSome then s1.setBusy line { b with drops := b.drops ++ [d] } else s1.endDrop line d
          | none => s1.endDrop line d
    | _, _ => s)

/-! ### Snoops and answers -/

/-- A message that has arrived has its effect, and requests that wait in the channel are accepted as there is room. -/
def State.take (s : State) (op : CohOp) (ag line : Nat) (f : CohMsg → State → State) : State :=
  match s.arrive op ag line with
  | none => s
  | some (m, s1) => State.admitAt unitEvent line (f m s1)

/-- SEND (R305). -/
def execSend (owner line req reqTxn pass : Nat) (s : State) : Host.Outcome State Fault Refusal :=
  s.runIf (instrWf (.send owner line req reqTxn pass)) (s.take .send owner line fun m s => s.takeSend m)

/-- KILL (R300, R307). -/
def execKill (ag line ret : Nat) (s : State) : Host.Outcome State Fault Refusal :=
  s.runIf (instrWf (.kill ag line ret)) (s.take .kill ag line fun m s => s.takeKill m)

/-- SNP_DONE (R303): its flags are those that the holder sent. -/
def execSnpDone (ag line flags : Nat) (s : State) : Host.Outcome State Fault Refusal :=
  s.runIf (instrWf (.snpDone ag line flags)) (s.take .snpDone ag line fun m s => State.takeSnpDone unitEvent s m)

/-- LINE_HOME (R307). -/
def execLineHome (ag line data : Nat) (s : State) : Host.Outcome State Fault Refusal :=
  s.runIf (instrWf (.lineHome ag line data)) (s.take .lineHome ag line fun m s => State.takeLineHome unitEvent s m data)

/-- DONE (R302). -/
def execDone (ag line : Nat) (s : State) : Host.Outcome State Fault Refusal :=
  s.runIf (instrWf (.done ag line)) (s.take .done ag line fun m s => s.takeDone m)

/-- GOT (R303). -/
def execGot (ag line : Nat) (s : State) : Host.Outcome State Fault Refusal :=
  s.runIf (instrWf (.got ag line)) (s.take .got ag line fun m s => State.takeGot unitEvent s m)

/-- REDO (R308): the requester translates again, and its reissue is a new request. -/
def execRedo (ag line : Nat) (s : State) : Host.Outcome State Fault Refusal :=
  s.runIf (instrWf (.redo ag line)) (s.take .redo ag line fun _ s => s)

/-- DROP_OK (R299): the writer frees its writeback buffer. -/
def execDropOk (ag line stale : Nat) (s : State) : Host.Outcome State Fault Refusal :=
  s.runIf (instrWf (.dropOk ag line stale)) (
    s.take .dropOk ag line fun _ s => { s with wback := s.wback.erase (cacheKey line ag) })

/-- The slot of a partition whose snapshot is being captured or copied. -/
def State.snapping (s : State) (p : Nat) : Option Nat := firstUpTo 4 fun k => (s.slot? p k).any Slot.snapBusy

/-- An operation of the DMA of an Ethernet port ends with a status (R36, R71). -/
def State.ethEnds (s : State) (e status : Nat) : State :=
  { s with eths := Map.put {} s.eths e { (Map.get {} s.eths e : EthPort) with ended := status } }

/-- The operation of an engine ends with a status (R36, R71): a migration, the collectives that serve a partition, the DMA of an Ethernet
port, the intake stream of a partition, which stops (R386), and its snapshot, which fails (R435). -/
def State.engineFails (s : State) (ag part status : Nat) : State :=
  if isMigEngine ag then
    match s.migs.find? (ag - 320) with
    | some m => s.migFail (ag - 320) m status
    | none => s
  else if ag = 336 ∨ ag = 337 then s.collFailAll (fun d c => d == ag - 336 && c.part == part && c.started) status
  else if 338 ≤ ag ∧ ag < 346 then s.ethEnds (ag - 338) status
  else if ag = 346 then s.inkError part status
  else if ag = 347 then (match s.snapping part with | some k => s.snapFail part k status | none => s)
  else s

/-- What a load answers that fails: 0 poison, 1 decode error, 2 timeout. -/
def errLd (why : Nat) : Ld := if why = 0 then .data else if why = 1 then .decode else .timeout

/-- A memory access of an agent fails: 0 poison, 1 decode error, 2 timeout (R36, R71). A core takes an access fault; the running
segment of a tile ends; the operation of an engine for a partition ends with RANGE or TIMEOUT. -/
def State.agentFails (s : State) (ag part why : Nat) : State :=
  if caching ag then s.answer .accessFault 0
  else if 128 ≤ ag ∧ ag < 320 then
    match (s.tile (ag - 128)).run with
    | some r => s.segLd (ag - 128) r r.lastIdx (errLd why)
    | none => s
  else s.engineFails ag part (if why = 2 then 6 else 2)

/-- FAIL (R309). -/
def execFail (ag line : Nat) (s : State) : Host.Outcome State Fault Refusal :=
  s.runIf (instrWf (.fail ag line)) (s.take .fail ag line fun m s => s.agentFails ag m.part m.a)

/-- LINE (R302). -/
def execLine (ag line data grant dirty : Nat) (s : State) : Host.Outcome State Fault Refusal :=
  s.runIf (instrWf (.line ag line data grant dirty)) (s.take .line ag line fun m s => s.takeLine m data dirty)

/-- BUSY_REQUEST_SERVE (R303). -/
def execBusyRequestServe (line : Nat) (s : State) : Host.Outcome State Fault Refusal :=
  s.runIf (instrWf (.busyRequestServe line)) (State.admitAt unitEvent line (State.serveLine unitEvent s line))

end Sys2Proof.Machine
end

