-- ==== Sys2Proof/Machine/Fabric.lean ====
section
/-!
DEFINITION. Fabric.lean: the Afraeri ports: flits that arrive, replay and credits, links, trunks and routes; remote requests and
their answers; STOTs that arrive or that software sends; and the role epoch (R331 to R348).
-/

namespace Sys2Proof.Machine

/-! ### Refusals -/

/-- Count a message discarded or refused at a port (R332, R338). -/
def State.badMsg (s : State) (g : Nat) : State := s.fadd (R.AFR_PORT_ERR g) F.AFR_PORT_ERR_BAD 1

/-- A NACK with a status, for the source of a message. -/
def nackOf (src : Nat) (m : AfrMsg) (status : Nat) : AfrMsg :=
  { vc := 1, typ := 0x12, dst := m.src, src := src, epoch := 0, len := 0, tag := m.tag, arg := status, data := [] }

/-- The NACK that answers a message; RSP and CTRL messages and a COLL_NACK are not answered (R332). -/
def nackMsg (src : Nat) (m : AfrMsg) (status : Nat) : Option AfrMsg := if m.vc = 0 ∨ m.typ = 0x20 then some (nackOf src m status) else none

/-- Answer a message with a refusal, from a die. -/
def State.refuse (s : State) (d : Nat) (m : AfrMsg) (status : Nat) : State :=
  match nackMsg s.pkgId m status with
  | some r => (s.sendVia d r (msgLine m)).2
  | none => s

/-- The member record of a rank, from a group entry of a die; none where it cannot be read (R349). -/
def State.memberRec (s : State) (d : Nat) (e : List Nat) (r : Nat) : Option Nat :=
  (s.loadWords (Reach.engine d) (bits (e.getD 1 0) 3 53 * 8 + 8 * r) 1).1.map fun l => l.getD 0 0

/-- PKG, DIE, ETH, EPOCH and QPN of a member record (R349). -/
def mPkg (m : Nat) : Nat := bits m 48 16
def mDie (m : Nat) : Nat := bits m 47 1
def mEth (m : Nat) : Bool := bit m 46
def mEpoch (m : Nat) : Nat := bits m 24 16
def mQpn (m : Nat) : Nat := bits m 0 24

/-- The member records of the ranks before and after this die's in a group. -/
def State.neighbours (s : State) (d g : Nat) : List Nat :=
  match s.groupEntry d g with
  | some e =>
    let r := bits (e.getD 0 0) 16 16
    ((if r = 0 then [] else [r - 1]) ++ (if r < bits (e.getD 0 0) 32 16 then [r + 1] else [])).filterMap (s.memberRec d e)
  | none => []

/-- Send a COLL_NACK to the source of a COLL message, under the sender's epoch as the group's member records give it (R332, R345). -/
def State.collNack (s : State) (d : Nat) (m : AfrMsg) (status : Nat) : State :=
  let g := bits m.arg 44 12
  let ep := ((s.neighbours d g).find? fun x => mPkg x == m.src).map mEpoch
  let r : AfrMsg := { vc := 2, typ := 0x21, dst := m.src, src := s.pkgId, epoch := ep.getD 0, len := 0, tag := m.tag,
                      arg := g * 2 ^ 44 + status, data := [] }
  (s.sendTo d r).2

/-! ### Collectives that a port serves (R338) -/

/-- A collective has a neighbour in its chain that a port leads to (R338). -/
def State.collOver (s : State) (g d : Nat) (c : Coll) : Bool :=
  let on (m : Nat) : Bool := !mEth m && mPkg m != s.pkgId && s.route d (mPkg m) == some g
  (c.rank != 0 && on c.prev) || (decide (c.rank + 1 < c.nranks) && on c.next)

/-- A message for another package goes on by the route table; without a valid entry it is answered with NACK RANGE, whatever its TYPE, and
counted (R335, R338). -/
def State.passOn (s : State) (g : Nat) (m : AfrMsg) : State :=
  match s.route (g / 18) m.dst with
  | some _ => (s.sendTo (g / 18) m).2
  | none => ((s.badMsg g).sendVia (g / 18) (nackOf s.pkgId m 2) (msgLine m)).2

/-- The message is for this package. -/
def State.mine (s : State) (m : AfrMsg) : Bool := m.dst == s.pkgId || m.dst == 0xFFFF

/-- Credits of each channel after training, which are the slots of its receive buffer (R334). -/
def fullCredit : List Nat := [1024, 1024, 4096, 64]

/-- The receive buffer of a message's channel has room for it (R334). -/
def Port.roomFor (x : Port) (m : AfrMsg) : Bool :=
  decide (sumList ((x.rx.filter fun n => n.vc == m.vc).map msgSlots) + msgSlots m ≤ fullCredit.getD m.vc 0)

/-- Slots of a channel have left the receive buffer: their credits are to go back (R334). -/
def Port.owe (x : Port) (m : AfrMsg) : Port := { x with owed := setAt x.owed m.vc (x.owed.getD m.vc 0 + msgSlots m) }

/-- A message arrives at a port: discarded where its form is wrong, kept for this package, or passed on (R332, R338). One for which its
receive buffer has no room, from a sender without the credits, is discarded and counted (log entry 33). -/
def State.deliver (s : State) (g : Nat) (m : AfrMsg) : State :=
  if !msgOk m || !(s.port g).roomFor m then s.badMsg g
  else if s.mine m then s.setPort g { s.port g with rx := (s.port g).rx ++ [m] }
  else (s.setPort g ((s.port g).owe m)).passOn g m

/-! ### The link layer (R333, R334) -/

/-- Flits of the replay buffer that an ACK covers leave it (R333). -/
def Port.ack (x : Port) (a : Nat) : Port :=
  match x.replay.findIdx? fun e => e.1 == a with
  | some i => { x with replay := x.replay.drop (i + 1) }
  | none => x

/-- Credits come back (R334). -/
def Port.refund (x : Port) (vc n : Nat) : Port :=
  { x with credit := setAt x.credit vc (min (x.credit.getD vc 0 + n) (fullCredit.getD vc 0)) }

/-- A replay starts: every flit of the replay buffer, which begins at ACK + 1, is sent again (R333, R427, R465). -/
def State.replayStarts (s : State) (g : Nat) : State :=
  let x := s.port g
  (((s.setPort g (x.replay.foldl (fun x e => x.put 0 e.1 false e.2) x)).fadd (R.AFR_PORT_ERR g) F.AFR_PORT_ERR_REPLAYS 1).fset
    (R.AFR_PORT_STATUS g) F.AFR_PORT_STATUS_REPLAYING 1).lifeAdd 25 1

/-- A NAK leaves in an idle flit (R333). -/
def State.nakFlit (s : State) (g : Nat) : State :=
  (s.setPort g { s.port g with nak := true, naks := (s.port g).naks + 1 }).idleFlit g true

/-- The receiver asks once for a replay (R333). -/
def State.sendNak (s : State) (g : Nat) : State := s.when (!(s.port g).nak) fun s => s.nakFlit g

/-- ACK, NAK and credits of a flit with a good check: an ACK that covers the first flit of a replay ends it. -/
def State.linkHdr (s : State) (g h : Nat) : State :=
  let x := s.port g
  let y := (x.ack (bits h 42 10)).refund (bits h 39 2) (bits h 31 8)
  let s1 := s.setPort g y
  let s2 := s1.when (y.replay.length < x.replay.length || y.replay.isEmpty) fun s =>
    s.fset (R.AFR_PORT_STATUS g) F.AFR_PORT_STATUS_REPLAYING 0
  let s3 := s2.when (bit h 41 && !y.replay.isEmpty) fun s => s.replayStarts g
  (State.pump g y.tx.length s3).holdsEnd

/-- The messages of a data flit in order, and the acknowledgement of the flit with the credits that go back (R333, R334, log entry 33). -/
def State.flitData (s : State) (g f : Nat) : State :=
  let ms := flitMsgs f
  let s1 := s.setPort g { s.port g with want := ((s.port g).want + 1) % 1024, nak := false }
  let s2 := s1.bwAdd (B.afrPort g + 0x100) 0 (16 * sumList (ms.map msgSlots))
  (ms.foldl (fun s m => s.deliver g m) s2).idleFlit g false

/-- A flit at a port that runs (R333): a flit with a bad check is counted and discarded, and so is a data flit after a gap;
either makes the receiver ask for a replay. A data flit that has already been received is discarded. -/
def State.flitIn (s : State) (g f : Nat) : State :=
  let h := flitHdr f
  if !flitGood f then (s.fadd (R.AFR_PORT_ERR g) F.AFR_PORT_ERR_FLIT_BAD 1).sendNak g
  else
    let s1 := s.linkHdr g h
    if bits h 62 2 ≠ 0 then s1
    else
      let behind := (1024 + (s1.port g).want - bits h 52 10) % 1024
      if behind = 0 then s1.flitData g f
      else if behind ≤ replayMax then s1.idleFlit g false
      else s1.sendNak g

/-- FLIT_RECEIVE (R333). -/
def execFlitReceive (port flit : Nat) (s : State) : Host.Outcome State Fault Refusal :=
  s.runIf (instrWf (.flitReceive port flit)) (
    if s.fbit (R.AFR_PORT_CTL port) F.AFR_PORT_CTL_EN && s.portUp port then s.flitIn port flit else s)

/-- REPLAY_START (R333): data flits have gone unacknowledged for 4 µs. -/
def execReplayStart (port : Nat) (s : State) : Host.Outcome State Fault Refusal :=
  s.runIf (instrWf (.replayStart port)) (
    s.when (s.portUp port && !(s.port port).replay.isEmpty) fun s => s.replayStarts port)

/-- NAK_REPEAT (R333): the replayed flit has not arrived within 2 µs. -/
def execNakRepeat (port : Nat) (s : State) : Host.Outcome State Fault Refusal :=
  s.runIf (instrWf (.nakRepeat port)) (
    s.when (s.portUp port && (s.port port).nak) fun s => s.nakFlit port)

/-! ### How remote requests end (R212, R341, R343, R345) -/

/-- Change the flight of an instruction of a tile, on the engines that reach unified memory. -/
def State.modMove (s : State) (t idx : Nat) (f : Flight → Flight) : State := (s.modFlight t .dma idx f).modFlight t .store idx f

/-- What comes back for a line that a unit has asked for (R343). -/
def State.comes (s : State) (u : Nat) (q : RReq) (v : Ld) : State :=
  { s with came := s.came.insert u (Map.insert (Map.get [] s.came u) (remoteKey q.win q.off) v) }

/-- The requester takes the answer to a remote request (R343). -/
def State.remoteAnswer (s : State) (q : RReq) (data : Option Nat) : State :=
  match q.who, data with
  | .agent, _ => if isMigEngine q.ag then s.engineAnswer (q.ag - 320) q.off data else s.answer .ok (data.getD 0)
  | .unit u, some v => s.comes u q (.ok v)
  | .ins t idx, some v => s.modMove t idx fun f => { f with got := f.got.insert (remoteKey q.win q.off) (.ok v) }
  | .pass p k _, some v => s.modSlot p k fun x => { x with got := x.got.insert (remoteKey q.win q.off) (.ok v) }
  | _, _ => s

/-- A tile's running segment ends and its task with it, as at a timeout, with a status (R199, R345). -/
def State.tileEnds (s : State) (t idx status : Nat) : State :=
  match (s.tile t).run with
  | some r => (((s.stopRun t).segRecord t r.img.segId idx 0xC).segReport t r.img.segId status).segTask (t / 12) status
  | none => s

/-- The index of the last instruction that a tile has dispatched. -/
def State.lastIdx (s : State) (t : Nat) : Nat :=
  match (s.tile t).run with
  | some r => r.lastIdx
  | none => 0

/-- An access of entry i of a pass is refused: a line that cannot be read ends its entry in the pass, and so does, once, a write that is
refused (R212); the discard pass counts nothing (R215). -/
def State.passRefused (s : State) (p k i : Nat) (q : RReq) (e : Ld) : State :=
  s.modSlot p k fun x =>
    if q.write then x.passFails i (x.pass ≤ 2)
    else { x with got := x.got.insert (remoteKey q.win q.off) e }

/-- The work of a unit ends with a status, after a write that is refused or an answer of another role (R36, R71, R345). What has no operation
of its own to end goes on. -/
def State.unitFails (s : State) (u status : Nat) : State :=
  if gatherUnit 0 ≤ u ∧ u < gatherUnit 192 then s.tileEnds (u - gatherUnit 0) (s.lastIdx (u - gatherUnit 0)) status
  else if inkUnit 0 ≤ u ∧ u < inkUnit 8 then s.inkError (u - inkUnit 0) status
  else if snapUnit 0 ≤ u ∧ u < snapUnit 8 then
    match s.snapping (u - snapUnit 0) with
    | some k => s.snapFail (u - snapUnit 0) k status
    | none => s
  else if ethUnit 0 ≤ u ∧ u < ethUnit 8 then s.ethEnds (u - ethUnit 0) status
  else if collUnit 0 0 ≤ u ∧ u < collUnit 2 0 then
    s.collFailAll (fun d c => collUnit d c.group == u && c.started) status
  else s

/-- A remote access is refused with a status (R341, R345): RANGE is an address decode error; STALE_ROLE is one to a core, and
ends an engine's work with STALE_ROLE; a timeout ends as any other. -/
def State.remoteRefused (s : State) (q : RReq) (status : Nat) : State :=
  let part := q.part.getD 0
  let bad := status != 4 && status != 6 && (status != 5 || caching q.ag)
  let s1 := s.when bad State.decodeErr
  let why := if status = 6 then 2 else if status = 4 then 0 else 1
  match q.who with
  | .agent =>
    if status = 5 ∧ ¬ caching q.ag then
      if 128 ≤ q.ag ∧ q.ag < 320 then s1.tileEnds (q.ag - 128) (s.lastIdx (q.ag - 128)) 5 else s1.engineFails q.ag part 5
    else s1.agentFails q.ag part why
  | .ins t idx =>
    match status, (s.tile t).run with
    | 5, _ => s1.tileEnds t idx 5
    | _, some r => s1.segLd t r idx (errLd why)
    | _, none => s1
  | .pass p k i => s1.passRefused p k i q (errLd why)
  | .unit u => if q.write || status = 5 && decide (gatherUnit 0 ≤ u) then s1.unitFails u status else s1.comes u q (errLd why)
  | .gone => s1

/-! ### Links and trunks (R336, R337) -/

/-- The requests outstanding through a port end with TIMEOUT (R336). -/
def State.portRequests (s : State) (g : Nat) : State :=
  let l := s.rreqs.filter fun e => e.2.port == some g
  l.foldl (fun s e =>
    match s.rreqs.find? e.1 with
    | some q => { s with rreqs := s.rreqs.erase e.1 }.remoteRefused q 6
    | none => s) s |>.sendReqs

/-- A STOT of kind LOST leaves this package and reaches its own step schedulers (R336, R346, R347). -/
def State.lostStot (s : State) (pkg : Nat) : State :=
  let slot := stotSlot 1 0 s.pkgId pkg s.tick
  (s.stotOriginate 1 0 pkg).stotDeliver slot

/-- A port goes down and retrains (R336, R337, R427, R465, R466). In a trunk with other members up, the unacknowledged messages
and those that wait go to them, and no request ends. -/
def State.portDown (s : State) (g : Nat) : State :=
  let x := s.port g
  let st := R.AFR_PORT_STATUS g
  let s1 := (s.fset st F.AFR_PORT_STATUS_UP 0).fset st F.AFR_PORT_STATUS_REPLAYING 0
  let s2 := (((s1.fadd (R.AFR_PORT_ERR g) F.AFR_PORT_ERR_DOWNS 1).lifeAdd 24 1).histAdd 23 g 1).health 1 1
  let s3 := (s2.setPort g { trunk := x.trunk, lane := x.lane }).trains g
  let key := 16 * (g / 18) + x.trunk
  let others := if x.trunk = 0 then [] else s3.trunkPorts (g / 18) x.trunk
  let again := (x.replay.flatMap fun e => e.2) ++ x.tx
  if others ≠ [] then
    let h : TrunkHold := { key := key, before := s.trunkPorts (g / 18) x.trunk, fell := g, sent := again.filter fun m => m.vc < 2 }
    again.foldl
      (fun s m =>
        match s.outPort (64 + key) m (msgLine m) with
        | (some o, s') => s'.sendOn o m
        | (none, s') => s')
      { s3 with holds := if h.sent = [] then s3.holds else s3.holds ++ [h] }
  else
    (({ s3 with holds := s3.holds.filter fun h => x.trunk = 0 || h.key != key } : State).portRequests g).when
      (s3.fbit (R.AFR_PORT_CTL g) F.AFR_PORT_CTL_LOSS_STOT) fun s => s.lostStot (s.fget st F.AFR_PORT_STATUS_NBR_PKG)

/-- LINK_LOSS (R336). -/
def execLinkLoss (port : Nat) (s : State) : Host.Outcome State Fault Refusal :=
  s.runIf (instrWf (.linkLoss port)) (s.when (s.portUp port) fun s => s.portDown port)

/-- AFR_REPLAY_TIMEOUT (R69): a replay has not succeeded within AFR_US. -/
def execAfrReplayTimeout (port : Nat) (s : State) : Host.Outcome State Fault Refusal :=
  s.runIf (instrWf (.afrReplayTimeout port)) (
    s.when (s.portUp port && s.fbit (R.AFR_PORT_STATUS port) F.AFR_PORT_STATUS_REPLAYING) fun s =>
      let s1 := (s.timeoutAt { cls := 5, unit := port, kind := 6, cause := 0x13 }).lifeAdd 11 1
      (s1.collFailAll (s1.collOver port) 6).portDown port)

/-- A HELLO of the neighbour ends training (R336): the port, which has sent its own, comes up with what the HELLO names. -/
def State.helloIn (s : State) (g : Nat) (m : AfrMsg) : State :=
  let st := R.AFR_PORT_STATUS g
  let (die, port, ep) := Config.helloFields (m.data.getD 0 0)
  let s0 := if s.fbit st F.AFR_PORT_STATUS_TRAINING then s else s.trains g
  let s1 := ((s0.fset st F.AFR_PORT_STATUS_UP 1).fset st F.AFR_PORT_STATUS_TRAINING 0).fset st F.AFR_PORT_STATUS_NBR_PKG m.src
  let s2 := ((s1.fset st F.AFR_PORT_STATUS_NBR_DIE die).fset st F.AFR_PORT_STATUS_NBR_PORT port).fset st
    F.AFR_PORT_STATUS_NBR_EPOCH ep
  s2.setPort g { trunk := (s2.port g).trunk, lane := (s2.port g).lane }

/-- HELLO (R336): received by a port that trains; one that is up notes the neighbour's epoch. -/
def execHello (port : Nat) (msg : AfrMsg) (s : State) : Host.Outcome State Fault Refusal :=
  s.runIf (instrWf (.hello port msg)) (
    if msg.typ != 0x32 || !s.fbit (R.AFR_PORT_CTL port) F.AFR_PORT_CTL_EN then s
    else if !msgOk msg then s.badMsg port
    else if s.portUp port then
      s.fset (R.AFR_PORT_STATUS port) F.AFR_PORT_STATUS_NBR_EPOCH (Config.helloFields (msg.data.getD 0 0)).2.2
    else s.helloIn port msg)

/-- The effect of a write of AFR_PORT_CTL.RETRAIN (R336). -/
def retrainWrite (port value : Nat) (s : State) : State :=
  s.when (bit value 11) fun s =>
    if s.portUp port then s.portDown port else s.trains port

/-- PORT_RETRAIN (R336). -/
def execPortRetrain (a : Agent) (port value : Nat) (s : State) : Host.Outcome State Fault Refusal :=
  s.runIf (instrWf (.portRetrain a port value)) (
    s.writeReg a .afrPort port (R.AFR_PORT_CTL port) (retrainWrite port value))

/-- A port joins the trunk that it is set to, or leaves its trunk where it is down (R61). R61 gives a trunk up to 8 ports and no outcome
for more: here a ninth joins as the others do (DESIGN CHOICE, log entry 88). -/
def State.joinTrunk (s : State) (g : Nat) : State :=
  let k := if s.portUp g then s.fget (R.AFR_PORT_CTL g) F.AFR_PORT_CTL_TRUNK else 0
  (s.setPort g { s.port g with trunk := k }).fset (R.AFR_PORT_STATUS g) F.AFR_PORT_STATUS_IN_TRUNK (b2n (k != 0))

/-- TRUNK_CHANGE (R61): at a boundary. -/
def execTrunkChange (d : Nat) (s : State) : Host.Outcome State Fault Refusal :=
  s.runIf (instrWf (.trunkChange d)) (
    if s.clk.phase < 9 then forRange 18 (fun i s => s.joinTrunk (18 * d + i)) s else s)

/-! ### Messages for this package -/

/-- Take a message that has arrived at a port out of its buffer, and return its credits (R334). -/
def State.takeRx (s : State) (g : Nat) (m : AfrMsg) : State :=
  s.when ((s.port g).rx.contains m) fun s =>
    (s.setPort g { (s.port g).owe m with rx := (s.port g).rx.erase m }).idleFlit g false

/-- A message of one of the TYPEs arrives at a port that is up: discarded where its form is wrong, passed on where it is for
another package, and otherwise taken and carried out by `f` (R332, R338). -/
def State.receive (s : State) (g : Nat) (m : AfrMsg) (typ : Nat) (f : State → State) : State :=
  if m.typ ≠ typ || !s.portUp g then s
  else if !msgOk m then s.badMsg g
  else if s.mine m then f (s.takeRx g m)
  else s.passOn g m

/-- A REQ or COLL message names the role of this package (R345). -/
def State.roleOk (s : State) (m : AfrMsg) : Bool := m.epoch == s.epoch && s.epoch != 0

/-- A message of another role is dropped, answered and counted (R345). -/
def State.staleDrop (s : State) (g : Nat) (m : AfrMsg) : State :=
  let s1 := s.fadd (R.AFR_STAT (g / 18)) F.AFR_STAT_STALE_DROPS 1
  if m.vc = 2 then s1.collNack (g / 18) m 5 else s1.refuse (g / 18) m 5

/-- The remote partition of a request. -/
def reqPart (m : AfrMsg) : Nat := bits m.arg 42 3
/-- The line address of a request, in the unified region. -/
def reqAddr (m : AfrMsg) : Nat := bits m.arg 6 36 * 64

/-- The check of R342. -/
def State.remoteOk (s : State) (d : Nat) (m : AfrMsg) (write : Bool) : Bool :=
  let r := R.AFR_RPERM d (reqPart m)
  let mask := s.fget r F.AFR_RPERM_MASK
  s.fbit r F.AFR_RPERM_EN && (m.src &&& mask) == (s.fget r F.AFR_RPERM_BASE &&& mask) && (!write || s.fbit r F.AFR_RPERM_WR)

/-- The answer to a request. -/
def respMsg (src : Nat) (m : AfrMsg) (typ : Nat) (data : List Nat) : AfrMsg :=
  { vc := 1, typ := typ, dst := m.src, src := src, epoch := 0, len := data.length, tag := m.tag, arg := 0, data := data }

/-- The die holds the transmit credit for an answer of so many slots, where a port carries it (R334). -/
def State.respCredit (s : State) (d : Nat) (m : AfrMsg) (slots : Nat) : Bool :=
  match s.route d m.src with
  | none => true
  | some e =>
    match (s.outPort e (respMsg s.pkgId m 0x11 []) (msgLine m)).1 with
    | some g => !s.portUp g || decide (slots ≤ (s.port g).credit.getD 1 0)
    | none => true

/-- The status with which a request that its home does not serve is refused (R316, R341, R413). -/
def homeStatus : Ld → Nat
  | .data => 4
  | .timeout => 6
  | _ => 2

/-- Serve a request at its home under the id of the collective engine (R341): `f` reads or writes the line and gives the
answer's TYPE and data. The checks come first. -/
def State.serve (s : State) (d : Nat) (m : AfrMsg) (write : Bool) (f : Reach → Nat → State → Ld × Nat × List Nat × State) :
    State :=
  let r := Reach.remoteReq (reqPart m) d
  if !s.remoteOk d m write then s.refuse d m 2
  else
    match s.xlate r write (reqAddr m) with
    | .frame _ =>
      match f r (reqAddr m) s with
      | (.ok _, typ, data, s1) =>
        ((s1.when (data != []) fun s => s.charge (reqPart m) 2 1 1).sendVia d (respMsg s1.pkgId m typ data) (msgLine m)).2
      | (e, _, _, s1) => s1.refuse d m (homeStatus e)
    | .fence h => (s.fenceRefusal 3 h).refuse d m 6
    | _ => s.refuse d m 2

/-- A request of a type is taken from its port and carried out, or dropped where its role is not this package's (R341, R342, R345). -/
def State.fabServe (s : State) (g : Nat) (m : AfrMsg) (typ : Nat) (write : Bool)
    (f : Reach → Nat → State → Ld × Nat × List Nat × State) : State :=
  s.receive g m typ fun s => if !s.roleOk m then s.staleDrop g m else s.serve (g / 18) m write f

/-- A request of the REQ channel (R334, R341, R342, R345): it waits in its buffer while its access has to wait. -/
def State.fabRequest (s : State) (g : Nat) (m : AfrMsg) (typ slots : Nat) (write : Bool)
    (f : Reach → Nat → State → Ld × Nat × List Nat × State) : State :=
  if s.mine m && msgOk m && !s.respCredit (g / 18) m slots then s else s.work (portUnit g) fun s => s.fabServe g m typ write f

/-- PEEK of a line. -/
def peekLine (r : Reach) (a : Nat) (s : State) : Ld × Nat × List Nat × State :=
  match s.loadLine r a 64 with
  | (e, s1) => (e, 0x10, toWords 128 4 e.val, s1)

/-- PUT_FULL of a line. -/
def putLineReq (m : AfrMsg) (r : Reach) (a : Nat) (s : State) : Ld × Nat × List Nat × State :=
  match s.storeLine r false a 64 (ofWords 128 (m.data.take 4)) with
  | (e, s1) => (e, 0x11, [], s1)

/-- PUT_MASKED of a line. -/
def putMaskReq (m : AfrMsg) (r : Reach) (a : Nat) (s : State) : Ld × Nat × List Nat × State :=
  let mask := m.data.getD 0 0 % 2 ^ 64
  let new := ofWords 128 ((m.data.drop 1).take 4)
  if mask = 2 ^ 64 - 1 then
    match s.storeLine r false a 64 new with
    | (e, s1) => (e, 0x11, [], s1)
  else
    match s.storeMask r a new mask with
    | (e, s1) => (e, 0x11, [], s1)

/-- RD (R341). -/
def execRd (port : Nat) (msg : AfrMsg) (s : State) : Host.Outcome State Fault Refusal :=
  s.runIf (instrWf (.rd port msg)) (s.fabRequest port msg 0 5 false peekLine)

/-- WR_LINE (R341). -/
def execWrLine (port : Nat) (msg : AfrMsg) (s : State) : Host.Outcome State Fault Refusal :=
  s.runIf (instrWf (.wrLine port msg)) (s.fabRequest port msg 1 1 true (putLineReq msg))

/-- WR_MASK (R341). -/
def execWrMask (port : Nat) (msg : AfrMsg) (s : State) : Host.Outcome State Fault Refusal :=
  s.runIf (instrWf (.wrMask port msg)) (s.fabRequest port msg 2 1 true (putMaskReq msg))

/-! ### Answers to remote requests (R341, R343, R345) -/

/-- An answer ends its request: `f` is what becomes of it. An answer without a request is discarded. -/
def State.answered (s : State) (tag : Nat) (ok : RReq → Bool) (f : RReq → State → State) : State :=
  match List.find? (fun e : Nat × RReq => e.1 % 4096 == tag && ok e.2) s.rreqs with
  | some e => f e.2 { s with rreqs := s.rreqs.erase e.1 }.sendReqs
  | none => s

/-- RD_DATA (R343). -/
def execRdData (port : Nat) (msg : AfrMsg) (s : State) : Host.Outcome State Fault Refusal :=
  s.runIf (instrWf (.rdData port msg)) (
    s.receive port msg 0x10 fun s => s.answered msg.tag (fun q => !q.write) fun q s =>
      s.remoteAnswer q (some (ofWords 128 (msg.data.take 4))))

/-- WR_ACK (R343). -/
def execWrAck (port : Nat) (msg : AfrMsg) (s : State) : Host.Outcome State Fault Refusal :=
  s.runIf (instrWf (.wrAck port msg)) (
    s.receive port msg 0x11 fun s => s.answered msg.tag (fun q => q.write) fun q s => s.remoteAnswer q none)

/-- NACK (R341, R345). -/
def execNack (port : Nat) (msg : AfrMsg) (s : State) : Host.Outcome State Fault Refusal :=
  s.runIf (instrWf (.nack port msg)) (
    s.receive port msg 0x12 fun s =>
      (s.collFailAll (fun _ c => c.tag == msg.tag) (msg.arg % 256)).answered msg.tag (fun _ => true) fun q s =>
        s.remoteRefused q (msg.arg % 256))

/-- REMOTE_TIMEOUT (R343). -/
def execRemoteTimeout (d tag : Nat) (s : State) : Host.Outcome State Fault Refusal :=
  s.runIf (instrWf (.remoteTimeout d tag)) (
    match s.rreqs.find? (4096 * d + tag) with
    | some q =>
      let s1 := { s with rreqs := s.rreqs.erase (4096 * d + tag) }.sendReqs
      (s1.timeoutAt { cls := 5, unit := q.port.getD (18 * d), kind := 6, cause := 0x13 }).remoteRefused q 6
    | none => s)

/-! ### STOT and the role epoch (R344 to R347) -/

/-- STOT (R346): a reserved KIND is discarded and counted. -/
def execStot (port : Nat) (msg : AfrMsg) (s : State) : Host.Outcome State Fault Refusal :=
  s.runIf (instrWf (.stot port msg)) (
    s.receive port msg 0x31 fun s =>
      let slot := msg.data.getD 0 0
      if 2 ≤ bits slot 126 2 then s.badMsg port else s.stotArrive (port / 18) (some port) slot)

/-- The effect of a write of AFR_STOT_CMD (R347). -/
def stotCmdWrite (value : Nat) (s : State) : State :=
  let job := bits value 0 16
  (s.stotOriginate 0 job 0xFFFF).stotDeliver (stotSlot 0 job s.pkgId 0xFFFF s.tick)

/-- STOT_CMD (R347). -/
def execStotCmd (a : Agent) (d value : Nat) (s : State) : Host.Outcome State Fault Refusal :=
  s.runIf (instrWf (.stotCmd a d value)) (s.writeReg a .afrEng d (R.AFR_STOT_CMD d) (stotCmdWrite value))

/-- The effect of a write of AFR_ID.INC; writes of die 1's copy are ignored (R344). -/
def epochIncWrite (d value : Nat) (s : State) : State :=
  if d = 0 ∧ bit value 32 then { s with epochInc := true } else s

/-- EPOCH_INC (R344). -/
def execEpochInc (a : Agent) (d value : Nat) (s : State) : Host.Outcome State Fault Refusal :=
  s.runIf (instrWf (.epochInc a d value)) (s.writeReg a .afrEng d (R.AFR_ID d) (epochIncWrite d value))

/-- The role epoch after an increment (R344). -/
def nextEpoch (e : Nat) : Nat := if e = 0xFFFF then 1 else e + 1

/-- EPOCH_INCREMENT (R344): at the boundary after the write, on both dies at once. -/
def execEpochIncrement (d : Nat) (s : State) : Host.Outcome State Fault Refusal :=
  s.runIf (instrWf (.epochIncrement d)) (
    if s.epochInc && s.clk.phase < 9 then
      { s with epochInc := false }.fset (R.AFR_ID 0) F.AFR_ID_EPOCH (nextEpoch s.epoch)
    else s)

end Sys2Proof.Machine
end

