-- ==== Sys2Proof/Machine/Collectives.lean ====
section
/-!
DEFINITION. Collectives.lean: the collective engines: groups, the chain in rank order, the fold, what is written, and how a
collective ends (R182, R208, R349 to R355).
-/

namespace Sys2Proof.Machine

/-! ### What a collective works on (R350) -/

/-- The fold format that ACC names (R349). -/
def accFF (acc : Nat) : FF := if acc = 1 then .fp16 else .bf16
/-- The source tensor. -/
def Coll.src (c : Coll) : Ten := c.sdesc.ten c.sslot
/-- The destination tensor. -/
def Coll.dst (c : Coll) : Ten := c.ddesc.ten c.dslot
/-- The tensor whose elements the chain carries, in order: the source where elements are reduced, else the destination. -/
def Coll.stream (c : Coll) : Ten := if c.op = 2 then c.dst else c.src
/-- The first block row of chunk r of a tensor (R350). -/
def chunkRow (t : Ten) (n r : Nat) : Nat := r * t.blkRows / n
/-- The first row of chunk r. -/
def chunkStart (t : Ten) (n r : Nat) : Nat := min t.d.rows (16 * chunkRow t n r)
/-- Rows of chunk r. -/
def chunkRows (t : Ten) (n r : Nat) : Nat := chunkStart t n (r + 1) - chunkStart t n r
/-- The row at which this rank's chunk begins. -/
def Coll.myRow (c : Coll) : Nat := chunkStart c.stream c.nranks c.rank
/-- The row after this rank's chunk. -/
def Coll.myEnd (c : Coll) : Nat := chunkStart c.stream c.nranks (c.rank + 1)

/-- Formats that a collective takes (R350). -/
def collFmt (f : Fmt) : Bool := fmtFp8 f || fmt16 f

/-- The descriptors and ROP of a collective are in order (R350). -/
def collForm (op rop : Nat) (a b : Desc) : Bool :=
  collFmt a.fmt && collFmt b.fmt && (if op = 2 then rop == 0 else decide (rop ≤ 2))
    && (op != 2 || (a.fmt == b.fmt && (a.fawnPtr == 0) == (b.fawnPtr == 0) && (a.scalePtr == 0) == (b.scalePtr == 0)))
    && (op != 0 || sameShape a b) && (op == 0 || a.n0 == b.n0)

/-- The shapes fit the group (R350): the destination of REDUCE_SCATTER and the source of ALLGATHER have the shape of this rank's
chunk. -/
def Coll.shapeOk (c : Coll) : Bool :=
  match c.op with
  | 1 => c.ddesc.rows == chunkRows c.src c.nranks c.rank
  | 2 => c.sdesc.rows == chunkRows c.dst c.nranks c.rank
  | _ => true

/-! ### Elements of the chain (R351, R353) -/

/-- An element of the chain: its code and fawn, as a pair of the fold format or as the destination holds it, its status, and beside a partial
MAX or MIN its exact value (R351, log entry 38). -/
structure Elt where
  code : Nat := 0
  fawn : Nat := 0
  st : Nat := 0
  x : Option XVal := none
deriving DecidableEq, Repr

/-- An exact value as a message carries it. -/
def exactOf : XVal → Nat × Nat × Int
  | .nan => (4, 0, 0)
  | .inf n => (2 + b2n n, 0, 0)
  | .fin n m e => (b2n n, m, e)

/-- The exact value that a message carries. -/
def ofExact (x : Nat × Nat × Int) : XVal := if x.1 < 2 then .fin (x.1 == 1) x.2.1 x.2.2 else if x.1 < 4 then .inf (x.1 == 3) else .nan

/-- The elements of a part. -/
def partElts (p : CollPart) : List Elt :=
  (List.range p.pairs.length).map fun k =>
    { code := (p.pairs.getD k (0, 0)).1, fawn := (p.pairs.getD k (0, 0)).2, st := p.status.getD k 0, x := (p.exact[k]?).map ofExact }

/-- A part of elements. -/
def partOf (ps : List Elt) (recs : List (Nat × Nat)) (back : Bool) : CollPart :=
  { pairs := ps.map fun x => (x.code, x.fawn), status := ps.map fun x => x.st, recs := recs, back := back,
    exact := ps.filterMap fun x => x.x.map exactOf }

/-- A part of exchange words. -/
def xchgPart (ws : List Nat) (back : Bool) : CollPart := { pairs := [], status := [], recs := [], back := back, words := ws }

/-! ### The fold (R351) -/

/-- The status beside a pair: non-finite by a source or by itself, saturated where this pair has been written as the largest finite
code (R352, R488). -/
def pairStat (nf : Bool) (w : Res) : Nat := if nf then 2 else w.status

/-- One rank's element, with whether its source reads non-finite, into the fold under ROP; `p` is what has arrived, none at rank 0. SUM folds
in pairs; MAX and MIN take the exact values, which no step rounds. -/
def collFold (f : FF) (rop : Nat) (p : Option Elt) (y : XVal) (nf : Bool) : Elt :=
  let bad := nf || y.nonfinite || p.any fun e => e.st == 2
  let pair (w : Res × Int) (st : Nat) (x : Option XVal) : Elt := { code := w.1.code, fawn := ofInt 8 w.2, st := st, x := x }
  if rop = 0 then
    let w := match p with | none => writePair f .rne y | some e => paddValue f e.code (toInt 8 e.fawn) y
    pair w (pairStat bad w.1) none
  else
    let v := match p.bind fun e => e.x with | none => y | some z => if rop = 1 then XVal.max z y else XVal.min z y
    pair (writePair f .rne v) (if bad then 2 else 0) (some v)

/-- The destination element of a finished element of the chain, with the record of its block (R351, R352). -/
def collConv (c : Coll) (rec : Nat) (e : Elt) : Elt :=
  let f := accFF c.acc
  let z := match e.x with
    | some x => foldExact c.dst rec f c.e4inf x
    | none => foldRes c.dst rec f c.e4inf ({ code := e.code, sat := e.st == 1, nonfin := (f.value e.code).nonfinite }, toInt 8 e.fawn)
  { code := z.1.code, fawn := ofInt 8 z.2, st := pairStat (e.st == 2) z.1 }

/-- Do something for each element of a list, with the number of those before it; the first access that fails ends it. -/
def eachElt (f : Nat → Elt → State → Ld × Elt × State) (ps : List Elt) (s : State) : Ld × List Elt × State :=
  let z := ps.foldl
    (fun (a : Ld × List Elt × State) p =>
      if !a.1.isOk then a
      else
        match f a.2.1.length p a.2.2 with
        | (.ok _, y, s1) => (.ok 0, y :: a.2.1, s1)
        | (e, _, s1) => (e, a.2.1, s1))
    (.ok 0, [], s)
  (z.1, z.2.1.reverse, z.2.2)

/-- A rank's own elements folded into those that arrived, from element `e0` of the source on. -/
def State.foldPart (s : State) (r : Reach) (c : Coll) (first : Bool) (e0 : Nat) (ps : List Elt) : Ld × List Elt × State :=
  eachElt (fun k p s =>
    let q := c.src.pos (e0 + k)
    match s.tElem r c.src q.1 q.2 with
    | (.ok v, (y, nf), s1) => (.ok v, collFold (accFF c.acc) c.rop (if first then none else some p) y nf, s1)
    | (e, _, s1) => (e, p, s1)) ps s

/-- The element of a destination block that a finished element gives. -/
def State.convElt (s : State) (r : Reach) (c : Coll) (b : Nat) (x : Elt) : Ld × Elt × State :=
  match s.loadRec r c.dst b with
  | (some w, _, s1) => (.ok 0, collConv c w x, s1)
  | (none, e, s1) => (e, x, s1)

/-- The last rank converts what it has finished (R353): the elements of an ALLREDUCE under the records of its own destination, those of a
REDUCE_SCATTER where they need no record. FP8 elements of a REDUCE_SCATTER are converted where their records are, at the rank of their chunk
(R209, R351; log entry 38). -/
def Coll.endConverts (c : Coll) : Bool := c.op == 0 || (c.op == 1 && !fmtFp8 c.ddesc.fmt)

/-- A record that leaves its block as it is: SCALE of a 16-bit block (R87). -/
def plainRec : Nat := 0x7F00

/-- Convert finished elements at the last rank, from element `e0` on. -/
def State.convPart (s : State) (r : Reach) (c : Coll) (e0 : Nat) (ps : List Elt) : Ld × List Elt × State :=
  if c.op = 1 then (.ok 0, ps.map (collConv c plainRec), s)
  else
    eachElt (fun k p s =>
      let q := c.dst.pos (e0 + k)
      s.convElt r c (c.dst.blk (q.1 / 16) (q.2 / 16)) p) ps s

/-- Write one destination element with its fawn, its status and its map bits (R89, R211, R352). -/
def State.collPut (s : State) (r : Reach) (t : Ten) (i j : Nat) (x : Elt) : Ld × State :=
  let a := s.storeRow r t i j [x.code]
  let a1 := andThen a fun s => if t.d.fawnPtr ≠ 0 then s.storeFawns r t i j [x.fawn] else (.ok 0, s)
  andThen a1 fun s => s.mergeBlock r t (t.blk (i / 16) (j / 16)) x.st (mapPair t.d.fmt [x.code])

/-- Write element `e` of the stream where this rank's destination holds it, converted where the last rank has not converted it (R350, R351).
-/
def State.collElem (s : State) (r : Reach) (c : Coll) (e : Nat) (x : Elt) : Ld × State :=
  let q := c.stream.pos e
  if c.op ≠ 1 then s.collPut r c.dst q.1 q.2 x
  else if c.myRow ≤ q.1 ∧ q.1 < c.myEnd then
    let i := q.1 - c.myRow
    if c.endConverts then s.collPut r c.dst i q.2 x
    else
      match s.convElt r c (c.dst.blk (i / 16) (q.2 / 16)) x with
      | (.ok _, y, s1) => s1.collPut r c.dst i q.2 y
      | (er, _, s1) => (er, s1)
  else (.ok 0, s)

/-- Write the elements of a part, and the records that it brings (R350). -/
def State.writePart (s : State) (r : Reach) (c : Coll) (e0 : Nat) (ps : List Elt) (recs : List (Nat × Nat)) : Ld × State :=
  let a := accessAll ((List.range ps.length).map fun k => (e0 + k, ps.getD k {})) (fun p s => s.collElem r c p.1 p.2) s
  andThen a fun s =>
    if c.op = 2 ∧ c.dst.d.scalePtr ≠ 0 then accessAll recs (fun p s => s.storeRec r c.dst p.1 p.2) s else (.ok 0, s)

/-! ### Chain messages -/

/-- Elements that one COLL_DATA message carries (log entry 38). -/
def collPiece : Nat := 64

/-- Words of an exchange that one COLL_DATA message carries: its 14 data slots hold two each. -/
def collWords : Nat := 28

/-- COLL_DATA for elements of a part from `k` on (R332, R353). -/
def collMsg (src m tag group e0 : Nat) (p : CollPart) (k : Nat) : AfrMsg :=
  let q : CollPart := { p with pairs := (p.pairs.drop k).take collPiece, status := (p.status.drop k).take collPiece,
                               exact := (p.exact.drop k).take collPiece, recs := if k = 0 then p.recs else [] }
  { vc := 2, typ := 0x20, dst := mPkg m, src := src, epoch := mEpoch m, len := 14, tag := tag,
    arg := group * 2 ^ 44 + (3 * (e0 + k)) % 2 ^ 44,
    data := (List.range 14).map fun i => Config.collSlot q i % 2 ^ 128 }

/-- COLL_DATA for words of an exchange from `k` on, in their order (R332, R356; log entry 38). -/
def xchgMsg (src m tag group e0 : Nat) (p : CollPart) (k : Nat) : AfrMsg :=
  { vc := 2, typ := 0x20, dst := mPkg m, src := src, epoch := mEpoch m, len := 14, tag := tag,
    arg := group * 2 ^ 44 + (8 * (e0 + k)) % 2 ^ 44,
    data := (List.range 14).map fun i => Config.collSlot (xchgPart ((p.words.drop k).take collWords) p.back) i % 2 ^ 128 }

/-- The messages that a part takes on the fabric. -/
def partMsgs (src m tag group e0 : Nat) (p : CollPart) : List AfrMsg :=
  (List.range ((p.pairs.length + collPiece - 1) / collPiece)).map (fun k => collMsg src m tag group e0 p (collPiece * k))
    ++ (List.range ((p.words.length + collWords - 1) / collWords)).map fun k => xchgMsg src m tag group e0 p (collWords * k)

/-- A collective sends n bytes of payload on a port: the fabric regulator of its partition is charged one token for each 64 bytes, and the
collective waits for them (R290, R291; log entry 109). -/
def State.collCharge (s : State) (d : Nat) (c : Coll) (n : Nat) : State :=
  let s1 := s.charge c.part 2 ((n + 63) / 64) 1
  s1.modColl d c.group fun x => { x with marks := s1.regMarks (some c.part) }

/-- The length of the stream of a collective: elements, or the words of an exchange. -/
def Coll.size (c : Coll) : Nat := if c.op = 3 then c.words.length else c.stream.size

/-- Bytes of a part between the dies of the package: 3 for an element, 8 for a word (R353, R356). -/
def partBytes (p : CollPart) : Nat := 3 * p.pairs.length + 2 * p.recs.length + 8 * p.words.length

/-- Send a part to the rank that a member record names (R349, R353): to the other die of the package over their link (R28). -/
def State.collSend (s : State) (d : Nat) (c : Coll) (m e0 : Nat) (p : CollPart) : State :=
  if mEth m then
    let w := Config.ethPayload c.group e0 p
    (s.collCharge d c w.length).ethSend d (mQpn m) w
  else if mPkg m = s.pkgId then
    if !s.linked d (mDie m) then (s.linkRefusal d (mDie m)).collFail d c.group 6
    else
      { s.carry d (mDie m) e0 (partBytes p) with
        collIn := s.collIn ++ [{ die := mDie m, group := c.group, at0 := e0, part := p, of := some (c.op, c.rop, c.size) }] }
  else
    match s.route d (mPkg m) with
    | none => s.collFail d c.group 2
    | some _ =>
      let l := partMsgs s.pkgId m c.tag c.group e0 p
      l.foldl (fun s w => (s.sendTo d w).2) (s.collCharge d c (16 * sumList (l.map fun w => w.data.length)))

/-- Results leave this rank: written here, counted, and sent on to the rank before (R353). -/
def State.collFinish (s : State) (d : Nat) (c : Coll) (e0 : Nat) (ps : List Elt) (recs : List (Nat × Nat)) : State :=
  match s.writePart (Reach.coll c.part d) c e0 ps recs with
  | (.ok _, s1) =>
    let s2 := s1.modColl d c.group fun x =>
      { x with fin := x.fin + ps.length, done := c.stream.size ≤ x.fin + ps.length, waited := 0 }
    s2.when (c.rank != 0) fun s => s.collSend d c c.prev e0 (partOf ps recs true)
  | (e, s1) => s1.collFail d c.group (ldStatus e)

/-- Elements go on along the chain, or are finished at its last rank (R353). -/
def State.collOn (s : State) (d : Nat) (c : Coll) (e0 : Nat) (ps : List Elt) (recs : List (Nat × Nat)) : State :=
  if c.rank + 1 < c.nranks then
    (s.modColl d c.group fun x => { x with waited := 0 }).collSend d c c.next e0 (partOf ps recs false)
  else if c.endConverts then
    match s.convPart (Reach.coll c.part d) c e0 ps with
    | (.ok _, qs, s1) => s1.collFinish d c e0 qs recs
    | (e, _, s1) => s1.collFail d c.group (ldStatus e)
  else s.collFinish d c e0 ps recs

/-! ### The words of a commit exchange (R356) -/

/-- A word of the exchange is reduced by signed maximum: I, and MAXEXP after the 32 bins of each slot. -/
def xchgMax (i : Nat) : Bool := i == 2 || (decide (3 ≤ i) && (i - 3) % 33 == 32)
/-- The reduction of word i: a signed maximum, or an exact sum. -/
def xchgFold (i a b : Nat) : Nat := if xchgMax i then ofInt 64 (max (toInt 64 a) (toInt 64 b)) else (a + b) % 2 ^ 64

/-- Words of the result leave this rank: kept here, and sent on to the rank before. -/
def State.xchgHave (s : State) (d : Nat) (c : Coll) (e0 : Nat) (ws : List Nat) : State :=
  let s1 := s.modColl d c.group fun x =>
    { x with words := x.words.take e0 ++ ws ++ x.words.drop (e0 + ws.length), fin := x.fin + ws.length,
             done := decide (c.words.length ≤ x.fin + ws.length), waited := 0 }
  s1.when (c.rank != 0) fun s => s.collSend d c c.prev e0 (xchgPart ws true)

/-- Words folded as far as this rank go on along the chain, or are the result at its last rank. -/
def State.xchgOn (s : State) (d : Nat) (c : Coll) (e0 : Nat) (ws : List Nat) : State :=
  if c.rank + 1 < c.nranks then
    (s.modColl d c.group fun x => { x with waited := 0 }).collSend d c c.next e0 (xchgPart ws false)
  else s.xchgHave d c e0 ws

/-- Words of an exchange that have arrived. -/
def State.xchgTake (s : State) (d : Nat) (c : Coll) (m : CollMsg) : State :=
  let ws := m.part.words
  if m.part.back then s.xchgHave d c m.at0 ws
  else
    s.xchgOn d c m.at0
      ((List.range ws.length).map fun i => xchgFold (m.at0 + i) (ws.getD i 0) (c.words.getD (m.at0 + i) 0))

/-- A part is not of this collective (R354): the other die's is another operation, ROP or shape; it passes the end of the stream; or it does
not carry what the operation and ROP carry: words only an exchange, records only an ALLGATHER, exact values only what MAX and MIN have yet to
convert. -/
def Coll.mismatch (c : Coll) (m : CollMsg) : Bool :=
  let p := m.part
  let bare := c.op == 2 || c.rop == 0 || (p.back && c.endConverts)
  (m.of.any fun x => x != (c.op, c.rop, c.size)) || decide (c.size < m.at0 + p.pairs.length + p.words.length)
    || (c.op == 3 && !p.pairs.isEmpty) || (c.op == 3) == p.words.isEmpty || (c.op != 2 && !p.recs.isEmpty)
    || p.exact.length != (if bare then 0 else p.pairs.length)

/-- A part that has arrived (R353); what is not of this collective fails it with FORMAT (R354). -/
def State.collTake (s : State) (d : Nat) (c : Coll) (m : CollMsg) : State :=
  let ps := partElts m.part
  if c.mismatch m then s.collFail d c.group 3
  else if c.op = 3 then s.xchgTake d c m
  else if m.part.back then s.collFinish d c m.at0 ps m.part.recs
  else if c.op = 2 then s.collOn d c m.at0 ps m.part.recs
  else
    match s.foldPart (Reach.coll c.part d) c false m.at0 ps with
    | (.ok _, qs, s1) => s1.collOn d c m.at0 qs []
    | (e, _, s1) => s1.collFail d c.group (ldStatus e)

/-- The codes and fawns of a source, with its records by destination block, that a rank contributes to an ALLGATHER. -/
def State.gatherPart (s : State) (r : Reach) (c : Coll) : Ld × List Elt × List (Nat × Nat) × State :=
  let t := c.src
  let z := eachElt (fun k x s =>
    let q := t.pos k
    match s.loadRow r t q.1 q.2 1 with
    | (none, er, s1) => (er, x, s1)
    | (some cs, _, s1) =>
      if t.d.fawnPtr = 0 then (.ok 0, { code := cs.getD 0 0 }, s1)
      else
        match s1.loadFawns r t q.1 q.2 1 with
        | (some fs, _, s2) => (.ok 0, { code := cs.getD 0 0, fawn := fs.getD 0 0 }, s2)
        | (none, er, s2) => (er, x, s2)) (List.replicate t.size {}) s
  let n := if t.d.scalePtr = 0 then 0 else t.blkRows * t.blkCols
  let y := (List.range n).foldl
    (fun (a : Ld × List (Nat × Nat) × State) b =>
      if !a.1.isOk then a
      else
        match a.2.2.loadRec r t b with
        | (some w, _, s1) => (.ok 0, (b + c.dst.blk (chunkRow c.dst c.nranks c.rank) 0, w) :: a.2.1, s1)
        | (none, er, s1) => (er, a.2.1, s1))
    (z.1, [], z.2.2)
  (y.1, z.2.1, y.2.1.reverse, y.2.2)

/-- A collective starts at this rank: rank 0 sends its elements of a reduction, and every rank its chunk of a gather (R353). -/
def State.collStart (s : State) (d : Nat) (c : Coll) : State :=
  let r := Reach.coll c.part d
  let s1 := s.modColl d c.group fun x => { x with started := true }
  if c.op = 3 then (if c.rank = 0 then s1.xchgOn d c 0 c.words else s1)
  else if c.op = 2 then
    match s1.gatherPart r c with
    | (.ok _, ps, recs, s2) => s2.collOn d c (c.myRow * c.dst.d.n0) ps recs
    | (e, _, _, s2) => s2.collFail d c.group (ldStatus e)
  else if c.rank = 0 then
    match s1.foldPart r c true 0 (List.replicate c.src.size {}) with
    | (.ok _, ps, s2) => s2.collOn d c 0 ps []
    | (e, _, s2) => s2.collFail d c.group (ldStatus e)
  else s1

/-! ### The engine (R354) -/

/-- The collective of a group that runs at a die. -/
def State.collRuns (s : State) (d g : Nat) : Option Coll :=
  if (collActive (Map.get [] s.colls d)).contains g then
    match s.collHead d g with
    | some c => if c.over || !c.ready then none else some c
    | none => none
  else none

/-- Reserved bits of a group entry are 0 (R349). -/
def entryClear (e : List Nat) : Bool :=
  bits (e.getD 0 0) 48 10 == 0 && bits (e.getD 1 0) 56 8 == 0 && bits (e.getD 1 0) 0 3 == 0
    && (e.drop 3).all fun w => w == 0

/-- The addresses of the 1 MiB ranges that a span of bytes touches. -/
def spanRanges (a n : Nat) : List Nat := a :: (List.range ((a + n - 1) / 2 ^ 20 - a / 2 ^ 20)).map fun i => (a / 2 ^ 20 + 1 + i) * 2 ^ 20

/-- Some of the spans have an address decode error for an agent (R36, R199). -/
def State.spansBad (s : State) (r : Reach) (write : Bool) (l : List (Nat × Nat)) : Bool :=
  l.any fun p => (spanRanges p.1 p.2).any fun a => s.xlate r write a == .bad

/-- The member records of the neighbours of a rank; none where one cannot be read. -/
def State.readNear (s : State) (d : Nat) (e : List Nat) (r n : Nat) : Option (Nat × Nat) × State :=
  let rd (s : State) (i : Nat) : Option (List Nat) × State := s.loadWords (Reach.engine d) (bits (e.getD 1 0) 3 53 * 8 + 8 * i) 1
  let a := if r = 0 then (some [0], s) else rd s (r - 1)
  let b := if r + 1 < n then rd a.2 (r + 1) else (some [0], a.2)
  (match a.1, b.1 with | some x, some y => some (x.getD 0 0, y.getD 0 0) | _, _ => none, b.2)

/-- The collective with the fields of its group's entry, and the status of its checks: FORMAT for the instruction, RANGE for a group that is
not valid or whose members' records, all of them, are not within reach, FORMAT for a group that does not fit (R349, R355). -/
def State.collCheck (s : State) (d : Nat) (c : Coll) (entry : Option (List Nat)) : Coll × State :=
  let bad (n : Nat) : Coll × State := ({ c with status := n }, s)
  if c.op != 3 && !collForm c.op c.rop c.sdesc c.ddesc then bad 3
  else
    match entry with
    | none => bad 2
    | some e =>
      let w := e.getD 0 0
      let r := bits w 16 16
      let n := bits w 32 16 + 1
      let c1 : Coll := { c with acc := bits w 58 2, rank := r, nranks := n }
      if !bit w 63 then bad 2
      else if bits w 60 3 ≠ c.part || 2 ≤ bits w 58 2 || !entryClear e || !c1.shapeOk then bad 3
      else if n ≤ r || s.spansBad (Reach.engine d) false [(bits (e.getD 1 0) 3 53 * 8, 8 * n)] then bad 2
      else
        match s.readNear d e r n with
        | (some x, s1) => ({ c1 with prev := x.1, next := x.2 }, s1)
        | (none, s1) => ({ c with status := 2 }, s1)

/-- The address of a group's entry (R349). -/
def State.groupAddr (s : State) (d g : Nat) : Nat := s.fget (R.AFR_COLL_BASE d) F.AFR_COLL_BASE_ADDR * 64 + 64 * g

/-- An accepted collective is counted in SEQ of its group, and its checks are made (R349, R355). -/
def State.collReady (s : State) (d : Nat) (c : Coll) : State :=
  let z := s.loadWords (Reach.engine d) (s.groupAddr d c.group) 8
  let s1 := match z.1 with
    | some e =>
      if bit (e.getD 0 0) 63 then
        z.2.storeWords (Reach.engine d) (s.groupAddr d c.group + 16) [setBits (e.getD 2 0) 0 56 (bits (e.getD 2 0) 0 56 + 1)]
      else z.2
    | none => z.2
  let y := s1.collCheck d c z.1
  let l := Map.get [] y.2.colls d
  let l1 := match l.findIdx? fun x => !x.ready with | some i => setAt l i { y.1 with ready := true } | none => l
  { y.2 with colls := Map.put [] y.2.colls d l1 }

/-- The engine of a die works for a group: die compute is not fenced, and no line that it has asked for and no token is outstanding (R47,
R291, R343). -/
def State.collFree (s : State) (d g : Nat) : Bool :=
  !s.fenced 3 d && !s.unitReads (collUnit d g) && s.workFree (collUnit d g)

/-- What the engines do next, as a die, a group and its work: make ready what has been accepted, start what may start, or take what has
arrived for a collective that has started. -/
def State.collNext (s : State) : Option (Nat × Nat × (State → State)) :=
  let q (d : Nat) : List Coll := Map.get [] s.colls d
  let ready (d : Nat) : Option (Nat × Nat × (State → State)) :=
    ((q d).find? fun c => !c.ready).bind fun c => if s.collFree d c.group then some (d, c.group, fun s => s.collReady d c) else none
  let start (d : Nat) : Option (Nat × Nat × (State → State)) :=
    (((collActive (q d)).filterMap (s.collRuns d)).find? fun c => !c.started && s.collFree d c.group).map fun c =>
      (d, c.group, fun s => s.collStart d c)
  let take : Option (Nat × Nat × (State → State)) :=
    s.collIn.findSome? fun m => ((s.collRuns m.die m.group).filter fun c => c.started && s.collFree m.die m.group).map fun c =>
      (m.die, m.group, fun s => { s with collIn := s.collIn.erase m }.collTake m.die c m)
  (ready 0).or ((ready 1).or ((start 0).or ((start 1).or take)))

/-- The engines do what they can, at most `n` pieces of work (R354; log entry 111). -/
def State.collWork : Nat → State → State
  | 0, s => s
  | n + 1, s =>
    match s.collNext with
    | some (d, g, f) => State.collWork n (s.work (collUnit d g) f)
    | none => s

/-- Enough rounds for all that waits: each collective is made ready and starts once, and each part moves at most twice within the package. -/
def State.collGo (s : State) : State :=
  State.collWork (6 * (s.collIn.length + sumList (s.colls.map fun e => e.2.length)) + 6) s

/-! ### Acceptance (R349, R354) -/

/-- Entries of a die's collective queue. -/
def collQueue : Nat := 256
/-- Accepted collectives of a partition at a die that have not ended. -/
def collShare : Nat := 32

/-- The engine of a die takes a COL of a partition now (R47, R354, R402). -/
def State.collRoom (s : State) (d p : Nat) : Bool :=
  let l := Map.get [] s.colls d
  s.fbit (R.AFR_CTL d) F.AFR_CTL_COLL_EN && !s.fenced 3 d && decide (l.length < collQueue)
    && decide ((l.filter fun c => c.part == p).length < collShare)

/-- The engine of a die accepts a collective, and goes on. -/
def State.collEnter (s : State) (d : Nat) (c : Coll) : State :=
  { s with colls := Map.put [] s.colls d (Map.get [] s.colls d ++ [c]) }.collGo

/-- The slots of the source and destination: the current slot of a versioned source and the next of a versioned destination
(R241, R242). -/
def colSlots (img : SegImg) (o : ColOps) : Option (Nat × Nat) :=
  match img.descs[o.sslot]?, img.descs[o.dslot]? with
  | some a, some b =>
    let sl := if a.versioned && !a.frozen then img.cur.getD o.sslot none else some 0
    let dl := if b.versioned && !b.frozen then (img.cur.getD o.dslot none).map fun k => 1 - k else some 0
    match sl, dl with
    | some x, some y => some (x, y)
    | _, _ => none
  | _, _ => none

/-- A COL reaches the engine of its die and is accepted (R182, R354). -/
def State.collAccept (s : State) (t op : Nat) (o : ColOps) (r : Run) (sl : Nat × Nat) : State :=
  let d := t / 96
  let p := (s.partOfTile t).getD 0
  let c : Coll := { op := op, rop := o.rop, group := o.group, sem := s.semKey p o.sem, part := p, ctx := r.ctx, tile := t,
                    sdesc := (r.img.descs[o.sslot]?).getD {}, ddesc := (r.img.descs[o.dslot]?).getD {}, sslot := sl.1,
                    dslot := sl.2, tag := s.freeTag.getD 0, e4inf := (s.numCtx t r).e4inf }
  s.collEnter d c

/-- The spans of a tensor slot, as address and bytes: the rows of its elements and of its fawns, its records and its write map. -/
def Ten.spans (t : Ten) : List (Nat × Nat) :=
  let rows := List.range t.d.rows
  (rows.map fun i => (t.rowAddr i, (t.d.n0 * fmtBits t.d.fmt + 7) / 8))
    ++ (if t.d.fawnPtr = 0 then [] else rows.map fun i => (t.fawnAddr i 0, t.d.n0))
    ++ (if t.d.scalePtr = 0 then [] else [(t.recAddr 0, 2 * t.blkRows * t.blkCols)])
    ++ (if t.d.scalePtr ≠ 0 && fmtFp8 t.d.fmt then [(t.mapAddr 0, t.d.mapBytes)] else [])

/-- A tensor slot has an address decode error for an agent, at what a collective accesses of it (R36, R199). -/
def State.tenBad (s : State) (r : Reach) (write : Bool) (t : Ten) : Bool := s.spansBad r write t.spans

/-- The source or the destination of a COL has an address decode error for the engine of the die. -/
def State.colBad (s : State) (t : Nat) (o : ColOps) (r : Run) (sl : Nat × Nat) : Bool :=
  let rc := Reach.coll ((s.partOfTile t).getD 0) (t / 96)
  s.tenBad rc false ((r.img.descs.getD o.sslot {}).ten sl.1) || s.tenBad rc true ((r.img.descs.getD o.dslot {}).ten sl.2)

/-- A COL outside an UPD task whose destination is the next slot of a pinned generation stalls its store path, as a store there does: no
pinned version is overwritten (R245, R246). -/
def State.colPinned (s : State) (t : Nat) (o : ColOps) : Bool :=
  match (s.tile t).run, s.ctxOfHerd (t / 12) with
  | some r, some (_, x) =>
    !r.img.upd && x.pins (1 - r.img.gen) != 0
      && ((r.img.descs[o.dslot]?).any fun d => d.versioned && !d.frozen) && (r.img.cur.getD o.dslot none).isSome
  | _, _ => false

/-- A COL instruction of operation `op` (R182, R354): it stalls its store path while the engine takes none. An address decode error of
its tensors that is there when it issues is a fault of the segment (R199); one that the engine meets later ends the collective with
RANGE (R36, R355; log entry 98). -/
def State.colIssue (s : State) (t idx op : Nat) (o : ColOps) : State :=
  if !s.collRoom (t / 96) ((s.partOfTile t).getD 0) || s.colPinned t o then s
  else
    s.issue t idx (.col op o) fun r s =>
      match colSlots r.img o with
      | none => s.segFault t r idx 3 3 0
      | some sl =>
        if s.colBad t o r sl then s.decodeErr.segFault t r idx 3 3 0
        else (s.collAccept t op o r sl).launched t idx (.col op o) 0

/-- ALLREDUCE (R182, R350). -/
def execAllreduce (t idx : Nat) (ops : ColOps) (s : State) : Host.Outcome State Fault Refusal :=
  s.runIf (instrWf (.allreduce t idx ops)) (s.colIssue t idx 0 ops)

/-- REDUCE_SCATTER (R182, R350). -/
def execReduceScatter (t idx : Nat) (ops : ColOps) (s : State) : Host.Outcome State Fault Refusal :=
  s.runIf (instrWf (.reduceScatter t idx ops)) (s.colIssue t idx 1 ops)

/-- ALLGATHER (R182, R350). -/
def execAllgather (t idx : Nat) (ops : ColOps) (s : State) : Host.Outcome State Fault Refusal :=
  s.runIf (instrWf (.allgather t idx ops)) (s.colIssue t idx 2 ops)

/-! ### Messages and ends -/

/-- The die for which a chain message is: the one whose neighbour in the group is the sender, else that of the port. -/
def State.collDie (s : State) (g : Nat) (m : AfrMsg) : Nat :=
  let grp := bits m.arg 44 12
  let has (d : Nat) : Bool := (s.neighbours d grp).any fun x => mPkg x == m.src && !mEth x
  let d := g / 18
  if has d then d else if has (1 - d) then 1 - d else d

/-- A chain message for the engine of a die is taken from its port; one for a group that is not defined there is answered with RANGE (R345,
R353). -/
def State.collDataIn (s : State) (d port : Nat) (msg : AfrMsg) (part : CollPart) : State :=
  let g := bits msg.arg 44 12
  s.receive port msg 0x20 fun s =>
    if !s.roleOk msg then s.staleDrop port msg
    else
      match s.loadWords (Reach.engine d) (s.groupAddr d g) 8 with
      | (some e, s1) =>
        if bit (e.getD 0 0) 63 then
          let m : CollMsg := { die := d, group := g, at0 := bits msg.arg 0 44 / (if part.words = [] then 3 else 8),
                               part := part }
          { s1.carry (port / 18) d m.at0 (partBytes part) with collIn := s1.collIn ++ [m] }
        else s1.collNack (port / 18) msg 2
      | (none, s1) => s1.collNack (port / 18) msg 2

/-- COLL_DATA (R345, R353). -/
def execCollData (port : Nat) (msg : AfrMsg) (part : CollPart) (s : State) : Host.Outcome State Fault Refusal :=
  s.runIf (instrWf (.collData port msg part))
    (s.work (portUnit port) fun t => t.collDataIn (s.collDie port msg) port msg part).collGo

/-- COLL_NACK (R345, R355). -/
def execCollNack (port : Nat) (msg : AfrMsg) (s : State) : Host.Outcome State Fault Refusal :=
  s.runIf (instrWf (.collNack port msg)) (
    s.receive port msg 0x21 fun s =>
      if !s.roleOk msg then s.staleDrop port msg
      else s.collFail (s.collDie port msg) (bits msg.arg 44 12) (msg.arg % 256))

/-- COLL_TIMEOUT (R355): COLL_TICKS boundaries without COLL_DATA while waiting. -/
def execCollTimeout (d g : Nat) (s : State) : Host.Outcome State Fault Refusal :=
  s.runIf (instrWf (.collTimeout d g)) (
    match s.collRuns d g with
    | some c => if s.fget (R.AFR_CTL d) F.AFR_CTL_COLL_TICKS ≤ c.waited then s.collFail d g 6 else s
    | none => s)

/-- Blocks of a destination, and those whose records read non-finite (R352). -/
def State.collBlocks (s : State) (d : Nat) (c : Coll) : Nat × Nat × State :=
  let n := c.dst.blkRows * c.dst.blkCols
  let z := (List.range n).foldl
    (fun (a : Nat × State) b =>
      match a.2.loadRec (Reach.coll c.part d) c.dst b with
      | (some w, _, s1) => (a.1 + b2n (recStatus w == 2), s1)
      | (none, _, s1) => (a.1, s1)) (0, s)
  (n, z.1, z.2)

/-- What a collective that has written adds to BLOCKS and NF of its context's step (R218, R352). -/
def State.collCount (s : State) (d : Nat) (c : Coll) : State :=
  if c.status ≠ 0 || decide (2 ≤ c.op) then s
  else
    match s.ctxs.find? c.ctx with
    | some x =>
      match x.slot with
      | some k =>
        let z := s.collBlocks d c
        z.2.2.modSlot x.part k fun y =>
          { y with step := { y.step with blocks := y.step.blocks + z.1, nf := y.step.nf + z.2.1 } }
      | none => s
    | none => s

/-- Remove the first collective of a group from a queue. -/
def dropFirst (g : Nat) : List Coll → List Coll
  | [] => []
  | c :: l => if c.group = g then l else c :: dropFirst g l

/-- The status of a collective that has ended is recorded, in its group entry and AFR_STAT, and its semaphore is signalled (R349,
R355). -/
def State.collRecord (s : State) (d : Nat) (c : Coll) : State :=
  let s1 :=
    match s.loadWords (Reach.engine d) (s.groupAddr d c.group) 8 with
    | (some e, s1) =>
      if bit (e.getD 0 0) 63 then
        s1.storeWords (Reach.engine d) (s.groupAddr d c.group + 16) [setBits (e.getD 2 0) 56 8 c.status]
      else s1
    | (none, s1) => s1
  let s2 := s1.fset (R.AFR_STAT d) F.AFR_STAT_LAST_STATUS c.status
  let s3 := s2.when (c.status != 0) fun s => s.fadd (R.AFR_STAT d) F.AFR_STAT_COLL_FAILED 1
  if c.op = 3 then s3
  else s3.setPart c.part { s3.part c.part with sigs := (s3.part c.part).sigs ++ [{ sem := c.sem, n := 1, origin := .coll }] }

/-- The result of an exchange of these words: a row for each gradient-format slot that they are of, ascending (R356). -/
def xchgRes (status : Nat) (pg ws : List Nat) : XchgRes :=
  { status := status, nf := ws.getD 0 0, blocks := ws.getD 1 0, imax := ws.getD 2 0,
    slots := pg.mapIdx fun i n =>
      (n, (List.range 32).map (fun b => ws.getD (3 + 33 * i + b) 0), toInt 64 (ws.getD (3 + 33 * i + 32) 0)) }

/-- A commit exchange has ended: its step learns what it has come to, unless an abort has ended it (R356). -/
def State.xchgEnd (s : State) (c : Coll) : State :=
  match s.ctxs.find? c.ctx with
  | some x =>
    match x.slot with
    | some k =>
      s.modSlot x.part k fun y =>
        if c.status = 7 ∨ y.step.issued.isNone then y
        else { y with step := { y.step with xres := some (xchgRes c.status c.pg c.words) } }
    | none => s
  | none => s

/-- The consequence of a collective's status (R252, R355, R356, R421). -/
def State.collOutcome (s : State) (c : Coll) : State :=
  if c.op = 3 then s.xchgEnd c
  else if c.status = 3 ∨ c.status = 2 then s.segTask (c.tile / 12) c.status
  else if c.status = 5 ∨ c.status = 6 then
    match s.ctxs.find? c.ctx with
    | some x =>
      match x.slot with
      | some k => s.abortAndStot x.part k { regroup := if c.status = 5 then 2 else 3 }
      | none => s
    | none => s
  else s

/-- A collective leaves the engine: its blocks are counted, and its status is recorded. -/
def State.collLeaves (s : State) (d : Nat) (c : Coll) : State :=
  let s1 := (s.collCount d c).collRecord d c
  { s1 with colls := Map.put [] s1.colls d (dropFirst c.group (Map.get [] s1.colls d)) }

/-- COLLECTIVE_END (R355): once its tokens have come and its remote writes are acknowledged; the engine goes on with one that has not ended
(R291, R343). -/
def execCollectiveEnd (d g : Nat) (s : State) : Host.Outcome State Fault Refusal :=
  s.runIf (instrWf (.collectiveEnd d g)) (
    match s.collHead d g with
    | some c =>
      let u := collUnit d g
      let f (s : State) : State := s.collLeaves d c
      if !c.over || !s.regPast c.marks || s.unitAsks u then s.collGo
      else if s.workGoes u (fun _ => true) f then ((s.work u f).collOutcome c).collGo
      else s.work u f
    | none => s)

end Sys2Proof.Machine
end

