-- ==== Sys2Proof/Machine/Contexts.lean ====
section
/-!
DEFINITION. Contexts.lean: the commands of the command ring that concern contexts and partitions, and the switches between contexts
(R387 to R405).
-/

namespace Sys2Proof.Machine

/-! ### The command ring -/

/-- The effect of a write of SCH_CMD_PTR.TAIL (R394): ignored and reported while a command executes, or beyond the ring. -/
def tailEffect (a : Agent) (p v : Nat) (s : State) : State :=
  if (s.part p).exec.isSome || decide (s.ringSize p ≤ v) then s.badWrite a (R.SCH_CMD_PTR p)
  else
    let s1 := s.fset (R.SCH_CMD_PTR p) F.SCH_CMD_PTR_TAIL v
    State.refuseUnknown p (s1.ringLoad p) s1

/-- CMD_TAIL_WRITE (R394). -/
def execCmdTailWrite (a : Agent) (p value : Nat) (s : State) : Host.Outcome State Fault Refusal :=
  s.runIf (instrWf (.cmdTailWrite a p value))
    (s.writeReg a .sch p (R.SCH_CMD_PTR p) (tailEffect a p (bits value 32 16)))

/-- CMD_NOP (R396): also out of service (R418). -/
def execCmdNop (p : Nat) (rec : CmdRec) (s : State) : Host.Outcome State Fault Refusal :=
  s.runIf (instrWf (.cmdNop p rec)) (
    if !s.ringReady p then s
    else if wordsOk rec [] then s.complete p 0x00 rec 0 0
    else (s.countRefusal p 0x00 3).complete p 0x00 rec 3 0)

/-! ### JOB_START, JOB_END, RUN -/

/-- The context that JOB_START describes (R396). -/
def jobSlot (r : CmdRec) (seed : Nat) : Slot :=
  { newSlot r.ctx (bits r.w1 20 36 * 2 ^ 20) with
    job := bits r.w2 48 16, slice := bits r.w2 36 12, saveTm := bit r.w2 34, nextStep := bits r.w3 0 48, seed := seed,
    entry := bits r.w6 2 54 * 4 }.fset R.SCH_VER F.SCH_VER_GEN (bits r.w3 48 1)

/-- What the registers of a record say of a context beside their values: the last step released, by STEP1 (R238, R257), and the hold of
R220, by the run of skips. -/
def Slot.resumed (x : Slot) : Slot :=
  let step1 := x.fget R.SCH_PIPE_TAG F.SCH_PIPE_TAG_STEP1
  let run := x.fget R.SCH_NUM_STAT F.SCH_NUM_STAT_SKIP_RUN
  { x with released := if step1 = 0 then none else some (step1 - 1),
           skipHeld := decide (0 < run ∧ x.fget R.SCH_NUM_CTL F.SCH_NUM_CTL_SKIP_LIMIT ≤ run) }

/-- The context that JOB_START starts, with the status of reading its record. -/
def State.jobRead (s : State) (r : CmdRec) : (Nat × Slot) × State :=
  let save := bits r.w1 20 36 * 2 ^ 20
  if bit r.w2 33 then
    match s.readRecord save (newSlot r.ctx save) with
    | ((0, x), s1) => ((0, { x.resumed with window := s1.readWindow save }), s1)
    | e => e
  else if bit r.w2 35 then ((0, jobSlot r (r.w4 + 2 ^ 64 * r.w5)), s)
  else ((0, jobSlot r (s.draw.1 % 2 ^ 128)), s.draw.2)

/-- JOB_START makes a context known: it takes the lowest free slot, or it is swapped out and ready, with its record written. -/
def State.jobBegin (s : State) (p : Nat) (r : CmdRec) : State :=
  match s.jobRead r with
  | ((0, x), s1) =>
    match s1.freeSlot p with
    | some k => (s1.takeSlot p k x).complete p 0x01 r 0 k
    | none =>
      let s2 := if bit r.w2 33 then s1 else s1.writeRecord p x 0
      (s2.setCtx r.ctx { part := p, ready := true, readySince := s.tick, job := x.job, slice := x.slice, saveTm := x.saveTm,
                         save := x.save, kept := some x }).complete p 0x01 r 0 0xFF
  | ((st, _), _) => (s.countRefusal p 0x01 st).complete p 0x01 r st 0

/-- JOB_START (R396). -/
def execJobStart (p : Nat) (rec : CmdRec) (s : State) : Host.Outcome State Fault Refusal :=
  s.runIf (instrWf (.jobStart p rec)) (s.command p 0x01 rec
    { fmt := wordsOk rec [mask 20 55, mask 33 63, mask 0 48, mask 0 63, mask 0 63, mask 2 55],
      range := decide (bits rec.w1 20 36 * 2 ^ 20 < 2 ^ 42)
        && (match s.ctxs.find? rec.ctx with | some c => c.part == p | none => true),
      state := (s.ctxs.find? rec.ctx).isNone && s.herdsOf p != 0 }
    fun s => s.jobBegin p rec)

/-- The step of a context is in flight. -/
def State.inFlight (s : State) (p ctx : Nat) : Bool := match s.resident p ctx with | some e => e.2.step.live | none => false
/-- A context holds a lock. -/
def State.locked (s : State) (p ctx : Nat) : Bool := (s.lockOf p ctx).isSome

/-- JOB_END forgets a context (R396, R435). -/
def State.jobForget (s : State) (p ctx : Nat) : State :=
  let s1 :=
    match s.resident p ctx with
    | some (k, x) =>
      let a := if x.snapBusy then s.snapFail p k 7 else s
      let b := a.emptySlot p k
      if (b.part p).run = some k then b.setPart p { b.part p with run := none } else b
    | none => s
  { s1 with ctxs := s1.ctxs.erase ctx, groups := s1.groups.map fun (e : Nat × List Nat) => (e.1, e.2.erase ctx) }

/-- JOB_END (R396). -/
def execJobEnd (p : Nat) (rec : CmdRec) (s : State) : Host.Outcome State Fault Refusal :=
  s.runIf (instrWf (.jobEnd p rec)) (s.commandOk p 0x02 rec
    { s.ctxChk p rec with fmt := wordsOk rec [],
                          state := (s.ctxChk p rec).state && !s.inFlight p rec.ctx && !s.locked p rec.ctx && (s.part p).sw.isNone }
    fun s => (s.jobForget p rec.ctx, 0))

/-- RUN changes STEPS_LEFT (R396). -/
def State.runMore (s : State) (p ctx count : Nat) : State :=
  match s.resident p ctx with
  | some (k, x) => s.setSlot p k { x with stepsLeft := runSteps count x.stepsLeft }
  | none => s.recordSteps ctx (runSteps count)

/-- RUN (R396). -/
def execRun (p : Nat) (rec : CmdRec) (s : State) : Host.Outcome State Fault Refusal :=
  s.runIf (instrWf (.run p rec)) (s.commandOk p 0x03 rec { s.ctxChk p rec with fmt := wordsOk rec [mask 0 31] }
    fun s => (s.runMore p rec.ctx (bits rec.w1 0 32), 0))

/-! ### SWAP_IN, SWAP_OUT, READY, ABORT -/

/-- SWAP_IN (R392, R396). -/
def execSwapIn (p : Nat) (rec : CmdRec) (s : State) : Host.Outcome State Fault Refusal :=
  s.runIf (instrWf (.swapIn p rec)) (s.command p 0x04 rec
    { s.ctxChk p rec with fmt := wordsOk rec [],
                          state := (s.ctxChk p rec).state && (s.resident p rec.ctx).isNone && (s.freeSlot p).isSome }
    fun s =>
      match s.enterSlot p ((s.freeSlot p).getD 0) rec.ctx with
      | (0, s1) => s1.complete p 0x04 rec 0 0
      | (st, _) => (s.countRefusal p 0x04 st).complete p 0x04 rec st 0)

/-- A slot runs or is being switched. -/
def State.busySlot (s : State) (p k : Nat) : Bool :=
  (s.part p).run == some k || (match (s.part p).sw with | some w => w.src == some k || w.dst == some k | none => false)

/-- SWAP_OUT (R396). -/
def execSwapOut (p : Nat) (rec : CmdRec) (s : State) : Host.Outcome State Fault Refusal :=
  s.runIf (instrWf (.swapOut p rec)) (s.commandOk p 0x05 rec
    { s.ctxChk p rec with
      fmt := wordsOk rec [],
      state := (s.ctxChk p rec).state && (match s.resident p rec.ctx with
        | some e => !e.2.step.live && !s.locked p rec.ctx && !s.busySlot p e.1
        | none => false) }
    fun s => (match s.resident p rec.ctx with | some e => s.leaveSlot p e.1 e.2 | none => s, 0))

/-- Mark a swapped context ready or waiting. -/
def State.markReady (s : State) (c : Nat) (on : Bool) : State :=
  let x := s.ctx c
  s.setCtx c { x with ready := on, readySince := if on && !x.ready then s.tick else x.readySince }

/-- READY (R396). -/
def execReady (p : Nat) (rec : CmdRec) (s : State) : Host.Outcome State Fault Refusal :=
  s.runIf (instrWf (.ready p rec)) (s.commandOk p 0x06 rec
    { s.ctxChk p rec with fmt := wordsOk rec [mask 0 0], state := (s.ctxChk p rec).state && (s.resident p rec.ctx).isNone }
    fun s => (s.markReady rec.ctx (bit rec.w1 0), 0))

/-- ABORT (R347, R396). -/
def execAbort (p : Nat) (rec : CmdRec) (s : State) : Host.Outcome State Fault Refusal :=
  s.runIf (instrWf (.abort p rec)) (s.commandOk p 0x07 rec
    { s.ctxChk p rec with fmt := wordsOk rec [], state := (s.ctxChk p rec).state && s.inFlight p rec.ctx }
    fun s => (match s.resident p rec.ctx with | some e => s.abortAndStot p e.1 {} | none => s, 0))

/-! ### PART_SET and GROUP_SET -/

/-- Another partition has a named herd, now or from the next boundary on (R387). -/
def State.herdTaken (s : State) (p herds : Nat) : Bool :=
  (List.range 8).any fun q => q != p && (s.herdsOf q ||| ((s.part q).partSet.getD 0)) &&& herds != 0

/-- PART_SET (R388): the new value waits for the next boundary. -/
def execPartSet (p : Nat) (rec : CmdRec) (s : State) : Host.Outcome State Fault Refusal :=
  s.runIf (instrWf (.partSet p rec)) (s.commandOk p 0x10 rec
    { fmt := wordsOk rec [mask 0 15] && rec.ctx == 0,
      state := !(s.ctxs.any fun e => e.2.part == p) && !s.herdTaken p (bits rec.w1 0 16) }
    fun s => (s.setPart p { s.part p with partSet := some (bits rec.w1 0 16) }, 0))

/-- The new HERDS takes effect (R388): herds that join or leave are to be reset, and the semaphores are 0. -/
def State.partApply (s : State) (p new : Nat) : State :=
  let changed := (List.range 16).filter fun h => bit (s.herdsOf p ^^^ new) h
  let s1 := (s.setPart p { s.part p with partSet := none, sems := [], sigs := [] }).fset (R.SCH_PART p) F.SCH_PART_HERDS new
  changed.foldl (fun s h => s.resetDue 2 h) s1

/-- PART_SET_APPLY (R388). -/
def execPartSetApply (p : Nat) (s : State) : Host.Outcome State Fault Refusal :=
  s.runIf (instrWf (.partSetApply p)) (
    match (s.part p).partSet with
    | some new => if s.atBoundary 8 then s.partApply p new else s
    | none => s)

/-- The context ids that GROUP_SET names. -/
def groupIds (r : CmdRec) : List Nat := (List.range (bits r.w1 8 4)).map fun i => bits r.w2 (8 * i) 8

/-- A context of any partition has a step in flight or holds a lock. -/
def State.ctxBusy (s : State) (c : Nat) : Bool :=
  let p := (s.ctx c).part
  s.inFlight p c || s.locked p c

/-- GROUP_SET (R396, R404). -/
def execGroupSet (p : Nat) (rec : CmdRec) (s : State) : Host.Outcome State Fault Refusal :=
  let g := bits rec.w1 0 3
  let n := bits rec.w1 8 4
  let ids := groupIds rec
  s.runIf (instrWf (.groupSet p rec)) (s.commandOk p 0x11 rec
    { fmt := wordsOk rec [mask 0 2 ||| mask 8 11, mask 0 63] && rec.ctx == 0 && (decide (8 < n) || decide (rec.w2 < 2 ^ (8 * n))),
      range := decide (n ≤ 8),
      state := (ids.all fun c => (s.ctxs.find? c).isSome) && !(ids ++ Map.get [] s.groups g).any s.ctxBusy
        && !(s.groups.any fun e => e.1 != g && e.2.any fun c => ids.contains c) }
    fun s => ({ s with groups := Map.put [] s.groups g ids, gsems := s.gsems.dropKeys fun k => k / 32 == g }, 0))

/-! ### Switches (R400, R401, R403) -/

/-- The context in a slot is runnable. -/
def State.runnable (s : State) (p k : Nat) : Bool :=
  match s.slot? p k with
  | some x => s.blockCode p x == 0
  | none => false

/-- The first runnable slot in slot order after one, other than it. -/
def State.nextRunnable (s : State) (p r : Nat) : Option Nat := ([1, 2, 3].map fun i => (r + i) % 4).find? fun k => s.runnable p k

/-- The context in slot r is to leave: deferred while it holds a lock (R403), carried out by `f` otherwise. -/
def State.unlessLocked (s : State) (p r : Nat) (x : Slot) (f : State → State) : State :=
  if (s.lockOf p x.ctx).isSome then
    (if x.deferred.isSome then s
    else (s.setSlot p r { x with deferred := some s.tick }).fadd (R.SCH_SW_STAT p) F.SCH_SW_STAT_LOCK_DEFER 1)
  else f (s.setSlot p r { x with deferred := none })

/-- A switch begins: the partition dispatches nothing and starts no segment (R401). -/
def State.beginSwitch (s : State) (p : Nat) (w : Switch) : State := s.setPart p { s.part p with sw := some w }

/-- The swapped-out contexts of a partition that are ready, the one ready longest first, the lowest id on a tie. -/
def State.readyCtx (s : State) (p : Nat) : Option Nat :=
  leastBy (fun c => (s.ctx c).readySince)
    ((s.ctxs.filter fun (e : Nat × Ctx) => e.2.part == p && e.2.slot.isNone && e.2.ready).map fun e => e.1)

/-- The resident context that has been blocked longest, the lowest slot on a tie. -/
def State.victim (s : State) (p : Nat) : Option Nat :=
  leastBy (fun k => match s.slot? p k with | some x => 2 ^ 32 - x.blockedTicks | none => 2 ^ 32)
    ((s.part p).slots.map fun e => e.1)

/-- A ready context takes a free slot by itself; one whose record does not serve is left waiting (R392, R400). -/
def State.autoSwapIn (s : State) (p c : Nat) : State :=
  match s.freeSlot p with
  | none => s
  | some k =>
    match s.enterSlot p k c with
    | (0, s1) => s1.fadd (R.SCH_SW_STAT p) F.SCH_SW_STAT_SWAPS 1
    | (_, s1) => s1.markReady c false

/-- Note that the swap of this boundary has taken place. -/
def State.swapped (s : State) (p : Nat) : State := s.setPart p { s.part p with swapAt := some s.tick }

/-- The automatic swap of R400. -/
def State.autoSwap (s : State) (p c : Nat) : State :=
  if (s.freeSlot p).isSome then (s.swapped p).autoSwapIn p c
  else
    match s.victim p with
    | none => s
    | some k =>
      match s.slot? p k with
      | none => s
      | some x =>
        if (s.part p).run = some k then
          s.unlessLocked p k x fun s => (s.swapped p).beginSwitch p { src := some k, swapIn := some c }
        else ((s.swapped p).leaveSlot p k x).autoSwapIn p c

/-- Every resident context of a partition is blocked. -/
def State.allBlocked (s : State) (p : Nat) : Bool := (s.part p).slots.all fun e => s.blockCode p e.2 != 0

/-- The second step of R400. -/
def State.swapStep (s : State) (p : Nat) : State :=
  match s.readyCtx p with
  | some c => if s.allBlocked p && (s.part p).swapAt != some s.tick then s.autoSwap p c else s
  | none => s

/-- The third step of R400: with no context running, the first runnable one is restored. -/
def State.idleStep (s : State) (p : Nat) : State :=
  if (s.part p).run.isNone && (s.part p).sw.isNone then
    match firstUpTo 4 fun k => s.runnable p k with
    | some k => s.beginSwitch p { src := none, dst := some k, phase := 1 }
    | none => s
  else s

/-- The running context has run its slice, is blocked, or has a switch pending that a lock deferred. -/
def State.sliceOver (s : State) (p : Nat) (x : Slot) : Bool :=
  decide (x.slice + 1 ≤ x.ran) || s.blockCode p x != 0 || x.deferred.isSome

/-- A deferral whose reason has gone. -/
def State.undefer (s : State) (p : Nat) : State :=
  match (s.part p).run with
  | some r => s.modSlot p r fun x => { x with deferred := none }
  | none => s

/-- The steps of R400 in order. -/
def State.switchSteps (s : State) (p : Nat) : State :=
  match (s.part p).run with
  | none => (s.swapStep p).idleStep p
  | some r =>
    match s.slot? p r with
    | none => s
    | some x =>
      match s.sliceOver p x, s.nextRunnable p r with
      | true, some k => s.unlessLocked p r x fun s => s.beginSwitch p { src := some r, dst := some k }
      | _, _ => (if s.allBlocked p then s else s.undefer p).swapStep p

/-- CONTEXT_SWITCH (R400): at a fence the step scheduler switches none (R47). -/
def execContextSwitch (p : Nat) (s : State) : Host.Outcome State Fault Refusal :=
  s.runIf (instrWf (.contextSwitch p))
    (if s.atBoundary 7 && (s.part p).sw.isNone && !s.fenced 5 0 then (s.took 7).switchSteps p else s)

/-- No tile of a partition runs a segment. -/
def State.tilesIdle (s : State) (p : Nat) : Bool := (s.partTiles p).all fun t => (s.tile t).run.isNone

/-- The outgoing context has been saved: it no longer runs; a swap goes on with the context that takes its place (R400, R401). -/
def State.saveDone (s : State) (p r : Nat) (x : Slot) (w : Switch) : State :=
  let s1 := s.saveContext p x
  let s2 := s1.setPart p { s1.part p with run := none, sw := none }
  match w.swapIn with
  | some c => (s2.leaveSlot p r x).autoSwapIn p c
  | none => s2.setPart p { s2.part p with sw := some { w with phase := 1 } }

/-- CONTEXT_SAVE_DONE (R401). -/
def execContextSaveDone (p : Nat) (s : State) : Host.Outcome State Fault Refusal :=
  s.runIf (instrWf (.contextSaveDone p)) (
    match (s.part p).sw with
    | some w =>
      match w.src with
      | some r =>
        match s.slot? p r with
        | some x => if w.phase = 0 ∧ s.tilesIdle p ∧ ¬ s.fenced 5 0 then s.saveDone p r x w else s
        | none => s
      | none => s
    | none => s)

/-- CONTEXT_RESTORE_DONE (R401, R402). -/
def execContextRestoreDone (p : Nat) (s : State) : Host.Outcome State Fault Refusal :=
  s.runIf (instrWf (.contextRestoreDone p)) (
    match (s.part p).sw with
    | some w =>
      match w.dst with
      | some k =>
        match s.slot? p k with
        | some x =>
          if w.phase = 1 ∧ ¬ s.fenced 5 0 then
            let s1 := s.restoreContext p x
            s1.setPart p { s1.part p with sw := some { w with phase := 2 } }
          else s
        | none => s
      | none => s
    | none => s)

/-- The incoming context becomes the running context (R401). -/
def State.startContext (s : State) (p k : Nat) : State :=
  ((s.setPart p { s.part p with run := some k, sw := none }).modSlot p k fun x => { x with ran := 0 }).fadd (R.SCH_SW_STAT p)
    F.SCH_SW_STAT_SWITCHES 1

/-- CONTEXT_START (R401). -/
def execContextStart (p : Nat) (s : State) : Host.Outcome State Fault Refusal :=
  s.runIf (instrWf (.contextStart p)) (
    match (s.part p).sw with
    | some w =>
      match w.dst with
      | some k => if w.phase = 2 ∧ s.atBoundary 7 ∧ ¬ s.fenced 5 0 then (s.took 7).startContext p k else s
      | none => s
    | none => s)

/-- The contexts that a lock held too long faults: those of the group, or the one alone (R403). -/
def State.lockPeers (s : State) (ctx : Nat) : List Nat :=
  match List.find? (fun (e : Nat × List Nat) => e.2.contains ctx) s.groups with
  | some e => e.2
  | none => [ctx]

/-- A lock is held too long (R403): `n` is the semaphore. -/
def State.lockFault (s : State) (p ctx n : Nat) : State :=
  let s1 := (s.lockPeers ctx).foldl
    (fun s c => s.jobFault { unit := (s.ctx c).part, kind := 0xA, cause := 0x12, arg := n, ctx := c, job := (s.ctx c).job,
                             part := (s.ctx c).part }) s
  (s1.fadd (R.SCH_SW_STAT p) F.SCH_SW_STAT_GROUP_FAULTS 1).event (R.SCH_SW_STAT p) (some F.SCH_SW_STAT_GROUP_FAULTS) [ctx, n]

/-- LOCK_DEFER_EXPIRY (R403). -/
def execLockDeferExpiry (p slot : Nat) (s : State) : Host.Outcome State Fault Refusal :=
  s.runIf (instrWf (.lockDeferExpiry p slot)) (
    match s.slot? p slot with
    | some x =>
      match x.deferred, s.lockOf p x.ctx with
      | some d, some n =>
        if d + 8 ≤ s.tick then (s.setSlot p slot { x with deferred := none }).lockFault p x.ctx n else s
      | _, _ => s
    | none => s)

end Sys2Proof.Machine
end

