-- ==== Sys2Proof/Machine/Domains.lean ====
section
/-!
DEFINITION. Domains.lean: faults attributed to a job, reset domains from the fence to the release, tile sparing, and escalation
(spec/16_faults_and_recovery.md, R309, R387, R406 to R419).
-/

namespace Sys2Proof.Machine

/-! ### Faults attributed to a job (R406) -/

/-- The log entry of a fault attributed to a job (R408). -/
def JobFault.entry (f : JobFault) : LogEntry where
  cls := 6
  dom := 5
  unit := f.unit
  kind := f.kind
  cause := f.cause
  segId := f.segId
  index := f.index
  arg := f.arg
  job := f.job
  ctx := f.ctx
  part := f.part

/-- A resident context stops its step in flight, and sends STOT where it has an exchange (R406). -/
def State.faultStep (s : State) (p k : Nat) : State :=
  match s.slot? p k with
  | some x =>
    if x.step.live then
      let s1 := (s.stopWork p k x.ctx).modSlot p k fun y => y.aborted 3 s.tick
      s1.when (x.fget R.SCH_NUM_CTL F.SCH_NUM_CTL_XCHG_EN == 1) fun s => s.stotOriginate 0 x.job 0xFFFF
    else s
  | none => s

/-- The record that R406 writes: pins are released. -/
def State.faultRecord (s : State) (p k : Nat) : State :=
  match s.slot? p k with
  | some x =>
    s.writeRecord p ((x.fset R.SCH_VER F.SCH_VER_PIN0 0).fset R.SCH_VER F.SCH_VER_PIN1 0) 1
  | none => s

/-- Apply an effect to every slot of every partition. -/
def State.eachSlot (s : State) (f : Nat → Nat → State → State) : State :=
  forRange 8 (fun p s => forRange 4 (fun k s => f p k s) s) s

/-- The oldest fault attributed to a job takes its course (R406). -/
def State.takeJobFault (s : State) (f : JobFault) : State :=
  let s1 := ((s.logFault f.entry).lifeAdd 10 1).event R.FLT_CTL none [f.ctx, f.cause]
  ((s1.eachSlot fun p k s => s.faultStep p k).eachSlot fun p k s => s.faultRecord p k).resetDue 5 0

/-- JOB_FAULT (R406). -/
def execJobFault (s : State) : Host.Outcome State Fault Refusal :=
  .next (match s.jobFaults with
    | f :: l => { s with jobFaults := l }.takeJobFault f
    | [] => s)

/-! ### Requests for a reset (R410) -/

/-- A domain code and unit name a domain that is there. -/
def State.domainOk (s : State) (code unit : Nat) : Bool :=
  match code with
  | 1 => decide (unit < 192) && !s.absent unit
  | 2 => decide (unit < 16)
  | 3 => decide (unit < 2)
  | 4 => decide (unit < 2)
  | 5 => unit == 0
  | 6 => unit == 0
  | _ => false

/-- An agent is management access; REGACC reaches register space as one (R480). -/
def isMgmt : Agent → Bool
  | .mgmt => true
  | .test => true
  | _ => false

/-- The effect of a write of FLT_RESET (R410): the package domain from management access only. -/
def fltResetEffect (a : Agent) (value : Nat) (s : State) : State :=
  let code := bits value 60 4
  let unit := bits value 0 8
  if !s.domainOk code unit || (code == 6 && !isMgmt a) then s.badWrite a R.FLT_RESET
  else
    let s1 := s.resetDue code unit
    if code = 6 then { s1 with pwr := { s1.pwr with reason := 2 } } else s1

/-- FLT_RESET (R410). -/
def execFltReset (a : Agent) (value : Nat) (s : State) : Host.Outcome State Fault Refusal :=
  s.runIf (instrWf (.fltReset a value)) (s.writeReg a .flt 0 R.FLT_RESET (fltResetEffect a value))

/-! ### The fence (R411, R412) -/

/-- The tiles of a domain. -/
def tilesIn (code unit : Nat) : List Nat := (List.range 192).filter fun t => contains code unit 1 t
/-- The herds that a domain holds whole. -/
def herdsIn (code unit : Nat) : List Nat := (List.range 16).filter fun h => contains code unit 2 h
/-- The dies whose compute a domain holds. -/
def diesIn (code unit : Nat) : List Nat := (List.range 2).filter fun d => contains code unit 3 d

/-- A tile holds a segment: its gang runs one, or its queue has one. -/
def State.tileHolds (s : State) (t : Nat) : Bool := (s.runAt t).isSome || (s.tile t).queue != []

/-- The segment that a tile runs ends where it stands, also where another tile leads the gang that runs it (R132, R412). -/
def State.stopAt (s : State) (t : Nat) : State :=
  ((herdTiles (t / 12)).filter fun u => u == t || match (s.tile u).run with | some r => r.members.contains t | none => false).foldl
    State.stopRun s

/-- A reset domain holds work of a step in flight in a herd (R72). -/
def State.domainHolds (s : State) (code unit h : Nat) : Bool :=
  (tilesIn code unit).any (fun t => t / 12 == h && s.tileHolds t)
    || ((herdsIn code unit).contains h && decide (0 < s.herdLoad h))

/-- Steps that worked on a domain are aborted (R72). -/
def State.abortDomain (s : State) (code unit : Nat) : State :=
  ((List.range 16).filter fun h => s.domainHolds code unit h).foldl State.abortHerd s

/-- RESET_ACTIVE of FLT_STATUS: the codes of the domains that are fenced or in reset. -/
def State.showActive (s : State) : State :=
  s.fset R.FLT_STATUS F.FLT_STATUS_RESET_ACTIVE (s.doms.foldl (fun m d => m ||| 2 ^ d.code) 0)

/-- A reset that is due is absorbed by another that contains it (R411). -/
def State.absorbed (s : State) (code unit : Nat) : Bool :=
  s.doms.any (fun (d : Dom) => contains d.code d.unit code unit)
    || s.resetsDue.any fun e => contains e.1 e.2 code unit

/-- Migrations from and to the homes that a fence closes end (R281). -/
def State.fenceHomes (s : State) (code unit : Nat) : State :=
  match code with
  | 4 => s.migFence unit
  | 6 => (s.migFence 0).migFence 1
  | _ => s

/-- A domain is fenced: its tiles stop, and the domains within it are absorbed. -/
def State.fenceNow (s : State) (code unit : Nat) : State :=
  let s1 := s.abortDomain code unit
  let s2 := (tilesIn code unit).foldl State.stopAt s1
  ({ s2 with
    doms := (s2.doms.filter fun (d : Dom) => !contains code unit d.code d.unit) ++ [{ code := code, unit := unit, phase := 1, since := s2.clk.tb }],
    resetsDue := s2.resetsDue.filter fun e => !contains code unit e.1 e.2 } : State).fenceHomes code unit |>.showActive

/-- The fabric of the other die, where both are to be fenced: the link between them is lost (R29). -/
def State.fenceTwin (s : State) (code unit : Nat) : Bool :=
  code == 4 && s.ucieLost 2 && s.resetsDue.contains (4, 1 - unit)

/-- A reset that is due begins with its fence, unless another absorbs it. -/
def State.fenceDue (s : State) (code unit : Nat) : State :=
  if !s.resetsDue.contains (code, unit) then s
  else
    let s1 := { s with resetsDue := s.resetsDue.erase (code, unit) }
    if s1.absorbed code unit then s1 else s1.fenceNow code unit

/-- FENCE (R411, R412): the fabrics of both dies are fenced together when the link between them is lost (R29). -/
def execFence (code unit : Nat) (s : State) : Host.Outcome State Fault Refusal :=
  s.runIf (instrWf (.fence code unit)) (
    if s.resetsDue.contains (code, unit) then
      (s.fenceDue code unit).when (s.fenceTwin code unit) fun s => s.fenceDue 4 (1 - unit)
    else s)

/-! ### What a reset leaves (R15, R410) -/

/-- Registers between two offsets take their reset values (R15). -/
def State.clearRegs (s : State) (lo hi : Nat) : State :=
  { s with regs := s.regs.filter fun e => !decide (8 * lo ≤ e.1 ∧ e.1 < 8 * hi), bw := s.bw.dropKeys fun k => decide (lo ≤ k ∧ k < hi) }

/-- The gang of a tile dissolves; the other gangs of its herd remain (R60, R132): also in a reset for a segment hang (log entry
104). -/
def State.dissolveGang (s : State) (t : Nat) : State :=
  let h := t / 12
  let lead := s.leadOf h (t % 12)
  let stay (i : Nat) : Nat := b2n (s.joined h i && s.leadOf h i != lead) * 2 ^ (i - 1)
  (s.fset (R.HRD_GANG h) F.HRD_GANG_ACTIVE_JOIN (sumList ((List.range 11).map fun i => stay (i + 1)))).fset (R.HRD_GANG h)
    F.HRD_GANG_ACTIVE_WIDTH 0

/-- A tile after a reset of its domain: zero memory and empty queues; its failure and its hangs are not its domain's
(R159, R416). -/
def State.resetTile (s : State) (t : Nat) : State :=
  let x := s.tile t
  (((s.dissolveGang t).clearRegs (B.til t) (B.til t + 0x100000)).setTile t
    { failed := x.failed, hangs := x.hangs, cycBase := s.clk.cyc }).asksGone
      (Asker.isUnit fun u => u == fetchUnit t || u == gatherUnit t)

/-- A herd after a reset of its domain: its cores are held until they restart (R415). -/
def State.resetHerd (s : State) (h : Nat) : State :=
  let s1 := (herdTiles h).foldl State.resetTile s
  (((s1.clearRegs (B.hrd h) (B.hrd h + 0x1000000)).setHerd h {}).setCore (2 * h) {}).setCore (2 * h + 1) {}

/-- The collectives of a die end with ABORTED, or as they have ended, and every register of the engine's block takes its reset value: package
id and role epoch, permissions, windows and routes with it (R15, R40, R355, R410). -/
def State.resetColl (s : State) (d : Nat) : State :=
  let s1 := (Map.get [] s.colls d).foldl (fun s c => s.collRecord d (if c.over then c else { c with status := 7 })) s
  let s2 := s1.clearRegs (B.afrEng d) (B.afrEng d + 0x1000000)
  { s2 with colls := s2.colls.erase d, collIn := s2.collIn.filter fun m => m.die != d }.asksGone
    (Asker.isUnit fun u => decide (collUnit d 0 ≤ u ∧ u < collUnit d 4096))

/-- A line of a fenced agent that it still holds dirty becomes poisoned at its home, and is counted there (R309). -/
def State.poisonLine (s : State) (line : Nat) : State :=
  let r := R.COH_POISON (sliceOf line)
  ((s.poisonAt line (s.mem.rdN (line * 64) 64)).fadd r F.COH_POISON_COUNT 1).fset r F.COH_POISON_ADDR line

/-- A message on its way to an agent, or from it, is lost with the agent. -/
def CohMsg.withAgent (m : CohMsg) (ag : Nat) : Bool := m.ag == ag

/-- The home answers for an agent that is gone, and drops what the agent asked for; data that it sent before, and writebacks that it had
handed over, arrive (R309, R412). -/
def State.txnGone (s : State) (line ag : Nat) : State :=
  match s.busyAt line with
  | none => s
  | some b =>
    let s1 := s.setBusy line { b with waiters := b.waiters.filter fun t => t.ag != ag }
    match b.cur with
    | none => s1
    | some t =>
      let s2 := if b.snoops.contains ag then State.takeSnpDone unitEvent s1 { op := .snpDone, ag := ag, line := line, a := 8 } else s1
      if t.ag = ag then State.goTxn unitEvent (s2.modBusy line fun x => { x with got := false, answered := true }) line
      else s2

/-- What a fenced agent has sent of a line and its home has not taken yet arrives: its data, and its answer to a snoop. -/
def State.sentBy (s : State) (ag : Nat) : State :=
  (s.msgs.filter fun m => m.ag == ag && m.toHome).foldl (fun s m => if s.msgs.contains m then State.land unitEvent s m else s) s

/-- A line that a fenced agent has not written back: in O or M, and in E where it has written it silently, the line becomes poisoned (R298,
R309). -/
def State.lineGone (s : State) (line : Nat) (c : CLine) : State :=
  match s.ownerDirty c with
  | (true, s1) => s1.poisonLine line
  | (false, s1) => s1

/-- A SEND that a fenced agent's request has sent to the owner is withdrawn: the home awaits no answer to it (R309). -/
def State.sendsGone (s : State) (ag : Nat) : State :=
  (s.msgs.filter fun m => m.op == .send && m.b == ag).foldl
    (fun s m => { s with msgs := s.msgs.erase m }.modBusy m.line fun b => { b with snoops := b.snoops.erase m.ag }) s

/-- A line on its way to a fenced agent with dirty data is lost. -/
def CohMsg.lostTo (m : CohMsg) (ag : Nat) : Bool := m.op == .line && m.ag == ag && m.a == 3
/-- A line on its way to a fenced agent from an owner in E, which may have written it silently (R298). -/
def CohMsg.mayLose (m : CohMsg) (ag : Nat) : Bool := m.op == .line && m.ag == ag && m.a == 2 && m.data.isNone && m.c != 0

/-- A caching agent at the end of the drain of its domain (R309). Whether the owner in E of a line on its way had written it is open (log
entry 2). -/
def State.agentGone (s : State) (ag : Nat) : State :=
  let s0 := (s.sentBy ag).sendsGone ag
  let mine := s0.cache.filter fun (e : Nat × CLine) => e.1 % 128 == ag
  let s1 := mine.foldl (fun (s : State) (e : Nat × CLine) => s.lineGone (e.1 / 128) e.2) s0
  let s2a := (s1.msgs.filter fun m => m.lostTo ag).foldl (fun (s : State) (m : CohMsg) => s.poisonLine m.line) s1
  let s2 := (s1.msgs.filter fun m => m.mayLose ag).foldl
    (fun (s : State) (m : CohMsg) => s.draw.2.when (s.draw.1 % 2 = 1) fun s => s.poisonLine m.line) s2a
  let s3 := { s2 with cache := s2.cache.dropKeys (fun k => k % 128 == ag), wback := s2.wback.dropKeys (fun k => k % 128 == ag),
                      msgs := s2.msgs.filter (fun m => m.ag != ag),
                      reqQ := s2.reqQ.map fun (e : Nat × List (Nat × Txn)) => (e.1, e.2.filter fun q => q.2.ag != ag) }
  (s3.busy.map fun e => e.1).foldl (fun s l => s.txnGone l ag) s3

/-- The home slices of a die at the end of the drain: cached lines are written back and dropped, and what is unanswered is answered
with FAIL (R412). -/
def State.homesGone (s : State) (d : Nat) : State :=
  let here (line : Nat) : Bool := dieOfKey (line / 16384) == some d
  let mine (k : Nat) : Bool := decide (64 + 32 * d ≤ k ∧ k < 96 + 32 * d)
  let wb (s : State) (e : Nat × CLine) : State :=
    if !here (e.1 / 128) then s
    else
      match s.ownerDirty e.2 with
      | (true, s1) => (s1.ownerData e.2).2.homeWrite (e.1 / 128) (s1.ownerData e.2).1
      | (false, s1) => s1
  let back (s : State) (e : Nat × CLine) : State :=
    if here (e.1 / 128) && e.2.st.dirty then s.homeWrite (e.1 / 128) e.2.data else s
  let home (s : State) (m : CohMsg) : State := if here m.line && m.op == .lineHome then State.land unitEvent s m else s
  let s1 := s.wback.foldl back (s.cache.foldl wb (s.msgs.foldl home s))
  let asked := ((s1.busy.filter fun (e : Nat × Busy) => here e.1).flatMap fun (e : Nat × Busy) =>
    ((match e.2.cur with | some t => if e.2.answered || t.kind == .backInv then [] else [t] | none => []) ++ e.2.waiters).map
      fun t => (e.1, t)) ++ (s1.reqQ.filter fun e => mine e.1).flatMap fun e => e.2
  let s2 := { s1 with cache := s1.cache.dropKeys (fun k => here (k / 128)), wback := s1.wback.dropKeys (fun k => here (k / 128)),
                      busy := s1.busy.dropKeys here, msgs := s1.msgs.filter fun m => !here m.line,
                      snoop := s1.snoop.dropKeys mine, arb := s1.arb.dropKeys mine, reqQ := s1.reqQ.dropKeys mine }
  asked.foldl (fun s q => s.postFail q.1 q.2 2) s2

/-- The units of a die that its die fabric domain holds beside its compute (R410). -/
def State.resetFabric (s : State) (d : Nat) : State :=
  let s1 := (s.homesGone d)
  let s2 := forRange 18 (fun i s => s.when (s.portUp (18 * d + i)) fun s => s.portDown (18 * d + i)) s1
  let s3 := { s2 with
    rmc := s2.rmc.erase d,
    ports := s2.ports.dropKeys (fun g => g / 18 == d), trunkRr := s2.trunkRr.dropKeys (fun k => k / 16 == d),
    rreqs := s2.rreqs.dropKeys (fun k => k / 4096 == d), rwait := s2.rwait.filter fun e => e.1 != d, qps := s2.qps.dropKeys (fun k => k / 2 ^ 24 / 4 == d),
    eths := s2.eths.dropKeys (fun e => e / 4 == d), repairs := s2.repairs.dropKeys (fun k => k / 8 == d),
    postponed := s2.postponed.dropKeys (fun c => c / 512 == d), chans := s2.chans.dropKeys (fun c => c / 512 == d), refLocked := s2.refLocked.filter fun k => k / 8 != d,
    ucieOut := (s2.ucieOut.erase d).erase 2, ucieHash := (s2.ucieHash.erase d).erase 2 }
  s3.clearRegs (B.die d) (B.die (d + 1))

/-- Agents that a domain holds: control cores (R297). -/
def agentsIn (code unit : Nat) : List Nat := (herdsIn code unit).flatMap fun h => [96 + 2 * h, 96 + 2 * h + 1]

/-- A ring command whose context is lost completes with ABORTED (R398). -/
def State.abortCommand (s : State) (p : Nat) : State :=
  match (s.part p).exec with
  | some e =>
    if (s.ctxs.find? e.cmd.ctx).isSome && !(decide (0x10 ≤ e.op ∧ e.op < 0x30)) then s.complete p e.op e.cmd 7 0 else s
  | none => s

/-- Job faults that have not taken their course are absorbed by a reset, and their records stay in the fault log (R199, R411). -/
def State.logJobFaults (s : State) : State :=
  { s.jobFaults.foldl (fun s f => (s.logFault f.entry).lifeAdd 10 1) s with jobFaults := [] }

/-- The scheduler state that package compute holds: slots, contexts, semaphores and pins; snapshots fail (R406, R435). -/
def State.resetSched (s : State) : State :=
  let s0 := s.logJobFaults
  let s1 := forRange 8 (fun p s => s.abortCommand p) s0
  let s2 := s1.eachSlot fun p k s =>
    match s.slot? p k with
    | some x => if x.snapBusy then s.snapFail p k 7 else s
    | none => s
  { s2 with
    parts := s2.parts.map fun (e : Nat × Part) =>
      (e.1, { e.2 with slots := [], reports := [], run := none, sw := none, swapAt := none, sems := [], sigs := [] }),
    ctxs := [], groups := [], gsems := [], snapQ := [] }.asksGone fun w =>
      match w with
      | .pass _ _ _ => true
      | .unit u => decide (snapUnit 0 ≤ u ∧ u < snapUnit 8) || decide (schedUnit 0 0 ≤ u ∧ u < schedUnit 8 0)
      | _ => false

/-- The package after a package reset, up to the configuration read (R414): the fault log, RESET_REASON and the out-of-service state,
the fuses, the configuration memory, what is wrong with the cells, and the time base's own count stay. Lifetime totals never
reset (R465). -/
def State.packageReset (s : State) : State :=
  let stays (k : Nat) : Bool :=
    decide (8 * R.FLT_LOG 0 0 ≤ k ∧ k < 8 * (R.FLT_LOG 0 0 + 0x800)) || decide (8 * R.FLT_LOG_PTR ≤ k ∧ k < 8 * R.FLT_LOG_PTR + 64)
      || k == regKey R.FLT_STATUS F.FLT_STATUS_RESET_REASON || k == regKey R.FLT_STATUS F.FLT_STATUS_OOS
      || k == regKey R.FLT_STATUS F.FLT_STATUS_OOS_CLEARABLE || k == regKey R.FLT_RSTCNT F.FLT_RSTCNT_PACKAGE
      || decide (8 * R.LIF_CNT 0 ≤ k ∧ k < 8 * (R.LIF_HIST 32 0)) || k == regKey R.CFG_STATUS F.CFG_STATUS_GUARD
  { State.reset with
    pending := s.pending, free := s.free, rsp := s.rsp, regs := s.regs.filter fun e => stays e.1, hard := s.hard,
    spareHard := s.spareHard, spent := s.spent, fuseList := s.fuseList, fuseRows := s.fuseRows, fuseCols := s.fuseCols, dieRepairs := s.dieRepairs, flash := s.flash, fuses := s.fuses, pwr := s.pwr,
    logSeq := s.logSeq, logAt := s.logAt, joules := s.joules, mgmt := s.mgmt, tap := s.tap, doms := s.doms }

/-- The reset of a domain begins (R309, R410, R412). -/
def State.beginReset (s : State) (code unit : Nat) : State :=
  let s1 := (agentsIn code unit).foldl State.agentGone s
  match code with
  | 1 => s1.resetTile unit
  | 2 => s1.resetHerd unit
  | 3 => ((herdsIn 3 unit).foldl State.resetHerd s1).resetColl unit
  | 4 => (((herdsIn 4 unit).foldl State.resetHerd s1).resetColl unit).resetFabric unit
  | 5 => (((List.range 16).foldl State.resetHerd s1).resetColl 0 |>.resetColl 1).resetSched
  | _ => s.chkFlushAll.logJobFaults.packageReset

/-- Move a domain from one phase to another. -/
def State.domPhase (s : State) (code unit phase : Nat) : State :=
  { s with doms := s.doms.map fun d =>
      if d.code == code && d.unit == unit then { d with phase := phase, since := s.clk.tb } else d }

/-- A domain is in a phase. -/
def State.inPhase (s : State) (code unit phase : Nat) : Bool :=
  s.doms.any fun d => d.code == code && d.unit == unit && d.phase == phase

/-- DRAIN_END (R309, R412). After a thermal trip every domain stays fenced (R476). -/
def execDrainEnd (code unit : Nat) (s : State) : Host.Outcome State Fault Refusal :=
  s.runIf (instrWf (.drainEnd code unit))
    (if s.inPhase code unit 1 && !s.pwr.trip then (s.beginReset code unit).domPhase code unit 2 else s)

/-! ### The end of a reset, and escalation (R29, R410, R418) -/

/-- FLT_RSTCNT of a domain code. -/
def rstField : Nat → Fld
  | 1 => F.FLT_RSTCNT_TILE
  | 2 => F.FLT_RSTCNT_HERD
  | 3 => F.FLT_RSTCNT_DIE_COMPUTE
  | 4 => F.FLT_RSTCNT_DIE_FABRIC
  | 5 => F.FLT_RSTCNT_PKG_COMPUTE
  | _ => F.FLT_RSTCNT_PACKAGE

/-- Count a completed reset (R407, R427, R465, R466). -/
def State.countReset (s : State) (code unit : Nat) : State :=
  let s1 := (s.fadd R.FLT_RSTCNT (rstField code) 1).lifeAdd (10 - code) 1
  let s2 := if 1 ≤ code ∧ code ≤ 4 then s1.health 3 1 else s1
  let s3 := if code = 2 then s2.histAdd 26 unit 1 else s2
  if code = 2 then { s3 with dieWd := Map.put 0 s3.dieWd (unit / 8) 0 } else s3

/-- The package enters out of service (R418). -/
def State.enterOos (s : State) : State :=
  let s1 := s.logFault { cls := 8, unit := 0, kind := 0xB, cause := 0x17 }
  let s2 := ((s1.fset R.FLT_STATUS F.FLT_STATUS_OOS 1).fset (R.AFR_ID 0) F.AFR_ID_EPOCH 0).fset (R.AFR_ID 1) F.AFR_ID_EPOCH 0
  ((s2.lifeTouch 2).lifeAdd 30 1).alert

/-- A completed package-compute reset: the last of ESC_COUNT within the window ends in out of service. -/
def State.escalate (s : State) : State :=
  let w := s.fget R.FLT_CTL F.FLT_CTL_ESC_WINDOW_S * cyclesPerSecond
  let l := (s.escTimes.filter fun t => decide (s.clk.tb < t + w)) ++ [s.clk.tb]
  let s1 := { s with escTimes := l }.fset R.FLT_STATUS F.FLT_STATUS_ESC_RUN (min l.length 15)
  if s.fget R.FLT_CTL F.FLT_CTL_ESC_COUNT ≤ l.length ∧ !s.oos then s1.enterOos else s1

/-- A die fabric reset ends: a link of the die that still has no working module ends in out of service (R29). -/
def State.linkCheck (s : State) (d : Nat) : State :=
  match [d, 2].find? s.ucieLost with
  | some l => s.logFault { cls := 7, unit := l, kind := 8, cause := 0x15 } |>.enterOos
  | none => s

/-- RESET_END (R410): the end of a package reset is the end of start-up, which counts it. -/
def execResetEnd (code unit : Nat) (s : State) : Host.Outcome State Fault Refusal :=
  s.runIf (instrWf (.resetEnd code unit)) (
    if !s.inPhase code unit 2 || code == 6 then s
    else
      let s1 := (s.domPhase code unit 3).countReset code unit
      match code with
      | 4 => s1.linkCheck unit
      | 5 => s1.escalate
      | _ => s1)

/-! ### The release (R412, R415) -/

/-- A domain that overlaps another has to wait for its reset too (R411). -/
def overlaps (a b : Dom) : Bool := (a.code == 4 && b.code == 5) || (a.code == 5 && b.code == 4)

/-- A domain may be released: its reset and those of the domains that it overlaps have ended; package compute stays fenced out of
service (R411, R418). -/
def State.mayRelease (s : State) (code unit : Nat) : Bool :=
  s.inPhase code unit 3 && !(code == 5 && s.oos)
    && s.doms.all fun d => !(overlaps d { code := code, unit := unit, phase := 0, since := 0 }) || d.phase == 3

/-- Control cores of a reset herd restart at ENTRY of the running context, or stay held (R415). -/
def State.restartHerd (code : Nat) (s : State) (h : Nat) : State :=
  match s.ctxOfHerd h with
  | some e => (s.setCore (2 * h) (startCore e.2.entry h 0 code)).setCore (2 * h + 1) (startCore e.2.entry h 1 code)
  | none => s

/-- DOMAIN_RELEASE (R412, R415): at the first boundary after the reset. -/
def execDomainRelease (code unit : Nat) (s : State) : Host.Outcome State Fault Refusal :=
  s.runIf (instrWf (.domainRelease code unit)) (
    if s.clk.phase < 9 && s.mayRelease code unit then
      let s1 := { s with doms := s.doms.filter fun (d : Dom) => !(d.code == code && d.unit == unit) }.showActive
      (herdsIn code unit).foldl (State.restartHerd code) s1
    else s)

/-! ### Tile sparing (R416, R417) -/

/-- The logical number, within its herd, of a physical tile: its place among those that had not failed at start-up. -/
def logicalOf (mask phys : Nat) : Option Nat :=
  if bit mask phys then none
  else
    let n := ((List.range phys).filter fun i => !bit mask i).length
    if n < 12 then some n else none

/-- Logical tile t of herd h has failed as physical tile `phys` (R416). -/
def State.failTile (s : State) (h phys t : Nat) : State :=
  let a := ((s.fOr (R.FLT_HERD h) F.FLT_HERD_FAILED (2 ^ phys)).stopRun t).dissolveGang t
  let s1 := (a.setTile t { a.tile t with failed := true, queue := [], fetched := none }).logFault
    { cls := 7, unit := t, kind := 1, cause := 0x16 }
  ((s1.event (R.FLT_HERD h) (some F.FLT_HERD_FAILED) []).lifeAdd 29 1).lifeTouch 2

/-- A tile fails when its self-test fails in a reset of its domain, or once its domain has been reset for TILE_HANGS segment
hangs (R416). -/
def State.tileFailDue (s : State) (t : Nat) : Bool :=
  s.fenced 1 t || decide (s.fget R.FLT_CTL F.FLT_CTL_TILE_HANGS ≤ (s.tile t).hangs)

/-- TILE_FAIL (R416): a failure found at start-up is START_UP's, and a spare that serves no logical number runs nothing that could
fail. -/
def execTileFail (h phys : Nat) (s : State) : Host.Outcome State Fault Refusal :=
  s.runIf (instrWf (.tileFail h phys)) (
    match logicalOf (Map.get 0 s.sparing h) phys with
    | some i =>
      if !(s.tile (12 * h + i)).failed && s.tileFailDue (12 * h + i) then s.failTile h phys (12 * h + i) else s
    | none => s)

/-! ### Out of service (R419) -/

/-- The effect of a write of FLT_OOS (R419). -/
def oosClearEffect (a : Agent) (value : Nat) (s : State) : State :=
  if value % 2 = 0 then s
  else if isMgmt a && s.fbit R.FLT_STATUS F.FLT_STATUS_OOS_CLEARABLE then
    let s1 := (s.fset R.FLT_STATUS F.FLT_STATUS_OOS 0).fset R.FLT_STATUS F.FLT_STATUS_OOS_CLEARABLE 0
    { s1 with doms := s1.doms.filter fun d => d.code != 5, escTimes := [] }.showActive.lifeTouch 2
  else s.badWrite a R.FLT_OOS

/-- OOS_CLEAR (R419). -/
def execOosClear (a : Agent) (value : Nat) (s : State) : Host.Outcome State Fault Refusal :=
  s.runIf (instrWf (.oosClear a value)) (s.writeReg a .flt 0 R.FLT_OOS (oosClearEffect a value))

end Sys2Proof.Machine
end

