-- ==== Sys2Proof/Machine/Security.lean ====
section
/-!
DEFINITION. Security.lean: the configuration memory and the lifetime region, the supply guard, the fuses, attestation, and the release
of server cores (spec/17_configuration_and_security.md, R445 to R455, R467 to R469).
-/

namespace Sys2Proof.Machine

/-! ### The configuration memory (R438, R446 to R450) -/

/-- n bytes of the configuration memory. -/
def State.flashGet (s : State) (a n : Nat) : Nat := 2 ^ (8 * n) - 1 - s.flash.rdN a n
/-- Erase n bytes. -/
def State.flashErase (s : State) (a n : Nat) : State := { s with flash := s.flash.zeroRange a n }
/-- Program n bytes: a NOR device clears bits and sets none (log entry 5). -/
def State.flashPut (s : State) (a n v : Nat) : State :=
  { s with flash := s.flash.wrN a n (s.flash.rdN a n ||| (2 ^ (8 * n) - 1 - v % 2 ^ (8 * n))) }

/-- No command is issued to the configuration memory, but for those of management access: the guard blocks, the supplies fail, or
THERMTRIP_L is asserted (R449, R472, R476). -/
def State.flashHeld (s : State) : Bool := s.guardOn || s.pwr.trip || !s.pwr.pwrOk

/-- Bytes of a sector (R450). -/
def sectorBytes : Nat := 0x10000

/-- The offset of the lifetime region of the running image. -/
def State.lifeOff (s : State) : Nat := s.fget R.CFG_IMAGE F.CFG_IMAGE_LIFE_OFF

/-- An area of the lifetime region (R446): the offsets of its banks, and their length. -/
def lifeBanks (area : Nat) : Nat × Nat × Nat :=
  match area with
  | 0 => (0, 0x100000, 0x100000)
  | 1 => (0x200000, 0x280000, 0x80000)
  | _ => (0x300000, 0x310000, 0x10000)

/-- The offset of a bank of an area within the configuration memory. -/
def State.bankOff (s : State) (area bank : Nat) : Nat :=
  s.lifeOff + (if bank = 0 then (lifeBanks area).1 else (lifeBanks area).2.1)

/-- The sequence number and the content of a bank whose header and CRC are correct (R447, R448). -/
def State.bankRead (s : State) (area bank : Nat) : Option (Nat × List Nat) :=
  let a := s.bankOff area bank
  let n := s.flashGet (a + 16) 8
  if s.flashGet a 8 = 0x4C494645 ∧ n ≤ (lifeBanks area).2.2 - 64 then
    let c := numBytes n (s.flashGet (a + 64) n)
    if crc32c c = s.flashGet (a + 24) 8 then some (s.flashGet (a + 8) 8, c) else none
  else none

/-- The bank that holds the valid copy of an area, its sequence number and its content (R448). -/
def State.areaRead (s : State) (area : Nat) : Option (Nat × Nat × List Nat) :=
  match s.bankRead area 0, s.bankRead area 1 with
  | some x, some y => if x.1 < y.1 then some (1, y) else some (0, x)
  | some x, none => some (0, x)
  | none, some y => some (1, y)
  | none, none => none

/-- The content of an area as the state stands (R446): remap entries of 8 bytes, bad frames of 4, or the service bank. -/
def State.areaBytes (s : State) (area : Nat) : Nat × Nat :=
  match area with
  | 0 =>
    (8 * 98304, ofWords 64 ((List.range 48).flatMap fun u => (List.range (remapSize u)).map fun i => (s.remaps u).getD i 0))
  | 1 => (4 * min s.bad.length 131056, ofWords 32 ((s.bad.take 131056).map fun (e : Nat × Bool) => tierOfKey e.1 * 2 ^ 31 + frameOfKey e.1))
  | _ =>
    (0x10000 - 64, Config.serviceBank (((List.range 16).map fun h => s.fget (R.FLT_HERD h) F.FLT_HERD_FAILED)
      ++ [s.fget R.FLT_STATUS F.FLT_STATUS_OOS, s.fget R.FLT_STATUS F.FLT_STATUS_OOS_CLEARABLE]))

/-- Write an area into the bank that does not hold its valid copy: erase, content, header (R447). -/
def State.areaWrite (s : State) (area : Nat) : State :=
  let old := s.areaRead area
  let bank := match old with | some e => 1 - e.1 | none => 0
  let a := s.bankOff area bank
  let c := s.areaBytes area
  let n := c.1
  let s1 := (s.flashErase a (lifeBanks area).2.2).flashPut (a + 64) n c.2
  s1.flashPut a 64 (ofWords 64 [0x4C494645, (match old with | some e => e.2.1 | none => 0) + 1, n, crc32c (numBytes n c.2)])

/-- Remaps that have been written are persisted (R325). -/
def State.persisted (s : State) (area : Nat) : State :=
  if area = 0 then forRange 48 (fun u s => s.fset (remapReg u) F.STK_REMAP_STAT_PERSIST_PENDING 0) s else s

/-- Whether anything waits for the guard (R449). -/
def State.showWait (s : State) : State :=
  s.fset R.CFG_LIFE F.CFG_LIFE_WAIT_GUARD (b2n (s.guardOn && (s.lifeDue != [] || s.logDue.isSome)))

/-- LIFETIME_WRITE (R447): areas are written one at a time, in the order in which their updates became due. -/
def execLifetimeWrite (area : Nat) (s : State) : Host.Outcome State Fault Refusal :=
  s.runIf (instrWf (.lifetimeWrite area)) (
    match s.lifeDue with
    | x :: r =>
      if x ≠ area ∨ s.fbit R.CFG_STATUS F.CFG_STATUS_FAILED then s
      else if s.flashHeld then s.showWait
      else
        let s1 := (({ s with lifeDue := r }.areaWrite area).persisted area).fadd R.CFG_LIFE F.CFG_LIFE_WRITES 1
        s1.fset R.CFG_LIFE F.CFG_LIFE_PENDING (b2n (r != []))
    | [] => s)

/-! ### The lifetime log (R467, R468) -/

/-- Records of the log ring, and bytes of one. -/
def logRecords : Nat := 768
def logBytes : Nat := 0x4000
/-- The offset of a record. -/
def State.logOff (s : State) (i : Nat) : Nat := s.lifeOff + 0x400000 + logBytes * i

/-- The totals as a record holds them: the counters, then the histograms (R467). -/
def State.logTotals (s : State) : Nat :=
  ofWords 64 (((List.range 256).map fun i => s.fget (R.LIF_CNT i) F.LIF_CNT_VALUE)
    ++ (List.range 32).flatMap fun h => (List.range 32).map fun k => s.fget (R.LIF_HIST h k) F.LIF_HIST_VALUE)

/-- A log record (R467). -/
def State.logRecord (s : State) (cause : Nat) : Nat :=
  let body := s.logTotals
  ofWords 64 [0x4C4F4752, s.logSeq + 1, s.fget (R.LIF_CNT 1) F.LIF_CNT_VALUE, cause, crc32c (numBytes (logBytes - 64) body),
    s.fuses.serial, 0x4160 * 2 ^ 48 + 0xA1 * 2 ^ 40, 0] + 2 ^ 512 * body

/-- Write the next record: it carries the totals at the start of its write, and after the last record of a sector the next sector is
erased (R468). -/
def State.logWrite (s : State) (cause : Nat) : State :=
  let i := s.fget R.LIF_STATUS F.LIF_STATUS_SLOT
  let next := (i + 1) % logRecords
  let s1 := s.flashPut (s.logOff i) logBytes (s.logRecord cause)
  let s2 := if i % 4 = 3 then s1.flashErase (s1.logOff next) sectorBytes else s1
  let s3 := { s2 with logSeq := s.logSeq + 1, logDue := none, logAt := s.fget (R.LIF_CNT 1) F.LIF_CNT_VALUE }
  let s4 := (((s3.fset R.LIF_STATUS F.LIF_STATUS_SLOT next).fset R.LIF_STATUS F.LIF_STATUS_SEQ (s.logSeq + 1)).fset R.LIF_STATUS
    F.LIF_STATUS_PENDING 0).lifeAdd 3 1
  if cause = 1 then s4.fset R.LIF_STATUS F.LIF_STATUS_FLUSHED 1 else s4

/-- A record becomes due: it is written at once, unless the configuration memory takes no command (R449, R468). -/
def State.logAsk (s : State) (cause : Nat) : State :=
  if s.flashHeld || s.fbit R.CFG_STATUS F.CFG_STATUS_FAILED then
    ({ s with logDue := some cause }.fset R.LIF_STATUS F.LIF_STATUS_PENDING 1).showWait
  else s.logWrite cause

/-- LOG_RECORD (R468): every PERIOD_H hours of powered time. -/
def execLogRecord (s : State) : Host.Outcome State Fault Refusal :=
  .next (if s.logDue.isNone
      && decide (s.logAt + 3600 * s.fget R.LIF_CTL F.LIF_CTL_PERIOD_H ≤ s.fget (R.LIF_CNT 1) F.LIF_CNT_VALUE) then s.logAsk 0 else s)

/-- The effect of a write of LIF_CMD (R465, R468): FLUSH counts an orderly power-down. -/
def flushEffect (value : Nat) (s : State) : State := if bit value 0 then (s.lifeAdd 2 1).logAsk 1 else s

/-- FLUSH (R468). -/
def execFlush (a : Agent) (value : Nat) (s : State) : Host.Outcome State Fault Refusal :=
  s.runIf (agentWf a && decide (value < 2 ^ 64)) (s.writeReg a .lif 0 R.LIF_CMD (flushEffect value))

/-! ### The supply guard (R449) -/

/-- GUARD_BLOCK (R449): a fuse command in progress ends with GUARD when it ends. -/
def execGuardBlock (s : State) : Host.Outcome State Fault Refusal :=
  .next (if s.guardOn then s else (((s.fset R.CFG_STATUS F.CFG_STATUS_GUARD 1).lifeAdd 23 1).showWait))

/-- GUARD_RELEASE (R449): what has waited for the guard goes on. -/
def execGuardRelease (s : State) : Host.Outcome State Fault Refusal :=
  .next (
    let s1 := (s.fset R.CFG_STATUS F.CFG_STATUS_GUARD 0).showWait
    match s1.logDue with
    | some c => if s1.flashHeld || s1.fbit R.CFG_STATUS F.CFG_STATUS_FAILED then s1 else s1.logWrite c
    | none => s1)

/-! ### CFG_FLASH_CMD (R450) -/

/-- The sector of a command, and its address in unified memory. -/
def flashSector (value : Nat) : Nat := bits value 0 12 * sectorBytes
def flashAddr (value : Nat) : Nat := bits value 16 40 * 2 ^ 16

/-- The sector holds a byte of the lifetime region of the running image. -/
def State.inLife (s : State) (value : Nat) : Bool :=
  decide (s.lifeOff < flashSector value + sectorBytes) && decide (flashSector value < s.lifeOff + 0x1000000)

/-- The result with which a command is refused, 0 none, 1 RANGE. -/
def State.flashRefusal (s : State) (op value : Nat) : Nat :=
  if (op != 3 && s.inLife value) || (op != 1 && !extentOk (flashAddr value) sectorBytes) then 1 else 0

/-- The effect of a write of CFG_FLASH_CMD with an operation (R14, R450). -/
def flashEffect (a : Agent) (op value : Nat) (s : State) : State :=
  if s.fbit R.CFG_FLASH_STAT F.CFG_FLASH_STAT_BUSY || bits value 62 2 != op || op == 0 then s.badWrite a R.CFG_FLASH_CMD
  else { s with flashCmd := some (value, s.flashRefusal op value) }.fset R.CFG_FLASH_STAT F.CFG_FLASH_STAT_BUSY 1

/-- FLASH_ERASE (R450). -/
def execFlashErase (a : Agent) (value : Nat) (s : State) : Host.Outcome State Fault Refusal :=
  s.runIf (instrWf (.flashErase a value)) (s.writeReg a .cfg 0 R.CFG_FLASH_CMD (flashEffect a 1 value))

/-- FLASH_PROGRAM (R450). -/
def execFlashProgram (a : Agent) (value : Nat) (s : State) : Host.Outcome State Fault Refusal :=
  s.runIf (instrWf (.flashProgram a value)) (s.writeReg a .cfg 0 R.CFG_FLASH_CMD (flashEffect a 2 value))

/-- FLASH_READ (R450). -/
def execFlashRead (a : Agent) (value : Nat) (s : State) : Host.Outcome State Fault Refusal :=
  s.runIf (instrWf (.flashRead a value)) (s.writeReg a .cfg 0 R.CFG_FLASH_CMD (flashEffect a 3 value))

/-- A command ends with a result. -/
def State.flashEnd (s : State) (result : Nat) : State :=
  ({ s with flashCmd := none }.fset R.CFG_FLASH_STAT F.CFG_FLASH_STAT_BUSY 0).fset R.CFG_FLASH_STAT F.CFG_FLASH_STAT_RESULT result

/-- What a command has done that the device did not refuse: an erase, a program from unified memory, a read into it. -/
def State.flashDone (s : State) (value : Nat) : State :=
  let a := flashSector value
  match bits value 62 2 with
  | 1 => (s.flashErase a sectorBytes).flashEnd 0
  | 2 =>
    match s.load Reach.server (flashAddr value) sectorBytes with
    | (.ok v, s1) => (s1.flashPut a sectorBytes v).flashEnd 0
    | (_, s1) => s1.flashEnd 3
  | _ =>
    let e := s.store Reach.server (flashAddr value) sectorBytes (s.flashGet a sectorBytes)
    e.2.flashEnd (if e.1.isOk then 0 else 3)

/-- A device error leaves the sector of an ERASE or PROGRAM open (log entry 2). -/
def State.flashBroken (s : State) (value : Nat) : State :=
  if bits value 62 2 = 3 then s.flashEnd 2
  else
    let s1 := s.draw.2.flashErase (flashSector value) sectorBytes
    (s1.flashPut (flashSector value) sectorBytes s.draw.1).flashEnd 2

/-- FLASH_COMMAND_DONE (R450): `result` is what the device reports, 2 for a device error. Writes wait for the guard, and lifetime
writes go first. -/
def execFlashCommandDone (result : Nat) (s : State) : Host.Outcome State Fault Refusal :=
  s.runIf (decide (result < 256)) (
    match s.flashCmd with
    | none => s
    | some (value, refused) =>
      if refused ≠ 0 then s.flashEnd refused
      else if (bits value 62 2 != 3 && s.flashHeld) || (!s.flashHeld && (s.lifeDue != [] || s.logDue.isSome)) then s
      else if result = 2 then s.flashBroken value
      else if result = 3 then s.flashEnd 3
      else s.flashDone value)

/-! ### Fuses (R451 to R454) -/

/-- Show the fuses in the SEC_ and PKG_ blocks. -/
def State.showFuses (s : State) : State :=
  let g := R.SEC_FUSE_STAT
  let s1 := (((s.fset g F.SEC_FUSE_STAT_PROVISIONED (b2n s.fuses.provisioned)).fset g F.SEC_FUSE_STAT_VALID s.fuses.valid).fset g
    F.SEC_FUSE_STAT_REVOKED s.fuses.revoked).fset g F.SEC_FUSE_STAT_SVN_COUNT s.fuses.count
  forRange 2 (fun k s => forRange 8
    (fun w s => s.fset (R.SEC_OWNER k w) F.SEC_OWNER_DIGEST (bits (s.fuses.owner.getD k 0) (64 * w) 64)) s) s1

/-- A SEC_ command is in progress (R453). -/
def State.secBusy (s : State) : Bool := s.fbit R.SEC_FUSE_STAT F.SEC_FUSE_STAT_BUSY || s.fbit R.SEC_ATTEST_STAT F.SEC_ATTEST_STAT_BUSY

/-- A slot accepts signatures (R451). -/
def State.slotAccepts (s : State) (k : Nat) : Bool := bit s.fuses.valid k && !bit s.fuses.revoked k

/-- The slot and the target count of a fuse command. -/
def fuseSlot (value : Nat) : Nat := bits value 59 1
def fuseTarget (value : Nat) : Nat := bits value 0 6 + 1

/-- The result with which a fuse command is refused, 0 none (R452), and the digest that it names. -/
def State.fuseChk (s : State) (op value : Nat) : (Nat × Nat) × State :=
  match op with
  | 1 =>
    if bit s.fuses.valid (fuseSlot value) then ((2, 0), s)
    else
      match s.load Reach.server (bits value 6 50 * 64) 64 with
      | (.ok d, s1) => ((if s.fuses.owner.getD (fuseSlot value) 0 ||| d = d then 0 else 4, d), s1)
      | (_, s1) => ((3, 0), s1)
  | 2 => ((if s.slotAccepts (1 - fuseSlot value) then 0 else 2, 0), s)
  | 3 =>
    ((if fuseTarget value < s.fuses.count ∨ 64 < fuseTarget value ∨ s.fget R.CFG_IMAGE F.CFG_IMAGE_SVN < fuseTarget value then 3 else 0,
      0), s)
  | _ => ((if s.fuses.provisioned then 2 else 0, 0), s)

/-- The effect of a write of SEC_FUSE_CMD with an operation (R14, R452, R453). -/
def fuseEffect (a : Agent) (op value : Nat) (s : State) : State :=
  if !isMgmt a || s.secBusy || bits value 60 4 != op || !decide (1 ≤ op ∧ op ≤ 4) then s.badWrite a R.SEC_FUSE_CMD
  else
    let c := s.fuseChk op value
    { c.2 with fuseCmd := some { value := value, result := c.1.1, digest := c.1.2 } }.fset R.SEC_FUSE_STAT F.SEC_FUSE_STAT_BUSY 1

/-- PROGRAM_OWNER (R452). -/
def execProgramOwner (a : Agent) (value : Nat) (s : State) : Host.Outcome State Fault Refusal :=
  s.runIf (instrWf (.programOwner a value)) (s.writeReg a .sec 0 R.SEC_FUSE_CMD (fuseEffect a 1 value))

/-- REVOKE (R452). -/
def execRevoke (a : Agent) (value : Nat) (s : State) : Host.Outcome State Fault Refusal :=
  s.runIf (instrWf (.revoke a value)) (s.writeReg a .sec 0 R.SEC_FUSE_CMD (fuseEffect a 2 value))

/-- ADVANCE_SVN (R452). -/
def execAdvanceSvn (a : Agent) (value : Nat) (s : State) : Host.Outcome State Fault Refusal :=
  s.runIf (instrWf (.advanceSvn a value)) (s.writeReg a .sec 0 R.SEC_FUSE_CMD (fuseEffect a 3 value))

/-- PROVISION (R454). -/
def execProvision (a : Agent) (value : Nat) (s : State) : Host.Outcome State Fault Refusal :=
  s.runIf (instrWf (.provision a value)) (s.writeReg a .sec 0 R.SEC_FUSE_CMD (fuseEffect a 4 value))

/-- Some of the bits of a mask, which ones is open (log entry 2). -/
def State.someBits (s : State) (m : Nat) : Nat × State := (s.draw.1 &&& m, s.draw.2)

/-- The fuses after a command that has not been refused: whole, or stopped by the guard or by the verification, where the bits blown
so far are open (R449, R452). -/
def State.blow (s : State) (c : FuseCmd) (whole : Bool) : State :=
  let k := fuseSlot c.value
  match bits c.value 60 4 with
  | 1 =>
    let b := if whole then (c.digest, s) else s.someBits c.digest
    let o := s.fuses.owner.getD k 0 ||| b.1
    { b.2 with fuses := { s.fuses with owner := setAt s.fuses.owner k o, valid := s.fuses.valid ||| (if whole then 2 ^ k else 0) } }
  | 2 => if whole then { s with fuses := { s.fuses with revoked := s.fuses.revoked ||| 2 ^ k } } else s
  | 3 =>
    if whole then { s with fuses := { s.fuses with count := fuseTarget c.value } }
    else { s.draw.2 with fuses := { s.fuses with count := s.fuses.count + s.draw.1 % (fuseTarget c.value + 1 - s.fuses.count) } }
  | _ =>
    let skey := s.draw.1 % 2 ^ 256
    let key := s.draw.2.draw.1 % 2 ^ 521
    let s1 := s.draw.2.draw.2
    if whole then { s1 with fuses := { s.fuses with sealKey := skey, wrapped := Config.keyWrap skey key, provisioned := true } }
    else { s1 with fuses := { s.fuses with sealKey := s.fuses.sealKey ||| skey, wrapped := s.fuses.wrapped ||| key } }

/-- FUSE_COMMAND_DONE (R452): `result` is 1 where the guard has stopped the command and 4 where the digest did not verify. -/
def execFuseCommandDone (result : Nat) (s : State) : Host.Outcome State Fault Refusal :=
  s.runIf (decide (result < 256)) (
    match s.fuseCmd with
    | none => s
    | some c =>
      let stop := if s.guardOn ∨ result = 1 then 1 else if result = 4 ∧ bits c.value 60 4 = 1 then 4 else 0
      let r := if c.result ≠ 0 then c.result else stop
      let s1 := if c.result ≠ 0 then s else s.blow c (stop == 0)
      (({ s1 with fuseCmd := none }.fset R.SEC_FUSE_STAT F.SEC_FUSE_STAT_BUSY 0).fset R.SEC_FUSE_STAT F.SEC_FUSE_STAT_RESULT r).showFuses)

/-! ### Attestation (R455) -/

/-- The effect of a write of SEC_ATTEST_CMD (R453, R455). -/
def attestEffect (a : Agent) (value : Nat) (s : State) : State :=
  if s.secBusy then s.badWrite a R.SEC_ATTEST_CMD
  else { s with attest := some value }.fset R.SEC_ATTEST_STAT F.SEC_ATTEST_STAT_BUSY 1

/-- ATTEST (R455). -/
def execAttest (a : Agent) (value : Nat) (s : State) : Host.Outcome State Fault Refusal :=
  s.runIf (instrWf (.attest a value)) (s.writeReg a .sec 0 R.SEC_ATTEST_CMD (attestEffect a value))

/-- The key slot of the running image. -/
def State.keySlot (s : State) : Nat := s.fget R.CFG_IMAGE F.CFG_IMAGE_KEY_SLOT
/-- The digest of the owner slot in use, or of PUBKEY when the package is open. -/
def State.ownerDigest (s : State) : Nat := if s.owned then s.fuses.owner.getD s.keySlot 0 else s.pubDigest

/-- Bytes 0 to 255 of the report (R455). -/
def State.report (s : State) (nonce : Nat) : Nat :=
  ofWords 64 ([0x41545354 * 2 ^ 32 + 2 ^ 16 + (if s.owned then 2 else 1) * 2 ^ 8 + s.keySlot,
      0x4160 * 2 ^ 48 + 0xA1 * 2 ^ 40 + s.fget R.CFG_IMAGE F.CFG_IMAGE_SVN * 2 ^ 32 + s.fuses.count * 2 ^ 24 + s.fuses.revoked * 2 ^ 16
        + s.pkgId,
      s.fuses.serial, s.epoch * 2 ^ 48 + s.tick,
      s.fget R.FLT_STATUS F.FLT_STATUS_OOS * 2 ^ 63 + s.fget R.FLT_STATUS F.FLT_STATUS_RESET_REASON * 2 ^ 61, 0, 0, 0]
    ++ toWords 64 8 nonce ++ ((List.range 8).map fun w => s.fget (R.CFG_DIGEST w) F.CFG_DIGEST_DIGEST)
    ++ toWords 64 8 s.ownerDigest)

/-- An attestation ends with a status; DONE is set where the report has been written. -/
def State.attestEnd (s : State) (status : Nat) : State :=
  let g := R.SEC_ATTEST_STAT
  let s1 := ({ s with attest := none }.fset g F.SEC_ATTEST_STAT_BUSY 0).fset g F.SEC_ATTEST_STAT_STATUS status
  if status = 0 then s1.fset g F.SEC_ATTEST_STAT_DONE 1 else s1

/-- The status of an access of the attestation unit (R19). -/
def Ld.attestStatus : Ld → Nat
  | .data => 4
  | e => e.status

/-- ATTEST_REPORT_DONE (R455). -/
def execAttestReportDone (s : State) : Host.Outcome State Fault Refusal :=
  .next (
    match s.attest with
    | none => s
    | some value =>
      let a := bits value 6 50 * 64
      if !extentOk a 64 || !extentOk (a + 64) 512 then s.attestEnd 2
      else
        match s.idKey, s.load Reach.server a 64 with
        | none, _ => s.attestEnd 4
        | some key, (.ok nonce, s1) =>
          let r := s1.report nonce
          let e := s1.store Reach.server (a + 64) 512 (r + 2 ^ 2048 * (Config.ecdsaSign key (leBytes 256 r) % 2 ^ 1056))
          e.2.attestEnd e.1.attestStatus
        | some _, (e, s1) => s1.attestEnd e.attestStatus)

/-! ### Server cores (R445) -/

/-- A server core starts in machine mode. -/
def State.startServer (s : State) (c : Nat) (x : Srv) : State := { s with servers := s.servers.insert c x }

/-- The effect of a write of PKG_CORE_RELm (R13, R16, R445): bits [63:32] of m = 1 are reserved. Cores are held until start-up has
completed. -/
def coreRelEffect (m value : Nat) (s : State) : State :=
  let w := if m = 1 then value % 2 ^ 32 else value % 2 ^ 64
  let new := (List.range 64).filter fun k => bit w k && !bit (s.fget (R.PKG_CORE_RELM m) F.PKG_CORE_RELM_CORES) k
  let s1 := s.fOr (R.PKG_CORE_RELM m) F.PKG_CORE_RELM_CORES w
  if s.fbit R.PKG_STATUS F.PKG_STATUS_READY then
    new.foldl (fun s k => s.startServer (64 * m + k) { pc := s.fget R.PKG_CORE_REL F.PKG_CORE_REL_ENTRY * 4 }) s1
  else s1

/-- CORE_RELEASE (R445). -/
def execCoreRelease (a : Agent) (m value : Nat) (s : State) : Host.Outcome State Fault Refusal :=
  s.runIf (instrWf (.coreRelease a m value)) (s.writeReg a .pkg 0 (R.PKG_CORE_RELM m) (coreRelEffect m value))

end Sys2Proof.Machine
end

