-- ==== Sys2Proof/Machine/Counters.lean ====
section
/-!
DEFINITION. Counters.lean: performance counters, byte-counter windows, the sampling buffer, and the lifetime totals of each second
(spec/18_counters_and_lifetime_log.md, R456 to R466).
-/

namespace Sys2Proof.Machine

/-- The hart that makes an access is in user mode. -/
def isUser : Agent → Bool
  | .server _ u => u
  | .control _ u => u
  | _ => false

/-- A user-mode access to a counter or sampling register of a unit is served (R464): `b` and `u` name its block. -/
def State.userReads (s : State) (b : Blk) (u : Nat) : Bool :=
  let part (p : Option Nat) : Bool := match p with | some q => s.fbit (R.SCH_PMC_CTL q) F.SCH_PMC_CTL_USER_READ | none => false
  match b with
  | .til => part (s.partOfTile u)
  | .hrd => part (s.partOfHerd u)
  | .pkg => false
  | .sch => false
  | _ => s.fbit R.PKG_PMC_CTL F.PKG_PMC_CTL_USER_SHARED

/-- The offset of the event register of programmable counter k of a unit: tiles 0 to 191, then herds. -/
def pmcReg (unit k : Nat) : Nat := if unit < 192 then R.PMC_TEVT unit k else R.PMC_HEVT (unit - 192) k

/-- The context that runs on the partition of a unit. -/
def State.pmcCtx (s : State) (unit : Nat) : Option Nat :=
  (s.ctxOfHerd (if unit < 192 then unit / 12 else unit - 192)).map fun e => e.2.ctx

/-- PMC_OVERFLOW (R457): a counter that counts passes its largest value and wraps. Units 192 to 207 are the herds. -/
def execPmcOverflow (unit k : Nat) (s : State) : Host.Outcome State Fault Refusal :=
  s.runIf (instrWf (.pmcOverflow unit k)) (
    let e := pmcReg unit k
    if s.pmcOn e (s.pmcCtx unit) && s.fget e F.PMC_TEVT_EVENT != 0 then (s.fset (e + 8) F.PMC_TCNT_COUNT 0).pmcWrap e else s)

/-- The effect of a write of PMC_SMP_PTR.RD (R463, R464). -/
def smpRdEffect (a : Agent) (t value : Nat) (s : State) : State :=
  let g := R.PMC_SMP_PTR t
  let rd := bits value 0 10
  let wr := s.fget g F.PMC_SMP_PTR_WR
  if isUser a then s.badWrite a g
  else
    let fill := if s.fget g F.PMC_SMP_PTR_FILL = 1024 ∧ rd = wr then 1024 else (wr + 1024 - rd) % 1024
    (s.fset g F.PMC_SMP_PTR_RD rd).fset g F.PMC_SMP_PTR_FILL fill

/-- SAMPLE_CONSUME (R463). -/
def execSampleConsume (a : Agent) (t value : Nat) (s : State) : Host.Outcome State Fault Refusal :=
  s.runIf (instrWf (.sampleConsume a t value)) (s.writeReg a .til t (R.PMC_SMP_PTR t) (smpRdEffect a t value))

/-- A byte-counter set latches its window (R461). -/
def BwSet.latch (x : BwSet) (n : Nat) : BwSet :=
  { x with wa := (x.a + 2 ^ 64 - x.a0) % 2 ^ 48, wb := (x.b + 2 ^ 64 - x.b0) % 2 ^ 48, a0 := x.a, b0 := x.b, last := n, part := x.cut,
           cut := false }

/-- BW_WINDOW_LATCH (R461): every set whose window ends at the present boundary latches it, once. -/
def execBwWindowLatch (s : State) : Host.Outcome State Fault Refusal :=
  .next (
    let n := s.tick
    if s.atBoundary 3 then
      { s with bwEnd := n,
               bw := s.bw.map fun (e : Nat × BwSet) => (e.1, if n % (e.2.win + 1) = 0 ∧ e.2.last ≠ n then e.2.latch n else e.2) }
    else s)

/-- The bin of a temperature (R466). -/
def tempBin (t : Nat) : Nat := min 63 (t / 2)

/-- The hottest die sensor, and the hottest stack sensor, in °C. -/
def State.hotDie (s : State) : Nat := ((s.pwr.temps.take 3).foldl max 0)
def State.hotStack (s : State) : Nat := s.pwr.temps.getD 3 0

/-- The sensors read these temperatures: host die, die 0, die 1, stacks (R466, R475). -/
def State.sense (s : State) (l : List Nat) : State :=
  let s1 := { s with pwr := { s.pwr with temps := l } }
  (s1.fset R.PWR_STATUS F.PWR_STATUS_TJ_MAX (min 255 s1.hotDie)).fset R.PWR_STATUS F.PWR_STATUS_TSTK_MAX (min 255 s1.hotStack)

/-- One second of power: the energy counts in kJ (R465). -/
def State.spend (s : State) (watts : Nat) : State :=
  { s with joules := (s.joules + watts) % 1000 }.lifeAdd 34 ((s.joules + watts) / 1000)

/-- LIFETIME_SECOND (R465, R466). -/
def execLifetimeSecond (inp : Sensors) (s : State) : Host.Outcome State Fault Refusal :=
  .next (
    let s1 := (s.sense [inp.host, inp.die0, inp.die1, inp.stack]).lifeAdd 1 1
    let s2 := (((s1.histAdd 17 (tempBin inp.host) 1).histAdd 18 (tempBin inp.die0) 1).histAdd 19 (tempBin inp.die1) 1).histAdd 20
      (tempBin inp.stack) 1
    let s3 := ((s2.histAdd 22 (min 63 (inp.power / 50)) 1).histAdd 27 (s2.fget R.HLT_SCORE F.HLT_SCORE_SCORE / 4) 1).spend inp.power
    s3.fset (R.LIF_CNT 36) F.LIF_CNT_VALUE
      (max (s3.fget (R.LIF_CNT 36) F.LIF_CNT_VALUE) (max s3.hotDie s3.hotStack)))

end Sys2Proof.Machine
end

