-- ==== Sys2Proof/Machine/Ethernet.lean ====
section
/-!
DEFINITION. Ethernet.lean: the Ethernet ports, their queue pairs, and inbound device accesses (R66, R348, R357 to R360, R364).
-/

namespace Sys2Proof.Machine

/-- Count a dropped frame. -/
def State.ethDrop (s : State) (e : Nat) : State := s.fadd (R.ETH_ERR e) F.ETH_ERR_DROPS 1
/-! ### Frames (R66, R357, R359) -/

/-- A CE mark is seen and counted, and answered with a congestion notification; the fallback mode ignores it (R359, R360). -/
def State.ceMark (s : State) (e : Nat) (f : EthFrame) : State :=
  if f.ce && !s.lossy e then
    let s1 := (s.fset (R.ETH_STATUS e) F.ETH_STATUS_ECN_SEEN 1).fadd (R.ETH_ERR e) F.ETH_ERR_ECN_CE 1
    s1.when f.roce fun s => s.qpSend e f.qpn .cnp
  else s

/-- A flow-control frame stops priorities and lets others go on, where the port honours it (R357, R359, R360). -/
def State.pfcIn (s : State) (e : Nat) (f : EthFrame) : State :=
  let s1 := s.fset (R.ETH_STATUS e) F.ETH_STATUS_PFC_SEEN 1
  if s.lossy e || !s.fbit (R.ETH_CTL e) F.ETH_CTL_PFC_EN then s1
  else
    let keep := (s.eth e).stopped - ((s.eth e).stopped &&& f.xon)
    (s1.setEth e { s1.eth e with stopped := (keep ||| f.xoff) % 256 }).qpDrainAll e

/-- What the port does not support, which it drops (R357): a frame whose check, form or length is wrong, a pause frame, stacked tags, and a
RoCEv2 packet with IPv4 options, IPv6 extension headers or fragments, or for no queue pair. -/
def frameDrops (f : EthFrame) : Bool :=
  !f.good || decide (f.bytes < 64) || decide (9216 < f.bytes) || f.pause || decide (2 ≤ f.tags)
    || (f.roce && (f.ipBad || decide (qpCount ≤ f.qpn)))

/-- A frame that the MAC takes (R357): a flow-control frame acts; otherwise a time stamp is taken, a frame that is not RoCEv2 goes to the raw
receive queue, and an acknowledgement ends what it covers. -/
def State.frameIn (s : State) (e : Nat) (f : EthFrame) : State :=
  if frameDrops f then s.ethDrop e
  else if f.pfc then s.pfcIn e f
  else
    let x := s.eth e
    let y := { x with stamps := if f.ptpEvent then x.stamps ++ [s.clk.tb] else x.stamps,
                      raw := if f.roce then x.raw else x.raw ++ [f] }
    let s1 := (s.setEth e y).ceMark e f
    match f.roce, f.ack with
    | true, some psn => s1.qpAck e f.qpn psn
    | _, _ => s1

/-- ETH_FRAME_RX (R357). -/
def execEthFrameRx (port : Nat) (frame : EthFrame) (s : State) : Host.Outcome State Fault Refusal :=
  s.runIf (instrWf (.ethFrameRx port frame)) (
    if s.ethUp port then (s.bwAdd (B.eth port + 0x100) 0 frame.bytes).frameIn port frame else s)

/-- ETH_LINK_DOWN (R357, R427, R465, R466). -/
def execEthLinkDown (port : Nat) (s : State) : Host.Outcome State Fault Refusal :=
  s.runIf (decide (port < 8)) (
    if s.ethUp port then
      ((((s.setEth port { s.eth port with stopped := 0 }).fset (R.ETH_STATUS port) F.ETH_STATUS_UP 0).lifeAdd 26 1).histAdd 25 port
        1).health 1 1
    else s)

/-- ETH_LINK_UP (R357): what was seen since link up starts again. -/
def execEthLinkUp (port : Nat) (s : State) : Host.Outcome State Fault Refusal :=
  s.runIf (decide (port < 8)) (
    if s.fbit (R.ETH_CTL port) F.ETH_CTL_EN then
      ((s.fset (R.ETH_STATUS port) F.ETH_STATUS_UP 1).fset (R.ETH_STATUS port) F.ETH_STATUS_PFC_SEEN 0).fset
        (R.ETH_STATUS port) F.ETH_STATUS_ECN_SEEN 0
    else s)

/-! ### Queue pairs (R348, R358) -/

/-- The context of a queue pair, 256 bytes: what is done with it, where there is one. A packet for no pair is dropped, and so is one whose
pair's context cannot be read, which ends the operation of the port's DMA (R36, R71, R358). The port reads its contexts for no partition
(DESIGN CHOICE, log entry 110). -/
def State.qpContext (s : State) (e q : Nat) (f : Nat → State → State) : State :=
  if q < qpCount then
    match s.load (Reach.eth none e) (s.fget (R.ETH_QPC_BASE e) F.ETH_QPC_BASE_ADDR * 64 + 256 * q) 256 with
    | (.ok v, s1) => f v s1
    | (er, s1) => (s1.ethEnds e (ldStatus er)).ethDrop e
  else s.ethDrop e

/-- A packet that the DMA of a port serves while its link is up, by its queue pair's context, as work that may wait (R343, R358). -/
def State.roceIn (s : State) (e q : Nat) (f : Nat → State → State) : State :=
  if s.ethUp e then s.work (ethUnit e) fun s => s.qpContext e q f else s

/-- A SEND between collective engines: a STOT (R348), a chain message, or something else, which its user receives. -/
def State.collSendIn (s : State) (e q : Nat) (payload : List Nat) : State :=
  match Config.ethStot payload with
  | some slot => s.stotArrive (e / 4) none slot
  | none =>
    match Config.ethColl payload with
    | some (g, at0, part) => { s with collIn := s.collIn ++ [{ die := e / 4, group := g, at0 := at0, part := part }] }
    | none => s.setQp e q { s.qp e q with rx := (s.qp e q).rx ++ [payload] }

/-- A SEND is acknowledged and delivered to the user that its queue pair's context names. -/
def State.sendServe (e q : Nat) (payload : List Nat) (c : Nat) (s : State) : State :=
  let s1 := s.qpSend e q .ack
  if Config.qpUser c = 0 then s1.collSendIn e q payload
  else s1.setQp e q { s1.qp e q with rx := (s1.qp e q).rx ++ [payload] }

/-- ROCE_SEND (R348, R357). -/
def execRoceSend (port qpn : Nat) (payload : List Nat) (s : State) : Host.Outcome State Fault Refusal :=
  s.runIf (instrWf (.roceSend port qpn payload)) ((s.roceIn port qpn (State.sendServe port qpn payload)).collGo)

/-- A WRITE or READ outside the registered regions, or that memory refuses, is answered with a remote access error and counted
(R358). -/
def State.roceRefuse (s : State) (e q : Nat) : State := (s.ethDrop e).qpSend e q .accessError

/-- An access of the port's DMA to memory fails: its operation ends with a status (R36, R71), and the packet is refused. -/
def State.roceFails (s : State) (e q : Nat) (er : Ld) : State := (s.ethEnds e (ldStatus er)).roceRefuse e q

/-- A WRITE of a region that its queue pair's context registers. -/
def State.writeServe (e q addr : Nat) (data : List Nat) (c : Nat) (s : State) : State :=
  match Config.qpRegion c addr data.length with
  | none => s.roceRefuse e q
  | some p =>
    match s.store (Reach.eth (some p) e) addr data.length (packCodes 8 data) with
    | (.ok _, s1) => s1.qpSend e q .ack
    | (er, s1) => s1.roceFails e q er

/-- ROCE_WRITE (R358). -/
def execRoceWrite (port qpn addr : Nat) (data : List Nat) (s : State) : Host.Outcome State Fault Refusal :=
  s.runIf (instrWf (.roceWrite port qpn addr data)) (s.roceIn port qpn (State.writeServe port qpn addr data))

/-- The data of a READ leave in packets of the path MTU (R358). -/
def State.readAnswer (s : State) (e q : Nat) (data : List Nat) : State :=
  (mtuParts data).foldl (fun s p => s.qpOut e q { out := .readData p.1, more := p.2 }) s

/-- A READ of a region that its queue pair's context registers. -/
def State.readServe (e q addr len c : Nat) (s : State) : State :=
  match Config.qpRegion c addr len with
  | none => s.roceRefuse e q
  | some p =>
    match s.load (Reach.eth (some p) e) addr len with
    | (.ok v, s1) => (s1.charge p 2 ((len + 63) / 64) 1).readAnswer e q ((List.range len).map fun i => bits v (8 * i) 8)
    | (er, s1) => s1.roceFails e q er

/-- ROCE_READ (R358). -/
def execRoceRead (port qpn addr len : Nat) (s : State) : Host.Outcome State Fault Refusal :=
  s.runIf (instrWf (.roceRead port qpn addr len)) (s.roceIn port qpn (State.readServe port qpn addr len))

/-- CNP_RX (R359): the rate falls by ALPHA / 256 of itself; the fallback mode ignores congestion marks (R360). -/
def execCnpRx (port qpn : Nat) (s : State) : Host.Outcome State Fault Refusal :=
  s.runIf (instrWf (.cnpRx port qpn)) (
    if !s.ethUp port then s
    else if qpCount ≤ qpn then s.ethDrop port
    else
      let s1 := s.fadd (R.ETH_ERR port) F.ETH_ERR_CNP_RX 1
      let q := s1.qp port qpn
      if s1.lossy port then s1
      else s1.setQp port qpn { q with rate := q.rate - q.rate * s1.fget (R.ETH_CC port) F.ETH_CC_ALPHA / 256 })

/-- RATE_RECOVER (R359): up by 1/32 of line rate, to line rate at most. -/
def execRateRecover (port qpn : Nat) (s : State) : Host.Outcome State Fault Refusal :=
  s.runIf (instrWf (.rateRecover port qpn)) (
    if qpn < qpCount ∧ s.lossy port = false then
      s.setQp port qpn { s.qp port qpn with rate := min lineRate ((s.qp port qpn).rate + lineRate / 32) }
    else s)

/-- ROCE_RETRANSMIT (R359): a sequence NAK or a timeout names the first packet to send again; what precedes it has arrived, and
it and all after it are sent again. -/
def execRoceRetransmit (port qpn psn : Nat) (s : State) : Host.Outcome State Fault Refusal :=
  s.runIf (instrWf (.roceRetransmit port qpn psn)) (
    let q := s.qp port qpn
    if qpn < qpCount ∧ (q.unacked.any fun x => x.psn == some psn) then
      let l := q.unacked.dropWhile fun x => x.psn != some psn
      let s1 := l.foldl (fun s k => s.qpOut port qpn k) (s.setQp port qpn { q with unacked := l })
      State.qpDrain port qpn q.wait.length (s1.fadd (R.ETH_ERR port) F.ETH_ERR_RETX l.length)
    else s)

/-! ### PCIe (R364) -/

/-- An inbound device access at the address that the IOMMU has given it, in the unified region for every partition. -/
def State.rootAccess (s : State) (rp : Nat) (write : Bool) (a : Nat) (data : List Nat) : State :=
  if write then
    match s.store (Reach.pcie rp) a data.length (packCodes 8 data) with
    | (.ok _, s1) => s1.answer .ok 0
    | (_, s1) => s1.answer .accessFault 0
  else
    match s.load (Reach.pcie rp) a data.length with
    | (.ok v, s1) => s1.answer .ok v
    | (_, s1) => s1.answer .accessFault 0

/-- PCIE_INBOUND (R363, R364): a message-signalled interrupt goes to its server core; any other access goes where the IOMMU translates its
address. A read asks for as many bytes as `data` holds. -/
def execPcieInbound (rp : Nat) (write : Bool) (addr : Nat) (data : List Nat) (s : State) : Host.Outcome State Fault Refusal :=
  s.runIf (instrWf (.pcieInbound rp write addr data)) (
    match (Config.msiTarget rp addr).filter fun _ => write with
    | some c => { s with msis := s.msis ++ [(c, packCodes 8 data)] }.answer .ok 0
    | none =>
      match Config.iommu rp (Map.get [] s.pcieCfg rp) write addr with
      | none => s.answer .accessFault 0
      | some a => s.work (rootUnit rp) fun s => s.rootAccess rp write a data)

end Sys2Proof.Machine
end

