-- ==== Sys2Proof/Machine/Exchange.lean ====
section
/-!
DEFINITION. Exchange.lean: the commit exchange of a step, a collective of its own operation (R218, R247, R248, R250, R354 to R356).
-/

namespace Sys2Proof.Machine

/-- The local values of the exchange (R218): they stand as the result where no exchange runs. -/
def Slot.localRes (x : Slot) (now : Nat) : XchgRes :=
  { status := 0, nf := x.step.nf, blocks := x.step.blocks, imax := now,
    slots := x.step.stats.map fun r => (r.slot, r.bins, r.maxexp.getD (-512)) }

/-- The words that this member brings to the exchange (R356): a slot without statistics brings empty bins and the least MAXEXP. -/
def Slot.xchgWords (x : Slot) (now : Nat) : List Nat :=
  [x.step.nf, x.step.blocks, now] ++ x.pgSlots.flatMap fun n =>
    match x.step.stats.find? fun r => r.slot == n with
    | some r => (List.range 32).map (fun b => r.bins.getD b 0) ++ [ofInt 64 (r.maxexp.getD (-512))]
    | none => List.replicate 32 0 ++ [ofInt 64 (-512)]

/-- The die whose collective engine carries the exchange of a partition: that of its lowest herd (log entry 107). -/
def State.xchgDie (s : State) (p : Nat) : Nat := (s.herdList p).headD 0 / 8

/-- The exchange of a step is accepted by the engine, on the group XGROUP (R218, R354, R356). -/
def State.xchgIssue (s : State) (p : Nat) (x : Slot) : State :=
  let d := s.xchgDie p
  let g := x.fget R.SCH_NUM_CTL F.SCH_NUM_CTL_XGROUP
  let c : Coll := { op := 3, rop := 0xF, group := g, sem := 0, part := p, ctx := x.ctx, tile := 0, sdesc := {}, ddesc := {},
                    tag := s.freeTag.getD 0, words := x.xchgWords s.tick, pg := x.pgSlots }
  s.collEnter d c

/-- The exchange runs (R218). -/
def Slot.exchanges (x : Slot) : Bool := x.fget R.SCH_NUM_CTL F.SCH_NUM_CTL_XCHG_EN == 1

/-- STEP_COMPLETE (R247): the exchange waits for room at its engine, and at a fence the step scheduler completes none (R47). -/
def execStepComplete (p slot : Nat) (s : State) : Host.Outcome State Fault Refusal :=
  s.runIf (instrWf (.stepComplete p slot)) (
    match s.slot? p slot with
    | none => s
    | some x =>
      if x.step.live && x.step.abort.isNone && x.step.issued.isNone && x.stepOver && s.statsIn p x && !s.fenced 5 0 then
        if !x.exchanges then
          s.setSlot p slot { x with step := { x.step with issued := some s.tick, result := some (x.localRes s.tick) } }
        else if s.collRoom (s.xchgDie p) p then
          (s.setSlot p slot { x with step := { x.step with issued := some s.tick } }).xchgIssue p x
        else s
      else s)

/-- The exchange does not complete (R250): `cause` is the regroup cause of R421. -/
def State.exchangeFails (s : State) (p k issued cause : Nat) (x : Slot) : State :=
  let s1 := s.setSlot p k (x.fset R.SCH_COMMIT F.SCH_COMMIT_OUTCOME 4)
  let s2 := s1.abortAndStot p k { outcome := 4, regroup := cause }
  s2.event (B.sch p + R.SCH_COMMIT) (some F.SCH_COMMIT_OUTCOME) [issued]

/-- EXCHANGE_RESULT (R248, R356): the result of the exchange reaches the step scheduler; an exchange that fails is handled as its
timeout. -/
def execExchangeResult (p slot : Nat) (res : XchgRes) (s : State) : Host.Outcome State Fault Refusal :=
  s.runIf (instrWf (.exchangeResult p slot res)) (
    match s.slot? p slot with
    | none => s
    | some x =>
      match x.step.live && x.step.abort.isNone && x.step.result.isNone && x.step.xres == some res, x.step.issued with
      | true, some i =>
        if res.status ≠ 0 then s.exchangeFails p slot i (if res.status = 5 then 2 else 3) x
        else
          let y := { x with step := { x.step with result := some res } }
          s.setSlot p slot
            (if x.commitPoint res ≤ s.tick then y.fadd R.SCH_COMMIT F.SCH_COMMIT_LATE_RESULTS 1 else y)
      | _, _ => s)

/-- EXCHANGE_TIMEOUT (R250). -/
def execExchangeTimeout (p slot : Nat) (s : State) : Host.Outcome State Fault Refusal :=
  s.runIf (instrWf (.exchangeTimeout p slot)) (
    match s.slot? p slot with
    | none => s
    | some x =>
      match x.step.live && x.step.abort.isNone && x.step.result.isNone, x.step.issued with
      | true, some i =>
        if i + x.pget F.SCH_PIPE_CTL_XCH_TICKS ≤ s.tick then s.exchangeFails p slot i 3 x else s
      | _, _ => s)

end Sys2Proof.Machine
end

