-- ==== Sys2Proof/Machine/Power.lean ====
section
/-!
DEFINITION. Power.lean: the supplies, the control lands, throttling, the addresses of the management target, and the instructions of
the test access port that select boundary registers (spec/19_electrical_package_ordering.md, R470 to R480).
-/

namespace Sys2Proof.Machine

/-- Change what the power unit holds. -/
def State.modPwr (s : State) (f : Pwr → Pwr) : State := { s with pwr := f s.pwr }

/-! ### RESET_L and PWR_OK (R472) -/

/-- RESET_L_ASSERT (R472): a pulse shorter than 10 µs is ignored. -/
def execResetLAssert (ns : Nat) (s : State) : Host.Outcome State Fault Refusal :=
  s.runIf (decide (ns < 2 ^ 64)) (
    if ns < 10000 ∨ s.pwr.resetL = true then s
    else if s.pwr.pwrOk then (s.modPwr fun w => { w with resetL := true, reason := 1 }).resetDue 6 0
    else s.modPwr fun w => { w with resetL := true })

/-- RESET_L_DEASSERT (R443): start-up may begin. -/
def execResetLDeassert (s : State) : Host.Outcome State Fault Refusal := .next (s.modPwr fun w => { w with resetL := false })

/-- PWR_OK_FALL (R472, R476): every domain is fenced, and THERMTRIP_L is released. -/
def execPwrOkFall (s : State) : Host.Outcome State Fault Refusal :=
  .next (if s.pwr.pwrOk then (s.modPwr fun w => { w with pwrOk := false, trip := false }).fenceNow 6 0 else s)

/-- The package at a power-on (R15, R472): what keeps its content without supplies, and the lands. -/
def State.powerOn (s : State) : State :=
  { State.reset with
    pending := s.pending, free := s.free, rsp := s.rsp, hard := s.hard, spareHard := s.spareHard, spent := s.spent,
    fuseList := s.fuseList, fuseRows := s.fuseRows, fuseCols := s.fuseCols,
    dieRepairs := s.dieRepairs, flash := s.flash, fuses := s.fuses, pwr := { pwrOk := true, resetL := s.pwr.resetL } }

/-- PWR_OK_RISE (R472): the start-up that follows counts as a power-on. -/
def execPwrOkRise (s : State) : Host.Outcome State Fault Refusal := .next (if s.pwr.pwrOk then s else s.powerOn)

/-! ### Issue shares (R475) -/

/-- The power-cap limit in force. -/
def State.capLimit (s : State) : Nat := if s.fbit R.PWR_CTRL F.PWR_CTRL_CAP_EN then s.pwr.cap else 16
/-- The effective share of a die: the lowest of its limits, never below 4. -/
def State.share (s : State) (d : Nat) : Nat :=
  max 4 (min (if d = 0 then s.pwr.therm0 else s.pwr.therm1) (min s.capLimit s.pwr.brake))

/-- Show the shares and what limits them. -/
def State.showShares (s : State) : State :=
  let g := R.PWR_STATUS
  (((s.fset g F.PWR_STATUS_SHARE0 (s.share 0)).fset g F.PWR_STATUS_SHARE1 (s.share 1)).fset g F.PWR_STATUS_CAP_LIMIT
    (b2n (decide (s.capLimit < 16)))).fset g F.PWR_STATUS_THERM_LIMIT (b2n (decide (s.pwr.therm0 < 16) || decide (s.pwr.therm1 < 16)))

/-- A limit lowered, and one raised, by 1. -/
def lower (n : Nat) : Nat := max 4 (n - 1)
def raise (n : Nat) : Nat := min 16 (n + 1)

/-- The thermal limit of a die after a boundary, from its hottest sensor. -/
def thermStep (limit hot throttle : Nat) : Nat := if throttle ≤ hot then lower limit else if hot + 3 ≤ throttle then raise limit else limit

/-- Thermal throttling at a tick boundary (R475). -/
def State.thermal (s : State) : State :=
  let c := s.fget R.PWR_CTRL F.PWR_CTRL_THROTTLE_C
  (s.modPwr fun w => { w with therm0 := thermStep w.therm0 (w.temps.getD 1 0) c, therm1 := thermStep w.therm1 (w.temps.getD 2 0) c }).showShares

/-- POWER_CAP_UPDATE (R475): the average of the last 1 ms, and a step of the cap limit. -/
def execPowerCapUpdate (avg : Nat) (s : State) : Host.Outcome State Fault Refusal :=
  s.runIf (decide (avg < 65536)) (
    let s1 := s.fset R.PWR_STATUS F.PWR_STATUS_POWER_W avg
    let cap := s.fget R.PWR_CTRL F.PWR_CTRL_CAP_W
    let step (n : Nat) : Nat := if cap < avg then lower n else if 100 * avg < 95 * cap then raise n else n
    if s.fbit R.PWR_CTRL F.PWR_CTRL_CAP_EN then (s1.modPwr fun w => { w with cap := step w.cap }).showShares else s1)

/-- POWER_BRAKE (R475). -/
def execPowerBrake (s : State) : Host.Outcome State Fault Refusal :=
  .next (((s.modPwr fun w => { w with brake := s.fget R.PWR_CTRL F.PWR_CTRL_BRAKE_SHARE, brakeRise := none }).fset R.PWR_STATUS
    F.PWR_STATUS_BRAKE 1).showShares)

/-- PWRBRK_L_RISE (R475). -/
def execPwrbrkLRise (s : State) : Host.Outcome State Fault Refusal :=
  .next (if s.fbit R.PWR_STATUS F.PWR_STATUS_BRAKE then
      (s.modPwr fun w => { w with brakeRise := some s.clk.tb }).fset R.PWR_STATUS F.PWR_STATUS_BRAKE 0
    else s)

/-- BRAKE_RECOVERY (R475): a step of 100 µs after PWRBRK_L has been high for 1 ms. -/
def execBrakeRecovery (s : State) : Host.Outcome State Fault Refusal :=
  .next (match s.pwr.brakeRise with
    | some t => (s.modPwr fun w =>
        { w with brake := raise w.brake, brakeRise := if raise w.brake = 16 then none else some t }).showShares
    | none => s)

/-! ### Droops, rails and THERMTRIP (R470, R474, R476) -/

/-- DROOP_EVENT (R474): rails 0 to 8, deeper than DROOP_MV, once until its end. -/
def execDroopEvent (rail depth : Nat) (s : State) : Host.Outcome State Fault Refusal :=
  s.runIf (decide (rail < 11) && decide (depth < 65536)) (
    if 8 < rail ∨ depth ≤ s.fget R.PWR_CTRL F.PWR_CTRL_DROOP_MV ∨ s.pwr.droops.contains rail then s
    else
      let s1 := (s.modPwr fun w => { w with droops := w.droops ++ [rail] }).fadd R.PWR_DROOP F.PWR_DROOP_COUNT 1
      let s2 := (s1.fset R.PWR_DROOP F.PWR_DROOP_LAST_RAIL rail).fset R.PWR_DROOP F.PWR_DROOP_LAST_DEPTH_MV depth
      ((s2.lifeAdd 22 1).histAdd 21 (min 63 (depth / 5)) 1).health 2 1)

/-- DROOP_EVENT_END (R474). -/
def execDroopEventEnd (rail : Nat) (s : State) : Host.Outcome State Fault Refusal :=
  s.runIf (decide (rail < 11)) (s.modPwr fun w => { w with droops := w.droops.erase rail })

/-- RAIL_FAULT (R470, R479). -/
def execRailFault (n : Nat) (s : State) : Host.Outcome State Fault Refusal :=
  s.runIf (decide (n < 11)) (
    if bit (s.fget R.PWR_STATUS F.PWR_STATUS_RAIL_FAULT) n then s
    else (s.fOr R.PWR_STATUS F.PWR_STATUS_RAIL_FAULT (2 ^ n)).alert)

/-- RAIL_FAULT_CLEAR (R470). -/
def execRailFaultClear (n : Nat) (s : State) : Host.Outcome State Fault Refusal :=
  s.runIf (decide (n < 11))
    (s.fset R.PWR_STATUS F.PWR_STATUS_RAIL_FAULT (setBits (s.fget R.PWR_STATUS F.PWR_STATUS_RAIL_FAULT) n 1 0))

/-- THERMTRIP (R476, R479). -/
def execThermtrip (sensor : Nat) (s : State) : Host.Outcome State Fault Refusal :=
  s.runIf (decide (sensor < 64)) (
    if s.pwr.trip then s
    else (((s.modPwr fun w => { w with trip := true }).fset R.PWR_STATUS F.PWR_STATUS_THERMTRIP 1).fenceNow 6 0).alert)

/-! ### The management target (R479) -/

/-- The target takes a dynamic address, where it has none. -/
def State.takeAddr (s : State) (addr : Nat) : State :=
  if s.mgmt.dyn.isSome then s else { s with mgmt := { s.mgmt with dyn := some (addr % 128) } }

/-- SETDASA (R479). -/
def execSetdasa (addr : Nat) (s : State) : Host.Outcome State Fault Refusal := s.runIf (decide (addr < 2 ^ 56)) (s.takeAddr addr)

/-- ENTDAA (R479). -/
def execEntdaa (addr : Nat) (s : State) : Host.Outcome State Fault Refusal := s.runIf (decide (addr < 2 ^ 56)) (s.takeAddr addr)

/-! ### The test access port (R480) -/

/-- An instruction takes force: the data register that it selects, and the lands that the cells drive. -/
def State.tapSelect (s : State) (i : TapInstr) (dr : Nat) (driven : List Nat) : State :=
  { s with tap := { s.tap with instr := i, dr := dr, driven := driven } }

/-- IDCODE (R480). -/
def tapIdcode : Nat := 0x1416094B

/-- BYPASS (R480). -/
def execBypass (s : State) : Host.Outcome State Fault Refusal := .next (s.tapSelect .bypass 0 [])

/-- IDCODE (R480). -/
def execIdcode (s : State) : Host.Outcome State Fault Refusal := .next ((s.answer .ok tapIdcode).tapSelect .idcode tapIdcode [])

/-- SAMPLE_PRELOAD (R480): what the lands show is open (log entry 2), and the cells are preloaded. -/
def execSamplePreload (cells : List Nat) (s : State) : Host.Outcome State Fault Refusal :=
  s.runIf (cells.all fun x => decide (x < 2)) (
    let s1 := s.draw.2.tapSelect .sample s.draw.1 []
    { s1 with tap := { s1.tap with cells := cells } })

/-- EXTEST (R480): the cells drive their lands, and capture them. -/
def execExtest (s : State) : Host.Outcome State Fault Refusal := .next (s.draw.2.tapSelect .extest s.draw.1 s.tap.cells)

/-- EXTEST_PULSE (R480): on the AC-coupled lanes. -/
def execExtestPulse (s : State) : Host.Outcome State Fault Refusal := .next (s.draw.2.tapSelect .pulse s.draw.1 s.tap.cells)

/-- EXTEST_TRAIN (R480): on the AC-coupled lanes. -/
def execExtestTrain (s : State) : Host.Outcome State Fault Refusal := .next (s.draw.2.tapSelect .train s.draw.1 s.tap.cells)

end Sys2Proof.Machine
end

