-- ==== Sys2Proof/Machine/TileCtl.lean ====
section
/-!
DEFINITION. TileCtl.lean: the CTL class, the parameter slots, and the SYN class (R150 to R154, R171, R175, R181, R189, R190).
-/

namespace Sys2Proof.Machine

/-! ### The dispatcher -/

/-- NOP (R171). -/
def execNop (t idx : Nat) (s : State) : Host.Outcome State Fault Refusal :=
  s.runIf (instrWf (.nop t idx)) (s.issue t idx .nop fun _ s => s.taken t)

/-- VBASE in the dispatcher: the BASE that each member's scalar gives, or the end of the segment with VIEW_RANGE (R163, R171). -/
def State.vbase (s : State) (t idx view sreg : Nat) (r : Run) : State :=
  let base (u : Nat) : Nat := (s.tile u).sval sreg % 2 ^ 22
  let bad := r.anyMember fun m u => !({ ((r.viewsAt idx m).getD view {}) with base := base u } : View).valid
  if bad then s.segFault t r idx 8 8 0
  else (s.modRun t fun x => { x with vbases := x.vbases ++ [(idx, view, r.members.map base)] }).taken t

/-- VBASE (R171). -/
def execVbase (t idx view sreg : Nat) (s : State) : Host.Outcome State Fault Refusal :=
  s.runIf (instrWf (.vbase t idx view sreg)) (s.issue t idx (.vbase view sreg) fun r s => s.vbase t idx view sreg r)

/-- TRAP (R171). -/
def execTrap (t idx code : Nat) (s : State) : Host.Outcome State Fault Refusal :=
  s.runIf (instrWf (.trap t idx code)) (s.issue t idx (.trap code) fun r s => s.segFault t r idx 9 9 code)

/-- A parameter slot is written in the dispatcher (R175). -/
def State.writeSlot (s : State) (t idx slot : Nat) (f : PSlot → PSlot) (r : Run) : State :=
  let ps := r.slotsAt idx
  (s.modRun t fun x => { x with pslots := x.pslots ++ [(idx, setAt ps slot (f (ps.getD slot {})))] }).taken t

/-- MSPAN (R175). -/
def execMspan (t idx : Nat) (ops : SpanOps) (s : State) : Host.Outcome State Fault Refusal :=
  s.runIf (instrWf (.mspan t idx ops)) (s.issue t idx (.mspan ops) fun r s => s.writeSlot t idx ops.slot (spanSlot ops) r)

/-- MWIN (R175). -/
def execMwin (t idx : Nat) (ops : WinOps) (s : State) : Host.Outcome State Fault Refusal :=
  s.runIf (instrWf (.mwin t idx ops)) (s.issue t idx (.mwin ops) fun r s => s.writeSlot t idx ops.slot (winSlot ops) r)

/-! ### Credits -/

/-- CWAIT (R181): it issues once every named count is available, and takes them all. -/
def State.cwait (s : State) (t idx : Nat) (eng : Engine) (n : Counts) (r : Run) : State :=
  let r1 := (countList n).foldl (fun r e => r.take (engineCode e.1) (engineCode eng) e.2) r
  (s.modTile t fun x => { x with run := some r1 }).launched t idx (.cwait eng n) 0

/-- The counts that a CWAIT names are available. -/
def State.countsReady (s : State) (t : Nat) (eng : Engine) (n : Counts) : Bool :=
  match (s.tile t).run with
  | some r => (countList n).all fun e => decide (e.2 ≤ r.cred (engineCode e.1) (engineCode eng))
  | none => false

/-- CWAIT (R181). -/
def execCwait (t idx : Nat) (eng : Engine) (n : Counts) (s : State) : Host.Outcome State Fault Refusal :=
  s.runIf (instrWf (.cwait t idx eng n))
    (if s.countsReady t eng n then s.issue t idx (.cwait eng n) fun r s => s.cwait t idx eng n r else s)

/-- CPOST (R181): its credits are posted when it completes, after every earlier instruction of its engine. -/
def execCpost (t idx : Nat) (eng : Engine) (n : Counts) (s : State) : Host.Outcome State Fault Refusal :=
  s.runIf (instrWf (.cpost t idx eng n))
    (s.issue t idx (.cpost eng n) fun _ s => s.launch t idx (.cpost eng n) .plain true (countList n) none 0)

/-! ### Semaphores -/

/-- A SEMWAIT reaches the unit: it waits there, or a lock with n other than 1 ends the segment (R189, R190). -/
def State.semwait (s : State) (t idx : Nat) (eng : Engine) (sem n : Nat) (r : Run) : State :=
  let p := (s.partOfTile t).getD 0
  let key := s.semKey p sem
  let x := s.sem p key
  if x.lock && n != 1 then s.segFault t r idx 7 7 sem
  else
    (s.launch t idx (.semwait eng sem n) .semWait false [] none 0).setSem p key
      { x with waiters := x.waiters ++ [{ tile := t, eng := eng, idx := idx, n := n }] }

/-- SEMWAIT (R189). -/
def execSemwait (t idx : Nat) (eng : Engine) (sem n : Nat) (s : State) : Host.Outcome State Fault Refusal :=
  s.runIf (instrWf (.semwait t idx eng sem n)) (s.issue t idx (.semwait eng sem n) fun r s => s.semwait t idx eng sem n r)

/-- SEMSIG (R189): its signal leaves once every earlier instruction of its engine has completed. -/
def execSemsig (t idx : Nat) (eng : Engine) (sem n : Nat) (s : State) : Host.Outcome State Fault Refusal :=
  s.runIf (instrWf (.semsig t idx eng sem n))
    (s.issue t idx (.semsig eng sem n) fun _ s =>
      (s.launch t idx (.semsig eng sem n) (.semSig sem n) false [] none 0).sendHead t eng)

/-- An add that frees nothing or frees a held lock (R190): VALUE takes the sum. -/
def Sem.plus (x : Sem) (n : Nat) : Sem :=
  { x with value := (x.value + n) % 2 ^ 32, held := x.held && !(x.lock && x.value == 0 && n == 1) }

/-- A SEMSIG misuses a semaphore (R190). -/
def Sem.misused (x : Sem) (n ctx : Nat) : Bool :=
  (x.lock && x.held && x.holder != ctx) || (x.lock && decide (1 < x.value + n)) || decide (0xFFFFFFFF < x.value + n)

/-- The engine that sent a signal has it applied: the instruction may complete. -/
def State.sigDone (s : State) (g : SemSig) : State :=
  match g.origin with
  | .tile t e idx _ => s.flightReady t e idx
  | _ => s

/-- A signal of an engine is applied, or ends its segment with SEM_FAULT (R190). -/
def State.sigApply (s : State) (p : Nat) (g : SemSig) : State :=
  let x := s.sem p g.sem
  match g.origin with
  | .tile t _ idx ctx =>
    if x.misused g.n ctx then
      match (s.tile t).run with
      | some r => s.segFault t r idx 7 7 (if g.sem < 256 then g.sem else 224 + (g.sem - 256) % 32)
      | none => s
    else (s.setSem p g.sem (x.plus g.n)).sigDone g
  | .gone ctx => if x.misused g.n ctx then s else s.setSem p g.sem (x.plus g.n)
  | _ => if 0xFFFFFFFF < x.value + g.n || (x.lock && decide (1 < x.value + g.n)) then s else s.setSem p g.sem (x.plus g.n)

/-- SEM_SIGNAL_APPLY (R189): the oldest signal on its way to the unit is applied. -/
def execSemSignalApply (p : Nat) (s : State) : Host.Outcome State Fault Refusal :=
  s.runIf (instrWf (.semSignalApply p)) (
    match (s.part p).sigs with
    | g :: l => (s.setPart p { s.part p with sigs := l }).sigApply p g
    | [] => s)

/-- SEM_GRANT (R189, R190): the head waiter is granted when VALUE suffices. -/
def execSemGrant (p sem : Nat) (s : State) : Host.Outcome State Fault Refusal :=
  s.runIf (instrWf (.semGrant p sem)) (
    let key := s.semKey p sem
    let x := s.sem p key
    match x.waiters with
    | w :: l =>
      if x.value < w.n then s
      else
        let ctx := match (s.tile w.tile).run with | some r => r.ctx | none => 0
        let y := { x with value := x.value - w.n, waiters := l, held := x.held || x.lock, holder := if x.lock then ctx else x.holder }
        (s.setSem p key y).flightReady w.tile w.eng w.idx
    | [] => s)

/-- The effect of a write of SCH_SEMs (R190): the LOCK of a held lock stays. -/
def semWriteEffect (p key value : Nat) (s : State) : State :=
  let x := s.sem p key
  s.setSem p key { x with value := bits value 0 32, lock := if x.held then x.lock else bit value 63 }

/-- SEM_WRITE (R190). -/
def execSemWrite (a : Agent) (p sem value : Nat) (s : State) : Host.Outcome State Fault Refusal :=
  s.runIf (instrWf (.semWrite a p sem value)) (s.writeReg a .sch p (R.SCH_SEM p sem) (fun s => semWriteEffect p (s.semKey p sem) value s))

/-- The effect of a write of SCH_SEMADDs on the semaphore of a key (R189, R190): a reserved encoding where the sum passes
0xFFFF_FFFF. -/
def semAddAt (a : Agent) (p key off value : Nat) (s : State) : State :=
  let x := s.sem p key
  if 0xFFFFFFFF < x.value + bits value 0 32 || (x.lock && decide (1 < x.value + bits value 0 32)) then s.badWrite a off
  else s.setSem p key (x.plus (bits value 0 32))

/-- The effect of a write of SCH_SEMADDs. -/
def semAddEffect (a : Agent) (p sem off value : Nat) (s : State) : State := semAddAt a p (s.semKey p sem) off value s

/-- SEM_ADD (R189). -/
def execSemAdd (a : Agent) (p sem value : Nat) (s : State) : Host.Outcome State Fault Refusal :=
  s.runIf (instrWf (.semAdd a p sem value))
    (s.writeReg a .sch p (R.SCH_SEMADD p sem) (semAddEffect a p sem (R.SCH_SEMADD p sem) value))

/-! ### Summaries and flags -/

/-- The entry of a summary, as HRD_SUMM_Qt shows it (R152). -/
def summWord (kind tag status flags value : Nat) : Nat :=
  2 ^ 63 + kind * 2 ^ 56 + tag * 2 ^ 48 + status * 2 ^ 40 + flags * 2 ^ 32 + value

/-- The queue of a tile has gone non-empty: an interrupt to the routed control core where it is enabled (R154). -/
def State.summIrq (s : State) (t : Nat) : State :=
  let h := t / 12
  let i := t % 12
  s.when (bit (s.fget (R.HRD_SUMM_CTL h) F.HRD_SUMM_CTL_IRQ_EN) i) fun s =>
    let c := 2 * h + b2n (bit (s.fget (R.HRD_SUMM_CTL h) F.HRD_SUMM_CTL_ROUTE) i)
    (s.setCore c { s.core c with irq := (s.core c).irq ||| 1 }).pmcHerd h 6 1

/-- The status and VALUE of a summary; they are open where it names data registers past T31, which the spec does not have
(R150; log entry 84). -/
def State.summOpen (s : State) (o : SummOps) (status value : Nat) : Nat × Nat × State :=
  if (o.kind == 1 || o.kind == 2) && decide (32 < o.reg + o.k) then
    (s.draw.1 % 3, s.draw.2.draw.1 % (if o.kind = 1 then 16 else 2 ^ 32), s.draw.2.draw.2)
  else (status, value, s)

/-- SUMM executes at the lead (R150 to R153). -/
def State.summ (s : State) (t idx : Nat) (o : SummOps) (r : Run) : State :=
  let parts := r.members.map fun u => summPart (s.tile u) o
  let status := parts.foldl (fun a q => mergeStatus a q.status) 0
  let flags := r.members.foldl (fun a u => a ||| s.vflags u) 0
  let w := s.summOpen o status (summValue o parts)
  let s1 := w.2.2.modTile t fun x => { x with summ := x.summ ++ [summWord o.kind o.tag w.1 flags w.2.1] }
  let s2 := s1.when o.clr fun s => r.onMembers (fun _ u s => s.clearVflags u flags) s
  (s2.when ((s.tile t).summ.isEmpty) fun s => s.summIrq t).launched t idx (.summ o) 0

/-- The instruction with an index is a MOV. -/
def Run.isMov (r : Run) (i : Nat) : Bool := match r.ins i with | some (.mov _ _) => true | _ => false
/-- The array works on an MMUL: BUSY of TIL_MMA_STATUS. -/
def Run.mmaBusy (r : Run) : Bool := r.array.any fun f => match r.ins f.idx with | some (.mmul _) => true | _ => false

/-- SUMM can issue: its queue has room, and with DRAIN the array is idle and every earlier LD and HLD has completed (R151,
R152). -/
def State.summReady (s : State) (t idx : Nat) (o : SummOps) : Bool :=
  match (s.tile t).run with
  | some r =>
    decide ((s.tile t).summ.length < 8)
      && (!o.drain || (!r.mmaBusy && (r.dma.all fun f => decide (idx < f.idx) || !r.isMov f.idx)
        && (r.behind idx).all fun j => !(r.insCode j == 0 && r.isMov j)))
  | none => false

/-- SUMM (R150). -/
def execSumm (t idx : Nat) (ops : SummOps) (s : State) : Host.Outcome State Fault Refusal :=
  s.runIf (instrWf (.summ t idx ops))
    (if s.summReady t idx ops then s.issue t idx (.summ ops) fun r s => s.summ t idx ops r else s)

/-- FLAGCLR (R149). -/
def execFlagclr (t idx flags : Nat) (s : State) : Host.Outcome State Fault Refusal :=
  s.runIf (instrWf (.flagclr t idx flags)) (s.issue t idx (.flagclr flags) fun r s =>
    (r.onMembers (fun _ u s => s.clearVflags u flags) s).launched t idx (.flagclr flags) 0)

/-- The head entry of a summary queue is popped into the answer (R152). -/
def summPopEffect (t : Nat) (s : State) : State :=
  match (s.tile t).summ with
  | w :: l => ((s.modTile t fun x => { x with summ := l }).pmcHerd (t / 12) 5 1).answer .ok w
  | [] => s.answer .ok 0

/-- SUMM_POP (R152). -/
def execSummPop (a : Agent) (t : Nat) (s : State) : Host.Outcome State Fault Refusal :=
  s.runIf (instrWf (.summPop a t)) (s.readReg a .hrd (t / 12) (R.HRD_SUMM_Q (t / 12) (t % 12)) (summPopEffect t))

end Sys2Proof.Machine
end

