-- ==== Sys2Proof/Machine/Mmio.lean ====
section
/-!
DEFINITION. Mmio.lean: reads and writes of register space at any offset: access sizes, reserved offsets, access codes, reserved
encodings and lock bits, the windows of tile and herd memory, and the accesses of the management target and the test access port
(R11 to R18, R25, R41 to R43, R391, R464, R479, R480).
-/

namespace Sys2Proof.Machine

/-! ### Registers that an access reaches -/

/-- A register that an access reaches: its block and unit (for a byte-counter set the offset of the set), its row and indices, and
its offset in register space. -/
structure Hit where
  b : Blk
  u : Nat
  row : Row
  i : Nat
  j : Nat
  off : Nat
deriving DecidableEq, Repr

/-- A unit has the register: COH_CTL exists in slice 0 of a block only (spec/11_coherence.md, Registers). -/
def hasReg (n : RegName) (u : Nat) : Bool := n != .COH_CTL || u == 0 || u == 64 || u == 96

/-- The register at an offset of a block, 8-byte aligned; none for a reserved offset (R13). -/
def hitAt (b : Blk) (u base off : Nat) : Option Hit :=
  let o := off / 8 * 8
  let find (b : Blk) (u base : Nat) : Option Hit :=
    ((findRow b.rows (o - base)).filter fun r => hasReg r.1.name u).map fun r => ⟨b, u, r.1, r.2.1, r.2.2, o⟩
  match bwSetAt b (o - base) with
  | some rel => find .bw (base + rel) (base + rel)
  | none => find b u base

/-- A per-context register (R391). -/
def Hit.isCtx (h : Hit) : Bool :=
  h.b == .sch && (decide (0x2000 ≤ h.row.off ∧ h.row.off < 0x8000) || decide (0xC000 ≤ h.row.off))

/-- The PMC_ registers and the sampling records (R464). -/
def Hit.isPmc (h : Hit) : Bool :=
  h.b == .bw || [.PMC_TCYC, .PMC_TEVT, .PMC_TCNT, .PMC_SMP_CTL, .PMC_SMP_PTR, .PMC_SMP_REC, .PMC_HEVT, .PMC_HCNT].contains h.row.name

/-- The bits of a register that an access of so many bytes covers (R11). -/
def accMask (off bytes : Nat) : Nat := if bytes = 8 then 2 ^ 64 - 1 else if off % 8 = 4 then (2 ^ 32 - 1) <<< 32 else 2 ^ 32 - 1

/-- A size and alignment that R11 admits. -/
def sizeOk (off bytes : Nat) : Bool := (bytes == 8 && off % 8 == 0) || (bytes == 4 && off % 4 == 0)

/-! ### Registers that report other state -/

/-- A semaphore as its register shows it (R189, R190, R404). -/
def Sem.fields (x : Sem) (group : Bool) : List (Fld × Nat) :=
  [(F.SCH_SEM_LOCK, b2n x.lock), (F.SCH_SEM_GROUP, b2n group), (F.SCH_SEM_HOLDER, x.holder), (F.SCH_SEM_HELD, b2n x.held),
   (F.SCH_SEM_WAITERS, x.waiters.length), (F.SCH_SEM_VALUE, x.value)]

/-- STATE of SCH_SLOTk (R400, R401, R403). -/
def State.slotState (s : State) (p k : Nat) (x : Slot) : Nat :=
  let blocked := if s.blockCode p x != 0 then 0 else 1
  match (s.part p).sw with
  | some w =>
    if w.phase = 0 ∧ w.src = some k then 3
    else if w.phase ≠ 0 ∧ w.dst = some k then 4
    else blocked
  | none => if (s.part p).run = some k then (if x.deferred.isSome then 5 else 2) else blocked

/-- The fields of SCH_SLOTk. -/
def State.slotFields (s : State) (p k : Nat) : List (Fld × Nat) :=
  match s.slot? p k with
  | none => []
  | some x =>
    [(F.SCH_SLOT_V, 1), (F.SCH_SLOT_STATE, s.slotState p k x), (F.SCH_SLOT_BLOCK, s.blockCode p x), (F.SCH_SLOT_CTX, x.ctx),
     (F.SCH_SLOT_SLICE, x.slice), (F.SCH_SLOT_BLOCKED_TICKS, x.blockedTicks)]

/-- The fields of SCH_KCTXc (R389, R404). -/
def State.kctxFields (s : State) (c : Nat) : List (Fld × Nat) :=
  match s.ctxs.find? c with
  | none => []
  | some x =>
    let st := if x.slot.isSome then 1 else if x.ready then 3 else 2
    let g := firstUpTo 8 fun g => (Map.get [] s.groups g).contains c
    [(F.SCH_KCTX_STATE, st), (F.SCH_KCTX_PART, x.part), (F.SCH_KCTX_SLOT, x.slot.getD 0), (F.SCH_KCTX_GRP_V, b2n g.isSome),
     (F.SCH_KCTX_GROUP, g.getD 0), (F.SCH_KCTX_JOB, x.job)]

/-- The fields of PLC_MIGe. -/
def State.migFields (s : State) (d e : Nat) : List (Fld × Nat) :=
  match s.migs.find? (8 * d + e) with
  | none => []
  | some m =>
    [(F.PLC_MIG_PHASE, m.phase), (F.PLC_MIG_CLASS, m.req.cls), (F.PLC_MIG_ROUND, m.round), (F.PLC_MIG_DIRTY, m.dirty.length),
     (F.PLC_MIG_RANGE, m.req.range)]

/-- The snapshot operation in progress: its number, partition, context and chunks done (R429 to R437). -/
def State.snapNow (s : State) : Option (Nat × Nat × Nat × Nat) :=
  let code (op : Nat) : Option Nat := if op = 0x32 then some 2 else if op = 0x33 then some 3 else if op = 0x35 then some 4 else none
  let cmd := (List.range 8).findSome? fun p =>
    match (s.part p).exec with
    | some e => (code e.op).map fun c => (c, p, e.cmd.ctx, 0)
    | none => none
  match cmd with
  | some x => some x
  | none =>
    match s.snapQ with
    | c :: _ =>
      let x := Map.get { part := 0 } s.ctxs c
      let n := match x.slot with | some k => ((s.slot? x.part k).map fun y => y.snap.digests.length).getD 0 | none => 0
      some (1, x.part, c, n)
    | [] => none

/-- The fields of SNAP_STATUS. -/
def State.snapFields (s : State) : List (Fld × Nat) :=
  match s.snapNow with
  | none => []
  | some (op, p, c, n) =>
    [(F.SNAP_STATUS_BUSY, 1), (F.SNAP_STATUS_OP, op), (F.SNAP_STATUS_PART, p), (F.SNAP_STATUS_CTX, c), (F.SNAP_STATUS_CHUNKS, n)]

/-- The unit of a remap table that a stack or capacity controller reports. -/
def remapUnit (b : Blk) (u : Nat) : Nat := if b = .cap then 16 + u else u

/-- The byte-counter set at an offset. -/
def State.bwSet (s : State) (base : Nat) : BwSet := Map.get { last := s.bwEnd } s.bw base

/-- Fields of a register that report state held elsewhere, with their values; a field that is not listed reads as it is stored. -/
def State.derived (s : State) (h : Hit) : List (Fld × Nat) :=
  match h.row.name with
  | .TCK_COUNT => [(F.TCK_COUNT_COUNT, s.tick)]
  | .TCK_TIME => [(F.TCK_TIME_TIME, s.clk.tb)]
  | .TIL_MMA_STATUS => [(F.TIL_MMA_STATUS_BUSY, match s.runAt h.u with | some r => b2n r.mmaBusy | none => 0)]
  | .TIL_SREG =>
    let v := Map.get 0 (s.tile h.u).sregs h.i
    [(F.TIL_SREG_STATUS, bits v 32 2), (F.TIL_SREG_VALUE, bits v 0 32)]
  | .TIL_SEGQ_STATUS =>
    (F.TIL_SEGQ_STATUS_LEVEL, (s.tile h.u).queue.length) ::
      match s.runAt h.u with
      | some r =>
        [(F.TIL_SEGQ_STATUS_RUN_SEG_ID, r.img.segId), (F.TIL_SEGQ_STATUS_RUN_INDEX, r.lastIdx), (F.TIL_SEGQ_STATUS_RUNNING, 1)]
      | none => []
  | .TIL_CRED =>
    [(F.TIL_CRED_COUNTS, match s.runAt h.u with
      | some r => sumList ((List.range 12).map fun q => r.creds.getD q 0 % 32 * 2 ^ (5 * q))
      | none => 0)]
  | .PMC_TCYC => [(F.PMC_TCYC_CYCLES, (s.clk.cyc - (s.tile h.u).cycBase) % 2 ^ 64)]
  | .PMC_SMP_REC => [(F.PMC_SMP_REC_WORD, Map.get 0 (s.tile h.u).samp (4 * h.i + h.j))]
  | .HRD_SUMM_LEVEL =>
    [(F.HRD_SUMM_LEVEL_LEVEL, sumList ((List.range 12).map fun t => (s.tile (12 * h.u + t)).summ.length * 2 ^ (4 * t)))]
  | .SCH_SEM => (s.sem h.u (s.semKey h.u h.i)).fields (decide (256 ≤ s.semKey h.u h.i))
  | .SCH_GSEM => (s.sem 0 (256 + 32 * h.i + h.j)).fields true
  | .SCH_PART =>
    [(F.SCH_PART_RUN_V, b2n (s.part h.u).run.isSome), (F.SCH_PART_RUN_SLOT, (s.part h.u).run.getD 0),
     (F.SCH_PART_RESIDENT, (s.part h.u).slots.length)]
  | .SCH_SLOT => s.slotFields h.u h.i
  | .SCH_KCTX => s.kctxFields h.i
  | .PLC_FRAMES =>
    [(F.PLC_FRAMES_FREE_CAP, s.poolFree .cap), (F.PLC_FRAMES_FREE_STACK, s.poolFree (.die 0) + s.poolFree (.die 1)),
     (F.PLC_FRAMES_RESERVED, s.reserved.length)]
  | .PLC_STAT => [(F.PLC_STAT_RETIRED, min 65535 (s.rangeMap.filter fun e => rmState e.2 == 2).length)]
  | .PLC_RESV => [(F.PLC_RESV_BAD, s.bad.length)]
  | .PLC_RM_DATA => [(F.PLC_RM_DATA_ENTRY, s.rm (s.fget R.PLC_RM_INDEX F.PLC_RM_INDEX_RANGE))]
  | .PLC_PART_QUOTA => [(F.PLC_PART_QUOTA_USED, s.usedRanges h.i)]
  | .PLC_REG => [(F.PLC_REG_RATE, s.rate h.i h.j), (F.PLC_REG_BURST, s.burst h.i h.j)]
  | .PLC_MIG => s.migFields h.u h.i
  | .COH_SF =>
    [(F.COH_SF_USED, (s.filterLines h.u).length)]
  | .COH_BUSY =>
    let l := s.busy.filter fun (e : Nat × Busy) => sliceOf e.1 == h.u
    [(F.COH_BUSY_BUSY, l.length), (F.COH_BUSY_WAITING, sumList (l.map fun (e : Nat × Busy) => e.2.waiters.length))]
  | .STK_REMAP_DATA =>
    [(F.STK_REMAP_DATA_ENTRY, (Map.get [] s.remap h.u).getD (s.fget (R.STK_REMAP_IDX h.u) F.STK_REMAP_IDX_ENTRY) 0)]
  | .CAP_REMAP_DATA =>
    [(F.CAP_REMAP_DATA_ENTRY, (Map.get [] s.remap (16 + h.u)).getD (s.fget (R.CAP_REMAP_IDX h.u) F.CAP_REMAP_IDX_ENTRY) 0)]
  | .AFR_ID =>
    [(F.AFR_ID_LOCK, s.fget (R.AFR_ID 0) F.AFR_ID_LOCK), (F.AFR_ID_EPOCH, s.epoch), (F.AFR_ID_PKG_ID, s.pkgId)]
  | .AFR_STAT => [(F.AFR_STAT_ACTIVE, (collActive (Map.get [] s.colls h.u)).length)]
  | .SNAP_STATUS => s.snapFields
  | .SNAP_STAT => [(F.SNAP_STAT_QUEUED, s.snapQ.length)]
  | .PMC_BW_CTL => [(F.PMC_BW_CTL_WIN, (s.bwSet h.u).pend.getD (s.bwSet h.u).win)]
  | .PMC_BW_END => [(F.PMC_BW_END_PARTIAL, b2n (s.bwSet h.u).part), (F.PMC_BW_END_END, (s.bwSet h.u).last)]
  | .PMC_BW_A => [(F.PMC_BW_A_BYTES, (s.bwSet h.u).a)]
  | .PMC_BW_B => [(F.PMC_BW_B_BYTES, (s.bwSet h.u).b)]
  | .PMC_BW_WA => [(F.PMC_BW_WA_BYTES, (s.bwSet h.u).wa)]
  | .PMC_BW_WB => [(F.PMC_BW_WB_BYTES, (s.bwSet h.u).wb)]
  | _ => []

/-- Fields that report a measurement which no command gives: their values are open (log entry 2). -/
def sensorFields : RegName → List Fld
  | .PWR_RAIL => [F.PWR_RAIL_MIN_MV, F.PWR_RAIL_MV]
  | .STK_STATUS => [F.STK_STATUS_TEMP]
  | _ => []

/-- The value of a field of a register, `k` being the slot of a per-context register. -/
def State.fieldOf (s : State) (h : Hit) (k : Option Nat) (f : Fld) : Nat :=
  match k with
  | some k =>
    match s.slot? h.u k with
    | some x => x.fget (h.off - B.sch h.u) f
    | none => 0
  | none =>
    match (s.derived h).find? fun (e : Fld × Nat) => e.1 == f with
    | some e => e.2
    | none => s.fget h.off f

/-- The word of a register. -/
def State.wordOf (s : State) (h : Hit) (k : Option Nat) : Nat := fldsWord h.row.fields (s.fieldOf h k)

/-- Give a stored field of a register a value. -/
def State.fieldPut (s : State) (h : Hit) (k : Option Nat) (f : Fld) (v : Nat) : State :=
  match k with
  | some k => s.modSlot h.u k fun x => x.fset (h.off - B.sch h.u) f v
  | none => s.fset h.off f v

/-! ### Reads (R16) -/

/-- What an access returns of a word. -/
def wordPart (off bytes w : Nat) : Nat := (w &&& accMask off bytes) >>> (8 * (off % 8))

/-- RC fields that an access covers are cleared. A 32-bit read that covers one half of a field that straddles bit 32, such as
TIL_MMA_STATUS.SAT_COUNT, clears the whole field (DESIGN CHOICE, log entry 87). -/
def State.clearRc (s : State) (h : Hit) (k : Option Nat) (m : Nat) : State :=
  h.row.fields.foldl (fun s f => if f.acc = .rc ∧ f.mask &&& m ≠ 0 then s.fieldPut h k f 0 else s) s

/-- Open values for the measurements of a register (log entry 2): the word with them, and the state. -/
def State.measure (s : State) (n : RegName) (w : Nat) : Nat × State :=
  (sensorFields n).foldl (fun (x : Nat × State) (f : Fld) => (setBits x.1 f.lo f.w (x.2.draw.1 % 2 ^ f.w), x.2.draw.2)) (w, s)

/-- The effect of a read of a register that is reached. -/
def State.readHit (s : State) (h : Hit) (k : Option Nat) (off bytes : Nat) : State :=
  match h.row.name with
  | .HRD_TASK_POP =>
    let s1 := taskPopEffect h.u s
    s1.answer .ok (wordPart off bytes s1.rsp.data)
  | .HRD_SUMM_Q =>
    let s1 := summPopEffect (12 * h.u + h.i) s
    s1.answer .ok (wordPart off bytes s1.rsp.data)
  | n =>
    let x := s.measure n (s.wordOf h k)
    (x.2.clearRc h k (accMask off bytes)).answer .ok (wordPart off bytes x.1)

/-! ### Where an access goes -/

/-- An offset of register space outside every register: a byte of a window, the PCIe space of a root port, or no block at all; a control core reaches the windows of its own herd and tiles only (R13, R36, R42, R43). -/
def State.offReach (s : State) (a : Agent) (x : Place32) : Entry :=
  let e (b : Blk) (u : Nat) : Entry := s.entry a b u (if b = .til then B.til u else B.hrd u) false
  match x with
  | .tileWin t _ => e .til t
  | .herdWin h _ => e .hrd h
  | _ =>
    match a with
    | .control _ _ => .decode
    | .test => if s.owned then .decode else .reach
    | _ => .reach

/-- An access to a place outside every register: `f` is what it does where it is reached; the size rule of R11 holds there too. -/
def State.offAccess (s : State) (a : Agent) (wr : Bool) (x : Place32) (off bytes : Nat) (f : State → State) : State :=
  match s.offReach a x with
  | .reach =>
    if !sizeOk off bytes || x == .none then (s.regError (agentId a) wr off).answer .regError 0 else f (s.answer .ok 0)
  | e => s.turnAway a wr off e

/-- A user-mode access to a counter or a sampling record is served (R464). -/
def State.userOk (s : State) (a : Agent) (b : Blk) (u : Nat) (h : Hit) (wr : Bool) : Bool :=
  !isUser a || !h.isPmc || (!wr && s.userReads b u)

/-- The slot of a register: for a per-context register the one that R391 and R43 give. -/
def State.slotFor (s : State) (a : Agent) (h : Hit) : Option Nat := if h.isCtx then s.selSlot a h.u else none

/-- REGISTER_READ of a number of bytes at an offset. -/
def State.regRead (s : State) (a : Agent) (off bytes : Nat) : State :=
  match regPlace off with
  | .blk b u base =>
    match s.entry a b u off false with
    | .reach =>
      if !sizeOk off bytes then s.badRead a off
      else
        match hitAt b u base off with
        | none => s.answer .ok 0
        | some h =>
          if !s.userOk a b u h false then s.badRead a off
          else if h.isCtx && (s.selSlot a u).isNone then
            match a with
            | .control _ _ => s.answer .ok 0
            | _ => s.badRead a off
          else s.readHit h (s.slotFor a h) off bytes
    | e => s.turnAway a false off e
  | .tileWin t o => s.offAccess a false (.tileWin t o) off bytes fun s =>
      (s.pmcTile t 0x11 1).answer .ok ((s.tile t).mem.rdN o bytes)
  | .herdWin h o => s.offAccess a false (.herdWin h o) off bytes fun s =>
      (s.pmcHerd h 7 1).answer .ok ((s.herd h).mem.rdN o bytes)
  | .pcieCfg rp o => s.offAccess a false (.pcieCfg rp o) off bytes fun s =>
      s.answer .ok (Config.pcieRead rp (Map.get [] s.pcieCfg rp) o bytes % 2 ^ (8 * bytes))
  | .pcieOut rp => s.offAccess a false (.pcieOut rp) off bytes fun s => s.draw.2.answer .ok (s.draw.1 % 2 ^ (8 * bytes))
  | x => s.offAccess a false x off bytes id

/-! ### Writes (R14, R16, R17) -/

/-- The lock bit of a block: its offset from the base, and its field. -/
def lockField : List Row → Option (Nat × Fld)
  | [] => none
  | r :: l =>
    match r.fields.find? fun f => f.lo == 63 && f.acc == .w1s with
    | some f => some (r.off, f)
    | none => lockField l

/-- The lock bit of the block of a register is 1 (R17). -/
def State.lockedAt (s : State) (h : Hit) : Bool :=
  match lockField h.b.rows with
  | some (o, f) => s.fbit (h.off - (h.row.off + h.row.s1 * h.i + h.row.s2 * h.j) + o) f
  | none => false

/-- A write on its way: the bits that it covers and their values, whether the block is locked, and whether it is a preload of the
configuration image (R15, R16). -/
structure RegWr where
  m : Nat
  v : Nat
  locked : Bool
  pre : Bool
deriving DecidableEq, Repr

/-- The value of a field after a write, given the value before (R16). -/
def RegWr.field (w : RegWr) (f : Fld) (old : Nat) : Nat :=
  let fm := bits w.m f.lo f.w
  let wv := bits w.v f.lo f.w &&& fm
  let set := old - (old &&& fm) + wv
  match f.acc with
  | .rw => set
  | .lk => if w.locked then old else set
  | .cfg => if w.pre then set else old
  | .w1c => old - (old &&& wv)
  | .w1s => old ||| wv
  | .wo => wv
  | _ => old

/-- The value that a write gives the field at a bit; 0 where the register has none. -/
def State.newVal (s : State) (h : Hit) (k : Option Nat) (w : RegWr) (lo : Nat) : Nat :=
  match h.row.fields.find? fun f => f.lo == lo with
  | some f => w.field f (s.fieldOf h k f)
  | none => 0

/-- A write changes the field at a bit. -/
def State.changes (s : State) (h : Hit) (k : Option Nat) (w : RegWr) (lo : Nat) : Bool :=
  match h.row.fields.find? fun f => f.lo == lo with
  | some f => f.written && w.field f (s.fieldOf h k f) != s.fieldOf h k f
  | none => false

/-- The whole word that a write spells: what it does not cover reads as it is, and write-only and write-1 fields that it does not
cover are 0. The spec does not say what a 32-bit write of a command register does for the operands of its other half: the model takes
them as 0 (DESIGN CHOICE, log entry 110). -/
def State.spelled (s : State) (h : Hit) (k : Option Nat) (w : RegWr) : Nat :=
  sumList (h.row.fields.map fun f =>
    (match f.acc with
      | .w1c => bits (w.v &&& w.m) f.lo f.w
      | .w1s => bits (w.v &&& w.m) f.lo f.w
      | _ => w.field f (s.fieldOf h k f)) % 2 ^ f.w * 2 ^ f.lo)

/-- A write covers a field that a write can act on. -/
def Hit.acts (h : Hit) (w : RegWr) : Bool :=
  h.row.fields.any fun f => f.acc != .ro && f.acc != .rc && f.mask &&& w.m != 0

/-- The timing fields as a write of one of their registers would leave them (R70, R343). -/
def State.tmoAfter (s : State) (h : Hit) (w : RegWr) : Tmo :=
  let v := s.newVal h none w
  let t := s.tmo
  match h.row.name with
  | .TCK_WDOG => { t with seg := v 0, hb := v 8, herd := v 16, die := v 24 }
  | .TCK_TMO => { t with ucie := v 0, mem := v 8, afr := v 16 }
  | .AFR_CTL => { t with rmt := setAt t.rmt h.u (v 8) }
  | _ => t

/-- The sum of the SHAREs of a tier with one of them replaced (R292). -/
def State.shareSum (s : State) (p t v : Nat) : Nat :=
  v + sumList (((List.range 8).filter fun q => q != p).map fun q => s.fget (R.PLC_REG q t) F.PLC_REG_SHARE)

/-- What the rules reserve beyond the values of single fields (R14): the order of the timing fields (R70, R343), refresh lock above
PERIOD_LOG2 16 (R62), maintenance of a stack in use (R326), SHAREs above 100 (R292), and a shard beyond the count. -/
def State.reservedNow (s : State) (h : Hit) (w : RegWr) : Bool :=
  let ch := s.changes h none w
  let v := s.newVal h none w
  match h.row.name with
  | .TCK_WDOG => (ch 0 || ch 8 || ch 16 || ch 24) && !(s.tmoAfter h w).ok
  | .TCK_TMO => (ch 0 || ch 8 || ch 16) && !(s.tmoAfter h w).ok
  | .AFR_CTL => ch 8 && !(s.tmoAfter h w).ok
  | .STK_CTRL => (ch 0 && v 0 == 1 && decide (16 < s.pLog)) || (ch 1 && v 1 == 1 && s.stackUsed h.u)
  | .PLC_REG => ch 56 && decide (100 < s.shareSum h.i h.j (v 56))
  | .INK_S_CURSOR => ch 32 && decide (s.fget (R.INK_S_SHARDN h.u) F.INK_S_SHARDN_COUNT ≤ v 32)
  | _ => false

/-- A write places a reserved encoding in a field (R14). -/
def State.reservedWr (s : State) (h : Hit) (k : Option Nat) (w : RegWr) : Bool :=
  (h.row.fields.any fun f => s.changes h k w f.lo && !legalFld h.row.name f.lo (s.newVal h k w f.lo))
    || !legalRel h.row.name (s.changes h k w) (s.newVal h k w)
    || (k.isNone && s.reservedNow h w)

/-- The stored fields of a register take the values that a write gives them (R16); `keep` names fields that it leaves. -/
def State.plainWr (s : State) (h : Hit) (k : Option Nat) (w : RegWr) (keep : List Fld) : State :=
  h.row.fields.foldl
    (fun s1 f => if f.acc = .wo ∨ f.acc = .ro ∨ f.acc = .rc ∨ keep.contains f then s1 else s1.fieldPut h k f (w.field f (s.fieldOf h k f))) s

/-- TCK_CTRL (R17, R54, R68): PERIOD_LOG2, refused where R54 refuses it; PPS_OUT_EN; and the lock bit. -/
def State.tckCtrlWr (s : State) (a : Agent) (h : Hit) (w : RegWr) : State :=
  let v := s.newVal h none w
  if s.changes h none w 0 && !s.periodOk (v 0) then (s.fset R.TCK_STATUS F.TCK_STATUS_CTRL_REFUSED 1).badWrite a h.off
  else
    let s1 := s.plainWr h none w [F.TCK_CTRL_PPS_OUT_EN]
    if s.changes h none w 7 then ppsEnWrite (v 7) s1 else s1

/-- TCK_SYNC (R63, R64): LOCKED reads 1 on a master and 0 when standalone; a follower has yet to lock. -/
def State.tckSyncWr (s : State) (h : Hit) (w : RegWr) : State :=
  let s1 := s.plainWr h none w []
  if s.changes h none w 0 then
    let s2 := s1.when (s.fbit R.TCK_STATUS F.TCK_STATUS_LOCKED && s.newVal h none w 0 != 1) fun s =>
      s.fadd R.TCK_STATUS F.TCK_STATUS_UNLOCK_COUNT 1
    let s3 := ((s2.fset R.TCK_STATUS F.TCK_STATUS_LOCKED (b2n (s.newVal h none w 0 == 1))).fset R.TCK_STATUS
      F.TCK_STATUS_HOLDOVER 0).fset R.TCK_OFFSET F.TCK_OFFSET_OFFSET 0
    let s4 := (s3.fset R.TCK_SYNC F.TCK_SYNC_UPSTREAM 0xFF).fset R.TCK_SYNC F.TCK_SYNC_HOPS 0
    { s4 with clk := { s4.clk with inLock := 0, lastMark := none, markAt := s.tick, slew := 0, slewNow := 0 } }
  else s1

/-- STK_CTRL (R17, R320, R326). -/
def State.stkCtrlWr (s : State) (a : Agent) (h : Hit) (w : RegWr) : State :=
  let word := s.spelled h none w
  let s1 := s.when (s.changes h none w 0) (refLockEffect a h.u word)
  let s2 := s1.when (s.changes h none w 1) (maintEffect a h.u word)
  s2.plainWr h none w [F.STK_CTRL_REF_LOCK, F.STK_CTRL_MAINT]

/-- AFR_PORT_CTL (R336): EN trains the port, or takes it down; RETRAIN acts after the other fields. -/
def State.portCtlWr (s : State) (h : Hit) (w : RegWr) : State :=
  let s1 := s.plainWr h none w []
  let s2 :=
    if s.changes h none w 0 then
      (if s.newVal h none w 0 = 0 ∧ s1.portUp h.u then s1.portDown h.u
      else s1.trains h.u)
    else s1
  retrainWrite h.u (s.spelled h none w) s2

/-- PLC_REGn_t (R292): RATE and BURST are stored under MODE 1 only; under Basic control they are computed. -/
def State.plcRegWr (s : State) (h : Hit) (w : RegWr) : State :=
  s.plainWr h none w (if s.newVal h none w 63 = 1 then [] else [F.PLC_REG_RATE, F.PLC_REG_BURST])

/-- The registers of an intake stream (R386): while EN is 1, fields other than EN and LOW_WATER stay as they are, and a write that
would change one is reported. -/
def State.inkWr (s : State) (a : Agent) (h : Hit) (w : RegWr) : State :=
  let on := s.fbit (R.INK_S_CTRL h.u) F.INK_S_CTRL_EN
  let free (f : Fld) : Bool := h.row.name == .INK_S_CTRL && (f == F.INK_S_CTRL_EN || f == F.INK_S_CTRL_LOW_WATER)
  let touched := on && h.row.fields.any fun f => !free f && s.changes h none w f.lo
  let keep := F.INK_S_CTRL_EN :: (if on then h.row.fields.filter fun f => !free f else [])
  let s1 := if h.row.name = .INK_S_CTRL then s.plainWr h none w keep else if on then s else s.plainWr h none w []
  let s2 := (s1.when touched fun s => s.badWrite a h.off).when (h.row.name == .INK_S_CTRL && s.changes h none w F.INK_S_CTRL_LOW_WATER.lo)
    fun s => s.inkWater h.u
  if h.row.name = .INK_S_CTRL ∧ s.changes h none w 63 then
    (if s.newVal h none w 63 = 1 then (if s1.inkFormOk h.u then s2.inkStart h.u else s.badWrite a h.off)
    else (s2.inkStop h.u).unitGrants)
  else s2

/-- The ring registers of a partition (R394): a write while a command executes is ignored and reported, and so is a HEAD or TAIL
beyond the ring. -/
def State.ringWr (s : State) (a : Agent) (h : Hit) (w : RegWr) : State :=
  if (s.part h.u).exec.isSome then s.badWrite a h.off
  else
    match h.row.name with
    | .SCH_CMD_PTR => tailEffect a h.u (s.newVal h none w 32) s
    | .SCH_CPL_PTR =>
      if s.ringSize h.u ≤ s.newVal h none w 0 then s.badWrite a h.off
      else
        let s1 := s.plainWr h none w []
        State.refuseUnknown h.u (s1.ringLoad h.u) s1
    | _ => s.plainWr h none w []

/-- The per-context registers that act when they are written (R220, R245, R258, R422). -/
def State.ctxWr (s : State) (a : Agent) (h : Hit) (k : Nat) (w : RegWr) : State :=
  let word := s.spelled h (some k) w
  match h.row.name with
  | .SCH_NUM_CTL => (s.plainWr h (some k) w []).when (bit word 2) (resumeEffect h.u k)
  | .SCH_VER_PIN =>
    if bits word 0 2 = 1 then s.modSlot h.u k fun x => x.pin (bits word 8 1)
    else if bits word 0 2 = 2 then s.modSlot h.u k fun x => x.unpin (bits word 8 1)
    else s.when (bit w.m 0) fun s => s.badWrite a h.off
  | .SCH_LR => if w.m % 2 ^ 32 = 0 then s.plainWr h (some k) w [] else lrWriteEffect a h.u h.i word k s
  | .SCH_REGROUP => (s.plainWr h (some k) w []).when (bit word 63) (rejoinEffect h.u k)
  | _ => s.plainWr h (some k) w []

/-- The word that a write of TIL_SREGn leaves: the bits that it does not cover keep what the last write held back for the next segment, or
what the scalar holds (R16, R137). -/
def State.sregWord (s : State) (h : Hit) (w : RegWr) : Nat :=
  let old := (s.tile h.u).sregLast h.i
  sumList ([F.TIL_SREG_STATUS, F.TIL_SREG_VALUE].map fun f => w.field f (bits old f.lo f.w) * 2 ^ f.lo)

/-- The effect of a write of a register that acts when it is written, or of any other (R16). `x` is the word that the write spells. -/
def State.effectWr (s : State) (a : Agent) (h : Hit) (w : RegWr) (x : Nat) : State :=
  match h.row.name with
  | .TCK_CTRL => s.tckCtrlWr a h w
  | .TCK_SYNC => s.tckSyncWr h w
  | .TCK_STEP => stepWrite x s
  | .TIL_SREG => sregEffect a h.u h.i (s.sregWord h w) s
  | .TIL_SEGQ_PUSH => segqPushEffect a h.u x s
  | .PMC_SMP_PTR => smpRdEffect a h.u x s
  | .HRD_GANG => gangWriteEffect h.u x s
  | .HRD_GANG_WIDTH => gangWidthEffect a h.u x s
  | .HRD_HEARTBEAT => beatWrite h.u x s
  | .HRD_UPD_EVT => s.when (bit x 0) fun s => s.fadd (R.HRD_UPD_STAT h.u) F.HRD_UPD_STAT_ROOT_KEPT 1
  | .HRD_TASK_DONE => taskDoneEffect a h.u x s
  | .SCH_SEM => semWriteEffect h.u (s.semKey h.u h.i) x s
  | .SCH_SEMADD => semAddEffect a h.u h.i h.off x s
  | .SCH_GSEM => semWriteEffect 0 (256 + 32 * h.i + h.j) x s
  | .SCH_GSEMADD => semAddAt a 0 (256 + 32 * h.i + h.j) h.off x s
  | .SCH_CMDQ => s.ringWr a h w
  | .SCH_CPLQ => s.ringWr a h w
  | .SCH_CMD_PTR => s.ringWr a h w
  | .SCH_CPL_PTR => s.ringWr a h w
  | .STK_CTRL => s.stkCtrlWr a h w
  | .STK_REPAIR_CMD =>
    if 1 ≤ bits x 60 4 ∧ bits x 60 4 ≤ 3 then repairEffect a h.u (bits x 60 4) x s else s.badWrite a h.off
  | .PLC_REG => s.plcRegWr h w
  | .AFR_PORT_CTL => s.portCtlWr h w
  | .AFR_ID => if h.u = 0 then epochIncWrite 0 x (s.plainWr h none w []) else s
  | .AFR_STOT_CMD => stotCmdWrite x s
  | .INK_S_CTRL => s.inkWr a h w
  | .INK_S_SHAPE => s.inkWr a h w
  | .INK_S_AREA => s.inkWr a h w
  | .INK_S_BATCH => s.inkWr a h w
  | .INK_S_SHARDS => s.inkWr a h w
  | .INK_S_SHARDN => s.inkWr a h w
  | .INK_S_TIME => s.inkWr a h w
  | .INK_S_CURSOR => s.inkWr a h w
  | .INK_S_OFFSET => s.inkWr a h w
  | .PKG_CORE_REL => s.fset h.off F.PKG_CORE_REL_ENTRY (bits x 2 54)
  | .PKG_CORE_RELM => coreRelEffect h.i x s
  | .FLT_RESET => fltResetEffect a x s
  | .FLT_OOS => oosClearEffect a x s
  | .CFG_FLASH_CMD => flashEffect a (bits x 62 2) x s
  | .SEC_FUSE_CMD => fuseEffect a (bits x 60 4) x s
  | .SEC_ATTEST_CMD => attestEffect a x s
  | .LIF_CMD => flushEffect x s
  | .PWR_CTRL => (s.plainWr h none w []).showShares
  | .PMC_BW_CTL =>
    { s with bw := s.bw.insert h.u { s.bwSet h.u with pend := some (s.newVal h none w 0) } }
  | _ => s.plainWr h none w []

/-- The field of a command register that names the command (R14: a write that does not cover it carries none out). -/
def codeField : RegName → Option Fld
  | .FLT_RESET => some F.FLT_RESET_DOMAIN
  | .STK_REPAIR_CMD => some F.STK_REPAIR_CMD_OP
  | .SEC_FUSE_CMD => some F.SEC_FUSE_CMD_OP
  | .CFG_FLASH_CMD => some F.CFG_FLASH_CMD_OP
  | _ => none

/-- A write covers the field that names the command, where the register is a command register. -/
def Hit.commands (h : Hit) (w : RegWr) : Bool :=
  match codeField h.row.name with
  | some f => f.mask &&& w.m != 0
  | none => true

/-- A write of a register that is reached: ignored where nothing that it covers can be written, refused where it places a reserved
encoding, and carried out otherwise. -/
def State.writeHit (s : State) (a : Agent) (h : Hit) (k : Option Nat) (w : RegWr) : State :=
  if !h.acts w || !h.commands w then s
  else if s.reservedWr h k w then s.badWrite a h.off
  else
    match k with
    | some k => s.ctxWr a h k w
    | none => s.effectWr a h w (s.spelled h none w)

/-- The write of so many bytes of a register. -/
def State.regWr (s : State) (h : Hit) (off bytes value : Nat) (pre : Bool) : RegWr where
  m := accMask off bytes
  v := (value % 2 ^ (8 * bytes)) <<< (8 * (off % 8))
  locked := s.lockedAt h
  pre := pre

/-- REGISTER_WRITE of a number of bytes at an offset. -/
def State.regWrite (s : State) (a : Agent) (off bytes value : Nat) : State :=
  match regPlace off with
  | .blk b u base =>
    match s.entry a b u off true with
    | .reach =>
      if !sizeOk off bytes then s.badWrite a off
      else
        match hitAt b u base off with
        | none => s.answer .ok 0
        | some h =>
          if !s.userOk a b u h true then s.badWrite a off
          else if h.isCtx && (s.selSlot a u).isNone then s.badWrite a off
          else (s.answer .ok 0).writeHit a h (s.slotFor a h) (s.regWr h off bytes value false)
    | e =>
      (s.turnAway a true off e).when (b == .til && e == .absent && off / 8 * 8 == R.TIL_SEGQ_PUSH u) fun s =>
        s.pushLost u
  | .tileWin t o =>
    s.offAccess a true (.tileWin t o) off bytes fun s =>
      (s.pmcTile t 0x11 1).modTile t fun x => { x with mem := x.mem.wrN o bytes value }
  | .herdWin h o =>
    s.offAccess a true (.herdWin h o) off bytes fun s =>
      (s.pmcHerd h 8 1).setHerd h { s.herd h with mem := (s.herd h).mem.wrN o bytes value }
  | .pcieCfg rp o =>
    s.offAccess a true (.pcieCfg rp o) off bytes fun s =>
      s.pcieWrite rp o bytes value
  | x => s.offAccess a true x off bytes id

/-- REGISTER_WRITE (R16). -/
def execRegisterWrite (a : Agent) (off bytes value : Nat) (s : State) : Host.Outcome State Fault Refusal :=
  s.runIf (instrWf (.registerWrite a off bytes value)) (s.regWrite a off bytes value)

/-- STREAM_EN_WRITE (R386): a 64-bit write of INK_Sn_CTRL. -/
def execStreamEnWrite (a : Agent) (stream value : Nat) (s : State) : Host.Outcome State Fault Refusal :=
  s.runIf (instrWf (.streamEnWrite a stream value)) (s.regWrite a (R.INK_S_CTRL stream) 8 value)

/-- REGISTER_READ (R16). -/
def execRegisterRead (a : Agent) (off bytes : Nat) (s : State) : Host.Outcome State Fault Refusal :=
  s.runIf (agentWf a && decide (off < 2 ^ 32) && decide (bytes < 65)) (s.regRead a off bytes)

/-! ### Management access (R479) and REGACC (R480) -/

/-- The answer of a register access as the management target returns it: status 0x00, or 0x02 for a register access error. -/
def State.mgmtAnswer (s : State) : State :=
  { s with mgmt := { s.mgmt with status := if s.rsp.kind = .ok then 0 else 2, data := s.rsp.data } }

/-- MGMT_READ64 (R479). -/
def execMgmtRead64 (off : Nat) (s : State) : Host.Outcome State Fault Refusal :=
  s.runIf (decide (off < 2 ^ 32)) (s.regRead .mgmt off 8).mgmtAnswer

/-- MGMT_READ32 (R479): the half that the offset names. -/
def execMgmtRead32 (off : Nat) (s : State) : Host.Outcome State Fault Refusal :=
  s.runIf (decide (off < 2 ^ 32)) (s.regRead .mgmt off 4).mgmtAnswer

/-- MGMT_WRITE64 (R479). -/
def execMgmtWrite64 (off value : Nat) (s : State) : Host.Outcome State Fault Refusal :=
  s.runIf (decide (off < 2 ^ 32) && decide (value < 2 ^ 64)) (s.regWrite .mgmt off 8 value).mgmtAnswer

/-- MGMT_WRITE32 (R479). -/
def execMgmtWrite32 (off value : Nat) (s : State) : Host.Outcome State Fault Refusal :=
  s.runIf (decide (off < 2 ^ 32) && decide (value < 2 ^ 64)) (s.regWrite .mgmt off 4 value).mgmtAnswer

/-- REGACC (R480): a 64-bit access. -/
def execRegacc (write : Bool) (off value : Nat) (s : State) : Host.Outcome State Fault Refusal :=
  s.runIf (decide (off < 2 ^ 32) && decide (value < 2 ^ 64)) (
    let s0 := { s with tap := { s.tap with instr := .regacc, driven := [] } }
    let s1 := if write then s0.regWrite .test off 8 value else s0.regRead .test off 8
    { s1 with tap := { s1.tap with dr := s1.rsp.data } })

end Sys2Proof.Machine
end

