-- ==== Sys2Proof/Machine/Snapshot.lean ====
section
/-!
DEFINITION. Snapshot.lean: snapshots from their request to their anchor, the commands that read them back, and the end of a ring
command that has run on (R394, R424 to R437).
-/

namespace Sys2Proof.Machine

/-! ### The snapshot list (R429, R430) -/

/-- The bytes of a descriptor's scale table with its write map (R430). -/
def Desc.scaleBytes (d : Desc) : Nat := if fmtFp8 d.fmt then d.mapOff + d.mapBytes else d.tableBytes

/-- A piece that is read in place. -/
def inPlace (kind addr len tensor : Nat) : Piece := { kind := kind, addr := addr, len := len, tensor := tensor, src := addr }

/-- The pieces of one slot of a tensor (R430). -/
def descPieces (d : Desc) (slot : Nat) : List Piece :=
  let off := if slot = 1 then d.voff else 0
  [inPlace 4 (d.base + off) (up64 d.extent) d.tensorId]
    ++ (if d.fawnPtr ≠ 0 then [inPlace 5 (d.fawnPtr + off) (up64 d.fawnExtent) d.tensorId] else [])
    ++ (if d.scalePtr ≠ 0 then [inPlace 6 (d.scalePtr + off) (up64 d.scaleBytes) d.tensorId] else [])

/-- Load k 64-bit words for a snapshot, or the status of the access that fails. -/
def State.snapLoad (s : State) (a k : Nat) : Except Nat (List Nat) × State :=
  match s.load Reach.snap a (8 * k) with
  | (.ok v, s1) => (.ok (toWords 64 k v), s1)
  | (e, s1) => (.error (ldStatus e), s1)

/-- The pieces of one list entry, each with a mark where it is to be staged, or the status with which the entry fails (R429, R430). -/
def State.snapEntry (s : State) (x : Slot) (w0 w1 : Nat) : Except Nat (List (Bool × Piece)) × State :=
  let a := bits w0 6 50 * 64
  if setBits (setBits w0 6 50 0) 62 2 0 ≠ 0 then (.error 3, s)
  else if bits w0 62 2 = 0 then (if w1 % 64 = 0 then .ok [(true, inPlace 3 a w1 0)] else .error 3, s)
  else if bits w0 62 2 = 1 ∧ w1 = 0 then
    match s.snapLoad a 8 with
    | (.error e, s1) => (.error e, s1)
    | (.ok ws, s1) =>
      match (descOf ws).filter fun d => d.formatOk && d.rangeOk with
      | none => (.error 3, s1)
      | some d =>
        match curSlot x d with
        | some k => (.ok ((descPieces d k).map fun q => (!d.versioned, q)), s1)
        | none => (.error 3, s1)
  else (.error 3, s)

/-- The pieces of the entries of a list at an address. -/
def State.snapList (s : State) (x : Slot) (addr count : Nat) : Except Nat (List (Bool × Piece)) × State :=
  (List.range count).foldl
    (fun (a : Except Nat (List (Bool × Piece)) × State) i =>
      match a.1 with
      | .error _ => a
      | .ok l =>
        match a.2.snapLoad (addr + 16 * i) 2 with
        | (.ok w, s1) =>
          match s1.snapEntry x (w.getD 0 0) (w.getD 1 0) with
          | (.ok m, s2) => (.ok (l ++ m), s2)
          | e => e
        | (.error e, s1) => (.error e, s1))
    (.ok [], s)

/-- Bytes of a context record, and of an intake commit record (R384, R390). -/
def recordBytes : Nat := 0x10000
def commitBytes : Nat := 0x1000

/-- The pieces ahead of the list entries (R429): the record, and, where the stream of the partition has an area, its commit record and
the batch buffers that the record names. -/
def State.snapFront (s : State) (p : Nat) (x : Slot) : List (Bool × Piece) :=
  let st := s.stream p
  let bufs := (st.bound.map fun e => (e.seq, e.buf)) ++ st.ready
  (true, inPlace 0 x.save recordBytes 0)
    :: (if s.inkArea p = 0 then []
        else (true, inPlace 1 (s.inkArea p) commitBytes 0)
          :: bufs.map fun (e : Nat × Nat) => (false, inPlace 2 (s.batchAddr p e.2) (s.batchStride p) 0))

/-! ### Chunks, manifest and anchor (R432 to R434) -/

/-- The length of a chunk. -/
def chunkLen : Nat := 0x100000
/-- Chunks of a piece, as offset and length. -/
def Piece.chunks (q : Piece) : List (Nat × Nat) :=
  (List.range ((q.len + chunkLen - 1) / chunkLen)).map fun i => (chunkLen * i, min chunkLen (q.len - chunkLen * i))
/-- The number of chunks of pieces. -/
def chunkCount (l : List Piece) : Nat := sumList (l.map fun q => q.chunks.length)

/-- Bytes of a manifest. -/
def manifestBytes (l : List Piece) (sign : Bool) : Nat := 256 + 32 * l.length + 64 * chunkCount l + (if sign then 256 else 0)

/-- Header word 0 of a manifest and of its anchor. -/
def snapWord0 (sign : Bool) : Nat := 0x534E4150 * 2 ^ 32 + 2 ^ 16 + b2n sign

/-- The item entries of a manifest. -/
def itemWords : Nat → List Piece → List Nat
  | _, [] => []
  | first, q :: r => [q.kind * 2 ^ 60 + q.addr % 2 ^ 56, q.len, first, q.tensor * 2 ^ 32] ++ itemWords (first + q.chunks.length) r

/-- The words of the header of a manifest. -/
def Slot.snapHeader (x : Slot) (p : Nat) : List Nat :=
  [snapWord0 x.snap.sign, x.job * 2 ^ 48 + x.ctx * 2 ^ 40 + p * 2 ^ 37 + x.snap.pkg * 2 ^ 16 + x.snap.epoch, x.snap.step,
    x.snap.period * 2 ^ 48 + x.snap.commitTick, x.snap.pieces.length * 2 ^ 32 + chunkCount x.snap.pieces,
    sumList (x.snap.pieces.map fun q => q.len)] ++ List.replicate 26 0

/-- The bytes of a manifest as a number, without its signature block. -/
def Slot.snapBody (x : Slot) (p : Nat) : Nat :=
  ofWords 64 (x.snapHeader p ++ itemWords 0 x.snap.pieces ++ x.snap.digests.flatMap fun d => toWords 64 8 d)

/-- The bytes of a manifest, signed with a key where it is to be signed. -/
def Slot.snapManifest (x : Slot) (p key : Nat) : Nat :=
  let n := manifestBytes x.snap.pieces false
  let b := x.snapBody p
  if x.snap.sign then b + 2 ^ (8 * n) * (Config.ecdsaSign key (leBytes n b) % 2 ^ 1056) else b

/-- The words of an anchor, from its manifest. -/
def Slot.snapAnchor (x : Slot) (p manifest : Nat) : List Nat :=
  let n := manifestBytes x.snap.pieces x.snap.sign
  let h := x.snapHeader p
  [h.getD 0 0, 0, h.getD 2 0, 0, h.getD 4 0, n, 0, 0] ++ toWords 64 8 (Config.sha512 (leBytes n manifest))

/-! ### The target (R433) -/

/-- A target descriptor that holds no reserved value. -/
def tgtOk (w : List Nat) : Bool :=
  let w0 := w.getD 0 0
  let k := bits w0 62 2
  (k == 1 || k == 2) && bits w0 56 6 == 0 && bits w0 32 2 == 0 && w.getD 3 0 % chunkLen == 0
    && (k == 2 || (w.getD 1 0 % chunkLen == 0 && w.getD 2 0 % chunkLen == 0)) && setBits (w.getD 4 0) 20 36 0 == 0
    && w.getD 6 0 == 0 && w.getD 7 0 == 0

/-- The address of an area of a buddy target, through its remote window (R35). -/
def tgtArea (w : List Nat) (bank : Nat) : Nat := 2 ^ 54 + bits (w.getD 0 0) 44 12 * 2 ^ 42 + w.getD (1 + bank) 0 % 2 ^ 42
/-- The staging area of a target. -/
def tgtStage (w : List Nat) : Nat := bits (w.getD 4 0) 20 36 * 2 ^ 20

/-! ### Capture (R431) -/

/-- Give every staged piece its place in the staging area, in order, from an offset on (log entry 62). -/
def placeStaged (stage : Nat) : Nat → List (Bool × Piece) → List Piece
  | _, [] => []
  | off, (st, q) :: r =>
    if st then { q with src := stage + off } :: placeStaged stage (off + up64 q.len) r else q :: placeStaged stage off r

/-- Copy bytes within unified memory. -/
def State.snapCopy (s : State) (src dst n : Nat) : Ld × State :=
  match s.load Reach.snap src n with
  | (.ok v, s1) => s1.store Reach.snap dst n v
  | e => e

/-- Stage one piece: the record is written as it stands, every other piece is copied. -/
def State.stagePiece (p : Nat) (x : Slot) (q : Piece) (s : State) : Ld × State :=
  if q.src = q.addr then (.ok 0, s)
  else if q.kind = 0 then (.ok 0, s.writeRecordAt p x 0 q.src)
  else s.snapCopy q.addr q.src q.len

/-- The pieces of a snapshot, with its target descriptor, or the status with which it fails: FORMAT where R430 or R433 finds an error,
RANGE where an area is too small (R435). -/
def State.snapPlan (s : State) (p : Nat) (x : Slot) : Except Nat (List Piece × List Nat) × State :=
  match s.snapLoad (x.fget R.SCH_SNAP_TGT F.SCH_SNAP_TGT_ADDR * 64) 8 with
  | (.ok w, s1) =>
    match s1.snapList x (x.fget R.SCH_SNAP_LIST F.SCH_SNAP_LIST_ADDR * 64) (x.fget R.SCH_SNAP_CTL F.SCH_SNAP_CTL_COUNT) with
    | (.ok l, s2) =>
      let all := s2.snapFront p x ++ l
      let ps := placeStaged (tgtStage w) 0 all
      let staged := sumList (all.map fun (e : Bool × Piece) => if e.1 then up64 e.2.len else 0)
      let size := chunkLen * (chunkCount ps + 1) + manifestBytes ps (x.fget R.SCH_SNAP_CTL F.SCH_SNAP_CTL_SIGN == 1)
      (if !tgtOk w then .error 3 else if decide (staged ≤ w.getD 5 0) && decide (size ≤ w.getD 3 0) then .ok (ps, w) else .error 2, s2)
    | (.error e, s2) => (.error e, s2)
  | (.error e, s1) => (.error e, s1)

/-- The area that does not hold the last complete snapshot; area A where no snapshot has completed (R432). -/
def Slot.snapBank (x : Slot) : Nat :=
  if x.fget R.SCH_SNAP_STAT F.SCH_SNAP_STAT_LAST_STEP = 0 then 0 else 1 - x.fget R.SCH_SNAP_STAT F.SCH_SNAP_STAT_BANK

/-- A snapshot is captured: G is pinned, and its staged pieces are on their way into the staging area. -/
def State.capture (s : State) (p k : Nat) (x : Slot) : State :=
  match s.snapPlan p x with
  | (.error e, s1) => s1.snapFail p k e
  | (.ok (ps, w), s1) =>
    if x.fget R.SCH_VER (pinFld x.gen) = 255 then s1.snapFail p k 7
    else
      let y := { (x.pin x.gen).fset R.SCH_SNAP_STAT F.SCH_SNAP_STAT_OUTCOME 2 with
        snap := { x.snap with phase := 2, gen := x.gen, step := x.nextStep, pieces := ps, digests := [], tgt := w, bank := x.snapBank,
                              pkg := s1.pkgId, epoch := s1.epoch, sign := x.fget R.SCH_SNAP_CTL F.SCH_SNAP_CTL_SIGN == 1 } }
      let s2 := { s1.setSlot p k y with snapQ := s1.snapQ ++ [x.ctx] }
      match accessAll ps (fun q s => State.stagePiece p x q s) s2 with
      | (.ok _, s3) => s3
      | (e, s3) => s3.snapFail p k (ldStatus e)

/-- SNAPSHOT_CAPTURE (R431). -/
def execSnapshotCapture (p slot : Nat) (s : State) : Host.Outcome State Fault Refusal :=
  s.runIf (instrWf (.snapshotCapture p slot)) (
    match s.slot? p slot with
    | some x =>
      if s.atBoundary 8 && x.snap.phase == 1 && x.snap.committed && x.pass == 0 && before x.decidedAt s.tick then
        s.work (snapUnit p) fun s => s.capture p slot x
      else s
    | none => s)

/-- SNAPSHOT_STAGING_DONE (R431). -/
def execSnapshotStagingDone (p slot : Nat) (s : State) : Host.Outcome State Fault Refusal :=
  s.runIf (instrWf (.snapshotStagingDone p slot)) (
    s.modSlot p slot fun x => if x.snap.phase = 2 then { x with snap := { x.snap with phase := 3 } } else x)

/-! ### Reading, and the anchor (R432) -/

/-- The I/O queue entry of an NVMe target, in the table of the snapshot engine (R366, R433). -/
def State.snapNvq (s : State) (tgt : List Nat) : Except Nat (List Nat) × State :=
  s.snapLoad (s.fget R.SNAP_NVQ F.SNAP_NVQ_ADDR * 64 + 16 * bits (tgt.getD 0 0) 38 6) 2

/-- The NVMe command that writes n bytes from an address of unified memory to an offset of an area (R361, R433). -/
def nvmeWrite (tgt : List Nat) (bank off src n : Nat) : NvmeCmd :=
  let b := (lbaBytes (bits (tgt.getD 0 0) 34 4)).getD 512
  { op := 1, qid := 0, nsid := bits (tgt.getD 0 0) 0 32, slba := tgt.getD (1 + bank) 0 + off / b, blocks := (n + b - 1) / b, addr := src, len := n }
/-- The NVMe Flush of a target. -/
def nvmeFlush (tgt : List Nat) : NvmeCmd := { op := 0, qid := 0, nsid := bits (tgt.getD 0 0) 0 32 }

/-- Write n bytes of a snapshot, which lie at an address of unified memory where it has one, to an offset of its area: by WR_LINE to a buddy
(R341), or by an NVMe Write (R361). -/
def State.snapPut (s : State) (g : SnapSt) (off src n v : Nat) : Ld × State :=
  if bits (g.tgt.getD 0 0) 62 2 = 1 then s.store Reach.snap (tgtArea g.tgt g.bank + off) n v
  else
    match s.snapNvq g.tgt with
    | (.ok w, s1) => if nvqOk w then (.ok 0, s1.nvmeSend w (nvmeWrite g.tgt g.bank off src n)) else (.decode, s1)
    | (.error e, s1) => (if e = 6 then .timeout else .decode, s1)

/-- A Flush goes out to an NVMe target (R432). -/
def State.snapFlush (s : State) (g : SnapSt) : Ld × State :=
  if bits (g.tgt.getD 0 0) 62 2 = 1 then (.ok 0, s)
  else
    match s.snapNvq g.tgt with
    | (.ok w, s1) => (.ok 0, s1.nvmeSend w (nvmeFlush g.tgt))
    | (.error e, s1) => (if e = 6 then .timeout else .decode, s1)

/-- The chunks of pieces, with their digests as they are read and written: the status of the access that fails, or none. -/
def State.snapDigests (s : State) (g : SnapSt) : Except Nat (List Nat) × State :=
  (g.pieces.flatMap fun q => q.chunks.map fun c => (q.src + c.1, c.2)).foldl
    (fun (a : Except Nat (List Nat) × State) (c : Nat × Nat) =>
      match a.1 with
      | .error _ => a
      | .ok ds =>
        match a.2.load Reach.snap c.1 c.2 with
        | (.ok v, s1) =>
          match s1.snapPut g (chunkLen * (ds.length + 1)) c.1 c.2 v with
          | (.ok _, s2) => (.ok (ds ++ [Config.sha512 (leBytes c.2 v)]), s2)
          | (e, s2) => (.error (ldStatus e), s2)
        | (e, s1) => (.error (ldStatus e), s1))
    (.ok [], s)

/-- Every piece has been read and its chunks are on their way: the pin is released, and the manifest follows them, which needs the identity
key where it is to be signed (R431, R432, R454). The manifest of an NVMe target is named at the staging area (log entry 63). -/
def State.snapRead (s : State) (p k : Nat) (x : Slot) : State :=
  if x.snap.sign && s.idKey.isNone then s.snapFail p k 7
  else
    match s.snapDigests x.snap with
    | (.error e, s1) => s1.snapFail p k e
    | (.ok ds, s1) =>
      let y := { x.unpin x.snap.gen with snap := { x.snap with phase := 4, digests := ds } }
      let s2 := (s1.setSlot p k y).inkFill p
      match s2.snapPut x.snap (chunkLen * (ds.length + 1)) (tgtStage x.snap.tgt) (manifestBytes x.snap.pieces x.snap.sign)
          (y.snapManifest p (s.idKey.getD 0)) with
      | (.ok _, s3) =>
        match s3.snapFlush x.snap with
        | (.ok _, s4) => s4
        | (e, s4) => s4.snapFail p k (ldStatus e)
      | (e, s3) => s3.snapFail p k (ldStatus e)

/-- SNAPSHOT_READ_DONE (R431, R432): snapshots are read in capture order. -/
def execSnapshotReadDone (p slot : Nat) (s : State) : Host.Outcome State Fault Refusal :=
  s.runIf (decide (p < 8) && decide (slot < 4)) (
    match s.slot? p slot with
    | some x =>
      if x.snap.phase = 3 ∧ s.snapQ.head? = some x.ctx then s.work (snapUnit p) fun s => s.snapRead p slot x else s
    | none => s)

/-- The snapshot of a context is complete (R428, R432). -/
def State.snapComplete (s : State) (p k : Nat) (x : Slot) : State :=
  let y := (({ x with snap := {} }.fset R.SCH_SNAP_STAT F.SCH_SNAP_STAT_LAST_STEP x.snap.step).fset R.SCH_SNAP_STAT
    F.SCH_SNAP_STAT_BANK x.snap.bank).fset R.SCH_SNAP_STAT F.SCH_SNAP_STAT_OUTCOME 3
  let s1 := { s.setSlot p k y.snapAgain with snapQ := s.snapQ.erase x.ctx }
  ((s1.fadd R.SNAP_STAT F.SNAP_STAT_COMPLETED 1).lifeAdd 31 1).fset R.HLT_AGE F.HLT_AGE_TICKS 0

/-- The anchor of a snapshot goes out, and the snapshot is complete. -/
def State.snapAnchors (s : State) (p k : Nat) (x : Slot) : State :=
  let anchor := ofWords 64 (x.snapAnchor p (x.snapManifest p (s.idKey.getD 0)))
  match s.snapPut x.snap 0 (tgtStage x.snap.tgt) 4096 anchor with
  | (.ok _, s1) =>
    match s1.snapFlush x.snap with
    | (.ok _, s2) => s2.snapComplete p k x
    | (e, s2) => s2.snapFail p k (ldStatus e)
  | (e, s1) => s1.snapFail p k (ldStatus e)

/-- SNAPSHOT_ANCHOR (R432): the anchor goes out last, once every chunk and the manifest have been acknowledged; a manifest that is to be
signed needs the identity key (R454). -/
def execSnapshotAnchor (p slot : Nat) (s : State) : Host.Outcome State Fault Refusal :=
  s.runIf (instrWf (.snapshotAnchor p slot)) (
    match s.slot? p slot with
    | some x =>
      if x.snap.phase ≠ 4 || s.unitAsks (snapUnit p) then s
      else if x.snap.sign && s.idKey.isNone then s.snapFail p slot 7
      else s.work (snapUnit p) fun s => s.snapAnchors p slot x
    | none => s)

/-! ### The commands (R437) -/

/-- A snapshot command finds the engine enabled. -/
def State.snapOn (s : State) : Bool := s.fbit R.SNAP_CTL F.SNAP_CTL_EN

/-- The context in a slot as SNAPSHOT leaves it: its snapshot is due, or is due when the one in progress has ended. -/
def Slot.snapAsk (x : Slot) (atStep : Option Nat) : Slot :=
  if x.snap.phase = 0 then
    { x with snap := { phase := 1, atStep := atStep } }.fset R.SCH_SNAP_STAT F.SCH_SNAP_STAT_OUTCOME 1
  else { x with snapNext := some atStep }

/-- SNAPSHOT (R437). -/
def execSnapshot (p : Nat) (rec : CmdRec) (s : State) : Host.Outcome State Fault Refusal :=
  s.runIf (instrWf (.snapshot p rec)) (s.commandOk p 0x30 rec
    { s.ctxChk p rec with
      fmt := wordsOk rec [mask 0 0, mask 0 47],
      state := (s.ctxChk p rec).state && s.snapOn && (match s.resident p rec.ctx with
        | some e => e.2.fget R.SCH_SNAP_CTL F.SCH_SNAP_CTL_COUNT != 0 && e.2.snap.phase != 1 && e.2.snapNext.isNone
        | none => false) }
    fun s =>
      let a := if bit rec.w1 0 then some (bits rec.w2 0 48) else none
      (match s.resident p rec.ctx with | some e => s.setSlot p e.1 (e.2.snapAsk a) | none => s, 0))

/-- SNAP_CANCEL cancels what is due, or else fails what is in progress (R435). -/
def State.snapCancel (s : State) (p k : Nat) (x : Slot) : State :=
  if x.snapNext.isSome then s.setSlot p k { x with snapNext := none }
  else if x.snap.phase = 1 then s.snapEnd p k 5
  else s.snapFail p k 7

/-- SNAP_CANCEL (R437). -/
def execSnapCancel (p : Nat) (rec : CmdRec) (s : State) : Host.Outcome State Fault Refusal :=
  s.runIf (instrWf (.snapCancel p rec)) (s.commandOk p 0x31 rec
    { s.ctxChk p rec with
      fmt := wordsOk rec [],
      state := (s.ctxChk p rec).state && s.snapOn && (match s.resident p rec.ctx with
        | some e => e.2.snapBusy
        | none => false) }
    fun s => (match s.resident p rec.ctx with | some e => s.snapCancel p e.1 e.2 | none => s, 0))

/-- The context of RESTORE or REFILL is not known, and the stream of the partition does not run (R437). -/
def State.freshChk (s : State) (p : Nat) (r : CmdRec) (masks : List Nat) : Chk where
  fmt := wordsOk r masks
  range := decide (bits r.w3 20 36 * 2 ^ 20 < 2 ^ 42) && (match s.ctxs.find? r.ctx with | some c => c.part == p | none => true)
  state := (s.ctxs.find? r.ctx).isNone && !s.fbit (R.INK_S_CTRL p) F.INK_S_CTRL_EN && s.snapOn

/-- The save area that RESTORE and REFILL write. -/
def recSave (r : CmdRec) : Nat := bits r.w3 20 36 * 2 ^ 20

/-- RESTORE and REFILL begin with the invalid header (R426). -/
def State.beginRestore (s : State) (p op : Nat) (r : CmdRec) : State :=
  match s.store Reach.save (recSave r + headerOff) 8 (2 ^ 64 - 1) with
  | (.ok _, s1) => s1.startExec p op r 0
  | (e, s1) => s1.complete p op r e.status 0

/-- RESTORE (R436, R437). -/
def execRestore (p : Nat) (rec : CmdRec) (s : State) : Host.Outcome State Fault Refusal :=
  s.runIf (instrWf (.restore p rec)) (s.command p 0x32 rec
    { s.freshChk p rec [mask 6 55, mask 0 2, mask 20 55, mask 6 55] with
      fmt := wordsOk rec [mask 6 55, mask 0 2, mask 20 55, mask 6 55] && bits rec.w2 0 2 != 3 }
    fun s => s.beginRestore p 0x32 rec)

/-- REFILL (R424, R437). -/
def execRefill (p : Nat) (rec : CmdRec) (s : State) : Host.Outcome State Fault Refusal :=
  s.runIf (instrWf (.refill p rec)) (s.command p 0x33 rec
    (s.freshChk p rec [mask 0 11, mask 20 55, mask 20 55, mask 6 55, mask 0 19])
    fun s => s.beginRestore p 0x33 rec)

/-- RECORD (R437). -/
def execRecord (p : Nat) (rec : CmdRec) (s : State) : Host.Outcome State Fault Refusal :=
  s.runIf (instrWf (.record p rec)) (s.commandOk p 0x34 rec
    { s.ctxChk p rec with
      fmt := wordsOk rec [],
      state := (s.ctxChk p rec).state && s.snapOn && (s.resident p rec.ctx).isSome && !s.inFlight p rec.ctx }
    fun s => (match s.resident p rec.ctx with | some e => s.writeRecord p e.2 0 | none => s, 0))

/-- VERIFY (R437): refused with STATE only while SNAP_CTL.EN is 0. -/
def execVerify (p : Nat) (rec : CmdRec) (s : State) : Host.Outcome State Fault Refusal :=
  s.runIf (instrWf (.verify p rec)) (s.command p 0x35 rec
    { fmt := wordsOk rec [mask 6 55, mask 0 2, 0, mask 6 55] && bits rec.w2 0 2 != 3,
      range := match s.ctxs.find? rec.ctx with | some c => c.part == p | none => true, state := s.snapOn }
    fun s => s.startExec p 0x35 rec 0)

/-! ### Reading back (R424, R436) -/

/-- n bytes from line i of what has been read. -/
def linesAt (lines : List Nat) (i n : Nat) : Nat := ofWords 512 ((lines.drop i).take (up64 n / 64)) % 2 ^ (8 * n)

/-- The end of a read-back: its status, and its result. -/
structure Back where
  status : Nat := 0
  result : Nat := 0
deriving DecidableEq, Repr

/-- The status of an access of the snapshot engine: FAULT for a line that cannot be read (R19). -/
def Ld.backStatus : Ld → Nat
  | .data => 4
  | e => e.status

/-- An item of a manifest. -/
def itemAt (m : Nat) (i : Nat) : Piece :=
  let w (j : Nat) : Nat := bits m (8 * (256 + 32 * i + 8 * j)) 64
  inPlace (bits (w 0) 60 4) (bits (w 0) 0 56) (w 1) (bits (w 3) 32 32)

/-- Where a chunk of a restored piece is written: the record to the staging area, the commit record to the stream's area, every other
chunk to where it was taken. -/
def State.backAddr (s : State) (p : Nat) (w : List Nat) (q : Piece) : Nat :=
  if q.kind = 0 then tgtStage w else if q.kind = 1 then s.inkArea p else q.addr

/-- What RESTORE and VERIFY do with the chunks: compare each digest, and write the chunk where `wr` is set; `i` is the index of the
next chunk, `at0` its first line, `digAt` the byte of the manifest at which the digests begin. -/
def State.backChunks (p : Nat) (w : List Nat) (wr : Bool) (lines : List Nat) (m digAt : Nat) :
    List (Piece × Nat × Nat) → Nat → Nat → State → Nat × State
  | [], _, _, s => (0, s)
  | (q, off, n) :: r, i, at0, s =>
    let v := linesAt lines at0 n
    if lines.length < at0 + up64 n / 64 then (6, s)
    else if Config.sha512 (leBytes n v) ≠ bits m (8 * (digAt + 64 * i)) 512 then
      (3, (s.fadd R.SNAP_STAT F.SNAP_STAT_DIGEST_FAIL 1).event R.SNAP_STAT (some F.SNAP_STAT_DIGEST_FAIL) [i])
    else
      let e := if wr then s.store Reach.snap (s.backAddr p w q + off) n v else (.ok 0, s)
      if e.1.isOk then State.backChunks p w wr lines m digAt r (i + 1) (at0 + up64 n / 64) e.2 else (e.1.backStatus, e.2)

/-- The anchor is valid (R432): its first 64 lines hold the words of R432. -/
def anchorOk (lines : List Nat) : Bool :=
  let a := linesAt lines 0 128
  decide (64 ≤ lines.length) && bits a 1 63 == snapWord0 false / 2

/-- The signature of a manifest is right, or none is asked for (R436). -/
def State.sigOk (s : State) (r : CmdRec) (m n : Nat) : Bool × State :=
  let signed := bit m 0
  if !signed && !bit r.w2 2 then (true, s)
  else if !signed then (false, s)
  else
    match s.load Reach.snap (bits r.w4 6 50 * 64) 133 with
    | (.ok key, s1) => (Config.ecdsaOk key (leBytes (n - 256) (m % 2 ^ (8 * (n - 256)))) (bits m (8 * (n - 256)) 1056), s1)
    | (_, s1) => (false, s1)

/-- The pieces of a manifest with their chunks. -/
def manifestChunks (m : Nat) : List (Piece × Nat × Nat) :=
  ((List.range (bits m (8 * 32 + 32) 32)).map (itemAt m)).flatMap fun q => q.chunks.map fun c => (q, c.1, c.2)

/-- RESTORE writes the record into the save area, with FAULTED = 0 (R436). -/
def State.backRecord (s : State) (w : List Nat) (save : Nat) : Nat × State :=
  match s.load Reach.snap (tgtStage w) recordBytes with
  | (.ok v, s1) =>
    let e := s1.store Reach.save save recordBytes (setBits v (8 * headerOff + 34) 1 0)
    (e.1.backStatus, e.2)
  | (e, s1) => (e.backStatus, s1)

/-- A restore that has written the commit record of an intake stream rebuilds its batch queue from it (R384). -/
def State.backInk (s : State) (p : Nat) (l : List (Piece × Nat × Nat)) : Nat × State :=
  if s.inkArea p = 0 || !(l.any fun c => c.1.kind == 1) then (0, s)
  else
    match s.load Reach.snap (s.inkArea p) 0xFF8 with
    | (.ok v, s1) => (0, s1.inkRebuild p v)
    | (e, s1) => (e.backStatus, s1)

/-- RESTORE and VERIFY on what they have read: the anchor of the area that they use (64 lines), its manifest, and its chunks in order,
each from a line on. -/
def State.readBack (s : State) (p : Nat) (r : CmdRec) (wr : Bool) (lines : List Nat) : Back × State :=
  match s.loadWords Reach.snap (bits r.w1 6 50 * 64) 8 with
  | (none, s1) => ({ status := 2 }, s1)
  | (some w, s1) =>
    let a := linesAt lines 0 128
    let n := bits a 320 64
    let m := linesAt lines 64 n
    let chunks := manifestChunks m
    if !tgtOk w || !anchorOk lines then ({ status := 3 }, s1)
    else if lines.length < 64 + up64 n / 64 then ({ status := 6 }, s1)
    else if Config.sha512 (leBytes n m) ≠ bits a 512 512 then ({ status := 3 }, s1)
    else
      let g := s1.sigOk r m n
      if !g.1 then ({ status := 3 }, g.2)
      else
        match State.backChunks p w wr lines m (256 + 32 * bits m (8 * 32 + 32) 32) chunks 0 (64 + up64 n / 64) g.2 with
        | (0, s2) =>
          let e := if wr then s2.backRecord w (recSave r) else (0, s2)
          let b := if wr && e.1 = 0 then e.2.backInk p chunks else e
          ({ status := b.1, result := if b.1 = 0 then bits m 128 48 else 0 }, b.2)
        | (st, s2) => ({ status := st }, s2)

/-- The context that a record describes, for what its version table and generation say. -/
def recordSlot (v : Nat) : Slot :=
  ((newSlot 0 0).putRecord v).putHeader ((List.range 6).map fun i => bits v (8 * (headerOff + 8 * i)) 64)

/-- Write pieces from what has been read, from a line on. -/
def State.putPieces (lines : List Nat) : List Piece → Nat → State → Nat × State
  | [], _, s => (0, s)
  | q :: r, at0, s =>
    if lines.length < at0 + up64 q.len / 64 then (6, s)
    else
      match s.store Reach.snap q.addr q.len (linesAt lines at0 q.len) with
      | (.ok _, s1) => State.putPieces lines r (at0 + up64 q.len / 64) s1
      | (e, s1) => (e.backStatus, s1)

/-- The batch buffers that a commit record names (R384). -/
def State.namedBuffers (s : State) (p commit : Nat) : List Piece :=
  let l := (Config.intakeParse (commit % 2 ^ (8 * 0xFF8))).drop 10
  (List.range (l.length / 2)).map fun i => inPlace 2 (s.batchAddr p (l.getD (2 * i + 1) 0)) (s.batchStride p) 0

/-- REFILL on what it has read through the window (R424): the donor's record (1,024 lines), the pieces of the list entries in list
order, and, where the stream has an area, the commit record (64 lines) and the batch buffers that it names. -/
def State.refilled (s : State) (p : Nat) (r : CmdRec) (lines : List Nat) : Back × State :=
  let rv := linesAt lines 0 recordBytes
  if lines.length < recordBytes / 64 then ({ status := 6 }, s)
  else
    match s.snapList (recordSlot rv) (bits r.w4 6 50 * 64) (bits r.w5 0 20) with
    | (.error e, s1) => ({ status := e }, s1)
    | (.ok l, s1) =>
      let ps := l.map fun (e : Bool × Piece) => e.2
      let at1 := recordBytes / 64 + sumList (ps.map fun q => up64 q.len / 64)
      let ink := if s1.inkArea p = 0 then []
        else inPlace 1 (s1.inkArea p) commitBytes 0 :: s1.namedBuffers p (linesAt lines at1 commitBytes)
      match State.putPieces lines (ps ++ ink) (recordBytes / 64) s1 with
      | (0, s2) =>
        let e := s2.store Reach.save (recSave r) recordBytes (setBits rv (8 * headerOff + 34) 1 0)
        ({ status := e.1.backStatus, result := if e.1.isOk then bits rv (8 * (headerOff + 8)) 48 else 0 },
          if e.1.isOk && !ink.isEmpty then e.2.inkRebuild p (linesAt lines at1 commitBytes % 2 ^ (8 * 0xFF8)) else e.2)
      | (st, s2) => ({ status := st }, s2)

/-! ### COMMAND_COMPLETION (R394) -/

/-- A MOVE whose accesses have ended (R268, R285): one to the peer tier begins, and one whose ranges have moved completes. -/
def State.moveEnd (s : State) (p : Nat) (e : Exec) : State :=
  if recTier e.cmd = 2 && !e.agreed then (s.moveStart e.cmd).agree p e
  else if s.moveReady e.cmd then s.complete p e.op e.cmd 0 e.result
  else s

/-- A PEER whose accesses have ended (R269, R285): the remote side has agreed, and once the checks of the span hold still, it is mapped and
the caches acknowledge it. -/
def State.peerEnd (s : State) (p : Nat) (e : Exec) : State :=
  if e.agreed then (if s.spanAcked e.cmd then s.complete p e.op e.cmd 0 e.result else s)
  else if !s.peerOk e.cmd then (s.countRefusal p e.op 1).complete p e.op e.cmd 1 0
  else
    let s1 := s.peerDone e.cmd
    if s1.spanAcked e.cmd then s1.complete p e.op e.cmd 0 e.result else s1.agree p e

/-- A placement command that the remote side refuses is counted as refused (R285, R396). -/
def State.refusedLate (s : State) (p : Nat) (e : Exec) (status : Nat) : State :=
  s.when (decide (0x20 ≤ e.op ∧ e.op < 0x30)) fun s => s.countRefusal p e.op status

/-- A ring command that has run on ends with OK: its effect, and its completion record. -/
def State.execEnd (s : State) (p : Nat) (e : Exec) (lines : List Nat) : State :=
  let ok (s : State) : State := s.complete p e.op e.cmd 0 e.result
  let acked : State := if s.spanAcked e.cmd then ok s else s
  let back (b : Back × State) : State := b.2.complete p e.op e.cmd b.1.status b.1.result
  match e.op with
  | 0x20 => acked
  | 0x21 => acked
  | 0x22 => acked
  | 0x23 => s.moveEnd p e
  | 0x24 => if s.reserveReady e.cmd then ok (s.reserveDone e.cmd) else s
  | 0x26 => s.peerEnd p e
  | 0x32 => back (s.readBack p e.cmd true lines)
  | 0x33 => back (s.refilled p e.cmd lines)
  | 0x35 => back (s.readBack p e.cmd false lines)
  | _ => ok s

/-- COMMAND_COMPLETION (R394): `status` is that of the accesses on which the command waited, OK or what ended it (R19). -/
def execCommandCompletion (p status : Nat) (lines : List Nat) (s : State) : Host.Outcome State Fault Refusal :=
  s.runIf (decide (p < 8) && decide (status < 8) && (lines.all fun x => decide (x < 2 ^ 512))) (
    match (s.part p).exec with
    | some e => if status = 0 then s.execEnd p e lines else (s.refusedLate p e status).complete p e.op e.cmd status 0
    | none => s)

end Sys2Proof.Machine
end

