-- ==== Sys2Proof/Machine/Startup.lean ====
section
/-!
DEFINITION. Startup.lean: start-up from the configuration memory to the release of server core 0, and configuration failure
(spec/17_configuration_and_security.md, R417, R438 to R448, R451, R454, R469).
-/

namespace Sys2Proof.Machine

/-! ### The image (R439) -/

/-- A word of the image header. -/
def State.hdr (s : State) (w : Nat) : Nat := s.flashGet (8 * w) 8
/-- Fields of the header. -/
def State.imgSvn (s : State) : Nat := bits (s.hdr 0) 0 8
def State.imgSlot (s : State) : Nat := bits (s.hdr 0) 8 8
def State.imgBytes (s : State) : Nat := s.hdr 2
def State.preOff (s : State) : Nat := bits (s.hdr 3) 32 32
def State.preCount (s : State) : Nat := bits (s.hdr 3) 0 32
def State.payOff (s : State) : Nat := bits (s.hdr 4) 32 32
def State.payBytes (s : State) : Nat := bits (s.hdr 4) 0 32
def State.imgEntry (s : State) : Nat := bits (s.hdr 5) 0 56
def State.imgLife (s : State) : Nat := bits (s.hdr 6) 0 32
def State.sigOff (s : State) : Nat := bits (s.hdr 7) 0 32
/-- PUBKEY, as the number of its 133 bytes. -/
def State.imgKey (s : State) : Nat := s.flashGet 64 133

/-- The largest configuration memory (R438). -/
def flashBytes : Nat := 0x10000000

/-- The fixed values and reserved bits of the header (R439). -/
def State.hdrFixed (s : State) : Bool :=
  bits (s.hdr 0) 16 48 == 0x4D4F4C520001 && s.hdr 1 == 0x4160A1 * 2 ^ 40 && bits (s.hdr 5) 56 8 == 0 && bits (s.hdr 6) 32 32 == 0
    && bits (s.hdr 7) 32 32 == 0 && s.flashGet 197 59 == 0

/-- The offsets and lengths of the header: multiples, limits, order, and that all lies within the device (R439). -/
def State.hdrLayout (s : State) : Bool :=
  decide (s.imgSvn ≤ 64) && s.preOff % 16 == 0 && decide (s.preCount ≤ 65536) && s.payOff % 0x10000 == 0
    && decide (64 ≤ s.payBytes ∧ s.payBytes ≤ 240 * 2 ^ 20) && s.payBytes % 64 == 0 && decide (s.imgEntry < s.payBytes)
    && s.imgLife % 0x10000 == 0 && decide (s.imgBytes ≤ s.imgLife) && s.sigOff + 256 == s.imgBytes
    && decide (256 ≤ s.preOff) && decide (s.preOff + 16 * s.preCount ≤ s.payOff) && decide (s.payOff + s.payBytes ≤ s.sigOff)
    && decide (s.imgLife + 0x1000000 ≤ flashBytes)

/-- The bytes that the signature and the digest of pass 1 cover (R439, R441). -/
def State.signedBytes (s : State) : List (BitVec 8) := leBytes s.sigOff (s.flashGet 0 s.sigOff)
/-- r and s of the signature block (R434). -/
def State.imgSig (s : State) : Nat := s.flashGet s.sigOff 132
/-- SHA-512 of PUBKEY. -/
def State.keyDigest (s : State) : Nat := Config.sha512 (leBytes 133 s.imgKey)

/-- The package is open (R451). -/
def State.openPkg (s : State) : Bool := s.fuses.valid == 0

/-- The first of the checks 0x1 to 0x6 that fails, 0 where none does (R442). -/
def State.imgCause (s : State) (mode : Option Nat) : Nat :=
  if mode.isNone then 1
  else if !(s.hdrFixed && s.hdrLayout) then 2
  else if !(if s.openPkg then s.imgSlot == 0xFF else decide (s.imgSlot < 2) && s.slotAccepts s.imgSlot) then 3
  else if !(s.openPkg || s.keyDigest == s.fuses.owner.getD s.imgSlot 0) then 4
  else if s.imgSvn < s.fuses.count then 5
  else if !Config.ecdsaOk s.imgKey s.signedBytes s.imgSig then 6
  else 0

/-! ### Step 1 -/

/-- The identity key is unwrapped into the key store (R454). -/
def State.unwrapKey (s : State) : State :=
  let key := if s.fuses.provisioned then Config.keyUnwrap s.fuses.sealKey s.fuses.wrapped else none
  match key with
  | some k =>
    (forRange 17 (fun w (s : State) => s.fset (R.SEC_IDPUB w) F.SEC_IDPUB_POINT (bits (Config.publicPoint k) (64 * w) 64))
      { s with idKey := some k }).fset R.SEC_FUSE_STAT F.SEC_FUSE_STAT_ID_BAD 0
  | none => { s with idKey := none }.fset R.SEC_FUSE_STAT F.SEC_FUSE_STAT_ID_BAD 1

/-- Show the step in progress. -/
def State.bootStep (s : State) (n : Nat) : State := s.fset R.PKG_STATUS F.PKG_STATUS_STEP n

/-- Step 1: fuses, serial number, RESET_REASON, and the guard, which starts blocked. -/
def State.boot1 (s : State) : State :=
  let s1 := (((s.bootStep 1).showFuses.unwrapKey.fset R.PKG_SERIAL F.PKG_SERIAL_SERIAL s.fuses.serial).fset R.FLT_STATUS
    F.FLT_STATUS_RESET_REASON s.pwr.reason).fset R.CFG_STATUS F.CFG_STATUS_GUARD 1
  s1.fset R.CFG_STATUS F.CFG_STATUS_OPEN (b2n s.openPkg)

/-! ### Configuration failure (R444) -/

/-- A package reset that start-up follows has ended (R414). -/
def State.packageDone (s : State) : State := { s with doms := s.doms.filter fun (d : Dom) => d.code != 6 }.showActive

/-- The package enters configuration failure with a cause. -/
def State.cfgFail (s : State) (cause : Nat) : State :=
  (((s.fset R.CFG_STATUS F.CFG_STATUS_FAILED 1).fset R.CFG_STATUS F.CFG_STATUS_CAUSE cause).lifeAdd 35 1).packageDone.alert

/-! ### Preload (R440) -/

/-- A preload write: a management write that also sets CFG fields and meets no fence; false where it is a register access error. -/
def State.preWrite (s : State) (off value : Nat) : Bool × State :=
  let bad : Bool × State := (false, s.badWrite .mgmt off)
  if off % 8 ≠ 0 ∨ 0xC0000000 ≤ off then bad
  else
    match regPlace off with
    | .blk b u base =>
      match hitAt b u base off with
      | some h =>
        if h.isCtx then bad
        else
          let s0 := s.answer .ok 0
          let s1 := s0.writeHit .mgmt h none (s0.regWr h off 8 value true)
          (s1.rsp.kind == .ok, s1)
      | none => bad
    | .pcieCfg rp o => (true, s.pcieWrite rp o 8 value)
    | .pcieOut _ => (true, s)
    | _ => bad

/-- Word w of preload record i. -/
def State.preWord (s : State) (i w : Nat) : Nat := s.flashGet (s.preOff + 16 * i + 8 * w) 8

/-- A record addresses the die 0 and die 1 blocks. -/
def State.preLate (s : State) (i : Nat) : Bool := decide (0x40000000 ≤ bits (s.preWord i 0) 0 32)

/-- The host link of the die that a record addresses has no working module. -/
def State.preCut (s : State) (i : Nat) : Bool := s.preLate i && s.ucieLost (if bits (s.preWord i 0) 0 32 < 0x80000000 then 0 else 1)

/-- Apply the records of a list in order; the index of the first that fails. -/
def State.preload : List Nat → State → Option Nat × State
  | [], s => (none, s)
  | i :: l, s =>
    let w := s.preWord i 0
    let one : Bool × State :=
      if bits w 32 24 ≠ 0 ∨ 2 ≤ bits w 56 8 then (false, s)
      else if bits w 56 8 = 0 then (true, s)
      else if s.preCut i then (false, s)
      else s.preWrite (bits w 0 32) (s.preWord i 1)
    if one.1 then State.preload l (one.2.fadd R.CFG_IMAGE F.CFG_IMAGE_RECORDS 1) else (some i, one.2)

/-- The records of one of the two groups. -/
def State.preGroup (s : State) (late : Bool) : List Nat := (List.range s.preCount).filter fun i => s.preLate i == late

/-! ### Training (R443, steps 5 and 6) -/

/-- UCIe modules that fail training leave their links: bits 0 to 11 and 12 to 23 the host links of die 0 and die 1, from bit 24 on the
die 0 to die 1 link (R29). -/
def State.trainUcie (s : State) (fail : Nat) : State :=
  forRange 3 (fun l s =>
    let m := bits fail (12 * l) (ucieCount l)
    { s with ucieOut := Map.put 0 s.ucieOut l m, ucieHash := Map.put 0 s.ucieHash l m }.lifeAdd 28 (popcount 16 m)) s

/-- Stacks and capacity buses that fail training have their frames held out. -/
def State.trainMem (s : State) (sm bm : Nat) : State :=
  ((s.fset R.CFG_MEM_FAIL F.CFG_MEM_FAIL_STACKS sm).fset R.CFG_MEM_FAIL F.CFG_MEM_FAIL_BUSES bm).fset R.CFG_STATUS
    F.CFG_STATUS_MEM_FAIL sm

/-! ### The lifetime region (R443, step 7, R448, R469) -/

/-- An area has no valid bank. -/
def State.showEmpty (s : State) (bit : Nat) : State := s.fOr R.CFG_STATUS F.CFG_STATUS_LIFE_EMPTY (2 ^ bit)

/-- The first entry of a unit in the remap area, in entries. -/
def remapFirst (u : Nat) : Nat := if u < 16 then 4096 * u else 65536 + 1024 * (u - 16)

/-- A unit takes its remap table from the area, as it was persisted. -/
def State.loadRemap (s : State) (u : Nat) (l : List Nat) : State :=
  let es := ((l.drop (remapFirst u)).take (remapSize u)).filter fun e => bit e 63
  if es = [] then s
  else
    let s1 := { s with remap := s.remap.insert u es }
    ((s1.fset (remapReg u) F.STK_REMAP_STAT_USED es.length).fset (remapReg u) F.STK_REMAP_STAT_FULL
      (b2n (decide (es.length = remapSize u)))).fset (remapReg u) F.STK_REMAP_STAT_RETIRED
      (es.filter fun e => bits e 61 2 == 3).length

/-- Bytes of a list as little-endian words of n bytes. -/
def wordsOf (n : Nat) (l : List Nat) : List Nat :=
  (List.range (l.length / n)).map fun i => ofWords 8 ((l.drop (n * i)).take n)

/-- Remap entries are restored. -/
def State.lifeRemaps (s : State) : State :=
  match s.areaRead 0 with
  | some (_, _, c) => forRange 48 (fun u s => s.loadRemap u (wordsOf 8 c)) s
  | none => s.showEmpty 0

/-- Bad frames are restored. -/
def State.lifeBad (s : State) : State :=
  match s.areaRead 1 with
  | some (_, _, c) =>
    { s with bad := (wordsOf 4 c).foldl (fun m e => Map.put false m (frameKey (bits e 31 1) (bits e 0 21)) true) s.bad }
  | none => s.showEmpty 1

/-- Tile failures and the out-of-service state are restored; a power-on in that state makes it clearable (R418, R419). -/
def State.lifeService (s : State) : State :=
  let t : State :=
    match s.areaRead 2 with
    | some (_, _, c) =>
      let v := Config.serviceParse (ofWords 8 c)
      let s1 := forRange 16 (fun h (s : State) => s.fOr (R.FLT_HERD h) F.FLT_HERD_FAILED (v.getD h 0)) s
      let s2 := s1.fOr R.FLT_STATUS F.FLT_STATUS_OOS (v.getD 16 0)
      s2.fOr R.FLT_STATUS F.FLT_STATUS_OOS_CLEARABLE (v.getD 17 0)
    | none => s.showEmpty 2
  if t.oos then
    let t1 := { t with doms := t.doms.filter (fun (d : Dom) => d.code != 5) ++ [{ code := 5, unit := 0, phase := 3, since := t.clk.tb }] }
    if s.pwr.reason = 0 then (t1.fset R.FLT_STATUS F.FLT_STATUS_OOS_CLEARABLE 1).lifeTouch 2 else t1
  else t

/-- A log record is valid: magic, serial number and CRC (R469). -/
def State.logValid (s : State) (i : Nat) : Bool :=
  let a := s.logOff i
  s.flashGet a 8 == 0x4C4F4752 && s.flashGet (a + 40) 8 == s.fuses.serial
    && crc32c (numBytes (logBytes - 64) (s.flashGet (a + 64) (logBytes - 64))) == s.flashGet (a + 32) 8

/-- The valid record with the highest sequence number. -/
def State.logLast (s : State) : Option Nat :=
  leastBy (fun i => 2 ^ 64 - s.flashGet (s.logOff i + 8) 8) ((List.range logRecords).filter s.logValid)

/-- The totals of a record (R467). -/
def State.logLoad (s : State) (i : Nat) : State :=
  let w (k : Nat) : Nat := s.flashGet (s.logOff i + 64 + 8 * k) 8
  let s1 := forRange 256 (fun k s => s.fset (R.LIF_CNT k) F.LIF_CNT_VALUE (w k)) s
  forRange 32 (fun h s => forRange 32 (fun k s => s.fset (R.LIF_HIST h k) F.LIF_HIST_VALUE (w (256 + 32 * h + k))) s) s1

/-- The lifetime log is read (R469): at a power-on the totals are taken from it. -/
def State.lifeLog (s : State) : State :=
  match s.logLast with
  | none => s.showEmpty 3
  | some i =>
    let q := s.flashGet (s.logOff i + 8) 8
    let s1 := if s.pwr.reason = 0 then s.logLoad i else s
    ({ s1 with logSeq := q, logAt := s.flashGet (s.logOff i + 16) 8 }.fset R.LIF_STATUS F.LIF_STATUS_SLOT ((i + 1) % logRecords)).fset
      R.LIF_STATUS F.LIF_STATUS_SEQ q

/-- Step 7, with the fuse repairs of the stacks (R326); a start-up after a power-on is counted once the totals are there (R465). -/
def State.boot7 (s : State) : State :=
  let s1 := s.fuseLoad.lifeRemaps.lifeBad.lifeService.lifeLog
  if s.pwr.reason = 0 then s1.lifeAdd 0 1 else s1

/-! ### Tile self-test and numbering (R416, R417, step 8) -/

/-- A physical tile fails its self-test at start-up. -/
def State.selfTest (s : State) (h phys : Nat) : State :=
  if bit (s.fget (R.FLT_HERD h) F.FLT_HERD_FAILED) phys then s
  else
    let s1 := (s.fOr (R.FLT_HERD h) F.FLT_HERD_FAILED (2 ^ phys)).logFault { cls := 7, unit := h, kind := 2, cause := 0x16 }
    ((s1.event (R.FLT_HERD h) (some F.FLT_HERD_FAILED) []).lifeAdd 29 1).lifeTouch 2

/-- The logical numbers of a herd: those from the count of its working tiles on are absent. -/
def State.numberTiles (s : State) (h : Nat) : State :=
  let m := s.fget (R.FLT_HERD h) F.FLT_HERD_FAILED
  let n := 13 - popcount 13 m
  { s with sparing := Map.put 0 s.sparing h m }.fset (R.FLT_HERD h) F.FLT_HERD_ABSENT (2 ^ 12 - 2 ^ min n 12)

/-- Step 8: bit 13 h + k of `fail` names physical tile k of herd h. -/
def State.boot8 (s : State) (fail : Nat) : State :=
  forRange 16 (fun h s =>
    (forRange 13 (fun k s => s.when (bit fail (13 * h + k)) fun s => s.selfTest h k) s).numberTiles h) s

/-! ### Pass 2 and the release (R445, steps 9 and 10) -/

/-- The command record that maps the ranges of the payload: partition 0, the capacity tier, pinned. -/
def payloadRec (n : Nat) : CmdRec := ⟨0, 0, 0, (n - 1) * 2 ^ 32, 2 ^ 8 + 2 ^ 7, 0, 0, 0, 0, 0⟩

/-- Step 9: the payload lies in zeroed ranges from unified address 0 on. -/
def State.boot9 (s : State) : State :=
  let n := (s.payBytes + 2 ^ 20 - 1) / 2 ^ 20
  let r := payloadRec n
  let s1 := (s.mapSpan r).getD s
  (s1.store Reach.server 0 s.payBytes (s.flashGet s.payOff s.payBytes)).2

/-- Step 10: READY, server core 0, and the training of the ports. -/
def State.boot10 (s : State) : State :=
  let s1 := (((s.bootStep 10).fset R.PKG_STATUS F.PKG_STATUS_READY 1).fOr (R.PKG_CORE_RELM 0) F.PKG_CORE_RELM_CORES 1).startServer 0
    { pc := s.imgEntry, a0 := 0, a1 := s.payBytes }
  let s2 := forRange 36 (fun g s => s.trains g) s1
  if s2.doms.any fun (d : Dom) => d.code == 6 then (s2.packageDone).countReset 6 0 else s2

/-- The image that has passed its checks is the running image (R439, R442). -/
def State.takeImage (s : State) : State :=
  let g := R.CFG_IMAGE
  { ((s.fset g F.CFG_IMAGE_SVN s.imgSvn).fset g F.CFG_IMAGE_KEY_SLOT s.imgSlot).fset g F.CFG_IMAGE_LIFE_OFF s.imgLife with
    pubDigest := s.keyDigest }

/-- CFG_DIGESTw holds the digest of pass 1 (R443). -/
def State.showDigest (s : State) : State :=
  forRange 8 (fun w t => t.fset (R.CFG_DIGEST w) F.CFG_DIGEST_DIGEST (bits (Config.sha512 s.signedBytes) (64 * w) 64)) s

/-- Steps 6 to 10. -/
def State.bootRest (s : State) (inp : StartIn) : State :=
  let s1 := (((s.bootStep 6).trainMem (inp.stackFail % 2 ^ 16) (inp.busFail % 2 ^ 32)).bootStep 7).boot7
  let s2 := ((s1.bootStep 8).boot8 inp.tileFail).bootStep 9
  if inp.payloadDiffers then s2.boot9.cfgFail 8 else if inp.timeout then s2.boot9.cfgFail 9 else s2.boot9.boot10

/-- Steps 4 and 5: the two groups of preload records with the training of the UCIe links between them. -/
def State.bootPre (s : State) (inp : StartIn) : State :=
  match State.preload (s.preGroup false) (s.bootStep 4) with
  | (some i, s1) => (s1.fset R.CFG_STATUS F.CFG_STATUS_RECORD i).cfgFail 7
  | (none, s1) =>
    let s2 := (s1.bootStep 5).trainUcie inp.ucieFail
    match State.preload (s.preGroup true) s2 with
    | (some i, s3) => (s3.fset R.CFG_STATUS F.CFG_STATUS_RECORD i).cfgFail 7
    | (none, s3) => s3.bootRest inp

/-- Steps 2 and 3, and what follows. -/
def State.boot (s : State) (inp : StartIn) : State :=
  let s1 := (s.boot1.bootStep 2).fset R.CFG_STATUS F.CFG_STATUS_MODE (inp.mode.getD 0)
  match s.imgCause inp.mode with
  | 0 => ((s1.bootStep 3).showDigest.takeImage).bootPre inp
  | 1 => s1.cfgFail 1
  | 2 => (s1.bootStep 3).cfgFail 2
  | c => (s1.bootStep 3).showDigest.cfgFail c

/-- Start-up may begin: supplies are up, RESET_L is deasserted, it has not ended, and a package reset has cleared the package. -/
def State.mayBoot (s : State) : Bool :=
  !s.fbit R.PKG_STATUS F.PKG_STATUS_READY && !s.fbit R.CFG_STATUS F.CFG_STATUS_FAILED && s.pwr.pwrOk && !s.pwr.resetL && !s.pwr.trip
    && s.doms.all fun d => d.code != 6 || d.phase == 2

/-- STARTUP (R443). -/
def execStartup (inp : StartIn) (s : State) : Host.Outcome State Fault Refusal :=
  .next (if s.mayBoot then s.boot inp else s)

/-- CONFIG_READ_TIMEOUT (R69, R442): the image has not been read and checked within 5 s. -/
def execConfigReadTimeout (s : State) : Host.Outcome State Fault Refusal :=
  .next (if s.mayBoot then s.boot1.cfgFail 9 else s)

end Sys2Proof.Machine
end

