-- ==== Sys2Proof/Machine/Tick.lean ====
section
/-!
DEFINITION. Tick.lean: the tick boundary, the watchdogs and timeouts, and the tick markers of a domain (R53, R55, R59, R63, R64,
R69 to R72, R198, R427, R428). TICK_BOUNDARY carries out actions 1 to 3 of R55; actions 4 to 7 are commands of their own, and action 8 follows them.
-/

namespace Sys2Proof.Machine

/-! ### What counts at a boundary -/

/-- A herd holds work of the running context (R69): a task queued or popped, or a segment queued or running on one of its tiles. -/
def State.herdWorks (s : State) (h : Nat) : Bool :=
  match s.ctxOfHerd h with
  | none => false
  | some (p, x) =>
    match (s.part p).run with
    | none => false
    | some k =>
      (s.herd h).tasks.any (fun q => q.slot == k) || (s.herd h).popped.any (fun q => q.slot == k)
        || (List.range 12).any fun i =>
            (s.tile (12 * h + i)).queue.any (fun q => q.ctx == x.ctx)
              || (match (s.tile (12 * h + i)).run with | some r => r.ctx == x.ctx | none => false)

/-- A herd holds work at a boundary that no switch of its partition takes (R69, R401). -/
def State.herdBusy (s : State) (h : Nat) : Bool :=
  s.herdWorks h && (match s.partOfHerd h with | some p => (s.part p).sw.isNone | none => false)

/-- The heartbeat and herd watchdogs of a herd count this boundary: it holds work and is not fenced (R69). -/
def State.herdCounts (s : State) (h : Nat) : Bool := s.herdBusy h && !s.fenced 2 h

/-- The segment watchdog of a tile counts this boundary (R69, R401). -/
def State.tileCount (s : State) (t : Nat) : State :=
  match (s.tile t).run with
  | some r => if s.tileFenced t then s else s.modTile t fun x => { x with run := some { r with bounds := r.bounds + 1 } }
  | none => s

/-- The watchdogs of a herd and its control cores count. -/
def State.herdCount (s : State) (h : Nat) : State :=
  if s.herdCounts h then
    let one (c : Nat) (s : State) : State := s.setCore c { s.core c with hb := (s.core c).hb + 1 }
    let s1 := s.setHerd h { s.herd h with wd := (s.herd h).wd + 1 }
    one (2 * h + 1) (one (2 * h) s1)
  else s

/-- The watchdog of a die counts while one of its herds holds work and the die itself is not fenced (R69). -/
def State.dieCount (s : State) (d : Nat) : State :=
  if ((List.range 8).any fun i => s.herdBusy (8 * d + i)) && !s.fenced 3 d then
    { s with dieWd := Map.put 0 s.dieWd d (Map.get 0 s.dieWd d + 1) }
  else s

/-- Every watchdog counts the boundary (R55, action 3). -/
def State.watchdogs (s : State) : State :=
  let s1 := forRange 2 (fun d (s : State) => s.dieCount d) s
  let s2 := forRange 16 (fun h (s : State) => s.herdCount h) s1
  s2.tiles.foldl (fun (s : State) (e : Nat × Tile) => s.tileCount e.1) s2

/-- A resident context at a boundary: its time slice, the boundaries since it was found blocked, and a rejoin that takes effect
(R400, R422). -/
def State.slotTick (s : State) (p k : Nat) (x : Slot) : Slot :=
  let y := { x with ran := if (s.part p).run = some k ∧ (s.part p).sw.isNone then x.ran + 1 else x.ran,
                    blockedTicks := if s.blockCode p x = 0 then 0 else satAdd 32 x.blockedTicks 1 }
  if x.rejoin then
    { (y.fset R.SCH_REGROUP F.SCH_REGROUP_ACTIVE 0).fset R.SCH_REGROUP F.SCH_REGROUP_EXPIRED 0 with rejoin := false, regroupEnd := none }
  else y

/-- The resident contexts of every partition. -/
def State.slotsTick (s : State) : State :=
  forRange 8 (fun p (s : State) => forRange 4 (fun k (s : State) =>
    match s.slot? p k with
    | some x => s.setSlot p k (s.slotTick p k x)
    | none => s) s) s

/-- A byte-counter set takes a window length written since the last boundary (R461). -/
def BwSet.take (x : BwSet) : BwSet :=
  match x.pend with
  | some w => { x with win := w, pend := none, cut := true }
  | none => x

/-- REF commands that each channel of a locked stack issues in a refresh slot (R320). -/
def State.slotRefs (s : State) : Nat := 2 ^ (s.pLog - 13)

/-- What waited in the last refresh slot has been served; refresh locks written since the last boundary take effect, but that of a stack
with a die above 85 °C, which is suspended; and a refresh slot begins in which every channel of a locked stack issues its REF commands
(R62, R320, R321). -/
def State.refBegin (s : State) : State :=
  let s0 := { s with clk := { s.clk with refSlot := false } }.slotOver fun _ => true
  let on := (List.range 16).filter fun k => s0.fbit (R.STK_CTRL k) F.STK_CTRL_REF_LOCK && decide (s0.pLog ≤ 16)
  let hot := on.filter fun k => s0.fbit (R.STK_STATUS k) F.STK_STATUS_THERM_2X && !s0.fbit (R.STK_STATUS k) F.STK_STATUS_LOCK_SUSPENDED
  let s1 := hot.foldl State.suspendLock { s0 with refLocked := on }
  let live := on.filter fun k => s1.lockOn k
  let s2 := live.foldl (fun s k => forRange 64 (fun c (s : State) => s.issueRefs (64 * k + c) s.slotRefs) s) s1
  { s2 with clk := { s2.clk with refSlot := !live.isEmpty },
            postponed := s2.postponed.dropKeys fun c => live.contains (c / 64) }

/-! ### The health monitor (R427, R428) -/

/-- An accumulator after a boundary, in 32.16 fixed point. -/
def hltStep (acc ev decay : Nat) : Nat := acc - acc / 2 ^ decay + ev * 65536

/-- A term of an accumulator under its weight. -/
def hltTerm (acc w : Nat) : Nat := min 255 (acc * w / 2 ^ 24)

/-- The four accumulators after a boundary. -/
def State.hltNext (s : State) : List Nat :=
  (List.range 4).map fun i => hltStep (s.hltAcc.getD i 0) (s.hltEv.getD i 0) (s.fget R.HLT_CTL F.HLT_CTL_DECAY)

/-- The six terms of the score in the order ce, link, droop, reset, thermal, age. -/
def State.hltTerms (s : State) (acc : List Nat) : List Nat :=
  let ws := [F.HLT_WGT_W_CE, F.HLT_WGT_W_LINK, F.HLT_WGT_W_DROOP, F.HLT_WGT_W_RESET].map fun f => s.fget R.HLT_WGT f
  let hot := max s.hotDie s.hotStack
  ((List.range 4).map fun i => hltTerm (acc.getD i 0) (ws.getD i 0))
    ++ [min 255 ((hot - s.fget R.HLT_CTL F.HLT_CTL_T_REF) * s.fget R.HLT_WGT2 F.HLT_WGT2_W_THERM),
        min 255 (s.fget R.HLT_AGE F.HLT_AGE_TICKS / 2 ^ 20 * s.fget R.HLT_WGT2 F.HLT_WGT2_W_AGE)]

/-- The score shows in HLT_SCORE. -/
def State.showScore (s : State) (ts : List Nat) : State :=
  let g := R.HLT_SCORE
  let s1 := (((s.fset g F.HLT_SCORE_CE (ts.getD 0 0)).fset g F.HLT_SCORE_LINK (ts.getD 1 0)).fset g F.HLT_SCORE_DROOP
    (ts.getD 2 0)).fset g F.HLT_SCORE_RESET (ts.getD 3 0)
  ((s1.fset g F.HLT_SCORE_THERM (ts.getD 4 0)).fset g F.HLT_SCORE_AGE (ts.getD 5 0)).fset g F.HLT_SCORE_SCORE (min 255 (sumList ts))

/-- A snapshot becomes due in every resident context with AUTO = 1 and none due or in progress (R428). -/
def State.snapsDue (s : State) : State :=
  forRange 8 (fun p (s : State) => forRange 4 (fun k (s : State) =>
    s.modSlot p k fun x =>
      if x.fget R.SCH_SNAP_CTL F.SCH_SNAP_CTL_AUTO = 1 ∧ x.snap.phase = 0 then x.snapAsk none else x) s) s

/-- The health monitor at a boundary. -/
def State.healthTick (s : State) : State :=
  let s0 := s.fset R.HLT_AGE F.HLT_AGE_TICKS (min (2 ^ 48 - 1) (s.fget R.HLT_AGE F.HLT_AGE_TICKS + 1))
  if s0.fbit R.HLT_CTL F.HLT_CTL_EN then
    let acc := s0.hltNext
    let old := s0.fget R.HLT_SCORE F.HLT_SCORE_SCORE
    let s1 := { s0 with hltAcc := acc, hltEv := [0, 0, 0, 0] }.showScore (s0.hltTerms acc)
    let new := s1.fget R.HLT_SCORE F.HLT_SCORE_SCORE
    let th := s1.fget R.HLT_CTL F.HLT_CTL_THRESH
    let s2 := s1.when (decide (th ≤ new)) State.snapsDue
    s2.when (decide (old < th) && decide (th ≤ new)) fun s => s.event R.HLT_SCORE (some F.HLT_SCORE_SCORE) []
  else { s0 with hltEv := [0, 0, 0, 0] }

/-! ### The boundary -/

/-- What TCK_RATE asks for, in parts per 10^9; a follower ignores it (R66). -/
def State.ratePpb (s : State) : Int :=
  if s.fget R.TCK_SYNC F.TCK_SYNC_ROLE = 2 then 0 else toInt 32 (s.fget R.TCK_RATE F.TCK_RATE_RATE_PPB)

/-- The clock after its rate adjustment over n counts of the time base, with the counts gained by it (R66). -/
def Clock.rate (c : Clock) (ppb : Int) (n : Nat) : Int × Clock :=
  let a := (c.rateAcc : Int) + n * ppb
  (a / 1000000000, { c with rateAcc := (a % 1000000000).toNat })

/-- The time base reaches its next boundary; a multiple of one second on the way starts a TIME_PPS pulse (R51, R52, R68). The tick
takes fewer or more cycles of the tile clock by what TCK_RATE and slewing add to the time base or take from it (R64, R66; log entry
1). -/
def State.toBoundary (s : State) : State :=
  let tb := s.clk.tb
  let next := (tb / s.period + 1) * s.period
  let (gain, c) := s.clk.rate s.ratePpb (next - tb)
  let cyc := (((next - tb : Nat) : Int) - gain - c.slewNow).toNat
  let s1 := { s with clk := { c.pass (next - tb) with cyc := c.cyc + cyc, slewNow := 0, phase := 3, refill := true } }
  s1.when ((decide (tb / cyclesPerSecond < next / cyclesPerSecond) || decide (2 ^ 64 ≤ next))
      && s.fbit R.TCK_CTRL F.TCK_CTRL_PPS_OUT_EN) fun s =>
    { s with clk := { s.clk with ppsLeft := ppsCycles - s.clk.tb % cyclesPerSecond } }

/-- What one cycle of the tile clock adds to the time base: one, with what TCK_RATE and slewing add or take (R51, R64, R66). -/
def State.advance (s : State) : Nat × Clock :=
  let (gain, c) := s.clk.rate s.ratePpb 1
  let slew : Int := if 0 < c.slewNow then 1 else if c.slewNow < 0 then -1 else 0
  ((1 + gain + slew).toNat, { c with slewNow := c.slewNow - slew })

/-- One cycle of the tile clock passes while nothing is commanded (R51, R68). A cycle in which the time base would reach a boundary is
left to TICK_BOUNDARY (log entry 1). -/
def State.cycle (s : State) : State :=
  let (n, c) := s.advance
  if (s.clk.tb / s.period + 1) * s.period ≤ s.clk.tb + n then s
  else
    let s0 := s.leaves
    let s1 := { s0 with clk := { c.pass n with cyc := c.cyc + 1, phase := 9, refill := false } }
    (s1.when (decide (s.clk.tb / cyclesPerSecond < s1.clk.tb / cyclesPerSecond)) State.ppsStart).when
      (s1.clk.refSlot && !s1.slotOpen) fun s => { s with clk := { s.clk with refSlot := false } }.slotOver fun _ => true

/-- What slewing takes in a tick that begins: at most 64 cycles (R64). -/
def slewTick (n : Int) : Int := max (-64) (min 64 n)

/-- What a follower has still to slew after a boundary: at most 64 cycles go (R64). -/
def slewStep (n : Int) : Int := n - slewTick n

/-- The message of a tick marker (R63). -/
def tickMsg (pkg bnd time : Nat) : AfrMsg :=
  { vc := 3, typ := 0x30, dst := 0xFFFF, src := pkg, epoch := 0, len := 1, tag := 0, arg := 0, data := [Config.tickSlot bnd time] }

/-- The counts of lines that wait for a boundary: collectives, and ranges without a SAVED_ACT write (R272, R355). -/
def State.waitTick (s : State) : State :=
  { s with
    colls := s.colls.map fun (e : Nat × List Coll) =>
      (e.1, e.2.map fun (c : Coll) => if c.started && !c.done then { c with waited := c.waited + 1 } else c),
    quiet := (s.quiet.map fun (e : Nat × Nat) => (e.1, e.2 + 1)).filter fun (e : Nat × Nat) => decide (e.2 < 16) }

/-- Each tile reports the segments that retired during the tick to the step scheduler of its partition (R55, action 2). -/
def State.takeReports (s : State) : State :=
  let s1 := { s with parts := s.parts.map fun (e : Nat × Part) => (e.1, { e.2 with reports := [] }) }
  let s2 := s.tiles.foldl
    (fun (s : State) (e : Nat × Tile) => e.2.report.foldl (fun s g => s.segReport e.1 g 0) s) s1
  { s2 with tiles := s2.tiles.map fun (e : Nat × Tile) => (e.1, { e.2 with report := [] }) }

/-- TICK_BOUNDARY (R55). -/
def execTickBoundary (s : State) : Host.Outcome State Fault Refusal :=
  .next (
    let s1 := s.leaves.toBoundary.takeReports
    let s2 := { s1 with bw := s1.bw.map fun (e : Nat × BwSet) => (e.1, e.2.take) }.watchdogs
    let s3 := s2.slotsTick.waitTick.refBegin.healthTick.thermal
    let s4 := { s3 with clk := { s3.clk with slewNow := slewTick s3.clk.slew, slew := slewStep s3.clk.slew } }
    s4.when (s4.fget R.TCK_SYNC F.TCK_SYNC_ROLE == 1) fun s => s.flood none (tickMsg s.pkgId s.tick s.clk.tb))

/-! ### Segments over time (R59, R69, R198) -/

/-- The lead of a running segment sets a flag in TIL_SEG_STATUS. -/
def State.segFlag (s : State) (t : Nat) (f : Fld) : State := s.fset (R.TIL_SEG_STATUS t) f 1

/-- Cycles since the start of a segment, as the time base counts them. -/
def State.elapsed (s : State) (r : Run) : Nat := (s.clk.tb + 2 ^ 64 - r.start % 2 ^ 64) % 2 ^ 64

/-- BUDGET_OVER (R198): once for a segment whose running time has passed its budget, which runs on. -/
def execBudgetOver (t : Nat) (s : State) : Host.Outcome State Fault Refusal :=
  s.runIf (decide (t < 192)) (
    match (s.tile t).run with
    | some r =>
      if r.overBudget || decide (s.elapsed r ≤ r.img.budget) then s
      else (s.modTile t fun x => { x with run := some { r with overBudget := true } }).segFlag t F.TIL_SEG_STATUS_BUDGET_OVER
    | none => s)

/-- SEG_OVERRUN (R59): once for a segment that has not retired one period after its start, which runs on. -/
def execSegOverrun (t : Nat) (s : State) : Host.Outcome State Fault Refusal :=
  s.runIf (instrWf (.segOverrun t)) (
    match (s.tile t).run with
    | some r =>
      if r.overran || decide (s.elapsed r < s.period) then s
      else
        let s1 := (s.modTile t fun x => { x with run := some { r with overran := true } }).segFlag t F.TIL_SEG_STATUS_SEG_OVERRUN
        (s1.fadd (R.TIL_SEG_RETIRED t) F.TIL_SEG_RETIRED_OVERRUNS 1).pmcTile t 0x13 1
    | none => s)

/-- A watchdog expires: it is logged as a timeout and counted, and the health monitor takes it as a reset input (R69, R72, R427,
R465). -/
def State.watchdog (s : State) (e : LogEntry) : State := ((s.timeoutLog { e with cause := 0x13 }).health 3 1).lifeAdd 11 1

/-- SEG_HANG (R69): the segment is dropped, the tile domain of every member is reset (R60), and the step is aborted (R72). -/
def execSegHang (t : Nat) (s : State) : Host.Outcome State Fault Refusal :=
  s.runIf (instrWf (.segHang t)) (
    match (s.tile t).run with
    | some r =>
      if !s.atBoundary 3 || decide (r.bounds < s.fget R.TCK_WDOG F.TCK_WDOG_SEG_TICKS) then s
      else
        let s1 := (s.stopRun t).segRecord t r.img.segId r.lastIdx 0xB
        let s2 := s1.watchdog { cls := 5, dom := 1, unit := t, kind := 1, cause := 0x13, segId := r.img.segId, index := r.lastIdx }
        let s3 := s2.abortHerd (t / 12)
        r.members.foldl (fun (s : State) u => (s.modTile u fun x => { x with hangs := x.hangs + 1 }).resetDue 1 u) s3
    | none => s)

/-! ### Control cores, herds and dies (R69) -/

/-- HEARTBEAT_EXPIRY (R69): an interrupt and an event, and the watchdog counts afresh. -/
def execHeartbeatExpiry (c : Nat) (s : State) : Host.Outcome State Fault Refusal :=
  s.runIf (instrWf (.heartbeatExpiry c)) (
    if !s.atBoundary 3 || decide ((s.core c).hb < s.fget R.TCK_WDOG F.TCK_WDOG_HB_TICKS) then s
    else
      let s1 := s.setCore c { s.core c with hb := 0, irq := (s.core c).irq ||| 2 }
      (s1.watchdog { cls := 5, unit := c, kind := 9, cause := 0x13 }).event (R.HRD_HEARTBEAT (c / 2))
        (some { F.HRD_HEARTBEAT_BEAT with lo := c % 2 }) [c])

/-- HERD_WATCHDOG (R69): the herd domain is reset, and the step in flight is aborted (R72). -/
def execHerdWatchdog (h : Nat) (s : State) : Host.Outcome State Fault Refusal :=
  s.runIf (instrWf (.herdWatchdog h)) (
    if !s.atBoundary 3 || decide ((s.herd h).wd < s.fget R.TCK_WDOG F.TCK_WDOG_HERD_TICKS) then s
    else
      let s1 := s.setHerd h { s.herd h with wd := 0 }
      ((s1.watchdog { cls := 5, dom := 2, unit := h, kind := 2, cause := 0x13 }).abortHerd h).resetDue 2 h)

/-- DIE_WATCHDOG (R69): the die compute domain is reset, and the steps in flight on it are aborted (R72). -/
def execDieWatchdog (d : Nat) (s : State) : Host.Outcome State Fault Refusal :=
  s.runIf (instrWf (.dieWatchdog d)) (
    if !s.atBoundary 3 || decide (Map.get 0 s.dieWd d < s.fget R.TCK_WDOG F.TCK_WDOG_DIE_TICKS) then s
    else
      let s1 := { s with dieWd := Map.put 0 s.dieWd d 0 }.watchdog { cls := 5, dom := 3, unit := d, kind := 3, cause := 0x13 }
      (forRange 8 (fun i (s : State) => s.abortHerd (8 * d + i)) s1).resetDue 3 d)

/-! ### Memory and UCIe timeouts (R69, R71) -/

/-- The requests of an agent for a line that have had no answer. -/
def State.askedBy (s : State) (ag line : Nat) : List Txn :=
  ((match s.busyAt line with | some b => b.cur.toList ++ b.waiters | none => [])
    ++ (Map.get [] s.reqQ (sliceOf line)).filterMap fun q => if q.1 = line then some q.2 else none).filter fun t => t.ag == ag

/-- A request that waits at its home is given up by its requester. -/
def State.giveUp (s : State) (ag line : Nat) : State :=
  let s1 := s.modBusy line fun b => { b with waiters := b.waiters.filter fun t => t.ag != ag }
  { s1 with reqQ := s1.reqQ.map fun e => (e.1, e.2.filter fun q => !(q.1 == line && q.2.ag == ag)) }

/-- An error response for a request to an agent (R71). -/
def State.errorResponse (s : State) (ag line : Nat) : State :=
  (s.giveUp ag line).agentFails ag (match s.askedBy ag line with | t :: _ => t.part | [] => 0) 2

/-- MEM_REQUEST_TIMEOUT (R69): an error response to the requester. -/
def execMemRequestTimeout (ag line : Nat) (s : State) : Host.Outcome State Fault Refusal :=
  s.runIf (instrWf (.memRequestTimeout ag line)) (
    let u := memUnit line
    (s.timeoutAt { cls := 5, unit := u.2, kind := u.1, cause := 0x13, arg := line * 64 }).errorResponse ag line)

/-- The link of module m of a die, and its number there (R460). -/
def moduleLink (d m : Nat) : Nat × Nat := if m < 12 then (d, m) else (2, m - 12)

/-- A module is retrained: it carries traffic again (R29, R69). -/
def State.retrain (s : State) (d m : Nat) : State :=
  let l := moduleLink d m
  { s with ucieOut := Map.put 0 s.ucieOut l.1 (setBits (s.ucieGone l.1) l.2 1 0) }

/-- UCIE_TIMEOUT (R69): an error response to the requester, and the module is retrained: module 0 to 27 of a die as R460 numbers
them. -/
def execUcieTimeout (d module ag line : Nat) (s : State) : Host.Outcome State Fault Refusal :=
  s.runIf (instrWf (.ucieTimeout d module ag line)) (
    let m := 28 * d + module
    let s1 := s.timeoutAt { cls := 5, unit := m, kind := 8, cause := 0x13, arg := line * 64 }
    ((((s1.lifeAdd 27 1).histAdd 24 m 1).health 1 1).retrain d module).errorResponse ag line)

/-! ### Tick markers (R63, R64) -/

/-- 200 ns in cycles. -/
def lockCycles : Nat := 220

/-- LOCKED falls: counted, with an event (R64). -/
def State.unlock (s : State) : State :=
  if s.fbit R.TCK_STATUS F.TCK_STATUS_LOCKED then
    ((s.fset R.TCK_STATUS F.TCK_STATUS_LOCKED 0).fadd R.TCK_STATUS F.TCK_STATUS_UNLOCK_COUNT 1).event R.TCK_STATUS
      (some F.TCK_STATUS_LOCKED) []
  else s

/-- The upstream port of a follower: of the ports that are up, the one with the fewest hops to the master, the lowest on a tie (R63).
How far the master lies behind a port is open (log entry 2). -/
def State.upPort (s : State) : Option Nat := leastBy Config.tickHops ((List.range 36).filter s.portUp)

/-- TCK_SYNC shows the upstream port and its hops. -/
def State.upstream (s : State) (port : Nat) : State :=
  (s.fset R.TCK_SYNC F.TCK_SYNC_UPSTREAM port).fset R.TCK_SYNC F.TCK_SYNC_HOPS (Config.tickHops port)

/-- The offset of the local boundary from the master's, in cycles: the master's time base at this cycle less the local one. -/
def State.markerOffset (s : State) (time delay : Nat) : Int := toInt 64 ((time + delay + 2 ^ 64 - s.clk.tb) % 2 ^ 64)

/-- A marker whose boundary number is the follower's own (R64): offset, lock and slewing. -/
def State.markerIn (s : State) (off : Int) : State :=
  let s1 := s.fset R.TCK_OFFSET F.TCK_OFFSET_OFFSET (ofInt 32 off)
  let s2 := { s1 with clk := { s1.clk with slew := off } }
  if off.natAbs ≤ lockCycles then
    let n := min 16 (s2.clk.inLock + 1)
    { s2 with clk := { s2.clk with inLock := n } }.when (n == 16) fun s =>
      { s.fset R.TCK_STATUS F.TCK_STATUS_LOCKED 1 with clk := { s.clk with locked1 := true } }
  else { s2 with clk := { s2.clk with inLock := 0 } }.unlock

/-- A marker follows that of the boundary before, or breaks the run of consecutive markers (R64). -/
def State.markRun (s : State) (bnd : Nat) : State :=
  { s with clk := { s.clk with lastMark := some bnd, markAt := s.tick,
                               inLock := if (s.clk.lastMark.map fun b => (b + 1) % 2 ^ 48) = some bnd then s.clk.inLock else 0 } }

/-- The time base as a marker steps it at the first lock since start-up, which is made only while no context is resident (R64). -/
def State.markerStep (s : State) (time delay : Nat) : State :=
  if !s.clk.locked1 && !s.anyResident then
    let s0 := s.leaves
    let s1 := { s0 with clk := { s0.clk with tb := (time + delay) % 2 ^ 64, phase := 9, locked1 := true, slew := 0, slewNow := 0 } }
    { s1 with clk := { s1.clk with markAt := s1.tick } }
  else s

/-- A marker at a follower: one whose boundary number differs from TCK_COUNT is a sync error (R63); any other measures the offset. A
marker that steps the time base is held against the TCK_COUNT that the step leaves (log entry 89). -/
def State.marker (s : State) (bnd time delay : Nat) : State :=
  let s1 := (s.markRun bnd).markerStep time delay
  if bnd ≠ s1.tick then { s1 with clk := { s1.clk with inLock := 0 } }.fset R.TCK_STATUS F.TCK_STATUS_SYNC_ERR 1
  else s1.markerIn (s1.markerOffset time delay)

/-- TICK (R63): a follower receives a marker; `delay` is the link delay that it has measured. It takes and forwards the markers of its
upstream port. -/
def execTick (port bnd time delay : Nat) (s : State) : Host.Outcome State Fault Refusal :=
  s.runIf (instrWf (.tick port bnd time delay)) (
    if s.fget R.TCK_SYNC F.TCK_SYNC_ROLE = 2 ∧ s.upPort = some port then
      let s1 := ((s.upstream port).fset R.TCK_STATUS F.TCK_STATUS_HOLDOVER 0).marker bnd time delay
      s1.flood (some port) (tickMsg s.pkgId bnd ((time + delay) % 2 ^ 64))
    else s)

/-- MARKER_LOSS (R64): four consecutive markers have failed to arrive, as the follower counts boundaries. -/
def execMarkerLoss (s : State) : Host.Outcome State Fault Refusal :=
  .next (
    if s.fget R.TCK_SYNC F.TCK_SYNC_ROLE = 2 ∧ s.clk.markAt + 4 ≤ s.tick then
      { s with clk := { s.clk with inLock := 0 } }.unlock.fset R.TCK_STATUS F.TCK_STATUS_HOLDOVER 1
    else s)

end Sys2Proof.Machine
end

