-- ==== Sys2Proof/Machine/TileVec.lean ====
section
/-!
DEFINITION. TileVec.lean: the VEC, CVT and RED classes (spec/05_vector_engine.md; R178 to R180), each over the functions of
Vector.lean in every member of the gang.
-/

namespace Sys2Proof.Machine

/-- A tile function that sets no flag. -/
def plainTile (f : Tile → Tile) (t : Tile) : Tile × Nat := (f t, 0)

/-- What a VEC operation does to a tile (R140 to R145). -/
def vecFn (op : VecOp) (o : VecOps) (n : NumCtx) (u : Tile) : Tile × Nat :=
  match op with
  | .add => vecApply u o (addOut n u o)
  | .mul => vecApply u o (mulOut n u o)
  | .fma => vecApply u o (fmaOut n u o)
  | .min => vecApply u o (minOut u o)
  | .max => vecApply u o (maxOut u o)
  | .sel => vecApply u o (selOut u o)
  | .iadd => vecApply u o (intOut u o (· + ·))
  | .imin => vecApply u o (intOut u o Min.min)
  | .imax => vecApply u o (intOut u o Max.max)
  | .cmp rel => plainTile (fun u => cmpApply u o rel) u
  | .icmp rel => plainTile (fun u => icmpApply u o rel) u
  | .mand => plainTile (fun u => maskApply u o fun r c => u.mask o.a.reg r c && u.mask o.b.reg r c) u
  | .mor => plainTile (fun u => maskApply u o fun r c => u.mask o.a.reg r c || u.mask o.b.reg r c) u
  | .mxor => plainTile (fun u => maskApply u o fun r c => u.mask o.a.reg r c != u.mask o.b.reg r c) u
  | .mandn => plainTile (fun u => maskApply u o fun r c => u.mask o.a.reg r c && !u.mask o.b.reg r c) u
  | .mnot => plainTile (fun u => maskApply u o fun r c => !u.mask o.a.reg r c) u
  | .padd => paddApply n u o

/-- What a RED operation does to a tile (R146 to R148). -/
def redFn (op : RedKind) (o : RedOps) (n : NumCtx) (u : Tile) : Tile × Nat :=
  match op with
  | .red k => redApply n u o k
  | .permc => permApply u o o.vl fun r _ i => (r, i)
  | .permr => permApply u o o.vr fun _ c i => (i, c)

/-- Issue an instruction of the vector engine that no data value stops (R143): `f` is its work on one member's tile; where its writes must
wait, its flags are set as it issues (R149, R186). -/
def State.vector (s : State) (t idx : Nat) (x : TIns) (f : NumCtx → Tile → Tile × Nat) : State :=
  s.issueOr t idx x (fun r s => (s.vecMembers r fun _ u => f (s.numCtx t r) u).launched t idx x 0)
    fun r s => (s.vecFlags r fun _ u => f (s.numCtx t r) u).launchHeld t idx x [] none 0 []

/-- ADD (R141). -/
def execAdd (t idx : Nat) (ops : VecOps) (s : State) : Host.Outcome State Fault Refusal :=
  s.runIf (instrWf (.add t idx ops)) (s.vector t idx (.vec .add ops) (vecFn .add ops))

/-- MUL (R141). -/
def execMul (t idx : Nat) (ops : VecOps) (s : State) : Host.Outcome State Fault Refusal :=
  s.runIf (instrWf (.mul t idx ops)) (s.vector t idx (.vec .mul ops) (vecFn .mul ops))

/-- FMA (R141). -/
def execFma (t idx : Nat) (ops : VecOps) (s : State) : Host.Outcome State Fault Refusal :=
  s.runIf (instrWf (.fma t idx ops)) (s.vector t idx (.vec .fma ops) (vecFn .fma ops))

/-- MIN of the VEC class (R91). -/
def execVecMin (t idx : Nat) (ops : VecOps) (s : State) : Host.Outcome State Fault Refusal :=
  s.runIf (instrWf (.vecMin t idx ops)) (s.vector t idx (.vec .min ops) (vecFn .min ops))

/-- MAX of the VEC class (R91). -/
def execVecMax (t idx : Nat) (ops : VecOps) (s : State) : Host.Outcome State Fault Refusal :=
  s.runIf (instrWf (.vecMax t idx ops)) (s.vector t idx (.vec .max ops) (vecFn .max ops))

/-- SEL (R140). -/
def execSel (t idx : Nat) (ops : VecOps) (s : State) : Host.Outcome State Fault Refusal :=
  s.runIf (instrWf (.sel t idx ops)) (s.vector t idx (.vec .sel ops) (vecFn .sel ops))

/-- IADD (R142). -/
def execIadd (t idx : Nat) (ops : VecOps) (s : State) : Host.Outcome State Fault Refusal :=
  s.runIf (instrWf (.iadd t idx ops)) (s.vector t idx (.vec .iadd ops) (vecFn .iadd ops))

/-- IMIN (R142). -/
def execImin (t idx : Nat) (ops : VecOps) (s : State) : Host.Outcome State Fault Refusal :=
  s.runIf (instrWf (.imin t idx ops)) (s.vector t idx (.vec .imin ops) (vecFn .imin ops))

/-- IMAX (R142). -/
def execImax (t idx : Nat) (ops : VecOps) (s : State) : Host.Outcome State Fault Refusal :=
  s.runIf (instrWf (.imax t idx ops)) (s.vector t idx (.vec .imax ops) (vecFn .imax ops))

/-- CMP.rel (R92). -/
def execCmp (t idx : Nat) (rel : Rel) (ops : VecOps) (s : State) : Host.Outcome State Fault Refusal :=
  s.runIf (instrWf (.cmp t idx rel ops))
    (s.vector t idx (.vec (.cmp rel) ops) (vecFn (.cmp rel) ops))

/-- ICMP.rel (R140). -/
def execIcmp (t idx : Nat) (rel : Rel) (ops : VecOps) (s : State) : Host.Outcome State Fault Refusal :=
  s.runIf (instrWf (.icmp t idx rel ops))
    (s.vector t idx (.vec (.icmp rel) ops) (vecFn (.icmp rel) ops))

/-- MAND (R140). -/
def execMand (t idx : Nat) (ops : VecOps) (s : State) : Host.Outcome State Fault Refusal :=
  s.runIf (instrWf (.mand t idx ops)) (s.vector t idx (.vec .mand ops) (vecFn .mand ops))

/-- MOR (R140). -/
def execMor (t idx : Nat) (ops : VecOps) (s : State) : Host.Outcome State Fault Refusal :=
  s.runIf (instrWf (.mor t idx ops)) (s.vector t idx (.vec .mor ops) (vecFn .mor ops))

/-- MXOR (R140). -/
def execMxor (t idx : Nat) (ops : VecOps) (s : State) : Host.Outcome State Fault Refusal :=
  s.runIf (instrWf (.mxor t idx ops)) (s.vector t idx (.vec .mxor ops) (vecFn .mxor ops))

/-- MANDN (R140). -/
def execMandn (t idx : Nat) (ops : VecOps) (s : State) : Host.Outcome State Fault Refusal :=
  s.runIf (instrWf (.mandn t idx ops)) (s.vector t idx (.vec .mandn ops) (vecFn .mandn ops))

/-- MNOT (R140). -/
def execMnot (t idx : Nat) (ops : VecOps) (s : State) : Host.Outcome State Fault Refusal :=
  s.runIf (instrWf (.mnot t idx ops)) (s.vector t idx (.vec .mnot ops) (vecFn .mnot ops))

/-- PADD (R145). -/
def execPadd (t idx : Nat) (ops : VecOps) (s : State) : Host.Outcome State Fault Refusal :=
  s.runIf (instrWf (.padd t idx ops)) (s.vector t idx (.vec .padd ops) (vecFn .padd ops))

/-! ### CVT -/

/-- The 16-bit records that CVT reads as its source hold SCALE 0x7F (R87); it reads none for a masked-off position (R139). -/
def cvtScaleOk (u : Tile) (vs : List View) (o : CvtOps) : Bool :=
  !o.smem ||
    (match vs[o.src]? with
     | some v => scaleAt u v (u.origin o.org).1 (u.origin o.org).2
        ((area o.vr o.vl).filter fun p => u.unmasked o.men o.mask p.1 p.2)
     | none => true)

/-- EADDR of a CVT with a view (R462). -/
def cvtEaddr (vs : List View) (o : CvtOps) : Nat :=
  if o.smem then 2 ^ 63 + (vs.getD o.src {}).base else if o.dmem then 2 ^ 63 + (vs.getD o.dst {}).base else 0

/-- A record that a CVT reads is not one that R87 allows. -/
def State.cvtBad (s : State) (idx : Nat) (o : CvtOps) (r : Run) : Bool :=
  r.anyMember fun m u => !cvtScaleOk (s.tile u) (r.viewsAt idx m) o
/-- The work of a CVT in a member. -/
def State.cvtFn (s : State) (t idx : Nat) (o : CvtOps) (r : Run) (m : Nat) (u : Tile) : Tile × Nat :=
  cvtApply (s.numCtx t r) u (r.viewsAt idx m) o

/-- CVT (R179). -/
def execCvt (t idx : Nat) (ops : CvtOps) (s : State) : Host.Outcome State Fault Refusal :=
  s.runIf (instrWf (.cvt t idx ops)) (s.issueOr t idx (.cvt ops)
    (fun r s =>
      if s.cvtBad idx ops r then s.segFault t r idx 5 5 0
      else (s.vecMembers r (s.cvtFn t idx ops r)).launched t idx (.cvt ops) (cvtEaddr (r.viewsAt idx 0) ops))
    fun r s =>
      if s.cvtBad idx ops r then s.segFault t r idx 5 5 0
      else (s.vecFlags r (s.cvtFn t idx ops r)).launchHeld t idx (.cvt ops)
        (if ops.smem then r.members.map fun u => (s.tile u).mem else []) none (cvtEaddr (r.viewsAt idx 0) ops) [])

/-! ### RED -/

/-- SUM (R146). -/
def execSum (t idx : Nat) (ops : RedOps) (s : State) : Host.Outcome State Fault Refusal :=
  s.runIf (instrWf (.sum t idx ops)) (s.vector t idx (.red (.red .sum) ops) (redFn (.red .sum) ops))

/-- SUMSQ (R146). -/
def execSumsq (t idx : Nat) (ops : RedOps) (s : State) : Host.Outcome State Fault Refusal :=
  s.runIf (instrWf (.sumsq t idx ops)) (s.vector t idx (.red (.red .sumsq) ops) (redFn (.red .sumsq) ops))

/-- MAX of the RED class (R146). -/
def execRedMax (t idx : Nat) (ops : RedOps) (s : State) : Host.Outcome State Fault Refusal :=
  s.runIf (instrWf (.redMax t idx ops)) (s.vector t idx (.red (.red .max) ops) (redFn (.red .max) ops))

/-- MIN of the RED class (R146). -/
def execRedMin (t idx : Nat) (ops : RedOps) (s : State) : Host.Outcome State Fault Refusal :=
  s.runIf (instrWf (.redMin t idx ops)) (s.vector t idx (.red (.red .min) ops) (redFn (.red .min) ops))

/-- MAXABS (R146). -/
def execMaxabs (t idx : Nat) (ops : RedOps) (s : State) : Host.Outcome State Fault Refusal :=
  s.runIf (instrWf (.maxabs t idx ops)) (s.vector t idx (.red (.red .maxabs) ops) (redFn (.red .maxabs) ops))

/-- ARGMAX (R146). -/
def execArgmax (t idx : Nat) (ops : RedOps) (s : State) : Host.Outcome State Fault Refusal :=
  s.runIf (instrWf (.argmax t idx ops)) (s.vector t idx (.red (.red .argmax) ops) (redFn (.red .argmax) ops))

/-- POPC (R146). -/
def execPopc (t idx : Nat) (ops : RedOps) (s : State) : Host.Outcome State Fault Refusal :=
  s.runIf (instrWf (.popc t idx ops)) (s.vector t idx (.red (.red .popc) ops) (redFn (.red .popc) ops))

/-- PERMC (R148). -/
def execPermc (t idx : Nat) (ops : RedOps) (s : State) : Host.Outcome State Fault Refusal :=
  s.runIf (instrWf (.permc t idx ops))
    (s.vector t idx (.red .permc ops) (redFn .permc ops))

/-- PERMR (R148). -/
def execPermr (t idx : Nat) (ops : RedOps) (s : State) : Host.Outcome State Fault Refusal :=
  s.runIf (instrWf (.permr t idx ops))
    (s.vector t idx (.red .permr ops) (redFn .permr ops))

end Sys2Proof.Machine
end

