-- ==== Sys2Proof/Machine/TileDone.lean ====
section
/-!
DEFINITION. TileDone.lean: the completion of the instructions of a segment: the writes of one that has had to wait with them, and its end
(R184, R186, R343).
-/

namespace Sys2Proof.Machine

/-- The tile memories of the members of a segment, in order, as a list gives them. -/
def State.putMems (s : State) (us : List Nat) (ms : List Mem) : State :=
  (us.zip ms).foldl (fun s e => s.modTile e.1 fun x => { x with mem := e.2 }) s

/-- Work that reads the tile memories of the members as they were when its instruction issued. -/
def State.withMems (s : State) (r : Run) (ms : List Mem) (f : State → TEnd × State) : TEnd × State :=
  let now := (r.members.map fun u => (s.tile u).mem).take ms.length
  let z := f (s.putMems r.members ms)
  (z.1, z.2.putMems r.members now)

/-- An instruction that has had to wait makes its writes; a vector instruction has set its flags as it issued (R149). -/
def State.perform (s : State) (t : Nat) (r : Run) (f : Flight) (ms : List Mem) : TEnd × State :=
  match r.ins f.idx with
  | some (.vec op o) => (.ok, s.vecWrites r fun _ u => vecFn op o (s.numCtx t r) u)
  | some (.red op o) => (.ok, s.vecWrites r fun _ u => redFn op o (s.numCtx t r) u)
  | some (.cvt o) => s.withMems r ms fun s => (.ok, s.vecWrites r (s.cvtFn t f.idx o r))
  | some (.mmul o) => (.ok, s.mmulOut t f.idx o r)
  | some (.mov op o) => s.withMems r ms fun s => s.movWork t f.idx op o r f.got
  | _ => (.ok, s)

/-- The writes that the oldest instruction of an engine has had to wait with are made, once the registers are free for them, its tokens are
there, and every remote line that it reads has come; it asks for the next that has not (R184, R186, R291, R343). -/
def State.carryOut (s : State) (t : Nat) (e : Engine) : State :=
  match (s.tile t).run with
  | none => s
  | some r =>
    match r.flights e with
    | [] => s
    | f :: _ =>
      match f.held, r.ins f.idx with
      | some ms, some x =>
        if s.insAsks t f.idx || !r.clear f.idx x || !s.regPast f.marks then s
        else
          match s.workNow (movUnit t) f.paid fun s => s.perform t r f ms with
          | .done .ok s1 => s1.modFlight t e f.idx fun y => { y with held := none, got := [], marks := [] }
          | .done (.mem w) s1 => s1.segLd t r f.idx w
          | .done (.cause c) s1 => s1.segFault t r f.idx c c 0
          | .halts h => s.haltAt (movUnit t) h
          | .waits s1 m => s1.modFlight t e f.idx fun y => { y with marks := m, paid := true }
      | _, _ => s

/-- INSTR_COMPLETE (R184). -/
def execInstrComplete (t : Nat) (eng : Engine) (wait lat : Nat) (s : State) : Host.Outcome State Fault Refusal :=
  s.runIf (instrWf (.instrComplete t eng wait lat)) ((s.carryOut t eng).completeHead t eng wait lat)

end Sys2Proof.Machine
end

