-- ==== Sys2Proof/Machine/Dispatch.lean ====
section
/-!
DEFINITION. Dispatch.lean: one arm per command.
-/

namespace Sys2Proof.Machine

def exec (i : Instr) (s : State) : Host.Outcome State Fault Refusal :=
  match i with
  | .registerWrite a off bytes value => Sys2Proof.Machine.execRegisterWrite a off bytes value s
  | .tickBoundary => Sys2Proof.Machine.execTickBoundary s
  | .periodLog2Write a value => Sys2Proof.Machine.execPeriodLog2Write a value s
  | .ppsOutEnWrite a en => Sys2Proof.Machine.execPpsOutEnWrite a en s
  | .timeStep a value => Sys2Proof.Machine.execTimeStep a value s
  | .ppsOutPulse => Sys2Proof.Machine.execPpsOutPulse s
  | .ppsPulseEnd => Sys2Proof.Machine.execPpsPulseEnd s
  | .ppsInEdge => Sys2Proof.Machine.execPpsInEdge s
  | .segOverrun t => Sys2Proof.Machine.execSegOverrun t s
  | .segHang t => Sys2Proof.Machine.execSegHang t s
  | .heartbeatExpiry c => Sys2Proof.Machine.execHeartbeatExpiry c s
  | .herdWatchdog h => Sys2Proof.Machine.execHerdWatchdog h s
  | .dieWatchdog d => Sys2Proof.Machine.execDieWatchdog d s
  | .memRequestTimeout ag line => Sys2Proof.Machine.execMemRequestTimeout ag line s
  | .ucieTimeout d module ag line => Sys2Proof.Machine.execUcieTimeout d module ag line s
  | .afrReplayTimeout port => Sys2Proof.Machine.execAfrReplayTimeout port s
  | .configReadTimeout => Sys2Proof.Machine.execConfigReadTimeout s
  | .heartbeat a h value => Sys2Proof.Machine.execHeartbeat a h value s
  | .tick port bnd time delay => Sys2Proof.Machine.execTick port bnd time delay s
  | .markerLoss => Sys2Proof.Machine.execMarkerLoss s
  | .numctlWrite a t value => Sys2Proof.Machine.execNumctlWrite a t value s
  | .resume a p => Sys2Proof.Machine.execResume a p s
  | .nop t idx => Sys2Proof.Machine.execNop t idx s
  | .vbase t idx view sreg => Sys2Proof.Machine.execVbase t idx view sreg s
  | .trap t idx code => Sys2Proof.Machine.execTrap t idx code s
  | .ld t idx ops => Sys2Proof.Machine.execLd t idx ops s
  | .st t idx ops => Sys2Proof.Machine.execSt t idx ops s
  | .strec t idx ops => Sys2Proof.Machine.execStrec t idx ops s
  | .hld t idx ops => Sys2Proof.Machine.execHld t idx ops s
  | .hst t idx ops => Sys2Proof.Machine.execHst t idx ops s
  | .mmul t idx ops => Sys2Proof.Machine.execMmul t idx ops s
  | .mspan t idx ops => Sys2Proof.Machine.execMspan t idx ops s
  | .mwin t idx ops => Sys2Proof.Machine.execMwin t idx ops s
  | .add t idx ops => Sys2Proof.Machine.execAdd t idx ops s
  | .mul t idx ops => Sys2Proof.Machine.execMul t idx ops s
  | .fma t idx ops => Sys2Proof.Machine.execFma t idx ops s
  | .vecMin t idx ops => Sys2Proof.Machine.execVecMin t idx ops s
  | .vecMax t idx ops => Sys2Proof.Machine.execVecMax t idx ops s
  | .sel t idx ops => Sys2Proof.Machine.execSel t idx ops s
  | .iadd t idx ops => Sys2Proof.Machine.execIadd t idx ops s
  | .imin t idx ops => Sys2Proof.Machine.execImin t idx ops s
  | .imax t idx ops => Sys2Proof.Machine.execImax t idx ops s
  | .cmp t idx rel ops => Sys2Proof.Machine.execCmp t idx rel ops s
  | .icmp t idx rel ops => Sys2Proof.Machine.execIcmp t idx rel ops s
  | .mand t idx ops => Sys2Proof.Machine.execMand t idx ops s
  | .mor t idx ops => Sys2Proof.Machine.execMor t idx ops s
  | .mxor t idx ops => Sys2Proof.Machine.execMxor t idx ops s
  | .mandn t idx ops => Sys2Proof.Machine.execMandn t idx ops s
  | .mnot t idx ops => Sys2Proof.Machine.execMnot t idx ops s
  | .padd t idx ops => Sys2Proof.Machine.execPadd t idx ops s
  | .cvt t idx ops => Sys2Proof.Machine.execCvt t idx ops s
  | .sum t idx ops => Sys2Proof.Machine.execSum t idx ops s
  | .sumsq t idx ops => Sys2Proof.Machine.execSumsq t idx ops s
  | .redMax t idx ops => Sys2Proof.Machine.execRedMax t idx ops s
  | .redMin t idx ops => Sys2Proof.Machine.execRedMin t idx ops s
  | .maxabs t idx ops => Sys2Proof.Machine.execMaxabs t idx ops s
  | .argmax t idx ops => Sys2Proof.Machine.execArgmax t idx ops s
  | .popc t idx ops => Sys2Proof.Machine.execPopc t idx ops s
  | .permc t idx ops => Sys2Proof.Machine.execPermc t idx ops s
  | .permr t idx ops => Sys2Proof.Machine.execPermr t idx ops s
  | .cwait t idx eng n => Sys2Proof.Machine.execCwait t idx eng n s
  | .cpost t idx eng n => Sys2Proof.Machine.execCpost t idx eng n s
  | .semwait t idx eng sem n => Sys2Proof.Machine.execSemwait t idx eng sem n s
  | .semsig t idx eng sem n => Sys2Proof.Machine.execSemsig t idx eng sem n s
  | .semSignalApply p => Sys2Proof.Machine.execSemSignalApply p s
  | .semGrant p sem => Sys2Proof.Machine.execSemGrant p sem s
  | .summ t idx ops => Sys2Proof.Machine.execSumm t idx ops s
  | .flagclr t idx flags => Sys2Proof.Machine.execFlagclr t idx flags s
  | .allreduce t idx ops => Sys2Proof.Machine.execAllreduce t idx ops s
  | .reduceScatter t idx ops => Sys2Proof.Machine.execReduceScatter t idx ops s
  | .allgather t idx ops => Sys2Proof.Machine.execAllgather t idx ops s
  | .instrComplete t eng wait lat => Sys2Proof.Machine.execInstrComplete t eng wait lat s
  | .summPop a t => Sys2Proof.Machine.execSummPop a t s
  | .sregWrite a t n value => Sys2Proof.Machine.execSregWrite a t n value s
  | .segqPush a t value => Sys2Proof.Machine.execSegqPush a t value s
  | .segmentFetch t => Sys2Proof.Machine.execSegmentFetch t s
  | .segmentStart t => Sys2Proof.Machine.execSegmentStart t s
  | .segmentRetire t => Sys2Proof.Machine.execSegmentRetire t s
  | .semWrite a p sem value => Sys2Proof.Machine.execSemWrite a p sem value s
  | .semAdd a p sem value => Sys2Proof.Machine.execSemAdd a p sem value s
  | .gangWrite a h value => Sys2Proof.Machine.execGangWrite a h value s
  | .gangWidthWrite a h value => Sys2Proof.Machine.execGangWidthWrite a h value s
  | .gangApply h => Sys2Proof.Machine.execGangApply h s
  | .stepRelease p slot => Sys2Proof.Machine.execStepRelease p slot s
  | .itemDispatch p slot => Sys2Proof.Machine.execItemDispatch p slot s
  | .taskDispatch p slot task => Sys2Proof.Machine.execTaskDispatch p slot task s
  | .prefetchRequest p slot task => Sys2Proof.Machine.execPrefetchRequest p slot task s
  | .gatherDispatch p slot => Sys2Proof.Machine.execGatherDispatch p slot s
  | .updDispatch p slot => Sys2Proof.Machine.execUpdDispatch p slot s
  | .taskPop a h => Sys2Proof.Machine.execTaskPop a h s
  | .taskDone a h value => Sys2Proof.Machine.execTaskDone a h value s
  | .stepComplete p slot => Sys2Proof.Machine.execStepComplete p slot s
  | .exchangeResult p slot res => Sys2Proof.Machine.execExchangeResult p slot res s
  | .exchangeTimeout p slot => Sys2Proof.Machine.execExchangeTimeout p slot s
  | .commitFlip p slot => Sys2Proof.Machine.execCommitFlip p slot s
  | .rescalePass p slot => Sys2Proof.Machine.execRescalePass p slot s
  | .rescalePassDone p slot => Sys2Proof.Machine.execRescalePassDone p slot s
  | .stepAbort p slot => Sys2Proof.Machine.execStepAbort p slot s
  | .verPin a p gen => Sys2Proof.Machine.execVerPin a p gen s
  | .verUnpin a p gen => Sys2Proof.Machine.execVerUnpin a p gen s
  | .lrWrite a p n value => Sys2Proof.Machine.execLrWrite a p n value s
  | .rootKept a h => Sys2Proof.Machine.execRootKept a h s
  | .map p rec => Sys2Proof.Machine.execMap p rec s
  | .unmap p rec => Sys2Proof.Machine.execUnmap p rec s
  | .setattr p rec => Sys2Proof.Machine.execSetattr p rec s
  | .move p rec => Sys2Proof.Machine.execMove p rec s
  | .reserve p rec => Sys2Proof.Machine.execReserve p rec s
  | .release p rec => Sys2Proof.Machine.execRelease p rec s
  | .peer p rec => Sys2Proof.Machine.execPeer p rec s
  | .placementEpoch => Sys2Proof.Machine.execPlacementEpoch s
  | .savedActDemote r => Sys2Proof.Machine.execSavedActDemote r s
  | .migrationStart d e => Sys2Proof.Machine.execMigrationStart d e s
  | .rmcUpdateAck d r => Sys2Proof.Machine.execRmcUpdateAck d r s
  | .rmcMissFill d r => Sys2Proof.Machine.execRmcMissFill d r s
  | .migrationPrecopyEnd d e => Sys2Proof.Machine.execMigrationPrecopyEnd d e s
  | .migrationRoundEnd d e => Sys2Proof.Machine.execMigrationRoundEnd d e s
  | .migrationFinalEnd d e => Sys2Proof.Machine.execMigrationFinalEnd d e s
  | .migrationUnblock d e => Sys2Proof.Machine.execMigrationUnblock d e s
  | .frameRetire tier frame => Sys2Proof.Machine.execFrameRetire tier frame s
  | .regulatorIssue p tier tokens final => Sys2Proof.Machine.execRegulatorIssue p tier tokens final s
  | .get ag line writable txn part => Sys2Proof.Machine.execGet ag line writable txn part s
  | .claim hdr line => Sys2Proof.Machine.execClaim hdr line s
  | .peek hdr line => Sys2Proof.Machine.execPeek hdr line s
  | .putFull hdr line data hint => Sys2Proof.Machine.execPutFull hdr line data hint s
  | .putMasked hdr line data mask hint => Sys2Proof.Machine.execPutMasked hdr line data mask hint s
  | .merge hdr recAddr status mapAddr mapBits => Sys2Proof.Machine.execMerge hdr recAddr status mapAddr mapBits s
  | .drop ag line dirty data => Sys2Proof.Machine.execDrop ag line dirty data s
  | .send owner line req reqTxn pass => Sys2Proof.Machine.execSend owner line req reqTxn pass s
  | .kill ag line ret => Sys2Proof.Machine.execKill ag line ret s
  | .snpDone ag line flags => Sys2Proof.Machine.execSnpDone ag line flags s
  | .done ag line => Sys2Proof.Machine.execDone ag line s
  | .got ag line => Sys2Proof.Machine.execGot ag line s
  | .redo ag line => Sys2Proof.Machine.execRedo ag line s
  | .dropOk ag line stale => Sys2Proof.Machine.execDropOk ag line stale s
  | .fail ag line => Sys2Proof.Machine.execFail ag line s
  | .line ag line data grant dirty => Sys2Proof.Machine.execLine ag line data grant dirty s
  | .lineHome ag line data => Sys2Proof.Machine.execLineHome ag line data s
  | .busyRequestServe line => Sys2Proof.Machine.execBusyRequestServe line s
  | .channelRead req => Sys2Proof.Machine.execChannelRead req s
  | .channelWrite req data => Sys2Proof.Machine.execChannelWrite req data s
  | .scrubRead unit => Sys2Proof.Machine.execScrubRead unit s
  | .refresh chan postpone => Sys2Proof.Machine.execRefresh chan postpone s
  | .refreshSlotEnd => Sys2Proof.Machine.execRefreshSlotEnd s
  | .refLockWrite a stack value => Sys2Proof.Machine.execRefLockWrite a stack value s
  | .refLockSuspend stack => Sys2Proof.Machine.execRefLockSuspend stack s
  | .refLockResume stack => Sys2Proof.Machine.execRefLockResume stack s
  | .rowRemap unit chan bank row => Sys2Proof.Machine.execRowRemap unit chan bank row s
  | .maintWrite a stack value => Sys2Proof.Machine.execMaintWrite a stack value s
  | .readStatus a stack value => Sys2Proof.Machine.execReadStatus a stack value s
  | .fuseRow a stack value => Sys2Proof.Machine.execFuseRow a stack value s
  | .fuseCol a stack value => Sys2Proof.Machine.execFuseCol a stack value s
  | .ucieModuleRemove link module => Sys2Proof.Machine.execUcieModuleRemove link module s
  | .ucieHashRespread link => Sys2Proof.Machine.execUcieHashRespread link s
  | .flitReceive port flit => Sys2Proof.Machine.execFlitReceive port flit s
  | .replayStart port => Sys2Proof.Machine.execReplayStart port s
  | .nakRepeat port => Sys2Proof.Machine.execNakRepeat port s
  | .linkLoss port => Sys2Proof.Machine.execLinkLoss port s
  | .hello port msg => Sys2Proof.Machine.execHello port msg s
  | .portRetrain a port value => Sys2Proof.Machine.execPortRetrain a port value s
  | .trunkChange d => Sys2Proof.Machine.execTrunkChange d s
  | .rd port msg => Sys2Proof.Machine.execRd port msg s
  | .wrLine port msg => Sys2Proof.Machine.execWrLine port msg s
  | .wrMask port msg => Sys2Proof.Machine.execWrMask port msg s
  | .rdData port msg => Sys2Proof.Machine.execRdData port msg s
  | .wrAck port msg => Sys2Proof.Machine.execWrAck port msg s
  | .nack port msg => Sys2Proof.Machine.execNack port msg s
  | .remoteTimeout d tag => Sys2Proof.Machine.execRemoteTimeout d tag s
  | .collData port msg part => Sys2Proof.Machine.execCollData port msg part s
  | .collNack port msg => Sys2Proof.Machine.execCollNack port msg s
  | .collTimeout d g => Sys2Proof.Machine.execCollTimeout d g s
  | .collectiveEnd d g => Sys2Proof.Machine.execCollectiveEnd d g s
  | .stot port msg => Sys2Proof.Machine.execStot port msg s
  | .stotCmd a d value => Sys2Proof.Machine.execStotCmd a d value s
  | .epochInc a d value => Sys2Proof.Machine.execEpochInc a d value s
  | .epochIncrement d => Sys2Proof.Machine.execEpochIncrement d s
  | .ethFrameRx port frame => Sys2Proof.Machine.execEthFrameRx port frame s
  | .roceSend port qpn payload => Sys2Proof.Machine.execRoceSend port qpn payload s
  | .roceWrite port qpn addr data => Sys2Proof.Machine.execRoceWrite port qpn addr data s
  | .roceRead port qpn addr len => Sys2Proof.Machine.execRoceRead port qpn addr len s
  | .cnpRx port qpn => Sys2Proof.Machine.execCnpRx port qpn s
  | .rateRecover port qpn => Sys2Proof.Machine.execRateRecover port qpn s
  | .roceRetransmit port qpn psn => Sys2Proof.Machine.execRoceRetransmit port qpn psn s
  | .pcieInbound rp write addr data => Sys2Proof.Machine.execPcieInbound rp write addr data s
  | .shardReadIssue stream => Sys2Proof.Machine.execShardReadIssue stream s
  | .nvmeCompletion stream tag status data => Sys2Proof.Machine.execNvmeCompletion stream tag status data s
  | .shardReadTimeout stream tag => Sys2Proof.Machine.execShardReadTimeout stream tag s
  | .recordStart stream hdr => Sys2Proof.Machine.execRecordStart stream hdr s
  | .sampleFinish stream slot decoded => Sys2Proof.Machine.execSampleFinish stream slot decoded s
  | .sampleBudget stream slot => Sys2Proof.Machine.execSampleBudget stream slot s
  | .sampleHardLimit stream slot => Sys2Proof.Machine.execSampleHardLimit stream slot s
  | .batchClose stream => Sys2Proof.Machine.execBatchClose stream s
  | .batchReady stream => Sys2Proof.Machine.execBatchReady stream s
  | .streamEnWrite a stream value => Sys2Proof.Machine.execStreamEnWrite a stream value s
  | .cmdTailWrite a p value => Sys2Proof.Machine.execCmdTailWrite a p value s
  | .cmdNop p rec => Sys2Proof.Machine.execCmdNop p rec s
  | .jobStart p rec => Sys2Proof.Machine.execJobStart p rec s
  | .jobEnd p rec => Sys2Proof.Machine.execJobEnd p rec s
  | .run p rec => Sys2Proof.Machine.execRun p rec s
  | .swapIn p rec => Sys2Proof.Machine.execSwapIn p rec s
  | .swapOut p rec => Sys2Proof.Machine.execSwapOut p rec s
  | .ready p rec => Sys2Proof.Machine.execReady p rec s
  | .abort p rec => Sys2Proof.Machine.execAbort p rec s
  | .partSet p rec => Sys2Proof.Machine.execPartSet p rec s
  | .partSetApply p => Sys2Proof.Machine.execPartSetApply p s
  | .groupSet p rec => Sys2Proof.Machine.execGroupSet p rec s
  | .contextSwitch p => Sys2Proof.Machine.execContextSwitch p s
  | .contextSaveDone p => Sys2Proof.Machine.execContextSaveDone p s
  | .contextRestoreDone p => Sys2Proof.Machine.execContextRestoreDone p s
  | .contextStart p => Sys2Proof.Machine.execContextStart p s
  | .lockDeferExpiry p slot => Sys2Proof.Machine.execLockDeferExpiry p slot s
  | .jobFault => Sys2Proof.Machine.execJobFault s
  | .fltReset a value => Sys2Proof.Machine.execFltReset a value s
  | .fence code unit => Sys2Proof.Machine.execFence code unit s
  | .drainEnd code unit => Sys2Proof.Machine.execDrainEnd code unit s
  | .resetEnd code unit => Sys2Proof.Machine.execResetEnd code unit s
  | .domainRelease code unit => Sys2Proof.Machine.execDomainRelease code unit s
  | .tileFail h phys => Sys2Proof.Machine.execTileFail h phys s
  | .oosClear a value => Sys2Proof.Machine.execOosClear a value s
  | .rejoin a p => Sys2Proof.Machine.execRejoin a p s
  | .regroupExpiry p slot => Sys2Proof.Machine.execRegroupExpiry p slot s
  | .snapshotCapture p slot => Sys2Proof.Machine.execSnapshotCapture p slot s
  | .snapshotStagingDone p slot => Sys2Proof.Machine.execSnapshotStagingDone p slot s
  | .snapshotAnchor p slot => Sys2Proof.Machine.execSnapshotAnchor p slot s
  | .snapshot p rec => Sys2Proof.Machine.execSnapshot p rec s
  | .snapCancel p rec => Sys2Proof.Machine.execSnapCancel p rec s
  | .restore p rec => Sys2Proof.Machine.execRestore p rec s
  | .refill p rec => Sys2Proof.Machine.execRefill p rec s
  | .record p rec => Sys2Proof.Machine.execRecord p rec s
  | .verify p rec => Sys2Proof.Machine.execVerify p rec s
  | .startup inp => Sys2Proof.Machine.execStartup inp s
  | .lifetimeWrite area => Sys2Proof.Machine.execLifetimeWrite area s
  | .guardBlock => Sys2Proof.Machine.execGuardBlock s
  | .guardRelease => Sys2Proof.Machine.execGuardRelease s
  | .flashErase a value => Sys2Proof.Machine.execFlashErase a value s
  | .flashProgram a value => Sys2Proof.Machine.execFlashProgram a value s
  | .flashRead a value => Sys2Proof.Machine.execFlashRead a value s
  | .programOwner a value => Sys2Proof.Machine.execProgramOwner a value s
  | .revoke a value => Sys2Proof.Machine.execRevoke a value s
  | .advanceSvn a value => Sys2Proof.Machine.execAdvanceSvn a value s
  | .provision a value => Sys2Proof.Machine.execProvision a value s
  | .attest a value => Sys2Proof.Machine.execAttest a value s
  | .coreRelease a m value => Sys2Proof.Machine.execCoreRelease a m value s
  | .pmcOverflow unit k => Sys2Proof.Machine.execPmcOverflow unit k s
  | .sampleConsume a t value => Sys2Proof.Machine.execSampleConsume a t value s
  | .bwWindowLatch => Sys2Proof.Machine.execBwWindowLatch s
  | .lifetimeSecond inp => Sys2Proof.Machine.execLifetimeSecond inp s
  | .logRecord => Sys2Proof.Machine.execLogRecord s
  | .flush a value => Sys2Proof.Machine.execFlush a value s
  | .resetLAssert ns => Sys2Proof.Machine.execResetLAssert ns s
  | .resetLDeassert => Sys2Proof.Machine.execResetLDeassert s
  | .pwrOkFall => Sys2Proof.Machine.execPwrOkFall s
  | .droopEvent rail depth => Sys2Proof.Machine.execDroopEvent rail depth s
  | .powerCapUpdate avg => Sys2Proof.Machine.execPowerCapUpdate avg s
  | .powerBrake => Sys2Proof.Machine.execPowerBrake s
  | .brakeRecovery => Sys2Proof.Machine.execBrakeRecovery s
  | .thermtrip sensor => Sys2Proof.Machine.execThermtrip sensor s
  | .mgmtRead64 off => Sys2Proof.Machine.execMgmtRead64 off s
  | .mgmtRead32 off => Sys2Proof.Machine.execMgmtRead32 off s
  | .mgmtWrite64 off value => Sys2Proof.Machine.execMgmtWrite64 off value s
  | .mgmtWrite32 off value => Sys2Proof.Machine.execMgmtWrite32 off value s
  | .regacc write off value => Sys2Proof.Machine.execRegacc write off value s
  | .bypass => Sys2Proof.Machine.execBypass s
  | .idcode => Sys2Proof.Machine.execIdcode s
  | .samplePreload cells => Sys2Proof.Machine.execSamplePreload cells s
  | .extest => Sys2Proof.Machine.execExtest s
  | .extestPulse => Sys2Proof.Machine.execExtestPulse s
  | .extestTrain => Sys2Proof.Machine.execExtestTrain s
  | .registerRead a off bytes => Sys2Proof.Machine.execRegisterRead a off bytes s
  | .budgetOver t => Sys2Proof.Machine.execBudgetOver t s
  | .ethLinkDown port => Sys2Proof.Machine.execEthLinkDown port s
  | .ethLinkUp port => Sys2Proof.Machine.execEthLinkUp port s
  | .railFault n => Sys2Proof.Machine.execRailFault n s
  | .railFaultClear n => Sys2Proof.Machine.execRailFaultClear n s
  | .droopEventEnd rail => Sys2Proof.Machine.execDroopEventEnd rail s
  | .pwrOkRise => Sys2Proof.Machine.execPwrOkRise s
  | .pwrbrkLRise => Sys2Proof.Machine.execPwrbrkLRise s
  | .fuseCommandDone result => Sys2Proof.Machine.execFuseCommandDone result s
  | .repairCommandDone stack result => Sys2Proof.Machine.execRepairCommandDone stack result s
  | .flashCommandDone result => Sys2Proof.Machine.execFlashCommandDone result s
  | .attestReportDone => Sys2Proof.Machine.execAttestReportDone s
  | .commandCompletion p status lines => Sys2Proof.Machine.execCommandCompletion p status lines s
  | .snapshotReadDone p slot => Sys2Proof.Machine.execSnapshotReadDone p slot s
  | .setdasa addr => Sys2Proof.Machine.execSetdasa addr s
  | .entdaa addr => Sys2Proof.Machine.execEntdaa addr s

end Sys2Proof.Machine
end

