-- ==== Sys2Proof/Machine/TileEnc.lean ====
section
/-!
DEFINITION. TileEnc.lean: the words of tile instructions, written from the layouts of R168 to R182, and the instructions
that have a word (`tinsWf`): every field within its width, every rule of its class met, and a field that the instruction
ignores at 0.
-/

namespace Sys2Proof.Machine

/-- The word of a list of fields, each a width and a value, from bit 63 down. -/
def packWord (l : List (Nat × Nat)) : Nat := l.foldl (fun w f => w * 2 ^ f.1 + f.2) 0

/-- Every field of a list lies within its width. -/
def fieldsFit (l : List (Nat × Nat)) : Bool := l.all fun f => decide (f.2 < 2 ^ f.1)

/-- The code of a format (R160). -/
def fmtCode : Fmt → Nat
  | .e4m3 => 0
  | .e5m2 => 1
  | .bf16 => 2
  | .fp16 => 3
  | .int8 => 4
  | .int4 => 5
  | .fwn8 => 6
  | .i16 => 7
  | .int32 => 8

/-- A WAIT or POST field (R170). -/
def credCode (c : Cred) : Nat := 8 * b2n c.en + 4 * b2n c.early + engineCode c.engine

/-- The code of a slot selector (R172). -/
def vselCode : VSel → Nat
  | .plain => 0
  | .current => 1
  | .next => 2

/-- The MODE code (R174). -/
def modeCode : MmaMode → Nat
  | .f8 => 0
  | .bf16 => 1
  | .fp16 => 2
  | .i8 => 3
  | .i4 => 4

/-- The INIT code (R174). -/
def initCode : MmaInit → Nat
  | .zero => 0
  | .load => 1
  | .cont => 2

/-- The OKIND and LKIND code (R174, R175). -/
def placeBits : Place → Nat
  | .none => 0
  | .view => 1
  | .regs => 2

/-- The TYP code (R178). -/
def vtyCode : VTy → Nat
  | .bf16 => 0
  | .fp16 => 1
  | .i16 => 2

/-- The AXIS code (R180). -/
def axisCode : Axis → Nat
  | .row => 0
  | .col => 1
  | .all => 2

/-- The COMBINE code (R181). -/
def combineCode : Combine → Nat
  | .lead => 0
  | .sum => 1
  | .max => 2
  | .min => 3

/-- The place of a relation among the CMP or ICMP codes (R178). -/
def relCode : Rel → Nat
  | .eq => 0
  | .ne => 1
  | .lt => 2
  | .le => 3
  | .gt => 4
  | .ge => 5

/-- The operation code of a MOV (R172). -/
def movCode : MovOp → Nat
  | .ld => 0
  | .st => 1
  | .strec => 2
  | .hld => 3
  | .hst => 4

/-- The operation code of a VEC (R178). -/
def vecCode : VecOp → Nat
  | .add => 0x00
  | .mul => 0x01
  | .fma => 0x02
  | .min => 0x03
  | .max => 0x04
  | .sel => 0x05
  | .iadd => 0x06
  | .imin => 0x07
  | .imax => 0x08
  | .cmp r => 0x10 + relCode r
  | .icmp r => 0x18 + relCode r
  | .mand => 0x20
  | .mor => 0x21
  | .mxor => 0x22
  | .mandn => 0x23
  | .mnot => 0x24
  | .padd => 0x30

/-- The operation code of a RED (R180). -/
def redCode : RedKind → Nat
  | .red .sum => 0x00
  | .red .sumsq => 0x01
  | .red .max => 0x02
  | .red .min => 0x03
  | .red .maxabs => 0x04
  | .red .argmax => 0x05
  | .red .popc => 0x06
  | .permc => 0x10
  | .permr => 0x11

/-- The fields of a source (R178). -/
def srcFields (x : VSrc) : List (Nat × Nat) := [(1, b2n x.scl), (1, b2n x.neg), (1, b2n x.abs), (5, x.reg)]

/-- The fields of a MOV word (R172). -/
def movFields (op : MovOp) (o : MovOps) : List (Nat × Nat) :=
  [(4, 1), (8, movCode op), (4, credCode o.wait), (4, credCode o.post), (4, o.dslot), (6, o.view), (3, o.org),
   (2, vselCode o.vsel), (1, b2n o.recs), (1, b2n o.fawn), (27, 0)]

/-- The fields of an MMUL word (R174). -/
def mmulFields (o : MmulOps) : List (Nat × Nat) :=
  [(4, 2), (8, 0), (4, credCode o.wait), (4, credCode o.post), (3, modeCode o.mode), (1, o.set), (2, initCode o.init),
   (6, o.av), (1, b2n o.akm), (6, o.bv), (1, b2n o.bkm), (2, placeBits o.okind), (6, o.out), (4, fmtCode o.ofmt),
   (1, b2n o.pair), (1, b2n o.sr), (1, b2n o.outT), (2, o.keygrp), (3, o.pslot), (1, b2n o.pg), (3, 0)]

/-- The fields of an MSPAN word (R175). -/
def spanFields (o : SpanOps) : List (Nat × Nat) :=
  [(4, 2), (8, 1), (8, 0), (3, o.slot), (12, o.k0), (12, o.klen), (7, o.mact), (7, o.nact), (3, 0)]

/-- The fields of an MWIN word (R175). With LKIND none, LSRC, LPAIR and LFMT are ignored: they are 0 here. -/
def winFields (o : WinOps) : List (Nat × Nat) :=
  [(4, 2), (8, 2), (8, 0), (3, o.slot), (12, o.rowoff), (12, o.coloff), (2, placeBits o.lkind), (6, o.lsrc), (1, b2n o.lpair),
   (4, if o.lkind = .none then 0 else fmtCode o.lfmt), (4, 0)]

/-- The fields of a VEC word (R178). -/
def vecFields (op : VecOp) (o : VecOps) : List (Nat × Nat) :=
  [(4, 3), (8, vecCode op), (7, o.vl - 1), (4, o.vr - 1), (2, vtyCode o.ty), (1, b2n o.sr), (2, o.keygrp), (1, b2n o.men),
   (3, o.mask), (1, b2n o.mz), (5, o.dst)] ++ srcFields o.a ++ srcFields o.b ++ srcFields o.c
    ++ [(1, b2n o.subFawn), (1, b2n o.subTy)]

/-- The fields of a CVT word (R179). A register is numbered in the low 5 bits of its 6. -/
def cvtFields (o : CvtOps) : List (Nat × Nat) :=
  [(4, 4), (8, 0), (4, credCode o.wait), (4, credCode o.post), (4, fmtCode o.sfmt), (4, fmtCode o.dfmt), (1, b2n o.smem),
   (6, o.src), (1, b2n o.dmem), (6, o.dst), (7, o.vl - 1), (4, o.vr - 1), (1, b2n o.sr), (2, o.keygrp), (3, o.org),
   (1, b2n o.men), (3, o.mask), (1, b2n o.mz)]

/-- The fields of a RED word (R180). -/
def redFields (op : RedKind) (o : RedOps) : List (Nat × Nat) :=
  [(4, 5), (8, redCode op), (7, o.vl - 1), (4, o.vr - 1), (2, vtyCode o.ty), (1, b2n o.sr), (2, o.keygrp), (1, b2n o.men),
   (3, o.mask), (1, b2n o.mz), (2, axisCode o.axis), (5, o.dst), (5, o.src), (5, o.idx), (7, o.dpos), (7, 0)]

/-- The fields of a CWAIT (0) or CPOST (1) word (R181). -/
def countFields (op : Nat) (e : Engine) (n : Counts) : List (Nat × Nat) :=
  [(4, 6), (8, op), (2, engineCode e), (2, 0), (6, n.dma), (6, n.array), (6, n.vector), (6, n.store), (24, 0)]

/-- The fields of a SEMWAIT (2) or SEMSIG (3) word (R181). -/
def semFields (op : Nat) (e : Engine) (sem n : Nat) : List (Nat × Nat) :=
  [(4, 6), (8, op), (2, engineCode e), (2, 0), (8, sem), (16, n), (24, 0)]

/-- The fields of a SUMM word (R181): the immediate for MARK (kind 4), else the shape and the operand. -/
def summFields (o : SummOps) : List (Nat × Nat) :=
  [(4, 6), (8, 4), (4, o.kind), (8, o.tag), (1, b2n o.clr), (1, b2n o.drain), (2, combineCode o.combine), (2, vtyCode o.ty),
   (2, 0)]
    ++ (if o.kind = 4 then [(32, o.imm)]
        else [(7, o.vl - 1), (4, o.vr - 1), (1, b2n o.men), (3, o.mask), (5, o.reg), (3, o.k - 1), (9, 0)])

/-- The fields of a COL word (R182). -/
def colFields (op : Nat) (o : ColOps) : List (Nat × Nat) :=
  [(4, 7), (8, op), (4, credCode o.wait), (4, 0), (4, o.sslot), (4, o.dslot), (12, o.group), (8, o.sem), (4, o.rop), (12, 0)]

/-- The fields of an instruction word, from bit 63 down (R168). -/
def tinsFields : TIns → List (Nat × Nat)
  | .nop => [(4, 0), (8, 0), (52, 0)]
  | .vbase v n => [(4, 0), (8, 1), (6, v), (4, n), (42, 0)]
  | .trap c => [(4, 0), (8, 2), (20, 0), (32, c)]
  | .mov op o => movFields op o
  | .mmul o => mmulFields o
  | .mspan o => spanFields o
  | .mwin o => winFields o
  | .vec op o => vecFields op o
  | .cvt o => cvtFields o
  | .red op o => redFields op o
  | .cwait e n => countFields 0 e n
  | .cpost e n => countFields 1 e n
  | .semwait e sem n => semFields 2 e sem n
  | .semsig e sem n => semFields 3 e sem n
  | .summ o => summFields o
  | .flagclr f => [(4, 6), (8, 5), (47, 0), (5, f)]
  | .col op o => colFields op o

/-- The word of an instruction. -/
def tileEncode (i : TIns) : Nat := packWord (tinsFields i)

/-- The engine of a MOV (R169). -/
def movEngine : MovOp → Engine
  | .ld => .dma
  | .hld => .dma
  | _ => .store

/-- A shape of a register operand: 1 to 128 columns, 1 to 16 rows (R135). -/
def shapeWf (vl vr : Nat) : Bool := decide (1 ≤ vl ∧ 1 ≤ vr)

/-- The counts of CWAIT and CPOST are at most 31, and the engine's own is 0 (R181). -/
def countsFit (e : Engine) (n : Counts) : Bool :=
  decide (n.dma ≤ 31 ∧ n.array ≤ 31 ∧ n.vector ≤ 31 ∧ n.store ≤ 31) && countOf n e == 0

/-- The operand rules of SUMM (R150, R181); the fields that its kind does not use hold fixed values. -/
def summFits (o : SummOps) : Bool :=
  let data := o.kind == 1 || o.kind == 2
  decide (o.kind ≤ 4) && vtyFloat o.ty && (data || o.ty == .bf16)
    && (if o.kind = 4 then o.vl == 1 && o.vr == 1 && !o.men && o.mask == 0 && o.reg == 0 && o.k == 1
        else o.imm == 0 && shapeWf o.vl o.vr && decide (1 ≤ o.k))
    && (o.kind != 0 || decide (o.reg < 16)) && (o.kind != 3 || decide (o.reg < 8))

/-- An instruction that has a word. -/
def tinsWf (i : TIns) : Bool :=
  fieldsFit (tinsFields i) &&
  match i with
  | .nop => true
  | .vbase _ _ => true
  | .trap _ => true
  | .mov op o =>
    waitOk (movEngine op) o.wait && postOk (movEngine op) (movEngine op == .store) o.post
      && (!(op == .hld || op == .hst) || o.dslot == 0)
  | .mmul o => waitOk .array o.wait && postOk .array true o.post && (o.okind != .regs || o.out % 4 == 0)
  | .mspan _ => true
  | .mwin o => if o.lkind = .none then o.lsrc == 0 && !o.lpair && o.lfmt == .bf16 else fmt16 o.lfmt || o.lfmt == .int32
  | .vec op o => shapeWf o.vl o.vr && vecOk op o
  | .cvt o =>
    waitOk .vector o.wait && postOk .vector o.smem o.post && shapeWf o.vl o.vr
      && (o.smem || (fmtInReg o.sfmt && decide (o.src < 32))) && (o.dmem || (fmtInReg o.dfmt && decide (o.dst < 32)))
  | .red op o => shapeWf o.vl o.vr && redOk op o
  | .cwait e n => countsFit e n
  | .cpost e n => countsFit e n
  | .semwait _ _ n => n != 0
  | .semsig _ _ n => n != 0
  | .summ o => summFits o
  | .flagclr _ => true
  | .col op o => decide (op ≤ 2) && waitOk .store o.wait

end Sys2Proof.Machine
end

