-- ==== Sys2Proof/Safety.lean ====
section
/-!
DEFINITION. Safety.lean: what statements about the block say: the canonical form of a memory, the frames of a command, and the
machine invariants.
-/

namespace Sys2Proof.Machine

/-- The canonical form of a memory: addresses rise strictly, and no entry holds the byte that an unlisted address reads as. -/
def Mem.wf (m : Mem) : Bool := Map.sorted m && m.all fun e => e.2 != 0#8

/-- The memory of the package has its canonical form. -/
def State.memOk (s : State) : Prop := Mem.wf s.mem = true

/-- The register fields outside a list of keys (offset × 8 + least bit) hold what they held. -/
def SameRegs (s t : State) (ks : List Nat) : Prop := ∀ k, k ∉ ks → Map.find? t.regs k = Map.find? s.regs k

/-- Only the register fields with the keys listed may differ: everything else that the package holds is the same. -/
def OnlyRegs (s t : State) (ks : List Nat) : Prop := t = { s with regs := t.regs } ∧ SameRegs s t ks

/-- Only those register fields, and the answer to the agent, may differ. -/
def OnlyAnswer (s t : State) (ks : List Nat) : Prop := t = { s with regs := t.regs, rsp := t.rsp } ∧ SameRegs s t ks

/-- The agent's access was served. -/
def Served (t : State) (d : Nat) : Prop := t.rsp = { kind := .ok, data := d }

/-- The context records of a partition outside one slot are the same. -/
def OnlySlot (s t : State) (p k : Nat) : Prop :=
  t = { s with parts := t.parts } ∧ (∀ q, q ≠ p → t.part q = s.part q)
    ∧ t.part p = { s.part p with slots := (t.part p).slots }
    ∧ ∀ j, j ≠ k → t.slot? p j = s.slot? p j

/-- Registers in which the memory system counts what loads and stores meet: the counts of the Range Map caches, the regulators, the home
slices, the error records of the stacks and buses, and the lifetime counters and histograms. -/
def memReg (o : Nat) : Prop :=
  (∃ d, d < 2 ∧ o = R.PLC_RMC_STAT d) ∨ (∃ p t, p < 8 ∧ t < 3 ∧ o = R.PLC_REG_LVL p t)
    ∨ (∃ k, k < 128 ∧ (o = R.COH_STAT k ∨ o = R.COH_SF k ∨ o = R.COH_BUSY k))
    ∨ (∃ u, u < 48 ∧ (o = errReg u ∨ o = errAddrReg u))
    ∨ (∃ i, i < 64 ∧ o = R.LIF_CNT i) ∨ ∃ h i, h < 17 ∧ i < 32 ∧ o = R.LIF_HIST h i

/-- Registers that loads and stores of unified memory, events and performance counters write: those of the memory system, the fault log
and its error counts, the tail of the event ring, the freeze of the counters, and the programmable counters. -/
def unitReg (o : Nat) : Prop :=
  memReg o ∨ o = R.FLT_LOG_PTR ∨ o = R.FLT_ERRCNT ∨ o = R.PKG_EVQ_PTR ∨ o = R.PKG_PMC_CTL
    ∨ (∃ n w, n < 64 ∧ w < 4 ∧ o = R.FLT_LOG n w)
    ∨ ∃ u i, i < 8 ∧ (o = R.PMC_TEVT u i ∨ o = R.PMC_TEVT u i + 8 ∨ o = R.PMC_HEVT u i ∨ o = R.PMC_HEVT u i + 8)

/-- The offset of the register of a field, by its key. -/
def keyReg (k : Nat) : Nat := k / 64 * 8

/-- Everything but registers, memory with its homes, caches, channels and regulators, ports, the counts of the health monitor, and the
event ring is the same: time, tiles, herds, cores, partitions, contexts and domains among it. -/
def SameRest (s t : State) : Prop :=
  t = { s with regs := t.regs, mem := t.mem, soft := t.soft, cache := t.cache, migs := t.migs, poison := t.poison,
               rmc := t.rmc, heat := t.heat, rangeMap := t.rangeMap, quiet := t.quiet, trunkRr := t.trunkRr,
               ports := t.ports, bw := t.bw, rreqs := t.rreqs, hltEv := t.hltEv, free := t.free, evqLost := t.evqLost,
               evqPhase := t.evqPhase, evqIrq := t.evqIrq, mgmt := t.mgmt, chkCache := t.chkCache, llc := t.llc, busy := t.busy,
               msgs := t.msgs, wback := t.wback, snoop := t.snoop, arb := t.arb, reqQ := t.reqQ, regQs := t.regQs, pools := t.pools,
               chans := t.chans, rwait := t.rwait, acc := t.acc, holds := t.holds, recent := t.recent }

/-- What loads and stores of unified memory, events and performance counters may change, and registers that P names by their
offsets. -/
def SameUnitsBut (P : Nat → Prop) (s t : State) : Prop :=
  SameRest s t ∧ ∀ k, ¬ unitReg (keyReg k) → ¬ P (keyReg k) → Map.find? t.regs k = Map.find? s.regs k

/-- What loads and stores of unified memory, events and performance counters may change, and nothing else. -/
def SameUnits (s t : State) : Prop := SameRest s t ∧ ∀ k, ¬ unitReg (keyReg k) → Map.find? t.regs k = Map.find? s.regs k

/-- The registers that instructions of a segment write in the tiles that execute it: the sticky flags, the status of the array, and
the pointers of the sampling buffer of the lead. -/
def tileRegs (t : Nat) (r : Run) (o : Nat) : Prop :=
  (∃ m ∈ r.members, o = R.TIL_VSTATUS m ∨ o = R.TIL_MMA_STATUS m) ∨ o = R.PMC_SMP_PTR t

/-- The instruction with an index of the segment that runs on a tile is `x` and can issue now (R183 to R186). -/
def Issues (s : State) (t idx : Nat) (x : TIns) (r : Run) : Prop := (s.tile t).run = some r ∧ r.canIssue idx x = true

/-- The package after the issue of an instruction. -/
def State.issuedAt (s : State) (t idx : Nat) (x : TIns) (r : Run) : State :=
  s.modTile t fun y => { y with run := some (r.issue idx x) }

/-- The registers and memory that instructions of a tile compute with are the same. -/
def SameData (x y : Tile) : Prop :=
  y.mem = x.mem ∧ y.tregs = x.tregs ∧ y.tstat = x.tstat ∧ y.masks = x.masks ∧ y.sregs = x.sregs ∧ y.acc = x.acc ∧ y.accNf = x.accNf

/-- An instruction of a tile stands last among those in flight on its engine. -/
def InFlight (s : State) (t : Nat) (r : Run) (e : Engine) (idx : Nat) (P : Flight → Prop) : Prop :=
  ∃ r' f, (s.tile t).run = some r' ∧ r'.flights e = r.flights e ++ [f] ∧ f.idx = idx ∧ P f

/-- What an element function with a masked active area leaves in data register `dst` of every member of a segment (R136, R138,
R139), `w` being the package as the instruction issues: the elements that it writes and the block statuses, and everything else
that instructions compute with as it was. -/
def WritesReg (w u : State) (r : Run) (o : VecOps) (f : Tile → Nat → Nat → Out) : Prop :=
  ∀ m ∈ r.members,
    (∀ n i c, i < 16 → c < 128 → (u.tile m).treg n i c =
        if n = o.dst ∧ i < o.vr ∧ c < o.vl then
          (if (w.tile m).unmasked o.men o.mask i c then (f (w.tile m) i c).res.code % 2 ^ 16
           else if o.mz then 0 else (w.tile m).treg n i c)
        else (w.tile m).treg n i c)
      ∧ (∀ n q, q < 8 → (u.tile m).rstat n q =
          if n = o.dst then
            (putRstat n (maskedWrites (w.tile m) o.men o.mask o.mz o.vr o.vl (f (w.tile m))) (w.tile m) q).rstat n q
          else (w.tile m).rstat n q)
      ∧ (u.tile m).masks = (w.tile m).masks ∧ (u.tile m).sregs = (w.tile m).sregs ∧ (u.tile m).mem = (w.tile m).mem
      ∧ (u.tile m).acc = (w.tile m).acc

/-- What a bit function leaves in mask register `dst` of every member. -/
def WritesMask (w u : State) (r : Run) (o : VecOps) (f : Tile → Nat → Nat → Bool) : Prop :=
  ∀ m ∈ r.members,
    (∀ n i c, i < 16 → c < 128 → (u.tile m).mask n i c =
        if n = o.dst ∧ i < o.vr ∧ c < o.vl then
          (if (w.tile m).unmasked o.men o.mask i c then f (w.tile m) i c
           else if o.mz then false else (w.tile m).mask n i c)
        else (w.tile m).mask n i c)
      ∧ (u.tile m).tregs = (w.tile m).tregs ∧ (u.tile m).tstat = (w.tile m).tstat ∧ (u.tile m).sregs = (w.tile m).sregs
      ∧ (u.tile m).mem = (w.tile m).mem ∧ (u.tile m).acc = (w.tile m).acc

/-- Every member's data is what a tile function makes of it, given the member's place. -/
def WritesTiles (w u : State) (r : Run) (f : Nat → Tile → Tile) : Prop :=
  ∀ k, k < r.members.length → SameData (f k (w.tile (r.members.getD k 0))) (u.tile (r.members.getD k 0))

/-- The work of a MOV is done as the instruction issues, on the package as it then stands: how it ends, and the package after it; none
where its accesses must wait. -/
def movNow (w : State) (t idx : Nat) (op : MovOp) (o : MovOps) (r : Run) : Option (TEnd × State) :=
  match w.workNow (movUnit t) false fun s => s.movWork t idx op o r [] with
  | .done e v => some (e, v)
  | _ => none

/-- What the work of a MOV waits for, where one of its accesses cannot go on. -/
def movHalt (w : State) (t idx : Nat) (op : MovOp) (o : MovOps) (r : Run) : Option Halt :=
  match w.workNow (movUnit t) false fun s => s.movWork t idx op o r [] with
  | .halts h => some h
  | _ => none

/-- The early credit of an instruction, where it posts one, has room at its consumer (R185). -/
def PostFits (r : Run) (e : Engine) (c : Cred) : Prop :=
  (c.en && c.early) = true → (r.give (engineCode e) [(c.engine, 1)]).isSome = true

/-- An instruction of a tile has issued on its engine: tiles that do not execute it are as they were, and so is everything but
tiles, their flags, and what memory accesses and events of counters touch. -/
def TileFrame (s u : State) (t : Nat) (r : Run) : Prop :=
  (∀ v, v ≠ t → v ∉ r.members → u.tile v = s.tile v) ∧ SameUnitsBut (tileRegs t r) { s with tiles := u.tiles } u

/-- Like `TileFrame`, and no flag of any tile differs. -/
def SilentFrame (s u : State) (t : Nat) (r : Run) : Prop :=
  (∀ v, v ≠ t → v ∉ r.members → u.tile v = s.tile v) ∧ SameUnitsBut (fun o => o = R.PMC_SMP_PTR t) { s with tiles := u.tiles } u

/-- Only one tile differs. -/
def OnlyTile (s t : State) (u : Nat) : Prop := t = { s with tiles := t.tiles } ∧ ∀ v, v ≠ u → t.tile v = s.tile v

/-- The stored word of a line is the codeword of its data, as it stands and as a write leaves it: no cell is in error, and the line is not
poisoned (R314, R316). -/
def State.clean (s : State) (line : Nat) : Prop :=
  s.lineErr line = 0 ∧ Map.get 0 s.soft line = 0 ∧ s.cells line = 0 ∧ Map.get false s.poison line = false

/-- Nothing waits for an answer at a line: no request in the channel of its slice, and no MERGE for its map byte there (R300, R302). -/
def NothingWaits (s : State) (line : Nat) : Prop :=
  Map.get [] s.reqQ (sliceOf line) = []
    ∧ ∀ e ∈ s.busy, (e.2.parked && e.2.cur.any fun t => t.mapsOther e.1 && t.mapLine == line) = false

/-- Messages pass between an agent and the home of a line (R28, R29). -/
def Linked (s : State) (ag line : Nat) : Prop := s.linked (agDie ag) (homeDie (line / 16384)) = true

/-- A request of an agent finds its line idle at a home that serves it: the agent may reach the line, over a link that works, with a token,
a request buffer has room for it and nothing waits before it, its channel does not wait, and there is no other request of its cycle, no
transaction, no final phase, no snoop filter entry to evict, and no data of an owner on its way (R29, R31, R62, R291, R295, R296, R302 to
R304, R308). -/
def IdleHome (s : State) (line ag part : Nat) : Prop :=
  homeLine line = true ∧ s.lineOk ag part line = true ∧ s.homeFenced (line / 16384) = false ∧ Linked s ag line
    ∧ (s.ticket (lineUnit ag line) (dueLine ((s.agPart ag part).getD none) (tierOfKey (line / 16384)))).1 = true
    ∧ s.slotWait (unitOf line).1 = false ∧ NothingWaits s line ∧ (∀ r, s.recent.find? line = some r → r.cycle ≠ s.clk.cyc)
    ∧ s.busyAt line = none ∧ s.finalLine line = false ∧ s.bufUsed (sliceOf line) < bufSize
    ∧ (caching ag = true → s.filterVictim line = none) ∧ ∀ m ∈ s.msgs, ¬ (m.op = .lineHome ∧ m.line = line)

/-- Nothing is on its way for a line: its home carries out an access to it at once (R303, R308). -/
def QuietLine (s : State) (line : Nat) : Prop :=
  s.busyAt line = none ∧ s.finalLine line = false ∧ ∀ m ∈ s.msgs, ¬ (m.moves = true ∧ m.line = line)

/-- An access of a unit on a die to a frame byte arrives, over a module that works where its home lies on another die (R28, R29), at a quiet
line. -/
def QuietHome (s : State) (die f : Nat) : Prop :=
  QuietLine s (f / 64) ∧ ∀ l, ucieLink die (homeDie (f / 2 ^ 20)) = some l → (s.ucieModule l (f / 64)).1.isSome = true

/-- The channel of a line serves a request as it comes: no refresh slot lasts, and nothing waits before it (R62, R312). -/
def ServedAtOnce (s : State) (line : Nat) : Prop :=
  homeLine line = true ∧ (16 ≤ (unitOf line).1 ∨ (s.slotWait (unitOf line).1 = false ∧ (s.chan (chanOf line)).queue = []))

/-- The check line of a capacity line enters the cache of its controller, and none has to leave for it (R329). -/
def ChkRoom (s : State) (line : Nat) : Prop :=
  (unitOf line).1 < 16 ∨ (s.chkLine line).isSome = true ∨ (Map.get [] s.chkCache ((unitOf line).1 - 16)).length < chkSize

/-- Nothing waits for the refresh slot of units to end: no request at their channels, no transaction and no copy of a row (R62, R322). -/
def SlotFree (s : State) (which : Nat → Bool) : Prop :=
  (∀ e ∈ s.chans, which (e.1 / 64) = true → e.2.queue = []) ∧ (∀ e ∈ s.busy, e.2.parked = false)
    ∧ ∀ c ∈ s.copies, which c.unit = false

/-- Coherence messages, home lines, caches and memory may differ, with what channels, links and regulators count, and registers; tiles,
time and contexts are the same. -/
def CohFrame (s t : State) : Prop := SameRest s t

end Sys2Proof.Machine
end

