-- ==== Sys2Proof/Certificates/Slice0/Obligations.lean ====
section
/-!
DEFINITION. Obligations.lean: the statements for the provers. "served" means that the agent's access reaches its block
(`State.entry … = .reach`); a frame says what may differ, by the keys of register fields (offset × 8 + least bit).
-/

open Sys2Proof Sys2Proof.Machine

/-! ### The queue, idling and reset -/

/-- A step with a command at the front of the queue is exec of that command on the state with the rest of the queue; with an empty queue a
cycle of the tile clock passes, which adds one to the time base where no rate adjustment and no slewing is under way, unless it would reach
a boundary, in which case nothing changes. Where the refill of the regulators of the last boundary is outstanding, it takes place first; the
requests that a refresh slot held go on as it ends; and nothing else differs.
Where the rules leave a point open or to inference, the clause is the model's choice: log entries 1 and 9. -/
def Obligations.StepRunsFront : Prop :=
  (∀ (s : State) (c : Instr) (rest : List Instr), s.pending = c :: rest → step s = exec c { s with pending := rest })
    ∧ (∀ s : State, s.pending = [] → s.clk.tb + s.advance.1 < (s.clk.tb / s.period + 1) * s.period →
        ∃ t, step s = .next t ∧ t.clk.tb = (s.clk.tb + s.advance.1) % 2 ^ 64 ∧ t.clk.cyc = s.clk.cyc + 1
          ∧ t.clk.phase = 9 ∧ t.clk.refill = false
          ∧ (s.clk.refSlot = false → t = { s.leaves with clk := t.clk }) ∧ (s.clk.refill = false → s.leaves = s)
          ∧ t.tiles = s.tiles ∧ t.herds = s.herds ∧ t.cores = s.cores ∧ t.parts = s.parts ∧ t.pending = s.pending)
    ∧ (∀ s : State, s.pending = [] → (s.clk.tb / s.period + 1) * s.period ≤ s.clk.tb + s.advance.1 → step s = .next s)
    ∧ (∀ s : State, s.ratePpb = 0 → s.clk.rateAcc < 1000000000 → s.clk.slewNow = 0 → s.advance.1 = 1)

/-- Every command answers a next state in every state; nothing stops and nothing is refused. A command that names no unit of the
package, or whose instruction word is illegal, changes nothing.
Where the rules leave a point open or to inference, the clause is the model's choice: log entry 7. -/
def Obligations.EveryCommandRuns : Prop :=
  ∀ (c : Instr) (s : State),
    (∃ t, exec c s = .next t) ∧ (∀ r, exec c s ≠ .refused r) ∧ (∀ f, exec c s ≠ .fault f)
      ∧ (instrWf c = false → exec c s = .next s)

/-- Power-on reset leaves every register field at its reset value, the queue empty, the time base at 0 and no context resident. The memory
of the reset state has its canonical form.
Where the rules leave a point open or to inference, the clause is the model's choice: log entry 82. -/
def Obligations.ResetState : Prop :=
  (∀ (off : Nat) (f : Fld), State.reset.fget off f = f.rst)
    ∧ State.reset.pending = [] ∧ State.reset.clk.tb = 0 ∧ State.reset.tick = 0 ∧ State.reset.pLog = 16
    ∧ (∀ p k, State.reset.slot? p k = none) ∧ (∀ t, (State.reset.tile t).run = none) ∧ State.reset.doms = []
    ∧ State.reset.memOk

/-- Every step keeps the canonical form of memory: addresses strictly rising, and no entry equal to what an unlisted address reads as. -/
def Obligations.StepKeepsMemory : Prop :=
  ∀ s t : State, s.memOk → step s = .next t → t.memOk

/-! ### The time base (R51 to R54, R68, R489) -/

/-- R54: a write that changes PERIOD_LOG2 to a value it may hold is refused exactly where a partition holds a resident context, the new
value exceeds 16 under a refresh lock, or a condition of R70 or R343 would break; a refused write leaves the whole of TCK_CTRL unchanged,
sets CTRL_REFUSED and is a register access error; an accepted one takes effect at once, and TCK_COUNT follows from the time base with the
new p.
Completes (exec answers a next state): PERIOD_LOG2_WRITE. -/
def Obligations.PeriodWrite : Prop :=
  ∀ (s : State) (a : Agent) (v : Nat), instrWf (.periodLog2Write a v) = true →
    s.entry a .tck 0 R.TCK_CTRL true = .reach → s.fbit R.TCK_CTRL F.TCK_CTRL_LOCK = false → v ≠ s.pLog → 14 ≤ v → v ≤ 20 →
    ∃ t, exec (.periodLog2Write a v) s = .next t
      ∧ (s.anyResident = false → (16 < v → ∀ k, k < 16 → s.fbit (R.STK_CTRL k) F.STK_CTRL_REF_LOCK = false) →
          Tmo.ok { s.tmo with p := v } = true →
          Served t 0 ∧ t.pLog = v ∧ t.tick = s.clk.tb / 2 ^ v % 2 ^ 48
            ∧ OnlyAnswer s t [regKey R.TCK_CTRL F.TCK_CTRL_PERIOD_LOG2])
      ∧ ((s.anyResident = true ∨ (16 < v ∧ ∃ k, k < 16 ∧ s.fbit (R.STK_CTRL k) F.STK_CTRL_REF_LOCK = true)
            ∨ Tmo.ok { s.tmo with p := v } = false) →
          t.rsp.kind = .regError ∧ t.fget R.TCK_STATUS F.TCK_STATUS_CTRL_REFUSED = 1
            ∧ t.fget R.FLT_ERRCNT F.FLT_ERRCNT_REG_ACCESS = min (s.fget R.FLT_ERRCNT F.FLT_ERRCNT_REG_ACCESS + 1)
                (2 ^ F.FLT_ERRCNT_REG_ACCESS.w - 1)
            ∧ OnlyAnswer s t [regKey R.TCK_STATUS F.TCK_STATUS_CTRL_REFUSED, regKey R.FLT_REGERR F.FLT_REGERR_WRITE,
                regKey R.FLT_REGERR F.FLT_REGERR_AGENT, regKey R.FLT_REGERR F.FLT_REGERR_OFFSET,
                regKey R.FLT_ERRCNT F.FLT_ERRCNT_REG_ACCESS])

/-- TIME_STEP (R489) adds a signed 48-bit count to the time base modulo 2^64 on a package that follows no master and holds no context;
otherwise only STEP_REFUSED is set. The TIME_PPS pins (R68): a write of PPS_OUT_EN, the pulse that starts when the time base reaches a
multiple of 1,100,000,000 before the next boundary, its end where that comes before the next boundary too, and the latch at a rising edge
of the input. As time passes beyond a boundary its last action, the refill of the regulators, has taken place.
Completes (exec answers a next state): TIME_STEP, PPS_OUT_EN_WRITE, PPS_OUT_PULSE, PPS_PULSE_END, PPS_IN_EDGE.
Where the rules leave a point open or to inference, the clause is the model's choice: log entries 8, 9 and 77. -/
def Obligations.TimeBaseAndPps : Prop :=
  (∀ (s : State) (a : Agent) (v : Nat), instrWf (.timeStep a v) = true → s.entry a .tck 0 R.TCK_STEP true = .reach →
    ∃ t, exec (.timeStep a v) s = .next t
      ∧ (s.fget R.TCK_SYNC F.TCK_SYNC_ROLE ≠ 2 → s.anyResident = false →
          (t.clk.tb : Int) = ((s.clk.tb : Int) + toInt 48 v) % 2 ^ 64 ∧ t = { s.leaves with clk := t.clk, rsp := t.rsp } ∧ Served t 0
            ∧ (toInt 48 v ≤ 0 → t.clk.ppsLeft = s.clk.ppsLeft))
      ∧ (s.fget R.TCK_SYNC F.TCK_SYNC_ROLE = 2 ∨ s.anyResident = true →
          t.fget R.TCK_STATUS F.TCK_STATUS_STEP_REFUSED = 1
            ∧ OnlyAnswer s t [regKey R.TCK_STATUS F.TCK_STATUS_STEP_REFUSED]))
    ∧ (∀ (s : State) (a : Agent) (en : Nat), instrWf (.ppsOutEnWrite a en) = true → s.entry a .tck 0 R.TCK_CTRL true = .reach →
      ∃ t, exec (.ppsOutEnWrite a en) s = .next t ∧ Served t 0 ∧ t.fget R.TCK_CTRL F.TCK_CTRL_PPS_OUT_EN = en
        ∧ t.clk = { s.clk with ppsLeft := if en = 0 then 0 else s.clk.ppsLeft }
        ∧ t = { s with regs := t.regs, rsp := t.rsp, clk := t.clk } ∧ SameRegs s t [regKey R.TCK_CTRL F.TCK_CTRL_PPS_OUT_EN])
    ∧ (∀ s : State, nextSecond s.clk.tb < (s.clk.tb / s.period + 1) * s.period →
        ∃ t, exec .ppsOutPulse s = .next t ∧ t.clk.tb = nextSecond s.clk.tb % 2 ^ 64
          ∧ t.clk.ppsLeft = (if s.fbit R.TCK_CTRL F.TCK_CTRL_PPS_OUT_EN then 110000000
              else s.clk.ppsLeft - (nextSecond s.clk.tb - s.clk.tb))
          ∧ t = { s.leaves with clk := t.clk })
    ∧ (∀ s : State, 0 < s.clk.ppsLeft → s.clk.tb + s.clk.ppsLeft < (s.clk.tb / s.period + 1) * s.period →
        ∃ t, exec .ppsPulseEnd s = .next t ∧ t.clk.ppsLeft = 0 ∧ t.clk.tb = (s.clk.tb + s.clk.ppsLeft) % 2 ^ 64
          ∧ t = { s.leaves with clk := t.clk })
    ∧ (∀ s : State, ∃ t, exec .ppsInEdge s = .next t ∧ t.fget R.TCK_PPS F.TCK_PPS_EDGE = s.clk.tb % 2 ^ 64
        ∧ t.fget R.TCK_STATUS F.TCK_STATUS_PPS_IN_SEEN = 1
        ∧ OnlyRegs s t [regKey R.TCK_PPS F.TCK_PPS_EDGE, regKey R.TCK_STATUS F.TCK_STATUS_PPS_IN_SEEN])

/-- TICK_BOUNDARY completes in every state (R52, R55, R69): it answers a next state in which the time base stands at the next multiple of
the tick period and the actions up to the third have been taken, with the refill of the regulators still to come; no tile holds a report of a segment back; at most 64 cycles of slewing have
been taken up; and the heartbeat count of a control core has gone up by one where its herd holds work, and is as it was elsewhere. The
queue, the contexts, the domains and the streams are as they were.
Completes (exec answers a next state): TICK_BOUNDARY.
Where the rules leave a point open or to inference, the clause is the model's choice: log entry 9. -/
def Obligations.TickBoundary : Prop :=
  ∀ s : State, ∃ t, exec .tickBoundary s = .next t
    ∧ t.clk.tb = (s.clk.tb / s.period + 1) * s.period % 2 ^ 64 ∧ t.clk.phase = 3 ∧ t.clk.refill = true ∧ t.clk.slew = slewStep s.clk.slew
    ∧ t.clk.slewNow = slewTick s.clk.slew ∧ (∀ n, (t.tile n).report = [])
    ∧ (∀ c, c < 32 → (t.core c).hb = if s.herdCounts (c / 2) then (s.core c).hb + 1 else (s.core c).hb)
    ∧ t.pending = s.pending ∧ t.ctxs = s.ctxs ∧ t.doms = s.doms ∧ t.resetsDue = s.resetsDue ∧ t.streams = s.streams

/-! ### Gangs, scalars and segments (R60, R129, R137, R195 to R199, R491) -/

/-- A push (R195): an entry of the image's place and the running context joins the queue of a lead with room, and a control core's push is a
heartbeat and so progress of its herd and die (R69); a tile that does not lead, is fenced or has 64 entries loses it and sets PUSH_LOST. Segments over time (R59, R198): a segment that has not retired one period after
its start sets SEG_OVERRUN, is counted and runs on; one whose running time has passed its budget sets BUDGET_OVER and runs on.
Completes (exec answers a next state): SEGQ_PUSH, SEG_OVERRUN, BUDGET_OVER.
Where the rules leave a point open or to inference, the clause is the model's choice: log entry 19. -/
def Obligations.SegmentQueue : Prop :=
  (∀ (s : State) (a : Agent) (t v : Nat), instrWf (.segqPush a t v) = true → s.entry a .til t (R.TIL_SEGQ_PUSH t) true = .reach →
      s.isLead t = true → s.tileFenced t = false → (s.tile t).queue.length < 64 →
      ∃ u : State, exec (.segqPush a t v) s = .next u ∧ Served u 0
        ∧ u.tile t = { s.tile t with
            queue := (s.tile t).queue ++ [{ herd := bit v 63, addr := bits v 6 50 * 64, ctx := s.pushCtx t, upd := s.pushUpd t }] }
        ∧ (∀ m, m ≠ t → u.tile m = s.tile m)
        ∧ (∀ c b, a = .control c b → (u.core c).hb = 0 ∧ (u.herd (c / 2)).wd = 0 ∧ Map.get 0 u.dieWd (c / 2 / 8) = 0)
        ∧ (∀ h, u.herd h = { s.herd h with wd := (u.herd h).wd })
        ∧ SameUnits { s with tiles := u.tiles, cores := u.cores, herds := u.herds, dieWd := u.dieWd, rsp := u.rsp } u)
    ∧ (∀ (s : State) (a : Agent) (t v : Nat), instrWf (.segqPush a t v) = true →
        s.entry a .til t (R.TIL_SEGQ_PUSH t) true = .reach →
        (s.isLead t = false ∨ s.tileFenced t = true ∨ 64 ≤ (s.tile t).queue.length) →
        ∃ u : State, exec (.segqPush a t v) s = .next (u.pmcHerd (t / 12) 4 1)
          ∧ u.fget (R.TIL_SEG_STATUS t) F.TIL_SEG_STATUS_PUSH_LOST = 1
          ∧ (s.isLead t = false → u.fget (R.HRD_GANG (t / 12)) F.HRD_GANG_PUSH_REFUSED = 1)
          ∧ OnlyAnswer s u [regKey (R.TIL_SEG_STATUS t) F.TIL_SEG_STATUS_PUSH_LOST,
              regKey (R.HRD_GANG (t / 12)) F.HRD_GANG_PUSH_REFUSED])
    ∧ (∀ (s : State) (t : Nat) (r : Run), t < 192 → (s.tile t).run = some r → r.overran = false → s.period ≤ s.elapsed r →
      ∃ u : State, exec (.segOverrun t) s = .next (u.pmcTile t 0x13 1)
        ∧ u.tile t = { s.tile t with run := some { r with overran := true } } ∧ (∀ v, v ≠ t → u.tile v = s.tile v)
        ∧ u.fget (R.TIL_SEG_STATUS t) F.TIL_SEG_STATUS_SEG_OVERRUN = 1
        ∧ u.fget (R.TIL_SEG_RETIRED t) F.TIL_SEG_RETIRED_OVERRUNS =
            min (s.fget (R.TIL_SEG_RETIRED t) F.TIL_SEG_RETIRED_OVERRUNS + 1) (2 ^ F.TIL_SEG_RETIRED_OVERRUNS.w - 1)
        ∧ u = { s with tiles := u.tiles, regs := u.regs }
        ∧ SameRegs s u [regKey (R.TIL_SEG_STATUS t) F.TIL_SEG_STATUS_SEG_OVERRUN,
            regKey (R.TIL_SEG_RETIRED t) F.TIL_SEG_RETIRED_OVERRUNS])
    ∧ (∀ (s : State) (t : Nat) (r : Run), t < 192 → (s.tile t).run = some r → r.overBudget = false →
        r.img.budget < s.elapsed r →
        ∃ u : State, exec (.budgetOver t) s = .next u
          ∧ u.tile t = { s.tile t with run := some { r with overBudget := true } } ∧ (∀ v, v ≠ t → u.tile v = s.tile v)
          ∧ u.fget (R.TIL_SEG_STATUS t) F.TIL_SEG_STATUS_BUDGET_OVER = 1
          ∧ u = { s with tiles := u.tiles, regs := u.regs }
          ∧ SameRegs s u [regKey (R.TIL_SEG_STATUS t) F.TIL_SEG_STATUS_BUDGET_OVER])

/-! ### The time base (R51 to R54, R68, R489) -/

/-- HEARTBEAT (R69): a write of HRD_HEARTBEAT clears the heartbeat count of each core whose bit is 1 and, where a bit is 1, the watchdogs
of the herd and its die; each beat is a herd event. HEARTBEAT_EXPIRY at HB_TICKS boundaries interrupts the core, counts afresh, logs a
timeout and raises an event, and no reset becomes due. The watchdogs that reset (R69, R72): a segment at SEG_TICKS is dropped and the
domain of each of its tiles is to be reset; a herd at HERD_TICKS and a die at DIE_TICKS are to be reset, with their counts at 0. Timeouts
of memory and UCIe requests (R69, R71, R407, R408): each is counted and logged with its unit and address, seen by the health monitor, and
answered with an error: a caching agent takes an access fault and waits no longer; a UCIe module is retrained, carries traffic again and is
counted.
Completes (exec answers a next state): HEARTBEAT, HEARTBEAT_EXPIRY, SEG_HANG, HERD_WATCHDOG, DIE_WATCHDOG, MEM_REQUEST_TIMEOUT,
UCIE_TIMEOUT.
Where the rules leave a point open or to inference, the clause is the model's choice: log entries 8, 37, 73 and 90. -/
def Obligations.HeartbeatsAndWatchdogs : Prop :=
  (∀ (s : State) (a : Agent) (h v : Nat), instrWf (.heartbeat a h v) = true →
      s.entry a .hrd h (R.HRD_HEARTBEAT h) true = .reach →
      ∃ u : State, exec (.heartbeat a h v) s = .next (u.pmcHerd h 0x0A (popcount 2 (v % 4)))
        ∧ (∀ c, c < 2 → u.core (2 * h + c) = { s.core (2 * h + c) with hb := if bit v c then 0 else (s.core (2 * h + c)).hb })
        ∧ (u.herd h).wd = (if v % 4 = 0 then (s.herd h).wd else 0)
        ∧ Map.get 0 u.dieWd (h / 8) = (if v % 4 = 0 then Map.get 0 s.dieWd (h / 8) else 0)
        ∧ Served u 0 ∧ u = { s with rsp := u.rsp, cores := u.cores, herds := u.herds, dieWd := u.dieWd })
    ∧ (∀ (s : State) (c : Nat), c < 32 → s.atBoundary 3 = true → s.fget R.TCK_WDOG F.TCK_WDOG_HB_TICKS ≤ (s.core c).hb →
        ∃ u : State, exec (.heartbeatExpiry c) s =
            .next (u.event (R.HRD_HEARTBEAT (c / 2)) (some { F.HRD_HEARTBEAT_BEAT with lo := c % 2 }) [c])
          ∧ u.core c = { s.core c with hb := 0, irq := (s.core c).irq ||| 2 }
          ∧ u = { s with cores := u.cores }.watchdog { cls := 5, unit := c, kind := 9, cause := 0x13 }
          ∧ ∀ d, d ≠ c → u.core d = s.core d)
    ∧ (∀ (s : State) (t : Nat) (r : Run), t < 192 → (s.tile t).run = some r → s.atBoundary 3 = true →
      s.fget R.TCK_WDOG F.TCK_WDOG_SEG_TICKS ≤ r.bounds →
      ∃ u : State, exec (.segHang t) s = .next u ∧ (u.tile t).run = none ∧ (∀ m ∈ r.members, (1, m) ∈ u.resetsDue)
        ∧ (r.members = [t] → (u.tile t).hangs = (s.tile t).hangs + 1)
        ∧ u.mem = s.mem ∧ u.clk = s.clk ∧ u.herds = s.herds ∧ u.cores = s.cores ∧ u.pending = s.pending)
    ∧ (∀ (s : State) (h : Nat), h < 16 → s.atBoundary 3 = true → s.fget R.TCK_WDOG F.TCK_WDOG_HERD_TICKS ≤ (s.herd h).wd →
        ∃ u : State, exec (.herdWatchdog h) s = .next u ∧ u.herd h = { s.herd h with wd := 0 } ∧ (2, h) ∈ u.resetsDue
          ∧ (∀ g, g ≠ h → u.herd g = s.herd g) ∧ u.mem = s.mem ∧ u.clk = s.clk ∧ u.tiles = s.tiles ∧ u.cores = s.cores)
    ∧ (∀ (s : State) (d : Nat), d < 2 → s.atBoundary 3 = true → s.fget R.TCK_WDOG F.TCK_WDOG_DIE_TICKS ≤ Map.get 0 s.dieWd d →
        ∃ u : State, exec (.dieWatchdog d) s = .next u ∧ Map.get 0 u.dieWd d = 0 ∧ (3, d) ∈ u.resetsDue
          ∧ u.herds = s.herds ∧ u.mem = s.mem ∧ u.clk = s.clk ∧ u.tiles = s.tiles ∧ u.cores = s.cores)
    ∧ (∀ (s : State) (c : Instr) (ag line kind unit : Nat) (d m : Nat), instrWf c = true →
    (c = .memRequestTimeout ag line ∧ kind = (memUnit line).1 ∧ unit = (memUnit line).2
      ∨ c = .ucieTimeout d m ag line ∧ kind = 8 ∧ unit = 28 * d + m) →
    ∃ (w : State) (part : Nat), exec c s = .next (w.agentFails ag part 2)
      ∧ w.fget R.FLT_ERRCNT F.FLT_ERRCNT_TIMEOUT = min (s.fget R.FLT_ERRCNT F.FLT_ERRCNT_TIMEOUT + 1) (2 ^ F.FLT_ERRCNT_TIMEOUT.w - 1)
      ∧ (∀ i, i < 4 → w.fget (R.FLT_LOG (s.fget R.FLT_LOG_PTR F.FLT_LOG_PTR_NEXT % 64) i) F.FLT_LOG_WORD =
          (LogEntry.words { cls := 5, unit := unit, kind := kind, cause := 0x13, arg := line * 64 } s.tick).getD i 0)
      ∧ w.fget R.FLT_LOG_PTR F.FLT_LOG_PTR_NEXT = (s.fget R.FLT_LOG_PTR F.FLT_LOG_PTR_NEXT % 64 + 1) % 64
      ∧ (∀ e f x y, c = .ucieTimeout e f x y →
          w.fget (R.LIF_CNT 27) F.LIF_CNT_VALUE = min (s.fget (R.LIF_CNT 27) F.LIF_CNT_VALUE + 1) (2 ^ F.LIF_CNT_VALUE.w - 1)
            ∧ bit (w.ucieGone (moduleLink e f).1) (moduleLink e f).2 = false)
      ∧ (∀ b, w.busyAt line = some b → ∀ q ∈ b.waiters, q.ag ≠ ag)
      ∧ w = { s with hltEv := w.hltEv, regs := w.regs, busy := w.busy, reqQ := w.reqQ, ucieOut := w.ucieOut }
      ∧ (caching ag = true → (w.agentFails ag part 2).rsp = { kind := .accessFault, data := 0 }
          ∧ w.agentFails ag part 2 = { w with rsp := (w.agentFails ag part 2).rsp }))

/-! ### The dispatcher and the SYN class of a tile (R150 to R154, R171, R175, R181 to R190) -/

/-- CTL and the parameter slots (R171, R175). NOP has no effect, VBASE sets BASE of a view in every member where all become valid, MSPAN
and MWIN write a parameter slot. Each takes effect in the dispatcher, and nothing but the run of the tile differs. TRAP ends the segment
with a fault attributed to the job (R171, R199); so does a VBASE that would make a view invalid, with VIEW_RANGE.
Completes (exec answers a next state): NOP, VBASE, MSPAN, MWIN, TRAP. -/
def Obligations.DispatcherInstructions : Prop :=
  (∀ (s : State) (t idx : Nat) (r : Run), instrWf (.nop t idx) = true → Issues s t idx .nop r →
      ∃ u : State, exec (.nop t idx) s = .next u ∧ OnlyTile s u t
        ∧ u.tile t = { s.tile t with run := some { r.issue idx .nop with finished := r.finished + 1 } })
    ∧ (∀ (s : State) (t idx view sreg : Nat) (r : Run), instrWf (.vbase t idx view sreg) = true →
        Issues s t idx (.vbase view sreg) r →
        (∀ m, m < r.members.length →
          View.valid { ((r.issue idx (.vbase view sreg)).viewsAt idx m).getD view {} with
            base := ((s.issuedAt t idx (.vbase view sreg) r).tile (r.members.getD m 0)).sval sreg % 2 ^ 22 } = true) →
        ∃ u : State, exec (.vbase t idx view sreg) s = .next u ∧ OnlyTile s u t
          ∧ u.tile t = { s.tile t with run := some { r.issue idx (.vbase view sreg) with
              vbases := r.vbases ++ [(idx, view, r.members.map fun m =>
                ((s.issuedAt t idx (.vbase view sreg) r).tile m).sval sreg % 2 ^ 22)],
              finished := r.finished + 1 } })
    ∧ (∀ (s : State) (t idx : Nat) (o : SpanOps) (r : Run), instrWf (.mspan t idx o) = true → Issues s t idx (.mspan o) r →
        ∃ u : State, exec (.mspan t idx o) s = .next u ∧ OnlyTile s u t
          ∧ u.tile t = { s.tile t with run := some { r.issue idx (.mspan o) with
              pslots := r.pslots ++ [(idx, setAt (r.slotsAt idx) o.slot (spanSlot o ((r.slotsAt idx).getD o.slot {})))],
              finished := r.finished + 1 } })
    ∧ (∀ (s : State) (t idx : Nat) (o : WinOps) (r : Run), instrWf (.mwin t idx o) = true → Issues s t idx (.mwin o) r →
        ∃ u : State, exec (.mwin t idx o) s = .next u ∧ OnlyTile s u t
          ∧ u.tile t = { s.tile t with run := some { r.issue idx (.mwin o) with
              pslots := r.pslots ++ [(idx, setAt (r.slotsAt idx) o.slot (winSlot o ((r.slotsAt idx).getD o.slot {})))],
              finished := r.finished + 1 } })
    ∧ (∀ (s : State) (t idx code : Nat) (r : Run), instrWf (.trap t idx code) = true → Issues s t idx (.trap code) r →
      ∃ u : State, exec (.trap t idx code) s = .next u ∧ (u.tile t).run = none
        ∧ u.fget (R.TIL_SEG_STATUS t) F.TIL_SEG_STATUS_TRAP = 1
        ∧ u.fget (R.TIL_SEG_STATUS t) F.TIL_SEG_STATUS_FAULT_CAUSE = 9
        ∧ u.fget (R.TIL_SEG_STATUS t) F.TIL_SEG_STATUS_FAULT_INDEX = idx % 2 ^ F.TIL_SEG_STATUS_FAULT_INDEX.w
        ∧ u.jobFaults = s.jobFaults ++ [{
            unit := t, kind := 1, cause := 9, segId := r.img.segId, index := idx, arg := code,
            ctx := r.ctx, job := s.jobOf r.ctx, part := (s.partOfTile t).getD 0 }]
        ∧ u.mem = s.mem ∧ u.clk = s.clk ∧ u.herds = s.herds ∧ u.cores = s.cores)
    ∧ (∀ (s : State) (t idx view sreg : Nat) (r : Run), instrWf (.vbase t idx view sreg) = true →
        Issues s t idx (.vbase view sreg) r →
        (∃ m, m < r.members.length ∧
          View.valid { ((r.issue idx (.vbase view sreg)).viewsAt idx m).getD view {} with
            base := ((s.issuedAt t idx (.vbase view sreg) r).tile (r.members.getD m 0)).sval sreg % 2 ^ 22 } = false) →
        ∃ u : State, exec (.vbase t idx view sreg) s = .next u ∧ (u.tile t).run = none
          ∧ u.fget (R.TIL_SEG_STATUS t) F.TIL_SEG_STATUS_VIEW_RANGE = 1)

/-- CWAIT takes every named count once all are available and goes in flight; CPOST goes in flight with its counts to post when it
completes (R181, R185); no other tile changes, and of the registers only a sampling counter may. SEMWAIT joins the waiters of its
semaphore and goes in flight unready; SEMSIG goes in flight, and its signal leaves at once where its engine is idle (R189, R404).
Completes (exec answers a next state): CWAIT, CPOST, SEMWAIT, SEMSIG.
Where the rules leave a point open or to inference, the clause is the model's choice: log entries 10 and 20. -/
def Obligations.CreditAndSemaphoreInstructions : Prop :=
  (∀ (s : State) (t idx : Nat) (e : Engine) (n : Counts) (r : Run), instrWf (.cwait t idx e n) = true →
      Issues s t idx (.cwait e n) r → s.countsReady t e n = true →
      ∃ u : State, exec (.cwait t idx e n) s = .next u ∧ InFlight u t r e idx (fun f => f.kind = .plain ∧ f.ready = true)
        ∧ (∀ r', (u.tile t).run = some r' →
            r'.creds = ((countList n).foldl (fun r q => r.take (engineCode q.1) (engineCode e) q.2) r).creds)
        ∧ SameData (s.tile t) (u.tile t) ∧ (∀ v, v ≠ t → u.tile v = s.tile v) ∧ u = { s with tiles := u.tiles, regs := u.regs }
        ∧ SameRegs s u [regKey (R.PMC_SMP_PTR t) F.PMC_SMP_PTR_DROPPED])
    ∧ (∀ (s : State) (t idx : Nat) (e : Engine) (n : Counts) (r : Run), instrWf (.cpost t idx e n) = true →
        Issues s t idx (.cpost e n) r →
        ∃ u : State, exec (.cpost t idx e n) s = .next u ∧ InFlight u t r e idx (fun f => f.posts = countList n ∧ f.ready = true)
          ∧ (∀ r', (u.tile t).run = some r' → r'.creds = r.creds)
          ∧ SameData (s.tile t) (u.tile t) ∧ (∀ v, v ≠ t → u.tile v = s.tile v)
          ∧ u = { s with tiles := u.tiles, regs := u.regs } ∧ SameRegs s u [regKey (R.PMC_SMP_PTR t) F.PMC_SMP_PTR_DROPPED])
    ∧ (∀ (s : State) (t idx : Nat) (e : Engine) (sem n p : Nat) (r : Run), instrWf (.semwait t idx e sem n) = true →
      Issues s t idx (.semwait e sem n) r → s.partOfTile t = some p →
      ((s.sem p (s.semKey p sem)).lock = true → n = 1) →
      ∃ u : State, exec (.semwait t idx e sem n) s = .next u ∧ InFlight u t r e idx (fun f => f.kind = .semWait ∧ f.ready = false)
        ∧ u.sem p (s.semKey p sem) = { s.sem p (s.semKey p sem) with
            waiters := (s.sem p (s.semKey p sem)).waiters ++ [{ tile := t, eng := e, idx := idx, n := n }] }
        ∧ SameData (s.tile t) (u.tile t) ∧ (∀ v, v ≠ t → u.tile v = s.tile v)
        ∧ u = { s with tiles := u.tiles, regs := u.regs, parts := u.parts, gsems := u.gsems }
        ∧ SameRegs s u [regKey (R.PMC_SMP_PTR t) F.PMC_SMP_PTR_DROPPED])
    ∧ (∀ (s : State) (t idx : Nat) (e : Engine) (sem n p : Nat) (r : Run), instrWf (.semsig t idx e sem n) = true →
        Issues s t idx (.semsig e sem n) r → s.partOfTile t = some p →
        ∃ u : State, exec (.semsig t idx e sem n) s = .next u
          ∧ (r.flights e = [] →
              InFlight u t r e idx (fun f => f.kind = .semSig sem n ∧ f.ready = false ∧ f.sent = true)
                ∧ (u.part p).sigs = (s.part p).sigs ++ [{ sem := s.semKey p sem, n := n, origin := .tile t e idx r.ctx }])
          ∧ (r.flights e ≠ [] → ∃ r' f, (u.tile t).run = some r' ∧ (r'.flights e).getLast? = some f ∧ f.idx = idx
              ∧ f.kind = .semSig sem n ∧ f.ready = false ∧ f.sent = false)
          ∧ SameData (s.tile t) (u.tile t) ∧ (∀ v, v ≠ t → u.tile v = s.tile v)
          ∧ u = { s with tiles := u.tiles, regs := u.regs, parts := u.parts }
          ∧ SameRegs s u [regKey (R.PMC_SMP_PTR t) F.PMC_SMP_PTR_DROPPED])

/-- The semaphore units (R189, R190): the oldest signal of an engine is applied where it misuses nothing; the head waiter is granted when
VALUE suffices, and takes the lock of a lock; a write sets VALUE, and LOCK unless the lock is held; an add adds. Summaries (R150 to R152):
a SUMM whose registers exist and whose waits are over joins the summary queue with the status, the value and the sticky flags of all
members, and SUMM_POP takes the oldest entry.
Completes (exec answers a next state): SEM_SIGNAL_APPLY, SEM_GRANT, SEM_WRITE, SEM_ADD, SUMM, SUMM_POP.
Where the rules leave a point open or to inference, the clause is the model's choice: log entries 20 and 21. -/
def Obligations.SemaphoreUnitsAndSummaries : Prop :=
  (∀ (s : State) (p : Nat) (g : SemSig) (l : List SemSig) (t idx ctx : Nat) (e : Engine), p < 8 → (s.part p).sigs = g :: l →
      g.origin = .tile t e idx ctx → (s.sem p g.sem).misused g.n ctx = false →
      ∃ u : State, exec (.semSignalApply p) s = .next u ∧ (u.part p).sigs = l
        ∧ (u.sem p g.sem).value = (s.sem p g.sem).value + g.n ∧ (u.sem p g.sem).waiters = (s.sem p g.sem).waiters
        ∧ (∀ r f, (s.tile t).run = some r → f ∈ r.flights e → f.idx = idx →
            ∃ r', (u.tile t).run = some r' ∧ { f with ready := true } ∈ r'.flights e)
        ∧ u = { s with parts := u.parts, gsems := u.gsems, tiles := u.tiles })
    ∧ (∀ (s : State) (p sem : Nat) (w : Waiter) (l : List Waiter), instrWf (.semGrant p sem) = true →
        (s.sem p (s.semKey p sem)).waiters = w :: l → w.n ≤ (s.sem p (s.semKey p sem)).value →
        ∃ u : State, exec (.semGrant p sem) s = .next u
          ∧ (u.sem p (s.semKey p sem)).value = (s.sem p (s.semKey p sem)).value - w.n
          ∧ (u.sem p (s.semKey p sem)).waiters = l
          ∧ (u.sem p (s.semKey p sem)).held = ((s.sem p (s.semKey p sem)).held || (s.sem p (s.semKey p sem)).lock)
          ∧ u = { s with parts := u.parts, gsems := u.gsems, tiles := u.tiles })
    ∧ (∀ (s : State) (a : Agent) (p sem v : Nat), instrWf (.semWrite a p sem v) = true →
        s.entry a .sch p (R.SCH_SEM p sem) true = .reach →
        ∃ u : State, exec (.semWrite a p sem v) s = .next u ∧ Served u 0
          ∧ u.sem p (s.semKey p sem) = { s.sem p (s.semKey p sem) with
              value := bits v 0 32, lock := if (s.sem p (s.semKey p sem)).held then (s.sem p (s.semKey p sem)).lock else bit v 63 }
          ∧ u = { s with parts := u.parts, gsems := u.gsems, rsp := u.rsp })
    ∧ (∀ (s : State) (a : Agent) (p sem v : Nat), instrWf (.semAdd a p sem v) = true →
        s.entry a .sch p (R.SCH_SEMADD p sem) true = .reach →
        (s.sem p (s.semKey p sem)).value + bits v 0 32 ≤ 0xFFFFFFFF →
        ((s.sem p (s.semKey p sem)).lock = true → (s.sem p (s.semKey p sem)).value + bits v 0 32 ≤ 1) →
        ∃ u : State, exec (.semAdd a p sem v) s = .next u ∧ Served u 0
          ∧ (u.sem p (s.semKey p sem)).value = (s.sem p (s.semKey p sem)).value + bits v 0 32
          ∧ u = { s with parts := u.parts, gsems := u.gsems, rsp := u.rsp })
    ∧ (∀ (s : State) (t idx : Nat) (o : SummOps) (r : Run), instrWf (.summ t idx o) = true → Issues s t idx (.summ o) r →
      s.summReady t idx o = true → ¬ ((o.kind = 1 ∨ o.kind = 2) ∧ 32 < o.reg + o.k) →
      ∃ u : State, exec (.summ t idx o) s = .next u
        ∧ (u.tile t).summ = (s.tile t).summ ++ [summWord o.kind o.tag
            ((r.members.map fun m => summPart ((s.issuedAt t idx (.summ o) r).tile m) o).foldl
              (fun a q => mergeStatus a q.status) 0)
            (r.members.foldl (fun a m => a ||| s.vflags m) 0)
            (summValue o (r.members.map fun m => summPart ((s.issuedAt t idx (.summ o) r).tile m) o))]
        ∧ SameData (s.tile t) (u.tile t) ∧ (∀ v, v ≠ t → u.tile v = s.tile v)
        ∧ SameUnitsBut (tileRegs t r) { s with tiles := u.tiles, cores := u.cores } u)
    ∧ (∀ (s : State) (a : Agent) (t w : Nat) (l : List Nat), instrWf (.summPop a t) = true →
        s.entry a .hrd (t / 12) (R.HRD_SUMM_Q (t / 12) (t % 12)) false = .reach → (s.tile t).summ = w :: l →
        ∃ u : State, exec (.summPop a t) s = .next u ∧ Served u w ∧ u.tile t = { s.tile t with summ := l }
          ∧ (∀ v, v ≠ t → u.tile v = s.tile v) ∧ SameUnits { s with tiles := u.tiles, rsp := u.rsp } u)
    ∧ (∀ (s : State) (a : Agent) (t : Nat), instrWf (.summPop a t) = true →
        s.entry a .hrd (t / 12) (R.HRD_SUMM_Q (t / 12) (t % 12)) false = .reach → (s.tile t).summ = [] →
        exec (.summPop a t) s = .next (s.answer .ok 0))

/-- FLAGCLR (R149) completes: it answers a next state in which the named sticky flags of every member are clear, and no flag of another
tile differs. INSTR_COMPLETE (R184, R185) completes, that is exec answers a next state, where the oldest instruction of an engine has
nothing to wait for and its credits fit: it retires that instruction and posts its credits; where it is held because the registers that it
writes are not free (R186), a remote access has had no answer (R343) or its tokens have not come (R291), nothing changes; and a vector instruction that was held makes its
writes at its completion. The sticky flags of a tile (R149): a mask of flags sets the flags that it names and leaves the others.
Completes (exec answers a next state): FLAGCLR, INSTR_COMPLETE.
Where the rules leave a point open or to inference, the clause is the model's choice: log entries 10, 108 and 111. -/
def Obligations.FlagsAndCompletion : Prop :=
  (∀ (s : State) (t idx flags : Nat) (r : Run), instrWf (.flagclr t idx flags) = true → Issues s t idx (.flagclr flags) r →
      ∃ u : State, exec (.flagclr t idx flags) s = .next u
        ∧ (∀ m ∈ r.members, (bit flags 0 = true → u.fget (R.TIL_VSTATUS m) F.TIL_VSTATUS_CVT_OVF = 0)
            ∧ (bit flags 1 = true → u.fget (R.TIL_VSTATUS m) F.TIL_VSTATUS_CVT_INVALID = 0)
            ∧ (bit flags 2 = true → u.fget (R.TIL_VSTATUS m) F.TIL_VSTATUS_ARITH_OVF = 0)
            ∧ (bit flags 3 = true → u.fget (R.TIL_VSTATUS m) F.TIL_VSTATUS_ARITH_INVALID = 0)
            ∧ (bit flags 4 = true → u.fget (R.TIL_VSTATUS m) F.TIL_VSTATUS_PERM_RANGE = 0))
        ∧ (∀ m, m ∉ r.members → u.vflags m = s.vflags m)
        ∧ SameData (s.tile t) (u.tile t) ∧ (∀ v, v ≠ t → u.tile v = s.tile v)
        ∧ u = { s with tiles := u.tiles, regs := u.regs })
    ∧ (∀ (s : State) (t wait lat : Nat) (e : Engine) (r r2 : Run) (f : Flight) (l : List Flight),
        instrWf (.instrComplete t e wait lat) = true → (s.tile t).run = some r → r.flights e = f :: l → s.flightDone t f = true →
        r.give (engineCode e) f.posts = some r2 →
        ∃ u r', exec (.instrComplete t e wait lat) s = .next u ∧ (u.tile t).run = some r'
          ∧ r'.finished = r.finished + 1 ∧ r'.creds = r2.creds ∧ (r'.flights e).length = l.length
          ∧ SameData (s.tile t) (u.tile t) ∧ (∀ v, v ≠ t → u.tile v = s.tile v)
          ∧ SameUnitsBut (tileRegs t r) { s with tiles := u.tiles, parts := u.parts } u)
    ∧ (∀ (s : State) (t wait lat : Nat) (e : Engine) (r : Run) (f : Flight) (l : List Flight) (ms : List Mem) (x : TIns),
        instrWf (.instrComplete t e wait lat) = true → (s.tile t).run = some r → r.flights e = f :: l → f.held = some ms →
        r.ins f.idx = some x → (r.clear f.idx x = false ∨ s.insAsks t f.idx = true ∨ s.regPast f.marks = false) →
        exec (.instrComplete t e wait lat) s = .next s)
    ∧ (∀ (s : State) (t wait lat : Nat) (r r2 : Run) (f : Flight) (l : List Flight) (ms : List Mem) (op : VecOp) (o : VecOps),
        instrWf (.instrComplete t .vector wait lat) = true → (s.tile t).run = some r → r.flights .vector = f :: l →
        f.held = some ms → f.ready = true → f.drain = none → (∀ g ∈ l, g.idx ≠ f.idx) → r.ins f.idx = some (.vec op o) →
        r.clear f.idx (.vec op o) = true → s.insAsks t f.idx = false → s.regPast f.marks = true → r.members.Nodup →
        r.give (engineCode .vector) f.posts = some r2 →
        ∃ u r', exec (.instrComplete t .vector wait lat) s = .next u ∧ (u.tile t).run = some r'
          ∧ r'.finished = r.finished + 1 ∧ r'.creds = r2.creds ∧ (r'.flights .vector).length = l.length
          ∧ WritesTiles s u r (fun _ y => (vecFn op o (s.numCtx t r) y).1)
          ∧ (∀ v, v ≠ t → v ∉ r.members → u.tile v = s.tile v)
          ∧ SameUnitsBut (tileRegs t r) { s with tiles := u.tiles, parts := u.parts } u)
    ∧ (∀ (s : State) (t fl : Nat), fl < 32 →
    (s.setVflags t fl).fget (R.TIL_VSTATUS t) F.TIL_VSTATUS_CVT_OVF =
        (if bit fl 0 then 1 else s.fget (R.TIL_VSTATUS t) F.TIL_VSTATUS_CVT_OVF)
      ∧ (s.setVflags t fl).fget (R.TIL_VSTATUS t) F.TIL_VSTATUS_CVT_INVALID =
        (if bit fl 1 then 1 else s.fget (R.TIL_VSTATUS t) F.TIL_VSTATUS_CVT_INVALID)
      ∧ (s.setVflags t fl).fget (R.TIL_VSTATUS t) F.TIL_VSTATUS_ARITH_OVF =
        (if bit fl 2 then 1 else s.fget (R.TIL_VSTATUS t) F.TIL_VSTATUS_ARITH_OVF)
      ∧ (s.setVflags t fl).fget (R.TIL_VSTATUS t) F.TIL_VSTATUS_ARITH_INVALID =
        (if bit fl 3 then 1 else s.fget (R.TIL_VSTATUS t) F.TIL_VSTATUS_ARITH_INVALID)
      ∧ (s.setVflags t fl).fget (R.TIL_VSTATUS t) F.TIL_VSTATUS_PERM_RANGE =
        (if bit fl 4 then 1 else s.fget (R.TIL_VSTATUS t) F.TIL_VSTATUS_PERM_RANGE)
      ∧ OnlyRegs s (s.setVflags t fl) [regKey (R.TIL_VSTATUS t) F.TIL_VSTATUS_CVT_OVF,
          regKey (R.TIL_VSTATUS t) F.TIL_VSTATUS_CVT_INVALID, regKey (R.TIL_VSTATUS t) F.TIL_VSTATUS_ARITH_OVF,
          regKey (R.TIL_VSTATUS t) F.TIL_VSTATUS_ARITH_INVALID, regKey (R.TIL_VSTATUS t) F.TIL_VSTATUS_PERM_RANGE])

/-! ### The vector engine (R135 to R149, R178 to R180) -/

/-- ADD, MUL, FMA, MIN, MAX, SEL, IADD, IMIN and IMAX (R91, R138 to R144): each element of the active area that the mask lets through
takes what the element function gives for the registers as they stand at the issue, the block statuses are merged or replaced, and no
other element, register, mask, scalar or memory byte differs.
Completes (exec answers a next state): ADD, MUL, FMA, VEC_MIN, VEC_MAX, SEL, IADD, IMIN, IMAX.
Where the rules leave a point open or to inference, the clause is the model's choice: log entry 10. -/
def Obligations.VectorElements : Prop :=
  (∀ (s : State) (t idx : Nat) (o : VecOps) (r : Run), instrWf (.add t idx o) = true → Issues s t idx (.vec .add o) r →
        r.members.Nodup →
        ∃ u : State, exec (.add t idx o) s = .next u ∧ WritesReg (s.issuedAt t idx (.vec .add o) r) u r o (fun x => addOut ((s.issuedAt t idx (.vec .add o) r).numCtx t (r.issue idx (.vec .add o))) x o) ∧ InFlight u t r .vector idx (fun _ => True)
          ∧ TileFrame s u t r)
    ∧ (∀ (s : State) (t idx : Nat) (o : VecOps) (r : Run), instrWf (.mul t idx o) = true → Issues s t idx (.vec .mul o) r →
        r.members.Nodup →
        ∃ u : State, exec (.mul t idx o) s = .next u ∧ WritesReg (s.issuedAt t idx (.vec .mul o) r) u r o (fun x => mulOut ((s.issuedAt t idx (.vec .mul o) r).numCtx t (r.issue idx (.vec .mul o))) x o) ∧ InFlight u t r .vector idx (fun _ => True)
          ∧ TileFrame s u t r)
    ∧ (∀ (s : State) (t idx : Nat) (o : VecOps) (r : Run), instrWf (.fma t idx o) = true → Issues s t idx (.vec .fma o) r →
        r.members.Nodup →
        ∃ u : State, exec (.fma t idx o) s = .next u ∧ WritesReg (s.issuedAt t idx (.vec .fma o) r) u r o (fun x => fmaOut ((s.issuedAt t idx (.vec .fma o) r).numCtx t (r.issue idx (.vec .fma o))) x o) ∧ InFlight u t r .vector idx (fun _ => True)
          ∧ TileFrame s u t r)
    ∧ (∀ (s : State) (t idx : Nat) (o : VecOps) (r : Run), instrWf (.vecMin t idx o) = true → Issues s t idx (.vec .min o) r →
        r.members.Nodup →
        ∃ u : State, exec (.vecMin t idx o) s = .next u ∧ WritesReg (s.issuedAt t idx (.vec .min o) r) u r o (fun x => minOut x o) ∧ InFlight u t r .vector idx (fun _ => True)
          ∧ TileFrame s u t r)
    ∧ (∀ (s : State) (t idx : Nat) (o : VecOps) (r : Run), instrWf (.vecMax t idx o) = true → Issues s t idx (.vec .max o) r →
        r.members.Nodup →
        ∃ u : State, exec (.vecMax t idx o) s = .next u ∧ WritesReg (s.issuedAt t idx (.vec .max o) r) u r o (fun x => maxOut x o) ∧ InFlight u t r .vector idx (fun _ => True)
          ∧ TileFrame s u t r)
    ∧ (∀ (s : State) (t idx : Nat) (o : VecOps) (r : Run), instrWf (.sel t idx o) = true → Issues s t idx (.vec .sel o) r →
        r.members.Nodup →
        ∃ u : State, exec (.sel t idx o) s = .next u ∧ WritesReg (s.issuedAt t idx (.vec .sel o) r) u r o (fun x => selOut x o) ∧ InFlight u t r .vector idx (fun _ => True)
          ∧ TileFrame s u t r)
    ∧ (∀ (s : State) (t idx : Nat) (o : VecOps) (r : Run), instrWf (.iadd t idx o) = true → Issues s t idx (.vec .iadd o) r →
        r.members.Nodup →
        ∃ u : State, exec (.iadd t idx o) s = .next u ∧ WritesReg (s.issuedAt t idx (.vec .iadd o) r) u r o (fun x => intOut x o (· + ·)) ∧ InFlight u t r .vector idx (fun _ => True)
          ∧ TileFrame s u t r)
    ∧ (∀ (s : State) (t idx : Nat) (o : VecOps) (r : Run), instrWf (.imin t idx o) = true → Issues s t idx (.vec .imin o) r →
        r.members.Nodup →
        ∃ u : State, exec (.imin t idx o) s = .next u ∧ WritesReg (s.issuedAt t idx (.vec .imin o) r) u r o (fun x => intOut x o Min.min) ∧ InFlight u t r .vector idx (fun _ => True)
          ∧ TileFrame s u t r)
    ∧ (∀ (s : State) (t idx : Nat) (o : VecOps) (r : Run), instrWf (.imax t idx o) = true → Issues s t idx (.vec .imax o) r →
        r.members.Nodup →
        ∃ u : State, exec (.imax t idx o) s = .next u ∧ WritesReg (s.issuedAt t idx (.vec .imax o) r) u r o (fun x => intOut x o Max.max) ∧ InFlight u t r .vector idx (fun _ => True)
          ∧ TileFrame s u t r)

/-- CMP, ICMP, MAND, MOR, MXOR, MANDN and MNOT (R92, R140): each bit of the active area of the destination mask that the mask lets through
is the relation of the two elements or the function of the two bits, and nothing else that the tile computes with differs.
Completes (exec answers a next state): CMP, ICMP, MAND, MOR, MXOR, MANDN, MNOT.
Where the rules leave a point open or to inference, the clause is the model's choice: log entry 10. -/
def Obligations.VectorMasks : Prop :=
  (∀ (s : State) (t idx : Nat) (rel : Rel) (o : VecOps) (r : Run), instrWf (.cmp t idx rel o) = true → Issues s t idx (.vec (.cmp rel) o) r →
        r.members.Nodup →
        ∃ u : State, exec (.cmp t idx rel o) s = .next u ∧ WritesMask (s.issuedAt t idx (.vec (.cmp rel) o) r) u r o (fun x i c => relHolds rel ((x.srcVal o.ty o.a i c).cmp (x.srcVal o.ty o.b i c))) ∧ InFlight u t r .vector idx (fun _ => True)
          ∧ SilentFrame s u t r)
    ∧ (∀ (s : State) (t idx : Nat) (rel : Rel) (o : VecOps) (r : Run), instrWf (.icmp t idx rel o) = true → Issues s t idx (.vec (.icmp rel) o) r →
        r.members.Nodup →
        ∃ u : State, exec (.icmp t idx rel o) s = .next u ∧ WritesMask (s.issuedAt t idx (.vec (.icmp rel) o) r) u r o (fun x i c => relHolds rel (some (compare (x.srcInt o.a i c) (x.srcInt o.b i c)))) ∧ InFlight u t r .vector idx (fun _ => True)
          ∧ SilentFrame s u t r)
    ∧ (∀ (s : State) (t idx : Nat) (o : VecOps) (r : Run), instrWf (.mand t idx o) = true → Issues s t idx (.vec .mand o) r →
        r.members.Nodup →
        ∃ u : State, exec (.mand t idx o) s = .next u ∧ WritesMask (s.issuedAt t idx (.vec .mand o) r) u r o (fun x i c => x.mask o.a.reg i c && x.mask o.b.reg i c) ∧ InFlight u t r .vector idx (fun _ => True)
          ∧ SilentFrame s u t r)
    ∧ (∀ (s : State) (t idx : Nat) (o : VecOps) (r : Run), instrWf (.mor t idx o) = true → Issues s t idx (.vec .mor o) r →
        r.members.Nodup →
        ∃ u : State, exec (.mor t idx o) s = .next u ∧ WritesMask (s.issuedAt t idx (.vec .mor o) r) u r o (fun x i c => x.mask o.a.reg i c || x.mask o.b.reg i c) ∧ InFlight u t r .vector idx (fun _ => True)
          ∧ SilentFrame s u t r)
    ∧ (∀ (s : State) (t idx : Nat) (o : VecOps) (r : Run), instrWf (.mxor t idx o) = true → Issues s t idx (.vec .mxor o) r →
        r.members.Nodup →
        ∃ u : State, exec (.mxor t idx o) s = .next u ∧ WritesMask (s.issuedAt t idx (.vec .mxor o) r) u r o (fun x i c => x.mask o.a.reg i c != x.mask o.b.reg i c) ∧ InFlight u t r .vector idx (fun _ => True)
          ∧ SilentFrame s u t r)
    ∧ (∀ (s : State) (t idx : Nat) (o : VecOps) (r : Run), instrWf (.mandn t idx o) = true → Issues s t idx (.vec .mandn o) r →
        r.members.Nodup →
        ∃ u : State, exec (.mandn t idx o) s = .next u ∧ WritesMask (s.issuedAt t idx (.vec .mandn o) r) u r o (fun x i c => x.mask o.a.reg i c && !x.mask o.b.reg i c) ∧ InFlight u t r .vector idx (fun _ => True)
          ∧ SilentFrame s u t r)
    ∧ (∀ (s : State) (t idx : Nat) (o : VecOps) (r : Run), instrWf (.mnot t idx o) = true → Issues s t idx (.vec .mnot o) r →
        r.members.Nodup →
        ∃ u : State, exec (.mnot t idx o) s = .next u ∧ WritesMask (s.issuedAt t idx (.vec .mnot o) r) u r o (fun x i c => !x.mask o.a.reg i c) ∧ InFlight u t r .vector idx (fun _ => True)
          ∧ SilentFrame s u t r)
    ∧ (∀ (rel : Rel) (x : XVal), relHolds rel (XVal.cmp .nan x) = (rel == .ne) ∧ relHolds rel (XVal.cmp x .nan) = (rel == .ne))
    ∧ (∀ (rel : Rel) (n n' : Bool) (e e' : Int), relHolds rel (XVal.cmp (.fin n 0 e) (.fin n' 0 e')) = relHolds rel (some .eq))

/-- PADD, the reductions and the permutations (R145 to R148): every member's registers, statuses and scalars are what the instruction's
function over one tile makes of them, and a reduction over all of the active area leaves its result in the scalar. CVT (R179): a window of
elements is converted or moved between registers and views of every member, with the flags that it meets, where the 16-bit records that it
reads hold SCALE 0x7F (R87) and its early credit has room (R185).
Completes (exec answers a next state): PADD, SUM, SUMSQ, RED_MAX, RED_MIN, MAXABS, ARGMAX, POPC, PERMC, PERMR, CVT.
Where the rules leave a point open or to inference, the clause is the model's choice: log entry 10. -/
def Obligations.VectorReductionsAndConversion : Prop :=
  (∀ (s : State) (t idx : Nat) (o : VecOps) (r : Run), instrWf (.padd t idx o) = true → Issues s t idx (.vec .padd o) r →
        r.members.Nodup →
        ∃ u : State, exec (.padd t idx o) s = .next u ∧ WritesTiles (s.issuedAt t idx (.vec .padd o) r) u r (fun _ x => (paddApply ((s.issuedAt t idx (.vec .padd o) r).numCtx t (r.issue idx (.vec .padd o))) x o).1) ∧ InFlight u t r .vector idx (fun _ => True)
          ∧ TileFrame s u t r)
    ∧ (∀ (s : State) (t idx : Nat) (o : RedOps) (r : Run), instrWf (.sum t idx o) = true → Issues s t idx (.red (.red .sum) o) r →
        r.members.Nodup →
        ∃ u : State, exec (.sum t idx o) s = .next u ∧ WritesTiles (s.issuedAt t idx (.red (.red .sum) o) r) u r (fun _ x => (redApply ((s.issuedAt t idx (.red (.red .sum) o) r).numCtx t (r.issue idx (.red (.red .sum) o))) x o .sum).1) ∧ InFlight u t r .vector idx (fun _ => True)
          ∧ TileFrame s u t r)
    ∧ (∀ (s : State) (t idx : Nat) (o : RedOps) (r : Run), instrWf (.sumsq t idx o) = true → Issues s t idx (.red (.red .sumsq) o) r →
        r.members.Nodup →
        ∃ u : State, exec (.sumsq t idx o) s = .next u ∧ WritesTiles (s.issuedAt t idx (.red (.red .sumsq) o) r) u r (fun _ x => (redApply ((s.issuedAt t idx (.red (.red .sumsq) o) r).numCtx t (r.issue idx (.red (.red .sumsq) o))) x o .sumsq).1) ∧ InFlight u t r .vector idx (fun _ => True)
          ∧ TileFrame s u t r)
    ∧ (∀ (s : State) (t idx : Nat) (o : RedOps) (r : Run), instrWf (.redMax t idx o) = true → Issues s t idx (.red (.red .max) o) r →
        r.members.Nodup →
        ∃ u : State, exec (.redMax t idx o) s = .next u ∧ WritesTiles (s.issuedAt t idx (.red (.red .max) o) r) u r (fun _ x => (redApply ((s.issuedAt t idx (.red (.red .max) o) r).numCtx t (r.issue idx (.red (.red .max) o))) x o .max).1) ∧ InFlight u t r .vector idx (fun _ => True)
          ∧ TileFrame s u t r)
    ∧ (∀ (s : State) (t idx : Nat) (o : RedOps) (r : Run), instrWf (.redMin t idx o) = true → Issues s t idx (.red (.red .min) o) r →
        r.members.Nodup →
        ∃ u : State, exec (.redMin t idx o) s = .next u ∧ WritesTiles (s.issuedAt t idx (.red (.red .min) o) r) u r (fun _ x => (redApply ((s.issuedAt t idx (.red (.red .min) o) r).numCtx t (r.issue idx (.red (.red .min) o))) x o .min).1) ∧ InFlight u t r .vector idx (fun _ => True)
          ∧ TileFrame s u t r)
    ∧ (∀ (s : State) (t idx : Nat) (o : RedOps) (r : Run), instrWf (.maxabs t idx o) = true → Issues s t idx (.red (.red .maxabs) o) r →
        r.members.Nodup →
        ∃ u : State, exec (.maxabs t idx o) s = .next u ∧ WritesTiles (s.issuedAt t idx (.red (.red .maxabs) o) r) u r (fun _ x => (redApply ((s.issuedAt t idx (.red (.red .maxabs) o) r).numCtx t (r.issue idx (.red (.red .maxabs) o))) x o .maxabs).1) ∧ InFlight u t r .vector idx (fun _ => True)
          ∧ TileFrame s u t r)
    ∧ (∀ (s : State) (t idx : Nat) (o : RedOps) (r : Run), instrWf (.argmax t idx o) = true → Issues s t idx (.red (.red .argmax) o) r →
        r.members.Nodup →
        ∃ u : State, exec (.argmax t idx o) s = .next u ∧ WritesTiles (s.issuedAt t idx (.red (.red .argmax) o) r) u r (fun _ x => (redApply ((s.issuedAt t idx (.red (.red .argmax) o) r).numCtx t (r.issue idx (.red (.red .argmax) o))) x o .argmax).1) ∧ InFlight u t r .vector idx (fun _ => True)
          ∧ TileFrame s u t r)
    ∧ (∀ (s : State) (t idx : Nat) (o : RedOps) (r : Run), instrWf (.popc t idx o) = true → Issues s t idx (.red (.red .popc) o) r →
        r.members.Nodup →
        ∃ u : State, exec (.popc t idx o) s = .next u ∧ WritesTiles (s.issuedAt t idx (.red (.red .popc) o) r) u r (fun _ x => (redApply ((s.issuedAt t idx (.red (.red .popc) o) r).numCtx t (r.issue idx (.red (.red .popc) o))) x o .popc).1) ∧ InFlight u t r .vector idx (fun _ => True)
          ∧ TileFrame s u t r)
    ∧ (∀ (s : State) (t idx : Nat) (o : RedOps) (r : Run), instrWf (.permc t idx o) = true → Issues s t idx (.red .permc o) r →
        r.members.Nodup →
        ∃ u : State, exec (.permc t idx o) s = .next u ∧ WritesTiles (s.issuedAt t idx (.red .permc o) r) u r (fun _ x => (permApply x o o.vl fun i _ k => (i, k)).1) ∧ InFlight u t r .vector idx (fun _ => True)
          ∧ TileFrame s u t r)
    ∧ (∀ (s : State) (t idx : Nat) (o : RedOps) (r : Run), instrWf (.permr t idx o) = true → Issues s t idx (.red .permr o) r →
        r.members.Nodup →
        ∃ u : State, exec (.permr t idx o) s = .next u ∧ WritesTiles (s.issuedAt t idx (.red .permr o) r) u r (fun _ x => (permApply x o o.vr fun _ c k => (k, c)).1) ∧ InFlight u t r .vector idx (fun _ => True)
          ∧ TileFrame s u t r)
    ∧ (∀ (n : NumCtx) (x : Tile) (o : RedOps) (op : RedOp), o.axis = .all →
        (redApply n x o op).1.sval o.dst = (redRes x o op 32 .rne (area o.vr o.vl)).code % 2 ^ 32
          ∧ (redApply n x o op).1.tregs = x.tregs ∧ (redApply n x o op).1.masks = x.masks ∧ (redApply n x o op).1.mem = x.mem)
    ∧ (∀ (s : State) (t idx : Nat) (o : CvtOps) (r : Run), instrWf (.cvt t idx o) = true → Issues s t idx (.cvt o) r → r.members.Nodup →
    ((r.issue idx (.cvt o)).anyMember fun m v =>
      !cvtScaleOk ((s.issuedAt t idx (.cvt o) r).tile v) ((r.issue idx (.cvt o)).viewsAt idx m) o) = false →
    PostFits (r.issue idx (.cvt o)) .vector o.post →
    ∃ u : State, exec (.cvt t idx o) s = .next u
      ∧ WritesTiles (s.issuedAt t idx (.cvt o) r) u r (fun k x =>
          (cvtApply ((s.issuedAt t idx (.cvt o) r).numCtx t (r.issue idx (.cvt o))) x ((r.issue idx (.cvt o)).viewsAt idx k) o).1)
      ∧ InFlight u t r .vector idx (fun _ => True) ∧ TileFrame s u t r)

/-! ### Moves and the matrix array (R107 to R134, R172 to R176) -/

/-- LD, ST and STREC (R173) where no access fails: the instruction goes in flight with the work of every member done; LD changes of its
tiles only the memory, ST and STREC change no tile's data. A store through a frozen descriptor only counts (R254). HLD and HST (R173)
where the packed view lies within herd memory: HLD changes of its tiles only the memory, HST only the memory of its herd. All complete:
exec answers a next state; so does a move whose accesses must wait, for a line behind a remote window (R343), a final phase (R308) or a
refresh slot (R62), which goes in flight with its work still to be done and asks for what it waits for, and so does a move behind one that
waits so (R187).
Completes (exec answers a next state): LD, ST, STREC, HLD, HST.
Where the rules leave a point open or to inference, the clause is the model's choice: log entries 10, 16, 108 and 111. -/
def Obligations.MemoryMoves : Prop :=
  (∀ (s w : State) (t idx : Nat) (o : MovOps) (r : Run), instrWf (.ld t idx o) = true → Issues s t idx (.mov .ld o) r →
      PostFits (r.issue idx (.mov .ld o)) .dma o.post →
      movNow (s.issuedAt t idx (.mov .ld o) r) t idx .ld o (r.issue idx (.mov .ld o)) = some (.ok, w) →
      ∃ u : State, exec (.ld t idx o) s = .next u
        ∧ u = w.launched t idx (.mov .ld o) ((s.issuedAt t idx (.mov .ld o) r).movEaddr t .ld o (r.issue idx (.mov .ld o)))
        ∧ (∀ m, (u.tile m).tregs = (s.tile m).tregs ∧ (u.tile m).masks = (s.tile m).masks ∧ (u.tile m).sregs = (s.tile m).sregs
            ∧ (u.tile m).acc = (s.tile m).acc)
        ∧ InFlight u t r .dma idx (fun f => f.held = none) ∧ TileFrame s u t r)
    ∧ (∀ (s w : State) (t idx : Nat) (o : MovOps) (r : Run), instrWf (.st t idx o) = true → Issues s t idx (.mov .st o) r →
        s.storeReady t o = true → movFrozen .st o (r.issue idx (.mov .st o)) = false → PostFits (r.issue idx (.mov .st o)) .store o.post →
        movNow (s.issuedAt t idx (.mov .st o) r) t idx .st o (r.issue idx (.mov .st o)) = some (.ok, w) →
        ∃ u : State, exec (.st t idx o) s = .next u
          ∧ u = w.launched t idx (.mov .st o) ((s.issuedAt t idx (.mov .st o) r).movEaddr t .st o (r.issue idx (.mov .st o)))
          ∧ (∀ m, SameData (s.tile m) (u.tile m)) ∧ InFlight u t r .store idx (fun f => f.held = none) ∧ TileFrame s u t r)
    ∧ (∀ (s w : State) (t idx : Nat) (o : MovOps) (r : Run), instrWf (.strec t idx o) = true → Issues s t idx (.mov .strec o) r →
        s.storeReady t o = true → movFrozen .strec o (r.issue idx (.mov .strec o)) = false →
        PostFits (r.issue idx (.mov .strec o)) .store o.post →
        movNow (s.issuedAt t idx (.mov .strec o) r) t idx .strec o (r.issue idx (.mov .strec o)) = some (.ok, w) →
        ∃ u : State, exec (.strec t idx o) s = .next u
          ∧ u = w.launched t idx (.mov .strec o) ((s.issuedAt t idx (.mov .strec o) r).movEaddr t .strec o (r.issue idx (.mov .strec o)))
          ∧ (∀ m, SameData (s.tile m) (u.tile m)) ∧ InFlight u t r .store idx (fun f => f.held = none) ∧ TileFrame s u t r)
    ∧ (∀ (s : State) (t idx : Nat) (o : MovOps) (r : Run) (h : Halt), instrWf (.ld t idx o) = true → Issues s t idx (.mov .ld o) r →
        PostFits (r.issue idx (.mov .ld o)) .dma o.post → (∀ g ∈ r.flights .dma, g.idx ≠ idx) →
        movHalt (s.issuedAt t idx (.mov .ld o) r) t idx .ld o (r.issue idx (.mov .ld o)) = some h →
        ∃ u : State, exec (.ld t idx o) s = .next u
          ∧ u = ((s.issuedAt t idx (.mov .ld o) r).movHeld t idx .ld o (r.issue idx (.mov .ld o)) []).haltAt (movUnit t) h
          ∧ (∀ m, SameData (s.tile m) (u.tile m)) ∧ InFlight u t r .dma idx (fun f => f.held = some []) ∧ TileFrame s u t r)
    ∧ (∀ (s : State) (t idx : Nat) (o : MovOps) (r : Run) (h : Halt), instrWf (.st t idx o) = true → Issues s t idx (.mov .st o) r →
        s.storeReady t o = true → movFrozen .st o (r.issue idx (.mov .st o)) = false → PostFits (r.issue idx (.mov .st o)) .store o.post →
        (∀ g ∈ r.flights .store, g.idx ≠ idx) →
        movHalt (s.issuedAt t idx (.mov .st o) r) t idx .st o (r.issue idx (.mov .st o)) = some h →
        ∃ u : State, exec (.st t idx o) s = .next u ∧ u.mem = s.mem
          ∧ (∀ m, SameData (s.tile m) (u.tile m))
          ∧ InFlight u t r .store idx (fun f => f.held = some (r.members.map fun m => (s.tile m).mem)) ∧ TileFrame s u t r)
    ∧ (∀ (s : State) (t idx : Nat) (o : MovOps) (r : Run), instrWf (.ld t idx o) = true → (s.tile t).run = some r →
        r.mayIssue idx (.mov .ld o) = true → r.heldOn .dma = true → PostFits (r.issue idx (.mov .ld o)) .dma o.post →
        (∀ g ∈ r.flights .dma, g.idx ≠ idx) →
        ∃ u : State, exec (.ld t idx o) s = .next u ∧ u.mem = s.mem ∧ (∀ m, SameData (s.tile m) (u.tile m))
          ∧ InFlight u t r .dma idx (fun f => f.held = some []) ∧ TileFrame s u t r)
    ∧ (∀ (s : State) (t idx p k : Nat) (o : MovOps) (r : Run) (c : Slot), instrWf (.st t idx o) = true →
        Issues s t idx (.mov .st o) r → movFrozen .st o (r.issue idx (.mov .st o)) = true → s.storeReady t o = true →
        PostFits (r.issue idx (.mov .st o)) .store o.post → s.partOfTile t = some p → (s.part p).run = some k →
        s.slot? p k = some c → c.fget R.SCH_UPD_CTL F.SCH_UPD_CTL_FROZEN_FAULT = 0 →
        ∃ u : State, exec (.st t idx o) s = .next u ∧ u.mem = s.mem
          ∧ u.slot? p k = some (c.fadd R.SCH_UPD_STAT F.SCH_UPD_STAT_FROZEN_UPDATE 1)
          ∧ InFlight u t r .store idx (fun _ => True) ∧ (∀ m, SameData (s.tile m) (u.tile m)))
    ∧ (∀ (s w : State) (t idx : Nat) (o : MovOps) (r : Run), instrWf (.hld t idx o) = true → Issues s t idx (.mov .hld o) r →
        PostFits (r.issue idx (.mov .hld o)) .dma o.post →
        movNow (s.issuedAt t idx (.mov .hld o) r) t idx .hld o (r.issue idx (.mov .hld o)) = some (.ok, w) →
        ∃ u : State, exec (.hld t idx o) s = .next u
          ∧ (∀ m, SameData (w.tile m) (u.tile m))
          ∧ SameUnitsBut (tileRegs t r) { s with tiles := u.tiles } u ∧ (∀ m, (u.tile m).tregs = (s.tile m).tregs ∧ (u.tile m).sregs = (s.tile m).sregs)
          ∧ InFlight u t r .dma idx (fun f => f.held = none) ∧ (∀ v, v ≠ t → v ∉ r.members → u.tile v = s.tile v))
    ∧ (∀ (s w : State) (t idx : Nat) (o : MovOps) (r : Run), instrWf (.hst t idx o) = true → Issues s t idx (.mov .hst o) r →
        PostFits (r.issue idx (.mov .hst o)) .store o.post →
        movNow (s.issuedAt t idx (.mov .hst o) r) t idx .hst o (r.issue idx (.mov .hst o)) = some (.ok, w) →
        ∃ u : State, exec (.hst t idx o) s = .next u
          ∧ u.herds = w.herds ∧ (∀ m, SameData (s.tile m) (u.tile m)) ∧ SameUnitsBut (tileRegs t r) { s with tiles := u.tiles, herds := u.herds } u
          ∧ (∀ h, h ≠ t / 12 → u.herd h = s.herd h) ∧ u.herd (t / 12) = { s.herd (t / 12) with mem := (u.herd (t / 12)).mem }
          ∧ InFlight u t r .store idx (fun f => f.held = none) ∧ (∀ v, v ≠ t → v ∉ r.members → u.tile v = s.tile v))
    ∧ (∀ (s : State) (h u : Nat) (v : View) (o : MovOps),
        (s.hldMember h v o u).1 = .ok ↔ packOk ((s.tile u).herdOff o.org) v o = true)

/-- MMUL (R112 to R134): a product issues on the array with a valid set where it continues one, and every member's tile is what the array
makes of it and of the operand of the lead.
Completes (exec answers a next state): MMUL.
Where the rules leave a point open or to inference, the clause is the model's choice: log entry 10. -/
def Obligations.MatrixMultiply : Prop :=
  ∀ (s : State) (t idx : Nat) (o : MmulOps) (r : Run), instrWf (.mmul t idx o) = true → Issues s t idx (.mmul o) r →
    r.members.Nodup → r.members[0]? = some t → s.mmulReady t o = true → PostFits (r.issue idx (.mmul o)) .array o.post →
    (o.init = .cont → ∀ m ∈ r.members, s.setValid m o.set = true) →
    (r.issue idx (.mmul o)).anyMember (fun m v => !mmaScaleOk ((s.issuedAt t idx (.mmul o) r).tile t)
        ((s.issuedAt t idx (.mmul o) r).tile v) (r.viewsAt idx 0) (r.viewsAt idx m) o (r.slotOf idx (.mmul o)) m) = false →
    ∃ u : State, exec (.mmul t idx o) s = .next u
      ∧ WritesTiles (s.issuedAt t idx (.mmul o) r) u r (fun k x =>
          (mmaRun ((s.issuedAt t idx (.mmul o) r).numCtx t (r.issue idx (.mmul o))) ((s.issuedAt t idx (.mmul o) r).tile t) x
            (r.viewsAt idx 0) (r.viewsAt idx k) o (r.slotOf idx (.mmul o)) k).tile)
      ∧ (∀ m ∈ r.members, u.setValid m o.set = (o.okind == .none))
      ∧ InFlight u t r .array idx (fun f => f.drain = if o.okind = .none then none else some o.set)
      ∧ (∀ v, v ∉ r.members → u.tile v = s.tile v) ∧ SameUnitsBut (tileRegs t r) { s with tiles := u.tiles, parts := u.parts } u

/-! ### Gangs, scalars and segments (R60, R129, R137, R195 to R199, R491) -/

/-- Gangs (R129, R60): a write makes a setting pending, and at a boundary at which no tile of the herd runs a segment it takes effect.
Scalars and numeric control (R137, R491): a write of TIL_SREGn takes effect at once where no segment runs and is held to the next segment
start otherwise; a write of TIL_NUMCTL reads back at once, and the running segment keeps the value of its start.
Completes (exec answers a next state): GANG_WRITE, GANG_WIDTH_WRITE, GANG_APPLY, SREG_WRITE, NUMCTL_WRITE. -/
def Obligations.GangsScalarsAndNumctl : Prop :=
  (∀ (s : State) (a : Agent) (h v : Nat), instrWf (.gangWrite a h v) = true → s.entry a .hrd h (R.HRD_GANG h) true = .reach →
      ∃ u : State, exec (.gangWrite a h v) s = .next u ∧ Served u 0
        ∧ u.fget (R.HRD_GANG h) F.HRD_GANG_JOIN = bits v 1 11 ∧ u.fget (R.HRD_GANG h) F.HRD_GANG_PENDING = 1
        ∧ u.herd h = { s.herd h with gangPend := some (bits v 1 11, (s.gangPending h).2) }
        ∧ (bit v 15 = true → u.fget (R.HRD_GANG h) F.HRD_GANG_PUSH_REFUSED = 0)
        ∧ u = { s with regs := u.regs, rsp := u.rsp, herds := u.herds } ∧ (∀ g, g ≠ h → u.herd g = s.herd g)
        ∧ SameRegs s u [regKey (R.HRD_GANG h) F.HRD_GANG_JOIN, regKey (R.HRD_GANG h) F.HRD_GANG_PENDING,
            regKey (R.HRD_GANG h) F.HRD_GANG_PUSH_REFUSED])
    ∧ (∀ (s : State) (a : Agent) (h v : Nat), instrWf (.gangWidthWrite a h v) = true →
        s.entry a .hrd h (R.HRD_GANG_WIDTH h) true = .reach → gangWidths.contains (bits v 0 4) = true →
        ∃ u : State, exec (.gangWidthWrite a h v) s = .next u ∧ Served u 0
          ∧ u.fget (R.HRD_GANG_WIDTH h) F.HRD_GANG_WIDTH_WIDTH = bits v 0 4 ∧ u.fget (R.HRD_GANG h) F.HRD_GANG_PENDING = 1
          ∧ u.herd h = { s.herd h with gangPend := some ((s.gangPending h).1, bits v 0 4) }
          ∧ u = { s with regs := u.regs, rsp := u.rsp, herds := u.herds } ∧ (∀ g, g ≠ h → u.herd g = s.herd g)
          ∧ SameRegs s u [regKey (R.HRD_GANG_WIDTH h) F.HRD_GANG_WIDTH_WIDTH, regKey (R.HRD_GANG h) F.HRD_GANG_PENDING])
    ∧ (∀ (s : State) (h join width : Nat), h < 16 → (s.herd h).gangPend = some (join, width) → s.clk.phase < 9 →
        (∀ i, i < 12 → (s.tile (12 * h + i)).run = none) →
        ∃ u : State, exec (.gangApply h) s = .next u ∧ u.herd h = { s.herd h with gangPend := none }
          ∧ u.fget (R.HRD_GANG h) F.HRD_GANG_PENDING = 0
          ∧ u.fget (R.HRD_GANG h) F.HRD_GANG_ACTIVE_WIDTH = width % 2 ^ F.HRD_GANG_ACTIVE_WIDTH.w
          ∧ u.fget (R.HRD_GANG h) F.HRD_GANG_ACTIVE_JOIN =
              (if width = 0 then join else widthJoin width) % 2 ^ F.HRD_GANG_ACTIVE_JOIN.w
          ∧ u = { s with regs := u.regs, herds := u.herds } ∧ (∀ g, g ≠ h → u.herd g = s.herd g))
    ∧ (∀ (s : State) (a : Agent) (t n v : Nat), instrWf (.sregWrite a t n v) = true →
      s.entry a .til t (R.TIL_SREG t n) true = .reach → bits v 32 2 ≠ 3 →
      ∃ u : State, exec (.sregWrite a t n v) s = .next u ∧ Served u 0
        ∧ (s.runAt t = none → Map.get 0 (u.tile t).sregs n = bits v 0 34
            ∧ (∀ m, m ≠ n → Map.get 0 (u.tile t).sregs m = Map.get 0 (s.tile t).sregs m)
            ∧ u.tile t = { s.tile t with sregs := (u.tile t).sregs, sregHeld := (s.tile t).sregHeld.erase n })
        ∧ (∀ r, s.runAt t = some r → Map.find? (u.tile t).sregHeld n = some (bits v 0 34)
            ∧ u.tile t = { s.tile t with sregHeld := (u.tile t).sregHeld })
        ∧ (∀ m, m ≠ t → u.tile m = s.tile m) ∧ u = { s with tiles := u.tiles, rsp := u.rsp })
    ∧ (∀ (s : State) (a : Agent) (t v : Nat), instrWf (.numctlWrite a t v) = true →
        s.entry a .til t (R.TIL_NUMCTL t) true = .reach →
        ∃ u : State, exec (.numctlWrite a t v) s = .next u ∧ Served u 0
          ∧ u.fget (R.TIL_NUMCTL t) F.TIL_NUMCTL_SR_EN = bits v 1 1 ∧ u.fget (R.TIL_NUMCTL t) F.TIL_NUMCTL_E4M3_INF = bits v 0 1
          ∧ (u.tile t).run = (s.tile t).run
          ∧ OnlyAnswer s u [regKey (R.TIL_NUMCTL t) F.TIL_NUMCTL_SR_EN, regKey (R.TIL_NUMCTL t) F.TIL_NUMCTL_E4M3_INF])

/-- A segment (R196 to R198): the fetch of a legal image holds it with the slots that the version table gives; while a line of it has still
to come over the fabric (R343) the fetch has no effect on the tile. The start takes the tiles
of the gang, with no credits and nothing issued, drops the head of the queue and invalidates the accumulator sets; the retirement of a
segment that is over frees the tile and is progress of the herd; a GATHER segment whose writes have yet to be answered does not retire (R230).
The release of a step that is due (R44, R101, R238): the context takes
its next step number and the task table, and counts the release.
Completes (exec answers a next state): SEGMENT_FETCH, SEGMENT_START, SEGMENT_RETIRE, STEP_RELEASE.
Where the rules leave a point open or to inference, the clause is the model's choice: log entries 23 and 111. -/
def Obligations.SegmentLifeAndStepRelease : Prop :=
  (∀ (s s0 s1 s2 s3 : State) (t p : Nat) (x : Slot) (q : SegRef) (l : List SegRef) (w ws : List Nat) (h : Header) (dws : List (List Nat))
      (e1 e2 e3 : Ld), t < 192 → (s.tile t).queue = q :: l → (s.tile t).fetched = none → s.ctxOfHerd (t / 12) = some (p, x) →
      q.ctx = x.ctx → (s.part p).sw = none → s.tileFenced t = false → q.gather = none →
      s.workGoes (fetchUnit t) (fun _ => true) (fun s => s.fetchImage t q x) = true → s.workTry (fetchUnit t) id = s0 →
      s0.fetchWords t q.herd q.addr 1 = (some w, e1, s1) →
      headerOf (w.getD 0 0) = some h → s1.fetchWords t q.herd q.addr h.words = (some ws, e2, s2) →
      State.fetchDescs t (imageOf h ws).ptrs s2 = (some dws, e3, s3) → segLegal s3.period (imageOf h ws) dws = true →
      descsStatus dws = 0 →
      ∃ u : State, exec (.segmentFetch t) s = .next u
        ∧ (u.tile t).fetched = some {
            segId := h.segId, budget := h.budget, fit := h.fit, upd := q.upd, gen := x.gen, descs := dws.filterMap descOf,
            cur := (dws.filterMap descOf).map (curSlot x), views := (imageOf h ws).views.filterMap id, code := (imageOf h ws).code }
        ∧ u.tile t = { s.tile t with fetched := (u.tile t).fetched } ∧ (∀ m, m ≠ t → u.tile m = s.tile m)
        ∧ SameUnits { s with tiles := u.tiles, came := u.came, tickets := u.tickets } u)
    ∧ (∀ (s : State) (t p : Nat) (x : Slot) (q : SegRef) (l : List SegRef), t < 192 → (s.tile t).queue = q :: l →
        (s.tile t).fetched = none → s.ctxOfHerd (t / 12) = some (p, x) → q.ctx = x.ctx → (s.part p).sw = none → s.tileFenced t = false →
        q.gather = none → s.workGoes (fetchUnit t) (fun _ => true) (fun s => s.fetchImage t q x) = false →
        ∃ u : State, exec (.segmentFetch t) s = .next u ∧ u.tiles = s.tiles ∧ u.mem = s.mem ∧ u.clk = s.clk ∧ u.jobFaults = s.jobFaults
          ∧ u.parts = s.parts)
    ∧ (∀ (s : State) (t p : Nat) (img : SegImg) (x : Slot), t < 192 → (s.tile t).fetched = some img →
        s.ctxOfHerd (t / 12) = some (p, x) → s.canStart t img p x = true →
        ∃ u : State, exec (.segmentStart t) s = .next u
          ∧ (u.tile t).run = some (startRun img (s.gangOf t) s.clk.tb (s.numctl t) x.ctx)
          ∧ (u.tile t).queue = (s.tile t).queue.drop 1 ∧ (u.tile t).fetched = none
          ∧ (∀ m ∈ s.gangOf t, (u.tile m).acc = [] ∧ (u.tile m).sregHeld = []
              ∧ u.fget (R.TIL_MMA_STATUS m) F.TIL_MMA_STATUS_SET_VALID = 0)
          ∧ (∀ m, m ≠ t → m ∉ s.gangOf t → u.tile m = s.tile m) ∧ u = { s with tiles := u.tiles, regs := u.regs })
    ∧ (∀ (s : State) (t : Nat) (r : Run) (g : Nat × Nat), t < 192 → (s.tile t).run = some r → r.over = true → r.img.gather = some g →
        r.gathered = true → s.unitAsks (gatherUnit t) = true → exec (.segmentRetire t) s = .next s)
    ∧ (∀ (s : State) (t : Nat) (r : Run), t < 192 → (s.tile t).run = some r → r.over = true →
        (r.img.gather = none ∨ (r.gathered = true ∧ s.unitAsks (gatherUnit t) = false)) →
        ∃ u : State, exec (.segmentRetire t) s = .next u ∧ (u.tile t).run = none
          ∧ (u.tile t).report = (s.tile t).report ++ (if s.clk.phase < 9 then [] else [r.img.segId]) ∧ (u.herd (t / 12)).wd = 0
          ∧ (u.tile t).queue = (s.tile t).queue ∧ (u.tile t).mem = (s.tile t).mem ∧ (u.tile t).tregs = (s.tile t).tregs
          ∧ (∀ m, m ≠ t → m ∉ r.members → u.tile m = s.tile m)
          ∧ u.clk = s.clk ∧ u.cores = s.cores ∧ u.doms = s.doms ∧ u.pending = s.pending)
    ∧ (∀ (s v : State) (p k : Nat) (x : Slot), p < 8 → k < 4 → s.slot? p k = some x → s.atBoundary 6 = true →
    x.settled s.tick = true → x.relAt ≠ some s.tick → s.fenced 5 0 = false →
    v = (s.took 6).setSlot p k { x with relAt := some s.tick } →
    v.blockCode p { x with relAt := some s.tick } = 0 → v.numctlDiff p = none →
    v.workGoes (schedUnit p k) (fun _ => true) (fun s => s.release p k { x with relAt := some s.tick }) = true →
    ∃ (u : State) (y : Slot), exec (.stepRelease p k) s = .next u ∧ u.slot? p k = some y
      ∧ y.step.live = true ∧ y.step.step = x.nextStep ∧ y.step.tasks = ((v.workTry (schedUnit p k) id).readTasks p { x with relAt := some s.tick }).1
      ∧ y.step.releasedAt = s.tick
      ∧ y.released = some x.nextStep
      ∧ y.stepsLeft = (if x.newStep = true ∧ x.stepsLeft ≠ 0xFFFFFFFF then x.stepsLeft - 1 else x.stepsLeft)
      ∧ u.clk = (s.took 6).clk ∧ u.tiles = s.tiles ∧ u.herds = s.herds ∧ u.cores = s.cores ∧ u.doms = s.doms
      ∧ ∀ q j, ¬ (q = p ∧ j = k) → u.slot? q j = s.slot? q j)

/-! ### Steps, items and tasks (R44, R228 to R246, R289, R492) -/

/-- Items and updates (R240, R246), each examined once at a boundary: a stage without an item takes what the order gives it; the update tasks
open once the next slot is free, and otherwise the wait is counted. The gather pass (R230) completes where every group finds a tile: the
GATHER segments join the queues of tiles. A task that is due (R289) stands on the herds chosen for it, in rank order, at the end of their
queues; a task whose prefetch is due has it requested, in the step in flight or ahead of the next release (R234, R44). What these read in memory has come (R343). The herd task queues (R289, R492, R262): a read of
HRD_TASK_POP takes the oldest task and shows its index, a write of HRD_TASK_DONE reports a popped task, and a report of OK from its last
herd retires the task; a write of HRD_UPD_EVT is counted.
Completes (exec answers a next state): ITEM_DISPATCH, UPD_DISPATCH, GATHER_DISPATCH, TASK_DISPATCH, PREFETCH_REQUEST, TASK_POP, TASK_DONE,
ROOT_KEPT.
Where the rules leave a point open or to inference, the clause is the model's choice: log entries 23, 24, 26 and 111. -/
def Obligations.ItemsAndTasks : Prop :=
  (∀ (s : State) (p k : Nat) (x : Slot), p < 8 → k < 4 → s.inStep p k = some x → s.atBoundary 6 = true → x.step.item = none →
      x.itemAt ≠ some s.tick → (s.took 6).workGoes (schedUnit p k) (fun _ => true) (fun s => s.takeNext p k x) = true →
      ∃ u : State, exec (.itemDispatch p k) s = .next u
        ∧ u.slot? p k = some ({ x with itemAt := some s.tick }.takeItem (((s.took 6).workTry (schedUnit p k) id).nextItem p x).1 s.tick)
        ∧ u.clk = (s.took 6).clk ∧ (∀ q j, ¬ (q = p ∧ j = k) → u.slot? q j = s.slot? q j)
        ∧ SameUnits { s with clk := u.clk, parts := u.parts, came := u.came, tickets := u.tickets } u)
    ∧ (∀ (s : State) (p k : Nat) (x : Slot), p < 8 → k < 4 → s.inStep p k = some x → s.atBoundary 6 = true →
        x.updAt ≠ some s.tick → x.backwardDone = true → x.step.gatherOver = true → x.step.updOpen = false →
        x.step.retired (fun i => tKind (x.step.tasks.getD i []) == 4) = false →
        ∃ (u : State) (y : Slot), exec (.updDispatch p k) s = .next u ∧ u.slot? p k = some y
          ∧ y.step.updOpen = decide (x.nextPins = 0)
          ∧ y.fget R.SCH_VER F.SCH_VER_UPD_HELD = (if x.nextPins = 0 then 0 else 1)
          ∧ OnlySlot { s with clk := u.clk } u p k)
    ∧ (∀ (s v : State) (p k : Nat) (x : Slot), p < 8 → k < 4 → s.stepping p k = some x → x.backwardDone = true →
        x.step.gathered = false → x.step.live8 ≠ [] →
        State.gatherPushAll p k x.ctx x.step.liveGroups
          (s.setSlot p k { x with step := { x.step with gathered := true, gathers := x.step.liveGroups } }) = some v →
        exec (.gatherDispatch p k) s = .next v
          ∧ v.slot? p k = some { x with step := { x.step with gathered := true, gathers := x.step.liveGroups } }
          ∧ (∀ t, ∃ l, v.tile t = { s.tile t with queue := (s.tile t).queue ++ l })
          ∧ v.herds = s.herds ∧ v.clk = s.clk ∧ v.mem = s.mem)
    ∧ (∀ (s s1 s2 : State) (p k i late : Nat) (x : Slot) (t : List Nat) (upd : Option (Nat × Nat)) (rs hs : List Nat),
      instrWf (.taskDispatch p k i) = true → s.stepping p k = some x → x.step.tasks[i]? = some t →
      x.step.state.find? i = none → x.depsDone i t = true → s.admits x i t = true → s.taskOk p i x.nmb t = true →
      (s.workTry (schedUnit p k) id).taskFate p x t = (.run upd late, s1) → s1.inputRanges p t = (rs, s2) →
      s2.chooseHerds (s2.chooseDie rs) (x.fget R.SCH_TASK_COUNT F.SCH_TASK_COUNT_SPILL == 1) (tHerds t) (s2.roomHerds p t) = some hs →
      s.workGoes (schedUnit p k) (fun _ => true) (fun s => s.dispatch p k i x t) = true →
      ∃ (u : State) (y : Slot), exec (.taskDispatch p k i) s = .next u ∧ u.slot? p k = some y
        ∧ Map.find? y.step.state i = some { phase := 1, herds := hs, since := s.tick }
        ∧ (∀ r, r < hs.length → (u.herd (hs.getD r 0)).tasks = (s.herd (hs.getD r 0)).tasks
            ++ [{ slot := k, index := i, rank := r, arg := tArg t, upd := upd }])
        ∧ (∀ h, h ∉ hs → u.herd h = s.herd h) ∧ u.tiles = s.tiles ∧ u.clk = s.clk ∧ u.cores = s.cores)
    ∧ (∀ (s : State) (p k i : Nat) (x : Slot), instrWf (.prefetchRequest p k i) = true → s.slot? p k = some x →
        x.step.abort = none → s.fenced 5 0 = false →
        x.prefetchDue (if x.step.live = true then x.step.tasks else ((s.workTry (schedUnit p k) id).readTasks p x).1) i s.tick = true →
        s.workGoes (schedUnit p k) (fun _ => true) (fun s => s.prefetchTask p k i x) = true →
        ∃ (u : State) (y : Slot), exec (.prefetchRequest p k i) s = .next u ∧ u.slot? p k = some y
          ∧ y = (if x.step.live = true then { x with step := { x.step with prefetched := x.step.prefetched ++ [i] } }
              else { x with pfAhead := x.pfAhead ++ [i] })
          ∧ u.tiles = s.tiles ∧ u.herds = s.herds ∧ u.clk = s.clk)
    ∧ (∀ (s : State) (a : Agent) (h : Nat) (q : HerdTask) (l : List HerdTask), instrWf (.taskPop a h) = true →
      s.entry a .hrd h (R.HRD_TASK_POP h) false = .reach → (s.herd h).tasks = q :: l →
      ∃ u : State, exec (.taskPop a h) s = .next u ∧ Served u (2 ^ 63 + q.rank % 16 * 2 ^ 59 + q.arg)
        ∧ u.herd h = { s.herd h with tasks := l, popped := (s.herd h).popped ++ [q] } ∧ (∀ g, g ≠ h → u.herd g = s.herd g)
        ∧ (q.upd = none → u.tiles = s.tiles)
        ∧ (∀ i v w, i < 12 → q.upd = some (v, w) → s.runAt (12 * h + i) = none →
            Map.get 0 (u.tile (12 * h + i)).sregs 15 = v ∧ Map.get 0 (u.tile (12 * h + i)).sregs 14 = w)
        ∧ SameUnitsBut (fun o => o = R.HRD_TASK_IDX h) { s with herds := u.herds, tiles := u.tiles, rsp := u.rsp } u)
    ∧ (∀ (s : State) (a : Agent) (h v p : Nat) (q : HerdTask), instrWf (.taskDone a h v) = true →
        s.entry a .hrd h (R.HRD_TASK_DONE h) true = .reach → s.partOfHerd h = some p →
        (s.herd h).popped.find? (fun e => e.index == bits v 0 16) = some q → bits v 16 8 ≤ 7 →
        ∃ u : State, exec (.taskDone a h v) s = .next (u.herdReports p q.slot (bits v 0 16) h (bits v 16 8)) ∧ Served u 0
          ∧ u.herd h = { s.herd h with popped := (s.herd h).popped.erase q }
          ∧ SameUnits { s with herds := u.herds, rsp := u.rsp } u)
    ∧ (∀ (s : State) (p k i h : Nat) (x : Slot) (ts : TaskSt), s.slot? p k = some x → x.step.live = true →
        Map.find? x.step.state i = some ts → ts.phase = 1 → h ∈ ts.herds → (∀ g ∈ ts.herds, g = h ∨ g ∈ ts.done) →
        ∃ y, (s.herdReports p k i h 0).slot? p k = some y ∧ (Map.get {} y.step.state i).phase = 2)
    ∧ (∀ (s : State) (a : Agent) (h : Nat), instrWf (.rootKept a h) = true → s.entry a .hrd h (R.HRD_UPD_EVT h) true = .reach →
        ∃ u : State, exec (.rootKept a h) s = .next u ∧ Served u 0
          ∧ u.fget (R.HRD_UPD_STAT h) F.HRD_UPD_STAT_ROOT_KEPT =
              min (s.fget (R.HRD_UPD_STAT h) F.HRD_UPD_STAT_ROOT_KEPT + 1) (2 ^ F.HRD_UPD_STAT_ROOT_KEPT.w - 1)
          ∧ OnlyAnswer s u [regKey (R.HRD_UPD_STAT h) F.HRD_UPD_STAT_ROOT_KEPT])

/-! ### The end of a step (R213 to R222, R245 to R251, R356, R421, R422) -/

/-- The commit exchange (R218, R247, R248, R250, R356): a step that is over issues its exchange once, to the collective engine, or takes its
local values where no exchange runs; the exchange carries the counts and a row of 33 words for each enabled gradient-format slot, summed or,
for I and MAXEXP, the largest taken; a result is taken, and an exchange that fails or times out sets OUTCOME 4 and asks for an abort, with an
event. The decision (R219, R248, R249): a flip that is due commits the step, which turns G, clears SKIP_RUN and advances the step number, or
the vote skips it, which leaves G and counts; either way the rescale pass becomes due. The rescale pass and aborts (R213, R214, R251, R421):
the pass runs once, or waits for a line or for tokens and has then changed nothing, and ends once its writes have been answered; an abort that
is due ends the step with G and the step number as they were. A fence of the step scheduler holds the exchange and the pass (R47).
Completes (exec answers a next state): STEP_COMPLETE, COLLECTIVE_END, EXCHANGE_RESULT, EXCHANGE_TIMEOUT, COMMIT_FLIP, RESCALE_PASS,
RESCALE_PASS_DONE, STEP_ABORT.
Where the rules leave a point open or to inference, the clause is the model's choice: log entries 25, 41, 107 and 111. -/
def Obligations.CommitAndPass : Prop :=
  (∀ (s : State) (p k : Nat) (x : Slot), p < 8 → k < 4 → s.slot? p k = some x → x.step.live = true → x.step.abort = none →
      x.step.issued = none → x.stepOver = true → s.statsIn p x = true → s.fenced 5 0 = false →
      (x.exchanges = false →
        ∃ u : State, exec (.stepComplete p k) s = .next u ∧ OnlySlot s u p k
          ∧ u.slot? p k = some { x with step := { x.step with issued := some s.tick, result := some (x.localRes s.tick) } })
      ∧ (x.exchanges = true → s.collRoom (s.xchgDie p) p = true →
          exec (.stepComplete p k) s =
            .next ((s.setSlot p k { x with step := { x.step with issued := some s.tick } }).xchgIssue p x)
          ∧ (x.xchgWords s.tick).length = 3 + 33 * x.pgSlots.length)
      ∧ (x.exchanges = true → s.collRoom (s.xchgDie p) p = false → exec (.stepComplete p k) s = .next s))
    ∧ (∀ (s : State) (p k : Nat), p < 8 → k < 4 → s.fenced 5 0 = true → exec (.stepComplete p k) s = .next s)
    ∧ (∀ i a b : Nat, xchgMax i = false → xchgFold i a b = (a + b) % 2 ^ 64)
    ∧ (∀ i a b : Nat, xchgMax i = true → a < 2 ^ 64 → b < 2 ^ 64 → toInt 64 (xchgFold i a b) = max (toInt 64 a) (toInt 64 b))
    ∧ (∀ (s v : State) (d g : Nat) (c : Coll) (e : Ctx) (p k : Nat) (y : Slot), instrWf (.collectiveEnd d g) = true →
        s.collHead d g = some c → c.op = 3 → c.done = true → c.status = 0 → s.regPast c.marks = true →
        s.unitAsks (collUnit d g) = false → s.workGoes (collUnit d g) (fun _ => true) (fun s => s.collLeaves d c) = true →
        v = s.workDone (collUnit d g) (fun _ => true) (fun s => s.collLeaves d c) → v.ctxs.find? c.ctx = some e → e.part = p →
        e.slot = some k → v.slot? p k = some y → y.step.issued ≠ none →
        exec (.collectiveEnd d g) s = .next (v.collOutcome c).collGo
          ∧ (v.collOutcome c).slot? p k = some { y with step := { y.step with xres := some (xchgRes 0 c.pg c.words) } })
    ∧ (∀ (s : State) (p k i : Nat) (res : XchgRes) (x : Slot), instrWf (.exchangeResult p k res) = true → s.slot? p k = some x →
        x.step.live = true → x.step.abort = none → x.step.result = none → x.step.xres = some res → x.step.issued = some i →
        res.status = 0 →
        ∃ (u : State) (y : Slot), exec (.exchangeResult p k res) s = .next u ∧ OnlySlot s u p k ∧ u.slot? p k = some y
          ∧ y.step = { x.step with result := some res }
          ∧ y.fget R.SCH_COMMIT F.SCH_COMMIT_LATE_RESULTS =
              (if x.commitPoint res ≤ s.tick then
                min (x.fget R.SCH_COMMIT F.SCH_COMMIT_LATE_RESULTS + 1) (2 ^ F.SCH_COMMIT_LATE_RESULTS.w - 1)
               else x.fget R.SCH_COMMIT F.SCH_COMMIT_LATE_RESULTS))
    ∧ (∀ (s : State) (p k i : Nat) (x : Slot), p < 8 → k < 4 → s.slot? p k = some x → x.step.live = true →
        x.step.abort = none → x.step.result = none → x.step.issued = some i →
        i + x.pget F.SCH_PIPE_CTL_XCH_TICKS ≤ s.tick →
        ∃ (u : State) (y : Slot), exec (.exchangeTimeout p k) s = .next (u.event (B.sch p + R.SCH_COMMIT)
            (some F.SCH_COMMIT_OUTCOME) [i])
          ∧ u.slot? p k = some y ∧ y.fget R.SCH_COMMIT F.SCH_COMMIT_OUTCOME = 4
          ∧ y.step.abort = some { outcome := 4, origin := s.tick, regroup := 3 } ∧ u.mem = s.mem ∧ u.regs = s.regs
          ∧ u.tiles = s.tiles ∧ u.clk = s.clk)
    ∧ (∀ (s : State) (p k b : Nat) (x : Slot) (r : XchgRes), p < 8 → k < 4 → s.slot? p k = some x → s.atBoundary 4 = true →
    s.fenced 5 0 = false → s.flipDue x = some (r, b) → (∀ e ∈ r.slots, e.1 < 64) →
    ∃ (u : State) (y : Slot), exec (.commitFlip p k) s = .next u ∧ u.slot? p k = some y
      ∧ y.step = {} ∧ y.pass = 1 ∧ y.nextStep = x.nextStep + 1 ∧ y.decidedAt = some s.tick
      ∧ y.window = (r.slots.map xchgRow :: x.window).take 8
      ∧ (x.skipVote r = false → y.gen = (1 - x.gen) % 2 ^ F.SCH_VER_GEN.w ∧ y.fget R.SCH_NUM_STAT F.SCH_NUM_STAT_SKIP_RUN = 0
          ∧ y.fget R.SCH_COMMIT F.SCH_COMMIT_OUTCOME = 1 ∧ y.lastFlip = some b)
      ∧ (x.skipVote r = true → y.gen = x.gen ∧ y.fget R.SCH_COMMIT F.SCH_COMMIT_OUTCOME = 2 ∧ y.lastFlip = x.lastFlip)
      ∧ u.clk = (s.took 4).clk ∧ u.tiles = s.tiles ∧ u.herds = s.herds)
    ∧ (∀ (s w : State) (p k : Nat) (x : Slot), p < 8 → k < 4 → s.slot? p k = some x → x.pass = 1 → s.passAsks p k = false →
        s.regPast x.passMarks = true → s.fenced 5 0 = false →
        s.workNow (schedUnit p k) (x.passMarks != []) (fun s => ((), s.rescaleWork p k x)) = .done () w →
        ∃ (u : State) (y : Slot), exec (.rescalePass p k) s = .next u ∧ u.slot? p k = some y ∧ y.pass = 2 ∧ y.got = []
          ∧ y.passMarks = [] ∧ y.step = x.step ∧ y.nextStep = x.nextStep ∧ u.mem = w.mem ∧ u.tiles = s.tiles ∧ u.herds = s.herds
          ∧ u.clk = s.clk)
    ∧ (∀ (s : State) (p k : Nat) (x : Slot) (h : Halt), p < 8 → k < 4 → s.slot? p k = some x → x.pass = 1 → s.passAsks p k = false →
        s.regPast x.passMarks = true → s.fenced 5 0 = false →
        s.workNow (schedUnit p k) (x.passMarks != []) (fun s => ((), s.rescaleWork p k x)) = .halts h →
        ∃ u : State, exec (.rescalePass p k) s = .next u ∧ u.slot? p k = some x ∧ u.mem = s.mem ∧ u.tiles = s.tiles ∧ u.regs = s.regs)
    ∧ (∀ (s w : State) (p k : Nat) (x : Slot) (m : List (Nat × Nat)), p < 8 → k < 4 → s.slot? p k = some x → x.pass = 1 →
        s.passAsks p k = false → s.regPast x.passMarks = true → s.fenced 5 0 = false →
        s.workNow (schedUnit p k) (x.passMarks != []) (fun s => ((), s.rescaleWork p k x)) = .waits w m →
        ∃ u : State, exec (.rescalePass p k) s = .next u ∧ u.slot? p k = some { x with passMarks := m } ∧ u.mem = s.mem
          ∧ u.tiles = s.tiles)
    ∧ (∀ (s : State) (p k : Nat) (x : Slot), p < 8 → k < 4 → s.slot? p k = some x →
        (s.passAsks p k = true ∨ s.regPast x.passMarks = false ∨ s.fenced 5 0 = true) → exec (.rescalePass p k) s = .next s)
    ∧ (∀ (s : State) (p k : Nat) (x : Slot), p < 8 → k < 4 → s.slot? p k = some x → x.pass = 2 → s.passAsks p k = false →
        ∃ u : State, exec (.rescalePassDone p k) s = .next u ∧ OnlySlot s u p k
          ∧ u.slot? p k = some { x with pass := 0, passAt := some s.tick })
    ∧ (∀ (s : State) (p k : Nat), p < 8 → k < 4 → s.passAsks p k = true → exec (.rescalePassDone p k) s = .next s)
    ∧ (∀ (s : State) (p k : Nat) (x : Slot), p < 8 → k < 4 → s.slot? p k = some x → s.atBoundary 5 = true →
        x.step.live = true → s.abortDue x = true →
        ∃ (u : State) (y : Slot), exec (.stepAbort p k) s = .next u ∧ u.slot? p k = some y ∧ y.step = {}
          ∧ y.nextStep = x.nextStep ∧ y.decidedAt = some s.tick ∧ y.stots = x.stots.filter (fun e => decide (s.tick ≤ e.came))
          ∧ y.gen = x.gen ∧ u.clk = (s.took 5).clk)
    ∧ (∀ (s : State) (p k : Nat) (x : Slot), p < 8 → k < 4 → s.slot? p k = some x → s.atBoundary 5 = true →
        x.step.live = false → (∃ e ∈ x.stots, e.came < s.tick) →
        ∃ (u : State) (y : Slot), exec (.stepAbort p k) s = .next u ∧ u.slot? p k = some y ∧ y.step = x.step
          ∧ y.stots = x.stots.filter (fun e => decide (s.tick ≤ e.came)) ∧ y.gen = x.gen ∧ u.clk = (s.took 5).clk)

/-- The registers of a context (R220, R245, R258, R422): RESUME clears SKIP_RUN and HELD, a pin is taken of the current generation only
and released only where one is held, a step size is stored with WRITTEN, and a rejoin waits for the boundary while regroup is active;
REGROUP_EXPIRY sets EXPIRED, with an event.
Completes (exec answers a next state): RESUME, VER_PIN, VER_UNPIN, LR_WRITE, REJOIN, REGROUP_EXPIRY. -/
def Obligations.ContextRegisters : Prop :=
  (∀ (s : State) (a : Agent) (p k : Nat) (x : Slot), instrWf (.resume a p) = true → s.entry a .sch p (B.sch p + R.SCH_NUM_CTL) true = .reach →
      s.selSlot a p = some k → s.slot? p k = some x →
      ∃ (u : State) (y : Slot), exec (.resume a p) s = .next u ∧ Served u 0 ∧ u.slot? p k = some y
        ∧ y.fget R.SCH_NUM_STAT F.SCH_NUM_STAT_SKIP_RUN = 0 ∧ y.fget R.SCH_PIPE_STAT F.SCH_PIPE_STAT_HELD = 0
        ∧ OnlySlot { s with rsp := u.rsp } u p k ∧ y = { x with regs := y.regs, skipHeld := false })
    ∧ (∀ (s : State) (a : Agent) (p k : Nat) (x : Slot) (g : Nat), instrWf (.verPin a p g) = true → s.entry a .sch p (B.sch p + R.SCH_VER_PIN) true = .reach →
        s.selSlot a p = some k → s.slot? p k = some x →
        ∃ (u : State) (y : Slot), exec (.verPin a p g) s = .next u ∧ Served u 0 ∧ u.slot? p k = some y
          ∧ (g = x.gen ∧ x.fget R.SCH_VER (pinFld g) < 255 → y.fget R.SCH_VER (pinFld g) = x.fget R.SCH_VER (pinFld g) + 1)
          ∧ (g ≠ x.gen ∨ 255 ≤ x.fget R.SCH_VER (pinFld g) → y.fget R.SCH_VER F.SCH_VER_PIN_REFUSED = 1)
          ∧ OnlySlot { s with rsp := u.rsp } u p k ∧ y = { x with regs := y.regs })
    ∧ (∀ (s : State) (a : Agent) (p k : Nat) (x : Slot) (g : Nat), instrWf (.verUnpin a p g) = true → s.entry a .sch p (B.sch p + R.SCH_VER_PIN) true = .reach →
        s.selSlot a p = some k → s.slot? p k = some x → x.fget R.SCH_VER (pinFld g) < 256 →
        ∃ (u : State) (y : Slot), exec (.verUnpin a p g) s = .next u ∧ Served u 0 ∧ u.slot? p k = some y
          ∧ (x.fget R.SCH_VER (pinFld g) ≠ 0 → y.fget R.SCH_VER (pinFld g) = x.fget R.SCH_VER (pinFld g) - 1)
          ∧ (x.fget R.SCH_VER (pinFld g) = 0 → y.fget R.SCH_VER F.SCH_VER_PIN_REFUSED = 1)
          ∧ OnlySlot { s with rsp := u.rsp } u p k ∧ y = { x with regs := y.regs })
    ∧ (∀ (s : State) (a : Agent) (p k : Nat) (x : Slot) (n v : Nat), instrWf (.lrWrite a p n v) = true → s.entry a .sch p (B.sch p + R.SCH_LR n) true = .reach →
        s.selSlot a p = some k → s.slot? p k = some x → bits v 0 32 < 0x7F800000 →
        ∃ (u : State) (y : Slot), exec (.lrWrite a p n v) s = .next u ∧ Served u 0 ∧ u.slot? p k = some y
          ∧ y.fget (R.SCH_LR n) F.SCH_LR_VALUE = bits v 0 32 ∧ y.fget (R.SCH_LR n) F.SCH_LR_WRITTEN = 1
          ∧ y.fget (R.SCH_LR n) F.SCH_LR_EN = bits v 63 1 ∧ y.fget (R.SCH_LR n) F.SCH_LR_HOLD = bits v 62 1
          ∧ OnlySlot { s with rsp := u.rsp } u p k ∧ y = { x with regs := y.regs, lrCycle := y.lrCycle, lrAt := y.lrAt })
    ∧ (∀ (s : State) (a : Agent) (p k : Nat) (x : Slot), instrWf (.rejoin a p) = true → s.entry a .sch p (B.sch p + R.SCH_REGROUP) true = .reach →
        s.selSlot a p = some k → s.slot? p k = some x → x.fget R.SCH_REGROUP F.SCH_REGROUP_ACTIVE = 1 →
        ∃ u : State, exec (.rejoin a p) s = .next u ∧ Served u 0 ∧ u.slot? p k = some { x with rejoin := true }
          ∧ OnlySlot { s with rsp := u.rsp } u p k)
    ∧ (∀ (s : State) (p k : Nat) (x : Slot), p < 8 → k < 4 → s.slot? p k = some x → x.regroupOut s.clk.tb = true →
        ∃ u : State, exec (.regroupExpiry p k) s = .next (u.event (B.sch p + R.SCH_REGROUP) (some F.SCH_REGROUP_EXPIRED) [])
          ∧ u.slot? p k = some (x.fset R.SCH_REGROUP F.SCH_REGROUP_EXPIRED 1) ∧ OnlySlot s u p k)

/-! ### The command ring and contexts (R387 to R405) -/

/-- CMD_TAIL_WRITE and NOP (R394, R396): the tail moves unless a command executes or it lies beyond the ring, and then the write is
reported; NOP completes with OK, also out of service. The command at the head of a ring (R20, R394, R396, R398): one that fails its checks
is counted and completed with the status of the first that it fails; the completion writes the tail of the completion ring and takes the
command from its ring.
Completes (exec answers a next state): CMD_TAIL_WRITE, CMD_NOP. -/
def Obligations.RingCommands : Prop :=
  (∀ (s : State) (a : Agent) (p v : Nat), instrWf (.cmdTailWrite a p v) = true →
      s.entry a .sch p (R.SCH_CMD_PTR p) true = .reach →
      ((s.part p).exec = none → v / 2 ^ 32 % 65536 < s.ringSize p →
        ∃ u : State, exec (.cmdTailWrite a p v) s = .next (State.refuseUnknown p (u.ringLoad p) u) ∧ Served u 0
          ∧ u.fget (R.SCH_CMD_PTR p) F.SCH_CMD_PTR_TAIL = v / 2 ^ 32 % 65536
          ∧ OnlyAnswer s u [regKey (R.SCH_CMD_PTR p) F.SCH_CMD_PTR_TAIL])
      ∧ (((s.part p).exec ≠ none ∨ s.ringSize p ≤ v / 2 ^ 32 % 65536) →
          ∃ u : State, exec (.cmdTailWrite a p v) s = .next u ∧ u.rsp.kind = .regError
            ∧ u.fget (R.SCH_CMD_PTR p) F.SCH_CMD_PTR_TAIL = s.fget (R.SCH_CMD_PTR p) F.SCH_CMD_PTR_TAIL))
    ∧ (∀ (s : State) (p : Nat) (r : CmdRec), instrWf (.cmdNop p r) = true → s.ringReady p = true → wordsOk r [] = true →
        exec (.cmdNop p r) s = .next (s.complete p 0x00 r 0 0))
    ∧ (∀ (s : State) (p op : Nat) (rec : CmdRec) (c : Chk) (f : State → State), s.ringReady p = true → s.oos = false → c.status ≠ 0 →
      s.command p op rec c f = (s.countRefusal p op c.status).complete p op rec c.status 0)
    ∧ (∀ (s : State) (p op : Nat) (rec : CmdRec) (c : Chk) (f : State → State), s.ringReady p = true → s.oos = true →
        c.fmt = true → c.range = true → s.command p op rec c f = (s.countRefusal p op 1).complete p op rec 1 0)
    ∧ (∀ (s : State) (p op status result : Nat) (rec : CmdRec), p < 8 →
        ((s.completeHeadCmd p op rec status result).part p).exec = none
          ∧ (s.completeHeadCmd p op rec status result).fget (R.SCH_CMD_PTR p) F.SCH_CMD_PTR_HEAD =
              (s.fget (R.SCH_CMD_PTR p) F.SCH_CMD_PTR_HEAD + 1) % s.ringSize p % 2 ^ F.SCH_CMD_PTR_HEAD.w
          ∧ (s.completeHeadCmd p op rec status result).fget (R.SCH_CPL_PTR p) F.SCH_CPL_PTR_TAIL =
              (s.fget (R.SCH_CPL_PTR p) F.SCH_CPL_PTR_TAIL + 1) % s.ringSize p % 2 ^ F.SCH_CPL_PTR_TAIL.w
          ∧ (s.completeHeadCmd p op rec status result).tiles = s.tiles)

/-! ### Commands of a ring and placement (R263 to R292, R394 to R398) -/

/-- MAP, UNMAP, SETATTR and PEER (R266, R268 to R270, R285) where they pass their checks complete, that is exec answers a next state: a
mapped range has a frame and the attributes named, an unmapped one an empty entry, and no range outside the span changes. UNMAP and SETATTR
end at once where no cache has to acknowledge the update, and run on otherwise; until then accesses go by the entry before it.
Completes (exec answers a next state): MAP, UNMAP, SETATTR, PEER.
Where the rules leave a point open or to inference, the clause is the model's choice: log entry 105. -/
def Obligations.PlacementMaps : Prop :=
  (∀ (s : State) (p : Nat) (rec : CmdRec), instrWf (.map p rec) = true → s.ringReady p = true → s.oos = false →
      (s.mapChk rec).status = 0 →
      ∃ u : State, exec (.map p rec) s = .next u ∧ (u.part p).exec = some { op := 0x20, cmd := rec, result := 0 }
        ∧ (∀ n ∈ recSpan rec, ∃ f, s.freeKey f = true
            ∧ u.rm n = newEntry (tierOfKey f) (frameOfKey f) (recPart rec) (recPin rec) (recAff rec) (recHint rec)
            ∧ ∀ a, f * 2 ^ 20 ≤ a → a < (f + 1) * 2 ^ 20 → u.mem.rd a = 0)
        ∧ (∀ n, n ∉ recSpan rec → u.rm n = s.rm n) ∧ u.regs = s.regs ∧ u.tiles = s.tiles ∧ u.clk = s.clk ∧ u.migs = s.migs)
    ∧ (∀ (s v : State) (p : Nat) (rec : CmdRec), instrWf (.unmap p rec) = true → s.ringReady p = true → s.oos = false →
        wordsOk rec [spanMask] = true → rec.ctx = 0 → recSpanOk rec = true → s.spanOwned p rec = true → s.spanValid rec = true →
        s.retiring = [] → v = (recSpan rec).foldl State.unmapOne s →
        exec (.unmap p rec) s =
            .next (if v.spanAcked rec = true then v.complete p 0x21 rec 0 0 else v.startExec p 0x21 rec 0)
          ∧ (∀ n ∈ recSpan rec, v.rm n = 0 ∧ v.migrating n = false
              ∧ (s.rmUpd.find? n = none → s.rmcHolders n ≠ 0 → v.rmSeen n = s.rm n))
          ∧ (∀ n, n ∉ recSpan rec → v.rm n = s.rm n)
          ∧ v = { s with rangeMap := v.rangeMap, migQ := v.migQ, migs := v.migs, quiet := v.quiet, rmUpd := v.rmUpd,
                         rreqs := v.rreqs, rwait := v.rwait, ports := v.ports, trunkRr := v.trunkRr, bw := v.bw,
                         holds := v.holds, hltEv := v.hltEv })
    ∧ (∀ (s v : State) (p : Nat) (rec : CmdRec), instrWf (.setattr p rec) = true → s.ringReady p = true → s.oos = false →
        wordsOk rec [spanMask, mask 3 9 ||| mask 16 16] = true → rec.ctx = 0 → recAff rec ≠ 3 →
        (recSetpin rec = true → recPin rec = true → recTier rec < 2) → recSpanOk rec = true → s.spanOwned p rec = true →
        s.spanValid rec = true → s.spanLive rec = true → v = (recSpan rec).foldl (State.setattrOne rec) s →
        exec (.setattr p rec) s =
            .next (if v.spanAcked rec = true then v.complete p 0x22 rec 0 0 else v.startExec p 0x22 rec 0)
          ∧ (∀ n ∈ recSpan rec, bits (v.rm n) 51 2 = recHint rec ∧ bits (v.rm n) 53 2 = recAff rec
              ∧ (recSetpin rec = true → bit (v.rm n) 55 = recPin rec))
          ∧ (∀ n, n ∉ recSpan rec → v.rm n = s.rm n) ∧ v = { s with rangeMap := v.rangeMap, migQ := v.migQ, rmUpd := v.rmUpd })
    ∧ (∀ (s : State) (p : Nat) (rec : CmdRec), instrWf (.peer p rec) = true → s.ringReady p = true → s.oos = false →
        wordsOk rec [spanMask, mask 0 2, mask 0 11, mask 0 21] = true → rec.ctx = 0 → recSpanOk rec = true →
        recRemoteOk rec = true → s.spanFree rec = true → s.quotaOk (recPart rec) (recCount rec) = true →
        ∃ u : State, exec (.peer p rec) s = .next u ∧ (u.part p).exec = some { op := 0x26, cmd := rec, result := 0 }
          ∧ u = { s with parts := u.parts } ∧ (∀ q, q ≠ p → u.part q = s.part q))

/-- MOVE, RESERVE, RELEASE and FRAME_RETIRE (R268, R282, R284). The automatic policy and the regulators (R271 to R273, R290 to R292): an
epoch, once at its boundary, halves the HEAT of every range and moves LEAN toward 0, a rested SAVED_ACT range is queued for demotion, and a
request takes its tokens from its bucket, from the common pool, or waits.
Completes (exec answers a next state): MOVE, RESERVE, RELEASE, FRAME_RETIRE, PLACEMENT_EPOCH, SAVED_ACT_DEMOTE, REGULATOR_ISSUE.
Where the rules leave a point open or to inference, the clause is the model's choice: log entries 2, 6 and 105. -/
def Obligations.PlacementFramesAndPolicy : Prop :=
  (∀ (s : State) (p : Nat) (rec : CmdRec), instrWf (.move p rec) = true → s.ringReady p = true → s.oos = false →
      wordsOk rec (moveMasks (recTier rec)) = true → rec.ctx = 0 → recTier rec ≠ 3 → recSpanOk rec = true →
      s.spanOwned p rec = true → (recTier rec = 2 → recRemoteOk rec = true) → s.spanValid rec = true → s.spanLive rec = true →
      ∃ u : State, exec (.move p rec) s = .next u ∧ (u.part p).exec = some { op := 0x23, cmd := rec, result := 0 }
        ∧ (recTier rec = 2 → u.migQ = s.migQ)
        ∧ (recTier rec ≠ 2 → ∀ i, i < recCount rec →
            s.migDead { cls := 3, range := recFirst rec + i, dest := moveDest rec i } = true
              ∨ ∃ e ∈ u.migQ, ∃ q ∈ e.2, q.range = recFirst rec + i ∧ q.cls ≤ 3)
        ∧ u = { s with parts := u.parts, migQ := u.migQ })
    ∧ (∀ (s : State) (p : Nat) (rec : CmdRec), instrWf (.reserve p rec) = true → s.ringReady p = true → s.oos = false →
        wordsOk rec [0, mask 0 2 ||| mask 8 9, mask 0 20 ||| mask 32 52] = true → rec.ctx = 0 → recTier rec < 2 →
        recFramesOk rec = true → (∀ f ∈ recFrames rec, s.reserved.find? f = none ∧ Map.get false s.bad f = false ∧ f ∉ s.retiring) →
        s.reserveRoom (recFrames rec) = true →
        ∃ u : State, exec (.reserve p rec) s = .next u ∧ (u.part p).exec = some { op := 0x24, cmd := rec, result := 0 }
          ∧ (∀ f ∈ recFrames rec, u.reserved.find? f = some (8 + recPart rec))
          ∧ (∀ f, f ∉ recFrames rec → u.reserved.find? f = s.reserved.find? f)
          ∧ u = { s with parts := u.parts, reserved := u.reserved, migQ := u.migQ })
    ∧ (∀ (s : State) (p : Nat) (rec : CmdRec), instrWf (.release p rec) = true → s.ringReady p = true → s.oos = false →
        wordsOk rec [0, mask 8 9, mask 0 20 ||| mask 32 52] = true → rec.ctx = 0 → recTier rec < 2 → recFramesOk rec = true →
        (∀ f ∈ recFrames rec, (∃ o, s.reserved.find? f = some o ∧ o < 8) ∧ s.windowBusy f = false) →
        ∃ u : State, exec (.release p rec) s = .next (u.complete p 0x25 rec 0 0)
          ∧ (∀ f ∈ recFrames rec, u.reserved.find? f = none)
          ∧ (∀ f, f ∉ recFrames rec → u.reserved.find? f = s.reserved.find? f) ∧ u = { s with reserved := u.reserved })
    ∧ (∀ (s : State) (tier frame : Nat), instrWf (.frameRetire tier frame) = true →
        Map.get false s.bad (frameKey tier frame) = false → s.rangeAt (frameKey tier frame) = none →
        frameKey tier frame ∉ s.retiring →
        (∀ e ∈ s.migs, e.2.key ≠ some (frameKey tier frame) ∧ s.migSrc e.2 ≠ some (frameKey tier frame)) →
        (∀ e ∈ s.rmUpd, frameKey tier frame ∉ e.2.frames) →
        ∃ u : State, exec (.frameRetire tier frame) s = .next u ∧ Map.get false u.bad (frameKey tier frame) = true
          ∧ u.reserved.find? (frameKey tier frame) = none
          ∧ u = { s with bad := u.bad, reserved := u.reserved, regs := u.regs, lifeDue := u.lifeDue })
    ∧ (∀ (s : State) (tier frame r : Nat), instrWf (.frameRetire tier frame) = true →
        Map.get false s.bad (frameKey tier frame) = false → s.rangeAt (frameKey tier frame) = some r →
        keyOf (s.rm r) = some (frameKey tier frame) → frameKey tier frame ∉ s.retiring →
        (∀ e ∈ s.migs, e.2.key ≠ some (frameKey tier frame) ∧ s.migSrc e.2 ≠ some (frameKey tier frame)) →
        (∀ e ∈ s.rmUpd, frameKey tier frame ∉ e.2.frames) →
        ∃ u : State, exec (.frameRetire tier frame) s = .next u ∧ frameKey tier frame ∈ u.retiring
          ∧ u.reserved.find? (frameKey tier frame) = none
          ∧ (∃ e ∈ u.migQ, ∃ q ∈ e.2, q.range = r ∧ q.cls ≤ 1)
          ∧ u = { s with retiring := u.retiring, reserved := u.reserved, migQ := u.migQ })
    ∧ (∀ s : State, s.clk.phase < 9 → s.tick % s.fget R.PLC_POLICY F.PLC_POLICY_EPOCH_TICKS = 0 → s.epochTick ≠ some s.tick →
      s.fbit R.PLC_CTRL F.PLC_CTRL_AUTO_EN = true →
      ∃ u : State, exec .placementEpoch s = .next u ∧ (∀ n, u.rm n = epochEntry (s.rm n)) ∧ exec .placementEpoch u = .next u
        ∧ (∀ d, d < 2 → (Map.get [] u.promo d).length ≤ 256)
        ∧ u = { s with rangeMap := u.rangeMap, migQ := u.migQ, promo := u.promo, demo := u.demo, epochTick := u.epochTick })
    ∧ (∀ (s : State) (n : Nat), instrWf (.savedActDemote n) = true → s.fbit R.PLC_CTRL F.PLC_CTRL_AUTO_EN = true →
        rmFreeToMove (s.rm n) = true → rmTier (s.rm n) = 0 → rmHint (s.rm n) = 3 →
        (∀ q, s.quiet.find? n = some q → s.fget R.PLC_POLICY F.PLC_POLICY_DEMOTE_TICKS ≤ q) →
        ∃ u : State, exec (.savedActDemote n) s = .next u ∧ u = { s with migQ := u.migQ }
          ∧ ∃ e ∈ u.migQ, ∃ q ∈ e.2, q.range = n ∧ q.cls ≤ 4)
    ∧ (∀ (s : State) (p tier n f : Nat), instrWf (.regulatorIssue p tier n f) = true → n ≠ 0 →
        ∃ u : State, exec (.regulatorIssue p tier n f) s = .next u
          ∧ (f = 1 → u = s.setBucket p tier (max (s.bucket p tier - n) (-(4 * s.burst p tier))))
          ∧ (f ≠ 1 → (n : Int) ≤ s.bucket p tier → u = s.setBucket p tier (s.bucket p tier - n))
          ∧ (f ≠ 1 → s.bucket p tier < n → n ≤ s.pools.getD tier 0 →
              u = { s with pools := setAt s.pools tier (s.pools.getD tier 0 - n) })
          ∧ (f ≠ 1 → s.bucket p tier < n → s.pools.getD tier 0 < n →
              u.regQ p tier = { s.regQ p tier with wait := (s.regQ p tier).wait ++ [(n, 1)], seq := (s.regQ p tier).seq + 1 }
                ∧ u.fget (R.PLC_REG_LVL p tier) F.PLC_REG_LVL_WAITS =
                    min (s.fget (R.PLC_REG_LVL p tier) F.PLC_REG_LVL_WAITS + 1) (2 ^ F.PLC_REG_LVL_WAITS.w - 1)
                ∧ u = { s with regs := u.regs, regQs := u.regQs }
                ∧ SameRegs s u [regKey (R.PLC_REG_LVL p tier) F.PLC_REG_LVL_WAITS]))

/-- Migrations from start to judgement (R274, R277, R278): the first request that can start takes an engine and makes its range migrate;
acknowledgements of the caches move it on; and its delta decides between the final phase, a further round and abandonment. The switch of a
migration (R266, R277, R279): the lines written since are copied, the entry names the destination and is stable again, and the engine is
freed once the requests that waited have been answered; a Range Map cache takes an entry that it misses, and acknowledges an update. Each of
these commands completes: exec answers a next state. The clauses that copy are about frames within the package; copies over the fabric
(R285) and reads of lines with errors have further effects.
Completes (exec answers a next state): MIGRATION_START, RMC_UPDATE_ACK, MIGRATION_PRECOPY_END, MIGRATION_ROUND_END, MIGRATION_FINAL_END,
MIGRATION_UNBLOCK, RMC_MISS_FILL.
Where the rules leave a point open or to inference, the clause is the model's choice: log entries 78 and 105. -/
def Obligations.Migrations : Prop :=
  (∀ (s v : State) (d e : Nat) (q : MigReq), instrWf (.migrationStart d e) = true → s.migs.find? (migKey d e) = none →
      s.fenced 4 d = false → v = (s.replenish d).prune → v.migPick (Map.get [] v.migQ d) = some q →
      (q.dest.tier = 2 ∨ (v.migFrame q).1.isSome = true) →
      (s.rmcHolders q.range = 0 → q.dest.tier ≠ 2 ∧ (keyOf (s.rm q.range)).isSome = true) →
      ∃ (u : State) (m : Mig), exec (.migrationStart d e) s = .next u ∧ u.migs.find? (migKey d e) = some m ∧ m.req = q
        ∧ m.phase = (if s.rmcHolders q.range = 0 then 2 else 1) ∧ rmState (u.rm q.range) = 1
        ∧ (s.rmcHolders q.range ≠ 0 → m.acks = s.rmcHolders q.range ∧ (∀ n, n ≠ q.range → u.rm n = s.rm n) ∧ u.mem = s.mem)
        ∧ u.tiles = s.tiles ∧ u.clk = s.clk)
    ∧ (∀ (s : State) (d n key : Nat) (m : Mig), instrWf (.rmcUpdateAck d n) = true → s.migOf n = some (key, m) →
        bit m.acks d = true → (m.phase = 1 → (keyOf (s.rm m.req.range)).isSome = true ∧ m.tier < 2) →
        ∃ (u : State) (m' : Mig), exec (.rmcUpdateAck d n) s = .next u ∧ u.migs.find? key = some m'
          ∧ m'.acks = setBits m.acks d 1 0
          ∧ m'.phase = (if setBits m.acks d 1 0 ≠ 0 then m.phase else if m.phase = 1 then 2
              else if m.phase = 5 then 6 else m.phase)
          ∧ (m.phase ≠ 1 → u = { s with migs := u.migs }) ∧ u.tiles = s.tiles ∧ u.clk = s.clk)
    ∧ (∀ (s : State) (d n : Nat) (x : RmUpd), instrWf (.rmcUpdateAck d n) = true →
        (∀ (key : Nat) (m : Mig), s.migOf n = some (key, m) → bit m.acks d = false) → s.rmUpd.find? n = some x → x.frames = [] →
        ∃ u : State, exec (.rmcUpdateAck d n) s = .next u ∧ u = { s with rmUpd := u.rmUpd }
          ∧ (setBits x.acks d 1 0 ≠ 0 → u.rmUpd.find? n = some { x with acks := setBits x.acks d 1 0 } ∧ u.rmSeen n = x.old)
          ∧ (setBits x.acks d 1 0 = 0 → u.rmUpd.find? n = none ∧ u.rmSeen n = s.rm n))
    ∧ (∀ (s : State) (d e : Nat) (m : Mig) (c : Instr), d < 2 → e < 8 → s.migs.find? (migKey d e) = some m →
        (c = .migrationPrecopyEnd d e ∧ m.phase = 2 ∨ c = .migrationRoundEnd d e ∧ m.phase = 3) → instrWf c = true →
        s.copied (migKey d e) m = true → (s.migSrc m).isSome = true → m.tier < 2 →
        ∃ u : State, exec c s = .next u ∧ u.tiles = s.tiles ∧ u.clk = s.clk
          ∧ (s.migDelta m ≤ s.fget (R.PLC_MIG_CTL d) F.PLC_MIG_CTL_DELTA_MAX →
              u.migs.find? (migKey d e) = some { m with phase := 4, finalAt := s.clk.cyc }
                ∧ u = { s with migs := u.migs, busy := u.busy, msgs := u.msgs, bw := u.bw, hltEv := u.hltEv })
          ∧ (s.fget (R.PLC_MIG_CTL d) F.PLC_MIG_CTL_DELTA_MAX < s.migDelta m →
              m.round < s.fget (R.PLC_MIG_CTL d) F.PLC_MIG_CTL_ROUNDS_MAX →
              ∃ m', u.migs.find? (migKey d e) = some m' ∧ m'.phase = 3 ∧ m'.round = m.round + 1)
          ∧ (s.fget (R.PLC_MIG_CTL d) F.PLC_MIG_CTL_DELTA_MAX < s.migDelta m →
              s.fget (R.PLC_MIG_CTL d) F.PLC_MIG_CTL_ROUNDS_MAX ≤ m.round →
              u.migs.find? (migKey d e) = none ∧ rmState (u.rm m.req.range) = 0
                ∧ u.fget (R.PLC_MIG_STAT d) F.PLC_MIG_STAT_ABANDONED =
                    min (s.fget (R.PLC_MIG_STAT d) F.PLC_MIG_STAT_ABANDONED + 1) (2 ^ F.PLC_MIG_STAT_ABANDONED.w - 1)))
    ∧ (∀ (s : State) (d e : Nat) (m : Mig) (c : Instr), d < 2 → e < 8 → s.migs.find? (migKey d e) = some m →
        (c = .migrationPrecopyEnd d e ∨ c = .migrationRoundEnd d e ∨ c = .migrationFinalEnd d e) → instrWf c = true →
        s.copied (migKey d e) m = false → exec c s = .next s)
    ∧ (∀ (s : State) (d e a b : Nat) (m : Mig), instrWf (.migrationFinalEnd d e) = true → s.migs.find? (migKey d e) = some m →
      m.phase = 4 → s.migSrc m = some a → m.key = some b → a ≠ b → s.drained a = true → s.copied (migKey d e) m = true →
      m.req.cls ≠ 1 → s.rmUpd.find? m.req.range = none →
      (∀ i, i < 16384 → Map.get false m.dirty i = true →
        s.clean (a * 16384 + i) ∧ (∀ c ∈ s.msgs, ¬ (c.moves = true ∧ c.line = a * 16384 + i))
          ∧ ∀ b, s.busyAt (a * 16384 + i) = some b → b.victim = none) →
      ∃ (u : State) (m' : Mig), exec (.migrationFinalEnd d e) s = .next u ∧ u.migs.find? (migKey d e) = some m'
        ∧ m'.phase = (if s.rmcHolders m.req.range = 0 then 6 else 5) ∧ m'.src = some a
        ∧ bits (u.rm m.req.range) 61 2 = m.tier % 4 ∧ rmState (u.rm m.req.range) = 0
        ∧ rmFrame (u.rm m.req.range) = m.frame % 2 ^ 34
        ∧ (∀ i, i < 16384 → Map.get false m.dirty i = true →
            u.mem.rdN ((b * 16384 + i) * 64) 64 = s.mem.rdN ((a * 16384 + i) * 64) 64)
        ∧ (∀ n, n ≠ m.req.range → u.rm n = s.rm n) ∧ u.tiles = s.tiles ∧ u.clk = s.clk)
    ∧ (∀ (s : State) (d e : Nat) (m : Mig), instrWf (.migrationUnblock d e) = true → s.migs.find? (migKey d e) = some m →
        m.phase = 6 →
        ∃ u : State, exec (.migrationUnblock d e) s = .next u ∧ u.migs.find? (migKey d e) = none
          ∧ u.fget (R.PLC_MIG_STAT d) F.PLC_MIG_STAT_COMPLETED =
              min (s.fget (R.PLC_MIG_STAT d) F.PLC_MIG_STAT_COMPLETED + 1) (2 ^ F.PLC_MIG_STAT_COMPLETED.w - 1)
          ∧ u.fget (R.PLC_MIG_STAT d) F.PLC_MIG_STAT_MAX_STALL =
              max (s.fget (R.PLC_MIG_STAT d) F.PLC_MIG_STAT_MAX_STALL) (min 65535 (s.clk.cyc - m.finalAt)) % 2 ^ F.PLC_MIG_STAT_MAX_STALL.w
          ∧ (m.lost = false → s.retiring = [] → (∀ b ∈ s.busy, b.2.parked = false) →
              u.rangeMap = s.rangeMap ∧ u.mem = s.mem ∧ u.bad = s.bad)
          ∧ u.tiles = s.tiles ∧ u.clk = s.clk)
    ∧ (∀ (s : State) (d n : Nat), instrWf (.rmcMissFill d n) = true → (Map.get [] s.rmc d).contains n = false →
        ∃ u : State, exec (.rmcMissFill d n) s = .next u ∧ (Map.get [] u.rmc d).head? = some n
          ∧ u.fget (R.PLC_RMC_STAT d) F.PLC_RMC_STAT_MISSES =
              min (s.fget (R.PLC_RMC_STAT d) F.PLC_RMC_STAT_MISSES + 1) (2 ^ F.PLC_RMC_STAT_MISSES.w - 1)
          ∧ u = { s with rmc := u.rmc, regs := u.regs })

/-! ### Coherence (R89, R293 to R309) -/

/-- Reads at an idle home (R300, R303, R305, R316): a GET or a PEEK of a line that nobody holds and that reads well is answered with the
line, exclusively for a GET, which then awaits its GOT; a PEEK of a poisoned line is answered with FAIL, is counted, and ends; a CLAIM of
the only holder is granted. Writes of one-way agents at an idle home (R89, R300): PUT_FULL replaces the line and clears its poison,
PUT_MASKED its named bytes, MERGE merges a status into a record and sets map bits, in the same or another line; each is answered with DONE,
and the line is idle again.
Completes (exec answers a next state): GET, PEEK, CLAIM, PUT_FULL, PUT_MASKED, MERGE.
Where the rules leave a point open or to inference, the clause is the model's choice: log entries 28, 29 and 45. -/
def Obligations.CoherentRequests : Prop :=
  (∀ (s : State) (ag line w txn part : Nat), instrWf (.get ag line w txn part) = true → IdleHome s line ag part → caching ag = true →
      s.held? line ag = none → s.dropping line ag = false → s.holders line = [] → s.clean line →
      ∃ (u : State) (b : Busy), exec (.get ag line w txn part) s = .next u
        ∧ u.msgs = s.msgs ++ [{
            op := .line, ag := ag, line := line, txn := txn, part := part, a := 2, data := some (s.mem.rdN (64 * line) 64) }]
        ∧ u.busyAt line = some b ∧ b.got = true ∧ b.answered = true ∧ b.snoops = [] ∧ CohFrame { s with tickets := u.tickets } u ∧ u.mem = s.mem)
    ∧ (∀ (s : State) (ag line txn part : Nat), instrWf (.peek ⟨ag, txn, part⟩ line) = true → IdleHome s line ag part → oneWay ag = true →
        s.holders line = [] → s.clean line →
        ∃ u : State, exec (.peek ⟨ag, txn, part⟩ line) s = .next u
          ∧ u.msgs = s.msgs ++ [{
              op := .line, ag := ag, line := line, txn := txn, part := part, a := 0, data := some (s.mem.rdN (64 * line) 64) }]
          ∧ u.busyAt line = none ∧ CohFrame { s with tickets := u.tickets } u ∧ u.mem = s.mem)
    ∧ (∀ (s : State) (ag line txn part : Nat), instrWf (.peek ⟨ag, txn, part⟩ line) = true → IdleHome s line ag part → oneWay ag = true →
        s.holders line = [] → s.llcHas line = false → Map.get false s.poison line = true → s.lineErr line = 0 →
        ∃ u : State, exec (.peek ⟨ag, txn, part⟩ line) s = .next u
          ∧ u.msgs = s.msgs ++ [{ op := .fail, ag := ag, line := line, txn := txn, part := part, a := 0 }]
          ∧ u.fget R.FLT_ERRCNT F.FLT_ERRCNT_UE = min (s.fget R.FLT_ERRCNT F.FLT_ERRCNT_UE + 1) (2 ^ F.FLT_ERRCNT_UE.w - 1)
          ∧ u.busyAt line = none ∧ CohFrame { s with tickets := u.tickets } u ∧ u.mem = s.mem ∧ u.poison = s.poison)
    ∧ (∀ (s : State) (ag line txn part : Nat), instrWf (.claim ⟨ag, txn, part⟩ line) = true → IdleHome s line ag part → caching ag = true →
        (s.held? line ag).isSome = true → s.dropping line ag = false → (∀ g ∈ s.holderIds line, g = ag) →
        ∃ (u : State) (b : Busy), exec (.claim ⟨ag, txn, part⟩ line) s = .next u
          ∧ u.msgs = s.msgs ++ [{ op := .done, ag := ag, line := line, txn := txn, part := part }]
          ∧ u.busyAt line = some b ∧ b.got = true ∧ b.answered = true ∧ CohFrame { s with tickets := u.tickets } u ∧ u.mem = s.mem)
    ∧ (∀ (s : State) (ag line data hint txn part : Nat), instrWf (.putFull ⟨ag, txn, part⟩ line data hint) = true →
      IdleHome s line ag part → oneWay ag = true → s.holders line = [] →
      ∃ u : State, exec (.putFull ⟨ag, txn, part⟩ line data hint) s = .next u ∧ u.mem.rdN (64 * line) 64 = data
        ∧ (∀ a, a < 64 * line ∨ 64 * line + 64 ≤ a → u.mem.rd a = s.mem.rd a) ∧ Map.get false u.poison line = false
        ∧ u.msgs = s.msgs ++ [{ op := .done, ag := ag, line := line, txn := txn, part := part }]
        ∧ u.busyAt line = none ∧ CohFrame { s with tickets := u.tickets } u)
    ∧ (∀ (s : State) (ag line data m hint txn part : Nat), instrWf (.putMasked ⟨ag, txn, part⟩ line data m hint) = true →
        IdleHome s line ag part → oneWay ag = true → s.holders line = [] → s.clean line →
        ∃ u : State, exec (.putMasked ⟨ag, txn, part⟩ line data m hint) s = .next u
          ∧ (∀ i, i < 64 → u.mem.rd (64 * line + i) = if bit m i then bits data (8 * i) 8 else s.mem.rd (64 * line + i))
          ∧ (∀ a, a < 64 * line ∨ 64 * line + 64 ≤ a → u.mem.rd a = s.mem.rd a)
          ∧ u.msgs = s.msgs ++ [{ op := .done, ag := ag, line := line, txn := txn, part := part }]
          ∧ u.busyAt line = none ∧ CohFrame { s with tickets := u.tickets } u)
    ∧ (∀ (s : State) (ag ra st ma mb txn part : Nat), instrWf (.merge ⟨ag, txn, part⟩ ra st ma mb) = true →
        IdleHome s (ra / 64) ag part → oneWay ag = true → s.holders (ra / 64) = [] → s.clean (ra / 64) →
        (mb ≠ 0 → homeLine (ma / 64) = true ∧ s.lineOk ag part (ma / 64) = true ∧ s.homeFenced (ma / 64 / 16384) = false
          ∧ s.busyAt (ma / 64) = none ∧ s.slotWait (unitOf (ma / 64)).1 = false ∧ s.holders (ma / 64) = [] ∧ s.clean (ma / 64)
          ∧ ma ≠ ra ∧ ma ≠ ra + 1) →
        ∃ u : State, exec (.merge ⟨ag, txn, part⟩ ra st ma mb) s = .next u
          ∧ u.mem.rdN ra 2 = mergeWord (s.mem.rdN ra 2) st
          ∧ (mb ≠ 0 → u.mem.rd ma = (s.mem.rd ma ||| mb) % 256)
          ∧ (∀ a, a ≠ ra → a ≠ ra + 1 → (mb ≠ 0 → a ≠ ma) → u.mem.rd a = s.mem.rd a)
          ∧ u.msgs = s.msgs ++ [{ op := .done, ag := ag, line := ra / 64, txn := txn, part := part }]
          ∧ u.busyAt (ra / 64) = none ∧ CohFrame { s with tickets := u.tickets } u)

/-- What a holder does (R298, R299, R302, R305): it drops a line, answers a SEND or a KILL, installs a LINE, takes a DONE, a REDO and a
DROP_OK; a FAIL is an access fault of a core. A holder in E may have written its line silently: a KILL with RETURN then sends the line home
or not. What a home does with answers (R303, R307): it notes the answer of a holder, writes the data of an owner, ends a transaction whose
GOT has come, and starts the oldest request that waits. Nothing waits for room in the request buffer or for the map byte of a MERGE, but for
the last clause, which admits what waits; the links that the messages take have modules that work.
Completes (exec answers a next state): DROP, SEND, KILL, LINE, DONE, REDO, DROP_OK, FAIL, SNP_DONE, LINE_HOME, GOT, BUSY_REQUEST_SERVE.
Where the rules leave a point open or to inference, the clause is the model's choice: log entries 28 and 29. -/
def Obligations.CoherentAnswers : Prop :=
  (∀ (s : State) (ag line dirty data : Nat) (c : CLine), instrWf (.drop ag line dirty data) = true → caching ag = true →
      s.held? line ag = some c → s.wbkAt (sliceOf line) ag = false → s.dropFits line ag dirty c = true → s.busyAt line = none →
      Linked s ag line →
      ∃ u : State, exec (.drop ag line dirty data) s = .next u ∧ u.held? line ag = none ∧ (u.wback.find? (cacheKey line ag)).isSome = true
        ∧ (dirty = 1 → u.mem.rdN (64 * line) 64 = data) ∧ (dirty ≠ 1 → u.mem = s.mem)
        ∧ u.msgs = s.msgs ++ [{ op := .dropOk, ag := ag, line := line }] ∧ CohFrame s u)
    ∧ (∀ (s s1 : State) (ag line rq tx pass : Nat) (m : CohMsg) (c : CLine), instrWf (.send ag line rq tx pass) = true →
        s.arrive .send ag line = some (m, s1) → NothingWaits s line → s.wback.find? (cacheKey line ag) = none →
        s.held? line ag = some c → c.st ≠ .s → Linked s ag line → s.linked (agDie ag) (agDie m.b) = true →
        ∃ u : State, exec (.send ag line rq tx pass) s = .next u
          ∧ u.msgs = s1.msgs ++ [{
              op := .line, ag := m.b, line := line, txn := m.c, part := m.part, a := (sendGrant m.a c.st.dirty).1,
              b := (sendGrant m.a c.st.dirty).2, c := ag + 1, data := if c.st = .o then some c.data else none },
              { op := .snpDone, ag := ag, line := line, a := 1 }]
          ∧ (m.a = 2 → u.held? line ag = none)
          ∧ (m.a = 1 → u.held? line ag = some { c with st := match c.st with | .e => .s | .m => .o | x => x })
          ∧ (m.a = 0 → u.held? line ag = some c) ∧ CohFrame s u ∧ u.mem = s.mem)
    ∧ (∀ (s s1 : State) (ag line ret : Nat) (m : CohMsg) (c : CLine), instrWf (.kill ag line ret) = true →
        s.arrive .kill ag line = some (m, s1) → NothingWaits s line → s.wback.find? (cacheKey line ag) = none →
        s.held? line ag = some c → Linked s ag line →
        ∃ u : State, exec (.kill ag line ret) s = .next u ∧ u.held? line ag = none
          ∧ (c.st.dirty = true → m.a = 1 → u.msgs = s1.msgs ++ [
              { op := .lineHome, ag := ag, line := line, data := if c.st = .o then some c.data else none },
              { op := .snpDone, ag := ag, line := line, a := 2 }])
          ∧ ((c.st = .s ∨ m.a ≠ 1) → u.msgs = s1.msgs ++ [{ op := .snpDone, ag := ag, line := line, a := 0 }])
          ∧ (c.st = .e → m.a = 1 → u.msgs = s1.msgs ++ [{ op := .snpDone, ag := ag, line := line, a := 0 }]
              ∨ u.msgs = s1.msgs ++ [{ op := .lineHome, ag := ag, line := line }, { op := .snpDone, ag := ag, line := line, a := 2 }])
          ∧ CohFrame s u ∧ u.mem = s.mem)
    ∧ (∀ (s s1 : State) (ag line data grant dirty : Nat) (m : CohMsg), instrWf (.line ag line data grant dirty) = true →
        s.arrive .line ag line = some (m, s1) → NothingWaits s line → caching ag = true → m.c ≠ ag + 1 → Linked s ag line →
        ∃ u : State, exec (.line ag line data grant dirty) s = .next u
          ∧ u.held? line ag = some { st := grantSt (if m.a = 2 ∧ m.data = none ∧ dirty = 1 then 3 else m.a), data := m.data.getD data }
          ∧ u.msgs = s1.msgs ++ [{ op := .got, ag := ag, line := line, txn := m.txn, part := m.part }] ∧ CohFrame s u ∧ u.mem = s.mem)
    ∧ (∀ (s s1 : State) (ag line : Nat) (m : CohMsg) (c : CLine), instrWf (.done ag line) = true →
        s.arrive .done ag line = some (m, s1) → NothingWaits s line → caching ag = true → s.held? line ag = some c →
        Linked s ag line →
        ∃ u : State, exec (.done ag line) s = .next u ∧ u.held? line ag = some { c with st := .m }
          ∧ u.msgs = s1.msgs ++ [{ op := .got, ag := ag, line := line, txn := m.txn, part := m.part }] ∧ CohFrame s u ∧ u.mem = s.mem)
    ∧ (∀ (s s1 : State) (ag line : Nat) (m : CohMsg), instrWf (.redo ag line) = true →
        s.arrive .redo ag line = some (m, s1) → NothingWaits s line →
        exec (.redo ag line) s = .next { s with msgs := s.msgs.erase m })
    ∧ (∀ (s s1 : State) (ag line st : Nat) (m : CohMsg), instrWf (.dropOk ag line st) = true →
        s.arrive .dropOk ag line = some (m, s1) → NothingWaits s line →
        ∃ u : State, exec (.dropOk ag line st) s = .next u ∧ u.wback.find? (cacheKey line ag) = none
          ∧ u = { s with msgs := s.msgs.erase m, wback := u.wback })
    ∧ (∀ (s s1 : State) (ag line : Nat) (m : CohMsg), instrWf (.fail ag line) = true → s.arrive .fail ag line = some (m, s1) →
        NothingWaits s line → caching ag = true →
        exec (.fail ag line) s = .next { s with msgs := s.msgs.erase m, rsp := { kind := .accessFault, data := 0 } })
    ∧ (∀ (s s1 : State) (ag line fl : Nat) (m : CohMsg) (b : Busy), instrWf (.snpDone ag line fl) = true →
      s.arrive .snpDone ag line = some (m, s1) → NothingWaits s line → s.busyAt line = some b →
      (∃ g ∈ b.snoops, g ≠ ag) →
      ∃ u : State, exec (.snpDone ag line fl) s = .next u ∧ u.busyAt line = some (b.snpDone ag m.a)
        ∧ u = { s with msgs := s.msgs.erase m, busy := u.busy })
    ∧ (∀ (s s1 : State) (ag line data : Nat) (m : CohMsg) (b : Busy), instrWf (.lineHome ag line data) = true →
        s.arrive .lineHome ag line = some (m, s1) → NothingWaits s line → s.busyAt line = some b → b.snoops ≠ [] →
        ∃ u : State, exec (.lineHome ag line data) s = .next u ∧ u.mem.rdN (64 * line) 64 = m.data.getD data % 2 ^ 512
          ∧ u.busyAt line = some b ∧ CohFrame s u)
    ∧ (∀ (s s1 : State) (ag line : Nat) (m : CohMsg) (b : Busy) (t : Txn), instrWf (.got ag line) = true →
        s.arrive .got ag line = some (m, s1) → NothingWaits s line → s.busyAt line = some b → b.cur = some t →
        (t.kind = .getRead ∨ t.kind = .getWrite ∨ t.kind = .claim) → b.snoops = [] → b.answered = true → b.drops = [] →
        b.waiters = [] → s.finalLine line = false → (∀ q ∈ s.msgs, ¬ (q.op = .lineHome ∧ q.line = line)) →
        ∃ u : State, exec (.got ag line) s = .next u ∧ u.busyAt line = none ∧ u = { s with msgs := s.msgs.erase m, busy := u.busy })
    ∧ (∀ (s : State) (line : Nat) (b : Busy) (t : Txn) (l : List Txn), instrWf (.busyRequestServe line) = true →
        s.busyAt line = some b → b.cur = none → b.waiters = t :: l → b.victim = none → s.finalLine line = false →
        (caching t.ag = true → s.filterVictim line = none) →
        ∃ u : State, exec (.busyRequestServe line) s =
            .next (State.admitAt unitEvent line (State.startTxn unitEvent u line t { b with waiters := l }))
          ∧ u.fget (R.COH_BUSY (sliceOf line)) F.COH_BUSY_MAX_WAIT =
              max (s.fget (R.COH_BUSY (sliceOf line)) F.COH_BUSY_MAX_WAIT) (min 65535 (s.clk.cyc - t.since)) % 2 ^ F.COH_BUSY_MAX_WAIT.w
          ∧ u = { s with regs := u.regs, snoop := u.snoop })

/-! ### Memory channels (R29, R62, R310 to R329) -/

/-- Lines of a channel (R62, R312, R316 to R318): a write replaces the line and clears its poison; a read delivers a good line and counts
its bytes; a corrected word is counted, written back and delivered; a poisoned line is recorded, and an uncorrectable one is counted and
reported with an event: neither is delivered. A request waits while a refresh slot of its stack lasts, and otherwise joins those of its
channel, which serves them in its order. A scrub read moves the position of its pass and begins the next behind the last line.
Completes (exec answers a next state): CHANNEL_WRITE, CHANNEL_READ, SCRUB_READ.
Where the rules leave a point open or to inference, the clause is the model's choice: log entries 31, 76 and 106. -/
def Obligations.ChannelLines : Prop :=
  (∀ (s : State) (line data cls : Nat), instrWf (.channelWrite ⟨line, cls⟩ data) = true → ServedAtOnce s line →
      ∃ u : State, exec (.channelWrite ⟨line, cls⟩ data) s = .next u ∧ u.mem.rdN (64 * line) 64 = data
        ∧ Map.get false u.poison line = false ∧ Map.get 0 u.soft line = 0 ∧ (s.cells line = 0 → u.homeWord line = some data)
        ∧ (∀ a, a < 64 * line ∨ 64 * line + 64 ≤ a → u.mem.rd a = s.mem.rd a)
        ∧ (∀ l, l ≠ line → Map.get false u.poison l = Map.get false s.poison l)
        ∧ (ChkRoom s line → ∀ l, l ≠ line → Map.get 0 u.soft l = Map.get 0 s.soft l)
        ∧ u = { s with mem := u.mem, soft := u.soft, poison := u.poison, bw := u.bw, chkCache := u.chkCache, chans := u.chans })
    ∧ (∀ (s : State) (line cls : Nat), instrWf (.channelRead ⟨line, cls⟩) = true → ServedAtOnce s line →
        (s.lineErr line = 0 → Map.get false s.poison line = false →
          ∃ u : State, exec (.channelRead ⟨line, cls⟩) s = .next u ∧ (cls ≠ 3 → Served u (s.mem.rdN (64 * line) 64))
            ∧ (cls = 3 → u.rsp = s.rsp)
            ∧ u = { s with bw := u.bw, chkCache := u.chkCache, soft := u.soft, chans := u.chans, rsp := u.rsp }
            ∧ (ChkRoom s line → u.soft = s.soft)
            ∧ (Map.get { last := s.bwEnd } u.bw (bwSetOf line)).a =
                ((Map.get { last := s.bwEnd } s.bw (bwSetOf line)).a + 64) % 2 ^ 64)
        ∧ (s.lineErr line = 0 → Map.get false s.poison line = true →
            ∃ u : State, exec (.channelRead ⟨line, cls⟩) s = .next u
              ∧ (cls ≠ 3 → u.rsp = { kind := .accessFault, data := 0 }) ∧ (cls = 3 → u.rsp = s.rsp)
              ∧ u.fget (errAddrReg (unitOf line).1) F.STK_ERR_ADDR_KIND = 3
              ∧ u.fget (errAddrReg (unitOf line).1) F.STK_ERR_ADDR_ADDR = line % 2 ^ F.STK_ERR_ADDR_ADDR.w
              ∧ u = { s with regs := u.regs, bw := u.bw, chkCache := u.chkCache, soft := u.soft, chans := u.chans, rsp := u.rsp })
        ∧ (∀ f, s.lineErr line ≠ 0 → rsDecode (s.lineDiff line) = .corrected f → s.cells line = 0 →
            ∃ u : State, exec (.channelRead ⟨line, cls⟩) s = .next u
              ∧ u.fget (errReg (unitOf line).1) F.STK_ERR_CE =
                  min (s.fget (errReg (unitOf line).1) F.STK_ERR_CE + 1) (2 ^ F.STK_ERR_CE.w - 1)
              ∧ s.homeWord line = some (u.mem.rdN (64 * line) 64) ∧ (cls ≠ 3 → Served u (u.mem.rdN (64 * line) 64))
              ∧ Map.get 0 u.soft line = 0 ∧ (∀ a, a < 64 * line ∨ 64 * line + 64 ≤ a → u.mem.rd a = s.mem.rd a))
        ∧ (s.lineErr line ≠ 0 → rsDecode (s.lineDiff line) = .bad →
            ∃ u : State, exec (.channelRead ⟨line, cls⟩) s =
                .next ((u.event (errAddrReg (unitOf line).1) (some F.STK_ERR_ADDR_KIND) []).when (cls != 3) fun w =>
                  w.answer .accessFault 0)
              ∧ u.fget (errReg (unitOf line).1) F.STK_ERR_UE =
                  min (s.fget (errReg (unitOf line).1) F.STK_ERR_UE + 1) (2 ^ F.STK_ERR_UE.w - 1)
              ∧ u.fget (errAddrReg (unitOf line).1) F.STK_ERR_ADDR_KIND = 2
              ∧ u.fget (errAddrReg (unitOf line).1) F.STK_ERR_ADDR_ADDR = line % 2 ^ F.STK_ERR_ADDR_ADDR.w
              ∧ u.mem = s.mem ∧ Map.get 0 u.soft line = Map.get 0 s.soft line ∧ u.hard = s.hard))
    ∧ (∀ (s : State) (line cls : Nat), homeLine line = true → (unitOf line).1 < 16 →
        s.slotWait (unitOf line).1 = true →
        (instrWf (.channelRead ⟨line, cls⟩) = true → exec (.channelRead ⟨line, cls⟩) s =
            .next (s.setChan (chanOf line) { s.chan (chanOf line) with
              queue := (s.chan (chanOf line)).queue ++ [{ line := line, cls := cls }] }))
        ∧ ∀ data, instrWf (.channelWrite ⟨line, cls⟩ data) = true → exec (.channelWrite ⟨line, cls⟩ data) s =
            .next (s.setChan (chanOf line) { s.chan (chanOf line) with
              queue := (s.chan (chanOf line)).queue ++ [{ line := line, write := some data, cls := cls }] }))
    ∧ (∀ (s : State) (line cls : Nat), homeLine line = true → (unitOf line).1 < 16 → s.slotWait (unitOf line).1 = false →
        (s.chan (chanOf line)).queue ≠ [] → instrWf (.channelRead ⟨line, cls⟩) = true →
        exec (.channelRead ⟨line, cls⟩) s =
          .next (State.chanDrain (chanOf line) ((s.chan (chanOf line)).queue.length + 1)
            (s.setChan (chanOf line) { s.chan (chanOf line) with
              queue := (s.chan (chanOf line)).queue ++ [{ line := line, cls := cls }] })))
    ∧ (∀ (s : State) (unit n : Nat), instrWf (.scrubRead unit) = true → s.scrubHours unit ≠ 0 →
        s.scrubNext unit 65536 (s.fget (scrubReg unit) F.STK_SCRUB_POS) = n → n < unitLines unit →
        (unit < 16 → s.slotWait unit = false ∧ (s.chan (chanOf (lineOf unit n))).queue = []) →
        s.lineErr (lineOf unit n) = 0 → Map.get false s.poison (lineOf unit n) = false →
        ∃ u : State, exec (.scrubRead unit) s = .next u
          ∧ u.fget (scrubReg unit) F.STK_SCRUB_POS = (if n + 1 < unitLines unit then n + 1 else 0)
          ∧ u.fget (scrubReg unit) F.STK_SCRUB_PASSES =
              (if n + 1 < unitLines unit then s.fget (scrubReg unit) F.STK_SCRUB_PASSES
                else (s.fget (scrubReg unit) F.STK_SCRUB_PASSES + 1) % 2 ^ F.STK_SCRUB_PASSES.w)
          ∧ u = { s with bw := u.bw, chkCache := u.chkCache, soft := u.soft, chans := u.chans, regs := u.regs }
          ∧ SameRegs s u [regKey (scrubReg unit) F.STK_SCRUB_POS, regKey (scrubReg unit) F.STK_SCRUB_PASSES])

/-- Refresh (R62, R319 to R321): a channel with demand or urgent requests postpones at most 8 REF commands, and issues those that it
postponed with the next; a lock that is in effect stops them; the end of the refresh slot, 1/32 of the period after the boundary, where
nothing waits for it; a write of REF_LOCK, which is cleared at once and, above PERIOD_LOG2 = 16, is not set; the suspension of a lock at a hot stack, with
an event, and its end. UCIe modules (R29): a module that is removed is counted; with the last of a link its die fabrics are to be reset;
the hash leaves out what has been removed from the next boundary on.
Completes (exec answers a next state): REFRESH, REFRESH_SLOT_END, REF_LOCK_WRITE, REF_LOCK_SUSPEND, REF_LOCK_RESUME, UCIE_MODULE_REMOVE,
UCIE_HASH_RESPREAD.
Where the rules leave a point open or to inference, the clause is the model's choice: log entries 74 and 76. -/
def Obligations.RefreshAndUcie : Prop :=
  (∀ (s : State) (ch d : Nat), instrWf (.refresh ch d) = true → s.lockOn (ch / 64) = false →
      ∃ u : State, exec (.refresh ch d) s = .next u
        ∧ (d = 1 → (∃ r ∈ (s.chan ch).queue, r.cls < 2) → Map.get 0 s.postponed ch < 8 →
            Map.get 0 u.postponed ch = Map.get 0 s.postponed ch + 1 ∧ u.refs = s.refs)
        ∧ (d ≠ 1 ∨ (∀ r ∈ (s.chan ch).queue, 2 ≤ r.cls) ∨ 8 ≤ Map.get 0 s.postponed ch →
            Map.get 0 u.postponed ch = 0 ∧ Map.get 0 u.refs ch = Map.get 0 s.refs ch + Map.get 0 s.postponed ch + 1)
        ∧ (∀ c, c ≠ ch → Map.get 0 u.postponed c = Map.get 0 s.postponed c ∧ Map.get 0 u.refs c = Map.get 0 s.refs c)
        ∧ u = { s with postponed := u.postponed, refs := u.refs })
    ∧ (∀ (s : State) (ch d : Nat), instrWf (.refresh ch d) = true → s.lockOn (ch / 64) = true → exec (.refresh ch d) s = .next s)
    ∧ (∀ s : State, s.clk.refSlot = true → SlotFree s (fun _ => true) →
        ∃ u : State, exec .refreshSlotEnd s = .next u ∧ u.clk.refSlot = false ∧ u.clk.tb = (s.clk.tb + s.slotLeft) % 2 ^ 64
          ∧ u.clk.cyc = s.clk.cyc + s.slotLeft ∧ u = { (if s.slotLeft = 0 then s else s.leaves) with clk := u.clk })
    ∧ (∀ s : State, s.clk.refSlot = false → exec .refreshSlotEnd s = .next s)
    ∧ (∀ (s : State) (a : Agent) (k v : Nat), instrWf (.refLockWrite a k v) = true →
        s.entry a .stk k (R.STK_CTRL k) true = .reach →
        ∃ u : State, exec (.refLockWrite a k v) s = .next u
          ∧ (v % 2 = 0 → SlotFree s (fun j => j == k) → Served u 0 ∧ u.fget (R.STK_CTRL k) F.STK_CTRL_REF_LOCK = 0
              ∧ u = { s with regs := u.regs, rsp := u.rsp, refLocked := s.refLocked.erase k }
              ∧ SameRegs s u [regKey (R.STK_CTRL k) F.STK_CTRL_REF_LOCK])
          ∧ (v % 2 = 1 → s.pLog ≤ 16 → Served u 0 ∧ u.fget (R.STK_CTRL k) F.STK_CTRL_REF_LOCK = 1
              ∧ OnlyAnswer s u [regKey (R.STK_CTRL k) F.STK_CTRL_REF_LOCK])
          ∧ (v % 2 = 1 → 16 < s.pLog → s.fbit (R.STK_CTRL k) F.STK_CTRL_REF_LOCK = false →
              u.rsp.kind = .regError ∧ u.fget (R.STK_CTRL k) F.STK_CTRL_REF_LOCK = s.fget (R.STK_CTRL k) F.STK_CTRL_REF_LOCK))
    ∧ (∀ (s : State) (k : Nat), instrWf (.refLockSuspend k) = true → s.atBoundary 8 = true →
        s.fbit (R.STK_STATUS k) F.STK_STATUS_THERM_2X = false →
        ∃ u : State, exec (.refLockSuspend k) s =
            (if s.fbit (R.STK_CTRL k) F.STK_CTRL_REF_LOCK then
              .next (u.event (R.STK_STATUS k) (some F.STK_STATUS_LOCK_SUSPENDED) []) else .next u)
          ∧ u.fget (R.STK_STATUS k) F.STK_STATUS_THERM_2X = 1
          ∧ (s.fbit (R.STK_CTRL k) F.STK_CTRL_REF_LOCK = true → u.fget (R.STK_STATUS k) F.STK_STATUS_LOCK_SUSPENDED = 1)
          ∧ OnlyRegs s u ([regKey (R.STK_STATUS k) F.STK_STATUS_THERM_2X]
              ++ if s.fbit (R.STK_CTRL k) F.STK_CTRL_REF_LOCK then
                  [regKey (R.STK_STATUS k) F.STK_STATUS_LOCK_SUSPENDED, regKey (R.LIF_CNT 33) F.LIF_CNT_VALUE] else []))
    ∧ (∀ (s : State) (k : Nat), instrWf (.refLockResume k) = true → s.atBoundary 8 = true →
        ∃ u : State, exec (.refLockResume k) s = .next u ∧ u.fget (R.STK_STATUS k) F.STK_STATUS_THERM_2X = 0
          ∧ u.fget (R.STK_STATUS k) F.STK_STATUS_LOCK_SUSPENDED = 0
          ∧ OnlyRegs s u [regKey (R.STK_STATUS k) F.STK_STATUS_THERM_2X,
              regKey (R.STK_STATUS k) F.STK_STATUS_LOCK_SUSPENDED])
    ∧ (∀ (s : State) (l m : Nat), instrWf (.ucieModuleRemove l m) = true → m < ucieCount l → bit (s.ucieGone l) m = false →
      ∃ u : State, exec (.ucieModuleRemove l m) s = .next u ∧ u.ucieGone l = s.ucieGone l + 2 ^ m
        ∧ u.fget (R.LIF_CNT 28) F.LIF_CNT_VALUE = min (s.fget (R.LIF_CNT 28) F.LIF_CNT_VALUE + 1) (2 ^ F.LIF_CNT_VALUE.w - 1)
        ∧ (s.ucieGone l + 2 ^ m ≠ 2 ^ ucieCount l - 1 →
            u = { s with ucieOut := u.ucieOut, regs := u.regs } ∧ SameRegs s u [regKey (R.LIF_CNT 28) F.LIF_CNT_VALUE])
        ∧ (s.ucieGone l + 2 ^ m = 2 ^ ucieCount l - 1 →
            (l < 2 → (4, l) ∈ u.resetsDue) ∧ (l = 2 → (4, 0) ∈ u.resetsDue ∧ (4, 1) ∈ u.resetsDue)
              ∧ u = { s with ucieOut := u.ucieOut, regs := u.regs, resetsDue := u.resetsDue }))
    ∧ (∀ (s : State) (l : Nat), instrWf (.ucieHashRespread l) = true → s.atBoundary 8 = true →
        ∃ u : State, exec (.ucieHashRespread l) s = .next u ∧ Map.get 0 u.ucieHash l = s.ucieGone l
          ∧ u = { s with ucieHash := u.ucieHash } ∧ ∀ j, j ≠ l → Map.get 0 u.ucieHash j = Map.get 0 s.ucieHash j)

/-- Rows and repair (R322 to R326): a failing row without an entry takes the lowest free spare, and the table is to be persisted; a row that
does not fail, or is being copied, is left as it is; a line that goes to a spare keeps its data, corrected where it can be, or stays poison;
a write of MAINT, which stacks in use refuse; the repair commands of a stack in maintenance, and the end of one, which counts and keeps what
it fused.
Completes (exec answers a next state): ROW_REMAP, MAINT_WRITE, READ_STATUS, FUSE_ROW, FUSE_COL, REPAIR_COMMAND_DONE.
Where the rules leave a point open or to inference, the clause is the model's choice: log entries 30, 83 and 112. -/
def Obligations.RowsAndRepair : Prop :=
  (∀ (s : State) (unit ch b row i : Nat), instrWf (.rowRemap unit ch b row) = true →
      (unit < 16 → s.fbit (R.STK_STATUS unit) F.STK_STATUS_MAINT_ACTIVE = false ∧ row < 65536) →
      (16 ≤ unit → row < 0xFFF000 ∧ ch = 0 ∧ b = 0) → s.remapIdx unit ch b row = none → s.freeSpare unit ch b = some i →
      (s.remaps unit).length < remapSize unit → s.rowFails unit ch b row = true → s.copying unit ch b row = false →
      ∃ u : State, exec (.rowRemap unit ch b row) s = .next (u.event (remapReg unit) (some F.STK_REMAP_STAT_USED) [])
        ∧ u.remaps unit = s.remaps unit ++ [remapWord 1 ch b row i] ∧ u.spareOf unit ch b row = some i
        ∧ u.fget (remapReg unit) F.STK_REMAP_STAT_USED = ((s.remaps unit).length + 1) % 2 ^ F.STK_REMAP_STAT_USED.w
        ∧ u.fget (remapReg unit) F.STK_REMAP_STAT_PERSIST_PENDING = 1
        ∧ u.tiles = s.tiles ∧ u.parts = s.parts ∧ u.clk = s.clk)
    ∧ (∀ (s : State) (unit ch b row : Nat), instrWf (.rowRemap unit ch b row) = true → (16 ≤ unit → ch = 0 ∧ b = 0) →
        (s.rowFails unit ch b row = false ∨ s.copying unit ch b row = true) → exec (.rowRemap unit ch b row) s = .next s)
    ∧ (∀ (s : State) (c : RowCopy) (l : Nat), homeLine l = true → ChkRoom s l →
        (s.lineErr l = 0 →
          (∀ a, (s.moveLine c l).mem.rd a = s.mem.rd a)
            ∧ Map.get false (s.moveLine c l).poison l = Map.get false s.poison l)
        ∧ (∀ f, s.lineErr l ≠ 0 → rsDecode (s.lineDiff l) = .corrected f → s.cells l = 0 →
            s.homeWord l = some ((s.moveLine c l).mem.rdN (64 * l) 64) ∧ Map.get false (s.moveLine c l).poison l = false
              ∧ ∀ a, a < 64 * l ∨ 64 * l + 64 ≤ a → (s.moveLine c l).mem.rd a = s.mem.rd a))
    ∧ (∀ (s : State) (k ch b row : Nat), k < 16 → s.fbit (R.STK_STATUS k) F.STK_STATUS_MAINT_ACTIVE = true →
        instrWf (.rowRemap k ch b row) = true → exec (.rowRemap k ch b row) s = .next s)
    ∧ (∀ (s : State) (a : Agent) (k v : Nat), instrWf (.maintWrite a k v) = true →
        s.entry a .stk k (R.STK_CTRL k) true = .reach →
        ∃ u : State, exec (.maintWrite a k v) s = .next u
          ∧ ((v / 2 % 2 = 0 ∨ s.fbit (R.STK_CTRL k) F.STK_CTRL_MAINT = true ∨ s.stackUsed k = false) →
              Served u 0 ∧ u.fget (R.STK_CTRL k) F.STK_CTRL_MAINT = v / 2 % 2
              ∧ u.fget (R.STK_STATUS k) F.STK_STATUS_MAINT_ACTIVE = v / 2 % 2
              ∧ OnlyAnswer s u [regKey (R.STK_CTRL k) F.STK_CTRL_MAINT, regKey (R.STK_STATUS k) F.STK_STATUS_MAINT_ACTIVE])
          ∧ (v / 2 % 2 = 1 → s.fbit (R.STK_CTRL k) F.STK_CTRL_MAINT = false → s.stackUsed k = true →
              u.rsp.kind = .regError ∧ u.fget (R.STK_CTRL k) F.STK_CTRL_MAINT = s.fget (R.STK_CTRL k) F.STK_CTRL_MAINT))
    ∧ (∀ (s : State) (a : Agent) (k v op : Nat) (c : Instr),
        (c = .readStatus a k v ∧ op = 1 ∨ c = .fuseRow a k v ∧ op = 2 ∨ c = .fuseCol a k v ∧ op = 3) → instrWf c = true →
        s.entry a .stk k (R.STK_REPAIR_CMD k) true = .reach →
        s.fbit (R.STK_REPAIR_STAT k) F.STK_REPAIR_STAT_BUSY = false → bits v 60 4 = op →
        bits v 50 6 / 4 = bits v 56 4 →
        (s.repairRefusal k op v = 0 →
          ∃ u : State, exec c s = .next u ∧ Served u 0 ∧ u.repairs.find? k = some v
            ∧ u.fget (R.STK_REPAIR_STAT k) F.STK_REPAIR_STAT_BUSY = 1
            ∧ u = { s with repairs := u.repairs, regs := u.regs, rsp := u.rsp }
            ∧ SameRegs s u [regKey (R.STK_REPAIR_STAT k) F.STK_REPAIR_STAT_BUSY])
        ∧ (s.repairRefusal k op v ≠ 0 →
            ∃ u : State, exec c s = .next (u.event (R.STK_REPAIR_STAT k) (some F.STK_REPAIR_STAT_RESULT) [])
              ∧ u.fget (R.STK_REPAIR_STAT k) F.STK_REPAIR_STAT_RESULT = s.repairRefusal k op v
              ∧ u.fget (R.STK_REPAIR_STAT k) F.STK_REPAIR_STAT_BUSY = 0 ∧ u.repairs = s.repairs))
    ∧ (∀ (s : State) (k res v : Nat), instrWf (.repairCommandDone k res) = true → s.repairs.find? k = some v →
        ∃ u : State, exec (.repairCommandDone k res) s =
            .next (u.event (R.STK_REPAIR_STAT k) (some F.STK_REPAIR_STAT_RESULT) [])
          ∧ u.repairs.find? k = none ∧ u.fget (R.STK_REPAIR_STAT k) F.STK_REPAIR_STAT_BUSY = 0
          ∧ u.fget (R.STK_REPAIR_STAT k) F.STK_REPAIR_STAT_RESULT = s.repairEnd v res
          ∧ Map.get 0 u.dieRepairs (dramKey k v) =
              Map.get 0 s.dieRepairs (dramKey k v) + (if s.repairEnd v res = 0 ∧ bits v 60 4 ≠ 1 then 1 else 0)
          ∧ Map.get 0 u.fuseRows (bankKey k v) =
              Map.get 0 s.fuseRows (bankKey k v) + (if s.repairEnd v res = 0 ∧ bits v 60 4 = 2 then 1 else 0)
          ∧ Map.get [] u.fuseList k = Map.get [] s.fuseList k ++ (if s.repairEnd v res = 0 ∧ bits v 60 4 ≠ 1 then [v] else [])
          ∧ u.mem = s.mem ∧ u.remap = s.remap ∧ u.tiles = s.tiles ∧ u.clk = s.clk)

/-! ### Afraeri (R63, R64, R331 to R348) -/

/-- Flits (R333): a flit with a bad check is counted and discarded, and the receiver asks once for a replay; the next data flit in order
moves the sequence on, and its messages for this package are received in their order, as far as the receive buffers have room (R334). A
replay that starts is counted and sends every flit of the replay buffer again, and a NAK is repeated in an idle flit. What a port that goes
down leaves, given the package before and a port without outstanding requests, and the HELLO that a port that trains sends (R336).
Completes (exec answers a next state): FLIT_RECEIVE, REPLAY_START, NAK_REPEAT, LINK_LOSS, PORT_RETRAIN, AFR_REPLAY_TIMEOUT, HELLO,
TRUNK_CHANGE.
Where the rules leave a point open or to inference, the clause is the model's choice: log entries 33 and 35. -/
def Obligations.AfraeriLinks : Prop :=
  (∀ (s : State) (g f : Nat), instrWf (.flitReceive g f) = true → s.fbit (R.AFR_PORT_CTL g) F.AFR_PORT_CTL_EN = true →
      s.portUp g = true → flitGood f = false →
      ∃ u : State, exec (.flitReceive g f) s = .next u
        ∧ u.fget (R.AFR_PORT_ERR g) F.AFR_PORT_ERR_FLIT_BAD =
            min (s.fget (R.AFR_PORT_ERR g) F.AFR_PORT_ERR_FLIT_BAD + 1) (2 ^ F.AFR_PORT_ERR_FLIT_BAD.w - 1)
        ∧ u.port g = (if (s.port g).nak then s.port g
            else ({ s.port g with nak := true, naks := (s.port g).naks + 1 } : Port).put 1 0 true [])
        ∧ (∀ h, h ≠ g → u.port h = s.port h) ∧ u = { s with regs := u.regs, ports := u.ports }
        ∧ SameRegs s u [regKey (R.AFR_PORT_ERR g) F.AFR_PORT_ERR_FLIT_BAD])
    ∧ (∀ (s : State) (g f : Nat), instrWf (.flitReceive g f) = true → s.fbit (R.AFR_PORT_CTL g) F.AFR_PORT_CTL_EN = true →
        s.portUp g = true → flitGood f = true → bits (flitHdr f) 62 2 = 0 → bits (flitHdr f) 52 10 = (s.port g).want →
        (∀ m ∈ flitMsgs f, msgOk m = true ∧ s.mine m = true) → s.holds = [] →
        (∀ v, v < 4 → sumList ((((s.port g).rx ++ flitMsgs f).filter fun n => n.vc == v).map msgSlots) ≤ fullCredit.getD v 0) →
        ∃ u : State, exec (.flitReceive g f) s = .next u ∧ (u.port g).want = ((s.port g).want + 1) % 1024
          ∧ (u.port g).nak = false ∧ (u.port g).rx = (s.port g).rx ++ flitMsgs f
          ∧ (∀ h, h ≠ g → u.port h = s.port h) ∧ u = { s with regs := u.regs, ports := u.ports, bw := u.bw })
    ∧ (∀ (s : State) (g : Nat), instrWf (.replayStart g) = true → s.portUp g = true → (s.port g).replay ≠ [] →
        ∃ u : State, exec (.replayStart g) s = .next u
          ∧ u.fget (R.AFR_PORT_ERR g) F.AFR_PORT_ERR_REPLAYS =
              min (s.fget (R.AFR_PORT_ERR g) F.AFR_PORT_ERR_REPLAYS + 1) (2 ^ F.AFR_PORT_ERR_REPLAYS.w - 1)
          ∧ u.fget (R.AFR_PORT_STATUS g) F.AFR_PORT_STATUS_REPLAYING = 1
          ∧ u.port g = (s.port g).replay.foldl (fun x e => x.put 0 e.1 false e.2) (s.port g)
          ∧ (∀ h, h ≠ g → u.port h = s.port h) ∧ u = { s with regs := u.regs, ports := u.ports }
          ∧ SameRegs s u [regKey (R.AFR_PORT_ERR g) F.AFR_PORT_ERR_REPLAYS,
              regKey (R.AFR_PORT_STATUS g) F.AFR_PORT_STATUS_REPLAYING, regKey (R.LIF_CNT 25) F.LIF_CNT_VALUE])
    ∧ (∀ (s : State) (g : Nat), instrWf (.nakRepeat g) = true → s.portUp g = true → (s.port g).nak = true →
        ∃ u : State, exec (.nakRepeat g) s = .next u
          ∧ u.port g = ({ s.port g with naks := (s.port g).naks + 1 } : Port).put 1 0 true []
          ∧ (∀ h, h ≠ g → u.port h = s.port h) ∧ u = { s with ports := u.ports })
    ∧ (∀ (s w : State) (a : Agent) (g v : Nat) (c : Instr), instrWf c = true →
      (c = .linkLoss g ∧ w = s
        ∨ c = .portRetrain a g v ∧ s.entry a .afrPort g (R.AFR_PORT_CTL g) true = .reach ∧ bit v 11 = true
            ∧ w = s.answer .ok 0) →
      s.portUp g = true → (∀ e ∈ s.rreqs, e.2.port ≠ some g) → s.rwait = [] →
      s.fbit (R.AFR_PORT_CTL g) F.AFR_PORT_CTL_LOSS_STOT = false →
      ∃ u : State, exec c s = .next u ∧ u.fget (R.AFR_PORT_STATUS g) F.AFR_PORT_STATUS_UP = 0
        ∧ u.fget (R.AFR_PORT_STATUS g) F.AFR_PORT_STATUS_TRAINING = s.fget (R.AFR_PORT_CTL g) F.AFR_PORT_CTL_EN % 2
        ∧ u.fget (R.AFR_PORT_ERR g) F.AFR_PORT_ERR_DOWNS =
            min (s.fget (R.AFR_PORT_ERR g) F.AFR_PORT_ERR_DOWNS + 1) (2 ^ F.AFR_PORT_ERR_DOWNS.w - 1)
        ∧ u.port g = { trunk := (s.port g).trunk,
                       lane := (s.port g).lane ++ if s.fget (R.AFR_PORT_CTL g) F.AFR_PORT_CTL_EN = 1 then [s.helloFlit g] else [] }
        ∧ u = { w with regs := u.regs, ports := u.ports, hltEv := u.hltEv, trunkRr := u.trunkRr, bw := u.bw, holds := u.holds })
    ∧ (∀ (s : State) (g : Nat), instrWf (.linkLoss g) = true → s.portUp g = true → (s.port g).trunk = 0 →
        (∀ e ∈ s.rreqs, e.2.port ≠ some g) → s.rwait = [] → s.fbit (R.AFR_PORT_CTL g) F.AFR_PORT_CTL_LOSS_STOT = true →
        ∃ u : State, exec (.linkLoss g) s = .next (u.lostStot (s.fget (R.AFR_PORT_STATUS g) F.AFR_PORT_STATUS_NBR_PKG))
          ∧ u.fget (R.AFR_PORT_STATUS g) F.AFR_PORT_STATUS_UP = 0
          ∧ u.port g = { lane := (s.port g).lane ++ if s.fget (R.AFR_PORT_CTL g) F.AFR_PORT_CTL_EN = 1 then [s.helloFlit g] else [] }
          ∧ u = { s with regs := u.regs, ports := u.ports, hltEv := u.hltEv })
    ∧ (∀ (s : State) (g : Nat), instrWf (.afrReplayTimeout g) = true → s.portUp g = true →
        s.fbit (R.AFR_PORT_STATUS g) F.AFR_PORT_STATUS_REPLAYING = true → (∀ e ∈ s.rreqs, e.2.port ≠ some g) → s.rwait = [] →
        s.fbit (R.AFR_PORT_CTL g) F.AFR_PORT_CTL_LOSS_STOT = false →
        ∃ u : State, exec (.afrReplayTimeout g) s = .next u ∧ u.fget (R.AFR_PORT_STATUS g) F.AFR_PORT_STATUS_UP = 0
          ∧ u.fget (R.AFR_PORT_STATUS g) F.AFR_PORT_STATUS_REPLAYING = 0
          ∧ u.fget R.FLT_ERRCNT F.FLT_ERRCNT_TIMEOUT =
              min (s.fget R.FLT_ERRCNT F.FLT_ERRCNT_TIMEOUT + 1) (2 ^ F.FLT_ERRCNT_TIMEOUT.w - 1)
          ∧ u = { s with
                  regs := u.regs, ports := u.ports, hltEv := u.hltEv, trunkRr := u.trunkRr, bw := u.bw, colls := u.colls,
                  holds := u.holds })
    ∧ (∀ (s : State) (g : Nat) (m : AfrMsg), instrWf (.hello g m) = true → m.typ = 0x32 → msgOk m = true →
        s.fbit (R.AFR_PORT_CTL g) F.AFR_PORT_CTL_EN = true → s.portUp g = false →
        ∃ u : State, exec (.hello g m) s = .next u ∧ u.portUp g = true
          ∧ u.fget (R.AFR_PORT_STATUS g) F.AFR_PORT_STATUS_TRAINING = 0
          ∧ u.fget (R.AFR_PORT_STATUS g) F.AFR_PORT_STATUS_NBR_PKG = m.src
          ∧ u.port g = { trunk := (s.port g).trunk,
                         lane := (s.port g).lane
                           ++ if s.fbit (R.AFR_PORT_STATUS g) F.AFR_PORT_STATUS_TRAINING then [] else [s.helloFlit g] }
          ∧ (∀ h, h ≠ g → u.port h = s.port h)
          ∧ u = { s with regs := u.regs, ports := u.ports })
    ∧ (∀ (s : State) (a : Agent) (g v : Nat), instrWf (.portRetrain a g v) = true →
        s.entry a .afrPort g (R.AFR_PORT_CTL g) true = .reach → bit v 11 = true → s.portUp g = false →
        ∃ u : State, exec (.portRetrain a g v) s = .next u ∧ Served u 0
          ∧ u.fget (R.AFR_PORT_STATUS g) F.AFR_PORT_STATUS_TRAINING = s.fget (R.AFR_PORT_CTL g) F.AFR_PORT_CTL_EN % 2
          ∧ u.port g = { s.port g with
                         lane := (s.port g).lane ++ if s.fget (R.AFR_PORT_CTL g) F.AFR_PORT_CTL_EN = 1 then [s.helloFlit g] else [] }
          ∧ (∀ h, h ≠ g → u.port h = s.port h) ∧ u = { s with regs := u.regs, rsp := u.rsp, ports := u.ports }
          ∧ SameRegs s u [regKey (R.AFR_PORT_STATUS g) F.AFR_PORT_STATUS_TRAINING])
    ∧ (∀ (s : State) (d : Nat), instrWf (.trunkChange d) = true → s.clk.phase < 9 →
        ∃ u : State, exec (.trunkChange d) s = .next u
          ∧ (∀ i, i < 18 → u.port (18 * d + i) =
              { s.port (18 * d + i) with
                trunk := if s.portUp (18 * d + i) then s.fget (R.AFR_PORT_CTL (18 * d + i)) F.AFR_PORT_CTL_TRUNK else 0 })
          ∧ (∀ h, (∀ i, i < 18 → h ≠ 18 * d + i) → u.port h = s.port h) ∧ u = { s with regs := u.regs, ports := u.ports }
          ∧ SameRegs s u ((List.range 18).map fun i =>
              regKey (R.AFR_PORT_STATUS (18 * d + i)) F.AFR_PORT_STATUS_IN_TRUNK))

/-- Requests of other packages (R341, R342, R345): one that the role epoch, the permission and the address admit, and whose access waits
for nothing, reads its line, or writes it, and the answer is sent by the route of its sender; another is refused. Answers to remote requests
(R341, R343, R345): an answer ends the request with its transaction number, and what waits for its line takes it: an agent, an instruction
of a tile, a pass of a step scheduler, or a unit that reads behind a window; a NACK to a caching agent is its access fault, and so is the
timeout of its request.
Completes (exec answers a next state): RD, WR_LINE, WR_MASK, RD_DATA, WR_ACK, NACK, REMOTE_TIMEOUT.
Where the rules leave a point open or to inference, the clause is the model's choice: log entries 8, 32, 34, 41 and 111. -/
def Obligations.RemoteAccess : Prop :=
  (∀ (s : State) (g f : Nat) (m : AfrMsg), instrWf (.rd g m) = true → m.typ = 0 → s.portUp g = true → msgOk m = true →
      s.mine m = true → s.respCredit (g / 18) m 5 = true → s.roleOk m = true → s.remoteOk (g / 18) m false = true →
      s.xlate (Reach.remoteReq (reqPart m) (g / 18)) false (reqAddr m) = .frame f → QuietHome s (g / 18) f →
      s.ownerOf (f / 64) = none → s.clean (f / 64) →
      s.workGoes (portUnit g) (fun _ => true) (fun s => s.fabServe g m 0 false peekLine) = true →
      ∃ w : State, exec (.rd g m) s = .next (s.workDone (portUnit g) (fun _ => true) fun s => s.fabServe g m 0 false peekLine)
        ∧ s.workTry (portUnit g) (fun s => s.fabServe g m 0 false peekLine)
            = (w.sendVia (g / 18) (respMsg s.pkgId m 0x10 (toWords 128 4 (s.mem.rdN f 64))) (msgLine m)).2
        ∧ w.mem = s.mem ∧ w.ports = (s.takeRx g m).ports ∧ SameUnits s w)
    ∧ (∀ (s : State) (g f : Nat) (m : AfrMsg), instrWf (.wrLine g m) = true → m.typ = 1 → s.portUp g = true →
        msgOk m = true → s.mine m = true → s.respCredit (g / 18) m 1 = true → s.roleOk m = true →
        s.remoteOk (g / 18) m true = true →
        s.xlate (Reach.remoteReq (reqPart m) (g / 18)) true (reqAddr m) = .frame f → QuietHome s (g / 18) f →
        s.workGoes (portUnit g) (fun _ => true) (fun s => s.fabServe g m 1 true (putLineReq m)) = true →
        ∃ w : State, exec (.wrLine g m) s = .next (s.workDone (portUnit g) (fun _ => true) fun s => s.fabServe g m 1 true (putLineReq m))
          ∧ s.workTry (portUnit g) (fun s => s.fabServe g m 1 true (putLineReq m))
              = (w.sendVia (g / 18) (respMsg s.pkgId m 0x11 []) (msgLine m)).2
          ∧ w.mem.rdN f 64 = ofWords 128 (m.data.take 4) ∧ w.holders (f / 64) = []
          ∧ (∀ a, a < f ∨ f + 64 ≤ a → w.mem.rd a = s.mem.rd a) ∧ w.ports = (s.takeRx g m).ports ∧ SameUnits s w)
    ∧ (∀ (s : State) (g f : Nat) (m : AfrMsg), instrWf (.wrMask g m) = true → m.typ = 2 → s.portUp g = true →
        msgOk m = true → s.mine m = true → s.respCredit (g / 18) m 1 = true → s.roleOk m = true →
        s.remoteOk (g / 18) m true = true → m.data.getD 0 0 % 2 ^ 64 ≠ 2 ^ 64 - 1 →
        s.xlate (Reach.remoteReq (reqPart m) (g / 18)) true (reqAddr m) = .frame f → QuietHome s (g / 18) f →
        s.ownerOf (f / 64) = none → s.clean (f / 64) →
        s.workGoes (portUnit g) (fun _ => true) (fun s => s.fabServe g m 2 true (putMaskReq m)) = true →
        ∃ w : State, exec (.wrMask g m) s = .next (s.workDone (portUnit g) (fun _ => true) fun s => s.fabServe g m 2 true (putMaskReq m))
          ∧ s.workTry (portUnit g) (fun s => s.fabServe g m 2 true (putMaskReq m))
              = (w.sendVia (g / 18) (respMsg s.pkgId m 0x11 []) (msgLine m)).2
          ∧ w.mem.rdN f 64 = maskLine (s.mem.rdN f 64) (ofWords 128 ((m.data.drop 1).take 4)) (m.data.getD 0 0 % 2 ^ 64) % 2 ^ 512
          ∧ w.holders (f / 64) = []
          ∧ (∀ a, a < f ∨ f + 64 ≤ a → w.mem.rd a = s.mem.rd a) ∧ w.ports = (s.takeRx g m).ports ∧ SameUnits s w)
    ∧ (∀ (s : State) (g : Nat) (m : AfrMsg) (c : Instr) (wr : Bool) (n : Nat) (f : Reach → Nat → State → Ld × Nat × List Nat × State),
        instrWf c = true →
        (c = .rd g m ∧ m.typ = 0 ∧ wr = false ∧ n = 5 ∧ f = peekLine ∨ c = .wrLine g m ∧ m.typ = 1 ∧ wr = true ∧ n = 1 ∧ f = putLineReq m
          ∨ c = .wrMask g m ∧ m.typ = 2 ∧ wr = true ∧ n = 1 ∧ f = putMaskReq m) →
        s.portUp g = true → msgOk m = true → s.mine m = true → s.respCredit (g / 18) m n = true →
        s.workGoes (portUnit g) (fun _ => true) (fun s => s.fabServe g m m.typ wr f) = true →
        exec c s = .next (s.workDone (portUnit g) (fun _ => true) fun s => s.fabServe g m m.typ wr f)
          ∧ (s.roleOk m = false → s.workTry (portUnit g) (fun s => s.fabServe g m m.typ wr f)
              = ((s.workTry (portUnit g) fun s => s.takeRx g m).fadd (R.AFR_STAT (g / 18)) F.AFR_STAT_STALE_DROPS 1).refuse (g / 18) m 5)
          ∧ (s.roleOk m = true → s.remoteOk (g / 18) m wr = false → s.workTry (portUnit g) (fun s => s.fabServe g m m.typ wr f)
              = (s.workTry (portUnit g) fun s => s.takeRx g m).refuse (g / 18) m 2))
    ∧ (∀ (s : State) (g : Nat) (m : AfrMsg) (c : Instr) (wr : Bool) (e : Nat × RReq), instrWf c = true →
      (c = .rdData g m ∧ m.typ = 0x10 ∧ wr = false ∨ c = .wrAck g m ∧ m.typ = 0x11 ∧ wr = true) → s.portUp g = true →
      msgOk m = true → s.mine m = true → s.rwait = [] →
      List.find? (fun e : Nat × RReq => e.1 % 4096 == m.tag && e.2.write == wr) s.rreqs = some e →
      (e.2.who = .agent → isMigEngine e.2.ag = false →
        exec c s = .next ({ s.takeRx g m with rreqs := s.rreqs.erase e.1 }.answer .ok (if wr then 0 else ofWords 128 (m.data.take 4))))
      ∧ (wr = true → e.2.who ≠ .agent → exec c s = .next { s.takeRx g m with rreqs := s.rreqs.erase e.1 }))
    ∧ (∀ (s : State) (g : Nat) (m : AfrMsg) (e : Nat × RReq), instrWf (.rdData g m) = true → m.typ = 0x10 → s.portUp g = true →
        msgOk m = true → s.mine m = true → s.rwait = [] →
        List.find? (fun e : Nat × RReq => e.1 % 4096 == m.tag && e.2.write == false) s.rreqs = some e →
        (∀ t idx, e.2.who = .ins t idx →
          exec (.rdData g m) s = .next ({ s.takeRx g m with rreqs := s.rreqs.erase e.1 }.modMove t idx fun f =>
            { f with got := f.got.insert (remoteKey e.2.win e.2.off) (.ok (ofWords 128 (m.data.take 4))) }))
        ∧ (∀ p k i, e.2.who = .pass p k i →
            exec (.rdData g m) s = .next ({ s.takeRx g m with rreqs := s.rreqs.erase e.1 }.modSlot p k fun x =>
              { x with got := x.got.insert (remoteKey e.2.win e.2.off) (.ok (ofWords 128 (m.data.take 4))) }))
        ∧ ∀ n, e.2.who = .unit n →
            exec (.rdData g m) s = .next ({ s.takeRx g m with rreqs := s.rreqs.erase e.1 }.comes n e.2 (.ok (ofWords 128 (m.data.take 4)))))
    ∧ (∀ (s : State) (g : Nat) (m : AfrMsg) (e : Nat × RReq), instrWf (.nack g m) = true → m.typ = 0x12 →
        s.portUp g = true → msgOk m = true → s.mine m = true → s.rwait = [] →
        List.find? (fun e : Nat × RReq => e.1 % 4096 == m.tag) s.rreqs = some e → e.2.who = .agent → caching e.2.ag = true →
        ∃ u : State, exec (.nack g m) s = .next u ∧ u.rreqs = s.rreqs.erase e.1
          ∧ u.rsp = { kind := .accessFault, data := 0 }
          ∧ u = { s.takeRx g m with rreqs := u.rreqs, colls := u.colls, regs := u.regs, rsp := u.rsp }
          ∧ SameRegs s u [regKey R.FLT_ERRCNT F.FLT_ERRCNT_DECODE])
    ∧ (∀ (s : State) (d tag : Nat) (q : RReq), instrWf (.remoteTimeout d tag) = true → s.rwait = [] →
        s.rreqs.find? (4096 * d + tag) = some q → q.who = .agent → caching q.ag = true →
        ∃ u : State, exec (.remoteTimeout d tag) s = .next u ∧ u.rreqs = s.rreqs.erase (4096 * d + tag)
          ∧ u.rsp = { kind := .accessFault, data := 0 }
          ∧ u.fget R.FLT_ERRCNT F.FLT_ERRCNT_TIMEOUT =
              min (s.fget R.FLT_ERRCNT F.FLT_ERRCNT_TIMEOUT + 1) (2 ^ F.FLT_ERRCNT_TIMEOUT.w - 1)
          ∧ u = { s with rreqs := u.rreqs, regs := u.regs, rsp := u.rsp, hltEv := u.hltEv })

/-- STOT and the role epoch (R344, R346, R347): a STOT that stands in the table of its die is discarded; a new one is counted, recorded, sent on
and delivered; AFR_STOT_CMD originates one with this package's tick; INC is taken on die 0, and the epoch increments at the boundary after it,
past 0xFFFF to 1. Tick markers at the upstream port of a follower (R63, R64): the first marker with no context resident steps the time
base; one with the own boundary number gives the offset, which is slewed, and 16 consecutive ones within 200 ns lock; another number is a
sync error; every such marker goes on to the other ports. Four lost markers unlock and hold over; fewer change nothing.
Completes (exec answers a next state): STOT, STOT_CMD, EPOCH_INC, EPOCH_INCREMENT, TICK, MARKER_LOSS.
Where the rules leave a point open or to inference, the clause is the model's choice: log entries 2, 36, 70 and 89. -/
def Obligations.StotEpochAndMarkers : Prop :=
  (∀ (s : State) (g : Nat) (m : AfrMsg), instrWf (.stot g m) = true → m.typ = 0x31 → s.portUp g = true → msgOk m = true →
      s.mine m = true → bits (m.data.getD 0 0) 126 2 < 2 →
      (s.stotKnown (g / 18) (stotKey (m.data.getD 0 0)) = true → exec (.stot g m) s = .next (s.takeRx g m))
      ∧ (s.stotKnown (g / 18) (stotKey (m.data.getD 0 0)) = false →
          ∃ u : State, exec (.stot g m) s = .next (u.stotDeliver (m.data.getD 0 0))
            ∧ u.fget (R.AFR_STAT (g / 18)) F.AFR_STAT_STOT_RX =
                min (s.fget (R.AFR_STAT (g / 18)) F.AFR_STAT_STOT_RX + 1) (2 ^ F.AFR_STAT_STOT_RX.w - 1)
            ∧ (∀ d, d < 2 → (stotKey (m.data.getD 0 0), s.tick) ∈ u.stotTable d
                ∧ (u.stotTable d).length ≤ max 256 (s.stotTable d).length)
            ∧ u.ethStot = s.ethStot ++ [m.data.getD 0 0]
            ∧ u = { s with ports := u.ports, regs := u.regs, bw := u.bw, ethStot := u.ethStot, stotSeen := u.stotSeen, qps := u.qps }))
    ∧ (∀ (s : State) (a : Agent) (d v : Nat), instrWf (.stotCmd a d v) = true →
        s.entry a .afrEng d (R.AFR_STOT_CMD d) true = .reach →
        ∃ u : State, exec (.stotCmd a d v) s = .next (u.stotDeliver (stotSlot 0 (v % 65536) s.pkgId 0xFFFF s.tick)) ∧ Served u 0
          ∧ u.ethStot = s.ethStot ++ [stotSlot 0 (v % 65536) s.pkgId 0xFFFF s.tick]
          ∧ (∀ d, d < 2 → (stotKey (stotSlot 0 (v % 65536) s.pkgId 0xFFFF s.tick), s.tick) ∈ u.stotTable d)
          ∧ u = { s with rsp := u.rsp, ports := u.ports, bw := u.bw, ethStot := u.ethStot, stotSeen := u.stotSeen, qps := u.qps })
    ∧ (∀ (s : State) (a : Agent) (d v : Nat), instrWf (.epochInc a d v) = true →
        s.entry a .afrEng d (R.AFR_ID d) true = .reach →
        ∃ u : State, exec (.epochInc a d v) s = .next u ∧ Served u 0
          ∧ u = { s with rsp := u.rsp, epochInc := if d = 0 ∧ bit v 32 = true then true else s.epochInc })
    ∧ (∀ (s : State) (d : Nat), instrWf (.epochIncrement d) = true → s.epochInc = true → s.clk.phase < 9 →
        ∃ u : State, exec (.epochIncrement d) s = .next u ∧ u.epochInc = false
          ∧ (s.epoch < 0xFFFF → u.epoch = s.epoch + 1) ∧ (s.epoch = 0xFFFF → u.epoch = 1)
          ∧ u = { s with epochInc := u.epochInc, regs := u.regs } ∧ SameRegs s u [regKey (R.AFR_ID 0) F.AFR_ID_EPOCH])
    ∧ (∀ (s : State) (g b t d : Nat), instrWf (.tick g b t d) = true → s.fget R.TCK_SYNC F.TCK_SYNC_ROLE = 2 → s.upPort = some g →
      (s.clk.locked1 = true ∨ s.anyResident = true) →
      (b ≠ s.tick →
        ∃ u : State, exec (.tick g b t d) s = .next (u.flood (some g) (tickMsg s.pkgId b ((t + d) % 2 ^ 64)))
          ∧ u.fget R.TCK_STATUS F.TCK_STATUS_SYNC_ERR = 1 ∧ u.clk = { s.clk with lastMark := some b, inLock := 0, markAt := s.tick }
          ∧ u.fget R.TCK_SYNC F.TCK_SYNC_UPSTREAM = g ∧ u = { s with regs := u.regs, clk := u.clk })
      ∧ (b = s.tick → (s.markerOffset t d).natAbs ≤ 220 →
          ∃ u : State, exec (.tick g b t d) s = .next (u.flood (some g) (tickMsg s.pkgId b ((t + d) % 2 ^ 64)))
            ∧ u.fget R.TCK_OFFSET F.TCK_OFFSET_OFFSET = ofInt 32 (s.markerOffset t d)
            ∧ u.clk.inLock = min 16 ((if (s.clk.lastMark.map fun m => (m + 1) % 2 ^ 48) = some b then s.clk.inLock else 0) + 1)
            ∧ (u.clk.inLock = 16 → u.fget R.TCK_STATUS F.TCK_STATUS_LOCKED = 1 ∧ u.clk.locked1 = true)
            ∧ (u.clk.inLock < 16 → u.fget R.TCK_STATUS F.TCK_STATUS_LOCKED = s.fget R.TCK_STATUS F.TCK_STATUS_LOCKED
                ∧ u.clk.locked1 = s.clk.locked1)
            ∧ u.clk = { s.clk with lastMark := some b, markAt := s.tick, slew := s.markerOffset t d, inLock := u.clk.inLock,
                                   locked1 := u.clk.locked1 }
            ∧ u.fget R.TCK_STATUS F.TCK_STATUS_HOLDOVER = 0 ∧ u = { s with regs := u.regs, clk := u.clk }))
    ∧ (∀ (s : State) (g b t d : Nat), instrWf (.tick g b t d) = true → s.fget R.TCK_SYNC F.TCK_SYNC_ROLE = 2 →
        s.upPort = some g → s.clk.locked1 = false → s.anyResident = false →
        ∃ u : State, exec (.tick g b t d) s = .next (u.flood (some g) (tickMsg s.pkgId b ((t + d) % 2 ^ 64)))
          ∧ u.clk.tb = (t + d) % 2 ^ 64 ∧ u.clk.locked1 = true ∧ u.clk.markAt = (t + d) % 2 ^ 64 / s.period % 2 ^ 48
          ∧ (b = (t + d) % 2 ^ 64 / s.period % 2 ^ 48 → u.fget R.TCK_OFFSET F.TCK_OFFSET_OFFSET = 0)
          ∧ (b ≠ (t + d) % 2 ^ 64 / s.period % 2 ^ 48 → u.fget R.TCK_STATUS F.TCK_STATUS_SYNC_ERR = 1)
          ∧ u = { s with regs := u.regs, clk := u.clk, regQs := u.regQs, pools := u.pools })
    ∧ (∀ s : State, s.fget R.TCK_SYNC F.TCK_SYNC_ROLE = 2 → s.tick < s.clk.markAt + 4 → exec .markerLoss s = .next s)
    ∧ (∀ s : State, s.fget R.TCK_SYNC F.TCK_SYNC_ROLE = 2 → s.clk.markAt + 4 ≤ s.tick →
        (s.fbit R.TCK_STATUS F.TCK_STATUS_LOCKED = false →
          ∃ u : State, exec .markerLoss s = .next u ∧ u.fget R.TCK_STATUS F.TCK_STATUS_HOLDOVER = 1
            ∧ u.clk = { s.clk with inLock := 0 } ∧ u = { s with clk := u.clk, regs := u.regs }
            ∧ SameRegs s u [regKey R.TCK_STATUS F.TCK_STATUS_HOLDOVER])
        ∧ (s.fbit R.TCK_STATUS F.TCK_STATUS_LOCKED = true →
            ∃ u : State, exec .markerLoss s =
                .next ((u.event R.TCK_STATUS (some F.TCK_STATUS_LOCKED) []).fset R.TCK_STATUS F.TCK_STATUS_HOLDOVER 1)
              ∧ u.fget R.TCK_STATUS F.TCK_STATUS_LOCKED = 0
              ∧ u.fget R.TCK_STATUS F.TCK_STATUS_UNLOCK_COUNT =
                  min (s.fget R.TCK_STATUS F.TCK_STATUS_UNLOCK_COUNT + 1) (2 ^ F.TCK_STATUS_UNLOCK_COUNT.w - 1)
              ∧ u = { s with clk := u.clk, regs := u.regs }))

/-! ### Collectives (R182, R349 to R355) -/

/-- ALLREDUCE, REDUCE_SCATTER and ALLGATHER (R182, R246, R354): where the engine of the die takes one, its destination is not pinned, and no
range of its tensors is an address decode error for it (R199), the collective stands last in its queue with its operands, and the engines
work; the instruction is in flight. One that the engine does not take stays where it is. The checks of one whose form or group does not fit
give it its status. Chain messages and ends (R345, R353, R355): a COLL_DATA for a group that is defined here joins the arrived parts, one for
another is refused with RANGE and one of another role with STALE_ROLE; a COLL_NACK and a timeout fail the collective of their group; a
collective that ends, once its regulator has admitted what it sent and its writes have been answered, leaves the queue, its status is
recorded, and its semaphore is signalled, but for a commit exchange. The work of the engines and of the ports is stated where it waits for
nothing.
Completes (exec answers a next state): ALLREDUCE, REDUCE_SCATTER, ALLGATHER, COLL_DATA, COLL_NACK, COLL_TIMEOUT, COLLECTIVE_END.
Where the rules leave a point open or to inference, the clause is the model's choice: log entries 38, 98 and 111. -/
def Obligations.Collectives : Prop :=
  (∀ (s : State) (t idx op : Nat) (o : ColOps) (r : Run) (sl : Nat × Nat) (c : Instr), instrWf c = true →
    (c = .allreduce t idx o ∧ op = 0 ∨ c = .reduceScatter t idx o ∧ op = 1 ∨ c = .allgather t idx o ∧ op = 2) →
    s.collRoom (t / 96) ((s.partOfTile t).getD 0) = true → s.colPinned t o = false → Issues s t idx (.col op o) r →
    colSlots r.img o = some sl → (s.issuedAt t idx (.col op o) r).colBad t o (r.issue idx (.col op o)) sl = false →
    ∃ (u : State) (x : Coll), exec c s = .next (u.collGo.launched t idx (.col op o) 0)
      ∧ Map.get [] u.colls (t / 96) = Map.get [] s.colls (t / 96) ++ [x]
      ∧ x.op = op ∧ x.rop = o.rop ∧ x.group = o.group ∧ x.tile = t ∧ x.ctx = r.ctx ∧ x.sslot = sl.1 ∧ x.dslot = sl.2
      ∧ x.sdesc = (r.img.descs[o.sslot]?).getD {} ∧ x.ddesc = (r.img.descs[o.dslot]?).getD {}
      ∧ x.part = (s.partOfTile t).getD 0 ∧ x.sem = s.semKey ((s.partOfTile t).getD 0) o.sem
      ∧ x.ready = false ∧ x.started = false ∧ x.done = false ∧ x.status = 0
      ∧ u = { s.issuedAt t idx (.col op o) r with colls := u.colls })
    ∧ (∀ (s : State) (t idx op : Nat) (o : ColOps) (c : Instr), instrWf c = true →
        (c = .allreduce t idx o ∧ op = 0 ∨ c = .reduceScatter t idx o ∧ op = 1 ∨ c = .allgather t idx o ∧ op = 2) →
        (s.collRoom (t / 96) ((s.partOfTile t).getD 0) = false ∨ s.colPinned t o = true) → exec c s = .next s)
    ∧ (∀ (s : State) (d : Nat) (c : Coll) (e : Option (List Nat)), c.op ≠ 3 →
        (collForm c.op c.rop c.sdesc c.ddesc = false → s.collCheck d c e = ({ c with status := 3 }, s))
        ∧ (collForm c.op c.rop c.sdesc c.ddesc = true → e = none → s.collCheck d c e = ({ c with status := 2 }, s))
        ∧ (∀ l, collForm c.op c.rop c.sdesc c.ddesc = true → e = some l → bit (l.getD 0 0) 63 = false →
            s.collCheck d c e = ({ c with status := 2 }, s))
        ∧ (∀ l, collForm c.op c.rop c.sdesc c.ddesc = true → e = some l → bit (l.getD 0 0) 63 = true →
            bits (l.getD 0 0) 60 3 ≠ c.part → s.collCheck d c e = ({ c with status := 3 }, s)))
    ∧ (∀ (s : State) (g d : Nat) (m : AfrMsg) (q : CollPart), instrWf (.collData g m q) = true → m.typ = 0x20 → s.portUp g = true →
      msgOk m = true → s.mine m = true → d = s.collDie g m →
      s.workGoes (portUnit g) (fun _ => true) (fun s => s.collDataIn d g m q) = true →
      exec (.collData g m q) s = .next (s.workDone (portUnit g) (fun _ => true) fun s => s.collDataIn d g m q).collGo
        ∧ (s.roleOk m = true → ∀ e s1, (s.workTry (portUnit g) fun s => s.takeRx g m).loadWords (Reach.engine d)
              (s.groupAddr d (bits m.arg 44 12)) 8 = (some e, s1) →
            s.workTry (portUnit g) (fun s => s.collDataIn d g m q) =
              (if bit (e.getD 0 0) 63 then
                { s1.carry (g / 18) d (bits m.arg 0 44 / (if q.words = [] then 3 else 8)) (partBytes q) with
                  collIn := s1.collIn ++ [{
                    die := d, group := bits m.arg 44 12, at0 := bits m.arg 0 44 / (if q.words = [] then 3 else 8), part := q }] }
              else s1.collNack (g / 18) m 2))
        ∧ (s.roleOk m = false → s.workTry (portUnit g) (fun s => s.collDataIn d g m q) =
            ((s.workTry (portUnit g) fun s => s.takeRx g m).fadd (R.AFR_STAT (g / 18)) F.AFR_STAT_STALE_DROPS 1).collNack (g / 18) m 5))
    ∧ (∀ (s : State) (g : Nat) (m : AfrMsg) (x : Coll), instrWf (.collNack g m) = true → m.typ = 0x21 → s.portUp g = true →
        msgOk m = true → s.mine m = true → s.roleOk m = true →
        s.collHead ((s.takeRx g m).collDie g m) (bits m.arg 44 12) = some x → x.over = false →
        ∃ u : State, exec (.collNack g m) s = .next u
          ∧ u.collHead ((s.takeRx g m).collDie g m) (bits m.arg 44 12) = some { x with status := m.arg % 256 }
          ∧ u = { s.takeRx g m with colls := u.colls })
    ∧ (∀ (s : State) (g : Nat) (m : AfrMsg), instrWf (.collNack g m) = true → m.typ = 0x21 → s.portUp g = true →
        msgOk m = true → s.mine m = true → s.roleOk m = false →
        exec (.collNack g m) s =
          .next (((s.takeRx g m).fadd (R.AFR_STAT (g / 18)) F.AFR_STAT_STALE_DROPS 1).collNack (g / 18) m 5))
    ∧ (∀ (s : State) (d g : Nat) (x : Coll), instrWf (.collTimeout d g) = true → s.collRuns d g = some x →
        s.fget (R.AFR_CTL d) F.AFR_CTL_COLL_TICKS ≤ x.waited →
        ∃ u : State, exec (.collTimeout d g) s = .next u ∧ u.collHead d g = some { x with status := 6 }
          ∧ u = { s with colls := u.colls })
    ∧ (∀ (s : State) (d g : Nat) (x : Coll), instrWf (.collectiveEnd d g) = true → s.collHead d g = some x → x.over = true →
        s.regPast x.marks = true → s.unitAsks (collUnit d g) = false →
        s.workGoes (collUnit d g) (fun _ => true) (fun s => s.collLeaves d x) = true →
        ∃ u : State, exec (.collectiveEnd d g) s = .next ((u.collOutcome x).collGo)
          ∧ Map.get [] u.colls d = dropFirst g (Map.get [] s.colls d)
          ∧ u.fget (R.AFR_STAT d) F.AFR_STAT_LAST_STATUS = x.status % 2 ^ F.AFR_STAT_LAST_STATUS.w
          ∧ u.fget (R.AFR_STAT d) F.AFR_STAT_COLL_FAILED = (if x.status = 0 then s.fget (R.AFR_STAT d) F.AFR_STAT_COLL_FAILED
              else min (s.fget (R.AFR_STAT d) F.AFR_STAT_COLL_FAILED + 1) (2 ^ F.AFR_STAT_COLL_FAILED.w - 1))
          ∧ (u.part x.part).sigs = (s.part x.part).sigs ++ (if x.op = 3 then [] else [{ sem := x.sem, n := 1, origin := .coll }])
          ∧ SameUnitsBut (fun k => k = R.AFR_STAT d)
              { s with parts := u.parts, colls := u.colls, came := u.came, tickets := u.tickets } u)

/-! ### Ethernet and PCIe (R348, R357 to R360, R364) -/

/-- The links and frames of an Ethernet port (R66, R357, R359, R360): what the port does not support is dropped and counted; a flow-control
frame is noted, and stops priorities where the port honours it; another is time-stamped and handed on, a CE mark is counted and answered in
lossless mode, and an acknowledgement ends what it covers. Queue pairs and inbound device accesses (R348, R358, R359, R363, R364): a SEND is
acknowledged and delivered, a WRITE or READ of a registered region reaches memory and is answered, another is refused; the rate falls with a
congestion notification and recovers; a retransmission sends the unacknowledged packets again and counts them; a message-signalled interrupt
goes to its server core, another PCIe access that the IOMMU translates reaches memory, another is an access fault. What reaches memory is
stated where it waits for nothing.
Completes (exec answers a next state): ETH_LINK_DOWN, ETH_LINK_UP, ETH_FRAME_RX, ROCE_SEND, ROCE_WRITE, ROCE_READ, CNP_RX, RATE_RECOVER,
ROCE_RETRANSMIT, PCIE_INBOUND.
Where the rules leave a point open or to inference, the clause is the model's choice: log entries 39, 40, 110 and 111. -/
def Obligations.EthernetAndQueuePairs : Prop :=
  (∀ (s : State) (e : Nat), instrWf (.ethLinkDown e) = true → s.ethUp e = true →
      ∃ u : State, exec (.ethLinkDown e) s = .next u ∧ u.ethUp e = false
        ∧ u.fget (R.LIF_CNT 26) F.LIF_CNT_VALUE = min (s.fget (R.LIF_CNT 26) F.LIF_CNT_VALUE + 1) (2 ^ F.LIF_CNT_VALUE.w - 1)
        ∧ u.eth e = { s.eth e with stopped := 0 } ∧ (∀ k, k ≠ e → u.eth k = s.eth k)
        ∧ u = { s with regs := u.regs, hltEv := u.hltEv, eths := u.eths })
    ∧ (∀ (s : State) (e : Nat), instrWf (.ethLinkUp e) = true → s.fbit (R.ETH_CTL e) F.ETH_CTL_EN = true →
        ∃ u : State, exec (.ethLinkUp e) s = .next u ∧ u.ethUp e = true ∧ u.fget (R.ETH_STATUS e) F.ETH_STATUS_PFC_SEEN = 0
          ∧ u.fget (R.ETH_STATUS e) F.ETH_STATUS_ECN_SEEN = 0
          ∧ OnlyRegs s u [regKey (R.ETH_STATUS e) F.ETH_STATUS_UP, regKey (R.ETH_STATUS e) F.ETH_STATUS_PFC_SEEN,
              regKey (R.ETH_STATUS e) F.ETH_STATUS_ECN_SEEN])
    ∧ (∀ (s : State) (e : Nat) (f : EthFrame), instrWf (.ethFrameRx e f) = true → s.ethUp e = true →
        (frameDrops f = true →
          ∃ u : State, exec (.ethFrameRx e f) s = .next u
            ∧ u.fget (R.ETH_ERR e) F.ETH_ERR_DROPS =
                min (s.fget (R.ETH_ERR e) F.ETH_ERR_DROPS + 1) (2 ^ F.ETH_ERR_DROPS.w - 1)
            ∧ (Map.get { last := s.bwEnd } u.bw (B.eth e + 0x100)).a =
                ((Map.get { last := s.bwEnd } s.bw (B.eth e + 0x100)).a + f.bytes) % 2 ^ 64
            ∧ u = { s with bw := u.bw, regs := u.regs } ∧ SameRegs s u [regKey (R.ETH_ERR e) F.ETH_ERR_DROPS])
        ∧ (frameDrops f = false → f.pfc = true →
            ∃ u : State, u.fget (R.ETH_STATUS e) F.ETH_STATUS_PFC_SEEN = 1
              ∧ ((s.lossy e = true ∨ s.fbit (R.ETH_CTL e) F.ETH_CTL_PFC_EN = false) → exec (.ethFrameRx e f) s = .next u ∧ u.eths = s.eths)
              ∧ (s.lossy e = false → s.fbit (R.ETH_CTL e) F.ETH_CTL_PFC_EN = true →
                  exec (.ethFrameRx e f) s = .next (u.qpDrainAll e)
                  ∧ (u.eth e).stopped = ((s.eth e).stopped - ((s.eth e).stopped &&& f.xon) ||| f.xoff) % 256)
              ∧ (Map.get { last := s.bwEnd } u.bw (B.eth e + 0x100)).a =
                  ((Map.get { last := s.bwEnd } s.bw (B.eth e + 0x100)).a + f.bytes) % 2 ^ 64
              ∧ u = { s with bw := u.bw, regs := u.regs, eths := u.eths } ∧ SameRegs s u [regKey (R.ETH_STATUS e) F.ETH_STATUS_PFC_SEEN])
        ∧ (frameDrops f = false → f.pfc = false →
            ∃ u : State, exec (.ethFrameRx e f) s =
                .next (match f.roce, f.ack with | true, some psn => u.qpAck e f.qpn psn | _, _ => u)
              ∧ (u.eth e).stamps = (s.eth e).stamps ++ (if f.ptpEvent then [s.clk.tb] else [])
              ∧ (u.eth e).raw = (s.eth e).raw ++ (if f.roce then [] else [f])
              ∧ (f.ce = true → s.lossy e = false → u.fget (R.ETH_STATUS e) F.ETH_STATUS_ECN_SEEN = 1
                  ∧ u.fget (R.ETH_ERR e) F.ETH_ERR_ECN_CE =
                      min (s.fget (R.ETH_ERR e) F.ETH_ERR_ECN_CE + 1) (2 ^ F.ETH_ERR_ECN_CE.w - 1)
                  ∧ (f.roce = true → (u.qp e f.qpn).tx = (s.qp e f.qpn).tx ++ [{ out := .cnp }]))
              ∧ ((f.ce = false ∨ s.lossy e = true) → u.regs = s.regs ∧ u.qps = s.qps)
              ∧ (Map.get { last := s.bwEnd } u.bw (B.eth e + 0x100)).a =
                  ((Map.get { last := s.bwEnd } s.bw (B.eth e + 0x100)).a + f.bytes) % 2 ^ 64
              ∧ u = { s with bw := u.bw, regs := u.regs, eths := u.eths, qps := u.qps }
              ∧ SameRegs s u [regKey (R.ETH_STATUS e) F.ETH_STATUS_ECN_SEEN, regKey (R.ETH_ERR e) F.ETH_ERR_ECN_CE]))
    ∧ (∀ (s : State) (e q psn : Nat) (l r : List EthPkt) (k : EthPkt), (s.qp e q).unacked = l ++ k :: r → k.psn = some psn →
        (∀ x ∈ l, x.psn ≠ some psn) → (s.qp e q).wait = [] → s.qpAck e q psn = s.setQp e q { s.qp e q with unacked := r })
    ∧ (∀ (s t : State) (e q x : Nat) (l : List Nat), instrWf (.roceSend e q l) = true → s.ethUp e = true → q < 16384 →
        (s.workTry (ethUnit e) id).load (Reach.eth none e) (s.fget (R.ETH_QPC_BASE e) F.ETH_QPC_BASE_ADDR * 64 + 256 * q) 256 = (.ok x, t) →
        ∃ u : State, exec (.roceSend e q l) s = .next u
          ∧ (s.workGoes (ethUnit e) (fun _ => true) (fun s => s.qpContext e q (State.sendServe e q l)) = true →
              u = (s.workDone (ethUnit e) (fun _ => true) fun s => s.qpContext e q (State.sendServe e q l)).collGo)
          ∧ s.workTry (ethUnit e) (fun s => s.qpContext e q (State.sendServe e q l)) = State.sendServe e q l x t
          ∧ (Config.qpUser x ≠ 0 →
              (State.sendServe e q l x t).qp e q = { t.qp e q with tx := (t.qp e q).tx ++ [{ out := .ack }], rx := (t.qp e q).rx ++ [l] }
              ∧ State.sendServe e q l x t = { t with qps := (State.sendServe e q l x t).qps, bw := (State.sendServe e q l x t).bw })
          ∧ (Config.qpUser x = 0 → ∀ slot, Config.ethStot l = some slot →
              State.sendServe e q l x t = (t.qpSend e q .ack).stotArrive (e / 4) none slot)
          ∧ (Config.qpUser x = 0 → Config.ethStot l = none → ∀ g i p, Config.ethColl l = some (g, i, p) →
              State.sendServe e q l x t =
                { t.qpSend e q .ack with collIn := t.collIn ++ [{ die := e / 4, group := g, at0 := i, part := p }] }))
    ∧ (∀ (s t : State) (e q x a : Nat) (l : List Nat), instrWf (.roceWrite e q a l) = true → s.ethUp e = true → q < 16384 →
        (s.workTry (ethUnit e) id).load (Reach.eth none e) (s.fget (R.ETH_QPC_BASE e) F.ETH_QPC_BASE_ADDR * 64 + 256 * q) 256 = (.ok x, t) →
        ∃ u : State, exec (.roceWrite e q a l) s = .next u
          ∧ (s.workGoes (ethUnit e) (fun _ => true) (fun s => s.qpContext e q (State.writeServe e q a l)) = true →
              u = s.workDone (ethUnit e) (fun _ => true) fun s => s.qpContext e q (State.writeServe e q a l))
          ∧ s.workTry (ethUnit e) (fun s => s.qpContext e q (State.writeServe e q a l)) = State.writeServe e q a l x t
          ∧ (Config.qpRegion x a l.length = none → State.writeServe e q a l x t = (t.ethDrop e).qpSend e q .accessError)
          ∧ (∀ p n s1, Config.qpRegion x a l.length = some p →
              t.store (Reach.eth (some p) e) a l.length (packCodes 8 l) = (.ok n, s1) →
              State.writeServe e q a l x t = s1.qpSend e q .ack))
    ∧ (∀ (s t : State) (e q x a n : Nat), instrWf (.roceRead e q a n) = true → s.ethUp e = true → q < 16384 →
        (s.workTry (ethUnit e) id).load (Reach.eth none e) (s.fget (R.ETH_QPC_BASE e) F.ETH_QPC_BASE_ADDR * 64 + 256 * q) 256 = (.ok x, t) →
        ∃ u : State, exec (.roceRead e q a n) s = .next u
          ∧ (s.workGoes (ethUnit e) (fun _ => true) (fun s => s.qpContext e q (State.readServe e q a n)) = true →
              u = s.workDone (ethUnit e) (fun _ => true) fun s => s.qpContext e q (State.readServe e q a n))
          ∧ s.workTry (ethUnit e) (fun s => s.qpContext e q (State.readServe e q a n)) = State.readServe e q a n x t
          ∧ (Config.qpRegion x a n = none → State.readServe e q a n x t = (t.ethDrop e).qpSend e q .accessError)
          ∧ (∀ p v s1, Config.qpRegion x a n = some p → t.load (Reach.eth (some p) e) a n = (.ok v, s1) → n ≤ 4096 →
              State.readServe e q a n x t =
                (s1.charge p 2 ((n + 63) / 64) 1).qpOut e q { out := .readData ((List.range n).map fun i => bits v (8 * i) 8) }))
    ∧ (∀ (s : State) (e q : Nat), instrWf (.cnpRx e q) = true → s.ethUp e = true → q < 16384 →
        ∃ u : State, exec (.cnpRx e q) s = .next u
          ∧ u.fget (R.ETH_ERR e) F.ETH_ERR_CNP_RX =
              min (s.fget (R.ETH_ERR e) F.ETH_ERR_CNP_RX + 1) (2 ^ F.ETH_ERR_CNP_RX.w - 1)
          ∧ u.qp e q = { s.qp e q with
              rate := if s.lossy e then (s.qp e q).rate
                else (s.qp e q).rate - (s.qp e q).rate * s.fget (R.ETH_CC e) F.ETH_CC_ALPHA / 256 }
          ∧ u = { s with regs := u.regs, qps := u.qps } ∧ SameRegs s u [regKey (R.ETH_ERR e) F.ETH_ERR_CNP_RX])
    ∧ (∀ (s : State) (e q : Nat), instrWf (.rateRecover e q) = true → q < 16384 → s.lossy e = false →
        exec (.rateRecover e q) s =
          .next (s.setQp e q { s.qp e q with rate := min 800000000000 ((s.qp e q).rate + 25000000000) }))
    ∧ (∀ (s : State) (e q psn : Nat) (l : List EthPkt), instrWf (.roceRetransmit e q psn) = true → q < 16384 →
        ((s.qp e q).unacked.any fun x => x.psn == some psn) = true → l = (s.qp e q).unacked.dropWhile (fun x => x.psn != some psn) →
        ∃ u : State, exec (.roceRetransmit e q psn) s = .next (State.qpDrain e q (s.qp e q).wait.length u)
          ∧ u.qp e q = { s.qp e q with unacked := l, tx := (s.qp e q).tx ++ l }
          ∧ u.fget (R.ETH_ERR e) F.ETH_ERR_RETX =
              min (s.fget (R.ETH_ERR e) F.ETH_ERR_RETX + l.length) (2 ^ F.ETH_ERR_RETX.w - 1)
          ∧ u = { s with regs := u.regs, qps := u.qps, bw := u.bw } ∧ SameRegs s u [regKey (R.ETH_ERR e) F.ETH_ERR_RETX])
    ∧ (∀ (s : State) (rp a : Nat) (wr : Bool) (l : List Nat), instrWf (.pcieInbound rp wr a l) = true →
        ∃ u : State, exec (.pcieInbound rp wr a l) s = .next u
          ∧ (∀ c, wr = true → Config.msiTarget rp a = some c →
              u = { s with msis := s.msis ++ [(c, packCodes 8 l)] }.answer .ok 0)
          ∧ ((wr = false ∨ Config.msiTarget rp a = none) →
              (Config.iommu rp (Map.get [] s.pcieCfg rp) wr a = none → u = s.answer .accessFault 0)
              ∧ ∀ b, Config.iommu rp (Map.get [] s.pcieCfg rp) wr a = some b →
                  (s.workGoes (rootUnit rp) (fun _ => true) (fun s => s.rootAccess rp wr b l) = true →
                    u = s.workDone (rootUnit rp) (fun _ => true) fun s => s.rootAccess rp wr b l)
                  ∧ (∀ n t, wr = true → (s.workTry (rootUnit rp) id).store (Reach.pcie rp) b l.length (packCodes 8 l) = (.ok n, t) →
                      s.workTry (rootUnit rp) (fun s => s.rootAccess rp wr b l) = t.answer .ok 0)
                  ∧ ∀ v t, wr = false → (s.workTry (rootUnit rp) id).load (Reach.pcie rp) b l.length = (.ok v, t) →
                      s.workTry (rootUnit rp) (fun s => s.rootAccess rp wr b l) = t.answer .ok v))

/-! ### The intake engine (R365 to R386) -/

/-- Shard reads (R366 to R368): the next read goes to the lowest free buffer as a command on its I/O queue, and moves on in its shard or to
the next; a good completion whose bytes have been stored fills its buffer; a failed read and a timeout are retried up to three times, and
then the shard is abandoned for its pass and counted. Batches and the enable of a stream (R380, R381, R383, R384, R386): a full batch whose
manifest has been stored closes and the next opens; a closed batch becomes READY in its turn; a write of INK_Sn_CTRL stores its fields, of a
stream that runs LOW_WATER alone; a stream that is enabled starts at its cursor, and one that is disabled drops its reads and samples. What
reads or writes memory is stated where it waits for nothing.
Completes (exec answers a next state): SHARD_READ_ISSUE, NVME_COMPLETION, SHARD_READ_TIMEOUT, BATCH_CLOSE, BATCH_READY, STREAM_EN_WRITE.
Where the rules leave a point open or to inference, the clause is the model's choice: log entries 8, 41, 63 and 111. -/
def Obligations.ShardsAndBatches : Prop :=
  (∀ (s s1 s2 : State) (p i : Nat) (e w : List Nat), instrWf (.shardReadIssue p) = true → s.inkOn p = true →
      (s.workTry (inkUnit p) id).shardEntry p (s.stream p).rshard = (some e, s1) → s1.nvqEntry p e = (some w, s2) →
      (s2.stream p).freeBuf = some i → s2.nvqTakes (shardNvq e) w = true → (lbaBytes (bits (e.getD 0 0) 54 4)).isSome = true →
      s.workGoes (inkUnit p) (fun _ => true) (fun s => s.readNext p) = true →
      exec (.shardReadIssue p) s = .next (s.workDone (inkUnit p) (fun _ => true) fun s => s.readNext p)
        ∧ s.workTry (inkUnit p) (fun s => s.readNext p) = s2.readIssue p i e w)
    ∧ (∀ (s : State) (p i bl : Nat) (e w : List Nat), p < 8 → lbaBytes (bits (e.getD 0 0) 54 4) = some bl →
        ((s.readIssue p i e w).stream p).reads = (s.stream p).reads ++ [{
            tag := i, pass := (s.stream p).rpass, shard := (s.stream p).rshard, off := (s.stream p).roff, nvq := shardNvq e,
            port := nvqPort w }]
        ∧ ((s.stream p).roff + 262144 < shardLen e →
            ((s.readIssue p i e w).stream p).rshard = (s.stream p).rshard
              ∧ ((s.readIssue p i e w).stream p).roff = (s.stream p).roff + 262144)
        ∧ (shardLen e ≤ (s.stream p).roff + 262144 →
            ((s.readIssue p i e w).stream p).rshard = s.shardAfter p (s.stream p).rshard
              ∧ ((s.readIssue p i e w).stream p).rpass = s.passAfter p (s.stream p).rpass (s.stream p).rshard
              ∧ ((s.readIssue p i e w).stream p).roff = 0)
        ∧ (∀ q, q ≠ p → (s.readIssue p i e w).stream q = s.stream q)
        ∧ (∃ k ∈ ((s.readIssue p i e w).qp (nvqPort w) (bits (w.getD 0 0) 0 24 % 16384)).unacked
              ++ ((s.readIssue p i e w).qp (nvqPort w) (bits (w.getD 0 0) 0 24 % 16384)).wait,
            k.out = .nvme { op := 2, qid := bits (w.getD 0 0) 32 16, nsid := bits (e.getD 0 0) 0 32,
                            slba := e.getD 1 0 + (s.stream p).roff / bl, addr := s.readBuf p i,
                            blocks := (min 262144 (shardLen e - (s.stream p).roff) + bl - 1) / bl,
                            len := (min 262144 (shardLen e - (s.stream p).roff) + bl - 1) / bl * bl, key := bits (w.getD 1 0) 32 32 })
        ∧ SameUnits { s with streams := (s.readIssue p i e w).streams, qps := (s.readIssue p i e w).qps } (s.readIssue p i e w))
    ∧ (∀ (s : State) (p t st : Nat) (l : List Nat) (r : ShardRead), instrWf (.nvmeCompletion p t st l) = true → s.readOf p t = some r →
        s.workGoes (inkUnit p) (fun _ => true) (fun s => s.readDone p r st l) = true →
        exec (.nvmeCompletion p t st l) s = .next (s.workDone (inkUnit p) (fun _ => true) fun s => s.readDone p r st l))
    ∧ (∀ (s s1 : State) (p n : Nat) (l : List Nat) (r : ShardRead), s.linked (r.port / 4) 2 = true →
        (s.readCarry p r (l.take 262144)).store (Reach.intake p) (s.readBuf p r.tag) (min 262144 l.length) (ofWords 8 (l.take 262144)) =
          (.ok n, s1) →
        (((s.readDone p r 0 l).stream p).reads = (s1.stream p).reads.filter fun q => q.tag != r.tag)
          ∧ ((s.readDone p r 0 l).stream p).bufs = (s1.stream p).bufs ++ [{ tag := r.tag, pass := r.pass, shard := r.shard, off := r.off }]
          ∧ s.readDone p r 0 l = { s1 with streams := (s.readDone p r 0 l).streams })
    ∧ (∀ (s : State) (p t : Nat) (r : ShardRead), instrWf (.shardReadTimeout p t) = true → s.readOf p t = some r →
        s.workGoes (inkUnit p) (fun _ => true) (fun s => s.readFails p r) = true →
        exec (.shardReadTimeout p t) s = .next (s.workDone (inkUnit p) (fun _ => true) fun s => s.readFails p r))
    ∧ (∀ (s : State) (p st : Nat) (l : List Nat) (r : ShardRead), p < 8 →
        (st ≠ 0 → s.readDone p r st l = s.readFails p r)
        ∧ (r.tries < 3 →
            s.readFails p r = (s.modStream p fun x => { x with
              reads := x.reads.map fun q => if q.tag = r.tag then { q with tries := q.tries + 1 } else q }).readAgain p r)
        ∧ (3 ≤ r.tries →
            (((s.readFails p r).stream p).reads = (s.stream p).reads.filter fun q => (q.pass, q.shard) != (r.pass, r.shard))
            ∧ (s.cursorAt p ≠ (r.pass, r.shard) → ((s.readFails p r).stream p).lost = (s.stream p).lost ++ [(r.pass, r.shard)])
            ∧ (s.readFails p r).fget (R.INK_S_CNT p) F.INK_S_CNT_SHARD_FAIL =
                min (s.fget (R.INK_S_CNT p) F.INK_S_CNT_SHARD_FAIL + 1) (2 ^ F.INK_S_CNT_SHARD_FAIL.w - 1)))
    ∧ (∀ (s : State) (p : Nat) (b : OpenBatch), instrWf (.batchClose p) = true → (s.stream p).cur = some b → s.batchLen p ≤ b.filled →
        s.workGoes (inkUnit p) (fun _ => true) (fun s => s.batchCloses p b) = true →
        exec (.batchClose p) s = .next (s.workDone (inkUnit p) (fun _ => true) fun s => s.batchCloses p b))
    ∧ (∀ (s s1 : State) (p n : Nat) (b : OpenBatch),
        s.store (Reach.intake p) (s.manifestAddr p b.buf) (8 * (s.manifestWords p b).length) (ofWords 64 (s.manifestWords p b)) =
          (.ok n, s1) →
        ∃ u : State, s.batchCloses p b = u.inkFill p ∧ (u.stream p).cur = none
          ∧ (u.stream p).closed = (s1.stream p).closed ++ [(b.seq, b.buf)] ∧ (u.stream p).ready = (s1.stream p).ready
          ∧ u = { s1 with streams := u.streams })
    ∧ (∀ (s : State) (p : Nat) (b : OpenBatch), instrWf (.batchClose p) = true → (s.stream p).cur = some b → b.filled < s.batchLen p →
        exec (.batchClose p) s = .next s)
    ∧ (∀ (s : State) (p : Nat) (e : Nat × Nat) (l : List (Nat × Nat)), instrWf (.batchReady p) = true →
        (s.stream p).closed = e :: l →
        ∃ u : State, exec (.batchReady p) s = .next (u.inkShow p)
          ∧ u.stream p = { s.stream p with closed := l, ready := (s.stream p).ready ++ [e] }
          ∧ u = { s with streams := u.streams })
    ∧ (∀ (s : State) (a : Agent) (p v b : Nat) (h : Hit), instrWf (.streamEnWrite a p v) = true →
        s.entry a .inks p (R.INK_S_CTRL p) true = .reach → regPlace (R.INK_S_CTRL p) = .blk .inks p b →
        hitAt .inks p b (R.INK_S_CTRL p) = some h → s.reservedWr h none (s.regWr h (R.INK_S_CTRL p) 8 v false) = false →
        (s.fbit (R.INK_S_CTRL p) F.INK_S_CTRL_EN = true →
          ∀ f ∈ h.row.fields, f ≠ F.INK_S_CTRL_EN → f ≠ F.INK_S_CTRL_LOW_WATER → bits v f.lo f.w = s.fget (R.INK_S_CTRL p) f) →
        ∃ x y : State, Served x 0 ∧ OnlyAnswer s x (h.row.fields.map fun f => regKey (R.INK_S_CTRL p) f)
          ∧ (∀ f ∈ h.row.fields, f ≠ F.INK_S_CTRL_EN → x.fget (R.INK_S_CTRL p) f = bits v f.lo f.w)
          ∧ x.fget (R.INK_S_CTRL p) F.INK_S_CTRL_EN = s.fget (R.INK_S_CTRL p) F.INK_S_CTRL_EN
          ∧ y = (if bits v 40 8 = s.fget (R.INK_S_CTRL p) F.INK_S_CTRL_LOW_WATER then x else x.inkWater p)
          ∧ (bit v 63 = s.fbit (R.INK_S_CTRL p) F.INK_S_CTRL_EN → exec (.streamEnWrite a p v) s = .next y)
          ∧ (bit v 63 = true → s.fbit (R.INK_S_CTRL p) F.INK_S_CTRL_EN = false →
              (x.inkFormOk p = true → exec (.streamEnWrite a p v) s = .next (y.inkStart p))
              ∧ (x.inkFormOk p = false → exec (.streamEnWrite a p v) s = .next ((s.answer .ok 0).badWrite a (R.INK_S_CTRL p))))
          ∧ (bit v 63 = false → s.fbit (R.INK_S_CTRL p) F.INK_S_CTRL_EN = true →
              exec (.streamEnWrite a p v) s = .next (y.inkStop p).unitGrants))
    ∧ (∀ (s : State) (a : Agent) (p v b : Nat) (h : Hit) (f : Fld), instrWf (.streamEnWrite a p v) = true →
        s.entry a .inks p (R.INK_S_CTRL p) true = .reach → regPlace (R.INK_S_CTRL p) = .blk .inks p b →
        hitAt .inks p b (R.INK_S_CTRL p) = some h → s.reservedWr h none (s.regWr h (R.INK_S_CTRL p) 8 v false) = false →
        s.fbit (R.INK_S_CTRL p) F.INK_S_CTRL_EN = true → f ∈ h.row.fields → f ≠ F.INK_S_CTRL_EN → f ≠ F.INK_S_CTRL_LOW_WATER →
        bits v f.lo f.w ≠ s.fget (R.INK_S_CTRL p) f →
        ∃ u : State, exec (.streamEnWrite a p v) s = .next u ∧ u.rsp.kind = .regError
          ∧ u.fget (R.INK_S_CTRL p) f = s.fget (R.INK_S_CTRL p) f
          ∧ u.fbit (R.INK_S_CTRL p) F.INK_S_CTRL_EN = bit v 63)
    ∧ (∀ (s : State) (p : Nat), p < 8 →
        ∃ u : State, s.inkStart p = u.inkFill p
          ∧ u.fget (R.INK_S_CTRL p) F.INK_S_CTRL_EN = 1 ∧ u.fget (R.INK_S_STATE p) F.INK_S_STATE_ERR = 0
          ∧ (u.stream p).rshard = s.fget (R.INK_S_CURSOR p) F.INK_S_CURSOR_SHARD
          ∧ (u.stream p).rpass = s.fget (R.INK_S_CURSOR p) F.INK_S_CURSOR_PASS ∧ (u.stream p).lost = []
          ∧ (u.stream p).roff = s.fget (R.INK_S_OFFSET p) F.INK_S_OFFSET_OFFSET / 262144 * 262144
          ∧ u = { s with streams := u.streams, regs := u.regs })
    ∧ (∀ (s : State) (p : Nat), p < 8 →
        (s.inkStop p).fget (R.INK_S_CTRL p) F.INK_S_CTRL_EN = 0
          ∧ (s.inkStop p).stream p = { s.stream p with reads := [], bufs := [], lost := [], staging := [], slow := [], seek := false }
          ∧ s.inkStop p = { s with streams := (s.inkStop p).streams, regs := (s.inkStop p).regs }
          ∧ SameRegs s (s.inkStop p) [regKey (R.INK_S_CTRL p) F.INK_S_CTRL_EN])

/-- Records and samples (R365, R369, R370, R376 to R379): a good record at the cursor begins to decode with its budget and hard limit, a bad
one is counted and passed over, or the search for the next header begins; a sample that finishes, with the decoding unit that it needs, is
kept, or counted as corrupt; past its budget it takes a slow slot, or is abandoned like one past its hard limit. What reads or writes memory
is stated where it waits for nothing.
Completes (exec answers a next state): RECORD_START, SAMPLE_FINISH, SAMPLE_BUDGET, SAMPLE_HARD_LIMIT.
Where the rules leave a point open or to inference, the clause is the model's choice: log entries 8, 41, 111 and 113. -/
def Obligations.RecordsAndSamples : Prop :=
  (∀ (s s1 s2 : State) (p off : Nat) (h : RecHdr) (e ws : List Nat), instrWf (.recordStart p h) = true → s.inkOn p = true →
      (s.workTry (inkUnit p) id).shardEntry p (s.cursorAt p).2 = (some e, s1) → (s1.stream p).seek = false →
      s1.fget (R.INK_S_OFFSET p) F.INK_S_OFFSET_OFFSET = off → off + 32 ≤ shardLen e → s1.headerAt p off = (some ws, s2) →
      recHeader ws = h → s.workGoes (inkUnit p) (fun _ => true) (fun s => s.recordNext p h) = true →
      exec (.recordStart p h) s = .next (s.workDone (inkUnit p) (fun _ => true) fun s => s.recordNext p h).unitGrants
        ∧ s.workTry (inkUnit p) (fun s => s.recordNext p h) = s2.recordAt p off (shardLen e) ws)
    ∧ (∀ (s : State) (p off len : Nat) (h : RecHdr) (ws : List Nat), p < 8 → recHeader ws = h →
        (∀ i, headerCause ws (s.inkCtl p F.INK_S_CTRL_MODE) (len - (off + 32)) = 0 → h.kind ≠ 15 →
          freeSlot (s.stream p).staging (s.inkCtl p F.INK_S_CTRL_INFLIGHT) = some i →
          ∃ (u : State) (x : Sample), s.recordAt p off len ws = u.cursorTo p len (up16 (off + 32 + h.storedLen))
            ∧ (u.stream p).staging.find? i = some x ∧ x.hdr = h ∧ x.shard = (s.cursorAt p).2 ∧ x.off = off ∧ x.start = s.clk.cyc
            ∧ x.out = none
            ∧ x.budget = s.fget (R.INK_S_TIME p) F.INK_S_TIME_BUDGET_MULT * (s.stream p).meanUs
            ∧ x.hard = min (s.fget (R.INK_S_TIME p) F.INK_S_TIME_HARD_MULT * (s.stream p).meanUs)
                (s.fget (R.INK_S_TIME p) F.INK_S_TIME_HARD_MS * 1000)
            ∧ u = { s with streams := u.streams })
        ∧ (headerCause ws (s.inkCtl p F.INK_S_CTRL_MODE) (len - (off + 32)) = 0 → h.kind ≠ 15 →
            freeSlot (s.stream p).staging (s.inkCtl p F.INK_S_CTRL_INFLIGHT) = none → s.recordAt p off len ws = s)
        ∧ (headerCause ws (s.inkCtl p F.INK_S_CTRL_MODE) (len - (off + 32)) = 0 → h.kind = 15 →
            s.recordAt p off len ws = s.cursorTo p len (up16 (off + 32 + h.storedLen)))
        ∧ (headerCause ws (s.inkCtl p F.INK_S_CTRL_MODE) (len - (off + 32)) ≠ 0 →
            ∃ u : State, s.recordAt p off len ws =
                (if headerCause ws (s.inkCtl p F.INK_S_CTRL_MODE) (len - (off + 32)) = 1 then (u.cursorTo p len (off + 16)).seekOn p len
                 else u.cursorTo p len (up16 (off + 32 + h.storedLen)))
              ∧ (u.stream p).seek =
                  (if headerCause ws (s.inkCtl p F.INK_S_CTRL_MODE) (len - (off + 32)) = 1 then true else (s.stream p).seek)
              ∧ u.fget (R.INK_S_CNT p) F.INK_S_CNT_CORRUPT =
                  min (s.fget (R.INK_S_CNT p) F.INK_S_CNT_CORRUPT + 1) (2 ^ F.INK_S_CNT_CORRUPT.w - 1)
              ∧ u.fget (R.INK_S_STATE p) F.INK_S_STATE_LAST_CAUSE =
                  headerCause ws (s.inkCtl p F.INK_S_CTRL_MODE) (len - (off + 32))
              ∧ u.fget (R.INK_S_BAD p) F.INK_S_BAD_SAMPLE_ID = h.sampleId % 2 ^ F.INK_S_BAD_SAMPLE_ID.w
              ∧ u = { s with streams := u.streams, regs := u.regs }))
    ∧ (∀ (s : State) (p i : Nat) (l : List Nat) (x : Sample), instrWf (.sampleFinish p i l) = true →
        (s.stream p).sample? i = some x → x.decoding = true → l.length = x.hdr.storedLen →
        s.workGoes (inkUnit p) (fun _ => true) (fun s => s.sampleEnds p i x l) = true →
        exec (.sampleFinish p i l) s = .next (s.workDone (inkUnit p) (fun _ => true) fun s => s.sampleEnds p i x l).unitGrants)
    ∧ (∀ (s : State) (p i : Nat) (l : List Nat) (x : Sample), instrWf (.sampleFinish p i l) = true →
        (s.stream p).sample? i = some x → (x.decoding = false ∨ l.length ≠ x.hdr.storedLen) → exec (.sampleFinish p i l) s = .next s)
    ∧ (∀ (s : State) (p i : Nat) (l : List Nat) (x : Sample), p < 8 →
        ((decodeSample (s.slotForm p) x.hdr l).cause = 0 →
          ∃ u : State, s.sampleEnds p i x l = u.placeAll p
            ∧ (u.stream p).sample? i = some { x with
                out := some (decodeSample (s.slotForm p) x.hdr l).out, dims := (decodeSample (s.slotForm p) x.hdr l).dims,
                doneAt := s.clk.cyc }
            ∧ (256 ≤ i → u.regs = s.regs ∧ (u.stream p).mean = (s.stream p).mean)
            ∧ (i < 256 → (u.stream p).mean = some (((s.stream p).mean.getD 0 - (s.stream p).mean.getD 0 / 256
                + (s.clk.cyc - x.start) / 1100) % 2 ^ 40))
            ∧ u = { s with streams := u.streams, regs := u.regs }
            ∧ SameRegs s u [regKey (R.INK_S_STATE p) F.INK_S_STATE_MEAN_US])
        ∧ ((decodeSample (s.slotForm p) x.hdr l).cause ≠ 0 →
            ∃ u : State, s.sampleEnds p i x l = u ∧ (u.stream p).sample? i = none
              ∧ u.fget (R.INK_S_CNT p) F.INK_S_CNT_CORRUPT =
                  min (s.fget (R.INK_S_CNT p) F.INK_S_CNT_CORRUPT + 1) (2 ^ F.INK_S_CNT_CORRUPT.w - 1)
              ∧ u = { s with streams := u.streams, regs := u.regs }))
    ∧ (∀ (s : State) (p i k : Nat) (x : Sample), instrWf (.sampleBudget p i) = true → (s.stream p).sample? i = some x →
        x.out = none → x.budget < x.hard → freeSlot (s.stream p).slow (s.inkCtl p F.INK_S_CTRL_SLOW_SLOTS) = some k →
        ∃ u : State, exec (.sampleBudget p i) s = .next u ∧ (u.stream p).sample? i = none
          ∧ (u.stream p).sample? (256 + k) = some x
          ∧ u.fget (R.INK_S_CNT p) F.INK_S_CNT_SLOW =
              min (s.fget (R.INK_S_CNT p) F.INK_S_CNT_SLOW + 1) (2 ^ F.INK_S_CNT_SLOW.w - 1)
          ∧ u = { s with streams := u.streams, regs := u.regs } ∧ SameRegs s u [regKey (R.INK_S_CNT p) F.INK_S_CNT_SLOW])
    ∧ (∀ (s : State) (p i cause : Nat) (x : Sample) (c : Instr), instrWf c = true → (s.stream p).sample? i = some x →
        x.out = none →
        (c = .sampleHardLimit p i ∧ cause = 9
          ∨ c = .sampleBudget p i ∧ cause = 0xA ∧ x.budget < x.hard
              ∧ freeSlot (s.stream p).slow (s.inkCtl p F.INK_S_CTRL_SLOW_SLOTS) = none) →
        ∃ u : State, exec c s = .next u.unitGrants ∧ (u.stream p).sample? i = none
          ∧ u.fget (R.INK_S_CNT p) F.INK_S_CNT_TIMEOUT =
              min (s.fget (R.INK_S_CNT p) F.INK_S_CNT_TIMEOUT + 1) (2 ^ F.INK_S_CNT_TIMEOUT.w - 1)
          ∧ u.fget (R.INK_S_STATE p) F.INK_S_STATE_LAST_CAUSE = cause
          ∧ u = { s with streams := u.streams, regs := u.regs })

/-! ### The command ring and contexts (R387 to R405) -/

/-- JOB_START, JOB_END and RUN (R393, R396): a context that starts without a record takes the lowest free slot with the fields of the
command, and completes with that slot; one that ends leaves its slot, its groups and what is known of it; RUN changes STEPS_LEFT. SWAP_IN,
SWAP_OUT, READY and ABORT (R392, R396): a context enters the lowest free slot from its record, or leaves its slot and is no longer ready;
READY marks one that is swapped out; ABORT asks the step in flight to abort and sends STOT.
Completes (exec answers a next state): JOB_START, JOB_END, RUN, SWAP_IN, SWAP_OUT, READY, ABORT.
Where the rules leave a point open or to inference, the clause is the model's choice: log entry 44. -/
def Obligations.ContextCommands : Prop :=
  (∀ (s : State) (p k : Nat) (r : CmdRec), instrWf (.jobStart p r) = true → s.ringReady p = true → s.oos = false →
      wordsOk r [mask 20 55, mask 33 63, mask 0 48, mask 0 63, mask 0 63, mask 2 55] = true →
      bits r.w1 20 36 * 2 ^ 20 < 2 ^ 42 → s.ctxs.find? r.ctx = none → s.herdsOf p ≠ 0 → bit r.w2 33 = false →
      bit r.w2 35 = true → s.freeSlot p = some k →
      ∃ u : State, exec (.jobStart p r) s = .next (u.complete p 0x01 r 0 k)
        ∧ u.slot? p k = some (jobSlot r (r.w4 + 2 ^ 64 * r.w5))
        ∧ (∃ c, u.ctxs.find? r.ctx = some c ∧ c.part = p ∧ c.slot = some k ∧ c.ready = false ∧ c.job = bits r.w2 48 16)
        ∧ u = { s with parts := u.parts, ctxs := u.ctxs } ∧ OnlySlot { s with ctxs := u.ctxs } u p k)
    ∧ (∀ (s : State) (p : Nat) (r : CmdRec) (c : Ctx), instrWf (.jobEnd p r) = true → s.ringReady p = true → s.oos = false →
        wordsOk r [] = true → s.ctxs.find? r.ctx = some c → c.part = p → s.inFlight p r.ctx = false →
        s.locked p r.ctx = false → (s.part p).sw = none →
        ∃ u : State, exec (.jobEnd p r) s = .next (u.complete p 0x02 r 0 0) ∧ u.ctxs = s.ctxs.erase r.ctx
          ∧ (∀ k x, s.resident p r.ctx = some (k, x) → u.slot? p k = none
              ∧ (u.part p).run = (if (s.part p).run = some k then none else (s.part p).run))
          ∧ (s.resident p r.ctx = none → u = { s with ctxs := u.ctxs, groups := u.groups })
          ∧ (∀ g, Map.get [] u.groups g = (Map.get [] s.groups g).erase r.ctx) ∧ u.tiles = s.tiles ∧ u.clk = s.clk)
    ∧ (∀ (s : State) (p : Nat) (r : CmdRec) (c : Ctx), instrWf (.run p r) = true → s.ringReady p = true → s.oos = false →
        wordsOk r [mask 0 31] = true → s.ctxs.find? r.ctx = some c → c.part = p →
        (∀ k x, s.resident p r.ctx = some (k, x) →
          ∃ u : State, exec (.run p r) s = .next (u.complete p 0x03 r 0 0)
            ∧ u.slot? p k = some { x with stepsLeft := runSteps (r.w1 % 2 ^ 32) x.stepsLeft } ∧ OnlySlot s u p k)
        ∧ (s.resident p r.ctx = none →
            exec (.run p r) s = .next ((s.recordSteps r.ctx (runSteps (r.w1 % 2 ^ 32))).complete p 0x03 r 0 0)))
    ∧ (∀ (s s1 : State) (p k : Nat) (r : CmdRec) (c : Ctx), instrWf (.swapIn p r) = true → s.ringReady p = true → s.oos = false →
      wordsOk r [] = true → s.ctxs.find? r.ctx = some c → c.part = p → s.resident p r.ctx = none → s.freeSlot p = some k →
      s.enterSlot p k r.ctx = (0, s1) →
      exec (.swapIn p r) s = .next (s1.complete p 0x04 r 0 0) ∧ (∃ x, s1.slot? p k = some x ∧ x.ctx = r.ctx)
        ∧ (s1.ctx r.ctx).slot = some k)
    ∧ (∀ (s : State) (p k : Nat) (r : CmdRec) (c : Ctx) (x : Slot), instrWf (.swapOut p r) = true → s.ringReady p = true →
        s.oos = false → wordsOk r [] = true → s.ctxs.find? r.ctx = some c → c.part = p → s.resident p r.ctx = some (k, x) →
        x.step.live = false → s.locked p r.ctx = false → s.busySlot p k = false →
        ∃ u : State, exec (.swapOut p r) s = .next (u.complete p 0x05 r 0 0) ∧ u.slot? p k = none
          ∧ (u.ctx r.ctx).slot = none ∧ (u.ctx r.ctx).ready = false
          ∧ (u.ctx r.ctx).kept = some { x with deferred := none, ran := 0, blockedTicks := 0 }
          ∧ SameUnits { s with parts := u.parts, ctxs := u.ctxs, pgSeen := u.pgSeen } u)
    ∧ (∀ (s : State) (p : Nat) (r : CmdRec) (c : Ctx), instrWf (.ready p r) = true → s.ringReady p = true → s.oos = false →
        wordsOk r [mask 0 0] = true → s.ctxs.find? r.ctx = some c → c.part = p → s.resident p r.ctx = none →
        ∃ u : State, exec (.ready p r) s = .next (u.complete p 0x06 r 0 0)
          ∧ u.ctxs.find? r.ctx = some { c with
              ready := bit r.w1 0, readySince := if bit r.w1 0 ∧ c.ready = false then s.tick else c.readySince }
          ∧ u = { s with ctxs := u.ctxs } ∧ ∀ d, d ≠ r.ctx → u.ctxs.find? d = s.ctxs.find? d)
    ∧ (∀ (s : State) (p k : Nat) (r : CmdRec) (c : Ctx) (x : Slot), instrWf (.abort p r) = true → s.ringReady p = true →
        s.oos = false → wordsOk r [] = true → s.ctxs.find? r.ctx = some c → c.part = p → s.resident p r.ctx = some (k, x) →
        s.slot? p k = some x → x.step.live = true →
        ∃ u : State, exec (.abort p r) s = .next (u.complete p 0x07 r 0 0)
          ∧ u.slot? p k = some { x with
              step := { x.step with abort := some (x.step.abort.getD { origin := s.tick }) } }
          ∧ u.ethStot = s.ethStot ++ [stotSlot 0 x.job s.pkgId 0xFFFF s.tick]
          ∧ u = { s with parts := u.parts, ports := u.ports, bw := u.bw, ethStot := u.ethStot, stotSeen := u.stotSeen, qps := u.qps })

/-- PART_SET, PART_SET_APPLY and GROUP_SET (R388, R404): the new herds of a partition without contexts wait for the boundary; there they
take effect, the herds that join or leave are to be reset and the semaphores are 0; a group takes its members, and its semaphores are 0.
Completes (exec answers a next state): PART_SET, PART_SET_APPLY, GROUP_SET.
Where the rules leave a point open or to inference, the clause is the model's choice: log entries 42 and 46. -/
def Obligations.PartitionsAndGroups : Prop :=
  (∀ (s : State) (p : Nat) (r : CmdRec), instrWf (.partSet p r) = true → s.ringReady p = true → s.oos = false →
      wordsOk r [mask 0 15] = true → r.ctx = 0 → (∀ e ∈ s.ctxs, e.2.part ≠ p) → s.herdTaken p (r.w1 % 65536) = false →
      ∃ u : State, exec (.partSet p r) s = .next (u.complete p 0x10 r 0 0)
        ∧ u.part p = { s.part p with partSet := some (r.w1 % 65536) } ∧ (∀ q, q ≠ p → u.part q = s.part q)
        ∧ u = { s with parts := u.parts })
    ∧ (∀ (s : State) (p n : Nat), instrWf (.partSetApply p) = true → (s.part p).partSet = some n → s.atBoundary 8 = true →
        ∃ u : State, exec (.partSetApply p) s = .next u ∧ u.herdsOf p = n % 65536
          ∧ u.part p = { s.part p with partSet := none, sems := [], sigs := [] } ∧ (∀ q, q ≠ p → u.part q = s.part q)
          ∧ (∀ h, h < 16 → bit (s.herdsOf p ^^^ n) h = true → (2, h) ∈ u.resetsDue)
          ∧ u = { s with parts := u.parts, regs := u.regs, resetsDue := u.resetsDue }
          ∧ SameRegs s u [regKey (R.SCH_PART p) F.SCH_PART_HERDS])
    ∧ (∀ (s : State) (p : Nat) (r : CmdRec), instrWf (.groupSet p r) = true → s.ringReady p = true → s.oos = false →
        wordsOk r [mask 0 2 ||| mask 8 11, mask 0 63] = true → r.ctx = 0 → bits r.w1 8 4 ≤ 8 → r.w2 < 2 ^ (8 * bits r.w1 8 4) →
        (∀ c ∈ groupIds r, (s.ctxs.find? c).isSome = true) →
        (∀ c ∈ groupIds r ++ Map.get [] s.groups (r.w1 % 8), s.ctxBusy c = false) →
        (∀ e ∈ s.groups, e.1 ≠ r.w1 % 8 → ∀ c ∈ e.2, c ∉ groupIds r) →
        ∃ u : State, exec (.groupSet p r) s = .next (u.complete p 0x11 r 0 0)
          ∧ Map.get [] u.groups (r.w1 % 8) = groupIds r
          ∧ (∀ n, n ≠ r.w1 % 8 → Map.get [] u.groups n = Map.get [] s.groups n)
          ∧ (∀ n, n < 32 → u.gsems.find? (32 * (r.w1 % 8) + n) = none) ∧ u = { s with groups := u.groups, gsems := u.gsems })

/-- Switches of the running context (R400, R401, R403): one whose slice is over leaves for the next runnable slot unless it holds a lock,
which defers it and is counted; an idle partition restores the first runnable slot; a save and a restore end; the incoming context runs,
and the switch is counted; a lock held eight boundaries too long is a fault of its job. While the step scheduler is fenced a switch stays
where it is (R47).
Completes (exec answers a next state): CONTEXT_SWITCH, CONTEXT_SAVE_DONE, CONTEXT_RESTORE_DONE, CONTEXT_START, LOCK_DEFER_EXPIRY.
Where the rules leave a point open or to inference, the clause is the model's choice: log entry 43. -/
def Obligations.ContextSwitches : Prop :=
  (∀ (s : State) (p r k : Nat) (x : Slot), instrWf (.contextSwitch p) = true → s.atBoundary 7 = true → (s.part p).sw = none →
      s.fenced 5 0 = false → (s.part p).run = some r → s.slot? p r = some x → s.sliceOver p x = true → s.nextRunnable p r = some k →
      ∃ u : State, exec (.contextSwitch p) s = .next u ∧ u.clk = { s.clk with phase := 7 }
        ∧ (s.lockOf p x.ctx = none → (u.part p).sw = some { src := some r, dst := some k } ∧ (u.part p).run = some r
            ∧ u.slot? p r = some { x with deferred := none } ∧ u = { s with clk := u.clk, parts := u.parts })
        ∧ (s.lockOf p x.ctx ≠ none → x.deferred = none → (u.part p).sw = none
            ∧ u.slot? p r = some { x with deferred := some s.tick }
            ∧ u.fget (R.SCH_SW_STAT p) F.SCH_SW_STAT_LOCK_DEFER =
                min (s.fget (R.SCH_SW_STAT p) F.SCH_SW_STAT_LOCK_DEFER + 1) (2 ^ F.SCH_SW_STAT_LOCK_DEFER.w - 1)))
    ∧ (∀ (s : State) (p k : Nat), instrWf (.contextSwitch p) = true → s.atBoundary 7 = true → (s.part p).sw = none →
        s.fenced 5 0 = false → (s.part p).run = none → s.readyCtx p = none → firstUpTo 4 (fun j => s.runnable p j) = some k →
        ∃ u : State, exec (.contextSwitch p) s = .next u
          ∧ u.part p = { s.part p with sw := some { src := none, dst := some k, phase := 1 } }
          ∧ u = { s with clk := u.clk, parts := u.parts })
    ∧ (∀ (s : State) (p r : Nat) (x : Slot) (w : Switch), instrWf (.contextSaveDone p) = true → (s.part p).sw = some w →
        w.src = some r → s.slot? p r = some x → w.phase = 0 → w.swapIn = none → s.tilesIdle p = true →
        s.fenced 5 0 = false →
        ∃ u : State, exec (.contextSaveDone p) s = .next u ∧ (u.part p).run = none
          ∧ (u.part p).sw = some { w with phase := 1 } ∧ (u.ctx x.ctx).herds = some ((s.herdList p).map s.herdState)
          ∧ u.tiles = s.tiles ∧ u.herds = s.herds ∧ u.cores = s.cores ∧ u.clk = s.clk)
    ∧ (∀ (s : State) (p k : Nat) (x : Slot) (w : Switch), instrWf (.contextRestoreDone p) = true → (s.part p).sw = some w →
        w.dst = some k → s.slot? p k = some x → w.phase = 1 → s.fenced 5 0 = false →
        ∃ u : State, exec (.contextRestoreDone p) s = .next u ∧ (u.part p).sw = some { w with phase := 2 }
          ∧ (u.part p).slots = (s.part p).slots ∧ u.clk = s.clk
          ∧ ((s.ctx x.ctx).herds = none → ∀ h ∈ s.herdList p,
              (u.herd h).mem = [] ∧ (u.herd h).tasks = [] ∧ u.core (2 * h) = startCore x.entry h 0 0
                ∧ u.core (2 * h + 1) = startCore x.entry h 1 0))
    ∧ (∀ (s : State) (p k : Nat) (x : Slot) (w : Switch), instrWf (.contextStart p) = true → (s.part p).sw = some w →
        w.dst = some k → w.phase = 2 → s.atBoundary 7 = true → s.slot? p k = some x → s.fenced 5 0 = false →
        ∃ u : State, exec (.contextStart p) s = .next u ∧ (u.part p).run = some k ∧ (u.part p).sw = none
          ∧ u.slot? p k = some { x with ran := 0 }
          ∧ u.fget (R.SCH_SW_STAT p) F.SCH_SW_STAT_SWITCHES =
              min (s.fget (R.SCH_SW_STAT p) F.SCH_SW_STAT_SWITCHES + 1) (2 ^ F.SCH_SW_STAT_SWITCHES.w - 1)
          ∧ u = { s with clk := u.clk, parts := u.parts, regs := u.regs }
          ∧ SameRegs s u [regKey (R.SCH_SW_STAT p) F.SCH_SW_STAT_SWITCHES])
    ∧ (∀ (s : State) (p : Nat) (c : Instr), c = .contextSwitch p ∨ c = .contextSaveDone p ∨ c = .contextRestoreDone p
        ∨ c = .contextStart p → s.fenced 5 0 = true → exec c s = .next s)
    ∧ (∀ (s : State) (p k d n : Nat) (x : Slot), instrWf (.lockDeferExpiry p k) = true → s.slot? p k = some x →
        x.deferred = some d → s.lockOf p x.ctx = some n → d + 8 ≤ s.tick →
        ∃ u : State, exec (.lockDeferExpiry p k) s =
            .next (u.event (R.SCH_SW_STAT p) (some F.SCH_SW_STAT_GROUP_FAULTS) [x.ctx, n])
          ∧ u.slot? p k = some { x with deferred := none }
          ∧ u.jobFaults = s.jobFaults ++ (s.lockPeers x.ctx).map (fun c =>
              { unit := (s.ctx c).part, kind := 0xA, cause := 0x12, arg := n, ctx := c, job := (s.ctx c).job, part := (s.ctx c).part })
          ∧ u.fget (R.SCH_SW_STAT p) F.SCH_SW_STAT_GROUP_FAULTS =
              min (s.fget (R.SCH_SW_STAT p) F.SCH_SW_STAT_GROUP_FAULTS + 1) (2 ^ F.SCH_SW_STAT_GROUP_FAULTS.w - 1)
          ∧ u = { s with parts := u.parts, jobFaults := u.jobFaults, regs := u.regs })

/-! ### Faults, reset domains and out of service (R406 to R419) -/

/-- A fault attributed to a job and a request for a reset (R406, R408, R410): the fault is logged in the words of R408 and counted, the
steps in flight stop, records are written, and package compute is to be reset; FLT_RESET makes the reset of a domain due, the package's
from management access only. Tile sparing and the end of out of service (R416, R419): a tile that is to fail holds no segment any more, is
fenced and recorded; FLT_OOS is cleared from management access where it may be, and the package-compute fence goes with it.
Completes (exec answers a next state): JOB_FAULT, FLT_RESET, TILE_FAIL, OOS_CLEAR.
Where the rules leave a point open or to inference, the clause is the model's choice: log entry 48. -/
def Obligations.FaultsSparingAndService : Prop :=
  (∀ (s : State) (f : JobFault) (l : List JobFault), s.jobFaults = f :: l →
      ∃ u v : State, exec .jobFault s = .next v
        ∧ v = (((u.event R.FLT_CTL none [f.ctx, f.cause]).eachSlot fun p k s => s.faultStep p k).eachSlot
            fun p k s => s.faultRecord p k).resetDue 5 0
        ∧ (5, 0) ∈ v.resetsDue ∧ u.jobFaults = l
        ∧ (∀ w, w < 4 → u.fget (R.FLT_LOG (s.fget R.FLT_LOG_PTR F.FLT_LOG_PTR_NEXT % 64) w) F.FLT_LOG_WORD =
            (f.entry.words s.tick).getD w 0)
        ∧ u.fget (R.LIF_CNT 10) F.LIF_CNT_VALUE = min (s.fget (R.LIF_CNT 10) F.LIF_CNT_VALUE + 1) (2 ^ F.LIF_CNT_VALUE.w - 1)
        ∧ u = { s with jobFaults := u.jobFaults, regs := u.regs })
    ∧ (∀ (s : State) (a : Agent) (v : Nat), instrWf (.fltReset a v) = true → s.entry a .flt 0 R.FLT_RESET true = .reach →
        ∃ u : State, exec (.fltReset a v) s = .next u
          ∧ (s.domainOk (bits v 60 4) (bits v 0 8) = true → (bits v 60 4 ≠ 6 ∨ isMgmt a = true) →
              Served u 0 ∧ (bits v 60 4, bits v 0 8) ∈ u.resetsDue ∧ (bits v 60 4 = 6 → u.pwr.reason = 2)
              ∧ (∀ e ∈ s.resetsDue, e ∈ u.resetsDue) ∧ u = { s with rsp := u.rsp, resetsDue := u.resetsDue, pwr := u.pwr })
          ∧ ((s.domainOk (bits v 60 4) (bits v 0 8) = false ∨ (bits v 60 4 = 6 ∧ isMgmt a = false)) →
              u.rsp.kind = .regError ∧ u.resetsDue = s.resetsDue))
    ∧ (∀ (s : State) (h ph i : Nat), instrWf (.tileFail h ph) = true → logicalOf (Map.get 0 s.sparing h) ph = some i →
      (s.tile (12 * h + i)).failed = false → s.tileFailDue (12 * h + i) = true →
      ∃ u : State, exec (.tileFail h ph) s =
          .next (((u.event (R.FLT_HERD h) (some F.FLT_HERD_FAILED) []).lifeAdd 29 1).lifeTouch 2)
        ∧ (u.tile (12 * h + i)).failed = true ∧ (u.tile (12 * h + i)).run = none ∧ (u.tile (12 * h + i)).queue = []
        ∧ bit (u.fget (R.FLT_HERD h) F.FLT_HERD_FAILED) ph = true
        ∧ (∀ t, t ≠ 12 * h + i → (u.tile t).run = (s.tile t).run) ∧ u.mem = s.mem ∧ u.clk = s.clk)
    ∧ (∀ (s : State) (a : Agent) (v : Nat), instrWf (.oosClear a v) = true → s.entry a .flt 0 R.FLT_OOS true = .reach →
        ∃ u : State, exec (.oosClear a v) s = .next u
          ∧ (v % 2 = 1 → isMgmt a = true → s.fbit R.FLT_STATUS F.FLT_STATUS_OOS_CLEARABLE = true →
              Served u 0 ∧ u.oos = false ∧ u.fget R.FLT_STATUS F.FLT_STATUS_OOS_CLEARABLE = 0 ∧ u.escTimes = []
              ∧ (∀ d ∈ u.doms, d.code ≠ 5)
              ∧ u = { s with rsp := u.rsp, regs := u.regs, doms := u.doms, escTimes := u.escTimes, lifeDue := u.lifeDue })
          ∧ (v % 2 = 1 → (isMgmt a = false ∨ s.fbit R.FLT_STATUS F.FLT_STATUS_OOS_CLEARABLE = false) →
              u.rsp.kind = .regError ∧ u.oos = s.oos ∧ u.doms = s.doms)
          ∧ (v % 2 = 0 → u = s.answer .ok 0))

/-- A reset domain on its way (R29, R132, R410 to R412, R415, R418): the fence stops its tiles, with the gangs that they belong to, and absorbs
what lies within it; where the link between the dies has no module left, both die fabrics are fenced together; the drain ends in the
reset, which leaves tiles, herds and contexts as at reset; the end of the reset is counted, and the last package-compute reset of
ESC_COUNT within the window leaves the package out of service; the release restarts its control cores at ENTRY.
Completes (exec answers a next state): FENCE, DRAIN_END, RESET_END, DOMAIN_RELEASE.
Where the rules leave a point open or to inference, the clause is the model's choice: log entry 49. -/
def Obligations.ResetDomains : Prop :=
  (∀ (s : State) (code n : Nat), instrWf (.fence code n) = true → s.resetsDue.contains (code, n) = true →
      State.absorbed { s with resetsDue := s.resetsDue.erase (code, n) } code n = false → s.fenceTwin code n = false →
      ∃ u : State, exec (.fence code n) s = .next u ∧ u.inPhase code n 1 = true
        ∧ (∀ t ∈ tilesIn code n, (u.tile t).run = none)
        ∧ (∀ t r m, (s.tile t).run = some r → m ∈ r.members → m ∈ tilesIn code n → t / 12 = m / 12 → (u.tile t).run = none)
        ∧ (∀ t, t ∉ tilesIn code n → (∀ r, (s.tile t).run = some r → ∀ m ∈ r.members, m ∉ tilesIn code n) →
            (u.tile t).run = (s.tile t).run)
        ∧ (∀ e ∈ u.resetsDue, contains code n e.1 e.2 = false) ∧ (s.migs = [] → u.mem = s.mem) ∧ u.clk = s.clk)
    ∧ (∀ (s : State) (n : Nat), n < 2 → s.ucieLost 2 = true → s.doms = [] → s.resetsDue = [(4, n), (4, 1 - n)] →
        ∃ u : State, exec (.fence 4 n) s = .next u ∧ u.inPhase 4 0 1 = true ∧ u.inPhase 4 1 1 = true ∧ u.resetsDue = []
          ∧ (∀ t, t < 192 → (u.tile t).run = none))
    ∧ (∀ (s : State) (code n : Nat), instrWf (.drainEnd code n) = true → s.inPhase code n 1 = true → s.pwr.trip = false →
        ∃ u : State, exec (.drainEnd code n) s = .next u ∧ u = (s.beginReset code n).domPhase code n 2
          ∧ (code ≠ 4 → u.inPhase code n 2 = true)
          ∧ (code = 1 →
              u.tile n = { failed := (s.tile n).failed, hangs := (s.tile n).hangs, cycBase := s.clk.cyc }
              ∧ (∀ t, t ≠ n → u.tile t = s.tile t)
              ∧ (∀ (off : Nat) (f : Fld), B.til n ≤ off → off + 8 ≤ B.til n + 0x100000 → f.lo < 64 → u.fget off f = f.rst))
          ∧ (code = 2 → n < 16 → u.herd n = {} ∧ u.core (2 * n) = {} ∧ u.core (2 * n + 1) = {})
          ∧ (code = 5 → (∀ p k, u.slot? p k = none) ∧ u.ctxs = [] ∧ u.gsems = [])
          ∧ (code = 6 → u.tiles = [] ∧ u.parts = [] ∧ u.flash = s.flash ∧ u.fuses = s.fuses))
    ∧ (∀ (s : State) (code n : Nat), instrWf (.resetEnd code n) = true → s.inPhase code n 2 = true → 1 ≤ code → code ≤ 5 →
        ∃ u : State, exec (.resetEnd code n) s = .next u ∧ u.inPhase code n 3 = true
          ∧ u.fget R.FLT_RSTCNT (rstField code) = min (s.fget R.FLT_RSTCNT (rstField code) + 1) (2 ^ (rstField code).w - 1)
          ∧ (code ≤ 3 → u.oos = s.oos)
          ∧ (code = 5 → s.oos = false →
              u.escTimes = (s.escTimes.filter fun t =>
                decide (s.clk.tb < t + s.fget R.FLT_CTL F.FLT_CTL_ESC_WINDOW_S * 1100000000)) ++ [s.clk.tb]
              ∧ u.oos = decide (s.fget R.FLT_CTL F.FLT_CTL_ESC_COUNT ≤ u.escTimes.length)
              ∧ (u.oos = true → u.epoch = 0))
          ∧ u.tiles = s.tiles ∧ u.mem = s.mem ∧ u.parts = s.parts)
    ∧ (∀ (s : State) (code n : Nat), instrWf (.domainRelease code n) = true → s.clk.phase < 9 → s.mayRelease code n = true →
        ∃ u : State, exec (.domainRelease code n) s = .next u
          ∧ u.doms = s.doms.filter (fun (d : Dom) => !(d.code == code && d.unit == n))
          ∧ (∀ h ∈ herdsIn code n, ∀ e, s.ctxOfHerd h = some e →
              u.core (2 * h) = startCore e.2.entry h 0 code ∧ u.core (2 * h + 1) = startCore e.2.entry h 1 code)
          ∧ (∀ c, c / 2 ∉ herdsIn code n → u.core c = s.core c)
          ∧ u = { s with doms := u.doms, regs := u.regs, cores := u.cores }
          ∧ SameRegs s u [regKey R.FLT_STATUS F.FLT_STATUS_RESET_ACTIVE])

/-! ### Snapshots (R424 to R437) -/

/-- A snapshot from its request to its anchor (R428, R431, R432, R437): SNAPSHOT makes one due, or due after the one in progress; it is
captured with G pinned and its pieces staged; staging ends; its chunks are read and written in capture order, G is unpinned and the
manifest follows; its anchor completes it, which is counted and starts the age again; SNAP_CANCEL ends one that is due. Bytes go to a buddy
as a store through its window, or leave as NVMe commands (R361, R433). What reads or writes memory is stated where it waits for nothing.
Completes (exec answers a next state): SNAPSHOT, SNAPSHOT_CAPTURE, SNAPSHOT_STAGING_DONE, SNAPSHOT_READ_DONE, SNAPSHOT_ANCHOR,
SNAP_CANCEL.
Where the rules leave a point open or to inference, the clause is the model's choice: log entries 62, 63 and 111. -/
def Obligations.Snapshots : Prop :=
  (∀ (s : State) (p k : Nat) (r : CmdRec) (c : Ctx) (x : Slot), instrWf (.snapshot p r) = true → s.ringReady p = true →
      s.oos = false → wordsOk r [mask 0 0, mask 0 47] = true → s.ctxs.find? r.ctx = some c → c.part = p → s.snapOn = true →
      s.resident p r.ctx = some (k, x) → x.fget R.SCH_SNAP_CTL F.SCH_SNAP_CTL_COUNT ≠ 0 → x.snap.phase ≠ 1 → x.snapNext = none →
      ∃ (u : State) (y : Slot), exec (.snapshot p r) s = .next (u.complete p 0x30 r 0 0) ∧ u.slot? p k = some y
        ∧ (x.snap.phase = 0 → y.snap = { phase := 1, atStep := if bit r.w1 0 then some (bits r.w2 0 48) else none }
            ∧ y.fget R.SCH_SNAP_STAT F.SCH_SNAP_STAT_OUTCOME = 1)
        ∧ (x.snap.phase ≠ 0 → y = { x with snapNext := some (if bit r.w1 0 then some (bits r.w2 0 48) else none) })
        ∧ OnlySlot s u p k)
    ∧ (∀ (s : State) (p k : Nat) (x : Slot), instrWf (.snapshotCapture p k) = true → s.slot? p k = some x → s.atBoundary 8 = true →
        x.snap.phase = 1 → x.snap.committed = true → x.pass = 0 → before x.decidedAt s.tick = true →
        s.workGoes (snapUnit p) (fun _ => true) (fun s => s.capture p k x) = true →
        exec (.snapshotCapture p k) s = .next (s.workDone (snapUnit p) (fun _ => true) fun s => s.capture p k x))
    ∧ (∀ (s s1 : State) (p k : Nat) (x : Slot) (ps : List Piece) (w : List Nat), p < 8 → k < 4 →
        s.snapPlan p x = (.ok (ps, w), s1) → x.fget R.SCH_VER (pinFld x.gen) < 255 →
        ∃ (u : State) (y : Slot), s.capture p k x =
              (match accessAll ps (fun q s => State.stagePiece p x q s) u with
              | (.ok _, s3) => s3
              | (e, s3) => s3.snapFail p k (ldStatus e))
          ∧ u.slot? p k = some y ∧ y.snap.phase = 2 ∧ y.snap.step = x.nextStep ∧ y.snap.pieces = ps ∧ y.snap.tgt = w
          ∧ y.snap.gen = x.gen ∧ y.snap.bank = x.snapBank
          ∧ y.fget R.SCH_VER (pinFld x.gen) = x.fget R.SCH_VER (pinFld x.gen) + 1
          ∧ y.fget R.SCH_SNAP_STAT F.SCH_SNAP_STAT_OUTCOME = 2 ∧ u.snapQ = s1.snapQ ++ [x.ctx]
          ∧ u = { s1 with parts := u.parts, snapQ := u.snapQ })
    ∧ (∀ (s s1 : State) (p k n : Nat) (x : Slot), s.snapPlan p x = (.error n, s1) → s.capture p k x = s1.snapFail p k n)
    ∧ (∀ (s : State) (p k : Nat) (x : Slot), instrWf (.snapshotStagingDone p k) = true → s.slot? p k = some x →
        x.snap.phase = 2 →
        ∃ u : State, exec (.snapshotStagingDone p k) s = .next u
          ∧ u.slot? p k = some { x with snap := { x.snap with phase := 3 } } ∧ OnlySlot s u p k)
    ∧ (∀ (s : State) (p k : Nat) (x : Slot), instrWf (.snapshotReadDone p k) = true → s.slot? p k = some x → x.snap.phase = 3 →
        s.snapQ.head? = some x.ctx → s.workGoes (snapUnit p) (fun _ => true) (fun s => s.snapRead p k x) = true →
        exec (.snapshotReadDone p k) s = .next (s.workDone (snapUnit p) (fun _ => true) fun s => s.snapRead p k x))
    ∧ (∀ (s s1 : State) (p k : Nat) (x : Slot) (ds : List Nat), p < 8 → k < 4 → (x.snap.sign = true → s.idKey.isSome = true) →
        s.snapDigests x.snap = (.ok ds, s1) →
        ∃ (u : State) (y : Slot), u.slot? p k = some y ∧ y = { x.unpin x.snap.gen with snap := { x.snap with phase := 4, digests := ds } }
          ∧ u = { s1 with parts := u.parts }
          ∧ ∀ n m v w, (u.inkFill p).snapPut x.snap (0x100000 * (ds.length + 1)) (tgtStage x.snap.tgt)
                (manifestBytes x.snap.pieces x.snap.sign) (y.snapManifest p (s.idKey.getD 0)) = (.ok n, v) →
              v.snapFlush x.snap = (.ok m, w) → s.snapRead p k x = w)
    ∧ (∀ (s s1 : State) (p k n : Nat) (x : Slot),
        (x.snap.sign = true → s.idKey = none → s.snapRead p k x = s.snapFail p k 7)
        ∧ ((x.snap.sign = true → s.idKey.isSome = true) → s.snapDigests x.snap = (.error n, s1) →
            s.snapRead p k x = s1.snapFail p k n))
    ∧ (∀ (s : State) (p k : Nat) (x : Slot), instrWf (.snapshotAnchor p k) = true → s.slot? p k = some x → x.snap.phase = 4 →
        s.unitAsks (snapUnit p) = false → (x.snap.sign = true → s.idKey.isSome = true) →
        s.workGoes (snapUnit p) (fun _ => true) (fun s => s.snapAnchors p k x) = true →
        exec (.snapshotAnchor p k) s = .next (s.workDone (snapUnit p) (fun _ => true) fun s => s.snapAnchors p k x))
    ∧ (∀ (s v w : State) (p k n m : Nat) (x : Slot), p < 8 → k < 4 →
        s.snapPut x.snap 0 (tgtStage x.snap.tgt) 4096 (ofWords 64 (x.snapAnchor p (x.snapManifest p (s.idKey.getD 0)))) = (.ok n, v) →
        v.snapFlush x.snap = (.ok m, w) →
        ∃ (u : State) (y : Slot), s.snapAnchors p k x = u ∧ u.slot? p k = some y
          ∧ y.fget R.SCH_SNAP_STAT F.SCH_SNAP_STAT_LAST_STEP = x.snap.step % 2 ^ F.SCH_SNAP_STAT_LAST_STEP.w
          ∧ y.fget R.SCH_SNAP_STAT F.SCH_SNAP_STAT_BANK = x.snap.bank % 2 ^ F.SCH_SNAP_STAT_BANK.w
          ∧ (x.snapNext = none → y.snap.phase = 0 ∧ y.fget R.SCH_SNAP_STAT F.SCH_SNAP_STAT_OUTCOME = 3)
          ∧ u.fget R.SNAP_STAT F.SNAP_STAT_COMPLETED =
              min (w.fget R.SNAP_STAT F.SNAP_STAT_COMPLETED + 1) (2 ^ F.SNAP_STAT_COMPLETED.w - 1)
          ∧ u.fget R.HLT_AGE F.HLT_AGE_TICKS = 0 ∧ u.snapQ = w.snapQ.erase x.ctx
          ∧ u = { w with parts := u.parts, snapQ := u.snapQ, regs := u.regs })
    ∧ (∀ (s : State) (g : SnapSt) (off src n v : Nat),
        (bits (g.tgt.getD 0 0) 62 2 = 1 → s.snapPut g off src n v = s.store Reach.snap (tgtArea g.tgt g.bank + off) n v
          ∧ s.snapFlush g = (.ok 0, s))
        ∧ (∀ w s1, bits (g.tgt.getD 0 0) 62 2 ≠ 1 → s.snapNvq g.tgt = (.ok w, s1) → nvqOk w = true →
            s.snapPut g off src n v = (.ok 0, s1.nvmeSend w (nvmeWrite g.tgt g.bank off src n))
              ∧ s.snapFlush g = (.ok 0, s1.nvmeSend w (nvmeFlush g.tgt))))
    ∧ (∀ (s : State) (p k : Nat) (r : CmdRec) (c : Ctx) (x : Slot), instrWf (.snapCancel p r) = true → s.ringReady p = true →
        s.oos = false → wordsOk r [] = true → s.ctxs.find? r.ctx = some c → c.part = p → s.snapOn = true →
        s.resident p r.ctx = some (k, x) → s.slot? p k = some x →
        (x.snapNext ≠ none → x.snap.phase ≠ 0 →
          ∃ u : State, exec (.snapCancel p r) s = .next (u.complete p 0x31 r 0 0)
            ∧ u.slot? p k = some { x with snapNext := none } ∧ OnlySlot s u p k)
        ∧ (x.snapNext = none → x.snap.phase = 1 →
            ∃ (u : State) (y : Slot), exec (.snapCancel p r) s = .next (u.complete p 0x31 r 0 0) ∧ u.slot? p k = some y
              ∧ y.snap.phase = 0 ∧ y.fget R.SCH_SNAP_STAT F.SCH_SNAP_STAT_OUTCOME = 5
              ∧ u = { s with parts := u.parts, snapQ := u.snapQ })
        ∧ (x.snapNext = none → 1 < x.snap.phase →
            ∃ (u : State) (y : Slot), exec (.snapCancel p r) s =
                .next ((u.event R.SNAP_STAT (some F.SNAP_STAT_FAILED) []).complete p 0x31 r 0 0) ∧ u.slot? p k = some y
              ∧ y.snap.phase = 0 ∧ y.fget R.SCH_SNAP_STAT F.SCH_SNAP_STAT_OUTCOME = 4
              ∧ u.fget R.SNAP_STAT F.SNAP_STAT_FAILED =
                  min (s.fget R.SNAP_STAT F.SNAP_STAT_FAILED + 1) (2 ^ F.SNAP_STAT_FAILED.w - 1)
              ∧ u = { s with parts := u.parts, snapQ := u.snapQ, regs := u.regs }))

/-- RESTORE, REFILL, RECORD, VERIFY and the end of a command that runs on (R394, R426, R437): RESTORE and REFILL make the header of the
save area invalid and run on; RECORD writes the record; VERIFY runs on; a command completes with the status of its accesses, and one on the Range Map, where they have
served, once every cache has acknowledged it.
Completes (exec answers a next state): RESTORE, REFILL, RECORD, VERIFY, COMMAND_COMPLETION.
Where the rules leave a point open or to inference, the clause is the model's choice: log entry 63. -/
def Obligations.RestoreCommands : Prop :=
  (∀ (s s1 : State) (p n op : Nat) (r : CmdRec) (c : Instr) (l : List Nat), instrWf c = true → s.ringReady p = true →
      s.oos = false →
      (c = .restore p r ∧ op = 0x32 ∧ l = [mask 6 55, mask 0 2, mask 20 55, mask 6 55] ∧ bits r.w2 0 2 ≠ 3
        ∨ c = .refill p r ∧ op = 0x33 ∧ l = [mask 0 11, mask 20 55, mask 20 55, mask 6 55, mask 0 19]) →
      wordsOk r l = true → recSave r < 2 ^ 42 → s.ctxs.find? r.ctx = none →
      s.fbit (R.INK_S_CTRL p) F.INK_S_CTRL_EN = false → s.snapOn = true →
      s.store Reach.save (recSave r + headerOff) 8 (2 ^ 64 - 1) = (.ok n, s1) →
      ∃ u : State, exec c s = .next u ∧ (u.part p).exec = some { op := op, cmd := r, result := 0 }
        ∧ u = { s1 with parts := u.parts } ∧ (u.part p).slots = (s.part p).slots)
    ∧ (∀ (s : State) (p k : Nat) (r : CmdRec) (c : Ctx) (x : Slot), instrWf (.record p r) = true → s.ringReady p = true →
        s.oos = false → wordsOk r [] = true → s.ctxs.find? r.ctx = some c → c.part = p → s.snapOn = true →
        s.resident p r.ctx = some (k, x) → x.step.live = false →
        ∃ u : State, exec (.record p r) s = .next (u.complete p 0x34 r 0 0) ∧ u = s.writeRecord p x 0
          ∧ SameUnits { s with pgSeen := u.pgSeen } u)
    ∧ (∀ (s : State) (p : Nat) (r : CmdRec), instrWf (.verify p r) = true → s.ringReady p = true → s.oos = false →
        wordsOk r [mask 6 55, mask 0 2, 0, mask 6 55] = true → bits r.w2 0 2 ≠ 3 → s.snapOn = true →
        (∀ c, s.ctxs.find? r.ctx = some c → c.part = p) →
        ∃ u : State, exec (.verify p r) s = .next u ∧ u.part p = { s.part p with exec := some { op := 0x35, cmd := r, result := 0 } }
          ∧ (∀ q, q ≠ p → u.part q = s.part q) ∧ u = { s with parts := u.parts })
    ∧ (∀ (s : State) (p st : Nat) (l : List Nat) (e : Exec), instrWf (.commandCompletion p st l) = true → (s.part p).exec = some e →
        (st ≠ 0 → (e.op < 0x20 ∨ 0x30 ≤ e.op) → exec (.commandCompletion p st l) s = .next (s.complete p e.op e.cmd st 0))
        ∧ (st ≠ 0 → 0x20 ≤ e.op → e.op < 0x30 →
            exec (.commandCompletion p st l) s = .next ((s.countRefusal p e.op st).complete p e.op e.cmd st 0))
        ∧ (st = 0 → (e.op = 0x20 ∨ e.op = 0x21 ∨ e.op = 0x22 ∨ (e.op = 0x26 ∧ e.agreed = true)) →
            (s.spanAcked e.cmd = true → exec (.commandCompletion p st l) s = .next (s.complete p e.op e.cmd 0 e.result))
            ∧ (s.spanAcked e.cmd = false → exec (.commandCompletion p st l) s = .next s))
        ∧ (st = 0 → e.op = 0x23 → (recTier e.cmd ≠ 2 ∨ e.agreed = true) →
            (s.moveReady e.cmd = true → exec (.commandCompletion p st l) s = .next (s.complete p e.op e.cmd 0 e.result))
            ∧ (s.moveReady e.cmd = false → exec (.commandCompletion p st l) s = .next s))
        ∧ (st = 0 → e.op = 0x23 → recTier e.cmd = 2 → e.agreed = false →
            exec (.commandCompletion p st l) s = .next ((s.moveStart e.cmd).agree p e))
        ∧ (st = 0 → e.op = 0x24 → s.reserveReady e.cmd = true →
            exec (.commandCompletion p st l) s = .next ((s.reserveDone e.cmd).complete p e.op e.cmd 0 e.result))
        ∧ (st = 0 → e.op = 0x26 → e.agreed = false →
            (s.peerOk e.cmd = false →
              exec (.commandCompletion p st l) s = .next ((s.countRefusal p e.op 1).complete p e.op e.cmd 1 0))
            ∧ (s.peerOk e.cmd = true → (s.peerDone e.cmd).spanAcked e.cmd = true →
                exec (.commandCompletion p st l) s = .next ((s.peerDone e.cmd).complete p e.op e.cmd 0 e.result)))
        ∧ (st = 0 → e.op = 0x33 → exec (.commandCompletion p st l) s = .next ((s.refilled p e.cmd l).2.complete p e.op e.cmd
              (s.refilled p e.cmd l).1.status (s.refilled p e.cmd l).1.result))
        ∧ (st = 0 → (e.op = 0x32 ∨ e.op = 0x35) →
            exec (.commandCompletion p st l) s = .next ((s.readBack p e.cmd (e.op == 0x32) l).2.complete p e.op e.cmd
              (s.readBack p e.cmd (e.op == 0x32) l).1.status (s.readBack p e.cmd (e.op == 0x32) l).1.result)))

/-! ### Configuration and security (R438 to R455) -/

/-- Start-up (R442 to R445, R469): it begins only where it may; a failed check of the image is configuration failure with its cause, the
first that fails; an image that passes them is taken through the steps to READY, which releases server core 0 at ENTRY; the configuration-
read timeout is cause 9.
Completes (exec answers a next state): STARTUP, CONFIG_READ_TIMEOUT.
Where the rules leave a point open or to inference, the clause is the model's choice: log entries 8 and 60. -/
def Obligations.StartUp : Prop :=
  (∀ (s : State) (inp : StartIn), s.mayBoot = false →
      exec (.startup inp) s = .next s ∧ exec .configReadTimeout s = .next s)
    ∧ (∀ (s : State) (inp : StartIn) (c : Instr) (k : Nat), s.mayBoot = true →
        (c = .startup inp ∧ k = s.imgCause inp.mode ∧ k ≠ 0 ∨ c = .configReadTimeout ∧ k = 9) →
        ∃ u : State, exec c s = .next u
          ∧ u.fget R.CFG_STATUS F.CFG_STATUS_FAILED = 1 ∧ u.fget R.CFG_STATUS F.CFG_STATUS_CAUSE = k
          ∧ u.fget R.CFG_STATUS F.CFG_STATUS_GUARD = 1 ∧ u.fget R.PKG_STATUS F.PKG_STATUS_READY = s.fget R.PKG_STATUS F.PKG_STATUS_READY
          ∧ u.fget (R.LIF_CNT 35) F.LIF_CNT_VALUE = min (s.fget (R.LIF_CNT 35) F.LIF_CNT_VALUE + 1) (2 ^ F.LIF_CNT_VALUE.w - 1)
          ∧ u.mgmt.alert = true ∧ (∀ d ∈ u.doms, d.code ≠ 6) ∧ u.servers = s.servers ∧ u.mem = s.mem ∧ u.flash = s.flash
          ∧ u.fuses = s.fuses)
    ∧ (∀ (s : State) (inp : StartIn), s.mayBoot = true → s.imgCause inp.mode = 0 → s.preCount = 0 → inp.payloadDiffers = false →
        inp.timeout = false →
        ∃ w : State, exec (.startup inp) s = .next w.boot9.boot10 ∧ w.flash = s.flash ∧ w.fuses = s.fuses)
    ∧ (∀ w : State, w.boot10.fget R.PKG_STATUS F.PKG_STATUS_READY = 1 ∧ w.boot10.fget R.PKG_STATUS F.PKG_STATUS_STEP = 10
        ∧ w.boot10.servers = w.servers.insert 0 { pc := w.imgEntry, a0 := 0, a1 := w.payBytes }
        ∧ bit (w.boot10.fget (R.PKG_CORE_RELM 0) F.PKG_CORE_RELM_CORES) 0 = true ∧ w.boot10.mem = w.mem)

/-- The supply guard, the lifetime areas and the lifetime log (R446 to R449, R467, R468): the guard blocks and is counted, and its release
writes the log record that waits; an area is written into the bank that does not hold its valid copy, and waits where no command can be
issued; a record that is due carries the next sequence number.
Completes (exec answers a next state): GUARD_BLOCK, GUARD_RELEASE, LIFETIME_WRITE, LOG_RECORD, FLUSH.
Where the rules leave a point open or to inference, the clause is the model's choice: log entries 8 and 64. -/
def Obligations.LifetimeWrites : Prop :=
  (∀ s : State, s.guardOn = false →
      ∃ u : State, exec .guardBlock s = .next u ∧ u.guardOn = true
        ∧ u.fget (R.LIF_CNT 23) F.LIF_CNT_VALUE = min (s.fget (R.LIF_CNT 23) F.LIF_CNT_VALUE + 1) (2 ^ F.LIF_CNT_VALUE.w - 1)
        ∧ (u.fget R.CFG_LIFE F.CFG_LIFE_WAIT_GUARD = 1 ↔ s.lifeDue ≠ [] ∨ s.logDue.isSome = true)
        ∧ OnlyRegs s u [regKey R.CFG_STATUS F.CFG_STATUS_GUARD, regKey (R.LIF_CNT 23) F.LIF_CNT_VALUE,
            regKey R.CFG_LIFE F.CFG_LIFE_WAIT_GUARD])
    ∧ (∀ s : State, s.guardOn = true → exec .guardBlock s = .next s)
    ∧ (∀ s : State, ∃ u : State, u.guardOn = false ∧ u.fget R.CFG_LIFE F.CFG_LIFE_WAIT_GUARD = 0
        ∧ OnlyRegs s u [regKey R.CFG_STATUS F.CFG_STATUS_GUARD, regKey R.CFG_LIFE F.CFG_LIFE_WAIT_GUARD]
        ∧ (s.logDue = none → exec .guardRelease s = .next u)
        ∧ (∀ k, s.logDue = some k → s.pwr.trip = false → s.pwr.pwrOk = true →
            s.fbit R.CFG_STATUS F.CFG_STATUS_FAILED = false → exec .guardRelease s = .next (u.logWrite k)))
    ∧ (∀ (s : State) (area : Nat) (r : List Nat), instrWf (.lifetimeWrite area) = true → s.lifeDue = area :: r →
        s.fbit R.CFG_STATUS F.CFG_STATUS_FAILED = false → s.flashHeld = false →
        ∃ (u : State) (bank old : Nat), exec (.lifetimeWrite area) s = .next u
          ∧ (∀ e, s.areaRead area = some e → bank = 1 - e.1 ∧ old = e.2.1) ∧ (s.areaRead area = none → bank = 0 ∧ old = 0)
          ∧ u.lifeDue = r ∧ (u.fget R.CFG_LIFE F.CFG_LIFE_PENDING = 1 ↔ r ≠ [])
          ∧ u.fget R.CFG_LIFE F.CFG_LIFE_WRITES =
              min (s.fget R.CFG_LIFE F.CFG_LIFE_WRITES + 1) (2 ^ F.CFG_LIFE_WRITES.w - 1)
          ∧ u.flashGet (s.bankOff area bank) 64 = ofWords 64 [0x4C494645, old + 1, (s.areaBytes area).1,
              crc32c (numBytes (s.areaBytes area).1 (s.areaBytes area).2)] % 2 ^ 512
          ∧ (∀ b, b < s.bankOff area bank ∨ s.bankOff area bank + (lifeBanks area).2.2 ≤ b → u.flash.rd b = s.flash.rd b)
          ∧ u = { s with lifeDue := u.lifeDue, flash := u.flash, regs := u.regs }
          ∧ SameRegs s u ([regKey R.CFG_LIFE F.CFG_LIFE_WRITES, regKey R.CFG_LIFE F.CFG_LIFE_PENDING]
              ++ (List.range 48).map fun n => regKey (remapReg n) F.STK_REMAP_STAT_PERSIST_PENDING))
    ∧ (∀ (s : State) (area : Nat) (r : List Nat), instrWf (.lifetimeWrite area) = true → s.lifeDue = area :: r →
        s.fbit R.CFG_STATUS F.CFG_STATUS_FAILED = false → s.flashHeld = true →
        ∃ u : State, exec (.lifetimeWrite area) s = .next u ∧ OnlyRegs s u [regKey R.CFG_LIFE F.CFG_LIFE_WAIT_GUARD])
    ∧ (∀ (s : State) (a : Agent) (c : Instr) (k v : Nat), instrWf c = true →
        (c = .logRecord ∧ k = 0 ∧ s.logDue = none
            ∧ s.logAt + 3600 * s.fget R.LIF_CTL F.LIF_CTL_PERIOD_H ≤ s.fget (R.LIF_CNT 1) F.LIF_CNT_VALUE
          ∨ c = .flush a v ∧ k = 1 ∧ v % 2 = 1 ∧ s.entry a .lif 0 R.LIF_CMD true = .reach) →
        ∃ w : State, OnlyAnswer s w [regKey (R.LIF_CNT 2) F.LIF_CNT_VALUE]
          ∧ (k = 0 → w = s)
          ∧ (k = 1 → w.fget (R.LIF_CNT 2) F.LIF_CNT_VALUE =
              min (s.fget (R.LIF_CNT 2) F.LIF_CNT_VALUE + 1) (2 ^ F.LIF_CNT_VALUE.w - 1))
          ∧ (s.flashHeld = false → s.fbit R.CFG_STATUS F.CFG_STATUS_FAILED = false → exec c s = .next (w.logWrite k))
          ∧ ((s.flashHeld = true ∨ s.fbit R.CFG_STATUS F.CFG_STATUS_FAILED = true) →
              ∃ u : State, exec c s = .next u ∧ u.logDue = some k ∧ u.fget R.LIF_STATUS F.LIF_STATUS_PENDING = 1
                ∧ u = { w with logDue := u.logDue, regs := u.regs }
                ∧ SameRegs w u [regKey R.LIF_STATUS F.LIF_STATUS_PENDING, regKey R.CFG_LIFE F.CFG_LIFE_WAIT_GUARD]))
    ∧ (∀ (s : State) (k i : Nat), i = s.fget R.LIF_STATUS F.LIF_STATUS_SLOT →
        (s.logWrite k).logSeq = s.logSeq + 1 ∧ (s.logWrite k).logDue = none
        ∧ (s.logWrite k).fget R.LIF_STATUS F.LIF_STATUS_SLOT = (i + 1) % logRecords
        ∧ (s.logWrite k).fget R.LIF_STATUS F.LIF_STATUS_PENDING = 0
        ∧ (k = 1 → (s.logWrite k).fget R.LIF_STATUS F.LIF_STATUS_FLUSHED = 1)
        ∧ (s.flashGet (s.logOff i) logBytes = 2 ^ (8 * logBytes) - 1 →
            (s.logWrite k).flashGet (s.logOff i) logBytes = s.logRecord k % 2 ^ (8 * logBytes))
        ∧ (s.logWrite k).mem = s.mem ∧ (s.logWrite k).fuses = s.fuses)

/-- CFG_FLASH_CMD (R450): an ERASE, PROGRAM or READ of a sector is taken with its checks, one at a time; its end gives its result, and an
erase leaves every byte of its sector 0xFF, a program of an erased sector what memory held, and a read the sector in memory. Fuses (R451
to R454): a command of management access is taken with the result of its checks while no SEC_ command runs; one of any other agent is a
register access error; its end blows the bits of the command, none where it was refused, and neither VALID nor a revocation where the
guard stopped it.
Completes (exec answers a next state): FLASH_ERASE, FLASH_PROGRAM, FLASH_READ, FLASH_COMMAND_DONE, PROGRAM_OWNER, REVOKE, ADVANCE_SVN,
PROVISION, FUSE_COMMAND_DONE.
Where the rules leave a point open or to inference, the clause is the model's choice: log entries 5 and 64. -/
def Obligations.FlashAndFuseCommands : Prop :=
  (∀ (s : State) (a : Agent) (v op : Nat) (c : Instr), instrWf c = true →
      (c = .flashErase a v ∧ op = 1 ∨ c = .flashProgram a v ∧ op = 2 ∨ c = .flashRead a v ∧ op = 3) → bits v 62 2 = op →
      s.entry a .cfg 0 R.CFG_FLASH_CMD true = .reach →
      ∃ u : State, exec c s = .next u
        ∧ (s.fbit R.CFG_FLASH_STAT F.CFG_FLASH_STAT_BUSY = false →
            Served u 0 ∧ u.fbit R.CFG_FLASH_STAT F.CFG_FLASH_STAT_BUSY = true
            ∧ (((op ≠ 3 ∧ s.inLife v = true) ∨ (op ≠ 1 ∧ extentOk (flashAddr v) sectorBytes = false)) → u.flashCmd = some (v, 1))
            ∧ ((op = 3 ∨ s.inLife v = false) → (op = 1 ∨ extentOk (flashAddr v) sectorBytes = true) → u.flashCmd = some (v, 0))
            ∧ u = { s with rsp := u.rsp, flashCmd := u.flashCmd, regs := u.regs }
            ∧ SameRegs s u [regKey R.CFG_FLASH_STAT F.CFG_FLASH_STAT_BUSY])
        ∧ (s.fbit R.CFG_FLASH_STAT F.CFG_FLASH_STAT_BUSY = true → u.rsp.kind = .regError ∧ u.flashCmd = s.flashCmd))
    ∧ (∀ (s : State) (n v r : Nat), instrWf (.flashCommandDone n) = true → s.flashCmd = some (v, r) → r ≠ 0 →
        ∃ u : State, exec (.flashCommandDone n) s = .next u ∧ u.flashCmd = none
          ∧ u.fget R.CFG_FLASH_STAT F.CFG_FLASH_STAT_BUSY = 0
          ∧ u.fget R.CFG_FLASH_STAT F.CFG_FLASH_STAT_RESULT = r % 2 ^ F.CFG_FLASH_STAT_RESULT.w
          ∧ u = { s with flashCmd := u.flashCmd, regs := u.regs })
    ∧ (∀ (s : State) (v : Nat), s.flashCmd = some (v, 0) → (s.flashHeld = true ∧ bits v 62 2 ≠ 3 ∨ s.flashHeld = false ∧ s.lifeDue ≠ []) →
        exec (.flashCommandDone 0) s = .next s)
    ∧ (∀ (s s1 : State) (v d n : Nat), s.flashCmd = some (v, 0) → s.flashHeld = false → s.lifeDue = [] → s.logDue = none →
        (bits v 62 2 = 1 ∧ s1 = s
          ∨ bits v 62 2 = 2 ∧ s.load Reach.server (flashAddr v) sectorBytes = (.ok d, s1)
          ∨ bits v 62 2 = 3 ∧ s.store Reach.server (flashAddr v) sectorBytes (s.flashGet (flashSector v) sectorBytes) = (.ok n, s1)) →
        ∃ u : State, exec (.flashCommandDone 0) s = .next u ∧ u.flashCmd = none
          ∧ u.fget R.CFG_FLASH_STAT F.CFG_FLASH_STAT_BUSY = 0 ∧ u.fget R.CFG_FLASH_STAT F.CFG_FLASH_STAT_RESULT = 0
          ∧ (∀ b, b < flashSector v ∨ flashSector v + sectorBytes ≤ b → u.flash.rd b = s1.flash.rd b)
          ∧ (bits v 62 2 = 1 → ∀ b, flashSector v ≤ b → b < flashSector v + sectorBytes → u.flashGet b 1 = 0xFF)
          ∧ (bits v 62 2 = 2 → s1.flash.rdN (flashSector v) sectorBytes = 0 →
              u.flashGet (flashSector v) sectorBytes = d % 2 ^ (8 * sectorBytes))
          ∧ (bits v 62 2 = 3 → u.flash = s1.flash)
          ∧ u = { s1 with flashCmd := u.flashCmd, flash := u.flash, regs := u.regs }
          ∧ SameRegs s1 u [regKey R.CFG_FLASH_STAT F.CFG_FLASH_STAT_BUSY, regKey R.CFG_FLASH_STAT F.CFG_FLASH_STAT_RESULT])
    ∧ (∀ (s : State) (a : Agent) (v op : Nat) (c : Instr), instrWf c = true →
      (c = .programOwner a v ∧ op = 1 ∨ c = .revoke a v ∧ op = 2 ∨ c = .advanceSvn a v ∧ op = 3 ∨ c = .provision a v ∧ op = 4) →
      bits v 60 4 = op → s.entry a .sec 0 R.SEC_FUSE_CMD true = .reach →
      ∃ u : State, exec c s = .next u
        ∧ (isMgmt a = true → s.secBusy = false →
            u.fbit R.SEC_FUSE_STAT F.SEC_FUSE_STAT_BUSY = true
            ∧ (∃ x : FuseCmd, u.fuseCmd = some x ∧ x.value = v
                ∧ (op = 1 → bit s.fuses.valid (fuseSlot v) = true → x.result = 2)
                ∧ (∀ (d : Nat) (s1 : State), op = 1 → bit s.fuses.valid (fuseSlot v) = false →
                    (s.answer .ok 0).load Reach.server (bits v 6 50 * 64) 64 = (.ok d, s1) →
                    x.digest = d ∧ x.result = if s.fuses.owner.getD (fuseSlot v) 0 ||| d = d then 0 else 4)
                ∧ (op = 2 → x.result = if s.slotAccepts (1 - fuseSlot v) then 0 else 2)
                ∧ (op = 3 → x.result = if fuseTarget v < s.fuses.count ∨ 64 < fuseTarget v
                    ∨ s.fget R.CFG_IMAGE F.CFG_IMAGE_SVN < fuseTarget v then 3 else 0)
                ∧ (op = 4 → x.result = if s.fuses.provisioned then 2 else 0))
            ∧ u.fuses = s.fuses ∧ (op ≠ 1 → Served u 0 ∧ u = { s with rsp := u.rsp, fuseCmd := u.fuseCmd, regs := u.regs }))
        ∧ ((isMgmt a = false ∨ s.secBusy = true) → u.rsp.kind = .regError ∧ u.fuseCmd = s.fuseCmd ∧ u.fuses = s.fuses))
    ∧ (∀ (s : State) (n : Nat) (x : FuseCmd), instrWf (.fuseCommandDone n) = true → s.fuseCmd = some x →
        ∃ u : State, exec (.fuseCommandDone n) s = .next u ∧ u.fuseCmd = none ∧ u.fget R.SEC_FUSE_STAT F.SEC_FUSE_STAT_BUSY = 0
          ∧ (x.result ≠ 0 →
              u.fuses = s.fuses ∧ u.fget R.SEC_FUSE_STAT F.SEC_FUSE_STAT_RESULT = x.result % 2 ^ F.SEC_FUSE_STAT_RESULT.w)
          ∧ (x.result = 0 → s.guardOn = true →
              u.fget R.SEC_FUSE_STAT F.SEC_FUSE_STAT_RESULT = 1 ∧ u.fuses.valid = s.fuses.valid ∧ u.fuses.revoked = s.fuses.revoked
              ∧ u.fuses.provisioned = s.fuses.provisioned)
          ∧ (x.result = 0 → s.guardOn = false → n = 0 →
              u.fget R.SEC_FUSE_STAT F.SEC_FUSE_STAT_RESULT = 0
              ∧ (bits x.value 60 4 = 1 → u.fuses = { s.fuses with
                  owner := setAt s.fuses.owner (fuseSlot x.value) (s.fuses.owner.getD (fuseSlot x.value) 0 ||| x.digest)
                  valid := s.fuses.valid ||| 2 ^ fuseSlot x.value })
              ∧ (bits x.value 60 4 = 2 → u.fuses = { s.fuses with revoked := s.fuses.revoked ||| 2 ^ fuseSlot x.value })
              ∧ (bits x.value 60 4 = 3 → u.fuses = { s.fuses with count := fuseTarget x.value })
              ∧ (bits x.value 60 4 = 4 → u.fuses.provisioned = true ∧ u.fuses.owner = s.fuses.owner ∧ u.fuses.valid = s.fuses.valid))
          ∧ u = { s with fuseCmd := u.fuseCmd, fuses := u.fuses, free := u.free, regs := u.regs })

/-- Attestation and server cores (R445, R455): ATTEST is taken while no SEC_ command runs; its report is written after the nonce, and DONE
set; it ends with RANGE outside the reach of a server core, and with FAULT without an identity key; a write of PKG_CORE_RELm starts the
cores whose bits it sets at the address in PKG_CORE_REL.
Completes (exec answers a next state): ATTEST, ATTEST_REPORT_DONE, CORE_RELEASE.
Where the rules leave a point open or to inference, the clause is the model's choice: log entry 64. -/
def Obligations.AttestationAndCores : Prop :=
  (∀ (s : State) (a : Agent) (v : Nat), instrWf (.attest a v) = true → s.entry a .sec 0 R.SEC_ATTEST_CMD true = .reach →
      ∃ u : State, exec (.attest a v) s = .next u
        ∧ (s.secBusy = false → Served u 0 ∧ u.attest = some v ∧ u.fbit R.SEC_ATTEST_STAT F.SEC_ATTEST_STAT_BUSY = true
            ∧ u = { s with rsp := u.rsp, attest := u.attest, regs := u.regs }
            ∧ SameRegs s u [regKey R.SEC_ATTEST_STAT F.SEC_ATTEST_STAT_BUSY])
        ∧ (s.secBusy = true → u.rsp.kind = .regError ∧ u.attest = s.attest))
    ∧ (∀ (s : State) (v p : Nat), s.attest = some v → p = bits v 6 50 * 64 →
        ((extentOk p 64 = false ∨ extentOk (p + 64) 512 = false) →
          ∃ u : State, exec .attestReportDone s = .next u ∧ u.fget R.SEC_ATTEST_STAT F.SEC_ATTEST_STAT_STATUS = 2
            ∧ u.fget R.SEC_ATTEST_STAT F.SEC_ATTEST_STAT_BUSY = 0 ∧ u = { s with attest := none, regs := u.regs })
        ∧ (extentOk p 64 = true → extentOk (p + 64) 512 = true → s.idKey = none →
            ∃ u : State, exec .attestReportDone s = .next u ∧ u.fget R.SEC_ATTEST_STAT F.SEC_ATTEST_STAT_STATUS = 4
              ∧ u.fget R.SEC_ATTEST_STAT F.SEC_ATTEST_STAT_BUSY = 0 ∧ u = { s with attest := none, regs := u.regs })
        ∧ (∀ (key nonce n : Nat) (s1 s2 : State), extentOk p 64 = true → extentOk (p + 64) 512 = true → s.idKey = some key →
            s.load Reach.server p 64 = (.ok nonce, s1) →
            s1.store Reach.server (p + 64) 512
              (s1.report nonce + 2 ^ 2048 * (Config.ecdsaSign key (leBytes 256 (s1.report nonce)) % 2 ^ 1056)) = (.ok n, s2) →
            ∃ u : State, exec .attestReportDone s = .next u ∧ u.fget R.SEC_ATTEST_STAT F.SEC_ATTEST_STAT_STATUS = 0
              ∧ u.fget R.SEC_ATTEST_STAT F.SEC_ATTEST_STAT_BUSY = 0 ∧ u.fget R.SEC_ATTEST_STAT F.SEC_ATTEST_STAT_DONE = 1
              ∧ u = { s2 with attest := none, regs := u.regs }))
    ∧ (∀ (s : State) (a : Agent) (m v w : Nat), instrWf (.coreRelease a m v) = true → w = (if m = 1 then v % 2 ^ 32 else v % 2 ^ 64) →
        s.entry a .pkg 0 (R.PKG_CORE_RELM m) true = .reach →
        ∃ u : State, exec (.coreRelease a m v) s = .next u ∧ Served u 0
          ∧ u.fget (R.PKG_CORE_RELM m) F.PKG_CORE_RELM_CORES =
              (s.fget (R.PKG_CORE_RELM m) F.PKG_CORE_RELM_CORES ||| w) % 2 ^ F.PKG_CORE_RELM_CORES.w
          ∧ (s.fbit R.PKG_STATUS F.PKG_STATUS_READY = true → ∀ k, k < 64 →
              u.servers.find? (64 * m + k) =
                if bit w k = true ∧ bit (s.fget (R.PKG_CORE_RELM m) F.PKG_CORE_RELM_CORES) k = false then
                  some { pc := s.fget R.PKG_CORE_REL F.PKG_CORE_REL_ENTRY * 4 }
                else s.servers.find? (64 * m + k))
          ∧ (s.fbit R.PKG_STATUS F.PKG_STATUS_READY = false → u.servers = s.servers)
          ∧ (∀ c, c / 64 ≠ m → u.servers.find? c = s.servers.find? c)
          ∧ u = { s with rsp := u.rsp, servers := u.servers, regs := u.regs }
          ∧ SameRegs s u [regKey (R.PKG_CORE_RELM m) F.PKG_CORE_RELM_CORES])

/-! ### Counters and the lifetime totals (R457 to R466) -/

/-- Counters (R457, R461, R463, R464): a programmable counter that passes its largest value wraps to 0 and sets OVF, raises its event
where OVF_EVT asks for it, and freezes the counters where FREEZE_ON_OVF does; every byte-counter set whose window ends at the present
boundary latches it; a write of RD consumes records, and is a register access error in user mode. A second of power (R465, R466): powered
time, the temperature, power and score histograms, the package energy in kJ and the highest temperature.
Completes (exec answers a next state): PMC_OVERFLOW, BW_WINDOW_LATCH, SAMPLE_CONSUME, LIFETIME_SECOND.
Where the rules leave a point open or to inference, the clause is the model's choice: log entries 8, 67, 68 and 75. -/
def Obligations.CountersAndLifetimeTotals : Prop :=
  (∀ (s : State) (n k e : Nat), instrWf (.pmcOverflow n k) = true → e = (if n < 192 then R.PMC_TEVT n k else R.PMC_HEVT (n - 192) k) →
      s.pmcOn e (s.pmcCtx n) = true → s.fget e F.PMC_TEVT_EVENT ≠ 0 →
      ∃ u w : State, exec (.pmcOverflow n k) s = .next u ∧ w.fget (e + 8) F.PMC_TCNT_COUNT = 0 ∧ w.fget e F.PMC_TEVT_OVF = 1
        ∧ OnlyRegs s w [regKey (e + 8) F.PMC_TCNT_COUNT, regKey e F.PMC_TEVT_OVF]
        ∧ (s.fbit e F.PMC_TEVT_OVF_EVT = true →
            u = w.event (e + 8) none [] ∨ u = (w.event (e + 8) none []).fset R.PKG_PMC_CTL F.PKG_PMC_CTL_FREEZE 1)
        ∧ (s.fbit e F.PMC_TEVT_OVF_EVT = false → s.fbit R.PKG_PMC_CTL F.PKG_PMC_CTL_FREEZE_ON_OVF = false → u = w)
        ∧ (s.fbit e F.PMC_TEVT_OVF_EVT = false → s.fbit R.PKG_PMC_CTL F.PKG_PMC_CTL_FREEZE_ON_OVF = true →
            u.fget R.PKG_PMC_CTL F.PKG_PMC_CTL_FREEZE = 1 ∧ OnlyRegs w u [regKey R.PKG_PMC_CTL F.PKG_PMC_CTL_FREEZE]))
    ∧ (∀ s : State, ∃ u : State, exec .bwWindowLatch s = .next u
        ∧ (s.atBoundary 3 = false → u = s)
        ∧ (s.atBoundary 3 = true → u.bwEnd = s.tick ∧ u = { s with bw := u.bw, bwEnd := u.bwEnd }
            ∧ (∀ b, s.bw.find? b = none → u.bw.find? b = none)
            ∧ ∀ b x, s.bw.find? b = some x → ∃ y, u.bw.find? b = some y
                ∧ (s.tick % (x.win + 1) ≠ 0 ∨ x.last = s.tick → y = x)
                ∧ (s.tick % (x.win + 1) = 0 → x.last ≠ s.tick →
                    y.wa = (x.a + 2 ^ 64 - x.a0) % 2 ^ 48 ∧ y.wb = (x.b + 2 ^ 64 - x.b0) % 2 ^ 48 ∧ y.last = s.tick ∧ y.part = x.cut
                    ∧ y.cut = false ∧ y.a = x.a ∧ y.b = x.b ∧ y.a0 = x.a ∧ y.b0 = x.b ∧ y.win = x.win)))
    ∧ (∀ (s : State) (a : Agent) (t v : Nat), instrWf (.sampleConsume a t v) = true →
        s.entry a .til t (R.PMC_SMP_PTR t) true = .reach →
        ∃ u : State, exec (.sampleConsume a t v) s = .next u
          ∧ (isUser a = true → u.rsp.kind = .regError
              ∧ OnlyAnswer s u [regKey R.FLT_REGERR F.FLT_REGERR_WRITE, regKey R.FLT_REGERR F.FLT_REGERR_AGENT,
                  regKey R.FLT_REGERR F.FLT_REGERR_OFFSET, regKey R.FLT_ERRCNT F.FLT_ERRCNT_REG_ACCESS])
          ∧ (isUser a = false → Served u 0 ∧ u.fget (R.PMC_SMP_PTR t) F.PMC_SMP_PTR_RD = v % 1024
              ∧ (s.fget (R.PMC_SMP_PTR t) F.PMC_SMP_PTR_FILL ≠ 1024 ∨ v % 1024 ≠ s.fget (R.PMC_SMP_PTR t) F.PMC_SMP_PTR_WR →
                  u.fget (R.PMC_SMP_PTR t) F.PMC_SMP_PTR_FILL =
                    (s.fget (R.PMC_SMP_PTR t) F.PMC_SMP_PTR_WR + 1024 - v % 1024) % 1024)
              ∧ (s.fget (R.PMC_SMP_PTR t) F.PMC_SMP_PTR_FILL = 1024 → v % 1024 = s.fget (R.PMC_SMP_PTR t) F.PMC_SMP_PTR_WR →
                  u.fget (R.PMC_SMP_PTR t) F.PMC_SMP_PTR_FILL = 1024)
              ∧ OnlyAnswer s u [regKey (R.PMC_SMP_PTR t) F.PMC_SMP_PTR_RD, regKey (R.PMC_SMP_PTR t) F.PMC_SMP_PTR_FILL]))
    ∧ (∀ (s : State) (i : Sensors), s.fget R.HLT_SCORE F.HLT_SCORE_SCORE < 256 →
    ∃ u : State, exec (.lifetimeSecond i) s = .next u
      ∧ u.fget (R.LIF_CNT 1) F.LIF_CNT_VALUE = min (s.fget (R.LIF_CNT 1) F.LIF_CNT_VALUE + 1) (2 ^ F.LIF_CNT_VALUE.w - 1)
      ∧ (∀ h b, (h = 17 ∧ b = min 63 (i.host / 2) ∨ h = 18 ∧ b = min 63 (i.die0 / 2) ∨ h = 19 ∧ b = min 63 (i.die1 / 2)
            ∨ h = 20 ∧ b = min 63 (i.stack / 2) ∨ h = 22 ∧ b = min 63 (i.power / 50)
            ∨ h = 27 ∧ b = s.fget R.HLT_SCORE F.HLT_SCORE_SCORE / 4) →
          bits (u.fget (R.LIF_HIST h (b / 2)) F.LIF_HIST_VALUE) (32 * (b % 2)) 32 =
            min (bits (s.fget (R.LIF_HIST h (b / 2)) F.LIF_HIST_VALUE) (32 * (b % 2)) 32 + 1) (2 ^ 32 - 1))
      ∧ u.joules = (s.joules + i.power) % 1000
      ∧ u.fget (R.LIF_CNT 34) F.LIF_CNT_VALUE =
          min (s.fget (R.LIF_CNT 34) F.LIF_CNT_VALUE + (s.joules + i.power) / 1000) (2 ^ F.LIF_CNT_VALUE.w - 1)
      ∧ u.fget (R.LIF_CNT 36) F.LIF_CNT_VALUE =
          max (s.fget (R.LIF_CNT 36) F.LIF_CNT_VALUE) (max (max i.host (max i.die0 i.die1)) i.stack) % 2 ^ F.LIF_CNT_VALUE.w
      ∧ u.fget R.PWR_STATUS F.PWR_STATUS_TJ_MAX = min 255 (max i.host (max i.die0 i.die1))
      ∧ u.fget R.PWR_STATUS F.PWR_STATUS_TSTK_MAX = min 255 i.stack
      ∧ u = { s with pwr := { s.pwr with temps := [i.host, i.die0, i.die1, i.stack] }, joules := u.joules, regs := u.regs })

/-! ### Supplies, throttling, management addresses and the test access port (R470 to R480) -/

/-- RESET_L, PWR_OK and THERMTRIP (R472, R476): RESET_L held for 10 µs makes a package reset due, a shorter pulse nothing; the fall of
PWR_OK fences every domain; its return is a power-on, which keeps what holds its content without supplies; THERMTRIP asserts its land,
raises the alert and fences every domain.
Completes (exec answers a next state): RESET_L_ASSERT, RESET_L_DEASSERT, PWR_OK_FALL, THERMTRIP, PWR_OK_RISE.
Where the rules leave a point open or to inference, the clause is the model's choice: log entries 51 and 65. -/
def Obligations.SuppliesAndReset : Prop :=
  (∀ (s : State) (n : Nat), instrWf (.resetLAssert n) = true →
      ((n < 10000 ∨ s.pwr.resetL = true) → exec (.resetLAssert n) s = .next s)
      ∧ (10000 ≤ n → s.pwr.resetL = false → s.pwr.pwrOk = true →
          ∃ u : State, exec (.resetLAssert n) s = .next u ∧ u.pwr = { s.pwr with resetL := true, reason := 1 }
            ∧ (6, 0) ∈ u.resetsDue ∧ (∀ e ∈ s.resetsDue, e ∈ u.resetsDue)
            ∧ u = { s with pwr := u.pwr, resetsDue := u.resetsDue })
      ∧ (10000 ≤ n → s.pwr.resetL = false → s.pwr.pwrOk = false →
          exec (.resetLAssert n) s = .next { s with pwr := { s.pwr with resetL := true } }))
    ∧ (∀ s : State, exec .resetLDeassert s = .next { s with pwr := { s.pwr with resetL := false } })
    ∧ (∀ s : State, s.pwr.pwrOk = true →
        exec .pwrOkFall s = .next (State.fenceNow { s with pwr := { s.pwr with pwrOk := false, trip := false } } 6 0))
    ∧ (∀ s : State, s.pwr.pwrOk = false → exec .pwrOkFall s = .next s)
    ∧ (∀ (s : State) (n : Nat), instrWf (.thermtrip n) = true → s.pwr.trip = false →
        ∃ w : State, exec (.thermtrip n) s = .next (w.fenceNow 6 0).alert ∧ w.pwr = { s.pwr with trip := true }
          ∧ w.fget R.PWR_STATUS F.PWR_STATUS_THERMTRIP = 1 ∧ w = { s with pwr := w.pwr, regs := w.regs }
          ∧ SameRegs s w [regKey R.PWR_STATUS F.PWR_STATUS_THERMTRIP])
    ∧ (∀ s : State, (s.fenceNow 6 0).inPhase 6 0 1 = true ∧ (∀ t, t < 192 → ((s.fenceNow 6 0).tile t).run = none)
        ∧ (s.fenceNow 6 0).resetsDue = [] ∧ (s.fenceNow 6 0).doms = [{ code := 6, unit := 0, phase := 1, since := s.clk.tb }]
        ∧ (s.fenceNow 6 0).pwr = s.pwr ∧ (s.migs = [] → (s.fenceNow 6 0).mem = s.mem) ∧ (s.fenceNow 6 0).flash = s.flash)
    ∧ (∀ s : State, s.pwr.pwrOk = true → exec .pwrOkRise s = .next s)
    ∧ (∀ s : State, s.pwr.pwrOk = false →
        ∃ u : State, exec .pwrOkRise s = .next u ∧ (∀ off f, u.fget off f = f.rst) ∧ u.mem = [] ∧ u.doms = [] ∧ u.tiles = []
          ∧ u.pwr = { pwrOk := true, resetL := s.pwr.resetL } ∧ u.pwr.reason = 0 ∧ u.flash = s.flash ∧ u.fuses = s.fuses
          ∧ u.fuseRows = s.fuseRows ∧ u.fuseCols = s.fuseCols ∧ u.dieRepairs = s.dieRepairs ∧ u.pending = s.pending)

/-- Throttling, droops and rails (R470, R474, R475): the power-cap limit steps with the average against CAP_W, the brake limit becomes
BRAKE_SHARE and recovers by 1 to 16, and the effective share of a die is the lowest of its limits, never below 4; a droop event counts
once until it ends; a rail out of its range sets its bit and raises the alert.
Completes (exec answers a next state): POWER_CAP_UPDATE, POWER_BRAKE, PWRBRK_L_RISE, BRAKE_RECOVERY, DROOP_EVENT, DROOP_EVENT_END,
RAIL_FAULT, RAIL_FAULT_CLEAR.
Where the rules leave a point open or to inference, the clause is the model's choice: log entry 8. -/
def Obligations.ThrottlingAndRails : Prop :=
  (∀ (s : State) (avg : Nat), instrWf (.powerCapUpdate avg) = true →
      ∃ u : State, exec (.powerCapUpdate avg) s = .next u ∧ u.fget R.PWR_STATUS F.PWR_STATUS_POWER_W = avg % 2 ^ F.PWR_STATUS_POWER_W.w
        ∧ (s.fbit R.PWR_CTRL F.PWR_CTRL_CAP_EN = false → u.pwr = s.pwr)
        ∧ (s.fbit R.PWR_CTRL F.PWR_CTRL_CAP_EN = true →
            u.pwr = { s.pwr with cap := u.pwr.cap }
            ∧ u.pwr.cap = (if s.fget R.PWR_CTRL F.PWR_CTRL_CAP_W < avg then max 4 (s.pwr.cap - 1)
                else if 100 * avg < 95 * s.fget R.PWR_CTRL F.PWR_CTRL_CAP_W then min 16 (s.pwr.cap + 1) else s.pwr.cap)
            ∧ u.fget R.PWR_STATUS F.PWR_STATUS_SHARE0 = u.share 0 % 2 ^ F.PWR_STATUS_SHARE0.w
            ∧ u.fget R.PWR_STATUS F.PWR_STATUS_SHARE1 = u.share 1 % 2 ^ F.PWR_STATUS_SHARE1.w)
        ∧ u = { s with pwr := u.pwr, regs := u.regs })
    ∧ (∀ s : State, ∃ u : State, exec .powerBrake s = .next u
        ∧ u.pwr = { s.pwr with brake := s.fget R.PWR_CTRL F.PWR_CTRL_BRAKE_SHARE, brakeRise := none }
        ∧ u.fget R.PWR_STATUS F.PWR_STATUS_BRAKE = 1
        ∧ u.fget R.PWR_STATUS F.PWR_STATUS_SHARE0 = u.share 0 % 2 ^ F.PWR_STATUS_SHARE0.w
        ∧ u.fget R.PWR_STATUS F.PWR_STATUS_SHARE1 = u.share 1 % 2 ^ F.PWR_STATUS_SHARE1.w
        ∧ u = { s with pwr := u.pwr, regs := u.regs })
    ∧ (∀ s : State, s.fbit R.PWR_STATUS F.PWR_STATUS_BRAKE = true →
        ∃ u : State, exec .pwrbrkLRise s = .next u ∧ u.pwr = { s.pwr with brakeRise := some s.clk.tb }
          ∧ u.fget R.PWR_STATUS F.PWR_STATUS_BRAKE = 0 ∧ u = { s with pwr := u.pwr, regs := u.regs }
          ∧ SameRegs s u [regKey R.PWR_STATUS F.PWR_STATUS_BRAKE])
    ∧ (∀ (s : State) (t : Nat), s.pwr.brakeRise = some t →
        ∃ u : State, exec .brakeRecovery s = .next u ∧ u.pwr.brake = min 16 (s.pwr.brake + 1)
          ∧ (u.pwr.brakeRise = none ↔ 15 ≤ s.pwr.brake)
          ∧ u.pwr = { s.pwr with brake := u.pwr.brake, brakeRise := u.pwr.brakeRise }
          ∧ u.fget R.PWR_STATUS F.PWR_STATUS_SHARE0 = u.share 0 % 2 ^ F.PWR_STATUS_SHARE0.w
          ∧ u = { s with pwr := u.pwr, regs := u.regs })
    ∧ (∀ (s : State) (d : Nat), 4 ≤ s.share d ∧ (s.share d = 4 ∨
        (s.share d ≤ s.capLimit ∧ s.share d ≤ s.pwr.brake ∧ s.share d ≤ (if d = 0 then s.pwr.therm0 else s.pwr.therm1))))
    ∧ (∀ (s : State) (r d : Nat), instrWf (.droopEvent r d) = true → r ≤ 8 → s.fget R.PWR_CTRL F.PWR_CTRL_DROOP_MV < d →
        (s.pwr.droops.contains r = true → exec (.droopEvent r d) s = .next s)
        ∧ (s.pwr.droops.contains r = false →
            ∃ u : State, exec (.droopEvent r d) s = .next u ∧ u.pwr = { s.pwr with droops := s.pwr.droops ++ [r] }
              ∧ u.fget R.PWR_DROOP F.PWR_DROOP_COUNT = min (s.fget R.PWR_DROOP F.PWR_DROOP_COUNT + 1) (2 ^ F.PWR_DROOP_COUNT.w - 1)
              ∧ u.fget R.PWR_DROOP F.PWR_DROOP_LAST_RAIL = r ∧ u.fget R.PWR_DROOP F.PWR_DROOP_LAST_DEPTH_MV = d % 2 ^ F.PWR_DROOP_LAST_DEPTH_MV.w
              ∧ u.fget (R.LIF_CNT 22) F.LIF_CNT_VALUE = min (s.fget (R.LIF_CNT 22) F.LIF_CNT_VALUE + 1) (2 ^ F.LIF_CNT_VALUE.w - 1)
              ∧ bits (u.fget (R.LIF_HIST 21 (min 63 (d / 5) / 2)) F.LIF_HIST_VALUE) (32 * (min 63 (d / 5) % 2)) 32 =
                  min (bits (s.fget (R.LIF_HIST 21 (min 63 (d / 5) / 2)) F.LIF_HIST_VALUE) (32 * (min 63 (d / 5) % 2)) 32 + 1) (2 ^ 32 - 1)
              ∧ u.hltEv = setAt s.hltEv 2 (s.hltEv.getD 2 0 + 1)
              ∧ u = { s with pwr := u.pwr, hltEv := u.hltEv, regs := u.regs }))
    ∧ (∀ (s : State) (r : Nat), instrWf (.droopEventEnd r) = true →
        exec (.droopEventEnd r) s = .next { s with pwr := { s.pwr with droops := s.pwr.droops.erase r } })
    ∧ (∀ (s : State) (n : Nat), instrWf (.railFault n) = true →
        (bit (s.fget R.PWR_STATUS F.PWR_STATUS_RAIL_FAULT) n = true → exec (.railFault n) s = .next s)
        ∧ (bit (s.fget R.PWR_STATUS F.PWR_STATUS_RAIL_FAULT) n = false →
            ∃ u : State, exec (.railFault n) s = .next u ∧ bit (u.fget R.PWR_STATUS F.PWR_STATUS_RAIL_FAULT) n = true ∧ u.mgmt.alert = true
              ∧ u = { s with mgmt := u.mgmt, regs := u.regs } ∧ SameRegs s u [regKey R.PWR_STATUS F.PWR_STATUS_RAIL_FAULT]))
    ∧ (∀ (s : State) (n : Nat), instrWf (.railFaultClear n) = true →
        ∃ u : State, exec (.railFaultClear n) s = .next u ∧ bit (u.fget R.PWR_STATUS F.PWR_STATUS_RAIL_FAULT) n = false
          ∧ (∀ m, m < 11 → m ≠ n → bit (u.fget R.PWR_STATUS F.PWR_STATUS_RAIL_FAULT) m = bit (s.fget R.PWR_STATUS F.PWR_STATUS_RAIL_FAULT) m)
          ∧ OnlyRegs s u [regKey R.PWR_STATUS F.PWR_STATUS_RAIL_FAULT])

/-- The management target's dynamic address (R479) and the instructions of the test access port (R480): an address is taken by SETDASA or
ENTDAA where there is none; IDCODE selects 0x1416_094B, BYPASS a zero bit, SAMPLE/PRELOAD captures the lands and loads the cells, and the
three EXTEST instructions drive them; what the lands show is open. The management target and REGACC (R479, R480): an access of the
management target has the effect of a management access, and answers status 0x00 with its data, or 0x02 for a register access error;
REGACC is a 64-bit access of the test access port.
Completes (exec answers a next state): SETDASA, ENTDAA, BYPASS, IDCODE, SAMPLE_PRELOAD, EXTEST, EXTEST_PULSE, EXTEST_TRAIN, MGMT_READ64,
MGMT_READ32, MGMT_WRITE64, MGMT_WRITE32, REGACC.
Where the rules leave a point open or to inference, the clause is the model's choice: log entries 2, 50 and 66. -/
def Obligations.ManagementAndTap : Prop :=
  (∀ (s : State) (n : Nat) (c : Instr), instrWf c = true → (c = .setdasa n ∨ c = .entdaa n) →
      (∀ d, s.mgmt.dyn = some d → exec c s = .next s)
      ∧ (s.mgmt.dyn = none → exec c s = .next { s with mgmt := { s.mgmt with dyn := some (n % 128) } }))
    ∧ (∀ s : State, exec .bypass s = .next { s with tap := { s.tap with instr := .bypass, dr := 0, driven := [] } })
    ∧ (∀ s : State, ∃ u : State, exec .idcode s = .next u ∧ Served u 0x1416094B
        ∧ u.tap = { s.tap with instr := .idcode, dr := 0x1416094B, driven := [] } ∧ u = { s with rsp := u.rsp, tap := u.tap })
    ∧ (∀ (s : State) (l : List Nat), instrWf (.samplePreload l) = true →
        ∃ u : State, exec (.samplePreload l) s = .next u ∧ u.tap.instr = .sample ∧ u.tap.cells = l ∧ u.tap.driven = []
          ∧ u.tap.dr = Config.freeValue s.free ∧ u.free = s.free + 1 ∧ u = { s with tap := u.tap, free := u.free })
    ∧ (∀ (s : State) (c : Instr) (i : TapInstr),
        (c = .extest ∧ i = .extest ∨ c = .extestPulse ∧ i = .pulse ∨ c = .extestTrain ∧ i = .train) →
        ∃ u : State, exec c s = .next u ∧ u.tap = { s.tap with instr := i, dr := Config.freeValue s.free, driven := s.tap.cells }
          ∧ u.free = s.free + 1 ∧ u = { s with tap := u.tap, free := u.free })
    ∧ (∀ (s : State) (c d : Instr) (off v : Nat), instrWf c = true →
      (c = .mgmtRead64 off ∧ d = .registerRead .mgmt off 8 ∨ c = .mgmtRead32 off ∧ d = .registerRead .mgmt off 4
        ∨ c = .mgmtWrite64 off v ∧ d = .registerWrite .mgmt off 8 v ∨ c = .mgmtWrite32 off v ∧ d = .registerWrite .mgmt off 4 v) →
      ∃ w u : State, exec d s = .next w ∧ exec c s = .next u ∧ u = { w with mgmt := u.mgmt }
        ∧ u.mgmt = { w.mgmt with status := u.mgmt.status, data := w.rsp.data }
        ∧ (w.rsp.kind = .ok → u.mgmt.status = 0) ∧ (w.rsp.kind = .regError → u.mgmt.status = 2))
    ∧ (∀ (s : State) (wr : Bool) (off v : Nat), instrWf (.regacc wr off v) = true →
        ∃ w u : State, exec (if wr then .registerWrite .test off 8 v else .registerRead .test off 8)
            { s with tap := { s.tap with instr := .regacc, driven := [] } } = .next w
          ∧ exec (.regacc wr off v) s = .next u ∧ u = { w with tap := { w.tap with dr := w.rsp.data } })
    ∧ (∀ (s : State) (b : Blk) (u off : Nat), s.entry .mgmt b u off true ≠ .decode
        ∧ (s.owned = true → b ≠ .pkg → b ≠ .cfg → b ≠ .flt → b ≠ .pwr → s.entry .test b u off true = .decode))

/-! ### Register space at any offset (R11 to R17, R36, R42, R43, R391, R409, R464, R479, R480) -/

/-- Writes of any register (R13, R14, R16): a 64-bit write of a register that only holds its fields gives each field the value of its
access code and changes nothing else; one that places a reserved encoding leaves the whole register and is a register access error; a
reserved offset of a block ignores a write. Reads of any register (R13, R16, R464): a 64-bit read returns every field that can be read at
its bits, and clears the RC fields; a reserved offset of a block reads 0; a user-mode read of a counter that its partition does not give
reads 0 and is a register access error.
Completes (exec answers a next state): REGISTER_WRITE, REGISTER_READ.
Where the rules leave a point open or to inference, the clause is the model's choice: log entry 52. -/
def Obligations.RegisterAccess : Prop :=
  (∀ (s : State) (a : Agent) (off v u base : Nat) (b : Blk) (h : Hit), instrWf (.registerWrite a off 8 v) = true → off % 8 = 0 →
      regPlace off = .blk b u base → hitAt b u base off = some h → s.entry a b u off true = .reach →
      s.userOk a b u h true = true → h.isCtx = false → h.acts (s.regWr h off 8 v false) = true →
      (s.reservedWr h none (s.regWr h off 8 v false) = false → (h.row.fields.map fun f => f.lo).Nodup →
        (∀ t : State, t.effectWr a h (s.regWr h off 8 v false) (t.spelled h none (s.regWr h off 8 v false)) =
          t.plainWr h none (s.regWr h off 8 v false) []) →
        ∃ t : State, exec (.registerWrite a off 8 v) s = .next t ∧ Served t 0
          ∧ (∀ f ∈ h.row.fields, f.lo + f.w ≤ 64 →
              (f.acc = .rw → t.fget h.off f = bits v f.lo f.w)
              ∧ (f.acc = .lk → s.lockedAt h = false → t.fget h.off f = bits v f.lo f.w)
              ∧ (f.acc = .lk → s.lockedAt h = true → t.fget h.off f = s.fieldOf h none f % 2 ^ f.w)
              ∧ (f.acc = .w1c → t.fget h.off f =
                  (s.fieldOf h none f - (s.fieldOf h none f &&& bits v f.lo f.w)) % 2 ^ f.w)
              ∧ (f.acc = .w1s → t.fget h.off f = (s.fieldOf h none f ||| bits v f.lo f.w) % 2 ^ f.w)
              ∧ (f.acc = .cfg → t.fget h.off f = s.fieldOf h none f % 2 ^ f.w)
              ∧ (f.acc = .ro ∨ f.acc = .rc → t.fget h.off f = s.fget h.off f))
          ∧ OnlyAnswer s t (h.row.fields.map fun f => regKey h.off f))
      ∧ (s.reservedWr h none (s.regWr h off 8 v false) = true →
          ∃ t : State, exec (.registerWrite a off 8 v) s = .next t ∧ t.rsp.kind = .regError
            ∧ t.fget R.FLT_REGERR F.FLT_REGERR_WRITE = 1
            ∧ OnlyAnswer s t [regKey R.FLT_REGERR F.FLT_REGERR_WRITE, regKey R.FLT_REGERR F.FLT_REGERR_AGENT,
                regKey R.FLT_REGERR F.FLT_REGERR_OFFSET, regKey R.FLT_ERRCNT F.FLT_ERRCNT_REG_ACCESS]))
    ∧ (∀ (s : State) (a : Agent) (off bytes v u base : Nat) (b : Blk), instrWf (.registerWrite a off bytes v) = true →
        regPlace off = .blk b u base → hitAt b u base off = none → s.entry a b u off true = .reach →
        (bytes = 8 ∧ off % 8 = 0 ∨ bytes = 4 ∧ off % 4 = 0) →
        exec (.registerWrite a off bytes v) s = .next { s with rsp := { kind := .ok, data := 0 } })
    ∧ (∀ (s : State) (a : Agent) (off u base : Nat) (b : Blk) (h : Hit), instrWf (.registerRead a off 8) = true → off % 8 = 0 →
      regPlace off = .blk b u base → hitAt b u base off = some h → s.entry a b u off false = .reach → h.isCtx = false →
      (s.userOk a b u h false = true → h.row.name ≠ .HRD_TASK_POP → h.row.name ≠ .HRD_SUMM_Q → sensorFields h.row.name = [] →
        (h.row.fields.Pairwise fun f g => f.lo + f.w ≤ g.lo ∨ g.lo + g.w ≤ f.lo) → (∀ f ∈ h.row.fields, f.lo + f.w ≤ 64 ∧ 0 < f.w) →
        ∃ t : State, exec (.registerRead a off 8) s = .next t ∧ t.rsp.kind = .ok
          ∧ (∀ f ∈ h.row.fields, bits t.rsp.data f.lo f.w = if f.acc = .wo then 0 else s.fieldOf h none f % 2 ^ f.w)
          ∧ (∀ k, k < 64 → (∀ f ∈ h.row.fields, k < f.lo ∨ f.lo + f.w ≤ k) → bit t.rsp.data k = false)
          ∧ (∀ f ∈ h.row.fields, f.acc = .rc → t.fget h.off f = 0)
          ∧ OnlyAnswer s t ((h.row.fields.filter fun f => f.acc == .rc).map fun f => regKey h.off f))
      ∧ (s.userOk a b u h false = false →
          ∃ t : State, exec (.registerRead a off 8) s = .next t ∧ t.rsp = { kind := .regError, data := 0 }
            ∧ t.fget R.FLT_REGERR F.FLT_REGERR_WRITE = 0
            ∧ OnlyAnswer s t [regKey R.FLT_REGERR F.FLT_REGERR_WRITE, regKey R.FLT_REGERR F.FLT_REGERR_AGENT,
                regKey R.FLT_REGERR F.FLT_REGERR_OFFSET, regKey R.FLT_ERRCNT F.FLT_ERRCNT_REG_ACCESS]))
    ∧ (∀ (s : State) (a : Agent) (off bytes u base : Nat) (b : Blk), instrWf (.registerRead a off bytes) = true →
        regPlace off = .blk b u base → hitAt b u base off = none → s.entry a b u off false = .reach →
        (bytes = 8 ∧ off % 8 = 0 ∨ bytes = 4 ∧ off % 4 = 0) →
        exec (.registerRead a off bytes) s = .next { s with rsp := { kind := .ok, data := 0 } })

/-- Accesses that are turned away (R11, R36, R42, R43, R409, R417): an access of another size or alignment reads 0, is ignored, and is a
register access error recorded with its agent and offset; a core that reaches outside its blocks takes an access fault, which is counted;
an absent tile answers with a register access error. The windows of tile and herd memory (R42, R43): a write of 4 or 8 bytes writes them,
and a read returns them.
Completes (exec answers a next state): REGISTER_WRITE, REGISTER_READ.
Where the rules leave a point open or to inference, the clause is the model's choice: log entries 52 and 56. -/
def Obligations.AccessErrorsAndWindows : Prop :=
  (∀ (s : State) (a : Agent) (off bytes v u base : Nat) (b : Blk) (c : Instr) (wr : Bool), instrWf c = true →
    (c = .registerWrite a off bytes v ∧ wr = true ∨ c = .registerRead a off bytes ∧ wr = false) →
    regPlace off = .blk b u base →
    (s.entry a b u off wr = .reach → ¬ (bytes = 8 ∧ off % 8 = 0) → ¬ (bytes = 4 ∧ off % 4 = 0) →
      ∃ t : State, exec c s = .next t ∧ t.rsp = { kind := .regError, data := 0 }
        ∧ t.fget R.FLT_REGERR F.FLT_REGERR_WRITE = (if wr then 1 else 0)
        ∧ t.fget R.FLT_REGERR F.FLT_REGERR_AGENT = agentId a % 2 ^ F.FLT_REGERR_AGENT.w
        ∧ t.fget R.FLT_REGERR F.FLT_REGERR_OFFSET = off % 2 ^ F.FLT_REGERR_OFFSET.w
        ∧ t.fget R.FLT_ERRCNT F.FLT_ERRCNT_REG_ACCESS =
            min (s.fget R.FLT_ERRCNT F.FLT_ERRCNT_REG_ACCESS + 1) (2 ^ F.FLT_ERRCNT_REG_ACCESS.w - 1)
        ∧ OnlyAnswer s t [regKey R.FLT_REGERR F.FLT_REGERR_WRITE, regKey R.FLT_REGERR F.FLT_REGERR_AGENT,
            regKey R.FLT_REGERR F.FLT_REGERR_OFFSET, regKey R.FLT_ERRCNT F.FLT_ERRCNT_REG_ACCESS])
    ∧ (s.entry a b u off wr = .decode → a ≠ .mgmt → a ≠ .test →
        ∃ t : State, exec c s = .next t ∧ t.rsp = { kind := .accessFault, data := 0 }
          ∧ t.fget R.FLT_ERRCNT F.FLT_ERRCNT_DECODE =
              min (s.fget R.FLT_ERRCNT F.FLT_ERRCNT_DECODE + 1) (2 ^ F.FLT_ERRCNT_DECODE.w - 1)
          ∧ OnlyAnswer s t [regKey R.FLT_ERRCNT F.FLT_ERRCNT_DECODE])
    ∧ (s.entry a b u off wr = .absent → wr = false →
        ∃ t : State, exec c s = .next t ∧ t.rsp = { kind := .regError, data := 0 }
          ∧ OnlyAnswer s t [regKey R.FLT_REGERR F.FLT_REGERR_WRITE, regKey R.FLT_REGERR F.FLT_REGERR_AGENT,
              regKey R.FLT_REGERR F.FLT_REGERR_OFFSET, regKey R.FLT_ERRCNT F.FLT_ERRCNT_REG_ACCESS]))
    ∧ (∀ (s : State) (a : Agent) (off bytes v u o : Nat), s.offReach a (regPlace off) = .reach →
    (bytes = 8 ∧ off % 8 = 0 ∨ bytes = 4 ∧ off % 4 = 0) →
    (regPlace off = .tileWin u o →
      (instrWf (.registerWrite a off bytes v) = true →
        ∃ t : State, exec (.registerWrite a off bytes v) s = .next t ∧ Served t 0
          ∧ t.tile u = { s.tile u with mem := (s.tile u).mem.wrN o bytes v } ∧ (∀ w, w ≠ u → t.tile w = s.tile w)
          ∧ SameUnits { s with rsp := t.rsp, tiles := t.tiles } t)
      ∧ (instrWf (.registerRead a off bytes) = true →
          ∃ t : State, exec (.registerRead a off bytes) s = .next t ∧ Served t ((s.tile u).mem.rdN o bytes)
            ∧ SameUnits { s with rsp := t.rsp } t))
    ∧ (regPlace off = .herdWin u o →
        (instrWf (.registerWrite a off bytes v) = true →
          ∃ t : State, exec (.registerWrite a off bytes v) s = .next t ∧ Served t 0
            ∧ t.herd u = { s.herd u with mem := (s.herd u).mem.wrN o bytes v } ∧ (∀ w, w ≠ u → t.herd w = s.herd w)
            ∧ SameUnits { s with rsp := t.rsp, herds := t.herds } t)
        ∧ (instrWf (.registerRead a off bytes) = true →
            ∃ t : State, exec (.registerRead a off bytes) s = .next t ∧ Served t ((s.herd u).mem.rdN o bytes)
              ∧ SameUnits { s with rsp := t.rsp } t)))

/-! ### Machine operations that the commands share: tile words, memory lines, numbers, events -/

/-- The instructions of a tile are spelled by one word each (R168 to R182): the word of every instruction whose fields are in range decodes
to it, and to nothing else. -/
def Obligations.TileWords : Prop :=
  ∀ i : TIns, tinsWf i = true → tileDecode (tileEncode i) = some i

/-- A line of unified memory that is at rest at its home keeps what was written (R12, R305, R316): a read returns the bytes of the last write, other bytes of the line
and other lines read as before, and no agent holds the line. -/
def Obligations.MemoryLines : Prop :=
  ∀ (s : State) (a n v : Nat), 0 < n → a % 64 + n ≤ 64 → QuietLine s (a / 64) → s.ownerOf (a / 64) = none → s.clean (a / 64) →
    (State.homeStore unitEvent s a n v).1 = true
    ∧ (State.homeLoad unitEvent (State.homeStore unitEvent s a n v).2 a n).1 = some (v % 2 ^ (8 * n))
    ∧ (∀ b, b < a ∨ a + n ≤ b → (State.homeStore unitEvent s a n v).2.mem.rd b = s.mem.rd b)
    ∧ (State.homeStore unitEvent s a n v).2.holders (a / 64) = []
    ∧ SameUnits s (State.homeStore unitEvent s a n v).2

/-- Number formats (R75, R94 to R97): converting the value of a finite code back into its format gives that code, under both rounding
modes; a magnitude above the largest finite value becomes that value and sets the overflow flag; a saturated sum stays in its range and is
exact within it; a dither is below 2^16. -/
def Obligations.NumberFormats : Prop :=
  (∀ (f : FF) (r : Rnd) (e4inf : Bool) (c : Nat), (f = .e4m3 ∨ f = .e5m2 ∨ f = .bf16 ∨ f = .fp16 ∨ f = .b32) →
      (r = .rne ∨ ∃ d, d < 65536 ∧ r = .sr d) → c < 2 ^ f.width → (f.value c).nonfinite = false →
      f.convert r e4inf none (f.value c) = { code := c })
    ∧ (∀ (f : FF) (r : Rnd) (e4inf neg : Bool) (m : Nat) (e : Int), cmpMag m e f.largest.1 f.largest.2 = .gt →
        (f.convert r e4inf none (.fin neg m e)).code = f.signed neg f.maxCode
        ∧ (f.convert r e4inf none (.fin neg m e)).cvtOvf = true)
    ∧ (∀ (w : Nat) (i : Int), 1 ≤ w →
        -(2 ^ (w - 1) : Int) ≤ (satInt w i).1 ∧ (satInt w i).1 < 2 ^ (w - 1)
        ∧ ((satInt w i).2 = false ↔ (satInt w i).1 = i))
    ∧ (∀ seed tensor index step, dither seed tensor index step < 65536)

/-- The event ring (R399): an event is written as a record of eight words at the tail, which advances, the phase bit changing at each
pass; the record names the register field, the tick and the values, and carries the count of lost events where some were lost; an event
that finds the ring full is counted and dropped.
Where the rules leave a point open or to inference, the clause is the model's choice: log entry 47. -/
def Obligations.EventRing : Prop :=
  ∀ (s : State) (off tail next : Nat) (f : Option Fld) (args : List Nat), tail = s.fget R.PKG_EVQ_PTR F.PKG_EVQ_PTR_TAIL →
    next = (tail + 1) % 2 ^ (s.fget R.PKG_EVQ F.PKG_EVQ_SIZE_LOG2 + 4) →
    (next = s.fget R.PKG_EVQ_PTR F.PKG_EVQ_PTR_HEAD →
      (s.event off f args).fget R.PKG_EVQ_PTR F.PKG_EVQ_PTR_LOST =
        min (s.fget R.PKG_EVQ_PTR F.PKG_EVQ_PTR_LOST + 1) (2 ^ F.PKG_EVQ_PTR_LOST.w - 1)
      ∧ (s.event off f args).mem = s.mem ∧ (s.event off f args).evqLost = true
      ∧ SameRegs s (s.event off f args) [regKey R.PKG_EVQ_PTR F.PKG_EVQ_PTR_LOST])
    ∧ (next ≠ s.fget R.PKG_EVQ_PTR F.PKG_EVQ_PTR_HEAD →
        ∃ (s1 : State) (w : List Nat), w.length = 8
          ∧ s1 = (State.storeLineE (fun s _ => s) s Reach.server false (s.fget R.PKG_EVQ F.PKG_EVQ_ADDR * 4096 + 64 * tail) 64
              (ofWords 64 w)).2
          ∧ (off < 2 ^ 32 → w.getD 0 0 = (if s.evqPhase then 2 ^ 63 else 0) + off / 8 * 2 ^ 32
              + (match f with | some x => x.lo | none => 0x3F) * 2 ^ 26)
          ∧ w.getD 1 0 = s.tick ∧ (∀ i, i < 5 → w.getD (2 + i) 0 = args.getD i 0 % 2 ^ 64)
          ∧ w.getD 7 0 = (if s.evqLost then s.fget R.PKG_EVQ_PTR F.PKG_EVQ_PTR_LOST else args.getD 5 0 % 2 ^ 64)
          ∧ (s.event off f args).mem = s1.mem ∧ (s.event off f args).evqLost = false
          ∧ (s.event off f args).evqPhase = (if next = 0 then !s1.evqPhase else s1.evqPhase)
          ∧ (s.event off f args).fget R.PKG_EVQ_PTR F.PKG_EVQ_PTR_TAIL = next % 2 ^ F.PKG_EVQ_PTR_TAIL.w
          ∧ SameUnits s (s.event off f args))
end

