-- ==== Sys2Proof/Laws/Map.lean ====
section
/-!
SUPPORT. Laws/Map.lean: reading a sparse table after a write, and the canonical form that every write keeps.
-/

set_option Elab.async false

namespace Sys2Proof.Map

variable {α : Type}

@[simp] theorem find?_nil (x : Nat) : find? ([] : Map α) x = none := rfl

@[simp] theorem find?_insert_self (m : Map α) (x : Nat) (v : α) : (m.insert x v).find? x = some v := by
  induction m with
  | nil => simp [insert, find?]
  | cons e r ih =>
    obtain ⟨k, w⟩ := e
    simp only [insert]
    split
    · simp [find?]
    · split
      · simp [find?]
      · simp [find?, *]

theorem find?_insert_ne (m : Map α) {x y : Nat} (v : α) (h : y ≠ x) : (m.insert x v).find? y = m.find? y := by
  induction m with
  | nil => simp [insert, find?, h]
  | cons e r ih =>
    obtain ⟨k, w⟩ := e
    simp only [insert]
    split
    · simp [find?, h]
    · split
      · simp_all [find?]
      · simp [find?, ih]

@[simp] theorem find?_erase_self (m : Map α) (x : Nat) : (m.erase x).find? x = none := by
  induction m with
  | nil => rfl
  | cons e r ih =>
    obtain ⟨k, w⟩ := e
    simp only [erase]
    split
    · exact ih
    · simp [find?, *]

theorem find?_erase_ne (m : Map α) {x y : Nat} (h : y ≠ x) : (m.erase x).find? y = m.find? y := by
  induction m with
  | nil => rfl
  | cons e r ih =>
    obtain ⟨k, w⟩ := e
    simp only [erase]
    split
    · simp_all [find?]
    · simp [find?, ih]

theorem find?_put_ne [DecidableEq α] (d : α) (m : Map α) {x y : Nat} (v : α) (h : y ≠ x) :
    (m.put d x v).find? y = m.find? y := by
  unfold put
  split
  · exact find?_erase_ne m h
  · exact find?_insert_ne m v h

@[simp] theorem get_put_self [DecidableEq α] (d : α) (m : Map α) (x : Nat) (v : α) : get d (m.put d x v) x = v := by
  unfold put get
  split <;> simp_all

theorem get_put_ne [DecidableEq α] (d e : α) (m : Map α) {x y : Nat} (v : α) (h : y ≠ x) :
    get d (m.put e x v) y = get d m y := by
  simp [get, find?_put_ne e m v h]

@[simp] theorem get_insert_self (d : α) (m : Map α) (x : Nat) (v : α) : get d (m.insert x v) x = v := by simp [get]

theorem get_insert_ne (d : α) (m : Map α) {x y : Nat} (v : α) (h : y ≠ x) : get d (m.insert x v) y = get d m y := by
  simp [get, find?_insert_ne m v h]

/-! ### The canonical form -/

/-- A table is sorted when its keys are. -/
theorem sorted_iff (m : Map α) : m.sorted = true ↔ (m.map fun e => e.1).Pairwise (· < ·) := by
  induction m with
  | nil => simp [sorted]
  | cons e r ih =>
    cases r with
    | nil => simp [sorted]
    | cons f r =>
      obtain ⟨a, v⟩ := e
      obtain ⟨b, w⟩ := f
      simp only [sorted, Bool.and_eq_true, decide_eq_true_eq, ih, List.map_cons, List.pairwise_cons, List.mem_cons,
        List.mem_map]
      constructor
      · rintro ⟨hab, hb, hr⟩
        refine ⟨?_, hb, hr⟩
        rintro y (rfl | ⟨z, hz, rfl⟩)
        · exact hab
        · exact lt_trans hab (hb _ ⟨z, hz, rfl⟩)
      · rintro ⟨ha, hb, hr⟩
        exact ⟨ha b (Or.inl rfl), hb, hr⟩

theorem mem_insert {m : Map α} {x : Nat} {v : α} {e : Nat × α} (h : e ∈ m.insert x v) : e = (x, v) ∨ e ∈ m := by
  induction m with
  | nil => simpa [insert] using h
  | cons f r ih =>
    obtain ⟨k, w⟩ := f
    simp only [insert] at h
    split at h
    · simpa using h
    · split at h
      · simp only [List.mem_cons] at h ⊢
        tauto
      · simp only [List.mem_cons] at h ⊢
        rcases h with h | h
        · exact Or.inr (Or.inl h)
        · rcases ih h with h | h
          · exact Or.inl h
          · exact Or.inr (Or.inr h)

theorem erase_sublist (m : Map α) (x : Nat) : List.Sublist (m.erase x) m := by
  induction m with
  | nil => exact List.Sublist.refl _
  | cons f r ih =>
    obtain ⟨k, w⟩ := f
    simp only [erase]
    split
    · exact ih.cons _
    · exact ih.cons_cons _

theorem sorted_of_sublist {m n : Map α} (h : List.Sublist m n) (hn : n.sorted = true) : m.sorted = true := by
  rw [sorted_iff] at *
  exact hn.sublist (h.map _)

theorem sorted_erase {m : Map α} (x : Nat) (h : m.sorted = true) : (m.erase x).sorted = true :=
  sorted_of_sublist (erase_sublist m x) h

theorem sorted_insert {m : Map α} (x : Nat) (v : α) (h : m.sorted = true) : (m.insert x v).sorted = true := by
  rw [sorted_iff] at *
  induction m with
  | nil => simp [insert]
  | cons f r ih =>
    obtain ⟨k, w⟩ := f
    simp only [List.map_cons, List.pairwise_cons, List.mem_map] at h
    obtain ⟨h1, h2⟩ := h
    simp only [insert]
    split
    · rename_i hx
      simp only [List.map_cons, List.pairwise_cons, List.mem_cons, List.mem_map]
      refine ⟨?_, h1, h2⟩
      rintro y (rfl | ⟨z, hz, rfl⟩)
      · exact hx
      · exact lt_trans hx (h1 _ ⟨z, hz, rfl⟩)
    · split
      · rename_i hx
        simp only [List.map_cons, List.pairwise_cons, List.mem_map]
        exact ⟨by rw [hx]; exact h1, h2⟩
      · rename_i hx1 hx2
        simp only [List.map_cons, List.pairwise_cons, List.mem_map]
        refine ⟨?_, ih h2⟩
        rintro y ⟨z, hz, rfl⟩
        rcases mem_insert hz with rfl | hz
        · simp only
          omega
        · exact h1 _ ⟨z, hz, rfl⟩

theorem sorted_put [DecidableEq α] (d : α) {m : Map α} (x : Nat) (v : α) (h : m.sorted = true) :
    (m.put d x v).sorted = true := by
  unfold put
  split
  · exact sorted_erase x h
  · exact sorted_insert x v h

theorem sorted_filter {m : Map α} (f : Nat × α → Bool) (h : m.sorted = true) : Map.sorted (List.filter f m) = true :=
  sorted_of_sublist List.filter_sublist h

end Sys2Proof.Map
end

