-- ==== Sys2Proof/Laws/Mem.lean ====
section
/-!
SUPPORT. Laws/Mem.lean: a byte of memory after a write, and that every memory operation keeps the canonical form.
-/

set_option Elab.async false

namespace Sys2Proof.Machine

theorem Mem.rd_wr_self (m : Mem) (a v : Nat) : (m.wr a v).rd a = v % 256 := by
  simp [Mem.rd, Mem.wr]

theorem Mem.rd_wr_ne (m : Mem) {a b : Nat} (v : Nat) (h : b ≠ a) : (m.wr a v).rd b = m.rd b := by
  simp [Mem.rd, Mem.wr, Map.get_put_ne _ _ _ _ h]

/-- Bytes outside the n bytes written read as before. -/
theorem Mem.rd_wrN_outside (n : Nat) : ∀ (m : Mem) (a v b : Nat), b < a ∨ a + n ≤ b → (m.wrN a n v).rd b = m.rd b := by
  induction n with
  | zero => intro m a v b _; rfl
  | succ n ih =>
    intro m a v b h
    rw [Mem.wrN, ih _ _ _ _ (by omega), Mem.rd_wr_ne _ _ (by omega)]

/-- The n bytes written read as the value written. -/
theorem Mem.rdN_wrN (n : Nat) : ∀ (m : Mem) (a v : Nat), (m.wrN a n v).rdN a n = v % 256 ^ n := by
  induction n with
  | zero => intro m a v; simp [Mem.rdN, Nat.mod_one]
  | succ n ih =>
    intro m a v
    rw [Mem.rdN, Mem.wrN, ih, Mem.rd_wrN_outside _ _ _ _ _ (by omega), Mem.rd_wr_self, Nat.pow_succ, Nat.mul_comm (256 ^ n),
      Nat.mod_mul]

/-- The canonical form as a proposition. -/
theorem Mem.wf_iff (m : Mem) : Mem.wf m = true ↔ Map.sorted m = true ∧ ∀ e ∈ m, e.2 ≠ 0#8 := by
  simp [Mem.wf]

theorem Mem.wf_put {m : Mem} (a : Nat) (v : BitVec 8) (h : Mem.wf m = true) : Mem.wf (Map.put 0#8 m a v) = true := by
  rw [Mem.wf_iff] at *
  refine ⟨Map.sorted_put _ _ _ h.1, ?_⟩
  intro e he
  unfold Map.put at he
  split at he
  · exact h.2 e ((Map.erase_sublist m a).subset he)
  · rename_i hv
    rcases Map.mem_insert he with rfl | he
    · exact hv
    · exact h.2 e he

theorem Mem.wf_wr {m : Mem} (a v : Nat) (h : Mem.wf m = true) : Mem.wf (m.wr a v) = true := Mem.wf_put a _ h

theorem Mem.wf_wrN (n : Nat) : ∀ {m : Mem} (a v : Nat), Mem.wf m = true → Mem.wf (m.wrN a n v) = true := by
  induction n with
  | zero => intro m a v h; exact h
  | succ n ih => intro m a v h; exact ih _ _ (Mem.wf_wr a v h)

theorem Mem.wf_filter {m : Mem} (f : Nat × BitVec 8 → Bool) (h : Mem.wf m = true) : Mem.wf (List.filter f m) = true := by
  rw [Mem.wf_iff] at *
  exact ⟨Map.sorted_filter f h.1, fun e he => h.2 e (List.mem_filter.mp he).1⟩

theorem Mem.wf_zeroRange {m : Mem} (a n : Nat) (h : Mem.wf m = true) : Mem.wf (m.zeroRange a n) = true := Mem.wf_filter _ h

theorem Mem.wf_copyRange {m : Mem} (src : Mem) (d a n : Nat) (h : Mem.wf m = true) :
    Mem.wf (m.copyRange src d a n) = true := by
  unfold Mem.copyRange
  have aux : ∀ (l : List (Nat × BitVec 8)) (k : Mem), Mem.wf k = true →
      Mem.wf (l.foldl (fun m e => Map.put 0#8 m (e.1 - a + d) e.2) k) = true := by
    intro l
    induction l with
    | nil => intro k hk; exact hk
    | cons e l ih => intro k hk; exact ih _ (Mem.wf_put _ _ hk)
  exact aux _ _ (Mem.wf_zeroRange d n h)

theorem reset_memOk : State.reset.memOk := by unfold State.memOk; rfl

end Sys2Proof.Machine
end

