-- ==== Sys2Proof/Laws/State.lean ====
section
/-!
SUPPORT. Laws/State.lean: each field of the state after each named update that does not change it.
-/

set_option Elab.async false

namespace Sys2Proof.Machine

variable (s : State)

/-! ### State.fset -/

@[simp] theorem State.fset_pending (off : Nat) (f : Fld) (v : Nat) : (s.fset off f v).pending = s.pending := rfl
@[simp] theorem State.fset_free (off : Nat) (f : Fld) (v : Nat) : (s.fset off f v).free = s.free := rfl
@[simp] theorem State.fset_rsp (off : Nat) (f : Fld) (v : Nat) : (s.fset off f v).rsp = s.rsp := rfl
@[simp] theorem State.fset_mem (off : Nat) (f : Fld) (v : Nat) : (s.fset off f v).mem = s.mem := rfl
@[simp] theorem State.fset_poison (off : Nat) (f : Fld) (v : Nat) : (s.fset off f v).poison = s.poison := rfl
@[simp] theorem State.fset_soft (off : Nat) (f : Fld) (v : Nat) : (s.fset off f v).soft = s.soft := rfl
@[simp] theorem State.fset_hard (off : Nat) (f : Fld) (v : Nat) : (s.fset off f v).hard = s.hard := rfl
@[simp] theorem State.fset_remap (off : Nat) (f : Fld) (v : Nat) : (s.fset off f v).remap = s.remap := rfl
@[simp] theorem State.fset_spent (off : Nat) (f : Fld) (v : Nat) : (s.fset off f v).spent = s.spent := rfl
@[simp] theorem State.fset_chkCache (off : Nat) (f : Fld) (v : Nat) : (s.fset off f v).chkCache = s.chkCache := rfl
@[simp] theorem State.fset_postponed (off : Nat) (f : Fld) (v : Nat) : (s.fset off f v).postponed = s.postponed := rfl
@[simp] theorem State.fset_refLocked (off : Nat) (f : Fld) (v : Nat) : (s.fset off f v).refLocked = s.refLocked := rfl
@[simp] theorem State.fset_repairs (off : Nat) (f : Fld) (v : Nat) : (s.fset off f v).repairs = s.repairs := rfl
@[simp] theorem State.fset_fuseRows (off : Nat) (f : Fld) (v : Nat) : (s.fset off f v).fuseRows = s.fuseRows := rfl
@[simp] theorem State.fset_fuseCols (off : Nat) (f : Fld) (v : Nat) : (s.fset off f v).fuseCols = s.fuseCols := rfl
@[simp] theorem State.fset_dieRepairs (off : Nat) (f : Fld) (v : Nat) : (s.fset off f v).dieRepairs = s.dieRepairs := rfl
@[simp] theorem State.fset_ucieOut (off : Nat) (f : Fld) (v : Nat) : (s.fset off f v).ucieOut = s.ucieOut := rfl
@[simp] theorem State.fset_ucieHash (off : Nat) (f : Fld) (v : Nat) : (s.fset off f v).ucieHash = s.ucieHash := rfl
@[simp] theorem State.fset_bw (off : Nat) (f : Fld) (v : Nat) : (s.fset off f v).bw = s.bw := rfl
@[simp] theorem State.fset_bwEnd (off : Nat) (f : Fld) (v : Nat) : (s.fset off f v).bwEnd = s.bwEnd := rfl
@[simp] theorem State.fset_rangeMap (off : Nat) (f : Fld) (v : Nat) : (s.fset off f v).rangeMap = s.rangeMap := rfl
@[simp] theorem State.fset_reserved (off : Nat) (f : Fld) (v : Nat) : (s.fset off f v).reserved = s.reserved := rfl
@[simp] theorem State.fset_bad (off : Nat) (f : Fld) (v : Nat) : (s.fset off f v).bad = s.bad := rfl
@[simp] theorem State.fset_rmc (off : Nat) (f : Fld) (v : Nat) : (s.fset off f v).rmc = s.rmc := rfl
@[simp] theorem State.fset_heat (off : Nat) (f : Fld) (v : Nat) : (s.fset off f v).heat = s.heat := rfl
@[simp] theorem State.fset_cache (off : Nat) (f : Fld) (v : Nat) : (s.fset off f v).cache = s.cache := rfl
@[simp] theorem State.fset_wback (off : Nat) (f : Fld) (v : Nat) : (s.fset off f v).wback = s.wback := rfl
@[simp] theorem State.fset_busy (off : Nat) (f : Fld) (v : Nat) : (s.fset off f v).busy = s.busy := rfl
@[simp] theorem State.fset_snoop (off : Nat) (f : Fld) (v : Nat) : (s.fset off f v).snoop = s.snoop := rfl
@[simp] theorem State.fset_arb (off : Nat) (f : Fld) (v : Nat) : (s.fset off f v).arb = s.arb := rfl
@[simp] theorem State.fset_msgs (off : Nat) (f : Fld) (v : Nat) : (s.fset off f v).msgs = s.msgs := rfl
@[simp] theorem State.fset_pools (off : Nat) (f : Fld) (v : Nat) : (s.fset off f v).pools = s.pools := rfl
@[simp] theorem State.fset_migQ (off : Nat) (f : Fld) (v : Nat) : (s.fset off f v).migQ = s.migQ := rfl
@[simp] theorem State.fset_migs (off : Nat) (f : Fld) (v : Nat) : (s.fset off f v).migs = s.migs := rfl
@[simp] theorem State.fset_quiet (off : Nat) (f : Fld) (v : Nat) : (s.fset off f v).quiet = s.quiet := rfl
@[simp] theorem State.fset_ports (off : Nat) (f : Fld) (v : Nat) : (s.fset off f v).ports = s.ports := rfl
@[simp] theorem State.fset_trunkRr (off : Nat) (f : Fld) (v : Nat) : (s.fset off f v).trunkRr = s.trunkRr := rfl
@[simp] theorem State.fset_rreqs (off : Nat) (f : Fld) (v : Nat) : (s.fset off f v).rreqs = s.rreqs := rfl
@[simp] theorem State.fset_stotSeen (off : Nat) (f : Fld) (v : Nat) : (s.fset off f v).stotSeen = s.stotSeen := rfl
@[simp] theorem State.fset_ethStot (off : Nat) (f : Fld) (v : Nat) : (s.fset off f v).ethStot = s.ethStot := rfl
@[simp] theorem State.fset_colls (off : Nat) (f : Fld) (v : Nat) : (s.fset off f v).colls = s.colls := rfl
@[simp] theorem State.fset_collIn (off : Nat) (f : Fld) (v : Nat) : (s.fset off f v).collIn = s.collIn := rfl
@[simp] theorem State.fset_qps (off : Nat) (f : Fld) (v : Nat) : (s.fset off f v).qps = s.qps := rfl
@[simp] theorem State.fset_eths (off : Nat) (f : Fld) (v : Nat) : (s.fset off f v).eths = s.eths := rfl
@[simp] theorem State.fset_epochInc (off : Nat) (f : Fld) (v : Nat) : (s.fset off f v).epochInc = s.epochInc := rfl
@[simp] theorem State.fset_streams (off : Nat) (f : Fld) (v : Nat) : (s.fset off f v).streams = s.streams := rfl
@[simp] theorem State.fset_flash (off : Nat) (f : Fld) (v : Nat) : (s.fset off f v).flash = s.flash := rfl
@[simp] theorem State.fset_lifeDue (off : Nat) (f : Fld) (v : Nat) : (s.fset off f v).lifeDue = s.lifeDue := rfl
@[simp] theorem State.fset_clk (off : Nat) (f : Fld) (v : Nat) : (s.fset off f v).clk = s.clk := rfl
@[simp] theorem State.fset_tiles (off : Nat) (f : Fld) (v : Nat) : (s.fset off f v).tiles = s.tiles := rfl
@[simp] theorem State.fset_herds (off : Nat) (f : Fld) (v : Nat) : (s.fset off f v).herds = s.herds := rfl
@[simp] theorem State.fset_cores (off : Nat) (f : Fld) (v : Nat) : (s.fset off f v).cores = s.cores := rfl
@[simp] theorem State.fset_dieWd (off : Nat) (f : Fld) (v : Nat) : (s.fset off f v).dieWd = s.dieWd := rfl
@[simp] theorem State.fset_parts (off : Nat) (f : Fld) (v : Nat) : (s.fset off f v).parts = s.parts := rfl
@[simp] theorem State.fset_ctxs (off : Nat) (f : Fld) (v : Nat) : (s.fset off f v).ctxs = s.ctxs := rfl
@[simp] theorem State.fset_groups (off : Nat) (f : Fld) (v : Nat) : (s.fset off f v).groups = s.groups := rfl
@[simp] theorem State.fset_gsems (off : Nat) (f : Fld) (v : Nat) : (s.fset off f v).gsems = s.gsems := rfl
@[simp] theorem State.fset_jobFaults (off : Nat) (f : Fld) (v : Nat) : (s.fset off f v).jobFaults = s.jobFaults := rfl
@[simp] theorem State.fset_resetsDue (off : Nat) (f : Fld) (v : Nat) : (s.fset off f v).resetsDue = s.resetsDue := rfl
@[simp] theorem State.fset_doms (off : Nat) (f : Fld) (v : Nat) : (s.fset off f v).doms = s.doms := rfl
@[simp] theorem State.fset_escTimes (off : Nat) (f : Fld) (v : Nat) : (s.fset off f v).escTimes = s.escTimes := rfl
@[simp] theorem State.fset_evqPhase (off : Nat) (f : Fld) (v : Nat) : (s.fset off f v).evqPhase = s.evqPhase := rfl
@[simp] theorem State.fset_evqLost (off : Nat) (f : Fld) (v : Nat) : (s.fset off f v).evqLost = s.evqLost := rfl
@[simp] theorem State.fset_evqIrq (off : Nat) (f : Fld) (v : Nat) : (s.fset off f v).evqIrq = s.evqIrq := rfl
@[simp] theorem State.fset_hltAcc (off : Nat) (f : Fld) (v : Nat) : (s.fset off f v).hltAcc = s.hltAcc := rfl
@[simp] theorem State.fset_hltEv (off : Nat) (f : Fld) (v : Nat) : (s.fset off f v).hltEv = s.hltEv := rfl
@[simp] theorem State.fset_snapQ (off : Nat) (f : Fld) (v : Nat) : (s.fset off f v).snapQ = s.snapQ := rfl
@[simp] theorem State.fset_sparing (off : Nat) (f : Fld) (v : Nat) : (s.fset off f v).sparing = s.sparing := rfl
@[simp] theorem State.fset_logSeq (off : Nat) (f : Fld) (v : Nat) : (s.fset off f v).logSeq = s.logSeq := rfl
@[simp] theorem State.fset_logAt (off : Nat) (f : Fld) (v : Nat) : (s.fset off f v).logAt = s.logAt := rfl
@[simp] theorem State.fset_logDue (off : Nat) (f : Fld) (v : Nat) : (s.fset off f v).logDue = s.logDue := rfl
@[simp] theorem State.fset_joules (off : Nat) (f : Fld) (v : Nat) : (s.fset off f v).joules = s.joules := rfl
@[simp] theorem State.fset_fuses (off : Nat) (f : Fld) (v : Nat) : (s.fset off f v).fuses = s.fuses := rfl
@[simp] theorem State.fset_fuseCmd (off : Nat) (f : Fld) (v : Nat) : (s.fset off f v).fuseCmd = s.fuseCmd := rfl
@[simp] theorem State.fset_flashCmd (off : Nat) (f : Fld) (v : Nat) : (s.fset off f v).flashCmd = s.flashCmd := rfl
@[simp] theorem State.fset_attest (off : Nat) (f : Fld) (v : Nat) : (s.fset off f v).attest = s.attest := rfl
@[simp] theorem State.fset_idKey (off : Nat) (f : Fld) (v : Nat) : (s.fset off f v).idKey = s.idKey := rfl
@[simp] theorem State.fset_pubDigest (off : Nat) (f : Fld) (v : Nat) : (s.fset off f v).pubDigest = s.pubDigest := rfl
@[simp] theorem State.fset_servers (off : Nat) (f : Fld) (v : Nat) : (s.fset off f v).servers = s.servers := rfl
@[simp] theorem State.fset_pwr (off : Nat) (f : Fld) (v : Nat) : (s.fset off f v).pwr = s.pwr := rfl
@[simp] theorem State.fset_mgmt (off : Nat) (f : Fld) (v : Nat) : (s.fset off f v).mgmt = s.mgmt := rfl
@[simp] theorem State.fset_tap (off : Nat) (f : Fld) (v : Nat) : (s.fset off f v).tap = s.tap := rfl
@[simp] theorem State.fset_chans (off : Nat) (f : Fld) (v : Nat) : (s.fset off f v).chans = s.chans := rfl
@[simp] theorem State.fset_llc (off : Nat) (f : Fld) (v : Nat) : (s.fset off f v).llc = s.llc := rfl
@[simp] theorem State.fset_reqQ (off : Nat) (f : Fld) (v : Nat) : (s.fset off f v).reqQ = s.reqQ := rfl
@[simp] theorem State.fset_regQs (off : Nat) (f : Fld) (v : Nat) : (s.fset off f v).regQs = s.regQs := rfl
@[simp] theorem State.fset_retiring (off : Nat) (f : Fld) (v : Nat) : (s.fset off f v).retiring = s.retiring := rfl
@[simp] theorem State.fset_rmUpd (off : Nat) (f : Fld) (v : Nat) : (s.fset off f v).rmUpd = s.rmUpd := rfl
@[simp] theorem State.fset_promo (off : Nat) (f : Fld) (v : Nat) : (s.fset off f v).promo = s.promo := rfl
@[simp] theorem State.fset_demo (off : Nat) (f : Fld) (v : Nat) : (s.fset off f v).demo = s.demo := rfl
@[simp] theorem State.fset_epochTick (off : Nat) (f : Fld) (v : Nat) : (s.fset off f v).epochTick = s.epochTick := rfl
@[simp] theorem State.fset_rwait (off : Nat) (f : Fld) (v : Nat) : (s.fset off f v).rwait = s.rwait := rfl
@[simp] theorem State.fset_pcieCfg (off : Nat) (f : Fld) (v : Nat) : (s.fset off f v).pcieCfg = s.pcieCfg := rfl
@[simp] theorem State.fset_pgSeen (off : Nat) (f : Fld) (v : Nat) : (s.fset off f v).pgSeen = s.pgSeen := rfl
@[simp] theorem State.fset_spareHard (off : Nat) (f : Fld) (v : Nat) : (s.fset off f v).spareHard = s.spareHard := rfl
@[simp] theorem State.fset_copies (off : Nat) (f : Fld) (v : Nat) : (s.fset off f v).copies = s.copies := rfl
@[simp] theorem State.fset_holds (off : Nat) (f : Fld) (v : Nat) : (s.fset off f v).holds = s.holds := rfl
@[simp] theorem State.fset_refs (off : Nat) (f : Fld) (v : Nat) : (s.fset off f v).refs = s.refs := rfl
@[simp] theorem State.fset_fuseList (off : Nat) (f : Fld) (v : Nat) : (s.fset off f v).fuseList = s.fuseList := rfl
@[simp] theorem State.fset_recent (off : Nat) (f : Fld) (v : Nat) : (s.fset off f v).recent = s.recent := rfl
@[simp] theorem State.fset_acc (off : Nat) (f : Fld) (v : Nat) : (s.fset off f v).acc = s.acc := rfl
@[simp] theorem State.fset_came (off : Nat) (f : Fld) (v : Nat) : (s.fset off f v).came = s.came := rfl
@[simp] theorem State.fset_tickets (off : Nat) (f : Fld) (v : Nat) : (s.fset off f v).tickets = s.tickets := rfl
@[simp] theorem State.fset_msis (off : Nat) (f : Fld) (v : Nat) : (s.fset off f v).msis = s.msis := rfl
@[simp] theorem State.fset_inkTurn (off : Nat) (f : Fld) (v : Nat) : (s.fset off f v).inkTurn = s.inkTurn := rfl

/-! ### State.answer -/

@[simp] theorem State.answer_pending (k : RspKind) (d : Nat) : (s.answer k d).pending = s.pending := rfl
@[simp] theorem State.answer_free (k : RspKind) (d : Nat) : (s.answer k d).free = s.free := rfl
@[simp] theorem State.answer_regs (k : RspKind) (d : Nat) : (s.answer k d).regs = s.regs := rfl
@[simp] theorem State.answer_mem (k : RspKind) (d : Nat) : (s.answer k d).mem = s.mem := rfl
@[simp] theorem State.answer_poison (k : RspKind) (d : Nat) : (s.answer k d).poison = s.poison := rfl
@[simp] theorem State.answer_soft (k : RspKind) (d : Nat) : (s.answer k d).soft = s.soft := rfl
@[simp] theorem State.answer_hard (k : RspKind) (d : Nat) : (s.answer k d).hard = s.hard := rfl
@[simp] theorem State.answer_remap (k : RspKind) (d : Nat) : (s.answer k d).remap = s.remap := rfl
@[simp] theorem State.answer_spent (k : RspKind) (d : Nat) : (s.answer k d).spent = s.spent := rfl
@[simp] theorem State.answer_chkCache (k : RspKind) (d : Nat) : (s.answer k d).chkCache = s.chkCache := rfl
@[simp] theorem State.answer_postponed (k : RspKind) (d : Nat) : (s.answer k d).postponed = s.postponed := rfl
@[simp] theorem State.answer_refLocked (k : RspKind) (d : Nat) : (s.answer k d).refLocked = s.refLocked := rfl
@[simp] theorem State.answer_repairs (k : RspKind) (d : Nat) : (s.answer k d).repairs = s.repairs := rfl
@[simp] theorem State.answer_fuseRows (k : RspKind) (d : Nat) : (s.answer k d).fuseRows = s.fuseRows := rfl
@[simp] theorem State.answer_fuseCols (k : RspKind) (d : Nat) : (s.answer k d).fuseCols = s.fuseCols := rfl
@[simp] theorem State.answer_dieRepairs (k : RspKind) (d : Nat) : (s.answer k d).dieRepairs = s.dieRepairs := rfl
@[simp] theorem State.answer_ucieOut (k : RspKind) (d : Nat) : (s.answer k d).ucieOut = s.ucieOut := rfl
@[simp] theorem State.answer_ucieHash (k : RspKind) (d : Nat) : (s.answer k d).ucieHash = s.ucieHash := rfl
@[simp] theorem State.answer_bw (k : RspKind) (d : Nat) : (s.answer k d).bw = s.bw := rfl
@[simp] theorem State.answer_bwEnd (k : RspKind) (d : Nat) : (s.answer k d).bwEnd = s.bwEnd := rfl
@[simp] theorem State.answer_rangeMap (k : RspKind) (d : Nat) : (s.answer k d).rangeMap = s.rangeMap := rfl
@[simp] theorem State.answer_reserved (k : RspKind) (d : Nat) : (s.answer k d).reserved = s.reserved := rfl
@[simp] theorem State.answer_bad (k : RspKind) (d : Nat) : (s.answer k d).bad = s.bad := rfl
@[simp] theorem State.answer_rmc (k : RspKind) (d : Nat) : (s.answer k d).rmc = s.rmc := rfl
@[simp] theorem State.answer_heat (k : RspKind) (d : Nat) : (s.answer k d).heat = s.heat := rfl
@[simp] theorem State.answer_cache (k : RspKind) (d : Nat) : (s.answer k d).cache = s.cache := rfl
@[simp] theorem State.answer_wback (k : RspKind) (d : Nat) : (s.answer k d).wback = s.wback := rfl
@[simp] theorem State.answer_busy (k : RspKind) (d : Nat) : (s.answer k d).busy = s.busy := rfl
@[simp] theorem State.answer_snoop (k : RspKind) (d : Nat) : (s.answer k d).snoop = s.snoop := rfl
@[simp] theorem State.answer_arb (k : RspKind) (d : Nat) : (s.answer k d).arb = s.arb := rfl
@[simp] theorem State.answer_msgs (k : RspKind) (d : Nat) : (s.answer k d).msgs = s.msgs := rfl
@[simp] theorem State.answer_pools (k : RspKind) (d : Nat) : (s.answer k d).pools = s.pools := rfl
@[simp] theorem State.answer_migQ (k : RspKind) (d : Nat) : (s.answer k d).migQ = s.migQ := rfl
@[simp] theorem State.answer_migs (k : RspKind) (d : Nat) : (s.answer k d).migs = s.migs := rfl
@[simp] theorem State.answer_quiet (k : RspKind) (d : Nat) : (s.answer k d).quiet = s.quiet := rfl
@[simp] theorem State.answer_ports (k : RspKind) (d : Nat) : (s.answer k d).ports = s.ports := rfl
@[simp] theorem State.answer_trunkRr (k : RspKind) (d : Nat) : (s.answer k d).trunkRr = s.trunkRr := rfl
@[simp] theorem State.answer_rreqs (k : RspKind) (d : Nat) : (s.answer k d).rreqs = s.rreqs := rfl
@[simp] theorem State.answer_stotSeen (k : RspKind) (d : Nat) : (s.answer k d).stotSeen = s.stotSeen := rfl
@[simp] theorem State.answer_ethStot (k : RspKind) (d : Nat) : (s.answer k d).ethStot = s.ethStot := rfl
@[simp] theorem State.answer_colls (k : RspKind) (d : Nat) : (s.answer k d).colls = s.colls := rfl
@[simp] theorem State.answer_collIn (k : RspKind) (d : Nat) : (s.answer k d).collIn = s.collIn := rfl
@[simp] theorem State.answer_qps (k : RspKind) (d : Nat) : (s.answer k d).qps = s.qps := rfl
@[simp] theorem State.answer_eths (k : RspKind) (d : Nat) : (s.answer k d).eths = s.eths := rfl
@[simp] theorem State.answer_epochInc (k : RspKind) (d : Nat) : (s.answer k d).epochInc = s.epochInc := rfl
@[simp] theorem State.answer_streams (k : RspKind) (d : Nat) : (s.answer k d).streams = s.streams := rfl
@[simp] theorem State.answer_flash (k : RspKind) (d : Nat) : (s.answer k d).flash = s.flash := rfl
@[simp] theorem State.answer_lifeDue (k : RspKind) (d : Nat) : (s.answer k d).lifeDue = s.lifeDue := rfl
@[simp] theorem State.answer_clk (k : RspKind) (d : Nat) : (s.answer k d).clk = s.clk := rfl
@[simp] theorem State.answer_tiles (k : RspKind) (d : Nat) : (s.answer k d).tiles = s.tiles := rfl
@[simp] theorem State.answer_herds (k : RspKind) (d : Nat) : (s.answer k d).herds = s.herds := rfl
@[simp] theorem State.answer_cores (k : RspKind) (d : Nat) : (s.answer k d).cores = s.cores := rfl
@[simp] theorem State.answer_dieWd (k : RspKind) (d : Nat) : (s.answer k d).dieWd = s.dieWd := rfl
@[simp] theorem State.answer_parts (k : RspKind) (d : Nat) : (s.answer k d).parts = s.parts := rfl
@[simp] theorem State.answer_ctxs (k : RspKind) (d : Nat) : (s.answer k d).ctxs = s.ctxs := rfl
@[simp] theorem State.answer_groups (k : RspKind) (d : Nat) : (s.answer k d).groups = s.groups := rfl
@[simp] theorem State.answer_gsems (k : RspKind) (d : Nat) : (s.answer k d).gsems = s.gsems := rfl
@[simp] theorem State.answer_jobFaults (k : RspKind) (d : Nat) : (s.answer k d).jobFaults = s.jobFaults := rfl
@[simp] theorem State.answer_resetsDue (k : RspKind) (d : Nat) : (s.answer k d).resetsDue = s.resetsDue := rfl
@[simp] theorem State.answer_doms (k : RspKind) (d : Nat) : (s.answer k d).doms = s.doms := rfl
@[simp] theorem State.answer_escTimes (k : RspKind) (d : Nat) : (s.answer k d).escTimes = s.escTimes := rfl
@[simp] theorem State.answer_evqPhase (k : RspKind) (d : Nat) : (s.answer k d).evqPhase = s.evqPhase := rfl
@[simp] theorem State.answer_evqLost (k : RspKind) (d : Nat) : (s.answer k d).evqLost = s.evqLost := rfl
@[simp] theorem State.answer_evqIrq (k : RspKind) (d : Nat) : (s.answer k d).evqIrq = s.evqIrq := rfl
@[simp] theorem State.answer_hltAcc (k : RspKind) (d : Nat) : (s.answer k d).hltAcc = s.hltAcc := rfl
@[simp] theorem State.answer_hltEv (k : RspKind) (d : Nat) : (s.answer k d).hltEv = s.hltEv := rfl
@[simp] theorem State.answer_snapQ (k : RspKind) (d : Nat) : (s.answer k d).snapQ = s.snapQ := rfl
@[simp] theorem State.answer_sparing (k : RspKind) (d : Nat) : (s.answer k d).sparing = s.sparing := rfl
@[simp] theorem State.answer_logSeq (k : RspKind) (d : Nat) : (s.answer k d).logSeq = s.logSeq := rfl
@[simp] theorem State.answer_logAt (k : RspKind) (d : Nat) : (s.answer k d).logAt = s.logAt := rfl
@[simp] theorem State.answer_logDue (k : RspKind) (d : Nat) : (s.answer k d).logDue = s.logDue := rfl
@[simp] theorem State.answer_joules (k : RspKind) (d : Nat) : (s.answer k d).joules = s.joules := rfl
@[simp] theorem State.answer_fuses (k : RspKind) (d : Nat) : (s.answer k d).fuses = s.fuses := rfl
@[simp] theorem State.answer_fuseCmd (k : RspKind) (d : Nat) : (s.answer k d).fuseCmd = s.fuseCmd := rfl
@[simp] theorem State.answer_flashCmd (k : RspKind) (d : Nat) : (s.answer k d).flashCmd = s.flashCmd := rfl
@[simp] theorem State.answer_attest (k : RspKind) (d : Nat) : (s.answer k d).attest = s.attest := rfl
@[simp] theorem State.answer_idKey (k : RspKind) (d : Nat) : (s.answer k d).idKey = s.idKey := rfl
@[simp] theorem State.answer_pubDigest (k : RspKind) (d : Nat) : (s.answer k d).pubDigest = s.pubDigest := rfl
@[simp] theorem State.answer_servers (k : RspKind) (d : Nat) : (s.answer k d).servers = s.servers := rfl
@[simp] theorem State.answer_pwr (k : RspKind) (d : Nat) : (s.answer k d).pwr = s.pwr := rfl
@[simp] theorem State.answer_mgmt (k : RspKind) (d : Nat) : (s.answer k d).mgmt = s.mgmt := rfl
@[simp] theorem State.answer_tap (k : RspKind) (d : Nat) : (s.answer k d).tap = s.tap := rfl
@[simp] theorem State.answer_chans (k : RspKind) (d : Nat) : (s.answer k d).chans = s.chans := rfl
@[simp] theorem State.answer_llc (k : RspKind) (d : Nat) : (s.answer k d).llc = s.llc := rfl
@[simp] theorem State.answer_reqQ (k : RspKind) (d : Nat) : (s.answer k d).reqQ = s.reqQ := rfl
@[simp] theorem State.answer_regQs (k : RspKind) (d : Nat) : (s.answer k d).regQs = s.regQs := rfl
@[simp] theorem State.answer_retiring (k : RspKind) (d : Nat) : (s.answer k d).retiring = s.retiring := rfl
@[simp] theorem State.answer_rmUpd (k : RspKind) (d : Nat) : (s.answer k d).rmUpd = s.rmUpd := rfl
@[simp] theorem State.answer_promo (k : RspKind) (d : Nat) : (s.answer k d).promo = s.promo := rfl
@[simp] theorem State.answer_demo (k : RspKind) (d : Nat) : (s.answer k d).demo = s.demo := rfl
@[simp] theorem State.answer_epochTick (k : RspKind) (d : Nat) : (s.answer k d).epochTick = s.epochTick := rfl
@[simp] theorem State.answer_rwait (k : RspKind) (d : Nat) : (s.answer k d).rwait = s.rwait := rfl
@[simp] theorem State.answer_pcieCfg (k : RspKind) (d : Nat) : (s.answer k d).pcieCfg = s.pcieCfg := rfl
@[simp] theorem State.answer_pgSeen (k : RspKind) (d : Nat) : (s.answer k d).pgSeen = s.pgSeen := rfl
@[simp] theorem State.answer_spareHard (k : RspKind) (d : Nat) : (s.answer k d).spareHard = s.spareHard := rfl
@[simp] theorem State.answer_copies (k : RspKind) (d : Nat) : (s.answer k d).copies = s.copies := rfl
@[simp] theorem State.answer_holds (k : RspKind) (d : Nat) : (s.answer k d).holds = s.holds := rfl
@[simp] theorem State.answer_refs (k : RspKind) (d : Nat) : (s.answer k d).refs = s.refs := rfl
@[simp] theorem State.answer_fuseList (k : RspKind) (d : Nat) : (s.answer k d).fuseList = s.fuseList := rfl
@[simp] theorem State.answer_recent (k : RspKind) (d : Nat) : (s.answer k d).recent = s.recent := rfl
@[simp] theorem State.answer_acc (k : RspKind) (d : Nat) : (s.answer k d).acc = s.acc := rfl
@[simp] theorem State.answer_came (k : RspKind) (d : Nat) : (s.answer k d).came = s.came := rfl
@[simp] theorem State.answer_tickets (k : RspKind) (d : Nat) : (s.answer k d).tickets = s.tickets := rfl
@[simp] theorem State.answer_msis (k : RspKind) (d : Nat) : (s.answer k d).msis = s.msis := rfl
@[simp] theorem State.answer_inkTurn (k : RspKind) (d : Nat) : (s.answer k d).inkTurn = s.inkTurn := rfl

/-! ### State.setTile -/

@[simp] theorem State.setTile_pending (t : Nat) (x : Tile) : (s.setTile t x).pending = s.pending := rfl
@[simp] theorem State.setTile_free (t : Nat) (x : Tile) : (s.setTile t x).free = s.free := rfl
@[simp] theorem State.setTile_rsp (t : Nat) (x : Tile) : (s.setTile t x).rsp = s.rsp := rfl
@[simp] theorem State.setTile_regs (t : Nat) (x : Tile) : (s.setTile t x).regs = s.regs := rfl
@[simp] theorem State.setTile_mem (t : Nat) (x : Tile) : (s.setTile t x).mem = s.mem := rfl
@[simp] theorem State.setTile_poison (t : Nat) (x : Tile) : (s.setTile t x).poison = s.poison := rfl
@[simp] theorem State.setTile_soft (t : Nat) (x : Tile) : (s.setTile t x).soft = s.soft := rfl
@[simp] theorem State.setTile_hard (t : Nat) (x : Tile) : (s.setTile t x).hard = s.hard := rfl
@[simp] theorem State.setTile_remap (t : Nat) (x : Tile) : (s.setTile t x).remap = s.remap := rfl
@[simp] theorem State.setTile_spent (t : Nat) (x : Tile) : (s.setTile t x).spent = s.spent := rfl
@[simp] theorem State.setTile_chkCache (t : Nat) (x : Tile) : (s.setTile t x).chkCache = s.chkCache := rfl
@[simp] theorem State.setTile_postponed (t : Nat) (x : Tile) : (s.setTile t x).postponed = s.postponed := rfl
@[simp] theorem State.setTile_refLocked (t : Nat) (x : Tile) : (s.setTile t x).refLocked = s.refLocked := rfl
@[simp] theorem State.setTile_repairs (t : Nat) (x : Tile) : (s.setTile t x).repairs = s.repairs := rfl
@[simp] theorem State.setTile_fuseRows (t : Nat) (x : Tile) : (s.setTile t x).fuseRows = s.fuseRows := rfl
@[simp] theorem State.setTile_fuseCols (t : Nat) (x : Tile) : (s.setTile t x).fuseCols = s.fuseCols := rfl
@[simp] theorem State.setTile_dieRepairs (t : Nat) (x : Tile) : (s.setTile t x).dieRepairs = s.dieRepairs := rfl
@[simp] theorem State.setTile_ucieOut (t : Nat) (x : Tile) : (s.setTile t x).ucieOut = s.ucieOut := rfl
@[simp] theorem State.setTile_ucieHash (t : Nat) (x : Tile) : (s.setTile t x).ucieHash = s.ucieHash := rfl
@[simp] theorem State.setTile_bw (t : Nat) (x : Tile) : (s.setTile t x).bw = s.bw := rfl
@[simp] theorem State.setTile_bwEnd (t : Nat) (x : Tile) : (s.setTile t x).bwEnd = s.bwEnd := rfl
@[simp] theorem State.setTile_rangeMap (t : Nat) (x : Tile) : (s.setTile t x).rangeMap = s.rangeMap := rfl
@[simp] theorem State.setTile_reserved (t : Nat) (x : Tile) : (s.setTile t x).reserved = s.reserved := rfl
@[simp] theorem State.setTile_bad (t : Nat) (x : Tile) : (s.setTile t x).bad = s.bad := rfl
@[simp] theorem State.setTile_rmc (t : Nat) (x : Tile) : (s.setTile t x).rmc = s.rmc := rfl
@[simp] theorem State.setTile_heat (t : Nat) (x : Tile) : (s.setTile t x).heat = s.heat := rfl
@[simp] theorem State.setTile_cache (t : Nat) (x : Tile) : (s.setTile t x).cache = s.cache := rfl
@[simp] theorem State.setTile_wback (t : Nat) (x : Tile) : (s.setTile t x).wback = s.wback := rfl
@[simp] theorem State.setTile_busy (t : Nat) (x : Tile) : (s.setTile t x).busy = s.busy := rfl
@[simp] theorem State.setTile_snoop (t : Nat) (x : Tile) : (s.setTile t x).snoop = s.snoop := rfl
@[simp] theorem State.setTile_arb (t : Nat) (x : Tile) : (s.setTile t x).arb = s.arb := rfl
@[simp] theorem State.setTile_msgs (t : Nat) (x : Tile) : (s.setTile t x).msgs = s.msgs := rfl
@[simp] theorem State.setTile_pools (t : Nat) (x : Tile) : (s.setTile t x).pools = s.pools := rfl
@[simp] theorem State.setTile_migQ (t : Nat) (x : Tile) : (s.setTile t x).migQ = s.migQ := rfl
@[simp] theorem State.setTile_migs (t : Nat) (x : Tile) : (s.setTile t x).migs = s.migs := rfl
@[simp] theorem State.setTile_quiet (t : Nat) (x : Tile) : (s.setTile t x).quiet = s.quiet := rfl
@[simp] theorem State.setTile_ports (t : Nat) (x : Tile) : (s.setTile t x).ports = s.ports := rfl
@[simp] theorem State.setTile_trunkRr (t : Nat) (x : Tile) : (s.setTile t x).trunkRr = s.trunkRr := rfl
@[simp] theorem State.setTile_rreqs (t : Nat) (x : Tile) : (s.setTile t x).rreqs = s.rreqs := rfl
@[simp] theorem State.setTile_stotSeen (t : Nat) (x : Tile) : (s.setTile t x).stotSeen = s.stotSeen := rfl
@[simp] theorem State.setTile_ethStot (t : Nat) (x : Tile) : (s.setTile t x).ethStot = s.ethStot := rfl
@[simp] theorem State.setTile_colls (t : Nat) (x : Tile) : (s.setTile t x).colls = s.colls := rfl
@[simp] theorem State.setTile_collIn (t : Nat) (x : Tile) : (s.setTile t x).collIn = s.collIn := rfl
@[simp] theorem State.setTile_qps (t : Nat) (x : Tile) : (s.setTile t x).qps = s.qps := rfl
@[simp] theorem State.setTile_eths (t : Nat) (x : Tile) : (s.setTile t x).eths = s.eths := rfl
@[simp] theorem State.setTile_epochInc (t : Nat) (x : Tile) : (s.setTile t x).epochInc = s.epochInc := rfl
@[simp] theorem State.setTile_streams (t : Nat) (x : Tile) : (s.setTile t x).streams = s.streams := rfl
@[simp] theorem State.setTile_flash (t : Nat) (x : Tile) : (s.setTile t x).flash = s.flash := rfl
@[simp] theorem State.setTile_lifeDue (t : Nat) (x : Tile) : (s.setTile t x).lifeDue = s.lifeDue := rfl
@[simp] theorem State.setTile_clk (t : Nat) (x : Tile) : (s.setTile t x).clk = s.clk := rfl
@[simp] theorem State.setTile_herds (t : Nat) (x : Tile) : (s.setTile t x).herds = s.herds := rfl
@[simp] theorem State.setTile_cores (t : Nat) (x : Tile) : (s.setTile t x).cores = s.cores := rfl
@[simp] theorem State.setTile_dieWd (t : Nat) (x : Tile) : (s.setTile t x).dieWd = s.dieWd := rfl
@[simp] theorem State.setTile_parts (t : Nat) (x : Tile) : (s.setTile t x).parts = s.parts := rfl
@[simp] theorem State.setTile_ctxs (t : Nat) (x : Tile) : (s.setTile t x).ctxs = s.ctxs := rfl
@[simp] theorem State.setTile_groups (t : Nat) (x : Tile) : (s.setTile t x).groups = s.groups := rfl
@[simp] theorem State.setTile_gsems (t : Nat) (x : Tile) : (s.setTile t x).gsems = s.gsems := rfl
@[simp] theorem State.setTile_jobFaults (t : Nat) (x : Tile) : (s.setTile t x).jobFaults = s.jobFaults := rfl
@[simp] theorem State.setTile_resetsDue (t : Nat) (x : Tile) : (s.setTile t x).resetsDue = s.resetsDue := rfl
@[simp] theorem State.setTile_doms (t : Nat) (x : Tile) : (s.setTile t x).doms = s.doms := rfl
@[simp] theorem State.setTile_escTimes (t : Nat) (x : Tile) : (s.setTile t x).escTimes = s.escTimes := rfl
@[simp] theorem State.setTile_evqPhase (t : Nat) (x : Tile) : (s.setTile t x).evqPhase = s.evqPhase := rfl
@[simp] theorem State.setTile_evqLost (t : Nat) (x : Tile) : (s.setTile t x).evqLost = s.evqLost := rfl
@[simp] theorem State.setTile_evqIrq (t : Nat) (x : Tile) : (s.setTile t x).evqIrq = s.evqIrq := rfl
@[simp] theorem State.setTile_hltAcc (t : Nat) (x : Tile) : (s.setTile t x).hltAcc = s.hltAcc := rfl
@[simp] theorem State.setTile_hltEv (t : Nat) (x : Tile) : (s.setTile t x).hltEv = s.hltEv := rfl
@[simp] theorem State.setTile_snapQ (t : Nat) (x : Tile) : (s.setTile t x).snapQ = s.snapQ := rfl
@[simp] theorem State.setTile_sparing (t : Nat) (x : Tile) : (s.setTile t x).sparing = s.sparing := rfl
@[simp] theorem State.setTile_logSeq (t : Nat) (x : Tile) : (s.setTile t x).logSeq = s.logSeq := rfl
@[simp] theorem State.setTile_logAt (t : Nat) (x : Tile) : (s.setTile t x).logAt = s.logAt := rfl
@[simp] theorem State.setTile_logDue (t : Nat) (x : Tile) : (s.setTile t x).logDue = s.logDue := rfl
@[simp] theorem State.setTile_joules (t : Nat) (x : Tile) : (s.setTile t x).joules = s.joules := rfl
@[simp] theorem State.setTile_fuses (t : Nat) (x : Tile) : (s.setTile t x).fuses = s.fuses := rfl
@[simp] theorem State.setTile_fuseCmd (t : Nat) (x : Tile) : (s.setTile t x).fuseCmd = s.fuseCmd := rfl
@[simp] theorem State.setTile_flashCmd (t : Nat) (x : Tile) : (s.setTile t x).flashCmd = s.flashCmd := rfl
@[simp] theorem State.setTile_attest (t : Nat) (x : Tile) : (s.setTile t x).attest = s.attest := rfl
@[simp] theorem State.setTile_idKey (t : Nat) (x : Tile) : (s.setTile t x).idKey = s.idKey := rfl
@[simp] theorem State.setTile_pubDigest (t : Nat) (x : Tile) : (s.setTile t x).pubDigest = s.pubDigest := rfl
@[simp] theorem State.setTile_servers (t : Nat) (x : Tile) : (s.setTile t x).servers = s.servers := rfl
@[simp] theorem State.setTile_pwr (t : Nat) (x : Tile) : (s.setTile t x).pwr = s.pwr := rfl
@[simp] theorem State.setTile_mgmt (t : Nat) (x : Tile) : (s.setTile t x).mgmt = s.mgmt := rfl
@[simp] theorem State.setTile_tap (t : Nat) (x : Tile) : (s.setTile t x).tap = s.tap := rfl
@[simp] theorem State.setTile_chans (t : Nat) (x : Tile) : (s.setTile t x).chans = s.chans := rfl
@[simp] theorem State.setTile_llc (t : Nat) (x : Tile) : (s.setTile t x).llc = s.llc := rfl
@[simp] theorem State.setTile_reqQ (t : Nat) (x : Tile) : (s.setTile t x).reqQ = s.reqQ := rfl
@[simp] theorem State.setTile_regQs (t : Nat) (x : Tile) : (s.setTile t x).regQs = s.regQs := rfl
@[simp] theorem State.setTile_retiring (t : Nat) (x : Tile) : (s.setTile t x).retiring = s.retiring := rfl
@[simp] theorem State.setTile_rmUpd (t : Nat) (x : Tile) : (s.setTile t x).rmUpd = s.rmUpd := rfl
@[simp] theorem State.setTile_promo (t : Nat) (x : Tile) : (s.setTile t x).promo = s.promo := rfl
@[simp] theorem State.setTile_demo (t : Nat) (x : Tile) : (s.setTile t x).demo = s.demo := rfl
@[simp] theorem State.setTile_epochTick (t : Nat) (x : Tile) : (s.setTile t x).epochTick = s.epochTick := rfl
@[simp] theorem State.setTile_rwait (t : Nat) (x : Tile) : (s.setTile t x).rwait = s.rwait := rfl
@[simp] theorem State.setTile_pcieCfg (t : Nat) (x : Tile) : (s.setTile t x).pcieCfg = s.pcieCfg := rfl
@[simp] theorem State.setTile_pgSeen (t : Nat) (x : Tile) : (s.setTile t x).pgSeen = s.pgSeen := rfl
@[simp] theorem State.setTile_spareHard (t : Nat) (x : Tile) : (s.setTile t x).spareHard = s.spareHard := rfl
@[simp] theorem State.setTile_copies (t : Nat) (x : Tile) : (s.setTile t x).copies = s.copies := rfl
@[simp] theorem State.setTile_holds (t : Nat) (x : Tile) : (s.setTile t x).holds = s.holds := rfl
@[simp] theorem State.setTile_refs (t : Nat) (x : Tile) : (s.setTile t x).refs = s.refs := rfl
@[simp] theorem State.setTile_fuseList (t : Nat) (x : Tile) : (s.setTile t x).fuseList = s.fuseList := rfl
@[simp] theorem State.setTile_recent (t : Nat) (x : Tile) : (s.setTile t x).recent = s.recent := rfl
@[simp] theorem State.setTile_acc (t : Nat) (x : Tile) : (s.setTile t x).acc = s.acc := rfl
@[simp] theorem State.setTile_came (t : Nat) (x : Tile) : (s.setTile t x).came = s.came := rfl
@[simp] theorem State.setTile_tickets (t : Nat) (x : Tile) : (s.setTile t x).tickets = s.tickets := rfl
@[simp] theorem State.setTile_msis (t : Nat) (x : Tile) : (s.setTile t x).msis = s.msis := rfl
@[simp] theorem State.setTile_inkTurn (t : Nat) (x : Tile) : (s.setTile t x).inkTurn = s.inkTurn := rfl

/-! ### State.setHerd -/

@[simp] theorem State.setHerd_pending (h : Nat) (x : Herd) : (s.setHerd h x).pending = s.pending := rfl
@[simp] theorem State.setHerd_free (h : Nat) (x : Herd) : (s.setHerd h x).free = s.free := rfl
@[simp] theorem State.setHerd_rsp (h : Nat) (x : Herd) : (s.setHerd h x).rsp = s.rsp := rfl
@[simp] theorem State.setHerd_regs (h : Nat) (x : Herd) : (s.setHerd h x).regs = s.regs := rfl
@[simp] theorem State.setHerd_mem (h : Nat) (x : Herd) : (s.setHerd h x).mem = s.mem := rfl
@[simp] theorem State.setHerd_poison (h : Nat) (x : Herd) : (s.setHerd h x).poison = s.poison := rfl
@[simp] theorem State.setHerd_soft (h : Nat) (x : Herd) : (s.setHerd h x).soft = s.soft := rfl
@[simp] theorem State.setHerd_hard (h : Nat) (x : Herd) : (s.setHerd h x).hard = s.hard := rfl
@[simp] theorem State.setHerd_remap (h : Nat) (x : Herd) : (s.setHerd h x).remap = s.remap := rfl
@[simp] theorem State.setHerd_spent (h : Nat) (x : Herd) : (s.setHerd h x).spent = s.spent := rfl
@[simp] theorem State.setHerd_chkCache (h : Nat) (x : Herd) : (s.setHerd h x).chkCache = s.chkCache := rfl
@[simp] theorem State.setHerd_postponed (h : Nat) (x : Herd) : (s.setHerd h x).postponed = s.postponed := rfl
@[simp] theorem State.setHerd_refLocked (h : Nat) (x : Herd) : (s.setHerd h x).refLocked = s.refLocked := rfl
@[simp] theorem State.setHerd_repairs (h : Nat) (x : Herd) : (s.setHerd h x).repairs = s.repairs := rfl
@[simp] theorem State.setHerd_fuseRows (h : Nat) (x : Herd) : (s.setHerd h x).fuseRows = s.fuseRows := rfl
@[simp] theorem State.setHerd_fuseCols (h : Nat) (x : Herd) : (s.setHerd h x).fuseCols = s.fuseCols := rfl
@[simp] theorem State.setHerd_dieRepairs (h : Nat) (x : Herd) : (s.setHerd h x).dieRepairs = s.dieRepairs := rfl
@[simp] theorem State.setHerd_ucieOut (h : Nat) (x : Herd) : (s.setHerd h x).ucieOut = s.ucieOut := rfl
@[simp] theorem State.setHerd_ucieHash (h : Nat) (x : Herd) : (s.setHerd h x).ucieHash = s.ucieHash := rfl
@[simp] theorem State.setHerd_bw (h : Nat) (x : Herd) : (s.setHerd h x).bw = s.bw := rfl
@[simp] theorem State.setHerd_bwEnd (h : Nat) (x : Herd) : (s.setHerd h x).bwEnd = s.bwEnd := rfl
@[simp] theorem State.setHerd_rangeMap (h : Nat) (x : Herd) : (s.setHerd h x).rangeMap = s.rangeMap := rfl
@[simp] theorem State.setHerd_reserved (h : Nat) (x : Herd) : (s.setHerd h x).reserved = s.reserved := rfl
@[simp] theorem State.setHerd_bad (h : Nat) (x : Herd) : (s.setHerd h x).bad = s.bad := rfl
@[simp] theorem State.setHerd_rmc (h : Nat) (x : Herd) : (s.setHerd h x).rmc = s.rmc := rfl
@[simp] theorem State.setHerd_heat (h : Nat) (x : Herd) : (s.setHerd h x).heat = s.heat := rfl
@[simp] theorem State.setHerd_cache (h : Nat) (x : Herd) : (s.setHerd h x).cache = s.cache := rfl
@[simp] theorem State.setHerd_wback (h : Nat) (x : Herd) : (s.setHerd h x).wback = s.wback := rfl
@[simp] theorem State.setHerd_busy (h : Nat) (x : Herd) : (s.setHerd h x).busy = s.busy := rfl
@[simp] theorem State.setHerd_snoop (h : Nat) (x : Herd) : (s.setHerd h x).snoop = s.snoop := rfl
@[simp] theorem State.setHerd_arb (h : Nat) (x : Herd) : (s.setHerd h x).arb = s.arb := rfl
@[simp] theorem State.setHerd_msgs (h : Nat) (x : Herd) : (s.setHerd h x).msgs = s.msgs := rfl
@[simp] theorem State.setHerd_pools (h : Nat) (x : Herd) : (s.setHerd h x).pools = s.pools := rfl
@[simp] theorem State.setHerd_migQ (h : Nat) (x : Herd) : (s.setHerd h x).migQ = s.migQ := rfl
@[simp] theorem State.setHerd_migs (h : Nat) (x : Herd) : (s.setHerd h x).migs = s.migs := rfl
@[simp] theorem State.setHerd_quiet (h : Nat) (x : Herd) : (s.setHerd h x).quiet = s.quiet := rfl
@[simp] theorem State.setHerd_ports (h : Nat) (x : Herd) : (s.setHerd h x).ports = s.ports := rfl
@[simp] theorem State.setHerd_trunkRr (h : Nat) (x : Herd) : (s.setHerd h x).trunkRr = s.trunkRr := rfl
@[simp] theorem State.setHerd_rreqs (h : Nat) (x : Herd) : (s.setHerd h x).rreqs = s.rreqs := rfl
@[simp] theorem State.setHerd_stotSeen (h : Nat) (x : Herd) : (s.setHerd h x).stotSeen = s.stotSeen := rfl
@[simp] theorem State.setHerd_ethStot (h : Nat) (x : Herd) : (s.setHerd h x).ethStot = s.ethStot := rfl
@[simp] theorem State.setHerd_colls (h : Nat) (x : Herd) : (s.setHerd h x).colls = s.colls := rfl
@[simp] theorem State.setHerd_collIn (h : Nat) (x : Herd) : (s.setHerd h x).collIn = s.collIn := rfl
@[simp] theorem State.setHerd_qps (h : Nat) (x : Herd) : (s.setHerd h x).qps = s.qps := rfl
@[simp] theorem State.setHerd_eths (h : Nat) (x : Herd) : (s.setHerd h x).eths = s.eths := rfl
@[simp] theorem State.setHerd_epochInc (h : Nat) (x : Herd) : (s.setHerd h x).epochInc = s.epochInc := rfl
@[simp] theorem State.setHerd_streams (h : Nat) (x : Herd) : (s.setHerd h x).streams = s.streams := rfl
@[simp] theorem State.setHerd_flash (h : Nat) (x : Herd) : (s.setHerd h x).flash = s.flash := rfl
@[simp] theorem State.setHerd_lifeDue (h : Nat) (x : Herd) : (s.setHerd h x).lifeDue = s.lifeDue := rfl
@[simp] theorem State.setHerd_clk (h : Nat) (x : Herd) : (s.setHerd h x).clk = s.clk := rfl
@[simp] theorem State.setHerd_tiles (h : Nat) (x : Herd) : (s.setHerd h x).tiles = s.tiles := rfl
@[simp] theorem State.setHerd_cores (h : Nat) (x : Herd) : (s.setHerd h x).cores = s.cores := rfl
@[simp] theorem State.setHerd_dieWd (h : Nat) (x : Herd) : (s.setHerd h x).dieWd = s.dieWd := rfl
@[simp] theorem State.setHerd_parts (h : Nat) (x : Herd) : (s.setHerd h x).parts = s.parts := rfl
@[simp] theorem State.setHerd_ctxs (h : Nat) (x : Herd) : (s.setHerd h x).ctxs = s.ctxs := rfl
@[simp] theorem State.setHerd_groups (h : Nat) (x : Herd) : (s.setHerd h x).groups = s.groups := rfl
@[simp] theorem State.setHerd_gsems (h : Nat) (x : Herd) : (s.setHerd h x).gsems = s.gsems := rfl
@[simp] theorem State.setHerd_jobFaults (h : Nat) (x : Herd) : (s.setHerd h x).jobFaults = s.jobFaults := rfl
@[simp] theorem State.setHerd_resetsDue (h : Nat) (x : Herd) : (s.setHerd h x).resetsDue = s.resetsDue := rfl
@[simp] theorem State.setHerd_doms (h : Nat) (x : Herd) : (s.setHerd h x).doms = s.doms := rfl
@[simp] theorem State.setHerd_escTimes (h : Nat) (x : Herd) : (s.setHerd h x).escTimes = s.escTimes := rfl
@[simp] theorem State.setHerd_evqPhase (h : Nat) (x : Herd) : (s.setHerd h x).evqPhase = s.evqPhase := rfl
@[simp] theorem State.setHerd_evqLost (h : Nat) (x : Herd) : (s.setHerd h x).evqLost = s.evqLost := rfl
@[simp] theorem State.setHerd_evqIrq (h : Nat) (x : Herd) : (s.setHerd h x).evqIrq = s.evqIrq := rfl
@[simp] theorem State.setHerd_hltAcc (h : Nat) (x : Herd) : (s.setHerd h x).hltAcc = s.hltAcc := rfl
@[simp] theorem State.setHerd_hltEv (h : Nat) (x : Herd) : (s.setHerd h x).hltEv = s.hltEv := rfl
@[simp] theorem State.setHerd_snapQ (h : Nat) (x : Herd) : (s.setHerd h x).snapQ = s.snapQ := rfl
@[simp] theorem State.setHerd_sparing (h : Nat) (x : Herd) : (s.setHerd h x).sparing = s.sparing := rfl
@[simp] theorem State.setHerd_logSeq (h : Nat) (x : Herd) : (s.setHerd h x).logSeq = s.logSeq := rfl
@[simp] theorem State.setHerd_logAt (h : Nat) (x : Herd) : (s.setHerd h x).logAt = s.logAt := rfl
@[simp] theorem State.setHerd_logDue (h : Nat) (x : Herd) : (s.setHerd h x).logDue = s.logDue := rfl
@[simp] theorem State.setHerd_joules (h : Nat) (x : Herd) : (s.setHerd h x).joules = s.joules := rfl
@[simp] theorem State.setHerd_fuses (h : Nat) (x : Herd) : (s.setHerd h x).fuses = s.fuses := rfl
@[simp] theorem State.setHerd_fuseCmd (h : Nat) (x : Herd) : (s.setHerd h x).fuseCmd = s.fuseCmd := rfl
@[simp] theorem State.setHerd_flashCmd (h : Nat) (x : Herd) : (s.setHerd h x).flashCmd = s.flashCmd := rfl
@[simp] theorem State.setHerd_attest (h : Nat) (x : Herd) : (s.setHerd h x).attest = s.attest := rfl
@[simp] theorem State.setHerd_idKey (h : Nat) (x : Herd) : (s.setHerd h x).idKey = s.idKey := rfl
@[simp] theorem State.setHerd_pubDigest (h : Nat) (x : Herd) : (s.setHerd h x).pubDigest = s.pubDigest := rfl
@[simp] theorem State.setHerd_servers (h : Nat) (x : Herd) : (s.setHerd h x).servers = s.servers := rfl
@[simp] theorem State.setHerd_pwr (h : Nat) (x : Herd) : (s.setHerd h x).pwr = s.pwr := rfl
@[simp] theorem State.setHerd_mgmt (h : Nat) (x : Herd) : (s.setHerd h x).mgmt = s.mgmt := rfl
@[simp] theorem State.setHerd_tap (h : Nat) (x : Herd) : (s.setHerd h x).tap = s.tap := rfl
@[simp] theorem State.setHerd_chans (h : Nat) (x : Herd) : (s.setHerd h x).chans = s.chans := rfl
@[simp] theorem State.setHerd_llc (h : Nat) (x : Herd) : (s.setHerd h x).llc = s.llc := rfl
@[simp] theorem State.setHerd_reqQ (h : Nat) (x : Herd) : (s.setHerd h x).reqQ = s.reqQ := rfl
@[simp] theorem State.setHerd_regQs (h : Nat) (x : Herd) : (s.setHerd h x).regQs = s.regQs := rfl
@[simp] theorem State.setHerd_retiring (h : Nat) (x : Herd) : (s.setHerd h x).retiring = s.retiring := rfl
@[simp] theorem State.setHerd_rmUpd (h : Nat) (x : Herd) : (s.setHerd h x).rmUpd = s.rmUpd := rfl
@[simp] theorem State.setHerd_promo (h : Nat) (x : Herd) : (s.setHerd h x).promo = s.promo := rfl
@[simp] theorem State.setHerd_demo (h : Nat) (x : Herd) : (s.setHerd h x).demo = s.demo := rfl
@[simp] theorem State.setHerd_epochTick (h : Nat) (x : Herd) : (s.setHerd h x).epochTick = s.epochTick := rfl
@[simp] theorem State.setHerd_rwait (h : Nat) (x : Herd) : (s.setHerd h x).rwait = s.rwait := rfl
@[simp] theorem State.setHerd_pcieCfg (h : Nat) (x : Herd) : (s.setHerd h x).pcieCfg = s.pcieCfg := rfl
@[simp] theorem State.setHerd_pgSeen (h : Nat) (x : Herd) : (s.setHerd h x).pgSeen = s.pgSeen := rfl
@[simp] theorem State.setHerd_spareHard (h : Nat) (x : Herd) : (s.setHerd h x).spareHard = s.spareHard := rfl
@[simp] theorem State.setHerd_copies (h : Nat) (x : Herd) : (s.setHerd h x).copies = s.copies := rfl
@[simp] theorem State.setHerd_holds (h : Nat) (x : Herd) : (s.setHerd h x).holds = s.holds := rfl
@[simp] theorem State.setHerd_refs (h : Nat) (x : Herd) : (s.setHerd h x).refs = s.refs := rfl
@[simp] theorem State.setHerd_fuseList (h : Nat) (x : Herd) : (s.setHerd h x).fuseList = s.fuseList := rfl
@[simp] theorem State.setHerd_recent (h : Nat) (x : Herd) : (s.setHerd h x).recent = s.recent := rfl
@[simp] theorem State.setHerd_acc (h : Nat) (x : Herd) : (s.setHerd h x).acc = s.acc := rfl
@[simp] theorem State.setHerd_came (h : Nat) (x : Herd) : (s.setHerd h x).came = s.came := rfl
@[simp] theorem State.setHerd_tickets (h : Nat) (x : Herd) : (s.setHerd h x).tickets = s.tickets := rfl
@[simp] theorem State.setHerd_msis (h : Nat) (x : Herd) : (s.setHerd h x).msis = s.msis := rfl
@[simp] theorem State.setHerd_inkTurn (h : Nat) (x : Herd) : (s.setHerd h x).inkTurn = s.inkTurn := rfl

/-! ### State.setCore -/

@[simp] theorem State.setCore_pending (c : Nat) (x : Core) : (s.setCore c x).pending = s.pending := rfl
@[simp] theorem State.setCore_free (c : Nat) (x : Core) : (s.setCore c x).free = s.free := rfl
@[simp] theorem State.setCore_rsp (c : Nat) (x : Core) : (s.setCore c x).rsp = s.rsp := rfl
@[simp] theorem State.setCore_regs (c : Nat) (x : Core) : (s.setCore c x).regs = s.regs := rfl
@[simp] theorem State.setCore_mem (c : Nat) (x : Core) : (s.setCore c x).mem = s.mem := rfl
@[simp] theorem State.setCore_poison (c : Nat) (x : Core) : (s.setCore c x).poison = s.poison := rfl
@[simp] theorem State.setCore_soft (c : Nat) (x : Core) : (s.setCore c x).soft = s.soft := rfl
@[simp] theorem State.setCore_hard (c : Nat) (x : Core) : (s.setCore c x).hard = s.hard := rfl
@[simp] theorem State.setCore_remap (c : Nat) (x : Core) : (s.setCore c x).remap = s.remap := rfl
@[simp] theorem State.setCore_spent (c : Nat) (x : Core) : (s.setCore c x).spent = s.spent := rfl
@[simp] theorem State.setCore_chkCache (c : Nat) (x : Core) : (s.setCore c x).chkCache = s.chkCache := rfl
@[simp] theorem State.setCore_postponed (c : Nat) (x : Core) : (s.setCore c x).postponed = s.postponed := rfl
@[simp] theorem State.setCore_refLocked (c : Nat) (x : Core) : (s.setCore c x).refLocked = s.refLocked := rfl
@[simp] theorem State.setCore_repairs (c : Nat) (x : Core) : (s.setCore c x).repairs = s.repairs := rfl
@[simp] theorem State.setCore_fuseRows (c : Nat) (x : Core) : (s.setCore c x).fuseRows = s.fuseRows := rfl
@[simp] theorem State.setCore_fuseCols (c : Nat) (x : Core) : (s.setCore c x).fuseCols = s.fuseCols := rfl
@[simp] theorem State.setCore_dieRepairs (c : Nat) (x : Core) : (s.setCore c x).dieRepairs = s.dieRepairs := rfl
@[simp] theorem State.setCore_ucieOut (c : Nat) (x : Core) : (s.setCore c x).ucieOut = s.ucieOut := rfl
@[simp] theorem State.setCore_ucieHash (c : Nat) (x : Core) : (s.setCore c x).ucieHash = s.ucieHash := rfl
@[simp] theorem State.setCore_bw (c : Nat) (x : Core) : (s.setCore c x).bw = s.bw := rfl
@[simp] theorem State.setCore_bwEnd (c : Nat) (x : Core) : (s.setCore c x).bwEnd = s.bwEnd := rfl
@[simp] theorem State.setCore_rangeMap (c : Nat) (x : Core) : (s.setCore c x).rangeMap = s.rangeMap := rfl
@[simp] theorem State.setCore_reserved (c : Nat) (x : Core) : (s.setCore c x).reserved = s.reserved := rfl
@[simp] theorem State.setCore_bad (c : Nat) (x : Core) : (s.setCore c x).bad = s.bad := rfl
@[simp] theorem State.setCore_rmc (c : Nat) (x : Core) : (s.setCore c x).rmc = s.rmc := rfl
@[simp] theorem State.setCore_heat (c : Nat) (x : Core) : (s.setCore c x).heat = s.heat := rfl
@[simp] theorem State.setCore_cache (c : Nat) (x : Core) : (s.setCore c x).cache = s.cache := rfl
@[simp] theorem State.setCore_wback (c : Nat) (x : Core) : (s.setCore c x).wback = s.wback := rfl
@[simp] theorem State.setCore_busy (c : Nat) (x : Core) : (s.setCore c x).busy = s.busy := rfl
@[simp] theorem State.setCore_snoop (c : Nat) (x : Core) : (s.setCore c x).snoop = s.snoop := rfl
@[simp] theorem State.setCore_arb (c : Nat) (x : Core) : (s.setCore c x).arb = s.arb := rfl
@[simp] theorem State.setCore_msgs (c : Nat) (x : Core) : (s.setCore c x).msgs = s.msgs := rfl
@[simp] theorem State.setCore_pools (c : Nat) (x : Core) : (s.setCore c x).pools = s.pools := rfl
@[simp] theorem State.setCore_migQ (c : Nat) (x : Core) : (s.setCore c x).migQ = s.migQ := rfl
@[simp] theorem State.setCore_migs (c : Nat) (x : Core) : (s.setCore c x).migs = s.migs := rfl
@[simp] theorem State.setCore_quiet (c : Nat) (x : Core) : (s.setCore c x).quiet = s.quiet := rfl
@[simp] theorem State.setCore_ports (c : Nat) (x : Core) : (s.setCore c x).ports = s.ports := rfl
@[simp] theorem State.setCore_trunkRr (c : Nat) (x : Core) : (s.setCore c x).trunkRr = s.trunkRr := rfl
@[simp] theorem State.setCore_rreqs (c : Nat) (x : Core) : (s.setCore c x).rreqs = s.rreqs := rfl
@[simp] theorem State.setCore_stotSeen (c : Nat) (x : Core) : (s.setCore c x).stotSeen = s.stotSeen := rfl
@[simp] theorem State.setCore_ethStot (c : Nat) (x : Core) : (s.setCore c x).ethStot = s.ethStot := rfl
@[simp] theorem State.setCore_colls (c : Nat) (x : Core) : (s.setCore c x).colls = s.colls := rfl
@[simp] theorem State.setCore_collIn (c : Nat) (x : Core) : (s.setCore c x).collIn = s.collIn := rfl
@[simp] theorem State.setCore_qps (c : Nat) (x : Core) : (s.setCore c x).qps = s.qps := rfl
@[simp] theorem State.setCore_eths (c : Nat) (x : Core) : (s.setCore c x).eths = s.eths := rfl
@[simp] theorem State.setCore_epochInc (c : Nat) (x : Core) : (s.setCore c x).epochInc = s.epochInc := rfl
@[simp] theorem State.setCore_streams (c : Nat) (x : Core) : (s.setCore c x).streams = s.streams := rfl
@[simp] theorem State.setCore_flash (c : Nat) (x : Core) : (s.setCore c x).flash = s.flash := rfl
@[simp] theorem State.setCore_lifeDue (c : Nat) (x : Core) : (s.setCore c x).lifeDue = s.lifeDue := rfl
@[simp] theorem State.setCore_clk (c : Nat) (x : Core) : (s.setCore c x).clk = s.clk := rfl
@[simp] theorem State.setCore_tiles (c : Nat) (x : Core) : (s.setCore c x).tiles = s.tiles := rfl
@[simp] theorem State.setCore_herds (c : Nat) (x : Core) : (s.setCore c x).herds = s.herds := rfl
@[simp] theorem State.setCore_dieWd (c : Nat) (x : Core) : (s.setCore c x).dieWd = s.dieWd := rfl
@[simp] theorem State.setCore_parts (c : Nat) (x : Core) : (s.setCore c x).parts = s.parts := rfl
@[simp] theorem State.setCore_ctxs (c : Nat) (x : Core) : (s.setCore c x).ctxs = s.ctxs := rfl
@[simp] theorem State.setCore_groups (c : Nat) (x : Core) : (s.setCore c x).groups = s.groups := rfl
@[simp] theorem State.setCore_gsems (c : Nat) (x : Core) : (s.setCore c x).gsems = s.gsems := rfl
@[simp] theorem State.setCore_jobFaults (c : Nat) (x : Core) : (s.setCore c x).jobFaults = s.jobFaults := rfl
@[simp] theorem State.setCore_resetsDue (c : Nat) (x : Core) : (s.setCore c x).resetsDue = s.resetsDue := rfl
@[simp] theorem State.setCore_doms (c : Nat) (x : Core) : (s.setCore c x).doms = s.doms := rfl
@[simp] theorem State.setCore_escTimes (c : Nat) (x : Core) : (s.setCore c x).escTimes = s.escTimes := rfl
@[simp] theorem State.setCore_evqPhase (c : Nat) (x : Core) : (s.setCore c x).evqPhase = s.evqPhase := rfl
@[simp] theorem State.setCore_evqLost (c : Nat) (x : Core) : (s.setCore c x).evqLost = s.evqLost := rfl
@[simp] theorem State.setCore_evqIrq (c : Nat) (x : Core) : (s.setCore c x).evqIrq = s.evqIrq := rfl
@[simp] theorem State.setCore_hltAcc (c : Nat) (x : Core) : (s.setCore c x).hltAcc = s.hltAcc := rfl
@[simp] theorem State.setCore_hltEv (c : Nat) (x : Core) : (s.setCore c x).hltEv = s.hltEv := rfl
@[simp] theorem State.setCore_snapQ (c : Nat) (x : Core) : (s.setCore c x).snapQ = s.snapQ := rfl
@[simp] theorem State.setCore_sparing (c : Nat) (x : Core) : (s.setCore c x).sparing = s.sparing := rfl
@[simp] theorem State.setCore_logSeq (c : Nat) (x : Core) : (s.setCore c x).logSeq = s.logSeq := rfl
@[simp] theorem State.setCore_logAt (c : Nat) (x : Core) : (s.setCore c x).logAt = s.logAt := rfl
@[simp] theorem State.setCore_logDue (c : Nat) (x : Core) : (s.setCore c x).logDue = s.logDue := rfl
@[simp] theorem State.setCore_joules (c : Nat) (x : Core) : (s.setCore c x).joules = s.joules := rfl
@[simp] theorem State.setCore_fuses (c : Nat) (x : Core) : (s.setCore c x).fuses = s.fuses := rfl
@[simp] theorem State.setCore_fuseCmd (c : Nat) (x : Core) : (s.setCore c x).fuseCmd = s.fuseCmd := rfl
@[simp] theorem State.setCore_flashCmd (c : Nat) (x : Core) : (s.setCore c x).flashCmd = s.flashCmd := rfl
@[simp] theorem State.setCore_attest (c : Nat) (x : Core) : (s.setCore c x).attest = s.attest := rfl
@[simp] theorem State.setCore_idKey (c : Nat) (x : Core) : (s.setCore c x).idKey = s.idKey := rfl
@[simp] theorem State.setCore_pubDigest (c : Nat) (x : Core) : (s.setCore c x).pubDigest = s.pubDigest := rfl
@[simp] theorem State.setCore_servers (c : Nat) (x : Core) : (s.setCore c x).servers = s.servers := rfl
@[simp] theorem State.setCore_pwr (c : Nat) (x : Core) : (s.setCore c x).pwr = s.pwr := rfl
@[simp] theorem State.setCore_mgmt (c : Nat) (x : Core) : (s.setCore c x).mgmt = s.mgmt := rfl
@[simp] theorem State.setCore_tap (c : Nat) (x : Core) : (s.setCore c x).tap = s.tap := rfl
@[simp] theorem State.setCore_chans (c : Nat) (x : Core) : (s.setCore c x).chans = s.chans := rfl
@[simp] theorem State.setCore_llc (c : Nat) (x : Core) : (s.setCore c x).llc = s.llc := rfl
@[simp] theorem State.setCore_reqQ (c : Nat) (x : Core) : (s.setCore c x).reqQ = s.reqQ := rfl
@[simp] theorem State.setCore_regQs (c : Nat) (x : Core) : (s.setCore c x).regQs = s.regQs := rfl
@[simp] theorem State.setCore_retiring (c : Nat) (x : Core) : (s.setCore c x).retiring = s.retiring := rfl
@[simp] theorem State.setCore_rmUpd (c : Nat) (x : Core) : (s.setCore c x).rmUpd = s.rmUpd := rfl
@[simp] theorem State.setCore_promo (c : Nat) (x : Core) : (s.setCore c x).promo = s.promo := rfl
@[simp] theorem State.setCore_demo (c : Nat) (x : Core) : (s.setCore c x).demo = s.demo := rfl
@[simp] theorem State.setCore_epochTick (c : Nat) (x : Core) : (s.setCore c x).epochTick = s.epochTick := rfl
@[simp] theorem State.setCore_rwait (c : Nat) (x : Core) : (s.setCore c x).rwait = s.rwait := rfl
@[simp] theorem State.setCore_pcieCfg (c : Nat) (x : Core) : (s.setCore c x).pcieCfg = s.pcieCfg := rfl
@[simp] theorem State.setCore_pgSeen (c : Nat) (x : Core) : (s.setCore c x).pgSeen = s.pgSeen := rfl
@[simp] theorem State.setCore_spareHard (c : Nat) (x : Core) : (s.setCore c x).spareHard = s.spareHard := rfl
@[simp] theorem State.setCore_copies (c : Nat) (x : Core) : (s.setCore c x).copies = s.copies := rfl
@[simp] theorem State.setCore_holds (c : Nat) (x : Core) : (s.setCore c x).holds = s.holds := rfl
@[simp] theorem State.setCore_refs (c : Nat) (x : Core) : (s.setCore c x).refs = s.refs := rfl
@[simp] theorem State.setCore_fuseList (c : Nat) (x : Core) : (s.setCore c x).fuseList = s.fuseList := rfl
@[simp] theorem State.setCore_recent (c : Nat) (x : Core) : (s.setCore c x).recent = s.recent := rfl
@[simp] theorem State.setCore_acc (c : Nat) (x : Core) : (s.setCore c x).acc = s.acc := rfl
@[simp] theorem State.setCore_came (c : Nat) (x : Core) : (s.setCore c x).came = s.came := rfl
@[simp] theorem State.setCore_tickets (c : Nat) (x : Core) : (s.setCore c x).tickets = s.tickets := rfl
@[simp] theorem State.setCore_msis (c : Nat) (x : Core) : (s.setCore c x).msis = s.msis := rfl
@[simp] theorem State.setCore_inkTurn (c : Nat) (x : Core) : (s.setCore c x).inkTurn = s.inkTurn := rfl

/-! ### State.setPart -/

@[simp] theorem State.setPart_pending (p : Nat) (x : Part) : (s.setPart p x).pending = s.pending := rfl
@[simp] theorem State.setPart_free (p : Nat) (x : Part) : (s.setPart p x).free = s.free := rfl
@[simp] theorem State.setPart_rsp (p : Nat) (x : Part) : (s.setPart p x).rsp = s.rsp := rfl
@[simp] theorem State.setPart_regs (p : Nat) (x : Part) : (s.setPart p x).regs = s.regs := rfl
@[simp] theorem State.setPart_mem (p : Nat) (x : Part) : (s.setPart p x).mem = s.mem := rfl
@[simp] theorem State.setPart_poison (p : Nat) (x : Part) : (s.setPart p x).poison = s.poison := rfl
@[simp] theorem State.setPart_soft (p : Nat) (x : Part) : (s.setPart p x).soft = s.soft := rfl
@[simp] theorem State.setPart_hard (p : Nat) (x : Part) : (s.setPart p x).hard = s.hard := rfl
@[simp] theorem State.setPart_remap (p : Nat) (x : Part) : (s.setPart p x).remap = s.remap := rfl
@[simp] theorem State.setPart_spent (p : Nat) (x : Part) : (s.setPart p x).spent = s.spent := rfl
@[simp] theorem State.setPart_chkCache (p : Nat) (x : Part) : (s.setPart p x).chkCache = s.chkCache := rfl
@[simp] theorem State.setPart_postponed (p : Nat) (x : Part) : (s.setPart p x).postponed = s.postponed := rfl
@[simp] theorem State.setPart_refLocked (p : Nat) (x : Part) : (s.setPart p x).refLocked = s.refLocked := rfl
@[simp] theorem State.setPart_repairs (p : Nat) (x : Part) : (s.setPart p x).repairs = s.repairs := rfl
@[simp] theorem State.setPart_fuseRows (p : Nat) (x : Part) : (s.setPart p x).fuseRows = s.fuseRows := rfl
@[simp] theorem State.setPart_fuseCols (p : Nat) (x : Part) : (s.setPart p x).fuseCols = s.fuseCols := rfl
@[simp] theorem State.setPart_dieRepairs (p : Nat) (x : Part) : (s.setPart p x).dieRepairs = s.dieRepairs := rfl
@[simp] theorem State.setPart_ucieOut (p : Nat) (x : Part) : (s.setPart p x).ucieOut = s.ucieOut := rfl
@[simp] theorem State.setPart_ucieHash (p : Nat) (x : Part) : (s.setPart p x).ucieHash = s.ucieHash := rfl
@[simp] theorem State.setPart_bw (p : Nat) (x : Part) : (s.setPart p x).bw = s.bw := rfl
@[simp] theorem State.setPart_bwEnd (p : Nat) (x : Part) : (s.setPart p x).bwEnd = s.bwEnd := rfl
@[simp] theorem State.setPart_rangeMap (p : Nat) (x : Part) : (s.setPart p x).rangeMap = s.rangeMap := rfl
@[simp] theorem State.setPart_reserved (p : Nat) (x : Part) : (s.setPart p x).reserved = s.reserved := rfl
@[simp] theorem State.setPart_bad (p : Nat) (x : Part) : (s.setPart p x).bad = s.bad := rfl
@[simp] theorem State.setPart_rmc (p : Nat) (x : Part) : (s.setPart p x).rmc = s.rmc := rfl
@[simp] theorem State.setPart_heat (p : Nat) (x : Part) : (s.setPart p x).heat = s.heat := rfl
@[simp] theorem State.setPart_cache (p : Nat) (x : Part) : (s.setPart p x).cache = s.cache := rfl
@[simp] theorem State.setPart_wback (p : Nat) (x : Part) : (s.setPart p x).wback = s.wback := rfl
@[simp] theorem State.setPart_busy (p : Nat) (x : Part) : (s.setPart p x).busy = s.busy := rfl
@[simp] theorem State.setPart_snoop (p : Nat) (x : Part) : (s.setPart p x).snoop = s.snoop := rfl
@[simp] theorem State.setPart_arb (p : Nat) (x : Part) : (s.setPart p x).arb = s.arb := rfl
@[simp] theorem State.setPart_msgs (p : Nat) (x : Part) : (s.setPart p x).msgs = s.msgs := rfl
@[simp] theorem State.setPart_pools (p : Nat) (x : Part) : (s.setPart p x).pools = s.pools := rfl
@[simp] theorem State.setPart_migQ (p : Nat) (x : Part) : (s.setPart p x).migQ = s.migQ := rfl
@[simp] theorem State.setPart_migs (p : Nat) (x : Part) : (s.setPart p x).migs = s.migs := rfl
@[simp] theorem State.setPart_quiet (p : Nat) (x : Part) : (s.setPart p x).quiet = s.quiet := rfl
@[simp] theorem State.setPart_ports (p : Nat) (x : Part) : (s.setPart p x).ports = s.ports := rfl
@[simp] theorem State.setPart_trunkRr (p : Nat) (x : Part) : (s.setPart p x).trunkRr = s.trunkRr := rfl
@[simp] theorem State.setPart_rreqs (p : Nat) (x : Part) : (s.setPart p x).rreqs = s.rreqs := rfl
@[simp] theorem State.setPart_stotSeen (p : Nat) (x : Part) : (s.setPart p x).stotSeen = s.stotSeen := rfl
@[simp] theorem State.setPart_ethStot (p : Nat) (x : Part) : (s.setPart p x).ethStot = s.ethStot := rfl
@[simp] theorem State.setPart_colls (p : Nat) (x : Part) : (s.setPart p x).colls = s.colls := rfl
@[simp] theorem State.setPart_collIn (p : Nat) (x : Part) : (s.setPart p x).collIn = s.collIn := rfl
@[simp] theorem State.setPart_qps (p : Nat) (x : Part) : (s.setPart p x).qps = s.qps := rfl
@[simp] theorem State.setPart_eths (p : Nat) (x : Part) : (s.setPart p x).eths = s.eths := rfl
@[simp] theorem State.setPart_epochInc (p : Nat) (x : Part) : (s.setPart p x).epochInc = s.epochInc := rfl
@[simp] theorem State.setPart_streams (p : Nat) (x : Part) : (s.setPart p x).streams = s.streams := rfl
@[simp] theorem State.setPart_flash (p : Nat) (x : Part) : (s.setPart p x).flash = s.flash := rfl
@[simp] theorem State.setPart_lifeDue (p : Nat) (x : Part) : (s.setPart p x).lifeDue = s.lifeDue := rfl
@[simp] theorem State.setPart_clk (p : Nat) (x : Part) : (s.setPart p x).clk = s.clk := rfl
@[simp] theorem State.setPart_tiles (p : Nat) (x : Part) : (s.setPart p x).tiles = s.tiles := rfl
@[simp] theorem State.setPart_herds (p : Nat) (x : Part) : (s.setPart p x).herds = s.herds := rfl
@[simp] theorem State.setPart_cores (p : Nat) (x : Part) : (s.setPart p x).cores = s.cores := rfl
@[simp] theorem State.setPart_dieWd (p : Nat) (x : Part) : (s.setPart p x).dieWd = s.dieWd := rfl
@[simp] theorem State.setPart_ctxs (p : Nat) (x : Part) : (s.setPart p x).ctxs = s.ctxs := rfl
@[simp] theorem State.setPart_groups (p : Nat) (x : Part) : (s.setPart p x).groups = s.groups := rfl
@[simp] theorem State.setPart_gsems (p : Nat) (x : Part) : (s.setPart p x).gsems = s.gsems := rfl
@[simp] theorem State.setPart_jobFaults (p : Nat) (x : Part) : (s.setPart p x).jobFaults = s.jobFaults := rfl
@[simp] theorem State.setPart_resetsDue (p : Nat) (x : Part) : (s.setPart p x).resetsDue = s.resetsDue := rfl
@[simp] theorem State.setPart_doms (p : Nat) (x : Part) : (s.setPart p x).doms = s.doms := rfl
@[simp] theorem State.setPart_escTimes (p : Nat) (x : Part) : (s.setPart p x).escTimes = s.escTimes := rfl
@[simp] theorem State.setPart_evqPhase (p : Nat) (x : Part) : (s.setPart p x).evqPhase = s.evqPhase := rfl
@[simp] theorem State.setPart_evqLost (p : Nat) (x : Part) : (s.setPart p x).evqLost = s.evqLost := rfl
@[simp] theorem State.setPart_evqIrq (p : Nat) (x : Part) : (s.setPart p x).evqIrq = s.evqIrq := rfl
@[simp] theorem State.setPart_hltAcc (p : Nat) (x : Part) : (s.setPart p x).hltAcc = s.hltAcc := rfl
@[simp] theorem State.setPart_hltEv (p : Nat) (x : Part) : (s.setPart p x).hltEv = s.hltEv := rfl
@[simp] theorem State.setPart_snapQ (p : Nat) (x : Part) : (s.setPart p x).snapQ = s.snapQ := rfl
@[simp] theorem State.setPart_sparing (p : Nat) (x : Part) : (s.setPart p x).sparing = s.sparing := rfl
@[simp] theorem State.setPart_logSeq (p : Nat) (x : Part) : (s.setPart p x).logSeq = s.logSeq := rfl
@[simp] theorem State.setPart_logAt (p : Nat) (x : Part) : (s.setPart p x).logAt = s.logAt := rfl
@[simp] theorem State.setPart_logDue (p : Nat) (x : Part) : (s.setPart p x).logDue = s.logDue := rfl
@[simp] theorem State.setPart_joules (p : Nat) (x : Part) : (s.setPart p x).joules = s.joules := rfl
@[simp] theorem State.setPart_fuses (p : Nat) (x : Part) : (s.setPart p x).fuses = s.fuses := rfl
@[simp] theorem State.setPart_fuseCmd (p : Nat) (x : Part) : (s.setPart p x).fuseCmd = s.fuseCmd := rfl
@[simp] theorem State.setPart_flashCmd (p : Nat) (x : Part) : (s.setPart p x).flashCmd = s.flashCmd := rfl
@[simp] theorem State.setPart_attest (p : Nat) (x : Part) : (s.setPart p x).attest = s.attest := rfl
@[simp] theorem State.setPart_idKey (p : Nat) (x : Part) : (s.setPart p x).idKey = s.idKey := rfl
@[simp] theorem State.setPart_pubDigest (p : Nat) (x : Part) : (s.setPart p x).pubDigest = s.pubDigest := rfl
@[simp] theorem State.setPart_servers (p : Nat) (x : Part) : (s.setPart p x).servers = s.servers := rfl
@[simp] theorem State.setPart_pwr (p : Nat) (x : Part) : (s.setPart p x).pwr = s.pwr := rfl
@[simp] theorem State.setPart_mgmt (p : Nat) (x : Part) : (s.setPart p x).mgmt = s.mgmt := rfl
@[simp] theorem State.setPart_tap (p : Nat) (x : Part) : (s.setPart p x).tap = s.tap := rfl
@[simp] theorem State.setPart_chans (p : Nat) (x : Part) : (s.setPart p x).chans = s.chans := rfl
@[simp] theorem State.setPart_llc (p : Nat) (x : Part) : (s.setPart p x).llc = s.llc := rfl
@[simp] theorem State.setPart_reqQ (p : Nat) (x : Part) : (s.setPart p x).reqQ = s.reqQ := rfl
@[simp] theorem State.setPart_regQs (p : Nat) (x : Part) : (s.setPart p x).regQs = s.regQs := rfl
@[simp] theorem State.setPart_retiring (p : Nat) (x : Part) : (s.setPart p x).retiring = s.retiring := rfl
@[simp] theorem State.setPart_rmUpd (p : Nat) (x : Part) : (s.setPart p x).rmUpd = s.rmUpd := rfl
@[simp] theorem State.setPart_promo (p : Nat) (x : Part) : (s.setPart p x).promo = s.promo := rfl
@[simp] theorem State.setPart_demo (p : Nat) (x : Part) : (s.setPart p x).demo = s.demo := rfl
@[simp] theorem State.setPart_epochTick (p : Nat) (x : Part) : (s.setPart p x).epochTick = s.epochTick := rfl
@[simp] theorem State.setPart_rwait (p : Nat) (x : Part) : (s.setPart p x).rwait = s.rwait := rfl
@[simp] theorem State.setPart_pcieCfg (p : Nat) (x : Part) : (s.setPart p x).pcieCfg = s.pcieCfg := rfl
@[simp] theorem State.setPart_pgSeen (p : Nat) (x : Part) : (s.setPart p x).pgSeen = s.pgSeen := rfl
@[simp] theorem State.setPart_spareHard (p : Nat) (x : Part) : (s.setPart p x).spareHard = s.spareHard := rfl
@[simp] theorem State.setPart_copies (p : Nat) (x : Part) : (s.setPart p x).copies = s.copies := rfl
@[simp] theorem State.setPart_holds (p : Nat) (x : Part) : (s.setPart p x).holds = s.holds := rfl
@[simp] theorem State.setPart_refs (p : Nat) (x : Part) : (s.setPart p x).refs = s.refs := rfl
@[simp] theorem State.setPart_fuseList (p : Nat) (x : Part) : (s.setPart p x).fuseList = s.fuseList := rfl
@[simp] theorem State.setPart_recent (p : Nat) (x : Part) : (s.setPart p x).recent = s.recent := rfl
@[simp] theorem State.setPart_acc (p : Nat) (x : Part) : (s.setPart p x).acc = s.acc := rfl
@[simp] theorem State.setPart_came (p : Nat) (x : Part) : (s.setPart p x).came = s.came := rfl
@[simp] theorem State.setPart_tickets (p : Nat) (x : Part) : (s.setPart p x).tickets = s.tickets := rfl
@[simp] theorem State.setPart_msis (p : Nat) (x : Part) : (s.setPart p x).msis = s.msis := rfl
@[simp] theorem State.setPart_inkTurn (p : Nat) (x : Part) : (s.setPart p x).inkTurn = s.inkTurn := rfl

/-! ### State.setSlot -/

@[simp] theorem State.setSlot_pending (p k : Nat) (x : Slot) : (s.setSlot p k x).pending = s.pending := rfl
@[simp] theorem State.setSlot_free (p k : Nat) (x : Slot) : (s.setSlot p k x).free = s.free := rfl
@[simp] theorem State.setSlot_rsp (p k : Nat) (x : Slot) : (s.setSlot p k x).rsp = s.rsp := rfl
@[simp] theorem State.setSlot_regs (p k : Nat) (x : Slot) : (s.setSlot p k x).regs = s.regs := rfl
@[simp] theorem State.setSlot_mem (p k : Nat) (x : Slot) : (s.setSlot p k x).mem = s.mem := rfl
@[simp] theorem State.setSlot_poison (p k : Nat) (x : Slot) : (s.setSlot p k x).poison = s.poison := rfl
@[simp] theorem State.setSlot_soft (p k : Nat) (x : Slot) : (s.setSlot p k x).soft = s.soft := rfl
@[simp] theorem State.setSlot_hard (p k : Nat) (x : Slot) : (s.setSlot p k x).hard = s.hard := rfl
@[simp] theorem State.setSlot_remap (p k : Nat) (x : Slot) : (s.setSlot p k x).remap = s.remap := rfl
@[simp] theorem State.setSlot_spent (p k : Nat) (x : Slot) : (s.setSlot p k x).spent = s.spent := rfl
@[simp] theorem State.setSlot_chkCache (p k : Nat) (x : Slot) : (s.setSlot p k x).chkCache = s.chkCache := rfl
@[simp] theorem State.setSlot_postponed (p k : Nat) (x : Slot) : (s.setSlot p k x).postponed = s.postponed := rfl
@[simp] theorem State.setSlot_refLocked (p k : Nat) (x : Slot) : (s.setSlot p k x).refLocked = s.refLocked := rfl
@[simp] theorem State.setSlot_repairs (p k : Nat) (x : Slot) : (s.setSlot p k x).repairs = s.repairs := rfl
@[simp] theorem State.setSlot_fuseRows (p k : Nat) (x : Slot) : (s.setSlot p k x).fuseRows = s.fuseRows := rfl
@[simp] theorem State.setSlot_fuseCols (p k : Nat) (x : Slot) : (s.setSlot p k x).fuseCols = s.fuseCols := rfl
@[simp] theorem State.setSlot_dieRepairs (p k : Nat) (x : Slot) : (s.setSlot p k x).dieRepairs = s.dieRepairs := rfl
@[simp] theorem State.setSlot_ucieOut (p k : Nat) (x : Slot) : (s.setSlot p k x).ucieOut = s.ucieOut := rfl
@[simp] theorem State.setSlot_ucieHash (p k : Nat) (x : Slot) : (s.setSlot p k x).ucieHash = s.ucieHash := rfl
@[simp] theorem State.setSlot_bw (p k : Nat) (x : Slot) : (s.setSlot p k x).bw = s.bw := rfl
@[simp] theorem State.setSlot_bwEnd (p k : Nat) (x : Slot) : (s.setSlot p k x).bwEnd = s.bwEnd := rfl
@[simp] theorem State.setSlot_rangeMap (p k : Nat) (x : Slot) : (s.setSlot p k x).rangeMap = s.rangeMap := rfl
@[simp] theorem State.setSlot_reserved (p k : Nat) (x : Slot) : (s.setSlot p k x).reserved = s.reserved := rfl
@[simp] theorem State.setSlot_bad (p k : Nat) (x : Slot) : (s.setSlot p k x).bad = s.bad := rfl
@[simp] theorem State.setSlot_rmc (p k : Nat) (x : Slot) : (s.setSlot p k x).rmc = s.rmc := rfl
@[simp] theorem State.setSlot_heat (p k : Nat) (x : Slot) : (s.setSlot p k x).heat = s.heat := rfl
@[simp] theorem State.setSlot_cache (p k : Nat) (x : Slot) : (s.setSlot p k x).cache = s.cache := rfl
@[simp] theorem State.setSlot_wback (p k : Nat) (x : Slot) : (s.setSlot p k x).wback = s.wback := rfl
@[simp] theorem State.setSlot_busy (p k : Nat) (x : Slot) : (s.setSlot p k x).busy = s.busy := rfl
@[simp] theorem State.setSlot_snoop (p k : Nat) (x : Slot) : (s.setSlot p k x).snoop = s.snoop := rfl
@[simp] theorem State.setSlot_arb (p k : Nat) (x : Slot) : (s.setSlot p k x).arb = s.arb := rfl
@[simp] theorem State.setSlot_msgs (p k : Nat) (x : Slot) : (s.setSlot p k x).msgs = s.msgs := rfl
@[simp] theorem State.setSlot_pools (p k : Nat) (x : Slot) : (s.setSlot p k x).pools = s.pools := rfl
@[simp] theorem State.setSlot_migQ (p k : Nat) (x : Slot) : (s.setSlot p k x).migQ = s.migQ := rfl
@[simp] theorem State.setSlot_migs (p k : Nat) (x : Slot) : (s.setSlot p k x).migs = s.migs := rfl
@[simp] theorem State.setSlot_quiet (p k : Nat) (x : Slot) : (s.setSlot p k x).quiet = s.quiet := rfl
@[simp] theorem State.setSlot_ports (p k : Nat) (x : Slot) : (s.setSlot p k x).ports = s.ports := rfl
@[simp] theorem State.setSlot_trunkRr (p k : Nat) (x : Slot) : (s.setSlot p k x).trunkRr = s.trunkRr := rfl
@[simp] theorem State.setSlot_rreqs (p k : Nat) (x : Slot) : (s.setSlot p k x).rreqs = s.rreqs := rfl
@[simp] theorem State.setSlot_stotSeen (p k : Nat) (x : Slot) : (s.setSlot p k x).stotSeen = s.stotSeen := rfl
@[simp] theorem State.setSlot_ethStot (p k : Nat) (x : Slot) : (s.setSlot p k x).ethStot = s.ethStot := rfl
@[simp] theorem State.setSlot_colls (p k : Nat) (x : Slot) : (s.setSlot p k x).colls = s.colls := rfl
@[simp] theorem State.setSlot_collIn (p k : Nat) (x : Slot) : (s.setSlot p k x).collIn = s.collIn := rfl
@[simp] theorem State.setSlot_qps (p k : Nat) (x : Slot) : (s.setSlot p k x).qps = s.qps := rfl
@[simp] theorem State.setSlot_eths (p k : Nat) (x : Slot) : (s.setSlot p k x).eths = s.eths := rfl
@[simp] theorem State.setSlot_epochInc (p k : Nat) (x : Slot) : (s.setSlot p k x).epochInc = s.epochInc := rfl
@[simp] theorem State.setSlot_streams (p k : Nat) (x : Slot) : (s.setSlot p k x).streams = s.streams := rfl
@[simp] theorem State.setSlot_flash (p k : Nat) (x : Slot) : (s.setSlot p k x).flash = s.flash := rfl
@[simp] theorem State.setSlot_lifeDue (p k : Nat) (x : Slot) : (s.setSlot p k x).lifeDue = s.lifeDue := rfl
@[simp] theorem State.setSlot_clk (p k : Nat) (x : Slot) : (s.setSlot p k x).clk = s.clk := rfl
@[simp] theorem State.setSlot_tiles (p k : Nat) (x : Slot) : (s.setSlot p k x).tiles = s.tiles := rfl
@[simp] theorem State.setSlot_herds (p k : Nat) (x : Slot) : (s.setSlot p k x).herds = s.herds := rfl
@[simp] theorem State.setSlot_cores (p k : Nat) (x : Slot) : (s.setSlot p k x).cores = s.cores := rfl
@[simp] theorem State.setSlot_dieWd (p k : Nat) (x : Slot) : (s.setSlot p k x).dieWd = s.dieWd := rfl
@[simp] theorem State.setSlot_ctxs (p k : Nat) (x : Slot) : (s.setSlot p k x).ctxs = s.ctxs := rfl
@[simp] theorem State.setSlot_groups (p k : Nat) (x : Slot) : (s.setSlot p k x).groups = s.groups := rfl
@[simp] theorem State.setSlot_gsems (p k : Nat) (x : Slot) : (s.setSlot p k x).gsems = s.gsems := rfl
@[simp] theorem State.setSlot_jobFaults (p k : Nat) (x : Slot) : (s.setSlot p k x).jobFaults = s.jobFaults := rfl
@[simp] theorem State.setSlot_resetsDue (p k : Nat) (x : Slot) : (s.setSlot p k x).resetsDue = s.resetsDue := rfl
@[simp] theorem State.setSlot_doms (p k : Nat) (x : Slot) : (s.setSlot p k x).doms = s.doms := rfl
@[simp] theorem State.setSlot_escTimes (p k : Nat) (x : Slot) : (s.setSlot p k x).escTimes = s.escTimes := rfl
@[simp] theorem State.setSlot_evqPhase (p k : Nat) (x : Slot) : (s.setSlot p k x).evqPhase = s.evqPhase := rfl
@[simp] theorem State.setSlot_evqLost (p k : Nat) (x : Slot) : (s.setSlot p k x).evqLost = s.evqLost := rfl
@[simp] theorem State.setSlot_evqIrq (p k : Nat) (x : Slot) : (s.setSlot p k x).evqIrq = s.evqIrq := rfl
@[simp] theorem State.setSlot_hltAcc (p k : Nat) (x : Slot) : (s.setSlot p k x).hltAcc = s.hltAcc := rfl
@[simp] theorem State.setSlot_hltEv (p k : Nat) (x : Slot) : (s.setSlot p k x).hltEv = s.hltEv := rfl
@[simp] theorem State.setSlot_snapQ (p k : Nat) (x : Slot) : (s.setSlot p k x).snapQ = s.snapQ := rfl
@[simp] theorem State.setSlot_sparing (p k : Nat) (x : Slot) : (s.setSlot p k x).sparing = s.sparing := rfl
@[simp] theorem State.setSlot_logSeq (p k : Nat) (x : Slot) : (s.setSlot p k x).logSeq = s.logSeq := rfl
@[simp] theorem State.setSlot_logAt (p k : Nat) (x : Slot) : (s.setSlot p k x).logAt = s.logAt := rfl
@[simp] theorem State.setSlot_logDue (p k : Nat) (x : Slot) : (s.setSlot p k x).logDue = s.logDue := rfl
@[simp] theorem State.setSlot_joules (p k : Nat) (x : Slot) : (s.setSlot p k x).joules = s.joules := rfl
@[simp] theorem State.setSlot_fuses (p k : Nat) (x : Slot) : (s.setSlot p k x).fuses = s.fuses := rfl
@[simp] theorem State.setSlot_fuseCmd (p k : Nat) (x : Slot) : (s.setSlot p k x).fuseCmd = s.fuseCmd := rfl
@[simp] theorem State.setSlot_flashCmd (p k : Nat) (x : Slot) : (s.setSlot p k x).flashCmd = s.flashCmd := rfl
@[simp] theorem State.setSlot_attest (p k : Nat) (x : Slot) : (s.setSlot p k x).attest = s.attest := rfl
@[simp] theorem State.setSlot_idKey (p k : Nat) (x : Slot) : (s.setSlot p k x).idKey = s.idKey := rfl
@[simp] theorem State.setSlot_pubDigest (p k : Nat) (x : Slot) : (s.setSlot p k x).pubDigest = s.pubDigest := rfl
@[simp] theorem State.setSlot_servers (p k : Nat) (x : Slot) : (s.setSlot p k x).servers = s.servers := rfl
@[simp] theorem State.setSlot_pwr (p k : Nat) (x : Slot) : (s.setSlot p k x).pwr = s.pwr := rfl
@[simp] theorem State.setSlot_mgmt (p k : Nat) (x : Slot) : (s.setSlot p k x).mgmt = s.mgmt := rfl
@[simp] theorem State.setSlot_tap (p k : Nat) (x : Slot) : (s.setSlot p k x).tap = s.tap := rfl
@[simp] theorem State.setSlot_chans (p k : Nat) (x : Slot) : (s.setSlot p k x).chans = s.chans := rfl
@[simp] theorem State.setSlot_llc (p k : Nat) (x : Slot) : (s.setSlot p k x).llc = s.llc := rfl
@[simp] theorem State.setSlot_reqQ (p k : Nat) (x : Slot) : (s.setSlot p k x).reqQ = s.reqQ := rfl
@[simp] theorem State.setSlot_regQs (p k : Nat) (x : Slot) : (s.setSlot p k x).regQs = s.regQs := rfl
@[simp] theorem State.setSlot_retiring (p k : Nat) (x : Slot) : (s.setSlot p k x).retiring = s.retiring := rfl
@[simp] theorem State.setSlot_rmUpd (p k : Nat) (x : Slot) : (s.setSlot p k x).rmUpd = s.rmUpd := rfl
@[simp] theorem State.setSlot_promo (p k : Nat) (x : Slot) : (s.setSlot p k x).promo = s.promo := rfl
@[simp] theorem State.setSlot_demo (p k : Nat) (x : Slot) : (s.setSlot p k x).demo = s.demo := rfl
@[simp] theorem State.setSlot_epochTick (p k : Nat) (x : Slot) : (s.setSlot p k x).epochTick = s.epochTick := rfl
@[simp] theorem State.setSlot_rwait (p k : Nat) (x : Slot) : (s.setSlot p k x).rwait = s.rwait := rfl
@[simp] theorem State.setSlot_pcieCfg (p k : Nat) (x : Slot) : (s.setSlot p k x).pcieCfg = s.pcieCfg := rfl
@[simp] theorem State.setSlot_pgSeen (p k : Nat) (x : Slot) : (s.setSlot p k x).pgSeen = s.pgSeen := rfl
@[simp] theorem State.setSlot_spareHard (p k : Nat) (x : Slot) : (s.setSlot p k x).spareHard = s.spareHard := rfl
@[simp] theorem State.setSlot_copies (p k : Nat) (x : Slot) : (s.setSlot p k x).copies = s.copies := rfl
@[simp] theorem State.setSlot_holds (p k : Nat) (x : Slot) : (s.setSlot p k x).holds = s.holds := rfl
@[simp] theorem State.setSlot_refs (p k : Nat) (x : Slot) : (s.setSlot p k x).refs = s.refs := rfl
@[simp] theorem State.setSlot_fuseList (p k : Nat) (x : Slot) : (s.setSlot p k x).fuseList = s.fuseList := rfl
@[simp] theorem State.setSlot_recent (p k : Nat) (x : Slot) : (s.setSlot p k x).recent = s.recent := rfl
@[simp] theorem State.setSlot_acc (p k : Nat) (x : Slot) : (s.setSlot p k x).acc = s.acc := rfl
@[simp] theorem State.setSlot_came (p k : Nat) (x : Slot) : (s.setSlot p k x).came = s.came := rfl
@[simp] theorem State.setSlot_tickets (p k : Nat) (x : Slot) : (s.setSlot p k x).tickets = s.tickets := rfl
@[simp] theorem State.setSlot_msis (p k : Nat) (x : Slot) : (s.setSlot p k x).msis = s.msis := rfl
@[simp] theorem State.setSlot_inkTurn (p k : Nat) (x : Slot) : (s.setSlot p k x).inkTurn = s.inkTurn := rfl

/-! ### State.setRm -/

@[simp] theorem State.setRm_pending (r e : Nat) : (s.setRm r e).pending = s.pending := rfl
@[simp] theorem State.setRm_free (r e : Nat) : (s.setRm r e).free = s.free := rfl
@[simp] theorem State.setRm_rsp (r e : Nat) : (s.setRm r e).rsp = s.rsp := rfl
@[simp] theorem State.setRm_regs (r e : Nat) : (s.setRm r e).regs = s.regs := rfl
@[simp] theorem State.setRm_mem (r e : Nat) : (s.setRm r e).mem = s.mem := rfl
@[simp] theorem State.setRm_poison (r e : Nat) : (s.setRm r e).poison = s.poison := rfl
@[simp] theorem State.setRm_soft (r e : Nat) : (s.setRm r e).soft = s.soft := rfl
@[simp] theorem State.setRm_hard (r e : Nat) : (s.setRm r e).hard = s.hard := rfl
@[simp] theorem State.setRm_remap (r e : Nat) : (s.setRm r e).remap = s.remap := rfl
@[simp] theorem State.setRm_spent (r e : Nat) : (s.setRm r e).spent = s.spent := rfl
@[simp] theorem State.setRm_chkCache (r e : Nat) : (s.setRm r e).chkCache = s.chkCache := rfl
@[simp] theorem State.setRm_postponed (r e : Nat) : (s.setRm r e).postponed = s.postponed := rfl
@[simp] theorem State.setRm_refLocked (r e : Nat) : (s.setRm r e).refLocked = s.refLocked := rfl
@[simp] theorem State.setRm_repairs (r e : Nat) : (s.setRm r e).repairs = s.repairs := rfl
@[simp] theorem State.setRm_fuseRows (r e : Nat) : (s.setRm r e).fuseRows = s.fuseRows := rfl
@[simp] theorem State.setRm_fuseCols (r e : Nat) : (s.setRm r e).fuseCols = s.fuseCols := rfl
@[simp] theorem State.setRm_dieRepairs (r e : Nat) : (s.setRm r e).dieRepairs = s.dieRepairs := rfl
@[simp] theorem State.setRm_ucieOut (r e : Nat) : (s.setRm r e).ucieOut = s.ucieOut := rfl
@[simp] theorem State.setRm_ucieHash (r e : Nat) : (s.setRm r e).ucieHash = s.ucieHash := rfl
@[simp] theorem State.setRm_bw (r e : Nat) : (s.setRm r e).bw = s.bw := rfl
@[simp] theorem State.setRm_bwEnd (r e : Nat) : (s.setRm r e).bwEnd = s.bwEnd := rfl
@[simp] theorem State.setRm_reserved (r e : Nat) : (s.setRm r e).reserved = s.reserved := rfl
@[simp] theorem State.setRm_bad (r e : Nat) : (s.setRm r e).bad = s.bad := rfl
@[simp] theorem State.setRm_rmc (r e : Nat) : (s.setRm r e).rmc = s.rmc := rfl
@[simp] theorem State.setRm_heat (r e : Nat) : (s.setRm r e).heat = s.heat := rfl
@[simp] theorem State.setRm_cache (r e : Nat) : (s.setRm r e).cache = s.cache := rfl
@[simp] theorem State.setRm_wback (r e : Nat) : (s.setRm r e).wback = s.wback := rfl
@[simp] theorem State.setRm_busy (r e : Nat) : (s.setRm r e).busy = s.busy := rfl
@[simp] theorem State.setRm_snoop (r e : Nat) : (s.setRm r e).snoop = s.snoop := rfl
@[simp] theorem State.setRm_arb (r e : Nat) : (s.setRm r e).arb = s.arb := rfl
@[simp] theorem State.setRm_msgs (r e : Nat) : (s.setRm r e).msgs = s.msgs := rfl
@[simp] theorem State.setRm_pools (r e : Nat) : (s.setRm r e).pools = s.pools := rfl
@[simp] theorem State.setRm_migQ (r e : Nat) : (s.setRm r e).migQ = s.migQ := rfl
@[simp] theorem State.setRm_migs (r e : Nat) : (s.setRm r e).migs = s.migs := rfl
@[simp] theorem State.setRm_quiet (r e : Nat) : (s.setRm r e).quiet = s.quiet := rfl
@[simp] theorem State.setRm_ports (r e : Nat) : (s.setRm r e).ports = s.ports := rfl
@[simp] theorem State.setRm_trunkRr (r e : Nat) : (s.setRm r e).trunkRr = s.trunkRr := rfl
@[simp] theorem State.setRm_rreqs (r e : Nat) : (s.setRm r e).rreqs = s.rreqs := rfl
@[simp] theorem State.setRm_stotSeen (r e : Nat) : (s.setRm r e).stotSeen = s.stotSeen := rfl
@[simp] theorem State.setRm_ethStot (r e : Nat) : (s.setRm r e).ethStot = s.ethStot := rfl
@[simp] theorem State.setRm_colls (r e : Nat) : (s.setRm r e).colls = s.colls := rfl
@[simp] theorem State.setRm_collIn (r e : Nat) : (s.setRm r e).collIn = s.collIn := rfl
@[simp] theorem State.setRm_qps (r e : Nat) : (s.setRm r e).qps = s.qps := rfl
@[simp] theorem State.setRm_eths (r e : Nat) : (s.setRm r e).eths = s.eths := rfl
@[simp] theorem State.setRm_epochInc (r e : Nat) : (s.setRm r e).epochInc = s.epochInc := rfl
@[simp] theorem State.setRm_streams (r e : Nat) : (s.setRm r e).streams = s.streams := rfl
@[simp] theorem State.setRm_flash (r e : Nat) : (s.setRm r e).flash = s.flash := rfl
@[simp] theorem State.setRm_lifeDue (r e : Nat) : (s.setRm r e).lifeDue = s.lifeDue := rfl
@[simp] theorem State.setRm_clk (r e : Nat) : (s.setRm r e).clk = s.clk := rfl
@[simp] theorem State.setRm_tiles (r e : Nat) : (s.setRm r e).tiles = s.tiles := rfl
@[simp] theorem State.setRm_herds (r e : Nat) : (s.setRm r e).herds = s.herds := rfl
@[simp] theorem State.setRm_cores (r e : Nat) : (s.setRm r e).cores = s.cores := rfl
@[simp] theorem State.setRm_dieWd (r e : Nat) : (s.setRm r e).dieWd = s.dieWd := rfl
@[simp] theorem State.setRm_parts (r e : Nat) : (s.setRm r e).parts = s.parts := rfl
@[simp] theorem State.setRm_ctxs (r e : Nat) : (s.setRm r e).ctxs = s.ctxs := rfl
@[simp] theorem State.setRm_groups (r e : Nat) : (s.setRm r e).groups = s.groups := rfl
@[simp] theorem State.setRm_gsems (r e : Nat) : (s.setRm r e).gsems = s.gsems := rfl
@[simp] theorem State.setRm_jobFaults (r e : Nat) : (s.setRm r e).jobFaults = s.jobFaults := rfl
@[simp] theorem State.setRm_resetsDue (r e : Nat) : (s.setRm r e).resetsDue = s.resetsDue := rfl
@[simp] theorem State.setRm_doms (r e : Nat) : (s.setRm r e).doms = s.doms := rfl
@[simp] theorem State.setRm_escTimes (r e : Nat) : (s.setRm r e).escTimes = s.escTimes := rfl
@[simp] theorem State.setRm_evqPhase (r e : Nat) : (s.setRm r e).evqPhase = s.evqPhase := rfl
@[simp] theorem State.setRm_evqLost (r e : Nat) : (s.setRm r e).evqLost = s.evqLost := rfl
@[simp] theorem State.setRm_evqIrq (r e : Nat) : (s.setRm r e).evqIrq = s.evqIrq := rfl
@[simp] theorem State.setRm_hltAcc (r e : Nat) : (s.setRm r e).hltAcc = s.hltAcc := rfl
@[simp] theorem State.setRm_hltEv (r e : Nat) : (s.setRm r e).hltEv = s.hltEv := rfl
@[simp] theorem State.setRm_snapQ (r e : Nat) : (s.setRm r e).snapQ = s.snapQ := rfl
@[simp] theorem State.setRm_sparing (r e : Nat) : (s.setRm r e).sparing = s.sparing := rfl
@[simp] theorem State.setRm_logSeq (r e : Nat) : (s.setRm r e).logSeq = s.logSeq := rfl
@[simp] theorem State.setRm_logAt (r e : Nat) : (s.setRm r e).logAt = s.logAt := rfl
@[simp] theorem State.setRm_logDue (r e : Nat) : (s.setRm r e).logDue = s.logDue := rfl
@[simp] theorem State.setRm_joules (r e : Nat) : (s.setRm r e).joules = s.joules := rfl
@[simp] theorem State.setRm_fuses (r e : Nat) : (s.setRm r e).fuses = s.fuses := rfl
@[simp] theorem State.setRm_fuseCmd (r e : Nat) : (s.setRm r e).fuseCmd = s.fuseCmd := rfl
@[simp] theorem State.setRm_flashCmd (r e : Nat) : (s.setRm r e).flashCmd = s.flashCmd := rfl
@[simp] theorem State.setRm_attest (r e : Nat) : (s.setRm r e).attest = s.attest := rfl
@[simp] theorem State.setRm_idKey (r e : Nat) : (s.setRm r e).idKey = s.idKey := rfl
@[simp] theorem State.setRm_pubDigest (r e : Nat) : (s.setRm r e).pubDigest = s.pubDigest := rfl
@[simp] theorem State.setRm_servers (r e : Nat) : (s.setRm r e).servers = s.servers := rfl
@[simp] theorem State.setRm_pwr (r e : Nat) : (s.setRm r e).pwr = s.pwr := rfl
@[simp] theorem State.setRm_mgmt (r e : Nat) : (s.setRm r e).mgmt = s.mgmt := rfl
@[simp] theorem State.setRm_tap (r e : Nat) : (s.setRm r e).tap = s.tap := rfl
@[simp] theorem State.setRm_chans (r e : Nat) : (s.setRm r e).chans = s.chans := rfl
@[simp] theorem State.setRm_llc (r e : Nat) : (s.setRm r e).llc = s.llc := rfl
@[simp] theorem State.setRm_reqQ (r e : Nat) : (s.setRm r e).reqQ = s.reqQ := rfl
@[simp] theorem State.setRm_regQs (r e : Nat) : (s.setRm r e).regQs = s.regQs := rfl
@[simp] theorem State.setRm_retiring (r e : Nat) : (s.setRm r e).retiring = s.retiring := rfl
@[simp] theorem State.setRm_rmUpd (r e : Nat) : (s.setRm r e).rmUpd = s.rmUpd := rfl
@[simp] theorem State.setRm_promo (r e : Nat) : (s.setRm r e).promo = s.promo := rfl
@[simp] theorem State.setRm_demo (r e : Nat) : (s.setRm r e).demo = s.demo := rfl
@[simp] theorem State.setRm_epochTick (r e : Nat) : (s.setRm r e).epochTick = s.epochTick := rfl
@[simp] theorem State.setRm_rwait (r e : Nat) : (s.setRm r e).rwait = s.rwait := rfl
@[simp] theorem State.setRm_pcieCfg (r e : Nat) : (s.setRm r e).pcieCfg = s.pcieCfg := rfl
@[simp] theorem State.setRm_pgSeen (r e : Nat) : (s.setRm r e).pgSeen = s.pgSeen := rfl
@[simp] theorem State.setRm_spareHard (r e : Nat) : (s.setRm r e).spareHard = s.spareHard := rfl
@[simp] theorem State.setRm_copies (r e : Nat) : (s.setRm r e).copies = s.copies := rfl
@[simp] theorem State.setRm_holds (r e : Nat) : (s.setRm r e).holds = s.holds := rfl
@[simp] theorem State.setRm_refs (r e : Nat) : (s.setRm r e).refs = s.refs := rfl
@[simp] theorem State.setRm_fuseList (r e : Nat) : (s.setRm r e).fuseList = s.fuseList := rfl
@[simp] theorem State.setRm_recent (r e : Nat) : (s.setRm r e).recent = s.recent := rfl
@[simp] theorem State.setRm_acc (r e : Nat) : (s.setRm r e).acc = s.acc := rfl
@[simp] theorem State.setRm_came (r e : Nat) : (s.setRm r e).came = s.came := rfl
@[simp] theorem State.setRm_tickets (r e : Nat) : (s.setRm r e).tickets = s.tickets := rfl
@[simp] theorem State.setRm_msis (r e : Nat) : (s.setRm r e).msis = s.msis := rfl
@[simp] theorem State.setRm_inkTurn (r e : Nat) : (s.setRm r e).inkTurn = s.inkTurn := rfl

/-! ### State.setPort -/

@[simp] theorem State.setPort_pending (g : Nat) (x : Port) : (s.setPort g x).pending = s.pending := rfl
@[simp] theorem State.setPort_free (g : Nat) (x : Port) : (s.setPort g x).free = s.free := rfl
@[simp] theorem State.setPort_rsp (g : Nat) (x : Port) : (s.setPort g x).rsp = s.rsp := rfl
@[simp] theorem State.setPort_regs (g : Nat) (x : Port) : (s.setPort g x).regs = s.regs := rfl
@[simp] theorem State.setPort_mem (g : Nat) (x : Port) : (s.setPort g x).mem = s.mem := rfl
@[simp] theorem State.setPort_poison (g : Nat) (x : Port) : (s.setPort g x).poison = s.poison := rfl
@[simp] theorem State.setPort_soft (g : Nat) (x : Port) : (s.setPort g x).soft = s.soft := rfl
@[simp] theorem State.setPort_hard (g : Nat) (x : Port) : (s.setPort g x).hard = s.hard := rfl
@[simp] theorem State.setPort_remap (g : Nat) (x : Port) : (s.setPort g x).remap = s.remap := rfl
@[simp] theorem State.setPort_spent (g : Nat) (x : Port) : (s.setPort g x).spent = s.spent := rfl
@[simp] theorem State.setPort_chkCache (g : Nat) (x : Port) : (s.setPort g x).chkCache = s.chkCache := rfl
@[simp] theorem State.setPort_postponed (g : Nat) (x : Port) : (s.setPort g x).postponed = s.postponed := rfl
@[simp] theorem State.setPort_refLocked (g : Nat) (x : Port) : (s.setPort g x).refLocked = s.refLocked := rfl
@[simp] theorem State.setPort_repairs (g : Nat) (x : Port) : (s.setPort g x).repairs = s.repairs := rfl
@[simp] theorem State.setPort_fuseRows (g : Nat) (x : Port) : (s.setPort g x).fuseRows = s.fuseRows := rfl
@[simp] theorem State.setPort_fuseCols (g : Nat) (x : Port) : (s.setPort g x).fuseCols = s.fuseCols := rfl
@[simp] theorem State.setPort_dieRepairs (g : Nat) (x : Port) : (s.setPort g x).dieRepairs = s.dieRepairs := rfl
@[simp] theorem State.setPort_ucieOut (g : Nat) (x : Port) : (s.setPort g x).ucieOut = s.ucieOut := rfl
@[simp] theorem State.setPort_ucieHash (g : Nat) (x : Port) : (s.setPort g x).ucieHash = s.ucieHash := rfl
@[simp] theorem State.setPort_bw (g : Nat) (x : Port) : (s.setPort g x).bw = s.bw := rfl
@[simp] theorem State.setPort_bwEnd (g : Nat) (x : Port) : (s.setPort g x).bwEnd = s.bwEnd := rfl
@[simp] theorem State.setPort_rangeMap (g : Nat) (x : Port) : (s.setPort g x).rangeMap = s.rangeMap := rfl
@[simp] theorem State.setPort_reserved (g : Nat) (x : Port) : (s.setPort g x).reserved = s.reserved := rfl
@[simp] theorem State.setPort_bad (g : Nat) (x : Port) : (s.setPort g x).bad = s.bad := rfl
@[simp] theorem State.setPort_rmc (g : Nat) (x : Port) : (s.setPort g x).rmc = s.rmc := rfl
@[simp] theorem State.setPort_heat (g : Nat) (x : Port) : (s.setPort g x).heat = s.heat := rfl
@[simp] theorem State.setPort_cache (g : Nat) (x : Port) : (s.setPort g x).cache = s.cache := rfl
@[simp] theorem State.setPort_wback (g : Nat) (x : Port) : (s.setPort g x).wback = s.wback := rfl
@[simp] theorem State.setPort_busy (g : Nat) (x : Port) : (s.setPort g x).busy = s.busy := rfl
@[simp] theorem State.setPort_snoop (g : Nat) (x : Port) : (s.setPort g x).snoop = s.snoop := rfl
@[simp] theorem State.setPort_arb (g : Nat) (x : Port) : (s.setPort g x).arb = s.arb := rfl
@[simp] theorem State.setPort_msgs (g : Nat) (x : Port) : (s.setPort g x).msgs = s.msgs := rfl
@[simp] theorem State.setPort_pools (g : Nat) (x : Port) : (s.setPort g x).pools = s.pools := rfl
@[simp] theorem State.setPort_migQ (g : Nat) (x : Port) : (s.setPort g x).migQ = s.migQ := rfl
@[simp] theorem State.setPort_migs (g : Nat) (x : Port) : (s.setPort g x).migs = s.migs := rfl
@[simp] theorem State.setPort_quiet (g : Nat) (x : Port) : (s.setPort g x).quiet = s.quiet := rfl
@[simp] theorem State.setPort_trunkRr (g : Nat) (x : Port) : (s.setPort g x).trunkRr = s.trunkRr := rfl
@[simp] theorem State.setPort_rreqs (g : Nat) (x : Port) : (s.setPort g x).rreqs = s.rreqs := rfl
@[simp] theorem State.setPort_stotSeen (g : Nat) (x : Port) : (s.setPort g x).stotSeen = s.stotSeen := rfl
@[simp] theorem State.setPort_ethStot (g : Nat) (x : Port) : (s.setPort g x).ethStot = s.ethStot := rfl
@[simp] theorem State.setPort_colls (g : Nat) (x : Port) : (s.setPort g x).colls = s.colls := rfl
@[simp] theorem State.setPort_collIn (g : Nat) (x : Port) : (s.setPort g x).collIn = s.collIn := rfl
@[simp] theorem State.setPort_qps (g : Nat) (x : Port) : (s.setPort g x).qps = s.qps := rfl
@[simp] theorem State.setPort_eths (g : Nat) (x : Port) : (s.setPort g x).eths = s.eths := rfl
@[simp] theorem State.setPort_epochInc (g : Nat) (x : Port) : (s.setPort g x).epochInc = s.epochInc := rfl
@[simp] theorem State.setPort_streams (g : Nat) (x : Port) : (s.setPort g x).streams = s.streams := rfl
@[simp] theorem State.setPort_flash (g : Nat) (x : Port) : (s.setPort g x).flash = s.flash := rfl
@[simp] theorem State.setPort_lifeDue (g : Nat) (x : Port) : (s.setPort g x).lifeDue = s.lifeDue := rfl
@[simp] theorem State.setPort_clk (g : Nat) (x : Port) : (s.setPort g x).clk = s.clk := rfl
@[simp] theorem State.setPort_tiles (g : Nat) (x : Port) : (s.setPort g x).tiles = s.tiles := rfl
@[simp] theorem State.setPort_herds (g : Nat) (x : Port) : (s.setPort g x).herds = s.herds := rfl
@[simp] theorem State.setPort_cores (g : Nat) (x : Port) : (s.setPort g x).cores = s.cores := rfl
@[simp] theorem State.setPort_dieWd (g : Nat) (x : Port) : (s.setPort g x).dieWd = s.dieWd := rfl
@[simp] theorem State.setPort_parts (g : Nat) (x : Port) : (s.setPort g x).parts = s.parts := rfl
@[simp] theorem State.setPort_ctxs (g : Nat) (x : Port) : (s.setPort g x).ctxs = s.ctxs := rfl
@[simp] theorem State.setPort_groups (g : Nat) (x : Port) : (s.setPort g x).groups = s.groups := rfl
@[simp] theorem State.setPort_gsems (g : Nat) (x : Port) : (s.setPort g x).gsems = s.gsems := rfl
@[simp] theorem State.setPort_jobFaults (g : Nat) (x : Port) : (s.setPort g x).jobFaults = s.jobFaults := rfl
@[simp] theorem State.setPort_resetsDue (g : Nat) (x : Port) : (s.setPort g x).resetsDue = s.resetsDue := rfl
@[simp] theorem State.setPort_doms (g : Nat) (x : Port) : (s.setPort g x).doms = s.doms := rfl
@[simp] theorem State.setPort_escTimes (g : Nat) (x : Port) : (s.setPort g x).escTimes = s.escTimes := rfl
@[simp] theorem State.setPort_evqPhase (g : Nat) (x : Port) : (s.setPort g x).evqPhase = s.evqPhase := rfl
@[simp] theorem State.setPort_evqLost (g : Nat) (x : Port) : (s.setPort g x).evqLost = s.evqLost := rfl
@[simp] theorem State.setPort_evqIrq (g : Nat) (x : Port) : (s.setPort g x).evqIrq = s.evqIrq := rfl
@[simp] theorem State.setPort_hltAcc (g : Nat) (x : Port) : (s.setPort g x).hltAcc = s.hltAcc := rfl
@[simp] theorem State.setPort_hltEv (g : Nat) (x : Port) : (s.setPort g x).hltEv = s.hltEv := rfl
@[simp] theorem State.setPort_snapQ (g : Nat) (x : Port) : (s.setPort g x).snapQ = s.snapQ := rfl
@[simp] theorem State.setPort_sparing (g : Nat) (x : Port) : (s.setPort g x).sparing = s.sparing := rfl
@[simp] theorem State.setPort_logSeq (g : Nat) (x : Port) : (s.setPort g x).logSeq = s.logSeq := rfl
@[simp] theorem State.setPort_logAt (g : Nat) (x : Port) : (s.setPort g x).logAt = s.logAt := rfl
@[simp] theorem State.setPort_logDue (g : Nat) (x : Port) : (s.setPort g x).logDue = s.logDue := rfl
@[simp] theorem State.setPort_joules (g : Nat) (x : Port) : (s.setPort g x).joules = s.joules := rfl
@[simp] theorem State.setPort_fuses (g : Nat) (x : Port) : (s.setPort g x).fuses = s.fuses := rfl
@[simp] theorem State.setPort_fuseCmd (g : Nat) (x : Port) : (s.setPort g x).fuseCmd = s.fuseCmd := rfl
@[simp] theorem State.setPort_flashCmd (g : Nat) (x : Port) : (s.setPort g x).flashCmd = s.flashCmd := rfl
@[simp] theorem State.setPort_attest (g : Nat) (x : Port) : (s.setPort g x).attest = s.attest := rfl
@[simp] theorem State.setPort_idKey (g : Nat) (x : Port) : (s.setPort g x).idKey = s.idKey := rfl
@[simp] theorem State.setPort_pubDigest (g : Nat) (x : Port) : (s.setPort g x).pubDigest = s.pubDigest := rfl
@[simp] theorem State.setPort_servers (g : Nat) (x : Port) : (s.setPort g x).servers = s.servers := rfl
@[simp] theorem State.setPort_pwr (g : Nat) (x : Port) : (s.setPort g x).pwr = s.pwr := rfl
@[simp] theorem State.setPort_mgmt (g : Nat) (x : Port) : (s.setPort g x).mgmt = s.mgmt := rfl
@[simp] theorem State.setPort_tap (g : Nat) (x : Port) : (s.setPort g x).tap = s.tap := rfl
@[simp] theorem State.setPort_chans (g : Nat) (x : Port) : (s.setPort g x).chans = s.chans := rfl
@[simp] theorem State.setPort_llc (g : Nat) (x : Port) : (s.setPort g x).llc = s.llc := rfl
@[simp] theorem State.setPort_reqQ (g : Nat) (x : Port) : (s.setPort g x).reqQ = s.reqQ := rfl
@[simp] theorem State.setPort_regQs (g : Nat) (x : Port) : (s.setPort g x).regQs = s.regQs := rfl
@[simp] theorem State.setPort_retiring (g : Nat) (x : Port) : (s.setPort g x).retiring = s.retiring := rfl
@[simp] theorem State.setPort_rmUpd (g : Nat) (x : Port) : (s.setPort g x).rmUpd = s.rmUpd := rfl
@[simp] theorem State.setPort_promo (g : Nat) (x : Port) : (s.setPort g x).promo = s.promo := rfl
@[simp] theorem State.setPort_demo (g : Nat) (x : Port) : (s.setPort g x).demo = s.demo := rfl
@[simp] theorem State.setPort_epochTick (g : Nat) (x : Port) : (s.setPort g x).epochTick = s.epochTick := rfl
@[simp] theorem State.setPort_rwait (g : Nat) (x : Port) : (s.setPort g x).rwait = s.rwait := rfl
@[simp] theorem State.setPort_pcieCfg (g : Nat) (x : Port) : (s.setPort g x).pcieCfg = s.pcieCfg := rfl
@[simp] theorem State.setPort_pgSeen (g : Nat) (x : Port) : (s.setPort g x).pgSeen = s.pgSeen := rfl
@[simp] theorem State.setPort_spareHard (g : Nat) (x : Port) : (s.setPort g x).spareHard = s.spareHard := rfl
@[simp] theorem State.setPort_copies (g : Nat) (x : Port) : (s.setPort g x).copies = s.copies := rfl
@[simp] theorem State.setPort_holds (g : Nat) (x : Port) : (s.setPort g x).holds = s.holds := rfl
@[simp] theorem State.setPort_refs (g : Nat) (x : Port) : (s.setPort g x).refs = s.refs := rfl
@[simp] theorem State.setPort_fuseList (g : Nat) (x : Port) : (s.setPort g x).fuseList = s.fuseList := rfl
@[simp] theorem State.setPort_recent (g : Nat) (x : Port) : (s.setPort g x).recent = s.recent := rfl
@[simp] theorem State.setPort_acc (g : Nat) (x : Port) : (s.setPort g x).acc = s.acc := rfl
@[simp] theorem State.setPort_came (g : Nat) (x : Port) : (s.setPort g x).came = s.came := rfl
@[simp] theorem State.setPort_tickets (g : Nat) (x : Port) : (s.setPort g x).tickets = s.tickets := rfl
@[simp] theorem State.setPort_msis (g : Nat) (x : Port) : (s.setPort g x).msis = s.msis := rfl
@[simp] theorem State.setPort_inkTurn (g : Nat) (x : Port) : (s.setPort g x).inkTurn = s.inkTurn := rfl

/-! ### State.health -/

@[simp] theorem State.health_pending (i n : Nat) : (s.health i n).pending = s.pending := rfl
@[simp] theorem State.health_free (i n : Nat) : (s.health i n).free = s.free := rfl
@[simp] theorem State.health_rsp (i n : Nat) : (s.health i n).rsp = s.rsp := rfl
@[simp] theorem State.health_regs (i n : Nat) : (s.health i n).regs = s.regs := rfl
@[simp] theorem State.health_mem (i n : Nat) : (s.health i n).mem = s.mem := rfl
@[simp] theorem State.health_poison (i n : Nat) : (s.health i n).poison = s.poison := rfl
@[simp] theorem State.health_soft (i n : Nat) : (s.health i n).soft = s.soft := rfl
@[simp] theorem State.health_hard (i n : Nat) : (s.health i n).hard = s.hard := rfl
@[simp] theorem State.health_remap (i n : Nat) : (s.health i n).remap = s.remap := rfl
@[simp] theorem State.health_spent (i n : Nat) : (s.health i n).spent = s.spent := rfl
@[simp] theorem State.health_chkCache (i n : Nat) : (s.health i n).chkCache = s.chkCache := rfl
@[simp] theorem State.health_postponed (i n : Nat) : (s.health i n).postponed = s.postponed := rfl
@[simp] theorem State.health_refLocked (i n : Nat) : (s.health i n).refLocked = s.refLocked := rfl
@[simp] theorem State.health_repairs (i n : Nat) : (s.health i n).repairs = s.repairs := rfl
@[simp] theorem State.health_fuseRows (i n : Nat) : (s.health i n).fuseRows = s.fuseRows := rfl
@[simp] theorem State.health_fuseCols (i n : Nat) : (s.health i n).fuseCols = s.fuseCols := rfl
@[simp] theorem State.health_dieRepairs (i n : Nat) : (s.health i n).dieRepairs = s.dieRepairs := rfl
@[simp] theorem State.health_ucieOut (i n : Nat) : (s.health i n).ucieOut = s.ucieOut := rfl
@[simp] theorem State.health_ucieHash (i n : Nat) : (s.health i n).ucieHash = s.ucieHash := rfl
@[simp] theorem State.health_bw (i n : Nat) : (s.health i n).bw = s.bw := rfl
@[simp] theorem State.health_bwEnd (i n : Nat) : (s.health i n).bwEnd = s.bwEnd := rfl
@[simp] theorem State.health_rangeMap (i n : Nat) : (s.health i n).rangeMap = s.rangeMap := rfl
@[simp] theorem State.health_reserved (i n : Nat) : (s.health i n).reserved = s.reserved := rfl
@[simp] theorem State.health_bad (i n : Nat) : (s.health i n).bad = s.bad := rfl
@[simp] theorem State.health_rmc (i n : Nat) : (s.health i n).rmc = s.rmc := rfl
@[simp] theorem State.health_heat (i n : Nat) : (s.health i n).heat = s.heat := rfl
@[simp] theorem State.health_cache (i n : Nat) : (s.health i n).cache = s.cache := rfl
@[simp] theorem State.health_wback (i n : Nat) : (s.health i n).wback = s.wback := rfl
@[simp] theorem State.health_busy (i n : Nat) : (s.health i n).busy = s.busy := rfl
@[simp] theorem State.health_snoop (i n : Nat) : (s.health i n).snoop = s.snoop := rfl
@[simp] theorem State.health_arb (i n : Nat) : (s.health i n).arb = s.arb := rfl
@[simp] theorem State.health_msgs (i n : Nat) : (s.health i n).msgs = s.msgs := rfl
@[simp] theorem State.health_pools (i n : Nat) : (s.health i n).pools = s.pools := rfl
@[simp] theorem State.health_migQ (i n : Nat) : (s.health i n).migQ = s.migQ := rfl
@[simp] theorem State.health_migs (i n : Nat) : (s.health i n).migs = s.migs := rfl
@[simp] theorem State.health_quiet (i n : Nat) : (s.health i n).quiet = s.quiet := rfl
@[simp] theorem State.health_ports (i n : Nat) : (s.health i n).ports = s.ports := rfl
@[simp] theorem State.health_trunkRr (i n : Nat) : (s.health i n).trunkRr = s.trunkRr := rfl
@[simp] theorem State.health_rreqs (i n : Nat) : (s.health i n).rreqs = s.rreqs := rfl
@[simp] theorem State.health_stotSeen (i n : Nat) : (s.health i n).stotSeen = s.stotSeen := rfl
@[simp] theorem State.health_ethStot (i n : Nat) : (s.health i n).ethStot = s.ethStot := rfl
@[simp] theorem State.health_colls (i n : Nat) : (s.health i n).colls = s.colls := rfl
@[simp] theorem State.health_collIn (i n : Nat) : (s.health i n).collIn = s.collIn := rfl
@[simp] theorem State.health_qps (i n : Nat) : (s.health i n).qps = s.qps := rfl
@[simp] theorem State.health_eths (i n : Nat) : (s.health i n).eths = s.eths := rfl
@[simp] theorem State.health_epochInc (i n : Nat) : (s.health i n).epochInc = s.epochInc := rfl
@[simp] theorem State.health_streams (i n : Nat) : (s.health i n).streams = s.streams := rfl
@[simp] theorem State.health_flash (i n : Nat) : (s.health i n).flash = s.flash := rfl
@[simp] theorem State.health_lifeDue (i n : Nat) : (s.health i n).lifeDue = s.lifeDue := rfl
@[simp] theorem State.health_clk (i n : Nat) : (s.health i n).clk = s.clk := rfl
@[simp] theorem State.health_tiles (i n : Nat) : (s.health i n).tiles = s.tiles := rfl
@[simp] theorem State.health_herds (i n : Nat) : (s.health i n).herds = s.herds := rfl
@[simp] theorem State.health_cores (i n : Nat) : (s.health i n).cores = s.cores := rfl
@[simp] theorem State.health_dieWd (i n : Nat) : (s.health i n).dieWd = s.dieWd := rfl
@[simp] theorem State.health_parts (i n : Nat) : (s.health i n).parts = s.parts := rfl
@[simp] theorem State.health_ctxs (i n : Nat) : (s.health i n).ctxs = s.ctxs := rfl
@[simp] theorem State.health_groups (i n : Nat) : (s.health i n).groups = s.groups := rfl
@[simp] theorem State.health_gsems (i n : Nat) : (s.health i n).gsems = s.gsems := rfl
@[simp] theorem State.health_jobFaults (i n : Nat) : (s.health i n).jobFaults = s.jobFaults := rfl
@[simp] theorem State.health_resetsDue (i n : Nat) : (s.health i n).resetsDue = s.resetsDue := rfl
@[simp] theorem State.health_doms (i n : Nat) : (s.health i n).doms = s.doms := rfl
@[simp] theorem State.health_escTimes (i n : Nat) : (s.health i n).escTimes = s.escTimes := rfl
@[simp] theorem State.health_evqPhase (i n : Nat) : (s.health i n).evqPhase = s.evqPhase := rfl
@[simp] theorem State.health_evqLost (i n : Nat) : (s.health i n).evqLost = s.evqLost := rfl
@[simp] theorem State.health_evqIrq (i n : Nat) : (s.health i n).evqIrq = s.evqIrq := rfl
@[simp] theorem State.health_hltAcc (i n : Nat) : (s.health i n).hltAcc = s.hltAcc := rfl
@[simp] theorem State.health_snapQ (i n : Nat) : (s.health i n).snapQ = s.snapQ := rfl
@[simp] theorem State.health_sparing (i n : Nat) : (s.health i n).sparing = s.sparing := rfl
@[simp] theorem State.health_logSeq (i n : Nat) : (s.health i n).logSeq = s.logSeq := rfl
@[simp] theorem State.health_logAt (i n : Nat) : (s.health i n).logAt = s.logAt := rfl
@[simp] theorem State.health_logDue (i n : Nat) : (s.health i n).logDue = s.logDue := rfl
@[simp] theorem State.health_joules (i n : Nat) : (s.health i n).joules = s.joules := rfl
@[simp] theorem State.health_fuses (i n : Nat) : (s.health i n).fuses = s.fuses := rfl
@[simp] theorem State.health_fuseCmd (i n : Nat) : (s.health i n).fuseCmd = s.fuseCmd := rfl
@[simp] theorem State.health_flashCmd (i n : Nat) : (s.health i n).flashCmd = s.flashCmd := rfl
@[simp] theorem State.health_attest (i n : Nat) : (s.health i n).attest = s.attest := rfl
@[simp] theorem State.health_idKey (i n : Nat) : (s.health i n).idKey = s.idKey := rfl
@[simp] theorem State.health_pubDigest (i n : Nat) : (s.health i n).pubDigest = s.pubDigest := rfl
@[simp] theorem State.health_servers (i n : Nat) : (s.health i n).servers = s.servers := rfl
@[simp] theorem State.health_pwr (i n : Nat) : (s.health i n).pwr = s.pwr := rfl
@[simp] theorem State.health_mgmt (i n : Nat) : (s.health i n).mgmt = s.mgmt := rfl
@[simp] theorem State.health_tap (i n : Nat) : (s.health i n).tap = s.tap := rfl
@[simp] theorem State.health_chans (i n : Nat) : (s.health i n).chans = s.chans := rfl
@[simp] theorem State.health_llc (i n : Nat) : (s.health i n).llc = s.llc := rfl
@[simp] theorem State.health_reqQ (i n : Nat) : (s.health i n).reqQ = s.reqQ := rfl
@[simp] theorem State.health_regQs (i n : Nat) : (s.health i n).regQs = s.regQs := rfl
@[simp] theorem State.health_retiring (i n : Nat) : (s.health i n).retiring = s.retiring := rfl
@[simp] theorem State.health_rmUpd (i n : Nat) : (s.health i n).rmUpd = s.rmUpd := rfl
@[simp] theorem State.health_promo (i n : Nat) : (s.health i n).promo = s.promo := rfl
@[simp] theorem State.health_demo (i n : Nat) : (s.health i n).demo = s.demo := rfl
@[simp] theorem State.health_epochTick (i n : Nat) : (s.health i n).epochTick = s.epochTick := rfl
@[simp] theorem State.health_rwait (i n : Nat) : (s.health i n).rwait = s.rwait := rfl
@[simp] theorem State.health_pcieCfg (i n : Nat) : (s.health i n).pcieCfg = s.pcieCfg := rfl
@[simp] theorem State.health_pgSeen (i n : Nat) : (s.health i n).pgSeen = s.pgSeen := rfl
@[simp] theorem State.health_spareHard (i n : Nat) : (s.health i n).spareHard = s.spareHard := rfl
@[simp] theorem State.health_copies (i n : Nat) : (s.health i n).copies = s.copies := rfl
@[simp] theorem State.health_holds (i n : Nat) : (s.health i n).holds = s.holds := rfl
@[simp] theorem State.health_refs (i n : Nat) : (s.health i n).refs = s.refs := rfl
@[simp] theorem State.health_fuseList (i n : Nat) : (s.health i n).fuseList = s.fuseList := rfl
@[simp] theorem State.health_recent (i n : Nat) : (s.health i n).recent = s.recent := rfl
@[simp] theorem State.health_acc (i n : Nat) : (s.health i n).acc = s.acc := rfl
@[simp] theorem State.health_came (i n : Nat) : (s.health i n).came = s.came := rfl
@[simp] theorem State.health_tickets (i n : Nat) : (s.health i n).tickets = s.tickets := rfl
@[simp] theorem State.health_msis (i n : Nat) : (s.health i n).msis = s.msis := rfl
@[simp] theorem State.health_inkTurn (i n : Nat) : (s.health i n).inkTurn = s.inkTurn := rfl

/-! ### State.bwAdd -/

@[simp] theorem State.bwAdd_pending (b d n : Nat) : (s.bwAdd b d n).pending = s.pending := rfl
@[simp] theorem State.bwAdd_free (b d n : Nat) : (s.bwAdd b d n).free = s.free := rfl
@[simp] theorem State.bwAdd_rsp (b d n : Nat) : (s.bwAdd b d n).rsp = s.rsp := rfl
@[simp] theorem State.bwAdd_regs (b d n : Nat) : (s.bwAdd b d n).regs = s.regs := rfl
@[simp] theorem State.bwAdd_mem (b d n : Nat) : (s.bwAdd b d n).mem = s.mem := rfl
@[simp] theorem State.bwAdd_poison (b d n : Nat) : (s.bwAdd b d n).poison = s.poison := rfl
@[simp] theorem State.bwAdd_soft (b d n : Nat) : (s.bwAdd b d n).soft = s.soft := rfl
@[simp] theorem State.bwAdd_hard (b d n : Nat) : (s.bwAdd b d n).hard = s.hard := rfl
@[simp] theorem State.bwAdd_remap (b d n : Nat) : (s.bwAdd b d n).remap = s.remap := rfl
@[simp] theorem State.bwAdd_spent (b d n : Nat) : (s.bwAdd b d n).spent = s.spent := rfl
@[simp] theorem State.bwAdd_chkCache (b d n : Nat) : (s.bwAdd b d n).chkCache = s.chkCache := rfl
@[simp] theorem State.bwAdd_postponed (b d n : Nat) : (s.bwAdd b d n).postponed = s.postponed := rfl
@[simp] theorem State.bwAdd_refLocked (b d n : Nat) : (s.bwAdd b d n).refLocked = s.refLocked := rfl
@[simp] theorem State.bwAdd_repairs (b d n : Nat) : (s.bwAdd b d n).repairs = s.repairs := rfl
@[simp] theorem State.bwAdd_fuseRows (b d n : Nat) : (s.bwAdd b d n).fuseRows = s.fuseRows := rfl
@[simp] theorem State.bwAdd_fuseCols (b d n : Nat) : (s.bwAdd b d n).fuseCols = s.fuseCols := rfl
@[simp] theorem State.bwAdd_dieRepairs (b d n : Nat) : (s.bwAdd b d n).dieRepairs = s.dieRepairs := rfl
@[simp] theorem State.bwAdd_ucieOut (b d n : Nat) : (s.bwAdd b d n).ucieOut = s.ucieOut := rfl
@[simp] theorem State.bwAdd_ucieHash (b d n : Nat) : (s.bwAdd b d n).ucieHash = s.ucieHash := rfl
@[simp] theorem State.bwAdd_bwEnd (b d n : Nat) : (s.bwAdd b d n).bwEnd = s.bwEnd := rfl
@[simp] theorem State.bwAdd_rangeMap (b d n : Nat) : (s.bwAdd b d n).rangeMap = s.rangeMap := rfl
@[simp] theorem State.bwAdd_reserved (b d n : Nat) : (s.bwAdd b d n).reserved = s.reserved := rfl
@[simp] theorem State.bwAdd_bad (b d n : Nat) : (s.bwAdd b d n).bad = s.bad := rfl
@[simp] theorem State.bwAdd_rmc (b d n : Nat) : (s.bwAdd b d n).rmc = s.rmc := rfl
@[simp] theorem State.bwAdd_heat (b d n : Nat) : (s.bwAdd b d n).heat = s.heat := rfl
@[simp] theorem State.bwAdd_cache (b d n : Nat) : (s.bwAdd b d n).cache = s.cache := rfl
@[simp] theorem State.bwAdd_wback (b d n : Nat) : (s.bwAdd b d n).wback = s.wback := rfl
@[simp] theorem State.bwAdd_busy (b d n : Nat) : (s.bwAdd b d n).busy = s.busy := rfl
@[simp] theorem State.bwAdd_snoop (b d n : Nat) : (s.bwAdd b d n).snoop = s.snoop := rfl
@[simp] theorem State.bwAdd_arb (b d n : Nat) : (s.bwAdd b d n).arb = s.arb := rfl
@[simp] theorem State.bwAdd_msgs (b d n : Nat) : (s.bwAdd b d n).msgs = s.msgs := rfl
@[simp] theorem State.bwAdd_pools (b d n : Nat) : (s.bwAdd b d n).pools = s.pools := rfl
@[simp] theorem State.bwAdd_migQ (b d n : Nat) : (s.bwAdd b d n).migQ = s.migQ := rfl
@[simp] theorem State.bwAdd_migs (b d n : Nat) : (s.bwAdd b d n).migs = s.migs := rfl
@[simp] theorem State.bwAdd_quiet (b d n : Nat) : (s.bwAdd b d n).quiet = s.quiet := rfl
@[simp] theorem State.bwAdd_ports (b d n : Nat) : (s.bwAdd b d n).ports = s.ports := rfl
@[simp] theorem State.bwAdd_trunkRr (b d n : Nat) : (s.bwAdd b d n).trunkRr = s.trunkRr := rfl
@[simp] theorem State.bwAdd_rreqs (b d n : Nat) : (s.bwAdd b d n).rreqs = s.rreqs := rfl
@[simp] theorem State.bwAdd_stotSeen (b d n : Nat) : (s.bwAdd b d n).stotSeen = s.stotSeen := rfl
@[simp] theorem State.bwAdd_ethStot (b d n : Nat) : (s.bwAdd b d n).ethStot = s.ethStot := rfl
@[simp] theorem State.bwAdd_colls (b d n : Nat) : (s.bwAdd b d n).colls = s.colls := rfl
@[simp] theorem State.bwAdd_collIn (b d n : Nat) : (s.bwAdd b d n).collIn = s.collIn := rfl
@[simp] theorem State.bwAdd_qps (b d n : Nat) : (s.bwAdd b d n).qps = s.qps := rfl
@[simp] theorem State.bwAdd_eths (b d n : Nat) : (s.bwAdd b d n).eths = s.eths := rfl
@[simp] theorem State.bwAdd_epochInc (b d n : Nat) : (s.bwAdd b d n).epochInc = s.epochInc := rfl
@[simp] theorem State.bwAdd_streams (b d n : Nat) : (s.bwAdd b d n).streams = s.streams := rfl
@[simp] theorem State.bwAdd_flash (b d n : Nat) : (s.bwAdd b d n).flash = s.flash := rfl
@[simp] theorem State.bwAdd_lifeDue (b d n : Nat) : (s.bwAdd b d n).lifeDue = s.lifeDue := rfl
@[simp] theorem State.bwAdd_clk (b d n : Nat) : (s.bwAdd b d n).clk = s.clk := rfl
@[simp] theorem State.bwAdd_tiles (b d n : Nat) : (s.bwAdd b d n).tiles = s.tiles := rfl
@[simp] theorem State.bwAdd_herds (b d n : Nat) : (s.bwAdd b d n).herds = s.herds := rfl
@[simp] theorem State.bwAdd_cores (b d n : Nat) : (s.bwAdd b d n).cores = s.cores := rfl
@[simp] theorem State.bwAdd_dieWd (b d n : Nat) : (s.bwAdd b d n).dieWd = s.dieWd := rfl
@[simp] theorem State.bwAdd_parts (b d n : Nat) : (s.bwAdd b d n).parts = s.parts := rfl
@[simp] theorem State.bwAdd_ctxs (b d n : Nat) : (s.bwAdd b d n).ctxs = s.ctxs := rfl
@[simp] theorem State.bwAdd_groups (b d n : Nat) : (s.bwAdd b d n).groups = s.groups := rfl
@[simp] theorem State.bwAdd_gsems (b d n : Nat) : (s.bwAdd b d n).gsems = s.gsems := rfl
@[simp] theorem State.bwAdd_jobFaults (b d n : Nat) : (s.bwAdd b d n).jobFaults = s.jobFaults := rfl
@[simp] theorem State.bwAdd_resetsDue (b d n : Nat) : (s.bwAdd b d n).resetsDue = s.resetsDue := rfl
@[simp] theorem State.bwAdd_doms (b d n : Nat) : (s.bwAdd b d n).doms = s.doms := rfl
@[simp] theorem State.bwAdd_escTimes (b d n : Nat) : (s.bwAdd b d n).escTimes = s.escTimes := rfl
@[simp] theorem State.bwAdd_evqPhase (b d n : Nat) : (s.bwAdd b d n).evqPhase = s.evqPhase := rfl
@[simp] theorem State.bwAdd_evqLost (b d n : Nat) : (s.bwAdd b d n).evqLost = s.evqLost := rfl
@[simp] theorem State.bwAdd_evqIrq (b d n : Nat) : (s.bwAdd b d n).evqIrq = s.evqIrq := rfl
@[simp] theorem State.bwAdd_hltAcc (b d n : Nat) : (s.bwAdd b d n).hltAcc = s.hltAcc := rfl
@[simp] theorem State.bwAdd_hltEv (b d n : Nat) : (s.bwAdd b d n).hltEv = s.hltEv := rfl
@[simp] theorem State.bwAdd_snapQ (b d n : Nat) : (s.bwAdd b d n).snapQ = s.snapQ := rfl
@[simp] theorem State.bwAdd_sparing (b d n : Nat) : (s.bwAdd b d n).sparing = s.sparing := rfl
@[simp] theorem State.bwAdd_logSeq (b d n : Nat) : (s.bwAdd b d n).logSeq = s.logSeq := rfl
@[simp] theorem State.bwAdd_logAt (b d n : Nat) : (s.bwAdd b d n).logAt = s.logAt := rfl
@[simp] theorem State.bwAdd_logDue (b d n : Nat) : (s.bwAdd b d n).logDue = s.logDue := rfl
@[simp] theorem State.bwAdd_joules (b d n : Nat) : (s.bwAdd b d n).joules = s.joules := rfl
@[simp] theorem State.bwAdd_fuses (b d n : Nat) : (s.bwAdd b d n).fuses = s.fuses := rfl
@[simp] theorem State.bwAdd_fuseCmd (b d n : Nat) : (s.bwAdd b d n).fuseCmd = s.fuseCmd := rfl
@[simp] theorem State.bwAdd_flashCmd (b d n : Nat) : (s.bwAdd b d n).flashCmd = s.flashCmd := rfl
@[simp] theorem State.bwAdd_attest (b d n : Nat) : (s.bwAdd b d n).attest = s.attest := rfl
@[simp] theorem State.bwAdd_idKey (b d n : Nat) : (s.bwAdd b d n).idKey = s.idKey := rfl
@[simp] theorem State.bwAdd_pubDigest (b d n : Nat) : (s.bwAdd b d n).pubDigest = s.pubDigest := rfl
@[simp] theorem State.bwAdd_servers (b d n : Nat) : (s.bwAdd b d n).servers = s.servers := rfl
@[simp] theorem State.bwAdd_pwr (b d n : Nat) : (s.bwAdd b d n).pwr = s.pwr := rfl
@[simp] theorem State.bwAdd_mgmt (b d n : Nat) : (s.bwAdd b d n).mgmt = s.mgmt := rfl
@[simp] theorem State.bwAdd_tap (b d n : Nat) : (s.bwAdd b d n).tap = s.tap := rfl
@[simp] theorem State.bwAdd_chans (b d n : Nat) : (s.bwAdd b d n).chans = s.chans := rfl
@[simp] theorem State.bwAdd_llc (b d n : Nat) : (s.bwAdd b d n).llc = s.llc := rfl
@[simp] theorem State.bwAdd_reqQ (b d n : Nat) : (s.bwAdd b d n).reqQ = s.reqQ := rfl
@[simp] theorem State.bwAdd_regQs (b d n : Nat) : (s.bwAdd b d n).regQs = s.regQs := rfl
@[simp] theorem State.bwAdd_retiring (b d n : Nat) : (s.bwAdd b d n).retiring = s.retiring := rfl
@[simp] theorem State.bwAdd_rmUpd (b d n : Nat) : (s.bwAdd b d n).rmUpd = s.rmUpd := rfl
@[simp] theorem State.bwAdd_promo (b d n : Nat) : (s.bwAdd b d n).promo = s.promo := rfl
@[simp] theorem State.bwAdd_demo (b d n : Nat) : (s.bwAdd b d n).demo = s.demo := rfl
@[simp] theorem State.bwAdd_epochTick (b d n : Nat) : (s.bwAdd b d n).epochTick = s.epochTick := rfl
@[simp] theorem State.bwAdd_rwait (b d n : Nat) : (s.bwAdd b d n).rwait = s.rwait := rfl
@[simp] theorem State.bwAdd_pcieCfg (b d n : Nat) : (s.bwAdd b d n).pcieCfg = s.pcieCfg := rfl
@[simp] theorem State.bwAdd_pgSeen (b d n : Nat) : (s.bwAdd b d n).pgSeen = s.pgSeen := rfl
@[simp] theorem State.bwAdd_spareHard (b d n : Nat) : (s.bwAdd b d n).spareHard = s.spareHard := rfl
@[simp] theorem State.bwAdd_copies (b d n : Nat) : (s.bwAdd b d n).copies = s.copies := rfl
@[simp] theorem State.bwAdd_holds (b d n : Nat) : (s.bwAdd b d n).holds = s.holds := rfl
@[simp] theorem State.bwAdd_refs (b d n : Nat) : (s.bwAdd b d n).refs = s.refs := rfl
@[simp] theorem State.bwAdd_fuseList (b d n : Nat) : (s.bwAdd b d n).fuseList = s.fuseList := rfl
@[simp] theorem State.bwAdd_recent (b d n : Nat) : (s.bwAdd b d n).recent = s.recent := rfl
@[simp] theorem State.bwAdd_acc (b d n : Nat) : (s.bwAdd b d n).acc = s.acc := rfl
@[simp] theorem State.bwAdd_came (b d n : Nat) : (s.bwAdd b d n).came = s.came := rfl
@[simp] theorem State.bwAdd_tickets (b d n : Nat) : (s.bwAdd b d n).tickets = s.tickets := rfl
@[simp] theorem State.bwAdd_msis (b d n : Nat) : (s.bwAdd b d n).msis = s.msis := rfl
@[simp] theorem State.bwAdd_inkTurn (b d n : Nat) : (s.bwAdd b d n).inkTurn = s.inkTurn := rfl

/-! ### State.setChan -/

@[simp] theorem State.setChan_pending (k : Nat) (x : Chan) : (s.setChan k x).pending = s.pending := rfl
@[simp] theorem State.setChan_free (k : Nat) (x : Chan) : (s.setChan k x).free = s.free := rfl
@[simp] theorem State.setChan_rsp (k : Nat) (x : Chan) : (s.setChan k x).rsp = s.rsp := rfl
@[simp] theorem State.setChan_regs (k : Nat) (x : Chan) : (s.setChan k x).regs = s.regs := rfl
@[simp] theorem State.setChan_mem (k : Nat) (x : Chan) : (s.setChan k x).mem = s.mem := rfl
@[simp] theorem State.setChan_poison (k : Nat) (x : Chan) : (s.setChan k x).poison = s.poison := rfl
@[simp] theorem State.setChan_soft (k : Nat) (x : Chan) : (s.setChan k x).soft = s.soft := rfl
@[simp] theorem State.setChan_hard (k : Nat) (x : Chan) : (s.setChan k x).hard = s.hard := rfl
@[simp] theorem State.setChan_remap (k : Nat) (x : Chan) : (s.setChan k x).remap = s.remap := rfl
@[simp] theorem State.setChan_spent (k : Nat) (x : Chan) : (s.setChan k x).spent = s.spent := rfl
@[simp] theorem State.setChan_chkCache (k : Nat) (x : Chan) : (s.setChan k x).chkCache = s.chkCache := rfl
@[simp] theorem State.setChan_postponed (k : Nat) (x : Chan) : (s.setChan k x).postponed = s.postponed := rfl
@[simp] theorem State.setChan_refLocked (k : Nat) (x : Chan) : (s.setChan k x).refLocked = s.refLocked := rfl
@[simp] theorem State.setChan_repairs (k : Nat) (x : Chan) : (s.setChan k x).repairs = s.repairs := rfl
@[simp] theorem State.setChan_fuseRows (k : Nat) (x : Chan) : (s.setChan k x).fuseRows = s.fuseRows := rfl
@[simp] theorem State.setChan_fuseCols (k : Nat) (x : Chan) : (s.setChan k x).fuseCols = s.fuseCols := rfl
@[simp] theorem State.setChan_dieRepairs (k : Nat) (x : Chan) : (s.setChan k x).dieRepairs = s.dieRepairs := rfl
@[simp] theorem State.setChan_ucieOut (k : Nat) (x : Chan) : (s.setChan k x).ucieOut = s.ucieOut := rfl
@[simp] theorem State.setChan_ucieHash (k : Nat) (x : Chan) : (s.setChan k x).ucieHash = s.ucieHash := rfl
@[simp] theorem State.setChan_bw (k : Nat) (x : Chan) : (s.setChan k x).bw = s.bw := rfl
@[simp] theorem State.setChan_bwEnd (k : Nat) (x : Chan) : (s.setChan k x).bwEnd = s.bwEnd := rfl
@[simp] theorem State.setChan_rangeMap (k : Nat) (x : Chan) : (s.setChan k x).rangeMap = s.rangeMap := rfl
@[simp] theorem State.setChan_reserved (k : Nat) (x : Chan) : (s.setChan k x).reserved = s.reserved := rfl
@[simp] theorem State.setChan_bad (k : Nat) (x : Chan) : (s.setChan k x).bad = s.bad := rfl
@[simp] theorem State.setChan_rmc (k : Nat) (x : Chan) : (s.setChan k x).rmc = s.rmc := rfl
@[simp] theorem State.setChan_heat (k : Nat) (x : Chan) : (s.setChan k x).heat = s.heat := rfl
@[simp] theorem State.setChan_cache (k : Nat) (x : Chan) : (s.setChan k x).cache = s.cache := rfl
@[simp] theorem State.setChan_wback (k : Nat) (x : Chan) : (s.setChan k x).wback = s.wback := rfl
@[simp] theorem State.setChan_busy (k : Nat) (x : Chan) : (s.setChan k x).busy = s.busy := rfl
@[simp] theorem State.setChan_snoop (k : Nat) (x : Chan) : (s.setChan k x).snoop = s.snoop := rfl
@[simp] theorem State.setChan_arb (k : Nat) (x : Chan) : (s.setChan k x).arb = s.arb := rfl
@[simp] theorem State.setChan_llc (k : Nat) (x : Chan) : (s.setChan k x).llc = s.llc := rfl
@[simp] theorem State.setChan_reqQ (k : Nat) (x : Chan) : (s.setChan k x).reqQ = s.reqQ := rfl
@[simp] theorem State.setChan_msgs (k : Nat) (x : Chan) : (s.setChan k x).msgs = s.msgs := rfl
@[simp] theorem State.setChan_pools (k : Nat) (x : Chan) : (s.setChan k x).pools = s.pools := rfl
@[simp] theorem State.setChan_regQs (k : Nat) (x : Chan) : (s.setChan k x).regQs = s.regQs := rfl
@[simp] theorem State.setChan_migQ (k : Nat) (x : Chan) : (s.setChan k x).migQ = s.migQ := rfl
@[simp] theorem State.setChan_migs (k : Nat) (x : Chan) : (s.setChan k x).migs = s.migs := rfl
@[simp] theorem State.setChan_retiring (k : Nat) (x : Chan) : (s.setChan k x).retiring = s.retiring := rfl
@[simp] theorem State.setChan_rmUpd (k : Nat) (x : Chan) : (s.setChan k x).rmUpd = s.rmUpd := rfl
@[simp] theorem State.setChan_promo (k : Nat) (x : Chan) : (s.setChan k x).promo = s.promo := rfl
@[simp] theorem State.setChan_demo (k : Nat) (x : Chan) : (s.setChan k x).demo = s.demo := rfl
@[simp] theorem State.setChan_epochTick (k : Nat) (x : Chan) : (s.setChan k x).epochTick = s.epochTick := rfl
@[simp] theorem State.setChan_quiet (k : Nat) (x : Chan) : (s.setChan k x).quiet = s.quiet := rfl
@[simp] theorem State.setChan_ports (k : Nat) (x : Chan) : (s.setChan k x).ports = s.ports := rfl
@[simp] theorem State.setChan_trunkRr (k : Nat) (x : Chan) : (s.setChan k x).trunkRr = s.trunkRr := rfl
@[simp] theorem State.setChan_rreqs (k : Nat) (x : Chan) : (s.setChan k x).rreqs = s.rreqs := rfl
@[simp] theorem State.setChan_rwait (k : Nat) (x : Chan) : (s.setChan k x).rwait = s.rwait := rfl
@[simp] theorem State.setChan_stotSeen (k : Nat) (x : Chan) : (s.setChan k x).stotSeen = s.stotSeen := rfl
@[simp] theorem State.setChan_ethStot (k : Nat) (x : Chan) : (s.setChan k x).ethStot = s.ethStot := rfl
@[simp] theorem State.setChan_colls (k : Nat) (x : Chan) : (s.setChan k x).colls = s.colls := rfl
@[simp] theorem State.setChan_collIn (k : Nat) (x : Chan) : (s.setChan k x).collIn = s.collIn := rfl
@[simp] theorem State.setChan_qps (k : Nat) (x : Chan) : (s.setChan k x).qps = s.qps := rfl
@[simp] theorem State.setChan_eths (k : Nat) (x : Chan) : (s.setChan k x).eths = s.eths := rfl
@[simp] theorem State.setChan_epochInc (k : Nat) (x : Chan) : (s.setChan k x).epochInc = s.epochInc := rfl
@[simp] theorem State.setChan_streams (k : Nat) (x : Chan) : (s.setChan k x).streams = s.streams := rfl
@[simp] theorem State.setChan_pcieCfg (k : Nat) (x : Chan) : (s.setChan k x).pcieCfg = s.pcieCfg := rfl
@[simp] theorem State.setChan_pgSeen (k : Nat) (x : Chan) : (s.setChan k x).pgSeen = s.pgSeen := rfl
@[simp] theorem State.setChan_flash (k : Nat) (x : Chan) : (s.setChan k x).flash = s.flash := rfl
@[simp] theorem State.setChan_lifeDue (k : Nat) (x : Chan) : (s.setChan k x).lifeDue = s.lifeDue := rfl
@[simp] theorem State.setChan_clk (k : Nat) (x : Chan) : (s.setChan k x).clk = s.clk := rfl
@[simp] theorem State.setChan_tiles (k : Nat) (x : Chan) : (s.setChan k x).tiles = s.tiles := rfl
@[simp] theorem State.setChan_herds (k : Nat) (x : Chan) : (s.setChan k x).herds = s.herds := rfl
@[simp] theorem State.setChan_cores (k : Nat) (x : Chan) : (s.setChan k x).cores = s.cores := rfl
@[simp] theorem State.setChan_dieWd (k : Nat) (x : Chan) : (s.setChan k x).dieWd = s.dieWd := rfl
@[simp] theorem State.setChan_parts (k : Nat) (x : Chan) : (s.setChan k x).parts = s.parts := rfl
@[simp] theorem State.setChan_ctxs (k : Nat) (x : Chan) : (s.setChan k x).ctxs = s.ctxs := rfl
@[simp] theorem State.setChan_groups (k : Nat) (x : Chan) : (s.setChan k x).groups = s.groups := rfl
@[simp] theorem State.setChan_gsems (k : Nat) (x : Chan) : (s.setChan k x).gsems = s.gsems := rfl
@[simp] theorem State.setChan_jobFaults (k : Nat) (x : Chan) : (s.setChan k x).jobFaults = s.jobFaults := rfl
@[simp] theorem State.setChan_resetsDue (k : Nat) (x : Chan) : (s.setChan k x).resetsDue = s.resetsDue := rfl
@[simp] theorem State.setChan_doms (k : Nat) (x : Chan) : (s.setChan k x).doms = s.doms := rfl
@[simp] theorem State.setChan_escTimes (k : Nat) (x : Chan) : (s.setChan k x).escTimes = s.escTimes := rfl
@[simp] theorem State.setChan_evqPhase (k : Nat) (x : Chan) : (s.setChan k x).evqPhase = s.evqPhase := rfl
@[simp] theorem State.setChan_evqLost (k : Nat) (x : Chan) : (s.setChan k x).evqLost = s.evqLost := rfl
@[simp] theorem State.setChan_evqIrq (k : Nat) (x : Chan) : (s.setChan k x).evqIrq = s.evqIrq := rfl
@[simp] theorem State.setChan_hltAcc (k : Nat) (x : Chan) : (s.setChan k x).hltAcc = s.hltAcc := rfl
@[simp] theorem State.setChan_hltEv (k : Nat) (x : Chan) : (s.setChan k x).hltEv = s.hltEv := rfl
@[simp] theorem State.setChan_snapQ (k : Nat) (x : Chan) : (s.setChan k x).snapQ = s.snapQ := rfl
@[simp] theorem State.setChan_sparing (k : Nat) (x : Chan) : (s.setChan k x).sparing = s.sparing := rfl
@[simp] theorem State.setChan_logSeq (k : Nat) (x : Chan) : (s.setChan k x).logSeq = s.logSeq := rfl
@[simp] theorem State.setChan_logAt (k : Nat) (x : Chan) : (s.setChan k x).logAt = s.logAt := rfl
@[simp] theorem State.setChan_logDue (k : Nat) (x : Chan) : (s.setChan k x).logDue = s.logDue := rfl
@[simp] theorem State.setChan_joules (k : Nat) (x : Chan) : (s.setChan k x).joules = s.joules := rfl
@[simp] theorem State.setChan_fuses (k : Nat) (x : Chan) : (s.setChan k x).fuses = s.fuses := rfl
@[simp] theorem State.setChan_fuseCmd (k : Nat) (x : Chan) : (s.setChan k x).fuseCmd = s.fuseCmd := rfl
@[simp] theorem State.setChan_flashCmd (k : Nat) (x : Chan) : (s.setChan k x).flashCmd = s.flashCmd := rfl
@[simp] theorem State.setChan_attest (k : Nat) (x : Chan) : (s.setChan k x).attest = s.attest := rfl
@[simp] theorem State.setChan_idKey (k : Nat) (x : Chan) : (s.setChan k x).idKey = s.idKey := rfl
@[simp] theorem State.setChan_pubDigest (k : Nat) (x : Chan) : (s.setChan k x).pubDigest = s.pubDigest := rfl
@[simp] theorem State.setChan_servers (k : Nat) (x : Chan) : (s.setChan k x).servers = s.servers := rfl
@[simp] theorem State.setChan_pwr (k : Nat) (x : Chan) : (s.setChan k x).pwr = s.pwr := rfl
@[simp] theorem State.setChan_mgmt (k : Nat) (x : Chan) : (s.setChan k x).mgmt = s.mgmt := rfl
@[simp] theorem State.setChan_tap (k : Nat) (x : Chan) : (s.setChan k x).tap = s.tap := rfl
@[simp] theorem State.setChan_spareHard (k : Nat) (x : Chan) : (s.setChan k x).spareHard = s.spareHard := rfl
@[simp] theorem State.setChan_copies (k : Nat) (x : Chan) : (s.setChan k x).copies = s.copies := rfl
@[simp] theorem State.setChan_holds (k : Nat) (x : Chan) : (s.setChan k x).holds = s.holds := rfl
@[simp] theorem State.setChan_refs (k : Nat) (x : Chan) : (s.setChan k x).refs = s.refs := rfl
@[simp] theorem State.setChan_fuseList (k : Nat) (x : Chan) : (s.setChan k x).fuseList = s.fuseList := rfl
@[simp] theorem State.setChan_recent (k : Nat) (x : Chan) : (s.setChan k x).recent = s.recent := rfl
@[simp] theorem State.setChan_acc (k : Nat) (x : Chan) : (s.setChan k x).acc = s.acc := rfl
@[simp] theorem State.setChan_came (k : Nat) (x : Chan) : (s.setChan k x).came = s.came := rfl
@[simp] theorem State.setChan_tickets (k : Nat) (x : Chan) : (s.setChan k x).tickets = s.tickets := rfl
@[simp] theorem State.setChan_msis (k : Nat) (x : Chan) : (s.setChan k x).msis = s.msis := rfl
@[simp] theorem State.setChan_inkTurn (k : Nat) (x : Chan) : (s.setChan k x).inkTurn = s.inkTurn := rfl

/-! ### State.setBusy -/

@[simp] theorem State.setBusy_pending (line : Nat) (x : Busy) : (s.setBusy line x).pending = s.pending := rfl
@[simp] theorem State.setBusy_free (line : Nat) (x : Busy) : (s.setBusy line x).free = s.free := rfl
@[simp] theorem State.setBusy_rsp (line : Nat) (x : Busy) : (s.setBusy line x).rsp = s.rsp := rfl
@[simp] theorem State.setBusy_regs (line : Nat) (x : Busy) : (s.setBusy line x).regs = s.regs := rfl
@[simp] theorem State.setBusy_mem (line : Nat) (x : Busy) : (s.setBusy line x).mem = s.mem := rfl
@[simp] theorem State.setBusy_poison (line : Nat) (x : Busy) : (s.setBusy line x).poison = s.poison := rfl
@[simp] theorem State.setBusy_soft (line : Nat) (x : Busy) : (s.setBusy line x).soft = s.soft := rfl
@[simp] theorem State.setBusy_hard (line : Nat) (x : Busy) : (s.setBusy line x).hard = s.hard := rfl
@[simp] theorem State.setBusy_remap (line : Nat) (x : Busy) : (s.setBusy line x).remap = s.remap := rfl
@[simp] theorem State.setBusy_spent (line : Nat) (x : Busy) : (s.setBusy line x).spent = s.spent := rfl
@[simp] theorem State.setBusy_chkCache (line : Nat) (x : Busy) : (s.setBusy line x).chkCache = s.chkCache := rfl
@[simp] theorem State.setBusy_chans (line : Nat) (x : Busy) : (s.setBusy line x).chans = s.chans := rfl
@[simp] theorem State.setBusy_postponed (line : Nat) (x : Busy) : (s.setBusy line x).postponed = s.postponed := rfl
@[simp] theorem State.setBusy_refLocked (line : Nat) (x : Busy) : (s.setBusy line x).refLocked = s.refLocked := rfl
@[simp] theorem State.setBusy_repairs (line : Nat) (x : Busy) : (s.setBusy line x).repairs = s.repairs := rfl
@[simp] theorem State.setBusy_fuseRows (line : Nat) (x : Busy) : (s.setBusy line x).fuseRows = s.fuseRows := rfl
@[simp] theorem State.setBusy_fuseCols (line : Nat) (x : Busy) : (s.setBusy line x).fuseCols = s.fuseCols := rfl
@[simp] theorem State.setBusy_dieRepairs (line : Nat) (x : Busy) : (s.setBusy line x).dieRepairs = s.dieRepairs := rfl
@[simp] theorem State.setBusy_ucieOut (line : Nat) (x : Busy) : (s.setBusy line x).ucieOut = s.ucieOut := rfl
@[simp] theorem State.setBusy_ucieHash (line : Nat) (x : Busy) : (s.setBusy line x).ucieHash = s.ucieHash := rfl
@[simp] theorem State.setBusy_bw (line : Nat) (x : Busy) : (s.setBusy line x).bw = s.bw := rfl
@[simp] theorem State.setBusy_bwEnd (line : Nat) (x : Busy) : (s.setBusy line x).bwEnd = s.bwEnd := rfl
@[simp] theorem State.setBusy_rangeMap (line : Nat) (x : Busy) : (s.setBusy line x).rangeMap = s.rangeMap := rfl
@[simp] theorem State.setBusy_reserved (line : Nat) (x : Busy) : (s.setBusy line x).reserved = s.reserved := rfl
@[simp] theorem State.setBusy_bad (line : Nat) (x : Busy) : (s.setBusy line x).bad = s.bad := rfl
@[simp] theorem State.setBusy_rmc (line : Nat) (x : Busy) : (s.setBusy line x).rmc = s.rmc := rfl
@[simp] theorem State.setBusy_heat (line : Nat) (x : Busy) : (s.setBusy line x).heat = s.heat := rfl
@[simp] theorem State.setBusy_cache (line : Nat) (x : Busy) : (s.setBusy line x).cache = s.cache := rfl
@[simp] theorem State.setBusy_wback (line : Nat) (x : Busy) : (s.setBusy line x).wback = s.wback := rfl
@[simp] theorem State.setBusy_snoop (line : Nat) (x : Busy) : (s.setBusy line x).snoop = s.snoop := rfl
@[simp] theorem State.setBusy_arb (line : Nat) (x : Busy) : (s.setBusy line x).arb = s.arb := rfl
@[simp] theorem State.setBusy_llc (line : Nat) (x : Busy) : (s.setBusy line x).llc = s.llc := rfl
@[simp] theorem State.setBusy_reqQ (line : Nat) (x : Busy) : (s.setBusy line x).reqQ = s.reqQ := rfl
@[simp] theorem State.setBusy_msgs (line : Nat) (x : Busy) : (s.setBusy line x).msgs = s.msgs := rfl
@[simp] theorem State.setBusy_pools (line : Nat) (x : Busy) : (s.setBusy line x).pools = s.pools := rfl
@[simp] theorem State.setBusy_regQs (line : Nat) (x : Busy) : (s.setBusy line x).regQs = s.regQs := rfl
@[simp] theorem State.setBusy_migQ (line : Nat) (x : Busy) : (s.setBusy line x).migQ = s.migQ := rfl
@[simp] theorem State.setBusy_migs (line : Nat) (x : Busy) : (s.setBusy line x).migs = s.migs := rfl
@[simp] theorem State.setBusy_retiring (line : Nat) (x : Busy) : (s.setBusy line x).retiring = s.retiring := rfl
@[simp] theorem State.setBusy_rmUpd (line : Nat) (x : Busy) : (s.setBusy line x).rmUpd = s.rmUpd := rfl
@[simp] theorem State.setBusy_promo (line : Nat) (x : Busy) : (s.setBusy line x).promo = s.promo := rfl
@[simp] theorem State.setBusy_demo (line : Nat) (x : Busy) : (s.setBusy line x).demo = s.demo := rfl
@[simp] theorem State.setBusy_epochTick (line : Nat) (x : Busy) : (s.setBusy line x).epochTick = s.epochTick := rfl
@[simp] theorem State.setBusy_quiet (line : Nat) (x : Busy) : (s.setBusy line x).quiet = s.quiet := rfl
@[simp] theorem State.setBusy_ports (line : Nat) (x : Busy) : (s.setBusy line x).ports = s.ports := rfl
@[simp] theorem State.setBusy_trunkRr (line : Nat) (x : Busy) : (s.setBusy line x).trunkRr = s.trunkRr := rfl
@[simp] theorem State.setBusy_rreqs (line : Nat) (x : Busy) : (s.setBusy line x).rreqs = s.rreqs := rfl
@[simp] theorem State.setBusy_rwait (line : Nat) (x : Busy) : (s.setBusy line x).rwait = s.rwait := rfl
@[simp] theorem State.setBusy_stotSeen (line : Nat) (x : Busy) : (s.setBusy line x).stotSeen = s.stotSeen := rfl
@[simp] theorem State.setBusy_ethStot (line : Nat) (x : Busy) : (s.setBusy line x).ethStot = s.ethStot := rfl
@[simp] theorem State.setBusy_colls (line : Nat) (x : Busy) : (s.setBusy line x).colls = s.colls := rfl
@[simp] theorem State.setBusy_collIn (line : Nat) (x : Busy) : (s.setBusy line x).collIn = s.collIn := rfl
@[simp] theorem State.setBusy_qps (line : Nat) (x : Busy) : (s.setBusy line x).qps = s.qps := rfl
@[simp] theorem State.setBusy_eths (line : Nat) (x : Busy) : (s.setBusy line x).eths = s.eths := rfl
@[simp] theorem State.setBusy_epochInc (line : Nat) (x : Busy) : (s.setBusy line x).epochInc = s.epochInc := rfl
@[simp] theorem State.setBusy_streams (line : Nat) (x : Busy) : (s.setBusy line x).streams = s.streams := rfl
@[simp] theorem State.setBusy_pcieCfg (line : Nat) (x : Busy) : (s.setBusy line x).pcieCfg = s.pcieCfg := rfl
@[simp] theorem State.setBusy_pgSeen (line : Nat) (x : Busy) : (s.setBusy line x).pgSeen = s.pgSeen := rfl
@[simp] theorem State.setBusy_flash (line : Nat) (x : Busy) : (s.setBusy line x).flash = s.flash := rfl
@[simp] theorem State.setBusy_lifeDue (line : Nat) (x : Busy) : (s.setBusy line x).lifeDue = s.lifeDue := rfl
@[simp] theorem State.setBusy_clk (line : Nat) (x : Busy) : (s.setBusy line x).clk = s.clk := rfl
@[simp] theorem State.setBusy_tiles (line : Nat) (x : Busy) : (s.setBusy line x).tiles = s.tiles := rfl
@[simp] theorem State.setBusy_herds (line : Nat) (x : Busy) : (s.setBusy line x).herds = s.herds := rfl
@[simp] theorem State.setBusy_cores (line : Nat) (x : Busy) : (s.setBusy line x).cores = s.cores := rfl
@[simp] theorem State.setBusy_dieWd (line : Nat) (x : Busy) : (s.setBusy line x).dieWd = s.dieWd := rfl
@[simp] theorem State.setBusy_parts (line : Nat) (x : Busy) : (s.setBusy line x).parts = s.parts := rfl
@[simp] theorem State.setBusy_ctxs (line : Nat) (x : Busy) : (s.setBusy line x).ctxs = s.ctxs := rfl
@[simp] theorem State.setBusy_groups (line : Nat) (x : Busy) : (s.setBusy line x).groups = s.groups := rfl
@[simp] theorem State.setBusy_gsems (line : Nat) (x : Busy) : (s.setBusy line x).gsems = s.gsems := rfl
@[simp] theorem State.setBusy_jobFaults (line : Nat) (x : Busy) : (s.setBusy line x).jobFaults = s.jobFaults := rfl
@[simp] theorem State.setBusy_resetsDue (line : Nat) (x : Busy) : (s.setBusy line x).resetsDue = s.resetsDue := rfl
@[simp] theorem State.setBusy_doms (line : Nat) (x : Busy) : (s.setBusy line x).doms = s.doms := rfl
@[simp] theorem State.setBusy_escTimes (line : Nat) (x : Busy) : (s.setBusy line x).escTimes = s.escTimes := rfl
@[simp] theorem State.setBusy_evqPhase (line : Nat) (x : Busy) : (s.setBusy line x).evqPhase = s.evqPhase := rfl
@[simp] theorem State.setBusy_evqLost (line : Nat) (x : Busy) : (s.setBusy line x).evqLost = s.evqLost := rfl
@[simp] theorem State.setBusy_evqIrq (line : Nat) (x : Busy) : (s.setBusy line x).evqIrq = s.evqIrq := rfl
@[simp] theorem State.setBusy_hltAcc (line : Nat) (x : Busy) : (s.setBusy line x).hltAcc = s.hltAcc := rfl
@[simp] theorem State.setBusy_hltEv (line : Nat) (x : Busy) : (s.setBusy line x).hltEv = s.hltEv := rfl
@[simp] theorem State.setBusy_snapQ (line : Nat) (x : Busy) : (s.setBusy line x).snapQ = s.snapQ := rfl
@[simp] theorem State.setBusy_sparing (line : Nat) (x : Busy) : (s.setBusy line x).sparing = s.sparing := rfl
@[simp] theorem State.setBusy_logSeq (line : Nat) (x : Busy) : (s.setBusy line x).logSeq = s.logSeq := rfl
@[simp] theorem State.setBusy_logAt (line : Nat) (x : Busy) : (s.setBusy line x).logAt = s.logAt := rfl
@[simp] theorem State.setBusy_logDue (line : Nat) (x : Busy) : (s.setBusy line x).logDue = s.logDue := rfl
@[simp] theorem State.setBusy_joules (line : Nat) (x : Busy) : (s.setBusy line x).joules = s.joules := rfl
@[simp] theorem State.setBusy_fuses (line : Nat) (x : Busy) : (s.setBusy line x).fuses = s.fuses := rfl
@[simp] theorem State.setBusy_fuseCmd (line : Nat) (x : Busy) : (s.setBusy line x).fuseCmd = s.fuseCmd := rfl
@[simp] theorem State.setBusy_flashCmd (line : Nat) (x : Busy) : (s.setBusy line x).flashCmd = s.flashCmd := rfl
@[simp] theorem State.setBusy_attest (line : Nat) (x : Busy) : (s.setBusy line x).attest = s.attest := rfl
@[simp] theorem State.setBusy_idKey (line : Nat) (x : Busy) : (s.setBusy line x).idKey = s.idKey := rfl
@[simp] theorem State.setBusy_pubDigest (line : Nat) (x : Busy) : (s.setBusy line x).pubDigest = s.pubDigest := rfl
@[simp] theorem State.setBusy_servers (line : Nat) (x : Busy) : (s.setBusy line x).servers = s.servers := rfl
@[simp] theorem State.setBusy_pwr (line : Nat) (x : Busy) : (s.setBusy line x).pwr = s.pwr := rfl
@[simp] theorem State.setBusy_mgmt (line : Nat) (x : Busy) : (s.setBusy line x).mgmt = s.mgmt := rfl
@[simp] theorem State.setBusy_tap (line : Nat) (x : Busy) : (s.setBusy line x).tap = s.tap := rfl
@[simp] theorem State.setBusy_spareHard (line : Nat) (x : Busy) : (s.setBusy line x).spareHard = s.spareHard := rfl
@[simp] theorem State.setBusy_copies (line : Nat) (x : Busy) : (s.setBusy line x).copies = s.copies := rfl
@[simp] theorem State.setBusy_holds (line : Nat) (x : Busy) : (s.setBusy line x).holds = s.holds := rfl
@[simp] theorem State.setBusy_refs (line : Nat) (x : Busy) : (s.setBusy line x).refs = s.refs := rfl
@[simp] theorem State.setBusy_fuseList (line : Nat) (x : Busy) : (s.setBusy line x).fuseList = s.fuseList := rfl
@[simp] theorem State.setBusy_recent (line : Nat) (x : Busy) : (s.setBusy line x).recent = s.recent := rfl
@[simp] theorem State.setBusy_acc (line : Nat) (x : Busy) : (s.setBusy line x).acc = s.acc := rfl
@[simp] theorem State.setBusy_came (line : Nat) (x : Busy) : (s.setBusy line x).came = s.came := rfl
@[simp] theorem State.setBusy_tickets (line : Nat) (x : Busy) : (s.setBusy line x).tickets = s.tickets := rfl
@[simp] theorem State.setBusy_msis (line : Nat) (x : Busy) : (s.setBusy line x).msis = s.msis := rfl
@[simp] theorem State.setBusy_inkTurn (line : Nat) (x : Busy) : (s.setBusy line x).inkTurn = s.inkTurn := rfl

/-! ### State.hold -/

@[simp] theorem State.hold_pending (line ag : Nat) (c : CLine) : (s.hold line ag c).pending = s.pending := rfl
@[simp] theorem State.hold_free (line ag : Nat) (c : CLine) : (s.hold line ag c).free = s.free := rfl
@[simp] theorem State.hold_rsp (line ag : Nat) (c : CLine) : (s.hold line ag c).rsp = s.rsp := rfl
@[simp] theorem State.hold_regs (line ag : Nat) (c : CLine) : (s.hold line ag c).regs = s.regs := rfl
@[simp] theorem State.hold_mem (line ag : Nat) (c : CLine) : (s.hold line ag c).mem = s.mem := rfl
@[simp] theorem State.hold_poison (line ag : Nat) (c : CLine) : (s.hold line ag c).poison = s.poison := rfl
@[simp] theorem State.hold_soft (line ag : Nat) (c : CLine) : (s.hold line ag c).soft = s.soft := rfl
@[simp] theorem State.hold_hard (line ag : Nat) (c : CLine) : (s.hold line ag c).hard = s.hard := rfl
@[simp] theorem State.hold_remap (line ag : Nat) (c : CLine) : (s.hold line ag c).remap = s.remap := rfl
@[simp] theorem State.hold_spent (line ag : Nat) (c : CLine) : (s.hold line ag c).spent = s.spent := rfl
@[simp] theorem State.hold_chkCache (line ag : Nat) (c : CLine) : (s.hold line ag c).chkCache = s.chkCache := rfl
@[simp] theorem State.hold_chans (line ag : Nat) (c : CLine) : (s.hold line ag c).chans = s.chans := rfl
@[simp] theorem State.hold_postponed (line ag : Nat) (c : CLine) : (s.hold line ag c).postponed = s.postponed := rfl
@[simp] theorem State.hold_refLocked (line ag : Nat) (c : CLine) : (s.hold line ag c).refLocked = s.refLocked := rfl
@[simp] theorem State.hold_repairs (line ag : Nat) (c : CLine) : (s.hold line ag c).repairs = s.repairs := rfl
@[simp] theorem State.hold_fuseRows (line ag : Nat) (c : CLine) : (s.hold line ag c).fuseRows = s.fuseRows := rfl
@[simp] theorem State.hold_fuseCols (line ag : Nat) (c : CLine) : (s.hold line ag c).fuseCols = s.fuseCols := rfl
@[simp] theorem State.hold_dieRepairs (line ag : Nat) (c : CLine) : (s.hold line ag c).dieRepairs = s.dieRepairs := rfl
@[simp] theorem State.hold_ucieOut (line ag : Nat) (c : CLine) : (s.hold line ag c).ucieOut = s.ucieOut := rfl
@[simp] theorem State.hold_ucieHash (line ag : Nat) (c : CLine) : (s.hold line ag c).ucieHash = s.ucieHash := rfl
@[simp] theorem State.hold_bw (line ag : Nat) (c : CLine) : (s.hold line ag c).bw = s.bw := rfl
@[simp] theorem State.hold_bwEnd (line ag : Nat) (c : CLine) : (s.hold line ag c).bwEnd = s.bwEnd := rfl
@[simp] theorem State.hold_rangeMap (line ag : Nat) (c : CLine) : (s.hold line ag c).rangeMap = s.rangeMap := rfl
@[simp] theorem State.hold_reserved (line ag : Nat) (c : CLine) : (s.hold line ag c).reserved = s.reserved := rfl
@[simp] theorem State.hold_bad (line ag : Nat) (c : CLine) : (s.hold line ag c).bad = s.bad := rfl
@[simp] theorem State.hold_rmc (line ag : Nat) (c : CLine) : (s.hold line ag c).rmc = s.rmc := rfl
@[simp] theorem State.hold_heat (line ag : Nat) (c : CLine) : (s.hold line ag c).heat = s.heat := rfl
@[simp] theorem State.hold_wback (line ag : Nat) (c : CLine) : (s.hold line ag c).wback = s.wback := rfl
@[simp] theorem State.hold_busy (line ag : Nat) (c : CLine) : (s.hold line ag c).busy = s.busy := rfl
@[simp] theorem State.hold_snoop (line ag : Nat) (c : CLine) : (s.hold line ag c).snoop = s.snoop := rfl
@[simp] theorem State.hold_arb (line ag : Nat) (c : CLine) : (s.hold line ag c).arb = s.arb := rfl
@[simp] theorem State.hold_llc (line ag : Nat) (c : CLine) : (s.hold line ag c).llc = s.llc := rfl
@[simp] theorem State.hold_reqQ (line ag : Nat) (c : CLine) : (s.hold line ag c).reqQ = s.reqQ := rfl
@[simp] theorem State.hold_msgs (line ag : Nat) (c : CLine) : (s.hold line ag c).msgs = s.msgs := rfl
@[simp] theorem State.hold_pools (line ag : Nat) (c : CLine) : (s.hold line ag c).pools = s.pools := rfl
@[simp] theorem State.hold_regQs (line ag : Nat) (c : CLine) : (s.hold line ag c).regQs = s.regQs := rfl
@[simp] theorem State.hold_migQ (line ag : Nat) (c : CLine) : (s.hold line ag c).migQ = s.migQ := rfl
@[simp] theorem State.hold_migs (line ag : Nat) (c : CLine) : (s.hold line ag c).migs = s.migs := rfl
@[simp] theorem State.hold_retiring (line ag : Nat) (c : CLine) : (s.hold line ag c).retiring = s.retiring := rfl
@[simp] theorem State.hold_rmUpd (line ag : Nat) (c : CLine) : (s.hold line ag c).rmUpd = s.rmUpd := rfl
@[simp] theorem State.hold_promo (line ag : Nat) (c : CLine) : (s.hold line ag c).promo = s.promo := rfl
@[simp] theorem State.hold_demo (line ag : Nat) (c : CLine) : (s.hold line ag c).demo = s.demo := rfl
@[simp] theorem State.hold_epochTick (line ag : Nat) (c : CLine) : (s.hold line ag c).epochTick = s.epochTick := rfl
@[simp] theorem State.hold_quiet (line ag : Nat) (c : CLine) : (s.hold line ag c).quiet = s.quiet := rfl
@[simp] theorem State.hold_ports (line ag : Nat) (c : CLine) : (s.hold line ag c).ports = s.ports := rfl
@[simp] theorem State.hold_trunkRr (line ag : Nat) (c : CLine) : (s.hold line ag c).trunkRr = s.trunkRr := rfl
@[simp] theorem State.hold_rreqs (line ag : Nat) (c : CLine) : (s.hold line ag c).rreqs = s.rreqs := rfl
@[simp] theorem State.hold_rwait (line ag : Nat) (c : CLine) : (s.hold line ag c).rwait = s.rwait := rfl
@[simp] theorem State.hold_stotSeen (line ag : Nat) (c : CLine) : (s.hold line ag c).stotSeen = s.stotSeen := rfl
@[simp] theorem State.hold_ethStot (line ag : Nat) (c : CLine) : (s.hold line ag c).ethStot = s.ethStot := rfl
@[simp] theorem State.hold_colls (line ag : Nat) (c : CLine) : (s.hold line ag c).colls = s.colls := rfl
@[simp] theorem State.hold_collIn (line ag : Nat) (c : CLine) : (s.hold line ag c).collIn = s.collIn := rfl
@[simp] theorem State.hold_qps (line ag : Nat) (c : CLine) : (s.hold line ag c).qps = s.qps := rfl
@[simp] theorem State.hold_eths (line ag : Nat) (c : CLine) : (s.hold line ag c).eths = s.eths := rfl
@[simp] theorem State.hold_epochInc (line ag : Nat) (c : CLine) : (s.hold line ag c).epochInc = s.epochInc := rfl
@[simp] theorem State.hold_streams (line ag : Nat) (c : CLine) : (s.hold line ag c).streams = s.streams := rfl
@[simp] theorem State.hold_pcieCfg (line ag : Nat) (c : CLine) : (s.hold line ag c).pcieCfg = s.pcieCfg := rfl
@[simp] theorem State.hold_pgSeen (line ag : Nat) (c : CLine) : (s.hold line ag c).pgSeen = s.pgSeen := rfl
@[simp] theorem State.hold_flash (line ag : Nat) (c : CLine) : (s.hold line ag c).flash = s.flash := rfl
@[simp] theorem State.hold_lifeDue (line ag : Nat) (c : CLine) : (s.hold line ag c).lifeDue = s.lifeDue := rfl
@[simp] theorem State.hold_clk (line ag : Nat) (c : CLine) : (s.hold line ag c).clk = s.clk := rfl
@[simp] theorem State.hold_tiles (line ag : Nat) (c : CLine) : (s.hold line ag c).tiles = s.tiles := rfl
@[simp] theorem State.hold_herds (line ag : Nat) (c : CLine) : (s.hold line ag c).herds = s.herds := rfl
@[simp] theorem State.hold_cores (line ag : Nat) (c : CLine) : (s.hold line ag c).cores = s.cores := rfl
@[simp] theorem State.hold_dieWd (line ag : Nat) (c : CLine) : (s.hold line ag c).dieWd = s.dieWd := rfl
@[simp] theorem State.hold_parts (line ag : Nat) (c : CLine) : (s.hold line ag c).parts = s.parts := rfl
@[simp] theorem State.hold_ctxs (line ag : Nat) (c : CLine) : (s.hold line ag c).ctxs = s.ctxs := rfl
@[simp] theorem State.hold_groups (line ag : Nat) (c : CLine) : (s.hold line ag c).groups = s.groups := rfl
@[simp] theorem State.hold_gsems (line ag : Nat) (c : CLine) : (s.hold line ag c).gsems = s.gsems := rfl
@[simp] theorem State.hold_jobFaults (line ag : Nat) (c : CLine) : (s.hold line ag c).jobFaults = s.jobFaults := rfl
@[simp] theorem State.hold_resetsDue (line ag : Nat) (c : CLine) : (s.hold line ag c).resetsDue = s.resetsDue := rfl
@[simp] theorem State.hold_doms (line ag : Nat) (c : CLine) : (s.hold line ag c).doms = s.doms := rfl
@[simp] theorem State.hold_escTimes (line ag : Nat) (c : CLine) : (s.hold line ag c).escTimes = s.escTimes := rfl
@[simp] theorem State.hold_evqPhase (line ag : Nat) (c : CLine) : (s.hold line ag c).evqPhase = s.evqPhase := rfl
@[simp] theorem State.hold_evqLost (line ag : Nat) (c : CLine) : (s.hold line ag c).evqLost = s.evqLost := rfl
@[simp] theorem State.hold_evqIrq (line ag : Nat) (c : CLine) : (s.hold line ag c).evqIrq = s.evqIrq := rfl
@[simp] theorem State.hold_hltAcc (line ag : Nat) (c : CLine) : (s.hold line ag c).hltAcc = s.hltAcc := rfl
@[simp] theorem State.hold_hltEv (line ag : Nat) (c : CLine) : (s.hold line ag c).hltEv = s.hltEv := rfl
@[simp] theorem State.hold_snapQ (line ag : Nat) (c : CLine) : (s.hold line ag c).snapQ = s.snapQ := rfl
@[simp] theorem State.hold_sparing (line ag : Nat) (c : CLine) : (s.hold line ag c).sparing = s.sparing := rfl
@[simp] theorem State.hold_logSeq (line ag : Nat) (c : CLine) : (s.hold line ag c).logSeq = s.logSeq := rfl
@[simp] theorem State.hold_logAt (line ag : Nat) (c : CLine) : (s.hold line ag c).logAt = s.logAt := rfl
@[simp] theorem State.hold_logDue (line ag : Nat) (c : CLine) : (s.hold line ag c).logDue = s.logDue := rfl
@[simp] theorem State.hold_joules (line ag : Nat) (c : CLine) : (s.hold line ag c).joules = s.joules := rfl
@[simp] theorem State.hold_fuses (line ag : Nat) (c : CLine) : (s.hold line ag c).fuses = s.fuses := rfl
@[simp] theorem State.hold_fuseCmd (line ag : Nat) (c : CLine) : (s.hold line ag c).fuseCmd = s.fuseCmd := rfl
@[simp] theorem State.hold_flashCmd (line ag : Nat) (c : CLine) : (s.hold line ag c).flashCmd = s.flashCmd := rfl
@[simp] theorem State.hold_attest (line ag : Nat) (c : CLine) : (s.hold line ag c).attest = s.attest := rfl
@[simp] theorem State.hold_idKey (line ag : Nat) (c : CLine) : (s.hold line ag c).idKey = s.idKey := rfl
@[simp] theorem State.hold_pubDigest (line ag : Nat) (c : CLine) : (s.hold line ag c).pubDigest = s.pubDigest := rfl
@[simp] theorem State.hold_servers (line ag : Nat) (c : CLine) : (s.hold line ag c).servers = s.servers := rfl
@[simp] theorem State.hold_pwr (line ag : Nat) (c : CLine) : (s.hold line ag c).pwr = s.pwr := rfl
@[simp] theorem State.hold_mgmt (line ag : Nat) (c : CLine) : (s.hold line ag c).mgmt = s.mgmt := rfl
@[simp] theorem State.hold_tap (line ag : Nat) (c : CLine) : (s.hold line ag c).tap = s.tap := rfl
@[simp] theorem State.hold_spareHard (line ag : Nat) (c : CLine) : (s.hold line ag c).spareHard = s.spareHard := rfl
@[simp] theorem State.hold_copies (line ag : Nat) (c : CLine) : (s.hold line ag c).copies = s.copies := rfl
@[simp] theorem State.hold_holds (line ag : Nat) (c : CLine) : (s.hold line ag c).holds = s.holds := rfl
@[simp] theorem State.hold_refs (line ag : Nat) (c : CLine) : (s.hold line ag c).refs = s.refs := rfl
@[simp] theorem State.hold_fuseList (line ag : Nat) (c : CLine) : (s.hold line ag c).fuseList = s.fuseList := rfl
@[simp] theorem State.hold_recent (line ag : Nat) (c : CLine) : (s.hold line ag c).recent = s.recent := rfl
@[simp] theorem State.hold_acc (line ag : Nat) (c : CLine) : (s.hold line ag c).acc = s.acc := rfl
@[simp] theorem State.hold_came (line ag : Nat) (c : CLine) : (s.hold line ag c).came = s.came := rfl
@[simp] theorem State.hold_tickets (line ag : Nat) (c : CLine) : (s.hold line ag c).tickets = s.tickets := rfl
@[simp] theorem State.hold_msis (line ag : Nat) (c : CLine) : (s.hold line ag c).msis = s.msis := rfl
@[simp] theorem State.hold_inkTurn (line ag : Nat) (c : CLine) : (s.hold line ag c).inkTurn = s.inkTurn := rfl

/-! ### State.uncache -/

@[simp] theorem State.uncache_pending (line ag : Nat) : (s.uncache line ag).pending = s.pending := rfl
@[simp] theorem State.uncache_free (line ag : Nat) : (s.uncache line ag).free = s.free := rfl
@[simp] theorem State.uncache_rsp (line ag : Nat) : (s.uncache line ag).rsp = s.rsp := rfl
@[simp] theorem State.uncache_regs (line ag : Nat) : (s.uncache line ag).regs = s.regs := rfl
@[simp] theorem State.uncache_mem (line ag : Nat) : (s.uncache line ag).mem = s.mem := rfl
@[simp] theorem State.uncache_poison (line ag : Nat) : (s.uncache line ag).poison = s.poison := rfl
@[simp] theorem State.uncache_soft (line ag : Nat) : (s.uncache line ag).soft = s.soft := rfl
@[simp] theorem State.uncache_hard (line ag : Nat) : (s.uncache line ag).hard = s.hard := rfl
@[simp] theorem State.uncache_remap (line ag : Nat) : (s.uncache line ag).remap = s.remap := rfl
@[simp] theorem State.uncache_spent (line ag : Nat) : (s.uncache line ag).spent = s.spent := rfl
@[simp] theorem State.uncache_chkCache (line ag : Nat) : (s.uncache line ag).chkCache = s.chkCache := rfl
@[simp] theorem State.uncache_chans (line ag : Nat) : (s.uncache line ag).chans = s.chans := rfl
@[simp] theorem State.uncache_postponed (line ag : Nat) : (s.uncache line ag).postponed = s.postponed := rfl
@[simp] theorem State.uncache_refLocked (line ag : Nat) : (s.uncache line ag).refLocked = s.refLocked := rfl
@[simp] theorem State.uncache_repairs (line ag : Nat) : (s.uncache line ag).repairs = s.repairs := rfl
@[simp] theorem State.uncache_fuseRows (line ag : Nat) : (s.uncache line ag).fuseRows = s.fuseRows := rfl
@[simp] theorem State.uncache_fuseCols (line ag : Nat) : (s.uncache line ag).fuseCols = s.fuseCols := rfl
@[simp] theorem State.uncache_dieRepairs (line ag : Nat) : (s.uncache line ag).dieRepairs = s.dieRepairs := rfl
@[simp] theorem State.uncache_ucieOut (line ag : Nat) : (s.uncache line ag).ucieOut = s.ucieOut := rfl
@[simp] theorem State.uncache_ucieHash (line ag : Nat) : (s.uncache line ag).ucieHash = s.ucieHash := rfl
@[simp] theorem State.uncache_bw (line ag : Nat) : (s.uncache line ag).bw = s.bw := rfl
@[simp] theorem State.uncache_bwEnd (line ag : Nat) : (s.uncache line ag).bwEnd = s.bwEnd := rfl
@[simp] theorem State.uncache_rangeMap (line ag : Nat) : (s.uncache line ag).rangeMap = s.rangeMap := rfl
@[simp] theorem State.uncache_reserved (line ag : Nat) : (s.uncache line ag).reserved = s.reserved := rfl
@[simp] theorem State.uncache_bad (line ag : Nat) : (s.uncache line ag).bad = s.bad := rfl
@[simp] theorem State.uncache_rmc (line ag : Nat) : (s.uncache line ag).rmc = s.rmc := rfl
@[simp] theorem State.uncache_heat (line ag : Nat) : (s.uncache line ag).heat = s.heat := rfl
@[simp] theorem State.uncache_wback (line ag : Nat) : (s.uncache line ag).wback = s.wback := rfl
@[simp] theorem State.uncache_busy (line ag : Nat) : (s.uncache line ag).busy = s.busy := rfl
@[simp] theorem State.uncache_snoop (line ag : Nat) : (s.uncache line ag).snoop = s.snoop := rfl
@[simp] theorem State.uncache_arb (line ag : Nat) : (s.uncache line ag).arb = s.arb := rfl
@[simp] theorem State.uncache_llc (line ag : Nat) : (s.uncache line ag).llc = s.llc := rfl
@[simp] theorem State.uncache_reqQ (line ag : Nat) : (s.uncache line ag).reqQ = s.reqQ := rfl
@[simp] theorem State.uncache_msgs (line ag : Nat) : (s.uncache line ag).msgs = s.msgs := rfl
@[simp] theorem State.uncache_pools (line ag : Nat) : (s.uncache line ag).pools = s.pools := rfl
@[simp] theorem State.uncache_regQs (line ag : Nat) : (s.uncache line ag).regQs = s.regQs := rfl
@[simp] theorem State.uncache_migQ (line ag : Nat) : (s.uncache line ag).migQ = s.migQ := rfl
@[simp] theorem State.uncache_migs (line ag : Nat) : (s.uncache line ag).migs = s.migs := rfl
@[simp] theorem State.uncache_retiring (line ag : Nat) : (s.uncache line ag).retiring = s.retiring := rfl
@[simp] theorem State.uncache_rmUpd (line ag : Nat) : (s.uncache line ag).rmUpd = s.rmUpd := rfl
@[simp] theorem State.uncache_promo (line ag : Nat) : (s.uncache line ag).promo = s.promo := rfl
@[simp] theorem State.uncache_demo (line ag : Nat) : (s.uncache line ag).demo = s.demo := rfl
@[simp] theorem State.uncache_epochTick (line ag : Nat) : (s.uncache line ag).epochTick = s.epochTick := rfl
@[simp] theorem State.uncache_quiet (line ag : Nat) : (s.uncache line ag).quiet = s.quiet := rfl
@[simp] theorem State.uncache_ports (line ag : Nat) : (s.uncache line ag).ports = s.ports := rfl
@[simp] theorem State.uncache_trunkRr (line ag : Nat) : (s.uncache line ag).trunkRr = s.trunkRr := rfl
@[simp] theorem State.uncache_rreqs (line ag : Nat) : (s.uncache line ag).rreqs = s.rreqs := rfl
@[simp] theorem State.uncache_rwait (line ag : Nat) : (s.uncache line ag).rwait = s.rwait := rfl
@[simp] theorem State.uncache_stotSeen (line ag : Nat) : (s.uncache line ag).stotSeen = s.stotSeen := rfl
@[simp] theorem State.uncache_ethStot (line ag : Nat) : (s.uncache line ag).ethStot = s.ethStot := rfl
@[simp] theorem State.uncache_colls (line ag : Nat) : (s.uncache line ag).colls = s.colls := rfl
@[simp] theorem State.uncache_collIn (line ag : Nat) : (s.uncache line ag).collIn = s.collIn := rfl
@[simp] theorem State.uncache_qps (line ag : Nat) : (s.uncache line ag).qps = s.qps := rfl
@[simp] theorem State.uncache_eths (line ag : Nat) : (s.uncache line ag).eths = s.eths := rfl
@[simp] theorem State.uncache_epochInc (line ag : Nat) : (s.uncache line ag).epochInc = s.epochInc := rfl
@[simp] theorem State.uncache_streams (line ag : Nat) : (s.uncache line ag).streams = s.streams := rfl
@[simp] theorem State.uncache_pcieCfg (line ag : Nat) : (s.uncache line ag).pcieCfg = s.pcieCfg := rfl
@[simp] theorem State.uncache_pgSeen (line ag : Nat) : (s.uncache line ag).pgSeen = s.pgSeen := rfl
@[simp] theorem State.uncache_flash (line ag : Nat) : (s.uncache line ag).flash = s.flash := rfl
@[simp] theorem State.uncache_lifeDue (line ag : Nat) : (s.uncache line ag).lifeDue = s.lifeDue := rfl
@[simp] theorem State.uncache_clk (line ag : Nat) : (s.uncache line ag).clk = s.clk := rfl
@[simp] theorem State.uncache_tiles (line ag : Nat) : (s.uncache line ag).tiles = s.tiles := rfl
@[simp] theorem State.uncache_herds (line ag : Nat) : (s.uncache line ag).herds = s.herds := rfl
@[simp] theorem State.uncache_cores (line ag : Nat) : (s.uncache line ag).cores = s.cores := rfl
@[simp] theorem State.uncache_dieWd (line ag : Nat) : (s.uncache line ag).dieWd = s.dieWd := rfl
@[simp] theorem State.uncache_parts (line ag : Nat) : (s.uncache line ag).parts = s.parts := rfl
@[simp] theorem State.uncache_ctxs (line ag : Nat) : (s.uncache line ag).ctxs = s.ctxs := rfl
@[simp] theorem State.uncache_groups (line ag : Nat) : (s.uncache line ag).groups = s.groups := rfl
@[simp] theorem State.uncache_gsems (line ag : Nat) : (s.uncache line ag).gsems = s.gsems := rfl
@[simp] theorem State.uncache_jobFaults (line ag : Nat) : (s.uncache line ag).jobFaults = s.jobFaults := rfl
@[simp] theorem State.uncache_resetsDue (line ag : Nat) : (s.uncache line ag).resetsDue = s.resetsDue := rfl
@[simp] theorem State.uncache_doms (line ag : Nat) : (s.uncache line ag).doms = s.doms := rfl
@[simp] theorem State.uncache_escTimes (line ag : Nat) : (s.uncache line ag).escTimes = s.escTimes := rfl
@[simp] theorem State.uncache_evqPhase (line ag : Nat) : (s.uncache line ag).evqPhase = s.evqPhase := rfl
@[simp] theorem State.uncache_evqLost (line ag : Nat) : (s.uncache line ag).evqLost = s.evqLost := rfl
@[simp] theorem State.uncache_evqIrq (line ag : Nat) : (s.uncache line ag).evqIrq = s.evqIrq := rfl
@[simp] theorem State.uncache_hltAcc (line ag : Nat) : (s.uncache line ag).hltAcc = s.hltAcc := rfl
@[simp] theorem State.uncache_hltEv (line ag : Nat) : (s.uncache line ag).hltEv = s.hltEv := rfl
@[simp] theorem State.uncache_snapQ (line ag : Nat) : (s.uncache line ag).snapQ = s.snapQ := rfl
@[simp] theorem State.uncache_sparing (line ag : Nat) : (s.uncache line ag).sparing = s.sparing := rfl
@[simp] theorem State.uncache_logSeq (line ag : Nat) : (s.uncache line ag).logSeq = s.logSeq := rfl
@[simp] theorem State.uncache_logAt (line ag : Nat) : (s.uncache line ag).logAt = s.logAt := rfl
@[simp] theorem State.uncache_logDue (line ag : Nat) : (s.uncache line ag).logDue = s.logDue := rfl
@[simp] theorem State.uncache_joules (line ag : Nat) : (s.uncache line ag).joules = s.joules := rfl
@[simp] theorem State.uncache_fuses (line ag : Nat) : (s.uncache line ag).fuses = s.fuses := rfl
@[simp] theorem State.uncache_fuseCmd (line ag : Nat) : (s.uncache line ag).fuseCmd = s.fuseCmd := rfl
@[simp] theorem State.uncache_flashCmd (line ag : Nat) : (s.uncache line ag).flashCmd = s.flashCmd := rfl
@[simp] theorem State.uncache_attest (line ag : Nat) : (s.uncache line ag).attest = s.attest := rfl
@[simp] theorem State.uncache_idKey (line ag : Nat) : (s.uncache line ag).idKey = s.idKey := rfl
@[simp] theorem State.uncache_pubDigest (line ag : Nat) : (s.uncache line ag).pubDigest = s.pubDigest := rfl
@[simp] theorem State.uncache_servers (line ag : Nat) : (s.uncache line ag).servers = s.servers := rfl
@[simp] theorem State.uncache_pwr (line ag : Nat) : (s.uncache line ag).pwr = s.pwr := rfl
@[simp] theorem State.uncache_mgmt (line ag : Nat) : (s.uncache line ag).mgmt = s.mgmt := rfl
@[simp] theorem State.uncache_tap (line ag : Nat) : (s.uncache line ag).tap = s.tap := rfl
@[simp] theorem State.uncache_spareHard (line ag : Nat) : (s.uncache line ag).spareHard = s.spareHard := rfl
@[simp] theorem State.uncache_copies (line ag : Nat) : (s.uncache line ag).copies = s.copies := rfl
@[simp] theorem State.uncache_holds (line ag : Nat) : (s.uncache line ag).holds = s.holds := rfl
@[simp] theorem State.uncache_refs (line ag : Nat) : (s.uncache line ag).refs = s.refs := rfl
@[simp] theorem State.uncache_fuseList (line ag : Nat) : (s.uncache line ag).fuseList = s.fuseList := rfl
@[simp] theorem State.uncache_recent (line ag : Nat) : (s.uncache line ag).recent = s.recent := rfl
@[simp] theorem State.uncache_acc (line ag : Nat) : (s.uncache line ag).acc = s.acc := rfl
@[simp] theorem State.uncache_came (line ag : Nat) : (s.uncache line ag).came = s.came := rfl
@[simp] theorem State.uncache_tickets (line ag : Nat) : (s.uncache line ag).tickets = s.tickets := rfl
@[simp] theorem State.uncache_msis (line ag : Nat) : (s.uncache line ag).msis = s.msis := rfl
@[simp] theorem State.uncache_inkTurn (line ag : Nat) : (s.uncache line ag).inkTurn = s.inkTurn := rfl

end Sys2Proof.Machine
end

