-- ==== Sys2Proof/Laws/Ops.lean ====
section
/-!
SUPPORT. Laws/Ops.lean: what the shared operations on registers and units do, one lemma each, and how frames compose.
-/

set_option Elab.async false

namespace Sys2Proof.Machine

/-! ### Meanings -/

theorem State.runIf_true (s : State) {ok : Bool} (h : ok = true) (t : State) : s.runIf ok t = .next t := by
  simp [State.runIf, h]

theorem State.runIf_false (s : State) {ok : Bool} (h : ok = false) (t : State) : s.runIf ok t = .next s := by
  simp [State.runIf, h]

/-- A meaning gives its effect, or nothing where its command does not exist. -/
theorem State.runIf_next {s : State} {ok : Bool} {t u : State} (h : s.runIf ok t = .next u) :
    (ok = true ∧ u = t) ∨ (ok = false ∧ u = s) := by
  cases ok <;> simp_all [State.runIf]

/-! ### Register fields -/

theorem State.fget_fset_self (s : State) (off : Nat) (f : Fld) (v : Nat) : (s.fset off f v).fget off f = v % 2 ^ f.w := by
  simp [State.fget, State.fset]

theorem State.fget_fset_ne (s : State) {off o : Nat} {f g : Fld} (v : Nat) (h : regKey o g ≠ regKey off f) :
    (s.fset off f v).fget o g = s.fget o g := by
  simp [State.fget, State.fset, Map.get_put_ne _ _ _ _ h]

theorem State.find?_fset_ne (s : State) {off k : Nat} {f : Fld} (v : Nat) (h : k ≠ regKey off f) :
    Map.find? (s.fset off f v).regs k = Map.find? s.regs k := Map.find?_put_ne _ _ _ h

theorem Slot.fget_fset_self (x : Slot) (off : Nat) (f : Fld) (v : Nat) : (x.fset off f v).fget off f = v % 2 ^ f.w := by
  simp [Slot.fget, Slot.fset]

theorem Slot.fget_fset_ne (x : Slot) {off o : Nat} {f g : Fld} (v : Nat) (h : regKey o g ≠ regKey off f) :
    (x.fset off f v).fget o g = x.fget o g := by
  simp [Slot.fget, Slot.fset, Map.get_put_ne _ _ _ _ h]

@[simp] theorem State.fget_answer (s : State) (k : RspKind) (d off : Nat) (f : Fld) : (s.answer k d).fget off f = s.fget off f := rfl
@[simp] theorem State.fget_setTile (s : State) (t : Nat) (x : Tile) (off : Nat) (f : Fld) :
    (s.setTile t x).fget off f = s.fget off f := rfl
@[simp] theorem State.fget_setHerd (s : State) (h : Nat) (x : Herd) (off : Nat) (f : Fld) :
    (s.setHerd h x).fget off f = s.fget off f := rfl
@[simp] theorem State.fget_setCore (s : State) (c : Nat) (x : Core) (off : Nat) (f : Fld) :
    (s.setCore c x).fget off f = s.fget off f := rfl
@[simp] theorem State.fget_setPart (s : State) (p : Nat) (x : Part) (off : Nat) (f : Fld) :
    (s.setPart p x).fget off f = s.fget off f := rfl
@[simp] theorem State.fget_setSlot (s : State) (p k : Nat) (x : Slot) (off : Nat) (f : Fld) :
    (s.setSlot p k x).fget off f = s.fget off f := rfl

/-! ### Units -/

@[simp] theorem State.tile_setTile_self (s : State) (t : Nat) (x : Tile) : (s.setTile t x).tile t = x := by
  simp [State.tile, State.setTile]
theorem State.tile_setTile_ne (s : State) {t u : Nat} (x : Tile) (h : u ≠ t) : (s.setTile t x).tile u = s.tile u := by
  simp [State.tile, State.setTile, Map.get_put_ne _ _ _ _ h]
@[simp] theorem State.tile_fset (s : State) (off : Nat) (f : Fld) (v t : Nat) : (s.fset off f v).tile t = s.tile t := rfl
@[simp] theorem State.tile_fadd (s : State) (off : Nat) (f : Fld) (v t : Nat) : (s.fadd off f v).tile t = s.tile t := rfl

@[simp] theorem State.herd_setHerd_self (s : State) (h : Nat) (x : Herd) : (s.setHerd h x).herd h = x := by
  simp [State.herd, State.setHerd]
theorem State.herd_setHerd_ne (s : State) {h g : Nat} (x : Herd) (n : g ≠ h) : (s.setHerd h x).herd g = s.herd g := by
  simp [State.herd, State.setHerd, Map.get_put_ne _ _ _ _ n]
@[simp] theorem State.core_setCore_self (s : State) (c : Nat) (x : Core) : (s.setCore c x).core c = x := by
  simp [State.core, State.setCore]
theorem State.core_setCore_ne (s : State) {c d : Nat} (x : Core) (n : d ≠ c) : (s.setCore c x).core d = s.core d := by
  simp [State.core, State.setCore, Map.get_put_ne _ _ _ _ n]
@[simp] theorem State.part_setPart_self (s : State) (p : Nat) (x : Part) : (s.setPart p x).part p = x := by
  simp [State.part, State.setPart]
theorem State.part_setPart_ne (s : State) {p q : Nat} (x : Part) (n : q ≠ p) : (s.setPart p x).part q = s.part q := by
  simp [State.part, State.setPart, Map.get_put_ne _ _ _ _ n]
@[simp] theorem State.slot?_setSlot_self (s : State) (p k : Nat) (x : Slot) : (s.setSlot p k x).slot? p k = some x := by
  simp [State.slot?, State.setSlot]
theorem State.slot?_setSlot_ne (s : State) {p k q j : Nat} (x : Slot) (n : ¬(q = p ∧ j = k)) :
    (s.setSlot p k x).slot? q j = s.slot? q j := by
  by_cases hq : q = p
  · subst hq
    have : j ≠ k := fun e => n ⟨rfl, e⟩
    simp [State.slot?, State.setSlot, Map.find?_insert_ne _ _ this]
  · simp [State.slot?, State.setSlot, State.part_setPart_ne _ _ hq]
@[simp] theorem State.slot?_fset (s : State) (off : Nat) (f : Fld) (v p k : Nat) : (s.fset off f v).slot? p k = s.slot? p k := rfl

/-! ### Register access -/

/-- A write that reaches its block does what the register does (R16). -/
theorem State.writeReg_reach {s : State} {a : Agent} {b : Blk} {u off : Nat} (f : State → State)
    (h : s.entry a b u off true = .reach) : s.writeReg a b u off f = f (s.answer .ok 0) := by
  simp [State.writeReg, h]

/-- A read that reaches its block is answered by the register. -/
theorem State.readReg_reach {s : State} {a : Agent} {b : Blk} {u off : Nat} (f : State → State)
    (h : s.entry a b u off false = .reach) : s.readReg a b u off f = f (s.answer .ok 0) := by
  simp [State.readReg, h]

/-- A write of a per-context register reaches the context of the selected slot (R391). -/
theorem State.writeCtx_reach {s : State} {a : Agent} {p off k : Nat} (f : Nat → State → State)
    (h : s.entry a .sch p (B.sch p + off) true = .reach) (hk : s.selSlot a p = some k) :
    s.writeCtx a p off f = f k (s.answer .ok 0) := by
  have hk' : (s.answer .ok 0).selSlot a p = some k := hk
  simp [State.writeCtx, State.writeReg_reach _ h, hk']

/-! ### Frames -/

theorem SameRegs.refl (s : State) (ks : List Nat) : SameRegs s s ks := fun _ _ => rfl

theorem OnlyRegs.refl (s : State) (ks : List Nat) : OnlyRegs s s ks := ⟨rfl, SameRegs.refl s ks⟩

/-- Setting a listed field keeps the frame. -/
theorem OnlyRegs.fset {s t : State} {ks : List Nat} (h : OnlyRegs s t ks) {off : Nat} {f : Fld} (v : Nat)
    (hk : regKey off f ∈ ks) : OnlyRegs s (t.fset off f v) ks := by
  obtain ⟨h1, h2⟩ := h
  refine ⟨?_, fun k hn => ?_⟩
  · have : t.fset off f v = { t with regs := (t.fset off f v).regs } := rfl
    exact this.trans (by rw [h1])
  · rw [State.find?_fset_ne _ _ (show k ≠ _ from fun e => hn (by rw [e]; exact hk)), h2 k hn]

theorem OnlyRegs.fadd {s t : State} {ks : List Nat} (h : OnlyRegs s t ks) {off : Nat} {f : Fld} (v : Nat)
    (hk : regKey off f ∈ ks) : OnlyRegs s (t.fadd off f v) ks := h.fset _ hk

theorem OnlyAnswer.answer {s t : State} {ks : List Nat} (h : OnlyAnswer s t ks) (k : RspKind) (d : Nat) :
    OnlyAnswer s (t.answer k d) ks := by
  obtain ⟨h1, h2⟩ := h
  refine ⟨?_, h2⟩
  have : t.answer k d = { t with rsp := (t.answer k d).rsp } := rfl
  exact this.trans (by rw [h1]; rfl)

theorem OnlyAnswer.refl (s : State) (ks : List Nat) : OnlyAnswer s s ks := ⟨rfl, SameRegs.refl s ks⟩

theorem OnlyAnswer.fset {s t : State} {ks : List Nat} (h : OnlyAnswer s t ks) {off : Nat} {f : Fld} (v : Nat)
    (hk : regKey off f ∈ ks) : OnlyAnswer s (t.fset off f v) ks := by
  obtain ⟨h1, h2⟩ := h
  refine ⟨?_, fun k hn => ?_⟩
  · have : t.fset off f v = { t with regs := (t.fset off f v).regs } := rfl
    exact this.trans (by rw [h1]; rfl)
  · rw [State.find?_fset_ne _ _ (show k ≠ _ from fun e => hn (by rw [e]; exact hk)), h2 k hn]

theorem OnlyAnswer.fadd {s t : State} {ks : List Nat} (h : OnlyAnswer s t ks) {off : Nat} {f : Fld} (v : Nat)
    (hk : regKey off f ∈ ks) : OnlyAnswer s (t.fadd off f v) ks := h.fset _ hk

end Sys2Proof.Machine
end

