-- ==== Sys2Proof/Laws/Units.lean ====
section
/-!
SUPPORT. Laws/Units.lean: loads, stores, homes, regulators, events and performance counters keep time, tiles, herds, cores, partitions and
domains. `SameUnits` is an equivalence, and each operation has one lemma: a package agrees with the operation's result in these things
exactly where it agrees with the package that the operation is given.
-/

set_option Elab.async false

namespace Sys2Proof.Machine

theorem SameRest.trans {s t u : State} (h1 : SameRest s t) (h2 : SameRest t u) : SameRest s u := Eq.trans h2 (by rw [h1])
theorem SameRest.symm {s t : State} (h : SameRest s t) : SameRest t s := by unfold SameRest at *; rw [h]

theorem SameUnits.refl (s : State) : SameUnits s s := ⟨rfl, fun _ _ => rfl⟩
@[simp] theorem sameUnits_refl (s : State) : SameUnits s s := .refl s

theorem SameUnits.trans {s t u : State} (h1 : SameUnits s t) (h2 : SameUnits t u) : SameUnits s u :=
  ⟨h1.1.trans h2.1, fun k hk => (h2.2 k hk).trans (h1.2 k hk)⟩
theorem SameUnits.symm {s t : State} (h : SameUnits s t) : SameUnits t s := ⟨h.1.symm, fun k hk => (h.2 k hk).symm⟩

/-- What an operation that keeps the units of `t` leaves agrees with what `t` agrees with. -/
theorem SameUnits.step {s t u : State} (h : SameUnits t u) : SameUnits s u ↔ SameUnits s t :=
  ⟨fun x => x.trans h.symm, fun x => x.trans h⟩

/-- A state that differs in no register. -/
theorem SameUnits.ofRest {s t : State} (h : SameRest s t) (hr : t.regs = s.regs) : SameUnits s t := ⟨h, fun _ _ => by rw [hr]⟩

/-- A choice between two packages. -/
@[simp] theorem sameUnits_ite {s t u : State} {c : Prop} [Decidable c] :
    SameUnits s (if c then t else u) ↔ (c → SameUnits s t) ∧ (¬c → SameUnits s u) := by
  split <;> simp_all

@[simp] theorem sameUnits_when {s t : State} {b : Bool} {f : State → State} :
    SameUnits s (t.when b f) ↔ (b = true → SameUnits s (f t)) ∧ (b = false → SameUnits s t) := by
  cases b <;> simp [State.when]

/-- What holds in both cases. -/
@[simp] theorem both_cases {b : Bool} {p : Prop} : ((b = true → p) ∧ (b = false → p)) ↔ p := by cases b <;> simp

theorem sameUnits_foldl {α : Type} (f : State → α → State) (hf : ∀ s x, SameUnits s (f s x)) :
    ∀ (l : List α) (s : State), SameUnits s (l.foldl f s) := by
  intro l
  induction l with
  | nil => intro s; exact SameUnits.refl s
  | cons x l ih => intro s; exact (hf s x).trans (ih _)

theorem sameUnits_range {n : Nat} (f : Nat → State → State) (hf : ∀ k s, k < n → SameUnits s (f k s)) (s : State) :
    SameUnits s (forRange n f s) := by
  have key : ∀ (l : List Nat) (s : State), (∀ k ∈ l, k < n) → SameUnits s (l.foldl (fun a k => f k a) s) := by
    intro l
    induction l with
    | nil => intro s _; exact SameUnits.refl s
    | cons x l ih =>
      intro s h
      exact (hf x s (h x (by simp))).trans (ih _ fun k hk => h k (by simp [hk]))
  exact key _ s fun k hk => by simpa using hk

/-! ### Fields of State that are no unit's -/

section Fields
variable {s t : State}
@[simp] theorem sameUnits_msgs {x} : SameUnits s { t with msgs := x } ↔ SameUnits s t := SameUnits.step (.ofRest rfl rfl)
@[simp] theorem sameUnits_migs {x} : SameUnits s { t with migs := x } ↔ SameUnits s t := SameUnits.step (.ofRest rfl rfl)
@[simp] theorem sameUnits_busy {x} : SameUnits s { t with busy := x } ↔ SameUnits s t := SameUnits.step (.ofRest rfl rfl)
@[simp] theorem sameUnits_cache {x} : SameUnits s { t with cache := x } ↔ SameUnits s t := SameUnits.step (.ofRest rfl rfl)
@[simp] theorem sameUnits_llc {x} : SameUnits s { t with llc := x } ↔ SameUnits s t := SameUnits.step (.ofRest rfl rfl)
@[simp] theorem sameUnits_snoop {x} : SameUnits s { t with snoop := x } ↔ SameUnits s t := SameUnits.step (.ofRest rfl rfl)
@[simp] theorem sameUnits_arb {x} : SameUnits s { t with arb := x } ↔ SameUnits s t := SameUnits.step (.ofRest rfl rfl)
@[simp] theorem sameUnits_msgsArb {x y} : SameUnits s { t with msgs := x, arb := y } ↔ SameUnits s t := SameUnits.step (.ofRest rfl rfl)
@[simp] theorem sameUnits_reqQ {x} : SameUnits s { t with reqQ := x } ↔ SameUnits s t := SameUnits.step (.ofRest rfl rfl)
@[simp] theorem sameUnits_pools {x} : SameUnits s { t with pools := x } ↔ SameUnits s t := SameUnits.step (.ofRest rfl rfl)
@[simp] theorem sameUnits_poison {x} : SameUnits s { t with poison := x } ↔ SameUnits s t := SameUnits.step (.ofRest rfl rfl)
@[simp] theorem sameUnits_mem {x y} : SameUnits s { t with mem := x, soft := y } ↔ SameUnits s t := SameUnits.step (.ofRest rfl rfl)
@[simp] theorem sameUnits_chans {x} : SameUnits s { t with chans := x } ↔ SameUnits s t := SameUnits.step (.ofRest rfl rfl)
@[simp] theorem sameUnits_chkCache {x} : SameUnits s { t with chkCache := x } ↔ SameUnits s t := SameUnits.step (.ofRest rfl rfl)
@[simp] theorem sameUnits_rmc {x} : SameUnits s { t with rmc := x } ↔ SameUnits s t := SameUnits.step (.ofRest rfl rfl)
@[simp] theorem sameUnits_heat {x} : SameUnits s { t with heat := x } ↔ SameUnits s t := SameUnits.step (.ofRest rfl rfl)
@[simp] theorem sameUnits_quiet {x} : SameUnits s { t with quiet := x } ↔ SameUnits s t := SameUnits.step (.ofRest rfl rfl)
@[simp] theorem sameUnits_trunkRr {x} : SameUnits s { t with trunkRr := x } ↔ SameUnits s t := SameUnits.step (.ofRest rfl rfl)
@[simp] theorem sameUnits_rreqs {x} : SameUnits s { t with rreqs := x } ↔ SameUnits s t := SameUnits.step (.ofRest rfl rfl)
@[simp] theorem sameUnits_acc {x} : SameUnits s { t with acc := x } ↔ SameUnits s t := SameUnits.step (.ofRest rfl rfl)
@[simp] theorem sameUnits_holds {x} : SameUnits s { t with holds := x } ↔ SameUnits s t := SameUnits.step (.ofRest rfl rfl)
@[simp] theorem sameUnits_recent {x} : SameUnits s { t with recent := x } ↔ SameUnits s t := SameUnits.step (.ofRest rfl rfl)
@[simp] theorem sameUnits_soft {x} : SameUnits s { t with soft := x } ↔ SameUnits s t := SameUnits.step (.ofRest rfl rfl)
@[simp] theorem sameUnits_memMsgs {x y} : SameUnits s { t with mem := x, msgs := y } ↔ SameUnits s t := SameUnits.step (.ofRest rfl rfl)
@[simp] theorem sameUnits_rwait {x} : SameUnits s { t with rwait := x } ↔ SameUnits s t := SameUnits.step (.ofRest rfl rfl)
@[simp] theorem sameUnits_lost {x} : SameUnits s { t with evqLost := x } ↔ SameUnits s t := SameUnits.step (.ofRest rfl rfl)
@[simp] theorem sameUnits_evq {x y z} : SameUnits s { t with evqLost := x, evqPhase := y, evqIrq := z } ↔ SameUnits s t :=
  SameUnits.step (.ofRest rfl rfl)
@[simp] theorem sameUnits_draw : SameUnits s t.draw.2 ↔ SameUnits s t := SameUnits.step (.ofRest rfl rfl)
@[simp] theorem sameUnits_health (i n : Nat) : SameUnits s (t.health i n) ↔ SameUnits s t := SameUnits.step (.ofRest rfl rfl)
@[simp] theorem sameUnits_bwAdd (b d n : Nat) : SameUnits s (t.bwAdd b d n) ↔ SameUnits s t := SameUnits.step (.ofRest rfl rfl)
@[simp] theorem sameUnits_setPort (g : Nat) (x : Port) : SameUnits s (t.setPort g x) ↔ SameUnits s t := SameUnits.step (.ofRest rfl rfl)
@[simp] theorem sameUnits_setRegQ (p i : Nat) (q : RegQ) : SameUnits s (t.setRegQ p i q) ↔ SameUnits s t := SameUnits.step (.ofRest rfl rfl)
@[simp] theorem sameUnits_setRm (r e : Nat) : SameUnits s (t.setRm r e) ↔ SameUnits s t := SameUnits.step (.ofRest rfl rfl)
@[simp] theorem sameUnits_markPeer (a : Nat) : SameUnits s (t.markPeer a) ↔ SameUnits s t := SameUnits.step (.ofRest rfl rfl)
@[simp] theorem sameUnits_markDirty (l : Nat) : SameUnits s (t.markDirty l) ↔ SameUnits s t := SameUnits.step (.ofRest rfl rfl)
@[simp] theorem sameUnits_putLine (l d : Nat) : SameUnits s (t.putLine l d) ↔ SameUnits s t := SameUnits.step (.ofRest rfl rfl)
@[simp] theorem sameUnits_setBusy (l : Nat) (b : Busy) : SameUnits s (t.setBusy l b) ↔ SameUnits s t := SameUnits.step (.ofRest rfl rfl)
@[simp] theorem sameUnits_uncache (l g : Nat) : SameUnits s (t.uncache l g) ↔ SameUnits s t := SameUnits.step (.ofRest rfl rfl)
@[simp] theorem sameUnits_hold (l g : Nat) (c : CLine) : SameUnits s (t.hold l g c) ↔ SameUnits s t := SameUnits.step (.ofRest rfl rfl)
@[simp] theorem sameUnits_filterUse (l : Nat) : SameUnits s (t.filterUse l) ↔ SameUnits s t := SameUnits.step (.ofRest rfl rfl)
@[simp] theorem sameUnits_alert : SameUnits s t.alert ↔ SameUnits s t := SameUnits.step (.ofRest rfl rfl)
end Fields

/-! ### Registers -/

/-- The key of a field names its register. -/
theorem keyReg_regKey {off : Nat} {f : Fld} (ho : off % 8 = 0) (hf : f.lo < 64) : keyReg (regKey off f) = off := by
  simp only [keyReg, regKey]
  omega

/-- A field of a unit register is set. -/
theorem SameUnits.ofFset (s : State) {off : Nat} {f : Fld} (v : Nat) (ho : off % 8 = 0) (hf : f.lo < 64) (hu : unitReg off) :
    SameUnits s (s.fset off f v) :=
  ⟨rfl, fun k hk => State.find?_fset_ne s v (by rintro rfl; rw [keyReg_regKey ho hf] at hk; exact hk hu)⟩

theorem SameUnits.fset_iff {s t : State} {off : Nat} {f : Fld} {v : Nat} (ho : off % 8 = 0) (hu : unitReg off)
    (hf : f.lo < 64 := by decide) : SameUnits s (t.fset off f v) ↔ SameUnits s t := SameUnits.step (.ofFset t v ho hf hu)

theorem SameUnits.fadd_iff {s t : State} {off : Nat} {f : Fld} {v : Nat} (ho : off % 8 = 0) (hu : unitReg off)
    (hf : f.lo < 64 := by decide) : SameUnits s (t.fadd off f v) ↔ SameUnits s t := SameUnits.step (.ofFset t _ ho hf hu)

theorem sliceOf_lt (line : Nat) : sliceOf line < 128 := by
  have key : ∀ (l : List Nat) (f : Nat → Nat) (n s : Nat), s < 2 ^ n → (∀ i, f i < 2 ^ n) →
      l.foldl (fun s i => s ^^^ f i) s < 2 ^ n := by
    intro l f n
    induction l with
    | nil => intro s hs _; exact hs
    | cons x l ih => intro s hs hf; exact ih _ (Nat.xor_lt_two_pow hs (hf x)) hf
  have hb (n w k : Nat) : bits n w k < 2 ^ k := by simp only [bits]; exact Nat.mod_lt _ (Nat.two_pow_pos k)
  unfold sliceOf
  dsimp only
  split
  · rename_i d hd
    have h1 : d < 2 := by
      unfold dieOfKey at hd
      split at hd
      · cases hd; exact Nat.mod_lt _ (by decide)
      · cases hd
    have h2 : dieSlice (line - 0x400000 * 16384) < 2 ^ 5 := key _ _ _ _ (by decide) fun i => hb _ _ _
    omega
  · have h2 : hostSlice (line - 0x800000 * 16384) < 2 ^ 6 := key _ _ _ _ (by decide) fun i => hb _ _ _
    omega

theorem unitOf_lt (line : Nat) : (unitOf line).1 < 48 := by
  unfold unitOf
  split <;> dsimp only <;> omega

theorem stackChan_lt (a : Nat) : (stackPlace a).1 < 64 :=
  Nat.xor_lt_two_pow (n := 6) (Nat.xor_lt_two_pow (Nat.mod_lt _ (by decide)) (Nat.mod_lt _ (by decide))) (Nat.mod_lt _ (by decide))

/-- The registers of a home slice. -/
theorem unitReg_coh {k : Nat} (hk : k < 128) :
    unitReg (R.COH_STAT k) ∧ unitReg (R.COH_SF k) ∧ unitReg (R.COH_BUSY k) :=
  ⟨.inl (.inr (.inr (.inl ⟨k, hk, .inl rfl⟩))), .inl (.inr (.inr (.inl ⟨k, hk, .inr (.inl rfl)⟩))),
    .inl (.inr (.inr (.inl ⟨k, hk, .inr (.inr rfl)⟩)))⟩

theorem coh_aligned (k : Nat) : R.COH_STAT k % 8 = 0 ∧ R.COH_SF k % 8 = 0 ∧ R.COH_BUSY k % 8 = 0 := by
  simp only [R.COH_STAT, R.COH_SF, R.COH_BUSY, B.coh, B.die]
  split <;> omega

/-- The error record of a unit. -/
theorem unitReg_err {u : Nat} (hu : u < 48) : unitReg (errReg u) ∧ unitReg (errAddrReg u) :=
  ⟨.inl (.inr (.inr (.inr (.inl ⟨u, hu, .inl rfl⟩)))), .inl (.inr (.inr (.inr (.inl ⟨u, hu, .inr rfl⟩))))⟩

theorem err_aligned (u : Nat) : errReg u % 8 = 0 ∧ errAddrReg u % 8 = 0 := by
  simp only [errReg, errAddrReg, B.unit, B.stk, B.cap, B.die]
  split <;> omega

/-- The event and count registers of programmable counters are unit registers at whole offsets. -/
def PmcReg (e : Nat) : Prop := ∃ u i, i < 8 ∧ (e = R.PMC_TEVT u i ∨ e = R.PMC_HEVT u i)

theorem PmcReg.unit {e : Nat} (h : PmcReg e) : unitReg e ∧ unitReg (e + 8) ∧ e % 8 = 0 := by
  obtain ⟨u, i, hi, h | h⟩ := h
  · refine ⟨.inr <| .inr <| .inr <| .inr <| .inr <| .inr ⟨u, i, hi, .inl h⟩,
      .inr <| .inr <| .inr <| .inr <| .inr <| .inr ⟨u, i, hi, .inr (.inl (by omega))⟩, ?_⟩
    simp only [h, R.PMC_TEVT, B.til, B.hrd, B.die]
    omega
  · refine ⟨.inr <| .inr <| .inr <| .inr <| .inr <| .inr ⟨u, i, hi, .inr (.inr (.inl h))⟩,
      .inr <| .inr <| .inr <| .inr <| .inr <| .inr ⟨u, i, hi, .inr (.inr (.inr (by omega)))⟩, ?_⟩
    simp only [h, R.PMC_HEVT, B.hrd, B.die]
    omega

section Counts
variable {s t : State}

@[simp] theorem sameUnits_cohStat (line : Nat) (f : Fld) (n : Nat) (hf : f.lo < 64 := by decide) :
    SameUnits s (t.fadd (R.COH_STAT (sliceOf line)) f n) ↔ SameUnits s t :=
  SameUnits.fadd_iff (coh_aligned _).1 (unitReg_coh (sliceOf_lt line)).1 hf
@[simp] theorem sameUnits_cohSf (line n : Nat) :
    SameUnits s (t.fadd (R.COH_SF (sliceOf line)) F.COH_SF_BACK_INV n) ↔ SameUnits s t :=
  SameUnits.fadd_iff (coh_aligned _).2.1 (unitReg_coh (sliceOf_lt line)).2.1
@[simp] theorem sameUnits_cohBusy (line n : Nat) :
    SameUnits s (t.fset (R.COH_BUSY (sliceOf line)) F.COH_BUSY_MAX_WAIT n) ↔ SameUnits s t :=
  SameUnits.fset_iff (coh_aligned _).2.2 (unitReg_coh (sliceOf_lt line)).2.2
@[simp] theorem sameUnits_errFset (line : Nat) (f : Fld) (n : Nat) (hf : f.lo < 64) :
    SameUnits s (t.fset (errAddrReg (unitOf line).1) f n) ↔ SameUnits s t :=
  SameUnits.fset_iff (err_aligned _).2 (unitReg_err (unitOf_lt line)).2 hf
@[simp] theorem sameUnits_errFadd (line : Nat) (f : Fld) (n : Nat) (hf : f.lo < 64) :
    SameUnits s (t.fadd (errReg (unitOf line).1) f n) ↔ SameUnits s t :=
  SameUnits.fadd_iff (err_aligned _).1 (unitReg_err (unitOf_lt line)).1 hf
@[simp] theorem sameUnits_errcnt (f : Fld) (n : Nat) (hf : f.lo < 64) :
    SameUnits s (t.fadd R.FLT_ERRCNT f n) ↔ SameUnits s t :=
  SameUnits.fadd_iff (by decide) (.inr (.inr (.inl rfl))) hf
@[simp] theorem sameUnits_evqFset (f : Fld) (n : Nat) (hf : f.lo < 64) :
    SameUnits s (t.fset R.PKG_EVQ_PTR f n) ↔ SameUnits s t :=
  SameUnits.fset_iff (by decide) (.inr (.inr (.inr (.inl rfl)))) hf
@[simp] theorem sameUnits_evqFadd (f : Fld) (n : Nat) (hf : f.lo < 64) :
    SameUnits s (t.fadd R.PKG_EVQ_PTR f n) ↔ SameUnits s t :=
  SameUnits.fadd_iff (by decide) (.inr (.inr (.inr (.inl rfl)))) hf
@[simp] theorem sameUnits_lifeAdd {i : Nat} (hi : i < 64) (n : Nat) : SameUnits s (t.lifeAdd i n) ↔ SameUnits s t :=
  SameUnits.fadd_iff (by simp only [R.LIF_CNT]; omega) (.inl (.inr (.inr (.inr (.inr (.inl ⟨i, hi, rfl⟩))))))
theorem sameUnits_histAdd {h b : Nat} (hh : h < 17) (hb : b < 64) (n : Nat) : SameUnits s (t.histAdd h b n) ↔ SameUnits s t :=
  SameUnits.fset_iff (by simp only [R.LIF_HIST]; omega) (.inl (.inr (.inr (.inr (.inr (.inr ⟨h, b / 2, hh, by omega, rfl⟩))))))
end Counts

/-! ### The fault log, ports and regulators -/

section Ops
variable {s t : State}

@[simp] theorem sameUnits_logFault (e : LogEntry) : SameUnits s (t.logFault e) ↔ SameUnits s t := by
  have hp (s : State) (f : Fld) (v : Nat) (hf : f.lo < 64) : SameUnits s (s.fset R.FLT_LOG_PTR f v) :=
    SameUnits.ofFset s v (by decide) hf (.inr (.inl rfl))
  exact SameUnits.step (((sameUnits_range _ (fun w t hw => SameUnits.ofFset t _ (by simp only [R.FLT_LOG]; omega) (by decide)
      (.inr <| .inr <| .inr <| .inr <| .inr <| .inl ⟨_, w, Nat.mod_lt _ (by decide), hw, rfl⟩)) t).trans
    (hp _ _ _ (by decide))).trans (hp _ _ _ (by decide)))

@[simp] theorem sameUnits_timeoutAt (e : LogEntry) : SameUnits s (t.timeoutAt e) ↔ SameUnits s t := by
  simp [State.timeoutAt, State.timeoutLog, F.FLT_ERRCNT_TIMEOUT]
@[simp] theorem sameUnits_ueAt (l : Nat) : SameUnits s (t.ueAt l) ↔ SameUnits s t := by
  simp [State.ueAt, F.FLT_ERRCNT_UE]
@[simp] theorem sameUnits_fenceRefusal (k u : Nat) : SameUnits s (t.fenceRefusal k u) ↔ SameUnits s t := by
  simp [State.fenceRefusal]
@[simp] theorem sameUnits_decodeErr : SameUnits s t.decodeErr ↔ SameUnits s t := by
  simp [State.decodeErr, F.FLT_ERRCNT_DECODE]
@[simp] theorem sameUnits_linkRefusal (a b : Nat) : SameUnits s (t.linkRefusal a b) ↔ SameUnits s t := by
  simp [State.linkRefusal]

theorem sameUnits_setBucket {p i : Nat} (hp : p < 8) (hi : i < 3) (v : Int) : SameUnits s (t.setBucket p i v) ↔ SameUnits s t :=
  SameUnits.fset_iff (by simp only [R.PLC_REG_LVL]; omega) (.inl (.inr (.inl ⟨p, i, hp, hi, rfl⟩)))

theorem sameUnits_issueTokens {p i : Nat} (hp : p < 8) (hi : i < 3) (n c : Nat) :
    SameUnits s (t.issueTokens p i n c).1 ↔ SameUnits s t := by
  unfold State.issueTokens
  dsimp only
  repeat' split
  all_goals simp [sameUnits_setBucket hp hi]

theorem sameUnits_chargeNow {p i : Nat} (hp : p < 8) (hi : i < 3) (n c : Nat) : SameUnits s (t.chargeNow p i n c) ↔ SameUnits s t := by
  have h := sameUnits_issueTokens (s := s) (t := t) hp hi n c
  unfold State.chargeNow
  split
  · rename_i e
    rwa [e] at h
  · rename_i e
    rw [e] at h
    dsimp only
    rw [SameUnits.fadd_iff (by simp only [R.PLC_REG_LVL]; omega) (.inl (.inr (.inl ⟨p, i, hp, hi, rfl⟩))), sameUnits_setRegQ]
    exact h

theorem sameUnits_chargeBack (part : Option Nat) {i : Nat} (hi : i < 3) : SameUnits s (t.chargeBack part i) ↔ SameUnits s t := by
  unfold State.chargeBack State.when
  repeat' split
  · rw [sameUnits_chargeNow (by simp_all) hi]
  all_goals rfl

theorem sameUnits_charge {p i : Nat} (hp : p < 8) (hi : i < 3) (n c : Nat) : SameUnits s (t.charge p i n c) ↔ SameUnits s t := by
  unfold State.charge
  split
  · split <;> simp
  · exact sameUnits_chargeNow hp hi n c

theorem sameUnits_chargeLine (part : Option Nat) {i : Nat} (hi : i < 3) (line : Nat) (w : Bool) :
    SameUnits s (t.chargeLine part i line w) ↔ SameUnits s t := by
  unfold State.chargeLine
  split
  · split
    · rw [sameUnits_charge (by tauto) hi]
      split <;> simp
    · rfl
  · rfl

@[simp] theorem sameUnits_idleFlit (g : Nat) (k : Bool) : SameUnits s (t.idleFlit g k) ↔ SameUnits s t := by simp [State.idleFlit]

@[simp] theorem sameUnits_pump (g n : Nat) : SameUnits s (State.pump g n t) ↔ SameUnits s t := by
  induction n generalizing t with
  | zero => rfl
  | succ n ih =>
    simp only [State.pump]
    split
    · simp
    · split
      · simp [ih]
      · rfl

@[simp] theorem sameUnits_sendOn (g : Nat) (m : AfrMsg) : SameUnits s (t.sendOn g m) ↔ SameUnits s t := by
  unfold State.sendOn State.when
  split <;> simp

@[simp] theorem sameUnits_outPort (e : Nat) (m : AfrMsg) (l : Nat) : SameUnits s (t.outPort e m l).2 ↔ SameUnits s t := by
  unfold State.outPort
  dsimp only
  repeat' split
  all_goals simp

@[simp] theorem sameUnits_ucieBytes (l m a b n : Nat) : SameUnits s (t.ucieBytes l m a b n) ↔ SameUnits s t := by
  unfold State.ucieBytes State.when
  repeat' split
  all_goals simp

@[simp] theorem sameUnits_carry (a b line n : Nat) : SameUnits s (t.carry a b line n) ↔ SameUnits s t := by
  unfold State.carry
  split
  · rfl
  · split
    · unfold State.when
      split <;> simp
    · rfl

@[simp] theorem sameUnits_sendVia (d : Nat) (m : AfrMsg) (l : Nat) : SameUnits s (t.sendVia d m l).2 ↔ SameUnits s t := by
  unfold State.sendVia
  split
  · simp
  · rename_i e he
    split
    · simp
    · have h := sameUnits_outPort (s := s) (t := t) e m l
      split <;> rename_i s1 ho <;> rw [ho] at h <;> simpa using h

@[simp] theorem sameUnits_sendTo (d : Nat) (m : AfrMsg) : SameUnits s (t.sendTo d m).2 ↔ SameUnits s t := sameUnits_sendVia d m _

@[simp] theorem sameUnits_sendReq (die tag : Nat) (q : RReq) : SameUnits s (t.sendReq die tag q) ↔ SameUnits s t := by
  simp [State.sendReq]

@[simp] theorem sameUnits_nextReq : SameUnits s t.nextReq ↔ SameUnits s t := by
  unfold State.nextReq
  split <;> simp

@[simp] theorem sameUnits_sendReqs : SameUnits s t.sendReqs ↔ SameUnits s t :=
  SameUnits.step (sameUnits_range _ (fun _ _ _ => sameUnits_nextReq.2 (SameUnits.refl _)) _)

@[simp] theorem sameUnits_remote (r : Reach) (die win off : Nat) (wr : Option (Nat × Nat)) :
    SameUnits s (t.remote r die win off wr).2 ↔ SameUnits s t := by
  unfold State.remote
  dsimp only
  split
  · simp
  · cases wr <;> simp [State.when, sameUnits_chargeLine]

/-! ### Heat, links and channels -/

@[simp] theorem sameUnits_rmcUse {d : Nat} (hd : d < 2) (r : Nat) : SameUnits s (t.rmcUse d r) ↔ SameUnits s t := by
  have hu : R.PLC_RMC_STAT d % 8 = 0 := by simp only [R.PLC_RMC_STAT, B.plcDie, B.die]; omega
  have hr : unitReg (R.PLC_RMC_STAT d) := .inl (.inl ⟨d, hd, rfl⟩)
  unfold State.rmcUse
  dsimp only
  split
  · rw [SameUnits.fadd_iff hu hr, sameUnits_rmc]
  · rw [SameUnits.fadd_iff hu hr, sameUnits_rmc]

@[simp] theorem sameUnits_touch (die range : Nat) : SameUnits s (t.touch die range) ↔ SameUnits s t := by
  have h : SameUnits s (if die < 2 then t.rmcUse die range else t) ↔ SameUnits s t := by
    split
    · simp [*]
    · rfl
  rw [← h]
  unfold State.touch
  dsimp only
  generalize (if die < 2 then t.rmcUse die range else t) = u
  repeat' split
  all_goals simp

@[simp] theorem sameUnits_savedWrite (g : Nat) : SameUnits s (t.savedWrite g) ↔ SameUnits s t := by
  unfold State.savedWrite
  dsimp only
  rw [sameUnits_quiet]
  split <;> simp

@[simp] theorem sameUnits_cross (a b line out back : Nat) : SameUnits s (t.cross a b line out back).2 ↔ SameUnits s t := by
  unfold State.cross
  split
  · rfl
  · split
    · unfold State.when
      split <;> simp
    · rfl

@[simp] theorem sameUnits_chkWrite (b : Nat) (c : ChkLine) : SameUnits s (t.chkWrite b c) ↔ SameUnits s t := by
  unfold State.chkWrite
  split <;> simp

@[simp] theorem sameUnits_chkTouch (u n : Nat) : SameUnits s (t.chkTouch u n) ↔ SameUnits s t := by
  unfold State.chkTouch State.setChan
  split
  · simp
  · dsimp only
    split
    · simp
    · exact (SameUnits.step (sameUnits_foldl _ (fun s c => by simp) _ _)).trans (by simp)

@[simp] theorem sameUnits_chkWrote (u n : Nat) : SameUnits s (t.chkWrote u n) ↔ SameUnits s t := by
  unfold State.chkWrote
  dsimp only
  split <;> simp

@[simp] theorem sameUnits_countCe (line : Nat) : SameUnits s (t.countCe (unitOf line).1 line) ↔ SameUnits s t := by
  have hu := unitOf_lt line
  have hc := stackChan_lt (unitOf line).2
  unfold State.countCe
  dsimp only
  split
  · rw [sameUnits_histAdd (by omega) hc, sameUnits_lifeAdd (by omega), sameUnits_health,
      sameUnits_errFadd _ _ _ (by decide)]
  · rw [sameUnits_histAdd (by omega) (by omega), sameUnits_lifeAdd (by omega), sameUnits_health,
      sameUnits_errFadd _ _ _ (by decide)]

@[simp] theorem sameUnits_chanWrote (line : Nat) : SameUnits s (t.chanWrote line) ↔ SameUnits s t := by
  unfold State.chanWrote
  simp
end Ops

/-- An error event keeps the units. -/
def KeepsUnits (ev : ErrEv) : Prop := ∀ s u, SameUnits s (ev s u)

theorem KeepsUnits.none : KeepsUnits fun s _ => s := fun s _ => .refl s

section Channels
variable {s t : State} {ev : ErrEv} (hev : KeepsUnits ev)
include hev

theorem sameUnits_ev (u : Nat) : SameUnits s (ev t u) ↔ SameUnits s t := SameUnits.step (hev t u)

theorem sameUnits_errAt (line kind : Nat) : SameUnits s (State.errAt ev t (unitOf line).1 line kind) ↔ SameUnits s t := by
  have h : ∀ u : State, SameUnits s ((u.fset (errAddrReg (unitOf line).1) F.STK_ERR_ADDR_KIND kind).fset
      (errAddrReg (unitOf line).1) F.STK_ERR_ADDR_ADDR line) ↔ SameUnits s u := fun u => by
    rw [sameUnits_errFset _ _ _ (by decide), sameUnits_errFset _ _ _ (by decide)]
  unfold State.errAt State.when
  dsimp only
  split
  · rw [sameUnits_ev hev, h]
  · exact h t

theorem sameUnits_correct (line f : Nat) : SameUnits s (State.correct ev t (unitOf line).1 line f) ↔ SameUnits s t := by
  have hu := unitOf_lt line
  unfold State.correct State.when State.countHard
  dsimp only
  split
  · rw [sameUnits_errAt hev, sameUnits_lifeAdd (by split <;> omega), sameUnits_errFadd _ _ _ (by decide), sameUnits_chkWrote,
      sameUnits_poison, sameUnits_putLine]
  · simp

theorem sameUnits_chanRead (line : Nat) : SameUnits s (State.chanRead ev t line) ↔ SameUnits s t := by
  have h : SameUnits s ((t.bwAdd (bwSetOf line) 0 64).chkTouch (unitOf line).1 (unitOf line).2) ↔ SameUnits s t := by simp
  have hu := unitOf_lt line
  unfold State.chanRead State.decodeLine State.countUe
  dsimp only
  rw [← h]
  generalize (t.bwAdd (bwSetOf line) 0 64).chkTouch (unitOf line).1 (unitOf line).2 = u
  split
  · rfl
  · exact sameUnits_errAt hev _ _
  · rw [sameUnits_correct hev, sameUnits_countCe]
  · rw [sameUnits_errAt hev, sameUnits_lifeAdd (by split <;> omega), sameUnits_errFadd _ _ _ (by decide)]
end Channels

/-! ### Homes -/

section Homes
variable {s t : State}

@[simp] theorem sameUnits_llcUse (line : Nat) : SameUnits s (t.llcUse line) ↔ SameUnits s t := by
  unfold State.llcUse
  split <;> simp

@[simp] theorem sameUnits_homeWrite (line d : Nat) : SameUnits s (t.homeWrite line d) ↔ SameUnits s t := by simp [State.homeWrite]
@[simp] theorem sameUnits_homeFull (line d : Nat) : SameUnits s (t.homeFull line d) ↔ SameUnits s t := by simp [State.homeFull]

@[simp] theorem sameUnits_patch (f n v : Nat) : SameUnits s (t.patch f n v) ↔ SameUnits s t := by
  unfold State.patch
  dsimp only
  rw [sameUnits_chanWrote, sameUnits_markDirty, sameUnits_mem]
  split <;> simp

@[simp] theorem sameUnits_post (m : CohMsg) : SameUnits s (t.post m) ↔ SameUnits s t := by
  unfold State.post
  split <;> simp
@[simp] theorem sameUnits_tierOfKey (part : Option Nat) (k line : Nat) (w : Bool) :
    SameUnits s (t.chargeLine part (tierOfKey k) line w) ↔ SameUnits s t :=
  sameUnits_chargeLine part (by unfold tierOfKey; split <;> decide) line w
@[simp] theorem sameUnits_writeBack (line ag d : Nat) : SameUnits s (t.writeBack line ag d) ↔ SameUnits s t := by
  simp [State.writeBack, sameUnits_chargeBack _ (show tierOfKey (line / 16384) < 3 by unfold tierOfKey; split <;> decide)]

@[simp] theorem sameUnits_ownerData (c : CLine) : SameUnits s (t.ownerData c).2 ↔ SameUnits s t := by
  unfold State.ownerData
  split <;> simp

@[simp] theorem sameUnits_ownerDirty (c : CLine) : SameUnits s (t.ownerDirty c).2 ↔ SameUnits s t := by
  unfold State.ownerDirty State.drawBit
  split <;> simp

@[simp] theorem sameUnits_killAll (line : Nat) (f : Nat → Nat) (l : List Nat) : SameUnits s (t.killAll line f l) ↔ SameUnits s t :=
  SameUnits.step (sameUnits_foldl _ (fun s _ => by simp) l t)

@[simp] theorem sameUnits_invalidate (line : Nat) (b : Busy) : SameUnits s (t.invalidate line b) ↔ SameUnits s t := by
  simp [State.invalidate]

@[simp] theorem sameUnits_endDrop (line : Nat) (d : HeldDrop) : SameUnits s (State.endDrop line t d) ↔ SameUnits s t := by
  unfold State.endDrop
  dsimp only
  rw [sameUnits_post]
  split
  · simp [F.COH_STAT_STALE_WB]
  · split <;> simp

@[simp] theorem sameUnits_endTxn (line : Nat) : SameUnits s (t.endTxn line) ↔ SameUnits s t := by
  unfold State.endTxn
  split
  · rfl
  · rename_i b _
    have h : SameUnits s (b.drops.foldl (State.endDrop line) t) ↔ SameUnits s t :=
      SameUnits.step (sameUnits_foldl _ (fun s _ => by simp) b.drops t)
    dsimp only
    rw [← h]
    generalize b.drops.foldl (State.endDrop line) t = u
    repeat' split
    all_goals simp

@[simp] theorem sameUnits_postFail (line : Nat) (q : Txn) (why : Nat) : SameUnits s (t.postFail line q why) ↔ SameUnits s t := by
  simp [State.postFail]
@[simp] theorem sameUnits_failTxn (line : Nat) (q : Txn) : SameUnits s (t.failTxn line q) ↔ SameUnits s t := by simp [State.failTxn]
@[simp] theorem sameUnits_sendLine (line : Nat) (q : Txn) (g v : Nat) : SameUnits s (t.sendLine line q g v) ↔ SameUnits s t := by
  simp [State.sendLine]
@[simp] theorem sameUnits_postDone (line : Nat) (q : Txn) : SameUnits s (t.postDone line q) ↔ SameUnits s t := by simp [State.postDone]
@[simp] theorem sameUnits_snpDone (line ag f : Nat) : SameUnits s (t.snpDone line ag f) ↔ SameUnits s t := by simp [State.snpDone]

@[simp] theorem sameUnits_ownerHome (line : Nat) : SameUnits s (t.ownerHome line) ↔ SameUnits s t := by
  unfold State.ownerHome
  split
  · rename_i c _
    have h := sameUnits_ownerDirty (s := s) (t := t) c
    split <;> rename_i e <;> rw [e] at h <;> simpa using h
  · rfl

@[simp] theorem sameUnits_dropHolders (line : Nat) : SameUnits s (t.dropHolders line) ↔ SameUnits s t := by
  simp only [State.dropHolders, sameUnits_cache]
  exact SameUnits.step (sameUnits_foldl _ (fun s _ => by simp) _ t)

@[simp] theorem sameUnits_savedAt (line : Nat) (q : Txn) : SameUnits s (t.savedAt line q) ↔ SameUnits s t := by
  unfold State.savedAt State.when
  split
  · dsimp only
    split <;> simp
  · rfl

@[simp] theorem sameUnits_modBusy (line : Nat) (f : Busy → Busy) : SameUnits s (t.modBusy line f) ↔ SameUnits s t := by
  unfold State.modBusy
  split <;> simp

@[simp] theorem sameUnits_arbWin (k ag : Nat) : SameUnits s (t.arbWin k ag) ↔ SameUnits s t := by
  unfold State.arbWin
  split <;> simp

@[simp] theorem sameUnits_afterSend (line o p : Nat) (c : CLine) : SameUnits s (t.afterSend line o p c) ↔ SameUnits s t := by
  unfold State.afterSend
  repeat' split
  all_goals simp

@[simp] theorem sameUnits_takeSend (m : CohMsg) : SameUnits s (t.takeSend m) ↔ SameUnits s t := by
  unfold State.takeSend
  dsimp only
  repeat' split
  all_goals simp

@[simp] theorem sameUnits_takeKill (m : CohMsg) : SameUnits s (t.takeKill m) ↔ SameUnits s t := by
  unfold State.takeKill
  dsimp only
  split
  · split <;> simp
  · rename_i c _ _
    split
    · have h := sameUnits_ownerDirty (s := s) (t := t.uncache m.line m.ag) c
      split <;> rename_i e <;> rw [e] at h <;> simpa using h
    · simp
  · simp

@[simp] theorem sameUnits_takeDone (m : CohMsg) : SameUnits s (t.takeDone m) ↔ SameUnits s t := by
  unfold State.takeDone
  repeat' split
  all_goals simp

@[simp] theorem sameUnits_ownerWrote (line r d : Nat) : SameUnits s (t.ownerWrote line r d) ↔ SameUnits s t := by
  unfold State.ownerWrote
  repeat' split
  all_goals simp

@[simp] theorem sameUnits_takeLine (m : CohMsg) (d x : Nat) : SameUnits s (t.takeLine m d x) ↔ SameUnits s t := by
  unfold State.takeLine
  dsimp only
  generalize (if m.a = 2 ∧ m.data = none ∧ x = 1 then 3 else m.a) = g
  split <;> simp

@[simp] theorem sameUnits_waitsFinal (line : Nat) : SameUnits s (t.waitsFinal line) ↔ SameUnits s t := by
  unfold State.waitsFinal
  split <;> simp
end Homes

section Requests
variable {s t : State} {ev : ErrEv} (hev : KeepsUnits ev)
include hev

theorem sameUnits_fetch (line : Nat) (a : Bool) : SameUnits s (State.fetch ev t line a) ↔ SameUnits s t := by
  unfold State.fetch State.when
  repeat' split
  all_goals simp [sameUnits_chanRead hev]

theorem sameUnits_rawLoad (f n : Nat) : SameUnits s (State.rawLoad ev t f n).2 ↔ SameUnits s t := by
  unfold State.rawLoad
  dsimp only
  split <;> simp [sameUnits_fetch hev]

theorem sameUnits_rawStore (f n v : Nat) : SameUnits s (State.rawStore ev t f n v).2 ↔ SameUnits s t := by
  unfold State.rawStore
  dsimp only
  repeat' split
  all_goals simp [sameUnits_fetch hev]

theorem sameUnits_rawMask (line v m : Nat) : SameUnits s (State.rawMask ev t line v m).2 ↔ SameUnits s t := by
  unfold State.rawMask
  dsimp only
  split <;> simp [sameUnits_fetch hev]

theorem sameUnits_mergeAt (q : Txn) : SameUnits s (State.mergeAt ev t q) ↔ SameUnits s t := by
  unfold State.mergeAt
  dsimp only
  split
  · simp [sameUnits_fetch hev]
  · have h := sameUnits_rawLoad (s := s)
      (t := (State.fetch ev t (q.recAddr / 64) false).patch q.recAddr 2 (mergeWord (t.homeBytes q.recAddr 2) q.status)) hev q.mapAddr 1
    split <;> rename_i e <;> rw [e] at h <;> simpa [sameUnits_rawStore hev, sameUnits_fetch hev] using h

omit hev in
@[simp] theorem sameUnits_mapFails (line : Nat) (q : Txn) (why : Nat) : SameUnits s (t.mapFails line q why) ↔ SameUnits s t := by
  unfold State.mapFails
  repeat' split
  all_goals simp

theorem sameUnits_finishTxn (line : Nat) (b : Busy) (q : Txn) : SameUnits s (State.finishTxn ev t line b q) ↔ SameUnits s t := by
  unfold State.finishTxn
  dsimp only
  repeat' split
  all_goals simp [sameUnits_fetch hev, sameUnits_mergeAt hev]

theorem sameUnits_goTxn (line : Nat) : SameUnits s (State.goTxn ev t line) ↔ SameUnits s t := by
  unfold State.goTxn
  repeat' split
  all_goals simp [sameUnits_finishTxn hev]

theorem sameUnits_unpark (which : Nat → Txn → Bool) : SameUnits s (State.unpark ev which t) ↔ SameUnits s t :=
  SameUnits.step (sameUnits_foldl _ (fun s e => by split <;> simp [sameUnits_goTxn hev]) _ t)

theorem sameUnits_startTxn (line : Nat) (q : Txn) (b : Busy) : SameUnits s (State.startTxn ev t line q b) ↔ SameUnits s t := by
  unfold State.startTxn
  dsimp only
  rw [sameUnits_goTxn hev, sameUnits_killAll]
  split <;> simp

theorem sameUnits_beginTxn (line : Nat) (q : Txn) (b : Busy) : SameUnits s (State.beginTxn ev t line q b) ↔ SameUnits s t := by
  unfold State.beginTxn
  split
  · rw [sameUnits_startTxn hev]
    unfold State.when
    split <;> simp
  · simp
  · simp

theorem sameUnits_serveLine (line : Nat) : SameUnits s (State.serveLine ev t line) ↔ SameUnits s t := by
  unfold State.serveLine
  split
  · rfl
  · split
    · split
      · rfl
      · simp [sameUnits_beginTxn hev]
    · rfl

theorem sameUnits_takeSnpDone (m : CohMsg) : SameUnits s (State.takeSnpDone ev t m) ↔ SameUnits s t := by
  simp [State.takeSnpDone, sameUnits_goTxn hev]
theorem sameUnits_takeLineHome (m : CohMsg) (d : Nat) : SameUnits s (State.takeLineHome ev t m d) ↔ SameUnits s t := by
  simp [State.takeLineHome, sameUnits_goTxn hev]
theorem sameUnits_takeGot (m : CohMsg) : SameUnits s (State.takeGot ev t m) ↔ SameUnits s t := by
  simp [State.takeGot, sameUnits_goTxn hev]

theorem sameUnits_land (m : CohMsg) : SameUnits s (State.land ev t m) ↔ SameUnits s t := by
  unfold State.land
  dsimp only
  repeat' split
  all_goals simp [sameUnits_takeSnpDone hev, sameUnits_takeLineHome hev, sameUnits_takeGot hev]

theorem sameUnits_settleN (line n : Nat) : SameUnits s (State.settleN ev line n t) ↔ SameUnits s t := by
  induction n generalizing t with
  | zero => rfl
  | succ n ih =>
    simp only [State.settleN]
    repeat' split
    all_goals simp [ih, sameUnits_land hev, sameUnits_unpark hev, sameUnits_serveLine hev]

theorem sameUnits_settle (line : Nat) : SameUnits s (State.settle ev t line) ↔ SameUnits s t := by
  unfold State.settle
  repeat' split
  all_goals simp [sameUnits_settleN hev]

theorem sameUnits_ordered (line : Nat) : SameUnits s (State.ordered ev t line) ↔ SameUnits s t := by
  simp [State.ordered, sameUnits_settle hev, F.COH_STAT_REQS]

/-! ### Loads and stores -/

theorem sameUnits_homeLoad (f n : Nat) : SameUnits s (State.homeLoad ev t f n).2 ↔ SameUnits s t := by
  simp [State.homeLoad, sameUnits_rawLoad hev, sameUnits_ordered hev]
theorem sameUnits_homeStore (f n v : Nat) : SameUnits s (State.homeStore ev t f n v).2 ↔ SameUnits s t := by
  simp [State.homeStore, sameUnits_rawStore hev, sameUnits_ordered hev]
theorem sameUnits_homeMask (l v m : Nat) : SameUnits s (State.homeMask ev t l v m).2 ↔ SameUnits s t := by
  simp [State.homeMask, sameUnits_rawMask hev, sameUnits_ordered hev]
theorem sameUnits_formHome (f : Nat) (w : StoreForm) : SameUnits s (StoreForm.home ev t f w).2 ↔ SameUnits s t := by
  cases w <;> simp [StoreForm.home, sameUnits_homeStore hev, sameUnits_homeMask hev]

omit hev in
@[simp] theorem sameUnits_reach (r : Reach) (a f out back : Nat) (w : Bool) :
    SameUnits s (t.reach r a f out back w).2 ↔ SameUnits s t := by
  unfold State.reach
  dsimp only
  generalize (if r.passes = true then homeDie (f / 2 ^ 20) else r.die) = die
  have h : SameUnits s (((if a < 2 ^ 42 then t.touch die (a / 2 ^ 20) else t).chargeLine r.part (tierOfKey (f / 2 ^ 20)) (f / 64) w).cross
      die (homeDie (f / 2 ^ 20)) (f / 64) out back).2 ↔ SameUnits s t := by
    rw [sameUnits_cross, sameUnits_tierOfKey]
    split <;> simp
  split <;> rename_i e <;> rw [e] at h <;> simpa using h

omit hev in
@[simp] theorem sameUnits_halts (h : Halt) : SameUnits s (t.halts h) ↔ SameUnits s t := by
  unfold State.halts
  split <;> simp

omit hev in
@[simp] theorem sameUnits_loadWindow (r : Reach) (a n die win off : Nat) :
    SameUnits s (t.loadWindow r a n die win off).2 ↔ SameUnits s t := by
  unfold State.loadWindow
  dsimp only
  have hs (x : Reach) : SameUnits s (if a < 2 ^ 42 then t.touch x.die (a / 2 ^ 20) else t) ↔ SameUnits s t := by split <;> simp
  split
  · simp only [sameUnits_when, sameUnits_chargeLine _ (show 2 < 3 by decide), hs, both_cases]
  · exact hs _
  · have h := (sameUnits_remote (s := s) (t := if a < 2 ^ 42 then t.touch (t.asker r).die (a / 2 ^ 20) else t) (t.asker r) die win off none).trans
      (hs _)
    split <;> rename_i e <;> rw [e] at h <;> simpa using h
  · split <;> simp

theorem sameUnits_loadLineE (r : Reach) (a n : Nat) : SameUnits s (State.loadLineE ev t r a n).2 ↔ SameUnits s t := by
  unfold State.loadLineE
  split
  · rename_i f _
    split
    · simp
    · have h := sameUnits_reach (s := s) (t := t) r a f 16 80 false
      split <;> rename_i s1 e <;> rw [e] at h <;> dsimp only at h
      · have h2 := sameUnits_homeLoad (s := s) (t := s1) hev f n
        split <;> rename_i e2 <;> rw [e2] at h2 <;> simpa [h] using h2
      · exact h
  · simp
  · simp
  · simp

theorem sameUnits_storeFormE (r : Reach) (sa : Bool) (a : Nat) (w : StoreForm) :
    SameUnits s (State.storeFormE ev t r sa a w).2 ↔ SameUnits s t := by
  unfold State.storeFormE
  split
  · rename_i f _
    split
    · simp
    · have h := sameUnits_reach (s := s) (t := t) r a f w.size 16 true
      split <;> rename_i s1 e <;> rw [e] at h <;> dsimp only at h
      · have h2 : SameUnits s (StoreForm.home ev (if a < 2 ^ 42 ∧ sa then s1.savedWrite (a / 2 ^ 20) else s1) f w).2 ↔ SameUnits s t := by
          rw [sameUnits_formHome hev, ← h]
          split <;> simp
        split <;> rename_i e2 <;> rw [e2] at h2 <;> simpa using h2
      · exact h
  · rename_i die win off _
    have h : SameUnits s ((if a < 2 ^ 42 then (t.touch r.die (a / 2 ^ 20)).markPeer a else t).remote (t.asker r) die win off (some (w.line off))).2
        ↔ SameUnits s t := by
      rw [sameUnits_remote]
      split <;> simp
    split <;> rename_i e <;> rw [e] at h <;> simpa using h
  · simp
  · simp
end Requests

/-! ### Events and performance counters -/

section Events
variable {s t : State}

@[simp] theorem sameUnits_putRing (a : Nat) (ws : List Nat) : SameUnits s (t.putRing a ws) ↔ SameUnits s t := by
  simp [State.putRing, State.storeLineE, sameUnits_storeFormE KeepsUnits.none]

theorem sameUnits_whenAlert (b : Bool) : SameUnits s (t.when b State.alert) ↔ SameUnits s t := by
  cases b <;> simp [State.when]

@[simp] theorem sameUnits_event (off : Nat) (f : Option Fld) (args : List Nat) : SameUnits s (t.event off f args) ↔ SameUnits s t := by
  unfold State.event
  dsimp only
  split
  · simp [F.PKG_EVQ_PTR_LOST]
  · rw [sameUnits_whenAlert, sameUnits_evqFset _ _ (by decide), sameUnits_evq, sameUnits_putRing]

theorem keepsUnits_unitEvent : KeepsUnits unitEvent := fun s u => by simp [unitEvent]

@[simp] theorem sameUnits_loadLine (r : Reach) (a n : Nat) : SameUnits s (t.loadLine r a n).2 ↔ SameUnits s t :=
  sameUnits_loadLineE keepsUnits_unitEvent r a n
@[simp] theorem sameUnits_storeLine (r : Reach) (sa : Bool) (a n v : Nat) : SameUnits s (t.storeLine r sa a n v).2 ↔ SameUnits s t :=
  sameUnits_storeFormE keepsUnits_unitEvent r sa a _
@[simp] theorem sameUnits_storeMask (r : Reach) (a v m : Nat) : SameUnits s (t.storeMask r a v m).2 ↔ SameUnits s t :=
  sameUnits_storeFormE keepsUnits_unitEvent r false a _

@[simp] theorem sameUnits_loadN (r : Reach) (k a n : Nat) : SameUnits s (State.loadN r k t a n).2 ↔ SameUnits s t := by
  induction k generalizing t a n with
  | zero => rfl
  | succ k ih =>
    simp only [State.loadN]
    split
    · rfl
    · have h := sameUnits_loadLine (s := s) (t := t) r a (min n (64 - a % 64))
      split <;> rename_i s1 e <;> rw [e] at h
      · rw [← h]
        have h2 := ih (t := s1) (a + min n (64 - a % 64)) (n - min n (64 - a % 64))
        split <;> rename_i s2 e2 <;> rw [e2] at h2 <;> exact h2
      · exact h

@[simp] theorem sameUnits_load (r : Reach) (a n : Nat) : SameUnits s (t.load r a n).2 ↔ SameUnits s t := sameUnits_loadN r _ a n

@[simp] theorem sameUnits_storeN (r : Reach) (sa : Bool) (k a n v : Nat) : SameUnits s (State.storeN r sa k t a n v).2 ↔ SameUnits s t := by
  induction k generalizing t a n v with
  | zero => rfl
  | succ k ih =>
    simp only [State.storeN]
    split
    · rfl
    · have h := sameUnits_storeLine (s := s) (t := t) r sa a (min n (64 - a % 64)) (v % 2 ^ (8 * min n (64 - a % 64)))
      split <;> rename_i s1 e <;> rw [e] at h
      · rw [← h]
        exact ih _ _ _
      · exact h

@[simp] theorem sameUnits_store (r : Reach) (a n v : Nat) : SameUnits s (t.store r a n v).2 ↔ SameUnits s t :=
  sameUnits_storeN r _ _ a n v
@[simp] theorem sameUnits_storeWords (r : Reach) (a : Nat) (ws : List Nat) : SameUnits s (t.storeWords r a ws) ↔ SameUnits s t :=
  sameUnits_store r a _ _

@[simp] theorem sameUnits_loadWords (r : Reach) (a k : Nat) : SameUnits s (t.loadWords r a k).2 ↔ SameUnits s t := by
  have h := sameUnits_load (s := s) (t := t) r a (8 * k)
  unfold State.loadWords
  split <;> rename_i e <;> rw [e] at h <;> exact h

theorem sameUnits_pmcWrap {e : Nat} (he : PmcReg e) : SameUnits s (t.pmcWrap e) ↔ SameUnits s t := by
  have h1 := SameUnits.fset_iff (s := s) (t := t) (f := F.PMC_TEVT_OVF) (v := 1) he.unit.2.2 he.unit.1
  unfold State.pmcWrap
  dsimp only
  rw [← h1]
  generalize t.fset e F.PMC_TEVT_OVF 1 = u
  have hf (u : State) : SameUnits s (u.fset R.PKG_PMC_CTL F.PKG_PMC_CTL_FREEZE 1) ↔ SameUnits s u :=
    SameUnits.fset_iff (by decide) (.inr (.inr (.inr (.inr (.inl rfl)))))
  split <;> split <;> simp [hf]

theorem sameUnits_pmcCount {e : Nat} (he : PmcReg e) (c : Option Nat) (code n : Nat) :
    SameUnits s (t.pmcCount e c code n) ↔ SameUnits s t := by
  have hc (v : Nat) : SameUnits s (t.fset (e + 8) F.PMC_TCNT_COUNT v) ↔ SameUnits s t :=
    SameUnits.fset_iff (by have := he.unit.2.2; omega) he.unit.2.1
  unfold State.pmcCount
  dsimp only
  repeat' split
  all_goals simp [sameUnits_pmcWrap he, hc]

@[simp] theorem sameUnits_pmcTile (u code n : Nat) : SameUnits s (t.pmcTile u code n) ↔ SameUnits s t := by
  unfold State.pmcTile
  split
  · rfl
  · exact SameUnits.step (sameUnits_range _ (fun k s hk => (sameUnits_pmcCount ⟨u, k, hk, .inl rfl⟩ _ _ _).mpr (.refl s)) t)

@[simp] theorem sameUnits_pmcHerd (h code n : Nat) : SameUnits s (t.pmcHerd h code n) ↔ SameUnits s t := by
  unfold State.pmcHerd
  split
  · rfl
  · exact SameUnits.step (sameUnits_range _ (fun k s hk => (sameUnits_pmcCount ⟨h, k, hk, .inr rfl⟩ _ _ _).mpr (.refl s)) t)
end Events

/-! ### Work that waits -/

theorem SameRest.chargeNow {s t : State} (h : SameRest s t) (p i n c : Nat) : SameRest s (t.chargeNow p i n c) := by
  have hi : SameRest s (t.issueTokens p i n c).1 := by
    unfold State.issueTokens State.setBucket State.fset
    dsimp only
    repeat' split
    all_goals exact h.trans rfl
  unfold State.chargeNow
  split <;> rename_i e <;> rw [e] at hi <;> exact hi.trans rfl

theorem SameRest.chargeAll {s t : State} (h : SameRest s t) (due : List (Nat × Nat × Nat)) : SameRest s (t.chargeAll due).1 := by
  have key : ∀ (l : List (Nat × Nat × Nat)) (t : State), SameRest s t →
      SameRest s (l.foldl (fun s d => s.chargeNow (d.1 / 4) (d.1 % 4) d.2.1 d.2.2) t) := by
    intro l
    induction l with
    | nil => intro t h; exact h
    | cons d l ih => intro t h; exact ih _ (h.chargeNow _ _ _ _)
  exact key due t h

/-- What work that cannot go on has asked for changes nothing but what units change. -/
theorem sameUnits_haltAt {s : State} (u : Nat) (h : Halt) : SameUnits s (s.haltAt u h) := by
  unfold State.haltAt
  repeat' split
  all_goals simp

theorem workIf_goes {s : State} {u : Nat} {ok : State → Bool} {f : State → State} (h : s.workGoes u ok f = true) :
    s.workIf u ok f = s.workDone u ok f := by simp [State.workIf, h]

/-- While the work of a unit waits, nothing of it has happened: tokens and requests apart, the package is as it was. -/
theorem workIf_waits {s : State} {u : Nat} {ok : State → Bool} {f : State → State} (h : s.workGoes u ok f = false) :
    SameRest { s with tickets := (s.workIf u ok f).tickets } (s.workIf u ok f) := by
  have hs (t : State) (h : SameRest s t) : SameRest { s with tickets := t.tickets } t := by
    have ht : t.tickets = s.tickets := by rw [h]
    rw [ht]
    exact h
  unfold State.workIf
  simp only [h, Bool.false_eq_true, if_false]
  split
  · exact rfl
  · split
    · exact hs _ (sameUnits_haltAt u _).1
    · have := (SameRest.chargeAll (rfl : SameRest s s) (s.workDue u ok f))
      unfold SameRest at this ⊢
      rw [this]

/-! ### What follows for a unit -/

/-- A register outside the unit registers reads as before. -/
theorem SameUnits.fget {s t : State} (h : SameUnits s t) {off : Nat} {f : Fld} (ho : off % 8 = 0) (hf : f.lo < 64)
    (hu : ¬ unitReg off) : t.fget off f = s.fget off f := by
  simp only [State.fget, Map.get, h.2 _ (by rw [keyReg_regKey ho hf]; exact hu)]

theorem SameUnits.tile {s t : State} (h : SameUnits s t) (u : Nat) : t.tile u = s.tile u := by rw [h.1]; rfl
theorem SameUnits.herd {s t : State} (h : SameUnits s t) (u : Nat) : t.herd u = s.herd u := by rw [h.1]; rfl
theorem SameUnits.core {s t : State} (h : SameUnits s t) (u : Nat) : t.core u = s.core u := by rw [h.1]; rfl
theorem SameUnits.part {s t : State} (h : SameUnits s t) (u : Nat) : t.part u = s.part u := by rw [h.1]; rfl
theorem SameUnits.slot? {s t : State} (h : SameUnits s t) (p k : Nat) : t.slot? p k = s.slot? p k := by rw [h.1]; rfl
theorem SameUnits.clk {s t : State} (h : SameUnits s t) : t.clk = s.clk := by rw [h.1]
theorem SameUnits.rsp {s t : State} (h : SameUnits s t) : t.rsp = s.rsp := by rw [h.1]
theorem SameUnits.dieWd {s t : State} (h : SameUnits s t) : t.dieWd = s.dieWd := by rw [h.1]
theorem SameUnits.resetsDue {s t : State} (h : SameUnits s t) : t.resetsDue = s.resetsDue := by rw [h.1]
theorem SameUnits.doms {s t : State} (h : SameUnits s t) : t.doms = s.doms := by rw [h.1]
theorem SameUnits.pending {s t : State} (h : SameUnits s t) : t.pending = s.pending := by rw [h.1]

end Sys2Proof.Machine
end

