-- ==== Sys2Proof/Tests/Slice0.lean ====
section
/-!
SUPPORT. Slice0.lean: tests. Well-formed and ill-formed commands, the worked examples of the spec, and for each obligation a witness:
concrete states and operands that meet the hypotheses of each of its clauses together.
-/

set_option maxRecDepth 100000
set_option Elab.async false

namespace Sys2Proof.Tests

open Sys2Proof.Machine

/-! ### States and operands for the tests -/

/-- No WAIT or POST. -/
def wNo : Cred := ⟨false, false, .dma⟩
/-- Operands of a small vector instruction. -/
def wVec : VecOps := ⟨2, 1, .bf16, false, 0, false, 0, false, 3, ⟨false, false, false, 1⟩, ⟨false, false, false, 2⟩, ⟨false, false, false, 0⟩, false, false⟩
/-- Operands of a small reduction over the whole area. -/
def wRed : RedOps := ⟨2, 1, .bf16, false, 0, false, 0, false, .all, 3, 1, 0, 0⟩
/-- Operands of a conversion between registers. -/
def wCvt : CvtOps := ⟨wNo, wNo, .bf16, .fp16, false, 1, false, 3, 2, 1, false, 0, 0, false, 0, false⟩
/-- Operands of a move. -/
def wMov : MovOps := ⟨wNo, wNo, 0, 0, 0, .plain, false, false⟩
/-- Operands of a mark. -/
def wSumm : SummOps := ⟨4, 5, false, false, .lead, .bf16, 7, 1, 1, false, 0, 0, 1⟩
/-- Operands of a collective. -/
def wCol : ColOps := ⟨wNo, 0, 0, 0, 0, 0⟩
/-- Operands of a product. -/
def wMmul : MmulOps := ⟨wNo, wNo, .bf16, 0, .zero, 0, false, 0, false, .none, 0, .bf16, false, false, false, 0, 0, false⟩
/-- A command record of a context. -/
def wCmd (c : Nat) : CmdRec := ⟨c, 9, 0, 0, 0, 0, 0, 0, 0, 0⟩
/-- What start-up finds when nothing fails. -/
def wStart : StartIn := ⟨some 2, 0, 0, 0, 0, false, false⟩
/-- An Afraeri message. -/
def wMsg : AfrMsg := ⟨0, 0, 0, 0, 0, 0, 0, 0, []⟩
/-- An empty part of a collective. -/
def wPart : CollPart := { pairs := [], status := [], recs := [], back := false }
/-- An Ethernet frame of 64 bytes. -/
def wEth : EthFrame := { good := true, bytes := 64, ce := false, pfc := false, ptpEvent := false, roce := false, qpn := 0 }
/-- The value of a load or store that succeeded. -/
def wOk : Ld → Nat
  | .ok v => v
  | _ => 0
/-- A resident context 1. -/
def wSlot : Slot := { ctx := 1, job := 7, slice := 4, saveTm := false, nextStep := 0, seed := 0, stepsLeft := 10, entry := 0x1000, save := 0x100000 }
/-- Partition 0 has herd 0, and runs a context in slot 0. -/
def wWith (x : Slot) : State :=
  { State.reset.fset (R.SCH_PART 0) F.SCH_PART_HERDS 1 with
    parts := [(0, { slots := [(0, x)], run := some 0 })],
    ctxs := [(1, { part := 0, slot := some 0, ready := false, job := 7 })] }
/-- It runs context 1. -/
def wBase : State := wWith wSlot
/-- A segment whose code is given. -/
def wRunOf (l : List TIns) : Run where
  img := { segId := 5, budget := 1000, fit := true, descs := [], cur := [], views := [{ base := 0, pitch := 64, rows := 1, cols := 2 }], code := l.map tileEncode }
  next := [0, 0, 0, 0, 0]
  vbases := []
  pslots := []
  creds := List.replicate 12 0
  finished := 0
  dma := []
  array := []
  vector := []
  store := []
  start := 0
  bounds := 0
  overran := false
  overBudget := false
  numctl := 0
  members := [0]
  stats := []
  ctx := 1
  lastIdx := 0
/-- Range 0 is mapped to partition 0, in the stack tier. -/
def wMap (s : State) : State := { s with rangeMap := [(0, 2 ^ 63)] }
/-- Range 0 is mapped to partition 0, in the capacity tier. -/
def wMapC (s : State) : State := { s with rangeMap := [(0, newEntry 1 0 0 false 0 0)] }
/-- A descriptor of two elements at 0x1000. -/
def wDesc : Desc := { n0 := 2, base := 0x1000, s1 := 1, s2 := 1, s3 := 1 }
/-- A segment whose descriptor 0 is given. -/
def wRunTen (d : Desc) (l : List TIns) : Run := { wRunOf l with img := { (wRunOf l).img with descs := [d], cur := [none] } }
/-- Tile 0 runs it. -/
def wRun (r : Run) : State := wBase.modTile 0 fun y => { y with run := some r }
/-- Words at an address of a memory. -/
def wWords (a : Nat) (ws : List Nat) (m : Mem) : Mem :=
  (List.range (8 * ws.length)).foldl (fun m i => m.wr (a + i) (ws.getD (i / 8) 0 / 256 ^ (i % 8) % 256)) m
/-- A task record with no descriptor, no dependences and no inputs. -/
def wTask (kind herds : Nat) : List Nat := [kind * 2 ^ 60, 0, herds * 2 ^ 59, 0xFFFFFFFF * 2 ^ 32, 0, 0, 0, 0]
/-- Its step is in flight. -/
def wStep (st : StepSt) : State := wWith { wSlot with step := { st with live := true } }
/-- A context whose next step is due. -/
def wDue : Slot := wSlot.fset R.SCH_TASK_COUNT F.SCH_TASK_COUNT_COUNT 1
/-- The context of a step that has a live gradient group. -/
def wGath : Slot := { wSlot with step := { live8 := [1], live := true } }
/-- A backward task, alone in its item, whose prefetch is due. -/
def wPre : State :=
  wWith { wSlot with step := { live := true, tasks := [(wTask 2 1).set 1 0x1000], item := some (true, 0) },
                     pipe := [(regKey R.SCH_PIPE_CTL F.SCH_PIPE_CTL_PF_TICKS, 1)] }
/-- At a boundary, with the actions of R55 up to k taken. -/
def wAt (k : Nat) (s : State) : State := { s with clk := { s.clk with tb := 3 * 65536, phase := k } }
/-- The event ring is full and its count of lost events has saturated, so that an event changes nothing. -/
def wFull (s : State) : State :=
  ({ s with evqLost := true }.fset R.PKG_EVQ_PTR F.PKG_EVQ_PTR_HEAD 1).fset R.PKG_EVQ_PTR F.PKG_EVQ_PTR_LOST (2 ^ F.PKG_EVQ_PTR_LOST.w - 1)
/-- Afraeri port 0 is enabled and up, and remote requests of partition 0 are permitted. -/
def wAfr : State :=
  ((((((wMap State.reset).fset (R.AFR_PORT_STATUS 0) F.AFR_PORT_STATUS_UP 1).fset (R.AFR_PORT_CTL 0) F.AFR_PORT_CTL_EN 1).fset
    (R.AFR_PORT_CTL 0) F.AFR_PORT_CTL_LOSS_STOT 0).fset (R.AFR_ID 0) F.AFR_ID_EPOCH 1).fset (R.AFR_RPERM 0 0) F.AFR_RPERM_EN 1).fset
    (R.AFR_RPERM 0 0) F.AFR_RPERM_WR 1
/-- A message of a type with its data, of epoch 1, for every package. -/
def wAfrMsg (vc typ : Nat) (data : List Nat) : AfrMsg := ⟨vc, typ, 0xFFFF, 7, 1, data.length, 3, 0, data⟩
/-- A context record that holds reset values, in a memory. -/
def wRecord (a : Nat) : Mem :=
  (ctxRegs.filter fun e => !e.2.wordOk 0).foldl (fun m e => wWords (a + recordOff e.1) [({ wSlot with regs := [] } : Slot).word e.1 e.2] m) []
/-- An instruction in flight that holds what it is to write. -/
def wHeld : Flight := { idx := 0, cls := 5, op := 1, posts := [(.dma, 1)], held := some [[]] }
/-- A remote read of a core that has been sent over port 0. -/
def wReq : RReq := { write := false, ag := 5, win := 0, off := 0, part := none, port := some 0 }
/-- A collective under way at its engine. -/
def wColl : Coll := { op := 0, rop := 0, group := 0, sem := 3, part := 0, ctx := 1, tile := 0, sdesc := wDesc, ddesc := wDesc, started := true }
/-- A migration of range 0 to a capacity frame. -/
def wMig : Mig := { req := ⟨3, 0, { tier := 1 }, none⟩, phase := 2, tier := 1, frame := 5 }
/-- Range 0 lies in package 1, through window 0 of die 0, which its owner may use and which port 0 leads to. -/
def wPeer (s : State) : State :=
  ({ s with rangeMap := [(0, newEntry 2 0 0 false 0 0)] }.fset (R.AFR_WIN 0 0) F.AFR_WIN_ENTRY (2 ^ 63 + 2 ^ 62 + 2 ^ 55 + 1)).fset
    (R.AFR_ROUTE 0 0) F.AFR_ROUTE_ENTRIES 0x8000
/-- A line is busy with a GET, and a LINE_HOME comes for it. -/
def wHomeBusy : State :=
  { State.reset with busy := [(0x1000000007, { cur := some { kind := .getRead, ag := 7 }, snoops := [5, 6] })], msgs := [{ op := .lineHome, ag := 5, line := 0x1000000007 }] }
/-- A line is busy with a GET that has been answered, and its GOT comes. -/
def wHomeGot : State :=
  { State.reset with busy := [(0x1000000007, { cur := some { kind := .getRead, ag := 7 }, got := true, answered := true })], msgs := [{ op := .got, ag := 7, line := 0x1000000007 }] }
/-- Partition 0 has two ranges and a reserved frame, and a command in its ring. -/
def wMapped : State :=
  { wBase.fset (R.SCH_CMD_PTR 0) F.SCH_CMD_PTR_TAIL 3 with
    rangeMap := [(5, newEntry 0 7 0 false 0 0), (6, newEntry 1 9 0 false 0 0)], reserved := [(0x400009, 3)] }
theorem wSearch {p : Pool} {f : Nat → Bool} (n i : Nat) (h : ∀ j, f (p.key j) = true) :
    p.search f (n + 1) i = some (p.key (i % p.size)) := by simp [Pool.search, h]
def wReady : State := State.reset.fset (R.SCH_CMD_PTR 0) F.SCH_CMD_PTR_TAIL 3
def wMapRec : CmdRec := ⟨0, 9, 0, 5, 16, 0, 0, 0, 0, 0⟩
theorem wCapFree (j : Nat) : wReady.freeKey (Pool.cap.key j) = true := by
  have hk : 0x800000 ≤ Pool.cap.key j := by simp only [Pool.key, capKey]; omega
  have hf : wReady.fget R.CFG_MEM_FAIL F.CFG_MEM_FAIL_BUSES = 0 := by decide +kernel
  have hr : wReady.reserved = [] ∧ wReady.bad = [] ∧ wReady.rangeMap = [] ∧ wReady.migs = [] ∧ wReady.leaving = [] := ⟨rfl, rfl, rfl, rfl, rfl⟩
  simp [State.freeKey, State.held, State.frameOut, hf, hr, Nat.not_lt.mpr hk, Map.get, Map.find?, bit, bits]
theorem wMapChk : (wReady.mapChk wMapRec).status = 0 := by
  have h1 : wReady.mapPool wMapRec (wReady.affDie (recAff wMapRec)) = some .cap := by decide +kernel
  have h2 : recSpan wMapRec = [5] := by decide +kernel
  have h3 : (wReady.mapSpan wMapRec).isSome = true := by
    simp [State.mapSpan, h2, State.mapAll, State.mapOne, h1, State.takeFrame, Pool.size, wSearch _ _ wCapFree]
  have h4 : (wordsOk wMapRec [spanMask, mask 0 9] && wMapRec.ctx == 0 && (recAff wMapRec) != 3 && (!(recPin wMapRec) || decide ((recTier wMapRec) < 2)) && recSpanOk wMapRec && wReady.spanFree wMapRec && wReady.quotaOk (recPart wMapRec) (recCount wMapRec)) = true := by decide +kernel
  have h5 : recPin wMapRec = false := by decide +kernel
  simp only [Bool.and_eq_true] at h4
  simp [State.mapChk, Chk.status, h2, h3, h4, h5]
/-- A pair with its first component known. -/
theorem wPair {α β : Type} {a : α × β} {x : α} (h : a.1 = x) : a = (x, a.2) := by cases a; cases h; rfl
/-- The lines of a context record at 0x10000 that hold more than zeros. -/
def wLines : Map CLine :=
  [((2 ^ 37 + 1088) * 128, ⟨.o, 0x1000_0800_1C0D_000A * 2 ^ 320 + 0x0001_0100_0800_1001⟩),
    ((2 ^ 37 + 1152) * 128, ⟨.o, 0x1_0003_2010⟩), ((2 ^ 37 + 1220) * 128, ⟨.o, 0x78 * 2 ^ 256⟩)]
/-- Partition 0 knows a context 1 that is swapped out with its record, which a cache holds dirty; its ring holds a command. -/
def wOut : State :=
  { State.reset with
    regs := [(2112, 1), (2160, 65535), (67108864, 1), (67109152, 3)]
    ctxs := [(1, { part := 0, slot := none, ready := true, job := 7, save := 0x10000, kept := some wSlot })]
    rangeMap := [(0, newEntry 1 0 0 false 0 0)]
    cache := wLines
    evqLost := true }
theorem wEnter1 : (wOut.enterSlot 0 0 (wCmd 1).ctx).1 = 0 := by decide +kernel
theorem wEnter : wOut.enterSlot 0 0 (wCmd 1).ctx = (0, (wOut.enterSlot 0 0 (wCmd 1).ctx).2) := wPair wEnter1

/-! ### Well-formed and ill-formed commands -/

/-- Operands of a vector instruction of two sources. -/
def wVecTwo : VecOps := { wVec with c := ⟨false, false, false, 0⟩ }
/-- The header of a record. -/
def wHdr : RecHdr := ⟨0, 0, 0, 0, 0, 0, 0, 0, 0⟩
/-- Well-formed commands, part 1. -/
theorem test_wfGood_0 : (List.all
    ([.registerWrite .mgmt 0 0 0, .tickBoundary, .periodLog2Write .mgmt 0, .ppsOutEnWrite .mgmt 0, .timeStep .mgmt 0, .ppsOutPulse,
      .ppsPulseEnd, .ppsInEdge, .segOverrun 0, .segHang 0, .heartbeatExpiry 0, .herdWatchdog 0, .dieWatchdog 0,
      .memRequestTimeout 0 0, .ucieTimeout 0 0 0 0, .afrReplayTimeout 0, .configReadTimeout, .heartbeat .mgmt 0 0, .tick 0 0 0 0,
      .markerLoss, .numctlWrite .mgmt 0 0, .resume .mgmt 0, .nop 0 0, .vbase 0 0 0 0, .trap 0 0 0, .ld 0 0 wMov, .st 0 0 wMov,
      .strec 0 0 wMov, .hld 0 0 wMov, .hst 0 0 wMov, .mmul 0 0 wMmul, .mspan 0 0 ⟨0, 0, 0, 0, 0⟩,
      .mwin 0 0 ⟨0, 0, 0, .none, 0, false, .bf16⟩, .add 0 0 wVecTwo, .mul 0 0 wVecTwo, .fma 0 0 wVec, .vecMin 0 0 wVecTwo,
      .vecMax 0 0 wVecTwo, .sel 0 0 wVec, .iadd 0 0 ({ wVecTwo with ty := .i16 }), .imin 0 0 ({ wVecTwo with ty := .i16 }),
      .imax 0 0 ({ wVecTwo with ty := .i16 }), .cmp 0 0 .eq wVecTwo, .icmp 0 0 .eq ({ wVecTwo with ty := .i16 }),
      .mand 0 0 wVecTwo, .mor 0 0 wVecTwo, .mxor 0 0 wVecTwo, .mandn 0 0 wVecTwo,
      .mnot 0 0 ({ wVecTwo with b := ⟨false, false, false, 0⟩ }), .padd 0 0 wVecTwo, .cvt 0 0 wCvt, .sum 0 0 wRed, .sumsq 0 0 wRed,
      .redMax 0 0 wRed, .redMin 0 0 wRed, .maxabs 0 0 wRed, .argmax 0 0 wRed, .popc 0 0 wRed,
      .permc 0 0 ({ wRed with axis := .row }), .permr 0 0 ({ wRed with axis := .row })] : List Instr)
    fun i => instrWf i) = true := by decide +kernel
/-- Well-formed commands, part 2. -/
theorem test_wfGood_1 : (List.all
    ([.cwait 0 0 .array ⟨0, 0, 0, 0⟩, .cpost 0 0 .array ⟨0, 0, 0, 0⟩, .semwait 0 0 .array 0 1, .semsig 0 0 .array 0 1,
      .semSignalApply 0, .semGrant 0 0, .summ 0 0 wSumm, .flagclr 0 0 0, .allreduce 0 0 wCol, .reduceScatter 0 0 wCol,
      .allgather 0 0 wCol, .instrComplete 0 .array 0 0, .summPop .mgmt 0, .sregWrite .mgmt 0 0 0, .segqPush .mgmt 0 0,
      .segmentFetch 0, .segmentStart 0, .segmentRetire 0, .semWrite .mgmt 0 0 0, .semAdd .mgmt 0 0 0, .gangWrite .mgmt 0 0,
      .gangWidthWrite .mgmt 0 0, .gangApply 0, .stepRelease 0 0, .itemDispatch 0 0, .taskDispatch 0 0 0, .prefetchRequest 0 0 0,
      .gatherDispatch 0 0, .updDispatch 0 0, .taskPop .mgmt 0, .taskDone .mgmt 0 0, .stepComplete 0 0,
      .exchangeResult 0 0 ⟨0, 0, 0, 0, []⟩, .exchangeTimeout 0 0, .commitFlip 0 0, .rescalePass 0 0, .rescalePassDone 0 0,
      .stepAbort 0 0, .verPin .mgmt 0 0, .verUnpin .mgmt 0 0, .lrWrite .mgmt 0 0 0, .rootKept .mgmt 0, .map 0 (wCmd 1),
      .unmap 0 (wCmd 1), .setattr 0 (wCmd 1), .move 0 (wCmd 1), .reserve 0 (wCmd 1), .release 0 (wCmd 1), .peer 0 (wCmd 1),
      .placementEpoch, .savedActDemote 0, .migrationStart 0 0, .rmcUpdateAck 0 0, .rmcMissFill 0 0, .migrationPrecopyEnd 0 0,
      .migrationRoundEnd 0 0, .migrationFinalEnd 0 0, .migrationUnblock 0 0, .frameRetire 0 0, .regulatorIssue 0 0 0 0] : List Instr)
    fun i => instrWf i) = true := by decide +kernel
/-- Well-formed commands, part 3. -/
theorem test_wfGood_2 : (List.all
    ([.get 0 0 0 0 0, .claim ⟨0, 0, 0⟩ 0, .peek ⟨0, 0, 0⟩ 0, .putFull ⟨0, 0, 0⟩ 0 0 0, .putMasked ⟨0, 0, 0⟩ 0 0 0 0, .merge ⟨0, 0, 0⟩ 0 0 0 0, .drop 0 0 0 0,
      .send 0 0 0 0 0, .kill 0 0 0, .snpDone 0 0 0, .done 0 0, .got 0 0, .redo 0 0, .dropOk 0 0 0, .fail 0 0, .line 0 0 0 0 0,
      .lineHome 0 0 0, .busyRequestServe 0, .channelRead ⟨0, 3⟩, .channelWrite ⟨0, 3⟩ 0, .scrubRead 0, .refresh 0 0, .refreshSlotEnd,
      .refLockWrite .mgmt 0 0, .refLockSuspend 0, .refLockResume 0, .rowRemap 0 0 0 0, .maintWrite .mgmt 0 0,
      .readStatus .mgmt 0 0, .fuseRow .mgmt 0 0, .fuseCol .mgmt 0 0, .ucieModuleRemove 0 0, .ucieHashRespread 0, .flitReceive 0 0,
      .replayStart 0, .nakRepeat 0, .linkLoss 0, .hello 0 wMsg, .portRetrain .mgmt 0 0, .trunkChange 0, .rd 0 wMsg, .wrLine 0 wMsg,
      .wrMask 0 wMsg, .rdData 0 wMsg, .wrAck 0 wMsg, .nack 0 wMsg, .remoteTimeout 0 0, .collData 0 wMsg wPart,
      .collNack 0 wMsg, .collTimeout 0 0, .collectiveEnd 0 0, .stot 0 wMsg, .stotCmd .mgmt 0 0, .epochInc .mgmt 0 0,
      .epochIncrement 0, .ethFrameRx 0 wEth, .roceSend 0 0 [], .roceWrite 0 0 0 [],
      .roceRead 0 0 0 0, .cnpRx 0 0] : List Instr)
    fun i => instrWf i) = true := by decide +kernel
/-- Well-formed commands, part 4. -/
theorem test_wfGood_3 : (List.all
    ([.rateRecover 0 0, .roceRetransmit 0 0 0, .pcieInbound 0 false 0 [], .shardReadIssue 0, .nvmeCompletion 0 0 0 [],
      .shardReadTimeout 0 0, .recordStart 0 wHdr, .sampleFinish 0 0 [], .sampleBudget 0 0, .sampleHardLimit 0 0, .batchClose 0,
      .batchReady 0, .streamEnWrite .mgmt 0 0, .cmdTailWrite .mgmt 0 0, .cmdNop 0 (wCmd 1), .jobStart 0 (wCmd 1),
      .jobEnd 0 (wCmd 1), .run 0 (wCmd 1), .swapIn 0 (wCmd 1), .swapOut 0 (wCmd 1), .ready 0 (wCmd 1), .abort 0 (wCmd 1),
      .partSet 0 (wCmd 1), .partSetApply 0, .groupSet 0 (wCmd 1), .contextSwitch 0, .contextSaveDone 0, .contextRestoreDone 0,
      .contextStart 0, .lockDeferExpiry 0 0, .jobFault, .fltReset .mgmt 0, .fence 0 0, .drainEnd 0 0, .resetEnd 0 0,
      .domainRelease 0 0, .tileFail 0 0, .oosClear .mgmt 0, .rejoin .mgmt 0, .regroupExpiry 0 0, .snapshotCapture 0 0,
      .snapshotStagingDone 0 0, .snapshotAnchor 0 0, .snapshot 0 (wCmd 1), .snapCancel 0 (wCmd 1), .restore 0 (wCmd 1),
      .refill 0 (wCmd 1), .record 0 (wCmd 1), .verify 0 (wCmd 1), .startup wStart, .lifetimeWrite 0, .guardBlock, .guardRelease,
      .flashErase .mgmt 0, .flashProgram .mgmt 0, .flashRead .mgmt 0, .programOwner .mgmt 0, .revoke .mgmt 0, .advanceSvn .mgmt 0,
      .provision .mgmt 0] : List Instr)
    fun i => instrWf i) = true := by decide +kernel
/-- Well-formed commands, part 5. -/
theorem test_wfGood_4 : (List.all
    ([.attest .mgmt 0, .coreRelease .mgmt 0 0, .pmcOverflow 0 0, .sampleConsume .mgmt 0 0, .bwWindowLatch,
      .lifetimeSecond ⟨0, 0, 0, 0, 0⟩, .logRecord, .flush .mgmt 0, .resetLAssert 0, .resetLDeassert, .pwrOkFall, .droopEvent 0 0,
      .powerCapUpdate 0, .powerBrake, .brakeRecovery, .thermtrip 0, .mgmtRead64 0, .mgmtRead32 0, .mgmtWrite64 0 0,
      .mgmtWrite32 0 0, .regacc false 0 0, .bypass, .idcode, .samplePreload [], .extest, .extestPulse, .extestTrain,
      .registerRead .mgmt 0 0, .budgetOver 0, .ethLinkDown 0, .ethLinkUp 0, .railFault 0, .railFaultClear 0, .droopEventEnd 0,
      .pwrOkRise, .pwrbrkLRise, .fuseCommandDone 0, .repairCommandDone 0 0, .flashCommandDone 0, .attestReportDone,
      .commandCompletion 0 0 [], .snapshotReadDone 0 0, .setdasa 0, .entdaa 0] : List Instr)
    fun i => instrWf i) = true := by decide +kernel
/-- Commands with one operand out of its range, part 1. -/
theorem test_wfBad_0 : (List.all
    ([.registerWrite (.server 96 false) 0 0 0, .registerWrite .mgmt (2 ^ 32) 0 0, .registerWrite .mgmt 0 65 0,
      .registerWrite .mgmt 0 0 (2 ^ 64), .periodLog2Write (.server 96 false) 0, .periodLog2Write .mgmt (2 ^ 64),
      .ppsOutEnWrite (.server 96 false) 0, .ppsOutEnWrite .mgmt 2, .timeStep (.server 96 false) 0, .timeStep .mgmt (2 ^ 64),
      .segOverrun 192, .segHang 192, .heartbeatExpiry 32, .herdWatchdog 16, .dieWatchdog 2, .memRequestTimeout 1024 0,
      .memRequestTimeout 0 (2 ^ 50), .ucieTimeout 2 0 0 0, .ucieTimeout 0 28 0 0, .ucieTimeout 0 0 1024 0,
      .ucieTimeout 0 0 0 (2 ^ 50), .afrReplayTimeout 36, .heartbeat (.server 96 false) 0 0, .heartbeat .mgmt 16 0,
      .heartbeat .mgmt 0 (2 ^ 64), .tick 36 0 0 0, .tick 0 (2 ^ 48) 0 0, .tick 0 0 (2 ^ 64) 0, .tick 0 0 0 (2 ^ 64),
      .numctlWrite (.server 96 false) 0 0, .numctlWrite .mgmt 192 0, .numctlWrite .mgmt 0 (2 ^ 64), .resume (.server 96 false) 0,
      .resume .mgmt 8, .nop 192 0, .nop 0 4096, .vbase 192 0 0 0, .vbase 0 4096 0 0, .vbase 0 0 64 0, .vbase 0 0 0 16,
      .trap 192 0 0, .trap 0 4096 0, .trap 0 0 (2 ^ 32), .ld 192 0 wMov, .ld 0 4096 wMov, .ld 0 0 { wMov with view := 64 },
      .st 192 0 wMov, .st 0 4096 wMov, .st 0 0 { wMov with view := 64 }, .strec 192 0 wMov, .strec 0 4096 wMov,
      .strec 0 0 { wMov with view := 64 }, .hld 192 0 wMov, .hld 0 4096 wMov, .hld 0 0 { wMov with view := 64 },
      .hld 0 0 { wMov with dslot := 1 }, .hst 192 0 wMov, .hst 0 4096 wMov, .hst 0 0 { wMov with view := 64 },
      .hst 0 0 { wMov with dslot := 1 }] : List Instr)
    fun i => !instrWf i) = true := by decide +kernel
/-- Commands with one operand out of its range, part 2. -/
theorem test_wfBad_1 : (List.all
    ([.mmul 192 0 wMmul, .mmul 0 4096 wMmul, .mmul 0 0 { wMmul with set := 2 }, .mspan 192 0 ⟨0, 0, 0, 0, 0⟩,
      .mspan 0 4096 ⟨0, 0, 0, 0, 0⟩, .mspan 0 0 ⟨8, 0, 0, 0, 0⟩, .mwin 192 0 ⟨0, 0, 0, .none, 0, false, .bf16⟩,
      .mwin 0 4096 ⟨0, 0, 0, .none, 0, false, .bf16⟩, .mwin 0 0 ⟨8, 0, 0, .none, 0, false, .bf16⟩, .add 192 0 wVecTwo,
      .add 0 4096 wVecTwo, .add 0 0 { wVecTwo with vl := 0 }, .mul 192 0 wVecTwo, .mul 0 4096 wVecTwo,
      .mul 0 0 { wVecTwo with vl := 0 }, .fma 192 0 wVec, .fma 0 4096 wVec, .fma 0 0 { wVecTwo with vl := 0 },
      .vecMin 192 0 wVecTwo, .vecMin 0 4096 wVecTwo, .vecMin 0 0 { wVecTwo with vl := 0 }, .vecMax 192 0 wVecTwo,
      .vecMax 0 4096 wVecTwo, .vecMax 0 0 { wVecTwo with vl := 0 }, .sel 192 0 wVec, .sel 0 4096 wVec,
      .sel 0 0 { wVecTwo with vl := 0 }, .iadd 192 0 ({ wVecTwo with ty := .i16 }), .iadd 0 4096 ({ wVecTwo with ty := .i16 }),
      .iadd 0 0 { wVecTwo with vl := 0 }, .imin 192 0 ({ wVecTwo with ty := .i16 }), .imin 0 4096 ({ wVecTwo with ty := .i16 }),
      .imin 0 0 { wVecTwo with vl := 0 }, .imax 192 0 ({ wVecTwo with ty := .i16 }), .imax 0 4096 ({ wVecTwo with ty := .i16 }),
      .imax 0 0 { wVecTwo with vl := 0 }, .cmp 192 0 .eq wVecTwo, .cmp 0 4096 .eq wVecTwo, .cmp 0 0 .eq { wVecTwo with vl := 0 },
      .icmp 192 0 .eq ({ wVecTwo with ty := .i16 }), .icmp 0 4096 .eq ({ wVecTwo with ty := .i16 }),
      .icmp 0 0 .eq { wVecTwo with vl := 0 }, .mand 192 0 wVecTwo, .mand 0 4096 wVecTwo, .mand 0 0 { wVecTwo with vl := 0 },
      .mor 192 0 wVecTwo, .mor 0 4096 wVecTwo, .mor 0 0 { wVecTwo with vl := 0 }, .mxor 192 0 wVecTwo, .mxor 0 4096 wVecTwo,
      .mxor 0 0 { wVecTwo with vl := 0 }, .mandn 192 0 wVecTwo, .mandn 0 4096 wVecTwo, .mandn 0 0 { wVecTwo with vl := 0 },
      .mnot 192 0 ({ wVecTwo with b := ⟨false, false, false, 0⟩ }), .mnot 0 4096 ({ wVecTwo with b := ⟨false, false, false, 0⟩ }),
      .mnot 0 0 { wVecTwo with vl := 0 }, .padd 192 0 wVecTwo, .padd 0 4096 wVecTwo, .padd 0 0 { wVecTwo with vl := 0 }] : List Instr)
    fun i => !instrWf i) = true := by decide +kernel
/-- Commands with one operand out of its range, part 3. -/
theorem test_wfBad_2 : (List.all
    ([.cvt 192 0 wCvt, .cvt 0 4096 wCvt, .cvt 0 0 { wCvt with org := 8 }, .sum 192 0 wRed, .sum 0 4096 wRed,
      .sum 0 0 { wRed with vr := 17 }, .sumsq 192 0 wRed, .sumsq 0 4096 wRed, .sumsq 0 0 { wRed with vr := 17 },
      .redMax 192 0 wRed, .redMax 0 4096 wRed, .redMax 0 0 { wRed with vr := 17 }, .redMin 192 0 wRed, .redMin 0 4096 wRed,
      .redMin 0 0 { wRed with vr := 17 }, .maxabs 192 0 wRed, .maxabs 0 4096 wRed, .maxabs 0 0 { wRed with vr := 17 },
      .argmax 192 0 wRed, .argmax 0 4096 wRed, .argmax 0 0 { wRed with vr := 17 }, .popc 192 0 wRed, .popc 0 4096 wRed,
      .popc 0 0 { wRed with vr := 17 }, .permc 192 0 ({ wRed with axis := .row }), .permc 0 4096 ({ wRed with axis := .row }),
      .permc 0 0 { wRed with vr := 17 }, .permr 192 0 ({ wRed with axis := .row }), .permr 0 4096 ({ wRed with axis := .row }),
      .permr 0 0 { wRed with vr := 17 }, .cwait 192 0 .array ⟨0, 0, 0, 0⟩, .cwait 0 4096 .array ⟨0, 0, 0, 0⟩,
      .cwait 0 0 .array ⟨32, 0, 0, 0⟩, .cpost 192 0 .array ⟨0, 0, 0, 0⟩, .cpost 0 4096 .array ⟨0, 0, 0, 0⟩,
      .cpost 0 0 .array ⟨32, 0, 0, 0⟩, .semwait 192 0 .array 0 1, .semwait 0 4096 .array 0 1, .semwait 0 0 .array 256 1,
      .semwait 0 0 .array 0 65536, .semwait 0 0 .array 0 0, .semsig 192 0 .array 0 1, .semsig 0 4096 .array 0 1,
      .semsig 0 0 .array 256 1, .semsig 0 0 .array 0 65536, .semsig 0 0 .array 0 0, .semSignalApply 8, .semGrant 8 0,
      .semGrant 0 256, .summ 192 0 wSumm, .summ 0 4096 wSumm, .summ 0 0 { wSumm with kind := 5 }, .flagclr 192 0 0,
      .flagclr 0 4096 0, .flagclr 0 0 32, .allreduce 192 0 wCol, .allreduce 0 4096 wCol, .allreduce 0 0 { wCol with rop := 16 },
      .reduceScatter 192 0 wCol, .reduceScatter 0 4096 wCol] : List Instr)
    fun i => !instrWf i) = true := by decide +kernel
/-- Commands with one operand out of its range, part 4. -/
theorem test_wfBad_3 : (List.all
    ([.reduceScatter 0 0 { wCol with rop := 16 }, .allgather 192 0 wCol, .allgather 0 4096 wCol,
      .allgather 0 0 { wCol with rop := 16 }, .instrComplete 192 .array 0 0, .instrComplete 0 .array (2 ^ 64) 0,
      .instrComplete 0 .array 0 (2 ^ 64), .summPop (.server 96 false) 0, .summPop .mgmt 192, .sregWrite (.server 96 false) 0 0 0,
      .sregWrite .mgmt 192 0 0, .sregWrite .mgmt 0 16 0, .sregWrite .mgmt 0 0 (2 ^ 64), .segqPush (.server 96 false) 0 0,
      .segqPush .mgmt 192 0, .segqPush .mgmt 0 (2 ^ 64), .segmentFetch 192, .segmentStart 192, .segmentRetire 192,
      .semWrite (.server 96 false) 0 0 0, .semWrite .mgmt 8 0 0, .semWrite .mgmt 0 256 0, .semWrite .mgmt 0 0 (2 ^ 64),
      .semAdd (.server 96 false) 0 0 0, .semAdd .mgmt 8 0 0, .semAdd .mgmt 0 256 0, .semAdd .mgmt 0 0 (2 ^ 64),
      .gangWrite (.server 96 false) 0 0, .gangWrite .mgmt 16 0, .gangWrite .mgmt 0 (2 ^ 64),
      .gangWidthWrite (.server 96 false) 0 0, .gangWidthWrite .mgmt 16 0, .gangWidthWrite .mgmt 0 (2 ^ 64), .gangApply 16,
      .stepRelease 8 0, .stepRelease 0 4, .itemDispatch 8 0, .itemDispatch 0 4, .taskDispatch 8 0 0, .taskDispatch 0 4 0,
      .taskDispatch 0 0 65535, .prefetchRequest 8 0 0, .prefetchRequest 0 4 0, .prefetchRequest 0 0 65535, .gatherDispatch 8 0,
      .gatherDispatch 0 4, .updDispatch 8 0, .updDispatch 0 4, .taskPop (.server 96 false) 0, .taskPop .mgmt 16,
      .taskDone (.server 96 false) 0 0, .taskDone .mgmt 16 0, .taskDone .mgmt 0 (2 ^ 64), .stepComplete 8 0, .stepComplete 0 4,
      .exchangeResult 8 0 ⟨0, 0, 0, 0, []⟩, .exchangeResult 0 4 ⟨0, 0, 0, 0, []⟩, .exchangeTimeout 8 0, .exchangeTimeout 0 4,
      .commitFlip 8 0] : List Instr)
    fun i => !instrWf i) = true := by decide +kernel
/-- Commands with one operand out of its range, part 5. -/
theorem test_wfBad_4 : (List.all
    ([.commitFlip 0 4, .rescalePass 8 0, .rescalePass 0 4, .rescalePassDone 8 0, .rescalePassDone 0 4, .stepAbort 8 0,
      .stepAbort 0 4, .verPin (.server 96 false) 0 0, .verPin .mgmt 8 0, .verPin .mgmt 0 2, .verUnpin (.server 96 false) 0 0,
      .verUnpin .mgmt 8 0, .verUnpin .mgmt 0 2, .lrWrite (.server 96 false) 0 0 0, .lrWrite .mgmt 8 0 0, .lrWrite .mgmt 0 256 0,
      .lrWrite .mgmt 0 0 (2 ^ 64), .rootKept (.server 96 false) 0, .rootKept .mgmt 16, .map 8 (wCmd 1), .map 0 (wCmd 256),
      .unmap 8 (wCmd 1), .unmap 0 (wCmd 256), .setattr 8 (wCmd 1), .setattr 0 (wCmd 256), .move 8 (wCmd 1), .move 0 (wCmd 256),
      .reserve 8 (wCmd 1), .reserve 0 (wCmd 256), .release 8 (wCmd 1), .release 0 (wCmd 256), .peer 8 (wCmd 1), .peer 0 (wCmd 256),
      .savedActDemote (2 ^ 22), .migrationStart 2 0, .migrationStart 0 8, .rmcUpdateAck 2 0, .rmcUpdateAck 0 (2 ^ 22),
      .rmcMissFill 2 0, .rmcMissFill 0 (2 ^ 22), .migrationPrecopyEnd 2 0, .migrationPrecopyEnd 0 8, .migrationRoundEnd 2 0,
      .migrationRoundEnd 0 8, .migrationFinalEnd 2 0, .migrationFinalEnd 0 8, .migrationUnblock 2 0, .migrationUnblock 0 8,
      .frameRetire 3 0, .frameRetire 0 (2 ^ 21), .regulatorIssue 8 0 0 0, .regulatorIssue 0 3 0 0, .regulatorIssue 0 0 (2 ^ 32) 0,
      .regulatorIssue 0 0 0 2, .get 1024 0 0 0 0, .get 0 (2 ^ 50) 0 0 0, .get 0 0 2 0 0, .get 0 0 0 4096 0, .get 0 0 0 0 8,
      .claim ⟨1024, 0, 0⟩ 0] : List Instr)
    fun i => !instrWf i) = true := by decide +kernel
/-- Commands with one operand out of its range, part 6. -/
theorem test_wfBad_5 : (List.all
    ([.claim ⟨0, 0, 0⟩ (2 ^ 50), .claim ⟨0, 4096, 0⟩ 0, .claim ⟨0, 0, 8⟩ 0, .peek ⟨1024, 0, 0⟩ 0, .peek ⟨0, 0, 0⟩ (2 ^ 50), .peek ⟨0, 4096, 0⟩ 0, .peek ⟨0, 0, 8⟩ 0,
      .putFull ⟨1024, 0, 0⟩ 0 0 0, .putFull ⟨0, 0, 0⟩ (2 ^ 50) 0 0, .putFull ⟨0, 0, 0⟩ 0 (2 ^ 512) 0, .putFull ⟨0, 0, 0⟩ 0 0 2, .putFull ⟨0, 4096, 0⟩ 0 0 0,
      .putFull ⟨0, 0, 8⟩ 0 0 0, .putMasked ⟨1024, 0, 0⟩ 0 0 0 0, .putMasked ⟨0, 0, 0⟩ (2 ^ 50) 0 0 0, .putMasked ⟨0, 0, 0⟩ 0 (2 ^ 512) 0 0,
      .putMasked ⟨0, 0, 0⟩ 0 0 (2 ^ 64) 0, .putMasked ⟨0, 0, 0⟩ 0 0 0 2, .putMasked ⟨0, 4096, 0⟩ 0 0 0 0, .putMasked ⟨0, 0, 8⟩ 0 0 0 0,
      .merge ⟨1024, 0, 0⟩ 0 0 0 0, .merge ⟨0, 0, 0⟩ (2 ^ 56) 0 0 0, .merge ⟨0, 0, 0⟩ 0 256 0 0, .merge ⟨0, 0, 0⟩ 0 0 (2 ^ 56) 0, .merge ⟨0, 0, 0⟩ 0 0 0 256,
      .merge ⟨0, 4096, 0⟩ 0 0 0 0, .merge ⟨0, 0, 8⟩ 0 0 0 0, .drop 1024 0 0 0, .drop 0 (2 ^ 50) 0 0, .drop 0 0 2 0, .drop 0 0 0 (2 ^ 512),
      .send 128 0 0 0 0, .send 0 (2 ^ 50) 0 0 0, .send 0 0 1024 0 0, .send 0 0 0 4096 0, .send 0 0 0 0 4, .kill 1024 0 0,
      .kill 0 (2 ^ 50) 0, .kill 0 0 2, .snpDone 1024 0 0, .snpDone 0 (2 ^ 50) 0, .snpDone 0 0 256, .done 1024 0, .done 0 (2 ^ 50),
      .got 1024 0, .got 0 (2 ^ 50), .redo 1024 0, .redo 0 (2 ^ 50), .dropOk 1024 0 0, .dropOk 0 (2 ^ 50) 0, .dropOk 0 0 2,
      .fail 1024 0, .fail 0 (2 ^ 50), .line 1024 0 0 0 0, .line 0 (2 ^ 50) 0 0 0, .line 0 0 (2 ^ 512) 0 0, .line 0 0 0 4 0,
      .line 0 0 0 0 2, .lineHome 1024 0 0, .lineHome 0 (2 ^ 50) 0, .lineHome 0 0 (2 ^ 512), .busyRequestServe (2 ^ 50),
      .channelRead ⟨(2 ^ 50), 3⟩, .channelRead ⟨0, 4⟩, .channelWrite ⟨(2 ^ 50), 3⟩ 0, .channelWrite ⟨0, 3⟩ (2 ^ 512), .channelWrite ⟨0, 4⟩ 0,
      .scrubRead 48, .refresh 1024 0, .refresh 0 2,
      .refLockWrite (.server 96 false) 0 0, .refLockWrite .mgmt 16 0] : List Instr)
    fun i => !instrWf i) = true := by decide +kernel
/-- Commands with one operand out of its range, part 7. -/
theorem test_wfBad_6 : (List.all
    ([.refLockWrite .mgmt 0 (2 ^ 64), .refLockSuspend 16, .refLockResume 16, .rowRemap 48 0 0 0, .rowRemap 0 64 0 0,
      .rowRemap 0 0 16 0, .rowRemap 0 0 0 (2 ^ 24), .maintWrite (.server 96 false) 0 0, .maintWrite .mgmt 16 0,
      .maintWrite .mgmt 0 (2 ^ 64), .readStatus (.server 96 false) 0 0, .readStatus .mgmt 16 0, .readStatus .mgmt 0 (2 ^ 64),
      .fuseRow (.server 96 false) 0 0, .fuseRow .mgmt 16 0, .fuseRow .mgmt 0 (2 ^ 64), .fuseCol (.server 96 false) 0 0,
      .fuseCol .mgmt 16 0, .fuseCol .mgmt 0 (2 ^ 64), .ucieModuleRemove 3 0, .ucieModuleRemove 0 16, .ucieHashRespread 3,
      .flitReceive 36 0, .flitReceive 0 (2 ^ 2048), .replayStart 36, .nakRepeat 36, .linkLoss 36, .hello 36 wMsg,
      .hello 0 { wMsg with vc := 4 }, .portRetrain (.server 96 false) 0 0, .portRetrain .mgmt 36 0, .portRetrain .mgmt 0 (2 ^ 64),
      .trunkChange 2, .rd 36 wMsg, .rd 0 { wMsg with vc := 4 }, .wrLine 36 wMsg, .wrLine 0 { wMsg with vc := 4 }, .wrMask 36 wMsg,
      .wrMask 0 { wMsg with vc := 4 }, .rdData 36 wMsg, .rdData 0 { wMsg with vc := 4 }, .wrAck 36 wMsg,
      .wrAck 0 { wMsg with vc := 4 }, .nack 36 wMsg, .nack 0 { wMsg with vc := 4 }, .remoteTimeout 2 0, .remoteTimeout 0 4096,
      .collData 36 wMsg wPart, .collData 0 { wMsg with vc := 4 } wPart, .collData 0 wMsg { wPart with exact := [(5, 0, 0)] }, .collNack 36 wMsg,
      .collNack 0 { wMsg with vc := 4 }, .collTimeout 2 0, .collTimeout 0 4096, .collectiveEnd 2 0, .collectiveEnd 0 4096,
      .stot 36 wMsg, .stot 0 { wMsg with vc := 4 }, .stotCmd (.server 96 false) 0 0, .stotCmd .mgmt 2 0, .stotCmd .mgmt 0 (2 ^ 64)] : List Instr)
    fun i => !instrWf i) = true := by decide +kernel
/-- Commands with one operand out of its range, part 8. -/
theorem test_wfBad_7 : (List.all
    ([.epochInc (.server 96 false) 0 0, .epochInc .mgmt 2 0, .epochInc .mgmt 0 (2 ^ 64), .epochIncrement 2,
      .ethFrameRx 8 wEth, .roceSend 8 0 [], .roceSend 0 (2 ^ 24) [], .roceSend 0 0 [256],
      .roceWrite 8 0 0 [], .roceWrite 0 (2 ^ 24) 0 [], .roceWrite 0 0 (2 ^ 56) [], .roceWrite 0 0 0 [256], .roceRead 8 0 0 0,
      .roceRead 0 (2 ^ 24) 0 0, .roceRead 0 0 (2 ^ 56) 0, .roceRead 0 0 0 (2 ^ 32), .cnpRx 8 0, .cnpRx 0 (2 ^ 24),
      .rateRecover 8 0, .rateRecover 0 (2 ^ 24), .roceRetransmit 8 0 0, .roceRetransmit 0 (2 ^ 24) 0, .roceRetransmit 0 0 (2 ^ 24),
      .pcieInbound 2 false 0 [], .pcieInbound 0 false (2 ^ 56) [], .pcieInbound 0 false 0 [256], .shardReadIssue 8,
      .nvmeCompletion 8 0 0 [], .nvmeCompletion 0 32 0 [], .nvmeCompletion 0 0 256 [], .nvmeCompletion 0 0 0 [256],
      .shardReadTimeout 8 0, .shardReadTimeout 0 32, .recordStart 8 wHdr, .recordStart 0 { wHdr with kind := 16 },
      .sampleFinish 8 0 [], .sampleFinish 0 260 [], .sampleFinish 0 0 [256], .sampleBudget 8 0, .sampleBudget 0 256,
      .sampleHardLimit 8 0, .sampleHardLimit 0 260, .batchClose 8, .batchReady 8, .streamEnWrite (.server 96 false) 0 0,
      .streamEnWrite .mgmt 8 0, .streamEnWrite .mgmt 0 (2 ^ 64), .cmdTailWrite (.server 96 false) 0 0, .cmdTailWrite .mgmt 8 0,
      .cmdTailWrite .mgmt 0 (2 ^ 64), .cmdNop 8 (wCmd 1), .cmdNop 0 (wCmd 256), .jobStart 8 (wCmd 1), .jobStart 0 (wCmd 256),
      .jobEnd 8 (wCmd 1), .jobEnd 0 (wCmd 256), .run 8 (wCmd 1), .run 0 (wCmd 256), .swapIn 8 (wCmd 1), .swapIn 0 (wCmd 256)] : List Instr)
    fun i => !instrWf i) = true := by decide +kernel
/-- Commands with one operand out of its range, part 9. -/
theorem test_wfBad_8 : (List.all
    ([.swapOut 8 (wCmd 1), .swapOut 0 (wCmd 256), .ready 8 (wCmd 1), .ready 0 (wCmd 256), .abort 8 (wCmd 1), .abort 0 (wCmd 256),
      .partSet 8 (wCmd 1), .partSet 0 (wCmd 256), .partSetApply 8, .groupSet 8 (wCmd 1), .groupSet 0 (wCmd 256), .contextSwitch 8,
      .contextSaveDone 8, .contextRestoreDone 8, .contextStart 8, .lockDeferExpiry 8 0, .lockDeferExpiry 0 4,
      .fltReset (.server 96 false) 0, .fltReset .mgmt (2 ^ 64), .fence 8 0, .fence 0 256, .drainEnd 8 0, .drainEnd 0 256,
      .resetEnd 8 0, .resetEnd 0 256, .domainRelease 8 0, .domainRelease 0 256, .tileFail 16 0, .tileFail 0 13,
      .oosClear (.server 96 false) 0, .oosClear .mgmt (2 ^ 64), .rejoin (.server 96 false) 0, .rejoin .mgmt 8, .regroupExpiry 8 0,
      .regroupExpiry 0 4, .snapshotCapture 8 0, .snapshotCapture 0 4, .snapshotStagingDone 8 0, .snapshotStagingDone 0 4,
      .snapshotAnchor 8 0, .snapshotAnchor 0 4, .snapshot 8 (wCmd 1), .snapshot 0 (wCmd 256), .snapCancel 8 (wCmd 1),
      .snapCancel 0 (wCmd 256), .restore 8 (wCmd 1), .restore 0 (wCmd 256), .refill 8 (wCmd 1), .refill 0 (wCmd 256),
      .record 8 (wCmd 1), .record 0 (wCmd 256), .verify 8 (wCmd 1), .verify 0 (wCmd 256), .lifetimeWrite 8,
      .flashErase (.server 96 false) 0, .flashErase .mgmt (2 ^ 64), .flashProgram (.server 96 false) 0,
      .flashProgram .mgmt (2 ^ 64), .flashRead (.server 96 false) 0, .flashRead .mgmt (2 ^ 64)] : List Instr)
    fun i => !instrWf i) = true := by decide +kernel
/-- Commands with one operand out of its range, part 10. -/
theorem test_wfBad_9 : (List.all
    ([.programOwner (.server 96 false) 0, .programOwner .mgmt (2 ^ 64), .revoke (.server 96 false) 0, .revoke .mgmt (2 ^ 64),
      .advanceSvn (.server 96 false) 0, .advanceSvn .mgmt (2 ^ 64), .provision (.server 96 false) 0, .provision .mgmt (2 ^ 64),
      .attest (.server 96 false) 0, .attest .mgmt (2 ^ 64), .coreRelease (.server 96 false) 0 0, .coreRelease .mgmt 2 0,
      .coreRelease .mgmt 0 (2 ^ 64), .pmcOverflow 208 0, .pmcOverflow 0 8, .sampleConsume (.server 96 false) 0 0,
      .sampleConsume .mgmt 192 0, .sampleConsume .mgmt 0 (2 ^ 64), .flush (.server 96 false) 0, .flush .mgmt (2 ^ 64),
      .resetLAssert (2 ^ 64), .droopEvent 11 0, .droopEvent 0 65536, .powerCapUpdate 65536, .thermtrip 64, .mgmtRead64 (2 ^ 32),
      .mgmtRead32 (2 ^ 32), .mgmtWrite64 (2 ^ 32) 0, .mgmtWrite64 0 (2 ^ 64), .mgmtWrite32 (2 ^ 32) 0, .mgmtWrite32 0 (2 ^ 64),
      .regacc false (2 ^ 32) 0, .regacc false 0 (2 ^ 64), .samplePreload [2], .registerRead (.server 96 false) 0 0,
      .registerRead .mgmt (2 ^ 32) 0, .registerRead .mgmt 0 65, .budgetOver 192, .ethLinkDown 8, .ethLinkUp 8, .railFault 11,
      .railFaultClear 11, .droopEventEnd 11, .fuseCommandDone 256, .repairCommandDone 16 0, .repairCommandDone 0 256,
      .flashCommandDone 256, .commandCompletion 8 0 [], .commandCompletion 0 256 [], .commandCompletion 0 0 [2 ^ 512],
      .snapshotReadDone 8 0, .snapshotReadDone 0 4, .setdasa (2 ^ 56), .entdaa (2 ^ 56)] : List Instr)
    fun i => !instrWf i) = true := by decide +kernel
/-- Commands with one operand field that its class does not permit, part 1. -/
theorem test_wfBadOps_0 : (List.all
    ([.cmdNop 0 { wCmd 1 with ctx := 256 }, .cmdNop 0 { wCmd 1 with tag := 65536 }, .cmdNop 0 { wCmd 1 with rsvd := 2 ^ 32 },
      .cmdNop 0 { wCmd 1 with w1 := 2 ^ 64 }, .cmdNop 0 { wCmd 1 with w2 := 2 ^ 64 }, .cmdNop 0 { wCmd 1 with w3 := 2 ^ 64 },
      .cmdNop 0 { wCmd 1 with w4 := 2 ^ 64 }, .cmdNop 0 { wCmd 1 with w5 := 2 ^ 64 }, .cmdNop 0 { wCmd 1 with w6 := 2 ^ 64 },
      .cmdNop 0 { wCmd 1 with w7 := 2 ^ 64 }, .rd 0 { wMsg with vc := 4 }, .rd 0 { wMsg with typ := 64 },
      .rd 0 { wMsg with dst := 65536 }, .rd 0 { wMsg with src := 65536 }, .rd 0 { wMsg with epoch := 65536 },
      .rd 0 { wMsg with len := 16 }, .rd 0 { wMsg with tag := 4096 }, .rd 0 { wMsg with arg := 2 ^ 56 },
      .rd 0 { wMsg with data := List.replicate 15 0 }, .rd 0 { wMsg with data := [2 ^ 128] },
      .recordStart 0 { wHdr with magic := 2 ^ 32 }, .recordStart 0 { wHdr with kind := 16 },
      .recordStart 0 { wHdr with codec := 16 }, .recordStart 0 { wHdr with rsvd := 2 ^ 24 },
      .recordStart 0 { wHdr with sampleId := 2 ^ 64 }, .recordStart 0 { wHdr with storedLen := 2 ^ 32 },
      .recordStart 0 { wHdr with decodedLen := 2 ^ 32 }, .recordStart 0 { wHdr with pcrc := 2 ^ 32 },
      .recordStart 0 { wHdr with hcrc := 2 ^ 32 }, .ld 0 0 { wMov with wait := ⟨true, false, .dma⟩ },
      .ld 0 0 { wMov with wait := ⟨true, true, .array⟩ }, .ld 0 0 { wMov with post := ⟨true, false, .dma⟩ },
      .ld 0 0 { wMov with post := ⟨true, true, .array⟩ }, .ld 0 0 { wMov with dslot := 16 }, .ld 0 0 { wMov with view := 64 },
      .ld 0 0 { wMov with org := 8 }, .st 0 0 { wMov with wait := ⟨true, false, .store⟩ },
      .st 0 0 { wMov with post := ⟨true, false, .store⟩ }, .mmul 0 0 { wMmul with wait := ⟨true, false, .array⟩ },
      .mmul 0 0 { wMmul with post := ⟨true, false, .array⟩ }, .mmul 0 0 { wMmul with set := 2 }, .mmul 0 0 { wMmul with av := 64 },
      .mmul 0 0 { wMmul with bv := 64 }, .mmul 0 0 { wMmul with out := 64 }, .mmul 0 0 { wMmul with keygrp := 4 },
      .mmul 0 0 { wMmul with pslot := 8 }, .mmul 0 0 { wMmul with okind := .regs, out := 1 }, .mspan 0 0 ⟨8, 0, 0, 0, 0⟩,
      .mspan 0 0 ⟨0, 4096, 0, 0, 0⟩, .mspan 0 0 ⟨0, 0, 4096, 0, 0⟩, .mspan 0 0 ⟨0, 0, 0, 128, 0⟩, .mspan 0 0 ⟨0, 0, 0, 0, 128⟩,
      .mwin 0 0 ⟨8, 0, 0, .none, 0, false, .bf16⟩, .mwin 0 0 ⟨0, 4096, 0, .none, 0, false, .bf16⟩,
      .mwin 0 0 ⟨0, 0, 4096, .none, 0, false, .bf16⟩, .mwin 0 0 ⟨0, 0, 0, .none, 64, false, .bf16⟩,
      .mwin 0 0 ⟨0, 0, 0, .view, 0, false, .int8⟩, .add 0 0 { wVecTwo with vl := 0 }, .add 0 0 { wVecTwo with vl := 129 },
      .add 0 0 { wVecTwo with vr := 0 }] : List Instr)
    fun i => !instrWf i) = true := by decide +kernel
/-- Commands with one operand field that its class does not permit, part 2. -/
theorem test_wfBadOps_1 : (List.all
    ([.add 0 0 { wVecTwo with vr := 17 }, .add 0 0 { wVecTwo with keygrp := 4 }, .add 0 0 { wVecTwo with mask := 8 },
      .add 0 0 { wVecTwo with dst := 32 }, .add 0 0 { wVecTwo with a := ⟨false, false, false, 32⟩ },
      .add 0 0 { wVecTwo with a := ⟨true, false, false, 16⟩ }, .add 0 0 { wVecTwo with b := ⟨true, false, false, 16⟩ },
      .add 0 0 { wVecTwo with c := ⟨false, false, false, 1⟩ }, .add 0 0 { wVecTwo with ty := .i16 },
      .add 0 0 { wVecTwo with subTy := true }, .add 0 0 { wVecTwo with subFawn := true },
      .sel 0 0 { wVec with c := ⟨false, false, false, 8⟩ }, .sel 0 0 { wVec with c := ⟨false, true, false, 0⟩ },
      .iadd 0 0 { wVecTwo with ty := .bf16 }, .iadd 0 0 { wVecTwo with ty := .i16, a := ⟨false, true, false, 1⟩ },
      .iadd 0 0 { wVecTwo with ty := .i16, b := ⟨false, false, true, 1⟩ }, .cmp 0 0 .eq { wVecTwo with dst := 8 },
      .mand 0 0 { wVecTwo with ty := .fp16 }, .mand 0 0 { wVecTwo with dst := 8 },
      .mand 0 0 { wVecTwo with a := ⟨false, false, false, 8⟩ }, .mand 0 0 { wVecTwo with b := ⟨true, false, false, 1⟩ },
      .mnot 0 0 { wVecTwo with b := ⟨false, false, false, 1⟩ }, .padd 0 0 { wVecTwo with a := ⟨false, true, false, 1⟩ },
      .padd 0 0 { wVecTwo with b := ⟨true, false, false, 1⟩ }, .padd 0 0 { wVecTwo with dst := 1, a := ⟨false, false, false, 1⟩ },
      .padd 0 0 { wVecTwo with ty := .i16 }, .cvt 0 0 { wCvt with wait := ⟨true, false, .vector⟩ },
      .cvt 0 0 { wCvt with post := ⟨true, false, .vector⟩ }, .cvt 0 0 { wCvt with post := ⟨true, true, .store⟩ },
      .cvt 0 0 { wCvt with src := 32 }, .cvt 0 0 { wCvt with dst := 32 }, .cvt 0 0 { wCvt with sfmt := .int8 },
      .cvt 0 0 { wCvt with dfmt := .int8 }, .cvt 0 0 { wCvt with smem := true, src := 64 },
      .cvt 0 0 { wCvt with dmem := true, dst := 64 }, .cvt 0 0 { wCvt with vl := 0 }, .cvt 0 0 { wCvt with vr := 0 },
      .cvt 0 0 { wCvt with keygrp := 4 }, .cvt 0 0 { wCvt with mask := 8 }, .cvt 0 0 { wCvt with org := 8 },
      .sum 0 0 { wRed with vl := 0 }, .sum 0 0 { wRed with vr := 17 }, .sum 0 0 { wRed with keygrp := 4 },
      .sum 0 0 { wRed with mask := 8 }, .sum 0 0 { wRed with dst := 32 }, .sum 0 0 { wRed with src := 32 },
      .sum 0 0 { wRed with idx := 32 }, .sum 0 0 { wRed with dpos := 128 }, .sum 0 0 { wRed with dst := 16 },
      .sum 0 0 { wRed with idx := 1 }, .sum 0 0 { wRed with axis := .col, dpos := 16 }, .argmax 0 0 { wRed with ty := .i16 },
      .popc 0 0 { wRed with src := 8 }, .permc 0 0 { wRed with axis := .col }, .permr 0 0 { wRed with axis := .row, dpos := 1 },
      .cwait 0 0 .array ⟨32, 0, 0, 0⟩, .cwait 0 0 .array ⟨0, 32, 0, 0⟩, .cwait 0 0 .array ⟨0, 0, 32, 0⟩,
      .cwait 0 0 .array ⟨0, 0, 0, 32⟩, .cwait 0 0 .array ⟨0, 1, 0, 0⟩] : List Instr)
    fun i => !instrWf i) = true := by decide +kernel
/-- Commands with one operand field that its class does not permit, part 3. -/
theorem test_wfBadOps_2 : (List.all
    ([.summ 0 0 { wSumm with kind := 5 }, .summ 0 0 { wSumm with tag := 256 }, .summ 0 0 { wSumm with imm := 2 ^ 32 },
      .summ 0 0 { wSumm with vl := 0 }, .summ 0 0 { wSumm with mask := 8 }, .summ 0 0 { wSumm with k := 0 },
      .summ 0 0 { wSumm with k := 9 }, .summ 0 0 { wSumm with ty := .i16 }, .summ 0 0 { wSumm with reg := 32 },
      .summ 0 0 { wSumm with kind := 0, reg := 16 }, .summ 0 0 { wSumm with kind := 3, reg := 8 },
      .allreduce 0 0 { wCol with wait := ⟨true, false, .store⟩ }, .allreduce 0 0 { wCol with sslot := 16 },
      .allreduce 0 0 { wCol with dslot := 16 }, .allreduce 0 0 { wCol with group := 4096 },
      .allreduce 0 0 { wCol with sem := 256 }, .allreduce 0 0 { wCol with rop := 16 }, .registerWrite (.server 96 false) 0 0 0,
      .registerWrite (.control 32 false) 0 0 0] : List Instr)
    fun i => !instrWf i) = true := by decide +kernel
/-- A command that names no unit changes nothing. -/
theorem test_no_such_unit : exec (.nop 192 0) State.reset = .next State.reset := rfl

/-! ### The worked examples of the spec -/

/-- R294: the home slice of the first line of capacity frame 0x5_0123. -/
theorem test_home_slice : hostSlice 0x14048C000 = 27 := by decide +kernel
/-- R94: 152 at scale code 0x7E under RNE and under SR with two dithers; 232 saturates; minus infinity with and without E4M3_INF. -/
theorem test_convert_e4m3 :
    (fmtConvert .e4m3 .rne false 0x7E (fmtValue .bf16 0x4318)).code = 0x7A
      ∧ (fmtConvert .e4m3 (.sr 0x7A31) false 0x7E (fmtValue .bf16 0x4318)).code = 0x79
      ∧ (fmtConvert .e4m3 (.sr 0xC502) false 0x7E (fmtValue .bf16 0x4318)).code = 0x7A
      ∧ (fmtConvert .e4m3 .rne false 0x7E (fmtValue .bf16 0x4368)).code = 0x7E
      ∧ (fmtConvert .e4m3 .rne false 0x7E (fmtValue .bf16 0x4368)).cvtOvf = true
      ∧ (fmtConvert .e4m3 .rne false 0x7F (fmtValue .bf16 0xFF80)).code = 0xFE
      ∧ (fmtConvert .e4m3 .rne true 0x7F (fmtValue .bf16 0xFF80)).code = 0x7F
      ∧ (fmtConvert .e4m3 .rne false 0x7F (fmtValue .bf16 0x3B80)).code = 0x02
      ∧ (fmtConvert .e4m3 .rne false 0x7F (fmtValue .bf16 0x3A00)).code = 0 := by decide +kernel
/-- R94: conversions into INT8 and BF16. -/
theorem test_convert_other :
    (fmtConvert .int8 .rne false 0 (fmtValue .bf16 0x4020)).code = 2
      ∧ (fmtConvert .int8 .rne false 0 (fmtValue .bf16 0x4301)).code = 0x7F
      ∧ (fmtConvert .bf16 .rne false 0 (fmtValue .fp16 0x3C04)).code = 0x3F80
      ∧ (fmtConvert .bf16 .rne false 0 (fmtValue .e5m2 0x7C)).code = 0x7F80
      ∧ (fmtConvert .bf16 .rne false 0 (rescale 0xFE (fmtValue .e4m3 0x7E))).code = 0x7F7F := by decide +kernel
/-- R82: the two pair stores of the table of conversions. -/
theorem test_pair_store :
    ((writePair .bf16 .rne (fmtValue .fp16 0x3C01)).1.code, (writePair .bf16 .rne (fmtValue .fp16 0x3C01)).2) = (0x3F80, 0x20)
      ∧ ((writePair .bf16 .rne (fmtValue .fp16 0x3C04)).1.code, (writePair .bf16 .rne (fmtValue .fp16 0x3C04)).2) = (0x3F81, -128) := by
  decide +kernel
/-- R141: the fused and the unfused chain of the vector engine. -/
theorem test_fma_fused :
    (FF.bf16.arith .rne (((FF.bf16.value 0x3F81).mul (FF.bf16.value 0x3F81)).add (FF.bf16.value 0xBF82))).code = 0x3880
      ∧ (FF.bf16.arith .rne ((FF.bf16.value 0x3F81).mul (FF.bf16.value 0x3F81))).code = 0x3F82
      ∧ (FF.bf16.arith .rne ((FF.bf16.value 0x3F82).add (FF.bf16.value 0xBF82))).code = 0 := by decide +kernel
/-- R145: PADD 4 and PADD 5 of the example. -/
theorem test_padd_example :
    ((paddElem .bf16 .bf16 .rne 0x3F80 96 0x3A80 0).1.code, (paddElem .bf16 .bf16 .rne 0x3F80 96 0x3A80 0).2) = (0x3F81, -128)
      ∧ ((paddElem .bf16 .bf16 .rne 0x3F81 (-128) 0x3A80 0).1.code, (paddElem .bf16 .bf16 .rne 0x3F81 (-128) 0x3A80 0).2)
        = (0x3F81, -96) := by decide +kernel
/-- R168, R172: the LD words and the ST word of the example segment. -/
theorem test_words_mov :
    tileDecode 0x1000000010000000 = some (.mov .ld ⟨⟨false, false, .dma⟩, ⟨false, false, .dma⟩, 0, 0, 0, .plain, true, false⟩)
      ∧ tileDecode 0x1000910410000000 = some (.mov .ld ⟨⟨false, false, .dma⟩, ⟨true, false, .array⟩, 1, 1, 0, .plain, true, false⟩)
      ∧ tileDecode 0x1019020818000000 = some (.mov .st ⟨⟨true, false, .array⟩, ⟨false, false, .dma⟩, 2, 2, 0, .plain, true, true⟩) := by
  decide +kernel
/-- R174, R175: the MSPAN word and the MMUL words of P1 and P2. -/
theorem test_words_mma :
    tileDecode 0x2010000000020408 = some (.mspan ⟨0, 0, 1, 1, 1⟩)
      ∧ tileDecode 0x2008B00003422800 = some (.mmul ⟨⟨true, false, .dma⟩, ⟨true, false, .store⟩, .f8, 0, .zero, 0, false, 1, true,
          .view, 2, .bf16, true, false, false, 0, 0, false⟩)
      ∧ tileDecode 0x2008B00180422A00 = some (.mmul ⟨⟨true, false, .dma⟩, ⟨true, false, .store⟩, .f8, 0, .zero, 1, true, 0, false,
          .view, 2, .bf16, true, false, true, 0, 0, false⟩) := by decide +kernel
/-- R161: the views of the example segment. -/
theorem test_views :
    (viewOf (0x0400001080000000 * 2 ^ 64 + 0x0000200001001F08)).map (fun v => [v.base, v.recs, v.pitch, v.rows, v.cols])
        = some [0x10000, 0x10800, 32, 2, 32]
      ∧ (viewOf (0x0800002020008040 * 2 ^ 64 + 0x000004000100012C)).map (fun v => [v.base, v.recs, v.fawn, v.pitch, b2n v.fawnEn])
        = some [0x20000, 0x20200, 0x20100, 4, 1] := by decide +kernel
/-- R194: the header of the example segment. -/
theorem test_header : headerOf 0x01010020C1802001 = some ⟨257, 768, false, 3, 3, 5⟩ := by decide +kernel
/-- R164: the descriptor of slot 0 of the example segment. -/
theorem test_descriptor :
    (descOf [0x0400000050000000, 0x200000020, 0x100000001, 0x400000002, 0xA0100000004, 0x50001000, 0, 0]).map
        (fun d => [d.ndim, d.base, d.n0, d.n1, d.s1, d.s2, d.tensorId, d.scalePtr]) = some [2, 0x50000000, 32, 2, 2, 4, 0xA01, 0x50001000] := by
  decide +kernel
/-- R213: the records of the rescaling example, steps 1, 3, 17 and 18 with QUIET_LIMIT 16. -/
theorem test_rescale :
    (rescaleRec 0x7F40 3 16).word = 0x8000 ∧ (rescaleRec 0x8000 1 16).word = 0x8001 ∧ (rescaleRec 0x800E 1 16).word = 0x800F
      ∧ (rescaleRec 0x800F 1 16).word = 0x7F00 := by decide +kernel
/-- R223, R224: slot 5 of the example chooses E5M2, with the seed 0x6A. -/
theorem test_format_choice :
    chooseFmt ([1045576] ++ List.replicate 12 0 ++ [2400] ++ List.replicate 14 0 ++ [600, 0, 0, 0]) 0 11 10 13 28 8 4096 = 1
      ∧ seedScale 1 (some (-7)) = 0x6A := by decide +kernel
/-- R292: partition 1 with SHARE 25 of the capacity tier. -/
theorem test_regulator_rate :
    State.rate (State.reset.fset (R.PLC_REG 1 1) F.PLC_REG_SHARE 25) 1 1 = 127096 := by decide +kernel
/-- R313, R327: where the two example lines lie. -/
theorem test_line_places : stackPlace 0x1159C48D = (0, 6, 0x4567) ∧ rawRow 0x48C000 = 0x14760 := by decide +kernel
/-- R427: the accumulators and terms of the health example. -/
theorem test_health :
    hltTerm 0x300000 0x100 = 48 ∧ hltStep 0x300000 0 16 = 0x2FFFD0 ∧ hltTerm 0x2FFFD0 0x100 = 47 ∧ hltStep 0x30000 1 16 = 0x3FFFD
      ∧ hltTerm 0x3FFFD 0x800 = 31 ∧ hltTerm 0xFFFF 0x1000 = 15 := by decide +kernel
/-- R5, R40: tile 5 of herd 3 of die 1 is tile 137, whose register block lies at 0x8460_0000. -/
theorem test_tile_block : B.til 137 = 0x84600000 := by decide +kernel

/-- The opcode table gives no row any bits: no word spells a command. -/
theorem test_decode : decodeTableWord 64 0x1234 = none := rfl

/-! ### Witnesses of the statements -/

/-- A flash image whose header and layout are in order, with an open-format package payload. -/
def wImage : State := State.reset.flashPut 0 256 (ofWords 64 [0x4D4F4C520001FF00, 0x4160A1 * 2 ^ 40, 0x10140, 256 * 2 ^ 32,
  0x10000 * 2 ^ 32 + 64, 0, 0x20000, 0x10040])

/-- The package after a move that ends. -/
def wAfter : Option (TEnd × State) → State
  | some v => v.2
  | none => State.reset
theorem wAfterEq {x : Option (TEnd × State)} (h : x.map Prod.fst = some .ok) : x = some (.ok, wAfter x) := by
  cases x with
  | none => cases h
  | some v => exact congrArg some (Prod.ext (Option.some.inj h) rfl)
/-- An option that holds something. -/
theorem wGet {α : Type} {x : Option α} (d : α) (h : x.isSome = true) : x = some (x.getD d) := by
  match x, h with
  | some _, _ => rfl
/-- A triple whose first component holds something. -/
theorem wTri {α β γ : Type} {x : Option α × β × γ} (d : α) (h : x.1.isSome = true) : x = (some (x.1.getD d), x.2.1, x.2.2) :=
  Prod.ext (wGet d h) rfl
/-- A pair whose first component holds something. -/
theorem wDuo {α β : Type} {x : Option α × β} (d : α) (h : x.1.isSome = true) : x = (some (x.1.getD d), x.2) := Prod.ext (wGet d h) rfl
/-- A pair by its components. -/
theorem wEta {α β : Type} {x : α × β} : x = (x.1, x.2) := rfl
/-- Work that ends, what it waits for, and how it waits at the regulators. -/
def wDoneAt : WorkNow Unit → State
  | .done _ s => s
  | _ => State.reset
def wHaltAt : WorkNow Unit → Halt
  | .halts h => h
  | _ => .slot
def wWaitAt : WorkNow Unit → State × List (Nat × Nat)
  | .waits s m => (s, m)
  | _ => (State.reset, [])
def wKind : WorkNow Unit → Nat
  | .done _ _ => 0
  | .halts _ => 1
  | .waits _ _ => 2
theorem wDoneEq {x : WorkNow Unit} (h : wKind x = 0) : x = .done () (wDoneAt x) := by
  cases x with
  | done => rfl
  | _ => cases h
theorem wHaltEq {x : WorkNow Unit} (h : wKind x = 1) : x = .halts (wHaltAt x) := by
  cases x with
  | halts => rfl
  | _ => cases h
theorem wWaitEq {x : WorkNow Unit} (h : wKind x = 2) : x = .waits (wWaitAt x).1 (wWaitAt x).2 := by
  cases x with
  | waits => rfl
  | _ => cases h
/-- The queue of tile 0 holds a segment. -/
def wQueue (s : State) : State := s.modTile 0 fun y => { y with queue := [{ herd := true, addr := 0, ctx := 1 }] }
/-- The segment lies in herd memory. -/
def wFetch : State := wQueue (wBase.setHerd 0 { mem := wWords 0 [0x5000000000001, tileEncode .nop] [] })
/-- A GATHER segment that has done its work. -/
def wGathered : Run :=
  { wRunOf [.nop] with next := [0, 0, 0, 0, 1], finished := 1, gathered := true, img := { (wRunOf [.nop]).img with gather := some (0, 0) } }
/-- Agent 5 holds a line in E, and messages are on their way. -/
def wCoh (l : List CohMsg) : State := { State.reset with cache := [(128 * 0x1000000007 + 5, ⟨.e, 9⟩)], msgs := l }
/-- A line of agent 5 is on its way back too. -/
def wCohBack (l : List CohMsg) : State := { wCoh l with wback := [(128 * 0x1000000007 + 5, ⟨.e, 9⟩)] }
/-- A load or store that succeeds. -/
def wGood : Ld → Bool
  | .ok _ => true
  | _ => false
theorem wLd {x : Ld × State} (h : wGood x.1 = true) : x = (.ok (wOk x.1), x.2) := by
  obtain ⟨l, s⟩ := x
  cases l with
  | ok _ => rfl
  | _ => cases h
/-- A cell of the first raw row of bus 0 is stuck. -/
def wStuck : State := { State.reset with hard := [(lineOf 16 0, 3)] }
theorem wBadWord {e : Nat} (h : ((rsSynd e).all fun x => x == 0) = false) : (rsDecode e != .good) = true := by
  unfold rsDecode
  simp only [h, Bool.false_eq_true, if_false]
  split
  · rfl
  · split <;> rfl
theorem wFails : wStuck.rowFails 16 0 0 0 = true :=
  List.any_eq_true.mpr ⟨lineOf 16 0, by decide +kernel, Bool.or_eq_true_iff.mpr (.inl (wBadWord (by decide +kernel)))⟩
/-- Intake stream 0 runs. -/
def wInk (x : Stream) : State :=
  { ((wMapC State.reset).fset R.INK_CTRL F.INK_CTRL_EN 1).fset (R.INK_S_CTRL 0) F.INK_S_CTRL_EN 1 with streams := [(0, x)] }
/-- It has a shard of 0x80000 bytes, and I/O queue 0 is connected. -/
def wShards (x : Stream) : State :=
  { (wInk x).fset R.INK_CTRL F.INK_CTRL_NVQ_BASE 1 with mem := wWords (2 ^ 43 + 64) [2 ^ 63] (wWords (2 ^ 43) [0, 0, 0x80000, 5] []) }
/-- The header of a record of 16 bytes. -/
def wHeader : List Nat :=
  [0x4E574146 * 2 ^ 32, 7, 16 * 2 ^ 32, crc32c ([0x4E574146 * 2 ^ 32, 7, 16 * 2 ^ 32].flatMap (numBytes 8))]
/-- The first read buffer holds it. -/
def wRecords : State :=
  { wInk { bufs := [{ tag := 0, shard := 0, off := 0 }] } with mem := wWords (2 ^ 43 + 4096) wHeader (wWords (2 ^ 43) [0, 0, 0x80000, 5] []) }
/-- A sample that is being decoded. -/
def wSample : Sample := { hdr := ⟨0x4E574146, 0, 0, 0, 7, 16, 16, 0, 0⟩, shard := 0, off := 0, start := 0, budget := 5, hard := 9 }
/-- A read of the first shard that is outstanding. -/
def wRead : ShardRead := { tag := 2, shard := 0, off := 0 }
/-- Ethernet port 0 is up. -/
def wEthUp : State := ((wMap State.reset).fset (R.ETH_STATUS 0) F.ETH_STATUS_UP 1).fset (R.ETH_CTL 0) F.ETH_CTL_EN 1
/-- Context 1 may write snapshots. -/
def wSnap (x : SnapSt) : Slot := { wSlot with snap := x }.fset R.SCH_SNAP_CTL F.SCH_SNAP_CTL_COUNT 1
def wSnaps (x : SnapSt) : State :=
  { (wFull ((({ wWith (wSnap x) with
        rangeMap := [(0, 2 ^ 63 + 2 ^ 61), (1, 2 ^ 63 + 2 ^ 61 + 1)],
        mem := wWords (2 ^ 43 + 0x1000) [2 ^ 62, 0, 0, 2 ^ 30, 2 ^ 20, 2 ^ 20, 0, 0] [] }).fset
      (R.SCH_CMD_PTR 0) F.SCH_CMD_PTR_TAIL 3).fset R.SNAP_CTL F.SNAP_CTL_EN 1)) with snapQ := [1] }
/-- The value of a computation that has one. -/
def wFine {α : Type} (d : α) : Except Nat α → α
  | .ok v => v
  | .error _ => d
def wCode {α : Type} : Except Nat α → Nat
  | .ok _ => 0
  | .error n => n
theorem wFineEq {α : Type} {x : Except Nat α × State} (d : α) (h : x.1.isOk = true) : x = (.ok (wFine d x.1), x.2) := by
  obtain ⟨l, s⟩ := x
  cases l with
  | ok _ => rfl
  | error _ => cases h
theorem wErrEq {α : Type} {x : Except Nat α × State} (h : x.1.isOk = false) : x = (.error (wCode x.1), x.2) := by
  obtain ⟨l, s⟩ := x
  cases l with
  | error _ => rfl
  | ok _ => cases h
/-- The count of what passes over a link changes two fields only. -/
def wCarried (s : State) (a b line n : Nat) : State :=
  { s with hltEv := (s.carry a b line n).hltEv, bw := (s.carry a b line n).bw }
theorem wCarry (s : State) (a b line n : Nat) : s.carry a b line n = wCarried s a b line n := by
  unfold wCarried State.carry
  split
  · rfl
  · split
    · unfold State.ucieBytes State.when State.health State.bwAdd
      repeat' split
      all_goals rfl
    · rfl

theorem witness_StepRunsFront :
    (∃ (s : State) (c : Instr) (rest : List Instr),
      s.pending = c :: rest)
    ∧ (∃ s : State,
      s.pending = [] ∧ s.clk.tb + s.advance.1 < (s.clk.tb / s.period + 1) * s.period)
    ∧ (∃ s : State,
      s.pending = [] ∧ (s.clk.tb / s.period + 1) * s.period ≤ s.clk.tb + s.advance.1)
    ∧ (∃ s : State,
      s.ratePpb = 0 ∧ s.clk.rateAcc < 1000000000 ∧ s.clk.slewNow = 0) :=
  ⟨⟨{ State.reset with pending := [.ppsPulseEnd, .tickBoundary] }, List.head
      (({ State.reset with pending := [.ppsPulseEnd, .tickBoundary] } : State).pending) (by decide +kernel),
      (({ State.reset with pending := [.ppsPulseEnd, .tickBoundary] } : State).pending).tail, by decide +kernel⟩,
    ⟨State.reset, by and_intros <;> decide +kernel⟩,
    ⟨{ State.reset with clk := { tb := 65535 } }, by and_intros <;> decide +kernel⟩,
    ⟨State.reset, by and_intros <;> decide +kernel⟩⟩

theorem witness_StepKeepsMemory :
    ∃ (s : State) (t : State),
      s.memOk ∧ step s = .next t :=
    ⟨{ State.reset with pending := [.ppsPulseEnd], mem := [(5, 7)] }, { State.reset with mem := [(5, 7)] },
      (by unfold State.memOk; decide +kernel), rfl⟩

theorem witness_PeriodWrite :
    ∃ (s : State) (a : Agent) (v : Nat),
      instrWf (.periodLog2Write a v) = true ∧ s.entry a .tck 0 R.TCK_CTRL true = .reach ∧ s.fbit R.TCK_CTRL F.TCK_CTRL_LOCK = false
        ∧ v ≠ s.pLog ∧ 14 ≤ v ∧ v ≤ 20 :=
    ⟨State.reset, .mgmt, 18,
      by and_intros <;> decide +kernel⟩

theorem witness_TimeBaseAndPps :
    (∃ (s : State) (a : Agent) (v : Nat),
      instrWf (.timeStep a v) = true ∧ s.entry a .tck 0 R.TCK_STEP true = .reach)
    ∧ (∃ (s : State) (a : Agent) (en : Nat),
      instrWf (.ppsOutEnWrite a en) = true ∧ s.entry a .tck 0 R.TCK_CTRL true = .reach)
    ∧ (∃ (s : State),
      nextSecond s.clk.tb < (s.clk.tb / s.period + 1) * s.period)
    ∧ (∃ s : State,
      0 < s.clk.ppsLeft ∧ s.clk.tb + s.clk.ppsLeft < (s.clk.tb / s.period + 1) * s.period) :=
  ⟨⟨State.reset, .mgmt, 2^47+5, by and_intros <;> decide +kernel⟩,
    ⟨State.reset, .mgmt, 1, by and_intros <;> decide +kernel⟩,
    ⟨{ State.reset with clk := { tb := 1099999990 } }, by decide +kernel⟩,
    ⟨{ State.reset with clk := { tb := 9, ppsLeft := 5 } }, by and_intros <;> decide +kernel⟩⟩

theorem witness_SegmentQueue :
    (∃ (s : State) (a : Agent) (t : Nat) (v : Nat),
      instrWf (.segqPush a t v) = true ∧ s.entry a .til t (R.TIL_SEGQ_PUSH t) true = .reach ∧ s.isLead t = true ∧ s.tileFenced t =
        false ∧ (s.tile t).queue.length < 64)
    ∧ (∃ (s : State) (a : Agent) (t : Nat) (v : Nat),
      instrWf (.segqPush a t v) = true ∧ s.entry a .til t (R.TIL_SEGQ_PUSH t) true = .reach ∧ (s.isLead t = false ∨ s.tileFenced t =
        true ∨ 64 ≤ (s.tile t).queue.length))
    ∧ (∃ (s : State) (t : Nat) (r : Run),
      t < 192 ∧ (s.tile t).run = some r ∧ r.overran = false ∧ s.period ≤ s.elapsed r)
    ∧ (∃ (s : State) (t : Nat) (r : Run),
      t < 192 ∧ (s.tile t).run = some r ∧ r.overBudget = false ∧ r.img.budget < s.elapsed r) :=
  ⟨⟨wBase, .mgmt, 0, 0x1000,
      by and_intros <;> decide +kernel⟩,
    ⟨State.reset, .mgmt, 0, 0x1000, by and_intros <;> decide +kernel⟩,
    ⟨{ wRun (wRunOf [.nop]) with clk := { tb := 65536 } }, 0, Option.get ((({ wRun (wRunOf [.nop]) with clk := { tb := 65536 } } :
      State).tile (0)).run) (by decide +kernel),
      by and_intros <;> decide +kernel⟩,
    ⟨{ wRun (wRunOf [.nop]) with clk := { tb := 1001 } }, 0, Option.get ((({ wRun (wRunOf [.nop]) with clk := { tb := 1001 } } :
      State).tile (0)).run) (by decide +kernel),
      by and_intros <;> decide +kernel⟩⟩

theorem witness_HeartbeatsAndWatchdogs :
    (∃ (s : State) (a : Agent) (h : Nat) (v : Nat),
      instrWf (.heartbeat a h v) = true ∧ s.entry a .hrd h (R.HRD_HEARTBEAT h) true = .reach)
    ∧ (∃ (s : State) (c : Nat),
      c < 32 ∧ s.atBoundary 3 = true ∧ s.fget R.TCK_WDOG F.TCK_WDOG_HB_TICKS ≤ (s.core c).hb)
    ∧ (∃ (s : State) (t : Nat) (r : Run),
      t < 192 ∧ (s.tile t).run = some r ∧ s.atBoundary 3 = true ∧ s.fget R.TCK_WDOG F.TCK_WDOG_SEG_TICKS ≤ r.bounds)
    ∧ (∃ (s : State) (h : Nat),
      h < 16 ∧ s.atBoundary 3 = true ∧ s.fget R.TCK_WDOG F.TCK_WDOG_HERD_TICKS ≤ (s.herd h).wd)
    ∧ (∃ (s : State) (d : Nat),
      d < 2 ∧ s.atBoundary 3 = true ∧ s.fget R.TCK_WDOG F.TCK_WDOG_DIE_TICKS ≤ Map.get 0 s.dieWd d)
    ∧ (∃ (s : State) (c : Instr) (ag line kind unit : Nat) (d m : Nat),
      instrWf c = true ∧ (c = .memRequestTimeout ag line ∧ kind = (memUnit line).1 ∧ unit = (memUnit line).2 ∨ c =
        .ucieTimeout d m ag line ∧ kind = 8 ∧ unit = 28 * d + m)) :=
  ⟨⟨State.reset, .mgmt, 0, 3, by and_intros <;> decide +kernel⟩,
    ⟨{ State.reset.setCore 1 { hb := 4 } with clk := { phase := 3 } }, 1, by and_intros <;> decide +kernel⟩,
    ⟨{ wRun { wRunOf [.nop] with bounds := 2 } with clk := { phase := 3 } }, 0, Option.get
      ((({ wRun { wRunOf [.nop] with bounds := 2 } with clk := { phase := 3 } } : State).tile (0)).run) (by decide +kernel),
      by and_intros <;> decide +kernel⟩,
    ⟨{ wBase.setHerd 0 { wd := 8 } with clk := { phase := 3 } }, 0, by and_intros <;> decide +kernel⟩,
    ⟨{ wBase with dieWd := [(1, 16)], clk := { phase := 3 } }, 1, by and_intros <;> decide +kernel⟩,
    ⟨State.reset, .ucieTimeout (1) (5) (3) (2^37 + 9 : Nat), 3, 2^37 + 9, 8, 28 * (1) + (5), 1, 5, by decide +kernel, by
      decide +kernel⟩⟩

theorem witness_DispatcherInstructions :
    (∃ (s : State) (t : Nat) (idx : Nat) (r : Run),
      instrWf (.nop t idx) = true ∧ Issues s t idx .nop r)
    ∧ (∃ (s : State) (t : Nat) (idx : Nat) (view : Nat) (sreg : Nat) (r : Run),
      instrWf (.vbase t idx view sreg) = true ∧ Issues s t idx (.vbase view sreg) r ∧ (∀ m, m < r.members.length → View.valid
        { ((r.issue idx (.vbase view sreg)).viewsAt idx m).getD view {} with base := ((s.issuedAt t idx (.vbase view sreg) r).tile (r.members.getD m 0)).sval sreg % 2 ^ 22 }
        = true))
    ∧ (∃ (s : State) (t : Nat) (idx : Nat) (o : SpanOps) (r : Run),
      instrWf (.mspan t idx o) = true ∧ Issues s t idx (.mspan o) r)
    ∧ (∃ (s : State) (t : Nat) (idx : Nat) (o : WinOps) (r : Run),
      instrWf (.mwin t idx o) = true ∧ Issues s t idx (.mwin o) r)
    ∧ (∃ (s : State) (t : Nat) (idx : Nat) (code : Nat) (r : Run),
      instrWf (.trap t idx code) = true ∧ Issues s t idx (.trap code) r)
    ∧ (∃ (s : State) (t : Nat) (idx : Nat) (view : Nat) (sreg : Nat) (r : Run),
      instrWf (.vbase t idx view sreg) = true ∧ Issues s t idx (.vbase view sreg) r ∧ (∃ m, m < r.members.length ∧ View.valid
        { ((r.issue idx (.vbase view sreg)).viewsAt idx m).getD view {} with base := ((s.issuedAt t idx (.vbase view sreg) r).tile (r.members.getD m 0)).sval sreg % 2 ^ 22 }
        = false)) :=
  ⟨⟨wRun (wRunOf [.nop]), 0, 0, Option.get (((wRun (wRunOf [.nop]) : State).tile (0)).run) (by decide +kernel), by decide +kernel,
      (by and_intros <;> decide +kernel)⟩,
    ⟨wRun (wRunOf [.vbase 0 3]), 0, 0, 0, 3, Option.get (((wRun (wRunOf [.vbase 0 3]) : State).tile (0)).run) (by decide +kernel),
      by decide +kernel, (by and_intros <;> decide +kernel), by decide +kernel⟩,
    ⟨wRun (wRunOf [.mspan ⟨2, 1, 3, 4, 5⟩]), 0, 0, ⟨2, 1, 3, 4, 5⟩, Option.get (((wRun (wRunOf [.mspan ⟨2, 1, 3, 4, 5⟩]) :
      State).tile (0)).run) (by decide +kernel), by decide +kernel, (by and_intros <;> decide +kernel)⟩,
    ⟨wRun (wRunOf [.mwin ⟨1, 2, 3, .none, 0, false, .bf16⟩]), 0, 0, ⟨1, 2, 3, .none, 0, false, .bf16⟩, Option.get (((wRun (wRunOf
      [.mwin ⟨1, 2, 3, .none, 0, false, .bf16⟩]) : State).tile (0)).run) (by decide +kernel), by decide +kernel, (by and_intros <;> decide +kernel)⟩,
    ⟨wRun (wRunOf [.trap 77]), 0, 0, 77, Option.get (((wRun (wRunOf [.trap 77]) : State).tile (0)).run) (by decide +kernel), by
      decide +kernel, (by and_intros <;> decide +kernel)⟩,
    ⟨(wRun (wRunOf [.vbase 0 3])).modTile 0 fun y => { y with sregs := [(3, 5)] }, 0, 0, 0, 3, Option.get ((((wRun (wRunOf [.vbase 0
      3])).modTile 0 fun y => { y with sregs := [(3, 5)] } : State).tile (0)).run) (by decide +kernel), by decide +kernel, ⟨by
      decide +kernel, by decide +kernel⟩, by decide +kernel⟩⟩

theorem witness_CreditAndSemaphoreInstructions :
    (∃ (s : State) (t : Nat) (idx : Nat) (e : Engine) (n : Counts) (r : Run),
      instrWf (.cwait t idx e n) = true ∧ Issues s t idx (.cwait e n) r ∧ s.countsReady t e n = true)
    ∧ (∃ (s : State) (t : Nat) (idx : Nat) (e : Engine) (n : Counts) (r : Run),
      instrWf (.cpost t idx e n) = true ∧ Issues s t idx (.cpost e n) r)
    ∧ (∃ (s : State) (t : Nat) (idx : Nat) (e : Engine) (sem : Nat) (n : Nat) (p : Nat) (r : Run),
      instrWf (.semwait t idx e sem n) = true ∧ Issues s t idx (.semwait e sem n) r ∧ s.partOfTile t = some p ∧ ((s.sem p (s.semKey
        p sem)).lock = true → n = 1))
    ∧ (∃ (s : State) (t : Nat) (idx : Nat) (e : Engine) (sem : Nat) (n : Nat) (p : Nat) (r : Run),
      instrWf (.semsig t idx e sem n) = true ∧ Issues s t idx (.semsig e sem n) r ∧ s.partOfTile t = some p) :=
  ⟨⟨wRun { wRunOf [.cwait .vector ⟨2, 0, 0, 0⟩] with creds := [3, 3, 3, 3, 3, 3, 3, 3, 3, 3, 3, 3] }, 0, 0, .vector, ⟨2, 0, 0, 0⟩,
      Option.get (((wRun { wRunOf [.cwait .vector ⟨2, 0, 0, 0⟩] with creds := [3, 3, 3, 3, 3, 3, 3, 3, 3, 3, 3, 3] } : State).tile
      (0)).run) (by decide +kernel), by decide +kernel, (by and_intros <;> decide +kernel), by decide +kernel⟩,
    ⟨wRun (wRunOf [.cpost .vector ⟨2, 0, 0, 0⟩]), 0, 0, .vector, ⟨2, 0, 0, 0⟩, Option.get (((wRun (wRunOf [.cpost .vector ⟨2, 0, 0,
      0⟩]) : State).tile (0)).run) (by decide +kernel), by decide +kernel, (by and_intros <;> decide +kernel)⟩,
    ⟨wRun (wRunOf [.semwait .vector 4 1]), 0, 0, .vector, 4, 1, Option.get ((wRun (wRunOf [.semwait .vector 4 1]) :
      State).partOfTile (0)) (by decide +kernel), Option.get (((wRun (wRunOf [.semwait .vector 4 1]) : State).tile (0)).run) (by
      decide +kernel), by decide +kernel, (by and_intros <;> decide +kernel), by and_intros <;> decide +kernel⟩,
    ⟨wRun (wRunOf [.semsig .vector 4 1]), 0, 0, .vector, 4, 1, Option.get ((wRun (wRunOf [.semsig .vector 4 1]) : State).partOfTile
      (0)) (by decide +kernel), Option.get (((wRun (wRunOf [.semsig .vector 4 1]) : State).tile (0)).run) (by decide +kernel), by
      decide +kernel, (by and_intros <;> decide +kernel), by decide +kernel⟩⟩

theorem witness_SemaphoreUnitsAndSummaries :
    (∃ (s : State) (p : Nat) (g : SemSig) (l : List SemSig) (t : Nat) (idx : Nat) (ctx : Nat) (e : Engine),
      p < 8 ∧ (s.part p).sigs = g :: l ∧ g.origin = .tile t e idx ctx ∧ (s.sem p g.sem).misused g.n ctx = false)
    ∧ (∃ (s : State) (p : Nat) (sem : Nat) (w : Waiter) (l : List Waiter),
      instrWf (.semGrant p sem) = true ∧ (s.sem p (s.semKey p sem)).waiters = w :: l ∧ w.n ≤ (s.sem p (s.semKey p sem)).value)
    ∧ (∃ (s : State) (a : Agent) (p : Nat) (sem : Nat) (v : Nat),
      instrWf (.semWrite a p sem v) = true ∧ s.entry a .sch p (R.SCH_SEM p sem) true = .reach)
    ∧ (∃ (s : State) (a : Agent) (p : Nat) (sem : Nat) (v : Nat),
      instrWf (.semAdd a p sem v) = true ∧ s.entry a .sch p (R.SCH_SEMADD p sem) true = .reach ∧ (s.sem p (s.semKey p
        sem)).value + bits v 0 32 ≤ 0xFFFFFFFF ∧ ((s.sem p (s.semKey p sem)).lock = true → (s.sem p (s.semKey p sem)).value +
        bits v 0 32 ≤ 1))
    ∧ (∃ (s : State) (t idx : Nat) (o : SummOps) (r : Run),
      instrWf (.summ t idx o) = true ∧ Issues s t idx (.summ o) r ∧ s.summReady t idx o = true ∧ ¬ ((o.kind = 1 ∨ o.kind = 2)
        ∧ 32 < o.reg + o.k))
    ∧ (∃ (s : State) (a : Agent) (t : Nat) (w : Nat) (l : List Nat),
      instrWf (.summPop a t) = true ∧ s.entry a .hrd (t / 12) (R.HRD_SUMM_Q (t / 12) (t % 12)) false = .reach ∧ (s.tile
        t).summ = w :: l)
    ∧ (∃ (s : State) (a : Agent) (t : Nat),
      instrWf (.summPop a t) = true ∧ s.entry a .hrd (t / 12) (R.HRD_SUMM_Q (t / 12) (t % 12)) false = .reach ∧ (s.tile
        t).summ = []) :=
  ⟨⟨(wRun
      { wRunOf [.semsig .vector 4 1] with vector := [{ idx := 0, cls := 0, op := 0, kind := .semSig 4 1, ready := false, sent := true }] }).setPart
      0 { wBase.part 0 with sigs := [⟨4, 1, .tile 0 .vector 0 1⟩] }, 0, List.head ((((wRun
      { wRunOf [.semsig .vector 4 1] with vector := [{ idx := 0, cls := 0, op := 0, kind := .semSig 4 1, ready := false, sent := true }] }).setPart
      0 { wBase.part 0 with sigs := [⟨4, 1, .tile 0 .vector 0 1⟩] } : State).part (0)).sigs) (by decide +kernel), ((((wRun
      { wRunOf [.semsig .vector 4 1] with vector := [{ idx := 0, cls := 0, op := 0, kind := .semSig 4 1, ready := false, sent := true }] }).setPart
      0 { wBase.part 0 with sigs := [⟨4, 1, .tile 0 .vector 0 1⟩] } : State).part (0)).sigs).tail, 0, 0, 1, .vector,
      by and_intros <;> decide +kernel⟩,
    ⟨(wRun
      { wRunOf [.semwait .vector 4 1] with vector := [{ idx := 0, cls := 0, op := 0, kind := .semWait, ready := false }] }).setPart
      0 { wBase.part 0 with sems := [(4, { value := 2, waiters := [⟨0, .vector, 0, 1⟩] })] }, 0, 4, List.head ((((wRun
      { wRunOf [.semwait .vector 4 1] with vector := [{ idx := 0, cls := 0, op := 0, kind := .semWait, ready := false }] }).setPart
      0 { wBase.part 0 with sems := [(4, { value := 2, waiters := [⟨0, .vector, 0, 1⟩] })] } : State).sem (0) (((wRun
      { wRunOf [.semwait .vector 4 1] with vector := [{ idx := 0, cls := 0, op := 0, kind := .semWait, ready := false }] }).setPart
      0 { wBase.part 0 with sems := [(4, { value := 2, waiters := [⟨0, .vector, 0, 1⟩] })] } : State).semKey (0) (4))).waiters) (by
      decide +kernel), ((((wRun
      { wRunOf [.semwait .vector 4 1] with vector := [{ idx := 0, cls := 0, op := 0, kind := .semWait, ready := false }] }).setPart
      0 { wBase.part 0 with sems := [(4, { value := 2, waiters := [⟨0, .vector, 0, 1⟩] })] } : State).sem (0) (((wRun
      { wRunOf [.semwait .vector 4 1] with vector := [{ idx := 0, cls := 0, op := 0, kind := .semWait, ready := false }] }).setPart
      0 { wBase.part 0 with sems := [(4, { value := 2, waiters := [⟨0, .vector, 0, 1⟩] })] } : State).semKey (0)
      (4))).waiters).tail, by and_intros <;> decide +kernel⟩,
    ⟨wBase, .mgmt, 0, 4, 5, by and_intros <;> decide +kernel⟩,
    ⟨wBase, .mgmt, 0, 4, 5,
      by and_intros <;> decide +kernel⟩,
    ⟨wRun (wRunOf [.summ wSumm]), 0, 0, wSumm, Option.get (((wRun (wRunOf [.summ wSumm]) : State).tile (0)).run) (by
      decide +kernel), by decide +kernel, (by and_intros <;> decide +kernel), by and_intros <;> decide +kernel⟩,
    ⟨wBase.modTile 0 fun y => { y with summ := [8, 9] }, .mgmt, 0, List.head (((wBase.modTile 0 fun y => { y with summ := [8, 9] } :
      State).tile (0)).summ) (by decide +kernel), (((wBase.modTile 0 fun y => { y with summ := [8, 9] } : State).tile
      (0)).summ).tail, by and_intros <;> decide +kernel⟩,
    ⟨State.reset, .mgmt, 0, by and_intros <;> decide +kernel⟩⟩

theorem witness_FlagsAndCompletion :
    (∃ (s : State) (t : Nat) (idx : Nat) (flags : Nat) (r : Run),
      instrWf (.flagclr t idx flags) = true ∧ Issues s t idx (.flagclr flags) r)
    ∧ (∃ (s : State) (t wait lat : Nat) (e : Engine) (r r2 : Run) (f : Flight) (l : List Flight),
      instrWf (.instrComplete t e wait lat) = true ∧ (s.tile t).run = some r ∧ r.flights e = f :: l ∧ s.flightDone t f = true
        ∧ r.give (engineCode e) f.posts = some r2)
    ∧ (∃ (s : State) (t wait lat : Nat) (e : Engine) (r : Run) (f : Flight) (l : List Flight) (ms : List Mem) (x : TIns),
      instrWf (.instrComplete t e wait lat) = true ∧ (s.tile t).run = some r ∧ r.flights e = f :: l ∧ f.held = some ms ∧ r.ins
        f.idx = some x ∧ (r.clear f.idx x = false ∨ s.insAsks t f.idx = true ∨ s.regPast f.marks = false))
    ∧ (∃ (s : State) (t wait lat : Nat) (r r2 : Run) (f : Flight) (l : List Flight) (ms : List Mem) (op : VecOp) (o : VecOps),
      instrWf (.instrComplete t .vector wait lat) = true ∧ (s.tile t).run = some r ∧ r.flights .vector = f :: l ∧ f.held =
        some ms ∧ f.ready = true ∧ f.drain = none ∧ (∀ g ∈ l, g.idx ≠ f.idx) ∧ r.ins f.idx = some (.vec op o) ∧ r.clear f.idx
        (.vec op o) = true ∧ s.insAsks t f.idx = false ∧ s.regPast f.marks = true ∧ r.members.Nodup ∧ r.give (engineCode
        .vector) f.posts = some r2)
    ∧ (∃ (s : State) (t : Nat) (fl : Nat),
      fl < 32) :=
  ⟨⟨(wRun (wRunOf [.flagclr 3])).fset (R.TIL_VSTATUS 0) F.TIL_VSTATUS_CVT_OVF 1, 0, 0, 3, Option.get ((((wRun (wRunOf [.flagclr
      3])).fset (R.TIL_VSTATUS 0) F.TIL_VSTATUS_CVT_OVF 1 : State).tile (0)).run) (by decide +kernel), by decide +kernel, ⟨by
      decide +kernel, by decide +kernel⟩⟩,
    ⟨wRun { wRunOf [.vec .add wVec] with vector := [{ idx := 0, cls := 5, op := 1, posts := [(.dma, 1)] }] }, 0, 3, 4, .vector,
      Option.get (((wRun { wRunOf [.vec .add wVec] with vector := [{ idx := 0, cls := 5, op := 1, posts := [(.dma, 1)] }] } :
      State).tile (0)).run) (by decide +kernel), Option.get ((Option.get (((wRun
      { wRunOf [.vec .add wVec] with vector := [{ idx := 0, cls := 5, op := 1, posts := [(.dma, 1)] }] } : State).tile (0)).run) (by
      decide +kernel) : Run).give (engineCode (.vector : Engine)) (List.head ((Option.get (((wRun
      { wRunOf [.vec .add wVec] with vector := [{ idx := 0, cls := 5, op := 1, posts := [(.dma, 1)] }] } : State).tile (0)).run) (by
      decide +kernel) : Run).flights (.vector : Engine)) (by decide +kernel) : Flight).posts) (by decide +kernel), List.head
      ((Option.get (((wRun { wRunOf [.vec .add wVec] with vector := [{ idx := 0, cls := 5, op := 1, posts := [(.dma, 1)] }] } :
      State).tile (0)).run) (by decide +kernel) : Run).flights (.vector : Engine)) (by decide +kernel), ((Option.get (((wRun
      { wRunOf [.vec .add wVec] with vector := [{ idx := 0, cls := 5, op := 1, posts := [(.dma, 1)] }] } : State).tile (0)).run) (by
      decide +kernel) : Run).flights (.vector : Engine)).tail,
      by and_intros <;> decide +kernel⟩,
    ⟨{ wRun { wRunOf [.vec .add wVec] with vector := [wHeld] } with rwait := [(0, { wReq with who := .ins 0 0 })] }, 0, 3, 4,
      .vector, { wRunOf [.vec .add wVec] with vector := [wHeld] }, wHeld, [], [[]], .vec .add wVec,
      by and_intros <;> decide +kernel⟩,
    ⟨wRun { wRunOf [.vec .add wVec] with vector := [wHeld] }, 0, 3, 4, { wRunOf [.vec .add wVec] with vector := [wHeld] },
      Option.get (({ wRunOf [.vec .add wVec] with vector := [wHeld] } : Run).give (engineCode .vector) wHeld.posts) (by decide +kernel),
      wHeld, [], [[]], .add, wVec, by and_intros <;> decide +kernel⟩,
    ⟨State.reset, 0, 5, by decide +kernel⟩⟩

theorem witness_VectorElements :
    (∃ (s : State) (t : Nat) (idx : Nat) (o : VecOps) (r : Run),
      instrWf (.add t idx o) = true ∧ Issues s t idx (.vec .add o) r ∧ r.members.Nodup)
    ∧ (∃ (s : State) (t : Nat) (idx : Nat) (o : VecOps) (r : Run),
      instrWf (.mul t idx o) = true ∧ Issues s t idx (.vec .mul o) r ∧ r.members.Nodup)
    ∧ (∃ (s : State) (t : Nat) (idx : Nat) (o : VecOps) (r : Run),
      instrWf (.fma t idx o) = true ∧ Issues s t idx (.vec .fma o) r ∧ r.members.Nodup)
    ∧ (∃ (s : State) (t : Nat) (idx : Nat) (o : VecOps) (r : Run),
      instrWf (.vecMin t idx o) = true ∧ Issues s t idx (.vec .min o) r ∧ r.members.Nodup)
    ∧ (∃ (s : State) (t : Nat) (idx : Nat) (o : VecOps) (r : Run),
      instrWf (.vecMax t idx o) = true ∧ Issues s t idx (.vec .max o) r ∧ r.members.Nodup)
    ∧ (∃ (s : State) (t : Nat) (idx : Nat) (o : VecOps) (r : Run),
      instrWf (.sel t idx o) = true ∧ Issues s t idx (.vec .sel o) r ∧ r.members.Nodup)
    ∧ (∃ (s : State) (t : Nat) (idx : Nat) (o : VecOps) (r : Run),
      instrWf (.iadd t idx o) = true ∧ Issues s t idx (.vec .iadd o) r ∧ r.members.Nodup)
    ∧ (∃ (s : State) (t : Nat) (idx : Nat) (o : VecOps) (r : Run),
      instrWf (.imin t idx o) = true ∧ Issues s t idx (.vec .imin o) r ∧ r.members.Nodup)
    ∧ (∃ (s : State) (t : Nat) (idx : Nat) (o : VecOps) (r : Run),
      instrWf (.imax t idx o) = true ∧ Issues s t idx (.vec .imax o) r ∧ r.members.Nodup) :=
  ⟨⟨(wRun (wRunOf [.vec .add wVec])).modTile 0 fun y =>
      { y with tregs := [(2048, 0x3F80), (2049, 0x4000), (4096, 0x4040), (4097, 0xC000)] }, 0, 0, wVec, Option.get ((((wRun (wRunOf
      [.vec .add wVec])).modTile 0 fun y => { y with tregs := [(2048, 0x3F80), (2049, 0x4000), (4096, 0x4040), (4097, 0xC000)] } :
      State).tile (0)).run) (by decide +kernel), by decide +kernel, (by and_intros <;> decide +kernel), by decide +kernel⟩,
    ⟨(wRun (wRunOf [.vec .mul wVec])).modTile 0 fun y =>
      { y with tregs := [(2048, 0x3F80), (2049, 0x4000), (4096, 0x4040), (4097, 0xC000)] }, 0, 0, wVec, Option.get ((((wRun (wRunOf
      [.vec .mul wVec])).modTile 0 fun y => { y with tregs := [(2048, 0x3F80), (2049, 0x4000), (4096, 0x4040), (4097, 0xC000)] } :
      State).tile (0)).run) (by decide +kernel), by decide +kernel, (by and_intros <;> decide +kernel), by decide +kernel⟩,
    ⟨(wRun (wRunOf [.vec .fma wVec])).modTile 0 fun y =>
      { y with tregs := [(2048, 0x3F80), (2049, 0x4000), (4096, 0x4040), (4097, 0xC000)] }, 0, 0, wVec, Option.get ((((wRun (wRunOf
      [.vec .fma wVec])).modTile 0 fun y => { y with tregs := [(2048, 0x3F80), (2049, 0x4000), (4096, 0x4040), (4097, 0xC000)] } :
      State).tile (0)).run) (by decide +kernel), by decide +kernel, (by and_intros <;> decide +kernel), by decide +kernel⟩,
    ⟨(wRun (wRunOf [.vec .min wVec])).modTile 0 fun y =>
      { y with tregs := [(2048, 0x3F80), (2049, 0x4000), (4096, 0x4040), (4097, 0xC000)] }, 0, 0, wVec, Option.get ((((wRun (wRunOf
      [.vec .min wVec])).modTile 0 fun y => { y with tregs := [(2048, 0x3F80), (2049, 0x4000), (4096, 0x4040), (4097, 0xC000)] } :
      State).tile (0)).run) (by decide +kernel), by decide +kernel, (by and_intros <;> decide +kernel), by decide +kernel⟩,
    ⟨(wRun (wRunOf [.vec .max wVec])).modTile 0 fun y =>
      { y with tregs := [(2048, 0x3F80), (2049, 0x4000), (4096, 0x4040), (4097, 0xC000)] }, 0, 0, wVec, Option.get ((((wRun (wRunOf
      [.vec .max wVec])).modTile 0 fun y => { y with tregs := [(2048, 0x3F80), (2049, 0x4000), (4096, 0x4040), (4097, 0xC000)] } :
      State).tile (0)).run) (by decide +kernel), by decide +kernel, (by and_intros <;> decide +kernel), by decide +kernel⟩,
    ⟨(wRun (wRunOf [.vec .sel wVec])).modTile 0 fun y =>
      { y with tregs := [(2048, 0x3F80), (2049, 0x4000), (4096, 0x4040), (4097, 0xC000)] }, 0, 0, wVec, Option.get ((((wRun (wRunOf
      [.vec .sel wVec])).modTile 0 fun y => { y with tregs := [(2048, 0x3F80), (2049, 0x4000), (4096, 0x4040), (4097, 0xC000)] } :
      State).tile (0)).run) (by decide +kernel), by decide +kernel, (by and_intros <;> decide +kernel), by decide +kernel⟩,
    ⟨(wRun (wRunOf [.vec .iadd { wVec with ty := .i16 }])).modTile 0 fun y =>
      { y with tregs := [(2048, 0x7FF0), (2049, 0x4000), (4096, 0x4040), (4097, 0xC000)] }, 0, 0, { wVec with ty := .i16 },
      Option.get ((((wRun (wRunOf [.vec .iadd { wVec with ty := .i16 }])).modTile 0 fun y =>
      { y with tregs := [(2048, 0x7FF0), (2049, 0x4000), (4096, 0x4040), (4097, 0xC000)] } : State).tile (0)).run) (by
      decide +kernel), by decide +kernel, (by and_intros <;> decide +kernel), by decide +kernel⟩,
    ⟨(wRun (wRunOf [.vec .imin { wVec with ty := .i16 }])).modTile 0 fun y =>
      { y with tregs := [(2048, 0x7FF0), (2049, 0x4000), (4096, 0x4040), (4097, 0xC000)] }, 0, 0, { wVec with ty := .i16 },
      Option.get ((((wRun (wRunOf [.vec .imin { wVec with ty := .i16 }])).modTile 0 fun y =>
      { y with tregs := [(2048, 0x7FF0), (2049, 0x4000), (4096, 0x4040), (4097, 0xC000)] } : State).tile (0)).run) (by
      decide +kernel), by decide +kernel, (by and_intros <;> decide +kernel), by decide +kernel⟩,
    ⟨(wRun (wRunOf [.vec .imax { wVec with ty := .i16 }])).modTile 0 fun y =>
      { y with tregs := [(2048, 0x7FF0), (2049, 0x4000), (4096, 0x4040), (4097, 0xC000)] }, 0, 0, { wVec with ty := .i16 },
      Option.get ((((wRun (wRunOf [.vec .imax { wVec with ty := .i16 }])).modTile 0 fun y =>
      { y with tregs := [(2048, 0x7FF0), (2049, 0x4000), (4096, 0x4040), (4097, 0xC000)] } : State).tile (0)).run) (by
      decide +kernel), by decide +kernel, (by and_intros <;> decide +kernel), by decide +kernel⟩⟩

theorem witness_VectorMasks :
    (∃ (s : State) (t : Nat) (idx : Nat) (rel : Rel) (o : VecOps) (r : Run),
      instrWf (.cmp t idx rel o) = true ∧ Issues s t idx (.vec (.cmp rel) o) r ∧ r.members.Nodup)
    ∧ (∃ (s : State) (t : Nat) (idx : Nat) (rel : Rel) (o : VecOps) (r : Run),
      instrWf (.icmp t idx rel o) = true ∧ Issues s t idx (.vec (.icmp rel) o) r ∧ r.members.Nodup)
    ∧ (∃ (s : State) (t : Nat) (idx : Nat) (o : VecOps) (r : Run),
      instrWf (.mand t idx o) = true ∧ Issues s t idx (.vec .mand o) r ∧ r.members.Nodup)
    ∧ (∃ (s : State) (t : Nat) (idx : Nat) (o : VecOps) (r : Run),
      instrWf (.mor t idx o) = true ∧ Issues s t idx (.vec .mor o) r ∧ r.members.Nodup)
    ∧ (∃ (s : State) (t : Nat) (idx : Nat) (o : VecOps) (r : Run),
      instrWf (.mxor t idx o) = true ∧ Issues s t idx (.vec .mxor o) r ∧ r.members.Nodup)
    ∧ (∃ (s : State) (t : Nat) (idx : Nat) (o : VecOps) (r : Run),
      instrWf (.mandn t idx o) = true ∧ Issues s t idx (.vec .mandn o) r ∧ r.members.Nodup)
    ∧ (∃ (s : State) (t : Nat) (idx : Nat) (o : VecOps) (r : Run),
      instrWf (.mnot t idx o) = true ∧ Issues s t idx (.vec .mnot o) r ∧ r.members.Nodup) :=
  ⟨⟨(wRun (wRunOf [.vec (.cmp .lt) (wVec)])).modTile 0 fun y =>
      { y with tregs := [(2048, 0x3F80), (2049, 0x4000), (4096, 0x4040), (4097, 0xC000)], masks := [(0, 1), (2049, 1)] }, 0, 0, .lt,
      wVec, Option.get ((((wRun (wRunOf [.vec (.cmp .lt) (wVec)])).modTile 0 fun y =>
      { y with tregs := [(2048, 0x3F80), (2049, 0x4000), (4096, 0x4040), (4097, 0xC000)], masks := [(0, 1), (2049, 1)] } :
      State).tile (0)).run) (by decide +kernel), by decide +kernel, (by and_intros <;> decide +kernel), by decide +kernel⟩,
    ⟨(wRun (wRunOf [.vec (.icmp .lt) ({ wVec with ty := .i16 })])).modTile 0 fun y =>
      { y with tregs := [(2048, 0x3F80), (2049, 0x4000), (4096, 0x4040), (4097, 0xC000)], masks := [(0, 1), (2049, 1)] }, 0, 0, .lt,
      { wVec with ty := .i16 }, Option.get ((((wRun (wRunOf [.vec (.icmp .lt) ({ wVec with ty := .i16 })])).modTile 0 fun y =>
      { y with tregs := [(2048, 0x3F80), (2049, 0x4000), (4096, 0x4040), (4097, 0xC000)], masks := [(0, 1), (2049, 1)] } :
      State).tile (0)).run) (by decide +kernel), by decide +kernel, (by and_intros <;> decide +kernel), by decide +kernel⟩,
    ⟨(wRun (wRunOf [.vec .mand (wVec)])).modTile 0 fun y =>
      { y with tregs := [(2048, 0x3F80), (2049, 0x4000), (4096, 0x4040), (4097, 0xC000)], masks := [(0, 1), (2049, 1)] }, 0, 0,
      wVec, Option.get ((((wRun (wRunOf [.vec .mand (wVec)])).modTile 0 fun y =>
      { y with tregs := [(2048, 0x3F80), (2049, 0x4000), (4096, 0x4040), (4097, 0xC000)], masks := [(0, 1), (2049, 1)] } :
      State).tile (0)).run) (by decide +kernel), by decide +kernel, (by and_intros <;> decide +kernel), by decide +kernel⟩,
    ⟨(wRun (wRunOf [.vec .mor (wVec)])).modTile 0 fun y =>
      { y with tregs := [(2048, 0x3F80), (2049, 0x4000), (4096, 0x4040), (4097, 0xC000)], masks := [(0, 1), (2049, 1)] }, 0, 0,
      wVec, Option.get ((((wRun (wRunOf [.vec .mor (wVec)])).modTile 0 fun y =>
      { y with tregs := [(2048, 0x3F80), (2049, 0x4000), (4096, 0x4040), (4097, 0xC000)], masks := [(0, 1), (2049, 1)] } :
      State).tile (0)).run) (by decide +kernel), by decide +kernel, (by and_intros <;> decide +kernel), by decide +kernel⟩,
    ⟨(wRun (wRunOf [.vec .mxor (wVec)])).modTile 0 fun y =>
      { y with tregs := [(2048, 0x3F80), (2049, 0x4000), (4096, 0x4040), (4097, 0xC000)], masks := [(0, 1), (2049, 1)] }, 0, 0,
      wVec, Option.get ((((wRun (wRunOf [.vec .mxor (wVec)])).modTile 0 fun y =>
      { y with tregs := [(2048, 0x3F80), (2049, 0x4000), (4096, 0x4040), (4097, 0xC000)], masks := [(0, 1), (2049, 1)] } :
      State).tile (0)).run) (by decide +kernel), by decide +kernel, (by and_intros <;> decide +kernel), by decide +kernel⟩,
    ⟨(wRun (wRunOf [.vec .mandn (wVec)])).modTile 0 fun y =>
      { y with tregs := [(2048, 0x3F80), (2049, 0x4000), (4096, 0x4040), (4097, 0xC000)], masks := [(0, 1), (2049, 1)] }, 0, 0,
      wVec, Option.get ((((wRun (wRunOf [.vec .mandn (wVec)])).modTile 0 fun y =>
      { y with tregs := [(2048, 0x3F80), (2049, 0x4000), (4096, 0x4040), (4097, 0xC000)], masks := [(0, 1), (2049, 1)] } :
      State).tile (0)).run) (by decide +kernel), by decide +kernel, (by and_intros <;> decide +kernel), by decide +kernel⟩,
    ⟨(wRun (wRunOf [.vec .mnot { wVec with b := ⟨false, false, false, 0⟩ }])).modTile 0 fun y =>
      { y with tregs := [(2048, 0x3F80), (2049, 0x4000), (4096, 0x4040), (4097, 0xC000)], masks := [(0, 1), (2049, 1)] }, 0, 0,
      { wVec with b := ⟨false, false, false, 0⟩ }, Option.get ((((wRun (wRunOf [.vec .mnot
      { wVec with b := ⟨false, false, false, 0⟩ }])).modTile 0 fun y =>
      { y with tregs := [(2048, 0x3F80), (2049, 0x4000), (4096, 0x4040), (4097, 0xC000)], masks := [(0, 1), (2049, 1)] } :
      State).tile (0)).run) (by decide +kernel), by decide +kernel, (by and_intros <;> decide +kernel), by decide +kernel⟩⟩

theorem witness_VectorReductionsAndConversion :
    (∃ (s : State) (t : Nat) (idx : Nat) (o : VecOps) (r : Run),
      instrWf (.padd t idx o) = true ∧ Issues s t idx (.vec .padd o) r ∧ r.members.Nodup)
    ∧ (∃ (s : State) (t : Nat) (idx : Nat) (o : RedOps) (r : Run),
      instrWf (.sum t idx o) = true ∧ Issues s t idx (.red (.red .sum) o) r ∧ r.members.Nodup)
    ∧ (∃ (s : State) (t : Nat) (idx : Nat) (o : RedOps) (r : Run),
      instrWf (.sumsq t idx o) = true ∧ Issues s t idx (.red (.red .sumsq) o) r ∧ r.members.Nodup)
    ∧ (∃ (s : State) (t : Nat) (idx : Nat) (o : RedOps) (r : Run),
      instrWf (.redMax t idx o) = true ∧ Issues s t idx (.red (.red .max) o) r ∧ r.members.Nodup)
    ∧ (∃ (s : State) (t : Nat) (idx : Nat) (o : RedOps) (r : Run),
      instrWf (.redMin t idx o) = true ∧ Issues s t idx (.red (.red .min) o) r ∧ r.members.Nodup)
    ∧ (∃ (s : State) (t : Nat) (idx : Nat) (o : RedOps) (r : Run),
      instrWf (.maxabs t idx o) = true ∧ Issues s t idx (.red (.red .maxabs) o) r ∧ r.members.Nodup)
    ∧ (∃ (s : State) (t : Nat) (idx : Nat) (o : RedOps) (r : Run),
      instrWf (.argmax t idx o) = true ∧ Issues s t idx (.red (.red .argmax) o) r ∧ r.members.Nodup)
    ∧ (∃ (s : State) (t : Nat) (idx : Nat) (o : RedOps) (r : Run),
      instrWf (.popc t idx o) = true ∧ Issues s t idx (.red (.red .popc) o) r ∧ r.members.Nodup)
    ∧ (∃ (s : State) (t : Nat) (idx : Nat) (o : RedOps) (r : Run),
      instrWf (.permc t idx o) = true ∧ Issues s t idx (.red .permc o) r ∧ r.members.Nodup)
    ∧ (∃ (s : State) (t : Nat) (idx : Nat) (o : RedOps) (r : Run),
      instrWf (.permr t idx o) = true ∧ Issues s t idx (.red .permr o) r ∧ r.members.Nodup)
    ∧ (∃ (n : NumCtx) (x : Tile) (o : RedOps) (op : RedOp),
      o.axis = .all)
    ∧ (∃ (s : State) (t : Nat) (idx : Nat) (o : CvtOps) (r : Run),
      instrWf (.cvt t idx o) = true ∧ Issues s t idx (.cvt o) r ∧ r.members.Nodup ∧ ((r.issue idx (.cvt o)).anyMember fun m v =>
        !cvtScaleOk ((s.issuedAt t idx (.cvt o) r).tile v) ((r.issue idx (.cvt o)).viewsAt idx m) o) = false ∧ PostFits (r.issue idx
        (.cvt o)) .vector o.post) :=
  ⟨⟨(wRun (wRunOf [.vec .padd wVec])).modTile 0 fun y =>
      { y with tregs := [(2048, 0x3F80), (2049, 0x4000), (4096, 0x4040), (4097, 0xC000)], masks := [(0, 1), (2049, 1)] }, 0, 0,
      wVec, Option.get ((((wRun (wRunOf [.vec .padd wVec])).modTile 0 fun y =>
      { y with tregs := [(2048, 0x3F80), (2049, 0x4000), (4096, 0x4040), (4097, 0xC000)], masks := [(0, 1), (2049, 1)] } :
      State).tile (0)).run) (by decide +kernel), by decide +kernel, (by and_intros <;> decide +kernel), by decide +kernel⟩,
    ⟨(wRun (wRunOf [.red (.red .sum) wRed])).modTile 0 fun y =>
      { y with tregs := [(2048, 0x3F80), (2049, 0x4000), (4096, 0x4040), (4097, 0xC000)], masks := [(0, 1), (2049, 1)] }, 0, 0,
      wRed, Option.get ((((wRun (wRunOf [.red (.red .sum) wRed])).modTile 0 fun y =>
      { y with tregs := [(2048, 0x3F80), (2049, 0x4000), (4096, 0x4040), (4097, 0xC000)], masks := [(0, 1), (2049, 1)] } :
      State).tile (0)).run) (by decide +kernel), by decide +kernel, (by and_intros <;> decide +kernel), by decide +kernel⟩,
    ⟨(wRun (wRunOf [.red (.red .sumsq) wRed])).modTile 0 fun y =>
      { y with tregs := [(2048, 0x3F80), (2049, 0x4000), (4096, 0x4040), (4097, 0xC000)], masks := [(0, 1), (2049, 1)] }, 0, 0,
      wRed, Option.get ((((wRun (wRunOf [.red (.red .sumsq) wRed])).modTile 0 fun y =>
      { y with tregs := [(2048, 0x3F80), (2049, 0x4000), (4096, 0x4040), (4097, 0xC000)], masks := [(0, 1), (2049, 1)] } :
      State).tile (0)).run) (by decide +kernel), by decide +kernel, (by and_intros <;> decide +kernel), by decide +kernel⟩,
    ⟨(wRun (wRunOf [.red (.red .max) wRed])).modTile 0 fun y =>
      { y with tregs := [(2048, 0x3F80), (2049, 0x4000), (4096, 0x4040), (4097, 0xC000)], masks := [(0, 1), (2049, 1)] }, 0, 0,
      wRed, Option.get ((((wRun (wRunOf [.red (.red .max) wRed])).modTile 0 fun y =>
      { y with tregs := [(2048, 0x3F80), (2049, 0x4000), (4096, 0x4040), (4097, 0xC000)], masks := [(0, 1), (2049, 1)] } :
      State).tile (0)).run) (by decide +kernel), by decide +kernel, (by and_intros <;> decide +kernel), by decide +kernel⟩,
    ⟨(wRun (wRunOf [.red (.red .min) wRed])).modTile 0 fun y =>
      { y with tregs := [(2048, 0x3F80), (2049, 0x4000), (4096, 0x4040), (4097, 0xC000)], masks := [(0, 1), (2049, 1)] }, 0, 0,
      wRed, Option.get ((((wRun (wRunOf [.red (.red .min) wRed])).modTile 0 fun y =>
      { y with tregs := [(2048, 0x3F80), (2049, 0x4000), (4096, 0x4040), (4097, 0xC000)], masks := [(0, 1), (2049, 1)] } :
      State).tile (0)).run) (by decide +kernel), by decide +kernel, (by and_intros <;> decide +kernel), by decide +kernel⟩,
    ⟨(wRun (wRunOf [.red (.red .maxabs) wRed])).modTile 0 fun y =>
      { y with tregs := [(2048, 0x3F80), (2049, 0x4000), (4096, 0x4040), (4097, 0xC000)], masks := [(0, 1), (2049, 1)] }, 0, 0,
      wRed, Option.get ((((wRun (wRunOf [.red (.red .maxabs) wRed])).modTile 0 fun y =>
      { y with tregs := [(2048, 0x3F80), (2049, 0x4000), (4096, 0x4040), (4097, 0xC000)], masks := [(0, 1), (2049, 1)] } :
      State).tile (0)).run) (by decide +kernel), by decide +kernel, (by and_intros <;> decide +kernel), by decide +kernel⟩,
    ⟨(wRun (wRunOf [.red (.red .argmax) wRed])).modTile 0 fun y =>
      { y with tregs := [(2048, 0x3F80), (2049, 0x4000), (4096, 0x4040), (4097, 0xC000)], masks := [(0, 1), (2049, 1)] }, 0, 0,
      wRed, Option.get ((((wRun (wRunOf [.red (.red .argmax) wRed])).modTile 0 fun y =>
      { y with tregs := [(2048, 0x3F80), (2049, 0x4000), (4096, 0x4040), (4097, 0xC000)], masks := [(0, 1), (2049, 1)] } :
      State).tile (0)).run) (by decide +kernel), by decide +kernel, (by and_intros <;> decide +kernel), by decide +kernel⟩,
    ⟨(wRun (wRunOf [.red (.red .popc) wRed])).modTile 0 fun y =>
      { y with tregs := [(2048, 0x3F80), (2049, 0x4000), (4096, 0x4040), (4097, 0xC000)], masks := [(0, 1), (2049, 1)] }, 0, 0,
      wRed, Option.get ((((wRun (wRunOf [.red (.red .popc) wRed])).modTile 0 fun y =>
      { y with tregs := [(2048, 0x3F80), (2049, 0x4000), (4096, 0x4040), (4097, 0xC000)], masks := [(0, 1), (2049, 1)] } :
      State).tile (0)).run) (by decide +kernel), by decide +kernel, (by and_intros <;> decide +kernel), by decide +kernel⟩,
    ⟨(wRun (wRunOf [.red .permc { wRed with axis := .row }])).modTile 0 fun y =>
      { y with tregs := [(2048, 0x3F80), (2049, 0x4000), (4096, 0x4040), (4097, 0xC000)], masks := [(0, 1), (2049, 1)] }, 0, 0,
      { wRed with axis := .row }, Option.get ((((wRun (wRunOf [.red .permc { wRed with axis := .row }])).modTile 0 fun y =>
      { y with tregs := [(2048, 0x3F80), (2049, 0x4000), (4096, 0x4040), (4097, 0xC000)], masks := [(0, 1), (2049, 1)] } :
      State).tile (0)).run) (by decide +kernel), by decide +kernel, (by and_intros <;> decide +kernel), by decide +kernel⟩,
    ⟨(wRun (wRunOf [.red .permr { wRed with axis := .row }])).modTile 0 fun y =>
      { y with tregs := [(2048, 0x3F80), (2049, 0x4000), (4096, 0x4040), (4097, 0xC000)], masks := [(0, 1), (2049, 1)] }, 0, 0,
      { wRed with axis := .row }, Option.get ((((wRun (wRunOf [.red .permr { wRed with axis := .row }])).modTile 0 fun y =>
      { y with tregs := [(2048, 0x3F80), (2049, 0x4000), (4096, 0x4040), (4097, 0xC000)], masks := [(0, 1), (2049, 1)] } :
      State).tile (0)).run) (by decide +kernel), by decide +kernel, (by and_intros <;> decide +kernel), by decide +kernel⟩,
    ⟨⟨1, 2, false, false⟩, { tregs := [(2048, 0x3F80), (2049, 0x4000)] }, wRed, .sum, by decide +kernel⟩,
    by refine ⟨(wRun (wRunOf [.cvt wCvt])).modTile 0 fun y =>
      { y with tregs := [(2048, 0x3F80), (2049, 0x4000), (4096, 0x4040), (4097, 0xC000)], masks := [(0, 1), (2049, 1)] }, 0, 0,
      wCvt, Option.get ((((wRun (wRunOf [.cvt wCvt])).modTile 0 fun y =>
      { y with tregs := [(2048, 0x3F80), (2049, 0x4000), (4096, 0x4040), (4097, 0xC000)], masks := [(0, 1), (2049, 1)] } :
      State).tile (0)).run) (by decide +kernel), ?_, (by and_intros <;> decide +kernel), ?_, ?_, (by unfold PostFits; decide +kernel)⟩ <;> decide +kernel⟩

theorem witness_MemoryMoves :
    (∃ (s w : State) (t idx : Nat) (o : MovOps) (r : Run),
      instrWf (.ld t idx o) = true ∧ Issues s t idx (.mov .ld o) r ∧ PostFits (r.issue idx (.mov .ld o)) .dma o.post ∧ movNow
        (s.issuedAt t idx (.mov .ld o) r) t idx .ld o (r.issue idx (.mov .ld o)) = some (.ok, w))
    ∧ (∃ (s w : State) (t idx : Nat) (o : MovOps) (r : Run),
      instrWf (.st t idx o) = true ∧ Issues s t idx (.mov .st o) r ∧ s.storeReady t o = true ∧ movFrozen .st o (r.issue idx
        (.mov .st o)) = false ∧ PostFits (r.issue idx (.mov .st o)) .store o.post ∧ movNow (s.issuedAt t idx (.mov .st o) r) t
        idx .st o (r.issue idx (.mov .st o)) = some (.ok, w))
    ∧ (∃ (s w : State) (t idx : Nat) (o : MovOps) (r : Run),
      instrWf (.strec t idx o) = true ∧ Issues s t idx (.mov .strec o) r ∧ s.storeReady t o = true ∧ movFrozen .strec o
        (r.issue idx (.mov .strec o)) = false ∧ PostFits (r.issue idx (.mov .strec o)) .store o.post ∧ movNow (s.issuedAt t idx
        (.mov .strec o) r) t idx .strec o (r.issue idx (.mov .strec o)) = some (.ok, w))
    ∧ (∃ (s : State) (t idx : Nat) (o : MovOps) (r : Run) (h : Halt),
      instrWf (.ld t idx o) = true ∧ Issues s t idx (.mov .ld o) r ∧ PostFits (r.issue idx (.mov .ld o)) .dma o.post ∧ (∀ g ∈
        r.flights .dma, g.idx ≠ idx) ∧ movHalt (s.issuedAt t idx (.mov .ld o) r) t idx .ld o (r.issue idx (.mov .ld o)) = some h)
    ∧ (∃ (s : State) (t idx : Nat) (o : MovOps) (r : Run) (h : Halt),
      instrWf (.st t idx o) = true ∧ Issues s t idx (.mov .st o) r ∧ s.storeReady t o = true ∧ movFrozen .st o (r.issue idx
        (.mov .st o)) = false ∧ PostFits (r.issue idx (.mov .st o)) .store o.post ∧ (∀ g ∈ r.flights .store, g.idx ≠ idx) ∧
        movHalt (s.issuedAt t idx (.mov .st o) r) t idx .st o (r.issue idx (.mov .st o)) = some h)
    ∧ (∃ (s : State) (t idx : Nat) (o : MovOps) (r : Run),
      instrWf (.ld t idx o) = true ∧ (s.tile t).run = some r ∧ r.mayIssue idx (.mov .ld o) = true ∧ r.heldOn .dma = true ∧
        PostFits (r.issue idx (.mov .ld o)) .dma o.post ∧ (∀ g ∈ r.flights .dma, g.idx ≠ idx))
    ∧ (∃ (s : State) (t idx p k : Nat) (o : MovOps) (r : Run) (c : Slot),
      instrWf (.st t idx o) = true ∧ Issues s t idx (.mov .st o) r ∧ movFrozen .st o (r.issue idx (.mov .st o)) = true ∧
        s.storeReady t o = true ∧ PostFits (r.issue idx (.mov .st o)) .store o.post ∧ s.partOfTile t = some p ∧ (s.part p).run =
        some k ∧ s.slot? p k = some c ∧ c.fget R.SCH_UPD_CTL F.SCH_UPD_CTL_FROZEN_FAULT = 0)
    ∧ (∃ (s w : State) (t idx : Nat) (o : MovOps) (r : Run),
      instrWf (.hld t idx o) = true ∧ Issues s t idx (.mov .hld o) r ∧ PostFits (r.issue idx (.mov .hld o)) .dma o.post ∧
        movNow (s.issuedAt t idx (.mov .hld o) r) t idx .hld o (r.issue idx (.mov .hld o)) = some (.ok, w))
    ∧ (∃ (s w : State) (t idx : Nat) (o : MovOps) (r : Run),
      instrWf (.hst t idx o) = true ∧ Issues s t idx (.mov .hst o) r ∧ PostFits (r.issue idx (.mov .hst o)) .store o.post ∧
        movNow (s.issuedAt t idx (.mov .hst o) r) t idx .hst o (r.issue idx (.mov .hst o)) = some (.ok, w)) :=
  ⟨⟨{ wMap (wRun (wRunTen wDesc [.mov .ld wMov])) with mem := [(2 ^ 42 + 0x1001, 3)] }, wAfter _, 0, 0, wMov,
      (wRunTen wDesc [.mov .ld wMov]), by decide +kernel, by and_intros <;> decide +kernel, by unfold PostFits; decide +kernel,
      wAfterEq (by decide +kernel)⟩,
    by refine ⟨(wMap (wRun (wRunTen wDesc [.mov .st wMov]))).modTile 0 fun y => { y with mem := (y.mem.wr 0 5).wr 3 9 }, wAfter _, 0, 0,
      wMov, (wRunTen wDesc [.mov .st wMov]), ?_, by and_intros <;> decide +kernel, ?_,
      ?_, by unfold PostFits; decide +kernel, wAfterEq (by decide +kernel)⟩ <;> decide +kernel,
    by refine ⟨(wMap (wRun { wRunTen { wDesc with scalePtr := 0x2000 } [.mov .strec { wMov with recs := true }] with img := { (wRunTen { wDesc with scalePtr := 0x2000 } [.mov .strec { wMov with recs := true }]).img with views := [{ base := 0, pitch := 64, rows := 1, cols := 2, recs := 64, recEn := true }] } })).modTile 0 fun y => { y with mem := ((y.mem.wr 0 5).wr 64 0x7F).wr 65 0x7F },
      wAfter _, 0, 0, { wMov with recs := true },
      { wRunTen { wDesc with scalePtr := 0x2000 } [.mov .strec { wMov with recs := true }] with img := { (wRunTen { wDesc with scalePtr := 0x2000 } [.mov .strec { wMov with recs := true }]).img with views := [{ base := 0, pitch := 64, rows := 1, cols := 2, recs := 64, recEn := true }] } },
      ?_, by and_intros <;> decide +kernel, ?_, ?_,
      by unfold PostFits; decide +kernel, wAfterEq (by decide +kernel)⟩ <;> decide +kernel,
    ⟨wPeer (wRun (wRunTen wDesc [.mov .ld wMov])), 0, 0, wMov, (wRunTen wDesc [.mov .ld wMov]), _, by decide +kernel,
      by and_intros <;> decide +kernel, by unfold PostFits; decide +kernel, by decide +kernel, wGet .slot (by decide +kernel)⟩,
    by refine ⟨({ wMap (wRun (wRunTen wDesc [.mov .st wMov])) with migs := [(0, { wMig with phase := 4 })] } : State).modTile 0 fun y => { y with mem := (y.mem.wr 0 5).wr 3 9 },
      0, 0, wMov, (wRunTen wDesc [.mov .st wMov]), _, ?_, by and_intros <;> decide +kernel, ?_,
      ?_, by unfold PostFits; decide +kernel, ?_, wGet .slot (by decide +kernel)⟩ <;> decide +kernel,
    by refine ⟨wRun { wRunTen wDesc [.mov .ld wMov, .mov .ld wMov] with next := [1, 0, 0, 0, 0], dma := [{ idx := 0, cls := 0, op := 0, posts := [], held := some [] }] },
      0, 1, wMov,
      { wRunTen wDesc [.mov .ld wMov, .mov .ld wMov] with next := [1, 0, 0, 0, 0], dma := [{ idx := 0, cls := 0, op := 0, posts := [], held := some [] }] },
      ?_, ?_, ?_, ?_, by unfold PostFits; decide +kernel,
      ?_⟩ <;> decide +kernel,
    by refine ⟨(wMap (wRun (wRunTen { wDesc with frozen := true } [.mov .st wMov]))).modTile 0 fun y => { y with mem := (y.mem.wr 0 5).wr 3 9 },
      0, 0, 0, 0, wMov, (wRunTen { wDesc with frozen := true } [.mov .st wMov]), wSlot, ?_,
      by and_intros <;> decide +kernel, ?_, ?_, by unfold PostFits; decide +kernel,
      by and_intros <;> decide +kernel⟩ <;> decide +kernel,
    ⟨(wRun (wRunOf [.mov .hld wMov])).setHerd 0 { mem := [(1, 7)] }, wAfter _, 0, 0, wMov, (wRunOf [.mov .hld wMov]),
      by decide +kernel, by and_intros <;> decide +kernel, by unfold PostFits; decide +kernel, wAfterEq (by decide +kernel)⟩,
    ⟨(wRun (wRunOf [.mov .hst wMov])).modTile 0 fun y => { y with mem := (y.mem.wr 0 5).wr 3 9 }, wAfter _, 0, 0, wMov,
      (wRunOf [.mov .hst wMov]), by decide +kernel, by and_intros <;> decide +kernel, by unfold PostFits; decide +kernel,
      wAfterEq (by decide +kernel)⟩⟩

theorem witness_MatrixMultiply :
    ∃ (s : State) (t : Nat) (idx : Nat) (o : MmulOps) (r : Run),
      instrWf (.mmul t idx o) = true ∧ Issues s t idx (.mmul o) r ∧ r.members.Nodup ∧ r.members[0]? = some t ∧ s.mmulReady t o =
        true ∧ PostFits (r.issue idx (.mmul o)) .array o.post ∧ (o.init = .cont → ∀ m ∈ r.members, s.setValid m o.set = true) ∧
        (r.issue idx (.mmul o)).anyMember (fun m v => !mmaScaleOk ((s.issuedAt t idx (.mmul o) r).tile t) ((s.issuedAt t idx (.mmul
        o) r).tile v) (r.viewsAt idx 0) (r.viewsAt idx m) o (r.slotOf idx (.mmul o)) m) = false :=
    by refine ⟨wRun
      { wRunOf [.mspan ⟨0, 0, 0, 0, 0⟩, .mmul wMmul] with next := [0, 0, 0, 0, 1], pslots := [(0, [{ k := 16, m := 1, n := 1 }])] },
      0, 1, wMmul, Option.get (((wRun
      { wRunOf [.mspan ⟨0, 0, 0, 0, 0⟩, .mmul wMmul] with next := [0, 0, 0, 0, 1], pslots := [(0, [{ k := 16, m := 1, n := 1 }])] }
      : State).tile (0)).run) (by decide +kernel), ?_, (by and_intros <;> decide +kernel), ?_, ?_, ?_, (by unfold PostFits; decide +kernel), by and_intros <;> decide +kernel⟩ <;> decide +kernel

theorem witness_GangsScalarsAndNumctl :
    (∃ (s : State) (a : Agent) (h : Nat) (v : Nat),
      instrWf (.gangWrite a h v) = true ∧ s.entry a .hrd h (R.HRD_GANG h) true = .reach)
    ∧ (∃ (s : State) (a : Agent) (h : Nat) (v : Nat),
      instrWf (.gangWidthWrite a h v) = true ∧ s.entry a .hrd h (R.HRD_GANG_WIDTH h) true = .reach ∧ gangWidths.contains (bits v 0
        4) = true)
    ∧ (∃ (s : State) (h : Nat) (join : Nat) (width : Nat),
      h < 16 ∧ (s.herd h).gangPend = some (join, width) ∧ s.clk.phase < 9 ∧ (∀ i, i < 12 → (s.tile (12 * h + i)).run = none))
    ∧ (∃ (s : State) (a : Agent) (t : Nat) (n : Nat) (v : Nat),
      instrWf (.sregWrite a t n v) = true ∧ s.entry a .til t (R.TIL_SREG t n) true = .reach ∧ bits v 32 2 ≠ 3)
    ∧ (∃ (s : State) (a : Agent) (t : Nat) (v : Nat),
      instrWf (.numctlWrite a t v) = true ∧ s.entry a .til t (R.TIL_NUMCTL t) true = .reach) :=
  ⟨⟨wBase, .mgmt, 0, 0x8003, by and_intros <;> decide +kernel⟩,
    ⟨wBase, .mgmt, 0, 3, by and_intros <;> decide +kernel⟩,
    ⟨{ wBase.setHerd 1 { gangPend := some (7, 2) } with clk := { phase := 3 } }, 1, 7, 2,
      by and_intros <;> decide +kernel⟩,
    ⟨wBase, .mgmt, 5, 3, 0x123456789, by and_intros <;> decide +kernel⟩,
    ⟨wBase, .mgmt, 5, 3, by and_intros <;> decide +kernel⟩⟩

theorem witness_SegmentLifeAndStepRelease :
    (∃ (s s0 s1 s2 s3 : State) (t p : Nat) (x : Slot) (q : SegRef) (l : List SegRef) (w ws : List Nat) (h : Header) (dws : List (List Nat)) (e1 e2 e3 : Ld),
      t < 192 ∧ (s.tile t).queue = q :: l ∧ (s.tile t).fetched = none ∧ s.ctxOfHerd (t / 12) = some (p, x) ∧ q.ctx = x.ctx ∧
        (s.part p).sw = none ∧ s.tileFenced t = false ∧ q.gather = none ∧ s.workGoes (fetchUnit t) (fun _ => true) (fun s =>
        s.fetchImage t q x) = true ∧ s.workTry (fetchUnit t) id = s0 ∧ s0.fetchWords t q.herd q.addr 1 = (some w, e1, s1) ∧
        headerOf (w.getD 0 0) = some h ∧ s1.fetchWords t q.herd q.addr h.words = (some ws, e2, s2) ∧ State.fetchDescs t (imageOf
        h ws).ptrs s2 = (some dws, e3, s3) ∧ segLegal s3.period (imageOf h ws) dws = true ∧ descsStatus dws = 0)
    ∧ (∃ (s : State) (t p : Nat) (x : Slot) (q : SegRef) (l : List SegRef),
      t < 192 ∧ (s.tile t).queue = q :: l ∧ (s.tile t).fetched = none ∧ s.ctxOfHerd (t / 12) = some (p, x) ∧ q.ctx = x.ctx ∧
        (s.part p).sw = none ∧ s.tileFenced t = false ∧ q.gather = none ∧ s.workGoes (fetchUnit t) (fun _ => true) (fun s =>
        s.fetchImage t q x) = false)
    ∧ (∃ (s : State) (t : Nat) (p : Nat) (img : SegImg) (x : Slot),
      t < 192 ∧ (s.tile t).fetched = some img ∧ s.ctxOfHerd (t / 12) = some (p, x) ∧ s.canStart t img p x = true)
    ∧ (∃ (s : State) (t : Nat) (r : Run) (g : Nat × Nat),
      t < 192 ∧ (s.tile t).run = some r ∧ r.over = true ∧ r.img.gather = some g ∧ r.gathered = true ∧ s.unitAsks (gatherUnit
        t) = true)
    ∧ (∃ (s : State) (t : Nat) (r : Run),
      t < 192 ∧ (s.tile t).run = some r ∧ r.over = true ∧ (r.img.gather = none ∨ (r.gathered = true ∧ s.unitAsks (gatherUnit
        t) = false)))
    ∧ (∃ (s v : State) (p k : Nat) (x : Slot),
      p < 8 ∧ k < 4 ∧ s.slot? p k = some x ∧ s.atBoundary 6 = true ∧ x.settled s.tick = true ∧ x.relAt ≠ some s.tick ∧
        s.fenced 5 0 = false ∧ v = (s.took 6).setSlot p k {x with relAt := some s.tick} ∧ v.blockCode p
        {x with relAt := some s.tick} = 0 ∧ v.numctlDiff p = none ∧ v.workGoes (schedUnit p k) (fun _ => true) (fun s =>
        s.release p k {x with relAt := some s.tick}) = true) :=
  ⟨by refine ⟨wFetch, _, _, _, _, 0, 0, wSlot, { herd := true, addr := 0, ctx := 1 }, [], _, _,
      (headerOf 0x5000000000001).get (by decide +kernel), _, _, _, _, ?_, ?_, ?_,
      ?_, ?_, ?_, ?_, ?_, ?_, rfl,
      wTri [] (by decide +kernel), ?_, wTri [] (by decide +kernel), wTri [] (by decide +kernel), ?_,
      ?_⟩ <;> decide +kernel,
    ⟨(wPeer wBase).modTile 0 fun y => { y with queue := [{ herd := false, addr := 0, ctx := 1 }] }, 0, 0, wSlot,
      { herd := false, addr := 0, ctx := 1 }, [], by and_intros <;> decide +kernel⟩,
    ⟨wBase.modTile 0 fun y =>
      { y with queue := [{ herd := true, addr := 0, ctx := 1 }], fetched := some { segId := 5, budget := 256, fit := false, descs := [], cur := [], views := [], code := [tileEncode .nop] } },
      0, (Option.get ((wBase.modTile 0 fun y =>
      { y with queue := [{ herd := true, addr := 0, ctx := 1 }], fetched := some { segId := 5, budget := 256, fit := false, descs := [], cur := [], views := [], code := [tileEncode .nop] } }
      : State).ctxOfHerd ((0) / 12)) (by decide +kernel)).1, Option.get (((wBase.modTile 0 fun y =>
      { y with queue := [{ herd := true, addr := 0, ctx := 1 }], fetched := some { segId := 5, budget := 256, fit := false, descs := [], cur := [], views := [], code := [tileEncode .nop] } }
      : State).tile (0)).fetched) (by decide +kernel), (Option.get ((wBase.modTile 0 fun y =>
      { y with queue := [{ herd := true, addr := 0, ctx := 1 }], fetched := some { segId := 5, budget := 256, fit := false, descs := [], cur := [], views := [], code := [tileEncode .nop] } }
      : State).ctxOfHerd ((0) / 12)) (by decide +kernel)).2,
      by and_intros <;> decide +kernel⟩,
    ⟨{ wRun wGathered with rreqs := [(3, { wReq with who := .unit (gatherUnit 0) })] }, 0, wGathered, (0, 0),
      by and_intros <;> decide +kernel⟩,
    by refine ⟨wRun wGathered, 0, wGathered, ?_, ?_, ?_, .inr (by decide +kernel)⟩ <;> decide +kernel,
    by refine ⟨wAt 5 (wWith wDue), _, 0, 0, wDue, ?_, ?_, ?_, ?_,
      ?_, ?_, ?_, rfl, ?_, ?_, ?_⟩ <;> decide +kernel⟩

theorem witness_ItemsAndTasks :
    (∃ (s : State) (p k : Nat) (x : Slot),
      p < 8 ∧ k < 4 ∧ s.inStep p k = some x ∧ s.atBoundary 6 = true ∧ x.step.item = none ∧ x.itemAt ≠ some s.tick ∧ (s.took
        6).workGoes (schedUnit p k) (fun _ => true) (fun s => s.takeNext p k x) = true)
    ∧ (∃ (s : State) (p : Nat) (k : Nat) (x : Slot),
      p < 8 ∧ k < 4 ∧ s.inStep p k = some x ∧ s.atBoundary 6 = true ∧ x.updAt ≠ some s.tick ∧ x.backwardDone = true ∧
        x.step.gatherOver = true ∧ x.step.updOpen = false ∧ x.step.retired (fun i => tKind (x.step.tasks.getD i []) == 4) =
        false)
    ∧ (∃ (s : State) (v : State) (p : Nat) (k : Nat) (x : Slot),
      p < 8 ∧ k < 4 ∧ s.stepping p k = some x ∧ x.backwardDone = true ∧ x.step.gathered = false ∧ x.step.live8 ≠ [] ∧
        State.gatherPushAll p k x.ctx x.step.liveGroups (s.setSlot p k
        {x with step := {x.step with gathered := true, gathers := x.step.liveGroups}}) = some v)
    ∧ (∃ (s s1 s2 : State) (p k i late : Nat) (x : Slot) (t : List Nat) (upd : Option (Nat × Nat)) (rs hs : List Nat),
      instrWf (.taskDispatch p k i) = true ∧ s.stepping p k = some x ∧ x.step.tasks[i]? = some t ∧ x.step.state.find? i = none
        ∧ x.depsDone i t = true ∧ s.admits x i t = true ∧ s.taskOk p i x.nmb t = true ∧ (s.workTry (schedUnit p k) id).taskFate
        p x t = (.run upd late, s1) ∧ s1.inputRanges p t = (rs, s2) ∧ s2.chooseHerds (s2.chooseDie rs) (x.fget R.SCH_TASK_COUNT
        F.SCH_TASK_COUNT_SPILL == 1) (tHerds t) (s2.roomHerds p t) = some hs ∧ s.workGoes (schedUnit p k) (fun _ => true) (fun s
        => s.dispatch p k i x t) = true)
    ∧ (∃ (s : State) (p k i : Nat) (x : Slot),
      instrWf (.prefetchRequest p k i) = true ∧ s.slot? p k = some x ∧ x.step.abort = none ∧ s.fenced 5 0 = false ∧
        x.prefetchDue (if x.step.live = true then x.step.tasks else ((s.workTry (schedUnit p k) id).readTasks p x).1) i s.tick =
        true ∧ s.workGoes (schedUnit p k) (fun _ => true) (fun s => s.prefetchTask p k i x) = true)
    ∧ (∃ (s : State) (a : Agent) (h : Nat) (q : HerdTask) (l : List HerdTask),
      instrWf (.taskPop a h) = true ∧ s.entry a .hrd h (R.HRD_TASK_POP h) false = .reach ∧ (s.herd h).tasks = q :: l)
    ∧ (∃ (s : State) (a : Agent) (h : Nat) (v : Nat) (p : Nat) (q : HerdTask),
      instrWf (.taskDone a h v) = true ∧ s.entry a .hrd h (R.HRD_TASK_DONE h) true = .reach ∧ s.partOfHerd h = some p ∧
        (s.herd h).popped.find? (fun e => e.index == bits v 0 16) = some q ∧ bits v 16 8 ≤ 7)
    ∧ (∃ (s : State) (p : Nat) (k : Nat) (i : Nat) (h : Nat) (x : Slot) (ts : TaskSt),
      s.slot? p k = some x ∧ x.step.live = true ∧ Map.find? x.step.state i = some ts ∧ ts.phase = 1 ∧ h ∈ ts.herds ∧ (∀ g ∈
        ts.herds, g = h ∨ g ∈ ts.done))
    ∧ (∃ (s : State) (a : Agent) (h : Nat),
      instrWf (.rootKept a h) = true ∧ s.entry a .hrd h (R.HRD_UPD_EVT h) true = .reach) :=
  ⟨⟨wAt 5 (wStep { tasks := [wTask 1 1] }), 0, 0, { wSlot with step := { live := true, tasks := [wTask 1 1] } },
      by and_intros <;> decide +kernel⟩,
    ⟨wAt 5 (wStep { tasks := [wTask 4 1] }), 0, 0, Option.get ((wAt 5 (wStep { tasks := [wTask 4 1] }) : State).inStep (0) (0))
      (by decide +kernel),
      by and_intros <;> decide +kernel⟩,
    by refine ⟨wAt 5 (wStep { live8 := [1] }), Option.get (State.gatherPushAll 0 0 wGath.ctx wGath.step.liveGroups
      ((wAt 5 (wStep { live8 := [1] })).setSlot 0 0 { wGath with step := { wGath.step with gathered := true, gathers := wGath.step.liveGroups } }))
      (by decide +kernel), 0, 0, wGath, ?_, ?_, ?_, ?_,
      ?_, ?_, (Option.some_get _).symm⟩ <;> decide +kernel,
    by refine ⟨wStep { tasks := [wTask 0 1] }, _, _, 0, 0, 0, 0, { wSlot with step := { live := true, tasks := [wTask 0 1] } }, wTask 0 1,
      none, _, _, ?_, ?_, ?_, ?_, ?_, ?_,
      ?_, wPair (by decide +kernel), wEta, wGet [] (by decide +kernel), ?_⟩ <;> decide +kernel,
    ⟨wPre, 0, 0, 0, Option.get (wPre.slot? 0 0) (by decide +kernel), by and_intros <;> decide +kernel⟩,
    ⟨wBase.setHerd 0 { tasks := [{ slot := 0, index := 3, rank := 1, arg := 64, upd := some (5, 6) }] }, .mgmt, 0, List.head
      (((wBase.setHerd 0 { tasks := [{ slot := 0, index := 3, rank := 1, arg := 64, upd := some (5, 6) }] } : State).herd
      (0)).tasks) (by decide +kernel), (((wBase.setHerd 0
      { tasks := [{ slot := 0, index := 3, rank := 1, arg := 64, upd := some (5, 6) }] } : State).herd (0)).tasks).tail, by
      decide +kernel, by and_intros <;> decide +kernel⟩,
    ⟨(wStep { tasks := [wTask 0 1], state := [(0, { phase := 1, herds := [0] })] }).setHerd 0
      { popped := [{ slot := 0, index := 0, rank := 0, arg := 64 }] }, .mgmt, 0, 0, Option.get (((wStep
      { tasks := [wTask 0 1], state := [(0, { phase := 1, herds := [0] })] }).setHerd 0
      { popped := [{ slot := 0, index := 0, rank := 0, arg := 64 }] } : State).partOfHerd (0)) (by decide +kernel), Option.get
      ((((wStep { tasks := [wTask 0 1], state := [(0, { phase := 1, herds := [0] })] }).setHerd 0
      { popped := [{ slot := 0, index := 0, rank := 0, arg := 64 }] } : State).herd (0)).popped.find? (fun e => e.index == bits (0)
      0 16)) (by decide +kernel),
      by and_intros <;> decide +kernel⟩,
    ⟨wStep { tasks := [wTask 0 1], state := [(0, { phase := 1, herds := [0] })] }, 0, 0, 0, 0, Option.get ((wStep
      { tasks := [wTask 0 1], state := [(0, { phase := 1, herds := [0] })] } : State).slot? (0) (0)) (by decide +kernel), Option.get
      (Map.find? (Option.get ((wStep { tasks := [wTask 0 1], state := [(0, { phase := 1, herds := [0] })] } : State).slot? (0) (0))
      (by decide +kernel) : Slot).step.state (0)) (by decide +kernel),
      by and_intros <;> decide +kernel⟩,
    ⟨State.reset, .mgmt, 0, by and_intros <;> decide +kernel⟩⟩

theorem witness_CommitAndPass :
    (∃ (s : State) (p k : Nat) (x : Slot),
      p < 8 ∧ k < 4 ∧ s.slot? p k = some x ∧ x.step.live = true ∧ x.step.abort = none ∧ x.step.issued = none ∧ x.stepOver =
        true ∧ s.statsIn p x = true ∧ s.fenced 5 0 = false)
    ∧ (∃ (s : State) (p k : Nat),
      p < 8 ∧ k < 4 ∧ s.fenced 5 0 = true)
    ∧ (∃ i a b : Nat,
      xchgMax i = false)
    ∧ (∃ i a b : Nat,
      xchgMax i = true ∧ a < 2 ^ 64 ∧ b < 2 ^ 64)
    ∧ (∃ (s v : State) (d g : Nat) (c : Coll) (e : Ctx) (p k : Nat) (y : Slot),
      instrWf (.collectiveEnd d g) = true ∧ s.collHead d g = some c ∧ c.op = 3 ∧ c.done = true ∧ c.status = 0 ∧ s.regPast
        c.marks = true ∧ s.unitAsks (collUnit d g) = false ∧ s.workGoes (collUnit d g) (fun _ => true) (fun s => s.collLeaves d
        c) = true ∧ v = s.workDone (collUnit d g) (fun _ => true) (fun s => s.collLeaves d c) ∧ v.ctxs.find? c.ctx = some e ∧
        e.part = p ∧ e.slot = some k ∧ v.slot? p k = some y ∧ y.step.issued ≠ none)
    ∧ (∃ (s : State) (p k i : Nat) (res : XchgRes) (x : Slot),
      instrWf (.exchangeResult p k res) = true ∧ s.slot? p k = some x ∧ x.step.live = true ∧ x.step.abort = none ∧
        x.step.result = none ∧ x.step.xres = some res ∧ x.step.issued = some i ∧ res.status = 0)
    ∧ (∃ (s : State) (p : Nat) (k : Nat) (i : Nat) (x : Slot),
      p < 8 ∧ k < 4 ∧ s.slot? p k = some x ∧ x.step.live = true ∧ x.step.abort = none ∧ x.step.result = none ∧ x.step.issued =
        some i ∧ i + x.pget F.SCH_PIPE_CTL_XCH_TICKS ≤ s.tick)
    ∧ (∃ (s : State) (p : Nat) (k : Nat) (b : Nat) (x : Slot) (r : XchgRes),
      p < 8 ∧ k < 4 ∧ s.slot? p k = some x ∧ s.atBoundary 4 = true ∧ s.fenced 5 0 = false ∧ s.flipDue x = some (r, b) ∧ (∀ e ∈
        r.slots, e.1 < 64))
    ∧ (∃ (s w : State) (p k : Nat) (x : Slot),
      p < 8 ∧ k < 4 ∧ s.slot? p k = some x ∧ x.pass = 1 ∧ s.passAsks p k = false ∧ s.regPast x.passMarks = true ∧ s.fenced 5 0
        = false ∧ s.workNow (schedUnit p k) (x.passMarks != []) (fun s => ((), s.rescaleWork p k x)) = .done () w)
    ∧ (∃ (s : State) (p k : Nat) (x : Slot) (h : Halt),
      p < 8 ∧ k < 4 ∧ s.slot? p k = some x ∧ x.pass = 1 ∧ s.passAsks p k = false ∧ s.regPast x.passMarks = true ∧ s.fenced 5 0
        = false ∧ s.workNow (schedUnit p k) (x.passMarks != []) (fun s => ((), s.rescaleWork p k x)) = .halts h)
    ∧ (∃ (s w : State) (p k : Nat) (x : Slot) (m : List (Nat × Nat)),
      p < 8 ∧ k < 4 ∧ s.slot? p k = some x ∧ x.pass = 1 ∧ s.passAsks p k = false ∧ s.regPast x.passMarks = true ∧ s.fenced 5 0
        = false ∧ s.workNow (schedUnit p k) (x.passMarks != []) (fun s => ((), s.rescaleWork p k x)) = .waits w m)
    ∧ (∃ (s : State) (p k : Nat) (x : Slot),
      p < 8 ∧ k < 4 ∧ s.slot? p k = some x ∧ (s.passAsks p k = true ∨ s.regPast x.passMarks = false ∨ s.fenced 5 0 = true))
    ∧ (∃ (s : State) (p k : Nat) (x : Slot),
      p < 8 ∧ k < 4 ∧ s.slot? p k = some x ∧ x.pass = 2 ∧ s.passAsks p k = false)
    ∧ (∃ (s : State) (p k : Nat),
      p < 8 ∧ k < 4 ∧ s.passAsks p k = true)
    ∧ (∃ (s : State) (p : Nat) (k : Nat) (x : Slot),
      p < 8 ∧ k < 4 ∧ s.slot? p k = some x ∧ s.atBoundary 5 = true ∧ x.step.live = true ∧ s.abortDue x = true)
    ∧ (∃ (s : State) (p : Nat) (k : Nat) (x : Slot),
      p < 8 ∧ k < 4 ∧ s.slot? p k = some x ∧ s.atBoundary 5 = true ∧ x.step.live = false ∧ (∃ e ∈ x.stots, e.came < s.tick)) :=
  ⟨⟨wAt 5 (wStep { doneItems := [(false, 0)] }), 0, 0, { wSlot with step := { live := true, doneItems := [(false, 0)] } },
      by and_intros <;> decide +kernel⟩,
    ⟨{ State.reset with doms := [{ code := 5, unit := 0, phase := 1, since := 0 }] }, 0, 0, by and_intros <;> decide +kernel⟩,
    ⟨0, 1, 2, by and_intros <;> decide +kernel⟩,
    ⟨2, 1, 2, by and_intros <;> decide +kernel⟩,
    by refine ⟨{ wStep { issued := some 2 } with colls := [(0, [{ wColl with op := 3, done := true }])] }, _, 0, 0,
      { wColl with op := 3, done := true }, { part := 0, slot := some 0, ready := false, job := 7 }, 0, 0,
      { wSlot with step := { issued := some 2, live := true } }, ?_, ?_, ?_,
      ?_, ?_, ?_, ?_, ?_, rfl, ?_,
      ?_, ?_, ?_, ?_⟩ <;> decide +kernel,
    ⟨wStep { issued := some 2, xres := some ⟨0, 0, 0, 0, []⟩ }, 0, 0, 2, ⟨0, 0, 0, 0, []⟩,
      { wSlot with step := { issued := some 2, xres := some ⟨0, 0, 0, 0, []⟩, live := true } }, by and_intros <;> decide +kernel⟩,
    ⟨{ wStep { issued := some 2 } with clk := { tb := 5000 * 65536, phase := 5 } }, 0, 0, Option.get ((Option.get
      (({ wStep { issued := some 2 } with clk := { tb := 5000 * 65536, phase := 5 } } : State).slot? (0) (0)) (by decide +kernel) :
      Slot).step.issued) (by decide +kernel), Option.get
      (({ wStep { issued := some 2 } with clk := { tb := 5000 * 65536, phase := 5 } } : State).slot? (0) (0)) (by decide +kernel),
      by and_intros <;> decide +kernel⟩,
    ⟨wAt 3 (wStep { result := some ⟨0, 0, 1, 1, [(2, [1, 2], 5)]⟩ }), 0, 0, (Option.get ((wAt 3 (wStep
      { result := some ⟨0, 0, 1, 1, [(2, [1, 2], 5)]⟩ }) : State).flipDue (Option.get ((wAt 3 (wStep
      { result := some ⟨0, 0, 1, 1, [(2, [1, 2], 5)]⟩ }) : State).slot? (0) (0)) (by decide +kernel) : Slot)) (by
      decide +kernel)).2, Option.get ((wAt 3 (wStep { result := some ⟨0, 0, 1, 1, [(2, [1, 2], 5)]⟩ }) : State).slot? (0) (0)) (by
      decide +kernel), (Option.get ((wAt 3 (wStep { result := some ⟨0, 0, 1, 1, [(2, [1, 2], 5)]⟩ }) : State).flipDue (Option.get
      ((wAt 3 (wStep { result := some ⟨0, 0, 1, 1, [(2, [1, 2], 5)]⟩ }) : State).slot? (0) (0)) (by decide +kernel) : Slot)) (by
      decide +kernel)).1,
      by and_intros <;> decide +kernel⟩,
    by refine ⟨wWith { wSlot with pass := 1 }, _, 0, 0, { wSlot with pass := 1 }, ?_, ?_, ?_,
      ?_, ?_, ?_, ?_, wDoneEq (by decide +kernel)⟩ <;> decide +kernel,
    by refine ⟨wPeer (wWith ({ wSlot with pass := 1 }.fset R.SCH_RESCALE_COUNT F.SCH_RESCALE_COUNT_COUNT 1)), 0, 0,
      { wSlot with pass := 1 }.fset R.SCH_RESCALE_COUNT F.SCH_RESCALE_COUNT_COUNT 1, _, ?_, ?_,
      ?_, ?_, ?_, ?_, ?_, wHaltEq (by decide +kernel)⟩ <;> decide +kernel,
    by refine ⟨{ wMap (wWith ({ wSlot with pass := 1 }.fset R.SCH_RESCALE_COUNT F.SCH_RESCALE_COUNT_COUNT 1)) with pools := [0, 0, 0] }, _,
      0, 0, { wSlot with pass := 1 }.fset R.SCH_RESCALE_COUNT F.SCH_RESCALE_COUNT_COUNT 1, _, ?_, ?_,
      ?_, ?_, ?_, ?_, ?_, wWaitEq (by decide +kernel)⟩ <;> decide +kernel,
    ⟨{ wWith { wSlot with pass := 1 } with rreqs := [(3, { wReq with who := .pass 0 0 0 })] }, 0, 0, { wSlot with pass := 1 },
      by and_intros <;> decide +kernel⟩,
    ⟨wWith { wSlot with pass := 2 }, 0, 0, { wSlot with pass := 2 }, by and_intros <;> decide +kernel⟩,
    ⟨{ wWith { wSlot with pass := 1 } with rreqs := [(3, { wReq with who := .pass 0 0 0 })] }, 0, 0,
      by and_intros <;> decide +kernel⟩,
    ⟨wAt 4 (wStep { abort := some {} }), 0, 0, Option.get ((wAt 4 (wStep { abort := some {} }) : State).slot? (0) (0)) (by
      decide +kernel),
      by and_intros <;> decide +kernel⟩,
    ⟨wAt 4 (wWith { wSlot with stots := [{ kind := 0, pkg := 0, origin := 1, came := 2 }] }), 0, 0,
      { wSlot with stots := [{ kind := 0, pkg := 0, origin := 1, came := 2 }] },
      by and_intros <;> decide +kernel⟩⟩

theorem witness_ContextRegisters :
    (∃ (s : State) (a : Agent) (p : Nat) (k : Nat) (x : Slot),
      instrWf (.resume a p) = true ∧ s.entry a .sch p (B.sch p + R.SCH_NUM_CTL) true = .reach ∧ s.selSlot a p = some k ∧ s.slot? p k
        = some x)
    ∧ (∃ (s : State) (a : Agent) (p : Nat) (k : Nat) (x : Slot) (g : Nat),
      instrWf (.verPin a p g) = true ∧ s.entry a .sch p (B.sch p + R.SCH_VER_PIN) true = .reach ∧ s.selSlot a p = some k ∧ s.slot? p
        k = some x)
    ∧ (∃ (s : State) (a : Agent) (p : Nat) (k : Nat) (x : Slot) (g : Nat),
      instrWf (.verUnpin a p g) = true ∧ s.entry a .sch p (B.sch p + R.SCH_VER_PIN) true = .reach ∧ s.selSlot a p = some k ∧ s.slot?
        p k = some x ∧ x.fget R.SCH_VER (pinFld g) < 256)
    ∧ (∃ (s : State) (a : Agent) (p : Nat) (k : Nat) (x : Slot) (n : Nat) (v : Nat),
      instrWf (.lrWrite a p n v) = true ∧ s.entry a .sch p (B.sch p + R.SCH_LR n) true = .reach ∧ s.selSlot a p = some k ∧ s.slot? p
        k = some x ∧ bits v 0 32 < 0x7F800000)
    ∧ (∃ (s : State) (a : Agent) (p : Nat) (k : Nat) (x : Slot),
      instrWf (.rejoin a p) = true ∧ s.entry a .sch p (B.sch p + R.SCH_REGROUP) true = .reach ∧ s.selSlot a p = some k ∧ s.slot? p k
        = some x ∧ x.fget R.SCH_REGROUP F.SCH_REGROUP_ACTIVE = 1)
    ∧ (∃ (s : State) (p : Nat) (k : Nat) (x : Slot),
      p < 8 ∧ k < 4 ∧ s.slot? p k = some x ∧ x.regroupOut s.clk.tb = true) :=
  ⟨⟨wWith (({ wSlot with regs := [] }.fset R.SCH_NUM_STAT F.SCH_NUM_STAT_SKIP_RUN 3).fset R.SCH_PIPE_STAT F.SCH_PIPE_STAT_HELD 1),
      .mgmt, 0, Option.get ((wWith (({ wSlot with regs := [] }.fset R.SCH_NUM_STAT F.SCH_NUM_STAT_SKIP_RUN 3).fset R.SCH_PIPE_STAT
      F.SCH_PIPE_STAT_HELD 1) : State).selSlot (.mgmt : Agent) (0)) (by decide +kernel), Option.get ((wWith
      (({ wSlot with regs := [] }.fset R.SCH_NUM_STAT F.SCH_NUM_STAT_SKIP_RUN 3).fset R.SCH_PIPE_STAT F.SCH_PIPE_STAT_HELD 1) :
      State).slot? (0) (Option.get ((wWith (({ wSlot with regs := [] }.fset R.SCH_NUM_STAT F.SCH_NUM_STAT_SKIP_RUN 3).fset
      R.SCH_PIPE_STAT F.SCH_PIPE_STAT_HELD 1) : State).selSlot (.mgmt : Agent) (0)) (by decide +kernel) : Nat)) (by decide +kernel),
      by and_intros <;> decide +kernel⟩,
    ⟨wBase, .mgmt, 0, Option.get ((wBase : State).selSlot (.mgmt : Agent) (0)) (by decide +kernel), Option.get ((wBase :
      State).slot? (0) (Option.get ((wBase : State).selSlot (.mgmt : Agent) (0)) (by decide +kernel) : Nat)) (by decide +kernel), 0,
      by and_intros <;> decide +kernel⟩,
    ⟨wWith (wSlot.fset R.SCH_VER (pinFld 0) 3), .mgmt, 0, Option.get ((wWith (wSlot.fset R.SCH_VER (pinFld 0) 3) : State).selSlot
      (.mgmt : Agent) (0)) (by decide +kernel), Option.get ((wWith (wSlot.fset R.SCH_VER (pinFld 0) 3) : State).slot? (0)
      (Option.get ((wWith (wSlot.fset R.SCH_VER (pinFld 0) 3) : State).selSlot (.mgmt : Agent) (0)) (by decide +kernel) : Nat)) (by
      decide +kernel), 0,
      by and_intros <;> decide +kernel⟩,
    ⟨wBase, .mgmt, 0, Option.get ((wBase : State).selSlot (.mgmt : Agent) (0)) (by decide +kernel), Option.get ((wBase :
      State).slot? (0) (Option.get ((wBase : State).selSlot (.mgmt : Agent) (0)) (by decide +kernel) : Nat)) (by decide +kernel), 5,
      2^63+0x3F800000,
      by and_intros <;> decide +kernel⟩,
    ⟨wWith (wSlot.fset R.SCH_REGROUP F.SCH_REGROUP_ACTIVE 1), .mgmt, 0, Option.get ((wWith (wSlot.fset R.SCH_REGROUP
      F.SCH_REGROUP_ACTIVE 1) : State).selSlot (.mgmt : Agent) (0)) (by decide +kernel), Option.get ((wWith (wSlot.fset
      R.SCH_REGROUP F.SCH_REGROUP_ACTIVE 1) : State).slot? (0) (Option.get ((wWith (wSlot.fset R.SCH_REGROUP F.SCH_REGROUP_ACTIVE 1)
      : State).selSlot (.mgmt : Agent) (0)) (by decide +kernel) : Nat)) (by decide +kernel),
      by and_intros <;> decide +kernel⟩,
    ⟨wWith ({ wSlot with regroupEnd := some 0 }.fset R.SCH_REGROUP F.SCH_REGROUP_ACTIVE 1), 0, 0, Option.get ((wWith
      ({ wSlot with regroupEnd := some 0 }.fset R.SCH_REGROUP F.SCH_REGROUP_ACTIVE 1) : State).slot? (0) (0)) (by decide +kernel),
      by and_intros <;> decide +kernel⟩⟩

theorem witness_RingCommands :
    (∃ (s : State) (a : Agent) (p : Nat) (v : Nat),
      instrWf (.cmdTailWrite a p v) = true ∧ s.entry a .sch p (R.SCH_CMD_PTR p) true = .reach)
    ∧ (∃ (s : State) (p : Nat) (r : CmdRec),
      instrWf (.cmdNop p r) = true ∧ s.ringReady p = true ∧ wordsOk r [] = true)
    ∧ (∃ (s : State) (p op : Nat) (rec : CmdRec) (c : Chk) (f : State → State),
      s.ringReady p = true ∧ s.oos = false ∧ c.status ≠ 0)
    ∧ (∃ (s : State) (p op : Nat) (rec : CmdRec) (c : Chk) (f : State → State),
      s.ringReady p = true ∧ s.oos = true ∧ c.fmt = true ∧ c.range = true)
    ∧ (∃ (s : State) (p op status result : Nat) (rec : CmdRec),
      p < 8) :=
  ⟨⟨wBase, .mgmt, 0, 2^32*3, by and_intros <;> decide +kernel⟩,
    ⟨(wBase).fset (R.SCH_CMD_PTR 0) F.SCH_CMD_PTR_TAIL 3, 0, wCmd 0, by and_intros <;> decide +kernel⟩,
    by refine ⟨(wBase).fset (R.SCH_CMD_PTR 0) F.SCH_CMD_PTR_TAIL 3, 0, 0x33, wCmd 1, { state := false }, id, ?_, ?_, ?_⟩ <;> decide +kernel,
    ⟨((wBase).fset (R.SCH_CMD_PTR 0) F.SCH_CMD_PTR_TAIL 3).fset R.FLT_STATUS F.FLT_STATUS_OOS 1, 0, 0x33, wCmd 1, { }, id,
      by and_intros <;> decide +kernel⟩,
    ⟨(wBase).fset (R.SCH_CMD_PTR 0) F.SCH_CMD_PTR_TAIL 3, 0, 0x33, 2, 0, wCmd 1, by decide +kernel⟩⟩

theorem witness_PlacementMaps :
    (∃ (s : State) (p : Nat) (rec : CmdRec),
      instrWf (.map p rec) = true ∧ s.ringReady p = true ∧ s.oos = false ∧ (s.mapChk rec).status = 0)
    ∧ (∃ (s v : State) (p : Nat) (rec : CmdRec),
      instrWf (.unmap p rec) = true ∧ s.ringReady p = true ∧ s.oos = false ∧ wordsOk rec [spanMask] = true ∧ rec.ctx = 0 ∧
        recSpanOk rec = true ∧ s.spanOwned p rec = true ∧ s.spanValid rec = true ∧ s.retiring = [] ∧ v = (recSpan rec).foldl
        State.unmapOne s)
    ∧ (∃ (s v : State) (p : Nat) (rec : CmdRec),
      instrWf (.setattr p rec) = true ∧ s.ringReady p = true ∧ s.oos = false ∧ wordsOk rec [spanMask, mask 3 9 ||| mask 16 16]
        = true ∧ rec.ctx = 0 ∧ recAff rec ≠ 3 ∧ (recSetpin rec = true → recPin rec = true → recTier rec < 2) ∧ recSpanOk rec =
        true ∧ s.spanOwned p rec = true ∧ s.spanValid rec = true ∧ s.spanLive rec = true ∧ v = (recSpan rec).foldl
        (State.setattrOne rec) s)
    ∧ (∃ (s : State) (p : Nat) (rec : CmdRec),
      instrWf (.peer p rec) = true ∧ s.ringReady p = true ∧ s.oos = false ∧ wordsOk rec [spanMask, mask 0 2, mask 0 11, mask 0
        21] = true ∧ rec.ctx = 0 ∧ recSpanOk rec = true ∧ recRemoteOk rec = true ∧ s.spanFree rec = true ∧ s.quotaOk (recPart
        rec) (recCount rec) = true) :=
  ⟨by refine ⟨wReady, 0, wMapRec, ?_, ?_, ?_, wMapChk⟩ <;> decide +kernel,
    ⟨wMapped, (recSpan { wCmd 0 with w1 := 5 + 2 ^ 32 }).foldl State.unmapOne wMapped, 0, { wCmd 0 with w1 := 5 + 2 ^ 32 },
      by and_intros <;> decide +kernel⟩,
    ⟨wMapped,
      (recSpan { wCmd 0 with w1 := 5 + 2 ^ 32, w2 := 3 * 2 ^ 3 + 2 ^ 5 + 2 ^ 7 + 2 ^ 16 }).foldl (State.setattrOne { wCmd 0 with w1 := 5 + 2 ^ 32, w2 := 3 * 2 ^ 3 + 2 ^ 5 + 2 ^ 7 + 2 ^ 16 }) wMapped,
      0, { wCmd 0 with w1 := 5 + 2 ^ 32, w2 := 3 * 2 ^ 3 + 2 ^ 5 + 2 ^ 7 + 2 ^ 16 }, by and_intros <;> decide +kernel⟩,
    ⟨(wBase).fset (R.SCH_CMD_PTR 0) F.SCH_CMD_PTR_TAIL 3, 0, { wCmd 0 with w1 := 5 + 2 ^ 32 },
      by and_intros <;> decide +kernel⟩⟩

theorem witness_PlacementFramesAndPolicy :
    (∃ (s : State) (p : Nat) (rec : CmdRec),
      instrWf (.move p rec) = true ∧ s.ringReady p = true ∧ s.oos = false ∧ wordsOk rec (moveMasks (recTier rec)) = true ∧
        rec.ctx = 0 ∧ recTier rec ≠ 3 ∧ recSpanOk rec = true ∧ s.spanOwned p rec = true ∧ (recTier rec = 2 → recRemoteOk rec =
        true) ∧ s.spanValid rec = true ∧ s.spanLive rec = true)
    ∧ (∃ (s : State) (p : Nat) (rec : CmdRec),
      instrWf (.reserve p rec) = true ∧ s.ringReady p = true ∧ s.oos = false ∧ wordsOk rec [0, mask 0 2 ||| mask 8 9, mask 0
        20 ||| mask 32 52] = true ∧ rec.ctx = 0 ∧ recTier rec < 2 ∧ recFramesOk rec = true ∧ (∀ f ∈ recFrames rec,
        s.reserved.find? f = none ∧ Map.get false s.bad f = false ∧ f ∉ s.retiring) ∧ s.reserveRoom (recFrames rec) = true)
    ∧ (∃ (s : State) (p : Nat) (rec : CmdRec),
      instrWf (.release p rec) = true ∧ s.ringReady p = true ∧ s.oos = false ∧ wordsOk rec [0, mask 8 9, mask 0 20 ||| mask 32
        52] = true ∧ rec.ctx = 0 ∧ recTier rec < 2 ∧ recFramesOk rec = true ∧ (∀ f ∈ recFrames rec, (∃ o, s.reserved.find? f =
        some o ∧ o < 8) ∧ s.windowBusy f = false))
    ∧ (∃ (s : State) (tier frame : Nat),
      instrWf (.frameRetire tier frame) = true ∧ Map.get false s.bad (frameKey tier frame) = false ∧ s.rangeAt (frameKey tier
        frame) = none ∧ frameKey tier frame ∉ s.retiring ∧ (∀ e ∈ s.migs, e.2.key ≠ some (frameKey tier frame) ∧ s.migSrc e.2 ≠
        some (frameKey tier frame)) ∧ (∀ e ∈ s.rmUpd, frameKey tier frame ∉ e.2.frames))
    ∧ (∃ (s : State) (tier frame r : Nat),
      instrWf (.frameRetire tier frame) = true ∧ Map.get false s.bad (frameKey tier frame) = false ∧ s.rangeAt (frameKey tier
        frame) = some r ∧ keyOf (s.rm r) = some (frameKey tier frame) ∧ frameKey tier frame ∉ s.retiring ∧ (∀ e ∈ s.migs,
        e.2.key ≠ some (frameKey tier frame) ∧ s.migSrc e.2 ≠ some (frameKey tier frame)) ∧ (∀ e ∈ s.rmUpd, frameKey tier frame
        ∉ e.2.frames))
    ∧ (∃ s : State,
      s.clk.phase < 9 ∧ s.tick % s.fget R.PLC_POLICY F.PLC_POLICY_EPOCH_TICKS = 0 ∧ s.epochTick ≠ some s.tick ∧ s.fbit
        R.PLC_CTRL F.PLC_CTRL_AUTO_EN = true)
    ∧ (∃ (s : State) (n : Nat),
      instrWf (.savedActDemote n) = true ∧ s.fbit R.PLC_CTRL F.PLC_CTRL_AUTO_EN = true ∧ rmFreeToMove (s.rm n) = true ∧ rmTier
        (s.rm n) = 0 ∧ rmHint (s.rm n) = 3 ∧ (∀ q, s.quiet.find? n = some q → s.fget R.PLC_POLICY F.PLC_POLICY_DEMOTE_TICKS ≤ q))
    ∧ (∃ (s : State) (p tier n f : Nat),
      instrWf (.regulatorIssue p tier n f) = true ∧ n ≠ 0) :=
  ⟨⟨{ (wBase).fset (R.SCH_CMD_PTR 0) F.SCH_CMD_PTR_TAIL 3 with rangeMap := [(5, newEntry 0 7 0 false 0 0), (6, newEntry 1 9 0 false 0 0)], reserved := [(0x400009, 3)] },
      0, { wCmd 0 with w1 := 5 + 2 ^ 32, w2 := 2 ^ 8 },
      by and_intros <;> decide +kernel⟩,
    ⟨{ (wBase).fset (R.SCH_CMD_PTR 0) F.SCH_CMD_PTR_TAIL 3 with rangeMap := [(5, newEntry 0 7 0 false 0 0), (6, newEntry 1 9 0 false 0 0)], reserved := [(0x400009, 3)] },
      0, { wCmd 0 with w3 := 6 + 2 ^ 32 },
      by and_intros <;> decide +kernel⟩,
    ⟨{ (wBase).fset (R.SCH_CMD_PTR 0) F.SCH_CMD_PTR_TAIL 3 with rangeMap := [(5, newEntry 0 7 0 false 0 0), (6, newEntry 1 9 0 false 0 0)], reserved := [(0x400009, 3)] },
      0, { wCmd 0 with w3 := 9 },
      by and_intros <;> decide +kernel⟩,
    ⟨wMapped, 0, 9, by and_intros <;> decide +kernel⟩,
    ⟨wMapped, 0, 7, 5, by and_intros <;> decide +kernel⟩,
    ⟨wAt 5 ((wMapped.fset R.PLC_CTRL F.PLC_CTRL_AUTO_EN 1).fset R.PLC_POLICY F.PLC_POLICY_EPOCH_TICKS 3),
      by and_intros <;> decide +kernel⟩,
    ⟨{ wBase.fset R.PLC_CTRL F.PLC_CTRL_AUTO_EN 1 with rangeMap := [(5, newEntry 0 7 0 false 0 3)] }, 5,
      by and_intros <;> decide +kernel⟩,
    ⟨wBase, 0, 0, 5, 0, by decide +kernel⟩⟩

theorem witness_Migrations :
    (∃ (s v : State) (d e : Nat) (q : MigReq),
      instrWf (.migrationStart d e) = true ∧ s.migs.find? (migKey d e) = none ∧ s.fenced 4 d = false ∧ v = (s.replenish
        d).prune ∧ v.migPick (Map.get [] v.migQ d) = some q ∧ (q.dest.tier = 2 ∨ (v.migFrame q).1.isSome = true) ∧ (s.rmcHolders
        q.range = 0 → q.dest.tier ≠ 2 ∧ (keyOf (s.rm q.range)).isSome = true))
    ∧ (∃ (s : State) (d n key : Nat) (m : Mig),
      instrWf (.rmcUpdateAck d n) = true ∧ s.migOf n = some (key, m) ∧ bit m.acks d = true ∧ (m.phase = 1 → (keyOf (s.rm
        m.req.range)).isSome = true ∧ m.tier < 2))
    ∧ (∃ (s : State) (d n : Nat) (x : RmUpd),
      instrWf (.rmcUpdateAck d n) = true ∧ (∀ (key : Nat) (m : Mig), s.migOf n = some (key, m) → bit m.acks d = false) ∧
        s.rmUpd.find? n = some x ∧ x.frames = [])
    ∧ (∃ (s : State) (d e : Nat) (m : Mig) (c : Instr),
      d < 2 ∧ e < 8 ∧ s.migs.find? (migKey d e) = some m ∧ (c = .migrationPrecopyEnd d e ∧ m.phase = 2 ∨ c =
        .migrationRoundEnd d e ∧ m.phase = 3) ∧ instrWf c = true ∧ s.copied (migKey d e) m = true ∧ (s.migSrc m).isSome = true ∧
        m.tier < 2)
    ∧ (∃ (s : State) (d e : Nat) (m : Mig) (c : Instr),
      d < 2 ∧ e < 8 ∧ s.migs.find? (migKey d e) = some m ∧ (c = .migrationPrecopyEnd d e ∨ c = .migrationRoundEnd d e ∨ c =
        .migrationFinalEnd d e) ∧ instrWf c = true ∧ s.copied (migKey d e) m = false)
    ∧ (∃ (s : State) (d e a b : Nat) (m : Mig),
      instrWf (.migrationFinalEnd d e) = true ∧ s.migs.find? (migKey d e) = some m ∧ m.phase = 4 ∧ s.migSrc m = some a ∧ m.key
        = some b ∧ a ≠ b ∧ s.drained a = true ∧ s.copied (migKey d e) m = true ∧ m.req.cls ≠ 1 ∧ s.rmUpd.find? m.req.range =
        none ∧ (∀ i, i < 16384 → Map.get false m.dirty i = true → s.clean (a * 16384 + i) ∧ (∀ c ∈ s.msgs, ¬ (c.moves = true ∧
        c.line = a * 16384 + i)) ∧ ∀ b, s.busyAt (a * 16384 + i) = some b → b.victim = none))
    ∧ (∃ (s : State) (d : Nat) (e : Nat) (m : Mig),
      instrWf (.migrationUnblock d e) = true ∧ s.migs.find? (migKey d e) = some m ∧ m.phase = 6)
    ∧ (∃ (s : State) (d : Nat) (n : Nat),
      instrWf (.rmcMissFill d n) = true ∧ (Map.get [] s.rmc d).contains n = false) :=
  ⟨⟨{ wMap State.reset with migQ := [(0, [⟨3, 0, { tier := 2 }, none⟩])], rmc := [(0, [0])] },
      (State.replenish { wMap State.reset with migQ := [(0, [⟨3, 0, { tier := 2 }, none⟩])], rmc := [(0, [0])] } 0).prune, 0, 0,
      ⟨3, 0, { tier := 2 }, none⟩, by and_intros <;> decide +kernel⟩,
    ⟨{ wMap State.reset with migs := [(1, { wMig with phase := 1, acks := 1 })] }, 0, 0, 1, { wMig with phase := 1, acks := 1 },
      by and_intros <;> decide +kernel⟩,
    by refine ⟨{ wMap State.reset with rmUpd := [(0, { acks := 1, old := 0 })] }, 0, 0, { acks := 1, old := 0 }, ?_,
      (fun _ _ h => by cases h), ?_, ?_⟩ <;> decide +kernel,
    ⟨{ wMap State.reset with migs := [(0, { wMig with phase := 2 })] }, 0, 0, { wMig with phase := 2 }, .migrationPrecopyEnd 0 0,
      by and_intros <;> decide +kernel⟩,
    ⟨{ wMap State.reset with migs := [(0, { wMig with phase := 2, todo := [3] })] }, 0, 0, { wMig with phase := 2, todo := [3] },
      .migrationPrecopyEnd 0 0, by and_intros <;> decide +kernel⟩,
    by refine ⟨{ wMap State.reset with migs := [(0, { wMig with phase := 4 })] }, 0, 0, 0x400000, 0x800005, { wMig with phase := 4 },
      ?_, ?_, ?_, ?_, ?_, ?_,
      ?_, ?_, ?_, ?_, (fun _ _ h => by cases h)⟩ <;> decide +kernel,
    ⟨{ (wMap State.reset) with migs := [(0, { req := ⟨3, 0, { tier := 1 }, none⟩, phase := 6, round := 15, tier := 1, frame := 5, dirty := [(3, true)] })] },
      0, 0, Option.get
      (({ (wMap State.reset) with migs := [(0, { req := ⟨3, 0, { tier := 1 }, none⟩, phase := 6, round := 15, tier := 1, frame := 5, dirty := [(3, true)] })] }
      : State).migs.find? (migKey (0) (0))) (by decide +kernel), by and_intros <;> decide +kernel⟩,
    ⟨State.reset, 0, 0, by and_intros <;> decide +kernel⟩⟩

theorem witness_CoherentRequests :
    (∃ (s : State) (ag line w txn part : Nat),
      instrWf (.get ag line w txn part) = true ∧ IdleHome s line ag part ∧ caching ag = true ∧ s.held? line ag = none ∧
        s.dropping line ag = false ∧ s.holders line = [] ∧ s.clean line)
    ∧ (∃ (s : State) (ag line txn part : Nat),
      instrWf (.peek ⟨ag, txn, part⟩ line) = true ∧ IdleHome s line ag part ∧ oneWay ag = true ∧ s.holders line = [] ∧ s.clean
        line)
    ∧ (∃ (s : State) (ag line txn part : Nat),
      instrWf (.peek ⟨ag, txn, part⟩ line) = true ∧ IdleHome s line ag part ∧ oneWay ag = true ∧ s.holders line = [] ∧
        s.llcHas line = false ∧ Map.get false s.poison line = true ∧ s.lineErr line = 0)
    ∧ (∃ (s : State) (ag line txn part : Nat),
      instrWf (.claim ⟨ag, txn, part⟩ line) = true ∧ IdleHome s line ag part ∧ caching ag = true ∧ (s.held? line ag).isSome =
        true ∧ s.dropping line ag = false ∧ (∀ g ∈ s.holderIds line, g = ag))
    ∧ (∃ (s : State) (ag line data hint txn part : Nat),
      instrWf (.putFull ⟨ag, txn, part⟩ line data hint) = true ∧ IdleHome s line ag part ∧ oneWay ag = true ∧ s.holders line =
        [])
    ∧ (∃ (s : State) (ag line data m hint txn part : Nat),
      instrWf (.putMasked ⟨ag, txn, part⟩ line data m hint) = true ∧ IdleHome s line ag part ∧ oneWay ag = true ∧ s.holders
        line = [] ∧ s.clean line)
    ∧ (∃ (s : State) (ag ra st ma mb txn part : Nat),
      instrWf (.merge ⟨ag, txn, part⟩ ra st ma mb) = true ∧ IdleHome s (ra / 64) ag part ∧ oneWay ag = true ∧ s.holders (ra /
        64) = [] ∧ s.clean (ra / 64) ∧ (mb ≠ 0 → homeLine (ma / 64) = true ∧ s.lineOk ag part (ma / 64) = true ∧ s.homeFenced
        (ma / 64 / 16384) = false ∧ s.busyAt (ma / 64) = none ∧ s.slotWait (unitOf (ma / 64)).1 = false ∧ s.holders (ma / 64) =
        [] ∧ s.clean (ma / 64) ∧ ma ≠ ra ∧ ma ≠ ra + 1)) :=
  ⟨by refine ⟨wMap wBase, 5, 0x1000000007, 0, 0, 0, ?_, by unfold IdleHome Linked NothingWaits; and_intros <;> first | decide +kernel | (intro _ h; cases h), ?_,
      ?_, ?_, ?_, by unfold State.clean; decide +kernel⟩ <;> decide +kernel,
    by refine ⟨wMap wBase, 130, 0x1000000007, 9, 0, ?_, by unfold IdleHome Linked NothingWaits; and_intros <;> first | decide +kernel | (intro _ h; cases h), ?_,
      ?_, by unfold State.clean; decide +kernel⟩ <;> decide +kernel,
    ⟨{ wMap wBase with poison := [(0x1000000007, true)] }, 130, 0x1000000007, 9, 0, by decide +kernel,
      by unfold IdleHome Linked NothingWaits; and_intros <;> first | decide +kernel | (intro _ h; cases h), by and_intros <;> decide +kernel⟩,
    ⟨{ wMap wBase with cache := [(128 * 0x1000000007 + 5, ⟨.s, 9⟩)] }, 5, 0x1000000007, 9, 0, by decide +kernel,
      by unfold IdleHome Linked NothingWaits; and_intros <;> first | decide +kernel | (intro _ h; cases h), by and_intros <;> decide +kernel⟩,
    ⟨wMap wBase, 130, 0x1000000007, 77, 0, 9, 0, by decide +kernel,
      by unfold IdleHome Linked NothingWaits; and_intros <;> first | decide +kernel | (intro _ h; cases h),
      by and_intros <;> decide +kernel⟩,
    by refine ⟨wMap wBase, 130, 0x1000000007, 77, 3, 0, 9, 0, ?_, by unfold IdleHome Linked NothingWaits; and_intros <;> first | decide +kernel | (intro _ h; cases h), ?_,
      ?_, by unfold State.clean; decide +kernel⟩ <;> decide +kernel,
    by refine ⟨wMap wBase, 130, 64 * 0x1000000007, 1, 64 * 0x1000000007 + 65, 2, 9, 0, ?_,
      by unfold IdleHome Linked NothingWaits; and_intros <;> first | decide +kernel | (intro _ h; cases h), ?_,
      ?_, by unfold State.clean; decide +kernel, by unfold State.clean; decide +kernel⟩ <;> decide +kernel⟩

theorem witness_CoherentAnswers :
    (∃ (s : State) (ag line dirty data : Nat) (c : CLine),
      instrWf (.drop ag line dirty data) = true ∧ caching ag = true ∧ s.held? line ag = some c ∧ s.wbkAt (sliceOf line) ag =
        false ∧ s.dropFits line ag dirty c = true ∧ s.busyAt line = none ∧ Linked s ag line)
    ∧ (∃ (s s1 : State) (ag line rq tx pass : Nat) (m : CohMsg) (c : CLine),
      instrWf (.send ag line rq tx pass) = true ∧ s.arrive .send ag line = some (m, s1) ∧ NothingWaits s line ∧ s.wback.find?
        (cacheKey line ag) = none ∧ s.held? line ag = some c ∧ c.st ≠ .s ∧ Linked s ag line ∧ s.linked (agDie ag) (agDie m.b) =
        true)
    ∧ (∃ (s s1 : State) (ag line ret : Nat) (m : CohMsg) (c : CLine),
      instrWf (.kill ag line ret) = true ∧ s.arrive .kill ag line = some (m, s1) ∧ NothingWaits s line ∧ s.wback.find?
        (cacheKey line ag) = none ∧ s.held? line ag = some c ∧ Linked s ag line)
    ∧ (∃ (s s1 : State) (ag line data grant dirty : Nat) (m : CohMsg),
      instrWf (.line ag line data grant dirty) = true ∧ s.arrive .line ag line = some (m, s1) ∧ NothingWaits s line ∧ caching
        ag = true ∧ m.c ≠ ag + 1 ∧ Linked s ag line)
    ∧ (∃ (s s1 : State) (ag line : Nat) (m : CohMsg) (c : CLine),
      instrWf (.done ag line) = true ∧ s.arrive .done ag line = some (m, s1) ∧ NothingWaits s line ∧ caching ag = true ∧
        s.held? line ag = some c ∧ Linked s ag line)
    ∧ (∃ (s s1 : State) (ag line : Nat) (m : CohMsg),
      instrWf (.redo ag line) = true ∧ s.arrive .redo ag line = some (m, s1) ∧ NothingWaits s line)
    ∧ (∃ (s s1 : State) (ag line st : Nat) (m : CohMsg),
      instrWf (.dropOk ag line st) = true ∧ s.arrive .dropOk ag line = some (m, s1) ∧ NothingWaits s line)
    ∧ (∃ (s s1 : State) (ag line : Nat) (m : CohMsg),
      instrWf (.fail ag line) = true ∧ s.arrive .fail ag line = some (m, s1) ∧ NothingWaits s line ∧ caching ag = true)
    ∧ (∃ (s s1 : State) (ag line fl : Nat) (m : CohMsg) (b : Busy),
      instrWf (.snpDone ag line fl) = true ∧ s.arrive .snpDone ag line = some (m, s1) ∧ NothingWaits s line ∧ s.busyAt line =
        some b ∧ (∃ g ∈ b.snoops, g ≠ ag))
    ∧ (∃ (s s1 : State) (ag line data : Nat) (m : CohMsg) (b : Busy),
      instrWf (.lineHome ag line data) = true ∧ s.arrive .lineHome ag line = some (m, s1) ∧ NothingWaits s line ∧ s.busyAt
        line = some b ∧ b.snoops ≠ [])
    ∧ (∃ (s s1 : State) (ag line : Nat) (m : CohMsg) (b : Busy) (t : Txn),
      instrWf (.got ag line) = true ∧ s.arrive .got ag line = some (m, s1) ∧ NothingWaits s line ∧ s.busyAt line = some b ∧
        b.cur = some t ∧ (t.kind = .getRead ∨ t.kind = .getWrite ∨ t.kind = .claim) ∧ b.snoops = [] ∧ b.answered = true ∧
        b.drops = [] ∧ b.waiters = [] ∧ s.finalLine line = false ∧ (∀ q ∈ s.msgs, ¬ (q.op = .lineHome ∧ q.line = line)))
    ∧ (∃ (s : State) (line : Nat) (b : Busy) (t : Txn) (l : List Txn),
      instrWf (.busyRequestServe line) = true ∧ s.busyAt line = some b ∧ b.cur = none ∧ b.waiters = t :: l ∧ b.victim = none ∧
        s.finalLine line = false ∧ (caching t.ag = true → s.filterVictim line = none)) :=
  ⟨⟨wCoh [], 5, 0x1000000007, 1, 77, ⟨.e, 9⟩,
      by and_intros <;> first | decide +kernel | (unfold NothingWaits; decide +kernel) | (unfold Linked; decide +kernel)⟩,
    ⟨wCoh [{ op := .send, ag := 5, line := 0x1000000007, a := 1, b := 7 }], wCoh [], 5, 0x1000000007, 0, 0, 0,
      { op := .send, ag := 5, line := 0x1000000007, a := 1, b := 7 }, ⟨.e, 9⟩,
      by and_intros <;> first | decide +kernel | (unfold NothingWaits; decide +kernel) | (unfold Linked; decide +kernel)⟩,
    ⟨wCoh [{ op := .kill, ag := 5, line := 0x1000000007, a := 1 }], wCoh [], 5, 0x1000000007, 0,
      { op := .kill, ag := 5, line := 0x1000000007, a := 1 }, ⟨.e, 9⟩,
      by and_intros <;> first | decide +kernel | (unfold NothingWaits; decide +kernel) | (unfold Linked; decide +kernel)⟩,
    ⟨wCoh [{ op := .line, ag := 5, line := 0x1000000007, a := 2, data := some 5 }], wCoh [], 5, 0x1000000007, 0, 0, 0,
      { op := .line, ag := 5, line := 0x1000000007, a := 2, data := some 5 },
      by and_intros <;> first | decide +kernel | (unfold NothingWaits; decide +kernel) | (unfold Linked; decide +kernel)⟩,
    ⟨wCoh [{ op := .done, ag := 5, line := 0x1000000007 }], wCoh [], 5, 0x1000000007,
      { op := .done, ag := 5, line := 0x1000000007 }, ⟨.e, 9⟩,
      by and_intros <;> first | decide +kernel | (unfold NothingWaits; decide +kernel) | (unfold Linked; decide +kernel)⟩,
    ⟨wCohBack [{ op := .redo, ag := 5, line := 0x1000000007 }], wCohBack [], 5, 0x1000000007,
      { op := .redo, ag := 5, line := 0x1000000007 },
      by and_intros <;> first | decide +kernel | (unfold NothingWaits; decide +kernel) | (unfold Linked; decide +kernel)⟩,
    ⟨wCohBack [{ op := .dropOk, ag := 5, line := 0x1000000007 }], wCohBack [], 5, 0x1000000007, 0,
      { op := .dropOk, ag := 5, line := 0x1000000007 },
      by and_intros <;> first | decide +kernel | (unfold NothingWaits; decide +kernel) | (unfold Linked; decide +kernel)⟩,
    ⟨wCohBack [{ op := .fail, ag := 5, line := 0x1000000007 }], wCohBack [], 5, 0x1000000007,
      { op := .fail, ag := 5, line := 0x1000000007 },
      by and_intros <;> first | decide +kernel | (unfold NothingWaits; decide +kernel) | (unfold Linked; decide +kernel)⟩,
    by refine ⟨{ State.reset with busy := [(0x1000000007, { cur := some { kind := .getRead, ag := 7 }, snoops := [5, 6] })], msgs := [{ op := .snpDone, ag := 5, line := 0x1000000007 }] },
      { wHomeBusy with msgs := [] }, 5, 0x1000000007, 0, { op := .snpDone, ag := 5, line := 0x1000000007 },
      { cur := some { kind := .getRead, ag := 7 }, snoops := [5, 6] }, ?_, ?_,
      by unfold NothingWaits; decide +kernel, ?_, ⟨6, by decide +kernel, by decide +kernel⟩⟩ <;> decide +kernel,
    ⟨wHomeBusy, { wHomeBusy with msgs := [] }, 5, 0x1000000007, 77, { op := .lineHome, ag := 5, line := 0x1000000007 },
      { cur := some { kind := .getRead, ag := 7 }, snoops := [5, 6] },
      by and_intros <;> first | decide +kernel | (unfold NothingWaits; decide +kernel) | (unfold Linked; decide +kernel)⟩,
    ⟨wHomeGot, { wHomeGot with msgs := [] }, 7, 0x1000000007, { op := .got, ag := 7, line := 0x1000000007 },
      { cur := some { kind := .getRead, ag := 7 }, got := true, answered := true }, { kind := .getRead, ag := 7 },
      by and_intros <;> first | decide +kernel | (unfold NothingWaits; decide +kernel) | (unfold Linked; decide +kernel)⟩,
    ⟨{ State.reset with busy := [(0x1000000007, { waiters := [{ kind := .getRead, ag := 7 }] })], clk := { tb := 300 } },
      0x1000000007, Option.get
      (({ State.reset with busy := [(0x1000000007, { waiters := [{ kind := .getRead, ag := 7 }] })], clk := { tb := 300 } } :
      State).busyAt (0x1000000007 : Nat)) (by decide +kernel), List.head ((Option.get
      (({ State.reset with busy := [(0x1000000007, { waiters := [{ kind := .getRead, ag := 7 }] })], clk := { tb := 300 } } :
      State).busyAt (0x1000000007 : Nat)) (by decide +kernel) : Busy).waiters) (by decide +kernel), ((Option.get
      (({ State.reset with busy := [(0x1000000007, { waiters := [{ kind := .getRead, ag := 7 }] })], clk := { tb := 300 } } :
      State).busyAt (0x1000000007 : Nat)) (by decide +kernel) : Busy).waiters).tail,
      by and_intros <;> decide +kernel⟩⟩

theorem witness_ChannelLines :
    (∃ (s : State) (line data cls : Nat),
      instrWf (.channelWrite ⟨line, cls⟩ data) = true ∧ ServedAtOnce s line)
    ∧ (∃ (s : State) (line cls : Nat),
      instrWf (.channelRead ⟨line, cls⟩) = true ∧ ServedAtOnce s line)
    ∧ (∃ (s : State) (line cls data : Nat),
      homeLine line = true ∧ (unitOf line).1 < 16 ∧ s.slotWait (unitOf line).1 = true ∧ instrWf (.channelRead ⟨line, cls⟩) =
        true ∧ instrWf (.channelWrite ⟨line, cls⟩ data) = true)
    ∧ (∃ (s : State) (line cls : Nat),
      homeLine line = true ∧ (unitOf line).1 < 16 ∧ s.slotWait (unitOf line).1 = false ∧ (s.chan (chanOf line)).queue ≠ [] ∧
        instrWf (.channelRead ⟨line, cls⟩) = true)
    ∧ (∃ (s : State) (unit n : Nat),
      instrWf (.scrubRead unit) = true ∧ s.scrubHours unit ≠ 0 ∧ s.scrubNext unit 65536 (s.fget (scrubReg unit)
        F.STK_SCRUB_POS) = n ∧ n < unitLines unit ∧ (unit < 16 → s.slotWait unit = false ∧ (s.chan (chanOf (lineOf unit
        n))).queue = []) ∧ s.lineErr (lineOf unit n) = 0 ∧ Map.get false s.poison (lineOf unit n) = false) :=
  ⟨⟨State.reset, 0x1000000007, 77, 3, by decide +kernel, by unfold ServedAtOnce; decide +kernel⟩,
    ⟨State.reset, 0x1000000007, 3, by decide +kernel, by unfold ServedAtOnce; decide +kernel⟩,
    ⟨{ State.reset with clk := { tb := 1, refSlot := true }, refLocked := [0, 1, 2, 3, 4, 5, 6, 7, 8, 9, 10, 11, 12, 13, 14, 15] },
      0x1000000007, 1, 77, by and_intros <;> decide +kernel⟩,
    ⟨{ State.reset with chans := [(chanOf 0x1000000007, { queue := [{ line := 0x1000000007, cls := 1 }] })] }, 0x1000000007, 3,
      by and_intros <;> decide +kernel⟩,
    ⟨State.reset, 0, (State.reset : State).scrubNext 0 65536 ((State.reset : State).fget (scrubReg 0) F.STK_SCRUB_POS),
      by and_intros <;> decide +kernel⟩⟩

theorem witness_RefreshAndUcie :
    (∃ (s : State) (ch : Nat) (d : Nat),
      instrWf (.refresh ch d) = true ∧ s.lockOn (ch / 64) = false)
    ∧ (∃ (s : State) (ch d : Nat),
      instrWf (.refresh ch d) = true ∧ s.lockOn (ch / 64) = true)
    ∧ (∃ s : State,
      s.clk.refSlot = true ∧ SlotFree s (fun _ => true))
    ∧ (∃ s : State,
      s.clk.refSlot = false)
    ∧ (∃ (s : State) (a : Agent) (k : Nat) (v : Nat),
      instrWf (.refLockWrite a k v) = true ∧ s.entry a .stk k (R.STK_CTRL k) true = .reach)
    ∧ (∃ (s : State) (k : Nat),
      instrWf (.refLockSuspend k) = true ∧ s.atBoundary 8 = true ∧ s.fbit (R.STK_STATUS k) F.STK_STATUS_THERM_2X = false)
    ∧ (∃ (s : State) (k : Nat),
      instrWf (.refLockResume k) = true ∧ s.atBoundary 8 = true)
    ∧ (∃ (s : State) (l : Nat) (m : Nat),
      instrWf (.ucieModuleRemove l m) = true ∧ m < ucieCount l ∧ bit (s.ucieGone l) m = false)
    ∧ (∃ (s : State) (l : Nat),
      instrWf (.ucieHashRespread l) = true ∧ s.atBoundary 8 = true) :=
  ⟨⟨State.reset, 0, 0, by and_intros <;> decide +kernel⟩,
    ⟨{ State.reset.fset (R.STK_CTRL 0) F.STK_CTRL_REF_LOCK 1 with refLocked := [0] }, 3, 0, by and_intros <;> decide +kernel⟩,
    ⟨{ State.reset with clk := { refSlot := true } }, by decide +kernel, by unfold SlotFree; decide +kernel⟩,
    ⟨State.reset, by decide +kernel⟩,
    ⟨State.reset, .mgmt, 0, 0, by and_intros <;> decide +kernel⟩,
    ⟨wAt 5 State.reset, 0, by and_intros <;> decide +kernel⟩,
    ⟨wAt 5 State.reset, 0, by and_intros <;> decide +kernel⟩,
    ⟨State.reset, 0, 0, by and_intros <;> decide +kernel⟩,
    ⟨wAt 5 State.reset, 0, by and_intros <;> decide +kernel⟩⟩

theorem witness_RowsAndRepair :
    (∃ (s : State) (unit ch b row i : Nat),
      instrWf (.rowRemap unit ch b row) = true ∧ (unit < 16 → s.fbit (R.STK_STATUS unit) F.STK_STATUS_MAINT_ACTIVE = false ∧
        row < 65536) ∧ (16 ≤ unit → row < 0xFFF000 ∧ ch = 0 ∧ b = 0) ∧ s.remapIdx unit ch b row = none ∧ s.freeSpare unit ch b =
        some i ∧ (s.remaps unit).length < remapSize unit ∧ s.rowFails unit ch b row = true ∧ s.copying unit ch b row = false)
    ∧ (∃ (s : State) (unit ch b row : Nat),
      instrWf (.rowRemap unit ch b row) = true ∧ (16 ≤ unit → ch = 0 ∧ b = 0) ∧ (s.rowFails unit ch b row = false ∨ s.copying
        unit ch b row = true))
    ∧ (∃ (s : State) (c : RowCopy) (l : Nat),
      homeLine l = true ∧ ChkRoom s l)
    ∧ (∃ (s : State) (k : Nat) (ch : Nat) (b : Nat) (row : Nat),
      k < 16 ∧ s.fbit (R.STK_STATUS k) F.STK_STATUS_MAINT_ACTIVE = true ∧ instrWf (.rowRemap k ch b row) = true)
    ∧ (∃ (s : State) (a : Agent) (k : Nat) (v : Nat),
      instrWf (.maintWrite a k v) = true ∧ s.entry a .stk k (R.STK_CTRL k) true = .reach)
    ∧ (∃ (s : State) (a : Agent) (k : Nat) (v : Nat) (op : Nat) (c : Instr),
      (c = .readStatus a k v ∧ op = 1 ∨ c = .fuseRow a k v ∧ op = 2 ∨ c = .fuseCol a k v ∧ op = 3) ∧ instrWf c = true ∧
        s.entry a .stk k (R.STK_REPAIR_CMD k) true = .reach ∧ s.fbit (R.STK_REPAIR_STAT k) F.STK_REPAIR_STAT_BUSY = false ∧ bits
        v 60 4 = op ∧ bits v 50 6 / 4 = bits v 56 4)
    ∧ (∃ (s : State) (k : Nat) (res : Nat) (v : Nat),
      instrWf (.repairCommandDone k res) = true ∧ s.repairs.find? k = some v) :=
  ⟨by refine ⟨wStuck, 16, 0, 0, 0, 0, ?_, ?_, ?_, ?_, ?_,
      ?_, wFails, ?_⟩ <;> decide +kernel,
    ⟨{ State.reset with copies := [⟨0, 0, 0, 0, none, []⟩] }, 0, 0, 0, 0, by decide +kernel, by decide +kernel,
      .inr (by decide +kernel)⟩,
    ⟨State.reset, ⟨0, 0, 0, 0, none, []⟩, 0x1000000007, by decide +kernel, by unfold ChkRoom; decide +kernel⟩,
    by refine ⟨State.reset.fset (R.STK_STATUS 0) F.STK_STATUS_MAINT_ACTIVE 1, 0, 0, 0, 0, ?_, ?_, ?_⟩ <;> decide +kernel,
    ⟨State.reset, .mgmt, 0, 0, by and_intros <;> decide +kernel⟩,
    ⟨wFull (State.reset.fset (R.STK_STATUS 0) F.STK_STATUS_MAINT_ACTIVE 1), .mgmt, 0, 2^60, 1, .readStatus (.mgmt : Agent) (0) (2^60
      : Nat),
      by and_intros <;> decide +kernel⟩,
    ⟨wFull { State.reset with repairs := [(0, 2 ^ 61)] }, 0, 0, Option.get ((wFull { State.reset with repairs := [(0, 2 ^ 61)] } :
      State).repairs.find? (0)) (by decide +kernel), by and_intros <;> decide +kernel⟩⟩

theorem witness_AfraeriLinks :
    (∃ (s : State) (g : Nat) (f : Nat),
      instrWf (.flitReceive g f) = true ∧ s.fbit (R.AFR_PORT_CTL g) F.AFR_PORT_CTL_EN = true ∧ s.portUp g = true ∧ flitGood f
        = false)
    ∧ (∃ (s : State) (g f : Nat),
      instrWf (.flitReceive g f) = true ∧ s.fbit (R.AFR_PORT_CTL g) F.AFR_PORT_CTL_EN = true ∧ s.portUp g = true ∧ flitGood f
        = true ∧ bits (flitHdr f) 62 2 = 0 ∧ bits (flitHdr f) 52 10 = (s.port g).want ∧ (∀ m ∈ flitMsgs f, msgOk m = true ∧
        s.mine m = true) ∧ s.holds = [] ∧ (∀ v, v < 4 → sumList ((((s.port g).rx ++ flitMsgs f).filter fun n => n.vc == v).map
        msgSlots) ≤ fullCredit.getD v 0))
    ∧ (∃ (s : State) (g : Nat),
      instrWf (.replayStart g) = true ∧ s.portUp g = true ∧ (s.port g).replay ≠ [])
    ∧ (∃ (s : State) (g : Nat),
      instrWf (.nakRepeat g) = true ∧ s.portUp g = true ∧ (s.port g).nak = true)
    ∧ (∃ (s w : State) (a : Agent) (g v : Nat) (c : Instr),
      instrWf c = true ∧ (c = .linkLoss g ∧ w = s ∨ c = .portRetrain a g v ∧ s.entry a .afrPort g (R.AFR_PORT_CTL g) true =
        .reach ∧ bit v 11 = true ∧ w = s.answer .ok 0) ∧ s.portUp g = true ∧ (∀ e ∈ s.rreqs, e.2.port ≠ some g) ∧ s.rwait = [] ∧
        s.fbit (R.AFR_PORT_CTL g) F.AFR_PORT_CTL_LOSS_STOT = false)
    ∧ (∃ (s : State) (g : Nat),
      instrWf (.linkLoss g) = true ∧ s.portUp g = true ∧ (s.port g).trunk = 0 ∧ (∀ e ∈ s.rreqs, e.2.port ≠ some g) ∧ s.rwait =
        [] ∧ s.fbit (R.AFR_PORT_CTL g) F.AFR_PORT_CTL_LOSS_STOT = true)
    ∧ (∃ (s : State) (g : Nat),
      instrWf (.afrReplayTimeout g) = true ∧ s.portUp g = true ∧ s.fbit (R.AFR_PORT_STATUS g) F.AFR_PORT_STATUS_REPLAYING =
        true ∧ (∀ e ∈ s.rreqs, e.2.port ≠ some g) ∧ s.rwait = [] ∧ s.fbit (R.AFR_PORT_CTL g) F.AFR_PORT_CTL_LOSS_STOT = false)
    ∧ (∃ (s : State) (g : Nat) (m : AfrMsg),
      instrWf (.hello g m) = true ∧ m.typ = 0x32 ∧ msgOk m = true ∧ s.fbit (R.AFR_PORT_CTL g) F.AFR_PORT_CTL_EN = true ∧
        s.portUp g = false)
    ∧ (∃ (s : State) (a : Agent) (g : Nat) (v : Nat),
      instrWf (.portRetrain a g v) = true ∧ s.entry a .afrPort g (R.AFR_PORT_CTL g) true = .reach ∧ bit v 11 = true ∧ s.portUp
        g = false)
    ∧ (∃ (s : State) (d : Nat),
      instrWf (.trunkChange d) = true ∧ s.clk.phase < 9) :=
  ⟨⟨wAfr, 0, 0,
      by and_intros <;> decide +kernel⟩,
    ⟨wAfr, 0, crc64 248 0 * 2 ^ 1984, by and_intros <;> decide +kernel⟩,
    ⟨{ wAfr with ports := [(0, { replay := [(0, [])], nak := true })] }, 0, by and_intros <;> decide +kernel⟩,
    ⟨{ wAfr with ports := [(0, { replay := [(0, [])], nak := true })] }, 0, by and_intros <;> decide +kernel⟩,
    ⟨wAfr, (wAfr : State), .mgmt, 0, 0, .linkLoss (0),
      by and_intros <;> decide +kernel⟩,
    ⟨wAfr.fset (R.AFR_PORT_CTL 0) F.AFR_PORT_CTL_LOSS_STOT 1, 0,
      by and_intros <;> decide +kernel⟩,
    ⟨wAfr.fset (R.AFR_PORT_STATUS 0) F.AFR_PORT_STATUS_REPLAYING 1, 0,
      by and_intros <;> decide +kernel⟩,
    ⟨wAfr.fset (R.AFR_PORT_STATUS 0) F.AFR_PORT_STATUS_UP 0, 0, wAfrMsg 3 0x32 [5],
      by and_intros <;> decide +kernel⟩,
    ⟨State.reset, .mgmt, 0, 2^11,
      by and_intros <;> decide +kernel⟩,
    ⟨wAt 5 wAfr, 0, by and_intros <;> decide +kernel⟩⟩

theorem witness_RemoteAccess :
    (∃ (s : State) (g f : Nat) (m : AfrMsg),
      instrWf (.rd g m) = true ∧ m.typ = 0 ∧ s.portUp g = true ∧ msgOk m = true ∧ s.mine m = true ∧ s.respCredit (g / 18) m 5
        = true ∧ s.roleOk m = true ∧ s.remoteOk (g / 18) m false = true ∧ s.xlate (Reach.remoteReq (reqPart m) (g / 18)) false
        (reqAddr m) = .frame f ∧ QuietHome s (g / 18) f ∧ s.ownerOf (f / 64) = none ∧ s.clean (f / 64) ∧ s.workGoes (portUnit g)
        (fun _ => true) (fun s => s.fabServe g m 0 false peekLine) = true)
    ∧ (∃ (s : State) (g f : Nat) (m : AfrMsg),
      instrWf (.wrLine g m) = true ∧ m.typ = 1 ∧ s.portUp g = true ∧ msgOk m = true ∧ s.mine m = true ∧ s.respCredit (g / 18)
        m 1 = true ∧ s.roleOk m = true ∧ s.remoteOk (g / 18) m true = true ∧ s.xlate (Reach.remoteReq (reqPart m) (g / 18)) true
        (reqAddr m) = .frame f ∧ QuietHome s (g / 18) f ∧ s.workGoes (portUnit g) (fun _ => true) (fun s => s.fabServe g m 1
        true (putLineReq m)) = true)
    ∧ (∃ (s : State) (g f : Nat) (m : AfrMsg),
      instrWf (.wrMask g m) = true ∧ m.typ = 2 ∧ s.portUp g = true ∧ msgOk m = true ∧ s.mine m = true ∧ s.respCredit (g / 18)
        m 1 = true ∧ s.roleOk m = true ∧ s.remoteOk (g / 18) m true = true ∧ m.data.getD 0 0 % 2 ^ 64 ≠ 2 ^ 64 - 1 ∧ s.xlate
        (Reach.remoteReq (reqPart m) (g / 18)) true (reqAddr m) = .frame f ∧ QuietHome s (g / 18) f ∧ s.ownerOf (f / 64) = none
        ∧ s.clean (f / 64) ∧ s.workGoes (portUnit g) (fun _ => true) (fun s => s.fabServe g m 2 true (putMaskReq m)) = true)
    ∧ (∃ (s : State) (g : Nat) (m : AfrMsg) (c : Instr) (wr : Bool) (n : Nat) (f : Reach → Nat → State → Ld × Nat × List Nat × State),
      instrWf c = true ∧ (c = .rd g m ∧ m.typ = 0 ∧ wr = false ∧ n = 5 ∧ f = peekLine ∨ c = .wrLine g m ∧ m.typ = 1 ∧ wr =
        true ∧ n = 1 ∧ f = putLineReq m ∨ c = .wrMask g m ∧ m.typ = 2 ∧ wr = true ∧ n = 1 ∧ f = putMaskReq m) ∧ s.portUp g =
        true ∧ msgOk m = true ∧ s.mine m = true ∧ s.respCredit (g / 18) m n = true ∧ s.workGoes (portUnit g) (fun _ => true)
        (fun s => s.fabServe g m m.typ wr f) = true)
    ∧ (∃ (s : State) (g : Nat) (m : AfrMsg) (c : Instr) (wr : Bool) (e : Nat × RReq),
      instrWf c = true ∧ (c = .rdData g m ∧ m.typ = 0x10 ∧ wr = false ∨ c = .wrAck g m ∧ m.typ = 0x11 ∧ wr = true) ∧ s.portUp
        g = true ∧ msgOk m = true ∧ s.mine m = true ∧ s.rwait = [] ∧ List.find? (fun e : Nat × RReq => e.1 % 4096 == m.tag &&
        e.2.write == wr) s.rreqs = some e)
    ∧ (∃ (s : State) (g : Nat) (m : AfrMsg) (e : Nat × RReq),
      instrWf (.rdData g m) = true ∧ m.typ = 0x10 ∧ s.portUp g = true ∧ msgOk m = true ∧ s.mine m = true ∧ s.rwait = [] ∧
        List.find? (fun e : Nat × RReq => e.1 % 4096 == m.tag && e.2.write == false) s.rreqs = some e ∧ e.2.who = .ins 5 6)
    ∧ (∃ (s : State) (g : Nat) (m : AfrMsg) (e : Nat × RReq),
      instrWf (.rdData g m) = true ∧ m.typ = 0x10 ∧ s.portUp g = true ∧ msgOk m = true ∧ s.mine m = true ∧ s.rwait = [] ∧
        List.find? (fun e : Nat × RReq => e.1 % 4096 == m.tag && e.2.write == false) s.rreqs = some e ∧ e.2.who = .pass 0 0 0)
    ∧ (∃ (s : State) (g : Nat) (m : AfrMsg) (e : Nat × RReq),
      instrWf (.rdData g m) = true ∧ m.typ = 0x10 ∧ s.portUp g = true ∧ msgOk m = true ∧ s.mine m = true ∧ s.rwait = [] ∧
        List.find? (fun e : Nat × RReq => e.1 % 4096 == m.tag && e.2.write == false) s.rreqs = some e ∧ e.2.who = .unit 9)
    ∧ (∃ (s : State) (g : Nat) (m : AfrMsg) (e : Nat × RReq),
      instrWf (.nack g m) = true ∧ m.typ = 0x12 ∧ s.portUp g = true ∧ msgOk m = true ∧ s.mine m = true ∧ s.rwait = [] ∧
        List.find? (fun e : Nat × RReq => e.1 % 4096 == m.tag) s.rreqs = some e ∧ e.2.who = .agent ∧ caching e.2.ag = true)
    ∧ (∃ (s : State) (d tag : Nat) (q : RReq),
      instrWf (.remoteTimeout d tag) = true ∧ s.rwait = [] ∧ s.rreqs.find? (4096 * d + tag) = some q ∧ q.who = .agent ∧
        caching q.ag = true) :=
  ⟨⟨wAfr, 0, 2 ^ 42, wAfrMsg 0 0 [],
      by and_intros <;> first | decide +kernel | (unfold State.clean; decide +kernel) | (unfold QuietHome QuietLine; exact ⟨by decide +kernel,
      fun l h => (Option.some_ne_none l (show some l = none from h.symm)).elim⟩)⟩,
    ⟨wAfr, 0, 2 ^ 42, wAfrMsg 0 1 [1, 2, 3, 4],
      by and_intros <;> first | decide +kernel | (unfold State.clean; decide +kernel) | (unfold QuietHome QuietLine; exact ⟨by decide +kernel,
      fun l h => (Option.some_ne_none l (show some l = none from h.symm)).elim⟩)⟩,
    ⟨wAfr, 0, 2 ^ 42, wAfrMsg 0 2 [5, 1, 2, 3, 4],
      by and_intros <;> first | decide +kernel | (unfold State.clean; decide +kernel) | (unfold QuietHome QuietLine; exact ⟨by decide +kernel,
      fun l h => (Option.some_ne_none l (show some l = none from h.symm)).elim⟩)⟩,
    ⟨wAfr.fset (R.AFR_ID 0) F.AFR_ID_EPOCH 2, 0, wAfrMsg 0 0 [], .rd 0 (wAfrMsg 0 0 []), false, 5, peekLine, by decide +kernel,
      .inl ⟨rfl, rfl, rfl, rfl, rfl⟩, by and_intros <;> decide +kernel⟩,
    ⟨{ wAfr with rreqs := [(3, wReq)] }, 0, wAfrMsg 1 0x10 [1, 2, 3, 4], .rdData 0 (wAfrMsg 1 0x10 [1, 2, 3, 4]), false, (3,
      wReq), by and_intros <;> decide +kernel⟩,
    ⟨{ wAfr with rreqs := [(3, { wReq with who := .ins 5 6 })] }, 0, wAfrMsg 1 0x10 [1, 2, 3, 4], (3,
      { wReq with who := .ins 5 6 }), by and_intros <;> decide +kernel⟩,
      ⟨{ wAfr with rreqs := [(3, { wReq with who := .pass 0 0 0 })] }, 0, wAfrMsg 1 0x10 [1, 2, 3, 4], (3,
      { wReq with who := .pass 0 0 0 }), by and_intros <;> decide +kernel⟩,
      ⟨{ wAfr with rreqs := [(3, { wReq with who := .unit 9 })] }, 0, wAfrMsg 1 0x10 [1, 2, 3, 4], (3,
      { wReq with who := .unit 9 }), by and_intros <;> decide +kernel⟩,
    ⟨{ wAfr with rreqs := [(3, wReq)] }, 0, wAfrMsg 1 0x12 [], (3, wReq), by and_intros <;> decide +kernel⟩,
    ⟨{ wAfr with rreqs := [(3, wReq)] }, 0, 3, wReq, by and_intros <;> decide +kernel⟩⟩

theorem witness_StotEpochAndMarkers :
    (∃ (s : State) (g : Nat) (m : AfrMsg),
      instrWf (.stot g m) = true ∧ m.typ = 0x31 ∧ s.portUp g = true ∧ msgOk m = true ∧ s.mine m = true ∧ bits (m.data.getD 0
        0) 126 2 < 2)
    ∧ (∃ (s : State) (a : Agent) (d : Nat) (v : Nat),
      instrWf (.stotCmd a d v) = true ∧ s.entry a .afrEng d (R.AFR_STOT_CMD d) true = .reach)
    ∧ (∃ (s : State) (a : Agent) (d : Nat) (v : Nat),
      instrWf (.epochInc a d v) = true ∧ s.entry a .afrEng d (R.AFR_ID d) true = .reach)
    ∧ (∃ (s : State) (d : Nat),
      instrWf (.epochIncrement d) = true ∧ s.epochInc = true ∧ s.clk.phase < 9)
    ∧ (∃ (s : State) (g b t d : Nat),
      instrWf (.tick g b t d) = true ∧ s.fget R.TCK_SYNC F.TCK_SYNC_ROLE = 2 ∧ s.upPort = some g ∧ (s.clk.locked1 = true ∨
        s.anyResident = true))
    ∧ (∃ (s : State) (g b t d : Nat),
      instrWf (.tick g b t d) = true ∧ s.fget R.TCK_SYNC F.TCK_SYNC_ROLE = 2 ∧ s.upPort = some g ∧ s.clk.locked1 = false ∧
        s.anyResident = false)
    ∧ (∃ s : State,
      s.fget R.TCK_SYNC F.TCK_SYNC_ROLE = 2 ∧ s.tick < s.clk.markAt + 4)
    ∧ (∃ s : State,
      s.fget R.TCK_SYNC F.TCK_SYNC_ROLE = 2 ∧ s.clk.markAt + 4 ≤ s.tick) :=
  ⟨⟨wAfr, 0, wAfrMsg 3 0x31 [5],
      by and_intros <;> decide +kernel⟩,
    ⟨State.reset, .mgmt, 0, 7, by and_intros <;> decide +kernel⟩,
    ⟨State.reset, .mgmt, 0, 2^32, by and_intros <;> decide +kernel⟩,
    ⟨wAt 5 { State.reset with epochInc := true }, 0, by and_intros <;> decide +kernel⟩,
    ⟨{ wAfr.fset R.TCK_SYNC F.TCK_SYNC_ROLE 2 with clk := { locked1 := true, tb := 65536 } }, 0, 9, 0, 0,
      by and_intros <;> decide +kernel⟩,
    ⟨wAfr.fset R.TCK_SYNC F.TCK_SYNC_ROLE 2, 0, 1, 65536, 20,
      by and_intros <;> decide +kernel⟩,
    ⟨wAfr.fset R.TCK_SYNC F.TCK_SYNC_ROLE 2, by and_intros <;> decide +kernel⟩,
    ⟨{ wAfr.fset R.TCK_SYNC F.TCK_SYNC_ROLE 2 with clk := { tb := 5 * 65536 } }, by and_intros <;> decide +kernel⟩⟩

theorem witness_Collectives :
    (∃ (s : State) (t idx op : Nat) (o : ColOps) (r : Run) (sl : Nat × Nat) (c : Instr),
      instrWf c = true ∧ (c = .allreduce t idx o ∧ op = 0 ∨ c = .reduceScatter t idx o ∧ op = 1 ∨ c = .allgather t idx o ∧ op
        = 2) ∧ s.collRoom (t / 96) ((s.partOfTile t).getD 0) = true ∧ s.colPinned t o = false ∧ Issues s t idx (.col op o) r ∧
        colSlots r.img o = some sl ∧ (s.issuedAt t idx (.col op o) r).colBad t o (r.issue idx (.col op o)) sl = false)
    ∧ (∃ (s : State) (t idx op : Nat) (o : ColOps) (c : Instr),
      instrWf c = true ∧ (c = .allreduce t idx o ∧ op = 0 ∨ c = .reduceScatter t idx o ∧ op = 1 ∨ c = .allgather t idx o ∧ op
        = 2) ∧ (s.collRoom (t / 96) ((s.partOfTile t).getD 0) = false ∨ s.colPinned t o = true))
    ∧ (∃ (s : State) (d : Nat) (c : Coll) (e : Option (List Nat)),
      c.op ≠ 3)
    ∧ (∃ (s : State) (g d : Nat) (m : AfrMsg) (q : CollPart),
      instrWf (.collData g m q) = true ∧ m.typ = 0x20 ∧ s.portUp g = true ∧ msgOk m = true ∧ s.mine m = true ∧ d = s.collDie g
        m ∧ s.workGoes (portUnit g) (fun _ => true) (fun s => s.collDataIn d g m q) = true)
    ∧ (∃ (s : State) (g : Nat) (m : AfrMsg) (x : Coll),
      instrWf (.collNack g m) = true ∧ m.typ = 0x21 ∧ s.portUp g = true ∧ msgOk m = true ∧ s.mine m = true ∧ s.roleOk m = true
        ∧ s.collHead ((s.takeRx g m).collDie g m) (bits m.arg 44 12) = some x ∧ x.over = false)
    ∧ (∃ (s : State) (g : Nat) (m : AfrMsg),
      instrWf (.collNack g m) = true ∧ m.typ = 0x21 ∧ s.portUp g = true ∧ msgOk m = true ∧ s.mine m = true ∧ s.roleOk m =
        false)
    ∧ (∃ (s : State) (d : Nat) (g : Nat) (x : Coll),
      instrWf (.collTimeout d g) = true ∧ s.collRuns d g = some x ∧ s.fget (R.AFR_CTL d) F.AFR_CTL_COLL_TICKS ≤ x.waited)
    ∧ (∃ (s : State) (d g : Nat) (x : Coll),
      instrWf (.collectiveEnd d g) = true ∧ s.collHead d g = some x ∧ x.over = true ∧ s.regPast x.marks = true ∧ s.unitAsks
        (collUnit d g) = false ∧ s.workGoes (collUnit d g) (fun _ => true) (fun s => s.collLeaves d x) = true) :=
  ⟨⟨wMap (wRun (wRunTen wDesc [.col 0 wCol])), 0, 0, 0, wCol, wRunTen wDesc [.col 0 wCol],
      Option.get (colSlots (wRunTen wDesc [.col 0 wCol]).img wCol) (by decide +kernel), .allreduce 0 0 wCol,
      by and_intros <;> decide +kernel⟩,
    ⟨State.reset.fset (R.AFR_CTL 0) F.AFR_CTL_COLL_EN 0, 0, 0, 0, wCol, .allreduce 0 0 wCol, by decide +kernel,
      by decide +kernel, .inl (by decide +kernel)⟩,
    ⟨State.reset, 0, wColl, none, by decide +kernel⟩,
    ⟨{ wAfr with mem := wWords (2 ^ 42) [2 ^ 63 + 2 ^ 32, 0x100] (wWords (2 ^ 42 + 0x108) [7 * 2 ^ 48] []) }, 0, 0,
      wAfrMsg 2 0x20 [1], wPart, by and_intros <;> decide +kernel⟩,
    ⟨{ wAfr with rangeMap := [], colls := [(0, [wColl])] }, 0, wAfrMsg 2 0x21 [], wColl, by and_intros <;> decide +kernel⟩,
    ⟨wAfr.fset (R.AFR_ID 0) F.AFR_ID_EPOCH 2, 0, wAfrMsg 2 0x21 [], by and_intros <;> decide +kernel⟩,
    ⟨{ wAfr with colls := [(0, [{ op := 0, rop := 0, group := 0, sem := 3, part := 0, ctx := 1, tile := 0, sdesc := wDesc, ddesc := wDesc, ready := true, waited := 100000 }])] },
      0, 0, Option.get
      (({ wAfr with colls := [(0, [{ op := 0, rop := 0, group := 0, sem := 3, part := 0, ctx := 1, tile := 0, sdesc := wDesc, ddesc := wDesc, ready := true, waited := 100000 }])] }
      : State).collRuns (0) (0)) (by decide +kernel), by and_intros <;> decide +kernel⟩,
    ⟨{ wAfr with colls := [(0, [{ wColl with done := true, status := 6 }])] }, 0, 0, { wColl with done := true, status := 6 },
      by and_intros <;> decide +kernel⟩⟩

theorem witness_EthernetAndQueuePairs :
    (∃ (s : State) (e : Nat),
      instrWf (.ethLinkDown e) = true ∧ s.ethUp e = true)
    ∧ (∃ (s : State) (e : Nat),
      instrWf (.ethLinkUp e) = true ∧ s.fbit (R.ETH_CTL e) F.ETH_CTL_EN = true)
    ∧ (∃ (s : State) (e : Nat) (f : EthFrame),
      instrWf (.ethFrameRx e f) = true ∧ s.ethUp e = true)
    ∧ (∃ (s : State) (e q psn : Nat) (l r : List EthPkt) (k : EthPkt),
      (s.qp e q).unacked = l ++ k :: r ∧ k.psn = some psn ∧ (∀ x ∈ l, x.psn ≠ some psn) ∧ (s.qp e q).wait = [])
    ∧ (∃ (s t : State) (e q x : Nat) (l : List Nat),
      instrWf (.roceSend e q l) = true ∧ s.ethUp e = true ∧ q < 16384 ∧ (s.workTry (ethUnit e) id).load (Reach.eth none e)
        (s.fget (R.ETH_QPC_BASE e) F.ETH_QPC_BASE_ADDR * 64 + 256 * q) 256 = (.ok x, t))
    ∧ (∃ (s t : State) (e q x a : Nat) (l : List Nat),
      instrWf (.roceWrite e q a l) = true ∧ s.ethUp e = true ∧ q < 16384 ∧ (s.workTry (ethUnit e) id).load (Reach.eth none e)
        (s.fget (R.ETH_QPC_BASE e) F.ETH_QPC_BASE_ADDR * 64 + 256 * q) 256 = (.ok x, t))
    ∧ (∃ (s t : State) (e q x a n : Nat),
      instrWf (.roceRead e q a n) = true ∧ s.ethUp e = true ∧ q < 16384 ∧ (s.workTry (ethUnit e) id).load (Reach.eth none e)
        (s.fget (R.ETH_QPC_BASE e) F.ETH_QPC_BASE_ADDR * 64 + 256 * q) 256 = (.ok x, t))
    ∧ (∃ (s : State) (e : Nat) (q : Nat),
      instrWf (.cnpRx e q) = true ∧ s.ethUp e = true ∧ q < 16384)
    ∧ (∃ (s : State) (e : Nat) (q : Nat),
      instrWf (.rateRecover e q) = true ∧ q < 16384 ∧ s.lossy e = false)
    ∧ (∃ (s : State) (e q psn : Nat) (l : List EthPkt),
      instrWf (.roceRetransmit e q psn) = true ∧ q < 16384 ∧ ((s.qp e q).unacked.any fun x => x.psn == some psn) = true ∧ l =
        (s.qp e q).unacked.dropWhile (fun x => x.psn != some psn))
    ∧ (∃ (s : State) (rp : Nat) (a : Nat) (wr : Bool) (l : List Nat),
      instrWf (.pcieInbound rp wr a l) = true) :=
  ⟨⟨((wMap State.reset).fset (R.ETH_STATUS 0) F.ETH_STATUS_UP 1).fset (R.ETH_CTL 0) F.ETH_CTL_EN 1, 0, by decide +kernel, by
      decide +kernel⟩,
    ⟨((wMap State.reset).fset (R.ETH_STATUS 0) F.ETH_STATUS_UP 1).fset (R.ETH_CTL 0) F.ETH_CTL_EN 1, 0, by decide +kernel, by
      decide +kernel⟩,
    ⟨((wMap State.reset).fset (R.ETH_STATUS 0) F.ETH_STATUS_UP 1).fset (R.ETH_CTL 0) F.ETH_CTL_EN 1, 0,
      { good := true, bytes := 64, pfc := false, ce := true, roce := false, qpn := 3, ptpEvent := true }, by decide +kernel, by
      decide +kernel⟩,
    by refine ⟨{ wEthUp with qps := [(0, { unacked := [{ psn := some 3, out := .send [] }, { psn := some 4, out := .send [] }, { psn := some 5, out := .send [] }] })] },
      0, 0, 4, [{ psn := some 3, out := .send [] }], [{ psn := some 5, out := .send [] }], { psn := some 4, out := .send [] },
      ?_, ?_, ?_⟩ <;> decide +kernel,
    by refine ⟨wEthUp, _, 0, 0, _, [], ?_, ?_, ?_, wLd (by decide +kernel)⟩ <;> decide +kernel,
    by refine ⟨wEthUp, _, 0, 0, _, 0, [], ?_, ?_, ?_, wLd (by decide +kernel)⟩ <;> decide +kernel,
    by refine ⟨wEthUp, _, 0, 0, _, 0, 0, ?_, ?_, ?_, wLd (by decide +kernel)⟩ <;> decide +kernel,
    by refine ⟨((wMap State.reset).fset (R.ETH_STATUS 0) F.ETH_STATUS_UP 1).fset (R.ETH_CTL 0) F.ETH_CTL_EN 1, 0, 0, ?_, ?_, ?_⟩ <;> decide +kernel,
    by refine ⟨((wMap State.reset).fset (R.ETH_STATUS 0) F.ETH_STATUS_UP 1).fset (R.ETH_CTL 0) F.ETH_CTL_EN 1, 0, 0, ?_, ?_, ?_⟩ <;> decide +kernel,
    ⟨{ wEthUp with qps := [(0, { unacked := [{ psn := some 3, out := .send [] }, { psn := some 4, out := .send [] }, { psn := some 5, out := .send [] }] })] },
      0, 0, 4, [{ psn := some 4, out := .send [] }, { psn := some 5, out := .send [] }], by and_intros <;> decide +kernel⟩,
    ⟨((wMap State.reset).fset (R.ETH_STATUS 0) F.ETH_STATUS_UP 1).fset (R.ETH_CTL 0) F.ETH_CTL_EN 1, 0, 0, false, [], by
      decide +kernel⟩⟩

theorem witness_ShardsAndBatches :
    (∃ (s s1 s2 : State) (p i : Nat) (e w : List Nat),
      instrWf (.shardReadIssue p) = true ∧ s.inkOn p = true ∧ (s.workTry (inkUnit p) id).shardEntry p (s.stream p).rshard =
        (some e, s1) ∧ s1.nvqEntry p e = (some w, s2) ∧ (s2.stream p).freeBuf = some i ∧ s2.nvqTakes (shardNvq e) w = true ∧
        (lbaBytes (bits (e.getD 0 0) 54 4)).isSome = true ∧ s.workGoes (inkUnit p) (fun _ => true) (fun s => s.readNext p) =
        true)
    ∧ (∃ (s : State) (p i bl : Nat) (e w : List Nat),
      p < 8 ∧ lbaBytes (bits (e.getD 0 0) 54 4) = some bl)
    ∧ (∃ (s : State) (p t st : Nat) (l : List Nat) (r : ShardRead),
      instrWf (.nvmeCompletion p t st l) = true ∧ s.readOf p t = some r ∧ s.workGoes (inkUnit p) (fun _ => true) (fun s =>
        s.readDone p r st l) = true)
    ∧ (∃ (s s1 : State) (p n : Nat) (l : List Nat) (r : ShardRead),
      s.linked (r.port / 4) 2 = true ∧ (s.readCarry p r (l.take 262144)).store (Reach.intake p) (s.readBuf p r.tag) (min
        262144 l.length) (ofWords 8 (l.take 262144)) = (.ok n, s1))
    ∧ (∃ (s : State) (p t : Nat) (r : ShardRead),
      instrWf (.shardReadTimeout p t) = true ∧ s.readOf p t = some r ∧ s.workGoes (inkUnit p) (fun _ => true) (fun s =>
        s.readFails p r) = true)
    ∧ (∃ (s : State) (p st : Nat) (l : List Nat) (r : ShardRead),
      p < 8)
    ∧ (∃ (s : State) (p : Nat) (b : OpenBatch),
      instrWf (.batchClose p) = true ∧ (s.stream p).cur = some b ∧ s.batchLen p ≤ b.filled ∧ s.workGoes (inkUnit p) (fun _ =>
        true) (fun s => s.batchCloses p b) = true)
    ∧ (∃ (s s1 : State) (p n : Nat) (b : OpenBatch),
      s.store (Reach.intake p) (s.manifestAddr p b.buf) (8 * (s.manifestWords p b).length) (ofWords 64 (s.manifestWords p b))
        = (.ok n, s1))
    ∧ (∃ (s : State) (p : Nat) (b : OpenBatch),
      instrWf (.batchClose p) = true ∧ (s.stream p).cur = some b ∧ b.filled < s.batchLen p)
    ∧ (∃ (s : State) (p : Nat) (e : Nat × Nat) (l : List (Nat × Nat)),
      instrWf (.batchReady p) = true ∧ (s.stream p).closed = e :: l)
    ∧ (∃ (s : State) (a : Agent) (p v b : Nat) (h : Hit),
      instrWf (.streamEnWrite a p v) = true ∧ s.entry a .inks p (R.INK_S_CTRL p) true = .reach ∧ regPlace (R.INK_S_CTRL p) =
        .blk .inks p b ∧ hitAt .inks p b (R.INK_S_CTRL p) = some h ∧ s.reservedWr h none (s.regWr h (R.INK_S_CTRL p) 8 v false)
        = false ∧ (s.fbit (R.INK_S_CTRL p) F.INK_S_CTRL_EN = true → ∀ f ∈ h.row.fields, f ≠ F.INK_S_CTRL_EN → f ≠
        F.INK_S_CTRL_LOW_WATER → bits v f.lo f.w = s.fget (R.INK_S_CTRL p) f))
    ∧ (∃ (s : State) (a : Agent) (p v b : Nat) (h : Hit) (f : Fld),
      instrWf (.streamEnWrite a p v) = true ∧ s.entry a .inks p (R.INK_S_CTRL p) true = .reach ∧ regPlace (R.INK_S_CTRL p) =
        .blk .inks p b ∧ hitAt .inks p b (R.INK_S_CTRL p) = some h ∧ s.reservedWr h none (s.regWr h (R.INK_S_CTRL p) 8 v false)
        = false ∧ s.fbit (R.INK_S_CTRL p) F.INK_S_CTRL_EN = true ∧ f ∈ h.row.fields ∧ f ≠ F.INK_S_CTRL_EN ∧ f ≠
        F.INK_S_CTRL_LOW_WATER ∧ bits v f.lo f.w ≠ s.fget (R.INK_S_CTRL p) f)
    ∧ (∃ (s : State) (p : Nat),
      p < 8)
    ∧ (∃ (s : State) (p : Nat),
      p < 8) :=
  ⟨by refine ⟨wShards {}, _, _, 0, 0, _, _, ?_, ?_, wDuo [] (by decide +kernel),
      wDuo [] (by decide +kernel), ?_, ?_, ?_,
      by simp only [State.readNext, State.readIssue, State.readSend, State.readDone, State.readTake, State.readCarry, wCarry]; decide +kernel⟩ <;> decide +kernel,
    ⟨State.reset, 0, 0, 512, [], [], by and_intros <;> decide +kernel⟩,
    ⟨wInk { reads := [wRead] }, 0, 2, 0, [], wRead, by decide +kernel, by decide +kernel,
      by simp only [State.readNext, State.readIssue, State.readSend, State.readDone, State.readTake, State.readCarry, wCarry]; decide +kernel⟩,
    ⟨wInk { reads := [wRead] }, _, 0, _, [1, 2, 3], wRead, by decide +kernel,
      wLd (by simp only [State.readNext, State.readIssue, State.readSend, State.readDone, State.readTake, State.readCarry, wCarry]; decide +kernel)⟩,
    ⟨wInk { reads := [{ wRead with tries := 2 }] }, 0, 2, { wRead with tries := 2 }, by decide +kernel, by decide +kernel,
      by simp only [State.readFails, State.readAgain, State.readSend, wCarry]; decide +kernel⟩,
    ⟨State.reset, 0, 1, [], wRead, by decide +kernel⟩,
    ⟨wInk { cur := some { seq := 4, buf := 0, filled := 1 } }, 0, { seq := 4, buf := 0, filled := 1 },
      by and_intros <;> decide +kernel⟩,
    ⟨wInk { cur := some { seq := 4, buf := 0, filled := 1 } }, _, 0, _, { seq := 4, buf := 0, filled := 1 },
      wLd (by decide +kernel)⟩,
    ⟨wInk { cur := some { seq := 4, buf := 0, filled := 0 } }, 0, { seq := 4, buf := 0, filled := 0 },
      by and_intros <;> decide +kernel⟩,
    ⟨{ ((wMapC State.reset).fset R.INK_CTRL F.INK_CTRL_EN 1).fset (R.INK_S_CTRL 0) F.INK_S_CTRL_EN 1 with streams := [(0, { closed := [(4, 0)] })] },
      0, List.head
      ((({ ((wMapC State.reset).fset R.INK_CTRL F.INK_CTRL_EN 1).fset (R.INK_S_CTRL 0) F.INK_S_CTRL_EN 1 with streams := [(0, { closed := [(4, 0)] })] }
      : State).stream (0)).closed) (by decide +kernel),
      ((({ ((wMapC State.reset).fset R.INK_CTRL F.INK_CTRL_EN 1).fset (R.INK_S_CTRL 0) F.INK_S_CTRL_EN 1 with streams := [(0, { closed := [(4, 0)] })] }
      : State).stream (0)).closed).tail, by and_intros <;> decide +kernel⟩,
    by refine ⟨(State.reset.fset (R.INK_S_SHARDN 0) F.INK_S_SHARDN_COUNT 1).fset (R.INK_S_SHAPE 0) F.INK_S_SHAPE_SLOT_PAGES 1, .mgmt, 0,
      2 ^ 63 + 2 ^ 62 + 2 ^ 59 + 2 ^ 55 + 8 * 2 ^ 48 + 2 * 2 ^ 40 + 64 * 2 ^ 16 + 2 * 2 ^ 13, 0x10010000,
      Option.get (hitAt .inks 0 0x10010000 (R.INK_S_CTRL 0)) (by decide +kernel), ?_, ?_,
      ?_, ?_, ?_, ?_⟩ <;> decide +kernel,
    by refine ⟨wInk {}, .mgmt, 0, 2 ^ 63 + 2 ^ 24 + 2 ^ 62 + 2 ^ 59 + 2 ^ 55 + 8 * 2 ^ 48 + 2 * 2 ^ 40 + 64 * 2 ^ 16 + 2 * 2 ^ 13,
      0x10010000, Option.get (hitAt .inks 0 0x10010000 (R.INK_S_CTRL 0)) (by decide +kernel), F.INK_S_CTRL_BATCH,
      ?_, ?_, ?_, ?_, ?_, ?_,
      ?_, ?_, ?_, ?_⟩ <;> decide +kernel,
    ⟨State.reset, 0, by decide +kernel⟩,
    ⟨State.reset, 0, by decide +kernel⟩⟩

theorem witness_RecordsAndSamples :
    (∃ (s s1 s2 : State) (p off : Nat) (h : RecHdr) (e ws : List Nat),
      instrWf (.recordStart p h) = true ∧ s.inkOn p = true ∧ (s.workTry (inkUnit p) id).shardEntry p (s.cursorAt p).2 = (some
        e, s1) ∧ (s1.stream p).seek = false ∧ s1.fget (R.INK_S_OFFSET p) F.INK_S_OFFSET_OFFSET = off ∧ off + 32 ≤ shardLen e ∧
        s1.headerAt p off = (some ws, s2) ∧ recHeader ws = h ∧ s.workGoes (inkUnit p) (fun _ => true) (fun s => s.recordNext p
        h) = true)
    ∧ (∃ (s : State) (p off len : Nat) (h : RecHdr) (ws : List Nat),
      p < 8 ∧ recHeader ws = h)
    ∧ (∃ (s : State) (p i : Nat) (l : List Nat) (x : Sample),
      instrWf (.sampleFinish p i l) = true ∧ (s.stream p).sample? i = some x ∧ x.decoding = true ∧ l.length = x.hdr.storedLen
        ∧ s.workGoes (inkUnit p) (fun _ => true) (fun s => s.sampleEnds p i x l) = true)
    ∧ (∃ (s : State) (p i : Nat) (l : List Nat) (x : Sample),
      instrWf (.sampleFinish p i l) = true ∧ (s.stream p).sample? i = some x ∧ (x.decoding = false ∨ l.length ≠
        x.hdr.storedLen))
    ∧ (∃ (s : State) (p i : Nat) (l : List Nat) (x : Sample),
      p < 8)
    ∧ (∃ (s : State) (p : Nat) (i : Nat) (k : Nat) (x : Sample),
      instrWf (.sampleBudget p i) = true ∧ (s.stream p).sample? i = some x ∧ x.out = none ∧ x.budget < x.hard ∧ freeSlot
        (s.stream p).slow (s.inkCtl p F.INK_S_CTRL_SLOW_SLOTS) = some k)
    ∧ (∃ (s : State) (p : Nat) (i : Nat) (cause : Nat) (x : Sample) (c : Instr),
      instrWf c = true ∧ (s.stream p).sample? i = some x ∧ x.out = none ∧ (c = .sampleHardLimit p i ∧ cause = 9 ∨ c =
        .sampleBudget p i ∧ cause = 0xA ∧ x.budget < x.hard ∧ freeSlot (s.stream p).slow (s.inkCtl p F.INK_S_CTRL_SLOW_SLOTS) =
        none)) :=
  ⟨by refine ⟨wRecords, _, _, 0, 0, recHeader wHeader, _, wHeader, ?_, ?_, wDuo [] (by decide +kernel),
      ?_, ?_, ?_, Prod.ext (by decide +kernel) rfl, ?_,
      ?_⟩ <;> decide +kernel,
    ⟨State.reset, 0, 0, 0, recHeader [], [], by and_intros <;> decide +kernel⟩,
    ⟨wInk { staging := [(0, { wSample with unit := true })] }, 0, 0, List.replicate 16 0, { wSample with unit := true },
      by and_intros <;> decide +kernel⟩,
    ⟨wInk { staging := [(0, { wSample with unit := true })] }, 0, 0, [], { wSample with unit := true }, by decide +kernel,
      by decide +kernel, .inr (by decide +kernel)⟩,
    ⟨State.reset, 0, 0, [], wSample, by decide +kernel⟩,
    ⟨{ ((wMapC State.reset).fset R.INK_CTRL F.INK_CTRL_EN 1).fset (R.INK_S_CTRL 0) F.INK_S_CTRL_EN 1 with streams := [(0, { staging := [(0, { hdr := ⟨0x4E574146, 0, 0, 0, 7, 16, 16, 0, 0⟩, shard := 0, off := 0, start := 0, budget := 5, hard := 9 })] })] }.fset
      (R.INK_S_CTRL 0) F.INK_S_CTRL_SLOW_SLOTS 4, 0, 0, Option.get (freeSlot
      (({ ((wMapC State.reset).fset R.INK_CTRL F.INK_CTRL_EN 1).fset (R.INK_S_CTRL 0) F.INK_S_CTRL_EN 1 with streams := [(0, { staging := [(0, { hdr := ⟨0x4E574146, 0, 0, 0, 7, 16, 16, 0, 0⟩, shard := 0, off := 0, start := 0, budget := 5, hard := 9 })] })] }.fset
      (R.INK_S_CTRL 0) F.INK_S_CTRL_SLOW_SLOTS 4 : State).stream (0)).slow
      (({ ((wMapC State.reset).fset R.INK_CTRL F.INK_CTRL_EN 1).fset (R.INK_S_CTRL 0) F.INK_S_CTRL_EN 1 with streams := [(0, { staging := [(0, { hdr := ⟨0x4E574146, 0, 0, 0, 7, 16, 16, 0, 0⟩, shard := 0, off := 0, start := 0, budget := 5, hard := 9 })] })] }.fset
      (R.INK_S_CTRL 0) F.INK_S_CTRL_SLOW_SLOTS 4 : State).inkCtl (0) F.INK_S_CTRL_SLOW_SLOTS)) (by decide +kernel), Option.get
      ((({ ((wMapC State.reset).fset R.INK_CTRL F.INK_CTRL_EN 1).fset (R.INK_S_CTRL 0) F.INK_S_CTRL_EN 1 with streams := [(0, { staging := [(0, { hdr := ⟨0x4E574146, 0, 0, 0, 7, 16, 16, 0, 0⟩, shard := 0, off := 0, start := 0, budget := 5, hard := 9 })] })] }.fset
      (R.INK_S_CTRL 0) F.INK_S_CTRL_SLOW_SLOTS 4 : State).stream (0)).sample? (0)) (by decide +kernel),
      by and_intros <;> decide +kernel⟩,
    ⟨{ ((wMapC State.reset).fset R.INK_CTRL F.INK_CTRL_EN 1).fset (R.INK_S_CTRL 0) F.INK_S_CTRL_EN 1 with streams := [(0, { staging := [(0, { hdr := ⟨0x4E574146, 0, 0, 0, 7, 16, 16, 0, 0⟩, shard := 0, off := 0, start := 0, budget := 5, hard := 9 })] })] },
      0, 0, 9, Option.get
      ((({ ((wMapC State.reset).fset R.INK_CTRL F.INK_CTRL_EN 1).fset (R.INK_S_CTRL 0) F.INK_S_CTRL_EN 1 with streams := [(0, { staging := [(0, { hdr := ⟨0x4E574146, 0, 0, 0, 7, 16, 16, 0, 0⟩, shard := 0, off := 0, start := 0, budget := 5, hard := 9 })] })] }
      : State).stream (0)).sample? (0)) (by decide +kernel), .sampleHardLimit (0) (0),
      by and_intros <;> decide +kernel⟩⟩

theorem witness_ContextCommands :
    (∃ (s : State) (p : Nat) (k : Nat) (r : CmdRec),
      instrWf (.jobStart p r) = true ∧ s.ringReady p = true ∧ s.oos = false ∧ wordsOk r [mask 20 55, mask 33 63, mask 0 48, mask 0
        63, mask 0 63, mask 2 55] = true ∧ bits r.w1 20 36 * 2 ^ 20 < 2 ^ 42 ∧ s.ctxs.find? r.ctx = none ∧ s.herdsOf p ≠ 0 ∧ bit
        r.w2 33 = false ∧ bit r.w2 35 = true ∧ s.freeSlot p = some k)
    ∧ (∃ (s : State) (p : Nat) (r : CmdRec) (c : Ctx),
      instrWf (.jobEnd p r) = true ∧ s.ringReady p = true ∧ s.oos = false ∧ wordsOk r [] = true ∧ s.ctxs.find? r.ctx = some c ∧
        c.part = p ∧ s.inFlight p r.ctx = false ∧ s.locked p r.ctx = false ∧ (s.part p).sw = none)
    ∧ (∃ (s : State) (p : Nat) (r : CmdRec) (c : Ctx),
      instrWf (.run p r) = true ∧ s.ringReady p = true ∧ s.oos = false ∧ wordsOk r [mask 0 31] = true ∧ s.ctxs.find? r.ctx = some c
        ∧ c.part = p)
    ∧ (∃ (s : State) (s1 : State) (p : Nat) (k : Nat) (r : CmdRec) (c : Ctx),
      instrWf (.swapIn p r) = true ∧ s.ringReady p = true ∧ s.oos = false ∧ wordsOk r [] = true ∧ s.ctxs.find? r.ctx = some c ∧
        c.part = p ∧ s.resident p r.ctx = none ∧ s.freeSlot p = some k ∧ s.enterSlot p k r.ctx = (0, s1))
    ∧ (∃ (s : State) (p : Nat) (k : Nat) (r : CmdRec) (c : Ctx) (x : Slot),
      instrWf (.swapOut p r) = true ∧ s.ringReady p = true ∧ s.oos = false ∧ wordsOk r [] = true ∧ s.ctxs.find? r.ctx = some c ∧
        c.part = p ∧ s.resident p r.ctx = some (k, x) ∧ x.step.live = false ∧ s.locked p r.ctx = false ∧ s.busySlot p k = false)
    ∧ (∃ (s : State) (p : Nat) (r : CmdRec) (c : Ctx),
      instrWf (.ready p r) = true ∧ s.ringReady p = true ∧ s.oos = false ∧ wordsOk r [mask 0 0] = true ∧ s.ctxs.find? r.ctx = some c
        ∧ c.part = p ∧ s.resident p r.ctx = none)
    ∧ (∃ (s : State) (p : Nat) (k : Nat) (r : CmdRec) (c : Ctx) (x : Slot),
      instrWf (.abort p r) = true ∧ s.ringReady p = true ∧ s.oos = false ∧ wordsOk r [] = true ∧ s.ctxs.find? r.ctx = some c ∧
        c.part = p ∧ s.resident p r.ctx = some (k, x) ∧ s.slot? p k = some x ∧ x.step.live = true) :=
  ⟨⟨wFull ((State.reset.fset (R.SCH_PART 0) F.SCH_PART_HERDS 1).fset (R.SCH_CMD_PTR 0) F.SCH_CMD_PTR_TAIL 3), 0, 0,
      { wCmd 5 with w2 := 2 ^ 35 + 9 * 2 ^ 48 },
      by and_intros <;> decide +kernel⟩,
    ⟨wFull ((wBase).fset (R.SCH_CMD_PTR 0) F.SCH_CMD_PTR_TAIL 3), 0, wCmd 1, Option.get ((wFull ((wBase).fset (R.SCH_CMD_PTR 0)
      F.SCH_CMD_PTR_TAIL 3) : State).ctxs.find? (wCmd 1 : CmdRec).ctx) (by decide +kernel),
      by and_intros <;> decide +kernel⟩,
    ⟨wFull ((wBase).fset (R.SCH_CMD_PTR 0) F.SCH_CMD_PTR_TAIL 3), 0, wCmd 1, Option.get ((wFull ((wBase).fset (R.SCH_CMD_PTR 0)
      F.SCH_CMD_PTR_TAIL 3) : State).ctxs.find? (wCmd 1 : CmdRec).ctx) (by decide +kernel),
      by and_intros <;> decide +kernel⟩,
    by refine ⟨wOut, (wOut.enterSlot 0 0 (wCmd 1).ctx).2, 0, 0, wCmd 1,
      { part := 0, slot := none, ready := true, job := 7, save := 0x10000, kept := some wSlot }, ?_, ?_, ?_, ?_, ?_, ?_, ?_, ?_, wEnter⟩ <;> decide +kernel,
    ⟨wFull (({ wBase with parts := [(0, { slots := [(0, wSlot)] })] }).fset (R.SCH_CMD_PTR 0) F.SCH_CMD_PTR_TAIL 3), 0, 0, wCmd 1,
      Option.get ((wFull (({ wBase with parts := [(0, { slots := [(0, wSlot)] })] }).fset (R.SCH_CMD_PTR 0) F.SCH_CMD_PTR_TAIL 3) :
      State).ctxs.find? (wCmd 1 : CmdRec).ctx) (by decide +kernel), (Option.get ((wFull
      (({ wBase with parts := [(0, { slots := [(0, wSlot)] })] }).fset (R.SCH_CMD_PTR 0) F.SCH_CMD_PTR_TAIL 3) : State).resident (0)
      (wCmd 1 : CmdRec).ctx) (by decide +kernel)).2,
      by and_intros <;> decide +kernel⟩,
    ⟨wFull
      (({ State.reset.fset (R.SCH_PART 0) F.SCH_PART_HERDS 1 with ctxs := [(1, { part := 0, slot := none, ready := true, job := 7, save := 0x10000, kept := some wSlot })], rangeMap := [(0, 2 ^ 63)] }).fset
      (R.SCH_CMD_PTR 0) F.SCH_CMD_PTR_TAIL 3), 0, { wCmd 1 with w1 := 0 }, Option.get ((wFull
      (({ State.reset.fset (R.SCH_PART 0) F.SCH_PART_HERDS 1 with ctxs := [(1, { part := 0, slot := none, ready := true, job := 7, save := 0x10000, kept := some wSlot })], rangeMap := [(0, 2 ^ 63)] }).fset
      (R.SCH_CMD_PTR 0) F.SCH_CMD_PTR_TAIL 3) : State).ctxs.find? ({ wCmd 1 with w1 := 0 } : CmdRec).ctx) (by decide +kernel),
      by and_intros <;> decide +kernel⟩,
    ⟨wFull ((wStep {}).fset (R.SCH_CMD_PTR 0) F.SCH_CMD_PTR_TAIL 3), 0, 0, wCmd 1, Option.get ((wFull ((wStep {}).fset
      (R.SCH_CMD_PTR 0) F.SCH_CMD_PTR_TAIL 3) : State).ctxs.find? (wCmd 1 : CmdRec).ctx) (by decide +kernel), (Option.get ((wFull
      ((wStep {}).fset (R.SCH_CMD_PTR 0) F.SCH_CMD_PTR_TAIL 3) : State).resident (0) (wCmd 1 : CmdRec).ctx) (by decide +kernel)).2,
      by and_intros <;> decide +kernel⟩⟩

theorem witness_PartitionsAndGroups :
    (∃ (s : State) (p : Nat) (r : CmdRec),
      instrWf (.partSet p r) = true ∧ s.ringReady p = true ∧ s.oos = false ∧ wordsOk r [mask 0 15] = true ∧ r.ctx = 0 ∧ (∀ e ∈
        s.ctxs, e.2.part ≠ p) ∧ s.herdTaken p (r.w1 % 65536) = false)
    ∧ (∃ (s : State) (p : Nat) (n : Nat),
      instrWf (.partSetApply p) = true ∧ (s.part p).partSet = some n ∧ s.atBoundary 8 = true)
    ∧ (∃ (s : State) (p : Nat) (r : CmdRec),
      instrWf (.groupSet p r) = true ∧ s.ringReady p = true ∧ s.oos = false ∧ wordsOk r [mask 0 2 ||| mask 8 11, mask 0 63] = true ∧
        r.ctx = 0 ∧ bits r.w1 8 4 ≤ 8 ∧ r.w2 < 2 ^ (8 * bits r.w1 8 4) ∧ (∀ c ∈ groupIds r, (s.ctxs.find? c).isSome = true) ∧ (∀ c ∈
        groupIds r ++ Map.get [] s.groups (r.w1 % 8), s.ctxBusy c = false) ∧ (∀ e ∈ s.groups, e.1 ≠ r.w1 % 8 → ∀ c ∈ e.2, c ∉
        groupIds r)) :=
  ⟨⟨(State.reset).fset (R.SCH_CMD_PTR 0) F.SCH_CMD_PTR_TAIL 3, 0, { wCmd 0 with w1 := 5 },
      by and_intros <;> decide +kernel⟩,
    ⟨wAt 5 { wBase with parts := [(0, { partSet := some 6 })], ctxs := [] }, 0, Option.get (((wAt 5
      { wBase with parts := [(0, { partSet := some 6 })], ctxs := [] } : State).part (0)).partSet) (by decide +kernel), by
      decide +kernel, by and_intros <;> decide +kernel⟩,
    ⟨(State.reset).fset (R.SCH_CMD_PTR 0) F.SCH_CMD_PTR_TAIL 3, 0, { wCmd 0 with w1 := 3 },
      by and_intros <;> decide +kernel⟩⟩

theorem witness_ContextSwitches :
    (∃ (s : State) (p r k : Nat) (x : Slot),
      instrWf (.contextSwitch p) = true ∧ s.atBoundary 7 = true ∧ (s.part p).sw = none ∧ s.fenced 5 0 = false ∧ (s.part p).run
        = some r ∧ s.slot? p r = some x ∧ s.sliceOver p x = true ∧ s.nextRunnable p r = some k)
    ∧ (∃ (s : State) (p k : Nat),
      instrWf (.contextSwitch p) = true ∧ s.atBoundary 7 = true ∧ (s.part p).sw = none ∧ s.fenced 5 0 = false ∧ (s.part p).run
        = none ∧ s.readyCtx p = none ∧ firstUpTo 4 (fun j => s.runnable p j) = some k)
    ∧ (∃ (s : State) (p r : Nat) (x : Slot) (w : Switch),
      instrWf (.contextSaveDone p) = true ∧ (s.part p).sw = some w ∧ w.src = some r ∧ s.slot? p r = some x ∧ w.phase = 0 ∧
        w.swapIn = none ∧ s.tilesIdle p = true ∧ s.fenced 5 0 = false)
    ∧ (∃ (s : State) (p k : Nat) (x : Slot) (w : Switch),
      instrWf (.contextRestoreDone p) = true ∧ (s.part p).sw = some w ∧ w.dst = some k ∧ s.slot? p k = some x ∧ w.phase = 1 ∧
        s.fenced 5 0 = false)
    ∧ (∃ (s : State) (p k : Nat) (x : Slot) (w : Switch),
      instrWf (.contextStart p) = true ∧ (s.part p).sw = some w ∧ w.dst = some k ∧ w.phase = 2 ∧ s.atBoundary 7 = true ∧
        s.slot? p k = some x ∧ s.fenced 5 0 = false)
    ∧ (∃ (s : State) (p : Nat) (c : Instr),
      (c = .contextSwitch p ∨ c = .contextSaveDone p ∨ c = .contextRestoreDone p ∨ c = .contextStart p) ∧ s.fenced 5 0 = true)
    ∧ (∃ (s : State) (p : Nat) (k : Nat) (d : Nat) (n : Nat) (x : Slot),
      instrWf (.lockDeferExpiry p k) = true ∧ s.slot? p k = some x ∧ x.deferred = some d ∧ s.lockOf p x.ctx = some n ∧ d + 8 ≤
        s.tick) :=
  ⟨⟨wAt 6 { wMap wBase with parts := [(0, { slots := [(0, { wSlot with ran := 9 }.fset R.SCH_TASK_COUNT F.SCH_TASK_COUNT_COUNT 1), (2, { wSlot with ctx := 2 }.fset R.SCH_TASK_COUNT F.SCH_TASK_COUNT_COUNT 1)], run := some 0, sw := none })] },
      0, 0, 2, { wSlot with ran := 9 }.fset R.SCH_TASK_COUNT F.SCH_TASK_COUNT_COUNT 1, by and_intros <;> decide +kernel⟩,
    ⟨wAt 6 { wMap wBase with parts := [(0, { slots := [(2, { wSlot with ctx := 2 }.fset R.SCH_TASK_COUNT F.SCH_TASK_COUNT_COUNT 1)], run := none, sw := none })] },
      0, 2, by and_intros <;> decide +kernel⟩,
    ⟨{ wMap wBase with parts := [(0, { slots := [(0, wSlot)], run := some 0, sw := some { src := some 0, dst := some 2 } })] },
      0, 0, wSlot, { src := some 0, dst := some 2 }, by and_intros <;> decide +kernel⟩,
    ⟨{ wMap wBase with parts := [(0, { slots := [(0, wSlot)], run := none, sw := some { src := none, dst := some 0, phase := 1 } })] },
      0, 0, wSlot, { src := none, dst := some 0, phase := 1 }, by and_intros <;> decide +kernel⟩,
    ⟨wAt 6 { wMap wBase with parts := [(0, { slots := [(0, wSlot)], run := none, sw := some { src := none, dst := some 0, phase := 2 } })] },
      0, 0, wSlot, { src := none, dst := some 0, phase := 2 }, by and_intros <;> decide +kernel⟩,
    ⟨{ State.reset with doms := [{ code := 5, unit := 0, phase := 1, since := 0 }] }, 0, .contextSwitch 0, by decide +kernel,
      by decide +kernel⟩,
    ⟨wFull
      { wWith { wSlot with deferred := some 0 } with clk := { tb := 9 * 65536 }, parts := [(0, { slots := [(0, { wSlot with deferred := some 0 })], run := some 0, sems := [(3, { lock := true, held := true, holder := 1 })] })] },
      0, 0, Option.get ((Option.get ((wFull
      { wWith { wSlot with deferred := some 0 } with clk := { tb := 9 * 65536 }, parts := [(0, { slots := [(0, { wSlot with deferred := some 0 })], run := some 0, sems := [(3, { lock := true, held := true, holder := 1 })] })] }
      : State).slot? (0) (0)) (by decide +kernel) : Slot).deferred) (by decide +kernel), Option.get ((wFull
      { wWith { wSlot with deferred := some 0 } with clk := { tb := 9 * 65536 }, parts := [(0, { slots := [(0, { wSlot with deferred := some 0 })], run := some 0, sems := [(3, { lock := true, held := true, holder := 1 })] })] }
      : State).lockOf (0) (Option.get ((wFull
      { wWith { wSlot with deferred := some 0 } with clk := { tb := 9 * 65536 }, parts := [(0, { slots := [(0, { wSlot with deferred := some 0 })], run := some 0, sems := [(3, { lock := true, held := true, holder := 1 })] })] }
      : State).slot? (0) (0)) (by decide +kernel) : Slot).ctx) (by decide +kernel), Option.get ((wFull
      { wWith { wSlot with deferred := some 0 } with clk := { tb := 9 * 65536 }, parts := [(0, { slots := [(0, { wSlot with deferred := some 0 })], run := some 0, sems := [(3, { lock := true, held := true, holder := 1 })] })] }
      : State).slot? (0) (0)) (by decide +kernel),
      by and_intros <;> decide +kernel⟩⟩

theorem witness_FaultsSparingAndService :
    (∃ (s : State) (f : JobFault) (l : List JobFault),
      s.jobFaults = f :: l)
    ∧ (∃ (s : State) (a : Agent) (v : Nat),
      instrWf (.fltReset a v) = true ∧ s.entry a .flt 0 R.FLT_RESET true = .reach)
    ∧ (∃ (s : State) (h : Nat) (ph : Nat) (i : Nat),
      instrWf (.tileFail h ph) = true ∧ logicalOf (Map.get 0 s.sparing h) ph = some i ∧ (s.tile (12 * h + i)).failed = false ∧
        s.tileFailDue (12 * h + i) = true)
    ∧ (∃ (s : State) (a : Agent) (v : Nat),
      instrWf (.oosClear a v) = true ∧ s.entry a .flt 0 R.FLT_OOS true = .reach) :=
  ⟨⟨{ wFull wBase with jobFaults := [{ unit := 0, kind := 1, cause := 3, ctx := 1, job := 7, part := 0 }] }, List.head
      (({ wFull wBase with jobFaults := [{ unit := 0, kind := 1, cause := 3, ctx := 1, job := 7, part := 0 }] } : State).jobFaults)
      (by decide +kernel), (({ wFull wBase with jobFaults := [{ unit := 0, kind := 1, cause := 3, ctx := 1, job := 7, part := 0 }] }
      : State).jobFaults).tail, by decide +kernel⟩,
    ⟨State.reset, .mgmt, 2^60 + 5, by and_intros <;> decide +kernel⟩,
    ⟨{ wFull wBase with tiles := [(0, { hangs := 200 })] }, 0, 0, Option.get (logicalOf (Map.get 0
      ({ wFull wBase with tiles := [(0, { hangs := 200 })] } : State).sparing (0)) (0)) (by decide +kernel),
      by and_intros <;> decide +kernel⟩,
    ⟨(State.reset.fset R.FLT_STATUS F.FLT_STATUS_OOS_CLEARABLE 1).fset R.FLT_STATUS F.FLT_STATUS_OOS 1, .mgmt, 1, by and_intros <;> decide +kernel⟩⟩

theorem witness_ResetDomains :
    (∃ (s : State) (code n : Nat),
      instrWf (.fence code n) = true ∧ s.resetsDue.contains (code, n) = true ∧ State.absorbed
        {s with resetsDue := s.resetsDue.erase (code, n)} code n = false ∧ s.fenceTwin code n = false)
    ∧ (∃ (s : State) (n : Nat),
      n < 2 ∧ s.ucieLost 2 = true ∧ s.doms = [] ∧ s.resetsDue = [(4, n), (4, 1 - n)])
    ∧ (∃ (s : State) (code : Nat) (n : Nat),
      instrWf (.drainEnd code n) = true ∧ s.inPhase code n 1 = true ∧ s.pwr.trip = false)
    ∧ (∃ (s : State) (code : Nat) (n : Nat),
      instrWf (.resetEnd code n) = true ∧ s.inPhase code n 2 = true ∧ 1 ≤ code ∧ code ≤ 5)
    ∧ (∃ (s : State) (code : Nat) (n : Nat),
      instrWf (.domainRelease code n) = true ∧ s.clk.phase < 9 ∧ s.mayRelease code n = true) :=
  ⟨⟨{ wRun (wRunOf [.nop]) with resetsDue := [(1, 0)] }, 1, 0, by and_intros <;> decide +kernel⟩,
    ⟨{ State.reset with ucieOut := [(2, 2 ^ 16 - 1)], resetsDue := [(4, 0), (4, 1)] }, 0, by and_intros <;> decide +kernel⟩,
    ⟨{ wRun (wRunOf [.nop]) with doms := [⟨1, 0, 1, 0⟩] }, 1, 0, by and_intros <;> decide +kernel⟩,
    ⟨{ wRun (wRunOf [.nop]) with doms := [⟨1, 0, 2, 0⟩] }, 1, 0,
      by and_intros <;> decide +kernel⟩,
    ⟨wAt 5 { wRun (wRunOf [.nop]) with doms := [⟨1, 0, 3, 0⟩] }, 1, 0, by and_intros <;> decide +kernel⟩⟩

theorem witness_Snapshots :
    (∃ (s : State) (p : Nat) (k : Nat) (r : CmdRec) (c : Ctx) (x : Slot),
      instrWf (.snapshot p r) = true ∧ s.ringReady p = true ∧ s.oos = false ∧ wordsOk r [mask 0 0, mask 0 47] = true ∧
        s.ctxs.find? r.ctx = some c ∧ c.part = p ∧ s.snapOn = true ∧ s.resident p r.ctx = some (k, x) ∧ x.fget R.SCH_SNAP_CTL
        F.SCH_SNAP_CTL_COUNT ≠ 0 ∧ x.snap.phase ≠ 1 ∧ x.snapNext = none)
    ∧ (∃ (s : State) (p k : Nat) (x : Slot),
      instrWf (.snapshotCapture p k) = true ∧ s.slot? p k = some x ∧ s.atBoundary 8 = true ∧ x.snap.phase = 1 ∧
        x.snap.committed = true ∧ x.pass = 0 ∧ before x.decidedAt s.tick = true ∧ s.workGoes (snapUnit p) (fun _ => true) (fun s
        => s.capture p k x) = true)
    ∧ (∃ (s s1 : State) (p k : Nat) (x : Slot) (ps : List Piece) (w : List Nat),
      p < 8 ∧ k < 4 ∧ s.snapPlan p x = (.ok (ps, w), s1) ∧ x.fget R.SCH_VER (pinFld x.gen) < 255)
    ∧ (∃ (s s1 : State) (p k n : Nat) (x : Slot),
      s.snapPlan p x = (.error n, s1))
    ∧ (∃ (s : State) (p : Nat) (k : Nat) (x : Slot),
      instrWf (.snapshotStagingDone p k) = true ∧ s.slot? p k = some x ∧ x.snap.phase = 2)
    ∧ (∃ (s : State) (p k : Nat) (x : Slot),
      instrWf (.snapshotReadDone p k) = true ∧ s.slot? p k = some x ∧ x.snap.phase = 3 ∧ s.snapQ.head? = some x.ctx ∧
        s.workGoes (snapUnit p) (fun _ => true) (fun s => s.snapRead p k x) = true)
    ∧ (∃ (s s1 : State) (p k : Nat) (x : Slot) (ds : List Nat),
      p < 8 ∧ k < 4 ∧ (x.snap.sign = true → s.idKey.isSome = true) ∧ s.snapDigests x.snap = (.ok ds, s1))
    ∧ (∃ (s : State) (p k : Nat) (x : Slot),
      instrWf (.snapshotAnchor p k) = true ∧ s.slot? p k = some x ∧ x.snap.phase = 4 ∧ s.unitAsks (snapUnit p) = false ∧
        (x.snap.sign = true → s.idKey.isSome = true) ∧ s.workGoes (snapUnit p) (fun _ => true) (fun s => s.snapAnchors p k x) =
        true)
    ∧ (∃ (s v w : State) (p k n m : Nat) (x : Slot),
      p < 8 ∧ k < 4 ∧ s.snapPut x.snap 0 (tgtStage x.snap.tgt) 4096 (ofWords 64 (x.snapAnchor p (x.snapManifest p
        (s.idKey.getD 0)))) = (.ok n, v) ∧ v.snapFlush x.snap = (.ok m, w))
    ∧ (∃ (s : State) (p : Nat) (k : Nat) (r : CmdRec) (c : Ctx) (x : Slot),
      instrWf (.snapCancel p r) = true ∧ s.ringReady p = true ∧ s.oos = false ∧ wordsOk r [] = true ∧ s.ctxs.find? r.ctx =
        some c ∧ c.part = p ∧ s.snapOn = true ∧ s.resident p r.ctx = some (k, x) ∧ s.slot? p k = some x) :=
  ⟨⟨(wFull
      ((({ wWith ({ wSlot with snap := {  } }.fset R.SCH_SNAP_CTL F.SCH_SNAP_CTL_COUNT 1) with rangeMap := [(0, 2 ^ 63 + 2 ^ 61), (1, 2 ^ 63 + 2 ^ 61 + 1)] }).fset
      (R.SCH_CMD_PTR 0) F.SCH_CMD_PTR_TAIL 3).fset R.SNAP_CTL F.SNAP_CTL_EN 1)), 0, 0, { wCmd 1 with w1 := 1, w2 := 77 }, Option.get
      (((wFull
      ((({ wWith ({ wSlot with snap := {  } }.fset R.SCH_SNAP_CTL F.SCH_SNAP_CTL_COUNT 1) with rangeMap := [(0, 2 ^ 63 + 2 ^ 61), (1, 2 ^ 63 + 2 ^ 61 + 1)] }).fset
      (R.SCH_CMD_PTR 0) F.SCH_CMD_PTR_TAIL 3).fset R.SNAP_CTL F.SNAP_CTL_EN 1)) : State).ctxs.find?
      ({ wCmd 1 with w1 := 1, w2 := 77 } : CmdRec).ctx) (by decide +kernel), (Option.get (((wFull
      ((({ wWith ({ wSlot with snap := {  } }.fset R.SCH_SNAP_CTL F.SCH_SNAP_CTL_COUNT 1) with rangeMap := [(0, 2 ^ 63 + 2 ^ 61), (1, 2 ^ 63 + 2 ^ 61 + 1)] }).fset
      (R.SCH_CMD_PTR 0) F.SCH_CMD_PTR_TAIL 3).fset R.SNAP_CTL F.SNAP_CTL_EN 1)) : State).resident (0)
      ({ wCmd 1 with w1 := 1, w2 := 77 } : CmdRec).ctx) (by decide +kernel)).2,
      by and_intros <;> decide +kernel⟩,
    ⟨wAt 7 ((wSnaps { phase := 1, committed := true }).modSlot 0 0 fun z => z.fset R.SCH_SNAP_TGT F.SCH_SNAP_TGT_ADDR 64), 0, 0,
      (wSnap { phase := 1, committed := true }).fset R.SCH_SNAP_TGT F.SCH_SNAP_TGT_ADDR 64, by and_intros <;> decide +kernel⟩,
    by refine ⟨wAt 7 ((wSnaps { phase := 1, committed := true }).modSlot 0 0 fun z => z.fset R.SCH_SNAP_TGT F.SCH_SNAP_TGT_ADDR 64), _, 0,
      0, (wSnap { phase := 1, committed := true }).fset R.SCH_SNAP_TGT F.SCH_SNAP_TGT_ADDR 64, _, _, ?_,
      ?_, wFineEq ([], []) (by decide +kernel), ?_⟩ <;> decide +kernel,
    ⟨State.reset, _, 0, 0, _, wSnap { phase := 1, committed := true }, wErrEq (by decide +kernel)⟩,
    ⟨(wFull
      ((({ wWith ({ wSlot with snap := { phase := 2 } }.fset R.SCH_SNAP_CTL F.SCH_SNAP_CTL_COUNT 1) with rangeMap := [(0, 2 ^ 63 + 2 ^ 61), (1, 2 ^ 63 + 2 ^ 61 + 1)] }).fset
      (R.SCH_CMD_PTR 0) F.SCH_CMD_PTR_TAIL 3).fset R.SNAP_CTL F.SNAP_CTL_EN 1)), 0, 0, Option.get (((wFull
      ((({ wWith ({ wSlot with snap := { phase := 2 } }.fset R.SCH_SNAP_CTL F.SCH_SNAP_CTL_COUNT 1) with rangeMap := [(0, 2 ^ 63 + 2 ^ 61), (1, 2 ^ 63 + 2 ^ 61 + 1)] }).fset
      (R.SCH_CMD_PTR 0) F.SCH_CMD_PTR_TAIL 3).fset R.SNAP_CTL F.SNAP_CTL_EN 1)) : State).slot? (0) (0)) (by decide +kernel), by
      decide +kernel, by and_intros <;> decide +kernel⟩,
    ⟨wSnaps { phase := 3 }, 0, 0, wSnap { phase := 3 }, by and_intros <;> decide +kernel⟩,
    by refine ⟨wSnaps { phase := 3 }, _, 0, 0, wSnap { phase := 3 }, _, ?_, ?_, ?_,
      wFineEq [] (by decide +kernel)⟩ <;> decide +kernel,
    ⟨{ wSnaps { phase := 4 } with mem := wWords (2 ^ 43) [2 ^ 63] [] }, 0, 0, wSnap { phase := 4 },
      by and_intros <;> decide +kernel⟩,
    ⟨{ wSnaps { phase := 4 } with mem := wWords (2 ^ 43) [2 ^ 63] [] }, _, _, 0, 0, _, _, wSnap { phase := 4 },
      by decide +kernel, by decide +kernel, wLd (by decide +kernel), wLd (by decide +kernel)⟩,
    ⟨(wFull
      ((({ wWith ({ wSlot with snap := { phase := 1 } }.fset R.SCH_SNAP_CTL F.SCH_SNAP_CTL_COUNT 1) with rangeMap := [(0, 2 ^ 63 + 2 ^ 61), (1, 2 ^ 63 + 2 ^ 61 + 1)] }).fset
      (R.SCH_CMD_PTR 0) F.SCH_CMD_PTR_TAIL 3).fset R.SNAP_CTL F.SNAP_CTL_EN 1)), 0, 0, wCmd 1, Option.get (((wFull
      ((({ wWith ({ wSlot with snap := { phase := 1 } }.fset R.SCH_SNAP_CTL F.SCH_SNAP_CTL_COUNT 1) with rangeMap := [(0, 2 ^ 63 + 2 ^ 61), (1, 2 ^ 63 + 2 ^ 61 + 1)] }).fset
      (R.SCH_CMD_PTR 0) F.SCH_CMD_PTR_TAIL 3).fset R.SNAP_CTL F.SNAP_CTL_EN 1)) : State).ctxs.find? (wCmd 1 : CmdRec).ctx) (by
      decide +kernel), (Option.get (((wFull
      ((({ wWith ({ wSlot with snap := { phase := 1 } }.fset R.SCH_SNAP_CTL F.SCH_SNAP_CTL_COUNT 1) with rangeMap := [(0, 2 ^ 63 + 2 ^ 61), (1, 2 ^ 63 + 2 ^ 61 + 1)] }).fset
      (R.SCH_CMD_PTR 0) F.SCH_CMD_PTR_TAIL 3).fset R.SNAP_CTL F.SNAP_CTL_EN 1)) : State).resident (0) (wCmd 1 : CmdRec).ctx) (by
      decide +kernel)).2,
      by and_intros <;> decide +kernel⟩⟩

theorem witness_RestoreCommands :
    (∃ (s : State) (s1 : State) (p : Nat) (n : Nat) (op : Nat) (r : CmdRec) (c : Instr) (l : List Nat),
      instrWf c = true ∧ s.ringReady p = true ∧ s.oos = false ∧ (c = .restore p r ∧ op = 0x32 ∧ l = [mask 6 55, mask 0 2, mask 20
        55, mask 6 55] ∧ bits r.w2 0 2 ≠ 3 ∨ c = .refill p r ∧ op = 0x33 ∧ l = [mask 0 11, mask 20 55, mask 20 55, mask 6 55, mask 0
        19]) ∧ wordsOk r l = true ∧ recSave r < 2 ^ 42 ∧ s.ctxs.find? r.ctx = none ∧ s.fbit (R.INK_S_CTRL p) F.INK_S_CTRL_EN = false
        ∧ s.snapOn = true ∧ s.store Reach.save (recSave r + headerOff) 8 (2 ^ 64 - 1) = (.ok n, s1))
    ∧ (∃ (s : State) (p : Nat) (k : Nat) (r : CmdRec) (c : Ctx) (x : Slot),
      instrWf (.record p r) = true ∧ s.ringReady p = true ∧ s.oos = false ∧ wordsOk r [] = true ∧ s.ctxs.find? r.ctx = some c ∧
        c.part = p ∧ s.snapOn = true ∧ s.resident p r.ctx = some (k, x) ∧ x.step.live = false)
    ∧ (∃ (s : State) (p : Nat) (r : CmdRec),
      instrWf (.verify p r) = true ∧ s.ringReady p = true ∧ s.oos = false ∧ wordsOk r [mask 6 55, mask 0 2, 0, mask 6 55] = true ∧
        bits r.w2 0 2 ≠ 3 ∧ s.snapOn = true ∧ (∀ c, s.ctxs.find? r.ctx = some c → c.part = p))
    ∧ (∃ (s : State) (p : Nat) (st : Nat) (l : List Nat) (e : Exec),
      instrWf (.commandCompletion p st l) = true ∧ (s.part p).exec = some e) :=
  ⟨⟨((wMapC State.reset).fset (R.SCH_CMD_PTR 0) F.SCH_CMD_PTR_TAIL 3).fset R.SNAP_CTL F.SNAP_CTL_EN 1, ((((wMapC State.reset).fset
      (R.SCH_CMD_PTR 0) F.SCH_CMD_PTR_TAIL 3).fset R.SNAP_CTL F.SNAP_CTL_EN 1 : State).store Reach.save (recSave (wCmd 5 : CmdRec) +
      headerOff) 8 (2 ^ 64 - 1)).2, 0, wOk (((((wMapC State.reset).fset (R.SCH_CMD_PTR 0) F.SCH_CMD_PTR_TAIL 3).fset R.SNAP_CTL
      F.SNAP_CTL_EN 1 : State).store Reach.save (recSave (wCmd 5 : CmdRec) + headerOff) 8 (2 ^ 64 - 1)).1), 0x32, wCmd 5, .restore
      (0) (wCmd 5 : CmdRec), [mask 6 55, mask 0 2, mask 20 55, mask 6 55],
      by and_intros <;> decide +kernel⟩,
    ⟨(wFull
      ((({ wWith ({ wSlot with snap := {  } }.fset R.SCH_SNAP_CTL F.SCH_SNAP_CTL_COUNT 1) with rangeMap := [(0, 2 ^ 63 + 2 ^ 61), (1, 2 ^ 63 + 2 ^ 61 + 1)] }).fset
      (R.SCH_CMD_PTR 0) F.SCH_CMD_PTR_TAIL 3).fset R.SNAP_CTL F.SNAP_CTL_EN 1)), 0, 0, wCmd 1, Option.get (((wFull
      ((({ wWith ({ wSlot with snap := {  } }.fset R.SCH_SNAP_CTL F.SCH_SNAP_CTL_COUNT 1) with rangeMap := [(0, 2 ^ 63 + 2 ^ 61), (1, 2 ^ 63 + 2 ^ 61 + 1)] }).fset
      (R.SCH_CMD_PTR 0) F.SCH_CMD_PTR_TAIL 3).fset R.SNAP_CTL F.SNAP_CTL_EN 1)) : State).ctxs.find? (wCmd 1 : CmdRec).ctx) (by
      decide +kernel), (Option.get (((wFull
      ((({ wWith ({ wSlot with snap := {  } }.fset R.SCH_SNAP_CTL F.SCH_SNAP_CTL_COUNT 1) with rangeMap := [(0, 2 ^ 63 + 2 ^ 61), (1, 2 ^ 63 + 2 ^ 61 + 1)] }).fset
      (R.SCH_CMD_PTR 0) F.SCH_CMD_PTR_TAIL 3).fset R.SNAP_CTL F.SNAP_CTL_EN 1)) : State).resident (0) (wCmd 1 : CmdRec).ctx) (by
      decide +kernel)).2,
      by and_intros <;> decide +kernel⟩,
    ⟨((wMapC State.reset).fset (R.SCH_CMD_PTR 0) F.SCH_CMD_PTR_TAIL 3).fset R.SNAP_CTL F.SNAP_CTL_EN 1, 0, wCmd 5,
      by and_intros <;> decide +kernel⟩,
    ⟨{ wBase with parts := [(0, { exec := some { op := 32, cmd := wCmd 0, result := 0 } })] }, 0, 0, [], Option.get
      ((({ wBase with parts := [(0, { exec := some { op := 32, cmd := wCmd 0, result := 0 } })] } : State).part (0)).exec) (by decide +kernel), by
      decide +kernel, by decide +kernel⟩⟩

theorem witness_StartUp :
    (∃ (s : State) (inp : StartIn),
      s.mayBoot = false)
    ∧ (∃ (s : State) (inp : StartIn) (c : Instr) (k : Nat),
      s.mayBoot = true ∧ (c = .startup inp ∧ k = s.imgCause inp.mode ∧ k ≠ 0 ∨ c = .configReadTimeout ∧ k = 9)) :=
  ⟨⟨State.reset.fset R.PKG_STATUS F.PKG_STATUS_READY 1, wStart, by decide +kernel⟩,
    ⟨State.reset, wStart, .startup (wStart : StartIn), (State.reset : State).imgCause (wStart : StartIn).mode, by decide +kernel, by
      decide +kernel⟩⟩

theorem witness_LifetimeWrites :
    (∃ (s : State),
      s.guardOn = false)
    ∧ (∃ (s : State),
      s.guardOn = true)
    ∧ (∃ (s : State) (area : Nat) (r : List Nat),
      instrWf (.lifetimeWrite area) = true ∧ s.lifeDue = area :: r ∧ s.fbit R.CFG_STATUS F.CFG_STATUS_FAILED = false ∧ s.flashHeld =
        false)
    ∧ (∃ (s : State) (area : Nat) (r : List Nat),
      instrWf (.lifetimeWrite area) = true ∧ s.lifeDue = area :: r ∧ s.fbit R.CFG_STATUS F.CFG_STATUS_FAILED = false ∧ s.flashHeld =
        true)
    ∧ (∃ (s : State) (a : Agent) (c : Instr) (k : Nat) (v : Nat),
      instrWf c = true ∧ (c = .logRecord ∧ k = 0 ∧ s.logDue = none ∧ s.logAt + 3600 * s.fget R.LIF_CTL F.LIF_CTL_PERIOD_H ≤ s.fget
        (R.LIF_CNT 1) F.LIF_CNT_VALUE ∨ c = .flush a v ∧ k = 1 ∧ v % 2 = 1 ∧ s.entry a .lif 0 R.LIF_CMD true = .reach))
    ∧ (∃ (s : State) (k : Nat) (i : Nat),
      i = s.fget R.LIF_STATUS F.LIF_STATUS_SLOT) :=
  ⟨⟨{ State.reset.fset R.CFG_STATUS F.CFG_STATUS_GUARD 0 with lifeDue := [1] }, by decide +kernel⟩,
    ⟨State.reset, by decide +kernel⟩,
    ⟨{ State.reset.fset R.CFG_STATUS F.CFG_STATUS_GUARD 0 with lifeDue := [1], bad := [(0x400007, true)] }, 1,
      (({ State.reset.fset R.CFG_STATUS F.CFG_STATUS_GUARD 0 with lifeDue := [1], bad := [(0x400007, true)] } :
      State).lifeDue).tail,
      by and_intros <;> decide +kernel⟩,
    ⟨{ State.reset.fset R.CFG_STATUS F.CFG_STATUS_GUARD 1 with lifeDue := [1], bad := [(0x400007, true)] }, 1,
      (({ State.reset.fset R.CFG_STATUS F.CFG_STATUS_GUARD 1 with lifeDue := [1], bad := [(0x400007, true)] } :
      State).lifeDue).tail,
      by and_intros <;> decide +kernel⟩,
    ⟨State.reset.fset (R.LIF_CNT 1) F.LIF_CNT_VALUE 100000000, .mgmt, .logRecord, 0, 0, by and_intros <;> decide +kernel⟩,
    ⟨State.reset, 1, (State.reset : State).fget R.LIF_STATUS F.LIF_STATUS_SLOT, by decide +kernel⟩⟩

theorem witness_FlashAndFuseCommands :
    (∃ (s : State) (a : Agent) (v : Nat) (op : Nat) (c : Instr),
      instrWf c = true ∧ (c = .flashErase a v ∧ op = 1 ∨ c = .flashProgram a v ∧ op = 2 ∨ c = .flashRead a v ∧ op = 3) ∧ bits v 62 2
        = op ∧ s.entry a .cfg 0 R.CFG_FLASH_CMD true = .reach)
    ∧ (∃ (s : State) (n : Nat) (v : Nat) (r : Nat),
      instrWf (.flashCommandDone n) = true ∧ s.flashCmd = some (v, r) ∧ r ≠ 0)
    ∧ (∃ (s : State) (v : Nat),
      s.flashCmd = some (v, 0) ∧ (s.flashHeld = true ∧ bits v 62 2 ≠ 3 ∨ s.flashHeld = false ∧ s.lifeDue ≠ []))
    ∧ (∃ (s : State) (s1 : State) (v : Nat) (d : Nat) (n : Nat),
      s.flashCmd = some (v, 0) ∧ s.flashHeld = false ∧ s.lifeDue = [] ∧ s.logDue = none ∧ (bits v 62 2 = 1 ∧ s1 = s ∨ bits v 62 2 =
        2 ∧ s.load Reach.server (flashAddr v) sectorBytes = (.ok d, s1) ∨ bits v 62 2 = 3 ∧ s.store Reach.server (flashAddr v)
        sectorBytes (s.flashGet (flashSector v) sectorBytes) = (.ok n, s1)))
    ∧ (∃ (s : State) (a : Agent) (v : Nat) (op : Nat) (c : Instr),
      instrWf c = true ∧ (c = .programOwner a v ∧ op = 1 ∨ c = .revoke a v ∧ op = 2 ∨ c = .advanceSvn a v ∧ op = 3 ∨ c = .provision
        a v ∧ op = 4) ∧ bits v 60 4 = op ∧ s.entry a .sec 0 R.SEC_FUSE_CMD true = .reach)
    ∧ (∃ (s : State) (n : Nat) (x : FuseCmd),
      instrWf (.fuseCommandDone n) = true ∧ s.fuseCmd = some x) :=
  ⟨⟨State.reset, .mgmt, 1 * 2^62, 1, .flashErase (.mgmt : Agent) (1 * 2^62 : Nat),
      by and_intros <;> decide +kernel⟩,
    ⟨{ State.reset with flashCmd := some (2 ^ 62, 1) }, 0, (Option.get (({ State.reset with flashCmd := some (2 ^ 62, 1) } :
      State).flashCmd) (by decide +kernel)).1, (Option.get (({ State.reset with flashCmd := some (2 ^ 62, 1) } : State).flashCmd)
      (by decide +kernel)).2, by and_intros <;> decide +kernel⟩,
    ⟨{ (wMap State.reset).fset R.CFG_STATUS F.CFG_STATUS_GUARD 0 with flashCmd := some (2 ^ 62, 0), lifeDue := [1] }, 2 ^ 62, by
      decide +kernel, by decide +kernel⟩,
    ⟨{ (wMap State.reset).fset R.CFG_STATUS F.CFG_STATUS_GUARD 0 with flashCmd := some (2 ^ 62, 0) },
      ({ (wMap State.reset).fset R.CFG_STATUS F.CFG_STATUS_GUARD 0 with flashCmd := some (2 ^ 62, 0) } : State), 2 ^ 62, 0, 0,
      by and_intros <;> decide +kernel⟩,
    ⟨State.reset, .mgmt, 1 * 2^60, 1, .programOwner (.mgmt : Agent) (1 * 2^60 : Nat),
      by and_intros <;> decide +kernel⟩,
    ⟨{ (wMap State.reset).fset R.CFG_STATUS F.CFG_STATUS_GUARD 0 with fuseCmd := some ⟨1 * 2 ^ 60, 0, 0⟩ }, 0, Option.get
      (({ (wMap State.reset).fset R.CFG_STATUS F.CFG_STATUS_GUARD 0 with fuseCmd := some ⟨1 * 2 ^ 60, 0, 0⟩ } : State).fuseCmd) (by
      decide +kernel), by and_intros <;> decide +kernel⟩⟩

theorem witness_AttestationAndCores :
    (∃ (s : State) (a : Agent) (v : Nat),
      instrWf (.attest a v) = true ∧ s.entry a .sec 0 R.SEC_ATTEST_CMD true = .reach)
    ∧ (∃ (s : State) (v : Nat) (p : Nat),
      s.attest = some v ∧ p = bits v 6 50 * 64)
    ∧ (∃ (s : State) (a : Agent) (m : Nat) (v : Nat) (w : Nat),
      instrWf (.coreRelease a m v) = true ∧ w = (if m = 1 then v % 2 ^ 32 else v % 2 ^ 64) ∧ s.entry a .pkg 0 (R.PKG_CORE_RELM m)
        true = .reach) :=
  ⟨⟨State.reset, .mgmt, 0, by and_intros <;> decide +kernel⟩,
    ⟨{ State.reset with attest := some 0 }, Option.get (({ State.reset with attest := some 0 } : State).attest) (by decide +kernel),
      bits (Option.get (({ State.reset with attest := some 0 } : State).attest) (by decide +kernel) : Nat) 6 50 * 64, by
      decide +kernel, by decide +kernel⟩,
    by refine ⟨State.reset, .mgmt, 0, 5, (if (0) = 1 then (5) % 2 ^ 32 else (5) % 2 ^ 64), ?_, ?_, ?_⟩ <;> decide +kernel⟩

theorem witness_CountersAndLifetimeTotals :
    (∃ (s : State) (n : Nat) (k : Nat) (e : Nat),
      instrWf (.pmcOverflow n k) = true ∧ e = (if n < 192 then R.PMC_TEVT n k else R.PMC_HEVT (n - 192) k) ∧ s.pmcOn e (s.pmcCtx n)
        = true ∧ s.fget e F.PMC_TEVT_EVENT ≠ 0)
    ∧ (∃ (s : State) (a : Agent) (t : Nat) (v : Nat),
      instrWf (.sampleConsume a t v) = true ∧ s.entry a .til t (R.PMC_SMP_PTR t) true = .reach)
    ∧ (∃ (s : State) (i : Sensors),
      s.fget R.HLT_SCORE F.HLT_SCORE_SCORE < 256) :=
  ⟨⟨(State.reset.fset (R.PMC_TEVT 0 0) F.PMC_TEVT_EN 1).fset (R.PMC_TEVT 0 0) F.PMC_TEVT_EVENT 3, 0, 0, (if (0) < 192 then
      R.PMC_TEVT (0) (0) else R.PMC_HEVT ((0) - 192) (0)),
      by and_intros <;> decide +kernel⟩,
    ⟨State.reset, .mgmt, 0, 0, by and_intros <;> decide +kernel⟩,
    ⟨State.reset, ⟨30, 40, 50, 60, 700⟩, by decide +kernel⟩⟩

theorem witness_SuppliesAndReset :
    (∃ (s : State) (n : Nat),
      instrWf (.resetLAssert n) = true)
    ∧ (∃ (s : State),
      s.pwr.pwrOk = true)
    ∧ (∃ (s : State),
      s.pwr.pwrOk = false)
    ∧ (∃ (s : State) (n : Nat),
      instrWf (.thermtrip n) = true ∧ s.pwr.trip = false)
    ∧ (∃ (s : State),
      s.pwr.pwrOk = true)
    ∧ (∃ (s : State),
      s.pwr.pwrOk = false) :=
  ⟨⟨State.reset, 10000, by decide +kernel⟩,
    ⟨State.reset, by decide +kernel⟩,
    ⟨{ State.reset with pwr := { pwrOk := false } }, by decide +kernel⟩,
    ⟨State.reset, 0, by and_intros <;> decide +kernel⟩,
    ⟨State.reset, by decide +kernel⟩,
    ⟨{ State.reset with pwr := { pwrOk := false } }, by decide +kernel⟩⟩

theorem witness_ThrottlingAndRails :
    (∃ (s : State) (avg : Nat),
      instrWf (.powerCapUpdate avg) = true)
    ∧ (∃ (s : State),
      s.fbit R.PWR_STATUS F.PWR_STATUS_BRAKE = true)
    ∧ (∃ (s : State) (t : Nat),
      s.pwr.brakeRise = some t)
    ∧ (∃ (s : State) (r : Nat) (d : Nat),
      instrWf (.droopEvent r d) = true ∧ r ≤ 8 ∧ s.fget R.PWR_CTRL F.PWR_CTRL_DROOP_MV < d)
    ∧ (∃ (s : State) (r : Nat),
      instrWf (.droopEventEnd r) = true)
    ∧ (∃ (s : State) (n : Nat),
      instrWf (.railFault n) = true)
    ∧ (∃ (s : State) (n : Nat),
      instrWf (.railFaultClear n) = true) :=
  ⟨⟨State.reset.fset R.PWR_CTRL F.PWR_CTRL_CAP_EN 1, 100, by decide +kernel⟩,
    ⟨State.reset.fset R.PWR_STATUS F.PWR_STATUS_BRAKE 1, by decide +kernel⟩,
    ⟨{ State.reset with pwr := { brake := 4, brakeRise := some 3 } }, Option.get
      (({ State.reset with pwr := { brake := 4, brakeRise := some 3 } } : State).pwr.brakeRise) (by decide +kernel), by
      decide +kernel⟩,
    ⟨State.reset, 8, 77, by and_intros <;> decide +kernel⟩,
    ⟨State.reset, 0, by decide +kernel⟩,
    ⟨State.reset, 10, by decide +kernel⟩,
    ⟨State.reset, 0, by decide +kernel⟩⟩

theorem witness_ManagementAndTap :
    (∃ (s : State) (n : Nat) (c : Instr),
      instrWf c = true ∧ (c = .setdasa n ∨ c = .entdaa n))
    ∧ (∃ (s : State) (l : List Nat),
      instrWf (.samplePreload l) = true)
    ∧ (∃ (s : State) (c : Instr) (i : TapInstr),
      (c = .extest ∧ i = .extest ∨ c = .extestPulse ∧ i = .pulse ∨ c = .extestTrain ∧ i = .train))
    ∧ (∃ (s : State) (c : Instr) (d : Instr) (off : Nat) (v : Nat),
      instrWf c = true ∧ (c = .mgmtRead64 off ∧ d = .registerRead .mgmt off 8 ∨ c = .mgmtRead32 off ∧ d = .registerRead .mgmt off 4
        ∨ c = .mgmtWrite64 off v ∧ d = .registerWrite .mgmt off 8 v ∨ c = .mgmtWrite32 off v ∧ d = .registerWrite .mgmt off 4 v))
    ∧ (∃ (s : State) (wr : Bool) (off : Nat) (v : Nat),
      instrWf (.regacc wr off v) = true) :=
  ⟨⟨State.reset, 0, .setdasa (0), by and_intros <;> decide +kernel⟩,
    ⟨State.reset, [], by decide +kernel⟩,
    ⟨State.reset, .extest, .extest, by decide +kernel⟩,
    ⟨State.reset, .mgmtRead64 (0), .registerRead .mgmt (0) 8, 0, 0, by and_intros <;> decide +kernel⟩,
    ⟨State.reset, false, 0, 0, by decide +kernel⟩⟩

theorem witness_RegisterAccess :
    (∃ (s : State) (a : Agent) (off : Nat) (v : Nat) (u : Nat) (base : Nat) (b : Blk) (h : Hit),
      instrWf (.registerWrite a off 8 v) = true ∧ off % 8 = 0 ∧ regPlace off = .blk b u base ∧ hitAt b u base off = some h ∧ s.entry
        a b u off true = .reach ∧ s.userOk a b u h true = true ∧ h.isCtx = false ∧ h.acts (s.regWr h off 8 v false) = true)
    ∧ (∃ (s : State) (a : Agent) (off : Nat) (bytes : Nat) (v : Nat) (u : Nat) (base : Nat) (b : Blk),
      instrWf (.registerWrite a off bytes v) = true ∧ regPlace off = .blk b u base ∧ hitAt b u base off = none ∧ s.entry a b u off
        true = .reach ∧ (bytes = 8 ∧ off % 8 = 0 ∨ bytes = 4 ∧ off % 4 = 0))
    ∧ (∃ (s : State) (a : Agent) (off : Nat) (u : Nat) (base : Nat) (b : Blk) (h : Hit),
      instrWf (.registerRead a off 8) = true ∧ off % 8 = 0 ∧ regPlace off = .blk b u base ∧ hitAt b u base off = some h ∧ s.entry a
        b u off false = .reach ∧ h.isCtx = false)
    ∧ (∃ (s : State) (a : Agent) (off : Nat) (bytes : Nat) (u : Nat) (base : Nat) (b : Blk),
      instrWf (.registerRead a off bytes) = true ∧ regPlace off = .blk b u base ∧ hitAt b u base off = none ∧ s.entry a b u off
        false = .reach ∧ (bytes = 8 ∧ off % 8 = 0 ∨ bytes = 4 ∧ off % 4 = 0)) :=
  ⟨⟨State.reset, .server 0 false, R.TIL_NUMCTL 3, 3, 3, B.til 3, .til, Option.get (hitAt (.til : Blk) (3) (B.til 3 : Nat)
      (R.TIL_NUMCTL 3 : Nat)) (by decide +kernel),
      by and_intros <;> decide +kernel⟩,
    ⟨State.reset, .server 0 false, B.til 3 + 0xFFFF8, 8, 0, 3, B.til 3, .til,
      by and_intros <;> decide +kernel⟩,
    ⟨State.reset, .server 0 false, R.TIL_NUMCTL 3, 3, B.til 3, .til, Option.get (hitAt (.til : Blk) (3) (B.til 3 : Nat)
      (R.TIL_NUMCTL 3 : Nat)) (by decide +kernel),
      by and_intros <;> decide +kernel⟩,
    ⟨State.reset, .server 0 false, B.til 3 + 0xFFFF8, 8, 3, B.til 3, .til,
      by and_intros <;> decide +kernel⟩⟩

theorem witness_AccessErrorsAndWindows :
    (∃ (s : State) (a : Agent) (off : Nat) (bytes : Nat) (v : Nat) (u : Nat) (base : Nat) (b : Blk) (c : Instr) (wr : Bool),
      instrWf c = true ∧ (c = .registerWrite a off bytes v ∧ wr = true ∨ c = .registerRead a off bytes ∧ wr = false) ∧ regPlace off
        = .blk b u base)
    ∧ (∃ (s : State) (a : Agent) (off : Nat) (bytes : Nat) (v : Nat) (u : Nat) (o : Nat),
      s.offReach a (regPlace off) = .reach ∧ (bytes = 8 ∧ off % 8 = 0 ∨ bytes = 4 ∧ off % 4 = 0)) :=
  ⟨⟨State.reset, .server 0 false, R.TIL_NUMCTL 3 + 2, 8, 0, 3, B.til 3, .til, .registerWrite (.server 0 false : Agent)
      (R.TIL_NUMCTL 3 + 2 : Nat) (8) (0), true, by and_intros <;> decide +kernel⟩,
    ⟨State.reset, .server 0 false, 0xC0400008, 8, 77, 1, 8, by and_intros <;> decide +kernel⟩⟩

theorem witness_TileWords :
    ∃ (i : TIns),
      tinsWf i = true :=
    ⟨.nop, by decide +kernel⟩

theorem witness_MemoryLines :
    ∃ (s : State) (a n v : Nat),
      0 < n ∧ a % 64 + n ≤ 64 ∧ QuietLine s (a / 64) ∧ s.ownerOf (a / 64) = none ∧ s.clean (a / 64) :=
  by refine ⟨State.reset, 0x40000000003E, 2, 77, ?_, ?_, by unfold QuietLine; decide +kernel,
      ?_, by unfold State.clean; decide +kernel⟩ <;> decide +kernel

theorem witness_NumberFormats :
    (∃ (f : FF) (r : Rnd) (e4inf : Bool) (c : Nat),
      (f = .e4m3 ∨ f = .e5m2 ∨ f = .bf16 ∨ f = .fp16 ∨ f = .b32) ∧ (r = .rne ∨ ∃ d, d < 65536 ∧ r = .sr d) ∧ c < 2 ^ f.width ∧
        (f.value c).nonfinite = false)
    ∧ (∃ (f : FF) (r : Rnd) (e4inf : Bool) (neg : Bool) (m : Nat) (e : Int),
      cmpMag m e f.largest.1 f.largest.2 = .gt)
    ∧ (∃ (w : Nat) (i : Int),
      1 ≤ w) :=
  ⟨⟨.bf16, .rne, false, 0x3F80,
      by and_intros <;> decide +kernel⟩,
    ⟨.bf16, .rne, false, false, 1, 200, by decide +kernel⟩,
    ⟨8, 128, by decide +kernel⟩⟩

theorem witness_EventRing :
    ∃ (s : State) (off : Nat) (tail : Nat) (next : Nat) (f : Option Fld) (args : List Nat),
      tail = s.fget R.PKG_EVQ_PTR F.PKG_EVQ_PTR_TAIL ∧ next = (tail + 1) % 2 ^ (s.fget R.PKG_EVQ F.PKG_EVQ_SIZE_LOG2 + 4) :=
    ⟨wMap State.reset, 24, (wMap State.reset : State).fget R.PKG_EVQ_PTR F.PKG_EVQ_PTR_TAIL, (((wMap State.reset : State).fget
      R.PKG_EVQ_PTR F.PKG_EVQ_PTR_TAIL : Nat) + 1) % 2 ^ ((wMap State.reset : State).fget R.PKG_EVQ F.PKG_EVQ_SIZE_LOG2 + 4),
      default, [1, 2], by and_intros <;> decide +kernel⟩

/-- An image whose signature the package's key accepts starts the package: the case of StartUp in which the image is signed. That a key
accepts a signature is an open function of the model (log entry 3), so the witness rests on it. -/
theorem witness_StartUp_signed (h : Config.ecdsaOk wImage.imgKey wImage.signedBytes wImage.imgSig = true) :
    wImage.mayBoot = true ∧ wImage.imgCause wStart.mode = 0 ∧ wImage.preCount = 0 ∧ wStart.payloadDiffers = false
      ∧ wStart.timeout = false := by
  have h1 : (wImage.hdrFixed && wImage.hdrLayout) = true := by decide +kernel
  have h2 : wImage.openPkg = true := by decide +kernel
  have h3 : (wImage.imgSlot == 0xFF) = true := by decide +kernel
  have h4 : wImage.fuses.count = 0 := by decide +kernel
  refine ⟨by decide +kernel, ?_, by decide +kernel, rfl, rfl⟩
  simp [State.imgCause, wStart, h, h1, h2, h3, h4]

end Sys2Proof.Tests
end

section
/-!
Commands always answer (O2) and the reset state (O3).
-/

set_option Elab.async false

namespace Sys2Proof.Machine

theorem exec_next (c : Instr) (s : State) : ∃ t, exec c s = .next t := by
  cases c
  all_goals exact ⟨_, rfl⟩

theorem exec_of_not_wf {c : Instr} (s : State) (h : instrWf c = false) : exec c s = .next s := by
  cases c
  all_goals try contradiction
  all_goals exact State.runIf_false s h _

/-- Settles O2: `exec` answers through `runIf` or `.next` for every command. -/
theorem everyCommandRuns : Obligations.EveryCommandRuns := by
  intro c s
  obtain ⟨t, ht⟩ := exec_next c s
  refine ⟨⟨t, ht⟩, fun r hr => ?_, fun f hf => ?_, exec_of_not_wf s⟩
  · simp [ht] at hr
  · simp [ht] at hf

/-- Settles O3: the reset state lists no register, tile or context, so each read gives the default. -/
theorem resetState : Obligations.ResetState :=
  ⟨fun _ _ => rfl, rfl, rfl, rfl, rfl, fun _ _ => rfl, fun _ => rfl, rfl, reset_memOk⟩

end Sys2Proof.Machine
end

section
/-!
The invariant of O4, `State.memOk`: the memory keeps its canonical form. Every operation of the model gets one lemma, in the order
of the model's files, with the conclusion that its result is canonical when the state given to it is. A proof that is one chain of
leading-dot terms mirrors the definition: `.foo (.bar h)` reads "the result of `foo` after `bar`". Only the writes, clears and copies
of `Mem` (Laws/Mem.lean) make a new memory; all else is `of_mem`, a change of other components.
-/

set_option Elab.async false

namespace Sys2Proof.Machine

variable {s : State}

theorem State.memOk.of_mem {s t : State} (h : s.memOk) (e : t.mem = s.mem := by with_reducible rfl) : t.memOk := by
  unfold State.memOk
  rw [e]
  exact h

theorem State.memOk.ite {t u : State} {c : Prop} [Decidable c] (ht : t.memOk) (hu : u.memOk) : (if c then t else u).memOk := by
  split
  · exact ht
  · exact hu

theorem State.memOk.iteSnd {α : Type} {p q : α × State} {c : Prop} [Decidable c] (hp : p.2.memOk) (hq : q.2.memOk) :
    (if c then p else q).2.memOk := by
  split
  · exact hp
  · exact hq

theorem State.memOk.iteTrd {α β : Type} {p q : α × β × State} {c : Prop} [Decidable c] (hp : p.2.2.memOk) (hq : q.2.2.memOk) :
    (if c then p else q).2.2.memOk := by
  split
  · exact hp
  · exact hq

theorem State.memOk.fst_eq {α : Type} {p : State × α} {t : State} {a : α} (e : p = (t, a)) (h : p.1.memOk) : t.memOk := by
  subst e; exact h

theorem State.memOk.snd_eq {α : Type} {p : α × State} {a : α} {t : State} (e : p = (a, t)) (h : p.2.memOk) : t.memOk := by
  subst e; exact h

theorem State.memOk.trd_eq {α β : Type} {p : α × β × State} {a : α} {b : β} {t : State} (e : p = (a, b, t)) (h : p.2.2.memOk) :
    t.memOk := by
  subst e; exact h

theorem State.memOk.fth_eq {α β γ : Type} {p : α × β × γ × State} {a : α} {b : β} {c : γ} {t : State} (e : p = (a, b, c, t))
    (h : p.2.2.2.memOk) : t.memOk := by
  subst e; exact h

theorem State.memOk.foldl {α : Type} {f : State → α → State} {l : List α} (h : s.memOk)
    (hf : ∀ {t x}, t.memOk → (f t x).memOk) : (l.foldl f s).memOk := by
  induction l generalizing s with
  | nil => exact h
  | cons x l ih => exact ih (hf h)

theorem State.memOk.forRange {f : Nat → State → State} {n : Nat} (h : s.memOk)
    (hf : ∀ {x t}, t.memOk → (f x t).memOk) : (Machine.forRange n f s).memOk := .foldl h hf

theorem State.memOk.foldlSnd {α β : Type} {f : β × State → α → β × State} {l : List α} {q : β × State} (h : q.2.memOk)
    (hf : ∀ {q x}, q.2.memOk → (f q x).2.memOk) : (l.foldl f q).2.memOk := by
  induction l generalizing q with
  | nil => exact h
  | cons x l ih => exact ih (hf h)

theorem State.memOk.foldlTrd {α β γ : Type} {f : β × γ × State → α → β × γ × State} {l : List α} {q : β × γ × State}
    (h : q.2.2.memOk)
    (hf : ∀ {q x}, q.2.2.memOk → (f q x).2.2.memOk) : (l.foldl f q).2.2.memOk := by
  induction l generalizing q with
  | nil => exact h
  | cons x l ih => exact ih (hf h)

theorem State.memOk.foldlFth {α β γ δ : Type} {f : β × γ × δ × State → α → β × γ × δ × State} {l : List α} {q : β × γ × δ × State}
    (h : q.2.2.2.memOk)
    (hf : ∀ {q x}, q.2.2.2.memOk → (f q x).2.2.2.memOk) : (l.foldl f q).2.2.2.memOk := by
  induction l generalizing q with
  | nil => exact h
  | cons x l ih => exact ih (hf h)

theorem State.memOk.forRangeSnd {α : Type} {f : Nat → α × State → α × State} {n : Nat} {q : α × State} (h : q.2.memOk)
    (hf : ∀ {x q}, q.2.memOk → (f x q).2.memOk) : (Machine.forRange n f q).2.memOk := .foldlSnd h hf

theorem State.memOk.iteFst {α : Type} {p q : State × α} {c : Prop} [Decidable c] (hp : p.1.memOk) (hq : q.1.memOk) :
    (if c then p else q).1.memOk := by
  split
  · exact hp
  · exact hq

theorem State.memOk.pair {α : Type} {a : α} (h : s.memOk) : ((a, s) : α × State).2.memOk := h

theorem State.memOk.pair2 {α β : Type} {a : α} {b : β} (h : s.memOk) : ((a, b, s) : α × β × State).2.2.memOk := h

theorem State.memOk.pairFst {α : Type} {a : α} (h : s.memOk) : ((s, a) : State × α).1.memOk := h

theorem State.memOk.getD {o : Option State} (ho : ∀ {t}, o = some t → t.memOk) (h : s.memOk) : (o.getD s).memOk := by
  cases o with
  | none => exact h
  | some t => exact ho rfl

/-- A state that a command answers is canonical. -/

def OutOk (o : Host.Outcome State Fault Refusal) : Prop := ∀ t, o = .next t → t.memOk

theorem State.memOk.next (h : s.memOk) : OutOk (.next s) := by
  rintro t ⟨⟩
  exact h

theorem State.memOk.runIf {ok : Bool} {t : State} (h : s.memOk) (ht : t.memOk) : OutOk (s.runIf ok t) := .next (.ite ht h)

end Sys2Proof.Machine
end

section
/-!
Memory stays canonical: fields, addresses, lines and homes.
-/

set_option Elab.async false

namespace Sys2Proof.Machine

variable {s : State}

/-! ### Fields.lean -/

theorem State.memOk.when {b : Bool} {f : State → State} (h : s.memOk) (hf : ∀ {t}, t.memOk → (f t).memOk) :
    (s.when b f).memOk := .ite (hf h) h

theorem State.memOk.draw (h : s.memOk) :
    (s.draw).2.memOk := .of_mem h rfl

theorem State.memOk.fset {off : Nat} {f : Fld} {v : Nat} (h : s.memOk) :
    (s.fset off f v).memOk := .of_mem h rfl

theorem State.memOk.fadd {off : Nat} {f : Fld} {n : Nat} (h : s.memOk) :
    (s.fadd off f n).memOk := .of_mem h rfl

theorem State.memOk.fOr {off : Nat} {f : Fld} {v : Nat} (h : s.memOk) :
    (s.fOr off f v).memOk := .of_mem h rfl

theorem State.memOk.setTile {t : Nat} {x : Tile} (h : s.memOk) :
    (s.setTile t x).memOk := .of_mem h rfl

theorem State.memOk.setHerd {i : Nat} {x : Herd} (h : s.memOk) :
    (s.setHerd i x).memOk := .of_mem h rfl

theorem State.memOk.setCore {c : Nat} {x : Core} (h : s.memOk) :
    (s.setCore c x).memOk := .of_mem h rfl

theorem State.memOk.setPart {p : Nat} {x : Part} (h : s.memOk) :
    (s.setPart p x).memOk := .of_mem h rfl

theorem State.memOk.setSlot {p k : Nat} {x : Slot} (h : s.memOk) :
    (s.setSlot p k x).memOk := .of_mem h rfl

theorem State.memOk.modSlot {p k : Nat} {f : Slot → Slot} (h : s.memOk) :
    (s.modSlot p k f).memOk := by
  unfold State.modSlot
  split
  · exact .setSlot h
  · exact h

theorem State.memOk.regError {agent : Nat} {write : Bool} {off : Nat} (h : s.memOk) :
    (s.regError agent write off).memOk := .of_mem h rfl

theorem State.memOk.answer {k : RspKind} {d : Nat} (h : s.memOk) :
    (s.answer k d).memOk := .of_mem h rfl

theorem State.memOk.badWrite {a : Agent} {off : Nat} (h : s.memOk) :
    (s.badWrite a off).memOk := .of_mem h rfl

theorem State.memOk.badRead {a : Agent} {off : Nat} (h : s.memOk) :
    (s.badRead a off).memOk := .of_mem h rfl

theorem State.memOk.decodeErr (h : s.memOk) : s.decodeErr.memOk := .of_mem h rfl

theorem State.memOk.health {i n : Nat} (h : s.memOk) :
    (s.health i n).memOk := .of_mem h rfl

theorem State.memOk.lifeAdd {i n : Nat} (h : s.memOk) :
    (s.lifeAdd i n).memOk := .of_mem h rfl

theorem State.memOk.histAdd {i bin n : Nat} (h : s.memOk) :
    (s.histAdd i bin n).memOk := .of_mem h rfl

theorem State.memOk.bwAdd {base dir n : Nat} (h : s.memOk) :
    (s.bwAdd base dir n).memOk := .of_mem h rfl

theorem State.memOk.logFault {e : LogEntry} (h : s.memOk) :
    (s.logFault e).memOk := .fset (.fset (.forRange h .fset))

theorem State.memOk.timeoutLog {e : LogEntry} (h : s.memOk) :
    (s.timeoutLog e).memOk := .fadd (.logFault h)

theorem State.memOk.timeoutAt {e : LogEntry} (h : s.memOk) :
    (s.timeoutAt e).memOk := .health (.timeoutLog h)

theorem State.memOk.fenceRefusal {kind unit : Nat} (h : s.memOk) :
    (s.fenceRefusal kind unit).memOk := .timeoutAt h

theorem State.memOk.setBucket {p t : Nat} {v : Int} (h : s.memOk) :
    (s.setBucket p t v).memOk := .of_mem h rfl

theorem State.memOk.setRegQ {p t : Nat} {q : RegQ} (h : s.memOk) :
    (s.setRegQ p t q).memOk := .of_mem h rfl

theorem State.memOk.issueTokens {p t n c : Nat} (h : s.memOk) :
    (s.issueTokens p t n c).1.memOk := .iteFst h (.ite (.ite h (.setBucket h)) (.of_mem (.ite h (.setBucket h))))

theorem State.memOk.chargeNow {p t n c : Nat} (h : s.memOk) :
    (s.chargeNow p t n c).memOk := by
  unfold State.chargeNow
  split
  · rename_i heq
    exact .fst_eq heq (.issueTokens h)
  · rename_i heq
    exact .fadd (.setRegQ (.fst_eq heq (.issueTokens h)))

theorem State.memOk.charge {p t n c : Nat} (h : s.memOk) :
    (s.charge p t n c).memOk := .ite (.ite h (.of_mem h)) (.chargeNow h)

theorem State.memOk.chargeBack {part : Option Nat} {t : Nat} (h : s.memOk) :
    (s.chargeBack part t).memOk := by
  unfold State.chargeBack
  split
  · exact .when h .chargeNow
  · exact h

theorem State.memOk.chargeLine {part : Option Nat} {t line : Nat} {write : Bool} (h : s.memOk) :
    (s.chargeLine part t line write).memOk := by
  unfold State.chargeLine
  split
  · exact .ite (.charge (.ite (.of_mem h) h)) h
  · exact h

theorem State.memOk.chargeFinal {p t n : Nat} (h : s.memOk) :
    (s.chargeFinal p t n).memOk := .ite h (.setBucket h)

theorem State.memOk.drainReg {p t fuel : Nat} (h : s.memOk) :
    (State.drainReg p t fuel s).memOk := by
  induction fuel generalizing s with
  | zero => exact h
  | succ fuel ih =>
    unfold State.drainReg
    dsimp only
    split
    · exact h
    · split
      · rename_i heq
        exact ih (.setRegQ (.fst_eq heq (.issueTokens h)))
      · rename_i heq
        exact .setRegQ (.fst_eq heq (.issueTokens h))

theorem State.memOk.refill (h : s.memOk) : s.refill.memOk :=
  .forRange h (fun ht => .forRange (.of_mem (.forRange ht .setBucket)) .drainReg)

theorem State.memOk.leaves (h : s.memOk) : s.leaves.memOk := .ite (.refill (.of_mem h)) h

theorem State.memOk.chargeAll {due : List (Nat × Nat × Nat)} (h : s.memOk) :
    (s.chargeAll due).1.memOk := .foldl h .chargeNow

/-! ### Ranges.lean -/

theorem State.memOk.setRm {r e : Nat} (h : s.memOk) :
    (s.setRm r e).memOk := .of_mem h rfl

theorem State.memOk.markPeer {a : Nat} (h : s.memOk) :
    (s.markPeer a).memOk := .of_mem h rfl

theorem State.memOk.markDirty {line : Nat} (h : s.memOk) :
    (s.markDirty line).memOk := .of_mem h rfl

theorem State.memOk.ucieBytes {link m a b n : Nat} (h : s.memOk) :
    (s.ucieBytes link m a b n).memOk := .when (.when h .bwAdd) .bwAdd

theorem State.memOk.cross {a b line out back : Nat} (h : s.memOk) :
    (s.cross a b line out back).2.memOk := by
  unfold State.cross
  split
  · exact h
  · split
    · exact .ucieBytes (.ucieBytes (.when h .health))
    · exact h

theorem State.memOk.rmcUse {d r : Nat} (h : s.memOk) :
    (s.rmcUse d r).memOk := .ite (.fadd (.of_mem h)) (.fadd (.of_mem h))

theorem State.memOk.touch {die range : Nat} (h : s.memOk) :
    (s.touch die range).memOk :=
  .ite (.ite (.rmcUse h) h) (.ite (.of_mem (.ite (.rmcUse h) h)) (.setRm (.of_mem (.ite (.rmcUse h) h))))

theorem State.memOk.savedWrite {range : Nat} (h : s.memOk) :
    (s.savedWrite range).memOk := by
  unfold State.savedWrite
  exact .of_mem (.ite h (.setRm h))

/-! ### Lines.lean -/

theorem State.memOk.putLine {line data : Nat} (h : s.memOk) :
    (s.putLine line data).memOk := Mem.wf_wrN 64 _ _ h

theorem State.memOk.ueAt {line : Nat} (h : s.memOk) :
    (s.ueAt line).memOk := .logFault (.fadd h)

theorem State.memOk.errAt {ev : ErrEv} {unit line kind : Nat} (h : s.memOk) (hev : ∀ {t x}, t.memOk → (ev t x).memOk) :
    (State.errAt ev s unit line kind).memOk := .when (.fset (.fset h)) hev

theorem State.memOk.countCe {unit line : Nat} (h : s.memOk) :
    (s.countCe unit line).memOk := .ite (.histAdd (.lifeAdd (.health (.fadd h)))) (.histAdd (.lifeAdd (.health (.fadd h))))

theorem State.memOk.countHard {ev : ErrEv} {unit line : Nat} (h : s.memOk) (hev : ∀ {t x}, t.memOk → (ev t x).memOk) :
    (State.countHard ev s unit line).memOk := .errAt (.lifeAdd (.fadd h)) hev

theorem State.memOk.countUe {ev : ErrEv} {unit line : Nat} (h : s.memOk) (hev : ∀ {t x}, t.memOk → (ev t x).memOk) :
    (State.countUe ev s unit line).memOk := .errAt (.lifeAdd (.fadd h)) hev

theorem State.memOk.setChan {k : Nat} {c : Chan} (h : s.memOk) :
    (s.setChan k c).memOk := .of_mem h rfl

theorem State.memOk.chkWrite {bus : Nat} {c : ChkLine} (h : s.memOk) :
    (s.chkWrite bus c).memOk := .ite (.of_mem h) h

theorem State.memOk.chkTouch {unit n : Nat} (h : s.memOk) :
    (s.chkTouch unit n).memOk := by
  unfold State.chkTouch
  split
  · exact .setChan h
  · dsimp only
    split
    · exact .of_mem h
    · exact .foldl (.of_mem h) .chkWrite

theorem State.memOk.chkWrote {unit n : Nat} (h : s.memOk) :
    (s.chkWrote unit n).memOk := .ite (.chkTouch h) (.of_mem (.chkTouch h))

theorem State.memOk.chkFlush {bus : Nat} (h : s.memOk) :
    (s.chkFlush bus).memOk := by
  unfold State.chkFlush
  exact .of_mem (.foldl h .chkWrite)

theorem State.memOk.chkFrame {k : Nat} (h : s.memOk) :
    (s.chkFrame k).memOk := .ite h (.of_mem h)

theorem State.memOk.chkFlushAll (h : s.memOk) : s.chkFlushAll.memOk := .forRange h .chkFlush

theorem State.memOk.correct {ev : ErrEv} {unit line f : Nat} (h : s.memOk) (hev : ∀ {t x}, t.memOk → (ev t x).memOk) :
    (State.correct ev s unit line f).memOk := .when (.chkWrote (.of_mem (.putLine h))) (fun ht => .countHard ht hev)

theorem State.memOk.decodeLine {ev : ErrEv} {line : Nat} (h : s.memOk) (hev : ∀ {t x}, t.memOk → (ev t x).memOk) :
    (State.decodeLine ev s line).memOk := by
  unfold State.decodeLine
  split
  · exact h
  · exact .errAt h hev
  · exact .correct (.countCe h) hev
  · exact .countUe h hev

theorem State.memOk.chanRead {ev : ErrEv} {line : Nat} (h : s.memOk) (hev : ∀ {t x}, t.memOk → (ev t x).memOk) :
    (State.chanRead ev s line).memOk := .decodeLine (.chkTouch (.bwAdd h)) hev

theorem State.memOk.chanWrote {line : Nat} (h : s.memOk) :
    (s.chanWrote line).memOk := .chkWrote (.bwAdd h)

/-! ### Homes.lean -/

theorem State.memOk.uncache {line ag : Nat} (h : s.memOk) :
    (s.uncache line ag).memOk := .of_mem h rfl

theorem State.memOk.hold {line ag : Nat} {c : CLine} (h : s.memOk) :
    (s.hold line ag c).memOk := .of_mem h rfl

theorem State.memOk.carry {a b line n : Nat} (h : s.memOk) :
    (s.carry a b line n).memOk := by
  unfold State.carry
  split
  · exact h
  · split
    · exact .ucieBytes (.when h .health)
    · exact h

theorem State.memOk.linkRefusal {a b : Nat} (h : s.memOk) :
    (s.linkRefusal a b).memOk := .timeoutAt h

theorem State.memOk.post {m : CohMsg} (h : s.memOk) :
    (s.post m).memOk := .ite (.of_mem (.carry h)) h

theorem State.memOk.postHere {m : CohMsg} (h : s.memOk) :
    (s.postHere m).memOk := .of_mem h rfl

theorem State.memOk.arrive {op : CohOp} {ag line : Nat} {m : CohMsg} {t : State} (h : s.memOk)
    (e : s.arrive op ag line = some (m, t)) : t.memOk := by
  unfold State.arrive at e
  split at e
  · cases e
    exact .of_mem h
  · cases e

theorem State.memOk.setBusy {line : Nat} {b : Busy} (h : s.memOk) :
    (s.setBusy line b).memOk := .of_mem h rfl

theorem State.memOk.modBusy {line : Nat} {f : Busy → Busy} (h : s.memOk) :
    (s.modBusy line f).memOk := by
  unfold State.modBusy
  split
  · exact .setBusy h
  · exact h

theorem State.memOk.llcUse {line : Nat} (h : s.memOk) :
    (s.llcUse line).memOk := .ite h (.of_mem h)

theorem State.memOk.llcDrop {line : Nat} (h : s.memOk) :
    (s.llcDrop line).memOk := .ite (.of_mem h) h

theorem State.memOk.fetch {ev : ErrEv} {line : Nat} {alloc : Bool} (h : s.memOk) (hev : ∀ {t x}, t.memOk → (ev t x).memOk) :
    (State.fetch ev s line alloc).memOk := .ite (.llcUse h) (.when (.chanRead h hev) .llcUse)

theorem State.memOk.homeWrite {line data : Nat} (h : s.memOk) :
    (s.homeWrite line data).memOk := .chanWrote (.markDirty (.putLine h))

theorem State.memOk.homeFull {line data : Nat} (h : s.memOk) :
    (s.homeFull line data).memOk := by
  unfold State.homeFull
  exact .of_mem (.homeWrite h)

theorem State.memOk.patch {f n v : Nat} (h : s.memOk) :
    (s.patch f n v).memOk := by
  unfold State.patch
  refine .chanWrote (.markDirty (Mem.wf_wrN n _ _ ?_))
  exact State.memOk.ite h (.putLine h)

theorem State.memOk.ownerData {c : CLine} (h : s.memOk) :
    (s.ownerData c).2.memOk := by
  unfold State.ownerData
  split
  · exact h
  · exact .draw h

theorem State.memOk.drawBit (h : s.memOk) :
    (s.drawBit).2.memOk := .of_mem h rfl

theorem State.memOk.ownerDirty {c : CLine} (h : s.memOk) :
    (s.ownerDirty c).2.memOk := by
  unfold State.ownerDirty
  split
  · exact .drawBit h
  · exact h
  · exact h

theorem State.memOk.filterUse {line : Nat} (h : s.memOk) :
    (s.filterUse line).memOk := .of_mem h rfl

theorem State.memOk.killAll {line : Nat} {ret : Nat → Nat} {ags : List Nat} (h : s.memOk) :
    (s.killAll line ret ags).memOk := .foldl h .post

theorem State.memOk.invalidate {line : Nat} {b : Busy} (h : s.memOk) :
    (s.invalidate line b).memOk := .killAll (.setBusy h)

theorem State.memOk.writeBack {line ag data : Nat} (h : s.memOk) :
    (s.writeBack line ag data).memOk := .homeWrite (.chargeBack h)

theorem State.memOk.endDrop {line : Nat} {d : HeldDrop} (h : s.memOk) :
    (State.endDrop line s d).memOk := .post (.ite (.fadd h) (.ite (.writeBack h) h))

theorem State.memOk.endTxn {line : Nat} (h : s.memOk) :
    (s.endTxn line).memOk := by
  unfold State.endTxn
  split
  · exact h
  · exact .ite (.invalidate (.foldl h .endDrop)) (.ite (.of_mem (.foldl h .endDrop)) (.setBusy (.foldl h .endDrop)))

theorem State.memOk.postFail {line : Nat} {t : Txn} {why : Nat} (h : s.memOk) :
    (s.postFail line t why).memOk := .post h

theorem State.memOk.failHere {line : Nat} {t : Txn} {why : Nat} (h : s.memOk) :
    (s.failHere line t why).memOk := .of_mem h rfl

theorem State.memOk.failTxn {line : Nat} {t : Txn} (h : s.memOk) :
    (s.failTxn line t).memOk := .endTxn (.postFail (.ueAt h))

theorem State.memOk.sendLine {line : Nat} {t : Txn} {grant v : Nat} (h : s.memOk) :
    (s.sendLine line t grant v).memOk := .post h

theorem State.memOk.postDone {line : Nat} {t : Txn} (h : s.memOk) :
    (s.postDone line t).memOk := .post h

theorem State.memOk.ownerHome {line : Nat} (h : s.memOk) :
    (s.ownerHome line).memOk := by
  unfold State.ownerHome
  split
  · split
    · rename_i heq
      exact .homeWrite (.ownerData (.snd_eq heq (.ownerDirty h)))
    · rename_i heq
      exact .snd_eq heq (.ownerDirty h)
  · exact h

theorem State.memOk.dropHolders {line : Nat} (h : s.memOk) :
    (s.dropHolders line).memOk := by
  unfold State.dropHolders
  exact .of_mem (.foldl h (fun ht => .carry (.carry ht)))

theorem State.memOk.rawLoad {ev : ErrEv} {f n : Nat} (h : s.memOk) (hev : ∀ {t x}, t.memOk → (ev t x).memOk) :
    (State.rawLoad ev s f n).2.memOk := by
  unfold State.rawLoad
  dsimp only
  split
  · exact .ownerData h
  · exact .fetch h hev

theorem State.memOk.rawStore {ev : ErrEv} {f n v : Nat} (h : s.memOk) (hev : ∀ {t x}, t.memOk → (ev t x).memOk) :
    (State.rawStore ev s f n v).2.memOk :=
  .iteSnd (.homeFull (.dropHolders h)) (.ite (.fetch (.dropHolders (.ownerHome h)) hev)
      (.patch (.fetch (.dropHolders (.ownerHome h)) hev)))

theorem State.memOk.rawMask {ev : ErrEv} {line v mask : Nat} (h : s.memOk) (hev : ∀ {t x}, t.memOk → (ev t x).memOk) :
    (State.rawMask ev s line v mask).2.memOk :=
  .ite (.fetch (.dropHolders (.ownerHome h)) hev) (.homeWrite (.fetch (.dropHolders (.ownerHome h)) hev))

theorem State.memOk.mapFails {line : Nat} {t : Txn} {why : Nat} (h : s.memOk) :
    (s.mapFails line t why).memOk := .postFail (.ite (.decodeErr h) (.ite (.fenceRefusal h) (.ueAt h)))

theorem State.memOk.mergeAt {ev : ErrEv} {t : Txn} (h : s.memOk) (hev : ∀ {t x}, t.memOk → (ev t x).memOk) :
    (State.mergeAt ev s t).memOk := by
  unfold State.mergeAt
  split
  · exact .patch (.fetch h hev)
  · dsimp only
    split
    · rename_i heq
      exact .rawStore (.snd_eq heq (.rawLoad (.patch (.fetch h hev)) hev)) hev
    · rename_i heq
      exact .snd_eq heq (.rawLoad (.patch (.fetch h hev)) hev)

theorem State.memOk.savedAt {line : Nat} {t : Txn} (h : s.memOk) :
    (s.savedAt line t).memOk := by
  unfold State.savedAt
  refine .when h (fun ht => ?_)
  split
  · exact .savedWrite ht
  · exact ht

theorem State.memOk.finishTxn {ev : ErrEv} {line : Nat} {b : Busy} {t : Txn} (h : s.memOk)
    (hev : ∀ {t x}, t.memOk → (ev t x).memOk) :
    (State.finishTxn ev s line b t).memOk := by
  unfold State.finishTxn
  extract_lets bad v read give ended
  have hread : ∀ {x}, (read x).memOk := .fetch (.setBusy h) hev
  have hgive : ∀ {x}, (give x).memOk := .ite (.failTxn hread) (.sendLine hread)
  have hended : (ended s).memOk := .ite h (.endTxn h)
  split
  · exact .ite hended hgive
  · exact .ite hended hgive
  · exact .ite hended (.postDone (.setBusy h))
  · exact .ite (.endTxn h) (.ite (.failTxn hread) (.endTxn (.sendLine hread)))
  · exact .endTxn (.postDone (.homeFull (.savedAt h)))
  · exact .ite (.failTxn hread) (.endTxn (.postDone (.homeWrite (.savedAt hread))))
  · refine .ite (.failTxn hread) ?_
    split
    · exact .endTxn (.mapFails h)
    · exact .endTxn (.postDone (.mergeAt h hev))
  · exact .endTxn h

theorem State.memOk.goTxn {ev : ErrEv} {line : Nat} (h : s.memOk) (hev : ∀ {t x}, t.memOk → (ev t x).memOk) :
    (State.goTxn ev s line).memOk := by
  unfold State.goTxn
  split
  · split
    · exact .ite h (.ite (.setBusy h) (.finishTxn h hev))
    · exact h
  · exact h

theorem State.memOk.unpark {ev : ErrEv} {which : Nat → Txn → Bool} (h : s.memOk) (hev : ∀ {t x}, t.memOk → (ev t x).memOk) :
    (State.unpark ev which s).memOk := .foldl h (fun ht => .ite (.goTxn ht hev) ht)

theorem State.memOk.startTxn {ev : ErrEv} {line : Nat} {q : Txn} {b : Busy} (h : s.memOk)
    (hev : ∀ {t x}, t.memOk → (ev t x).memOk) :
    (State.startTxn ev s line q b).memOk := by
  unfold State.startTxn
  refine .goTxn ?_ hev
  refine .killAll ?_
  split
  · exact .post (.setBusy h)
  · exact .setBusy h

theorem State.memOk.beginTxn {ev : ErrEv} {line : Nat} {t : Txn} {b : Busy} (h : s.memOk)
    (hev : ∀ {t x}, t.memOk → (ev t x).memOk) :
    (State.beginTxn ev s line t b).memOk := by
  unfold State.beginTxn
  split
  · exact .startTxn (.when h .filterUse) hev
  · exact .setBusy h
  · exact .invalidate (.fadd (.setBusy h))

theorem State.memOk.serveLine {ev : ErrEv} {line : Nat} (h : s.memOk) (hev : ∀ {t x}, t.memOk → (ev t x).memOk) :
    (State.serveLine ev s line).memOk := by
  unfold State.serveLine
  split
  · exact h
  · split
    · exact .ite h (.beginTxn (.fset h) hev)
    · exact h

theorem State.memOk.arbWin {slice ag : Nat} (h : s.memOk) :
    (s.arbWin slice ag).memOk := .ite h (.of_mem h)

theorem State.memOk.join {ev : ErrEv} {line : Nat} {b : Busy} {t : Txn} (h : s.memOk) (hev : ∀ {t x}, t.memOk → (ev t x).memOk) :
    (State.join ev s line b t).memOk := by
  unfold State.join
  split
  · exact .ite (.setBusy h) (.ite (.beginTxn (.of_mem (.arbWin h)) hev) (.setBusy (.arbWin h)))
  · exact .ite (.setBusy h) (.setBusy (.arbWin h))

theorem State.memOk.sameCycle {s2 : State} {line : Nat} {t : Txn} (h : s2.memOk) :
    (s.sameCycle s2 line t).memOk := by
  unfold State.sameCycle
  refine .of_mem (s := if _ then _ else _) ?_
  refine .ite (.ite h (.arbWin h)) (Mem.wf_wrN 64 _ _ ?_)
  exact State.memOk.ite h (.arbWin h)

theorem State.memOk.accept {ev : ErrEv} {line : Nat} {q : Txn} (h : s.memOk) (hev : ∀ {t x}, t.memOk → (ev t x).memOk) :
    (State.accept ev s line q).memOk := by
  unfold State.accept
  dsimp only
  split
  · exact .join (.fadd h) hev
  · exact .ite (.setBusy (.fadd h)) (.ite (.beginTxn (.fadd h) hev) (.sameCycle (.beginTxn (.fadd h) hev)))

theorem State.memOk.acceptAll {ev : ErrEv} {slice n : Nat} (h : s.memOk) (hev : ∀ {t x}, t.memOk → (ev t x).memOk) :
    (State.acceptAll ev slice n s).memOk := by
  induction n generalizing s with
  | zero => exact h
  | succ n ih =>
    unfold State.acceptAll
    split
    · exact h
    · exact .ite (ih (.accept (.of_mem h) hev)) h

theorem State.memOk.admitAt {ev : ErrEv} {line : Nat} (h : s.memOk) (hev : ∀ {t x}, t.memOk → (ev t x).memOk) :
    (State.admitAt ev line s).memOk := .acceptAll (.unpark h hev) hev

theorem State.memOk.snpDone {line ag flags : Nat} (h : s.memOk) :
    (s.snpDone line ag flags).memOk := .post h

theorem State.memOk.afterSend {line owner pass : Nat} {c : CLine} (h : s.memOk) :
    (s.afterSend line owner pass c).memOk := .ite (.uncache h) (.ite (.hold h) h)

theorem State.memOk.takeSend {m : CohMsg} (h : s.memOk) :
    (s.takeSend m).memOk := by
  unfold State.takeSend
  split
  · exact .ite (.snpDone (.post h)) (.snpDone h)
  · exact .ite (.snpDone h) (.snpDone (.post (.afterSend h)))
  · exact .snpDone h

theorem State.memOk.takeKill {m : CohMsg} (h : s.memOk) :
    (s.takeKill m).memOk := by
  unfold State.takeKill
  split
  · exact .ite (.snpDone (.post h)) (.snpDone h)
  · split
    · split
      · dsimp only
        split
        · rename_i heq
          exact .snpDone (.post (.snd_eq heq (.ownerDirty (.uncache h))))
        · rename_i heq
          exact .snpDone (.snd_eq heq (.ownerDirty (.uncache h)))
      · dsimp only
        split
        · rename_i heq
          exact .snpDone (.post (.snd_eq heq (.ownerDirty (.uncache h))))
        · rename_i heq
          exact .snpDone (.snd_eq heq (.ownerDirty (.uncache h)))
    · exact .snpDone (.uncache h)
  · exact .snpDone h

theorem State.memOk.takeSnpDone {ev : ErrEv} {m : CohMsg} (h : s.memOk) (hev : ∀ {t x}, t.memOk → (ev t x).memOk) :
    (State.takeSnpDone ev s m).memOk := .goTxn (.modBusy h) hev

theorem State.memOk.takeLineHome {ev : ErrEv} {m : CohMsg} {data : Nat} (h : s.memOk) (hev : ∀ {t x}, t.memOk → (ev t x).memOk) :
    (State.takeLineHome ev s m data).memOk := .goTxn (.writeBack h) hev

theorem State.memOk.takeDone {m : CohMsg} (h : s.memOk) :
    (s.takeDone m).memOk := by
  unfold State.takeDone
  split
  · split
    · exact .post (.hold h)
    · exact .post h
  · exact h

theorem State.memOk.takeGot {ev : ErrEv} {m : CohMsg} (h : s.memOk) (hev : ∀ {t x}, t.memOk → (ev t x).memOk) :
    (State.takeGot ev s m).memOk := .goTxn (.modBusy h) hev

theorem State.memOk.ownerWrote {line ref data : Nat} (h : s.memOk) :
    (s.ownerWrote line ref data).memOk := by
  unfold State.ownerWrote
  split
  · exact h
  · split
    · exact .ite (.hold h) (.hold h)
    · exact h

theorem State.memOk.takeLine {m : CohMsg} {data dirty : Nat} (h : s.memOk) :
    (s.takeLine m data dirty).memOk := .ite (.post (.hold (.ownerWrote h))) (.ownerWrote h)

theorem State.memOk.land {ev : ErrEv} {m : CohMsg} (h : s.memOk) (hev : ∀ {t x}, t.memOk → (ev t x).memOk) :
    (State.land ev s m).memOk := by
  unfold State.land
  split
  · split
    · exact .takeSend (.of_mem h)
    · exact .takeKill (.of_mem h)
    · exact .takeSnpDone (.of_mem h) hev
    · exact .takeLineHome (.of_mem h) hev
    · exact .takeLine (.of_mem h)
    · exact .takeDone (.of_mem h)
    · exact .takeGot (.of_mem h) hev
    · exact .of_mem h
  · split
    · exact .takeSend (.of_mem h)
    · exact .takeKill (.of_mem h)
    · exact .takeSnpDone (.of_mem h) hev
    · exact .takeLineHome (.draw (.of_mem h)) hev
    · exact .takeLine (.draw (.draw (.of_mem h)))
    · exact .takeDone (.of_mem h)
    · exact .takeGot (.of_mem h) hev
    · exact .of_mem h

theorem State.memOk.settleN {ev : ErrEv} {line n : Nat} (h : s.memOk) (hev : ∀ {t x}, t.memOk → (ev t x).memOk) :
    (State.settleN ev line n s).memOk := by
  induction n generalizing s with
  | zero => exact h
  | succ n ih =>
    unfold State.settleN
    dsimp only
    split
    · exact ih (.unpark (.land h hev) hev)
    · split
      · exact .ite (ih (.serveLine h hev)) h
      · exact h

theorem State.memOk.settle {ev : ErrEv} {line : Nat} (h : s.memOk) (hev : ∀ {t x}, t.memOk → (ev t x).memOk) :
    (State.settle ev s line).memOk := by
  unfold State.settle
  split
  · exact .ite (.settleN h hev) h
  · exact .settleN h hev

theorem State.memOk.peekLine {ev : ErrEv} {line : Nat} (h : s.memOk) (hev : ∀ {t x}, t.memOk → (ev t x).memOk) :
    (State.peekLine ev s line).2.memOk := .rawLoad (.fadd (.settle h hev)) hev

theorem State.memOk.waitsFinal {line : Nat} (h : s.memOk) :
    (s.waitsFinal line).memOk := .ite (.of_mem h) h

theorem State.memOk.ordered {ev : ErrEv} {line : Nat} (h : s.memOk) (hev : ∀ {t x}, t.memOk → (ev t x).memOk) :
    (State.ordered ev s line).memOk := .fadd (.waitsFinal (.settle h hev))

theorem State.memOk.homeLoad {ev : ErrEv} {f n : Nat} (h : s.memOk) (hev : ∀ {t x}, t.memOk → (ev t x).memOk) :
    (State.homeLoad ev s f n).2.memOk := .rawLoad (.ordered h hev) hev

theorem State.memOk.homeStore {ev : ErrEv} {f n v : Nat} (h : s.memOk) (hev : ∀ {t x}, t.memOk → (ev t x).memOk) :
    (State.homeStore ev s f n v).2.memOk := .rawStore (.ordered h hev) hev

theorem State.memOk.homeMask {ev : ErrEv} {line v mask : Nat} (h : s.memOk) (hev : ∀ {t x}, t.memOk → (ev t x).memOk) :
    (State.homeMask ev s line v mask).2.memOk := .rawMask (.ordered h hev) hev

end Sys2Proof.Machine
end

section
/-!
Memory stays canonical: shared operations and register access.
-/

set_option Elab.async false

namespace Sys2Proof.Machine

variable {s : State}

/-! ### Ops.lean -/

theorem State.memOk.setPort {g : Nat} {x : Port} (h : s.memOk) :
    (s.setPort g x).memOk := .of_mem h rfl

theorem State.memOk.idleFlit {g : Nat} {nak : Bool} (h : s.memOk) :
    (s.idleFlit g nak).memOk := .of_mem h rfl

theorem State.memOk.pump {g n : Nat} (h : s.memOk) :
    (State.pump g n s).memOk := by
  induction n generalizing s with
  | zero => exact h
  | succ n ih =>
    unfold State.pump
    dsimp only
    split
    · exact .idleFlit h
    · split
      · exact ih (.bwAdd (.setPort h))
      · exact h

theorem State.memOk.sendOn {g : Nat} {m : AfrMsg} (h : s.memOk) :
    (s.sendOn g m).memOk := .when h (fun ht => .pump (.setPort ht))

theorem State.memOk.trains {g : Nat} (h : s.memOk) :
    (s.trains g).memOk := .when (.fset h) .setPort

theorem State.memOk.outPort {e : Nat} {m : AfrMsg} {line : Nat} (h : s.memOk) :
    (s.outPort e m line).2.memOk := .iteSnd h (.iteSnd h (.iteSnd (.of_mem h) (.iteSnd h h)))

theorem State.memOk.sendVia {d : Nat} {m : AfrMsg} {line : Nat} (h : s.memOk) :
    (s.sendVia d m line).2.memOk := by
  unfold State.sendVia
  split
  · exact h
  · split
    · exact .of_mem h
    · split
      · rename_i heq
        exact .sendOn (.carry (.snd_eq heq (.outPort h)))
      · rename_i heq
        exact .snd_eq heq (.outPort h)

theorem State.memOk.sendTo {d : Nat} {m : AfrMsg} (h : s.memOk) :
    (s.sendTo d m).2.memOk := .sendVia h

theorem State.memOk.holdsEnd (h : s.memOk) : s.holdsEnd.memOk := .foldl (.of_mem h) (fun ht => .foldl ht .sendVia)

theorem State.memOk.sendReq {die tag : Nat} {q : RReq} (h : s.memOk) :
    (s.sendReq die tag q).memOk := by
  unfold State.sendReq
  exact .of_mem (.sendTo h)

theorem State.memOk.nextReq (h : s.memOk) : s.nextReq.memOk := by
  unfold State.nextReq
  split
  · exact .sendReq (.of_mem h)
  · exact h

theorem State.memOk.sendReqs (h : s.memOk) : s.sendReqs.memOk := .forRange h .nextReq

theorem State.memOk.remote {r : Reach} {die win off : Nat} {wr : Option (Nat × Nat)} (h : s.memOk) :
    (s.remote r die win off wr).2.memOk := by
  unfold State.remote
  split
  · exact h
  · exact .sendReqs (.of_mem (.when h .chargeLine))

theorem State.memOk.reach {r : Reach} {a f out back : Nat} {write : Bool} (h : s.memOk) :
    (s.reach r a f out back write).2.memOk := by
  unfold State.reach
  extract_lets k die s1
  have h1 : s1.memOk := .ite (.touch h) h
  split
  · rename_i heq
    exact .snd_eq heq (.cross (.chargeLine h1))
  · rename_i heq
    exact .linkRefusal (.snd_eq heq (.cross (.chargeLine h1)))

theorem State.memOk.halts {i : Halt} (h : s.memOk) :
    (s.halts i).memOk := .ite (.of_mem h) h

theorem State.memOk.loadWindow {q : Reach} {a n die win off : Nat} (h : s.memOk) :
    (s.loadWindow q a n die win off).2.memOk := by
  unfold State.loadWindow
  extract_lets r seen
  have hs : seen.memOk := .ite (.touch h) h
  split
  · exact .when hs .chargeLine
  · exact hs
  · split
    · rename_i heq
      exact .draw (.snd_eq heq (.remote hs))
    · rename_i heq
      exact .decodeErr (.snd_eq heq (.remote hs))
  · exact .iteSnd (.halts h) (.decodeErr h)

theorem State.memOk.loadLineE {ev : ErrEv} {r : Reach} {a n : Nat} (h : s.memOk) (hev : ∀ {t x}, t.memOk → (ev t x).memOk) :
    (State.loadLineE ev s r a n).2.memOk := by
  unfold State.loadLineE
  split
  · split
    · exact .halts h
    · split
      · rename_i heq
        split
        · rename_i heq1
          exact .snd_eq heq1 (.homeLoad (.snd_eq heq (.reach h)) hev)
        · rename_i heq1
          exact .ueAt (.snd_eq heq1 (.homeLoad (.snd_eq heq (.reach h)) hev))
      · rename_i heq
        exact .snd_eq heq (.reach h)
  · exact .loadWindow h
  · exact .decodeErr h
  · exact .fenceRefusal h

theorem State.memOk.home {ev : ErrEv} {f : Nat} {x : StoreForm} (h : s.memOk) (hev : ∀ {t x}, t.memOk → (ev t x).memOk) :
    (StoreForm.home ev s f x).2.memOk := by
  unfold StoreForm.home
  split
  · exact .homeStore h hev
  · exact .homeMask h hev

theorem State.memOk.storeFormE {ev : ErrEv} {r : Reach} {sa : Bool} {a : Nat} {w : StoreForm} (h : s.memOk)
    (hev : ∀ {t x}, t.memOk → (ev t x).memOk) :
    (State.storeFormE ev s r sa a w).2.memOk := by
  unfold State.storeFormE
  split
  · split
    · exact .halts h
    · split
      · rename_i heq
        split
        · rename_i heq1
          exact .snd_eq heq1 (.home (.ite (.savedWrite (.snd_eq heq (.reach h))) (.snd_eq heq (.reach h))) hev)
        · rename_i heq1
          exact .ueAt (.snd_eq heq1 (.home (.ite (.savedWrite (.snd_eq heq (.reach h))) (.snd_eq heq (.reach h))) hev))
      · rename_i heq
        exact .snd_eq heq (.reach h)
  · split
    · rename_i heq
      exact .snd_eq heq (.remote (.ite (.markPeer (.touch h)) h))
    · rename_i heq
      exact .decodeErr (.snd_eq heq (.remote (.ite (.markPeer (.touch h)) h)))
  · exact .decodeErr h
  · exact .fenceRefusal h

theorem State.memOk.storeLineE {ev : ErrEv} {r : Reach} {sa : Bool} {a n v : Nat} (h : s.memOk)
    (hev : ∀ {t x}, t.memOk → (ev t x).memOk) :
    (State.storeLineE ev s r sa a n v).2.memOk := .storeFormE h hev

theorem State.memOk.alert (h : s.memOk) : s.alert.memOk := .of_mem h rfl

theorem State.memOk.putRing {a : Nat} {ws : List Nat} (h : s.memOk) :
    (s.putRing a ws).memOk := .storeLineE h (fun ht => ht)

theorem State.memOk.event {off : Nat} {f : Option Fld} {args : List Nat} (h : s.memOk) :
    (s.event off f args).memOk := .ite (.fadd (.of_mem h)) (.when (.fset (.of_mem (.putRing h))) .alert)

theorem State.memOk.unitEvent {n : Nat} (h : s.memOk) :
    (unitEvent s n).memOk := .event h

theorem State.memOk.ticket {u : Nat} {due : List (Nat × Nat × Nat)} (h : s.memOk) :
    (s.ticket u due).2.memOk := by
  unfold State.ticket
  split
  · exact .iteSnd (.of_mem h) h
  · split
    · rename_i heq
      exact .fst_eq heq (.chargeAll h)
    · rename_i heq
      exact .of_mem (.fst_eq heq (.chargeAll h))

theorem State.memOk.attempt {u : Nat} {paid : Bool} {f : State → State} (h : s.memOk) (hf : ∀ {t}, t.memOk → (f t).memOk) :
    (s.attempt u paid f).memOk := hf (.of_mem h)

theorem State.memOk.haltAt {u : Nat} {i : Halt} (h : s.memOk) :
    (s.haltAt u i).memOk := by
  unfold State.haltAt
  split
  · exact h
  · exact .of_mem h
  · exact .ite h (.sendReqs (.of_mem h))

theorem State.memOk.workEnds {u : Nat} (h : s.memOk) :
    (s.workEnds u).memOk := .of_mem h rfl

theorem State.memOk.workTry {u : Nat} {f : State → State} (h : s.memOk) (hf : ∀ {t}, t.memOk → (f t).memOk) :
    (s.workTry u f).memOk := .attempt h hf

theorem State.memOk.workDone {u : Nat} {ok : State → Bool} {f : State → State} (h : s.memOk) (hf : ∀ {t}, t.memOk → (f t).memOk) :
    (s.workDone u ok f).memOk := .workEnds (.chargeAll (.workTry h hf))

theorem State.memOk.workIf {u : Nat} {ok : State → Bool} {f : State → State} (h : s.memOk) (hf : ∀ {t}, t.memOk → (f t).memOk) :
    (s.workIf u ok f).memOk := by
  unfold State.workIf
  split
  · exact .workDone h hf
  · split
    · exact h
    · split
      · exact .haltAt h
      · exact .of_mem (.chargeAll h)

theorem State.memOk.work {u : Nat} {f : State → State} (h : s.memOk) (hf : ∀ {t}, t.memOk → (f t).memOk) :
    (s.work u f).memOk := .workIf h hf

theorem State.memOk.loadLine {r : Reach} {a n : Nat} (h : s.memOk) :
    (s.loadLine r a n).2.memOk := .loadLineE h .unitEvent

theorem State.memOk.storeLine {r : Reach} {sa : Bool} {a n v : Nat} (h : s.memOk) :
    (s.storeLine r sa a n v).2.memOk := .storeLineE h .unitEvent

theorem State.memOk.storeMask {r : Reach} {a v mask : Nat} (h : s.memOk) :
    (s.storeMask r a v mask).2.memOk := .storeFormE h .unitEvent

theorem State.memOk.loadN {r : Reach} {fuel a n : Nat} (h : s.memOk) :
    (State.loadN r fuel s a n).2.memOk := by
  induction fuel generalizing s a n with
  | zero => exact h
  | succ fuel ih =>
    unfold State.loadN
    split
    · exact h
    · dsimp only
      split
      · rename_i heq
        have h1 := ih (a := a + min n (64 - a % 64)) (n := n - min n (64 - a % 64)) (.snd_eq heq (.loadLine h))
        split
        · rename_i heq1
          exact .snd_eq heq1 h1
        · rename_i heq1
          exact .snd_eq heq1 h1
      · rename_i heq
        exact .snd_eq heq (.loadLine h)

theorem State.memOk.load {r : Reach} {a n : Nat} (h : s.memOk) :
    (s.load r a n).2.memOk := .loadN h

theorem State.memOk.storeN {r : Reach} {sa : Bool} {fuel a n v : Nat} (h : s.memOk) :
    (State.storeN r sa fuel s a n v).2.memOk := by
  induction fuel generalizing s a n v with
  | zero => exact h
  | succ fuel ih =>
    unfold State.storeN
    split
    · exact h
    · dsimp only
      split
      · rename_i heq
        exact ih (.snd_eq heq (.storeLine h))
      · rename_i heq
        exact .snd_eq heq (.storeLine h)

theorem State.memOk.store {r : Reach} {a n v : Nat} (h : s.memOk) :
    (s.store r a n v).2.memOk := .storeN h

theorem State.memOk.storeWords {r : Reach} {a : Nat} {ws : List Nat} (h : s.memOk) :
    (s.storeWords r a ws).memOk := .store h

theorem State.memOk.loadWords {r : Reach} {a k : Nat} (h : s.memOk) :
    (s.loadWords r a k).2.memOk := by
  unfold State.loadWords
  split
  · rename_i heq
    exact .snd_eq heq (.load h)
  · rename_i heq
    exact .snd_eq heq (.load h)

theorem State.memOk.pmcWrap {e : Nat} (h : s.memOk) :
    (s.pmcWrap e).memOk := .ite (.fset (.ite (.event (.fset h)) (.fset h))) (.ite (.event (.fset h)) (.fset h))

theorem State.memOk.pmcCount {e : Nat} {ctx : Option Nat} {code n : Nat} (h : s.memOk) :
    (s.pmcCount e ctx code n).memOk := .ite (.ite (.fset h) (.pmcWrap (.fset h))) h

theorem State.memOk.pmcTile {t code n : Nat} (h : s.memOk) :
    (s.pmcTile t code n).memOk := .ite h (.forRange h .pmcCount)

theorem State.memOk.pmcHerd {i code n : Nat} (h : s.memOk) :
    (s.pmcHerd i code n).memOk := .ite h (.forRange h .pmcCount)

/-! ### Access.lean -/

theorem State.memOk.turnAway {a : Agent} {wr : Bool} {off : Nat} {e : Entry} (h : s.memOk) :
    (s.turnAway a wr off e).memOk := by
  unfold State.turnAway
  split
  · exact h
  · exact .answer (.regError h)
  · split
    · exact .answer (.decodeErr h)
    · exact .answer (.decodeErr h)
    · exact .answer (.regError h)

theorem State.memOk.writeReg {a : Agent} {b : Blk} {u off : Nat} {f : State → State} (h : s.memOk)
    (hf : ∀ {t}, t.memOk → (f t).memOk) :
    (s.writeReg a b u off f).memOk := by
  unfold State.writeReg
  split
  · exact hf (.answer h)
  · exact .turnAway h

theorem State.memOk.readReg {a : Agent} {b : Blk} {u off : Nat} {f : State → State} (h : s.memOk)
    (hf : ∀ {t}, t.memOk → (f t).memOk) :
    (s.readReg a b u off f).memOk := by
  unfold State.readReg
  split
  · exact hf (.answer h)
  · exact .turnAway h

theorem State.memOk.writeCtx {a : Agent} {p off : Nat} {f : Nat → State → State} (h : s.memOk)
    (hf : ∀ {x t}, t.memOk → (f x t).memOk) :
    (s.writeCtx a p off f).memOk := by
  unfold State.writeCtx
  refine .writeReg h (fun ht => ?_)
  split
  · exact hf ht
  · exact .badWrite ht

end Sys2Proof.Machine
end

section
/-!
Memory stays canonical: queue pairs, STOT, intake, scheduling, stopping, placement and command operations.
-/

set_option Elab.async false

namespace Sys2Proof.Machine

variable {s : State}

/-! ### QPairs.lean -/

theorem State.memOk.setEth {e : Nat} {x : EthPort} (h : s.memOk) :
    (s.setEth e x).memOk := .of_mem h rfl

theorem State.memOk.setQp {e q : Nat} {x : Qp} (h : s.memOk) :
    (s.setQp e q x).memOk := .of_mem h rfl

theorem State.memOk.qpOut {e q : Nat} {k : EthPkt} (h : s.memOk) :
    (s.qpOut e q k).memOk := .of_mem h rfl

theorem State.memOk.qpSend {e q : Nat} {o : EthOut} (h : s.memOk) :
    (s.qpSend e q o).memOk := .of_mem h rfl

theorem State.memOk.qpDrain {e q n : Nat} (h : s.memOk) :
    (State.qpDrain e q n s).memOk := by
  induction n generalizing s with
  | zero => exact h
  | succ n ih =>
    unfold State.qpDrain
    dsimp only
    split
    · exact .ite h (ih (.qpOut (.setQp h)))
    · exact h

theorem State.memOk.qpRequest {e q : Nat} {l : List (EthOut × Bool)} (h : s.memOk) :
    (s.qpRequest e q l).memOk := .qpDrain (.setQp h)

theorem State.memOk.ethSend {d qpn : Nat} {payload : List Nat} (h : s.memOk) :
    (s.ethSend d qpn payload).memOk := .qpRequest h

theorem State.memOk.qpAck {e q psn : Nat} (h : s.memOk) :
    (s.qpAck e q psn).memOk := .ite (.qpDrain (.setQp h)) h

theorem State.memOk.qpDrainAll {e : Nat} (h : s.memOk) :
    (s.qpDrainAll e).memOk := .foldl h .qpDrain

theorem State.memOk.nvmeSend {w : List Nat} {c : NvmeCmd} (h : s.memOk) :
    (s.nvmeSend w c).memOk := .qpRequest h

/-! ### Stot.lean -/

theorem State.memOk.flood {from? : Option Nat} {m : AfrMsg} (h : s.memOk) :
    (s.flood from? m).memOk := .forRange h (fun ht => .ite ht (.sendOn ht))

theorem State.memOk.stotNote {key d : Nat} (h : s.memOk) :
    (State.stotNote key s d).memOk := .of_mem h rfl

theorem State.memOk.stotRecord {key : Nat} (h : s.memOk) :
    (s.stotRecord key).memOk := .of_mem h rfl

theorem State.memOk.lateStot {l : List (Nat × Nat × Slot)} {origin : Nat} (h : s.memOk) :
    (s.lateStot l origin).memOk := by
  unfold State.lateStot
  split
  · exact .event (.fset (.fadd h))
  · exact h

theorem State.memOk.stotDeliver {slot : Nat} (h : s.memOk) :
    (s.stotDeliver slot).memOk := .lateStot (.foldl h .setSlot)

theorem State.memOk.stotEthernet {slot : Nat} (h : s.memOk) :
    (s.stotEthernet slot).memOk :=
  .ite (.of_mem h) (.foldl (.foldl (.of_mem h) (fun ht => .foldl ht (fun hu => .ite (.ethSend hu) hu)))
      (fun ht => .foldl ht (fun hu => .ite (.ethSend hu) hu)))

theorem State.memOk.stotArrive {d : Nat} {from? : Option Nat} {slot : Nat} (h : s.memOk) :
    (s.stotArrive d from? slot).memOk := .ite h (.stotDeliver (.stotEthernet (.flood (.fadd (.stotRecord h)))))

theorem State.memOk.stotOriginate {kind job lost : Nat} (h : s.memOk) :
    (s.stotOriginate kind job lost).memOk := by
  unfold State.stotOriginate
  exact .stotEthernet (.flood (.stotRecord h))

/-! ### InkOps.lean -/

theorem State.memOk.setStream {p : Nat} {x : Stream} (h : s.memOk) :
    (s.setStream p x).memOk := .of_mem h rfl

theorem State.memOk.inkError {p status : Nat} (h : s.memOk) :
    (s.inkError p status).memOk := by
  unfold State.inkError
  exact .event (.setStream (.fset (.fset h)))

theorem State.memOk.inkLoad {p a k : Nat} (h : s.memOk) :
    (s.inkLoad p a k).2.memOk := by
  unfold State.inkLoad
  split
  · rename_i heq
    exact .snd_eq heq (.load h)
  · rename_i heq
    exact .snd_eq heq (.load h)
  · rename_i heq
    exact .inkError (.snd_eq heq (.load h))

theorem State.memOk.inkStore {p a n v : Nat} (h : s.memOk) :
    (s.inkStore p a n v).memOk := by
  unfold State.inkStore
  split
  · rename_i heq
    exact .snd_eq heq (.store h)
  · rename_i heq
    exact .inkError (.snd_eq heq (.store h))

theorem State.memOk.inkOpen {p : Nat} (h : s.memOk) :
    (s.inkOpen p).memOk := by
  unfold State.inkOpen
  dsimp only
  split
  · exact h
  · split
    · exact .setStream h
    · exact h

theorem State.memOk.inkShow {p : Nat} (h : s.memOk) :
    (s.inkShow p).memOk :=
  .ite (.event (.setStream (.fset (.fset (.fset h))))) (.ite (.setStream (.fset (.fset (.fset h)))) (.fset (.fset (.fset h))))

theorem State.memOk.inkWater {p : Nat} (h : s.memOk) :
    (s.inkWater p).memOk := .of_mem h rfl

theorem State.memOk.inkStarves {p : Nat} (h : s.memOk) :
    (s.inkStarves p).memOk := .ite h (.fadd (.setStream h))

theorem State.memOk.inkBind {p ctx step : Nat} (h : s.memOk) :
    (s.inkBind p ctx step).memOk := by
  unfold State.inkBind
  split
  · exact h
  · split
    · exact h
    · exact .inkShow (.setStream (.inkStore (.inkStore h)))

theorem State.memOk.inkConsume {p ctx : Nat} (h : s.memOk) :
    (s.inkConsume p ctx).memOk := .inkOpen (.inkShow (.setStream h))

theorem State.memOk.inkRecord {p : Nat} (h : s.memOk) :
    (s.inkRecord p).memOk := .ite h (.inkStore h)

theorem State.memOk.inkRebuild {p v : Nat} (h : s.memOk) :
    (s.inkRebuild p v).memOk := .inkShow (.setStream (.fset (.fset (.fset (.fset (.fset (.fset (.fset (.fset h)))))))))

/-! ### SchedOps.lean -/

theorem State.memOk.readDesc {r : Reach} {a : Nat} (h : s.memOk) :
    (s.readDesc r a).2.memOk := by
  unfold State.readDesc
  split
  · rename_i heq
    split
    · exact .iteSnd (.snd_eq heq (.loadWords h)) (.iteSnd (.snd_eq heq (.loadWords h)) (.snd_eq heq (.loadWords h)))
    · exact .snd_eq heq (.loadWords h)
  · rename_i heq
    exact .snd_eq heq (.loadWords h)

theorem State.memOk.askAbort {p k : Nat} {r : AbortReq} (h : s.memOk) :
    (s.askAbort p k r).memOk := .modSlot h

theorem State.memOk.abortAndStot {p k : Nat} {r : AbortReq} (h : s.memOk) :
    (s.abortAndStot p k r).memOk := by
  unfold State.abortAndStot
  split
  · exact .ite (.stotOriginate (.askAbort h)) h
  · exact h

theorem State.memOk.taskFail {p k : Nat} {t : List Nat} {status : Nat} (h : s.memOk) :
    (s.taskFail p k t status).memOk := by
  unfold State.taskFail
  exact .event (.modSlot (.abortAndStot h))

theorem State.memOk.jobFault {f : JobFault} (h : s.memOk) :
    (s.jobFault f).memOk := .of_mem h rfl

theorem State.memOk.resetDue {code unit : Nat} (h : s.memOk) :
    (s.resetDue code unit).memOk := .ite h (.of_mem h)

theorem State.memOk.abortHerd {i : Nat} (h : s.memOk) :
    (s.abortHerd i).memOk := by
  unfold State.abortHerd
  split
  · split
    · exact .abortAndStot h
    · exact h
  · exact h

theorem State.memOk.readyWord {p : Nat} {x : Slot} {i : Nat} (h : s.memOk) :
    (s.readyWord p x i).2.memOk := .load h

theorem State.memOk.itemReady {p : Nat} {x : Slot} {x1 : Bool × Nat} (h : s.memOk) :
    (s.itemReady p x x1).2.memOk := by
  unfold State.itemReady
  split <;> exact .iteSnd h (.readyWord h)

theorem State.memOk.nextItem {p : Nat} {x : Slot} (h : s.memOk) :
    (s.nextItem p x).2.memOk := by
  unfold State.nextItem
  dsimp only
  split
  · exact h
  · split
    · exact .itemReady h
    · split
      · split
        · exact .itemReady (.itemReady h)
        · exact .itemReady h
      · exact .itemReady h

theorem State.memOk.inputRanges {p : Nat} {t : List Nat} (h : s.memOk) :
    (s.inputRanges p t).2.memOk := .foldlSnd h .readDesc

theorem State.memOk.putSreg {t n v : Nat} (h : s.memOk) :
    (s.putSreg t n v).memOk := .of_mem h rfl

/-! ### StopOps.lean -/

theorem State.memOk.took {k : Nat} (h : s.memOk) :
    (s.took k).memOk := .of_mem h rfl

theorem State.memOk.segReport {t segId status : Nat} (h : s.memOk) :
    (s.segReport t segId status).memOk := by
  unfold State.segReport
  split
  · exact .setPart h
  · exact h

theorem State.memOk.dropWaiters {t : Nat} (h : s.memOk) :
    (s.dropWaiters t).memOk := .of_mem h rfl

theorem State.memOk.dropAcc {t : Nat} (h : s.memOk) :
    (s.dropAcc t).memOk := .of_mem h rfl

theorem State.memOk.sampEnd {t : Nat} {r : Run} (h : s.memOk) :
    (s.sampEnd t r).memOk := .ite (.setTile h) h

theorem State.memOk.asksGone {f : Asker → Bool} (h : s.memOk) :
    (s.asksGone f).memOk := .of_mem h rfl

theorem State.memOk.stopRun {t : Nat} (h : s.memOk) :
    (s.stopRun t).memOk := by
  unfold State.stopRun
  split
  · exact h
  · refine .dropWaiters ?_
    refine .setTile ?_
    refine .sampEnd ?_
    refine .asksGone ?_
    refine .foldl ?_ .dropAcc
    split
    · split
      · exact .modSlot h
      · exact h
    · exact h

theorem State.memOk.abortTile {ctx t : Nat} (h : s.memOk) :
    (s.abortTile ctx t).memOk := by
  unfold State.abortTile
  refine .setTile ?_
  refine .when ?_ .asksGone
  split
  · exact .ite (.segReport (.stopRun h)) h
  · exact h

theorem State.memOk.taskEnd {p k i status : Nat} (h : s.memOk) :
    (s.taskEnd p k i status).memOk := by
  unfold State.taskEnd
  split
  · exact h
  · exact .ite (.setSlot h) (.ite (.taskFail (.setSlot h)) (.ite (.jobFault (.setSlot h)) (.abortAndStot (.setSlot h))))

theorem State.memOk.herdReports {p k i i1 status : Nat} (h : s.memOk) :
    (s.herdReports p k i i1 status).memOk := by
  unfold State.herdReports
  split
  · exact h
  · exact .ite h (.ite (.taskEnd h) (.when (.setSlot h) .taskEnd))

theorem State.memOk.segTask {i status : Nat} (h : s.memOk) :
    (s.segTask i status).memOk := by
  unfold State.segTask
  split
  · exact .herdReports (.setHerd h)
  · exact h

theorem State.memOk.modColl {d g : Nat} {f : Coll → Coll} (h : s.memOk) :
    (s.modColl d g f).memOk := .of_mem h rfl

theorem State.memOk.collFail {d g status : Nat} (h : s.memOk) :
    (s.collFail d g status).memOk := .of_mem h rfl

theorem State.memOk.collFailAll {f : Nat → Coll → Bool} {status : Nat} (h : s.memOk) :
    (s.collFailAll f status).memOk := .of_mem h rfl

/-! ### PlaceOps.lean -/

theorem State.memOk.takeFrame {p : Pool} (h : s.memOk) :
    (s.takeFrame p).2.memOk := .of_mem h rfl

theorem State.memOk.zeroFrame {k : Nat} (h : s.memOk) :
    (s.zeroFrame k).memOk := Mem.wf_zeroRange _ _ h

theorem State.memOk.prune (h : s.memOk) : s.prune.memOk := .of_mem h rfl

theorem State.memOk.enqueue {q : MigReq} (h : s.memOk) :
    (s.enqueue q).memOk := .ite (.prune h) (.of_mem (.prune h))

theorem State.memOk.evacuate {cls r k : Nat} (h : s.memOk) :
    (s.evacuate cls r k).memOk := .enqueue h

theorem State.memOk.lifeTouch {area : Nat} (h : s.memOk) :
    (s.lifeTouch area).memOk := .of_mem h rfl

theorem State.memOk.markBad {k : Nat} (h : s.memOk) :
    (s.markBad k).memOk := .ite (.lifeTouch (.lifeAdd (.of_mem h))) (.fset (.lifeAdd (.of_mem h)))

theorem State.memOk.frameGo {k : Nat} {last : Option Nat} (h : s.memOk) :
    (s.frameGo k last).memOk := by
  unfold State.frameGo
  split
  · exact h
  · split
    · exact .ite (.evacuate h) (.ite (.evacuate h) h)
    · split
      · split
        · exact .event (.markBad (.of_mem h))
        · exact .markBad (.of_mem h)
      · exact h

theorem State.memOk.prefetch {d : Desc} (h : s.memOk) :
    (s.prefetch d).memOk := .ite h (.foldl h .enqueue)

/-! ### CmdOps.lean -/

theorem State.memOk.countRefusal {p op status : Nat} (h : s.memOk) :
    (s.countRefusal p op status).memOk := by
  unfold State.countRefusal
  refine .when ?_ .fadd
  split
  · exact .fadd h
  · exact .fadd h
  · exact .fadd h
  · exact h

theorem State.memOk.completeHeadCmd {p op : Nat} {rec : CmdRec} {status result : Nat} (h : s.memOk) :
    (s.completeHeadCmd p op rec status result).memOk := .fadd (.fset (.fset (.setPart (.storeWords h))))

theorem State.memOk.refuseUnknown {p n : Nat} (h : s.memOk) :
    (State.refuseUnknown p n s).memOk := by
  induction n generalizing s with
  | zero => exact h
  | succ n ih =>
    unfold State.refuseUnknown
    split
    · exact h
    · split
      · exact .ite h (ih (.completeHeadCmd (.countRefusal h)))
      · exact h

theorem State.memOk.complete {p op : Nat} {rec : CmdRec} {status result : Nat} (h : s.memOk) :
    (s.complete p op rec status result).memOk := .refuseUnknown (.completeHeadCmd h)

theorem State.memOk.command {p op : Nat} {rec : CmdRec} {c : Chk} {f : State → State} (h : s.memOk)
    (hf : ∀ {t}, t.memOk → (f t).memOk) :
    (s.command p op rec c f).memOk := .ite h (.ite (hf h) (.complete (.countRefusal h)))

theorem State.memOk.commandOk {p op : Nat} {rec : CmdRec} {c : Chk} {f : State → State × Nat} (h : s.memOk)
    (hf : ∀ {t}, t.memOk → (f t).1.memOk) :
    (s.commandOk p op rec c f).memOk := .command h (fun ht => .complete (hf ht))

theorem State.memOk.startExec {p op : Nat} {rec : CmdRec} {result : Nat} (h : s.memOk) :
    (s.startExec p op rec result).memOk := .of_mem h rfl

end Sys2Proof.Machine
end

section
/-!
Memory stays canonical: placement, time, channels and intake.
-/

set_option Elab.async false

namespace Sys2Proof.Machine

variable {s : State}

/-! ### Placement.lean -/

theorem State.memOk.update {r e : Nat} {frames : List Nat} (h : s.memOk) :
    (s.update r e frames).memOk := .ite (.foldl (.setRm h) .frameGo) (.of_mem (.setRm h))

theorem State.memOk.commandMap {p op : Nat} {rec : CmdRec} {c : Chk} {f : State → State} (h : s.memOk)
    (hf : ∀ {t}, t.memOk → (f t).memOk) :
    (s.commandMap p op rec c f).memOk := .command h (fun ht => .ite (.complete (hf ht)) (.startExec (hf ht)))

theorem State.memOk.mapOne {r : CmdRec} {die n : Nat} {t : State} (h : s.memOk) (e : s.mapOne r die n = some t) : t.memOk := by
  unfold State.mapOne at e
  split at e
  · cases e
  · split at e
    · rename_i heq
      cases e
      exact .update (.zeroFrame (.snd_eq heq (.takeFrame h)))
    · cases e

theorem State.memOk.mapAll {r : CmdRec} {die : Nat} {l : List Nat} {t : State} (h : s.memOk)
    (e : State.mapAll r die l s = some t) : t.memOk := by
  induction l generalizing s with
  | nil => cases e; exact h
  | cons n l ih =>
    unfold State.mapAll at e
    split at e
    · rename_i heq
      exact ih (.mapOne h heq) e
    · cases e

theorem State.memOk.mapSpan {r : CmdRec} {t : State} (h : s.memOk) (e : s.mapSpan r = some t) : t.memOk := .mapAll h e

theorem State.memOk.execMap {p : Nat} {rec : CmdRec} (h : s.memOk) :
    OutOk (execMap p rec s) := .runIf h (.command h (fun ht => .startExec (.getD (.mapSpan ht) ht)))

theorem State.memOk.postRedo {line : Nat} {w : Txn} (h : s.memOk) :
    (s.postRedo line w).memOk := .fadd (.post h)

theorem State.memOk.redoFrame {k : Nat} (h : s.memOk) :
    (s.redoFrame k).memOk := by
  unfold State.redoFrame
  refine .foldl (.foldl (.of_mem h) .postRedo) (fun ht => ?_)
  split
  · exact .endTxn (.postRedo ht)
  · exact ht

theorem State.memOk.dropQueued {r : Nat} (h : s.memOk) :
    (s.dropQueued r).memOk := .of_mem h rfl

theorem State.memOk.unmapOne {n : Nat} (h : s.memOk) :
    (s.unmapOne n).memOk := .update (.sendReqs (.of_mem (.dropQueued h)))

theorem State.memOk.execUnmap {p : Nat} {rec : CmdRec} (h : s.memOk) :
    OutOk (execUnmap p rec s) := .runIf h (.commandMap h (fun ht => .foldl ht .unmapOne))

theorem State.memOk.setattrOne {r : CmdRec} {n : Nat} (h : s.memOk) :
    (State.setattrOne r s n).memOk := .ite (.enqueue (.update h)) (.update h)

theorem State.memOk.execSetattr {p : Nat} {rec : CmdRec} (h : s.memOk) :
    OutOk (execSetattr p rec s) := .runIf h (.commandMap h (fun ht => .foldl ht .setattrOne))

theorem State.memOk.moveStart {r : CmdRec} (h : s.memOk) :
    (s.moveStart r).memOk := .foldl h .enqueue

theorem State.memOk.execMove {p : Nat} {rec : CmdRec} (h : s.memOk) :
    OutOk (execMove p rec s) := .runIf h (.command h (fun ht => .startExec (.ite ht (.moveStart ht))))

theorem State.memOk.reserveOne {part k : Nat} (h : s.memOk) :
    (State.reserveOne part s k).memOk := .frameGo (.of_mem h)

theorem State.memOk.execReserve {p : Nat} {rec : CmdRec} (h : s.memOk) :
    OutOk (execReserve p rec s) := .runIf h (.command h (fun ht => .startExec (.foldl ht .reserveOne)))

theorem State.memOk.execRelease {p : Nat} {rec : CmdRec} (h : s.memOk) :
    OutOk (execRelease p rec s) := .runIf h (.commandOk h (fun ht => .foldl ht .of_mem))

theorem State.memOk.execPeer {p : Nat} {rec : CmdRec} (h : s.memOk) :
    OutOk (execPeer p rec s) := .runIf h (.command h .startExec)

theorem State.memOk.peerDone {rec : CmdRec} (h : s.memOk) :
    (s.peerDone rec).memOk := .foldl h .update

theorem State.memOk.agree {p : Nat} {e : Exec} (h : s.memOk) :
    (s.agree p e).memOk := .of_mem h rfl

theorem State.memOk.reserveDone {rec : CmdRec} (h : s.memOk) :
    (s.reserveDone rec).memOk := .foldl h (fun ht => .ite (.of_mem ht) ht)

theorem State.memOk.replenish {d : Nat} (h : s.memOk) :
    (s.replenish d).memOk := .ite h (.foldl (.of_mem h) .enqueue)

theorem State.memOk.epochDie {d : Nat} (h : s.memOk) :
    (s.epochDie d).memOk := .replenish (.foldl (.of_mem h) .enqueue)

theorem State.memOk.execPlacementEpoch (h : s.memOk) :
    OutOk (execPlacementEpoch s) := .next (.ite (.epochDie (.epochDie (.of_mem h))) h)

theorem State.memOk.execSavedActDemote {r : Nat} (h : s.memOk) :
    OutOk (execSavedActDemote r s) := .runIf h (.ite (.enqueue h) h)

theorem State.memOk.migFrame {q : MigReq} (h : s.memOk) :
    (s.migFrame q).2.memOk := by
  unfold State.migFrame
  split
  · exact h
  · split
    · rename_i heq
      exact .snd_eq heq (.takeFrame h)
    · rename_i heq
      exact .iteSnd (.takeFrame (.snd_eq heq (.takeFrame h))) (.snd_eq heq (.takeFrame h))

theorem State.memOk.poisonAt {line v : Nat} (h : s.memOk) :
    (s.poisonAt line v).memOk := .chanWrote (.of_mem (.putLine (.llcDrop h)))

theorem State.memOk.copyLine {d src dst i : Nat} (h : s.memOk) :
    (s.copyLine d src dst i).memOk := by
  unfold State.copyLine
  dsimp only
  split
  · exact .homeFull (.fadd (.cross (.peekLine (.cross h) .unitEvent)))
  · exact .poisonAt (.fadd (.cross (.peekLine (.cross h) .unitEvent)))

theorem State.memOk.peerLine {key : Nat} {m : Mig} {i : Nat} {t : State} (h : s.memOk) (e : s.peerLine key m i = some t) :
    t.memOk := by
  have sent {u : State} {w : Option (Nat × Nat)} {o : Bool} {r : Reach} {d n k : Nat} (hu : u.memOk)
      (e : (if o then match u.remote r d n k w with | (true, s1) => some s1 | (false, _) => none else none) = some t) :
      t.memOk := by
    split at e
    · split at e
      · rename_i heq
        cases e
        exact .snd_eq heq (.remote hu)
      · cases e
    · cases e
  unfold State.peerLine at e
  dsimp only at e
  split at e
  · exact sent h e
  · split at e
    · rename_i heq
      cases e
      exact .of_mem (.snd_eq heq (.peekLine (.cross h) .unitEvent))
    · rename_i heq
      exact sent (.snd_eq heq (.peekLine (.cross h) .unitEvent)) e

theorem State.memOk.migAbandon {key : Nat} {m : Mig} (h : s.memOk) :
    (s.migAbandon key m).memOk := by
  unfold State.migAbandon
  split
  · exact .frameGo (.fadd (.update (.sendReqs (.of_mem h))))
  · exact .fadd (.update (.sendReqs (.of_mem h)))

theorem State.memOk.migAgain {key : Nat} {m : Mig} (h : s.memOk) :
    (s.migAgain key m).memOk := .when (.migAbandon h) .enqueue

theorem State.memOk.moveFails {r status : Nat} (h : s.memOk) :
    (s.moveFails r status).memOk := by
  unfold State.moveFails
  split
  · split
    · exact .complete (.of_mem h)
    · exact h
  · exact h

theorem State.memOk.migFail {key : Nat} {m : Mig} {status : Nat} (h : s.memOk) :
    (s.migFail key m status).memOk := .moveFails (.migAbandon h)

theorem State.memOk.peerGo {key n : Nat} (h : s.memOk) :
    (State.peerGo key n s).memOk := by
  induction n generalizing s with
  | zero => exact h
  | succ n ih =>
    unfold State.peerGo
    split
    · split
      · dsimp only
        split
        · rename_i heq
          exact ih (.peerLine (.of_mem h) heq)
        · exact .migFail (.decodeErr (.of_mem h))
      · exact h
    · exact h

theorem State.memOk.chargeCopy {m : Mig} {n : Nat} {final : Bool} (h : s.memOk) :
    (s.chargeCopy m n final).memOk := by
  unfold State.chargeCopy
  split
  · split
    · refine .chargeFinal ?_
      dsimp only
      split
      · exact .chargeFinal h
      · exact h
    · dsimp only
      split
      · exact .chargeFinal h
      · exact h
  · split
    · refine .chargeNow ?_
      dsimp only
      split
      · exact .chargeNow h
      · exact h
    · dsimp only
      split
      · exact .chargeNow h
      · exact h

theorem State.memOk.copyLines {key : Nat} {m : Mig} {f : Nat → Bool} {final : Bool} (h : s.memOk) :
    (s.copyLines key m f final).memOk := by
  unfold State.copyLines
  extract_lets s1 m1 s2
  have h2 : s2.memOk := .of_mem (.chargeCopy h)
  split
  · exact .forRange h2 (fun ht => .ite (.copyLine ht) ht)
  · exact .peerGo h2

theorem State.memOk.engineAnswer {key off : Nat} {data : Option Nat} (h : s.memOk) :
    (s.engineAnswer key off data).memOk := by
  unfold State.engineAnswer
  split
  · exact h
  · refine .peerGo ?_
    split
    · exact .homeFull (.fadd h)
    · exact h

theorem State.memOk.migCopy {key : Nat} {m : Mig} {phase round : Nat} {f : Nat → Bool} (h : s.memOk) :
    (s.migCopy key m phase round f).memOk := .copyLines h

theorem State.memOk.migPrecopy {key : Nat} {m : Mig} (h : s.memOk) :
    (s.migPrecopy key m).memOk := .migCopy h

theorem State.memOk.migBegin {key : Nat} {q : MigReq} {tier frame : Nat} (h : s.memOk) :
    (s.migBegin key q tier frame).memOk := by
  unfold State.migBegin
  refine .ite (.migPrecopy (.of_mem (s := State.setRm _ _ _) ?_)) (.of_mem (s := State.setRm _ _ _) ?_) <;>
    exact .setRm (.of_mem h)

theorem State.memOk.execMigrationStart {d e : Nat} (h : s.memOk) :
    OutOk (execMigrationStart d e s) := by
  refine .runIf h ?_
  dsimp only
  split
  · exact h
  · split
    · exact .prune (.replenish h)
    · split
      · exact .migBegin (.prune (.replenish h))
      · split
        · rename_i heq
          exact .migBegin (.snd_eq heq (.migFrame (.prune (.replenish h))))
        · exact .prune (.replenish h)

theorem State.memOk.updAck {d r : Nat} (h : s.memOk) :
    (s.updAck d r).memOk := by
  unfold State.updAck
  split
  · exact h
  · exact .ite (.of_mem h) (.foldl (.of_mem h) .frameGo)

theorem State.memOk.execRmcUpdateAck {d r : Nat} (h : s.memOk) :
    OutOk (execRmcUpdateAck d r s) := by
  refine .runIf h ?_
  split
  · exact .ite (.updAck h) (.ite (.of_mem h) (.ite (.migPrecopy (.of_mem h)) (.ite (.of_mem h) (.of_mem h))))
  · exact .updAck h

theorem State.memOk.execRmcMissFill {d r : Nat} (h : s.memOk) :
    OutOk (execRmcMissFill d r s) := .runIf h (.ite h (.rmcUse h))

theorem State.memOk.migFinal {key : Nat} {m : Mig} (h : s.memOk) :
    (s.migFinal key m).memOk := by
  unfold State.migFinal
  refine .foldl (.of_mem h) (fun ht => ?_)
  split
  · exact .invalidate ht
  · exact .ite (.invalidate ht) ht

theorem State.memOk.migJudge {key : Nat} {m : Mig} (h : s.memOk) :
    (s.migJudge key m).memOk := .ite (.migFinal h) (.ite (.migCopy h) (.migAgain h))

theorem State.memOk.copyEnd {key phase : Nat} (h : s.memOk) :
    (s.copyEnd key phase).memOk := by
  unfold State.copyEnd
  split
  · exact .ite (.migJudge h) h
  · exact h

theorem State.memOk.execMigrationPrecopyEnd {d e : Nat} (h : s.memOk) :
    OutOk (execMigrationPrecopyEnd d e s) := .runIf h (.copyEnd h)

theorem State.memOk.execMigrationRoundEnd {d e : Nat} (h : s.memOk) :
    OutOk (execMigrationRoundEnd d e s) := .runIf h (.copyEnd h)

theorem State.memOk.migSwitch {key : Nat} {m : Mig} (h : s.memOk) :
    (s.migSwitch key m).memOk := .of_mem h rfl

theorem State.memOk.execMigrationFinalEnd {d e : Nat} (h : s.memOk) :
    OutOk (execMigrationFinalEnd d e s) := by
  refine .runIf h ?_
  dsimp only
  split
  · split
    · exact h
    · split
      · exact .ite (.migSwitch (.copyLines h)) (.copyLines h)
      · exact .copyLines h
  · exact h

theorem State.memOk.migDone {key : Nat} {m : Mig} (h : s.memOk) :
    (s.migDone key m).memOk := by
  unfold State.migDone
  refine .when ?_ .event
  split
  · refine .frameGo ?_
    split
    · exact .frameGo (.redoFrame (.foldl (.fset (.fadd (.of_mem h))) .fadd))
    · exact .foldl (.fset (.fadd (.of_mem h))) .fadd
  · split
    · exact .frameGo (.redoFrame (.foldl (.fset (.fadd (.of_mem h))) .fadd))
    · exact .foldl (.fset (.fadd (.of_mem h))) .fadd

theorem State.memOk.execMigrationUnblock {d e : Nat} (h : s.memOk) :
    OutOk (execMigrationUnblock d e s) := by
  refine .runIf h ?_
  split
  · exact .ite (.migDone h) h
  · exact h

theorem State.memOk.migFence {d : Nat} (h : s.memOk) :
    (s.migFence d).memOk := .foldl h (fun ht => .ite (.migAgain ht) (.migDone ht))

theorem State.memOk.retireFrame {k : Nat} (h : s.memOk) :
    (s.retireFrame k).memOk := .ite h (.frameGo (.of_mem h))

theorem State.memOk.execFrameRetire {tier frame : Nat} (h : s.memOk) :
    OutOk (execFrameRetire tier frame s) := .runIf h (.ite h (.retireFrame h))

theorem State.memOk.execRegulatorIssue {p tier tokens final : Nat} (h : s.memOk) :
    OutOk (execRegulatorIssue p tier tokens final s) := .runIf h (.ite (.chargeFinal h) (.chargeNow h))

/-! ### Time.lean -/

theorem State.memOk.ppsStart (h : s.memOk) : s.ppsStart.memOk := .when h .of_mem

theorem State.memOk.periodWrite {a : Agent} {v : Nat} (h : s.memOk) :
    (periodWrite a v s).memOk := .ite h (.ite (.badWrite h) (.ite (.fset h) (.badWrite (.fset h))))

theorem State.memOk.execPeriodLog2Write {a : Agent} {value : Nat} (h : s.memOk) :
    OutOk (execPeriodLog2Write a value s) := .runIf h (.writeReg h .periodWrite)

theorem State.memOk.ppsEnWrite {en : Nat} (h : s.memOk) :
    (ppsEnWrite en s).memOk := .ite (.of_mem (.fset h)) (.fset h)

theorem State.memOk.execPpsOutEnWrite {a : Agent} {en : Nat} (h : s.memOk) :
    OutOk (execPpsOutEnWrite a en s) := .runIf h (.writeReg h .ppsEnWrite)

theorem State.memOk.stepWrite {value : Nat} (h : s.memOk) :
    (stepWrite value s).memOk := .ite (.fset h) (.when (.of_mem (.leaves h)) .ppsStart)

theorem State.memOk.execTimeStep {a : Agent} {value : Nat} (h : s.memOk) :
    OutOk (execTimeStep a value s) := .runIf h (.writeReg h .stepWrite)

theorem State.memOk.execPpsOutPulse (h : s.memOk) :
    OutOk (execPpsOutPulse s) := .next (.ite (.ppsStart (.of_mem (.leaves h))) h)

theorem State.memOk.execPpsPulseEnd (h : s.memOk) :
    OutOk (execPpsPulseEnd s) := .next (.ite (.of_mem (.leaves h)) h)

theorem State.memOk.execPpsInEdge (h : s.memOk) :
    OutOk (execPpsInEdge s) := .next (.fset (.fset h))

theorem State.memOk.beatWrite {i value : Nat} (h : s.memOk) :
    (beatWrite i value s).memOk := by
  unfold Machine.beatWrite
  exact .when (.when (.when h .setCore) .setCore) (fun ht => .pmcHerd (.of_mem (.setHerd ht)))

theorem State.memOk.execHeartbeat {a : Agent} {i value : Nat} (h : s.memOk) :
    OutOk (execHeartbeat a i value s) := .runIf h (.writeReg h .beatWrite)

/-! ### Channels.lean -/

theorem State.memOk.chanServe {r : ChanReq} (h : s.memOk) :
    (s.chanServe r).memOk := by
  unfold State.chanServe
  split
  · exact .chanWrote (.of_mem (.putLine h))
  · exact .ite (.chanRead h .unitEvent) (.answer (.chanRead h .unitEvent))

theorem State.memOk.chanDrain {k n : Nat} (h : s.memOk) :
    (State.chanDrain k n s).memOk := by
  induction n generalizing s with
  | zero => exact h
  | succ n ih =>
    unfold State.chanDrain
    dsimp only
    split
    · exact h
    · split
      · exact ih (.chanServe (.setChan h))
      · exact h

theorem State.memOk.chansServe {which : Nat → Bool} (h : s.memOk) :
    (s.chansServe which).memOk := .foldl h (fun ht => .ite (.chanDrain ht) ht)

theorem State.memOk.chanTake {r : ChanReq} (h : s.memOk) :
    (s.chanTake r).memOk := .ite (.chanServe h) (.ite (.setChan h) (.chanDrain (.setChan h)))

theorem State.memOk.execChannelRead {req : LineReq} (h : s.memOk) :
    OutOk (execChannelRead req s) := .runIf h (.ite (.chanTake h) h)

theorem State.memOk.execChannelWrite {req : LineReq} {data : Nat} (h : s.memOk) :
    OutOk (execChannelWrite req data s) := .runIf h (.ite (.chanTake h) h)

theorem State.memOk.execScrubRead {unit : Nat} (h : s.memOk) :
    OutOk (execScrubRead unit s) := .runIf h (.ite h (.ite (.fset (.ite (.chanTake h) h)) (.fset (.fset (.ite (.chanTake h) h)))))

theorem State.memOk.issueRefs {chan n : Nat} (h : s.memOk) :
    (s.issueRefs chan n).memOk := .of_mem h rfl

theorem State.memOk.execRefresh {chan postpone : Nat} (h : s.memOk) :
    OutOk (execRefresh chan postpone s) := .runIf h (.ite h (.ite (.of_mem h) (.issueRefs (.of_mem h))))

theorem State.memOk.moveLine {c : RowCopy} {l : Nat} (h : s.memOk) :
    (State.moveLine c s l).memOk := by
  unfold State.moveLine
  dsimp only
  split
  · exact .chanWrote (.putLine (.of_mem (.chanRead h .unitEvent)))
  · exact .poisonAt (.of_mem (.chanRead h .unitEvent))

theorem State.memOk.copyRow {c : RowCopy} (h : s.memOk) :
    (s.copyRow c).memOk := .ite h (.of_mem (.foldl h .moveLine))

theorem State.memOk.slotOver {which : Nat → Bool} (h : s.memOk) :
    (s.slotOver which).memOk := .foldl (.unpark (.chansServe h) .unitEvent) .copyRow

theorem State.memOk.execRefreshSlotEnd (h : s.memOk) :
    OutOk (execRefreshSlotEnd s) := .next (.ite (.slotOver (.of_mem (.ite h (.leaves h)))) h)

theorem State.memOk.refLockEffect {a : Agent} {stack value : Nat} (h : s.memOk) :
    (refLockEffect a stack value s).memOk := .ite (.badWrite h) (.ite (.slotOver (.of_mem (.fset h))) (.fset h))

theorem State.memOk.execRefLockWrite {a : Agent} {stack value : Nat} (h : s.memOk) :
    OutOk (execRefLockWrite a stack value s) := .runIf h (.writeReg h .refLockEffect)

theorem State.memOk.suspendLock {stack : Nat} (h : s.memOk) :
    (s.suspendLock stack).memOk := by
  unfold State.suspendLock
  exact .event (.lifeAdd (.fset h))

theorem State.memOk.execRefLockSuspend {stack : Nat} (h : s.memOk) :
    OutOk (execRefLockSuspend stack s) := .runIf h (.ite h (.ite (.suspendLock (.fset h)) (.fset h)))

theorem State.memOk.execRefLockResume {stack : Nat} (h : s.memOk) :
    OutOk (execRefLockResume stack s) := .runIf h (.ite h (.fset (.fset h)))

theorem State.memOk.setRemaps {unit : Nat} {l : List Nat} (h : s.memOk) :
    (s.setRemaps unit l).memOk := .lifeTouch (.fset (.fset (.fset (.fset (.of_mem h)))))

theorem State.memOk.retireLines {lines : List Nat} (h : s.memOk) :
    (s.retireLines lines).memOk := .foldl h (fun ht => .ite ht (.retireFrame ht))

theorem State.memOk.remapTo {unit chan bank row gen : Nat} {l : List Nat} (h : s.memOk) :
    (s.remapTo unit chan bank row gen l).memOk := by
  unfold State.remapTo
  exact .event (.lifeAdd (.copyRow (.setRemaps (.of_mem h))))

theorem State.memOk.failRow {unit chan bank row : Nat} (h : s.memOk) :
    (s.failRow unit chan bank row).memOk := by
  unfold State.failRow
  split
  · exact .ite (.remapTo h) (.retireLines h)
  · exact .ite (.retireLines (.setRemaps h)) (.retireLines h)
  · dsimp only
    split
    · exact h
    · exact .ite (.remapTo h) (.retireLines (.setRemaps h))
    · exact .retireLines (.setRemaps h)

theorem State.memOk.execRowRemap {unit chan bank row : Nat} (h : s.memOk) :
    OutOk (execRowRemap unit chan bank row s) := .runIf h (.ite (.ite h (.ite (.failRow h) h)) (.ite (.ite (.failRow h) h) h))

theorem State.memOk.maintEffect {a : Agent} {stack value : Nat} (h : s.memOk) :
    (maintEffect a stack value s).memOk := .ite (.badWrite h) (.fset (.fset h))

theorem State.memOk.execMaintWrite {a : Agent} {stack value : Nat} (h : s.memOk) :
    OutOk (execMaintWrite a stack value s) := .runIf h (.writeReg h .maintEffect)

theorem State.memOk.repairShow {stack value result : Nat} (h : s.memOk) :
    (s.repairShow stack value result).memOk := by
  unfold State.repairShow
  exact .event (.fset (.fset (.fset (.fset (.fset (.fset h))))))

theorem State.memOk.repairEffect {a : Agent} {stack op value : Nat} (h : s.memOk) :
    (repairEffect a stack op value s).memOk := .ite (.badWrite h) (.ite (.repairShow h) (.fset (.of_mem h)))

theorem State.memOk.execReadStatus {a : Agent} {stack value : Nat} (h : s.memOk) :
    OutOk (execReadStatus a stack value s) := .runIf h (.writeReg h .repairEffect)

theorem State.memOk.execFuseRow {a : Agent} {stack value : Nat} (h : s.memOk) :
    OutOk (execFuseRow a stack value s) := .runIf h (.writeReg h .repairEffect)

theorem State.memOk.execFuseCol {a : Agent} {stack value : Nat} (h : s.memOk) :
    OutOk (execFuseCol a stack value s) := .runIf h (.writeReg h .repairEffect)

theorem State.memOk.fused {stack value : Nat} (h : s.memOk) :
    (s.fused stack value).memOk := .lifeAdd (.ite (.of_mem h) (.of_mem h))

theorem State.memOk.fuseApply {stack value : Nat} (h : s.memOk) :
    (State.fuseApply stack s value).memOk := .of_mem h rfl

theorem State.memOk.fuseLoad (h : s.memOk) : s.fuseLoad.memOk := by
  unfold State.fuseLoad
  exact .of_mem (.foldl h (fun ht => .foldl ht .fuseApply))

theorem State.memOk.execRepairCommandDone {stack result : Nat} (h : s.memOk) :
    OutOk (execRepairCommandDone stack result s) := by
  refine .runIf h ?_
  split
  · exact h
  · exact .repairShow (.ite (.fused (.of_mem h)) (.of_mem h))

theorem State.memOk.execUcieModuleRemove {link module : Nat} (h : s.memOk) :
    OutOk (execUcieModuleRemove link module s) :=
  .runIf h (.ite h (.when (.lifeAdd (.of_mem h))
      (fun ht => .ite (.resetDue (.logFault ht)) (.resetDue (.resetDue (.logFault ht))))))

theorem State.memOk.execUcieHashRespread {link : Nat} (h : s.memOk) :
    OutOk (execUcieHashRespread link s) := .runIf h (.ite (.of_mem h) h)

/-! ### Intake.lean -/

theorem State.memOk.modStream {p : Nat} {f : Stream → Stream} (h : s.memOk) :
    (s.modStream p f).memOk := .of_mem h rfl

theorem State.memOk.shardEntry {p k : Nat} (h : s.memOk) :
    (s.shardEntry p k).2.memOk := .inkLoad h

theorem State.memOk.nvqEntry {p : Nat} {e : List Nat} (h : s.memOk) :
    (s.nvqEntry p e).2.memOk := .inkLoad h

theorem State.memOk.readSend {p : Nat} {r : ShardRead} {e w : List Nat} (h : s.memOk) :
    (s.readSend p r e w).memOk := .nvmeSend (.carry h)

theorem State.memOk.readIssue {p i : Nat} {e w : List Nat} (h : s.memOk) :
    (s.readIssue p i e w).memOk := .readSend (.setStream h)

theorem State.memOk.readNext {p : Nat} (h : s.memOk) :
    (s.readNext p).memOk := by
  unfold State.readNext
  split
  · rename_i heq
    exact .snd_eq heq (.shardEntry h)
  · rename_i heq
    split
    · rename_i heq1
      exact .snd_eq heq1 (.nvqEntry (.snd_eq heq (.shardEntry h)))
    · rename_i heq1
      split
      · exact .ite (.readIssue (.snd_eq heq1 (.nvqEntry (.snd_eq heq (.shardEntry h)))))
          (.snd_eq heq1 (.nvqEntry (.snd_eq heq (.shardEntry h))))
      · exact .snd_eq heq1 (.nvqEntry (.snd_eq heq (.shardEntry h)))

theorem State.memOk.execShardReadIssue {stream : Nat} (h : s.memOk) :
    OutOk (execShardReadIssue stream s) := .runIf h (.ite (.work h .readNext) h)

theorem State.memOk.cursorStep {p : Nat} (h : s.memOk) :
    (s.cursorStep p).memOk := .modStream (.fset (.fset (.fset h)))

theorem State.memOk.cursorSkip {p n : Nat} (h : s.memOk) :
    (State.cursorSkip p n s).memOk := by
  induction n generalizing s with
  | zero => exact h
  | succ n ih =>
    unfold State.cursorSkip
    exact .ite (ih (.cursorStep h)) h

theorem State.memOk.cursorNext {p : Nat} (h : s.memOk) :
    (s.cursorNext p).memOk := .cursorSkip (.cursorStep h)

theorem State.memOk.shardFails {p : Nat} {r : ShardRead} (h : s.memOk) :
    (s.shardFails p r).memOk := .ite (.cursorNext (.modStream (.event (.fadd h)))) (.modStream (.modStream (.event (.fadd h))))

theorem State.memOk.readAgain {p : Nat} {r : ShardRead} (h : s.memOk) :
    (s.readAgain p r).memOk := by
  unfold State.readAgain
  split
  · rename_i heq
    exact .snd_eq heq (.shardEntry h)
  · rename_i heq
    split
    · rename_i heq1
      exact .snd_eq heq1 (.nvqEntry (.snd_eq heq (.shardEntry h)))
    · rename_i heq1
      exact .readSend (.snd_eq heq1 (.nvqEntry (.snd_eq heq (.shardEntry h))))

theorem State.memOk.readFails {p : Nat} {r : ShardRead} (h : s.memOk) :
    (s.readFails p r).memOk := .ite (.readAgain (.modStream h)) (.shardFails h)

theorem State.memOk.readCarry {p : Nat} {r : ShardRead} {l : List Nat} (h : s.memOk) :
    (s.readCarry p r l).memOk := .forRange h .carry

theorem State.memOk.readTake {p : Nat} {r : ShardRead} {l : List Nat} (h : s.memOk) :
    (s.readTake p r l).memOk := by
  unfold State.readTake
  split
  · rename_i heq
    exact .modStream (.snd_eq heq (.store (.readCarry h)))
  · rename_i heq
    exact .inkError (.snd_eq heq (.store (.readCarry h)))

theorem State.memOk.readDone {p : Nat} {r : ShardRead} {status : Nat} {data : List Nat} (h : s.memOk) :
    (s.readDone p r status data).memOk := .ite (.readFails h) (.ite (.readFails (.linkRefusal h)) (.readTake h))

theorem State.memOk.execNvmeCompletion {stream tag status : Nat} {data : List Nat} (h : s.memOk) :
    OutOk (execNvmeCompletion stream tag status data s) := by
  refine .runIf h ?_
  split
  · exact h
  · exact .work h .readDone

theorem State.memOk.execShardReadTimeout {stream tag : Nat} (h : s.memOk) :
    OutOk (execShardReadTimeout stream tag s) := by
  refine .runIf h ?_
  split
  · exact .work h .readFails
  · exact h

theorem State.memOk.shardPair {p off : Nat} (h : s.memOk) :
    (s.shardPair p off).2.memOk := by
  unfold State.shardPair
  split
  · exact .inkLoad h
  · exact h

theorem State.memOk.headerAt {p off : Nat} (h : s.memOk) :
    (s.headerAt p off).2.memOk := by
  unfold State.headerAt
  split
  · rename_i heq
    exact .snd_eq heq (.shardPair h)
  · rename_i heq
    split
    · rename_i heq1
      exact .snd_eq heq1 (.shardPair (.snd_eq heq (.shardPair h)))
    · rename_i heq1
      exact .snd_eq heq1 (.shardPair (.snd_eq heq (.shardPair h)))

theorem State.memOk.seekFrom {p len n off : Nat} (h : s.memOk) :
    (State.seekFrom p len n off s).2.2.memOk := by
  induction n generalizing s off with
  | zero => exact h
  | succ n ih =>
    unfold State.seekFrom
    refine .iteTrd h ?_
    split
    · rename_i heq
      exact .snd_eq heq (.headerAt h)
    · rename_i heq
      exact .iteTrd (.snd_eq heq (.headerAt h)) (ih (.snd_eq heq (.headerAt h)))

theorem State.memOk.cursorTo {p len off : Nat} (h : s.memOk) :
    (s.cursorTo p len off).memOk := .ite (.cursorNext h) (.modStream (.fset h))

theorem State.memOk.seekOn {p len : Nat} (h : s.memOk) :
    (s.seekOn p len).memOk := by
  unfold State.seekOn
  split
  · exact h
  · split
    · rename_i heq
      exact .modStream (.cursorTo (.trd_eq heq (.seekFrom h)))
    · rename_i heq
      exact .cursorTo (.trd_eq heq (.seekFrom h))

theorem State.memOk.badSample {p id cause : Nat} {corrupt : Bool} (h : s.memOk) :
    (s.badSample p id cause corrupt).memOk := .modStream (.fset (.fset (.fadd h)))

theorem State.memOk.unitGrant {k : Nat} (h : s.memOk) :
    (s.unitGrant k).memOk := by
  unfold State.unitGrant
  split
  · exact h
  · dsimp only
    split
    · split
      · exact .of_mem (.modStream h)
      · exact h
    · exact h

theorem State.memOk.unitGrants (h : s.memOk) : s.unitGrants.memOk := .forRange (.forRange h .unitGrant) .unitGrant

theorem State.memOk.sampleStart {p i : Nat} {i1 : RecHdr} {k off : Nat} (h : s.memOk) :
    (s.sampleStart p i i1 k off).memOk := .of_mem h rfl

theorem State.memOk.recordAt {p off len : Nat} {ws : List Nat} (h : s.memOk) :
    (s.recordAt p off len ws).memOk := by
  unfold State.recordAt
  split
  · exact .ite (.seekOn (.cursorTo (.modStream (.badSample h))))
      (.ite (.cursorTo (.badSample h)) (.ite (.cursorTo h) (.cursorTo (.sampleStart h))))
  · exact .ite (.seekOn (.cursorTo (.modStream (.badSample h)))) (.ite (.cursorTo (.badSample h)) (.ite (.cursorTo h) h))

theorem State.memOk.recordNext {p : Nat} {hdr : RecHdr} (h : s.memOk) :
    (s.recordNext p hdr).memOk := by
  unfold State.recordNext
  split
  · rename_i heq
    exact .snd_eq heq (.shardEntry h)
  · rename_i heq
    dsimp only
    split
    · exact .seekOn (.snd_eq heq (.shardEntry h))
    · split
      · exact .cursorNext (.seekOn (.snd_eq heq (.shardEntry h)))
      · split
        · rename_i heq1
          exact .ite (.recordAt (.snd_eq heq1 (.headerAt (.seekOn (.snd_eq heq (.shardEntry h))))))
              (.snd_eq heq1 (.headerAt (.seekOn (.snd_eq heq (.shardEntry h)))))
        · rename_i heq1
          exact .snd_eq heq1 (.headerAt (.seekOn (.snd_eq heq (.shardEntry h))))

theorem State.memOk.execRecordStart {stream : Nat} {hdr : RecHdr} (h : s.memOk) :
    OutOk (execRecordStart stream hdr s) := .runIf h (.ite (.unitGrants (.work h .recordNext)) h)

theorem State.memOk.seqFull {p : Nat} {b : OpenBatch} (h : s.memOk) :
    (s.seqFull p b).2.memOk := .inkStore h

theorem State.memOk.seqPad {p : Nat} {b : OpenBatch} (h : s.memOk) :
    (s.seqPad p b).2.memOk := .seqFull (.inkStore h)

theorem State.memOk.piece {p : Nat} {b : OpenBatch} {x : Sample} {slow : Bool} {ids : List Nat} (h : s.memOk) :
    (s.piece p b x slow ids).2.memOk := .iteSnd (.seqFull (.inkStore h)) (.iteSnd (.seqPad (.inkStore h)) (.inkStore h))

theorem State.memOk.packDoc {p : Nat} {slow : Bool} {doc : List Nat} {n : Nat} {b : OpenBatch} {x : Sample} (h : s.memOk) :
    (State.packDoc p slow doc n s b x).2.2.memOk := by
  induction n generalizing s b x with
  | zero => exact h
  | succ n ih =>
    unfold State.packDoc
    exact .iteTrd h (.iteTrd (ih (.seqPad h)) (ih (.piece h)))

theorem State.memOk.placeSample {p : Nat} {b : OpenBatch} {x : Sample} {slow : Bool} (h : s.memOk) :
    (s.placeSample p b x slow).2.2.memOk := by
  unfold State.placeSample
  refine .iteTrd (.packDoc h) (.iteTrd h (.inkStore h))

theorem State.memOk.placeFrom {p i : Nat} (h : s.memOk) :
    (s.placeFrom p i).memOk := by
  unfold State.placeFrom
  dsimp only
  split
  · exact .ite h (.ite (.placeSample h) (.modStream (.placeSample h)))
  · exact h

theorem State.memOk.placeAll {p : Nat} (h : s.memOk) :
    (s.placeAll p).memOk := .foldl h .placeFrom

theorem State.memOk.inkFill {p : Nat} (h : s.memOk) :
    (s.inkFill p).memOk := .placeAll (.inkOpen h)

theorem State.memOk.meanStep {p us : Nat} (h : s.memOk) :
    (s.meanStep p us).memOk := .of_mem h rfl

theorem State.memOk.sampleEnds {p i : Nat} {x : Sample} {payload : List Nat} (h : s.memOk) :
    (s.sampleEnds p i x payload).memOk := .ite (.modStream (.badSample h)) (.placeAll (.modStream (.when h .meanStep)))

theorem State.memOk.execSampleFinish {stream slot : Nat} {payload : List Nat} (h : s.memOk) :
    OutOk (execSampleFinish stream slot payload s) := by
  refine .runIf h ?_
  split
  · exact .ite h (.unitGrants (.work h .sampleEnds))
  · exact h

theorem State.memOk.abandon {p i cause : Nat} {x : Sample} (h : s.memOk) :
    (s.abandon p i cause x).memOk := .modStream (.badSample h)

theorem State.memOk.execSampleBudget {stream slot : Nat} (h : s.memOk) :
    OutOk (execSampleBudget stream slot s) := by
  refine .runIf h ?_
  split
  · split
    · exact h
    · split
      · exact .fadd (.modStream h)
      · exact .unitGrants (.abandon h)
  · exact h

theorem State.memOk.execSampleHardLimit {stream slot : Nat} (h : s.memOk) :
    OutOk (execSampleHardLimit stream slot s) := by
  refine .runIf h ?_
  split
  · exact .ite h (.unitGrants (.abandon h))
  · exact h

theorem State.memOk.batchCloses {p : Nat} {b : OpenBatch} (h : s.memOk) :
    (s.batchCloses p b).memOk := by
  unfold State.batchCloses
  dsimp only
  split
  · rename_i heq
    exact .inkFill (.modStream (.snd_eq heq (.store h)))
  · rename_i heq
    exact .inkError (.snd_eq heq (.store h))

theorem State.memOk.execBatchClose {stream : Nat} (h : s.memOk) :
    OutOk (execBatchClose stream s) := by
  refine .runIf h ?_
  split
  · exact .ite h (.work h .batchCloses)
  · exact h

theorem State.memOk.execBatchReady {stream : Nat} (h : s.memOk) :
    OutOk (execBatchReady stream s) := by
  refine .runIf h ?_
  split
  · exact .inkShow (.modStream h)
  · exact h

theorem State.memOk.inkStart {p : Nat} (h : s.memOk) :
    (s.inkStart p).memOk := .inkFill (.fset (.modStream (.fset (.fset h))))

theorem State.memOk.inkStop {p : Nat} (h : s.memOk) :
    (s.inkStop p).memOk := .of_mem h rfl

end Sys2Proof.Machine
end

section
/-!
Memory stays canonical: tensors, tile operations, passes and moves.
-/

set_option Elab.async false

namespace Sys2Proof.Machine

variable {s : State}

/-! ### TensorOps.lean -/

theorem State.memOk.andThen {a : Ld × State} {f : State → Ld × State} (h : a.2.memOk) (hf : ∀ {t}, t.memOk → (f t).2.memOk) :
    (andThen a f).2.memOk := .iteSnd (hf h) h

theorem State.memOk.accessAll {α : Type} {l : List α} {f : α → State → Ld × State} (h : s.memOk)
    (hf : ∀ {x t}, t.memOk → (f x t).2.memOk) :
    (accessAll l f s).2.memOk := .foldlSnd h (fun ht => .andThen ht hf)

theorem State.memOk.loadRow {r : Reach} {t : Ten} {i j n : Nat} (h : s.memOk) :
    (s.loadRow r t i j n).2.2.memOk := by
  unfold State.loadRow
  dsimp only
  split
  · rename_i heq
    exact .snd_eq heq (.load h)
  · rename_i heq
    exact .snd_eq heq (.load h)

theorem State.memOk.storeRow {r : Reach} {t : Ten} {i j : Nat} {codes : List Nat} (h : s.memOk) :
    (s.storeRow r t i j codes).2.memOk := by
  unfold State.storeRow
  dsimp only
  split
  · exact h
  · split
    · exact .storeN h
    · split
      · rename_i heq
        exact .storeN (.snd_eq heq (.load h))
      · rename_i heq
        exact .snd_eq heq (.load h)

theorem State.memOk.loadFawns {r : Reach} {t : Ten} {i j n : Nat} (h : s.memOk) :
    (s.loadFawns r t i j n).2.2.memOk := by
  unfold State.loadFawns
  split
  · rename_i heq
    exact .snd_eq heq (.load h)
  · rename_i heq
    exact .snd_eq heq (.load h)

theorem State.memOk.storeFawns {r : Reach} {t : Ten} {i j : Nat} {codes : List Nat} (h : s.memOk) :
    (s.storeFawns r t i j codes).2.memOk := .storeN h

theorem State.memOk.loadRec {r : Reach} {t : Ten} {b : Nat} (h : s.memOk) :
    (s.loadRec r t b).2.2.memOk := by
  unfold State.loadRec
  split
  · exact h
  · split
    · rename_i heq
      exact .snd_eq heq (.load h)
    · rename_i heq
      exact .snd_eq heq (.load h)

theorem State.memOk.storeRec {r : Reach} {t : Ten} {b v : Nat} (h : s.memOk) :
    (s.storeRec r t b v).2.memOk := .storeN h

theorem State.memOk.mergeBlock {r : Reach} {t : Ten} {b st mapBits : Nat} (h : s.memOk) :
    (s.mergeBlock r t b st mapBits).2.memOk := by
  unfold State.mergeBlock
  split
  · exact h
  · split
    · rename_i heq
      split
      · split
        · rename_i heq1
          split
          · rename_i heq2
            exact .storeN (.snd_eq heq2 (.storeRec (.snd_eq heq1 (.load (.snd_eq heq (.load h))))))
          · exact .storeRec (.snd_eq heq1 (.load (.snd_eq heq (.load h))))
        · exact .load (.snd_eq heq (.load h))
      · exact .storeRec (.snd_eq heq (.load h))
    · exact .load h

/-! ### TileOps.lean -/

theorem State.memOk.modTile {t : Nat} {f : Tile → Tile} (h : s.memOk) :
    (s.modTile t f).memOk := .of_mem h rfl

theorem State.memOk.segRecord {t segId idx cause : Nat} (h : s.memOk) :
    (s.segRecord t segId idx cause).memOk := by
  unfold State.segRecord
  split
  · exact .fset (.fset (.fset (.fset h)))
  · exact .fset (.fset (.fset h))

theorem State.memOk.tileFault {t segId idx cause log arg ctx : Nat} (h : s.memOk) :
    (s.tileFault t segId idx cause log arg ctx).memOk := .jobFault (.segRecord h)

theorem State.memOk.segFault {t : Nat} {r : Run} {idx cause log arg : Nat} (h : s.memOk) :
    (s.segFault t r idx cause log arg).memOk := .tileFault (.stopRun h)

theorem State.memOk.segTimeout {t : Nat} {r : Run} {idx : Nat} (h : s.memOk) :
    (s.segTimeout t r idx).memOk := .segTask (.segReport (.segRecord (.stopRun h)))

theorem State.memOk.segLd {t : Nat} {r : Run} {idx : Nat} {e : Ld} (h : s.memOk) :
    (s.segLd t r idx e).memOk := by
  unfold State.segLd
  split
  · exact h
  · exact .segFault h
  · exact .segFault h
  · exact .segTimeout h
  · exact h

theorem State.memOk.sampWrite {t : Nat} {r : Run} {f : Flight} {eaddr wait lat : Nat} (h : s.memOk) :
    (s.sampWrite t r f eaddr wait lat).memOk :=
  .ite (.fadd h) (.ite (.fset (.fset (.modTile h))) (.when (.fset (.fset (.modTile h))) .event))

theorem State.memOk.issueOr {t idx : Nat} {x : TIns} {f g : Run → State → State} (h : s.memOk)
    (hf : ∀ {x t}, t.memOk → (f x t).memOk) (hg : ∀ {x t}, t.memOk → (g x t).memOk) :
    (s.issueOr t idx x f g).memOk := by
  unfold State.issueOr
  split
  · exact .ite (hf (.modTile h)) (.ite (hg (.modTile h)) h)
  · exact h

theorem State.memOk.issue {t idx : Nat} {x : TIns} {f : Run → State → State} (h : s.memOk) (hf : ∀ {x t}, t.memOk → (f x t).memOk)
    :
    (s.issue t idx x f).memOk := .issueOr h hf (fun ht => ht)

theorem State.memOk.modRun {t : Nat} {f : Run → Run} (h : s.memOk) :
    (s.modRun t f).memOk := .of_mem h rfl

theorem State.memOk.launch {t idx : Nat} {x : TIns} {kind : FlightKind} {ready : Bool} {posts : List (Engine × Nat)}
    {drain : Option Nat} {eaddr : Nat} (h : s.memOk) :
    (s.launch t idx x kind ready posts drain eaddr).memOk := by
  unfold State.launch
  split
  · extract_lets due tag w f s1 r1
    have h1 : s1.memOk := .modTile (.when h .fadd)
    refine .ite ?_ (.modTile h1)
    split
    · exact .modTile h1
    · exact .segFault h1
  · exact h

theorem State.memOk.modFlight {t : Nat} {e : Engine} {idx : Nat} {f : Flight → Flight} (h : s.memOk) :
    (s.modFlight t e idx f).memOk := .of_mem h rfl

theorem State.memOk.launchHeld {t idx : Nat} {x : TIns} {ms : List Mem} {drain : Option Nat} {eaddr : Nat}
    {marks : List (Nat × Nat)} (h : s.memOk) :
    (s.launchHeld t idx x ms drain eaddr marks).memOk := by
  unfold State.launchHeld
  split
  · exact .modFlight (.launch h)
  · exact h

theorem State.memOk.launched {t idx : Nat} {x : TIns} {eaddr : Nat} (h : s.memOk) :
    (s.launched t idx x eaddr).memOk := .launch h

theorem State.memOk.setVflags {t fl : Nat} (h : s.memOk) :
    (s.setVflags t fl).memOk := .pmcTile (.pmcTile (.when (.when (.when (.when (.when h .fset) .fset) .fset) .fset) .fset))

theorem State.memOk.clearVflags {t fl : Nat} (h : s.memOk) :
    (s.clearVflags t fl).memOk := .when (.when (.when (.when (.when h .fset) .fset) .fset) .fset) .fset

theorem State.memOk.onMembers {r : Run} {f : Nat → Nat → State → State} (h : s.memOk) (hf : ∀ {x y t}, t.memOk → (f x y t).memOk)
    :
    (r.onMembers f s).memOk := .forRange h hf

theorem State.memOk.vecFlags {r : Run} {f : Nat → Tile → Tile × Nat} (h : s.memOk) :
    (s.vecFlags r f).memOk := .onMembers h .setVflags

theorem State.memOk.vecWrites {r : Run} {f : Nat → Tile → Tile × Nat} (h : s.memOk) :
    (s.vecWrites r f).memOk := .onMembers h .setTile

theorem State.memOk.vecMembers {r : Run} {f : Nat → Tile → Tile × Nat} (h : s.memOk) :
    (s.vecMembers r f).memOk := .onMembers h (fun ht => .setVflags (.setTile ht))

theorem State.memOk.setSem {p key : Nat} {x : Sem} (h : s.memOk) :
    (s.setSem p key x).memOk := .ite (.setPart h) (.of_mem h)

theorem State.memOk.sendSig {p : Nat} {g : SemSig} (h : s.memOk) :
    (s.sendSig p g).memOk := .of_mem h rfl

theorem State.memOk.flightReady {t : Nat} {e : Engine} {idx : Nat} (h : s.memOk) :
    (s.flightReady t e idx).memOk := .of_mem h rfl

theorem State.memOk.sendHead {t : Nat} {e : Engine} (h : s.memOk) :
    (s.sendHead t e).memOk := by
  unfold State.sendHead
  split
  · exact h
  · split
    · split
      · exact .sendSig (.modTile h)
      · exact h
    · exact h

theorem State.memOk.completeHead {t : Nat} {e : Engine} {wait lat : Nat} (h : s.memOk) :
    (s.completeHead t e wait lat).memOk := by
  unfold State.completeHead
  split
  · exact h
  · split
    · exact h
    · rename_i f l _
      extract_lets _ r1 s1
      have h1 : s1.memOk := by
        unfold s1
        split
        · exact .onMembers h .fset
        · exact h
      refine .ite h ?_
      split
      · exact .segFault h1
      · refine .sendHead (.ite (.pmcTile ?_) ?_)
        all_goals
          split
          · exact .sampWrite (.modTile h1)
          · exact .modTile h1

theorem State.memOk.taken {t : Nat} (h : s.memOk) :
    (s.taken t).memOk := .of_mem h rfl

/-! ### PassOps.lean -/

theorem State.memOk.passTensor {r : Reach} {t : Ten} {f : Nat → Nat → Rescaled} (h : s.memOk) :
    (s.passTensor r t f).2.2.2.memOk := by
  unfold State.passTensor
  refine .foldlFth h (fun ht => ?_)
  split
  · exact ht
  · split
    · rename_i heq
      exact .trd_eq heq (.loadRec ht)
    · rename_i heq
      have h1 := State.memOk.trd_eq heq (.loadRec ht)
      extract_lets pair
      have hp : pair.2.memOk := .iteSnd (.load h1) h1
      clear_value pair
      split
      · extract_lets z
        split
        · rename_i heq2
          have h3 := State.memOk.snd_eq heq2 (.storeRec hp)
          extract_lets s4
          have h4 : s4.2.memOk := .iteSnd (.store h3) h3
          exact h4
        · rename_i heq2
          exact .snd_eq heq2 (.storeRec hp)
      · exact hp

theorem State.memOk.rescaleEntry {r : Reach} {x : Slot} {i : Nat} (h : s.memOk) :
    (s.rescaleEntry r x i).2.memOk := .load h

theorem State.memOk.rescaleTensor {r : Reach} {v : Nat} (h : s.memOk) :
    (s.rescaleTensor r v).2.memOk := .iteSnd h (.iteSnd (.readDesc h) (.readDesc h))

theorem State.memOk.passEntry {p k : Nat} {x : Slot} {count : Bool} {skip : List Nat} {f : Fmt → Nat → Nat → Rescaled} {i : Nat}
    (h : s.memOk) :
    (s.passEntry p k x count skip f i).memOk := by
  unfold State.passEntry
  dsimp only
  split
  · rename_i heq
    split
    · exact .snd_eq heq (.rescaleEntry h)
    · split
      · rename_i heq1
        exact .modSlot (.snd_eq heq1 (.rescaleTensor (.snd_eq heq (.rescaleEntry h))))
      · rename_i heq1
        exact .ite (.snd_eq heq1 (.rescaleTensor (.snd_eq heq (.rescaleEntry h))))
            (.when (.ite (.passTensor (.snd_eq heq1 (.rescaleTensor (.snd_eq heq (.rescaleEntry h)))))
                (.modSlot (.passTensor (.snd_eq heq1 (.rescaleTensor (.snd_eq heq (.rescaleEntry h))))))) .modSlot)
  · rename_i heq
    exact .modSlot (.snd_eq heq (.rescaleEntry h))

theorem State.memOk.passList {p k : Nat} {x : Slot} {count : Bool} {skip : List Nat} {f : Fmt → Nat → Nat → Rescaled}
    (h : s.memOk) :
    (s.passList p k x count skip f).memOk := .forRange h .passEntry

theorem State.memOk.workNow_done {α : Type} {u : Nat} {paid : Bool} {f : State → α × State} {e : α} {t : State}
    (h : s.memOk) (hf : ∀ {t}, t.memOk → (f t).2.memOk) (he : s.workNow u paid f = .done e t) : t.memOk := by
  unfold State.workNow at he
  dsimp only at he
  split at he
  · cases he
  · split at he
    · cases he
      exact .of_mem (.chargeAll (hf (.attempt h id)))
    · cases he

theorem State.memOk.workNow_waits {α : Type} {u : Nat} {paid : Bool} {f : State → α × State} {m : List (Nat × Nat)} {t : State}
    (h : s.memOk) (he : s.workNow u paid f = .waits t m) : t.memOk := by
  unfold State.workNow at he
  dsimp only at he
  split at he
  · cases he
  · split at he
    · cases he
    · rename_i heq
      cases he
      exact .fst_eq heq (.chargeAll h)

theorem State.memOk.runPass {p k phase : Nat} {x : Slot} {f : State → State} {ends : State → Slot → Slot} (h : s.memOk)
    (hf : ∀ {t}, t.memOk → (f t).memOk) : (s.runPass p k phase x f ends).memOk := by
  unfold State.runPass
  split
  · rename_i heq
    exact .modSlot (.workNow_done h hf heq)
  · exact .haltAt (.modSlot h)
  · rename_i heq
    exact .modSlot (.workNow_waits h heq)

theorem State.memOk.discardPass {p k : Nat} (h : s.memOk) :
    (s.discardPass p k).memOk := by
  unfold State.discardPass
  split
  · exact .runPass h .passList
  · exact h

theorem State.memOk.pgApply {r : Reach} {p k n fmt : Nat} {x : Slot} {d : Desc} (h : s.memOk) :
    (s.pgApply r p k n fmt x d).memOk := by
  unfold State.pgApply
  extract_lets f w0 s1 t rec0
  have h1 : s1.memOk := .store (.load h)
  split
  rename_i heq
  exact .modSlot (.fth_eq heq (.passTensor h1))

theorem State.memOk.pgChoose {p k n : Nat} (h : s.memOk) :
    (s.pgChoose p k n).2.memOk := by
  unfold State.pgChoose
  split
  · exact h
  · exact .iteSnd (.modSlot (.readDesc h)) (.iteSnd (.modSlot (.readDesc h)) (.pgApply (.readDesc h)))

theorem State.memOk.pgAll {p k : Nat} {x : Slot} (h : s.memOk) :
    (s.pgAll p k x).2.memOk := .foldlSnd h .pgChoose

theorem State.memOk.rescaleWork {p k : Nat} {x : Slot} (h : s.memOk) :
    (s.rescaleWork p k x).memOk := .passList (.pgAll h)

theorem State.memOk.rescalePass {p k : Nat} (h : s.memOk) :
    (s.rescalePass p k).memOk := by
  unfold State.rescalePass
  split
  · exact .runPass h .rescaleWork
  · exact h

theorem State.memOk.tiedEntry {p : Nat} {x : Slot} {g u : Nat} (h : s.memOk) :
    (s.tiedEntry p x g u).2.memOk := .load h

theorem State.memOk.tiedBuf {p : Nat} {x : Slot} {g u : Nat} (h : s.memOk) :
    (s.tiedBuf p x g u).2.2.memOk := by
  unfold State.tiedBuf
  split
  · rename_i heq
    exact .iteTrd (.readDesc (.snd_eq heq (.tiedEntry h))) (.snd_eq heq (.tiedEntry h))
  · rename_i heq
    exact .snd_eq heq (.tiedEntry h)

theorem State.memOk.tElem {r : Reach} {t : Ten} {i j : Nat} (h : s.memOk) :
    (s.tElem r t i j).2.2.memOk := by
  unfold State.tElem
  split
  · rename_i heq
    exact .trd_eq heq (.loadRow h)
  · rename_i heq
    split
    · rename_i heq1
      exact .trd_eq heq1 (.loadRec (.trd_eq heq (.loadRow h)))
    · rename_i heq1
      split
      · rename_i heq2
        exact .iteTrd (.trd_eq heq1 (.loadRec (.trd_eq heq (.loadRow h))))
            (.trd_eq heq2 (.loadFawns (.trd_eq heq1 (.loadRec (.trd_eq heq (.loadRow h))))))
      · rename_i heq2
        exact .iteTrd (.trd_eq heq1 (.loadRec (.trd_eq heq (.loadRow h))))
            (.trd_eq heq2 (.loadFawns (.trd_eq heq1 (.loadRec (.trd_eq heq (.loadRow h))))))

theorem State.memOk.tPut {tile : Nat} {r : Reach} {t : Ten} {i j : Nat} {f : FF} {e4inf : Bool} {w : Res × Int} {nf : Bool}
    (h : s.memOk) :
    (s.tPut tile r t i j f e4inf w nf).2.memOk := by
  unfold State.tPut
  extract_lets b
  split
  · rename_i heq
    exact .trd_eq heq (.loadRec h)
  · rename_i heq
    have h1 := State.memOk.trd_eq heq (.loadRec h)
    exact .andThen (.andThen (.storeRow (.when h1 .setVflags)) (fun ht => .iteSnd (.storeFawns ht) ht)) .mergeBlock

theorem State.memOk.gatherElem {tile : Nat} {r : Reach} {e4inf : Bool} {dst : Ten} {bufs : List Ten} {i j : Nat} (h : s.memOk) :
    (s.gatherElem tile r e4inf dst bufs i j).2.memOk := by
  unfold State.gatherElem
  extract_lets f z
  have hz : z.2.2.memOk := by
    refine .foldlTrd h (fun ht => .iteTrd ht ?_)
    split
    · rename_i heq
      exact .setVflags (.trd_eq heq (.tElem ht))
    · rename_i heq
      exact .trd_eq heq (.tElem ht)
  exact .iteSnd (.tPut hz) hz

theorem State.memOk.gatherBufs {p : Nat} {x : Slot} {g : Nat} {l : List Nat} (h : s.memOk) :
    (State.gatherBufs p x g l s).2.2.memOk := by
  induction l generalizing s with
  | nil => exact h
  | cons u l ih =>
    unfold State.gatherBufs
    split
    · rename_i heq
      exact .iteTrd (.trd_eq heq (.tiedBuf h)) (ih (.trd_eq heq (.tiedBuf h)))
    · rename_i heq
      exact .trd_eq heq (.tiedBuf h)
    · rename_i heq
      exact .trd_eq heq (.tiedBuf h)

theorem State.memOk.gatherGroup {tile : Nat} {r : Reach} {e4inf : Bool} {p : Nat} {x : Slot} {g : Nat} {live : List Nat}
    (h : s.memOk) :
    (s.gatherGroup tile r e4inf p x g live).2.memOk := by
  unfold State.gatherGroup
  split
  · rename_i heq
    split
    · exact .trd_eq heq (.gatherBufs h)
    · split
      · exact .iteSnd (.accessAll (.trd_eq heq (.gatherBufs h)) .gatherElem) (.trd_eq heq (.gatherBufs h))
      · exact .trd_eq heq (.gatherBufs h)

/-! ### TileMov.lean -/

theorem State.memOk.tThen {a : TEnd × State} {f : State → TEnd × State} (h : a.2.memOk) (hf : ∀ {t}, t.memOk → (f t).2.memOk) :
    (tThen a f).2.memOk := by
  unfold Machine.tThen
  split
  · exact hf h
  · exact h

theorem State.memOk.tAll {α : Type} {l : List α} {f : α → State → TEnd × State} (h : s.memOk)
    (hf : ∀ {x t}, t.memOk → (f x t).2.memOk) :
    (tAll l f s).2.memOk := .foldlSnd h (fun ht => .tThen ht hf)

theorem State.memOk.ldEnd {a : Ld × State} (h : a.2.memOk) :
    (ldEnd a).2.memOk := .iteSnd h h

theorem State.memOk.ldMember {rc : Reach} {t : Ten} {v : View} {o : MovOps} {u : Nat} (h : s.memOk) :
    (s.ldMember rc t v o u).2.memOk := by
  unfold State.ldMember
  extract_lets org cols row rec1 fawn
  have hrow : ∀ {i t}, t.memOk → (row i t).2.memOk := fun ht => by
    refine .iteSnd (.modTile ht) ?_
    split
    · rename_i heq
      exact .modTile (.trd_eq heq (.loadRow ht))
    · rename_i heq
      exact .trd_eq heq (.loadRow ht)
  have hrec : ∀ {b t}, t.memOk → (rec1 b t).2.memOk := fun ht => by
    refine .iteSnd ?_ (.modTile ht)
    split
    · rename_i heq
      exact .iteSnd (.trd_eq heq (.loadRec ht)) (.modTile (.trd_eq heq (.loadRec ht)))
    · rename_i heq
      exact .trd_eq heq (.loadRec ht)
  have hfawn : ∀ {i t}, t.memOk → (fawn i t).2.memOk := fun ht => by
    refine .iteSnd (.modTile ht) ?_
    split
    · rename_i heq
      exact .modTile (.trd_eq heq (.loadFawns ht))
    · rename_i heq
      exact .trd_eq heq (.loadFawns ht)
  exact .iteSnd h (.tThen (.tThen (.tThen (.tAll h hrow) (fun ht => .iteSnd (.tAll ht hrec) ht))
    (fun ht => .iteSnd (.tAll ht hfawn) ht)) .pmcTile)

theorem State.memOk.stMember {rc : Reach} {t : Ten} {v : View} {o : MovOps} {u : Nat} (h : s.memOk) :
    (s.stMember rc t v o u).2.memOk :=
  .iteSnd h (.iteSnd h (.tThen (.tThen (.tThen (.tAll h (fun ht => .ldEnd (.storeRow ht)))
      (fun ht => .iteSnd (.tAll ht (fun hu => .iteSnd hu (.ldEnd (.storeFawns hu)))) ht))
          (fun ht => .iteSnd (.tAll ht (fun hu => .ldEnd (.mergeBlock hu))) ht)) .pmcTile))

theorem State.memOk.strecMember {rc : Reach} {t : Ten} {v : View} {o : MovOps} {u : Nat} (h : s.memOk) :
    (s.strecMember rc t v o u).2.memOk := .iteSnd h (.iteSnd h (.tThen (.tAll h (fun ht => .ldEnd (.storeRec ht))) .pmcTile))

theorem State.memOk.hldMember {i : Nat} {v : View} {o : MovOps} {u : Nat} (h : s.memOk) :
    (s.hldMember i v o u).2.memOk := .iteSnd h (.pmcHerd (.modTile h))

theorem State.memOk.hstMember {i : Nat} {v : View} {o : MovOps} {u : Nat} (h : s.memOk) :
    (s.hstMember i v o u).2.memOk := .iteSnd h (.iteSnd h (.pmcHerd (.setHerd h)))

theorem State.memOk.tFinish {t idx : Nat} {x : TIns} {r : Run} {eaddr : Nat} {a : TEnd × State} (h : a.2.memOk) :
    (tFinish t idx x r eaddr a).memOk := by
  unfold Machine.tFinish
  split
  · exact .launched h
  · exact .segLd h
  · exact .segFault h

theorem State.memOk.frozenStore {t idx : Nat} {x : TIns} {r : Run} (h : s.memOk) :
    (s.frozenStore t idx x r).memOk := by
  unfold State.frozenStore
  dsimp only
  split
  · split
    · exact .ite (.segFault h) (.launched (.modSlot h))
    · exact h
  · exact h

theorem State.memOk.movAll {t idx : Nat} {o : MovOps} {r : Run} {ten : Ten} {got : Map Ld}
    {f : State → Reach → Ten → View → MovOps → Nat → TEnd × State} (h : s.memOk)
        (hf : ∀ {t x y z w u}, t.memOk → (f t x y z w u).2.memOk) :
    (s.movAll t idx o r ten got f).2.memOk := .tAll h hf

theorem State.memOk.movHerd {t idx : Nat} {o : MovOps} {r : Run} {f : State → Nat → View → MovOps → Nat → TEnd × State}
    (h : s.memOk) (hf : ∀ {t x y z w}, t.memOk → (f t x y z w).2.memOk) :
    (s.movHerd t idx o r f).2.memOk := .tAll h hf

theorem State.memOk.movWork {t idx : Nat} {op : MovOp} {o : MovOps} {r : Run} {got : Map Ld} (h : s.memOk) :
    (s.movWork t idx op o r got).2.memOk := by
  unfold State.movWork
  split
  · split
    · exact .movAll h .ldMember
    · exact .movAll h .stMember
    · exact .movAll h .strecMember
    · exact .movHerd h .hldMember
    · exact .movHerd h .hstMember
  · split
    · exact h
    · exact h
    · exact h
    · exact .movHerd h .hldMember
    · exact .movHerd h .hstMember

theorem State.memOk.movHeld {t idx : Nat} {op : MovOp} {o : MovOps} {r : Run} {marks : List (Nat × Nat)} (h : s.memOk) :
    (s.movHeld t idx op o r marks).memOk := .launchHeld h

theorem State.memOk.mov {t idx : Nat} {op : MovOp} {o : MovOps} {r : Run} (h : s.memOk) :
    (s.mov t idx op o r).memOk := by
  unfold State.mov
  split
  · exact .frozenStore h
  · split
    · rename_i heq
      exact .tFinish (.workNow_done h .movWork heq)
    · exact .haltAt (.movHeld h)
    · rename_i heq
      exact .movHeld (.workNow_waits h heq)

theorem State.memOk.movLater {t idx : Nat} {op : MovOp} {o : MovOps} {r : Run} (h : s.memOk) :
    (s.movLater t idx op o r).memOk := .ite (.frozenStore h) (.movHeld h)

theorem State.memOk.issueMov {t idx : Nat} {op : MovOp} {o : MovOps} (h : s.memOk) :
    (s.issueMov t idx op o).memOk := .issueOr h .mov .movLater

theorem State.memOk.execLd {t idx : Nat} {ops : MovOps} (h : s.memOk) :
    OutOk (execLd t idx ops s) := .runIf h (.issueMov h)

theorem State.memOk.execSt {t idx : Nat} {ops : MovOps} (h : s.memOk) :
    OutOk (execSt t idx ops s) := .runIf h (.ite (.issueMov h) h)

theorem State.memOk.execStrec {t idx : Nat} {ops : MovOps} (h : s.memOk) :
    OutOk (execStrec t idx ops s) := .runIf h (.ite (.issueMov h) h)

theorem State.memOk.execHld {t idx : Nat} {ops : MovOps} (h : s.memOk) :
    OutOk (execHld t idx ops s) := .runIf h (.issueMov h)

theorem State.memOk.execHst {t idx : Nat} {ops : MovOps} (h : s.memOk) :
    OutOk (execHst t idx ops s) := .runIf h (.issueMov h)

theorem State.memOk.mmaFlags {u : Nat} {o : MmulOps} {d : MmaDone} (h : s.memOk) :
    (s.mmaFlags u o d).memOk := .when (.when (.when (.fset h) .fset) .fset) (fun ht => .fadd (.fset ht))

theorem State.memOk.mmaStats {t idx : Nat} {o : MmulOps} {p : PSlot} {m u : Nat} {r : Run} (h : s.memOk) :
    (s.mmaStats t idx o p m u r).memOk := by
  unfold State.mmaStats
  split
  · exact h
  · dsimp only
    split
    · exact .modSlot (.modTile h)
    · exact .modTile h

theorem State.memOk.mmulMember {t idx : Nat} {o : MmulOps} {p : PSlot} {r : Run} {lead : Tile} {m u : Nat} (h : s.memOk) :
    (s.mmulMember t idx o p r lead m u).memOk := .when (.mmaFlags (.setVflags (.setTile h))) .mmaStats

theorem State.memOk.mmulAccum {t idx : Nat} {o : MmulOps} {p : PSlot} {r : Run} {lead : Tile} {m u : Nat} (h : s.memOk) :
    (s.mmulAccum t idx o p r lead m u).memOk := .when (.mmaFlags (.modTile h)) .mmaStats

theorem State.memOk.mmulOut {t idx : Nat} {o : MmulOps} {r : Run} (h : s.memOk) :
    (s.mmulOut t idx o r).memOk := .vecMembers h

theorem State.memOk.mmul {t idx : Nat} {o : MmulOps} {held : Bool} {r : Run} (h : s.memOk) :
    (s.mmul t idx o held r).memOk :=
  .ite (.segFault (.onMembers h (fun ht => .when ht .fset)))
      (.ite (.segFault h) (.ite (.launchHeld (.onMembers h .mmulAccum)) (.launch (.onMembers h .mmulMember))))

theorem State.memOk.execMmul {t idx : Nat} {ops : MmulOps} (h : s.memOk) :
    OutOk (execMmul t idx ops s) := .runIf h (.ite (.issueOr h .mmul .mmul) h)

end Sys2Proof.Machine
end

section
/-!
Memory stays canonical: segments, scheduling and commit.
-/

set_option Elab.async false

namespace Sys2Proof.Machine

variable {s : State}

/-! ### TileSeg.lean -/

theorem State.memOk.pendGang {i join width : Nat} (h : s.memOk) :
    (s.pendGang i join width).memOk := .of_mem h rfl

theorem State.memOk.gangWriteEffect {i value : Nat} (h : s.memOk) :
    (gangWriteEffect i value s).memOk := .pendGang (.fset (.when h .fset))

theorem State.memOk.execGangWrite {a : Agent} {i value : Nat} (h : s.memOk) :
    OutOk (execGangWrite a i value s) := .runIf h (.writeReg h .gangWriteEffect)

theorem State.memOk.gangWidthEffect {a : Agent} {i value : Nat} (h : s.memOk) :
    (gangWidthEffect a i value s).memOk := .ite (.pendGang (.fset h)) (.badWrite h)

theorem State.memOk.execGangWidthWrite {a : Agent} {i value : Nat} (h : s.memOk) :
    OutOk (execGangWidthWrite a i value s) := .runIf h (.writeReg h .gangWidthEffect)

theorem State.memOk.execGangApply {i : Nat} (h : s.memOk) :
    OutOk (execGangApply i s) := by
  refine .runIf h ?_
  split
  · exact .ite (.fset (.fset (.fset (.setHerd h)))) h
  · exact h

theorem State.memOk.sregEffect {a : Agent} {t n value : Nat} (h : s.memOk) :
    (sregEffect a t n value s).memOk := .ite (.badWrite h) (.putSreg h)

theorem State.memOk.execSregWrite {a : Agent} {t n value : Nat} (h : s.memOk) :
    OutOk (execSregWrite a t n value s) := .runIf h (.writeReg h .sregEffect)

theorem State.memOk.numctlEffect {t value : Nat} (h : s.memOk) :
    (numctlEffect t value s).memOk := .of_mem h rfl

theorem State.memOk.execNumctlWrite {a : Agent} {t value : Nat} (h : s.memOk) :
    OutOk (execNumctlWrite a t value s) := .runIf h (.writeReg h .numctlEffect)

theorem State.memOk.progress {i : Nat} (h : s.memOk) :
    (s.progress i).memOk := .of_mem h rfl

theorem State.memOk.pushBeat {a : Agent} (h : s.memOk) :
    (s.pushBeat a).memOk := by
  unfold State.pushBeat
  split
  · exact .pmcHerd (.progress (.setCore h))
  · exact h

theorem State.memOk.pushLost {t : Nat} (h : s.memOk) :
    (s.pushLost t).memOk := .pmcHerd (.fset h)

theorem State.memOk.segqPushEffect {a : Agent} {t value : Nat} (h : s.memOk) :
    (segqPushEffect a t value s).memOk := .ite (.pushLost (.fset h)) (.ite (.pushLost h) (.pushBeat (.modTile h)))

theorem State.memOk.execSegqPush {a : Agent} {t value : Nat} (h : s.memOk) :
    OutOk (execSegqPush a t value s) := .runIf h (.when (.writeReg h .segqPushEffect) .pushLost)

theorem State.memOk.fetchWords {t : Nat} {herd : Bool} {a n : Nat} (h : s.memOk) :
    (s.fetchWords t herd a n).2.2.memOk := by
  unfold State.fetchWords
  split
  · exact .iteTrd (.pmcHerd h) (.decodeErr h)
  · split
    · rename_i heq
      exact .snd_eq heq (.load h)
    · rename_i heq
      exact .snd_eq heq (.load h)

theorem State.memOk.fetchDescs {t : Nat} {l : List Nat} (h : s.memOk) :
    (State.fetchDescs t l s).2.2.memOk := by
  induction l generalizing s with
  | nil => exact h
  | cons w l ih =>
    unfold State.fetchDescs
    split
    · rename_i heq
      have h1 := ih (.trd_eq heq (.fetchWords h))
      split
      · rename_i heq1
        exact .trd_eq heq1 h1
      · rename_i heq1
        exact .trd_eq heq1 h1
    · rename_i heq
      exact .trd_eq heq (.fetchWords h)

theorem State.memOk.dropHead {t : Nat} (h : s.memOk) :
    (s.dropHead t).memOk := .of_mem h rfl

theorem State.memOk.fetchFail {t ctx segId : Nat} {e : Ld} (h : s.memOk) :
    (s.fetchFail t ctx segId e).memOk := by
  unfold State.fetchFail
  split
  · exact .dropHead h
  · exact .tileFault (.dropHead h)
  · exact .tileFault (.dropHead h)
  · exact .segTask (.segReport (.segRecord (.dropHead h)))
  · exact .dropHead h

theorem State.memOk.fetchCheck {t : Nat} {q : SegRef} {x : Slot} {im : Image} {dws : List (List Nat)} (h : s.memOk) :
    (s.fetchCheck t q x im dws).memOk := .ite (.tileFault (.dropHead h)) (.ite (.segTask (.segRecord (.dropHead h))) (.modTile h))

theorem State.memOk.fetchImage {t : Nat} {q : SegRef} {x : Slot} (h : s.memOk) :
    (s.fetchImage t q x).memOk := by
  unfold State.fetchImage
  split
  · rename_i heq
    exact .fetchFail (.trd_eq heq (.fetchWords h))
  · rename_i heq
    split
    · exact .tileFault (.dropHead (.trd_eq heq (.fetchWords h)))
    · split
      · rename_i heq1
        exact .fetchFail (.trd_eq heq1 (.fetchWords (.trd_eq heq (.fetchWords h))))
      · rename_i heq1
        split
        · rename_i heq2
          exact .fetchFail (.trd_eq heq2 (.fetchDescs (.trd_eq heq1 (.fetchWords (.trd_eq heq (.fetchWords h))))))
        · rename_i heq2
          exact .fetchCheck (.trd_eq heq2 (.fetchDescs (.trd_eq heq1 (.fetchWords (.trd_eq heq (.fetchWords h))))))

theorem State.memOk.execSegmentFetch {t : Nat} (h : s.memOk) :
    OutOk (execSegmentFetch t s) := by
  refine .runIf h ?_
  split
  · exact .ite h (.ite (.modTile h) (.work h .fetchImage))
  · exact h

theorem State.memOk.execSegmentStart {t : Nat} (h : s.memOk) :
    OutOk (execSegmentStart t s) := by
  refine .runIf h ?_
  split
  · exact .ite h (.modTile (.dropHead (.foldl h (fun ht => .modTile (.dropAcc ht)))))
  · exact h

theorem State.memOk.countSeg {u segId : Nat} (h : s.memOk) :
    (s.countSeg u segId).memOk := .of_mem h rfl

theorem State.memOk.gatherRefused {p k status : Nat} (h : s.memOk) :
    (s.gatherRefused p k status).memOk := .taskFail (.modSlot h)

theorem State.memOk.gatherEnd {p k t : Nat} {r : Run} {e : GatherEnd} (h : s.memOk) :
    (s.gatherEnd p k t r e).memOk := by
  unfold State.gatherEnd
  split
  · exact .gatherRefused (.stopRun h)
  · split
    · exact .modRun h
    · exact .abortAndStot (.segReport (.segRecord (.stopRun h)))
    · exact .segLd h

theorem State.memOk.gatherWork {p k g t : Nat} {r : Run} (h : s.memOk) :
    (s.gatherWork p k g t r).memOk := by
  unfold State.gatherWork
  split
  · exact .ite (.work h (fun ht => .gatherEnd (.gatherGroup ht))) (.modRun h)
  · exact .modRun h

theorem State.memOk.segWork {t : Nat} {r : Run} (h : s.memOk) :
    (s.segWork t r).memOk := by
  unfold State.segWork
  split
  · exact .ite h (.gatherWork h)
  · exact h

theorem State.memOk.gatherDone {p : Nat} {r : Run} (h : s.memOk) :
    (s.gatherDone p r).memOk := by
  unfold State.gatherDone
  split
  · exact .modSlot h
  · exact h

theorem State.memOk.noteRetired {t segId : Nat} (h : s.memOk) :
    (s.noteRetired t segId).memOk := .ite (.segReport h) (.modTile h)

theorem State.memOk.retireSeg {t : Nat} {r : Run} (h : s.memOk) :
    (s.retireSeg t r).memOk := by
  unfold State.retireSeg
  dsimp only
  split
  · split
    · exact .gatherDone (.modSlot (.progress
        (.noteRetired (.modTile (.foldl (.sampEnd h) (fun ht => .pmcTile (.dropAcc (.countSeg ht))))))))
    · exact .progress (.noteRetired (.modTile (.foldl (.sampEnd h) (fun ht => .pmcTile (.dropAcc (.countSeg ht))))))
  · exact .progress (.noteRetired (.modTile (.foldl (.sampEnd h) (fun ht => .pmcTile (.dropAcc (.countSeg ht))))))

theorem State.memOk.execSegmentRetire {t : Nat} (h : s.memOk) :
    OutOk (execSegmentRetire t s) := by
  refine .runIf h ?_
  split
  · split
    · exact h
    · dsimp only
      split
      · exact .ite (.retireSeg (.segWork h)) (.segWork h)
      · exact .segWork h
  · exact h

/-! ### Sched.lean -/

theorem State.memOk.readTasks {p : Nat} {x : Slot} (h : s.memOk) :
    (s.readTasks p x).2.memOk := .foldlSnd h .loadWords

theorem State.memOk.lrWait {p k : Nat} {x : Slot} (h : s.memOk) :
    (s.lrWait p k x).memOk := .when (.setSlot h) .event

theorem State.memOk.release {p k : Nat} {x : Slot} (h : s.memOk) :
    (s.release p k x).memOk := by
  unfold State.release
  split
  · exact .event (.setSlot h)
  · exact .setSlot (.ite (.inkBind (.readTasks h)) (.readTasks h))

theorem State.memOk.execStepRelease {p slot : Nat} (h : s.memOk) :
    OutOk (execStepRelease p slot s) := by
  refine .runIf h ?_
  split
  · exact h
  · split
    · exact h
    · dsimp only
      split
      · exact .work (.setSlot (.took h)) .release
      · exact .lrWait (.setSlot (.took h))
      · exact .inkStarves (.setSlot (.took h))
      · exact .setSlot (.took h)

theorem State.memOk.takeNext {p k : Nat} {x : Slot} (h : s.memOk) :
    (s.takeNext p k x).memOk := .setSlot (.nextItem h)

theorem State.memOk.execItemDispatch {p slot : Nat} (h : s.memOk) :
    OutOk (execItemDispatch p slot s) := by
  refine .runIf h ?_
  split
  · exact h
  · exact .ite h (.work (.took h) .takeNext)

theorem State.memOk.refuseTask {p k i status : Nat} (h : s.memOk) :
    (s.refuseTask p k i status).memOk := by
  unfold State.refuseTask
  split
  · exact h
  · exact .taskFail (.setSlot h)

theorem State.memOk.taskFate {p : Nat} {x : Slot} {t : List Nat} (h : s.memOk) :
    (s.taskFate p x t).2.memOk := .iteSnd (.readDesc h) (.iteSnd (.readDesc h) (.iteSnd (.readDesc h) h))

theorem State.memOk.place {k i : Nat} {t : List Nat} {upd : Option (Nat × Nat)} {r : Nat} {l : List Nat} (h : s.memOk) :
    (s.place k i t upd r l).memOk := by
  induction l generalizing s r with
  | nil => exact h
  | cons x l ih => exact ih (.setHerd h)

theorem State.memOk.runTask {rs : List Nat} {p k i : Nat} {x : Slot} {t : List Nat} {upd : Option (Nat × Nat)} {late : Nat}
    (h : s.memOk) :
    (s.runTask rs p k i x t upd late).memOk := by
  unfold State.runTask
  split
  · exact h
  · exact .fadd (.place (.setSlot h))

theorem State.memOk.frozenTask {p k i : Nat} {x : Slot} (h : s.memOk) :
    (s.frozenTask p k i x).memOk := .when (.setSlot h) .jobFault

theorem State.memOk.dispatch {p k i : Nat} {x : Slot} {t : List Nat} (h : s.memOk) :
    (s.dispatch p k i x t).memOk := by
  unfold State.dispatch
  split
  · exact .refuseTask h
  · dsimp only
    split
    · exact .refuseTask (.taskFate h)
    · exact .setSlot (.taskFate h)
    · exact .frozenTask (.taskFate h)
    · exact .runTask (.inputRanges (.taskFate h))

theorem State.memOk.execTaskDispatch {p slot task : Nat} (h : s.memOk) :
    OutOk (execTaskDispatch p slot task s) := by
  refine .runIf h ?_
  split
  · exact h
  · split
    · exact h
    · exact .ite (.work h .dispatch) h

theorem State.memOk.prefetchTask {p k task : Nat} {x : Slot} (h : s.memOk) :
    (s.prefetchTask p k task x).memOk := .ite (.when (.setSlot (.readDesc (.iteSnd h (.readTasks h)))) .prefetch) h

theorem State.memOk.execPrefetchRequest {p slot task : Nat} (h : s.memOk) :
    OutOk (execPrefetchRequest p slot task s) := by
  refine .runIf h ?_
  split
  · exact h
  · exact .ite h (.work h .prefetchTask)

theorem State.memOk.gatherPush {p k ctx g : Nat} {t : State} (h : s.memOk) (e : s.gatherPush p k ctx g = some t) : t.memOk := by
  unfold State.gatherPush at e
  dsimp only at e
  split at e
  · cases e
  · obtain ⟨_, _, rfl⟩ := Option.map_eq_some_iff.mp e
    exact .modTile (.draw h)

theorem State.memOk.gatherPushAll {p k ctx : Nat} {l : List Nat} {t : State} (h : s.memOk)
    (e : State.gatherPushAll p k ctx l s = some t) : t.memOk := by
  induction l generalizing s with
  | nil => cases e; exact h
  | cons g l ih =>
    obtain ⟨u, hu, e⟩ := Option.bind_eq_some_iff.mp e
    exact ih (.gatherPush h hu) e

theorem State.memOk.execGatherDispatch {p slot : Nat} (h : s.memOk) :
    OutOk (execGatherDispatch p slot s) := by
  refine .runIf h ?_
  split
  · exact h
  · exact .ite (.getD (fun e => .gatherPushAll (.setSlot h) e) h) h

theorem State.memOk.execUpdDispatch {p slot : Nat} (h : s.memOk) :
    OutOk (execUpdDispatch p slot s) := by
  refine .runIf h ?_
  split
  · exact h
  · exact .ite (.setSlot (.took h)) h

theorem State.memOk.updScalars {i : Nat} {u : Option (Nat × Nat)} (h : s.memOk) :
    (s.updScalars i u).memOk := by
  unfold State.updScalars
  split
  · exact h
  · exact .forRange h (fun ht => .putSreg (.putSreg ht))

theorem State.memOk.taskPopEffect {i : Nat} (h : s.memOk) :
    (taskPopEffect i s).memOk := by
  unfold Machine.taskPopEffect
  split
  · exact .answer h
  · exact .answer (.pmcHerd (.updScalars (.fset (.setHerd h))))

theorem State.memOk.execTaskPop {a : Agent} {i : Nat} (h : s.memOk) :
    OutOk (execTaskPop a i s) := .runIf h (.readReg h .taskPopEffect)

theorem State.memOk.taskDoneEffect {a : Agent} {i value : Nat} (h : s.memOk) :
    (taskDoneEffect a i value s).memOk := by
  unfold Machine.taskDoneEffect
  dsimp only
  split
  · exact .ite (.badWrite h) (.herdReports (.pmcHerd (.setHerd h)))
  · exact .badWrite h

theorem State.memOk.execTaskDone {a : Agent} {i value : Nat} (h : s.memOk) :
    OutOk (execTaskDone a i value s) := .runIf h (.writeReg h .taskDoneEffect)

theorem State.memOk.execRootKept {a : Agent} {i : Nat} (h : s.memOk) :
    OutOk (execRootKept a i s) := .runIf h (.writeReg h .fadd)

/-! ### Commit.lean -/

theorem State.memOk.skipEvents {p : Nat} {x y : Slot} {r : XchgRes} (h : s.memOk) :
    (s.skipEvents p x y r).memOk := by
  unfold State.skipEvents
  exact .when (.event h) .event

theorem State.memOk.flip {p k : Nat} {x : Slot} {r : XchgRes} {b : Nat} (h : s.memOk) :
    (s.flip p k x r b).memOk := .inkRecord (.placeAll (.inkConsume (.ite (.skipEvents (.setSlot h)) (.setSlot h))))

theorem State.memOk.execCommitFlip {p slot : Nat} (h : s.memOk) :
    OutOk (execCommitFlip p slot s) := by
  refine .runIf h ?_
  split
  · exact h
  · split
    · exact .flip (.took h)
    · exact h

theorem State.memOk.execRescalePass {p slot : Nat} (h : s.memOk) :
    OutOk (execRescalePass p slot s) := by
  refine .runIf h ?_
  split
  · exact .ite h (.ite (.rescalePass h) (.ite (.discardPass h) h))
  · exact h

theorem State.memOk.execRescalePassDone {p slot : Nat} (h : s.memOk) :
    OutOk (execRescalePassDone p slot s) := by
  refine .runIf h ?_
  split
  · exact .ite h (.ite (.setSlot h) (.ite (.setSlot h) h))
  · exact h

theorem State.memOk.abortColls {ctx : Nat} (h : s.memOk) :
    (s.abortColls ctx).memOk := .of_mem h rfl

theorem State.memOk.stopWork {p k ctx : Nat} (h : s.memOk) :
    (s.stopWork p k ctx).memOk := .abortColls (.ite (.foldl (.foldl h .abortTile) .setHerd) (.of_mem h))

theorem State.memOk.abortStep {p k : Nat} {x : Slot} {due : List StotIn} (h : s.memOk) :
    (s.abortStep p k x due).memOk := .discardPass (.modSlot (.stopWork h))

theorem State.memOk.stopJob {p k : Nat} {x : Slot} {due : List StotIn} (h : s.memOk) :
    (s.stopJob p k x due).memOk := .modSlot (.stopWork h)

theorem State.memOk.execStepAbort {p slot : Nat} (h : s.memOk) :
    OutOk (execStepAbort p slot s) := by
  refine .runIf h ?_
  split
  · exact h
  · exact .ite h (.ite (.ite (.abortStep (.took h)) h) (.ite (.stopJob (.took h)) h))

theorem State.memOk.rejoinEffect {p k : Nat} (h : s.memOk) :
    (rejoinEffect p k s).memOk := .modSlot h

theorem State.memOk.execRejoin {a : Agent} {p : Nat} (h : s.memOk) :
    OutOk (execRejoin a p s) := .runIf h (.writeCtx h .rejoinEffect)

theorem State.memOk.execRegroupExpiry {p slot : Nat} (h : s.memOk) :
    OutOk (execRegroupExpiry p slot s) := by
  refine .runIf h ?_
  split
  · exact .ite (.event (.setSlot h)) h
  · exact h

theorem State.memOk.resumeEffect {p k : Nat} (h : s.memOk) :
    (resumeEffect p k s).memOk := .modSlot h

theorem State.memOk.execResume {a : Agent} {p : Nat} (h : s.memOk) :
    OutOk (execResume a p s) := .runIf h (.writeCtx h .resumeEffect)

theorem State.memOk.execVerPin {a : Agent} {p gen : Nat} (h : s.memOk) :
    OutOk (execVerPin a p gen s) := .runIf h (.writeCtx h .modSlot)

theorem State.memOk.execVerUnpin {a : Agent} {p gen : Nat} (h : s.memOk) :
    OutOk (execVerUnpin a p gen s) := .runIf h (.writeCtx h .modSlot)

theorem State.memOk.lrWriteEffect {a : Agent} {p n value k : Nat} (h : s.memOk) :
    (lrWriteEffect a p n value k s).memOk := by
  unfold Machine.lrWriteEffect
  split
  · exact h
  · exact .ite (.badWrite h) (.setSlot h)

theorem State.memOk.execLrWrite {a : Agent} {p n value : Nat} (h : s.memOk) :
    OutOk (execLrWrite a p n value s) := .runIf h (.writeCtx h .lrWriteEffect)

/-! ### RegTab.lean -/

theorem State.memOk.pcieWrite {rp off bytes value : Nat} (h : s.memOk) :
    (s.pcieWrite rp off bytes value).memOk := .of_mem h rfl

end Sys2Proof.Machine
end

section
/-!
Memory stays canonical: contexts' operations, coherence, the fabric and collectives.
-/

set_option Elab.async false

namespace Sys2Proof.Machine

variable {s : State}

/-! ### CtxOps.lean -/

theorem State.memOk.writeRecordAt {p : Nat} {x : Slot} {faulted addr : Nat} (h : s.memOk) :
    (s.writeRecordAt p x faulted addr).memOk := .store (.of_mem (.storeWords (.foldl h .store)))

theorem State.memOk.writeRecord {p : Nat} {x : Slot} {faulted : Nat} (h : s.memOk) :
    (s.writeRecord p x faulted).memOk := .writeRecordAt h

theorem State.memOk.readRegs {addr : Nat} {x : Slot} (h : s.memOk) :
    (s.readRegs addr x).2.memOk := by
  unfold State.readRegs
  split
  · rename_i heq
    exact .snd_eq heq (.load h)
  · rename_i heq
    exact .snd_eq heq (.load h)

theorem State.memOk.readRecord {addr : Nat} {x : Slot} (h : s.memOk) :
    (s.readRecord addr x).2.memOk := by
  unfold State.readRecord
  split
  · rename_i heq
    have h1 := State.memOk.readRegs (addr := addr) (x := x) (.snd_eq heq (.load h))
    refine .iteSnd (.snd_eq heq (.load h)) ?_
    split
    · rename_i heq1
      exact .snd_eq heq1 h1
    · exact h1
  · rename_i heq
    exact .snd_eq heq (.load h)

theorem State.memOk.setCtx {c : Nat} {x : Ctx} (h : s.memOk) :
    (s.setCtx c x).memOk := .of_mem h rfl

theorem State.memOk.takeSlot {p k : Nat} {x : Slot} (h : s.memOk) :
    (s.takeSlot p k x).memOk := .of_mem h rfl

theorem State.memOk.emptySlot {p k : Nat} (h : s.memOk) :
    (s.emptySlot p k).memOk := .of_mem h rfl

theorem State.memOk.leaveSlot {p k : Nat} {x : Slot} (h : s.memOk) :
    (s.leaveSlot p k x).memOk := .setCtx (.emptySlot (.writeRecord h))

theorem State.memOk.enterSlot {p k c : Nat} (h : s.memOk) :
    (s.enterSlot p k c).2.memOk := by
  unfold State.enterSlot
  dsimp only
  split
  · rename_i heq
    exact .takeSlot (.snd_eq heq (.readRecord h))
  · rename_i heq
    exact .snd_eq heq (.readRecord h)

theorem State.memOk.recordSteps {c : Nat} {f : Nat → Nat} (h : s.memOk) :
    (s.recordSteps c f).memOk := by
  unfold State.recordSteps
  dsimp only
  split
  · rename_i heq
    exact .store (.snd_eq heq (.load h))
  · rename_i heq
    exact .snd_eq heq (.load h)

theorem State.memOk.copyOut {m : Mem} {addr n : Nat} (h : s.memOk) :
    (s.copyOut m addr n).memOk := .forRange h .store

theorem State.memOk.copyIn {addr n : Nat} (h : s.memOk) :
    (s.copyIn addr n).2.memOk := by
  unfold State.copyIn
  refine .forRangeSnd h (fun ht => ?_)
  split
  · rename_i heq
    exact .pair (.snd_eq heq (.load ht))
  · rename_i heq
    exact .pair (.draw (.snd_eq heq (.load ht)))

theorem State.memOk.copyOpen {addr n : Nat} (h : s.memOk) :
    (s.copyOpen addr n).memOk := .forRange h (fun ht => .store (.draw ht))

theorem State.memOk.saveHerd {x : Slot} {i i1 : Nat} (h : s.memOk) :
    (s.saveHerd x i i1).memOk := .copyOpen (.copyOut (.forRange h (fun ht => .copyOpen (.when ht .copyOut))))

theorem State.memOk.saveContext {p : Nat} {x : Slot} (h : s.memOk) :
    (s.saveContext p x).memOk := .asksGone (.setCtx (.foldl h .saveHerd))

theorem State.memOk.clearStatus {i : Nat} (h : s.memOk) :
    (s.clearStatus i).memOk := .of_mem h rfl

theorem State.memOk.freshHerd {x : Slot} {i : Nat} (h : s.memOk) :
    (s.freshHerd x i).memOk := .setCore (.setCore (.setHerd (.foldl (.clearStatus h) .setTile)))

theorem State.memOk.restoreHerd {x : Slot} {i i1 : Nat} {v : SavedHerd} (h : s.memOk) :
    (s.restoreHerd x i i1 v).memOk :=
  .setCore (.setCore (.setHerd (.copyIn (.forRange (.of_mem (.clearStatus h)) (fun ht => .setTile (.iteSnd (.copyIn ht) ht))))))

theorem State.memOk.restoreContext {p : Nat} {x : Slot} (h : s.memOk) :
    (s.restoreContext p x).memOk := by
  unfold State.restoreContext
  refine .foldl h (fun ht => ?_)
  split
  · exact .freshHerd ht
  · split
    · exact .restoreHerd ht
    · exact .freshHerd ht

theorem State.memOk.snapEnd {p k outcome : Nat} (h : s.memOk) :
    (s.snapEnd p k outcome).memOk := by
  unfold State.snapEnd
  split
  · exact .of_mem (.setSlot h)
  · exact h

theorem State.memOk.snapFail {p k status : Nat} (h : s.memOk) :
    (s.snapFail p k status).memOk := by
  unfold State.snapFail
  exact .event (.lifeAdd (.fadd (.modSlot (.snapEnd h))))

/-! ### Coherence.lean -/

theorem State.memOk.remoteAccess {line : Nat} {q : Txn} (h : s.memOk) :
    (s.remoteAccess line q).memOk := by
  unfold State.remoteAccess
  extract_lets wr r bad
  have hbad : ∀ {t}, t.memOk → (bad t).memOk := fun ht => .failHere (.decodeErr ht)
  split
  · refine .work h (fun ht => ?_)
    split
    · rename_i heq
      exact .snd_eq heq (.remote ht)
    · rename_i heq
      exact hbad (.snd_eq heq (.remote ht))
  · exact hbad h

theorem State.memOk.sendHome {line : Nat} {q : Txn} (h : s.memOk) :
    (s.sendHome line q).memOk := by
  unfold State.sendHome
  dsimp only
  split
  · exact .ite (.admitAt (.accept (.carry (.when h .touch)) .unitEvent) .unitEvent) (.of_mem (.carry (.when h .touch)))
  · exact .ite (.admitAt (.accept (.carry h) .unitEvent) .unitEvent) (.of_mem (.carry h))

theorem State.memOk.request {line : Nat} {q : Txn} (h : s.memOk) :
    (s.request line q).memOk := by
  unfold State.request
  split
  · exact .failHere (.decodeErr h)
  · dsimp only
    split
    · exact .failHere (.fenceRefusal h)
    · split
      · exact .failHere (.linkRefusal h)
      · split
        · rename_i heq
          exact .sendHome (.snd_eq heq (.ticket h))
        · rename_i heq
          exact .snd_eq heq (.ticket h)

theorem State.memOk.requestBy {ok : Bool} {line : Nat} {q : Txn} (h : s.memOk) :
    (s.requestBy ok line q).memOk := .when h .request

theorem State.memOk.execGet {ag line writable txn part : Nat} (h : s.memOk) :
    OutOk (execGet ag line writable txn part s) :=
  .runIf h (.ite (.when h (fun ht => .ite (.answer ht) (.remoteAccess ht))) (.requestBy h))

theorem State.memOk.execClaim {hdr : CohHdr} {line : Nat} (h : s.memOk) :
    OutOk (execClaim hdr line s) := .runIf h (.ite (.when h .answer) (.requestBy h))

theorem State.memOk.execPeek {hdr : CohHdr} {line : Nat} (h : s.memOk) :
    OutOk (execPeek hdr line s) := .runIf h (.ite (.when h .remoteAccess) (.requestBy h))

theorem State.memOk.putBy {line : Nat} {q : Txn} (h : s.memOk) :
    (s.putBy line q).memOk := .ite (.when h .remoteAccess) (.requestBy h)

theorem State.memOk.execPutFull {hdr : CohHdr} {line data hint : Nat} (h : s.memOk) :
    OutOk (execPutFull hdr line data hint s) := .runIf h (.putBy h)

theorem State.memOk.execPutMasked {hdr : CohHdr} {line data mask hint : Nat} (h : s.memOk) :
    OutOk (execPutMasked hdr line data mask hint s) := .runIf h (.putBy h)

theorem State.memOk.execMerge {hdr : CohHdr} {recAddr status mapAddr mapBits : Nat} (h : s.memOk) :
    OutOk (execMerge hdr recAddr status mapAddr mapBits s) := .runIf h (.requestBy h)

theorem State.memOk.execDrop {ag line dirty data : Nat} (h : s.memOk) :
    OutOk (execDrop ag line dirty data s) := by
  refine .runIf h ?_
  split
  · extract_lets w d home _ s1
    have h1 : s1.memOk := .carry (.of_mem (.uncache h))
    refine .ite h (.ite (.linkRefusal h1) ?_)
    split
    · exact .ite (.setBusy h1) (.endDrop h1)
    · exact .endDrop h1
  · exact h

theorem State.memOk.take {op : CohOp} {ag line : Nat} {f : CohMsg → State → State} (h : s.memOk)
    (hf : ∀ {x t}, t.memOk → (f x t).memOk) :
    (s.take op ag line f).memOk := by
  unfold State.take
  split
  · exact h
  · rename_i heq
    exact .admitAt (hf (.arrive h heq)) .unitEvent

theorem State.memOk.execSend {owner line req reqTxn pass : Nat} (h : s.memOk) :
    OutOk (execSend owner line req reqTxn pass s) := .runIf h (.take h .takeSend)

theorem State.memOk.execKill {ag line ret : Nat} (h : s.memOk) :
    OutOk (execKill ag line ret s) := .runIf h (.take h .takeKill)

theorem State.memOk.execSnpDone {ag line flags : Nat} (h : s.memOk) :
    OutOk (execSnpDone ag line flags s) := .runIf h (.take h (fun ht => .takeSnpDone ht .unitEvent))

theorem State.memOk.execLineHome {ag line data : Nat} (h : s.memOk) :
    OutOk (execLineHome ag line data s) := .runIf h (.take h (fun ht => .takeLineHome ht .unitEvent))

theorem State.memOk.execDone {ag line : Nat} (h : s.memOk) :
    OutOk (execDone ag line s) := .runIf h (.take h .takeDone)

theorem State.memOk.execGot {ag line : Nat} (h : s.memOk) :
    OutOk (execGot ag line s) := .runIf h (.take h (fun ht => .takeGot ht .unitEvent))

theorem State.memOk.execRedo {ag line : Nat} (h : s.memOk) :
    OutOk (execRedo ag line s) := .runIf h (.take h (fun ht => ht))

theorem State.memOk.execDropOk {ag line stale : Nat} (h : s.memOk) :
    OutOk (execDropOk ag line stale s) := .runIf h (.take h .of_mem)

theorem State.memOk.ethEnds {e status : Nat} (h : s.memOk) :
    (s.ethEnds e status).memOk := .of_mem h rfl

theorem State.memOk.engineFails {ag part status : Nat} (h : s.memOk) :
    (s.engineFails ag part status).memOk := by
  unfold State.engineFails
  split
  · split
    · exact .migFail h
    · exact h
  · split
    · exact .collFailAll h
    · split
      · exact .ethEnds h
      · split
        · exact .inkError h
        · split
          · split
            · exact .snapFail h
            · exact h
          · exact h

theorem State.memOk.agentFails {ag part why : Nat} (h : s.memOk) :
    (s.agentFails ag part why).memOk := by
  unfold State.agentFails
  split
  · exact .answer h
  · split
    · split
      · exact .segLd h
      · exact h
    · exact .engineFails h

theorem State.memOk.execFail {ag line : Nat} (h : s.memOk) :
    OutOk (execFail ag line s) := .runIf h (.take h .agentFails)

theorem State.memOk.execLine {ag line data grant dirty : Nat} (h : s.memOk) :
    OutOk (execLine ag line data grant dirty s) := .runIf h (.take h .takeLine)

theorem State.memOk.execBusyRequestServe {line : Nat} (h : s.memOk) :
    OutOk (execBusyRequestServe line s) := .runIf h (.admitAt (.serveLine h .unitEvent) .unitEvent)

/-! ### Fabric.lean -/

theorem State.memOk.badMsg {g : Nat} (h : s.memOk) :
    (s.badMsg g).memOk := .of_mem h rfl

theorem State.memOk.refuse {d : Nat} {m : AfrMsg} {status : Nat} (h : s.memOk) :
    (s.refuse d m status).memOk := by
  unfold State.refuse
  split
  · exact .sendVia h
  · exact h

theorem State.memOk.collNack {d : Nat} {m : AfrMsg} {status : Nat} (h : s.memOk) :
    (s.collNack d m status).memOk := .sendTo h

theorem State.memOk.passOn {g : Nat} {m : AfrMsg} (h : s.memOk) :
    (s.passOn g m).memOk := by
  unfold State.passOn
  split
  · exact .sendTo h
  · exact .sendVia (.badMsg h)

theorem State.memOk.deliver {g : Nat} {m : AfrMsg} (h : s.memOk) :
    (s.deliver g m).memOk := .ite (.badMsg h) (.ite (.setPort h) (.passOn (.setPort h)))

theorem State.memOk.replayStarts {g : Nat} (h : s.memOk) :
    (s.replayStarts g).memOk := .lifeAdd (.fset (.fadd (.setPort h)))

theorem State.memOk.nakFlit {g : Nat} (h : s.memOk) :
    (s.nakFlit g).memOk := .of_mem h rfl

theorem State.memOk.sendNak {g : Nat} (h : s.memOk) :
    (s.sendNak g).memOk := .when h .nakFlit

theorem State.memOk.linkHdr {g i : Nat} (h : s.memOk) :
    (s.linkHdr g i).memOk := .holdsEnd (.pump (.when (.when (.setPort h) .fset) .replayStarts))

theorem State.memOk.flitData {g f : Nat} (h : s.memOk) :
    (s.flitData g f).memOk := .idleFlit (.foldl (.bwAdd (.setPort h)) .deliver)

theorem State.memOk.flitIn {g f : Nat} (h : s.memOk) :
    (s.flitIn g f).memOk :=
  .ite (.sendNak (.fadd h)) (.ite (.linkHdr h)
      (.ite (.flitData (.linkHdr h)) (.ite (.idleFlit (.linkHdr h)) (.sendNak (.linkHdr h)))))

theorem State.memOk.execFlitReceive {port flit : Nat} (h : s.memOk) :
    OutOk (execFlitReceive port flit s) := .runIf h (.ite (.flitIn h) h)

theorem State.memOk.execReplayStart {port : Nat} (h : s.memOk) :
    OutOk (execReplayStart port s) := .runIf h (.when h .replayStarts)

theorem State.memOk.execNakRepeat {port : Nat} (h : s.memOk) :
    OutOk (execNakRepeat port s) := .runIf h (.when h .nakFlit)

theorem State.memOk.modMove {t idx : Nat} {f : Flight → Flight} (h : s.memOk) :
    (s.modMove t idx f).memOk := .of_mem h rfl

theorem State.memOk.comes {u : Nat} {q : RReq} {v : Ld} (h : s.memOk) :
    (s.comes u q v).memOk := .of_mem h rfl

theorem State.memOk.remoteAnswer {q : RReq} {data : Option Nat} (h : s.memOk) :
    (s.remoteAnswer q data).memOk := by
  unfold State.remoteAnswer
  split
  · exact .ite (.engineAnswer h) (.answer h)
  · exact .comes h
  · exact .modMove h
  · exact .modSlot h
  · exact h

theorem State.memOk.tileEnds {t idx status : Nat} (h : s.memOk) :
    (s.tileEnds t idx status).memOk := by
  unfold State.tileEnds
  split
  · exact .segTask (.segReport (.segRecord (.stopRun h)))
  · exact h

theorem State.memOk.passRefused {p k i : Nat} {q : RReq} {e : Ld} (h : s.memOk) :
    (s.passRefused p k i q e).memOk := .modSlot h

theorem State.memOk.unitFails {u status : Nat} (h : s.memOk) :
    (s.unitFails u status).memOk := by
  unfold State.unitFails
  split
  · exact .tileEnds h
  · split
    · exact .inkError h
    · split
      · split
        · exact .snapFail h
        · exact h
      · exact .ite (.ethEnds h) (.ite (.collFailAll h) h)

theorem State.memOk.remoteRefused {q : RReq} {status : Nat} (h : s.memOk) :
    (s.remoteRefused q status).memOk := by
  unfold State.remoteRefused
  extract_lets part bad s1 why
  have h1 : s1.memOk := .when h .decodeErr
  split
  · exact .ite (.ite (.tileEnds h1) (.engineFails h1)) (.agentFails h1)
  · split
    · exact .tileEnds h1
    · exact .segLd h1
    · exact h1
  · exact .passRefused h1
  · exact .ite (.unitFails h1) (.comes h1)
  · exact h1

theorem State.memOk.portRequests {g : Nat} (h : s.memOk) :
    (s.portRequests g).memOk := by
  unfold State.portRequests
  refine .sendReqs ?_
  refine .foldl h (fun ht => ?_)
  split
  · exact .remoteRefused (.of_mem ht)
  · exact ht

theorem State.memOk.lostStot {pkg : Nat} (h : s.memOk) :
    (s.lostStot pkg).memOk := by
  unfold State.lostStot
  exact .stotDeliver (.stotOriginate h)

theorem State.memOk.portDown {g : Nat} (h : s.memOk) :
    (s.portDown g).memOk := by
  unfold State.portDown
  extract_lets x st s1 s2 s3 key others again held
  have h3 : s3.memOk := .trains (.setPort (.health (.histAdd (.lifeAdd (.fadd (.fset (.fset h)))))))
  refine .ite (.foldl (.of_mem h3) (fun ht => ?_)) (.when (.portRequests (.of_mem h3)) .lostStot)
  split
  · rename_i heq
    exact .sendOn (.snd_eq heq (.outPort ht))
  · rename_i heq
    exact .snd_eq heq (.outPort ht)

theorem State.memOk.execLinkLoss {port : Nat} (h : s.memOk) :
    OutOk (execLinkLoss port s) := .runIf h (.when h .portDown)

theorem State.memOk.execAfrReplayTimeout {port : Nat} (h : s.memOk) :
    OutOk (execAfrReplayTimeout port s) := .runIf h (.when h (fun ht => .portDown (.collFailAll (.lifeAdd (.timeoutAt ht)))))

theorem State.memOk.helloIn {g : Nat} {m : AfrMsg} (h : s.memOk) :
    (s.helloIn g m).memOk := .setPort (.fset (.fset (.fset (.fset (.fset (.fset (.ite h (.trains h))))))))

theorem State.memOk.execHello {port : Nat} {msg : AfrMsg} (h : s.memOk) :
    OutOk (execHello port msg s) := .runIf h (.ite h (.ite (.badMsg h) (.ite (.fset h) (.helloIn h))))

theorem State.memOk.retrainWrite {port value : Nat} (h : s.memOk) :
    (retrainWrite port value s).memOk := .when h (fun ht => .ite (.portDown ht) (.trains ht))

theorem State.memOk.execPortRetrain {a : Agent} {port value : Nat} (h : s.memOk) :
    OutOk (execPortRetrain a port value s) := .runIf h (.writeReg h .retrainWrite)

theorem State.memOk.joinTrunk {g : Nat} (h : s.memOk) :
    (s.joinTrunk g).memOk := .of_mem h rfl

theorem State.memOk.execTrunkChange {d : Nat} (h : s.memOk) :
    OutOk (execTrunkChange d s) := .runIf h (.ite (.forRange h .joinTrunk) h)

theorem State.memOk.takeRx {g : Nat} {m : AfrMsg} (h : s.memOk) :
    (s.takeRx g m).memOk := .when h (fun ht => .idleFlit (.setPort ht))

theorem State.memOk.receive {g : Nat} {m : AfrMsg} {typ : Nat} {f : State → State} (h : s.memOk)
    (hf : ∀ {t}, t.memOk → (f t).memOk) :
    (s.receive g m typ f).memOk := .ite h (.ite (.badMsg h) (.ite (hf (.takeRx h)) (.passOn h)))

theorem State.memOk.staleDrop {g : Nat} {m : AfrMsg} (h : s.memOk) :
    (s.staleDrop g m).memOk := .ite (.collNack (.fadd h)) (.refuse (.fadd h))

theorem State.memOk.serve {d : Nat} {m : AfrMsg} {write : Bool} {f : Reach → Nat → State → Ld × Nat × List Nat × State}
    (h : s.memOk) (hf : ∀ {x y t}, t.memOk → (f x y t).2.2.2.memOk) :
    (s.serve d m write f).memOk := by
  unfold State.serve
  split
  · exact .refuse h
  · dsimp only
    split
    · split
      · rename_i heq
        exact .sendVia (.when (.fth_eq heq (hf h)) .charge)
      · rename_i heq
        exact .refuse (.fth_eq heq (hf h))
    · exact .refuse (.fenceRefusal h)
    · exact .refuse h

theorem State.memOk.fabServe {g : Nat} {m : AfrMsg} {typ : Nat} {write : Bool}
    {f : Reach → Nat → State → Ld × Nat × List Nat × State} (h : s.memOk) (hf : ∀ {x y t}, t.memOk → (f x y t).2.2.2.memOk) :
    (s.fabServe g m typ write f).memOk := .receive h (fun ht => .ite (.staleDrop ht) (.serve ht hf))

theorem State.memOk.fabRequest {g : Nat} {m : AfrMsg} {typ slots : Nat} {write : Bool}
    {f : Reach → Nat → State → Ld × Nat × List Nat × State} (h : s.memOk) (hf : ∀ {x y t}, t.memOk → (f x y t).2.2.2.memOk) :
    (s.fabRequest g m typ slots write f).memOk := .ite h (.work h (fun ht => .fabServe ht hf))

theorem State.memOk.peekLineReq {r : Reach} {a : Nat} (h : s.memOk) :
    (Machine.peekLine r a s).2.2.2.memOk := by
  unfold Machine.peekLine
  split
  rename_i heq
  exact .snd_eq heq (.loadLine h)

theorem State.memOk.putLineReq {m : AfrMsg} {r : Reach} {a : Nat} (h : s.memOk) :
    (putLineReq m r a s).2.2.2.memOk := by
  unfold Machine.putLineReq
  split
  · rename_i heq
    exact .snd_eq heq (.storeLine h)

theorem State.memOk.putMaskReq {m : AfrMsg} {r : Reach} {a : Nat} (h : s.memOk) :
    (putMaskReq m r a s).2.2.2.memOk := by
  unfold Machine.putMaskReq
  dsimp only
  split
  · exact .storeLine h
  · exact .storeMask h

theorem State.memOk.execRd {port : Nat} {msg : AfrMsg} (h : s.memOk) :
    OutOk (execRd port msg s) := .runIf h (.fabRequest h .peekLineReq)

theorem State.memOk.execWrLine {port : Nat} {msg : AfrMsg} (h : s.memOk) :
    OutOk (execWrLine port msg s) := .runIf h (.fabRequest h .putLineReq)

theorem State.memOk.execWrMask {port : Nat} {msg : AfrMsg} (h : s.memOk) :
    OutOk (execWrMask port msg s) := .runIf h (.fabRequest h .putMaskReq)

theorem State.memOk.answered {tag : Nat} {ok : RReq → Bool} {f : RReq → State → State} (h : s.memOk)
    (hf : ∀ {x t}, t.memOk → (f x t).memOk) :
    (s.answered tag ok f).memOk := by
  unfold State.answered
  split
  · exact hf (.sendReqs (.of_mem h))
  · exact h

theorem State.memOk.execRdData {port : Nat} {msg : AfrMsg} (h : s.memOk) :
    OutOk (execRdData port msg s) := .runIf h (.receive h (fun ht => .answered ht .remoteAnswer))

theorem State.memOk.execWrAck {port : Nat} {msg : AfrMsg} (h : s.memOk) :
    OutOk (execWrAck port msg s) := .runIf h (.receive h (fun ht => .answered ht .remoteAnswer))

theorem State.memOk.execNack {port : Nat} {msg : AfrMsg} (h : s.memOk) :
    OutOk (execNack port msg s) := .runIf h (.receive h (fun ht => .answered (.collFailAll ht) .remoteRefused))

theorem State.memOk.execRemoteTimeout {d tag : Nat} (h : s.memOk) :
    OutOk (execRemoteTimeout d tag s) := by
  refine .runIf h ?_
  split
  · exact .remoteRefused (.timeoutAt (.sendReqs (.of_mem h)))
  · exact h

theorem State.memOk.execStot {port : Nat} {msg : AfrMsg} (h : s.memOk) :
    OutOk (execStot port msg s) := .runIf h (.receive h (fun ht => .ite (.badMsg ht) (.stotArrive ht)))

theorem State.memOk.stotCmdWrite {value : Nat} (h : s.memOk) :
    (stotCmdWrite value s).memOk := by
  unfold Machine.stotCmdWrite
  exact .stotDeliver (.stotOriginate h)

theorem State.memOk.execStotCmd {a : Agent} {d value : Nat} (h : s.memOk) :
    OutOk (execStotCmd a d value s) := .runIf h (.writeReg h .stotCmdWrite)

theorem State.memOk.epochIncWrite {d value : Nat} (h : s.memOk) :
    (epochIncWrite d value s).memOk := .ite (.of_mem h) h

theorem State.memOk.execEpochInc {a : Agent} {d value : Nat} (h : s.memOk) :
    OutOk (execEpochInc a d value s) := .runIf h (.writeReg h .epochIncWrite)

theorem State.memOk.execEpochIncrement {d : Nat} (h : s.memOk) :
    OutOk (execEpochIncrement d s) := .runIf h (.ite (.fset (.of_mem h)) h)

/-! ### Collectives.lean -/

theorem State.memOk.eachElt {f : Nat → Elt → State → Ld × Elt × State} {ps : List Elt} (h : s.memOk)
    (hf : ∀ {x y t}, t.memOk → (f x y t).2.2.memOk) :
    (eachElt f ps s).2.2.memOk := by
  unfold Machine.eachElt
  refine .foldlTrd h (fun ht => ?_)
  split
  · exact ht
  · split
    · rename_i heq
      exact .trd_eq heq (hf ht)
    · rename_i heq
      exact .trd_eq heq (hf ht)

theorem State.memOk.foldPart {r : Reach} {c : Coll} {first : Bool} {e0 : Nat} {ps : List Elt} (h : s.memOk) :
    (s.foldPart r c first e0 ps).2.2.memOk := by
  unfold State.foldPart
  refine .eachElt h (fun ht => ?_)
  extract_lets q
  split
  · rename_i heq
    exact .trd_eq heq (.tElem ht)
  · rename_i heq
    exact .trd_eq heq (.tElem ht)

theorem State.memOk.convElt {r : Reach} {c : Coll} {b : Nat} {x : Elt} (h : s.memOk) :
    (s.convElt r c b x).2.2.memOk := by
  unfold State.convElt
  split
  · rename_i heq
    exact .trd_eq heq (.loadRec h)
  · rename_i heq
    exact .trd_eq heq (.loadRec h)

theorem State.memOk.convPart {r : Reach} {c : Coll} {e0 : Nat} {ps : List Elt} (h : s.memOk) :
    (s.convPart r c e0 ps).2.2.memOk := .iteTrd h (.eachElt h .convElt)

theorem State.memOk.collPut {r : Reach} {t : Ten} {i j : Nat} {x : Elt} (h : s.memOk) :
    (s.collPut r t i j x).2.memOk := .andThen (.andThen (.storeRow h) (fun ht => .iteSnd (.storeFawns ht) ht)) .mergeBlock

theorem State.memOk.collElem {r : Reach} {c : Coll} {e : Nat} {x : Elt} (h : s.memOk) :
    (s.collElem r c e x).2.memOk := by
  unfold State.collElem
  split
  · exact .collPut h
  · split
    · exact .iteSnd (.collPut h) h
    · dsimp only
      split
      · split
        · rename_i heq
          exact .collPut (.trd_eq heq (.convElt h))
        · rename_i heq
          exact .trd_eq heq (.convElt h)
      · exact h

theorem State.memOk.writePart {r : Reach} {c : Coll} {e0 : Nat} {ps : List Elt} {recs : List (Nat × Nat)} (h : s.memOk) :
    (s.writePart r c e0 ps recs).2.memOk := .andThen (.accessAll h .collElem) (fun ht => .iteSnd (.accessAll ht .storeRec) ht)

theorem State.memOk.collCharge {d : Nat} {c : Coll} {n : Nat} (h : s.memOk) :
    (s.collCharge d c n).memOk := .modColl (.charge h)

theorem State.memOk.collSend {d : Nat} {c : Coll} {m e0 : Nat} {p : CollPart} (h : s.memOk) :
    (s.collSend d c m e0 p).memOk := by
  unfold State.collSend
  split
  · exact .ethSend (.collCharge h)
  · split
    · exact .ite (.collFail (.linkRefusal h)) (.of_mem (.carry h))
    · split
      · exact .collFail h
      · exact .foldl (.collCharge h) .sendTo

theorem State.memOk.collFinish {d : Nat} {c : Coll} {e0 : Nat} {ps : List Elt} {recs : List (Nat × Nat)} (h : s.memOk) :
    (s.collFinish d c e0 ps recs).memOk := by
  unfold State.collFinish
  split
  · rename_i heq
    exact .when (.modColl (.snd_eq heq (.writePart h))) .collSend
  · rename_i heq
    exact .collFail (.snd_eq heq (.writePart h))

theorem State.memOk.collOn {d : Nat} {c : Coll} {e0 : Nat} {ps : List Elt} {recs : List (Nat × Nat)} (h : s.memOk) :
    (s.collOn d c e0 ps recs).memOk := by
  unfold State.collOn
  split
  · exact .collSend (.modColl h)
  · split
    · split
      · rename_i heq
        exact .collFinish (.trd_eq heq (.convPart h))
      · rename_i heq
        exact .collFail (.trd_eq heq (.convPart h))
    · exact .collFinish h

theorem State.memOk.xchgHave {d : Nat} {c : Coll} {e0 : Nat} {ws : List Nat} (h : s.memOk) :
    (s.xchgHave d c e0 ws).memOk := .when (.modColl h) .collSend

theorem State.memOk.xchgOn {d : Nat} {c : Coll} {e0 : Nat} {ws : List Nat} (h : s.memOk) :
    (s.xchgOn d c e0 ws).memOk := .ite (.collSend (.modColl h)) (.xchgHave h)

theorem State.memOk.xchgTake {d : Nat} {c : Coll} {m : CollMsg} (h : s.memOk) :
    (s.xchgTake d c m).memOk := .ite (.xchgHave h) (.xchgOn h)

theorem State.memOk.collTake {d : Nat} {c : Coll} {m : CollMsg} (h : s.memOk) :
    (s.collTake d c m).memOk := by
  unfold State.collTake
  split
  · exact .collFail h
  · split
    · exact .xchgTake h
    · split
      · exact .collFinish h
      · split
        · exact .collOn h
        · dsimp only
          split
          · rename_i heq
            exact .collOn (.trd_eq heq (.foldPart h))
          · rename_i heq
            exact .collFail (.trd_eq heq (.foldPart h))

theorem State.memOk.gatherPart {r : Reach} {c : Coll} (h : s.memOk) :
    (s.gatherPart r c).2.2.2.memOk := by
  unfold State.gatherPart
  refine .foldlTrd (.pair2 ?_) (fun ht => ?_)
  · refine .eachElt h (fun ht => ?_)
    dsimp only
    split
    · rename_i heq
      exact .trd_eq heq (.loadRow ht)
    · rename_i heq
      have h1 := State.memOk.trd_eq heq (.loadRow ht)
      refine .iteTrd h1 ?_
      split
      · rename_i heq1
        exact .trd_eq heq1 (.loadFawns h1)
      · rename_i heq1
        exact .trd_eq heq1 (.loadFawns h1)
  · split
    · exact ht
    · split
      · rename_i heq
        exact .trd_eq heq (.loadRec ht)
      · rename_i heq
        exact .trd_eq heq (.loadRec ht)

theorem State.memOk.collStart {d : Nat} {c : Coll} (h : s.memOk) :
    (s.collStart d c).memOk := by
  unfold State.collStart
  split
  · exact .ite (.xchgOn (.modColl h)) (.modColl h)
  · split
    · dsimp only
      split
      · rename_i heq
        exact .collOn (.fth_eq heq (.gatherPart (.modColl h)))
      · rename_i heq
        exact .collFail (.fth_eq heq (.gatherPart (.modColl h)))
    · split
      · dsimp only
        split
        · rename_i heq
          exact .collOn (.trd_eq heq (.foldPart (.modColl h)))
        · rename_i heq
          exact .collFail (.trd_eq heq (.foldPart (.modColl h)))
      · exact .modColl h

theorem State.memOk.readNear {d : Nat} {e : List Nat} {r n : Nat} (h : s.memOk) :
    (s.readNear d e r n).2.memOk := .iteSnd (.loadWords (.iteSnd h (.loadWords h))) (.iteSnd h (.loadWords h))

theorem State.memOk.collCheck {d : Nat} {c : Coll} {entry : Option (List Nat)} (h : s.memOk) :
    (s.collCheck d c entry).2.memOk := by
  unfold State.collCheck
  split
  · exact h
  · split
    · exact h
    · dsimp only
      split
      · exact h
      · split
        · exact h
        · split
          · exact h
          · split
            · rename_i heq
              exact .snd_eq heq (.readNear h)
            · rename_i heq
              exact .snd_eq heq (.readNear h)

theorem State.memOk.collReady {d : Nat} {c : Coll} (h : s.memOk) :
    (s.collReady d c).memOk := by
  unfold State.collReady
  refine .of_mem ?_
  refine .collCheck ?_
  split
  · exact .ite (.storeWords (.loadWords h)) (.loadWords h)
  · exact .loadWords h

theorem State.memOk.collNext {d g : Nat} {f : State → State} (e : s.collNext = some (d, g, f)) {t : State} (h : t.memOk) :
    (f t).memOk := by
  have hready : ∀ {i : Nat} {l : List Coll}, ((l.find? fun c => !c.ready).bind fun c =>
      if s.collFree i c.group then some (i, c.group, fun s => State.collReady s i c) else none) = some (d, g, f) → (f t).memOk :=
          by
    simp only [Option.bind_eq_some_iff, Option.ite_none_right_eq_some, Option.some.injEq, Prod.mk.injEq]
    rintro i l ⟨c, -, -, -, -, rfl⟩
    exact .collReady h
  have hstart : ∀ {i : Nat} {l : List Coll}, ((l.find? fun c => !c.started && s.collFree i c.group).map fun c =>
      (i, c.group, fun s => State.collStart s i c)) = some (d, g, f) → (f t).memOk := by
    simp only [Option.map_eq_some_iff, Prod.mk.injEq]
    rintro i l ⟨c, -, -, -, rfl⟩
    exact .collStart h
  unfold State.collNext at e
  rcases Option.or_eq_some_iff.1 e with e | ⟨-, e⟩
  · exact hready e
  rcases Option.or_eq_some_iff.1 e with e | ⟨-, e⟩
  · exact hready e
  rcases Option.or_eq_some_iff.1 e with e | ⟨-, e⟩
  · exact hstart e
  rcases Option.or_eq_some_iff.1 e with e | ⟨-, e⟩
  · exact hstart e
  obtain ⟨m, -, hm⟩ := List.exists_of_findSome?_eq_some e
  simp only [Option.map_eq_some_iff, Prod.mk.injEq] at hm
  obtain ⟨c, -, -, -, rfl⟩ := hm
  exact .collTake (.of_mem h)

theorem State.memOk.collWork {n : Nat} (h : s.memOk) :
    (State.collWork n s).memOk := by
  induction n generalizing s with
  | zero => exact h
  | succ n ih =>
    unfold State.collWork
    split
    · rename_i heq
      exact ih (.work h (.collNext heq))
    · exact h

theorem State.memOk.collGo (h : s.memOk) : s.collGo.memOk := .collWork h

theorem State.memOk.collEnter {d : Nat} {c : Coll} (h : s.memOk) :
    (s.collEnter d c).memOk := .collGo (.of_mem h)

theorem State.memOk.collAccept {t op : Nat} {o : ColOps} {r : Run} {sl : Nat × Nat} (h : s.memOk) :
    (s.collAccept t op o r sl).memOk := .collEnter h

theorem State.memOk.colIssue {t idx op : Nat} {o : ColOps} (h : s.memOk) :
    (s.colIssue t idx op o).memOk := by
  unfold State.colIssue
  split
  · exact h
  · refine .issue h (fun ht => ?_)
    split
    · exact .segFault ht
    · exact .ite (.segFault (.decodeErr ht)) (.launched (.collAccept ht))

theorem State.memOk.execAllreduce {t idx : Nat} {ops : ColOps} (h : s.memOk) :
    OutOk (execAllreduce t idx ops s) := .runIf h (.colIssue h)

theorem State.memOk.execReduceScatter {t idx : Nat} {ops : ColOps} (h : s.memOk) :
    OutOk (execReduceScatter t idx ops s) := .runIf h (.colIssue h)

theorem State.memOk.execAllgather {t idx : Nat} {ops : ColOps} (h : s.memOk) :
    OutOk (execAllgather t idx ops s) := .runIf h (.colIssue h)

theorem State.memOk.collDataIn {d port : Nat} {msg : AfrMsg} {part : CollPart} (h : s.memOk) :
    (s.collDataIn d port msg part).memOk := by
  unfold State.collDataIn
  refine .receive h (fun ht => ?_)
  split
  · exact .staleDrop ht
  · split
    · rename_i heq
      exact .ite (.of_mem (.carry (.snd_eq heq (.loadWords ht)))) (.collNack (.snd_eq heq (.loadWords ht)))
    · rename_i heq
      exact .collNack (.snd_eq heq (.loadWords ht))

theorem State.memOk.execCollData {port : Nat} {msg : AfrMsg} {part : CollPart} (h : s.memOk) :
    OutOk (execCollData port msg part s) := .runIf h (.collGo (.work h .collDataIn))

theorem State.memOk.execCollNack {port : Nat} {msg : AfrMsg} (h : s.memOk) :
    OutOk (execCollNack port msg s) := .runIf h (.receive h (fun ht => .ite (.staleDrop ht) (.collFail ht)))

theorem State.memOk.execCollTimeout {d g : Nat} (h : s.memOk) :
    OutOk (execCollTimeout d g s) := by
  refine .runIf h ?_
  split
  · exact .ite (.collFail h) h
  · exact h

theorem State.memOk.collBlocks {d : Nat} {c : Coll} (h : s.memOk) :
    (s.collBlocks d c).2.2.memOk := by
  unfold State.collBlocks
  refine .foldlSnd h (fun ht => ?_)
  split
  · rename_i heq
    exact .trd_eq heq (.loadRec ht)
  · rename_i heq
    exact .trd_eq heq (.loadRec ht)

theorem State.memOk.collCount {d : Nat} {c : Coll} (h : s.memOk) :
    (s.collCount d c).memOk := by
  unfold State.collCount
  split
  · exact h
  · split
    · split
      · exact .modSlot (.collBlocks h)
      · exact h
    · exact h

theorem State.memOk.collRecord {d : Nat} {c : Coll} (h : s.memOk) :
    (s.collRecord d c).memOk := by
  unfold State.collRecord
  split
  · rename_i heq
    exact .ite (.when (.fset (.ite (.storeWords (.snd_eq heq (.loadWords h))) (.snd_eq heq (.loadWords h)))) .fadd)
        (.setPart (.when (.fset (.ite (.storeWords (.snd_eq heq (.loadWords h))) (.snd_eq heq (.loadWords h)))) .fadd))
  · rename_i heq
    exact .ite (.when (.fset (.snd_eq heq (.loadWords h))) .fadd) (.setPart (.when (.fset (.snd_eq heq (.loadWords h))) .fadd))

theorem State.memOk.xchgEnd {c : Coll} (h : s.memOk) :
    (s.xchgEnd c).memOk := by
  unfold State.xchgEnd
  split
  · split
    · exact .modSlot h
    · exact h
  · exact h

theorem State.memOk.collOutcome {c : Coll} (h : s.memOk) :
    (s.collOutcome c).memOk := by
  unfold State.collOutcome
  split
  · exact .xchgEnd h
  · split
    · exact .segTask h
    · split
      · split
        · split
          · exact .abortAndStot h
          · exact h
        · exact h
      · exact h

theorem State.memOk.collLeaves {d : Nat} {c : Coll} (h : s.memOk) :
    (s.collLeaves d c).memOk := by
  unfold State.collLeaves
  exact .of_mem (.collRecord (.collCount h))

theorem State.memOk.execCollectiveEnd {d g : Nat} (h : s.memOk) :
    OutOk (execCollectiveEnd d g s) := by
  refine .runIf h ?_
  split
  · exact .ite (.collGo h) (.ite (.collGo (.collOutcome (.work h .collLeaves))) (.work h .collLeaves))
  · exact h

end Sys2Proof.Machine
end

section
/-!
Memory stays canonical: contexts, domains, security, counters.
-/

set_option Elab.async false

namespace Sys2Proof.Machine

variable {s : State}

/-! ### Contexts.lean -/

theorem State.memOk.tailEffect {a : Agent} {p v : Nat} (h : s.memOk) :
    (tailEffect a p v s).memOk := .ite (.badWrite h) (.refuseUnknown (.fset h))

theorem State.memOk.execCmdTailWrite {a : Agent} {p value : Nat} (h : s.memOk) :
    OutOk (execCmdTailWrite a p value s) := .runIf h (.writeReg h .tailEffect)

theorem State.memOk.execCmdNop {p : Nat} {rec : CmdRec} (h : s.memOk) :
    OutOk (execCmdNop p rec s) := .runIf h (.ite h (.ite (.complete h) (.complete (.countRefusal h))))

theorem State.memOk.jobRead {r : CmdRec} (h : s.memOk) :
    (s.jobRead r).2.memOk := by
  unfold State.jobRead
  refine .iteSnd ?_ (.iteSnd h (.draw h))
  split
  · rename_i heq
    exact .snd_eq heq (.readRecord h)
  · exact .readRecord h

theorem State.memOk.jobBegin {p : Nat} {r : CmdRec} (h : s.memOk) :
    (s.jobBegin p r).memOk := by
  unfold State.jobBegin
  split
  · rename_i heq
    split
    · exact .complete (.takeSlot (.snd_eq heq (.jobRead h)))
    · exact .complete (.setCtx (.ite (.snd_eq heq (.jobRead h)) (.writeRecord (.snd_eq heq (.jobRead h)))))
  · exact .complete (.countRefusal h)

theorem State.memOk.execJobStart {p : Nat} {rec : CmdRec} (h : s.memOk) :
    OutOk (execJobStart p rec s) := .runIf h (.command h .jobBegin)

theorem State.memOk.jobForget {p ctx : Nat} (h : s.memOk) :
    (s.jobForget p ctx).memOk := by
  unfold State.jobForget
  refine .of_mem ?_
  split
  · exact .ite (.setPart (.emptySlot (.ite (.snapFail h) h))) (.emptySlot (.ite (.snapFail h) h))
  · exact h

theorem State.memOk.execJobEnd {p : Nat} {rec : CmdRec} (h : s.memOk) :
    OutOk (execJobEnd p rec s) := .runIf h (.commandOk h .jobForget)

theorem State.memOk.runMore {p ctx count : Nat} (h : s.memOk) :
    (s.runMore p ctx count).memOk := by
  unfold State.runMore
  split
  · exact .setSlot h
  · exact .recordSteps h

theorem State.memOk.execRun {p : Nat} {rec : CmdRec} (h : s.memOk) :
    OutOk (execRun p rec s) := .runIf h (.commandOk h .runMore)

theorem State.memOk.execSwapIn {p : Nat} {rec : CmdRec} (h : s.memOk) :
    OutOk (execSwapIn p rec s) := by
  refine .runIf h (.command h (fun ht => ?_))
  split
  · rename_i heq
    exact .complete (.snd_eq heq (.enterSlot ht))
  · exact .complete (.countRefusal ht)

theorem State.memOk.execSwapOut {p : Nat} {rec : CmdRec} (h : s.memOk) :
    OutOk (execSwapOut p rec s) := by
  refine .runIf h ?_
  refine .commandOk h (fun ht => ?_)
  split
  · exact .leaveSlot ht
  · exact ht

theorem State.memOk.markReady {c : Nat} {on : Bool} (h : s.memOk) :
    (s.markReady c on).memOk := .of_mem h rfl

theorem State.memOk.execReady {p : Nat} {rec : CmdRec} (h : s.memOk) :
    OutOk (execReady p rec s) := .runIf h (.commandOk h .markReady)

theorem State.memOk.execAbort {p : Nat} {rec : CmdRec} (h : s.memOk) :
    OutOk (execAbort p rec s) := by
  refine .runIf h ?_
  refine .commandOk h (fun ht => ?_)
  split
  · exact .abortAndStot ht
  · exact ht

theorem State.memOk.execPartSet {p : Nat} {rec : CmdRec} (h : s.memOk) :
    OutOk (execPartSet p rec s) := .runIf h (.commandOk h .setPart)

theorem State.memOk.partApply {p new : Nat} (h : s.memOk) :
    (s.partApply p new).memOk := .foldl (.fset (.setPart h)) .resetDue

theorem State.memOk.execPartSetApply {p : Nat} (h : s.memOk) :
    OutOk (execPartSetApply p s) := by
  refine .runIf h ?_
  split
  · exact .ite (.partApply h) h
  · exact h

theorem State.memOk.execGroupSet {p : Nat} {rec : CmdRec} (h : s.memOk) :
    OutOk (execGroupSet p rec s) := .runIf h (.commandOk h .of_mem)

theorem State.memOk.unlessLocked {p r : Nat} {x : Slot} {f : State → State} (h : s.memOk) (hf : ∀ {t}, t.memOk → (f t).memOk) :
    (s.unlessLocked p r x f).memOk := .ite (.ite h (.fadd (.setSlot h))) (hf (.setSlot h))

theorem State.memOk.beginSwitch {p : Nat} {w : Switch} (h : s.memOk) :
    (s.beginSwitch p w).memOk := .of_mem h rfl

theorem State.memOk.autoSwapIn {p c : Nat} (h : s.memOk) :
    (s.autoSwapIn p c).memOk := by
  unfold State.autoSwapIn
  split
  · exact h
  · split
    · rename_i heq
      exact .fadd (.snd_eq heq (.enterSlot h))
    · rename_i heq
      exact .markReady (.snd_eq heq (.enterSlot h))

theorem State.memOk.swapped {p : Nat} (h : s.memOk) :
    (s.swapped p).memOk := .of_mem h rfl

theorem State.memOk.autoSwap {p c : Nat} (h : s.memOk) :
    (s.autoSwap p c).memOk := by
  unfold State.autoSwap
  split
  · exact .autoSwapIn (.swapped h)
  · split
    · exact h
    · split
      · exact h
      · exact .ite (.unlessLocked h (fun ht => .beginSwitch (.swapped ht))) (.autoSwapIn (.leaveSlot (.swapped h)))

theorem State.memOk.swapStep {p : Nat} (h : s.memOk) :
    (s.swapStep p).memOk := by
  unfold State.swapStep
  split
  · exact .ite (.autoSwap h) h
  · exact h

theorem State.memOk.idleStep {p : Nat} (h : s.memOk) :
    (s.idleStep p).memOk := by
  unfold State.idleStep
  split
  · split
    · exact .beginSwitch h
    · exact h
  · exact h

theorem State.memOk.undefer {p : Nat} (h : s.memOk) :
    (s.undefer p).memOk := by
  unfold State.undefer
  split
  · exact .modSlot h
  · exact h

theorem State.memOk.switchSteps {p : Nat} (h : s.memOk) :
    (s.switchSteps p).memOk := by
  unfold State.switchSteps
  split
  · exact .idleStep (.swapStep h)
  · split
    · exact h
    · split
      · exact .unlessLocked h .beginSwitch
      · exact .swapStep (.ite h (.undefer h))

theorem State.memOk.execContextSwitch {p : Nat} (h : s.memOk) :
    OutOk (execContextSwitch p s) := .runIf h (.ite (.switchSteps (.took h)) h)

theorem State.memOk.saveDone {p r : Nat} {x : Slot} {w : Switch} (h : s.memOk) :
    (s.saveDone p r x w).memOk := by
  unfold State.saveDone
  split
  · exact .autoSwapIn (.leaveSlot (.setPart (.saveContext h)))
  · exact .setPart (.setPart (.saveContext h))

theorem State.memOk.execContextSaveDone {p : Nat} (h : s.memOk) :
    OutOk (execContextSaveDone p s) := by
  refine .runIf h ?_
  split
  · split
    · split
      · exact .ite (.saveDone h) h
      · exact h
    · exact h
  · exact h

theorem State.memOk.execContextRestoreDone {p : Nat} (h : s.memOk) :
    OutOk (execContextRestoreDone p s) := by
  refine .runIf h ?_
  split
  · split
    · split
      · exact .ite (.setPart (.restoreContext h)) h
      · exact h
    · exact h
  · exact h

theorem State.memOk.startContext {p k : Nat} (h : s.memOk) :
    (s.startContext p k).memOk := .fadd (.modSlot (.setPart h))

theorem State.memOk.execContextStart {p : Nat} (h : s.memOk) :
    OutOk (execContextStart p s) := by
  refine .runIf h ?_
  split
  · split
    · exact .ite (.startContext (.took h)) h
    · exact h
  · exact h

theorem State.memOk.lockFault {p ctx n : Nat} (h : s.memOk) :
    (s.lockFault p ctx n).memOk := by
  unfold State.lockFault
  exact .event (.fadd (.foldl h .jobFault))

theorem State.memOk.execLockDeferExpiry {p slot : Nat} (h : s.memOk) :
    OutOk (execLockDeferExpiry p slot s) := by
  refine .runIf h ?_
  split
  · split
    · exact .ite (.lockFault (.setSlot h)) h
    · exact h
  · exact h

/-! ### Domains.lean -/

theorem State.memOk.faultStep {p k : Nat} (h : s.memOk) :
    (s.faultStep p k).memOk := by
  unfold State.faultStep
  split
  · exact .ite (.when (.modSlot (.stopWork h)) .stotOriginate) h
  · exact h

theorem State.memOk.faultRecord {p k : Nat} (h : s.memOk) :
    (s.faultRecord p k).memOk := by
  unfold State.faultRecord
  split
  · exact .writeRecord h
  · exact h

theorem State.memOk.eachSlot {f : Nat → Nat → State → State} (h : s.memOk) (hf : ∀ {x y t}, t.memOk → (f x y t).memOk) :
    (s.eachSlot f).memOk := .forRange h (fun ht => .forRange ht hf)

theorem State.memOk.takeJobFault {f : JobFault} (h : s.memOk) :
    (s.takeJobFault f).memOk := .resetDue (.eachSlot (.eachSlot (.event (.lifeAdd (.logFault h))) .faultStep) .faultRecord)

theorem State.memOk.execJobFault (h : s.memOk) :
    OutOk (execJobFault s) := by
  refine .next ?_
  split
  · exact .takeJobFault (.of_mem h)
  · exact h

theorem State.memOk.fltResetEffect {a : Agent} {value : Nat} (h : s.memOk) :
    (fltResetEffect a value s).memOk := .ite (.badWrite h) (.ite (.of_mem (.resetDue h)) (.resetDue h))

theorem State.memOk.execFltReset {a : Agent} {value : Nat} (h : s.memOk) :
    OutOk (execFltReset a value s) := .runIf h (.writeReg h .fltResetEffect)

theorem State.memOk.stopAt {t : Nat} (h : s.memOk) :
    (s.stopAt t).memOk := .foldl h .stopRun

theorem State.memOk.abortDomain {code unit : Nat} (h : s.memOk) :
    (s.abortDomain code unit).memOk := .foldl h .abortHerd

theorem State.memOk.showActive (h : s.memOk) : s.showActive.memOk := .of_mem h rfl

theorem State.memOk.fenceHomes {code unit : Nat} (h : s.memOk) :
    (s.fenceHomes code unit).memOk := by
  unfold State.fenceHomes
  split
  · exact .migFence h
  · exact .migFence (.migFence h)
  · exact h

theorem State.memOk.fenceNow {code unit : Nat} (h : s.memOk) :
    (s.fenceNow code unit).memOk := .showActive (.fenceHomes (.of_mem (.foldl (.abortDomain h) .stopAt)))

theorem State.memOk.fenceDue {code unit : Nat} (h : s.memOk) :
    (s.fenceDue code unit).memOk := .ite h (.ite (.of_mem h) (.fenceNow (.of_mem h)))

theorem State.memOk.execFence {code unit : Nat} (h : s.memOk) :
    OutOk (execFence code unit s) := .runIf h (.ite (.when (.fenceDue h) .fenceDue) h)

theorem State.memOk.clearRegs {lo hi : Nat} (h : s.memOk) :
    (s.clearRegs lo hi).memOk := .of_mem h rfl

theorem State.memOk.dissolveGang {t : Nat} (h : s.memOk) :
    (s.dissolveGang t).memOk := .fset (.fset h)

theorem State.memOk.resetTile {t : Nat} (h : s.memOk) :
    (s.resetTile t).memOk := .asksGone (.setTile (.clearRegs (.dissolveGang h)))

theorem State.memOk.resetHerd {i : Nat} (h : s.memOk) :
    (s.resetHerd i).memOk := .setCore (.setCore (.setHerd (.clearRegs (.foldl h .resetTile))))

theorem State.memOk.resetColl {d : Nat} (h : s.memOk) :
    (s.resetColl d).memOk := .asksGone (.of_mem (.clearRegs (.foldl h .collRecord)))

theorem State.memOk.poisonLine {line : Nat} (h : s.memOk) :
    (s.poisonLine line).memOk := .fset (.fadd (.poisonAt h))

theorem State.memOk.txnGone {line ag : Nat} (h : s.memOk) :
    (s.txnGone line ag).memOk := by
  unfold State.txnGone
  split
  · exact h
  · split
    · exact .setBusy h
    · exact .ite (.goTxn (.modBusy (.ite (.takeSnpDone (.setBusy h) .unitEvent) (.setBusy h))) .unitEvent)
        (.ite (.takeSnpDone (.setBusy h) .unitEvent) (.setBusy h))

theorem State.memOk.sentBy {ag : Nat} (h : s.memOk) :
    (s.sentBy ag).memOk := .foldl h (fun ht => .ite (.land ht .unitEvent) ht)

theorem State.memOk.lineGone {line : Nat} {c : CLine} (h : s.memOk) :
    (s.lineGone line c).memOk := by
  unfold State.lineGone
  split
  · rename_i heq
    exact .poisonLine (.snd_eq heq (.ownerDirty h))
  · rename_i heq
    exact .snd_eq heq (.ownerDirty h)

theorem State.memOk.sendsGone {ag : Nat} (h : s.memOk) :
    (s.sendsGone ag).memOk := .foldl h (fun ht => .modBusy (.of_mem ht))

theorem State.memOk.agentGone {ag : Nat} (h : s.memOk) :
    (s.agentGone ag).memOk :=
  .foldl (.of_mem (.foldl (.foldl (.foldl (.sendsGone (.sentBy h)) .lineGone) .poisonLine)
      (fun ht => .when (.draw ht) .poisonLine))) .txnGone

theorem State.memOk.homesGone {d : Nat} (h : s.memOk) :
    (s.homesGone d).memOk := by
  unfold State.homesGone
  refine .foldl ?_ .postFail
  refine .of_mem ?_
  refine .foldl ?_ (fun ht => .ite (.homeWrite ht) ht)
  refine .foldl (.foldl h (fun ht => .ite (.land ht .unitEvent) ht)) (fun ht => ?_)
  split
  · exact ht
  · split
    · rename_i heq
      exact .homeWrite (.ownerData (.snd_eq heq (.ownerDirty ht)))
    · rename_i heq
      exact .snd_eq heq (.ownerDirty ht)

theorem State.memOk.resetFabric {d : Nat} (h : s.memOk) :
    (s.resetFabric d).memOk := .clearRegs (.of_mem (.forRange (.homesGone h) (fun ht => .when ht .portDown)))

theorem State.memOk.abortCommand {p : Nat} (h : s.memOk) :
    (s.abortCommand p).memOk := by
  unfold State.abortCommand
  split
  · exact .ite (.complete h) h
  · exact h

theorem State.memOk.logJobFaults (h : s.memOk) : s.logJobFaults.memOk := by
  unfold State.logJobFaults
  exact .of_mem (.foldl h (fun ht => .lifeAdd (.logFault ht)))

theorem State.memOk.resetSched (h : s.memOk) : s.resetSched.memOk := by
  unfold State.resetSched
  refine .asksGone (.of_mem (s := State.eachSlot _ _) ?_)
  refine .eachSlot (.forRange (.logJobFaults h) .abortCommand) (fun ht => ?_)
  split
  · exact .ite (.snapFail ht) ht
  · exact ht

theorem State.memOk.packageReset : s.packageReset.memOk := by
  unfold State.packageReset
  exact .of_mem reset_memOk

theorem State.memOk.beginReset {code unit : Nat} (h : s.memOk) :
    (s.beginReset code unit).memOk := by
  unfold State.beginReset
  split
  · exact .resetTile (.foldl h .agentGone)
  · exact .resetHerd (.foldl h .agentGone)
  · exact .resetColl (.foldl (.foldl h .agentGone) .resetHerd)
  · exact .resetFabric (.resetColl (.foldl (.foldl h .agentGone) .resetHerd))
  · exact .resetSched (.resetColl (.resetColl (.foldl (.foldl h .agentGone) .resetHerd)))
  · exact .packageReset

theorem State.memOk.domPhase {code unit phase : Nat} (h : s.memOk) :
    (s.domPhase code unit phase).memOk := .of_mem h rfl

theorem State.memOk.execDrainEnd {code unit : Nat} (h : s.memOk) :
    OutOk (execDrainEnd code unit s) := .runIf h (.ite (.domPhase (.beginReset h)) h)

theorem State.memOk.countReset {code unit : Nat} (h : s.memOk) :
    (s.countReset code unit).memOk :=
  .ite (.of_mem (.ite (.histAdd (.ite (.health (.lifeAdd (.fadd h))) (.lifeAdd (.fadd h))))
      (.ite (.health (.lifeAdd (.fadd h))) (.lifeAdd (.fadd h)))))
          (.ite (.histAdd (.ite (.health (.lifeAdd (.fadd h))) (.lifeAdd (.fadd h))))
              (.ite (.health (.lifeAdd (.fadd h))) (.lifeAdd (.fadd h))))

theorem State.memOk.enterOos (h : s.memOk) : s.enterOos.memOk :=
  .alert (.lifeAdd (.lifeTouch (.fset (.fset (.fset (.logFault h))))))

theorem State.memOk.escalate (h : s.memOk) : s.escalate.memOk := .ite (.enterOos (.fset (.of_mem h))) (.fset (.of_mem h))

theorem State.memOk.linkCheck {d : Nat} (h : s.memOk) :
    (s.linkCheck d).memOk := by
  unfold State.linkCheck
  split
  · exact .enterOos (.logFault h)
  · exact h

theorem State.memOk.execResetEnd {code unit : Nat} (h : s.memOk) :
    OutOk (execResetEnd code unit s) := by
  refine .runIf h ?_
  split
  · exact h
  · split
    · exact .linkCheck (.countReset (.domPhase h))
    · exact .escalate (.countReset (.domPhase h))
    · exact .countReset (.domPhase h)

theorem State.memOk.restartHerd {code i : Nat} (h : s.memOk) :
    (State.restartHerd code s i).memOk := by
  unfold State.restartHerd
  split
  · exact .setCore (.setCore h)
  · exact h

theorem State.memOk.execDomainRelease {code unit : Nat} (h : s.memOk) :
    OutOk (execDomainRelease code unit s) := .runIf h (.ite (.foldl (.showActive (.of_mem h)) .restartHerd) h)

theorem State.memOk.failTile {i phys t : Nat} (h : s.memOk) :
    (s.failTile i phys t).memOk := .lifeTouch (.lifeAdd (.event (.logFault (.setTile (.dissolveGang (.stopRun (.fOr h)))))))

theorem State.memOk.execTileFail {i phys : Nat} (h : s.memOk) :
    OutOk (execTileFail i phys s) := by
  refine .runIf h ?_
  split
  · exact .ite (.failTile h) h
  · exact h

theorem State.memOk.oosClearEffect {a : Agent} {value : Nat} (h : s.memOk) :
    (oosClearEffect a value s).memOk := .ite h (.ite (.lifeTouch (.showActive (.of_mem (.fset (.fset h))))) (.badWrite h))

theorem State.memOk.execOosClear {a : Agent} {value : Nat} (h : s.memOk) :
    OutOk (execOosClear a value s) := .runIf h (.writeReg h .oosClearEffect)

/-! ### Security.lean -/

theorem State.memOk.flashErase {a n : Nat} (h : s.memOk) :
    (s.flashErase a n).memOk := .of_mem h rfl

theorem State.memOk.flashPut {a n v : Nat} (h : s.memOk) :
    (s.flashPut a n v).memOk := .of_mem h rfl

theorem State.memOk.areaWrite {area : Nat} (h : s.memOk) :
    (s.areaWrite area).memOk := .flashPut (.flashPut (.flashErase h))

theorem State.memOk.persisted {area : Nat} (h : s.memOk) :
    (s.persisted area).memOk := .ite (.forRange h .fset) h

theorem State.memOk.showWait (h : s.memOk) : s.showWait.memOk := .of_mem h rfl

theorem State.memOk.execLifetimeWrite {area : Nat} (h : s.memOk) :
    OutOk (execLifetimeWrite area s) := by
  refine .runIf h ?_
  split
  · exact .ite h (.ite (.showWait h) (.fset (.fadd (.persisted (.areaWrite (.of_mem h))))))
  · exact h

theorem State.memOk.logWrite {cause : Nat} (h : s.memOk) :
    (s.logWrite cause).memOk :=
  .ite (.fset (.lifeAdd (.fset (.fset (.fset (.of_mem (.ite (.flashErase (.flashPut h)) (.flashPut h))))))))
      (.lifeAdd (.fset (.fset (.fset (.of_mem (.ite (.flashErase (.flashPut h)) (.flashPut h)))))))

theorem State.memOk.logAsk {cause : Nat} (h : s.memOk) :
    (s.logAsk cause).memOk := .ite (.showWait (.fset (.of_mem h))) (.logWrite h)

theorem State.memOk.execLogRecord (h : s.memOk) :
    OutOk (execLogRecord s) := .next (.ite (.logAsk h) h)

theorem State.memOk.flushEffect {value : Nat} (h : s.memOk) :
    (flushEffect value s).memOk := .ite (.logAsk (.lifeAdd h)) h

theorem State.memOk.execFlush {a : Agent} {value : Nat} (h : s.memOk) :
    OutOk (execFlush a value s) := .runIf h (.writeReg h .flushEffect)

theorem State.memOk.execGuardBlock (h : s.memOk) :
    OutOk (execGuardBlock s) := .next (.ite h (.showWait (.lifeAdd (.fset h))))

theorem State.memOk.execGuardRelease (h : s.memOk) :
    OutOk (execGuardRelease s) := by
  refine .next ?_
  dsimp only
  split
  · exact .ite (.showWait (.fset h)) (.logWrite (.showWait (.fset h)))
  · exact .showWait (.fset h)

theorem State.memOk.flashEffect {a : Agent} {op value : Nat} (h : s.memOk) :
    (flashEffect a op value s).memOk := .ite (.badWrite h) (.fset (.of_mem h))

theorem State.memOk.execFlashErase {a : Agent} {value : Nat} (h : s.memOk) :
    OutOk (execFlashErase a value s) := .runIf h (.writeReg h .flashEffect)

theorem State.memOk.execFlashProgram {a : Agent} {value : Nat} (h : s.memOk) :
    OutOk (execFlashProgram a value s) := .runIf h (.writeReg h .flashEffect)

theorem State.memOk.execFlashRead {a : Agent} {value : Nat} (h : s.memOk) :
    OutOk (execFlashRead a value s) := .runIf h (.writeReg h .flashEffect)

theorem State.memOk.flashEnd {result : Nat} (h : s.memOk) :
    (s.flashEnd result).memOk := .of_mem h rfl

theorem State.memOk.flashDone {value : Nat} (h : s.memOk) :
    (s.flashDone value).memOk := by
  unfold State.flashDone
  split
  · exact .flashEnd (.flashErase h)
  · split
    · rename_i heq
      exact .flashEnd (.flashPut (.snd_eq heq (.load h)))
    · rename_i heq
      exact .flashEnd (.snd_eq heq (.load h))
  · exact .flashEnd (.store h)

theorem State.memOk.flashBroken {value : Nat} (h : s.memOk) :
    (s.flashBroken value).memOk := .ite (.flashEnd h) (.flashEnd (.flashPut (.flashErase (.draw h))))

theorem State.memOk.execFlashCommandDone {result : Nat} (h : s.memOk) :
    OutOk (execFlashCommandDone result s) := by
  refine .runIf h ?_
  split
  · exact h
  · exact .ite (.flashEnd h) (.ite h (.ite (.flashBroken h) (.ite (.flashEnd h) (.flashDone h))))

theorem State.memOk.showFuses (h : s.memOk) : s.showFuses.memOk :=
  .forRange (.fset (.fset (.fset (.fset h)))) (fun ht => .forRange ht .fset)

theorem State.memOk.fuseChk {op value : Nat} (h : s.memOk) :
    (s.fuseChk op value).2.memOk := by
  unfold State.fuseChk
  split
  · split
    · exact h
    · split
      · rename_i heq
        exact .snd_eq heq (.load h)
      · rename_i heq
        exact .snd_eq heq (.load h)
  · exact h
  · exact h
  · exact h

theorem State.memOk.fuseEffect {a : Agent} {op value : Nat} (h : s.memOk) :
    (fuseEffect a op value s).memOk := .ite (.badWrite h) (.fset (.of_mem (.fuseChk h)))

theorem State.memOk.execProgramOwner {a : Agent} {value : Nat} (h : s.memOk) :
    OutOk (execProgramOwner a value s) := .runIf h (.writeReg h .fuseEffect)

theorem State.memOk.execRevoke {a : Agent} {value : Nat} (h : s.memOk) :
    OutOk (execRevoke a value s) := .runIf h (.writeReg h .fuseEffect)

theorem State.memOk.execAdvanceSvn {a : Agent} {value : Nat} (h : s.memOk) :
    OutOk (execAdvanceSvn a value s) := .runIf h (.writeReg h .fuseEffect)

theorem State.memOk.execProvision {a : Agent} {value : Nat} (h : s.memOk) :
    OutOk (execProvision a value s) := .runIf h (.writeReg h .fuseEffect)

theorem State.memOk.someBits {m : Nat} (h : s.memOk) :
    (s.someBits m).2.memOk := .of_mem h rfl

theorem State.memOk.blow {c : FuseCmd} {whole : Bool} (h : s.memOk) :
    (s.blow c whole).memOk := by
  unfold State.blow
  split
  · exact .of_mem (.iteSnd h (.someBits h))
  · exact .ite (.of_mem h) h
  · exact .ite (.of_mem h) (.of_mem (.draw h))
  · exact .ite (.of_mem (.draw (.draw h))) (.of_mem (.draw (.draw h)))

theorem State.memOk.execFuseCommandDone {result : Nat} (h : s.memOk) :
    OutOk (execFuseCommandDone result s) := by
  refine .runIf h ?_
  split
  · exact h
  · exact .showFuses (.fset (.fset (.of_mem (.ite h (.blow h)))))

theorem State.memOk.attestEffect {a : Agent} {value : Nat} (h : s.memOk) :
    (attestEffect a value s).memOk := .ite (.badWrite h) (.fset (.of_mem h))

theorem State.memOk.execAttest {a : Agent} {value : Nat} (h : s.memOk) :
    OutOk (execAttest a value s) := .runIf h (.writeReg h .attestEffect)

theorem State.memOk.attestEnd {status : Nat} (h : s.memOk) :
    (s.attestEnd status).memOk := .ite (.fset (.fset (.fset (.of_mem h)))) (.fset (.fset (.of_mem h)))

theorem State.memOk.execAttestReportDone (h : s.memOk) :
    OutOk (execAttestReportDone s) := by
  refine .next ?_
  split
  · exact h
  · dsimp only
    split
    · exact .attestEnd h
    · split
      · exact .attestEnd h
      · rename_i heq
        exact .attestEnd (.store (.snd_eq heq (.load h)))
      · rename_i heq
        exact .attestEnd (.snd_eq heq (.load h))

theorem State.memOk.startServer {c : Nat} {x : Srv} (h : s.memOk) :
    (s.startServer c x).memOk := .of_mem h rfl

theorem State.memOk.coreRelEffect {m value : Nat} (h : s.memOk) :
    (coreRelEffect m value s).memOk := .ite (.foldl (.fOr h) .startServer) (.fOr h)

theorem State.memOk.execCoreRelease {a : Agent} {m value : Nat} (h : s.memOk) :
    OutOk (execCoreRelease a m value s) := .runIf h (.writeReg h .coreRelEffect)

/-! ### Counters.lean -/

theorem State.memOk.execPmcOverflow {unit k : Nat} (h : s.memOk) :
    OutOk (execPmcOverflow unit k s) := .runIf h (.ite (.pmcWrap (.fset h)) h)

theorem State.memOk.smpRdEffect {a : Agent} {t value : Nat} (h : s.memOk) :
    (smpRdEffect a t value s).memOk := .ite (.badWrite h) (.fset (.fset h))

theorem State.memOk.execSampleConsume {a : Agent} {t value : Nat} (h : s.memOk) :
    OutOk (execSampleConsume a t value s) := .runIf h (.writeReg h .smpRdEffect)

theorem State.memOk.execBwWindowLatch (h : s.memOk) :
    OutOk (execBwWindowLatch s) := .next (.ite (.of_mem h) h)

theorem State.memOk.sense {l : List Nat} (h : s.memOk) :
    (s.sense l).memOk := .of_mem h rfl

theorem State.memOk.spend {watts : Nat} (h : s.memOk) :
    (s.spend watts).memOk := .of_mem h rfl

theorem State.memOk.execLifetimeSecond {inp : Sensors} (h : s.memOk) :
    OutOk (execLifetimeSecond inp s) :=
  .next (.fset (.spend (.histAdd (.histAdd (.histAdd (.histAdd (.histAdd (.histAdd (.lifeAdd (.sense h))))))))))

end Sys2Proof.Machine
end

section
/-!
Memory stays canonical: Ethernet, exchange, power, tile control and register files.
-/

set_option Elab.async false

namespace Sys2Proof.Machine

variable {s : State}

/-! ### Ethernet.lean -/

theorem State.memOk.ethDrop {e : Nat} (h : s.memOk) :
    (s.ethDrop e).memOk := .of_mem h rfl

theorem State.memOk.ceMark {e : Nat} {f : EthFrame} (h : s.memOk) :
    (s.ceMark e f).memOk := .ite (.when (.fadd (.fset h)) .qpSend) h

theorem State.memOk.pfcIn {e : Nat} {f : EthFrame} (h : s.memOk) :
    (s.pfcIn e f).memOk := .ite (.fset h) (.qpDrainAll (.setEth (.fset h)))

theorem State.memOk.frameIn {e : Nat} {f : EthFrame} (h : s.memOk) :
    (s.frameIn e f).memOk := by
  unfold State.frameIn
  extract_lets x y s1
  have h1 : s1.memOk := .ceMark (.setEth h)
  refine .ite (.ethDrop h) (.ite (.pfcIn h) ?_)
  split
  · exact .qpAck h1
  · exact h1

theorem State.memOk.execEthFrameRx {port : Nat} {frame : EthFrame} (h : s.memOk) :
    OutOk (execEthFrameRx port frame s) := .runIf h (.ite (.frameIn (.bwAdd h)) h)

theorem State.memOk.execEthLinkDown {port : Nat} (h : s.memOk) :
    OutOk (execEthLinkDown port s) := .runIf h (.ite (.health (.histAdd (.lifeAdd (.fset (.setEth h))))) h)

theorem State.memOk.execEthLinkUp {port : Nat} (h : s.memOk) :
    OutOk (execEthLinkUp port s) := .runIf h (.ite (.fset (.fset (.fset h))) h)

theorem State.memOk.qpContext {e q : Nat} {f : Nat → State → State} (h : s.memOk) (hf : ∀ {x t}, t.memOk → (f x t).memOk) :
    (s.qpContext e q f).memOk := by
  unfold State.qpContext
  split
  · split
    · rename_i heq
      exact hf (.snd_eq heq (.load h))
    · rename_i heq
      exact .ethDrop (.ethEnds (.snd_eq heq (.load h)))
  · exact .ethDrop h

theorem State.memOk.roceIn {e q : Nat} {f : Nat → State → State} (h : s.memOk) (hf : ∀ {x t}, t.memOk → (f x t).memOk) :
    (s.roceIn e q f).memOk := .ite (.work h (fun ht => .qpContext ht hf)) h

theorem State.memOk.collSendIn {e q : Nat} {payload : List Nat} (h : s.memOk) :
    (s.collSendIn e q payload).memOk := by
  unfold State.collSendIn
  split
  · exact .stotArrive h
  · split
    · exact .of_mem h
    · exact .setQp h

theorem State.memOk.sendServe {e q : Nat} {payload : List Nat} {c : Nat} (h : s.memOk) :
    (State.sendServe e q payload c s).memOk := .ite (.collSendIn (.qpSend h)) (.setQp (.qpSend h))

theorem State.memOk.execRoceSend {port qpn : Nat} {payload : List Nat} (h : s.memOk) :
    OutOk (execRoceSend port qpn payload s) := .runIf h (.collGo (.roceIn h .sendServe))

theorem State.memOk.roceRefuse {e q : Nat} (h : s.memOk) :
    (s.roceRefuse e q).memOk := .of_mem h rfl

theorem State.memOk.roceFails {e q : Nat} {er : Ld} (h : s.memOk) :
    (s.roceFails e q er).memOk := .of_mem h rfl

theorem State.memOk.writeServe {e q addr : Nat} {data : List Nat} {c : Nat} (h : s.memOk) :
    (State.writeServe e q addr data c s).memOk := by
  unfold State.writeServe
  split
  · exact .roceRefuse h
  · split
    · rename_i heq
      exact .qpSend (.snd_eq heq (.store h))
    · rename_i heq
      exact .roceFails (.snd_eq heq (.store h))

theorem State.memOk.execRoceWrite {port qpn addr : Nat} {data : List Nat} (h : s.memOk) :
    OutOk (execRoceWrite port qpn addr data s) := .runIf h (.roceIn h .writeServe)

theorem State.memOk.readAnswer {e q : Nat} {data : List Nat} (h : s.memOk) :
    (s.readAnswer e q data).memOk := .foldl h .qpOut

theorem State.memOk.readServe {e q addr len c : Nat} (h : s.memOk) :
    (State.readServe e q addr len c s).memOk := by
  unfold State.readServe
  split
  · exact .roceRefuse h
  · split
    · rename_i heq
      exact .readAnswer (.charge (.snd_eq heq (.load h)))
    · rename_i heq
      exact .roceFails (.snd_eq heq (.load h))

theorem State.memOk.execRoceRead {port qpn addr len : Nat} (h : s.memOk) :
    OutOk (execRoceRead port qpn addr len s) := .runIf h (.roceIn h .readServe)

theorem State.memOk.execCnpRx {port qpn : Nat} (h : s.memOk) :
    OutOk (execCnpRx port qpn s) := .runIf h (.ite h (.ite (.ethDrop h) (.ite (.fadd h) (.setQp (.fadd h)))))

theorem State.memOk.execRateRecover {port qpn : Nat} (h : s.memOk) :
    OutOk (execRateRecover port qpn s) := .runIf h (.ite (.setQp h) h)

theorem State.memOk.execRoceRetransmit {port qpn psn : Nat} (h : s.memOk) :
    OutOk (execRoceRetransmit port qpn psn s) := .runIf h (.ite (.qpDrain (.fadd (.foldl (.setQp h) .qpOut))) h)

theorem State.memOk.rootAccess {rp : Nat} {write : Bool} {a : Nat} {data : List Nat} (h : s.memOk) :
    (s.rootAccess rp write a data).memOk := by
  unfold State.rootAccess
  split
  · split
    · rename_i heq
      exact .answer (.snd_eq heq (.store h))
    · rename_i heq
      exact .answer (.snd_eq heq (.store h))
  · split
    · rename_i heq
      exact .answer (.snd_eq heq (.load h))
    · rename_i heq
      exact .answer (.snd_eq heq (.load h))

theorem State.memOk.execPcieInbound {rp : Nat} {write : Bool} {addr : Nat} {data : List Nat} (h : s.memOk) :
    OutOk (execPcieInbound rp write addr data s) := by
  refine .runIf h ?_
  split
  · exact .answer (.of_mem h)
  · split
    · exact .answer h
    · exact .work h .rootAccess

/-! ### Exchange.lean -/

theorem State.memOk.xchgIssue {p : Nat} {x : Slot} (h : s.memOk) :
    (s.xchgIssue p x).memOk := .collEnter h

theorem State.memOk.execStepComplete {p slot : Nat} (h : s.memOk) :
    OutOk (execStepComplete p slot s) := by
  refine .runIf h ?_
  split
  · exact h
  · exact .ite (.ite (.setSlot h) (.ite (.xchgIssue (.setSlot h)) h)) h

theorem State.memOk.exchangeFails {p k issued cause : Nat} {x : Slot} (h : s.memOk) :
    (s.exchangeFails p k issued cause x).memOk := by
  unfold State.exchangeFails
  exact .event (.abortAndStot (.setSlot h))

theorem State.memOk.execExchangeResult {p slot : Nat} {res : XchgRes} (h : s.memOk) :
    OutOk (execExchangeResult p slot res s) := by
  refine .runIf h ?_
  split
  · exact h
  · split
    · exact .ite (.exchangeFails h) (.setSlot h)
    · exact h

theorem State.memOk.execExchangeTimeout {p slot : Nat} (h : s.memOk) :
    OutOk (execExchangeTimeout p slot s) := by
  refine .runIf h ?_
  split
  · exact h
  · split
    · exact .ite (.exchangeFails h) h
    · exact h

/-! ### Power.lean -/

theorem State.memOk.modPwr {f : Pwr → Pwr} (h : s.memOk) :
    (s.modPwr f).memOk := .of_mem h rfl

theorem State.memOk.execResetLAssert {ns : Nat} (h : s.memOk) :
    OutOk (execResetLAssert ns s) := .runIf h (.ite h (.ite (.resetDue (.modPwr h)) (.modPwr h)))

theorem State.memOk.execResetLDeassert (h : s.memOk) :
    OutOk (execResetLDeassert s) := .next (.modPwr h)

theorem State.memOk.execPwrOkFall (h : s.memOk) :
    OutOk (execPwrOkFall s) := .next (.ite (.fenceNow (.modPwr h)) h)

theorem State.memOk.powerOn : s.powerOn.memOk := by
  unfold State.powerOn
  exact .of_mem reset_memOk

theorem State.memOk.execPwrOkRise (h : s.memOk) :
    OutOk (execPwrOkRise s) := .next (.ite h .powerOn)

theorem State.memOk.showShares (h : s.memOk) : s.showShares.memOk := .fset (.fset (.fset (.fset h)))

theorem State.memOk.thermal (h : s.memOk) : s.thermal.memOk := .showShares (.modPwr h)

theorem State.memOk.execPowerCapUpdate {avg : Nat} (h : s.memOk) :
    OutOk (execPowerCapUpdate avg s) := .runIf h (.ite (.showShares (.modPwr (.fset h))) (.fset h))

theorem State.memOk.execPowerBrake (h : s.memOk) :
    OutOk (execPowerBrake s) := .next (.showShares (.fset (.modPwr h)))

theorem State.memOk.execPwrbrkLRise (h : s.memOk) :
    OutOk (execPwrbrkLRise s) := .next (.ite (.fset (.modPwr h)) h)

theorem State.memOk.execBrakeRecovery (h : s.memOk) :
    OutOk (execBrakeRecovery s) := by
  refine .next ?_
  split
  · exact .showShares (.modPwr h)
  · exact h

theorem State.memOk.execDroopEvent {rail depth : Nat} (h : s.memOk) :
    OutOk (execDroopEvent rail depth s) := .runIf h (.ite h (.health (.histAdd (.lifeAdd (.fset (.fset (.fadd (.modPwr h))))))))

theorem State.memOk.execDroopEventEnd {rail : Nat} (h : s.memOk) :
    OutOk (execDroopEventEnd rail s) := .runIf h (.modPwr h)

theorem State.memOk.execRailFault {n : Nat} (h : s.memOk) :
    OutOk (execRailFault n s) := .runIf h (.ite h (.alert (.fOr h)))

theorem State.memOk.execRailFaultClear {n : Nat} (h : s.memOk) :
    OutOk (execRailFaultClear n s) := .runIf h (.fset h)

theorem State.memOk.execThermtrip {sensor : Nat} (h : s.memOk) :
    OutOk (execThermtrip sensor s) := .runIf h (.ite h (.alert (.fenceNow (.fset (.modPwr h)))))

theorem State.memOk.takeAddr {addr : Nat} (h : s.memOk) :
    (s.takeAddr addr).memOk := .ite h (.of_mem h)

theorem State.memOk.execSetdasa {addr : Nat} (h : s.memOk) :
    OutOk (execSetdasa addr s) := .runIf h (.takeAddr h)

theorem State.memOk.execEntdaa {addr : Nat} (h : s.memOk) :
    OutOk (execEntdaa addr s) := .runIf h (.takeAddr h)

theorem State.memOk.tapSelect {i : TapInstr} {dr : Nat} {driven : List Nat} (h : s.memOk) :
    (s.tapSelect i dr driven).memOk := .of_mem h rfl

theorem State.memOk.execBypass (h : s.memOk) :
    OutOk (execBypass s) := .next (.tapSelect h)

theorem State.memOk.execIdcode (h : s.memOk) :
    OutOk (execIdcode s) := .next (.tapSelect (.answer h))

theorem State.memOk.execSamplePreload {cells : List Nat} (h : s.memOk) :
    OutOk (execSamplePreload cells s) := .runIf h (.of_mem (.tapSelect (.draw h)))

theorem State.memOk.execExtest (h : s.memOk) :
    OutOk (execExtest s) := .next (.tapSelect (.draw h))

theorem State.memOk.execExtestPulse (h : s.memOk) :
    OutOk (execExtestPulse s) := .next (.tapSelect (.draw h))

theorem State.memOk.execExtestTrain (h : s.memOk) :
    OutOk (execExtestTrain s) := .next (.tapSelect (.draw h))

/-! ### TileCtl.lean -/

theorem State.memOk.execNop {t idx : Nat} (h : s.memOk) :
    OutOk (execNop t idx s) := .runIf h (.issue h .taken)

theorem State.memOk.vbase {t idx view sreg : Nat} {r : Run} (h : s.memOk) :
    (s.vbase t idx view sreg r).memOk := .ite (.segFault h) (.taken (.modRun h))

theorem State.memOk.execVbase {t idx view sreg : Nat} (h : s.memOk) :
    OutOk (execVbase t idx view sreg s) := .runIf h (.issue h .vbase)

theorem State.memOk.execTrap {t idx code : Nat} (h : s.memOk) :
    OutOk (execTrap t idx code s) := .runIf h (.issue h .segFault)

theorem State.memOk.writeSlot {t idx slot : Nat} {f : PSlot → PSlot} {r : Run} (h : s.memOk) :
    (s.writeSlot t idx slot f r).memOk := .of_mem h rfl

theorem State.memOk.execMspan {t idx : Nat} {ops : SpanOps} (h : s.memOk) :
    OutOk (execMspan t idx ops s) := .runIf h (.issue h .writeSlot)

theorem State.memOk.execMwin {t idx : Nat} {ops : WinOps} (h : s.memOk) :
    OutOk (execMwin t idx ops s) := .runIf h (.issue h .writeSlot)

theorem State.memOk.cwait {t idx : Nat} {eng : Engine} {n : Counts} {r : Run} (h : s.memOk) :
    (s.cwait t idx eng n r).memOk := .launched (.modTile h)

theorem State.memOk.execCwait {t idx : Nat} {eng : Engine} {n : Counts} (h : s.memOk) :
    OutOk (execCwait t idx eng n s) := .runIf h (.ite (.issue h .cwait) h)

theorem State.memOk.execCpost {t idx : Nat} {eng : Engine} {n : Counts} (h : s.memOk) :
    OutOk (execCpost t idx eng n s) := .runIf h (.issue h .launch)

theorem State.memOk.semwait {t idx : Nat} {eng : Engine} {sem n : Nat} {r : Run} (h : s.memOk) :
    (s.semwait t idx eng sem n r).memOk := .ite (.segFault h) (.setSem (.launch h))

theorem State.memOk.execSemwait {t idx : Nat} {eng : Engine} {sem n : Nat} (h : s.memOk) :
    OutOk (execSemwait t idx eng sem n s) := .runIf h (.issue h .semwait)

theorem State.memOk.execSemsig {t idx : Nat} {eng : Engine} {sem n : Nat} (h : s.memOk) :
    OutOk (execSemsig t idx eng sem n s) := .runIf h (.issue h (fun ht => .sendHead (.launch ht)))

theorem State.memOk.sigDone {g : SemSig} (h : s.memOk) :
    (s.sigDone g).memOk := by
  unfold State.sigDone
  split
  · exact .flightReady h
  · exact h

theorem State.memOk.sigApply {p : Nat} {g : SemSig} (h : s.memOk) :
    (s.sigApply p g).memOk := by
  unfold State.sigApply
  split
  · split
    · exact .ite (.segFault h) (.sigDone (.setSem h))
    · exact .ite h (.sigDone (.setSem h))
  · exact .ite h (.setSem h)
  · exact .ite h (.setSem h)

theorem State.memOk.execSemSignalApply {p : Nat} (h : s.memOk) :
    OutOk (execSemSignalApply p s) := by
  refine .runIf h ?_
  split
  · exact .sigApply (.setPart h)
  · exact h

theorem State.memOk.execSemGrant {p sem : Nat} (h : s.memOk) :
    OutOk (execSemGrant p sem s) := by
  refine .runIf h ?_
  dsimp only
  split
  · exact .ite h (.flightReady (.setSem h))
  · exact h

theorem State.memOk.semWriteEffect {p key value : Nat} (h : s.memOk) :
    (semWriteEffect p key value s).memOk := .setSem h

theorem State.memOk.execSemWrite {a : Agent} {p sem value : Nat} (h : s.memOk) :
    OutOk (execSemWrite a p sem value s) := .runIf h (.writeReg h .semWriteEffect)

theorem State.memOk.semAddAt {a : Agent} {p key off value : Nat} (h : s.memOk) :
    (semAddAt a p key off value s).memOk := .ite (.badWrite h) (.setSem h)

theorem State.memOk.semAddEffect {a : Agent} {p sem off value : Nat} (h : s.memOk) :
    (semAddEffect a p sem off value s).memOk := .semAddAt h

theorem State.memOk.execSemAdd {a : Agent} {p sem value : Nat} (h : s.memOk) :
    OutOk (execSemAdd a p sem value s) := .runIf h (.writeReg h .semAddEffect)

theorem State.memOk.summIrq {t : Nat} (h : s.memOk) :
    (s.summIrq t).memOk := by
  unfold State.summIrq
  exact .when h (fun ht => .pmcHerd (.setCore ht))

theorem State.memOk.summOpen {o : SummOps} {status value : Nat} (h : s.memOk) :
    (s.summOpen o status value).2.2.memOk := .iteTrd (.draw (.draw h)) h

theorem State.memOk.summ {t idx : Nat} {o : SummOps} {r : Run} (h : s.memOk) :
    (s.summ t idx o r).memOk := .launched (.when (.when (.modTile (.summOpen h)) (fun ht => .onMembers ht .clearVflags)) .summIrq)

theorem State.memOk.execSumm {t idx : Nat} {ops : SummOps} (h : s.memOk) :
    OutOk (execSumm t idx ops s) := .runIf h (.ite (.issue h .summ) h)

theorem State.memOk.execFlagclr {t idx flags : Nat} (h : s.memOk) :
    OutOk (execFlagclr t idx flags s) := .runIf h (.issue h (fun ht => .launched (.onMembers ht .clearVflags)))

theorem State.memOk.summPopEffect {t : Nat} (h : s.memOk) :
    (summPopEffect t s).memOk := by
  unfold Machine.summPopEffect
  split
  · exact .answer (.pmcHerd (.modTile h))
  · exact .answer h

theorem State.memOk.execSummPop {a : Agent} {t : Nat} (h : s.memOk) :
    OutOk (execSummPop a t s) := .runIf h (.readReg h .summPopEffect)

/-! ### Mmio.lean -/

theorem State.memOk.fieldPut {i : Hit} {k : Option Nat} {f : Fld} {v : Nat} (h : s.memOk) :
    (s.fieldPut i k f v).memOk := by
  unfold State.fieldPut
  split
  · exact .modSlot h
  · exact .fset h

theorem State.memOk.clearRc {i : Hit} {k : Option Nat} {m : Nat} (h : s.memOk) :
    (s.clearRc i k m).memOk := .foldl h (fun ht => .ite (.fieldPut ht) ht)

theorem State.memOk.measure {n : RegName} {w : Nat} (h : s.memOk) :
    (s.measure n w).2.memOk := .foldlSnd h .draw

theorem State.memOk.readHit {i : Hit} {k : Option Nat} {off bytes : Nat} (h : s.memOk) :
    (s.readHit i k off bytes).memOk := by
  unfold State.readHit
  split
  · exact .answer (.taskPopEffect h)
  · exact .answer (.summPopEffect h)
  · exact .answer (.clearRc (.measure h))

theorem State.memOk.offAccess {a : Agent} {wr : Bool} {x : Place32} {off bytes : Nat} {f : State → State} (h : s.memOk)
    (hf : ∀ {t}, t.memOk → (f t).memOk) :
    (s.offAccess a wr x off bytes f).memOk := by
  unfold State.offAccess
  split
  · exact .ite (.answer (.regError h)) (hf (.answer h))
  · exact .turnAway h

theorem State.memOk.regRead {a : Agent} {off bytes : Nat} (h : s.memOk) :
    (s.regRead a off bytes).memOk := by
  unfold State.regRead
  split
  · split
    · split
      · exact .badRead h
      · split
        · exact .answer h
        · split
          · exact .badRead h
          · split
            · split
              · exact .answer h
              · exact .badRead h
            · exact .readHit h
    · exact .turnAway h
  · exact .offAccess h (fun ht => .answer (.pmcTile ht))
  · exact .offAccess h (fun ht => .answer (.pmcHerd ht))
  · exact .offAccess h .answer
  · exact .offAccess h (fun ht => .answer (.draw ht))
  · exact .offAccess h (fun ht => ht)

theorem State.memOk.plainWr {i : Hit} {k : Option Nat} {w : RegWr} {keep : List Fld} (h : s.memOk) :
    (s.plainWr i k w keep).memOk := .foldl h (fun ht => .ite ht (.fieldPut ht))

theorem State.memOk.tckCtrlWr {a : Agent} {i : Hit} {w : RegWr} (h : s.memOk) :
    (s.tckCtrlWr a i w).memOk := .ite (.badWrite (.fset h)) (.ite (.ppsEnWrite (.plainWr h)) (.plainWr h))

theorem State.memOk.tckSyncWr {i : Hit} {w : RegWr} (h : s.memOk) :
    (s.tckSyncWr i w).memOk := .ite (.of_mem (.fset (.fset (.fset (.fset (.fset (.when (.plainWr h) .fadd))))))) (.plainWr h)

theorem State.memOk.stkCtrlWr {a : Agent} {i : Hit} {w : RegWr} (h : s.memOk) :
    (s.stkCtrlWr a i w).memOk := .plainWr (.when (.when h .refLockEffect) .maintEffect)

theorem State.memOk.portCtlWr {i : Hit} {w : RegWr} (h : s.memOk) :
    (s.portCtlWr i w).memOk := .retrainWrite (.ite (.ite (.portDown (.plainWr h)) (.trains (.plainWr h))) (.plainWr h))

theorem State.memOk.plcRegWr {i : Hit} {w : RegWr} (h : s.memOk) :
    (s.plcRegWr i w).memOk := .plainWr h

theorem State.memOk.inkWr {a : Agent} {i : Hit} {w : RegWr} (h : s.memOk) :
    (s.inkWr a i w).memOk :=
  .ite (.ite (.ite (.inkStart (.when (.when (.ite (.plainWr h) (.ite h (.plainWr h))) .badWrite) .inkWater)) (.badWrite h))
      (.unitGrants (.inkStop (.when (.when (.ite (.plainWr h) (.ite h (.plainWr h))) .badWrite) .inkWater))))
          (.when (.when (.ite (.plainWr h) (.ite h (.plainWr h))) .badWrite) .inkWater)

theorem State.memOk.ringWr {a : Agent} {i : Hit} {w : RegWr} (h : s.memOk) :
    (s.ringWr a i w).memOk := by
  unfold State.ringWr
  split
  · exact .badWrite h
  · split
    · exact .tailEffect h
    · exact .ite (.badWrite h) (.refuseUnknown (.plainWr h))
    · exact .plainWr h

theorem State.memOk.ctxWr {a : Agent} {i : Hit} {k : Nat} {w : RegWr} (h : s.memOk) :
    (s.ctxWr a i k w).memOk := by
  unfold State.ctxWr
  split
  · exact .when (.plainWr h) .resumeEffect
  · exact .ite (.modSlot h) (.ite (.modSlot h) (.when h .badWrite))
  · exact .ite (.plainWr h) (.lrWriteEffect h)
  · exact .when (.plainWr h) .rejoinEffect
  · exact .plainWr h

theorem State.memOk.effectWr {a : Agent} {i : Hit} {w : RegWr} {x : Nat} (h : s.memOk) :
    (s.effectWr a i w x).memOk := by
  unfold State.effectWr
  split
  · exact .tckCtrlWr h
  · exact .tckSyncWr h
  · exact .stepWrite h
  · exact .sregEffect h
  · exact .segqPushEffect h
  · exact .smpRdEffect h
  · exact .gangWriteEffect h
  · exact .gangWidthEffect h
  · exact .beatWrite h
  · exact .when h .fadd
  · exact .taskDoneEffect h
  · exact .semWriteEffect h
  · exact .semAddEffect h
  · exact .semWriteEffect h
  · exact .semAddAt h
  · exact .ringWr h
  · exact .ringWr h
  · exact .ringWr h
  · exact .ringWr h
  · exact .stkCtrlWr h
  · exact .ite (.repairEffect h) (.badWrite h)
  · exact .plcRegWr h
  · exact .portCtlWr h
  · exact .ite (.epochIncWrite (.plainWr h)) h
  · exact .stotCmdWrite h
  · exact .inkWr h
  · exact .inkWr h
  · exact .inkWr h
  · exact .inkWr h
  · exact .inkWr h
  · exact .inkWr h
  · exact .inkWr h
  · exact .inkWr h
  · exact .inkWr h
  · exact .fset h
  · exact .coreRelEffect h
  · exact .fltResetEffect h
  · exact .oosClearEffect h
  · exact .flashEffect h
  · exact .fuseEffect h
  · exact .attestEffect h
  · exact .flushEffect h
  · exact .showShares (.plainWr h)
  · exact .of_mem h
  · exact .plainWr h

theorem State.memOk.writeHit {a : Agent} {i : Hit} {k : Option Nat} {w : RegWr} (h : s.memOk) :
    (s.writeHit a i k w).memOk := by
  unfold State.writeHit
  split
  · exact h
  · split
    · exact .badWrite h
    · split
      · exact .ctxWr h
      · exact .effectWr h

theorem State.memOk.regWrite {a : Agent} {off bytes value : Nat} (h : s.memOk) :
    (s.regWrite a off bytes value).memOk := by
  unfold State.regWrite
  split
  · split
    · split
      · exact .badWrite h
      · split
        · exact .answer h
        · exact .ite (.badWrite h) (.ite (.badWrite h) (.writeHit (.answer h)))
    · exact .when (.turnAway h) .pushLost
  · exact .offAccess h (fun ht => .modTile (.pmcTile ht))
  · exact .offAccess h (fun ht => .setHerd (.pmcHerd ht))
  · exact .offAccess h .pcieWrite
  · exact .offAccess h (fun ht => ht)

theorem State.memOk.execRegisterWrite {a : Agent} {off bytes value : Nat} (h : s.memOk) :
    OutOk (execRegisterWrite a off bytes value s) := .runIf h (.regWrite h)

theorem State.memOk.execStreamEnWrite {a : Agent} {stream value : Nat} (h : s.memOk) :
    OutOk (execStreamEnWrite a stream value s) := .runIf h (.regWrite h)

theorem State.memOk.execRegisterRead {a : Agent} {off bytes : Nat} (h : s.memOk) :
    OutOk (execRegisterRead a off bytes s) := .runIf h (.regRead h)

theorem State.memOk.mgmtAnswer (h : s.memOk) : s.mgmtAnswer.memOk := .of_mem h rfl

theorem State.memOk.execMgmtRead64 {off : Nat} (h : s.memOk) :
    OutOk (execMgmtRead64 off s) := .runIf h (.mgmtAnswer (.regRead h))

theorem State.memOk.execMgmtRead32 {off : Nat} (h : s.memOk) :
    OutOk (execMgmtRead32 off s) := .runIf h (.mgmtAnswer (.regRead h))

theorem State.memOk.execMgmtWrite64 {off value : Nat} (h : s.memOk) :
    OutOk (execMgmtWrite64 off value s) := .runIf h (.mgmtAnswer (.regWrite h))

theorem State.memOk.execMgmtWrite32 {off value : Nat} (h : s.memOk) :
    OutOk (execMgmtWrite32 off value s) := .runIf h (.mgmtAnswer (.regWrite h))

theorem State.memOk.execRegacc {write : Bool} {off value : Nat} (h : s.memOk) :
    OutOk (execRegacc write off value s) := by
  refine .runIf h (.of_mem (s := if _ then _ else _) ?_)
  exact .ite (.regWrite (.of_mem h)) (.regRead (.of_mem h))

end Sys2Proof.Machine
end

section
/-!
Memory stays canonical: snapshots, start-up, the tick and the vector unit.
-/

set_option Elab.async false

namespace Sys2Proof.Machine

variable {s : State}

/-! ### Snapshot.lean -/

theorem State.memOk.snapLoad {a k : Nat} (h : s.memOk) :
    (s.snapLoad a k).2.memOk := by
  unfold State.snapLoad
  split
  · rename_i heq
    exact .snd_eq heq (.load h)
  · rename_i heq
    exact .snd_eq heq (.load h)

theorem State.memOk.snapEntry {x : Slot} {w0 w1 : Nat} (h : s.memOk) :
    (s.snapEntry x w0 w1).2.memOk := by
  unfold State.snapEntry
  split
  · exact h
  · split
    · exact h
    · split
      · dsimp only
        split
        · rename_i heq
          exact .snd_eq heq (.snapLoad h)
        · rename_i heq
          split
          · exact .snd_eq heq (.snapLoad h)
          · split <;> exact .snd_eq heq (.snapLoad h)
      · exact h

theorem State.memOk.snapList {x : Slot} {addr count : Nat} (h : s.memOk) :
    (s.snapList x addr count).2.memOk := by
  unfold State.snapList
  refine .foldlSnd h (fun ht => ?_)
  split
  · exact ht
  · split
    · rename_i heq
      have h1 := State.memOk.snd_eq heq (.snapLoad ht)
      split
      · rename_i heq1
        exact .pair (.snd_eq heq1 (.snapEntry h1))
      · exact .snapEntry h1
    · rename_i heq
      exact .pair (.snd_eq heq (.snapLoad ht))

theorem State.memOk.snapCopy {src dst n : Nat} (h : s.memOk) :
    (s.snapCopy src dst n).2.memOk := by
  unfold State.snapCopy
  split
  · rename_i heq
    exact .store (.snd_eq heq (.load h))
  · exact .load h

theorem State.memOk.stagePiece {p : Nat} {x : Slot} {q : Piece} (h : s.memOk) :
    (State.stagePiece p x q s).2.memOk := by
  unfold State.stagePiece
  exact .iteSnd h (.iteSnd (.pair (.writeRecordAt h)) (.snapCopy h))

theorem State.memOk.snapPlan {p : Nat} {x : Slot} (h : s.memOk) :
    (s.snapPlan p x).2.memOk := by
  unfold State.snapPlan
  split
  · rename_i heq
    split
    · rename_i heq1
      exact .snd_eq heq1 (.snapList (.snd_eq heq (.snapLoad h)))
    · rename_i heq1
      exact .snd_eq heq1 (.snapList (.snd_eq heq (.snapLoad h)))
  · rename_i heq
    exact .snd_eq heq (.snapLoad h)

theorem State.memOk.capture {p k : Nat} {x : Slot} (h : s.memOk) :
    (s.capture p k x).memOk := by
  unfold State.capture
  split
  · rename_i heq
    exact .snapFail (.snd_eq heq (.snapPlan h))
  · rename_i heq
    split
    · exact .snapFail (.snd_eq heq (.snapPlan h))
    · dsimp only
      split
      · rename_i heq1
        exact .snd_eq heq1 (.accessAll (.of_mem (.setSlot (.snd_eq heq (.snapPlan h)))) .stagePiece)
      · rename_i heq1
        exact .snapFail (.snd_eq heq1 (.accessAll (.of_mem (.setSlot (.snd_eq heq (.snapPlan h)))) .stagePiece))

theorem State.memOk.execSnapshotCapture {p slot : Nat} (h : s.memOk) :
    OutOk (execSnapshotCapture p slot s) := by
  refine .runIf h ?_
  split
  · exact .ite (.work h .capture) h
  · exact h

theorem State.memOk.execSnapshotStagingDone {p slot : Nat} (h : s.memOk) :
    OutOk (execSnapshotStagingDone p slot s) := .runIf h (.modSlot h)

theorem State.memOk.snapNvq {tgt : List Nat} (h : s.memOk) :
    (s.snapNvq tgt).2.memOk := .snapLoad h

theorem State.memOk.snapPut {g : SnapSt} {off src n v : Nat} (h : s.memOk) :
    (s.snapPut g off src n v).2.memOk := by
  unfold State.snapPut
  split
  · exact .store h
  · split
    · rename_i heq
      exact .iteSnd (.nvmeSend (.snd_eq heq (.snapNvq h))) (.snd_eq heq (.snapNvq h))
    · rename_i heq
      exact .snd_eq heq (.snapNvq h)

theorem State.memOk.snapFlush {g : SnapSt} (h : s.memOk) :
    (s.snapFlush g).2.memOk := by
  unfold State.snapFlush
  split
  · exact h
  · split
    · rename_i heq
      exact .nvmeSend (.snd_eq heq (.snapNvq h))
    · rename_i heq
      exact .snd_eq heq (.snapNvq h)

theorem State.memOk.snapDigests {g : SnapSt} (h : s.memOk) :
    (s.snapDigests g).2.memOk := by
  unfold State.snapDigests
  refine .foldlSnd h (fun ht => ?_)
  split
  · exact ht
  · split
    · rename_i heq
      split
      · rename_i heq1
        exact .snd_eq heq1 (.snapPut (.snd_eq heq (.load ht)))
      · rename_i heq1
        exact .snd_eq heq1 (.snapPut (.snd_eq heq (.load ht)))
    · rename_i heq
      exact .snd_eq heq (.load ht)

theorem State.memOk.snapRead {p k : Nat} {x : Slot} (h : s.memOk) :
    (s.snapRead p k x).memOk := by
  unfold State.snapRead
  split
  · exact .snapFail h
  · split
    · rename_i heq
      exact .snapFail (.snd_eq heq (.snapDigests h))
    · rename_i heq
      dsimp only
      split
      · rename_i heq1
        split
        · rename_i heq2
          exact .snd_eq heq2 (.snapFlush (.snd_eq heq1 (.snapPut (.inkFill (.setSlot (.snd_eq heq (.snapDigests h)))))))
        · rename_i heq2
          exact .snapFail (.snd_eq heq2 (.snapFlush
              (.snd_eq heq1 (.snapPut (.inkFill (.setSlot (.snd_eq heq (.snapDigests h))))))))
      · rename_i heq1
        exact .snapFail (.snd_eq heq1 (.snapPut (.inkFill (.setSlot (.snd_eq heq (.snapDigests h))))))

theorem State.memOk.execSnapshotReadDone {p slot : Nat} (h : s.memOk) :
    OutOk (execSnapshotReadDone p slot s) := by
  refine .runIf h ?_
  split
  · exact .ite (.work h .snapRead) h
  · exact h

theorem State.memOk.snapComplete {p k : Nat} {x : Slot} (h : s.memOk) :
    (s.snapComplete p k x).memOk := .fset (.lifeAdd (.fadd (.of_mem (.setSlot h))))

theorem State.memOk.snapAnchors {p k : Nat} {x : Slot} (h : s.memOk) :
    (s.snapAnchors p k x).memOk := by
  unfold State.snapAnchors
  dsimp only
  split
  · rename_i heq
    split
    · rename_i heq1
      exact .snapComplete (.snd_eq heq1 (.snapFlush (.snd_eq heq (.snapPut h))))
    · rename_i heq1
      exact .snapFail (.snd_eq heq1 (.snapFlush (.snd_eq heq (.snapPut h))))
  · rename_i heq
    exact .snapFail (.snd_eq heq (.snapPut h))

theorem State.memOk.execSnapshotAnchor {p slot : Nat} (h : s.memOk) :
    OutOk (execSnapshotAnchor p slot s) := by
  refine .runIf h ?_
  split
  · exact .ite h (.ite (.snapFail h) (.work h .snapAnchors))
  · exact h

theorem State.memOk.execSnapshot {p : Nat} {rec : CmdRec} (h : s.memOk) :
    OutOk (execSnapshot p rec s) := by
  refine .runIf h ?_
  refine .commandOk h (fun ht => ?_)
  split
  · split
    · exact .setSlot ht
    · exact ht
  · split
    · exact .setSlot ht
    · exact ht

theorem State.memOk.snapCancel {p k : Nat} {x : Slot} (h : s.memOk) :
    (s.snapCancel p k x).memOk := .ite (.setSlot h) (.ite (.snapEnd h) (.snapFail h))

theorem State.memOk.execSnapCancel {p : Nat} {rec : CmdRec} (h : s.memOk) :
    OutOk (execSnapCancel p rec s) := by
  refine .runIf h ?_
  refine .commandOk h (fun ht => ?_)
  split
  · exact .snapCancel ht
  · exact ht

/-- The definition is unfolded as a function (`hf`): compared applied, the kernel would run the access to choose the branch. -/
theorem State.memOk.beginRestore {p op : Nat} {r : CmdRec} (h : s.memOk) :
    (s.beginRestore p op r).memOk := by
  generalize hq : s.beginRestore p op r = q
  obtain ⟨f, hf⟩ : ∃ f, @State.beginRestore = f := ⟨_, rfl⟩
  rw [hf] at hq
  delta State.beginRestore at hf
  subst hf
  beta_reduce at hq
  have h1 : (s.store Reach.save (recSave r + headerOff) 8 (2 ^ 64 - 1)).2.memOk := .store h
  generalize s.store Reach.save (recSave r + headerOff) 8 (2 ^ 64 - 1) = z at h1 hq
  subst hq
  split
  · exact .startExec h1
  · exact .complete h1

theorem State.memOk.execRestore {p : Nat} {rec : CmdRec} (h : s.memOk) :
    OutOk (execRestore p rec s) := .runIf h (.command h .beginRestore)

theorem State.memOk.execRefill {p : Nat} {rec : CmdRec} (h : s.memOk) :
    OutOk (execRefill p rec s) := .runIf h (.command h .beginRestore)

theorem State.memOk.execRecord {p : Nat} {rec : CmdRec} (h : s.memOk) :
    OutOk (execRecord p rec s) := by
  refine .runIf h (.commandOk h (fun ht => .pairFst ?_))
  split
  · exact .writeRecord ht
  · exact ht

theorem State.memOk.execVerify {p : Nat} {rec : CmdRec} (h : s.memOk) :
    OutOk (execVerify p rec s) := .runIf h (.command h .startExec)

theorem State.memOk.backChunks {p : Nat} {w : List Nat} {wr : Bool} {lines : List Nat} {m digAt : Nat}
    {l : List (Piece × Nat × Nat)} {i at0 : Nat} (h : s.memOk) :
    (State.backChunks p w wr lines m digAt l i at0 s).2.memOk := by
  induction l generalizing s i at0 with
  | nil => exact h
  | cons e l ih =>
    obtain ⟨q, off, n⟩ := e
    unfold State.backChunks
    refine .iteSnd h (.iteSnd (.pair (.event (.fadd h))) (.iteSnd (ih ?_) (.pair ?_)))
    · exact .iteSnd (.store h) h
    · exact .iteSnd (.store h) h

theorem State.memOk.sigOk {r : CmdRec} {m n : Nat} (h : s.memOk) :
    (s.sigOk r m n).2.memOk := by
  unfold State.sigOk
  split
  · rename_i heq
    exact .iteSnd h (.iteSnd h (.snd_eq heq (.load h)))
  · rename_i heq
    exact .iteSnd h (.iteSnd h (.snd_eq heq (.load h)))

/-- The definition is unfolded as a function (`hf`): compared applied, the kernel would run the access to choose the branch. -/
theorem State.memOk.backRecord {w : List Nat} {save : Nat} (h : s.memOk) :
    (s.backRecord w save).2.memOk := by
  generalize hq : s.backRecord w save = q
  obtain ⟨f, hf⟩ : ∃ f, @State.backRecord = f := ⟨_, rfl⟩
  rw [hf] at hq
  delta State.backRecord at hf
  subst hf
  beta_reduce at hq
  have h1 : (s.load Reach.snap (tgtStage w) recordBytes).2.memOk := .load h
  generalize s.load Reach.snap (tgtStage w) recordBytes = z at h1 hq
  subst hq
  split
  · exact .pair (.store h1)
  · exact .pair h1

theorem State.memOk.backInk {p : Nat} {l : List (Piece × Nat × Nat)} (h : s.memOk) :
    (s.backInk p l).2.memOk := by
  unfold State.backInk
  split
  · exact h
  · split
    · rename_i heq
      exact .inkRebuild (.snd_eq heq (.load h))
    · rename_i heq
      exact .snd_eq heq (.load h)

theorem State.memOk.readBack {p : Nat} {r : CmdRec} {wr : Bool} {lines : List Nat} (h : s.memOk) :
    (s.readBack p r wr lines).2.memOk := by
  unfold State.readBack
  split
  · rename_i heq
    exact .snd_eq heq (.loadWords h)
  · rename_i heq
    have h1 := State.memOk.snd_eq heq (.loadWords h)
    extract_lets a n m chunks g
    have hg : g.2.memOk := .sigOk h1
    refine .iteSnd h1 (.iteSnd h1 (.iteSnd h1 (.iteSnd hg ?_)))
    split
    · rename_i heq1
      have h2 := State.memOk.snd_eq heq1 (.backChunks hg)
      extract_lets e b
      have he : e.2.memOk := .iteSnd (.backRecord h2) h2
      have hb : b.2.memOk := .iteSnd (.backInk he) he
      exact hb
    · rename_i heq1
      exact .snd_eq heq1 (.backChunks hg)

theorem State.memOk.putPieces {lines : List Nat} {l : List Piece} {at0 : Nat} (h : s.memOk) :
    (State.putPieces lines l at0 s).2.memOk := by
  induction l generalizing s at0 with
  | nil => exact h
  | cons q l ih =>
    unfold State.putPieces
    refine .iteSnd h ?_
    split
    · rename_i heq
      exact ih (.snd_eq heq (.store h))
    · rename_i heq
      exact .snd_eq heq (.store h)

theorem State.memOk.refilled {p : Nat} {r : CmdRec} {lines : List Nat} (h : s.memOk) :
    (s.refilled p r lines).2.memOk := by
  unfold State.refilled
  split
  · exact h
  · dsimp only
    split
    · rename_i heq
      exact .snd_eq heq (.snapList h)
    · rename_i heq
      split
      · rename_i heq1
        exact .ite (.inkRebuild (.store (.snd_eq heq1 (.putPieces (.snd_eq heq (.snapList h))))))
            (.store (.snd_eq heq1 (.putPieces (.snd_eq heq (.snapList h)))))
      · rename_i heq1
        exact .snd_eq heq1 (.putPieces (.snd_eq heq (.snapList h)))

theorem State.memOk.moveEnd {p : Nat} {e : Exec} (h : s.memOk) :
    (s.moveEnd p e).memOk := .ite (.agree (.moveStart h)) (.ite (.complete h) h)

theorem State.memOk.peerEnd {p : Nat} {e : Exec} (h : s.memOk) :
    (s.peerEnd p e).memOk :=
  .ite (.ite (.complete h) h) (.ite (.complete (.countRefusal h)) (.ite (.complete (.peerDone h)) (.agree (.peerDone h))))

theorem State.memOk.refusedLate {p : Nat} {e : Exec} {status : Nat} (h : s.memOk) :
    (s.refusedLate p e status).memOk := .when h .countRefusal

theorem State.memOk.execEnd {p : Nat} {e : Exec} {lines : List Nat} (h : s.memOk) :
    (s.execEnd p e lines).memOk := by
  unfold State.execEnd
  extract_lets ok acked back
  have hack : acked.memOk := .ite (.complete h) h
  split
  · exact hack
  · exact hack
  · exact hack
  · exact .moveEnd h
  · exact .ite (.complete (.reserveDone h)) h
  · exact .peerEnd h
  · exact .complete (.readBack h)
  · exact .complete (.refilled h)
  · exact .complete (.readBack h)
  · exact .complete h

theorem State.memOk.execCommandCompletion {p status : Nat} {lines : List Nat} (h : s.memOk) :
    OutOk (execCommandCompletion p status lines s) := by
  refine .runIf h ?_
  split
  · exact .ite (.execEnd h) (.complete (.refusedLate h))
  · exact h

/-! ### Startup.lean -/

theorem State.memOk.unwrapKey (h : s.memOk) : s.unwrapKey.memOk := by
  unfold State.unwrapKey
  split
  · dsimp only
    split
    · exact .fset (.forRange (.of_mem h) .fset)
    · exact .fset (.of_mem h)
  · exact .fset (.of_mem h)

theorem State.memOk.bootStep {n : Nat} (h : s.memOk) :
    (s.bootStep n).memOk := .of_mem h rfl

theorem State.memOk.boot1 (h : s.memOk) : s.boot1.memOk := .fset (.fset (.fset (.fset (.unwrapKey (.showFuses (.bootStep h))))))

theorem State.memOk.packageDone (h : s.memOk) : s.packageDone.memOk := .of_mem h rfl

theorem State.memOk.cfgFail {cause : Nat} (h : s.memOk) :
    (s.cfgFail cause).memOk := .of_mem h rfl

theorem State.memOk.preWrite {off value : Nat} (h : s.memOk) :
    (s.preWrite off value).2.memOk := by
  unfold State.preWrite
  split
  · exact .badWrite h
  · split
    · split
      · exact .iteSnd (.badWrite h) (.writeHit (.answer h))
      · exact .badWrite h
    · exact .pcieWrite h
    · exact h
    · exact .badWrite h

theorem State.memOk.preload {l : List Nat} (h : s.memOk) :
    (State.preload l s).2.memOk := by
  induction l generalizing s with
  | nil => exact h
  | cons i l ih =>
    unfold State.preload
    refine .iteSnd (ih (.fadd ?_)) ?_
    · exact .iteSnd h (.iteSnd h (.iteSnd h (.preWrite h)))
    · exact .iteSnd h (.iteSnd h (.iteSnd h (.preWrite h)))

theorem State.memOk.trainUcie {fail : Nat} (h : s.memOk) :
    (s.trainUcie fail).memOk := .forRange h (fun ht => .lifeAdd (.of_mem ht))

theorem State.memOk.trainMem {sm bm : Nat} (h : s.memOk) :
    (s.trainMem sm bm).memOk := .of_mem h rfl

theorem State.memOk.showEmpty {bit : Nat} (h : s.memOk) :
    (s.showEmpty bit).memOk := .of_mem h rfl

theorem State.memOk.loadRemap {u : Nat} {l : List Nat} (h : s.memOk) :
    (s.loadRemap u l).memOk := .ite h (.fset (.fset (.fset (.of_mem h))))

theorem State.memOk.lifeRemaps (h : s.memOk) : (s.lifeRemaps).memOk := by
  unfold State.lifeRemaps
  split
  · exact .forRange h .loadRemap
  · exact .showEmpty h

theorem State.memOk.lifeBad (h : s.memOk) : (s.lifeBad).memOk := by
  unfold State.lifeBad
  split
  · exact .of_mem h
  · exact .showEmpty h

theorem State.memOk.lifeService (h : s.memOk) : (s.lifeService).memOk := by
  unfold State.lifeService
  extract_lets t
  have read : t.memOk := by
    unfold t
    split
    · exact .fOr (.fOr (.forRange h .fOr))
    · exact .showEmpty h
  exact .ite (.ite (.lifeTouch (.fset (.of_mem read))) (.of_mem read)) read

theorem State.memOk.logLoad {i : Nat} (h : s.memOk) :
    (s.logLoad i).memOk := .forRange (.forRange h .fset) (fun ht => .forRange ht .fset)

theorem State.memOk.lifeLog (h : s.memOk) : (s.lifeLog).memOk := by
  unfold State.lifeLog
  split
  · exact .showEmpty h
  · exact .fset (.fset (.of_mem (.ite (.logLoad h) h)))

theorem State.memOk.boot7 (h : s.memOk) : s.boot7.memOk :=
  .ite (.lifeAdd (.lifeLog (.lifeService (.lifeBad (.lifeRemaps (.fuseLoad h))))))
      (.lifeLog (.lifeService (.lifeBad (.lifeRemaps (.fuseLoad h)))))

theorem State.memOk.selfTest {i phys : Nat} (h : s.memOk) :
    (s.selfTest i phys).memOk := .ite h (.lifeTouch (.lifeAdd (.event (.logFault (.fOr h)))))

theorem State.memOk.numberTiles {i : Nat} (h : s.memOk) :
    (s.numberTiles i).memOk := .fset (.of_mem h)

theorem State.memOk.boot8 {fail : Nat} (h : s.memOk) :
    (s.boot8 fail).memOk := .forRange h (fun ht => .numberTiles (.forRange ht (fun hu => .when hu .selfTest)))

theorem State.memOk.boot9 (h : s.memOk) : s.boot9.memOk := by
  unfold State.boot9
  exact .store (.getD (.mapSpan h) h)

theorem State.memOk.boot10 (h : s.memOk) : s.boot10.memOk := by
  unfold State.boot10
  exact .ite (.countReset (.packageDone (.forRange (.startServer (.fOr (.fset (.bootStep h)))) .trains)))
      (.forRange (.startServer (.fOr (.fset (.bootStep h)))) .trains)

theorem State.memOk.takeImage (h : s.memOk) : s.takeImage.memOk := by
  unfold State.takeImage
  exact .of_mem (.fset (.fset (.fset h)))

theorem State.memOk.showDigest (h : s.memOk) : s.showDigest.memOk := .forRange h .fset

theorem State.memOk.bootRest {inp : StartIn} (h : s.memOk) :
    (s.bootRest inp).memOk :=
  .ite (.cfgFail (.boot9 (.bootStep (.boot8 (.bootStep (.boot7 (.bootStep (.trainMem (.bootStep h)))))))))
      (.ite (.cfgFail (.boot9 (.bootStep (.boot8 (.bootStep (.boot7 (.bootStep (.trainMem (.bootStep h)))))))))
          (.boot10 (.boot9 (.bootStep (.boot8 (.bootStep (.boot7 (.bootStep (.trainMem (.bootStep h))))))))))

theorem State.memOk.bootPre {inp : StartIn} (h : s.memOk) :
    (s.bootPre inp).memOk := by
  unfold State.bootPre
  split
  · rename_i heq
    exact .cfgFail (.fset (.snd_eq heq (.preload (.bootStep h))))
  · rename_i heq
    have h1 := State.memOk.snd_eq heq (.preload (.bootStep h))
    dsimp only
    split
    · rename_i heq1
      exact .cfgFail (.fset (.snd_eq heq1 (.preload (.trainUcie (.bootStep h1)))))
    · rename_i heq1
      exact .bootRest (.snd_eq heq1 (.preload (.trainUcie (.bootStep h1))))

theorem State.memOk.boot {inp : StartIn} (h : s.memOk) :
    (s.boot inp).memOk := by
  unfold State.boot
  split
  · exact .bootPre (.takeImage (.showDigest (.bootStep (.fset (.bootStep (.boot1 h))))))
  · exact .cfgFail (.fset (.bootStep (.boot1 h)))
  · exact .cfgFail (.bootStep (.fset (.bootStep (.boot1 h))))
  · exact .cfgFail (.showDigest (.bootStep (.fset (.bootStep (.boot1 h)))))

theorem State.memOk.execStartup {inp : StartIn} (h : s.memOk) :
    OutOk (execStartup inp s) := .next (.ite (.boot h) h)

theorem State.memOk.execConfigReadTimeout (h : s.memOk) :
    OutOk (execConfigReadTimeout s) := .next (.ite (.cfgFail (.boot1 h)) h)

/-! ### Tick.lean -/

theorem State.memOk.tileCount {t : Nat} (h : s.memOk) :
    (s.tileCount t).memOk := by
  unfold State.tileCount
  split
  · exact .ite h (.modTile h)
  · exact h

theorem State.memOk.herdCount {i : Nat} (h : s.memOk) :
    (s.herdCount i).memOk := .ite (.setCore (.setCore (.setHerd h))) h

theorem State.memOk.dieCount {d : Nat} (h : s.memOk) :
    (s.dieCount d).memOk := .ite (.of_mem h) h

theorem State.memOk.watchdogs (h : s.memOk) : s.watchdogs.memOk :=
  .foldl (.forRange (.forRange h .dieCount) .herdCount) .tileCount

theorem State.memOk.slotsTick (h : s.memOk) : s.slotsTick.memOk := by
  unfold State.slotsTick
  refine .forRange h (fun ht => ?_)
  refine .forRange ht (fun hu => ?_)
  split
  · exact .setSlot hu
  · exact hu

theorem State.memOk.refBegin (h : s.memOk) : s.refBegin.memOk := by
  unfold State.refBegin
  dsimp only
  refine .of_mem (s := List.foldl _ _ _) ?_
  refine .foldl (.foldl ?_ .suspendLock) (fun ht => .forRange ht .issueRefs)
  refine .of_mem (s := State.slotOver _ _) ?_
  exact .slotOver (.of_mem h)

theorem State.memOk.showScore {ts : List Nat} (h : s.memOk) :
    (s.showScore ts).memOk := .fset (.fset (.fset (.fset (.fset (.fset (.fset h))))))

theorem State.memOk.snapsDue (h : s.memOk) : s.snapsDue.memOk := .forRange h (fun ht => .forRange ht .modSlot)

theorem State.memOk.healthTick (h : s.memOk) : s.healthTick.memOk :=
  .ite (.when (.when (.showScore (.of_mem (.fset h))) .snapsDue) .event) (.of_mem (.fset h))

theorem State.memOk.toBoundary (h : s.memOk) : s.toBoundary.memOk := .when (.of_mem h) .of_mem

theorem State.memOk.cycle (h : s.memOk) : s.cycle.memOk :=
  .ite h (.when (.when (.of_mem (.leaves h)) .ppsStart) (fun ht => .slotOver (.of_mem ht)))

theorem State.memOk.waitTick (h : s.memOk) : s.waitTick.memOk := .of_mem h rfl

theorem State.memOk.takeReports (h : s.memOk) : s.takeReports.memOk := by
  unfold State.takeReports
  dsimp only
  refine .of_mem (s := List.foldl _ _ _) ?_
  exact .foldl (.of_mem h) (fun ht => .foldl ht .segReport)

theorem State.memOk.execTickBoundary (h : s.memOk) :
    OutOk (execTickBoundary s) := by
  refine .next (.when ?_ .flood)
  refine .of_mem (s := State.thermal _) ?_
  refine .thermal (.healthTick (.refBegin (.waitTick (.slotsTick (.watchdogs ?_)))))
  refine .of_mem (s := State.takeReports _) ?_
  exact .takeReports (.toBoundary (.leaves h))

theorem State.memOk.segFlag {t : Nat} {f : Fld} (h : s.memOk) :
    (s.segFlag t f).memOk := .of_mem h rfl

theorem State.memOk.execBudgetOver {t : Nat} (h : s.memOk) :
    OutOk (execBudgetOver t s) := by
  refine .runIf h ?_
  split
  · exact .ite h (.segFlag (.modTile h))
  · exact h

theorem State.memOk.execSegOverrun {t : Nat} (h : s.memOk) :
    OutOk (execSegOverrun t s) := by
  refine .runIf h ?_
  split
  · exact .ite h (.pmcTile (.fadd (.segFlag (.modTile h))))
  · exact h

theorem State.memOk.watchdog {e : LogEntry} (h : s.memOk) :
    (s.watchdog e).memOk := .lifeAdd (.health (.timeoutLog h))

theorem State.memOk.execSegHang {t : Nat} (h : s.memOk) :
    OutOk (execSegHang t s) := by
  refine .runIf h ?_
  split
  · exact .ite h (.foldl (.abortHerd (.watchdog (.segRecord (.stopRun h)))) (fun ht => .resetDue (.modTile ht)))
  · exact h

theorem State.memOk.execHeartbeatExpiry {c : Nat} (h : s.memOk) :
    OutOk (execHeartbeatExpiry c s) := .runIf h (.ite h (.event (.watchdog (.setCore h))))

theorem State.memOk.execHerdWatchdog {i : Nat} (h : s.memOk) :
    OutOk (execHerdWatchdog i s) := .runIf h (.ite h (.resetDue (.abortHerd (.watchdog (.setHerd h)))))

theorem State.memOk.execDieWatchdog {d : Nat} (h : s.memOk) :
    OutOk (execDieWatchdog d s) := .runIf h (.ite h (.resetDue (.forRange (.watchdog (.of_mem h)) .abortHerd)))

theorem State.memOk.giveUp {ag line : Nat} (h : s.memOk) :
    (s.giveUp ag line).memOk := by
  unfold State.giveUp
  exact .of_mem (.modBusy h)

theorem State.memOk.errorResponse {ag line : Nat} (h : s.memOk) :
    (s.errorResponse ag line).memOk := .agentFails (.giveUp h)

theorem State.memOk.execMemRequestTimeout {ag line : Nat} (h : s.memOk) :
    OutOk (execMemRequestTimeout ag line s) := .runIf h (.errorResponse (.timeoutAt h))

theorem State.memOk.retrain {d m : Nat} (h : s.memOk) :
    (s.retrain d m).memOk := .of_mem h rfl

theorem State.memOk.execUcieTimeout {d module ag line : Nat} (h : s.memOk) :
    OutOk (execUcieTimeout d module ag line s) :=
  .runIf h (.errorResponse (.retrain (.health (.histAdd (.lifeAdd (.timeoutAt h))))))

theorem State.memOk.unlock (h : s.memOk) : s.unlock.memOk := .ite (.event (.fadd (.fset h))) h

theorem State.memOk.upstream {port : Nat} (h : s.memOk) :
    (s.upstream port).memOk := .of_mem h rfl

theorem State.memOk.markerIn {off : Int} (h : s.memOk) :
    (s.markerIn off).memOk := .ite (.when (.of_mem (.fset h)) (fun ht => .of_mem (.fset ht))) (.unlock (.of_mem (.fset h)))

theorem State.memOk.markRun {bnd : Nat} (h : s.memOk) :
    (s.markRun bnd).memOk := .of_mem h rfl

theorem State.memOk.markerStep {time delay : Nat} (h : s.memOk) :
    (s.markerStep time delay).memOk := .ite (.of_mem (.leaves h)) h

theorem State.memOk.marker {bnd time delay : Nat} (h : s.memOk) :
    (s.marker bnd time delay).memOk := .ite (.fset (.of_mem (.markerStep (.markRun h)))) (.markerIn (.markerStep (.markRun h)))

theorem State.memOk.execTick {port bnd time delay : Nat} (h : s.memOk) :
    OutOk (execTick port bnd time delay s) := .runIf h (.ite (.flood (.marker (.fset (.upstream h)))) h)

theorem State.memOk.execMarkerLoss (h : s.memOk) :
    OutOk (execMarkerLoss s) := .next (.ite (.fset (.unlock (.of_mem h))) h)

/-! ### TileVec.lean -/

theorem State.memOk.vector {t idx : Nat} {x : TIns} {f : NumCtx → Tile → Tile × Nat} (h : s.memOk) :
    (s.vector t idx x f).memOk := .issueOr h (fun ht => .launched (.vecMembers ht)) (fun ht => .launchHeld (.vecFlags ht))

theorem State.memOk.execAdd {t idx : Nat} {ops : VecOps} (h : s.memOk) :
    OutOk (execAdd t idx ops s) := .runIf h (.vector h)

theorem State.memOk.execMul {t idx : Nat} {ops : VecOps} (h : s.memOk) :
    OutOk (execMul t idx ops s) := .runIf h (.vector h)

theorem State.memOk.execFma {t idx : Nat} {ops : VecOps} (h : s.memOk) :
    OutOk (execFma t idx ops s) := .runIf h (.vector h)

theorem State.memOk.execVecMin {t idx : Nat} {ops : VecOps} (h : s.memOk) :
    OutOk (execVecMin t idx ops s) := .runIf h (.vector h)

theorem State.memOk.execVecMax {t idx : Nat} {ops : VecOps} (h : s.memOk) :
    OutOk (execVecMax t idx ops s) := .runIf h (.vector h)

theorem State.memOk.execSel {t idx : Nat} {ops : VecOps} (h : s.memOk) :
    OutOk (execSel t idx ops s) := .runIf h (.vector h)

theorem State.memOk.execIadd {t idx : Nat} {ops : VecOps} (h : s.memOk) :
    OutOk (execIadd t idx ops s) := .runIf h (.vector h)

theorem State.memOk.execImin {t idx : Nat} {ops : VecOps} (h : s.memOk) :
    OutOk (execImin t idx ops s) := .runIf h (.vector h)

theorem State.memOk.execImax {t idx : Nat} {ops : VecOps} (h : s.memOk) :
    OutOk (execImax t idx ops s) := .runIf h (.vector h)

theorem State.memOk.execCmp {t idx : Nat} {rel : Rel} {ops : VecOps} (h : s.memOk) :
    OutOk (execCmp t idx rel ops s) := .runIf h (.vector h)

theorem State.memOk.execIcmp {t idx : Nat} {rel : Rel} {ops : VecOps} (h : s.memOk) :
    OutOk (execIcmp t idx rel ops s) := .runIf h (.vector h)

theorem State.memOk.execMand {t idx : Nat} {ops : VecOps} (h : s.memOk) :
    OutOk (execMand t idx ops s) := .runIf h (.vector h)

theorem State.memOk.execMor {t idx : Nat} {ops : VecOps} (h : s.memOk) :
    OutOk (execMor t idx ops s) := .runIf h (.vector h)

theorem State.memOk.execMxor {t idx : Nat} {ops : VecOps} (h : s.memOk) :
    OutOk (execMxor t idx ops s) := .runIf h (.vector h)

theorem State.memOk.execMandn {t idx : Nat} {ops : VecOps} (h : s.memOk) :
    OutOk (execMandn t idx ops s) := .runIf h (.vector h)

theorem State.memOk.execMnot {t idx : Nat} {ops : VecOps} (h : s.memOk) :
    OutOk (execMnot t idx ops s) := .runIf h (.vector h)

theorem State.memOk.execPadd {t idx : Nat} {ops : VecOps} (h : s.memOk) :
    OutOk (execPadd t idx ops s) := .runIf h (.vector h)

theorem State.memOk.execCvt {t idx : Nat} {ops : CvtOps} (h : s.memOk) :
    OutOk (execCvt t idx ops s) :=
  .runIf h (.issueOr h (fun ht => .ite (.segFault ht) (.launched (.vecMembers ht)))
      (fun ht => .ite (.segFault ht) (.launchHeld (.vecFlags ht))))

theorem State.memOk.execSum {t idx : Nat} {ops : RedOps} (h : s.memOk) :
    OutOk (execSum t idx ops s) := .runIf h (.vector h)

theorem State.memOk.execSumsq {t idx : Nat} {ops : RedOps} (h : s.memOk) :
    OutOk (execSumsq t idx ops s) := .runIf h (.vector h)

theorem State.memOk.execRedMax {t idx : Nat} {ops : RedOps} (h : s.memOk) :
    OutOk (execRedMax t idx ops s) := .runIf h (.vector h)

theorem State.memOk.execRedMin {t idx : Nat} {ops : RedOps} (h : s.memOk) :
    OutOk (execRedMin t idx ops s) := .runIf h (.vector h)

theorem State.memOk.execMaxabs {t idx : Nat} {ops : RedOps} (h : s.memOk) :
    OutOk (execMaxabs t idx ops s) := .runIf h (.vector h)

theorem State.memOk.execArgmax {t idx : Nat} {ops : RedOps} (h : s.memOk) :
    OutOk (execArgmax t idx ops s) := .runIf h (.vector h)

theorem State.memOk.execPopc {t idx : Nat} {ops : RedOps} (h : s.memOk) :
    OutOk (execPopc t idx ops s) := .runIf h (.vector h)

theorem State.memOk.execPermc {t idx : Nat} {ops : RedOps} (h : s.memOk) :
    OutOk (execPermc t idx ops s) := .runIf h (.vector h)

theorem State.memOk.execPermr {t idx : Nat} {ops : RedOps} (h : s.memOk) :
    OutOk (execPermr t idx ops s) := .runIf h (.vector h)

/-! ### TileDone.lean -/

theorem State.memOk.putMems {us : List Nat} {ms : List Mem} (h : s.memOk) :
    (s.putMems us ms).memOk := .foldl h .modTile

theorem State.memOk.withMems {r : Run} {ms : List Mem} {f : State → TEnd × State} (h : s.memOk)
    (hf : ∀ {t}, t.memOk → (f t).2.memOk) :
    (s.withMems r ms f).2.memOk := .putMems (hf (.putMems h))

theorem State.memOk.perform {t : Nat} {r : Run} {f : Flight} {ms : List Mem} (h : s.memOk) :
    (s.perform t r f ms).2.memOk := by
  unfold State.perform
  split
  · exact .vecWrites h
  · exact .vecWrites h
  · exact .withMems h .vecWrites
  · exact .mmulOut h
  · exact .withMems h .movWork
  · exact h

theorem State.memOk.carryOut {t : Nat} {e : Engine} (h : s.memOk) :
    (s.carryOut t e).memOk := by
  unfold State.carryOut
  split
  · exact h
  · split
    · exact h
    · split
      · refine .ite h ?_
        split
        · rename_i heq
          exact .modFlight (.workNow_done h .perform heq)
        · rename_i heq
          exact .segLd (.workNow_done h .perform heq)
        · rename_i heq
          exact .segFault (.workNow_done h .perform heq)
        · exact .haltAt h
        · rename_i heq
          exact .modFlight (.workNow_waits h heq)
      · exact h

theorem State.memOk.execInstrComplete {t : Nat} {eng : Engine} {wait lat : Nat} (h : s.memOk) :
    OutOk (execInstrComplete t eng wait lat s) := .runIf h (.completeHead (.carryOut h))

end Sys2Proof.Machine
end

section
/-!
The arms of `exec` put together: the invariant over `step` (O4).
-/

set_option Elab.async false

namespace Sys2Proof.Machine

variable {s : State}

/-- Every command keeps the canonical form: each arm of `exec` is one of the lemmas above. -/
theorem exec_keepsMem (c : Instr) (h : s.memOk) : OutOk (exec c s) :=
  match c with
  | .registerWrite .. => .execRegisterWrite h
  | .tickBoundary => .execTickBoundary h
  | .periodLog2Write .. => .execPeriodLog2Write h
  | .ppsOutEnWrite .. => .execPpsOutEnWrite h
  | .timeStep .. => .execTimeStep h
  | .ppsOutPulse => .execPpsOutPulse h
  | .ppsPulseEnd => .execPpsPulseEnd h
  | .ppsInEdge => .execPpsInEdge h
  | .segOverrun .. => .execSegOverrun h
  | .segHang .. => .execSegHang h
  | .heartbeatExpiry .. => .execHeartbeatExpiry h
  | .herdWatchdog .. => .execHerdWatchdog h
  | .dieWatchdog .. => .execDieWatchdog h
  | .memRequestTimeout .. => .execMemRequestTimeout h
  | .ucieTimeout .. => .execUcieTimeout h
  | .afrReplayTimeout .. => .execAfrReplayTimeout h
  | .configReadTimeout => .execConfigReadTimeout h
  | .heartbeat .. => .execHeartbeat h
  | .tick .. => .execTick h
  | .markerLoss => .execMarkerLoss h
  | .numctlWrite .. => .execNumctlWrite h
  | .resume .. => .execResume h
  | .nop .. => .execNop h
  | .vbase .. => .execVbase h
  | .trap .. => .execTrap h
  | .ld .. => .execLd h
  | .st .. => .execSt h
  | .strec .. => .execStrec h
  | .hld .. => .execHld h
  | .hst .. => .execHst h
  | .mmul .. => .execMmul h
  | .mspan .. => .execMspan h
  | .mwin .. => .execMwin h
  | .add .. => .execAdd h
  | .mul .. => .execMul h
  | .fma .. => .execFma h
  | .vecMin .. => .execVecMin h
  | .vecMax .. => .execVecMax h
  | .sel .. => .execSel h
  | .iadd .. => .execIadd h
  | .imin .. => .execImin h
  | .imax .. => .execImax h
  | .cmp .. => .execCmp h
  | .icmp .. => .execIcmp h
  | .mand .. => .execMand h
  | .mor .. => .execMor h
  | .mxor .. => .execMxor h
  | .mandn .. => .execMandn h
  | .mnot .. => .execMnot h
  | .padd .. => .execPadd h
  | .cvt .. => .execCvt h
  | .sum .. => .execSum h
  | .sumsq .. => .execSumsq h
  | .redMax .. => .execRedMax h
  | .redMin .. => .execRedMin h
  | .maxabs .. => .execMaxabs h
  | .argmax .. => .execArgmax h
  | .popc .. => .execPopc h
  | .permc .. => .execPermc h
  | .permr .. => .execPermr h
  | .cwait .. => .execCwait h
  | .cpost .. => .execCpost h
  | .semwait .. => .execSemwait h
  | .semsig .. => .execSemsig h
  | .semSignalApply .. => .execSemSignalApply h
  | .semGrant .. => .execSemGrant h
  | .summ .. => .execSumm h
  | .flagclr .. => .execFlagclr h
  | .allreduce .. => .execAllreduce h
  | .reduceScatter .. => .execReduceScatter h
  | .allgather .. => .execAllgather h
  | .instrComplete .. => .execInstrComplete h
  | .summPop .. => .execSummPop h
  | .sregWrite .. => .execSregWrite h
  | .segqPush .. => .execSegqPush h
  | .segmentFetch .. => .execSegmentFetch h
  | .segmentStart .. => .execSegmentStart h
  | .segmentRetire .. => .execSegmentRetire h
  | .semWrite .. => .execSemWrite h
  | .semAdd .. => .execSemAdd h
  | .gangWrite .. => .execGangWrite h
  | .gangWidthWrite .. => .execGangWidthWrite h
  | .gangApply .. => .execGangApply h
  | .stepRelease .. => .execStepRelease h
  | .itemDispatch .. => .execItemDispatch h
  | .taskDispatch .. => .execTaskDispatch h
  | .prefetchRequest .. => .execPrefetchRequest h
  | .gatherDispatch .. => .execGatherDispatch h
  | .updDispatch .. => .execUpdDispatch h
  | .taskPop .. => .execTaskPop h
  | .taskDone .. => .execTaskDone h
  | .stepComplete .. => .execStepComplete h
  | .exchangeResult .. => .execExchangeResult h
  | .exchangeTimeout .. => .execExchangeTimeout h
  | .commitFlip .. => .execCommitFlip h
  | .rescalePass .. => .execRescalePass h
  | .rescalePassDone .. => .execRescalePassDone h
  | .stepAbort .. => .execStepAbort h
  | .verPin .. => .execVerPin h
  | .verUnpin .. => .execVerUnpin h
  | .lrWrite .. => .execLrWrite h
  | .rootKept .. => .execRootKept h
  | .map .. => .execMap h
  | .unmap .. => .execUnmap h
  | .setattr .. => .execSetattr h
  | .move .. => .execMove h
  | .reserve .. => .execReserve h
  | .release .. => .execRelease h
  | .peer .. => .execPeer h
  | .placementEpoch => .execPlacementEpoch h
  | .savedActDemote .. => .execSavedActDemote h
  | .migrationStart .. => .execMigrationStart h
  | .rmcUpdateAck .. => .execRmcUpdateAck h
  | .rmcMissFill .. => .execRmcMissFill h
  | .migrationPrecopyEnd .. => .execMigrationPrecopyEnd h
  | .migrationRoundEnd .. => .execMigrationRoundEnd h
  | .migrationFinalEnd .. => .execMigrationFinalEnd h
  | .migrationUnblock .. => .execMigrationUnblock h
  | .frameRetire .. => .execFrameRetire h
  | .regulatorIssue .. => .execRegulatorIssue h
  | .get .. => .execGet h
  | .claim .. => .execClaim h
  | .peek .. => .execPeek h
  | .putFull .. => .execPutFull h
  | .putMasked .. => .execPutMasked h
  | .merge .. => .execMerge h
  | .drop .. => .execDrop h
  | .send .. => .execSend h
  | .kill .. => .execKill h
  | .snpDone .. => .execSnpDone h
  | .done .. => .execDone h
  | .got .. => .execGot h
  | .redo .. => .execRedo h
  | .dropOk .. => .execDropOk h
  | .fail .. => .execFail h
  | .line .. => .execLine h
  | .lineHome .. => .execLineHome h
  | .busyRequestServe .. => .execBusyRequestServe h
  | .channelRead .. => .execChannelRead h
  | .channelWrite .. => .execChannelWrite h
  | .scrubRead .. => .execScrubRead h
  | .refresh .. => .execRefresh h
  | .refreshSlotEnd => .execRefreshSlotEnd h
  | .refLockWrite .. => .execRefLockWrite h
  | .refLockSuspend .. => .execRefLockSuspend h
  | .refLockResume .. => .execRefLockResume h
  | .rowRemap .. => .execRowRemap h
  | .maintWrite .. => .execMaintWrite h
  | .readStatus .. => .execReadStatus h
  | .fuseRow .. => .execFuseRow h
  | .fuseCol .. => .execFuseCol h
  | .ucieModuleRemove .. => .execUcieModuleRemove h
  | .ucieHashRespread .. => .execUcieHashRespread h
  | .flitReceive .. => .execFlitReceive h
  | .replayStart .. => .execReplayStart h
  | .nakRepeat .. => .execNakRepeat h
  | .linkLoss .. => .execLinkLoss h
  | .hello .. => .execHello h
  | .portRetrain .. => .execPortRetrain h
  | .trunkChange .. => .execTrunkChange h
  | .rd .. => .execRd h
  | .wrLine .. => .execWrLine h
  | .wrMask .. => .execWrMask h
  | .rdData .. => .execRdData h
  | .wrAck .. => .execWrAck h
  | .nack .. => .execNack h
  | .remoteTimeout .. => .execRemoteTimeout h
  | .collData .. => .execCollData h
  | .collNack .. => .execCollNack h
  | .collTimeout .. => .execCollTimeout h
  | .collectiveEnd .. => .execCollectiveEnd h
  | .stot .. => .execStot h
  | .stotCmd .. => .execStotCmd h
  | .epochInc .. => .execEpochInc h
  | .epochIncrement .. => .execEpochIncrement h
  | .ethFrameRx .. => .execEthFrameRx h
  | .roceSend .. => .execRoceSend h
  | .roceWrite .. => .execRoceWrite h
  | .roceRead .. => .execRoceRead h
  | .cnpRx .. => .execCnpRx h
  | .rateRecover .. => .execRateRecover h
  | .roceRetransmit .. => .execRoceRetransmit h
  | .pcieInbound .. => .execPcieInbound h
  | .shardReadIssue .. => .execShardReadIssue h
  | .nvmeCompletion .. => .execNvmeCompletion h
  | .shardReadTimeout .. => .execShardReadTimeout h
  | .recordStart .. => .execRecordStart h
  | .sampleFinish .. => .execSampleFinish h
  | .sampleBudget .. => .execSampleBudget h
  | .sampleHardLimit .. => .execSampleHardLimit h
  | .batchClose .. => .execBatchClose h
  | .batchReady .. => .execBatchReady h
  | .streamEnWrite .. => .execStreamEnWrite h
  | .cmdTailWrite .. => .execCmdTailWrite h
  | .cmdNop .. => .execCmdNop h
  | .jobStart .. => .execJobStart h
  | .jobEnd .. => .execJobEnd h
  | .run .. => .execRun h
  | .swapIn .. => .execSwapIn h
  | .swapOut .. => .execSwapOut h
  | .ready .. => .execReady h
  | .abort .. => .execAbort h
  | .partSet .. => .execPartSet h
  | .partSetApply .. => .execPartSetApply h
  | .groupSet .. => .execGroupSet h
  | .contextSwitch .. => .execContextSwitch h
  | .contextSaveDone .. => .execContextSaveDone h
  | .contextRestoreDone .. => .execContextRestoreDone h
  | .contextStart .. => .execContextStart h
  | .lockDeferExpiry .. => .execLockDeferExpiry h
  | .jobFault => .execJobFault h
  | .fltReset .. => .execFltReset h
  | .fence .. => .execFence h
  | .drainEnd .. => .execDrainEnd h
  | .resetEnd .. => .execResetEnd h
  | .domainRelease .. => .execDomainRelease h
  | .tileFail .. => .execTileFail h
  | .oosClear .. => .execOosClear h
  | .rejoin .. => .execRejoin h
  | .regroupExpiry .. => .execRegroupExpiry h
  | .snapshotCapture .. => .execSnapshotCapture h
  | .snapshotStagingDone .. => .execSnapshotStagingDone h
  | .snapshotAnchor .. => .execSnapshotAnchor h
  | .snapshot .. => .execSnapshot h
  | .snapCancel .. => .execSnapCancel h
  | .restore .. => .execRestore h
  | .refill .. => .execRefill h
  | .record .. => .execRecord h
  | .verify .. => .execVerify h
  | .startup .. => .execStartup h
  | .lifetimeWrite .. => .execLifetimeWrite h
  | .guardBlock => .execGuardBlock h
  | .guardRelease => .execGuardRelease h
  | .flashErase .. => .execFlashErase h
  | .flashProgram .. => .execFlashProgram h
  | .flashRead .. => .execFlashRead h
  | .programOwner .. => .execProgramOwner h
  | .revoke .. => .execRevoke h
  | .advanceSvn .. => .execAdvanceSvn h
  | .provision .. => .execProvision h
  | .attest .. => .execAttest h
  | .coreRelease .. => .execCoreRelease h
  | .pmcOverflow .. => .execPmcOverflow h
  | .sampleConsume .. => .execSampleConsume h
  | .bwWindowLatch => .execBwWindowLatch h
  | .lifetimeSecond .. => .execLifetimeSecond h
  | .logRecord => .execLogRecord h
  | .flush .. => .execFlush h
  | .resetLAssert .. => .execResetLAssert h
  | .resetLDeassert => .execResetLDeassert h
  | .pwrOkFall => .execPwrOkFall h
  | .droopEvent .. => .execDroopEvent h
  | .powerCapUpdate .. => .execPowerCapUpdate h
  | .powerBrake => .execPowerBrake h
  | .brakeRecovery => .execBrakeRecovery h
  | .thermtrip .. => .execThermtrip h
  | .mgmtRead64 .. => .execMgmtRead64 h
  | .mgmtRead32 .. => .execMgmtRead32 h
  | .mgmtWrite64 .. => .execMgmtWrite64 h
  | .mgmtWrite32 .. => .execMgmtWrite32 h
  | .regacc .. => .execRegacc h
  | .bypass => .execBypass h
  | .idcode => .execIdcode h
  | .samplePreload .. => .execSamplePreload h
  | .extest => .execExtest h
  | .extestPulse => .execExtestPulse h
  | .extestTrain => .execExtestTrain h
  | .registerRead .. => .execRegisterRead h
  | .budgetOver .. => .execBudgetOver h
  | .ethLinkDown .. => .execEthLinkDown h
  | .ethLinkUp .. => .execEthLinkUp h
  | .railFault .. => .execRailFault h
  | .railFaultClear .. => .execRailFaultClear h
  | .droopEventEnd .. => .execDroopEventEnd h
  | .pwrOkRise => .execPwrOkRise h
  | .pwrbrkLRise => .execPwrbrkLRise h
  | .fuseCommandDone .. => .execFuseCommandDone h
  | .repairCommandDone .. => .execRepairCommandDone h
  | .flashCommandDone .. => .execFlashCommandDone h
  | .attestReportDone => .execAttestReportDone h
  | .commandCompletion .. => .execCommandCompletion h
  | .snapshotReadDone .. => .execSnapshotReadDone h
  | .setdasa .. => .execSetdasa h
  | .entdaa .. => .execEntdaa h

/-- Settles O4: a step is the background work of an idle cycle or one command of the queue, and both keep the form. -/
theorem stepKeepsMemory : Obligations.StepKeepsMemory := by
  intro s t h e
  unfold step at e
  split at e
  · cases e
    exact .cycle h
  · refine exec_keepsMem _ ?_ t e
    exact .of_mem h

end Sys2Proof.Machine
end

section
/-!
A line beyond the last bus refutes O58. `unitOf` folds such a line onto a bus, so the check line that an access of it brings into the
cache of the controller is that of another line (`lineOf`, R328, R329): the line is clean before the access and in error during it.
-/

set_option Elab.async false

namespace Sys2Proof.Machine

/-- The first line beyond the capacity tier: it folds onto the first line of bus 0. -/
def strayLine : Nat := capLine0 + 2 ^ 35

/-- The stored check bytes of the first line of bus 0 differ from their codeword by those of the data 1, which decodes as an
error of the data (R316). -/
def strayState : State := { State.reset with soft := [(capLine0, 2 ^ 512 * ofWords 8 (rsCheck 1))] }

theorem strayState_quiet : QuietLine strayState strayLine :=
  ⟨rfl, rfl, fun _ hm => nomatch hm⟩

theorem strayState_clean : strayState.clean strayLine := by
  and_intros <;> decide +kernel

/-- A store to byte 1 of the line flips its byte 0. -/
theorem strayState_homeStore :
    (State.homeStore unitEvent strayState (strayLine * 64 + 1) 1 7).2.mem.rd (strayLine * 64) ≠
      strayState.mem.rd (strayLine * 64) := by
  decide +kernel

/-- Refutes O58: the statement takes any address, and at `strayLine` the read before the write of one byte corrects another byte. -/
theorem not_memoryLines : ¬ Obligations.MemoryLines := by
  intro h
  have hline : (strayLine * 64 + 1) / 64 = strayLine := by omega
  obtain ⟨-, -, hbytes, -⟩ := h strayState (strayLine * 64 + 1) 1 7 (by omega) (by omega) (hline ▸ strayState_quiet) rfl
    (hline ▸ strayState_clean)
  exact strayState_homeStore (hbytes _ (.inl (by omega)))

end Sys2Proof.Machine
end

section
/-!
The command rings (O24): the tail, and the refusal and the completion of the command at the head.
-/

set_option Elab.async false

namespace Sys2Proof.Machine

variable {s : State}

/-- A register of a scheduler is none of the registers that a register access error writes. -/
theorem fget_badWrite_sch {a : Agent} {off p c : Nat} {f : Fld} (hc : c < 0x10000) (hf : f.lo < 64) :
    (s.badWrite a off).fget (B.sch p + c) f = s.fget (B.sch p + c) f := by
  have key : ∀ {r : Nat} {g : Fld}, r + 8 ≤ 0x800000 → g.lo < 64 → regKey (B.sch p + c) f ≠ regKey r g := by
    intro r g hr hg
    simp only [regKey, B.sch]
    omega
  unfold State.badWrite State.regError State.fadd
  rw [State.fget_answer, State.fget_fset_ne _ _ (key (by decide) (by decide)), State.fget_fset_ne _ _ (key (by decide) (by decide)),
    State.fget_fset_ne _ _ (key (by decide) (by decide)), State.fget_fset_ne _ _ (key (by decide) (by decide))]

theorem bits_32_16 (v : Nat) : bits v 32 16 = v / 2 ^ 32 % 65536 := by
  simp [bits, Nat.shiftRight_eq_div_pow]

theorem exec_cmdTailWrite {a : Agent} {p v : Nat} (hw : instrWf (.cmdTailWrite a p v) = true)
    (he : s.entry a .sch p (R.SCH_CMD_PTR p) true = .reach) :
    exec (.cmdTailWrite a p v) s = .next (tailEffect a p (v / 2 ^ 32 % 65536) (s.answer .ok 0)) := by
  rw [← bits_32_16, ← State.writeReg_reach (tailEffect a p (bits v 32 16)) he]
  exact State.runIf_true s hw _

/-- The tail moves where no command executes and it lies in the ring (R394). -/
theorem tailEffect_of_lt {a : Agent} {p v : Nat} (hx : (s.part p).exec = none) (hv : v < s.ringSize p) :
    tailEffect a p v s =
      State.refuseUnknown p ((s.fset (R.SCH_CMD_PTR p) F.SCH_CMD_PTR_TAIL v).ringLoad p)
        (s.fset (R.SCH_CMD_PTR p) F.SCH_CMD_PTR_TAIL v) := by
  simp [tailEffect, hx, hv]

theorem tailEffect_of_refused {a : Agent} {p v : Nat} (h : (s.part p).exec ≠ none ∨ s.ringSize p ≤ v) :
    tailEffect a p v s = s.badWrite a (R.SCH_CMD_PTR p) := by
  have hc : ((s.part p).exec.isSome || decide (s.ringSize p ≤ v)) = true := by
    simpa [Option.isSome_iff_ne_none] using h
  simp [tailEffect, hc]

theorem command_of_refused {p op st : Nat} {rec : CmdRec} {c : Chk} {f : State → State} (hr : s.ringReady p = true)
    (hst : Chk.status { c with state := c.state && !s.oos } = st) (h0 : st ≠ 0) :
    s.command p op rec c f = (s.countRefusal p op st).complete p op rec st 0 := by
  simp [State.command, hr, hst, h0]

/-- Out of service a command that passes its other checks fails the check of the state (R418). -/
theorem Chk.status_of_state_false {c : Chk} (hf : c.fmt = true) (hr : c.range = true) :
    Chk.status { c with state := false } = 1 := by
  simp [Chk.status, hf, hr]

/-- The registers of the two rings and of the counts of a scheduler have different fields. -/
theorem fget_completeHeadCmd {p op status result : Nat} {rec : CmdRec} :
    (s.completeHeadCmd p op rec status result).fget (R.SCH_CMD_PTR p) F.SCH_CMD_PTR_HEAD =
        (s.fget (R.SCH_CMD_PTR p) F.SCH_CMD_PTR_HEAD + 1) % s.ringSize p % 2 ^ F.SCH_CMD_PTR_HEAD.w
      ∧ (s.completeHeadCmd p op rec status result).fget (R.SCH_CPL_PTR p) F.SCH_CPL_PTR_TAIL =
        (s.fget (R.SCH_CPL_PTR p) F.SCH_CPL_PTR_TAIL + 1) % s.ringSize p % 2 ^ F.SCH_CPL_PTR_TAIL.w := by
  have h1 : regKey (R.SCH_CMD_PTR p) F.SCH_CMD_PTR_HEAD ≠ regKey (R.SCH_CMD_STAT p) F.SCH_CMD_STAT_EXECUTED := by
    simp only [regKey, R.SCH_CMD_PTR, R.SCH_CMD_STAT, F.SCH_CMD_PTR_HEAD, F.SCH_CMD_STAT_EXECUTED]; omega
  have h2 : regKey (R.SCH_CPL_PTR p) F.SCH_CPL_PTR_TAIL ≠ regKey (R.SCH_CMD_STAT p) F.SCH_CMD_STAT_EXECUTED := by
    simp only [regKey, R.SCH_CPL_PTR, R.SCH_CMD_STAT, F.SCH_CPL_PTR_TAIL, F.SCH_CMD_STAT_EXECUTED]; omega
  have h3 : regKey (R.SCH_CPL_PTR p) F.SCH_CPL_PTR_TAIL ≠ regKey (R.SCH_CMD_PTR p) F.SCH_CMD_PTR_HEAD := by
    simp only [regKey, R.SCH_CPL_PTR, R.SCH_CMD_PTR, F.SCH_CPL_PTR_TAIL, F.SCH_CMD_PTR_HEAD]; omega
  unfold State.completeHeadCmd State.fadd
  constructor
  · rw [State.fget_fset_ne _ _ h1, State.fget_fset_self]
  · rw [State.fget_fset_ne _ _ h2, State.fget_fset_ne _ _ h3, State.fget_fset_self]

theorem exec_completeHeadCmd {p op status result : Nat} {rec : CmdRec} :
    ((s.completeHeadCmd p op rec status result).part p).exec = none := by
  simp [State.completeHeadCmd, State.fadd, State.part, State.setPart]

theorem tiles_storeWords {r : Reach} {a : Nat} {ws : List Nat} : (s.storeWords r a ws).tiles = s.tiles := by
  obtain ⟨hrest, -⟩ := (sameUnits_storeWords (s := s) (t := s) r a ws).2 (.refl s)
  rw [hrest]

theorem tiles_completeHeadCmd {p op status result : Nat} {rec : CmdRec} :
    (s.completeHeadCmd p op rec status result).tiles = s.tiles := by
  simp [State.completeHeadCmd, State.fadd, tiles_storeWords]

/-- Settles O24, clause by clause from the lemmas above. -/
theorem ringCommands : Obligations.RingCommands := by
  refine ⟨fun s a p v hw he => ⟨fun hx hv => ?_, fun h => ?_⟩, fun s p r hw hr hk => ?_, fun s p op rec c f hr ho hc => ?_,
    fun s p op rec c f hr ho hf hg => ?_, fun s p op status result rec _ => ?_⟩
  · refine ⟨(s.answer .ok 0).fset (R.SCH_CMD_PTR p) F.SCH_CMD_PTR_TAIL (v / 2 ^ 32 % 65536), ?_, rfl, ?_, ?_⟩
    · exact (exec_cmdTailWrite hw he).trans (congrArg _ (tailEffect_of_lt hx hv))
    · rw [State.fget_fset_self]
      exact Nat.mod_mod _ _
    · exact ((OnlyAnswer.refl s _).answer .ok 0).fset _ (.head _)
  · refine ⟨(s.answer .ok 0).badWrite a (R.SCH_CMD_PTR p), ?_, rfl, ?_⟩
    · exact (exec_cmdTailWrite hw he).trans (congrArg _ (tailEffect_of_refused h))
    · exact fget_badWrite_sch (by decide) (by decide)
  · refine (State.runIf_true s hw _).trans ?_
    simp [hr, hk]
  · exact command_of_refused hr (by simp [ho]) hc
  · exact command_of_refused hr (by simp [ho, Chk.status_of_state_false hf hg]) (by decide)
  · exact ⟨exec_completeHeadCmd, fget_completeHeadCmd.1, fget_completeHeadCmd.2, tiles_completeHeadCmd⟩

end Sys2Proof.Machine
end

section
/-!
Register space: what a read and a write answer where no register is reached (O56): accesses that are turned away, and the windows.
-/

set_option Elab.async false

namespace Sys2Proof.Machine

variable {s : State} {a : Agent} {b : Blk} {off bytes v u base o : Nat}

/-! ### The record of a register access error (R409) -/

/-- The fields that a register access error writes. -/
def regErrorKeys : List Nat :=
  [regKey R.FLT_REGERR F.FLT_REGERR_WRITE, regKey R.FLT_REGERR F.FLT_REGERR_AGENT, regKey R.FLT_REGERR F.FLT_REGERR_OFFSET,
    regKey R.FLT_ERRCNT F.FLT_ERRCNT_REG_ACCESS]

theorem OnlyAnswer.regError {t : State} (h : OnlyAnswer s t regErrorKeys) (ag : Nat) (wr : Bool) (k : RspKind) (d : Nat) :
    OnlyAnswer s ((t.regError ag wr off).answer k d) regErrorKeys :=
  ((((h.fset _ (by decide)).fset _ (by decide)).fset _ (by decide)).fadd _ (by decide)).answer k d

theorem fget_regError_write (ag : Nat) (wr : Bool) :
    (s.regError ag wr off).fget R.FLT_REGERR F.FLT_REGERR_WRITE = if wr then 1 else 0 := by
  unfold State.regError State.fadd
  rw [State.fget_fset_ne _ _ (by decide), State.fget_fset_ne _ _ (by decide), State.fget_fset_ne _ _ (by decide),
    State.fget_fset_self]
  cases wr <;> rfl

theorem fget_regError_agent (ag : Nat) (wr : Bool) :
    (s.regError ag wr off).fget R.FLT_REGERR F.FLT_REGERR_AGENT = ag % 2 ^ F.FLT_REGERR_AGENT.w := by
  unfold State.regError State.fadd
  rw [State.fget_fset_ne _ _ (by decide), State.fget_fset_ne _ _ (by decide), State.fget_fset_self]

theorem fget_regError_offset (ag : Nat) (wr : Bool) :
    (s.regError ag wr off).fget R.FLT_REGERR F.FLT_REGERR_OFFSET = off % 2 ^ F.FLT_REGERR_OFFSET.w := by
  unfold State.regError State.fadd
  rw [State.fget_fset_ne _ _ (by decide), State.fget_fset_self]

/-- A saturating counter stays at its greatest value. -/
theorem fget_fadd_self {f : Fld} (n : Nat) : (s.fadd off f n).fget off f = min (s.fget off f + n) (2 ^ f.w - 1) := by
  have h : min (s.fget off f + n) (2 ^ f.w - 1) < 2 ^ f.w := by
    have := Nat.two_pow_pos f.w
    omega
  rw [State.fadd, State.fget_fset_self, satAdd, Nat.mod_eq_of_lt h]

theorem fget_regError_count (ag : Nat) (wr : Bool) :
    (s.regError ag wr off).fget R.FLT_ERRCNT F.FLT_ERRCNT_REG_ACCESS =
      min (s.fget R.FLT_ERRCNT F.FLT_ERRCNT_REG_ACCESS + 1) (2 ^ F.FLT_ERRCNT_REG_ACCESS.w - 1) := by
  unfold State.regError
  rw [fget_fadd_self, State.fget_fset_ne _ _ (by decide), State.fget_fset_ne _ _ (by decide), State.fget_fset_ne _ _ (by decide)]

/-! ### Where an access ends -/

theorem exec_registerWrite (h : instrWf (.registerWrite a off bytes v) = true) :
    exec (.registerWrite a off bytes v) s = .next (s.regWrite a off bytes v) := State.runIf_true s h _

theorem exec_registerRead (h : instrWf (.registerRead a off bytes) = true) :
    exec (.registerRead a off bytes) s = .next (s.regRead a off bytes) := State.runIf_true s h _

theorem sizeOk_iff : sizeOk off bytes = true ↔ bytes = 8 ∧ off % 8 = 0 ∨ bytes = 4 ∧ off % 4 = 0 := by
  simp [sizeOk]

theorem regWrite_of_size (hp : regPlace off = .blk b u base) (he : s.entry a b u off true = .reach)
    (hz : sizeOk off bytes = false) :
    s.regWrite a off bytes v = s.badWrite a off := by
  simp [State.regWrite, hp, he, hz]

theorem regRead_of_size (hp : regPlace off = .blk b u base) (he : s.entry a b u off false = .reach)
    (hz : sizeOk off bytes = false) :
    s.regRead a off bytes = s.badRead a off := by
  simp [State.regRead, hp, he, hz]

theorem regWrite_of_decode (hp : regPlace off = .blk b u base) (he : s.entry a b u off true = .decode) :
    s.regWrite a off bytes v = s.turnAway a true off .decode := by
  simp [State.regWrite, State.when, hp, he]

theorem regRead_of_decode (hp : regPlace off = .blk b u base) (he : s.entry a b u off false = .decode) :
    s.regRead a off bytes = s.turnAway a false off .decode := by
  simp [State.regRead, hp, he]

theorem regRead_of_absent (hp : regPlace off = .blk b u base) (he : s.entry a b u off false = .absent) :
    s.regRead a off bytes = (s.regError (agentId a) false off).answer .regError 0 := by
  simp [State.regRead, State.turnAway, hp, he]

/-- A core that reaches outside its blocks takes an access fault (R36). -/
theorem turnAway_decode (wr : Bool) (hm : a ≠ .mgmt) (ht : a ≠ .test) :
    s.turnAway a wr off .decode = s.decodeErr.answer .accessFault 0 := by
  cases a with
  | server => rfl
  | control => rfl
  | mgmt => exact absurd rfl hm
  | test => exact absurd rfl ht

/-! ### The windows (R41 to R43) -/

theorem offAccess_of_reach {x : Place32} {wr : Bool} {f : State → State} (hr : s.offReach a x = .reach) (hx : x ≠ .none)
    (hz : sizeOk off bytes = true) : s.offAccess a wr x off bytes f = f (s.answer .ok 0) := by
  simp [State.offAccess, hr, hx, hz]

theorem SameUnits.rsp_eq {t : State} (h : SameUnits s t) : t.rsp = s.rsp := by
  obtain ⟨hrest, -⟩ := h
  rw [hrest]

theorem SameUnits.tile_eq {t : State} (h : SameUnits s t) (w : Nat) : t.tile w = s.tile w := by
  obtain ⟨hrest, -⟩ := h
  rw [hrest]
  rfl

theorem SameUnits.herd_eq {t : State} (h : SameUnits s t) (w : Nat) : t.herd w = s.herd w := by
  obtain ⟨hrest, -⟩ := h
  rw [hrest]
  rfl

/-- What an access to a window changes besides the answer: `q` is the package after it has been counted. -/
theorem SameUnits.window_tiles {q : State} {k : RspKind} {d : Nat} (h : SameUnits (s.answer k d) q) (y : Map Tile) :
    SameUnits { s with rsp := q.rsp, tiles := y } { q with tiles := y } := by
  obtain ⟨hrest, hregs⟩ := h
  refine ⟨?_, hregs⟩
  unfold SameRest at *
  rw [hrest]
  rfl

theorem SameUnits.window_herds {q : State} {k : RspKind} {d : Nat} (h : SameUnits (s.answer k d) q) (y : Map Herd) :
    SameUnits { s with rsp := q.rsp, herds := y } { q with herds := y } := by
  obtain ⟨hrest, hregs⟩ := h
  refine ⟨?_, hregs⟩
  unfold SameRest at *
  rw [hrest]
  rfl

theorem SameUnits.window_answer {q : State} {k : RspKind} {d : Nat} (h : SameUnits (s.answer k d) q) (r : Rsp) :
    SameUnits { s with rsp := r } { q with rsp := r } := by
  obtain ⟨hrest, hregs⟩ := h
  refine ⟨?_, hregs⟩
  unfold SameRest at *
  rw [hrest]
  rfl

section
variable (hr : s.offReach a (regPlace off) = .reach) (hz : sizeOk off bytes = true)
include hr hz

theorem regWrite_tileWin (hp : regPlace off = .tileWin u o) :
    s.regWrite a off bytes v =
      ((s.answer .ok 0).pmcTile u 0x11 1).modTile u fun x => { x with mem := x.mem.wrN o bytes v } := by
  rw [hp] at hr
  simp [State.regWrite, hp, offAccess_of_reach hr, hz]

theorem regRead_tileWin (hp : regPlace off = .tileWin u o) :
    s.regRead a off bytes = ((s.answer .ok 0).pmcTile u 0x11 1).answer .ok ((s.tile u).mem.rdN o bytes) := by
  rw [hp] at hr
  simp [State.regRead, hp, offAccess_of_reach hr, hz, State.tile]

theorem regWrite_herdWin (hp : regPlace off = .herdWin u o) :
    s.regWrite a off bytes v =
      ((s.answer .ok 0).pmcHerd u 8 1).setHerd u { s.herd u with mem := (s.herd u).mem.wrN o bytes v } := by
  rw [hp] at hr
  simp [State.regWrite, hp, offAccess_of_reach hr, hz, State.herd]

theorem regRead_herdWin (hp : regPlace off = .herdWin u o) :
    s.regRead a off bytes = ((s.answer .ok 0).pmcHerd u 7 1).answer .ok ((s.herd u).mem.rdN o bytes) := by
  rw [hp] at hr
  simp [State.regRead, hp, offAccess_of_reach hr, hz, State.herd]

end

/-- The access to a block that is turned away, for either direction. -/
theorem exec_turnedAway {c : Instr} {wr : Bool} (hw : instrWf c = true)
    (hc : c = .registerWrite a off bytes v ∧ wr = true ∨ c = .registerRead a off bytes ∧ wr = false)
    (hp : regPlace off = .blk b u base) :
    (s.entry a b u off wr = .reach → sizeOk off bytes = false →
        exec c s = .next ((s.regError (agentId a) wr off).answer .regError 0))
      ∧ (s.entry a b u off wr = .decode → exec c s = .next (s.turnAway a wr off .decode))
      ∧ (s.entry a b u off wr = .absent → wr = false →
        exec c s = .next ((s.regError (agentId a) wr off).answer .regError 0)) := by
  rcases hc with ⟨rfl, rfl⟩ | ⟨rfl, rfl⟩
  · rw [exec_registerWrite hw]
    exact ⟨fun he hz => congrArg _ (regWrite_of_size hp he hz), fun he => congrArg _ (regWrite_of_decode hp he),
      fun _ h => nomatch h⟩
  · rw [exec_registerRead hw]
    exact ⟨fun he hz => congrArg _ (regRead_of_size hp he hz), fun he => congrArg _ (regRead_of_decode hp he),
      fun he _ => congrArg _ (regRead_of_absent hp he)⟩

/-- Settles O56: the clauses on blocks by `exec_turnedAway`, those on windows by what each window does. -/
theorem accessErrorsAndWindows : Obligations.AccessErrorsAndWindows := by
  refine ⟨fun s a off bytes v u base b c wr hw hc hp => ?_, fun s a off bytes v u o hr hz => ?_⟩
  · obtain ⟨hsize, hdecode, habsent⟩ := exec_turnedAway (s := s) hw hc hp
    refine ⟨fun he h8 h4 => ?_, fun he hm ht => ?_, fun he hrd => ?_⟩
    · have hz : sizeOk off bytes = false := by
        rw [← Bool.not_eq_true, sizeOk_iff]
        exact fun h => h.elim h8 h4
      exact ⟨_, hsize he hz, rfl, fget_regError_write _ _, fget_regError_agent _ _, fget_regError_offset _ _,
        fget_regError_count _ _, (OnlyAnswer.refl s _).regError _ _ _ _⟩
    · rw [turnAway_decode wr hm ht] at hdecode
      exact ⟨_, hdecode he, rfl, fget_fadd_self 1, ((OnlyAnswer.refl s _).fadd _ (.head _)).answer _ _⟩
    · exact ⟨_, habsent he hrd, rfl, (OnlyAnswer.refl s _).regError _ _ _ _⟩
  · rw [← sizeOk_iff] at hz
    refine ⟨fun hp => ⟨fun hw => ?_, fun hw => ?_⟩, fun hp => ⟨fun hw => ?_, fun hw => ?_⟩⟩
    · rw [exec_registerWrite hw, regWrite_tileWin hr hz hp]
      have h := (sameUnits_pmcTile (t := s.answer .ok 0) u 0x11 1).2 (.refl _)
      generalize (s.answer .ok 0).pmcTile u 0x11 1 = q at h
      refine ⟨_, rfl, h.rsp_eq, ?_, fun w hne => ?_, h.window_tiles _⟩
      · rw [State.modTile, State.tile_setTile_self, h.tile_eq]
        rfl
      · rw [State.modTile, State.tile_setTile_ne _ _ hne, h.tile_eq]
        rfl
    · rw [exec_registerRead hw, regRead_tileWin hr hz hp]
      have h := (sameUnits_pmcTile (t := s.answer .ok 0) u 0x11 1).2 (.refl _)
      exact ⟨_, rfl, rfl, h.window_answer _⟩
    · rw [exec_registerWrite hw, regWrite_herdWin hr hz hp]
      have h := (sameUnits_pmcHerd (t := s.answer .ok 0) u 8 1).2 (.refl _)
      generalize (s.answer .ok 0).pmcHerd u 8 1 = q at h
      refine ⟨_, rfl, h.rsp_eq, State.herd_setHerd_self _ _ _, fun w hne => ?_, h.window_herds _⟩
      rw [State.herd_setHerd_ne _ _ hne, h.herd_eq]
      rfl
    · rw [exec_registerRead hw, regRead_herdWin hr hz hp]
      have h := (sameUnits_pmcHerd (t := s.answer .ok 0) u 7 1).2 (.refl _)
      exact ⟨_, rfl, rfl, h.window_answer _⟩

end Sys2Proof.Machine
end

section
/-!
Register space: 64-bit writes and reads of any register (O55). The fields of a write and of a read are told apart by their bits.
-/

set_option Elab.async false

namespace Sys2Proof.Machine

variable {s : State} {a : Agent} {b : Blk} {h : Hit} {off bytes v u base : Nat}

/-! ### Bits of words -/

theorem testBit_bits (x lo w k : Nat) : (bits x lo w).testBit k = (decide (k < w) && x.testBit (lo + k)) := by
  simp [bits, Nat.testBit_mod_two_pow, Nat.testBit_shiftRight]

theorem bit_eq_testBit (x k : Nat) : bit x k = x.testBit k := by
  rw [bit, bits, Nat.shiftRight_eq_div_pow, Nat.testBit_eq_decide_div_mod_eq, Nat.pow_one]
  rfl

theorem bits_ones {lo w : Nat} (hw : lo + w ≤ 64) : bits (2 ^ 64 - 1) lo w = 2 ^ w - 1 := by
  refine Nat.eq_of_testBit_eq fun k => ?_
  rw [testBit_bits, Nat.testBit_two_pow_sub_one, Nat.testBit_two_pow_sub_one, ← Bool.decide_and]
  exact decide_eq_decide.2 (by omega)

theorem bits_mod_word {lo w : Nat} (hw : lo + w ≤ 64) (x : Nat) : bits (x % 2 ^ 64) lo w = bits x lo w := by
  refine Nat.eq_of_testBit_eq fun k => ?_
  rw [testBit_bits, testBit_bits, Nat.testBit_mod_two_pow]
  by_cases hk : k < w
  · simp [show lo + k < 64 by omega]
  · simp [hk]

/-- Numbers with no bit in common add without a carry. -/
theorem testBit_add_of_disjoint {x y : Nat} (hxy : ∀ i, x.testBit i = true → y.testBit i = false) (k : Nat) :
    (x + y).testBit k = (x.testBit k || y.testBit k) := by
  induction k generalizing x y with
  | zero =>
    have h0 := hxy 0
    simp only [Nat.testBit_zero, decide_eq_true_eq, decide_eq_false_iff_not, ← Bool.decide_or] at h0 ⊢
    exact decide_eq_decide.2 (by omega)
  | succ k ih =>
    have h0 := hxy 0
    simp only [Nat.testBit_zero, decide_eq_true_eq, decide_eq_false_iff_not] at h0
    have hhalf : (x + y) / 2 = x / 2 + y / 2 := by omega
    rw [Nat.testBit_succ, Nat.testBit_succ, Nat.testBit_succ, hhalf]
    exact ih fun i => by simpa only [← Nat.testBit_succ] using hxy (i + 1)

/-! ### The word of a register -/

/-- Two fields have no bit in common. -/
def Fld.apart (f g : Fld) : Prop := f.lo + f.w ≤ g.lo ∨ g.lo + g.w ≤ f.lo

/-- The bit that a field gives a word of its register at a place. -/
def Fld.bitAt (x : Fld → Nat) (k : Nat) (f : Fld) : Bool :=
  decide (f.acc ≠ .wo) && decide (f.lo ≤ k ∧ k < f.lo + f.w) && (x f).testBit (k - f.lo)

theorem Fld.bitAt_outside {x : Fld → Nat} {k : Nat} {f : Fld} (hk : k < f.lo ∨ f.lo + f.w ≤ k) : f.bitAt x k = false := by
  have : ¬(f.lo ≤ k ∧ k < f.lo + f.w) := by omega
  simp [Fld.bitAt, this]

theorem Fld.bitAt_apart {x : Fld → Nat} {k : Nat} {f g : Fld} (hfg : f.apart g) (hf : f.bitAt x k = true) : g.bitAt x k = false := by
  by_cases hk : k < f.lo ∨ f.lo + f.w ≤ k
  · simp [Fld.bitAt_outside hk] at hf
  · refine Fld.bitAt_outside ?_
    rcases hfg with h | h <;> omega

theorem testBit_fldsWord {l : List Fld} (hl : l.Pairwise Fld.apart) (x : Fld → Nat) (k : Nat) :
    (fldsWord l x).testBit k = l.any (Fld.bitAt x k) := by
  induction l generalizing k with
  | nil => simp [fldsWord, sumList]
  | cons f l ih =>
    obtain ⟨hf, hl⟩ := List.pairwise_cons.1 hl
    have hhead : ∀ i, (if f.acc = .wo then 0 else (x f % 2 ^ f.w) <<< f.lo).testBit i = f.bitAt x i := by
      intro i
      by_cases hwo : f.acc = .wo
      · simp [Fld.bitAt, hwo]
      · simp only [Fld.bitAt, hwo, if_false, Nat.testBit_shiftLeft, Nat.testBit_mod_two_pow, ne_eq, not_false_eq_true, decide_true,
          Bool.true_and, ← Bool.and_assoc, ← Bool.decide_and]
        congr 1
        exact decide_eq_decide.2 (by omega)
    have hrest : ∀ i, (fldsWord l x).testBit i = l.any (Fld.bitAt x i) := ih hl
    have hsum : fldsWord (f :: l) x = (if f.acc = .wo then 0 else (x f % 2 ^ f.w) <<< f.lo) + fldsWord l x := rfl
    rw [hsum, testBit_add_of_disjoint, hhead, hrest, List.any_cons]
    intro i hi
    rw [hhead] at hi
    rw [hrest, List.any_eq_false]
    exact fun g hg => by simp [Fld.bitAt_apart (hf g hg) hi]

/-- A field of a word reads as its value, a write-only field as 0 (R16). -/
theorem bits_fldsWord {l : List Fld} (hl : l.Pairwise Fld.apart) (x : Fld → Nat) {f : Fld} (hf : f ∈ l) :
    bits (fldsWord l x) f.lo f.w = if f.acc = .wo then 0 else x f % 2 ^ f.w := by
  refine Nat.eq_of_testBit_eq fun k => ?_
  rw [testBit_bits, testBit_fldsWord hl]
  have : Std.Symm Fld.apart := ⟨fun _ _ => Or.symm⟩
  by_cases hk : k < f.w
  swap
  · split <;> simp [hk, Nat.testBit_mod_two_pow]
  have hself : l.any (Fld.bitAt x (f.lo + k)) = f.bitAt x (f.lo + k) := by
    cases hb : f.bitAt x (f.lo + k) with
    | true => exact List.any_eq_true.2 ⟨f, hf, hb⟩
    | false =>
      refine List.any_eq_false.2 fun g hg => ?_
      by_cases hgf : f = g
      · simp [← hgf, hb]
      · have hap : f.apart g := hl.forall hf hg hgf
        simp [Fld.bitAt_outside (x := x) (f := g) (k := f.lo + k) (by rcases hap with h | h <;> omega)]
  rw [hself]
  by_cases hwo : f.acc = .wo <;> simp [Fld.bitAt, hwo, hk, Nat.testBit_mod_two_pow]

/-! ### Writes of listed fields -/

/-- Give fields of a register values, one after the other. -/
def State.fsetAll (s : State) (off : Nat) (l : List Fld) (x : Fld → Nat) : State := l.foldl (fun s f => s.fset off f (x f)) s

theorem onlyAnswer_fsetAll {t : State} {ks : List Nat} {l : List Fld} {x : Fld → Nat} (ht : OnlyAnswer s t ks)
    (hl : ∀ f ∈ l, regKey off f ∈ ks) : OnlyAnswer s (t.fsetAll off l x) ks := by
  induction l generalizing t with
  | nil => exact ht
  | cons f l ih => exact ih (ht.fset _ (hl f (.head l))) fun g hg => hl g (.tail f hg)

theorem rsp_fsetAll {l : List Fld} {x : Fld → Nat} : (s.fsetAll off l x).rsp = s.rsp := by
  induction l generalizing s with
  | nil => rfl
  | cons f l ih => exact ih

theorem fget_fsetAll_of_not_mem {l : List Fld} {x : Fld → Nat} {f : Fld} (hf : f.lo ∉ l.map Fld.lo) :
    (s.fsetAll off l x).fget off f = s.fget off f := by
  induction l generalizing s with
  | nil => rfl
  | cons g l ih =>
    simp only [List.map_cons, List.mem_cons, not_or] at hf
    obtain ⟨hg, hl⟩ := hf
    refine (ih hl).trans (State.fget_fset_ne _ _ ?_)
    simp only [regKey]
    omega

theorem fget_fsetAll_of_mem {l : List Fld} {x : Fld → Nat} {f : Fld} (hl : (l.map Fld.lo).Nodup) (hf : f ∈ l) :
    (s.fsetAll off l x).fget off f = x f % 2 ^ f.w := by
  induction l generalizing s with
  | nil => exact nomatch hf
  | cons g l ih =>
    obtain ⟨hg, hl⟩ := List.nodup_cons.1 hl
    rcases List.mem_cons.1 hf with rfl | hf
    · exact (fget_fsetAll_of_not_mem hg).trans (State.fget_fset_self _ _ _ _)
    · exact ih hl hf

/-- Of a list of fields with different least bits, one that is not among those that are set keeps its value. -/
theorem fget_fsetAll_filter {l : List Fld} {x : Fld → Nat} {p : Fld → Bool} {f : Fld} (hl : (l.map Fld.lo).Nodup) (hf : f ∈ l) :
    (s.fsetAll off (l.filter p) x).fget off f = if p f = true then x f % 2 ^ f.w else s.fget off f := by
  split
  · next hp => exact fget_fsetAll_of_mem (hl.sublist (List.filter_sublist.map _)) (List.mem_filter.2 ⟨hf, hp⟩)
  · next hp =>
    refine fget_fsetAll_of_not_mem fun hm => ?_
    obtain ⟨g, hg, hgf⟩ := List.mem_map.1 hm
    obtain ⟨hgl, hpg⟩ := List.mem_filter.1 hg
    exact hp (List.inj_on_of_nodup_map hl hgl hf hgf ▸ hpg)

/-- Fields of some width with no bit in common have different least bits. -/
theorem nodup_lo_of_apart {l : List Fld} (hl : l.Pairwise Fld.apart) (hw : ∀ f ∈ l, 0 < f.w) : (l.map Fld.lo).Nodup := by
  refine List.pairwise_map.2 (hl.imp_of_mem fun {f g} hf hg hfg => ?_)
  have := hw f hf
  have := hw g hg
  rcases hfg with h | h <;> omega

/-! ### The value that a write gives a field (R16) -/

/-- The fields that a write stores, by their access codes. -/
def Fld.stored (f : Fld) : Bool := decide (f.acc ≠ .wo ∧ f.acc ≠ .ro ∧ f.acc ≠ .rc)

theorem plainWr_eq_fsetAll (w : RegWr) :
    s.plainWr h none w [] = s.fsetAll h.off (h.row.fields.filter Fld.stored) fun f => w.field f (s.fieldOf h none f) := by
  rw [State.plainWr, State.fsetAll, List.foldl_filter]
  congr 1
  funext t f
  by_cases hs : f.acc = .wo ∨ f.acc = .ro ∨ f.acc = .rc
  · have : f.stored = false := by simp only [Fld.stored]; exact decide_eq_false (by tauto)
    simp [this, hs]
  · have : f.stored = true := by simp only [Fld.stored]; exact decide_eq_true (by tauto)
    simp [this, State.fieldPut]
    tauto

theorem accMask_word : accMask off 8 = 2 ^ 64 - 1 := rfl

/-- A 64-bit write covers every field whole: what it gives a field depends on its access code and the bits that it spells there. -/
theorem field_regWr {f : Fld} (ho : off % 8 = 0) (hf : f.lo + f.w ≤ 64) (old : Nat) :
    (s.regWr h off 8 v false).field f old =
      match f.acc with
      | .rw => old - old % 2 ^ f.w + bits v f.lo f.w
      | .lk => if s.lockedAt h then old else old - old % 2 ^ f.w + bits v f.lo f.w
      | .w1c => old - (old &&& bits v f.lo f.w)
      | .w1s => old ||| bits v f.lo f.w
      | .wo => bits v f.lo f.w
      | _ => old := by
  have hb : bits v f.lo f.w % 2 ^ f.w = bits v f.lo f.w := Nat.mod_mod _ _
  have hm : bits (s.regWr h off 8 v false).m f.lo f.w = 2 ^ f.w - 1 := bits_ones hf
  have hv : bits (s.regWr h off 8 v false).v f.lo f.w = bits v f.lo f.w := by
    rw [State.regWr, ho]
    exact bits_mod_word hf v
  simp only [RegWr.field, hm, hv, Nat.and_two_pow_sub_one_eq_mod, hb]
  cases f.acc <;> rfl

/-! ### Accesses that reach a register -/

/-- A field shows the same value whatever the last answer was. -/
theorem fieldOf_answer (k : RspKind) (d : Nat) (f : Fld) : (s.answer k d).fieldOf h none f = s.fieldOf h none f := rfl

theorem reservedWr_answer (k : RspKind) (d : Nat) (w : RegWr) : (s.answer k d).reservedWr h none w = s.reservedWr h none w := rfl

theorem mask_codeField {n : RegName} {f : Fld} (hf : codeField n = some f) : (f.mask &&& (2 ^ 64 - 1) != 0) = true := by
  unfold codeField at hf
  split at hf <;> cases hf <;> decide

/-- A 64-bit write covers the field that names the command of a command register. -/
theorem commands_regWr : h.commands (s.regWr h off 8 v false) = true := by
  unfold Hit.commands
  split
  · next f hf => exact mask_codeField hf
  · rfl

theorem sizeOk_word (ho : off % 8 = 0) : sizeOk off 8 = true := sizeOk_iff.2 (.inl ⟨rfl, ho⟩)

theorem slotFor_of_not_ctx (hx : h.isCtx = false) : s.slotFor a h = none := by
  simp [State.slotFor, hx]

section
variable (hp : regPlace off = .blk b u base)
include hp

theorem regWrite_of_hit (he : s.entry a b u off true = .reach) (hz : sizeOk off bytes = true) (hh : hitAt b u base off = some h)
    (hu : s.userOk a b u h true = true) (hx : h.isCtx = false) :
    s.regWrite a off bytes v = (s.answer .ok 0).writeHit a h none (s.regWr h off bytes v false) := by
  simp [State.regWrite, hp, he, hz, hh, hu, hx, slotFor_of_not_ctx hx]

theorem regWrite_of_no_hit (he : s.entry a b u off true = .reach) (hz : sizeOk off bytes = true) (hh : hitAt b u base off = none) :
    s.regWrite a off bytes v = s.answer .ok 0 := by
  simp [State.regWrite, hp, he, hz, hh]

theorem regRead_of_hit (he : s.entry a b u off false = .reach) (hz : sizeOk off bytes = true) (hh : hitAt b u base off = some h)
    (hu : s.userOk a b u h false = true) (hx : h.isCtx = false) : s.regRead a off bytes = s.readHit h none off bytes := by
  simp [State.regRead, hp, he, hz, hh, hu, hx, slotFor_of_not_ctx hx]

/-- A user-mode read that its partition does not allow is a register access error (R464). -/
theorem regRead_of_not_userOk (he : s.entry a b u off false = .reach) (hz : sizeOk off bytes = true)
    (hh : hitAt b u base off = some h) (hu : s.userOk a b u h false = false) : s.regRead a off bytes = s.badRead a off := by
  simp [State.regRead, hp, he, hz, hh, hu]

theorem regRead_of_no_hit (he : s.entry a b u off false = .reach) (hz : sizeOk off bytes = true) (hh : hitAt b u base off = none) :
    s.regRead a off bytes = s.answer .ok 0 := by
  simp [State.regRead, hp, he, hz, hh]

end

/-! ### A write of a register -/

theorem writeHit_of_reserved {w : RegWr} (ha : h.acts w = true) (hc : h.commands w = true) (hr : s.reservedWr h none w = true) :
    s.writeHit a h none w = s.badWrite a h.off := by
  simp [State.writeHit, ha, hc, hr]

theorem writeHit_of_plain {w : RegWr} (ha : h.acts w = true) (hc : h.commands w = true) (hr : s.reservedWr h none w = false)
    (he : s.effectWr a h w (s.spelled h none w) = s.plainWr h none w []) : s.writeHit a h none w = s.plainWr h none w [] := by
  simp [State.writeHit, ha, hc, hr, he]

/-- What a 64-bit write of a register that only holds its fields leaves in one of them. -/
theorem fget_plainWr_word {t : State} {f : Fld} (ho : off % 8 = 0) (hl : (h.row.fields.map Fld.lo).Nodup) (hf : f ∈ h.row.fields)
    (hw : f.lo + f.w ≤ 64) :
    (t.plainWr h none (s.regWr h off 8 v false) []).fget h.off f =
      match f.acc with
      | .rw => bits v f.lo f.w
      | .lk => if s.lockedAt h then t.fieldOf h none f % 2 ^ f.w else bits v f.lo f.w
      | .w1c => (t.fieldOf h none f - (t.fieldOf h none f &&& bits v f.lo f.w)) % 2 ^ f.w
      | .w1s => (t.fieldOf h none f ||| bits v f.lo f.w) % 2 ^ f.w
      | .cfg => t.fieldOf h none f % 2 ^ f.w
      | _ => t.fget h.off f := by
  have hb : bits v f.lo f.w < 2 ^ f.w := Nat.mod_lt _ (Nat.two_pow_pos _)
  have hset : ∀ old, (old - old % 2 ^ f.w + bits v f.lo f.w) % 2 ^ f.w = bits v f.lo f.w := fun old => by
    rw [Nat.add_mod, Nat.sub_mod_eq_zero_of_mod_eq (Nat.mod_mod _ _).symm, Nat.zero_add, Nat.mod_mod, Nat.mod_eq_of_lt hb]
  rw [plainWr_eq_fsetAll, fget_fsetAll_filter hl hf, field_regWr ho hw]
  cases hacc : f.acc <;> simp [Fld.stored, hacc, hset, apply_ite (· % 2 ^ f.w)]

theorem onlyAnswer_plainWr {t : State} {w : RegWr} (ht : OnlyAnswer s t (h.row.fields.map fun f => regKey h.off f)) :
    OnlyAnswer s (t.plainWr h none w []) (h.row.fields.map fun f => regKey h.off f) := by
  rw [plainWr_eq_fsetAll]
  exact onlyAnswer_fsetAll ht fun f hf => List.mem_map_of_mem (List.mem_filter.1 hf).1

/-! ### A read of a register -/

theorem mask_and_word_ne_zero {f : Fld} (hw : f.lo + f.w ≤ 64) (h0 : 0 < f.w) : f.mask &&& (2 ^ 64 - 1) ≠ 0 := by
  intro h
  have hbit : (f.mask &&& (2 ^ 64 - 1)).testBit f.lo = true := by
    rw [Nat.testBit_and, Fld.mask, Nat.testBit_shiftLeft, Nat.testBit_two_pow_sub_one, Nat.testBit_two_pow_sub_one]
    simp [h0, show f.lo < 64 by omega]
  rw [h, Nat.zero_testBit] at hbit
  exact nomatch hbit

/-- A 64-bit read clears every RC field. -/
theorem clearRc_word (hw : ∀ f ∈ h.row.fields, f.lo + f.w ≤ 64 ∧ 0 < f.w) :
    s.clearRc h none (2 ^ 64 - 1) = s.fsetAll h.off (h.row.fields.filter fun f => f.acc == .rc) fun _ => 0 := by
  rw [State.clearRc, State.fsetAll, List.foldl_filter]
  refine List.foldl_ext _ _ _ fun t f hf => ?_
  obtain ⟨hlo, h0⟩ := hw f hf
  simp only [mask_and_word_ne_zero hlo h0, ne_eq, not_false_eq_true, and_true, beq_iff_eq]
  rfl

theorem readHit_of_plain (h1 : h.row.name ≠ .HRD_TASK_POP) (h2 : h.row.name ≠ .HRD_SUMM_Q) (h3 : sensorFields h.row.name = []) :
    s.readHit h none off bytes = (s.clearRc h none (accMask off bytes)).answer .ok (wordPart off bytes (s.wordOf h none)) := by
  unfold State.readHit
  split
  · contradiction
  · contradiction
  · simp [State.measure, h3]

theorem wordPart_word (ho : off % 8 = 0) (x : Nat) : wordPart off 8 x = x % 2 ^ 64 := by
  simp [wordPart, accMask_word, ho, Nat.and_two_pow_sub_one_eq_mod x 64]

/-- The bits of what a 64-bit read returns, at each field. -/
theorem bits_readWord {f : Fld} (ho : off % 8 = 0) (hd : h.row.fields.Pairwise Fld.apart) (hf : f ∈ h.row.fields)
    (hw : f.lo + f.w ≤ 64) :
    bits (wordPart off 8 (s.wordOf h none)) f.lo f.w = if f.acc = .wo then 0 else s.fieldOf h none f % 2 ^ f.w := by
  rw [wordPart_word ho, bits_mod_word hw]
  exact bits_fldsWord hd _ hf

theorem bit_readWord_outside {k : Nat} (ho : off % 8 = 0) (hd : h.row.fields.Pairwise Fld.apart)
    (hk : ∀ f ∈ h.row.fields, k < f.lo ∨ f.lo + f.w ≤ k) : bit (wordPart off 8 (s.wordOf h none)) k = false := by
  have hword : (s.wordOf h none).testBit k = false := by
    rw [State.wordOf, testBit_fldsWord hd, List.any_eq_false]
    exact fun f hf => by simp [Fld.bitAt_outside (hk f hf)]
  rw [bit_eq_testBit, wordPart_word ho, Nat.testBit_mod_two_pow, hword, Bool.and_false]

/-- Settles O55: writes go by `fget_plainWr_word`, reads by `bits_readWord` and `clearRc_word`. -/
theorem registerAccess : Obligations.RegisterAccess := by
  refine ⟨fun s a off v u base b h hw ho hp hh he hu hx ha => ⟨fun hr hl hplain => ?_, fun hr => ?_⟩,
    fun s a off bytes v u base b hw hp hh he hz => ?_,
    fun s a off u base b h hw ho hp hh he hx => ⟨fun hu h1 h2 h3 hd hf => ?_, fun hu => ?_⟩,
    fun s a off bytes u base b hw hp hh he hz => ?_⟩
  · have hr' := (reservedWr_answer .ok 0 _).trans hr
    rw [exec_registerWrite hw, regWrite_of_hit hp he (sizeOk_word ho) hh hu hx, writeHit_of_plain ha commands_regWr hr' (hplain _)]
    refine ⟨_, rfl, ?_, fun f hf hlo => ?_, onlyAnswer_plainWr ((OnlyAnswer.refl s _).answer _ _)⟩
    · rw [Served, plainWr_eq_fsetAll]
      exact rsp_fsetAll
    · rw [fget_plainWr_word ho hl hf hlo, fieldOf_answer, State.fget_answer]
      cases f.acc <;> simp +contextual
  · have hr' := (reservedWr_answer .ok 0 _).trans hr
    rw [exec_registerWrite hw, regWrite_of_hit hp he (sizeOk_word ho) hh hu hx, writeHit_of_reserved ha commands_regWr hr']
    exact ⟨_, rfl, rfl, fget_regError_write _ _, ((OnlyAnswer.refl s _).answer _ _).regError _ _ _ _⟩
  · rw [exec_registerWrite hw, regWrite_of_no_hit hp he (sizeOk_iff.2 hz) hh]
    rfl
  · rw [exec_registerRead hw, regRead_of_hit hp he (sizeOk_word ho) hh hu hx, readHit_of_plain h1 h2 h3, accMask_word,
      clearRc_word hf]
    refine ⟨_, rfl, rfl, fun f hm => bits_readWord ho hd hm (hf f hm).1, fun k _ hk => bit_readWord_outside ho hd hk,
      fun f hm hrc => ?_, (onlyAnswer_fsetAll (OnlyAnswer.refl s _) fun f hm => List.mem_map_of_mem hm).answer _ _⟩
    have hl := nodup_lo_of_apart hd fun f hm => (hf f hm).2
    exact (fget_fsetAll_filter hl hm).trans (by simp [hrc])
  · rw [exec_registerRead hw, regRead_of_not_userOk hp he (sizeOk_word ho) hh hu]
    exact ⟨_, rfl, rfl, fget_regError_write _ _, (OnlyAnswer.refl s _).regError _ _ _ _⟩
  · rw [exec_registerRead hw, regRead_of_no_hit hp he (sizeOk_iff.2 hz) hh]
    rfl

end Sys2Proof.Machine
end

section
/-!
What time passing leaves: the refill of the regulators (action 8 of R55), the end of a refresh slot (R62) and the clock. The view
`State.still` of a package leaves out what served requests, events and messages touch; each operation keeps the view.
-/

set_option Elab.async false

namespace Sys2Proof.Machine

variable {s t : State}

/-! ### Repetition -/

/-- What every step of a repetition keeps, the repetition keeps. -/
theorem foldl_keeps {σ α β : Type} {v : σ → β} {f : σ → α → σ} (hf : ∀ s x, v (f s x) = v s) (l : List α) (s : σ) :
    v (l.foldl f s) = v s := by
  induction l generalizing s with
  | nil => rfl
  | cons x l ih => exact (ih _).trans (hf s x)

theorem forRange_keeps {σ β : Type} {v : σ → β} {f : Nat → σ → σ} (hf : ∀ k s, v (f k s) = v s) (n : Nat) (s : σ) :
    v (forRange n f s) = v s := foldl_keeps (fun s k => hf k s) _ s

/-- An effect under a condition keeps what the effect keeps. -/
theorem when_keeps {β : Type} {v : State → β} {b : Bool} {f : State → State} (hf : ∀ s, v (f s) = v s) (s : State) :
    v (s.when b f) = v s := by
  cases b
  · rfl
  · exact hf s

/-! ### Register fields and units -/

/-- Fields of registers at different offsets have different keys. -/
theorem regKey_ne_of_off {o p : Nat} {f g : Fld} (h : o + 8 ≤ p ∨ p + 8 ≤ o) (hf : f.lo < 64) (hg : g.lo < 64) :
    regKey o f ≠ regKey p g := by
  simp only [regKey]
  omega

/-- Fields of one register have the keys of their least bits. -/
theorem regKey_ne_of_lo {o : Nat} {f g : Fld} (h : f.lo ≠ g.lo) : regKey o f ≠ regKey o g := by
  simp only [regKey]
  omega

/-- Neither the TCK_ block nor the SCH_ blocks of the partitions hold a register that units write. -/
theorem not_unitReg {o : Nat} (h : 0x300000 ≤ o ∧ o < 0x400000 ∨ 0x800000 ≤ o ∧ o < 0x900000) : ¬ unitReg o := by
  have hd (d : Nat) : 0x40000000 ≤ B.die d := by simp only [B.die]; omega
  rintro ((⟨d, -, rfl⟩ | ⟨p, t, -, -, rfl⟩ | ⟨k, -, rfl | rfl | rfl⟩ | ⟨u, -, rfl | rfl⟩ | ⟨i, hi, rfl⟩ | ⟨x, i, hx, hi, rfl⟩)
    | rfl | rfl | rfl | rfl | ⟨n, w, hn, hw, rfl⟩ | ⟨u, i, -, rfl | rfl | rfl | rfl⟩)
  case inl.inl => have := hd d; simp only [R.PLC_RMC_STAT, B.plcDie] at h; omega
  case inl.inr.inr.inl.inl | inl.inr.inr.inl.inr.inl | inl.inr.inr.inl.inr.inr =>
    simp only [R.COH_STAT, R.COH_SF, R.COH_BUSY, B.coh, B.die] at h
    split at h <;> omega
  case inl.inr.inr.inr.inl.inl | inl.inr.inr.inr.inl.inr =>
    simp only [errReg, errAddrReg, B.unit, B.stk, B.cap, B.die] at h
    split at h <;> omega
  all_goals
    simp only [R.PLC_REG_LVL, R.LIF_CNT, R.LIF_HIST, R.FLT_LOG_PTR, R.FLT_ERRCNT, R.PKG_EVQ_PTR, R.PKG_PMC_CTL, R.FLT_LOG, R.PMC_TEVT,
      R.PMC_HEVT, B.til, B.hrd, B.die] at h
    omega

/-! ### The refill of the regulators -/

theorem sameUnits_drainReg {p i : Nat} (hp : p < 8) (hi : i < 3) (n : Nat) : SameUnits s (State.drainReg p i n t) ↔ SameUnits s t := by
  induction n generalizing t with
  | zero => rfl
  | succ n ih =>
    simp only [State.drainReg]
    split
    · rfl
    · rename_i k c l _
      have h := sameUnits_issueTokens (s := s) (t := t) hp hi k c
      split <;> rename_i e <;> rw [e] at h
      · rw [ih, sameUnits_setRegQ, h]
      · rw [sameUnits_setRegQ, h]

/-- The buckets of a tier receive four times their rate, to four times their burst (R291). -/
def State.fillBuckets (s : State) (i : Nat) : State :=
  forRange 8 (fun p s => s.setBucket p i (min (s.bucket p i + 4 * s.rate p i) (4 * s.burst p i))) s

/-- The common pool of a tier receives what is left (R291). -/
def State.fillPool (s : State) (i : Nat) : State := { s with pools := setAt s.pools i (s.poolRefill i) }

/-- Requests that wait for a tier are issued (R291). -/
def State.drainTier (s : State) (i : Nat) : State := forRange 8 (fun p s => State.drainReg p i (s.regQ p i).wait.length s) s

theorem State.refill_eq (s : State) : s.refill = forRange 3 (fun i s => ((s.fillBuckets i).fillPool i).drainTier i) s := rfl

theorem sameUnits_refill (s : State) : SameUnits s s.refill := by
  rw [State.refill_eq]
  refine sameUnits_range _ (fun i t hi => ?_) s
  have h1 : SameUnits t (t.fillBuckets i) := sameUnits_range _ (fun p u hp => (sameUnits_setBucket hp hi _).2 (.refl u)) t
  have h2 : SameUnits t ((t.fillBuckets i).fillPool i) := sameUnits_pools.2 h1
  exact h2.trans (sameUnits_range _ (fun p u hp => (sameUnits_drainReg hp hi _).2 (.refl u)) _)

/-! ### The refill looks at no answer -/

theorem forRange_comm {σ : Type} {g : σ → σ} {f : Nat → σ → σ} (hf : ∀ k s, f k (g s) = g (f k s)) (n : Nat) (s : σ) :
    forRange n f (g s) = g (forRange n f s) := by
  simp only [forRange]
  generalize List.range n = l
  induction l generalizing s with
  | nil => rfl
  | cons x l ih => rw [List.foldl_cons, hf, ih]; rfl

section Answer
variable {k : RspKind} {d : Nat}

theorem issueTokens_answer {p i n c : Nat} :
    (s.answer k d).issueTokens p i n c = ((s.issueTokens p i n c).1.answer k d, (s.issueTokens p i n c).2) := by
  have hb : (s.answer k d).bucket p i = s.bucket p i := rfl
  unfold State.issueTokens
  simp only [hb, State.answer_pools]
  split
  · rfl
  · split <;> split <;> rfl

theorem drainReg_answer {p i : Nat} (n : Nat) (s : State) :
    State.drainReg p i n (s.answer k d) = (State.drainReg p i n s).answer k d := by
  induction n generalizing s with
  | zero => rfl
  | succ n ih =>
    have hq : (s.answer k d).regQ p i = s.regQ p i := rfl
    simp only [State.drainReg, hq]
    split
    · rfl
    · rename_i m c l _
      rw [issueTokens_answer]
      generalize s.issueTokens p i m c = z
      obtain ⟨s1, _ | j⟩ := z
      · exact ih (s1.setRegQ p i _)
      · rfl

theorem fillBuckets_answer (i : Nat) (s : State) : (s.answer k d).fillBuckets i = (s.fillBuckets i).answer k d := by
  have h := forRange_comm (g := fun s => s.answer k d)
    (f := fun p s => s.setBucket p i (min (s.bucket p i + 4 * s.rate p i) (4 * s.burst p i))) (fun _ _ => rfl) 8 s
  exact h

theorem drainTier_answer (i : Nat) (s : State) : (s.answer k d).drainTier i = (s.drainTier i).answer k d := by
  have h := forRange_comm (g := fun s => s.answer k d) (f := fun p s => State.drainReg p i (s.regQ p i).wait.length s)
    (fun p s => drainReg_answer (s.regQ p i).wait.length s) 8 s
  exact h

theorem fillPool_answer (i : Nat) (s : State) : (s.answer k d).fillPool i = (s.fillPool i).answer k d := rfl

theorem refill_answer (s : State) : (s.answer k d).refill = s.refill.answer k d := by
  have h := forRange_comm (g := fun s => s.answer k d) (f := fun i s => ((s.fillBuckets i).fillPool i).drainTier i)
    (fun i s => by rw [fillBuckets_answer, fillPool_answer, drainTier_answer]) 3 s
  rw [State.refill_eq, State.refill_eq]
  exact h

theorem leaves_answer (s : State) : (s.answer k d).leaves = s.leaves.answer k d := by
  unfold State.leaves
  cases h : s.clk.refill
  · simp [h]
  · simp only [h, State.answer_clk, if_true]
    exact refill_answer { s with clk := { s.clk with refill := false } }

end Answer

/-! ### Time passes beyond the actions of a boundary (log entry 9) -/

theorem leaves_of_refill (h : s.clk.refill = false) : s.leaves = s := by simp [State.leaves, h]

theorem sameUnits_leaves (s : State) : SameUnits { s with clk := { s.clk with refill := false } } s.leaves := by
  cases h : s.clk.refill
  · rw [leaves_of_refill h, ← h]
    exact .refl s
  · simp only [State.leaves, h, if_true]
    exact sameUnits_refill _

@[simp] theorem leaves_clk (s : State) : s.leaves.clk = { s.clk with refill := false } := (sameUnits_leaves s).clk

@[simp] theorem leaves_tiles (s : State) : s.leaves.tiles = s.tiles := by rw [(sameUnits_leaves s).1]
@[simp] theorem leaves_herds (s : State) : s.leaves.herds = s.herds := by rw [(sameUnits_leaves s).1]
@[simp] theorem leaves_cores (s : State) : s.leaves.cores = s.cores := by rw [(sameUnits_leaves s).1]
@[simp] theorem leaves_parts (s : State) : s.leaves.parts = s.parts := by rw [(sameUnits_leaves s).1]
@[simp] theorem leaves_pending (s : State) : s.leaves.pending = s.pending := by rw [(sameUnits_leaves s).1]

theorem leaves_fget {off : Nat} {f : Fld} (ho : off % 8 = 0) (hf : f.lo < 64)
    (h : 0x300000 ≤ off ∧ off < 0x400000 ∨ 0x800000 ≤ off ∧ off < 0x900000) : s.leaves.fget off f = s.fget off f :=
  (sameUnits_leaves s).fget ho hf (not_unitReg h)

theorem leaves_ppsEn (s : State) : s.leaves.fbit R.TCK_CTRL F.TCK_CTRL_PPS_OUT_EN = s.fbit R.TCK_CTRL F.TCK_CTRL_PPS_OUT_EN := by
  unfold State.fbit
  rw [leaves_fget (by decide) (by decide) (by decide)]

/-- A TIME_PPS pulse is of the clock alone. -/
theorem ppsStart_eq (s : State) :
    s.ppsStart = { s with clk := { s.clk with
      ppsLeft := if s.fbit R.TCK_CTRL F.TCK_CTRL_PPS_OUT_EN then 110000000 else s.clk.ppsLeft } } := by
  unfold State.ppsStart State.when
  split <;> rfl

/-! ### What served requests leave -/

/-- The package without what a served request, an event, a message or an access of memory touches. -/
def State.still (s : State) : State :=
  { s with regs := [], mem := [], soft := [], cache := [], migs := [], poison := [], rmc := [], heat := [], rangeMap := [], quiet := [],
           trunkRr := [], ports := [], bw := [], rreqs := [], hltEv := [], free := 0, evqLost := false, evqPhase := false,
           evqIrq := false, mgmt := {}, chkCache := [], llc := [], busy := [], msgs := [], wback := [], snoop := [], arb := [],
           reqQ := [], regQs := [], pools := [], chans := [], rwait := [], acc := {}, holds := [], recent := [], rsp := {},
           copies := [] }

theorem SameRest.still (h : SameRest s t) : t.still = s.still := by rw [h]; rfl

theorem SameUnits.still (h : SameUnits s t) : t.still = s.still := h.1.still

@[simp] theorem still_clk (s : State) : s.still.clk = s.clk := rfl
@[simp] theorem still_tiles (s : State) : s.still.tiles = s.tiles := rfl
@[simp] theorem still_herds (s : State) : s.still.herds = s.herds := rfl
@[simp] theorem still_cores (s : State) : s.still.cores = s.cores := rfl
@[simp] theorem still_parts (s : State) : s.still.parts = s.parts := rfl
@[simp] theorem still_pending (s : State) : s.still.pending = s.pending := rfl

theorem still_chanRead (line : Nat) (s : State) : (State.chanRead unitEvent s line).still = s.still :=
  ((sameUnits_chanRead keepsUnits_unitEvent line).2 (.refl s)).still

theorem still_chanWrote (line : Nat) (s : State) : (s.chanWrote line).still = s.still :=
  ((sameUnits_chanWrote line).2 (.refl s)).still

theorem still_chanServe (r : ChanReq) (s : State) : (s.chanServe r).still = s.still := by
  unfold State.chanServe
  split
  · exact still_chanWrote _ _
  · dsimp only
    split
    · exact still_chanRead _ _
    · exact still_chanRead _ _

theorem still_chanDrain (k n : Nat) (s : State) : (State.chanDrain k n s).still = s.still := by
  induction n generalizing s with
  | zero => rfl
  | succ n ih =>
    simp only [State.chanDrain]
    split
    · rfl
    · split
      · exact (ih _).trans (still_chanServe _ _)
      · rfl

theorem still_chansServe (which : Nat → Bool) (s : State) : (s.chansServe which).still = s.still :=
  foldl_keeps (v := State.still) (fun s e => by split; exacts [still_chanDrain _ _ s, rfl]) _ s

theorem still_poisonAt (line v : Nat) (s : State) : (s.poisonAt line v).still = s.still := by
  unfold State.poisonAt
  refine (still_chanWrote _ _).trans ?_
  unfold State.llcDrop
  split <;> rfl

theorem still_moveLine (c : RowCopy) (s : State) (l : Nat) : (State.moveLine c s l).still = s.still := by
  unfold State.moveLine
  dsimp only
  split
  · exact (still_chanWrote _ _).trans (still_chanRead l s)
  · exact (still_poisonAt _ _ _).trans (still_chanRead l s)

theorem still_copyRow (c : RowCopy) (s : State) : (s.copyRow c).still = s.still := by
  unfold State.copyRow
  split
  · rfl
  · exact foldl_keeps (v := State.still) (still_moveLine c) c.left s

/-- What waited for a refresh slot goes on: requests, transactions and copies of rows (R62). -/
theorem still_slotOver (which : Nat → Bool) (s : State) : (s.slotOver which).still = s.still := by
  unfold State.slotOver
  refine (foldl_keeps (v := State.still) (fun s c => still_copyRow c s) _ _).trans ?_
  exact ((sameUnits_unpark keepsUnits_unitEvent _).2 (.refl (s.chansServe which))).still.trans (still_chansServe which s)

end Sys2Proof.Machine
end

section
/-!
Steps without a command (O1), and the time base with its pins (O5, O6).
-/

set_option Elab.async false

namespace Sys2Proof.Machine

variable {s : State}

/-! ### A step -/

theorem step_of_cons {c : Instr} {rest : List Instr} (h : s.pending = c :: rest) : step s = exec c { s with pending := rest } := by
  simp [step, h]

theorem step_of_nil (h : s.pending = []) : step s = .next s.cycle := by simp [step, h]

theorem when_ppsStart_eq (s : State) (b : Bool) : ∃ x, s.when b State.ppsStart = { s with clk := { s.clk with ppsLeft := x } } := by
  cases b
  · exact ⟨s.clk.ppsLeft, rfl⟩
  · exact ⟨_, ppsStart_eq s⟩

/-- The refresh slot ends where the time base passes beyond it. -/
def State.slotEnds (s : State) : State := { s with clk := { s.clk with refSlot := false } }.slotOver fun _ => true

theorem still_slotEnds (s : State) : s.slotEnds.still = { s.still with clk := { s.clk with refSlot := false } } := still_slotOver _ _

/-- The package as a cycle of the tile clock has passed, TIME_PPS and the refresh slot apart. -/
def State.counted (s : State) : State :=
  { s.leaves with clk := { s.advance.2.pass s.advance.1 with cyc := s.clk.cyc + 1, phase := 9, refill := false } }

@[simp] theorem counted_tiles (s : State) : s.counted.tiles = s.tiles := by simp [State.counted]
@[simp] theorem counted_herds (s : State) : s.counted.herds = s.herds := by simp [State.counted]
@[simp] theorem counted_cores (s : State) : s.counted.cores = s.cores := by simp [State.counted]
@[simp] theorem counted_parts (s : State) : s.counted.parts = s.parts := by simp [State.counted]
@[simp] theorem counted_pending (s : State) : s.counted.pending = s.pending := by simp [State.counted]

theorem cycle_of_lt (h : s.clk.tb + s.advance.1 < (s.clk.tb / s.period + 1) * s.period) :
    s.cycle = (s.counted.when (decide (s.clk.tb / cyclesPerSecond < s.counted.clk.tb / cyclesPerSecond)) State.ppsStart).when
      (s.clk.refSlot && !s.counted.slotOpen) State.slotEnds := by
  unfold State.cycle
  exact if_neg (Nat.not_le.2 h)

theorem cycle_of_le (h : (s.clk.tb / s.period + 1) * s.period ≤ s.clk.tb + s.advance.1) : s.cycle = s := by
  unfold State.cycle
  exact if_pos h

theorem advance_of_idle (hr : s.ratePpb = 0) (ha : s.clk.rateAcc < 1000000000) (hs : s.clk.slewNow = 0) : s.advance.1 = 1 := by
  have hg : (s.clk.rateAcc : Int) / 1000000000 = 0 := by omega
  simp [State.advance, Clock.rate, hr, hs, hg]

/-- Settles O1: a command in front of the queue is executed; a cycle without one counts on, or is left to TICK_BOUNDARY. -/
theorem stepRunsFront : Obligations.StepRunsFront := by
  refine ⟨fun s c rest h => step_of_cons h, fun s hp h => ?_, fun s hp h => ?_, fun s => advance_of_idle⟩
  · obtain ⟨x, hx⟩ := when_ppsStart_eq s.counted (decide (s.clk.tb / cyclesPerSecond < s.counted.clk.tb / cyclesPerSecond))
    rw [step_of_nil hp, cycle_of_lt h, hx]
    cases hb : s.clk.refSlot && !s.counted.slotOpen
    · exact ⟨_, rfl, rfl, rfl, rfl, rfl, fun _ => rfl, leaves_of_refill, counted_tiles s, counted_herds s, counted_cores s,
        counted_parts s, counted_pending s⟩
    · have hv := still_slotEnds { s.counted with clk := { s.counted.clk with ppsLeft := x } }
      have hc := congrArg State.clk hv
      refine ⟨_, rfl, congrArg Clock.tb hc, congrArg Clock.cyc hc, congrArg Clock.phase hc, congrArg Clock.refill hc, ?_, leaves_of_refill,
        (congrArg State.tiles hv).trans (counted_tiles s), (congrArg State.herds hv).trans (counted_herds s),
        (congrArg State.cores hv).trans (counted_cores s), (congrArg State.parts hv).trans (counted_parts s),
        (congrArg State.pending hv).trans (counted_pending s)⟩
      intro hr
      simp [hr] at hb
  · rw [step_of_nil hp, cycle_of_le h]

/-! ### A write of PERIOD_LOG2 (R54) -/

section Period
variable {a : Agent} {v : Nat}

theorem exec_periodLog2Write (hw : instrWf (.periodLog2Write a v) = true) (he : s.entry a .tck 0 R.TCK_CTRL true = .reach)
    (hl : s.fbit R.TCK_CTRL F.TCK_CTRL_LOCK = false) (hv : v ≠ s.pLog) (h1 : 14 ≤ v) (h2 : v ≤ 20) :
    exec (.periodLog2Write a v) s = .next (if s.periodOk v then (s.answer .ok 0).fset R.TCK_CTRL F.TCK_CTRL_PERIOD_LOG2 v
      else ((s.answer .ok 0).fset R.TCK_STATUS F.TCK_STATUS_CTRL_REFUSED 1).badWrite a R.TCK_CTRL) := by
  refine (State.runIf_true s hw _).trans ?_
  have hl' : (s.answer .ok 0).fbit R.TCK_CTRL F.TCK_CTRL_LOCK = false := hl
  have hv' : (v == (s.answer .ok 0).pLog) = false := beq_eq_false_iff_ne.2 hv
  rw [State.writeReg_reach _ he, periodWrite, hl', hv']
  simp only [Bool.or_false, Bool.false_eq_true, if_false, h1, h2, decide_true, Bool.and_true, Bool.not_true]
  rfl

theorem periodOk_iff (s : State) (v : Nat) : s.periodOk v = true ↔
    s.anyResident = false ∧ (16 < v → ∀ k, k < 16 → s.fbit (R.STK_CTRL k) F.STK_CTRL_REF_LOCK = false)
      ∧ Tmo.ok { s.tmo with p := v } = true := by
  simp only [State.periodOk, Bool.and_eq_true, Bool.not_eq_true', Bool.or_eq_true, decide_eq_true_eq, List.any_eq_false, List.mem_range,
    Bool.not_eq_true, and_assoc, ← Nat.not_lt, ← imp_iff_not_or]

theorem periodOk_eq_false (s : State) (v : Nat) : s.periodOk v = false ↔
    s.anyResident = true ∨ (16 < v ∧ ∃ k, k < 16 ∧ s.fbit (R.STK_CTRL k) F.STK_CTRL_REF_LOCK = true)
      ∨ Tmo.ok { s.tmo with p := v } = false := by
  simp only [← Bool.not_eq_true, periodOk_iff, not_and_or, not_not, not_forall, exists_prop]

/-- A register access error writes no field of the TCK_ block. -/
theorem fget_badWrite_tck {a : Agent} {off o : Nat} {f : Fld} (ho : 0x300000 ≤ o ∧ o < 0x400000) (hf : f.lo < 64) :
    (s.badWrite a off).fget o f = s.fget o f := by
  have key {r : Nat} {g : Fld} (hr : 0x400020 ≤ r) (hg : g.lo < 64) : regKey o f ≠ regKey r g := by
    simp only [regKey]
    omega
  unfold State.badWrite State.regError State.fadd
  rw [State.fget_answer, State.fget_fset_ne _ _ (key (by decide) (by decide)), State.fget_fset_ne _ _ (key (by decide) (by decide)),
    State.fget_fset_ne _ _ (key (by decide) (by decide)), State.fget_fset_ne _ _ (key (by decide) (by decide))]

end Period

/-! ### TIME_STEP (R489) -/

section Step
variable {a : Agent} {v : Nat}

theorem exec_timeStep (hw : instrWf (.timeStep a v) = true) (he : s.entry a .tck 0 R.TCK_STEP true = .reach) :
    exec (.timeStep a v) s = .next (stepWrite v (s.answer .ok 0)) :=
  (State.runIf_true s hw _).trans (by rw [State.writeReg_reach _ he])

theorem stepWrite_of_refused (h : s.fget R.TCK_SYNC F.TCK_SYNC_ROLE = 2 ∨ s.anyResident = true) :
    stepWrite v s = s.fset R.TCK_STATUS F.TCK_STATUS_STEP_REFUSED 1 := by
  unfold stepWrite
  exact if_pos (by simpa using h)

/-- An accepted step moves the time base of the package as it leaves the boundary, and may start a pulse where it goes forward. -/
theorem stepWrite_of_accepted (hr : s.fget R.TCK_SYNC F.TCK_SYNC_ROLE ≠ 2) (hc : s.anyResident = false) :
    ∃ b : Bool, (toInt 48 v ≤ 0 → b = false) ∧ stepWrite v s =
      { s.leaves with clk := { s.leaves.clk with
        tb := (((s.clk.tb : Int) + toInt 48 v) % (2 ^ 64 : Nat)).toNat, phase := 9 } }.when b State.ppsStart := by
  refine ⟨decide (0 < toInt 48 v) && (decide (s.clk.tb / cyclesPerSecond < (s.clk.tb + (toInt 48 v).toNat) / cyclesPerSecond)
    || decide (2 ^ 64 ≤ s.clk.tb + (toInt 48 v).toNat)), fun h => ?_, ?_⟩
  · simp [Int.not_lt.2 h]
  · unfold stepWrite
    exact if_neg (by simp [hr, hc])

theorem timeStep_moves (hr : s.fget R.TCK_SYNC F.TCK_SYNC_ROLE ≠ 2) (hc : s.anyResident = false) :
    let t := stepWrite v (s.answer .ok 0)
    (t.clk.tb : Int) = ((s.clk.tb : Int) + toInt 48 v) % 2 ^ 64 ∧ t = { s.leaves with clk := t.clk, rsp := t.rsp } ∧ Served t 0
      ∧ (toInt 48 v ≤ 0 → t.clk.ppsLeft = s.clk.ppsLeft) := by
  obtain ⟨b, hb, e⟩ := stepWrite_of_accepted (v := v) (s := s.answer .ok 0) hr hc
  have hn : (((((s.clk.tb : Int) + toInt 48 v) % (2 ^ 64 : Nat)).toNat : Nat) : Int) = ((s.clk.tb : Int) + toInt 48 v) % 2 ^ 64 :=
    Int.toNat_of_nonneg (Int.emod_nonneg _ (by decide))
  rw [leaves_answer] at e
  rw [e]
  cases b
  · refine ⟨hn, rfl, rfl, fun _ => ?_⟩
    show s.leaves.clk.ppsLeft = s.clk.ppsLeft
    rw [leaves_clk]
  · simp only [State.when, if_true, ppsStart_eq]
    exact ⟨hn, rfl, rfl, fun h => absurd (hb h) (by decide)⟩

end Step

/-! ### The TIME_PPS pins (R68) -/

theorem exec_ppsOutEnWrite {a : Agent} {en : Nat} (hw : instrWf (.ppsOutEnWrite a en) = true)
    (he : s.entry a .tck 0 R.TCK_CTRL true = .reach) : exec (.ppsOutEnWrite a en) s = .next (ppsEnWrite en (s.answer .ok 0)) :=
  (State.runIf_true s hw _).trans (by rw [State.writeReg_reach _ he])

theorem ppsEnWrite_eq (en : Nat) (s : State) : ppsEnWrite en s =
    { s.fset R.TCK_CTRL F.TCK_CTRL_PPS_OUT_EN en with clk := { s.clk with ppsLeft := if en = 0 then 0 else s.clk.ppsLeft } } := by
  unfold ppsEnWrite
  split <;> rfl

theorem lt_nextSecond (tb : Nat) : tb < nextSecond tb :=
  (Nat.lt_mul_div_succ tb (by decide)).trans_eq (Nat.mul_comm _ _)

theorem exec_ppsOutPulse_of_lt (h : nextSecond s.clk.tb < (s.clk.tb / s.period + 1) * s.period) :
    exec .ppsOutPulse s =
      .next { s.leaves with clk := { s.leaves.clk.pass (nextSecond s.clk.tb - s.clk.tb) with phase := 9 } }.ppsStart :=
  congrArg Host.Outcome.next (if_pos h)

theorem pass_tb (s : State) (n : Nat) : (s.leaves.clk.pass n).tb = (s.clk.tb + n) % 2 ^ 64 := by simp only [Clock.pass, leaves_clk]

theorem pass_ppsLeft (s : State) (n : Nat) : (s.leaves.clk.pass n).ppsLeft = s.clk.ppsLeft - n := by simp only [Clock.pass, leaves_clk]

/-- After n counts a pulse starts where the output is enabled, and otherwise runs on. -/
theorem ppsStart_pass (s : State) (n : Nat) : ∃ t : State, { s.leaves with clk := { s.leaves.clk.pass n with phase := 9 } }.ppsStart = t
    ∧ t.clk.tb = (s.clk.tb + n) % 2 ^ 64
    ∧ t.clk.ppsLeft = (if s.fbit R.TCK_CTRL F.TCK_CTRL_PPS_OUT_EN then 110000000 else s.clk.ppsLeft - n)
    ∧ t = { s.leaves with clk := t.clk } := by
  refine ⟨_, ppsStart_eq _, pass_tb s n, ?_, rfl⟩
  · have hf (c : Clock) : State.fbit { s.leaves with clk := c } R.TCK_CTRL F.TCK_CTRL_PPS_OUT_EN =
        s.fbit R.TCK_CTRL F.TCK_CTRL_PPS_OUT_EN := leaves_ppsEn s
    simp only [hf, pass_ppsLeft]

theorem exec_ppsPulseEnd_of_lt (h0 : 0 < s.clk.ppsLeft) (h : s.clk.tb + s.clk.ppsLeft < (s.clk.tb / s.period + 1) * s.period) :
    exec .ppsPulseEnd s = .next { s.leaves with clk := { s.leaves.clk.pass s.clk.ppsLeft with phase := 9 } } :=
  congrArg Host.Outcome.next (if_pos ⟨h0, h⟩)

/-- Settles O6: each command sets the clock of the package as it leaves the boundary, or the fields of its pin. -/
theorem timeBaseAndPps : Obligations.TimeBaseAndPps := by
  refine ⟨fun s a v hw he => ⟨_, exec_timeStep hw he, timeStep_moves, fun h => ?_⟩, fun s a en hw he => ?_, fun s h => ?_,
    fun s h0 h => ?_, fun s => ?_⟩
  · rw [stepWrite_of_refused (s := s.answer .ok 0) h]
    exact ⟨State.fget_fset_self _ _ _ _, ((OnlyAnswer.refl s _).answer _ _).fset _ (by decide)⟩
  · have hen : en < 2 := by simp only [instrWf, Bool.and_eq_true, decide_eq_true_eq] at hw; exact hw.2
    refine ⟨_, exec_ppsOutEnWrite hw he, ?_⟩
    rw [ppsEnWrite_eq]
    refine ⟨rfl, ?_, rfl, rfl, fun k hk => State.find?_fset_ne _ _ (by simpa using hk)⟩
    exact (State.fget_fset_self _ _ _ _).trans (Nat.mod_eq_of_lt hen)
  · obtain ⟨t, ht, htb, hl, he⟩ := ppsStart_pass s (nextSecond s.clk.tb - s.clk.tb)
    refine ⟨t, (exec_ppsOutPulse_of_lt h).trans (by rw [ht]), ?_, hl, he⟩
    rw [htb, Nat.add_sub_cancel' (lt_nextSecond _).le]
  · exact ⟨_, exec_ppsPulseEnd_of_lt h0 h, (pass_ppsLeft s _).trans (Nat.sub_self _), pass_tb s _, rfl⟩
  · refine ⟨_, rfl, ?_, State.fget_fset_self _ _ _ _, ((OnlyRegs.refl s _).fset _ (by decide)).fset _ (by decide)⟩
    rw [State.fget_fset_ne _ _ (by decide), State.fget_fset_self]
    rfl

end Sys2Proof.Machine

namespace Sys2Proof

open Machine

/-- Settles O5: the write is accepted exactly where `periodOk` holds; a refused one is a register access error. -/
theorem periodWrite : Obligations.PeriodWrite := by
  intro s a v hw he hl hv h1 h2
  have hx := exec_periodLog2Write hw he hl hv h1 h2
  refine ⟨_, hx, fun hr hk ht => ?_, fun h => ?_⟩
  · rw [if_pos ((periodOk_iff s v).2 ⟨hr, hk, ht⟩)]
    have hp : ((s.answer .ok 0).fset R.TCK_CTRL F.TCK_CTRL_PERIOD_LOG2 v).pLog = v :=
      (State.fget_fset_self _ _ _ _).trans (Nat.mod_eq_of_lt (by simp only [F.TCK_CTRL_PERIOD_LOG2]; omega))
    refine ⟨rfl, hp, ?_, ((OnlyAnswer.refl s _).answer _ _).fset _ (by decide)⟩
    rw [State.tick, State.period, hp]
    rfl
  · rw [(periodOk_eq_false s v).2 h, if_neg (by decide)]
    refine ⟨rfl, ?_, ?_, ?_⟩
    · rw [fget_badWrite_tck (by decide) (by decide), State.fget_fset_self]
      rfl
    · refine (fget_regError_count _ _).trans ?_
      rw [State.fget_fset_ne _ _ (by decide)]
      rfl
    · refine OnlyAnswer.answer (OnlyAnswer.fadd (OnlyAnswer.fset (OnlyAnswer.fset (OnlyAnswer.fset (OnlyAnswer.fset
        ((OnlyAnswer.refl s _).answer _ _) _ ?_) _ ?_) _ ?_) _ ?_) _ ?_) _ _ <;> decide

end Sys2Proof
end

section
/-!
TICK_BOUNDARY (O7). The boundary is cut in two: up to the watchdogs, where it is followed what each operation counts, and after them,
where nothing touches tiles, herds and cores (the view `State.fixed`).
-/

set_option Elab.async false

namespace Sys2Proof.Machine

variable {s t : State}

/-! ### What follows the watchdogs -/

/-- The package without what the boundary touches after its watchdogs have counted. -/
def State.fixed (s : State) : State :=
  { s.still with parts := [], colls := [], refs := [], refLocked := [], postponed := [], hltAcc := [], pwr := {},
                 clk := { s.still.clk with refSlot := false } }

theorem fixed_of_still (h : t.still = s.still) : t.fixed = s.fixed := by
  unfold State.fixed
  rw [h]

theorem fixed_setSlot (p k : Nat) (x : Slot) (s : State) : (s.setSlot p k x).fixed = s.fixed := rfl

theorem fixed_fset (off : Nat) (f : Fld) (v : Nat) (s : State) : (s.fset off f v).fixed = s.fixed := rfl

theorem still_event (off : Nat) (f : Option Fld) (args : List Nat) (s : State) : (s.event off f args).still = s.still :=
  ((sameUnits_event off f args).2 (.refl s)).still

theorem fixed_modSlot (p k : Nat) (f : Slot → Slot) (s : State) : (s.modSlot p k f).fixed = s.fixed := by
  unfold State.modSlot
  split
  · exact fixed_setSlot _ _ _ _
  · rfl

theorem fixed_slotsTick (s : State) : s.slotsTick.fixed = s.fixed := by
  refine forRange_keeps (v := State.fixed) (fun p s => ?_) 8 s
  refine forRange_keeps (v := State.fixed) (fun k s => ?_) 4 s
  split
  · exact fixed_setSlot _ _ _ _
  · rfl

theorem fixed_waits (x : Map (List Coll)) (y : Map Nat) (s : State) : { s with colls := x, quiet := y }.fixed = s.fixed := rfl

theorem fixed_waitTick (s : State) : s.waitTick.fixed = s.fixed := fixed_waits _ _ s

theorem still_fset (off : Nat) (f : Fld) (v : Nat) (s : State) : (s.fset off f v).still = s.still := rfl

theorem still_lifeAdd (i n : Nat) (s : State) : (s.lifeAdd i n).still = s.still := rfl

theorem still_suspendLock (s : State) (k : Nat) : (s.suspendLock k).still = s.still := by
  simp only [State.suspendLock, still_event, still_lifeAdd, still_fset]

theorem fixed_issueRefs (k n : Nat) (s : State) : (s.issueRefs k n).fixed = s.fixed := rfl

theorem fixed_refSlot (b : Bool) (s : State) : { s with clk := { s.clk with refSlot := b } }.fixed = s.fixed := rfl

theorem fixed_refLocked (l : List Nat) (s : State) : { s with refLocked := l }.fixed = s.fixed := rfl

theorem fixed_slotMark (b : Bool) (m : Map Nat) (s : State) :
    { s with clk := { s.clk with refSlot := b }, postponed := m }.fixed = s.fixed := rfl

/-- A refresh slot begins (R62): locks, REF commands, requests that waited and the mark of the slot. -/
theorem fixed_refBegin (s : State) : s.refBegin.fixed = s.fixed := by
  unfold State.refBegin
  extract_lets c0 s0 on hot s1 live s2 c2
  have h0 : s0.fixed = s.fixed := (fixed_of_still (still_slotOver _ _)).trans (fixed_refSlot false s)
  have h1 : s1.fixed = s0.fixed :=
    (foldl_keeps (v := State.fixed) (fun s k => fixed_of_still (still_suspendLock s k)) hot _).trans (fixed_refLocked on s0)
  have h2 : s2.fixed = s1.fixed := foldl_keeps (v := State.fixed)
    (fun s k => forRange_keeps (v := State.fixed) (fun c s => fixed_issueRefs _ _ s) 64 s) live s1
  exact (fixed_slotMark _ _ s2).trans (h2.trans (h1.trans h0))

theorem fixed_snapsDue (s : State) : s.snapsDue.fixed = s.fixed :=
  forRange_keeps (v := State.fixed) (fun _ s => forRange_keeps (v := State.fixed) (fun _ s => fixed_modSlot _ _ _ s) 4 s) 8 s

theorem fixed_showScore (ts : List Nat) (s : State) : (s.showScore ts).fixed = s.fixed := by
  simp only [State.showScore, fixed_fset]

theorem fixed_hlt (x y : List Nat) (s : State) : { s with hltAcc := x, hltEv := y }.fixed = s.fixed := rfl

theorem fixed_hltEv (x : List Nat) (s : State) : { s with hltEv := x }.fixed = s.fixed := rfl

theorem fixed_healthTick (s : State) : s.healthTick.fixed = s.fixed := by
  unfold State.healthTick
  extract_lets s0 acc old s1 new th s2
  have h0 : s0.fixed = s.fixed := fixed_fset _ _ _ s
  have h1 : s1.fixed = s0.fixed := (fixed_showScore _ _).trans (fixed_hlt _ _ s0)
  have h2 : s2.fixed = s1.fixed := when_keeps (v := State.fixed) fixed_snapsDue s1
  split
  · exact (when_keeps (v := State.fixed) (fun s => fixed_of_still (still_event _ _ _ s)) s2).trans (h2.trans (h1.trans h0))
  · exact (fixed_hltEv _ s0).trans h0

theorem fixed_modPwr (f : Pwr → Pwr) (s : State) : (s.modPwr f).fixed = s.fixed := rfl

theorem fixed_thermal (s : State) : s.thermal.fixed = s.fixed := by
  simp only [State.thermal, State.showShares, fixed_fset, fixed_modPwr]

theorem still_flood (from? : Option Nat) (m : AfrMsg) (s : State) : (s.flood from? m).still = s.still := by
  refine forRange_keeps (v := State.still) (fun g s => ?_) 36 s
  split
  · rfl
  · exact ((sameUnits_sendOn g m).2 (.refl s)).still

/-! ### Tables changed entry by entry -/

theorem find?_mapValues {α β : Type} (f : α → β) (m : Map α) (x : Nat) :
    Map.find? (m.map fun e => (e.1, f e.2)) x = (Map.find? m x).map f := by
  induction m with
  | nil => rfl
  | cons e m ih =>
    simp only [List.map_cons, Map.find?]
    split
    · rfl
    · exact ih

/-- What holds of a table's values, and of the value of unlisted keys, after a change of each. -/
theorem get_mapValues {α β : Type} (f : α → β) (d : α) (d' : β) (hd : f d = d') (m : Map α) (x : Nat) :
    Map.get d' (m.map fun e => (e.1, f e.2)) x = f (Map.get d m x) := by
  rw [Map.get, Map.get, find?_mapValues, ← hd]
  cases Map.find? m x <;> rfl

/-- Every tile is changed. -/
def State.mapTiles (s : State) (f : Tile → Tile) : State := { s with tiles := s.tiles.map fun e => (e.1, f e.2) }

/-- Every partition is changed. -/
def State.mapParts (s : State) (f : Part → Part) : State := { s with parts := s.parts.map fun e => (e.1, f e.2) }

theorem tile_mapTiles {f : Tile → Tile} (hf : f {} = {}) (n : Nat) : (s.mapTiles f).tile n = f (s.tile n) :=
  get_mapValues f {} {} hf s.tiles n

theorem part_mapParts {f : Part → Part} (hf : f {} = {}) (p : Nat) : (s.mapParts f).part p = f (s.part p) :=
  get_mapValues f {} {} hf s.parts p

/-! ### Up to the watchdogs: what is kept -/

/-- The package without what the boundary touches, but for its clock. -/
def State.bare (s : State) : State := { s.fixed with tiles := [], herds := [], cores := [], dieWd := [] }

theorem bare_setTile (n : Nat) (x : Tile) (s : State) : (s.setTile n x).bare = s.bare := rfl
theorem bare_setHerd (n : Nat) (x : Herd) (s : State) : (s.setHerd n x).bare = s.bare := rfl
theorem bare_setCore (n : Nat) (x : Core) (s : State) : (s.setCore n x).bare = s.bare := rfl
theorem bare_setPart (n : Nat) (x : Part) (s : State) : (s.setPart n x).bare = s.bare := rfl
theorem bare_dieWd (m : Map Nat) (s : State) : { s with dieWd := m }.bare = s.bare := rfl
theorem bare_parts (m : Map Part) (s : State) : { s with parts := m }.bare = s.bare := rfl
theorem bare_tiles (m : Map Tile) (s : State) : { s with tiles := m }.bare = s.bare := rfl

theorem bare_segReport (n g st : Nat) (s : State) : (s.segReport n g st).bare = s.bare := by
  unfold State.segReport
  split
  · exact bare_setPart _ _ s
  · rfl

/-- A tile reports segments (R55, action 2). -/
def State.reportAll (s : State) (n : Nat) (l : List Nat) : State := l.foldl (fun s g => s.segReport n g 0) s

/-- The tiles report what they have held back. -/
def State.giveReports (s : State) : State := s.tiles.foldl (fun (s : State) (e : Nat × Tile) => s.reportAll e.1 e.2.report) s

/-- A partition without the reports of the last boundary, and a tile that holds none back. -/
def Part.unreported (x : Part) : Part := { x with reports := [] }
def Tile.unreported (x : Tile) : Tile := { x with report := [] }

theorem takeReports_eq (s : State) : s.takeReports = ((s.mapParts Part.unreported).giveReports).mapTiles Tile.unreported := rfl

theorem bare_reportAll (n : Nat) (l : List Nat) (s : State) : (s.reportAll n l).bare = s.bare := by
  have h := foldl_keeps (v := State.bare) (f := fun (s : State) (g : Nat) => s.segReport n g 0) (fun s g => bare_segReport n g 0 s) l s
  exact h

theorem bare_giveReports (s : State) : s.giveReports.bare = s.bare := by
  have h := foldl_keeps (v := State.bare) (f := fun (s : State) (e : Nat × Tile) => s.reportAll e.1 e.2.report)
    (fun s e => bare_reportAll e.1 e.2.report s) s.tiles s
  exact h

theorem bare_mapParts (f : Part → Part) (s : State) : (s.mapParts f).bare = s.bare := bare_parts _ s
theorem bare_mapTiles (f : Tile → Tile) (s : State) : (s.mapTiles f).bare = s.bare := bare_tiles _ s

theorem bare_takeReports (s : State) : s.takeReports.bare = s.bare := by
  rw [takeReports_eq, bare_mapTiles, bare_giveReports, bare_mapParts]

theorem bare_tileCount (s : State) (n : Nat) : (s.tileCount n).bare = s.bare := by
  unfold State.tileCount State.modTile
  split
  · split
    · rfl
    · exact bare_setTile _ _ s
  · rfl

theorem bare_dieCount (s : State) (d : Nat) : (s.dieCount d).bare = s.bare := by
  unfold State.dieCount
  split
  · exact bare_dieWd _ s
  · rfl

theorem bare_herdCount (s : State) (h : Nat) : (s.herdCount h).bare = s.bare := by
  unfold State.herdCount
  split
  · exact (bare_setCore _ _ _).trans ((bare_setCore _ _ _).trans (bare_setHerd _ _ s))
  · rfl

/-- The watchdogs of herds and dies count the boundary. -/
def State.unitsCount (s : State) : State := forRange 16 (fun h s => s.herdCount h) (forRange 2 (fun d s => s.dieCount d) s)

theorem watchdogs_eq (s : State) :
    s.watchdogs = s.unitsCount.tiles.foldl (fun (s : State) (e : Nat × Tile) => s.tileCount e.1) s.unitsCount := rfl

theorem bare_watchdogs (s : State) : s.watchdogs.bare = s.bare := by
  rw [watchdogs_eq]
  refine (foldl_keeps (v := State.bare) (fun s e => bare_tileCount s _) _ _).trans ?_
  exact (forRange_keeps (v := State.bare) (fun h s => bare_herdCount s h) 16 _).trans
    (forRange_keeps (v := State.bare) (fun d s => bare_dieCount s d) 2 s)

/-! ### No report is held back -/

theorem tiles_segReport (n g st : Nat) (s : State) : (s.segReport n g st).tiles = s.tiles := by
  unfold State.segReport
  split <;> rfl

theorem tiles_reportAll (n : Nat) (l : List Nat) (s : State) : (s.reportAll n l).tiles = s.tiles := by
  have h := foldl_keeps (v := State.tiles) (f := fun (s : State) (g : Nat) => s.segReport n g 0) (fun s g => tiles_segReport n g 0 s) l s
  exact h

theorem tiles_giveReports (s : State) : s.giveReports.tiles = s.tiles := by
  have h := foldl_keeps (v := State.tiles) (f := fun (s : State) (e : Nat × Tile) => s.reportAll e.1 e.2.report)
    (fun s e => tiles_reportAll e.1 e.2.report s) s.tiles s
  exact h

theorem tile_takeReports (s : State) (n : Nat) : s.takeReports.tile n = (s.tile n).unreported := by
  rw [takeReports_eq, tile_mapTiles rfl, State.tile, tiles_giveReports]
  rfl

theorem cores_segReport (n g st : Nat) (s : State) : (s.segReport n g st).cores = s.cores := by
  unfold State.segReport
  split <;> rfl

theorem cores_reportAll (n : Nat) (l : List Nat) (s : State) : (s.reportAll n l).cores = s.cores := by
  have h := foldl_keeps (v := State.cores) (f := fun (s : State) (g : Nat) => s.segReport n g 0) (fun s g => cores_segReport n g 0 s) l s
  exact h

theorem cores_takeReports (s : State) : s.takeReports.cores = s.cores := by
  have h := foldl_keeps (v := State.cores) (f := fun (s : State) (e : Nat × Tile) => s.reportAll e.1 e.2.report)
    (fun s e => cores_reportAll e.1 e.2.report s) s.tiles (s.mapParts Part.unreported)
  exact h

/-! ### The work of a herd -/

/-- Two packages agree in what the watchdogs of a herd look at (R69): the work of its context, and its fence. -/
structure SameWork (s t : State) : Prop where
  doms : t.doms = s.doms
  herdsOf : ∀ p, p < 8 → t.herdsOf p = s.herdsOf p
  run : ∀ p, (t.part p).run = (s.part p).run
  slots : ∀ p, (t.part p).slots = (s.part p).slots
  sw : ∀ p, (t.part p).sw = (s.part p).sw
  tasks : ∀ h, (t.herd h).tasks = (s.herd h).tasks
  popped : ∀ h, (t.herd h).popped = (s.herd h).popped
  queue : ∀ n, (t.tile n).queue = (s.tile n).queue
  segment : ∀ n, (t.tile n).run = (s.tile n).run

theorem SameWork.refl (s : State) : SameWork s s :=
  ⟨rfl, fun _ _ => rfl, fun _ => rfl, fun _ => rfl, fun _ => rfl, fun _ => rfl, fun _ => rfl, fun _ => rfl, fun _ => rfl⟩

theorem SameWork.trans {u : State} (h : SameWork s t) (k : SameWork t u) : SameWork s u :=
  ⟨k.doms.trans h.doms, fun p hp => (k.herdsOf p hp).trans (h.herdsOf p hp), fun p => (k.run p).trans (h.run p),
    fun p => (k.slots p).trans (h.slots p), fun p => (k.sw p).trans (h.sw p), fun i => (k.tasks i).trans (h.tasks i),
    fun i => (k.popped i).trans (h.popped i), fun n => (k.queue n).trans (h.queue n), fun n => (k.segment n).trans (h.segment n)⟩

theorem SameWork.partOfHerd (h : SameWork s t) (i : Nat) : t.partOfHerd i = s.partOfHerd i := by
  unfold State.partOfHerd firstUpTo
  refine List.find?_congr fun p hp => ?_
  rw [h.herdsOf p (List.mem_range.1 hp)]

theorem SameWork.ctxOfHerd (h : SameWork s t) (i : Nat) : t.ctxOfHerd i = s.ctxOfHerd i := by
  simp only [State.ctxOfHerd, State.running, State.slot?, h.partOfHerd, h.run, h.slots]

/-- The watchdogs of a herd count in both or in neither. -/
theorem SameWork.herdCounts (h : SameWork s t) (i : Nat) : t.herdCounts i = s.herdCounts i := by
  simp only [State.herdCounts, State.herdBusy, State.herdWorks, State.fenced, h.ctxOfHerd, h.partOfHerd, State.partOfTile, h.run, h.sw,
    h.tasks, h.popped, h.queue, h.segment, h.doms]

theorem sameWork_leaves (s : State) : SameWork s s.leaves := by
  have h := (sameUnits_leaves s).1
  have hp (p : Nat) : s.leaves.part p = s.part p := by rw [State.part, leaves_parts]; rfl
  have hh (i : Nat) : s.leaves.herd i = s.herd i := by rw [State.herd, leaves_herds]; rfl
  have ht (n : Nat) : s.leaves.tile n = s.tile n := by rw [State.tile, leaves_tiles]; rfl
  refine ⟨by rw [h], fun p h8 => leaves_fget ?_ (by decide) ?_, fun p => by rw [hp], fun p => by rw [hp], fun p => by rw [hp],
    fun i => by rw [hh], fun i => by rw [hh], fun n => by rw [ht], fun n => by rw [ht]⟩
  · simp only [R.SCH_PART, B.sch]
    omega
  · simp only [R.SCH_PART, B.sch]
    omega

theorem sameWork_clk (c : Clock) (s : State) : SameWork s { s with clk := c } :=
  ⟨rfl, fun _ _ => rfl, fun _ => rfl, fun _ => rfl, fun _ => rfl, fun _ => rfl, fun _ => rfl, fun _ => rfl, fun _ => rfl⟩

theorem sameWork_bw (m : Map BwSet) (s : State) : SameWork s { s with bw := m } :=
  ⟨rfl, fun _ _ => rfl, fun _ => rfl, fun _ => rfl, fun _ => rfl, fun _ => rfl, fun _ => rfl, fun _ => rfl, fun _ => rfl⟩

theorem sameWork_dieWd (m : Map Nat) (s : State) : SameWork s { s with dieWd := m } :=
  ⟨rfl, fun _ _ => rfl, fun _ => rfl, fun _ => rfl, fun _ => rfl, fun _ => rfl, fun _ => rfl, fun _ => rfl, fun _ => rfl⟩

theorem sameWork_setCore (c : Nat) (x : Core) (s : State) : SameWork s (s.setCore c x) :=
  ⟨rfl, fun _ _ => rfl, fun _ => rfl, fun _ => rfl, fun _ => rfl, fun _ => rfl, fun _ => rfl, fun _ => rfl, fun _ => rfl⟩

/-- Whatever of every partition is the same but its reports, the work is the same. -/
theorem sameWork_parts {m : Map Part} (h : ∀ p, ∃ l, Map.get {} m p = { s.part p with reports := l }) :
    SameWork s { s with parts := m } := by
  have hp (p : Nat) : ∃ l, State.part { s with parts := m } p = { s.part p with reports := l } := h p
  refine ⟨rfl, fun _ _ => rfl, fun p => ?_, fun p => ?_, fun p => ?_, fun _ => rfl, fun _ => rfl, fun _ => rfl, fun _ => rfl⟩ <;>
    obtain ⟨l, e⟩ := hp p <;> rw [e]

theorem sameWork_segReport (n g st : Nat) (s : State) : SameWork s (s.segReport n g st) := by
  unfold State.segReport
  split
  · rename_i q _
    refine sameWork_parts fun p => ?_
    rcases eq_or_ne p q with rfl | hne
    · exact ⟨_, Map.get_put_self _ _ _ _⟩
    · exact ⟨(s.part p).reports, Map.get_put_ne _ _ _ _ hne⟩
  · exact .refl s

theorem SameWork.foldl {α : Type} {f : State → α → State} (hf : ∀ s x, SameWork s (f s x)) (l : List α) (s : State) :
    SameWork s (l.foldl f s) := by
  induction l generalizing s with
  | nil => exact .refl s
  | cons x l ih => exact (hf s x).trans (ih _)

theorem sameWork_reportAll (n : Nat) (l : List Nat) (s : State) : SameWork s (s.reportAll n l) := by
  have h := SameWork.foldl (f := fun (s : State) (g : Nat) => s.segReport n g 0) (fun s g => sameWork_segReport n g 0 s) l s
  exact h

theorem sameWork_giveReports (s : State) : SameWork s s.giveReports := by
  have h := SameWork.foldl (f := fun (s : State) (e : Nat × Tile) => s.reportAll e.1 e.2.report)
    (fun s e => sameWork_reportAll e.1 e.2.report s) s.tiles s
  exact h

theorem sameWork_mapParts (s : State) : SameWork s (s.mapParts Part.unreported) :=
  sameWork_parts fun p => ⟨[], part_mapParts (s := s) rfl p⟩

theorem sameWork_mapTiles (s : State) : SameWork s (s.mapTiles Tile.unreported) := by
  have ht (n : Nat) : (s.mapTiles Tile.unreported).tile n = (s.tile n).unreported := tile_mapTiles rfl n
  exact ⟨rfl, fun _ _ => rfl, fun _ => rfl, fun _ => rfl, fun _ => rfl, fun _ => rfl, fun _ => rfl, fun n => by rw [ht]; rfl,
    fun n => by rw [ht]; rfl⟩

theorem sameWork_takeReports (s : State) : SameWork s s.takeReports := by
  rw [takeReports_eq]
  exact (sameWork_mapParts s).trans ((sameWork_giveReports _).trans (sameWork_mapTiles _))

theorem sameWork_dieCount (s : State) (d : Nat) : SameWork s (s.dieCount d) := by
  unfold State.dieCount
  split
  · exact sameWork_dieWd _ s
  · exact .refl s

/-- A watchdog of a herd counts. -/
theorem sameWork_setHerd (i n : Nat) (s : State) : SameWork s (s.setHerd i { s.herd i with wd := n }) := by
  have hh (j : Nat) : ∃ m, (s.setHerd i { s.herd i with wd := n }).herd j = { s.herd j with wd := m } := by
    rcases eq_or_ne j i with rfl | hne
    · exact ⟨n, State.herd_setHerd_self _ _ _⟩
    · exact ⟨(s.herd j).wd, State.herd_setHerd_ne _ _ hne⟩
  refine ⟨rfl, fun _ _ => rfl, fun _ => rfl, fun _ => rfl, fun _ => rfl, fun j => ?_, fun j => ?_, fun _ => rfl, fun _ => rfl⟩ <;>
    obtain ⟨m, e⟩ := hh j <;> rw [e]

/-! ### The heartbeat counts -/

/-- A control core counts a boundary without a heartbeat. -/
def State.coreCount (s : State) (c : Nat) : State := s.setCore c { s.core c with hb := (s.core c).hb + 1 }

theorem herdCount_eq (s : State) (h : Nat) : s.herdCount h =
    if s.herdCounts h then ((s.setHerd h { s.herd h with wd := (s.herd h).wd + 1 }).coreCount (2 * h)).coreCount (2 * h + 1) else s := rfl

theorem sameWork_herdCount (s : State) (h : Nat) : SameWork s (s.herdCount h) := by
  rw [herdCount_eq]
  split
  · exact (sameWork_setHerd _ _ s).trans ((sameWork_setCore _ _ _).trans (sameWork_setCore _ _ _))
  · exact .refl s

theorem hb_coreCount (s : State) (c d : Nat) : ((s.coreCount c).core d).hb = if d = c then (s.core d).hb + 1 else (s.core d).hb := by
  unfold State.coreCount
  split
  · rename_i e
    subst e
    rw [State.core_setCore_self]
  · rename_i e
    rw [State.core_setCore_ne _ _ e]

/-- A herd that holds work counts for both of its cores. -/
theorem hb_herdCount (s : State) (h c : Nat) :
    ((s.herdCount h).core c).hb = if c / 2 = h ∧ s.herdCounts h = true then (s.core c).hb + 1 else (s.core c).hb := by
  rw [herdCount_eq]
  cases s.herdCounts h
  · simp
  · have hc : ((s.setHerd h { s.herd h with wd := (s.herd h).wd + 1 }).core c) = s.core c := rfl
    simp only [if_true, hb_coreCount, hc, and_true]
    split <;> split <;> split <;> omega

theorem forRange_succ {σ : Type} (n : Nat) (f : Nat → σ → σ) (s : σ) : forRange (n + 1) f s = f n (forRange n f s) := by
  simp [forRange, List.range_succ]

/-- The first n herds have counted: each as it found the package before the boundary counted. -/
theorem hb_forRange_herdCount (s : State) (n : Nat) :
    SameWork s (forRange n (fun h s => s.herdCount h) s) ∧ ∀ c, ((forRange n (fun h s => s.herdCount h) s).core c).hb =
      if c / 2 < n ∧ s.herdCounts (c / 2) = true then (s.core c).hb + 1 else (s.core c).hb := by
  induction n with
  | zero => exact ⟨.refl s, fun c => by simp [forRange]⟩
  | succ n ih =>
    obtain ⟨hw, hb⟩ := ih
    rw [forRange_succ]
    refine ⟨hw.trans (sameWork_herdCount _ n), fun c => ?_⟩
    rw [hb_herdCount, hb, hw.herdCounts]
    rcases Nat.lt_trichotomy (c / 2) n with hlt | rfl | hgt
    · simp [hlt, hlt.ne, Nat.lt_succ_of_lt hlt]
    · simp
    · simp [hgt.ne', Nat.not_lt_of_gt hgt, show ¬ c / 2 < n + 1 by omega]

theorem cores_dieCount (s : State) (d : Nat) : (s.dieCount d).cores = s.cores := by
  unfold State.dieCount
  split <;> rfl

theorem cores_tileCount (s : State) (n : Nat) : (s.tileCount n).cores = s.cores := by
  unfold State.tileCount
  split
  · split <;> rfl
  · rfl

/-- The dies have counted. -/
def State.diesCount (s : State) : State := forRange 2 (fun d s => s.dieCount d) s

theorem sameWork_diesCount (s : State) : SameWork s s.diesCount :=
  SameWork.foldl (f := fun (s : State) (d : Nat) => s.dieCount d) sameWork_dieCount (List.range 2) s

theorem cores_diesCount (s : State) : s.diesCount.cores = s.cores :=
  forRange_keeps (v := State.cores) (f := fun d s => s.dieCount d) (fun d s => cores_dieCount s d) 2 s

theorem hb_watchdogs (s : State) {c : Nat} (hc : c < 32) :
    (s.watchdogs.core c).hb = if s.herdCounts (c / 2) then (s.core c).hb + 1 else (s.core c).hb := by
  have ht : s.watchdogs.cores = s.unitsCount.cores := by
    have h := foldl_keeps (v := State.cores) (f := fun (s : State) (e : Nat × Tile) => s.tileCount e.1)
      (fun s e => cores_tileCount s e.1) s.unitsCount.tiles s.unitsCount
    exact h
  have hd : s.diesCount.core c = s.core c := by rw [State.core, cores_diesCount]; rfl
  have h := (hb_forRange_herdCount s.diesCount 16).2 c
  rw [hd, (sameWork_diesCount s).herdCounts] at h
  rw [State.core, ht]
  refine Eq.trans h ?_
  simp [show c / 2 < 16 by omega]

/-! ### Reports through the watchdogs -/

theorem report_setTile {n : Nat} {x : Tile} (h : x.report = (s.tile n).report) (m : Nat) :
    ((s.setTile n x).tile m).report = (s.tile m).report := by
  rcases eq_or_ne m n with rfl | hne
  · rw [State.tile_setTile_self, h]
  · rw [State.tile_setTile_ne _ _ hne]

theorem report_tileCount (n m : Nat) (s : State) : ((s.tileCount n).tile m).report = (s.tile m).report := by
  unfold State.tileCount State.modTile
  split
  · split
    · rfl
    · exact report_setTile (by rfl) m
  · rfl

theorem tiles_dieCount (s : State) (d : Nat) : (s.dieCount d).tiles = s.tiles := by
  unfold State.dieCount
  split <;> rfl

theorem tiles_coreCount (s : State) (c : Nat) : (s.coreCount c).tiles = s.tiles := rfl

theorem tiles_herdCount (s : State) (h : Nat) : (s.herdCount h).tiles = s.tiles := by
  rw [herdCount_eq]
  split
  · rw [tiles_coreCount, tiles_coreCount, State.setHerd_tiles]
  · rfl

theorem tiles_unitsCount (s : State) : s.unitsCount.tiles = s.tiles := by
  have h1 := forRange_keeps (v := State.tiles) (f := fun d s => s.dieCount d) (fun d s => tiles_dieCount s d) 2 s
  have h2 := forRange_keeps (v := State.tiles) (f := fun h s => s.herdCount h) (fun h s => tiles_herdCount s h) 16 s.diesCount
  exact h2.trans h1

theorem report_watchdogs (s : State) (n : Nat) : (s.watchdogs.tile n).report = (s.tile n).report := by
  have h := foldl_keeps (v := fun s => (State.tile s n).report) (f := fun (s : State) (e : Nat × Tile) => s.tileCount e.1)
    (fun s e => report_tileCount e.1 n s) s.unitsCount.tiles s.unitsCount
  refine Eq.trans h ?_
  rw [State.tile, tiles_unitsCount]
  rfl

/-! ### The boundary -/

/-- The time base has come to the boundary; only the clock differs (R51, R52). -/
theorem toBoundary_eq (s : State) : ∃ x y z, s.toBoundary = { s with clk := { s.clk with
    tb := (s.clk.tb + ((s.clk.tb / s.period + 1) * s.period - s.clk.tb)) % 2 ^ 64, cyc := x, rateAcc := y, ppsLeft := z, slewNow := 0,
    phase := 3, refill := true } } := by
  unfold State.toBoundary State.when
  dsimp only
  split
  · exact ⟨_, _, _, rfl⟩
  · exact ⟨_, _, _, rfl⟩

theorem lt_nextBoundary (s : State) : s.clk.tb < (s.clk.tb / s.period + 1) * s.period :=
  (Nat.lt_mul_div_succ s.clk.tb (Nat.two_pow_pos s.pLog)).trans_eq (Nat.mul_comm _ _)

theorem leaves_ctxs (s : State) : s.leaves.ctxs = s.ctxs := by rw [(sameUnits_leaves s).1]
theorem leaves_doms (s : State) : s.leaves.doms = s.doms := by rw [(sameUnits_leaves s).1]
theorem leaves_resetsDue (s : State) : s.leaves.resetsDue = s.resetsDue := by rw [(sameUnits_leaves s).1]
theorem leaves_streams (s : State) : s.leaves.streams = s.streams := by rw [(sameUnits_leaves s).1]

theorem leaves_period (s : State) : s.leaves.period = s.period := by
  rw [State.period, State.pLog, leaves_fget (by decide) (by decide) (by decide)]
  rfl

/-- The regulated bandwidth of each link is taken for the tick that ends. -/
def State.takeBw (s : State) : State := { s with bw := s.bw.map fun (e : Nat × BwSet) => (e.1, e.2.take) }

/-- The first part of the boundary, up to the watchdogs. -/
def State.counts (s : State) : State := s.leaves.toBoundary.takeReports.takeBw.watchdogs

theorem bare_takeBw (s : State) : s.takeBw.bare = s.bare := rfl

theorem cores_takeBw (s : State) : s.takeBw.cores = s.cores := rfl

theorem tile_takeBw (s : State) (n : Nat) : s.takeBw.tile n = s.tile n := rfl

/-- Up to the watchdogs the work of herds, and the cores, are as they were. -/
theorem sameWork_reported (s : State) : SameWork s s.leaves.toBoundary.takeReports.takeBw := by
  obtain ⟨x, y, z, e⟩ := toBoundary_eq s.leaves
  refine SameWork.trans ?_ ((sameWork_takeReports _).trans (sameWork_bw _ _))
  rw [e]
  exact (sameWork_leaves s).trans (sameWork_clk _ _)

theorem cores_toBoundary (s : State) : s.toBoundary.cores = s.cores := by
  obtain ⟨x, y, z, e⟩ := toBoundary_eq s
  rw [e]

theorem cores_reported (s : State) : s.leaves.toBoundary.takeReports.takeBw.cores = s.cores := by
  rw [cores_takeBw, cores_takeReports, cores_toBoundary, leaves_cores]

/-- What the first part of the boundary leaves. -/
theorem counts_spec (s : State) : ∃ c : Clock, s.counts.bare = { s.leaves with clk := c }.bare
    ∧ c.tb = (s.clk.tb / s.period + 1) * s.period % 2 ^ 64 ∧ c.phase = 3 ∧ c.refill = true ∧ c.slew = s.clk.slew
    ∧ (∀ n, (s.counts.tile n).report = [])
    ∧ ∀ c, c < 32 → (s.counts.core c).hb = if s.herdCounts (c / 2) then (s.core c).hb + 1 else (s.core c).hb := by
  obtain ⟨x, y, z, e⟩ := toBoundary_eq s.leaves
  refine ⟨s.leaves.toBoundary.clk, ?_, ?_, ?_, ?_, ?_, fun n => ?_, fun c hc => ?_⟩
  · unfold State.counts
    rw [bare_watchdogs, bare_takeBw, bare_takeReports, e]
  · rw [e]
    dsimp only
    rw [Nat.add_sub_cancel' (lt_nextBoundary s.leaves).le, leaves_clk, leaves_period]
  · rw [e]
  · rw [e]
  · rw [e]
    dsimp only
    rw [leaves_clk]
  · unfold State.counts
    rw [report_watchdogs, tile_takeBw, tile_takeReports]
    rfl
  · have hr : s.leaves.toBoundary.takeReports.takeBw.core c = s.core c := by
      rw [State.core, cores_reported]
      rfl
    unfold State.counts
    rw [hb_watchdogs _ hc, (sameWork_reported s).herdCounts, hr]

/-- The actions of the boundary, the slewing of the tick that begins and the marker apart. -/
def State.acted (s : State) : State := s.counts.slotsTick.waitTick.refBegin.healthTick.thermal

/-- The tick that begins takes its share of the slewing (R64). -/
def State.slewed (s : State) : State := { s with clk := { s.clk with slewNow := slewTick s.clk.slew, slew := slewStep s.clk.slew } }

theorem exec_tickBoundary (s : State) : exec .tickBoundary s =
    .next (s.acted.slewed.when (s.acted.slewed.fget R.TCK_SYNC F.TCK_SYNC_ROLE == 1) fun s =>
      s.flood none (tickMsg s.pkgId s.tick s.clk.tb)) := by
  unfold State.acted State.counts State.takeBw State.slewed
  rfl

theorem fixed_acted (s : State) : s.acted.fixed = s.counts.fixed := by
  rw [State.acted, fixed_thermal, fixed_healthTick, fixed_refBegin, fixed_waitTick, fixed_slotsTick]

theorem slewed_fixed (s : State) : s.slewed.fixed =
    { s.fixed with clk := { s.fixed.clk with slewNow := slewTick s.fixed.clk.slew, slew := slewStep s.fixed.clk.slew } } := rfl

/-- The state after the boundary, but for what served requests, messages and the actions after the watchdogs touch. -/
theorem tickBoundary_fixed (s : State) : ∃ t, exec .tickBoundary s = .next t ∧ t.fixed = s.counts.slewed.fixed := by
  refine ⟨_, exec_tickBoundary s, ?_⟩
  rw [fixed_of_still (when_keeps (v := State.still) (fun s => still_flood none _ s) _), slewed_fixed, fixed_acted, ← slewed_fixed]

/-- Settles O7: the actions before the watchdogs and the counts give every clause; what follows keeps them. -/
theorem tickBoundary : Obligations.TickBoundary := by
  intro s
  obtain ⟨t, ht, hf⟩ := tickBoundary_fixed s
  obtain ⟨c, hb, htb, hph, hre, hsl, hrep, hhb⟩ := counts_spec s
  have hc : s.counts.fixed.clk = { c with refSlot := false } := congrArg State.clk hb
  have hclk : { t.clk with refSlot := false } = { c with refSlot := false, slewNow := slewTick c.slew, slew := slewStep c.slew } := by
    rw [show { t.clk with refSlot := false } = t.fixed.clk from rfl, hf, slewed_fixed]
    simp only [hc]
  have htiles : t.fixed.tiles = s.counts.slewed.fixed.tiles := congrArg State.tiles hf
  have htile (n : Nat) : t.tile n = s.counts.tile n := congrArg (Map.get ({} : Tile) · n) htiles
  have hcores : t.fixed.cores = s.counts.slewed.fixed.cores := congrArg State.cores hf
  have hcore (n : Nat) : t.core n = s.counts.core n := congrArg (Map.get ({} : Core) · n) hcores
  refine ⟨t, ht, ?_, ?_, ?_, ?_, ?_, fun n => by rw [htile, hrep], fun c hc => by rw [hcore, hhb c hc], ?_, ?_, ?_, ?_, ?_⟩
  · exact (congrArg Clock.tb hclk).trans htb
  · exact (congrArg Clock.phase hclk).trans hph
  · exact (congrArg Clock.refill hclk).trans hre
  · exact (congrArg Clock.slew hclk).trans (congrArg slewStep hsl)
  · exact (congrArg Clock.slewNow hclk).trans (congrArg slewTick hsl)
  · exact (congrArg State.pending hf).trans ((congrArg State.pending hb).trans (leaves_pending s))
  · exact (congrArg State.ctxs hf).trans ((congrArg State.ctxs hb).trans (leaves_ctxs s))
  · exact (congrArg State.doms hf).trans ((congrArg State.doms hb).trans (leaves_doms s))
  · exact (congrArg State.resetsDue hf).trans ((congrArg State.resetsDue hb).trans (leaves_resetsDue s))
  · exact (congrArg State.streams hf).trans ((congrArg State.streams hb).trans (leaves_streams s))

end Sys2Proof.Machine
end

section
/-!
Heartbeats, watchdogs and request timeouts (O9): what an abort with its STOT keeps, and what a logged timeout writes.
-/

set_option Elab.async false

namespace Sys2Proof.Machine

variable {s t : State}

/-! ### What an abort keeps -/

/-- What watchdogs are about, and time. -/
structure Kept where
  pending : List Instr
  mem : Mem
  clk : Clock
  tiles : Map Tile
  herds : Map Herd
  cores : Map Core
  dieWd : Map Nat
  resetsDue : List (Nat × Nat)

/-- The package's queue, memory, clock, tiles, herds, cores and watchdogs of dies, and the resets that are due. -/
def State.kept (s : State) : Kept := ⟨s.pending, s.mem, s.clk, s.tiles, s.herds, s.cores, s.dieWd, s.resetsDue⟩

theorem kept_fset (off : Nat) (f : Fld) (v : Nat) (s : State) : (s.fset off f v).kept = s.kept := rfl
theorem kept_health (i n : Nat) (s : State) : (s.health i n).kept = s.kept := rfl
theorem kept_setPort (g : Nat) (x : Port) (s : State) : (s.setPort g x).kept = s.kept := rfl
theorem kept_bwAdd (b d n : Nat) (s : State) : (s.bwAdd b d n).kept = s.kept := rfl
theorem kept_setQp (e q : Nat) (x : Qp) (s : State) : (s.setQp e q x).kept = s.kept := rfl
theorem kept_setSlot (p k : Nat) (x : Slot) (s : State) : (s.setSlot p k x).kept = s.kept := rfl
theorem kept_stotSeen (m : Map (List (Nat × Nat))) (s : State) : { s with stotSeen := m }.kept = s.kept := rfl
theorem kept_ethStot (l : List Nat) (s : State) : { s with ethStot := l }.kept = s.kept := rfl

theorem kept_pump (g n : Nat) (s : State) : (State.pump g n s).kept = s.kept := by
  induction n generalizing s with
  | zero => rfl
  | succ n ih =>
    simp only [State.pump]
    split
    · exact kept_setPort _ _ s
    · split
      · rw [ih, kept_bwAdd, kept_setPort]
      · rfl

theorem kept_sendOn (g : Nat) (m : AfrMsg) (s : State) : (s.sendOn g m).kept = s.kept := by
  unfold State.sendOn
  exact when_keeps (v := State.kept) (fun s => by rw [kept_pump, kept_setPort]) s

theorem kept_flood (from? : Option Nat) (m : AfrMsg) (s : State) : (s.flood from? m).kept = s.kept := by
  refine forRange_keeps (v := State.kept) (fun g s => ?_) 36 s
  split
  · rfl
  · exact kept_sendOn g m s

theorem kept_qpOut (e q : Nat) (k : EthPkt) (s : State) : (s.qpOut e q k).kept = s.kept := by
  rw [State.qpOut, kept_bwAdd, kept_setQp]

theorem kept_qpDrain (e q n : Nat) (s : State) : (State.qpDrain e q n s).kept = s.kept := by
  induction n generalizing s with
  | zero => rfl
  | succ n ih =>
    simp only [State.qpDrain]
    split
    · split
      · rfl
      · rw [ih, kept_qpOut, kept_setQp]
    · rfl

theorem kept_ethSend (d qpn : Nat) (l : List Nat) (s : State) : (s.ethSend d qpn l).kept = s.kept := by
  unfold State.ethSend State.qpRequest
  dsimp only
  rw [kept_qpDrain, kept_setQp]

theorem kept_stotEthernet (slot : Nat) (s : State) : (s.stotEthernet slot).kept = s.kept := by
  unfold State.stotEthernet
  extract_lets ps one die s1
  have hone (d : Nat) (s : State) (m : Nat) : (one d s m).kept = s.kept := by
    simp only [one]
    split
    · exact kept_ethSend _ _ _ s
    · rfl
  have hdie (s : State) (d : Nat) : (die s d).kept = s.kept :=
    foldl_keeps (v := State.kept) (fun s e => foldl_keeps (v := State.kept) (hone d) _ s) _ s
  have h1 : s1.kept = s.kept := kept_ethStot _ s
  split
  · exact h1
  · rw [hdie, hdie, h1]

theorem kept_stotOriginate (kind job lost : Nat) (s : State) : (s.stotOriginate kind job lost).kept = s.kept := by
  unfold State.stotOriginate State.stotRecord State.stotNote
  rw [kept_stotEthernet, kept_flood, kept_stotSeen, kept_stotSeen]

theorem kept_modSlot (p k : Nat) (f : Slot → Slot) (s : State) : (s.modSlot p k f).kept = s.kept := by
  unfold State.modSlot
  split
  · exact kept_setSlot _ _ _ s
  · rfl

theorem kept_abortAndStot (p k : Nat) (r : AbortReq) (s : State) : (s.abortAndStot p k r).kept = s.kept := by
  unfold State.abortAndStot State.askAbort
  split
  · split
    · rw [kept_stotOriginate, kept_modSlot]
    · rfl
  · rfl

theorem kept_abortHerd (h : Nat) (s : State) : (s.abortHerd h).kept = s.kept := by
  unfold State.abortHerd
  split
  · split
    · exact kept_abortAndStot _ _ _ s
    · rfl
  · rfl

theorem kept_logFault (e : LogEntry) (s : State) : (s.logFault e).kept = s.kept := by
  unfold State.logFault
  dsimp only
  rw [kept_fset, kept_fset]
  exact forRange_keeps (v := State.kept) (fun w s => kept_fset _ _ _ s) 4 s

theorem kept_watchdog (e : LogEntry) (s : State) : (s.watchdog e).kept = s.kept := by
  unfold State.watchdog State.timeoutLog State.lifeAdd State.fadd
  rw [kept_fset, kept_health, kept_fset, kept_logFault]

theorem kept_segRecord (t segId idx cause : Nat) (s : State) : (s.segRecord t segId idx cause).kept = s.kept := by
  unfold State.segRecord
  dsimp only
  split <;> simp only [kept_fset]

/-! ### The end of a running segment -/

theorem tiles_of_kept (h : t.kept = s.kept) (n : Nat) : t.tile n = s.tile n :=
  congrArg (fun k : Kept => Map.get ({} : Tile) k.tiles n) h

theorem cores_of_kept (h : t.kept = s.kept) : t.cores = s.cores := congrArg Kept.cores h

theorem core_of_kept (h : t.kept = s.kept) (c : Nat) : t.core c = s.core c :=
  congrArg (fun k : Kept => Map.get ({} : Core) k.cores c) h

/-- What a tile's own operations keep. -/
def Kept.noTiles (k : Kept) : Kept := { k with tiles := [] }

theorem noTiles_setTile (n : Nat) (x : Tile) (s : State) : (s.setTile n x).kept.noTiles = s.kept.noTiles := rfl
theorem kept_asksGone (f : Asker → Bool) (s : State) : (s.asksGone f).kept = s.kept := rfl
theorem kept_dropWaiters (t : Nat) (s : State) : (s.dropWaiters t).kept = s.kept := rfl

theorem noTiles_dropAcc (n : Nat) (s : State) : (s.dropAcc n).kept.noTiles = s.kept.noTiles := by
  rw [State.dropAcc, kept_fset, kept_fset, noTiles_setTile]

theorem noTiles_sampEnd (t : Nat) (r : Run) (s : State) : (s.sampEnd t r).kept.noTiles = s.kept.noTiles := by
  unfold State.sampEnd
  split
  · exact noTiles_setTile _ _ s
  · rfl

theorem hangs_setTile {n : Nat} {x : Tile} (h : x.hangs = (s.tile n).hangs) (m : Nat) :
    ((s.setTile n x).tile m).hangs = (s.tile m).hangs := by
  rcases eq_or_ne m n with rfl | hne
  · rw [State.tile_setTile_self, h]
  · rw [State.tile_setTile_ne _ _ hne]

theorem hangs_dropAcc (m n : Nat) (s : State) : ((s.dropAcc n).tile m).hangs = (s.tile m).hangs := by
  rw [State.dropAcc, tiles_of_kept (kept_fset _ _ _ _), tiles_of_kept (kept_fset _ _ _ _)]
  exact hangs_setTile (by rfl) m

theorem hangs_sampEnd (t m : Nat) (r : Run) (s : State) : ((s.sampEnd t r).tile m).hangs = (s.tile m).hangs := by
  unfold State.sampEnd
  split
  · exact hangs_setTile (by rfl) m
  · rfl

/-- The statistics of a segment that stops are counted as dropped. -/
def State.statsDropped (s : State) (t n : Nat) : State :=
  match s.partOfTile t with
  | some p =>
    match (s.part p).run with
    | some k => s.modSlot p k fun x => x.fadd R.SCH_NUM_STAT F.SCH_NUM_STAT_PG_DROPPED n
    | none => s
  | none => s

theorem kept_statsDropped (t n : Nat) (s : State) : (s.statsDropped t n).kept = s.kept := by
  unfold State.statsDropped
  split
  · split
    · exact kept_modSlot _ _ _ s
    · rfl
  · rfl

/-- The accumulators of the members are dropped. -/
def State.accsDropped (s : State) (l : List Nat) : State := l.foldl (fun s m => s.dropAcc m) s

/-- A tile runs no segment. -/
def State.idles (s : State) (t : Nat) : State := s.setTile t { s.tile t with run := none, sampFlight := 0 }

theorem stopRun_eq {r : Run} {n : Nat} (h : (s.tile n).run = some r) : ∃ f : Asker → Bool, ∃ k : Nat,
    s.stopRun n = (((((s.statsDropped n k).accsDropped r.members).asksGone f).sampEnd n r).idles n).dropWaiters n := by
  unfold State.stopRun
  rw [h]
  exact ⟨_, _, rfl⟩

theorem noTiles_stopRun (n : Nat) (s : State) : (s.stopRun n).kept.noTiles = s.kept.noTiles := by
  rcases h : (s.tile n).run with _ | r
  · unfold State.stopRun
    rw [h]
  · obtain ⟨f, k, e⟩ := stopRun_eq h
    have hd := foldl_keeps (v := fun s : State => s.kept.noTiles) (f := fun (s : State) (m : Nat) => s.dropAcc m)
      (fun s m => noTiles_dropAcc m s) r.members (s.statsDropped n k)
    rw [e, kept_dropWaiters, State.idles, noTiles_setTile, noTiles_sampEnd, kept_asksGone, ← kept_statsDropped n k s]
    exact hd

theorem run_stopRun (n : Nat) (s : State) : ((s.stopRun n).tile n).run = none := by
  rcases h : (s.tile n).run with _ | r
  · unfold State.stopRun
    rw [h]
    exact h
  · obtain ⟨f, k, e⟩ := stopRun_eq h
    rw [e, tiles_of_kept (kept_dropWaiters _ _), State.idles, State.tile_setTile_self]

theorem hangs_stopRun (n m : Nat) (s : State) : ((s.stopRun n).tile m).hangs = (s.tile m).hangs := by
  rcases h : (s.tile n).run with _ | r
  · unfold State.stopRun
    rw [h]
  · obtain ⟨f, k, e⟩ := stopRun_eq h
    have hd := foldl_keeps (v := fun s : State => (s.tile m).hangs) (f := fun (s : State) (m : Nat) => s.dropAcc m)
      (fun s n => hangs_dropAcc m n s) r.members (s.statsDropped n k)
    rw [e, tiles_of_kept (kept_dropWaiters _ _), State.idles, hangs_setTile (by rfl), hangs_sampEnd,
      tiles_of_kept (kept_asksGone _ _), ← tiles_of_kept (kept_statsDropped n k s)]
    exact hd

/-! ### Resets that become due -/

theorem mem_resetDue (c n : Nat) (s : State) : (c, n) ∈ (s.resetDue c n).resetsDue := by
  unfold State.resetDue
  split
  · rename_i h
    exact List.contains_iff_mem.1 h
  · exact List.mem_append_right _ (List.mem_singleton.2 rfl)

theorem mem_resetDue_of_mem {x : Nat × Nat} (c n : Nat) (h : x ∈ s.resetsDue) : x ∈ (s.resetDue c n).resetsDue := by
  unfold State.resetDue
  split
  · exact h
  · exact List.mem_append_left _ h

/-- What a reset that becomes due leaves. -/
def Kept.noDue (k : Kept) : Kept := { k with resetsDue := [] }

theorem noDue_resetDue (c n : Nat) (s : State) : (s.resetDue c n).kept.noDue = s.kept.noDue := by
  unfold State.resetDue
  split <;> rfl

/-- A member of a segment that hangs. -/
def State.hang (s : State) (u : Nat) : State := (s.modTile u fun x => { x with hangs := x.hangs + 1 }).resetDue 1 u

/-- The members of a segment that hangs. -/
def State.hangAll (s : State) (l : List Nat) : State := l.foldl (fun s u => s.hang u) s

theorem noDue_hang (u : Nat) (s : State) : (s.hang u).kept.noDue.noTiles = s.kept.noDue.noTiles := by
  rw [State.hang, noDue_resetDue]
  rfl

theorem noDue_hangAll (l : List Nat) (s : State) : (s.hangAll l).kept.noDue.noTiles = s.kept.noDue.noTiles := by
  have h := foldl_keeps (v := fun s : State => s.kept.noDue.noTiles) (f := fun (s : State) (u : Nat) => s.hang u)
    (fun s u => noDue_hang u s) l s
  exact h

theorem tile_resetDue (c u n : Nat) (s : State) : (s.resetDue c u).tile n = s.tile n :=
  congrArg (fun k : Kept => Map.get ({} : Tile) k.tiles n) (noDue_resetDue c u s)

theorem run_hang (u n : Nat) (s : State) : ((s.hang u).tile n).run = (s.tile n).run := by
  rw [State.hang, tile_resetDue, State.modTile]
  rcases eq_or_ne n u with rfl | hne
  · rw [State.tile_setTile_self]
  · rw [State.tile_setTile_ne _ _ hne]

theorem run_hangAll (l : List Nat) (n : Nat) (s : State) : ((s.hangAll l).tile n).run = (s.tile n).run := by
  have h := foldl_keeps (v := fun s : State => (s.tile n).run) (f := fun (s : State) (u : Nat) => s.hang u)
    (fun s u => run_hang u n s) l s
  exact h

theorem hangs_hang (u : Nat) (s : State) : ((s.hang u).tile u).hangs = (s.tile u).hangs + 1 := by
  rw [State.hang, tile_resetDue, State.modTile, State.tile_setTile_self]

theorem mem_hang_of_mem {x : Nat × Nat} (u : Nat) (h : x ∈ s.resetsDue) : x ∈ (s.hang u).resetsDue := mem_resetDue_of_mem 1 u h

theorem mem_hangAll_of_mem {x : Nat × Nat} (l : List Nat) (h : x ∈ s.resetsDue) : x ∈ (s.hangAll l).resetsDue := by
  induction l generalizing s with
  | nil => exact h
  | cons u l ih => exact ih (mem_hang_of_mem u h)

theorem mem_hangAll (l : List Nat) (s : State) {m : Nat} (h : m ∈ l) : (1, m) ∈ (s.hangAll l).resetsDue := by
  induction l generalizing s with
  | nil => cases h
  | cons u l ih =>
    rcases List.mem_cons.1 h with rfl | h
    · exact mem_hangAll_of_mem l (mem_resetDue 1 m _)
    · exact ih _ h

/-! ### The watchdogs -/

/-- What is logged of a segment that hangs. -/
def hangEntry (n : Nat) (r : Run) : LogEntry :=
  { cls := 5, dom := 1, unit := n, kind := 1, cause := 0x13, segId := r.img.segId, index := r.lastIdx }

/-- A hanging segment is dropped, recorded and logged, and its step is aborted. -/
def State.hangDrop (s : State) (n : Nat) (r : Run) : State :=
  (((s.stopRun n).segRecord n r.img.segId r.lastIdx 0xB).watchdog (hangEntry n r)).abortHerd (n / 12)

theorem kept_hangDrop (n : Nat) (r : Run) (s : State) : (s.hangDrop n r).kept = (s.stopRun n).kept := by
  rw [State.hangDrop, kept_abortHerd, kept_watchdog, kept_segRecord]

theorem exec_segHang {n : Nat} {r : Run} (hn : n < 192) (hr : (s.tile n).run = some r) (hb : s.atBoundary 3 = true)
    (hs : s.fget R.TCK_WDOG F.TCK_WDOG_SEG_TICKS ≤ r.bounds) :
    exec (.segHang n) s = .next ((s.hangDrop n r).hangAll r.members) := by
  refine (State.runIf_true s (decide_eq_true hn) _).trans ?_
  rw [hr]
  simp only [hb, Nat.not_lt.2 hs, decide_false, Bool.not_true, Bool.or_false, Bool.false_eq_true, if_false]
  rfl

/-- A hanging segment is dropped, and the domains of its tiles are to be reset. -/
theorem segHang_drops {n : Nat} {r : Run} (hn : n < 192) (hr : (s.tile n).run = some r) (hb : s.atBoundary 3 = true)
    (hs : s.fget R.TCK_WDOG F.TCK_WDOG_SEG_TICKS ≤ r.bounds) :
    ∃ u : State, exec (.segHang n) s = .next u ∧ (u.tile n).run = none ∧ (∀ m ∈ r.members, (1, m) ∈ u.resetsDue)
      ∧ (r.members = [n] → (u.tile n).hangs = (s.tile n).hangs + 1)
      ∧ u.mem = s.mem ∧ u.clk = s.clk ∧ u.herds = s.herds ∧ u.cores = s.cores ∧ u.pending = s.pending := by
  have hk := kept_hangDrop n r s
  have hf : ((s.hangDrop n r).hangAll r.members).kept.noDue.noTiles = s.kept.noDue.noTiles := by
    rw [noDue_hangAll, hk]
    exact congrArg Kept.noDue (noTiles_stopRun n s)
  refine ⟨_, exec_segHang hn hr hb hs, ?_, fun m hm => mem_hangAll _ _ hm, fun h1 => ?_, congrArg Kept.mem hf, congrArg Kept.clk hf,
    congrArg Kept.herds hf, congrArg Kept.cores hf, congrArg Kept.pending hf⟩
  · rw [run_hangAll, tiles_of_kept hk, run_stopRun]
  · rw [h1]
    refine (hangs_hang n _).trans ?_
    rw [tiles_of_kept hk, hangs_stopRun]

/-- The watchdog of a herd starts afresh and is logged, and the step is aborted. -/
def State.herdExpires (s : State) (h : Nat) : State :=
  ((s.setHerd h { s.herd h with wd := 0 }).watchdog { cls := 5, dom := 2, unit := h, kind := 2, cause := 0x13 }).abortHerd h

theorem kept_herdExpires (h : Nat) (s : State) : (s.herdExpires h).kept = (s.setHerd h { s.herd h with wd := 0 }).kept := by
  rw [State.herdExpires, kept_abortHerd, kept_watchdog]

theorem exec_herdWatchdog {h : Nat} (hh : h < 16) (hb : s.atBoundary 3 = true)
    (hw : s.fget R.TCK_WDOG F.TCK_WDOG_HERD_TICKS ≤ (s.herd h).wd) : exec (.herdWatchdog h) s =
      .next ((s.herdExpires h).resetDue 2 h) := by
  refine (State.runIf_true s (decide_eq_true hh) _).trans ?_
  simp only [hb, Nat.not_lt.2 hw, decide_false, Bool.not_true, Bool.or_false, Bool.false_eq_true, if_false]
  rfl

theorem herdWatchdog_resets {h : Nat} (hh : h < 16) (hb : s.atBoundary 3 = true)
    (hw : s.fget R.TCK_WDOG F.TCK_WDOG_HERD_TICKS ≤ (s.herd h).wd) :
    ∃ u : State, exec (.herdWatchdog h) s = .next u ∧ u.herd h = { s.herd h with wd := 0 } ∧ (2, h) ∈ u.resetsDue
      ∧ (∀ g, g ≠ h → u.herd g = s.herd g) ∧ u.mem = s.mem ∧ u.clk = s.clk ∧ u.tiles = s.tiles ∧ u.cores = s.cores := by
  have hk : ((s.herdExpires h).resetDue 2 h).kept.noDue = (s.setHerd h { s.herd h with wd := 0 }).kept.noDue := by
    rw [noDue_resetDue, kept_herdExpires]
  have hg (g : Nat) : ((s.herdExpires h).resetDue 2 h).herd g = (s.setHerd h { s.herd h with wd := 0 }).herd g :=
    congrArg (fun k : Kept => Map.get ({} : Herd) k.herds g) hk
  refine ⟨_, exec_herdWatchdog hh hb hw, ?_, mem_resetDue 2 h _, fun g hne => ?_, congrArg Kept.mem hk, congrArg Kept.clk hk,
    congrArg Kept.tiles hk, congrArg Kept.cores hk⟩
  · rw [hg, State.herd_setHerd_self]
  · rw [hg, State.herd_setHerd_ne _ _ hne]

/-- The watchdog of a die starts afresh. -/
def State.dieAfresh (s : State) (d : Nat) : State := { s with dieWd := Map.put 0 s.dieWd d 0 }

/-- The watchdog of a die starts afresh and is logged, and the steps of its herds are aborted. -/
def State.dieExpires (s : State) (d : Nat) : State :=
  forRange 8 (fun i (s : State) => s.abortHerd (8 * d + i))
    ((s.dieAfresh d).watchdog { cls := 5, dom := 3, unit := d, kind := 3, cause := 0x13 })

theorem kept_dieExpires (d : Nat) (s : State) : (s.dieExpires d).kept = (s.dieAfresh d).kept :=
  (forRange_keeps (v := State.kept) (f := fun i (s : State) => s.abortHerd (8 * d + i)) (fun _ s => kept_abortHerd _ s) 8 _).trans
    (kept_watchdog _ _)

theorem exec_dieWatchdog {d : Nat} (hd : d < 2) (hb : s.atBoundary 3 = true)
    (hw : s.fget R.TCK_WDOG F.TCK_WDOG_DIE_TICKS ≤ Map.get 0 s.dieWd d) : exec (.dieWatchdog d) s =
      .next ((s.dieExpires d).resetDue 3 d) := by
  refine (State.runIf_true s (decide_eq_true hd) _).trans ?_
  simp only [hb, Nat.not_lt.2 hw, decide_false, Bool.not_true, Bool.or_false, Bool.false_eq_true, if_false]
  rfl

theorem dieWatchdog_resets {d : Nat} (hd : d < 2) (hb : s.atBoundary 3 = true)
    (hw : s.fget R.TCK_WDOG F.TCK_WDOG_DIE_TICKS ≤ Map.get 0 s.dieWd d) :
    ∃ u : State, exec (.dieWatchdog d) s = .next u ∧ Map.get 0 u.dieWd d = 0 ∧ (3, d) ∈ u.resetsDue
      ∧ u.herds = s.herds ∧ u.mem = s.mem ∧ u.clk = s.clk ∧ u.tiles = s.tiles ∧ u.cores = s.cores := by
  have hk : ((s.dieExpires d).resetDue 3 d).kept.noDue = (s.dieAfresh d).kept.noDue := by rw [noDue_resetDue, kept_dieExpires]
  have hdie : ((s.dieExpires d).resetDue 3 d).dieWd = (s.dieAfresh d).dieWd := congrArg Kept.dieWd hk
  refine ⟨_, exec_dieWatchdog hd hb hw, ?_, mem_resetDue 3 d _, congrArg Kept.herds hk, congrArg Kept.mem hk, congrArg Kept.clk hk,
    congrArg Kept.tiles hk, congrArg Kept.cores hk⟩
  rw [hdie]
  exact Map.get_put_self 0 s.dieWd d 0

/-! ### Heartbeats -/

/-- A beat of a core, where its bit is 1. -/
def State.beat (s : State) (v h c : Nat) : State := s.when (bit v c) fun s => s.setCore (2 * h + c) { s.core (2 * h + c) with hb := 0 }

theorem core_progress (h c : Nat) (s : State) : (s.progress h).core c = s.core c := rfl

theorem wd_progress (h : Nat) (s : State) : ((s.progress h).herd h).wd = 0 := congrArg Herd.wd (State.herd_setHerd_self _ _ _)

theorem dieWd_progress (h : Nat) (s : State) : Map.get 0 (s.progress h).dieWd (h / 8) = 0 := Map.get_put_self 0 s.dieWd (h / 8) 0

theorem progress_eq (h : Nat) (s : State) :
    s.progress h = { s with cores := (s.progress h).cores, herds := (s.progress h).herds, dieWd := (s.progress h).dieWd } := rfl

theorem beatWrite_eq (h v : Nat) (s : State) : beatWrite h v s =
    (((s.beat v h 0).beat v h 1).when (v % 4 != 0) fun s => s.progress h).pmcHerd h 0x0A (popcount 2 (v % 4)) := by
  unfold beatWrite
  rcases hv : v % 4 != 0 with _ | _
  · rw [show popcount 2 (v % 4) = 0 by rw [show v % 4 = 0 by simpa using hv]; rfl]
    rfl
  · rfl

theorem core_beat (s : State) (v h c d : Nat) : (s.beat v h c).core (2 * h + d) =
    if d = c then { s.core (2 * h + d) with hb := if bit v c then 0 else (s.core (2 * h + d)).hb } else s.core (2 * h + d) := by
  unfold State.beat State.when
  rcases eq_or_ne d c with rfl | hne
  · cases bit v d
    · simp
    · simp [State.core_setCore_self]
  · have hk : 2 * h + d ≠ 2 * h + c := by omega
    cases bit v c
    · simp [hne]
    · simp [hne, State.core_setCore_ne _ _ hk]

theorem beat_eq (s : State) (v h c : Nat) : ∃ m, s.beat v h c = { s with cores := m } := by
  unfold State.beat State.when
  split
  · exact ⟨_, rfl⟩
  · exact ⟨s.cores, rfl⟩

/-- A write of HRD_HEARTBEAT, the count of events apart. -/
theorem beats_spec (s : State) (h v : Nat) : ∃ u, u = (((s.beat v h 0).beat v h 1).when (v % 4 != 0) fun s => s.progress h)
    ∧ (∀ c, c < 2 → u.core (2 * h + c) = { s.core (2 * h + c) with hb := if bit v c then 0 else (s.core (2 * h + c)).hb })
    ∧ (u.herd h).wd = (if v % 4 = 0 then (s.herd h).wd else 0)
    ∧ Map.get 0 u.dieWd (h / 8) = (if v % 4 = 0 then Map.get 0 s.dieWd (h / 8) else 0)
    ∧ u = { s with cores := u.cores, herds := u.herds, dieWd := u.dieWd } := by
  refine ⟨_, rfl, fun c hc => ?_, ?_⟩
  · rw [show ((((s.beat v h 0).beat v h 1).when (v % 4 != 0) fun s => s.progress h).core (2 * h + c)) =
      ((s.beat v h 0).beat v h 1).core (2 * h + c) from
      when_keeps (v := fun s => State.core s (2 * h + c)) (fun s => core_progress h _ s) _, core_beat, core_beat]
    obtain rfl | rfl : c = 0 ∨ c = 1 := by omega
    · simp
    · simp
  · obtain ⟨m, e⟩ := beat_eq s v h 0
    obtain ⟨m', e'⟩ := beat_eq { s with cores := m } v h 1
    rw [e, e']
    rcases hv : v % 4 != 0 with _ | _
    · have h0 : v % 4 = 0 := by simpa using hv
      rw [if_pos h0, if_pos h0]
      exact ⟨rfl, rfl, rfl⟩
    · have h0 : v % 4 ≠ 0 := by simpa using hv
      rw [if_neg h0, if_neg h0]
      exact ⟨wd_progress h _, dieWd_progress h _, progress_eq h _⟩

theorem exec_heartbeat {a : Agent} {h v : Nat} (hw : instrWf (.heartbeat a h v) = true)
    (he : s.entry a .hrd h (R.HRD_HEARTBEAT h) true = .reach) : exec (.heartbeat a h v) s = .next (beatWrite h v (s.answer .ok 0)) :=
  (State.runIf_true s hw _).trans (by rw [State.writeReg_reach _ he])

theorem exec_heartbeatExpiry {c : Nat} (hc : c < 32) (hb : s.atBoundary 3 = true)
    (hh : s.fget R.TCK_WDOG F.TCK_WDOG_HB_TICKS ≤ (s.core c).hb) : exec (.heartbeatExpiry c) s =
      .next (((s.setCore c { s.core c with hb := 0, irq := (s.core c).irq ||| 2 }).watchdog
        { cls := 5, unit := c, kind := 9, cause := 0x13 }).event (R.HRD_HEARTBEAT (c / 2))
          (some { F.HRD_HEARTBEAT_BEAT with lo := c % 2 }) [c]) := by
  refine (State.runIf_true s (decide_eq_true hc) _).trans ?_
  simp only [hb, Nat.not_lt.2 hh, decide_false, Bool.not_true, Bool.or_false, Bool.false_eq_true, if_false]

theorem heartbeatExpiry_interrupts {c : Nat} (hc : c < 32) (hb : s.atBoundary 3 = true)
    (hh : s.fget R.TCK_WDOG F.TCK_WDOG_HB_TICKS ≤ (s.core c).hb) :
    ∃ u : State, exec (.heartbeatExpiry c) s =
        .next (u.event (R.HRD_HEARTBEAT (c / 2)) (some { F.HRD_HEARTBEAT_BEAT with lo := c % 2 }) [c])
      ∧ u.core c = { s.core c with hb := 0, irq := (s.core c).irq ||| 2 }
      ∧ u = { s with cores := u.cores }.watchdog { cls := 5, unit := c, kind := 9, cause := 0x13 }
      ∧ ∀ d, d ≠ c → u.core d = s.core d := by
  refine ⟨_, exec_heartbeatExpiry hc hb hh, ?_⟩
  generalize hx : s.setCore c { s.core c with hb := 0, irq := (s.core c).irq ||| 2 } = x
  have hk := kept_watchdog { cls := 5, unit := c, kind := 9, cause := 0x13 } x
  have hcore (d : Nat) : (x.watchdog { cls := 5, unit := c, kind := 9, cause := 0x13 }).core d = x.core d :=
    core_of_kept hk d
  have hcs : (x.watchdog { cls := 5, unit := c, kind := 9, cause := 0x13 }).cores = x.cores := cores_of_kept hk
  refine ⟨?_, ?_, fun d hd => ?_⟩
  · rw [hcore, ← hx, State.core_setCore_self]
  · have hs : x = { s with cores := x.cores } := by
      rw [← hx]
      rfl
    rw [hcs]
    exact congrArg (State.watchdog · { cls := 5, unit := c, kind := 9, cause := 0x13 }) hs
  · rw [hcore, ← hx, State.core_setCore_ne _ _ hd]

/-! ### A logged timeout -/

/-- The first m words of a log entry are written. -/
def State.logWords (s : State) (e : LogEntry) (n m : Nat) : State :=
  forRange m (fun w s => s.fset (R.FLT_LOG n w) F.FLT_LOG_WORD ((e.words s.tick).getD w 0)) s

theorem logFault_eq (e : LogEntry) (s : State) : s.logFault e =
    ((s.logWords e (s.fget R.FLT_LOG_PTR F.FLT_LOG_PTR_NEXT % 64) 4).fset R.FLT_LOG_PTR F.FLT_LOG_PTR_NEXT
      (s.fget R.FLT_LOG_PTR F.FLT_LOG_PTR_NEXT % 64 + 1)).fset R.FLT_LOG_PTR F.FLT_LOG_PTR_COUNT
        (s.fget R.FLT_LOG_PTR F.FLT_LOG_PTR_COUNT + 1) := rfl

theorem logWords_succ (e : LogEntry) (n m : Nat) (s : State) : s.logWords e n (m + 1) =
    (s.logWords e n m).fset (R.FLT_LOG n m) F.FLT_LOG_WORD ((e.words (s.logWords e n m).tick).getD m 0) := forRange_succ _ _ _

/-- The words of an entry touch no register of another place. -/
theorem fget_logWords {e : LogEntry} {n m off : Nat} {f : Fld} (ho : off + 8 ≤ 0x401000) (hf : f.lo < 64) :
    (s.logWords e n m).fget off f = s.fget off f := by
  refine forRange_keeps (v := fun s : State => s.fget off f) (fun w s => State.fget_fset_ne _ _ (regKey_ne_of_off ?_ hf (by decide))) m s
  simp only [R.FLT_LOG]
  omega

theorem clk_logWords (e : LogEntry) (n m : Nat) (s : State) : (s.logWords e n m).clk = s.clk :=
  forRange_keeps (v := State.clk)
    (f := fun w (s : State) => s.fset (R.FLT_LOG n w) F.FLT_LOG_WORD ((e.words s.tick).getD w 0)) (fun _ _ => rfl) m s

theorem tick_logWords (e : LogEntry) (n m : Nat) (s : State) : (s.logWords e n m).tick = s.tick := by
  unfold State.tick State.period State.pLog
  rw [fget_logWords (by decide) (by decide), clk_logWords]

/-- Every word of an entry is a word. -/
theorem words_lt (e : LogEntry) (k i : Nat) : (e.words k).getD i 0 < 2 ^ 64 := by
  unfold LogEntry.words
  rcases i with _ | _ | _ | _ | i <;> simp only [List.getD_cons_zero, List.getD_cons_succ, List.getD_nil] <;> omega

theorem word_logWords (e : LogEntry) (n m : Nat) (s : State) {i : Nat} (hi : i < m) :
    (s.logWords e n m).fget (R.FLT_LOG n i) F.FLT_LOG_WORD = (e.words s.tick).getD i 0 := by
  induction m with
  | zero => omega
  | succ m ih =>
    rw [logWords_succ]
    rcases Nat.lt_succ_iff_lt_or_eq.1 hi with hlt | rfl
    · rw [State.fget_fset_ne _ _ (regKey_ne_of_off ?_ (by decide) (by decide)), ih hlt]
      simp only [R.FLT_LOG]
      omega
    · rw [State.fget_fset_self, tick_logWords]
      exact Nat.mod_eq_of_lt (words_lt e _ _)

/-- A log entry touches no register behind those of the fault controller. -/
theorem fget_logFault {e : LogEntry} {off : Nat} {f : Fld} (ho : 0x402000 ≤ off) (hf : f.lo < 64) :
    (s.logFault e).fget off f = s.fget off f := by
  have key {o : Nat} {g : Fld} (h : o + 8 ≤ 0x402000) (hg : g.lo < 64) : regKey off f ≠ regKey o g :=
    regKey_ne_of_off (.inr (h.trans ho)) hf hg
  rw [logFault_eq, State.fget_fset_ne _ _ (key (by decide) (by decide)), State.fget_fset_ne _ _ (key (by decide) (by decide))]
  generalize hn : s.fget R.FLT_LOG_PTR F.FLT_LOG_PTR_NEXT % 64 = n
  have hw (x : State) (w v : Nat) (h4 : w < 4) : (x.fset (R.FLT_LOG n w) F.FLT_LOG_WORD v).fget off f = x.fget off f := by
    refine State.fget_fset_ne _ _ (key ?_ (by decide))
    simp only [R.FLT_LOG]
    omega
  rw [logWords_succ, hw _ _ _ (by decide), logWords_succ, hw _ _ _ (by decide), logWords_succ, hw _ _ _ (by decide), logWords_succ,
    hw _ _ _ (by decide)]
  rfl

/-- The package without its registers. -/
def State.noRegs (s : State) : State := { s with regs := [] }

theorem noRegs_fset (off : Nat) (f : Fld) (v : Nat) (s : State) : (s.fset off f v).noRegs = s.noRegs := rfl

theorem noRegs_logFault (e : LogEntry) (s : State) : (s.logFault e).noRegs = s.noRegs := by
  rw [logFault_eq, noRegs_fset, noRegs_fset]
  exact forRange_keeps (v := State.noRegs) (fun w s => noRegs_fset _ _ _ s) 4 s

/-- A timeout is counted, and its entry stands in the log. -/
structure Logged (s t : State) (e : LogEntry) : Prop where
  count : t.fget R.FLT_ERRCNT F.FLT_ERRCNT_TIMEOUT = min (s.fget R.FLT_ERRCNT F.FLT_ERRCNT_TIMEOUT + 1) (2 ^ F.FLT_ERRCNT_TIMEOUT.w - 1)
  entry : ∀ i, i < 4 →
    t.fget (R.FLT_LOG (s.fget R.FLT_LOG_PTR F.FLT_LOG_PTR_NEXT % 64) i) F.FLT_LOG_WORD = (e.words s.tick).getD i 0
  next : t.fget R.FLT_LOG_PTR F.FLT_LOG_PTR_NEXT = (s.fget R.FLT_LOG_PTR F.FLT_LOG_PTR_NEXT % 64 + 1) % 64

/-- What leaves the registers of the fault controller leaves what is logged. -/
theorem Logged.of_fget {u : State} {e : LogEntry} (h : Logged s t e)
    (hu : ∀ o f, o + 8 ≤ 0x402000 → Fld.lo f < 64 → u.fget o f = t.fget o f) : Logged s u e := by
  refine ⟨(hu _ _ (by decide) (by decide)).trans h.count, fun i hi => (hu _ _ ?_ (by decide)).trans (h.entry i hi),
    (hu _ _ (by decide) (by decide)).trans h.next⟩
  simp only [R.FLT_LOG]
  omega

theorem Logged.fset {e : LogEntry} (h : Logged s t e) {off : Nat} {f : Fld} (ho : 0x402000 ≤ off) (hf : f.lo < 64) (v : Nat) :
    Logged s (t.fset off f v) e :=
  h.of_fget fun _ _ h2 hg => State.fget_fset_ne _ _ (regKey_ne_of_off (.inl (h2.trans ho)) hg hf)

theorem Logged.regs {u : State} {e : LogEntry} (h : Logged s t e) (hu : u.regs = t.regs) : Logged s u e :=
  h.of_fget fun o f _ _ => by rw [State.fget, hu, State.fget]

theorem fget_fadd_ne {off o n : Nat} {f g : Fld} (h : regKey o g ≠ regKey off f) : (s.fadd off f n).fget o g = s.fget o g :=
  State.fget_fset_ne _ _ h

theorem logged_logFault (e : LogEntry) (s : State) : Logged s ((s.logFault e).fadd R.FLT_ERRCNT F.FLT_ERRCNT_TIMEOUT 1) e := by
  have hn (o : Nat) (f : Fld) (h1 : regKey o f ≠ regKey R.FLT_LOG_PTR F.FLT_LOG_PTR_NEXT)
      (h2 : regKey o f ≠ regKey R.FLT_LOG_PTR F.FLT_LOG_PTR_COUNT) :
      (s.logFault e).fget o f = (s.logWords e (s.fget R.FLT_LOG_PTR F.FLT_LOG_PTR_NEXT % 64) 4).fget o f := by
    rw [logFault_eq, State.fget_fset_ne _ _ h2, State.fget_fset_ne _ _ h1]
  refine ⟨?_, fun i hi => ?_, ?_⟩
  · rw [fget_fadd_self, hn _ _ (by decide) (by decide), fget_logWords (by decide) (by decide)]
  · have hk (o : Nat) (f : Fld) (ho : o + 8 ≤ 0x401000) (hf : f.lo < 64) :
        regKey (R.FLT_LOG (s.fget R.FLT_LOG_PTR F.FLT_LOG_PTR_NEXT % 64) i) F.FLT_LOG_WORD ≠ regKey o f := by
      refine regKey_ne_of_off (.inr ?_) (by decide) hf
      simp only [R.FLT_LOG]
      omega
    rw [fget_fadd_ne (hk _ _ (by decide) (by decide)), hn _ _ (hk _ _ (by decide) (by decide)) (hk _ _ (by decide) (by decide)),
      word_logWords e _ 4 s hi]
  · rw [fget_fadd_ne (by decide), logFault_eq, State.fget_fset_ne _ _ (by decide), State.fget_fset_self]
    rfl

/-- The entry of a request to a unit that has had no answer. -/
def requestEntry (kind unit line : Nat) : LogEntry := { cls := 5, unit := unit, kind := kind, cause := 0x13, arg := line * 64 }

theorem logged_timeoutAt (kind unit line : Nat) (s : State) :
    Logged s (s.timeoutAt (requestEntry kind unit line)) (requestEntry kind unit line) :=
  (logged_logFault (requestEntry kind unit line) s).regs rfl

/-- What a request's timeout may touch. -/
def State.asked (s : State) : State := { s with hltEv := [], regs := [], busy := [], reqQ := [], ucieOut := [] }

theorem asked_fset (off : Nat) (f : Fld) (v : Nat) (s : State) : (s.fset off f v).asked = s.asked := rfl
theorem asked_health (i n : Nat) (s : State) : (s.health i n).asked = s.asked := rfl
theorem asked_ucieOut (m : Map Nat) (s : State) : { s with ucieOut := m }.asked = s.asked := rfl
theorem asked_setBusy (line : Nat) (b : Busy) (s : State) : (s.setBusy line b).asked = s.asked := rfl
theorem asked_reqQ (m : Map (List (Nat × Txn))) (s : State) : { s with reqQ := m }.asked = s.asked := rfl

theorem asked_of_noRegs (h : t.noRegs = s.noRegs) : t.asked = s.asked := by
  have ha := congrArg State.asked h
  exact ha

theorem asked_logFault (e : LogEntry) (s : State) : (s.logFault e).asked = s.asked := asked_of_noRegs (noRegs_logFault e s)

theorem asked_timeoutAt (e : LogEntry) (s : State) : (s.timeoutAt e).asked = s.asked := by
  rw [State.timeoutAt, State.timeoutLog, State.fadd, asked_health, asked_fset, asked_logFault]

theorem eq_of_asked (h : t.asked = s.asked) :
    t = { s with hltEv := t.hltEv, regs := t.regs, busy := t.busy, reqQ := t.reqQ, ucieOut := t.ucieOut } :=
  congrArg (fun x : State => { x with hltEv := t.hltEv, regs := t.regs, busy := t.busy, reqQ := t.reqQ, ucieOut := t.ucieOut }) h

/-! ### A request is given up -/

/-- An agent's request waits no longer at a busy line. -/
def Busy.without (b : Busy) (ag : Nat) : Busy := { b with waiters := b.waiters.filter fun t => t.ag != ag }

theorem giveUp_eq (ag line : Nat) (s : State) : ∃ m, s.giveUp ag line = { s.modBusy line (Busy.without · ag) with reqQ := m } :=
  ⟨_, rfl⟩

theorem asked_modBusy (line : Nat) (f : Busy → Busy) (s : State) : (s.modBusy line f).asked = s.asked := by
  unfold State.modBusy
  split
  · exact asked_setBusy _ _ s
  · rfl

theorem regs_modBusy (line : Nat) (f : Busy → Busy) (s : State) : (s.modBusy line f).regs = s.regs := by
  unfold State.modBusy
  split <;> rfl

theorem ucieOut_modBusy (line : Nat) (f : Busy → Busy) (s : State) : (s.modBusy line f).ucieOut = s.ucieOut := by
  unfold State.modBusy
  split <;> rfl

theorem asked_giveUp (ag line : Nat) (s : State) : (s.giveUp ag line).asked = s.asked := by
  obtain ⟨m, e⟩ := giveUp_eq ag line s
  rw [e, asked_reqQ, asked_modBusy]

theorem regs_giveUp (ag line : Nat) (s : State) : (s.giveUp ag line).regs = s.regs := regs_modBusy _ _ s

theorem ucieGone_giveUp (ag line l : Nat) (s : State) : (s.giveUp ag line).ucieGone l = s.ucieGone l :=
  congrArg (Map.get 0 · l) (ucieOut_modBusy line (Busy.without · ag) s)

theorem busyAt_modBusy (line : Nat) (f : Busy → Busy) (s : State) : (s.modBusy line f).busyAt line = (s.busyAt line).map f := by
  unfold State.modBusy
  split
  · rename_i b hb
    rw [hb]
    exact Map.find?_insert_self _ _ _
  · rename_i hb
    rw [hb]
    rfl

theorem not_waits_giveUp {ag line : Nat} {b : Busy} (h : (s.giveUp ag line).busyAt line = some b) : ∀ q ∈ b.waiters, q.ag ≠ ag := by
  have h' : (s.modBusy line (Busy.without · ag)).busyAt line = some b := h
  rw [busyAt_modBusy, Option.map_eq_some_iff] at h'
  obtain ⟨c, -, rfl⟩ := h'
  intro q hq
  simpa using (List.mem_filter.1 hq).2

theorem agentFails_of_caching {ag : Nat} (h : caching ag = true) (part why : Nat) (s : State) :
    s.agentFails ag part why = s.answer .accessFault 0 := by
  unfold State.agentFails
  rw [if_pos h]

/-! ### A UCIe module is retrained -/

theorem bit_setBits_zero (x k : Nat) : bit (setBits x k 1 0) k = false := by
  have h := Nat.div_add_mod x (2 ^ k)
  have hb : bit (setBits x k 1 0) k = ((x - x / 2 ^ k % 2 * 2 ^ k) / 2 ^ k % 2 == 1) := by
    simp [bit, bits, setBits, Nat.shiftRight_eq_div_pow, Nat.shiftLeft_eq]
  rw [hb, Nat.mul_comm, Nat.sub_mul_div, beq_eq_false_iff_ne]
  omega

theorem asked_retrain (d m : Nat) (s : State) : (s.retrain d m).asked = s.asked := asked_ucieOut _ s

theorem ucieGone_retrain (d m : Nat) (s : State) : bit ((s.retrain d m).ucieGone (moduleLink d m).1) (moduleLink d m).2 = false := by
  have h : (s.retrain d m).ucieGone (moduleLink d m).1 = setBits (s.ucieGone (moduleLink d m).1) (moduleLink d m).2 1 0 :=
    Map.get_put_self 0 s.ucieOut _ _
  rw [h, bit_setBits_zero]

/-- The timeout of a UCIe module is logged and counted, and the module is retrained. -/
def State.ucieLate (s : State) (d m line : Nat) : State :=
  ((((s.timeoutAt (requestEntry 8 (28 * d + m) line)).lifeAdd 27 1).histAdd 24 (28 * d + m) 1).health 1 1).retrain d m

theorem regs_ucieLate (d m line : Nat) (s : State) : (s.ucieLate d m line).regs =
    (((s.timeoutAt (requestEntry 8 (28 * d + m) line)).lifeAdd 27 1).histAdd 24 (28 * d + m) 1).regs := rfl

theorem asked_ucieLate (d m line : Nat) (s : State) : (s.ucieLate d m line).asked = s.asked := by
  rw [State.ucieLate, asked_retrain, asked_health, State.histAdd, State.lifeAdd, State.fadd, asked_fset, asked_fset, asked_timeoutAt]

theorem logged_ucieLate (d m line : Nat) (s : State) : Logged s (s.ucieLate d m line) (requestEntry 8 (28 * d + m) line) := by
  refine Logged.regs (Logged.fset (Logged.fset (logged_timeoutAt 8 (28 * d + m) line s) ?_ (by decide) _) ?_ (by decide) _)
    (regs_ucieLate d m line s)
  · decide
  · simp only [R.LIF_HIST]
    omega

theorem fget_timeoutAt {e : LogEntry} {off : Nat} {f : Fld} (ho : 0x402000 ≤ off) (hf : f.lo < 64) :
    (s.timeoutAt e).fget off f = s.fget off f := by
  have hk : regKey off f ≠ regKey R.FLT_ERRCNT F.FLT_ERRCNT_TIMEOUT :=
    regKey_ne_of_off (.inr (by simp only [R.FLT_ERRCNT]; omega)) hf (by decide)
  rw [State.timeoutAt, show ∀ x : State, (x.health 0 1).fget off f = x.fget off f from fun _ => rfl, State.timeoutLog,
    fget_fadd_ne hk, fget_logFault ho hf]

theorem life_ucieLate (d m line : Nat) (s : State) : (s.ucieLate d m line).fget (R.LIF_CNT 27) F.LIF_CNT_VALUE =
    min (s.fget (R.LIF_CNT 27) F.LIF_CNT_VALUE + 1) (2 ^ F.LIF_CNT_VALUE.w - 1) := by
  have hk : regKey (R.LIF_CNT 27) F.LIF_CNT_VALUE ≠ regKey (R.LIF_HIST 24 ((28 * d + m) / 2)) F.LIF_HIST_VALUE := by
    refine regKey_ne_of_off (.inl ?_) (by decide) (by decide)
    simp only [R.LIF_CNT, R.LIF_HIST]
    omega
  rw [State.fget, regs_ucieLate, ← State.fget, State.histAdd, State.fget_fset_ne _ _ hk, State.lifeAdd, fget_fadd_self,
    fget_timeoutAt (by decide) (by decide)]

theorem exec_memRequestTimeout {ag line : Nat} (hw : instrWf (.memRequestTimeout ag line) = true) : ∃ part,
    exec (.memRequestTimeout ag line) s =
      .next (((s.timeoutAt (requestEntry (memUnit line).1 (memUnit line).2 line)).giveUp ag line).agentFails ag part 2) :=
  ⟨_, State.runIf_true s hw _⟩

theorem exec_ucieTimeout {d m ag line : Nat} (hw : instrWf (.ucieTimeout d m ag line) = true) : ∃ part,
    exec (.ucieTimeout d m ag line) s = .next (((s.ucieLate d m line).giveUp ag line).agentFails ag part 2) :=
  ⟨_, State.runIf_true s hw _⟩

/-- What holds of a package in which a request has been logged, `x`, and its requester given an error. -/
theorem given_up {kind unit ag line : Nat} {x : State} (part : Nat) (hl : Logged s x (requestEntry kind unit line))
    (ha : x.asked = s.asked) :
    Logged s (x.giveUp ag line) (requestEntry kind unit line)
      ∧ (∀ b, (x.giveUp ag line).busyAt line = some b → ∀ q ∈ b.waiters, q.ag ≠ ag)
      ∧ x.giveUp ag line = { s with
          hltEv := (x.giveUp ag line).hltEv, regs := (x.giveUp ag line).regs, busy := (x.giveUp ag line).busy,
          reqQ := (x.giveUp ag line).reqQ, ucieOut := (x.giveUp ag line).ucieOut }
      ∧ (caching ag = true → ((x.giveUp ag line).agentFails ag part 2).rsp = { kind := .accessFault, data := 0 }
          ∧ (x.giveUp ag line).agentFails ag part 2 =
            { x.giveUp ag line with rsp := ((x.giveUp ag line).agentFails ag part 2).rsp }) := by
  refine ⟨hl.regs (regs_giveUp ag line x), fun b hb => not_waits_giveUp hb, eq_of_asked ((asked_giveUp ag line x).trans ha), fun hc => ?_⟩
  rw [agentFails_of_caching hc]
  exact ⟨rfl, rfl⟩

/-- Settles O9: heartbeats, watchdogs and timeouts each as their lemma says. -/
theorem heartbeatsAndWatchdogs : Obligations.HeartbeatsAndWatchdogs := by
  refine ⟨fun s a h v hw he => ?_, fun s c => heartbeatExpiry_interrupts, fun s t r => segHang_drops, fun s h => herdWatchdog_resets,
    fun s d => dieWatchdog_resets, fun s c ag line kind unit d m hw h => ?_⟩
  · obtain ⟨u, e, hc, hh, hd, hf⟩ := beats_spec (s.answer .ok 0) h v
    refine ⟨u, ?_, hc, hh, hd, ?_, ?_⟩
    · rw [exec_heartbeat hw he, beatWrite_eq, e]
    · rw [hf]
      rfl
    · rw [hf]
      rfl
  · rcases h with ⟨rfl, rfl, rfl⟩ | ⟨rfl, rfl, rfl⟩
    · obtain ⟨part, hx⟩ := exec_memRequestTimeout (s := s) hw
      obtain ⟨⟨hcount, hentry, hnext⟩, hwait, hframe, hans⟩ :=
        given_up (ag := ag) part (logged_timeoutAt _ _ line s) (asked_timeoutAt _ s)
      exact ⟨_, part, hx, hcount, hentry, hnext, fun e f x y hne => (nomatch hne), hwait, hframe, hans⟩
    · obtain ⟨part, hx⟩ := exec_ucieTimeout (s := s) hw
      obtain ⟨⟨hcount, hentry, hnext⟩, hwait, hframe, hans⟩ :=
        given_up (ag := ag) part (logged_ucieLate d m line s) (asked_ucieLate d m line s)
      refine ⟨_, part, hx, hcount, hentry, hnext, fun e f x y hne => ?_, hwait, hframe, hans⟩
      obtain ⟨rfl, rfl, rfl, rfl⟩ := Instr.ucieTimeout.inj hne
      refine ⟨?_, ?_⟩
      · rw [State.fget, regs_giveUp, ← State.fget, life_ucieLate]
      · rw [ucieGone_giveUp, State.ucieLate, ucieGone_retrain]

end Sys2Proof.Machine
end

section
/-!
Refresh, refresh lock and UCIe modules (O31). Where nothing waits for a refresh slot, its end leaves all as it is.
-/

set_option Elab.async false

namespace Sys2Proof.Machine

variable {s t : State}

/-! ### The end of a refresh slot for which nothing waits -/

theorem foldl_eq_self {σ α : Type} {f : σ → α → σ} {s : σ} {l : List α} (h : ∀ x ∈ l, f s x = s) : l.foldl f s = s := by
  induction l with
  | nil => rfl
  | cons x l ih =>
    rw [List.foldl_cons, h x (List.mem_cons_self ..)]
    exact ih fun y hy => h y (List.mem_cons_of_mem _ hy)

theorem chansServe_of_free {which : Nat → Bool} (h : ∀ e ∈ s.chans, which (e.1 / 64) = true → e.2.queue = []) :
    s.chansServe which = s := by
  refine foldl_eq_self fun e he => ?_
  split
  · rename_i hw
    rw [h e he hw]
    rfl
  · rfl

theorem unpark_of_free {ev : ErrEv} {which : Nat → Txn → Bool} (h : ∀ e ∈ s.busy, e.2.parked = false) :
    State.unpark ev which s = s := by
  refine foldl_eq_self fun e he => ?_
  simp [h e he]

theorem slotOver_of_free {which : Nat → Bool} (h : SlotFree s which) : s.slotOver which = s := by
  obtain ⟨hchan, hbusy, hcopy⟩ := h
  unfold State.slotOver
  rw [chansServe_of_free hchan, unpark_of_free hbusy]
  dsimp only
  rw [List.filter_eq_nil_iff.2 fun c hc => by simp [hcopy c hc]]
  rfl

/-! ### The refill keeps what waits at channels and homes -/

/-- What waits at channels and homes, and copies of rows. -/
def State.waiting (s : State) : Map Chan × Map Busy × List RowCopy := (s.chans, s.busy, s.copies)

theorem waiting_setBucket (p i : Nat) (v : Int) (s : State) : (s.setBucket p i v).waiting = s.waiting := rfl
theorem waiting_setRegQ (p i : Nat) (q : RegQ) (s : State) : (s.setRegQ p i q).waiting = s.waiting := rfl
theorem waiting_fillPool (i : Nat) (s : State) : (s.fillPool i).waiting = s.waiting := rfl

theorem waiting_issueTokens (p i n c : Nat) (s : State) : (s.issueTokens p i n c).1.waiting = s.waiting := by
  unfold State.issueTokens
  dsimp only
  split
  · rfl
  · split <;> split <;> rfl

theorem waiting_drainReg (p i n : Nat) (s : State) : (State.drainReg p i n s).waiting = s.waiting := by
  induction n generalizing s with
  | zero => rfl
  | succ n ih =>
    simp only [State.drainReg]
    split
    · rfl
    · rename_i k c l _
      have h := waiting_issueTokens p i k c s
      split <;> rename_i e <;> rw [e] at h
      · rw [ih, waiting_setRegQ]
        exact h
      · rw [waiting_setRegQ]
        exact h

theorem waiting_refill (s : State) : s.refill.waiting = s.waiting := by
  rw [State.refill_eq]
  refine forRange_keeps (v := State.waiting) (fun i s => ?_) 3 s
  have h1 := forRange_keeps (v := State.waiting) (f := fun p s => s.setBucket p i (min (s.bucket p i + 4 * s.rate p i) (4 * s.burst p i)))
    (fun p s => waiting_setBucket _ _ _ s) 8 s
  have h2 := forRange_keeps (v := State.waiting) (f := fun p s => State.drainReg p i (s.regQ p i).wait.length s)
    (fun p s => waiting_drainReg _ _ _ s) 8 ((s.fillBuckets i).fillPool i)
  exact h2.trans ((waiting_fillPool i _).trans h1)

theorem waiting_leaves (s : State) : s.leaves.waiting = s.waiting := by
  unfold State.leaves
  split
  · exact waiting_refill _
  · rfl

/-- What SlotFree looks at is what waits. -/
theorem SlotFree.of_waiting {which : Nat → Bool} (h : SlotFree s which) (e : t.waiting = s.waiting) : SlotFree t which := by
  obtain ⟨hc, hbc⟩ := Prod.mk.inj e
  obtain ⟨hb, hr⟩ := Prod.mk.inj hbc
  unfold SlotFree
  rw [hc, hb, hr]
  exact h

/-- The time of the slot passes. -/
def State.slotPassed (s : State) : State :=
  { (if s.slotLeft = 0 then s else s.leaves) with
    clk := { (if s.slotLeft = 0 then s else s.leaves).clk.pass s.slotLeft with
      phase := if s.slotLeft = 0 then s.clk.phase else 9, refSlot := false } }

theorem exec_refreshSlotEnd (h : s.clk.refSlot = true) : exec .refreshSlotEnd s = .next (s.slotPassed.slotOver fun _ => true) :=
  congrArg Host.Outcome.next (if_pos h)

theorem waiting_slotPassed (s : State) : s.slotPassed.waiting = s.waiting := by
  have h : s.slotPassed.waiting = (if s.slotLeft = 0 then s else s.leaves).waiting := rfl
  rw [h]
  split
  · rfl
  · exact waiting_leaves s

theorem refreshSlotEnd_of_free (h : s.clk.refSlot = true) (hf : SlotFree s fun _ => true) :
    exec .refreshSlotEnd s = .next s.slotPassed := by
  rw [exec_refreshSlotEnd h, slotOver_of_free (hf.of_waiting (waiting_slotPassed s))]

theorem slotPassed_clk (s : State) : s.slotPassed.clk.refSlot = false ∧ s.slotPassed.clk.tb = (s.clk.tb + s.slotLeft) % 2 ^ 64
    ∧ s.slotPassed.clk.cyc = s.clk.cyc + s.slotLeft := by
  have h (x : Clock) (hx : x.tb = s.clk.tb) (hy : x.cyc = s.clk.cyc) :
      (x.pass s.slotLeft).tb = (s.clk.tb + s.slotLeft) % 2 ^ 64 ∧ (x.pass s.slotLeft).cyc = s.clk.cyc + s.slotLeft := by
    rw [Clock.pass, hx, hy]
    exact ⟨rfl, rfl⟩
  obtain ⟨htb, hcyc⟩ := h (if s.slotLeft = 0 then s else s.leaves).clk (by split <;> simp) (by split <;> simp)
  exact ⟨rfl, htb, hcyc⟩

/-! ### Refresh (R319) -/

theorem exec_refresh_of_locked {ch d : Nat} (hw : instrWf (.refresh ch d) = true) (h : s.lockOn (ch / 64) = true) :
    exec (.refresh ch d) s = .next s := by
  refine (State.runIf_true s hw _).trans ?_
  simp [h]

/-- A channel postpones a REF command. -/
def State.refPostponed (s : State) (ch : Nat) : State :=
  { s with postponed := Map.put 0 s.postponed ch (Map.get 0 s.postponed ch + 1) }

/-- A channel issues a REF command with those that it postponed. -/
def State.refIssued (s : State) (ch : Nat) : State :=
  { s with postponed := s.postponed.erase ch }.issueRefs ch (Map.get 0 s.postponed ch + 1)

theorem postponed_refPostponed (ch : Nat) (s : State) :
    (s.refPostponed ch).postponed = Map.put 0 s.postponed ch (Map.get 0 s.postponed ch + 1) := rfl
theorem postponed_refIssued (ch : Nat) (s : State) : (s.refIssued ch).postponed = s.postponed.erase ch := rfl
theorem refs_refIssued (ch : Nat) (s : State) :
    (s.refIssued ch).refs = Map.put 0 s.refs ch (Map.get 0 s.refs ch + (Map.get 0 s.postponed ch + 1)) := rfl

theorem exec_refresh {ch d : Nat} (hw : instrWf (.refresh ch d) = true) (h : s.lockOn (ch / 64) = false) :
    exec (.refresh ch d) s =
      .next (if d = 1 ∧ s.mayPostpone ch then s.refPostponed ch else s.refIssued ch) := by
  refine (State.runIf_true s hw _).trans ?_
  simp only [h, Bool.false_eq_true, if_false]
  rfl

theorem mayPostpone_iff (ch : Nat) (s : State) :
    s.mayPostpone ch = true ↔ Map.get 0 s.postponed ch < 8 ∧ ∃ r ∈ (s.chan ch).queue, r.cls < 2 := by
  simp [State.mayPostpone]

theorem get_erase_self {α : Type} (d : α) (m : Map α) (x : Nat) : Map.get d (m.erase x) x = d := by simp [Map.get]

theorem get_erase_ne {α : Type} (d : α) (m : Map α) {x y : Nat} (h : y ≠ x) : Map.get d (m.erase x) y = Map.get d m y := by
  simp [Map.get, Map.find?_erase_ne m h]

theorem refresh_spec (ch d : Nat) (hw : instrWf (.refresh ch d) = true) (h : s.lockOn (ch / 64) = false) :
    ∃ u : State, exec (.refresh ch d) s = .next u
      ∧ (d = 1 → (∃ r ∈ (s.chan ch).queue, r.cls < 2) → Map.get 0 s.postponed ch < 8 →
          Map.get 0 u.postponed ch = Map.get 0 s.postponed ch + 1 ∧ u.refs = s.refs)
      ∧ (d ≠ 1 ∨ (∀ r ∈ (s.chan ch).queue, 2 ≤ r.cls) ∨ 8 ≤ Map.get 0 s.postponed ch →
          Map.get 0 u.postponed ch = 0 ∧ Map.get 0 u.refs ch = Map.get 0 s.refs ch + Map.get 0 s.postponed ch + 1)
      ∧ (∀ c, c ≠ ch → Map.get 0 u.postponed c = Map.get 0 s.postponed c ∧ Map.get 0 u.refs c = Map.get 0 s.refs c)
      ∧ u = { s with postponed := u.postponed, refs := u.refs } := by
  refine ⟨_, exec_refresh hw h, ?_⟩
  by_cases hc : d = 1 ∧ s.mayPostpone ch
  · rw [if_pos hc]
    obtain ⟨hd, hm⟩ := hc
    obtain ⟨h8, r, hr, hr2⟩ := (mayPostpone_iff ch s).1 hm
    refine ⟨fun _ _ _ => ⟨by rw [postponed_refPostponed, Map.get_put_self], rfl⟩, fun hn => ?_,
      fun c hne => ⟨by rw [postponed_refPostponed, Map.get_put_ne _ _ _ _ hne], rfl⟩, rfl⟩
    rcases hn with hn | hn | hn
    · exact absurd hd hn
    · exact absurd hr2 (Nat.not_lt.2 (hn r hr))
    · exact absurd h8 (Nat.not_lt.2 hn)
  · rw [if_neg hc]
    refine ⟨fun hd he h8 => absurd ⟨hd, (mayPostpone_iff ch s).2 ⟨h8, he⟩⟩ hc, fun _ => ⟨?_, ?_⟩, fun c hne => ⟨?_, ?_⟩, rfl⟩
    · rw [postponed_refIssued, get_erase_self]
    · rw [refs_refIssued, Map.get_put_self, Nat.add_assoc]
    · rw [postponed_refIssued, get_erase_ne _ _ hne]
    · rw [refs_refIssued, Map.get_put_ne _ _ _ _ hne]

/-! ### Refresh lock (R320, R321) -/

theorem exec_refLockWrite {a : Agent} {k v : Nat} (hw : instrWf (.refLockWrite a k v) = true)
    (he : s.entry a .stk k (R.STK_CTRL k) true = .reach) : exec (.refLockWrite a k v) s = .next (refLockEffect a k v (s.answer .ok 0)) :=
  (State.runIf_true s hw _).trans (by rw [State.writeReg_reach _ he])

/-- A register access error writes no register of a stack. -/
theorem fget_badWrite_stk {a : Agent} {off o : Nat} {f : Fld} (ho : 0x402000 ≤ o) (hf : f.lo < 64) :
    (s.badWrite a off).fget o f = s.fget o f := by
  have key {r : Nat} {g : Fld} (hr : r + 8 ≤ 0x402000) (hg : g.lo < 64) : regKey o f ≠ regKey r g :=
    regKey_ne_of_off (.inr (hr.trans ho)) hf hg
  unfold State.badWrite State.regError State.fadd
  rw [State.fget_answer, State.fget_fset_ne _ _ (key (by decide) (by decide)), State.fget_fset_ne _ _ (key (by decide) (by decide)),
    State.fget_fset_ne _ _ (key (by decide) (by decide)), State.fget_fset_ne _ _ (key (by decide) (by decide))]

theorem le_stk (k : Nat) : 0x40000000 ≤ B.stk k := by
  simp only [B.stk, B.die]
  omega

/-- The refresh lock of a stack is cleared. -/
def State.lockCleared (s : State) (k : Nat) : State :=
  { s.fset (R.STK_CTRL k) F.STK_CTRL_REF_LOCK 0 with refLocked := s.refLocked.erase k }

theorem regs_lockCleared (k : Nat) (s : State) : (s.lockCleared k).regs = (s.fset (R.STK_CTRL k) F.STK_CTRL_REF_LOCK 0).regs := rfl

/-- Clearing REF_LOCK takes effect at once. -/
theorem refLockEffect_of_clear {a : Agent} {k v : Nat} (hv : v % 2 = 0) : 
    refLockEffect a k v s = (s.lockCleared k).slotOver fun j => j == k := by
  have hb : bits v 0 1 = 0 := by simp [bits, hv]
  unfold refLockEffect
  rw [hb]
  rfl

theorem refLockEffect_of_set {a : Agent} {k v : Nat} (hv : v % 2 = 1)
    (h : s.pLog ≤ 16 ∨ s.fbit (R.STK_CTRL k) F.STK_CTRL_REF_LOCK = true) :
    refLockEffect a k v s = s.fset (R.STK_CTRL k) F.STK_CTRL_REF_LOCK 1 := by
  have hb : bits v 0 1 = 1 := by simp [bits, hv]
  have hn : ¬ (1 = 1 ∧ 16 < s.pLog ∧ ¬ s.fbit (R.STK_CTRL k) F.STK_CTRL_REF_LOCK) := by
    rintro ⟨-, hp, hr⟩
    rcases h with h | h
    · exact absurd hp (Nat.not_lt.2 h)
    · exact hr h
  unfold refLockEffect
  rw [hb, if_neg hn]
  rfl

theorem refLockEffect_of_refused {a : Agent} {k v : Nat} (hv : v % 2 = 1) (hp : 16 < s.pLog)
    (hr : s.fbit (R.STK_CTRL k) F.STK_CTRL_REF_LOCK = false) : refLockEffect a k v s = s.badWrite a (R.STK_CTRL k) := by
  have hb : bits v 0 1 = 1 := by simp [bits, hv]
  unfold refLockEffect
  rw [hb]
  exact if_pos ⟨rfl, hp, by simp [hr]⟩

theorem refLockWrite_spec (a : Agent) (k v : Nat) (hw : instrWf (.refLockWrite a k v) = true)
    (he : s.entry a .stk k (R.STK_CTRL k) true = .reach) :
    ∃ u : State, exec (.refLockWrite a k v) s = .next u
      ∧ (v % 2 = 0 → SlotFree s (fun j => j == k) → Served u 0 ∧ u.fget (R.STK_CTRL k) F.STK_CTRL_REF_LOCK = 0
          ∧ u = { s with regs := u.regs, rsp := u.rsp, refLocked := s.refLocked.erase k }
          ∧ SameRegs s u [regKey (R.STK_CTRL k) F.STK_CTRL_REF_LOCK])
      ∧ (v % 2 = 1 → s.pLog ≤ 16 → Served u 0 ∧ u.fget (R.STK_CTRL k) F.STK_CTRL_REF_LOCK = 1
          ∧ OnlyAnswer s u [regKey (R.STK_CTRL k) F.STK_CTRL_REF_LOCK])
      ∧ (v % 2 = 1 → 16 < s.pLog → s.fbit (R.STK_CTRL k) F.STK_CTRL_REF_LOCK = false →
          u.rsp.kind = .regError ∧ u.fget (R.STK_CTRL k) F.STK_CTRL_REF_LOCK = s.fget (R.STK_CTRL k) F.STK_CTRL_REF_LOCK) := by
  refine ⟨_, exec_refLockWrite hw he, fun hv hf => ?_, fun hv hp => ?_, fun hv hp hr => ?_⟩
  · have hf' : SlotFree ((s.answer .ok 0).lockCleared k) (fun j => j == k) := hf.of_waiting rfl
    rw [refLockEffect_of_clear hv, slotOver_of_free hf']
    refine ⟨rfl, ?_, rfl, fun x hx => ?_⟩
    · rw [State.fget, regs_lockCleared, ← State.fget, State.fget_fset_self]
      rfl
    · rw [regs_lockCleared, State.find?_fset_ne _ _ (by simpa using hx)]
      rfl
  · rw [refLockEffect_of_set (s := s.answer .ok 0) hv (.inl hp)]
    exact ⟨rfl, State.fget_fset_self _ _ _ _, ((OnlyAnswer.refl s _).answer _ _).fset _ (by simp)⟩
  · rw [refLockEffect_of_refused (s := s.answer .ok 0) hv hp hr]
    exact ⟨rfl, fget_badWrite_stk (by have := le_stk k; simp only [R.STK_CTRL]; omega) (by decide)⟩

/-- The registers of the suspension of a lock. -/
def State.lockSuspended (s : State) (k : Nat) : State := (s.fset (R.STK_STATUS k) F.STK_STATUS_LOCK_SUSPENDED 1).lifeAdd 33 1

theorem exec_refLockSuspend {k : Nat} (hw : instrWf (.refLockSuspend k) = true) (hb : s.atBoundary 8 = true)
    (ht : s.fbit (R.STK_STATUS k) F.STK_STATUS_THERM_2X = false) : exec (.refLockSuspend k) s =
      .next (if s.fbit (R.STK_CTRL k) F.STK_CTRL_REF_LOCK then
        ((s.fset (R.STK_STATUS k) F.STK_STATUS_THERM_2X 1).lockSuspended k).event (R.STK_STATUS k) (some F.STK_STATUS_LOCK_SUSPENDED) []
      else s.fset (R.STK_STATUS k) F.STK_STATUS_THERM_2X 1) := by
  refine (State.runIf_true s hw _).trans ?_
  simp only [hb, ht, Bool.not_true, Bool.or_false, Bool.false_eq_true, if_false]
  rfl

theorem regKey_stk_ne_life {k i : Nat} {f : Fld} (hi : i < 64) (hf : f.lo < 64) :
    regKey (R.STK_STATUS k) f ≠ regKey (R.LIF_CNT i) F.LIF_CNT_VALUE := by
  refine regKey_ne_of_off (.inr ?_) hf (by decide)
  have := le_stk k
  simp only [R.LIF_CNT, R.STK_STATUS]
  omega

theorem refLockSuspend_spec (k : Nat) (hw : instrWf (.refLockSuspend k) = true) (hb : s.atBoundary 8 = true)
    (ht : s.fbit (R.STK_STATUS k) F.STK_STATUS_THERM_2X = false) :
    ∃ u : State, exec (.refLockSuspend k) s =
        (if s.fbit (R.STK_CTRL k) F.STK_CTRL_REF_LOCK then
          .next (u.event (R.STK_STATUS k) (some F.STK_STATUS_LOCK_SUSPENDED) []) else .next u)
      ∧ u.fget (R.STK_STATUS k) F.STK_STATUS_THERM_2X = 1
      ∧ (s.fbit (R.STK_CTRL k) F.STK_CTRL_REF_LOCK = true → u.fget (R.STK_STATUS k) F.STK_STATUS_LOCK_SUSPENDED = 1)
      ∧ OnlyRegs s u ([regKey (R.STK_STATUS k) F.STK_STATUS_THERM_2X]
          ++ if s.fbit (R.STK_CTRL k) F.STK_CTRL_REF_LOCK then
              [regKey (R.STK_STATUS k) F.STK_STATUS_LOCK_SUSPENDED, regKey (R.LIF_CNT 33) F.LIF_CNT_VALUE] else []) := by
  have hx := exec_refLockSuspend hw hb ht
  by_cases hr : s.fbit (R.STK_CTRL k) F.STK_CTRL_REF_LOCK = true
  · have hl {f : Fld} (hf : f.lo < 64) := regKey_stk_ne_life (k := k) (i := 33) (f := f) (by decide) hf
    refine ⟨(s.fset (R.STK_STATUS k) F.STK_STATUS_THERM_2X 1).lockSuspended k, by rw [hx, if_pos hr, if_pos hr], ?_, fun _ => ?_, ?_⟩
    · rw [State.lockSuspended, State.lifeAdd, fget_fadd_ne (hl (by decide)), State.fget_fset_ne _ _ (regKey_ne_of_lo (by decide)),
        State.fget_fset_self]
      rfl
    · rw [State.lockSuspended, State.lifeAdd, fget_fadd_ne (hl (by decide)), State.fget_fset_self]
      rfl
    · exact (((OnlyRegs.refl s _).fset _ (by simp)).fset _ (by simp [hr])).fadd _ (by simp [hr])
  · exact ⟨s.fset (R.STK_STATUS k) F.STK_STATUS_THERM_2X 1, by rw [hx, if_neg hr, if_neg hr], State.fget_fset_self _ _ _ _,
      fun h => absurd h hr, (OnlyRegs.refl s _).fset _ (by simp)⟩

theorem refLockResume_spec (k : Nat) (hw : instrWf (.refLockResume k) = true) (hb : s.atBoundary 8 = true) :
    ∃ u : State, exec (.refLockResume k) s = .next u ∧ u.fget (R.STK_STATUS k) F.STK_STATUS_THERM_2X = 0
      ∧ u.fget (R.STK_STATUS k) F.STK_STATUS_LOCK_SUSPENDED = 0
      ∧ OnlyRegs s u [regKey (R.STK_STATUS k) F.STK_STATUS_THERM_2X, regKey (R.STK_STATUS k) F.STK_STATUS_LOCK_SUSPENDED] := by
  refine ⟨_, (State.runIf_true s hw _).trans (by rw [hb]; rfl), ?_, State.fget_fset_self _ _ _ _,
    ((OnlyRegs.refl s _).fset _ (by simp)).fset _ (by simp)⟩
  rw [State.fget_fset_ne _ _ (regKey_ne_of_lo (by decide)), State.fget_fset_self]
  rfl

/-! ### UCIe modules (R29) -/

/-- A module is removed, and counted. -/
def State.moduleOut (s : State) (l m : Nat) : State :=
  { s with ucieOut := Map.put 0 s.ucieOut l (s.ucieGone l + 2 ^ m) }.lifeAdd 28 1

/-- The die fabrics that a link serves are to be reset. -/
def State.linkLost (s : State) (l : Nat) : State :=
  if l < 2 then (s.logFault { cls := 7, dom := 4, unit := l, kind := 8, cause := 0x15 }).resetDue 4 l
  else ((s.logFault { cls := 7, dom := 4, unit := l, kind := 8, cause := 0x15 }).resetDue 4 0).resetDue 4 1

theorem exec_ucieModuleRemove {l m : Nat} (hw : instrWf (.ucieModuleRemove l m) = true) (hm : m < ucieCount l)
    (hg : bit (s.ucieGone l) m = false) : exec (.ucieModuleRemove l m) s =
      .next ((s.moduleOut l m).when ((s.moduleOut l m).ucieLost l) fun s => s.linkLost l) := by
  refine (State.runIf_true s hw _).trans ?_
  simp only [hg, Nat.not_le.2 hm, decide_false, Bool.or_self, Bool.false_eq_true, if_false]
  rfl

theorem ucieGone_moduleOut (l m : Nat) (s : State) : (s.moduleOut l m).ucieGone l = s.ucieGone l + 2 ^ m :=
  Map.get_put_self 0 s.ucieOut l _

theorem ucieLost_moduleOut (l m : Nat) (s : State) :
    (s.moduleOut l m).ucieLost l = decide (s.ucieGone l + 2 ^ m = 2 ^ ucieCount l - 1) := by
  rw [State.ucieLost, ucieGone_moduleOut, beq_eq_decide]

theorem life_moduleOut (l m : Nat) (s : State) : (s.moduleOut l m).fget (R.LIF_CNT 28) F.LIF_CNT_VALUE =
    min (s.fget (R.LIF_CNT 28) F.LIF_CNT_VALUE + 1) (2 ^ F.LIF_CNT_VALUE.w - 1) := fget_fadd_self _

/-- The package but for its registers and the resets that are due. -/
def State.noDue (s : State) : State := { s with regs := [], resetsDue := [] }

theorem noDue_dueAdded (c n : Nat) (s : State) : (s.resetDue c n).noDue = s.noDue := by
  unfold State.resetDue
  split <;> rfl

theorem regs_resetDue (c n : Nat) (s : State) : (s.resetDue c n).regs = s.regs := by
  unfold State.resetDue
  split <;> rfl

theorem noDue_of_noRegs (h : t.noRegs = s.noRegs) : t.noDue = s.noDue := by
  have hd := congrArg State.noDue h
  exact hd

theorem eq_of_noDue {o : Map Nat} {f : Fld} {off n : Nat}
    (h : t.noDue = (State.fadd { s with ucieOut := o } off f n).noDue) :
    t = { s with ucieOut := t.ucieOut, regs := t.regs, resetsDue := t.resetsDue } := by
  have ho : t.ucieOut = o := congrArg State.ucieOut h
  rw [← ho] at h
  exact congrArg (fun x : State => { x with regs := t.regs, resetsDue := t.resetsDue }) h

theorem noDue_linkLost (l : Nat) (s : State) : (s.linkLost l).noDue = s.noDue := by
  unfold State.linkLost
  split
  · rw [noDue_dueAdded, noDue_of_noRegs (noRegs_logFault _ s)]
  · rw [noDue_dueAdded, noDue_dueAdded, noDue_of_noRegs (noRegs_logFault _ s)]

theorem fget_linkLost {l off : Nat} {f : Fld} (ho : 0x402000 ≤ off) (hf : f.lo < 64) : (s.linkLost l).fget off f = s.fget off f := by
  unfold State.linkLost
  split
  · rw [State.fget, regs_resetDue, ← State.fget, fget_logFault ho hf]
  · rw [State.fget, regs_resetDue, regs_resetDue, ← State.fget, fget_logFault ho hf]

theorem due_linkLost (l : Nat) (s : State) : (l < 2 → (4, l) ∈ (s.linkLost l).resetsDue)
    ∧ (l = 2 → (4, 0) ∈ (s.linkLost l).resetsDue ∧ (4, 1) ∈ (s.linkLost l).resetsDue) := by
  unfold State.linkLost
  refine ⟨fun h => ?_, fun h => ?_⟩
  · rw [if_pos h]
    exact mem_resetDue _ _ _
  · rw [if_neg (by omega)]
    exact ⟨mem_resetDue_of_mem _ _ (mem_resetDue _ _ _), mem_resetDue _ _ _⟩

theorem ucieModuleRemove_spec (l m : Nat) (hw : instrWf (.ucieModuleRemove l m) = true) (hm : m < ucieCount l)
    (hg : bit (s.ucieGone l) m = false) :
    ∃ u : State, exec (.ucieModuleRemove l m) s = .next u ∧ u.ucieGone l = s.ucieGone l + 2 ^ m
      ∧ u.fget (R.LIF_CNT 28) F.LIF_CNT_VALUE = min (s.fget (R.LIF_CNT 28) F.LIF_CNT_VALUE + 1) (2 ^ F.LIF_CNT_VALUE.w - 1)
      ∧ (s.ucieGone l + 2 ^ m ≠ 2 ^ ucieCount l - 1 →
          u = { s with ucieOut := u.ucieOut, regs := u.regs } ∧ SameRegs s u [regKey (R.LIF_CNT 28) F.LIF_CNT_VALUE])
      ∧ (s.ucieGone l + 2 ^ m = 2 ^ ucieCount l - 1 →
          (l < 2 → (4, l) ∈ u.resetsDue) ∧ (l = 2 → (4, 0) ∈ u.resetsDue ∧ (4, 1) ∈ u.resetsDue)
            ∧ u = { s with ucieOut := u.ucieOut, regs := u.regs, resetsDue := u.resetsDue }) := by
  refine ⟨_, exec_ucieModuleRemove hw hm hg, ?_⟩
  rw [ucieLost_moduleOut]
  by_cases hl : s.ucieGone l + 2 ^ m = 2 ^ ucieCount l - 1
  · rw [decide_eq_true hl]
    obtain ⟨hdie, hboth⟩ := due_linkLost l (s.moduleOut l m)
    have hf := noDue_linkLost l (s.moduleOut l m)
    refine ⟨?_, ?_, fun hn => absurd hl hn, fun _ => ⟨hdie, hboth, ?_⟩⟩
    · exact (congrArg (State.ucieGone · l) hf).trans (ucieGone_moduleOut l m s)
    · exact (fget_linkLost (by decide) (by decide)).trans (life_moduleOut l m s)
    · exact eq_of_noDue hf
  · rw [decide_eq_false hl]
    exact ⟨ucieGone_moduleOut l m s, life_moduleOut l m s,
      fun _ => ⟨rfl, fun k hk => State.find?_fset_ne _ _ (by simpa using hk)⟩, fun h => absurd h hl⟩

theorem ucieHashRespread_spec (l : Nat) (hw : instrWf (.ucieHashRespread l) = true) (hb : s.atBoundary 8 = true) :
    ∃ u : State, exec (.ucieHashRespread l) s = .next u ∧ Map.get 0 u.ucieHash l = s.ucieGone l
      ∧ u = { s with ucieHash := u.ucieHash } ∧ ∀ j, j ≠ l → Map.get 0 u.ucieHash j = Map.get 0 s.ucieHash j :=
  ⟨_, (State.runIf_true s hw _).trans (congrArg Host.Outcome.next (if_pos hb)), Map.get_put_self 0 s.ucieHash l _, rfl,
    fun _ hj => Map.get_put_ne 0 0 s.ucieHash _ hj⟩

/-- Settles O31: each command as its lemma says. -/
theorem refreshAndUcie : Obligations.RefreshAndUcie := by
  refine ⟨fun s ch d hw h => refresh_spec ch d hw h, fun s ch d => exec_refresh_of_locked, fun s h hf => ?_, fun s h => ?_,
    fun s a k v hw he => refLockWrite_spec a k v hw he, fun s k hw hb ht => refLockSuspend_spec k hw hb ht,
    fun s k hw hb => refLockResume_spec k hw hb, fun s l m hw hm hg => ucieModuleRemove_spec l m hw hm hg,
    fun s l hw hb => ucieHashRespread_spec l hw hb⟩
  · obtain ⟨hslot, htb, hcyc⟩ := slotPassed_clk s
    exact ⟨_, refreshSlotEnd_of_free h hf, hslot, htb, hcyc, rfl⟩
  · exact congrArg Host.Outcome.next (if_neg (by simp [h]))

end Sys2Proof.Machine
end

section
/-!
Lines at their channel (O30): what an access does to the check lines of a capacity controller, and so to the difference of a stored word.
-/

set_option Elab.async false

namespace Sys2Proof.Machine

variable {s t : State}

/-! ### Lines and units -/

theorem stackLine0_eq : stackLine0 = 64 * 2 ^ 30 := by decide
theorem capLine0_eq : capLine0 = 128 * 2 ^ 30 := by decide

theorem lineOf_unitOf {line : Nat} (h : homeLine line = true) : lineOf (unitOf line).1 (unitOf line).2 = line := by
  have hs := stackLine0_eq
  have hc := capLine0_eq
  simp only [homeLine, Bool.or_eq_true, Bool.and_eq_true, decide_eq_true_eq] at h
  unfold unitOf lineOf
  split
  · rename_i hlt
    rw [if_pos (by dsimp only; omega)]
    dsimp only
    omega
  · rename_i hlt
    rw [if_neg (by dsimp only; omega)]
    dsimp only
    omega

theorem unitOf_lineOf {unit n : Nat} (hu : unit < 48) (hn : n < unitLines unit) : unitOf (lineOf unit n) = (unit, n) := by
  have hs := stackLine0_eq
  have hc := capLine0_eq
  unfold unitLines at hn
  unfold lineOf
  split
  · rename_i h
    rw [if_pos h] at hn
    unfold unitOf
    rw [if_pos (by omega)]
    exact Prod.ext (by dsimp only; omega) (by dsimp only; omega)
  · rename_i h
    rw [if_neg h] at hn
    unfold unitOf
    rw [if_neg (by omega)]
    exact Prod.ext (by dsimp only; omega) (by dsimp only; omega)

theorem lineOf_inj {unit n m : Nat} (h : lineOf unit n = lineOf unit m) : n = m := by
  unfold lineOf at h
  split at h <;> omega

/-! ### What an access of a line touches -/

/-- The package without its rows, check lines and stored differences. -/
def State.offChk (s : State) : State := { s with chkCache := [], soft := [], chans := [] }

theorem offChk_setChan (k : Nat) (c : Chan) (s : State) : (s.setChan k c).offChk = s.offChk := rfl
theorem offChk_chkCache (m : Map (List ChkLine)) (s : State) : { s with chkCache := m }.offChk = s.offChk := rfl
theorem offChk_soft (m : Map Nat) (s : State) : { s with soft := m }.offChk = s.offChk := rfl

theorem offChk_chkWrite (b : Nat) (c : ChkLine) (s : State) : (s.chkWrite b c).offChk = s.offChk := by
  unfold State.chkWrite
  split
  · exact offChk_soft _ s
  · rfl

theorem offChk_chkTouch (u n : Nat) (s : State) : (s.chkTouch u n).offChk = s.offChk := by
  unfold State.chkTouch
  dsimp only
  split
  · exact offChk_setChan _ _ s
  · split
    · exact offChk_chkCache _ s
    · exact (foldl_keeps (v := State.offChk) (fun s c => offChk_chkWrite _ c s) _ _).trans (offChk_chkCache _ s)

theorem offChk_chkWrote (u n : Nat) (s : State) : (s.chkWrote u n).offChk = s.offChk := by
  unfold State.chkWrote
  dsimp only
  split
  · exact offChk_chkTouch u n s
  · exact (offChk_chkCache _ _).trans (offChk_chkTouch u n s)

theorem mem_of_offChk (h : t.offChk = s.offChk) : t.mem = s.mem := (congrArg State.mem h : t.offChk.mem = s.offChk.mem)
theorem regs_of_offChk (h : t.offChk = s.offChk) : t.regs = s.regs := (congrArg State.regs h : t.offChk.regs = s.offChk.regs)
theorem poison_of_offChk (h : t.offChk = s.offChk) : t.poison = s.poison := (congrArg State.poison h : t.offChk.poison = s.offChk.poison)
theorem hard_of_offChk (h : t.offChk = s.offChk) : t.hard = s.hard := (congrArg State.hard h : t.offChk.hard = s.offChk.hard)
theorem bw_of_offChk (h : t.offChk = s.offChk) : t.bw = s.bw := (congrArg State.bw h : t.offChk.bw = s.offChk.bw)

theorem cells_of_offChk (h : t.offChk = s.offChk) (line : Nat) : t.cells line = s.cells line := by
  have hc := congrArg (State.cells · line) h
  exact hc

/-! ### Stored differences -/

theorem foldl_keeps_mem {σ α β : Type} {v : σ → β} {f : σ → α → σ} (l : List α) (hf : ∀ x ∈ l, ∀ s, v (f s x) = v s)
    (s : σ) :
    v (l.foldl f s) = v s := by
  induction l generalizing s with
  | nil => rfl
  | cons x l ih => exact (ih (fun y hy => hf y (List.mem_cons_of_mem _ hy)) _).trans (hf x (List.mem_cons_self ..) s)

theorem chkCache_chkWrite (b : Nat) (c : ChkLine) (s : State) : (s.chkWrite b c).chkCache = s.chkCache := by
  unfold State.chkWrite
  split <;> rfl

theorem forRange_keeps_lt {σ β : Type} {v : σ → β} {f : Nat → σ → σ} (n : Nat) (hf : ∀ k, k < n → ∀ s, v (f k s) = v s)
    (s : σ) :
    v (forRange n f s) = v s := foldl_keeps_mem _ (fun k hk s => hf k (List.mem_range.1 hk) s) s

/-- The check bytes of a line of a check line are written to memory. -/
def checkOut (b : Nat) (c : ChkLine) (j : Nat) (m : Map Nat) : Map Nat :=
  Map.put 0 m (lineOf (16 + b) (8 * c.group + j)) (Map.get 0 m (lineOf (16 + b) (8 * c.group + j)) % 2 ^ 512 + 2 ^ 512 * c.bad.getD j 0)

theorem get_checkOut_ne {b j line : Nat} {c : ChkLine} (h : line ≠ lineOf (16 + b) (8 * c.group + j)) (m : Map Nat) :
    Map.get 0 (checkOut b c j m) line = Map.get 0 m line := Map.get_put_ne _ _ _ _ h

theorem chkWrite_of_dirty {b : Nat} {c : ChkLine} (h : c.dirty = true) (s : State) :
    s.chkWrite b c = { s with soft := forRange 8 (checkOut b c) s.soft } := by
  unfold State.chkWrite checkOut
  exact if_pos h

/-- A check line that is written back changes no line of another group. -/
theorem soft_chkWrite {b n line : Nat} {c : ChkLine} (hl : lineOf (16 + b) n = line) (hc : c.group ≠ n / 8) (s : State) :
    Map.get 0 (s.chkWrite b c).soft line = Map.get 0 s.soft line := by
  by_cases hd : c.dirty = true
  · rw [chkWrite_of_dirty hd]
    have hne (j : Nat) (hj : j < 8) : line ≠ lineOf (16 + b) (8 * c.group + j) := fun e => by
      have hn := lineOf_inj (hl.trans e)
      omega
    have hstep (j : Nat) (hj : j < 8) (m : Map Nat) : Map.get 0 (checkOut b c j m) line = Map.get 0 m line :=
      get_checkOut_ne (hne j hj) m
    have h : Map.get 0 (forRange 8 (checkOut b c) s.soft) line = Map.get 0 s.soft line := by
      refine forRange_keeps_lt (v := (Map.get 0 · line)) (f := checkOut b c) 8 ?_ s.soft
      exact hstep
    rw [h]
  · unfold State.chkWrite
    rw [if_neg hd]

/-- The entry that an access finds in the cache of check lines, or brings there. -/
def State.chkEntry (s : State) (u n : Nat) : ChkLine :=
  ((Map.get [] s.chkCache (u - 16)).find? fun c => c.group == n / 8).getD (s.chkRead (u - 16) (n / 8))

theorem soft_chkTouch {u n line : Nat} (hl : lineOf u n = line) (s : State) :
    Map.get 0 (s.chkTouch u n).soft line = Map.get 0 s.soft line := by
  unfold State.chkTouch
  dsimp only
  split
  · rfl
  · rename_i hu
    split
    · rfl
    · rename_i hnone
      refine foldl_keeps_mem (v := fun s : State => Map.get 0 s.soft line) _ (fun c hc s => soft_chkWrite (n := n) ?_ ?_ s) _
      · rw [Nat.add_sub_cancel' (Nat.not_lt.1 hu)]
        exact hl
      · simpa using List.find?_eq_none.1 hnone c (List.mem_of_mem_drop hc)

/-- After an access the check line is the first of its controller's cache. -/
theorem chkCache_chkTouch {u n : Nat} (hu : ¬ u < 16) (s : State) :
    ∃ l, Map.get [] (s.chkTouch u n).chkCache (u - 16) = s.chkEntry u n :: l := by
  unfold State.chkTouch State.chkEntry
  dsimp only
  rw [if_neg hu]
  split
  · rename_i c hc
    rw [hc]
    exact ⟨_, Map.get_insert_self _ _ _ _⟩
  · rename_i hnone
    rw [hnone]
    refine ⟨(Map.get [] s.chkCache (u - 16)).take (chkSize - 1), ?_⟩
    rw [foldl_keeps (v := State.chkCache) (fun s c => chkCache_chkWrite _ c s)]
    exact Map.get_insert_self _ _ _ _

theorem group_chkEntry (u n : Nat) (s : State) : (s.chkEntry u n).group = n / 8 := by
  unfold State.chkEntry
  rcases h : (Map.get [] s.chkCache (u - 16)).find? fun c => c.group == n / 8 with _ | c
  · rw [h]
    rfl
  · rw [h]
    simpa using List.find?_some h

theorem chkLine_of_stack {line : Nat} (h : (unitOf line).1 < 16) (s : State) : s.chkLine line = none := if_pos h

theorem chkLine_of_cap {line : Nat} (h : ¬ (unitOf line).1 < 16) (s : State) :
    s.chkLine line = (Map.get [] s.chkCache ((unitOf line).1 - 16)).find? fun c => c.group == (unitOf line).2 / 8 := if_neg h

theorem lineErr_of_none {line : Nat} (h : s.chkLine line = none) : s.lineErr line = Map.get 0 s.soft line ^^^ s.cells line := by
  unfold State.lineErr
  rw [h]

theorem lineErr_of_some {line : Nat} {c : ChkLine} (h : s.chkLine line = some c) : s.lineErr line =
    (Map.get 0 s.soft line ^^^ s.cells line) % 2 ^ 512 + 2 ^ 512 * c.bad.getD ((unitOf line).2 % 8) 0 := by
  unfold State.lineErr
  rw [h]

/-- The differences that a check line is read with are those of its lines. -/
theorem bad_chkRead {u n line : Nat} (hu : ¬ u < 16) (hl : lineOf u n = line) (s : State) :
    (s.chkRead (u - 16) (n / 8)).bad.getD (n % 8) 0 = (Map.get 0 s.soft line ^^^ s.cells line) / 2 ^ 512 := by
  have hn : 16 + (u - 16) = u := Nat.add_sub_cancel' (Nat.not_lt.1 hu)
  simp only [State.chkRead, List.getD_eq_getElem?_getD, List.getElem?_map,
    List.getElem?_range (Nat.mod_lt n (by decide : 0 < 8)), Option.map_some, Option.getD_some, hn, Nat.div_add_mod, hl]

/-- An access leaves the difference of the line's stored word. -/
theorem lineErr_chkTouch {line : Nat} (hl : lineOf (unitOf line).1 (unitOf line).2 = line) (s : State) :
    (s.chkTouch (unitOf line).1 (unitOf line).2).lineErr line = s.lineErr line := by
  have hsoft := soft_chkTouch hl s
  have hcells := cells_of_offChk (offChk_chkTouch (unitOf line).1 (unitOf line).2 s) line
  by_cases hu : (unitOf line).1 < 16
  · rw [lineErr_of_none (chkLine_of_stack hu _), lineErr_of_none (chkLine_of_stack hu s), hsoft, hcells]
  · obtain ⟨l, hcache⟩ := chkCache_chkTouch (n := (unitOf line).2) hu s
    have hline : (s.chkTouch (unitOf line).1 (unitOf line).2).chkLine line = some (s.chkEntry (unitOf line).1 (unitOf line).2) := by
      rw [chkLine_of_cap hu, hcache]
      exact List.find?_cons_of_pos (by simp [group_chkEntry])
    rw [lineErr_of_some hline, hsoft, hcells]
    rcases h : s.chkLine line with _ | c
    · have he : s.chkEntry (unitOf line).1 (unitOf line).2 = s.chkRead ((unitOf line).1 - 16) ((unitOf line).2 / 8) := by
        rw [chkLine_of_cap hu] at h
        rw [State.chkEntry, h]
        rfl
      rw [he, bad_chkRead hu hl, lineErr_of_none h, Nat.mod_add_div]
    · have he : s.chkEntry (unitOf line).1 (unitOf line).2 = c := by
        rw [chkLine_of_cap hu] at h
        rw [State.chkEntry, h]
        rfl
      rw [he, lineErr_of_some h]

/-- Where no check line has to leave, an access changes no stored word. -/
theorem soft_chkTouch_of_room {line : Nat} (h : ChkRoom s line) : (s.chkTouch (unitOf line).1 (unitOf line).2).soft = s.soft := by
  unfold State.chkTouch
  dsimp only
  by_cases hu : (unitOf line).1 < 16
  · rw [if_pos hu]
    rfl
  · rw [if_neg hu]
    split
    · rfl
    · rename_i hnone
      rcases h with h | h | h
      · exact absurd h hu
      · rw [chkLine_of_cap hu, hnone] at h
        cases h
      · rw [List.drop_of_length_le (Nat.le_sub_one_of_lt h)]
        rfl

theorem getD_setAt_zero (l : List Nat) (k : Nat) : (setAt l k 0).getD k 0 = 0 := by
  induction l generalizing k with
  | nil => cases k <;> rfl
  | cons x l ih =>
    cases k with
    | zero => rfl
    | succ k => exact ih k

theorem soft_chkWrote (u n : Nat) (s : State) : (s.chkWrote u n).soft = (s.chkTouch u n).soft := by
  unfold State.chkWrote
  dsimp only
  split <;> rfl

/-- A line that has been written, and whose cells are good, stores the codeword of its data. -/
theorem lineErr_chkWrote {line : Nat} (hl : lineOf (unitOf line).1 (unitOf line).2 = line)
    (h : Map.get 0 s.soft line ^^^ s.cells line = 0) : (s.chkWrote (unitOf line).1 (unitOf line).2).lineErr line = 0 := by
  have hd : Map.get 0 (s.chkWrote (unitOf line).1 (unitOf line).2).soft line ^^^
      (s.chkWrote (unitOf line).1 (unitOf line).2).cells line = 0 := by
    rw [soft_chkWrote, soft_chkTouch hl, cells_of_offChk (offChk_chkWrote _ _ s), h]
  rcases hc : (s.chkWrote (unitOf line).1 (unitOf line).2).chkLine line with _ | c
  · rw [lineErr_of_none hc, hd]
  · have hu : ¬ (unitOf line).1 < 16 := fun hu => by
      rw [chkLine_of_stack hu] at hc
      cases hc
    rw [lineErr_of_some hc, hd]
    rw [chkLine_of_cap hu] at hc
    unfold State.chkWrote at hc
    dsimp only at hc
    rw [if_neg hu, Map.get_insert_self, List.find?_map] at hc
    obtain ⟨e, he, rfl⟩ := Option.map_eq_some_iff.1 hc
    by_cases hg : e.group = (unitOf line).2 / 8
    · rw [if_pos hg, getD_setAt_zero, Nat.zero_mod, Nat.mul_zero]
    · have hp := List.find?_some he
      simp [hg] at hp

/-! ### A line that is read -/

/-- A line is accessed for a read: its bytes are counted. -/
def State.touched (s : State) (line : Nat) : State := (s.bwAdd (bwSetOf line) 0 64).chkTouch (unitOf line).1 (unitOf line).2

theorem chanRead_eq (ev : ErrEv) (line : Nat) (s : State) : State.chanRead ev s line = State.decodeLine ev (s.touched line) line := rfl

theorem offChk_touched (line : Nat) (s : State) : (s.touched line).offChk = (s.bwAdd (bwSetOf line) 0 64).offChk := offChk_chkTouch _ _ _

theorem mem_touched (line : Nat) (s : State) : (s.touched line).mem = s.mem :=
  (mem_of_offChk (offChk_touched line s)).trans rfl
theorem regs_touched (line : Nat) (s : State) : (s.touched line).regs = s.regs :=
  (regs_of_offChk (offChk_touched line s)).trans rfl
theorem poison_touched (line : Nat) (s : State) : (s.touched line).poison = s.poison :=
  (poison_of_offChk (offChk_touched line s)).trans rfl
theorem hard_touched (line : Nat) (s : State) : (s.touched line).hard = s.hard :=
  (hard_of_offChk (offChk_touched line s)).trans rfl

theorem cells_touched (line l : Nat) (s : State) : (s.touched line).cells l = s.cells l :=
  (cells_of_offChk (offChk_touched line s) l).trans rfl

theorem lineErr_touched {line : Nat} (hl : lineOf (unitOf line).1 (unitOf line).2 = line) (s : State) :
    (s.touched line).lineErr line = s.lineErr line := lineErr_chkTouch hl (s.bwAdd (bwSetOf line) 0 64)

theorem lineDiff_touched {line : Nat} (hl : lineOf (unitOf line).1 (unitOf line).2 = line) (s : State) :
    (s.touched line).lineDiff line = s.lineDiff line := by
  rw [State.lineDiff, lineErr_touched hl, poison_touched, State.lineDiff]

theorem soft_touched {line : Nat} (hl : lineOf (unitOf line).1 (unitOf line).2 = line) (s : State) :
    Map.get 0 (s.touched line).soft line = Map.get 0 s.soft line := soft_chkTouch hl (s.bwAdd (bwSetOf line) 0 64)

theorem soft_touched_of_room {line : Nat} (h : ChkRoom s line) : (s.touched line).soft = s.soft :=
  soft_chkTouch_of_room (s := s.bwAdd (bwSetOf line) 0 64) h

/-- The bytes of a read are counted. -/
theorem bw_touched (line : Nat) (s : State) : (Map.get { last := s.bwEnd } (s.touched line).bw (bwSetOf line)).a =
    ((Map.get { last := s.bwEnd } s.bw (bwSetOf line)).a + 64) % 2 ^ 64 := by
  have h : (s.touched line).bw = (s.bwAdd (bwSetOf line) 0 64).bw := bw_of_offChk (offChk_touched line s)
  rw [h]
  exact congrArg BwSet.a (Map.get_insert_self _ s.bw (bwSetOf line) _)

section Decode
variable {ev : ErrEv} {line : Nat}

theorem decodeLine_of_good (h : s.lineErr line = 0) (hp : Map.get false s.poison line = false) : State.decodeLine ev s line = s := by
  unfold State.decodeLine
  simp only [h, hp, if_true, Bool.false_eq_true, if_false]

theorem decodeLine_of_poisoned (h : s.lineErr line = 0) (hp : Map.get false s.poison line = true) :
    State.decodeLine ev s line = State.errAt ev s (unitOf line).1 line 3 := by
  unfold State.decodeLine
  simp only [h, hp, if_true]

theorem decodeLine_of_corrected {f : Nat} (h : s.lineErr line ≠ 0) (hd : rsDecode (s.lineDiff line) = .corrected f) :
    State.decodeLine ev s line = State.correct ev (s.countCe (unitOf line).1 line) (unitOf line).1 line f := by
  unfold State.decodeLine
  simp only [h, if_false, hd]

theorem decodeLine_of_bad (h : s.lineErr line ≠ 0) (hd : rsDecode (s.lineDiff line) = .bad) :
    State.decodeLine ev s line = State.countUe ev s (unitOf line).1 line := by
  unfold State.decodeLine
  simp only [h, if_false, hd]

theorem homeWord_of_good (h : s.lineErr line = 0) (hp : Map.get false s.poison line = false) :
    s.homeWord line = some (s.mem.rdN (line * 64) 64) := by
  unfold State.homeWord
  simp only [h, hp, if_true, Bool.false_eq_true, if_false]

theorem homeWord_of_poisoned (h : s.lineErr line = 0) (hp : Map.get false s.poison line = true) : s.homeWord line = none := by
  unfold State.homeWord
  simp only [h, hp, if_true]

theorem homeWord_of_corrected {f : Nat} (h : s.lineErr line ≠ 0) (hd : rsDecode (s.lineDiff line) = .corrected f) :
    s.homeWord line = some (s.mem.rdN (line * 64) 64 ^^^ (s.lineDiff line ^^^ f) % 2 ^ 512) := by
  unfold State.homeWord
  simp only [h, if_false, hd]

theorem homeWord_of_bad (h : s.lineErr line ≠ 0) (hd : rsDecode (s.lineDiff line) = .bad) : s.homeWord line = none := by
  unfold State.homeWord
  simp only [h, if_false, hd]

end Decode

/-! ### The registers of a unit's errors -/

theorem le_unit (u : Nat) : 0x10000000 ≤ B.unit u := by
  unfold B.unit
  split
  · have := le_stk u
    omega
  · simp only [B.cap]
    omega

/-- What a served request answers, beyond the line itself. -/
theorem chanServe_read (line cls : Nat) (s : State) : s.chanServe { line := line, cls := cls } =
    (State.chanRead unitEvent s line).when (cls != 3) fun w =>
      w.answer (if (s.homeWord line).isSome then .ok else .accessFault) ((s.homeWord line).getD 0) := by
  unfold State.chanServe State.when
  dsimp only
  by_cases hc : cls = 3 <;> simp [hc]

theorem chanServe_write (line cls data : Nat) (s : State) : s.chanServe { line := line, write := some data, cls := cls } =
    ({ s.putLine line data with poison := Map.put false s.poison line false }.chanWrote line) := rfl

theorem chanTake_of_free {r : ChanReq}
    (h : 16 ≤ (unitOf r.line).1 ∨ (s.slotWait (unitOf r.line).1 = false ∧ (s.chan (chanOf r.line)).queue = [])) :
    s.chanTake r = s.chanServe r := by
  unfold State.chanTake
  exact if_pos (by simpa using h)

theorem exec_channelRead {line cls : Nat} (hw : instrWf (.channelRead ⟨line, cls⟩) = true) (h : ServedAtOnce s line) :
    exec (.channelRead ⟨line, cls⟩) s = .next (s.chanServe { line := line, cls := cls }) := by
  obtain ⟨hl, hf⟩ := h
  refine (State.runIf_true s hw _).trans ?_
  rw [if_pos hl, chanTake_of_free hf]

theorem exec_channelWrite {line cls data : Nat} (hw : instrWf (.channelWrite ⟨line, cls⟩ data) = true) (h : ServedAtOnce s line) :
    exec (.channelWrite ⟨line, cls⟩ data) s = .next (s.chanServe { line := line, write := some data, cls := cls }) := by
  obtain ⟨hl, hf⟩ := h
  refine (State.runIf_true s hw _).trans ?_
  rw [if_pos hl, chanTake_of_free hf]

end Sys2Proof.Machine
end

section
/-!
Channel writes, reads and scrub reads of memory lines (O30).
-/

set_option Elab.async false

namespace Sys2Proof.Machine

variable {s t : State}

/-! ### What a read answers -/

theorem rsp_when_answer (b : Bool) (k : RspKind) (d : Nat) (t : State) :
    (t.when b fun w => w.answer k d).rsp = if b then { kind := k, data := d } else t.rsp := by
  cases b <;> rfl

/-- What a served read answers its reader, a scrub read apart. -/
theorem answers (cls : Nat) (k : RspKind) (d : Nat) (t : State) (hr : t.rsp = s.rsp) :
    (cls ≠ 3 → (t.when (cls != 3) fun w => w.answer k d).rsp = { kind := k, data := d })
      ∧ (cls = 3 → (t.when (cls != 3) fun w => w.answer k d).rsp = s.rsp) := by
  rw [rsp_when_answer]
  exact ⟨fun h => by simp [h], fun h => by simp [h, hr]⟩

/-- The package but for what reading a line touches. -/
def State.offRead (s : State) : State := { s with bw := [], chkCache := [], soft := [], chans := [], rsp := {} }

theorem offRead_answer (k : RspKind) (d : Nat) (s : State) : (s.answer k d).offRead = s.offRead := rfl
theorem offRead_bwAdd (b d n : Nat) (s : State) : (s.bwAdd b d n).offRead = s.offRead := rfl

theorem offRead_of_offChk (h : t.offChk = s.offChk) : t.offRead = s.offRead :=
  (congrArg State.offRead h : t.offChk.offRead = s.offChk.offRead)

theorem offRead_touched (line : Nat) (s : State) : (s.touched line).offRead = s.offRead :=
  (offRead_of_offChk (offChk_touched line s)).trans (offRead_bwAdd _ _ _ s)

theorem offRead_when_answer (b : Bool) (k : RspKind) (d : Nat) (t : State) : (t.when b fun w => w.answer k d).offRead = t.offRead :=
  when_keeps (v := State.offRead) (offRead_answer k d) t

theorem eq_of_offRead (h : t.offRead = s.offRead) :
    t = { s with bw := t.bw, chkCache := t.chkCache, soft := t.soft, chans := t.chans, rsp := t.rsp } :=
  congrArg (fun x : State => { x with bw := t.bw, chkCache := t.chkCache, soft := t.soft, chans := t.chans, rsp := t.rsp }) h

/-- The package but for what reading a line, and its error record, touch. -/
def State.offRecord (s : State) : State := { s.offRead with regs := [] }

theorem offRecord_of_offRead (h : t.offRead = s.offRead) : t.offRecord = s.offRecord := by
  unfold State.offRecord
  rw [h]

theorem offRecord_fset (off : Nat) (f : Fld) (v : Nat) (s : State) : (s.fset off f v).offRecord = s.offRecord := rfl

theorem eq_of_offRecord (h : t.offRecord = s.offRecord) : t = { s with
    regs := t.regs, bw := t.bw, chkCache := t.chkCache, soft := t.soft, chans := t.chans, rsp := t.rsp } :=
  congrArg (fun x : State => { x with
    regs := t.regs, bw := t.bw, chkCache := t.chkCache, soft := t.soft, chans := t.chans, rsp := t.rsp }) h

/-- What an answer leaves. -/
theorem when_answer_keeps {β : Type} {v : State → β} (hv : ∀ (k : RspKind) (d : Nat) (s : State), v (s.answer k d) = v s) (b : Bool)
    (k : RspKind) (d : Nat) (t : State) : v (t.when b fun w => w.answer k d) = v t := when_keeps (hv k d) t

section Read
variable {line cls : Nat}

/-! ### A good line -/

theorem read_good (hw : instrWf (.channelRead ⟨line, cls⟩) = true) (h : ServedAtOnce s line) (he : s.lineErr line = 0)
    (hp : Map.get false s.poison line = false) :
    ∃ u : State, exec (.channelRead ⟨line, cls⟩) s = .next u
      ∧ (cls ≠ 3 → Served u (s.mem.rdN (64 * line) 64)) ∧ (cls = 3 → u.rsp = s.rsp)
      ∧ u = { s with bw := u.bw, chkCache := u.chkCache, soft := u.soft, chans := u.chans, rsp := u.rsp }
      ∧ (ChkRoom s line → u.soft = s.soft)
      ∧ (Map.get { last := s.bwEnd } u.bw (bwSetOf line)).a = ((Map.get { last := s.bwEnd } s.bw (bwSetOf line)).a + 64) % 2 ^ 64 := by
  have hl := lineOf_unitOf h.1
  refine ⟨(s.touched line).when (cls != 3) fun w => w.answer .ok (s.mem.rdN (64 * line) 64), ?_, ?_⟩
  · rw [exec_channelRead hw h, chanServe_read, chanRead_eq, decodeLine_of_good ((lineErr_touched hl s).trans he) (by rw [poison_touched, hp]),
      homeWord_of_good he hp, Nat.mul_comm 64]
    rfl
  · have hr : (s.touched line).rsp = s.rsp := (congrArg State.rsp (offChk_touched line s) : (s.touched line).offChk.rsp = _)
    obtain ⟨hans, hscrub⟩ := answers cls .ok (s.mem.rdN (64 * line) 64) (s.touched line) hr
    refine ⟨hans, hscrub, eq_of_offRead ((offRead_when_answer _ _ _ _).trans (offRead_touched line s)), fun hroom => ?_, ?_⟩
    · rw [when_answer_keeps (v := State.soft) fun _ _ _ => rfl, soft_touched_of_room hroom]
    · rw [when_answer_keeps (v := State.bw) fun _ _ _ => rfl, bw_touched]

/-! ### A poisoned line -/

/-- The error record of a unit names a line, with its kind. -/
def State.recorded (s : State) (line kind : Nat) : State :=
  (s.fset (errAddrReg (unitOf line).1) F.STK_ERR_ADDR_KIND kind).fset (errAddrReg (unitOf line).1) F.STK_ERR_ADDR_ADDR line

theorem kind_recorded (line kind : Nat) (s : State) :
    (s.recorded line kind).fget (errAddrReg (unitOf line).1) F.STK_ERR_ADDR_KIND = kind % 4 := by
  rw [State.recorded, State.fget_fset_ne _ _ (regKey_ne_of_lo (by decide)), State.fget_fset_self]
  rfl

theorem addr_recorded (line kind : Nat) (s : State) :
    (s.recorded line kind).fget (errAddrReg (unitOf line).1) F.STK_ERR_ADDR_ADDR = line % 2 ^ F.STK_ERR_ADDR_ADDR.w :=
  State.fget_fset_self _ _ _ _

theorem offRecord_recorded (line kind : Nat) (s : State) : (s.recorded line kind).offRecord = s.offRecord := by
  rw [State.recorded, offRecord_fset, offRecord_fset]

theorem read_poisoned (hw : instrWf (.channelRead ⟨line, cls⟩) = true) (h : ServedAtOnce s line) (he : s.lineErr line = 0)
    (hp : Map.get false s.poison line = true) :
    ∃ u : State, exec (.channelRead ⟨line, cls⟩) s = .next u
      ∧ (cls ≠ 3 → u.rsp = { kind := .accessFault, data := 0 }) ∧ (cls = 3 → u.rsp = s.rsp)
      ∧ u.fget (errAddrReg (unitOf line).1) F.STK_ERR_ADDR_KIND = 3
      ∧ u.fget (errAddrReg (unitOf line).1) F.STK_ERR_ADDR_ADDR = line % 2 ^ F.STK_ERR_ADDR_ADDR.w
      ∧ u = { s with regs := u.regs, bw := u.bw, chkCache := u.chkCache, soft := u.soft, chans := u.chans, rsp := u.rsp } := by
  have hl := lineOf_unitOf h.1
  refine ⟨((s.touched line).recorded line 3).when (cls != 3) fun w => w.answer .accessFault 0, ?_, ?_⟩
  · rw [exec_channelRead hw h, chanServe_read, chanRead_eq,
      decodeLine_of_poisoned ((lineErr_touched hl s).trans he) (by rw [poison_touched, hp]), homeWord_of_poisoned he hp]
    rfl
  · have hr : ((s.touched line).recorded line 3).rsp = s.rsp :=
      (congrArg State.rsp (offChk_touched line s) : (s.touched line).offChk.rsp = _)
    obtain ⟨hans, hscrub⟩ := answers cls .accessFault 0 ((s.touched line).recorded line 3) hr
    have hg (o : Nat) (f : Fld) : (((s.touched line).recorded line 3).when (cls != 3) fun w => w.answer .accessFault 0).fget o f =
        ((s.touched line).recorded line 3).fget o f := when_answer_keeps (v := fun s => State.fget s o f) (fun _ _ _ => rfl) _ _ _ _
    refine ⟨hans, hscrub, (hg _ _).trans (kind_recorded line 3 _), (hg _ _).trans (addr_recorded line 3 _), eq_of_offRecord ?_⟩
    rw [offRecord_of_offRead (offRead_when_answer _ _ _ _), offRecord_recorded, offRecord_of_offRead (offRead_touched line s)]

/-! ### An uncorrectable line -/

/-- An uncorrectable word is counted and recorded. -/
def State.ueRecorded (s : State) (line : Nat) : State :=
  ((s.fadd (errReg (unitOf line).1) F.STK_ERR_UE 1).lifeAdd (if (unitOf line).1 < 16 then 14 else 17) 1).recorded line 2

theorem countUe_eq (line : Nat) (s : State) : State.countUe unitEvent s (unitOf line).1 line =
    (s.ueRecorded line).event (errAddrReg (unitOf line).1) (some F.STK_ERR_ADDR_KIND) [] := by
  unfold State.countUe State.errAt
  rfl

theorem noRegs_ueRecorded (line : Nat) (s : State) : (s.ueRecorded line).noRegs = s.noRegs := by
  rw [State.ueRecorded, State.recorded, noRegs_fset, noRegs_fset, State.lifeAdd, State.fadd, noRegs_fset, State.fadd, noRegs_fset]

theorem mem_ueRecorded (line : Nat) (s : State) : (s.ueRecorded line).mem = s.mem :=
  (congrArg State.mem (noRegs_ueRecorded line s) : (s.ueRecorded line).noRegs.mem = s.noRegs.mem)
theorem soft_ueRecorded (line : Nat) (s : State) : (s.ueRecorded line).soft = s.soft :=
  (congrArg State.soft (noRegs_ueRecorded line s) : (s.ueRecorded line).noRegs.soft = s.noRegs.soft)
theorem hard_ueRecorded (line : Nat) (s : State) : (s.ueRecorded line).hard = s.hard :=
  (congrArg State.hard (noRegs_ueRecorded line s) : (s.ueRecorded line).noRegs.hard = s.noRegs.hard)

theorem kind_ueRecorded (line : Nat) (s : State) :
    (s.ueRecorded line).fget (errAddrReg (unitOf line).1) F.STK_ERR_ADDR_KIND = 2 := kind_recorded line 2 _
theorem addr_ueRecorded (line : Nat) (s : State) :
    (s.ueRecorded line).fget (errAddrReg (unitOf line).1) F.STK_ERR_ADDR_ADDR = line % 2 ^ F.STK_ERR_ADDR_ADDR.w := addr_recorded line 2 _

theorem regKey_err_ne_life {u i : Nat} {f : Fld} (hi : i < 64) (hf : f.lo < 64) :
    regKey (errReg u) f ≠ regKey (R.LIF_CNT i) F.LIF_CNT_VALUE := by
  refine regKey_ne_of_off (.inr ?_) hf (by decide)
  have := le_unit u
  simp only [R.LIF_CNT, errReg]
  omega

theorem ue_ueRecorded (line : Nat) (s : State) : (s.ueRecorded line).fget (errReg (unitOf line).1) F.STK_ERR_UE =
    min (s.fget (errReg (unitOf line).1) F.STK_ERR_UE + 1) (2 ^ F.STK_ERR_UE.w - 1) := by
  have hk {f : Fld} (hf : f.lo < 64) : regKey (errReg (unitOf line).1) F.STK_ERR_UE ≠ regKey (errAddrReg (unitOf line).1) f :=
    regKey_ne_of_off (.inl (by simp only [errReg, errAddrReg]; omega)) (by decide) hf
  rw [State.ueRecorded, State.recorded, State.fget_fset_ne _ _ (hk (by decide)), State.fget_fset_ne _ _ (hk (by decide)), State.lifeAdd,
    fget_fadd_ne (regKey_err_ne_life (by split <;> omega) (by decide)), fget_fadd_self]

theorem read_bad (hw : instrWf (.channelRead ⟨line, cls⟩) = true) (h : ServedAtOnce s line) (he : s.lineErr line ≠ 0)
    (hd : rsDecode (s.lineDiff line) = .bad) :
    ∃ u : State, exec (.channelRead ⟨line, cls⟩) s =
        .next ((u.event (errAddrReg (unitOf line).1) (some F.STK_ERR_ADDR_KIND) []).when (cls != 3) fun w => w.answer .accessFault 0)
      ∧ u.fget (errReg (unitOf line).1) F.STK_ERR_UE =
          min (s.fget (errReg (unitOf line).1) F.STK_ERR_UE + 1) (2 ^ F.STK_ERR_UE.w - 1)
      ∧ u.fget (errAddrReg (unitOf line).1) F.STK_ERR_ADDR_KIND = 2
      ∧ u.fget (errAddrReg (unitOf line).1) F.STK_ERR_ADDR_ADDR = line % 2 ^ F.STK_ERR_ADDR_ADDR.w
      ∧ u.mem = s.mem ∧ Map.get 0 u.soft line = Map.get 0 s.soft line ∧ u.hard = s.hard := by
  have hl := lineOf_unitOf h.1
  refine ⟨(s.touched line).ueRecorded line, ?_, ?_, kind_ueRecorded line _, addr_ueRecorded line _, ?_, ?_, ?_⟩
  · rw [exec_channelRead hw h, chanServe_read, chanRead_eq, decodeLine_of_bad (by rwa [lineErr_touched hl s])
      (by rwa [lineDiff_touched hl s]), homeWord_of_bad he hd, countUe_eq]
    rfl
  · rw [ue_ueRecorded, State.fget, regs_touched, State.fget]
  · rw [mem_ueRecorded, mem_touched]
  · rw [soft_ueRecorded, soft_touched hl]
  · rw [hard_ueRecorded, hard_touched]

/-! ### A written line -/

/-- The bytes of a line are written, and its poison is gone. -/
def State.rewritten (s : State) (line data : Nat) : State := { s.putLine line data with poison := Map.put false s.poison line false }

theorem soft_rewritten (line data : Nat) (s : State) : (s.rewritten line data).soft = s.soft.erase line := rfl
theorem mem_rewritten (line data : Nat) (s : State) : (s.rewritten line data).mem = s.mem.wrN (line * 64) 64 data := rfl
theorem poison_rewritten (line data : Nat) (s : State) : (s.rewritten line data).poison = Map.put false s.poison line false := rfl
theorem regs_rewritten (line data : Nat) (s : State) : (s.rewritten line data).regs = s.regs := rfl
theorem cells_rewritten (line data l : Nat) (s : State) : (s.rewritten line data).cells l = s.cells l := rfl

theorem rdN_lt (m : Mem) (a n : Nat) : m.rdN a n < 256 ^ n := by
  induction n generalizing a with
  | zero => exact Nat.one_pos
  | succ n ih =>
    have h1 : m.rd a < 256 := (Map.get 0#8 m a).isLt
    have h2 := ih (a + 1)
    rw [Mem.rdN, Nat.pow_succ]
    omega

theorem line_size : 256 ^ 64 = 2 ^ 512 := by rw [show 256 = 2 ^ 8 from rfl, ← pow_mul]

theorem rdN_rewritten {data : Nat} (line : Nat) (hd : data < 2 ^ 512) (s : State) :
    (s.rewritten line data).mem.rdN (line * 64) 64 = data := by
  rw [mem_rewritten, Mem.rdN_wrN, line_size, Nat.mod_eq_of_lt hd]

theorem rd_rewritten {a : Nat} (line data : Nat) (h : a < 64 * line ∨ 64 * line + 64 ≤ a) (s : State) :
    (s.rewritten line data).mem.rd a = s.mem.rd a := by
  rw [mem_rewritten]
  exact Mem.rd_wrN_outside _ _ _ _ _ (by omega)

/-- A line is written at its channel. -/
def State.lineWritten (s : State) (line data : Nat) : State := (s.rewritten line data).chanWrote line

theorem offChk_chanWrote (line : Nat) (s : State) : (s.chanWrote line).offChk = (s.bwAdd (bwSetOf line) 1 64).offChk :=
  offChk_chkWrote _ _ _

theorem mem_chanWrote (line : Nat) (s : State) : (s.chanWrote line).mem = s.mem := (mem_of_offChk (offChk_chanWrote line s)).trans rfl
theorem poison_chanWrote (line : Nat) (s : State) : (s.chanWrote line).poison = s.poison :=
  (poison_of_offChk (offChk_chanWrote line s)).trans rfl

theorem soft_chanWrote (line : Nat) (s : State) :
    (s.chanWrote line).soft = ((s.bwAdd (bwSetOf line) 1 64).chkTouch (unitOf line).1 (unitOf line).2).soft := soft_chkWrote _ _ _

theorem soft_bwAdd (b d n : Nat) (s : State) : (s.bwAdd b d n).soft = s.soft := rfl
theorem cells_bwAdd (b d n l : Nat) (s : State) : (s.bwAdd b d n).cells l = s.cells l := rfl

/-- The package but for what writing a line touches. -/
def State.offWrite (s : State) : State := { s.offChk with mem := [], poison := [], bw := [] }

theorem offWrite_rewritten (line data : Nat) (s : State) : (s.rewritten line data).offWrite = s.offWrite := rfl
theorem offWrite_bwAdd (b d n : Nat) (s : State) : (s.bwAdd b d n).offWrite = s.offWrite := rfl

theorem offWrite_of_offChk (h : t.offChk = s.offChk) : t.offWrite = s.offWrite := by
  unfold State.offWrite
  rw [h]

theorem offWrite_lineWritten (line data : Nat) (s : State) : (s.lineWritten line data).offWrite = s.offWrite := by
  rw [State.lineWritten, offWrite_of_offChk (offChk_chanWrote _ _), offWrite_bwAdd, offWrite_rewritten]

theorem eq_of_offWrite (h : t.offWrite = s.offWrite) : t = { s with
    mem := t.mem, soft := t.soft, poison := t.poison, bw := t.bw, chkCache := t.chkCache, chans := t.chans } :=
  congrArg (fun x : State => { x with
    mem := t.mem, soft := t.soft, poison := t.poison, bw := t.bw, chkCache := t.chkCache, chans := t.chans }) h

theorem write_line {data : Nat} (hw : instrWf (.channelWrite ⟨line, cls⟩ data) = true) (h : ServedAtOnce s line) :
    ∃ u : State, exec (.channelWrite ⟨line, cls⟩ data) s = .next u ∧ u.mem.rdN (64 * line) 64 = data
      ∧ Map.get false u.poison line = false ∧ Map.get 0 u.soft line = 0 ∧ (s.cells line = 0 → u.homeWord line = some data)
      ∧ (∀ a, a < 64 * line ∨ 64 * line + 64 ≤ a → u.mem.rd a = s.mem.rd a)
      ∧ (∀ l, l ≠ line → Map.get false u.poison l = Map.get false s.poison l)
      ∧ (ChkRoom s line → ∀ l, l ≠ line → Map.get 0 u.soft l = Map.get 0 s.soft l)
      ∧ u = { s with mem := u.mem, soft := u.soft, poison := u.poison, bw := u.bw, chkCache := u.chkCache, chans := u.chans } := by
  have hl := lineOf_unitOf h.1
  have hd : data < 2 ^ 512 := by
    simp only [instrWf, Bool.and_eq_true, decide_eq_true_eq] at hw
    exact hw.2
  have hrd : (s.lineWritten line data).mem.rdN (line * 64) 64 = data := by
    rw [State.lineWritten, mem_chanWrote, rdN_rewritten line hd]
  have hpo : Map.get false (s.lineWritten line data).poison line = false := by
    rw [State.lineWritten, poison_chanWrote, poison_rewritten, Map.get_put_self]
  have hsoft : Map.get 0 (s.rewritten line data).soft line = 0 := by rw [soft_rewritten, get_erase_self]
  refine ⟨s.lineWritten line data, ?_, by rw [Nat.mul_comm, hrd], hpo, ?_, fun hc => ?_, fun a ha => ?_, fun l hne => ?_, fun hroom l hne => ?_,
    ?_⟩
  · rw [exec_channelWrite hw h, chanServe_write]
    rfl
  · rw [State.lineWritten, soft_chanWrote, soft_chkTouch hl]
    exact hsoft
  · have he : (s.lineWritten line data).lineErr line = 0 := by
      refine lineErr_chkWrote (s := (s.rewritten line data).bwAdd (bwSetOf line) 1 64) hl ?_
      rw [soft_bwAdd, cells_bwAdd, hsoft, cells_rewritten, hc]
      rfl
    rw [homeWord_of_good he hpo, hrd]
  · rw [State.lineWritten, mem_chanWrote, rd_rewritten line data ha]
  · rw [State.lineWritten, poison_chanWrote, poison_rewritten, Map.get_put_ne _ _ _ _ hne]
  · rw [State.lineWritten, soft_chanWrote, soft_chkTouch_of_room (s := (s.rewritten line data).bwAdd (bwSetOf line) 1 64) hroom]
    exact get_erase_ne 0 s.soft hne
  · exact eq_of_offWrite (offWrite_lineWritten line data s)

/-! ### A corrected line -/

theorem rsDecode_zero : rsDecode 0 = .good := by decide +kernel

/-- Counting a corrected word touches registers and the health monitor. -/
theorem asked_countCe (u line : Nat) (s : State) : (s.countCe u line).asked = s.asked := by
  unfold State.countCe
  dsimp only
  split <;> rw [State.histAdd, asked_fset, State.lifeAdd, State.fadd, asked_fset, asked_health, State.fadd, asked_fset]

theorem mem_of_asked (h : t.asked = s.asked) : t.mem = s.mem := (congrArg State.mem h : t.asked.mem = s.asked.mem)

theorem cells_of_asked (h : t.asked = s.asked) (line : Nat) : t.cells line = s.cells line :=
  (congrArg (State.cells · line) h : t.asked.cells line = s.asked.cells line)

theorem lineDiff_of_asked (h : t.asked = s.asked) (line : Nat) : t.lineDiff line = s.lineDiff line :=
  (congrArg (State.lineDiff · line) h : t.asked.lineDiff line = s.asked.lineDiff line)

theorem fget_health (i n o : Nat) (f : Fld) (s : State) : (s.health i n).fget o f = s.fget o f := rfl

theorem ce_countCe {u : Nat} (hu : u < 48) (line : Nat) (s : State) : (s.countCe u line).fget (errReg u) F.STK_ERR_CE =
    min (s.fget (errReg u) F.STK_ERR_CE + 1) (2 ^ F.STK_ERR_CE.w - 1) := by
  have hh {i j : Nat} (hi : i < 17) (hj : j < 64) : regKey (errReg u) F.STK_ERR_CE ≠ regKey (R.LIF_HIST i j) F.LIF_HIST_VALUE := by
    refine regKey_ne_of_off (.inr ?_) (by decide) (by decide)
    have := le_unit u
    simp only [R.LIF_HIST, errReg]
    omega
  have hl (n : Nat) (hn : n < 64) : (((s.fadd (errReg u) F.STK_ERR_CE 1).health 0 1).lifeAdd n 1).fget (errReg u) F.STK_ERR_CE =
      min (s.fget (errReg u) F.STK_ERR_CE + 1) (2 ^ F.STK_ERR_CE.w - 1) := by
    rw [State.lifeAdd, fget_fadd_ne (regKey_err_ne_life hn (by decide)), fget_health, fget_fadd_self]
  have hc := stackChan_lt (unitOf line).2
  unfold State.countCe
  dsimp only
  split
  · rw [State.histAdd, State.fget_fset_ne _ _ (hh (by omega) (by omega)), hl _ (by decide)]
  · rw [State.histAdd, State.fget_fset_ne _ _ (hh (by decide) (by omega)), hl _ (by decide)]

/-- The word that a correction writes back. -/
def State.corrected (s : State) (line f : Nat) : Nat := s.mem.rdN (line * 64) 64 ^^^ (s.lineDiff line ^^^ f) % 2 ^ 512

theorem corrected_lt (line f : Nat) (s : State) : s.corrected line f < 2 ^ 512 :=
  by
  have h := rdN_lt s.mem (line * 64) 64
  rw [line_size] at h
  exact Nat.xor_lt_two_pow h (Nat.mod_lt _ (Nat.two_pow_pos _))

theorem lineErr_chkWrote_rewritten (hl : lineOf (unitOf line).1 (unitOf line).2 = line) (hc : s.cells line = 0) (data : Nat) :
    ((s.rewritten line data).chkWrote (unitOf line).1 (unitOf line).2).lineErr line = 0 := by
  refine lineErr_chkWrote hl ?_
  rw [soft_rewritten, get_erase_self, cells_rewritten, hc]
  rfl

/-- A corrected word is written back; with good cells it stays. -/
theorem correct_of_cells (ev : ErrEv) (hl : lineOf (unitOf line).1 (unitOf line).2 = line) (hc : s.cells line = 0) (f : Nat) :
    State.correct ev s (unitOf line).1 line f =
      (s.rewritten line (s.corrected line f)).chkWrote (unitOf line).1 (unitOf line).2 := by
  have he := lineErr_chkWrote_rewritten hl hc (s.corrected line f)
  have hw : State.correct ev s (unitOf line).1 line f =
      ((s.rewritten line (s.corrected line f)).chkWrote (unitOf line).1 (unitOf line).2).when (rsDecode
        (((s.rewritten line (s.corrected line f)).chkWrote (unitOf line).1 (unitOf line).2).lineErr line) != .good) fun s =>
          State.countHard ev s (unitOf line).1 line := rfl
  rw [hw, he, rsDecode_zero]
  rfl

theorem read_corrected {f : Nat} (hw : instrWf (.channelRead ⟨line, cls⟩) = true) (h : ServedAtOnce s line) (he : s.lineErr line ≠ 0)
    (hd : rsDecode (s.lineDiff line) = .corrected f) (hc : s.cells line = 0) :
    ∃ u : State, exec (.channelRead ⟨line, cls⟩) s = .next u
      ∧ u.fget (errReg (unitOf line).1) F.STK_ERR_CE =
          min (s.fget (errReg (unitOf line).1) F.STK_ERR_CE + 1) (2 ^ F.STK_ERR_CE.w - 1)
      ∧ s.homeWord line = some (u.mem.rdN (64 * line) 64) ∧ (cls ≠ 3 → Served u (u.mem.rdN (64 * line) 64))
      ∧ Map.get 0 u.soft line = 0 ∧ (∀ a, a < 64 * line ∨ 64 * line + 64 ≤ a → u.mem.rd a = s.mem.rd a) := by
  have hl := lineOf_unitOf h.1
  have hce := asked_countCe (unitOf line).1 line (s.touched line)
  have hgc := ce_countCe (unitOf_lt line) line (s.touched line)
  generalize hy : (s.touched line).countCe (unitOf line).1 line = y at hce hgc
  have hcells : y.cells line = 0 := by rw [cells_of_asked hce, cells_touched, hc]
  have hmem : y.mem = s.mem := by rw [mem_of_asked hce, mem_touched]
  have hword : y.corrected line f = s.corrected line f := by
    rw [State.corrected, hmem, lineDiff_of_asked hce, lineDiff_touched hl, State.corrected]
  generalize hz : (y.rewritten line (y.corrected line f)).chkWrote (unitOf line).1 (unitOf line).2 = z
  have hzr : State.chanRead unitEvent s line = z := by
    rw [chanRead_eq, decodeLine_of_corrected (by rwa [lineErr_touched hl s]) (by rwa [lineDiff_touched hl s]), hy,
      correct_of_cells unitEvent hl hcells, hz]
  have hoff : z.offChk = (y.rewritten line (y.corrected line f)).offChk := by rw [← hz, offChk_chkWrote]
  have hzm : z.mem = (y.rewritten line (y.corrected line f)).mem := mem_of_offChk hoff
  have hzrd : z.mem.rdN (64 * line) 64 = s.corrected line f := by
    rw [Nat.mul_comm, hzm, rdN_rewritten line (corrected_lt line f y), hword]
  have hhome : s.homeWord line = some (s.corrected line f) := homeWord_of_corrected he hd
  refine ⟨z.when (cls != 3) fun w => w.answer .ok (s.corrected line f), ?_, ?_⟩
  · rw [exec_channelRead hw h, chanServe_read, hzr, hhome]
    rfl
  have hkm : (z.when (cls != 3) fun w => w.answer .ok (s.corrected line f)).mem = z.mem :=
    when_answer_keeps (v := State.mem) (fun _ _ _ => rfl) _ _ _ _
  rw [hkm, hzrd]
  refine ⟨?_, hhome, fun hn => ?_, ?_, fun a ha => ?_⟩
  · rw [when_answer_keeps (v := fun s => State.fget s _ _) fun _ _ _ => rfl, State.fget,
      regs_of_offChk hoff, regs_rewritten, ← State.fget, hgc, State.fget,
      regs_touched, State.fget]
  · exact (rsp_when_answer _ _ _ _).trans (if_pos (by simpa using hn))
  · rw [when_answer_keeps (v := State.soft) fun _ _ _ => rfl, ← hz, soft_chkWrote, soft_chkTouch hl, soft_rewritten, get_erase_self]
  · rw [hzm, rd_rewritten line _ ha, hmem]

end Read

/-! ### Requests that wait -/

/-- A request joins those of its channel. -/
def State.queued (s : State) (r : ChanReq) : State :=
  s.setChan (chanOf r.line) { s.chan (chanOf r.line) with queue := (s.chan (chanOf r.line)).queue ++ [r] }

theorem length_queued (r : ChanReq) (s : State) :
    ((s.queued r).chan (chanOf r.line)).queue.length = (s.chan (chanOf r.line)).queue.length + 1 := by
  have h : (s.queued r).chan (chanOf r.line) = { s.chan (chanOf r.line) with queue := (s.chan (chanOf r.line)).queue ++ [r] } :=
    Map.get_put_self _ _ _ _
  rw [h]
  simp

theorem chanTake_of_slot {r : ChanReq} (hu : (unitOf r.line).1 < 16) (h : s.slotWait (unitOf r.line).1 = true) :
    s.chanTake r = s.queued r := by
  unfold State.chanTake
  dsimp only
  rw [if_neg (by simp [hu, h]), if_pos h]
  rfl

theorem chanTake_of_queue {r : ChanReq} (hu : (unitOf r.line).1 < 16) (h : s.slotWait (unitOf r.line).1 = false)
    (hq : (s.chan (chanOf r.line)).queue ≠ []) :
    s.chanTake r = State.chanDrain (chanOf r.line) ((s.chan (chanOf r.line)).queue.length + 1) (s.queued r) := by
  unfold State.chanTake
  dsimp only
  rw [if_neg (by simp [hu, h, hq]), if_neg (by simp [h]), ← length_queued]
  rfl

section Wait
variable {line cls : Nat}

theorem exec_channelRead_of_home (hw : instrWf (.channelRead ⟨line, cls⟩) = true) (hl : homeLine line = true) :
    exec (.channelRead ⟨line, cls⟩) s = .next (s.chanTake { line := line, cls := cls }) := by
  refine (State.runIf_true s hw _).trans ?_
  rw [if_pos hl]

theorem exec_channelWrite_of_home {data : Nat} (hw : instrWf (.channelWrite ⟨line, cls⟩ data) = true) (hl : homeLine line = true) :
    exec (.channelWrite ⟨line, cls⟩ data) s = .next (s.chanTake { line := line, write := some data, cls := cls }) := by
  refine (State.runIf_true s hw _).trans ?_
  rw [if_pos hl]

end Wait

/-! ### Scrub reads (R318) -/

/-- The position of a scrub pass moves on, and the pass is counted at its end. -/
def State.scrubbed (s : State) (unit n : Nat) : State :=
  if n + 1 < unitLines unit then s.fset (scrubReg unit) F.STK_SCRUB_POS (n + 1)
  else (s.fset (scrubReg unit) F.STK_SCRUB_POS 0).fset (scrubReg unit) F.STK_SCRUB_PASSES (s.fget (scrubReg unit) F.STK_SCRUB_PASSES + 1)

section Scrub
variable {unit n : Nat}

theorem exec_scrubRead (hw : instrWf (.scrubRead unit) = true) (hh : s.scrubHours unit ≠ 0)
    (hn : s.scrubNext unit 65536 (s.fget (scrubReg unit) F.STK_SCRUB_POS) = n) (hlt : n < unitLines unit) :
    exec (.scrubRead unit) s = .next ((s.chanTake { line := lineOf unit n, cls := 3 }).scrubbed unit n) := by
  refine (State.runIf_true s hw _).trans ?_
  rw [if_neg hh]
  dsimp only
  rw [hn, if_pos hlt]
  rfl

/-- A scrub read of a good line counts its bytes, and nothing else. -/
theorem chanTake_scrub (hu : unit < 48) (hlt : n < unitLines unit)
    (hf : unit < 16 → s.slotWait unit = false ∧ (s.chan (chanOf (lineOf unit n))).queue = [])
    (he : s.lineErr (lineOf unit n) = 0) (hp : Map.get false s.poison (lineOf unit n) = false) :
    s.chanTake { line := lineOf unit n, cls := 3 } = s.touched (lineOf unit n) := by
  have hul := unitOf_lineOf hu hlt
  have hl : lineOf (unitOf (lineOf unit n)).1 (unitOf (lineOf unit n)).2 = lineOf unit n := by rw [hul]
  have hfree : 16 ≤ (unitOf (lineOf unit n)).1 ∨
      (s.slotWait (unitOf (lineOf unit n)).1 = false ∧ (s.chan (chanOf (lineOf unit n))).queue = []) := by
    rw [hul]
    rcases Nat.lt_or_ge unit 16 with h | h
    · exact .inr (hf h)
    · exact .inl h
  rw [chanTake_of_free hfree, chanServe_read, chanRead_eq, decodeLine_of_good ((lineErr_touched hl s).trans he) (by rw [poison_touched, hp])]
  rfl

theorem unitLines_le (unit : Nat) : unitLines unit ≤ 2 ^ 30 := by
  unfold unitLines
  split <;> omega

theorem pos_scrubbed (unit n : Nat) (s : State) :
    (s.scrubbed unit n).fget (scrubReg unit) F.STK_SCRUB_POS = if n + 1 < unitLines unit then n + 1 else 0 := by
  unfold State.scrubbed
  have h30 := unitLines_le unit
  split
  · rw [State.fget_fset_self]
    exact Nat.mod_eq_of_lt (by simp only [F.STK_SCRUB_POS]; omega)
  · rw [State.fget_fset_ne _ _ (regKey_ne_of_lo (by decide)), State.fget_fset_self]
    rfl

theorem passes_scrubbed (unit n : Nat) (s : State) : (s.scrubbed unit n).fget (scrubReg unit) F.STK_SCRUB_PASSES =
    if n + 1 < unitLines unit then s.fget (scrubReg unit) F.STK_SCRUB_PASSES
    else (s.fget (scrubReg unit) F.STK_SCRUB_PASSES + 1) % 2 ^ F.STK_SCRUB_PASSES.w := by
  unfold State.scrubbed
  split
  · rw [State.fget_fset_ne _ _ (regKey_ne_of_lo (by decide))]
  · rw [State.fget_fset_self]

theorem onlyRegs_scrubbed (unit n : Nat) (s : State) :
    OnlyRegs s (s.scrubbed unit n) [regKey (scrubReg unit) F.STK_SCRUB_POS, regKey (scrubReg unit) F.STK_SCRUB_PASSES] := by
  unfold State.scrubbed
  split
  · exact (OnlyRegs.refl s _).fset _ (by simp)
  · exact ((OnlyRegs.refl s _).fset _ (by simp)).fset _ (by simp)

/-- The package but for what a scrub read touches. -/
def State.offScrub (s : State) : State := { s.offChk with bw := [], regs := [] }

theorem offScrub_fset (off : Nat) (f : Fld) (v : Nat) (s : State) : (s.fset off f v).offScrub = s.offScrub := rfl
theorem offScrub_bwAdd (b d n : Nat) (s : State) : (s.bwAdd b d n).offScrub = s.offScrub := rfl

theorem offScrub_of_offChk (h : t.offChk = s.offChk) : t.offScrub = s.offScrub := by
  unfold State.offScrub
  rw [h]

theorem offScrub_scrubbed (unit n line : Nat) (s : State) : ((s.touched line).scrubbed unit n).offScrub = s.offScrub := by
  have h : (s.touched line).offScrub = s.offScrub := (offScrub_of_offChk (offChk_touched line s)).trans (offScrub_bwAdd _ _ _ s)
  unfold State.scrubbed
  split
  · rw [offScrub_fset, h]
  · rw [offScrub_fset, offScrub_fset, h]

theorem eq_of_offScrub (h : t.offScrub = s.offScrub) :
    t = { s with bw := t.bw, chkCache := t.chkCache, soft := t.soft, chans := t.chans, regs := t.regs } :=
  congrArg (fun x : State => { x with bw := t.bw, chkCache := t.chkCache, soft := t.soft, chans := t.chans, regs := t.regs }) h

theorem scrub_good (hw : instrWf (.scrubRead unit) = true) (hh : s.scrubHours unit ≠ 0)
    (hn : s.scrubNext unit 65536 (s.fget (scrubReg unit) F.STK_SCRUB_POS) = n) (hlt : n < unitLines unit)
    (hf : unit < 16 → s.slotWait unit = false ∧ (s.chan (chanOf (lineOf unit n))).queue = [])
    (he : s.lineErr (lineOf unit n) = 0) (hp : Map.get false s.poison (lineOf unit n) = false) :
    ∃ u : State, exec (.scrubRead unit) s = .next u
      ∧ u.fget (scrubReg unit) F.STK_SCRUB_POS = (if n + 1 < unitLines unit then n + 1 else 0)
      ∧ u.fget (scrubReg unit) F.STK_SCRUB_PASSES =
          (if n + 1 < unitLines unit then s.fget (scrubReg unit) F.STK_SCRUB_PASSES
            else (s.fget (scrubReg unit) F.STK_SCRUB_PASSES + 1) % 2 ^ F.STK_SCRUB_PASSES.w)
      ∧ u = { s with bw := u.bw, chkCache := u.chkCache, soft := u.soft, chans := u.chans, regs := u.regs }
      ∧ SameRegs s u [regKey (scrubReg unit) F.STK_SCRUB_POS, regKey (scrubReg unit) F.STK_SCRUB_PASSES] := by
  have hu : unit < 48 := by simpa [instrWf] using hw
  have hr := regs_touched (lineOf unit n) s
  obtain ⟨-, hsame⟩ := onlyRegs_scrubbed unit n (s.touched (lineOf unit n))
  refine ⟨(s.touched (lineOf unit n)).scrubbed unit n, ?_, pos_scrubbed _ _ _, ?_, ?_, fun k hk => ?_⟩
  · rw [exec_scrubRead hw hh hn hlt, chanTake_scrub hu hlt hf he hp]
  · rw [passes_scrubbed, State.fget, hr, State.fget]
  · exact eq_of_offScrub (offScrub_scrubbed _ _ _ s)
  · rw [hsame k hk, hr]

end Scrub

/-- Settles O30: each case of a write, a read and a scrub read as its lemma says. -/
theorem channelLines : Obligations.ChannelLines := by
  refine ⟨fun s line data cls => write_line,
    fun s line cls hw h => ⟨read_good hw h, read_poisoned hw h, fun f he hd hc => read_corrected hw h he hd hc, read_bad hw h⟩,
    fun s line cls hl hu hs => ⟨fun hw => ?_, fun data hw => ?_⟩, fun s line cls hl hu hs hq hw => ?_, fun s unit n => scrub_good⟩
  · exact (exec_channelRead_of_home hw hl).trans (congrArg Host.Outcome.next (chanTake_of_slot hu hs))
  · exact (exec_channelWrite_of_home hw hl).trans (congrArg Host.Outcome.next (chanTake_of_slot hu hs))
  · exact (exec_channelRead_of_home hw hl).trans (congrArg Host.Outcome.next (chanTake_of_queue hu hs hq))

end Sys2Proof.Machine
end

section
/-!
Ethernet links, queue pairs and inbound PCIe accesses (O37): first what frames and packets leave, then the commands.
-/

set_option Elab.async false

namespace Sys2Proof.Machine

variable {s t : State} {e q : Nat}

/-! ### Ports, queue pairs and byte counters -/

theorem eth_setEth_self (e : Nat) (x : EthPort) (s : State) : (s.setEth e x).eth e = x := Map.get_put_self _ _ _ _

theorem eth_setEth_ne {k : Nat} (x : EthPort) (h : k ≠ e) (s : State) : (s.setEth e x).eth k = s.eth k := Map.get_put_ne _ _ _ _ h

theorem qp_setQp_self (e q : Nat) (x : Qp) (s : State) : (s.setQp e q x).qp e q = x := Map.get_insert_self _ _ _ _

theorem eth_of_eths (h : t.eths = s.eths) (k : Nat) : t.eth k = s.eth k := congrArg (Map.get ({} : EthPort) · k) h

/-- The bytes received at a port; `m` is where the last second of byte counters ended. -/
def State.rxBytes (s : State) (m e : Nat) : Nat := (Map.get { last := m } s.bw (B.eth e + 0x100)).a

theorem rxBytes_bwAdd (e n : Nat) (s : State) :
    (s.bwAdd (B.eth e + 0x100) 0 n).rxBytes s.bwEnd e = (s.rxBytes s.bwEnd e + n) % 2 ^ 64 :=
  congrArg BwSet.a (Map.get_insert_self _ s.bw (B.eth e + 0x100) _)

/-- Bytes that leave are counted apart from those received. -/
theorem rxBytes_bwAdd_out (e n : Nat) (s : State) : (s.bwAdd (B.eth e + 0x100) 1 n).rxBytes s.bwEnd e = s.rxBytes s.bwEnd e := by
  unfold State.rxBytes State.bwAdd
  rw [Map.get_insert_self, if_neg (by decide)]

theorem le_eth (e : Nat) : 0x40000000 ≤ B.eth e := by
  simp only [B.eth, B.die]
  omega

/-! ### Links -/

/-- A link goes down. -/
def State.linkDown (s : State) (e : Nat) : State :=
  ((((s.setEth e { s.eth e with stopped := 0 }).fset (R.ETH_STATUS e) F.ETH_STATUS_UP 0).lifeAdd 26 1).histAdd 25 e 1).health 1 1

theorem exec_ethLinkDown (hw : instrWf (.ethLinkDown e) = true) (h : s.ethUp e = true) :
    exec (.ethLinkDown e) s = .next (s.linkDown e) := by
  refine (State.runIf_true s hw _).trans ?_
  rw [if_pos h]
  rfl

/-- The package but for what a link that goes down touches. -/
def State.offLink (s : State) : State := { s with regs := [], hltEv := [], eths := [] }

theorem offLink_fset (off : Nat) (f : Fld) (v : Nat) (s : State) : (s.fset off f v).offLink = s.offLink := rfl
theorem offLink_health (i n : Nat) (s : State) : (s.health i n).offLink = s.offLink := rfl
theorem offLink_setEth (e : Nat) (x : EthPort) (s : State) : (s.setEth e x).offLink = s.offLink := rfl

theorem offLink_linkDown (e : Nat) (s : State) : (s.linkDown e).offLink = s.offLink := by
  rw [State.linkDown, offLink_health, State.histAdd, offLink_fset, State.lifeAdd, State.fadd, offLink_fset, offLink_fset, offLink_setEth]

theorem eq_of_offLink (h : t.offLink = s.offLink) : t = { s with regs := t.regs, hltEv := t.hltEv, eths := t.eths } :=
  congrArg (fun x : State => { x with regs := t.regs, hltEv := t.hltEv, eths := t.eths }) h

theorem eths_fset (off : Nat) (f : Fld) (v : Nat) (s : State) : (s.fset off f v).eths = s.eths := rfl

theorem eths_health (i n : Nat) (s : State) : (s.health i n).eths = s.eths := rfl

theorem eths_linkDown (e : Nat) (s : State) : (s.linkDown e).eths = (s.setEth e { s.eth e with stopped := 0 }).eths := by
  rw [State.linkDown, eths_health, State.histAdd, eths_fset, State.lifeAdd, State.fadd, eths_fset, eths_fset]

theorem fget_linkDown {o : Nat} {f : Fld} (h1 : regKey o f ≠ regKey (R.LIF_HIST 25 (e / 2)) F.LIF_HIST_VALUE) (s : State) :
    (s.linkDown e).fget o f =
      (((s.setEth e { s.eth e with stopped := 0 }).fset (R.ETH_STATUS e) F.ETH_STATUS_UP 0).lifeAdd 26 1).fget o f := by
  rw [State.linkDown, fget_health, State.histAdd, State.fget_fset_ne _ _ h1]

theorem fget_setEth (o : Nat) (f : Fld) (e : Nat) (x : EthPort) (s : State) : (s.setEth e x).fget o f = s.fget o f := rfl

theorem ethLinkDown_spec (hw : instrWf (.ethLinkDown e) = true) (h : s.ethUp e = true) :
    ∃ u : State, exec (.ethLinkDown e) s = .next u ∧ u.ethUp e = false
      ∧ u.fget (R.LIF_CNT 26) F.LIF_CNT_VALUE = min (s.fget (R.LIF_CNT 26) F.LIF_CNT_VALUE + 1) (2 ^ F.LIF_CNT_VALUE.w - 1)
      ∧ u.eth e = { s.eth e with stopped := 0 } ∧ (∀ k, k ≠ e → u.eth k = s.eth k)
      ∧ u = { s with regs := u.regs, hltEv := u.hltEv, eths := u.eths } := by
  have he : e < 8 := by simpa [instrWf] using hw
  have h1 {f : Fld} (hf : f.lo < 64) : regKey (R.ETH_STATUS e) f ≠ regKey (R.LIF_CNT 26) F.LIF_CNT_VALUE := by
    refine regKey_ne_of_off (.inr ?_) hf (by decide)
    have := le_eth e
    simp only [R.ETH_STATUS, R.LIF_CNT]
    omega
  have h2 : regKey (R.ETH_STATUS e) F.ETH_STATUS_UP ≠ regKey (R.LIF_HIST 25 (e / 2)) F.LIF_HIST_VALUE := by
    refine regKey_ne_of_off (.inr ?_) (by decide) (by decide)
    have := le_eth e
    simp only [R.ETH_STATUS, R.LIF_HIST]
    omega
  have h3 : regKey (R.LIF_CNT 26) F.LIF_CNT_VALUE ≠ regKey (R.LIF_HIST 25 (e / 2)) F.LIF_HIST_VALUE := by
    refine regKey_ne_of_off (.inl ?_) (by decide) (by decide)
    simp only [R.LIF_CNT, R.LIF_HIST]
    omega
  have heth (k : Nat) : (s.linkDown e).eth k = (s.setEth e { s.eth e with stopped := 0 }).eth k := eth_of_eths (eths_linkDown e s) k
  refine ⟨_, exec_ethLinkDown hw h, ?_, ?_, ?_, fun k hk => ?_, eq_of_offLink (offLink_linkDown e s)⟩
  · rw [State.ethUp, State.fbit, fget_linkDown h2, State.lifeAdd, fget_fadd_ne (h1 (by decide)), State.fget_fset_self]
    rfl
  · rw [fget_linkDown h3, State.lifeAdd, fget_fadd_self, State.fget_fset_ne _ _ (h1 (by decide)).symm, fget_setEth]
  · rw [heth, eth_setEth_self]
  · rw [heth, eth_setEth_ne _ hk]

theorem ethLinkUp_spec (hw : instrWf (.ethLinkUp e) = true) (h : s.fbit (R.ETH_CTL e) F.ETH_CTL_EN = true) :
    ∃ u : State, exec (.ethLinkUp e) s = .next u ∧ u.ethUp e = true ∧ u.fget (R.ETH_STATUS e) F.ETH_STATUS_PFC_SEEN = 0
      ∧ u.fget (R.ETH_STATUS e) F.ETH_STATUS_ECN_SEEN = 0
      ∧ OnlyRegs s u [regKey (R.ETH_STATUS e) F.ETH_STATUS_UP, regKey (R.ETH_STATUS e) F.ETH_STATUS_PFC_SEEN,
          regKey (R.ETH_STATUS e) F.ETH_STATUS_ECN_SEEN] := by
  refine ⟨_, (State.runIf_true s hw _).trans (congrArg Host.Outcome.next (if_pos h)), ?_, ?_, State.fget_fset_self _ _ _ _,
    (((OnlyRegs.refl s _).fset _ (by simp)).fset _ (by simp)).fset _ (by simp)⟩
  · rw [State.ethUp, State.fbit, State.fget_fset_ne _ _ (regKey_ne_of_lo (by decide)), State.fget_fset_ne _ _ (regKey_ne_of_lo (by decide)),
      State.fget_fset_self]
    rfl
  · rw [State.fget_fset_ne _ _ (regKey_ne_of_lo (by decide)), State.fget_fset_self]
    rfl

/-! ### What a frame leaves -/

/-- Only the counters of bytes, registers, ports and queue pairs may differ. -/
def State.offEth (s : State) : State := { s with bw := [], regs := [], eths := [], qps := [] }

theorem offEth_bwAdd (b d n : Nat) (s : State) : (s.bwAdd b d n).offEth = s.offEth := rfl
theorem offEth_fset (off : Nat) (f : Fld) (v : Nat) (s : State) : (s.fset off f v).offEth = s.offEth := rfl
theorem offEth_setQp (e q : Nat) (x : Qp) (s : State) : (s.setQp e q x).offEth = s.offEth := rfl

theorem offEth_qpSend (e q : Nat) (o : EthOut) (s : State) : (s.qpSend e q o).offEth = s.offEth := by
  rw [State.qpSend, State.qpOut, offEth_bwAdd, offEth_setQp]

theorem eq_of_offEth (h : t.offEth = s.offEth) : t = { s with bw := t.bw, regs := t.regs, eths := t.eths, qps := t.qps } :=
  congrArg (fun x : State => { x with bw := t.bw, regs := t.regs, eths := t.eths, qps := t.qps }) h

theorem eq_of_offEth_eths (h : t.offEth = s.offEth) (he : t.eths = s.eths) : t = { s with regs := t.regs, qps := t.qps, bw := t.bw } := by
  have ht := eq_of_offEth h
  rw [he] at ht
  exact ht

theorem tx_qpSend (e q : Nat) (o : EthOut) (s : State) : ((s.qpSend e q o).qp e q).tx = (s.qp e q).tx ++ [{ out := o }] :=
  congrArg Qp.tx (qp_setQp_self e q { s.qp e q with tx := (s.qp e q).tx ++ [{ out := o }] } s)

theorem regs_qpSend (e q : Nat) (o : EthOut) (s : State) : (s.qpSend e q o).regs = s.regs := rfl
theorem eths_qpSend (e q : Nat) (o : EthOut) (s : State) : (s.qpSend e q o).eths = s.eths := rfl

section Frame
variable {f : EthFrame}

theorem exec_ethFrameRx (hw : instrWf (.ethFrameRx e f) = true) (h : s.ethUp e = true) :
    exec (.ethFrameRx e f) s = .next ((s.bwAdd (B.eth e + 0x100) 0 f.bytes).frameIn e f) := by
  refine (State.runIf_true s hw _).trans ?_
  rw [if_pos h]

theorem frameIn_of_drop (h : frameDrops f = true) : s.frameIn e f = s.ethDrop e := if_pos h

theorem frameIn_of_pfc (h : frameDrops f = false) (hp : f.pfc = true) : s.frameIn e f = s.pfcIn e f := by
  unfold State.frameIn
  rw [h, if_neg (by decide), if_pos hp]

/-- A port takes a frame: it is time-stamped, and handed on where it is not RoCEv2. -/
def State.frameTaken (s : State) (e : Nat) (f : EthFrame) : State :=
  s.setEth e { s.eth e with stamps := if f.ptpEvent then (s.eth e).stamps ++ [s.clk.tb] else (s.eth e).stamps,
                            raw := if f.roce then (s.eth e).raw else (s.eth e).raw ++ [f] }

/-- An acknowledgement among the frames ends what it covers. -/
def State.ackTaken (s : State) (e : Nat) (f : EthFrame) : State :=
  match f.roce, f.ack with
  | true, some psn => s.qpAck e f.qpn psn
  | _, _ => s

theorem frameIn_of_taken (h : frameDrops f = false) (hp : f.pfc = false) :
    s.frameIn e f = ((s.frameTaken e f).ceMark e f).ackTaken e f := by
  unfold State.frameIn
  rw [h, if_neg (by decide), hp, if_neg (by decide)]
  rfl

/-- What a CE mark writes. -/
def State.ceSeen (s : State) (e : Nat) : State :=
  (s.fset (R.ETH_STATUS e) F.ETH_STATUS_ECN_SEEN 1).fadd (R.ETH_ERR e) F.ETH_ERR_ECN_CE 1

theorem ceMark_of_seen (hc : f.ce = true) (hl : s.lossy e = false) :
    s.ceMark e f = (s.ceSeen e).when f.roce fun s => s.qpSend e f.qpn .cnp := by
  unfold State.ceMark
  rw [hc, hl]
  rfl

theorem ceMark_of_ignored (h : f.ce = false ∨ s.lossy e = true) : s.ceMark e f = s := by
  unfold State.ceMark
  exact if_neg (by rcases h with h | h <;> simp [h])

theorem drop_spec (hw : instrWf (.ethFrameRx e f) = true) (hup : s.ethUp e = true) (hd : frameDrops f = true) :
    ∃ u : State, exec (.ethFrameRx e f) s = .next u
      ∧ u.fget (R.ETH_ERR e) F.ETH_ERR_DROPS = min (s.fget (R.ETH_ERR e) F.ETH_ERR_DROPS + 1) (2 ^ F.ETH_ERR_DROPS.w - 1)
      ∧ (Map.get { last := s.bwEnd } u.bw (B.eth e + 0x100)).a =
          ((Map.get { last := s.bwEnd } s.bw (B.eth e + 0x100)).a + f.bytes) % 2 ^ 64
      ∧ u = { s with bw := u.bw, regs := u.regs } ∧ SameRegs s u [regKey (R.ETH_ERR e) F.ETH_ERR_DROPS] :=
  ⟨(s.bwAdd (B.eth e + 0x100) 0 f.bytes).ethDrop e, (exec_ethFrameRx hw hup).trans (congrArg Host.Outcome.next (frameIn_of_drop hd)),
    fget_fadd_self _, rxBytes_bwAdd e f.bytes s, rfl, fun _ hk => State.find?_fset_ne _ _ (by simpa using hk)⟩

/-! ### Flow-control frames -/

/-- A flow-control frame has been seen. -/
def State.pfcSeen (s : State) (e : Nat) : State := s.fset (R.ETH_STATUS e) F.ETH_STATUS_PFC_SEEN 1

/-- A flow-control frame stops priorities and lets others go on. -/
def State.pfcTaken (s : State) (e : Nat) (f : EthFrame) : State :=
  (s.pfcSeen e).setEth e { s.eth e with stopped := ((s.eth e).stopped - ((s.eth e).stopped &&& f.xon) ||| f.xoff) % 256 }

theorem regs_pfcTaken (e : Nat) (f : EthFrame) (s : State) : (s.pfcTaken e f).regs = (s.pfcSeen e).regs := rfl

theorem pfcIn_of_ignored (h : s.lossy e = true ∨ s.fbit (R.ETH_CTL e) F.ETH_CTL_PFC_EN = false) : s.pfcIn e f = s.pfcSeen e := by
  unfold State.pfcIn
  exact if_pos (by rcases h with h | h <;> simp [h])

theorem pfcIn_of_taken (hl : s.lossy e = false) (hp : s.fbit (R.ETH_CTL e) F.ETH_CTL_PFC_EN = true) :
    s.pfcIn e f = (s.pfcTaken e f).qpDrainAll e := by
  unfold State.pfcIn
  exact if_neg (by simp [hl, hp])

theorem pfc_spec (hw : instrWf (.ethFrameRx e f) = true) (hup : s.ethUp e = true) (hd : frameDrops f = false) (hp : f.pfc = true) :
    ∃ u : State, u.fget (R.ETH_STATUS e) F.ETH_STATUS_PFC_SEEN = 1
      ∧ ((s.lossy e = true ∨ s.fbit (R.ETH_CTL e) F.ETH_CTL_PFC_EN = false) → exec (.ethFrameRx e f) s = .next u ∧ u.eths = s.eths)
      ∧ (s.lossy e = false → s.fbit (R.ETH_CTL e) F.ETH_CTL_PFC_EN = true →
          exec (.ethFrameRx e f) s = .next (u.qpDrainAll e)
          ∧ (u.eth e).stopped = ((s.eth e).stopped - ((s.eth e).stopped &&& f.xon) ||| f.xoff) % 256)
      ∧ (Map.get { last := s.bwEnd } u.bw (B.eth e + 0x100)).a =
          ((Map.get { last := s.bwEnd } s.bw (B.eth e + 0x100)).a + f.bytes) % 2 ^ 64
      ∧ u = { s with bw := u.bw, regs := u.regs, eths := u.eths } ∧ SameRegs s u [regKey (R.ETH_STATUS e) F.ETH_STATUS_PFC_SEEN] := by
  have hx := exec_ethFrameRx hw hup
  rw [frameIn_of_pfc hd hp] at hx
  by_cases hi : s.lossy e = true ∨ s.fbit (R.ETH_CTL e) F.ETH_CTL_PFC_EN = false
  · refine ⟨(s.bwAdd (B.eth e + 0x100) 0 f.bytes).pfcSeen e, State.fget_fset_self _ _ _ _,
      fun _ => ⟨hx.trans (congrArg Host.Outcome.next (pfcIn_of_ignored hi)), rfl⟩, fun hl hp => ?_, rxBytes_bwAdd e f.bytes s, rfl,
      fun _ hk => State.find?_fset_ne _ _ (by simpa using hk)⟩
    simp [hl, hp] at hi
  · have hi' : s.lossy e = false ∧ s.fbit (R.ETH_CTL e) F.ETH_CTL_PFC_EN = true := by simpa using hi
    refine ⟨(s.bwAdd (B.eth e + 0x100) 0 f.bytes).pfcTaken e f, ?_, fun h => absurd h hi,
      fun _ _ => ⟨hx.trans (congrArg Host.Outcome.next (pfcIn_of_taken hi'.1 hi'.2)), ?_⟩, rxBytes_bwAdd e f.bytes s, rfl,
      fun k hk => ?_⟩
    · rw [State.pfcTaken, fget_setEth, State.pfcSeen, State.fget_fset_self]
      rfl
    · rw [State.pfcTaken, eth_setEth_self]
      rfl
    · rw [regs_pfcTaken, State.pfcSeen, State.find?_fset_ne _ _ (by simpa using hk)]
      rfl

/-! ### Frames that the port takes -/

theorem exec_frame_taken (hw : instrWf (.ethFrameRx e f) = true) (hup : s.ethUp e = true) (hd : frameDrops f = false)
    (hp : f.pfc = false) : exec (.ethFrameRx e f) s =
      .next ((((s.bwAdd (B.eth e + 0x100) 0 f.bytes).frameTaken e f).ceMark e f).ackTaken e f) :=
  (exec_ethFrameRx hw hup).trans (congrArg Host.Outcome.next (frameIn_of_taken hd hp))

theorem eth_frameTaken (e : Nat) (f : EthFrame) (s : State) : (s.frameTaken e f).eth e =
    { s.eth e with stamps := if f.ptpEvent then (s.eth e).stamps ++ [s.clk.tb] else (s.eth e).stamps,
                   raw := if f.roce then (s.eth e).raw else (s.eth e).raw ++ [f] } := eth_setEth_self _ _ _

theorem offEth_frameTaken (e : Nat) (f : EthFrame) (s : State) : (s.frameTaken e f).offEth = s.offEth := rfl
theorem regs_frameTaken (e : Nat) (f : EthFrame) (s : State) : (s.frameTaken e f).regs = s.regs := rfl
theorem qps_frameTaken (e : Nat) (f : EthFrame) (s : State) : (s.frameTaken e f).qps = s.qps := rfl

/-- What a CE mark leaves at the port. -/
theorem ceMark_keeps {β : Type} {v : State → β} (hr : ∀ (o : Nat) (g : Fld) (n : Nat) (s : State), v (s.fset o g n) = v s)
    (hq : ∀ (o : EthOut) (s : State), v (s.qpSend e f.qpn o) = v s) (s : State) : v (s.ceMark e f) = v s := by
  unfold State.ceMark
  split
  · exact (when_keeps (v := v) (hq .cnp) _).trans ((hr _ _ _ _).trans (hr _ _ _ _))
  · rfl

theorem rxBytes_qpSend (q : Nat) (o : EthOut) (s : State) : (s.qpSend e q o).rxBytes s.bwEnd e = s.rxBytes s.bwEnd e :=
  rxBytes_bwAdd_out e _ (s.setQp e q { s.qp e q with tx := (s.qp e q).tx ++ [{ out := o }] })

/-- The byte counters of a port with the end of the last second. -/
def State.rxView (s : State) (e : Nat) : Nat × Nat := (s.bwEnd, s.rxBytes s.bwEnd e)

theorem rxView_qpSend (q : Nat) (o : EthOut) (s : State) : (s.qpSend e q o).rxView e = s.rxView e :=
  congrArg (Prod.mk s.bwEnd) (rxBytes_qpSend q o s)

theorem rxView_ceMark (s : State) : (s.ceMark e f).rxView e = s.rxView e :=
  ceMark_keeps (v := (State.rxView · e)) (fun _ _ _ _ => rfl) (fun o s => rxView_qpSend _ o s) s

theorem offEth_ceMark (s : State) : (s.ceMark e f).offEth = s.offEth :=
  ceMark_keeps offEth_fset (fun o s => offEth_qpSend e _ o s) s

theorem eths_ceMark (s : State) : (s.ceMark e f).eths = s.eths := ceMark_keeps eths_fset (fun o s => eths_qpSend e _ o s) s

theorem ecn_ceSeen (e : Nat) (s : State) : (s.ceSeen e).fget (R.ETH_STATUS e) F.ETH_STATUS_ECN_SEEN = 1 := by
  have hk : regKey (R.ETH_STATUS e) F.ETH_STATUS_ECN_SEEN ≠ regKey (R.ETH_ERR e) F.ETH_ERR_ECN_CE :=
    regKey_ne_of_off (.inl (by simp only [R.ETH_STATUS, R.ETH_ERR]; omega)) (by decide) (by decide)
  rw [State.ceSeen, fget_fadd_ne hk, State.fget_fset_self]
  rfl

theorem ce_ceSeen (e : Nat) (s : State) : (s.ceSeen e).fget (R.ETH_ERR e) F.ETH_ERR_ECN_CE =
    min (s.fget (R.ETH_ERR e) F.ETH_ERR_ECN_CE + 1) (2 ^ F.ETH_ERR_ECN_CE.w - 1) := by
  have hk : regKey (R.ETH_ERR e) F.ETH_ERR_ECN_CE ≠ regKey (R.ETH_STATUS e) F.ETH_STATUS_ECN_SEEN :=
    regKey_ne_of_off (.inr (by simp only [R.ETH_STATUS, R.ETH_ERR]; omega)) (by decide) (by decide)
  rw [State.ceSeen, fget_fadd_self, State.fget_fset_ne _ _ hk]

theorem sameRegs_ceSeen (e : Nat) (s : State) :
    SameRegs s (s.ceSeen e) [regKey (R.ETH_STATUS e) F.ETH_STATUS_ECN_SEEN, regKey (R.ETH_ERR e) F.ETH_ERR_ECN_CE] :=
  (((OnlyRegs.refl s _).fset _ (by simp)).fadd _ (by simp)).2

theorem regs_ceMark_of_seen (hc : f.ce = true) (hl : s.lossy e = false) : (s.ceMark e f).regs = (s.ceSeen e).regs := by
  rw [ceMark_of_seen hc hl]
  exact when_keeps (v := State.regs) (fun s => regs_qpSend e _ .cnp s) _

theorem sameRegs_ceMark (s : State) :
    SameRegs s (s.ceMark e f) [regKey (R.ETH_STATUS e) F.ETH_STATUS_ECN_SEEN, regKey (R.ETH_ERR e) F.ETH_ERR_ECN_CE] := by
  intro k hk
  by_cases h : f.ce = false ∨ s.lossy e = true
  · rw [ceMark_of_ignored h]
  · have h' : f.ce = true ∧ s.lossy e = false := by simpa using h
    rw [regs_ceMark_of_seen h'.1 h'.2, sameRegs_ceSeen e s k hk]

theorem qp_ceSeen (e q : Nat) (s : State) : (s.ceSeen e).qp e q = s.qp e q := rfl

theorem tx_ceMark (hc : f.ce = true) (hl : s.lossy e = false) (hr : f.roce = true) :
    ((s.ceMark e f).qp e f.qpn).tx = (s.qp e f.qpn).tx ++ [{ out := .cnp }] := by
  rw [ceMark_of_seen hc hl, hr]
  exact (tx_qpSend e f.qpn .cnp (s.ceSeen e)).trans (by rw [qp_ceSeen])

/-- What a frame that the port takes leaves, an acknowledgement apart. -/
theorem taken_spec (hw : instrWf (.ethFrameRx e f) = true) (hup : s.ethUp e = true) (hd : frameDrops f = false) (hp : f.pfc = false) :
    ∃ u : State, exec (.ethFrameRx e f) s = .next (u.ackTaken e f)
      ∧ (u.eth e).stamps = (s.eth e).stamps ++ (if f.ptpEvent then [s.clk.tb] else [])
      ∧ (u.eth e).raw = (s.eth e).raw ++ (if f.roce then [] else [f])
      ∧ (f.ce = true → s.lossy e = false → u.fget (R.ETH_STATUS e) F.ETH_STATUS_ECN_SEEN = 1
          ∧ u.fget (R.ETH_ERR e) F.ETH_ERR_ECN_CE =
              min (s.fget (R.ETH_ERR e) F.ETH_ERR_ECN_CE + 1) (2 ^ F.ETH_ERR_ECN_CE.w - 1)
          ∧ (f.roce = true → (u.qp e f.qpn).tx = (s.qp e f.qpn).tx ++ [{ out := .cnp }]))
      ∧ ((f.ce = false ∨ s.lossy e = true) → u.regs = s.regs ∧ u.qps = s.qps)
      ∧ (Map.get { last := s.bwEnd } u.bw (B.eth e + 0x100)).a =
          ((Map.get { last := s.bwEnd } s.bw (B.eth e + 0x100)).a + f.bytes) % 2 ^ 64
      ∧ u = { s with bw := u.bw, regs := u.regs, eths := u.eths, qps := u.qps }
      ∧ SameRegs s u [regKey (R.ETH_STATUS e) F.ETH_STATUS_ECN_SEEN, regKey (R.ETH_ERR e) F.ETH_ERR_ECN_CE] := by
  have hx := exec_frame_taken hw hup hd hp
  have hb := rxBytes_bwAdd e f.bytes s
  generalize hy : (s.bwAdd (B.eth e + 0x100) 0 f.bytes).frameTaken e f = y at hx
  have hoff : y.offEth = s.offEth := by rw [← hy, offEth_frameTaken, offEth_bwAdd]
  have hregs : y.regs = s.regs := by
    rw [← hy, regs_frameTaken]
    rfl
  have hqps : y.qps = s.qps := by
    rw [← hy, qps_frameTaken]
    rfl
  have hqp (q : Nat) : y.qp e q = s.qp e q := congrArg (Map.get ({} : Qp) · (2 ^ 24 * e + q)) hqps
  have hfget (o : Nat) (g : Fld) : y.fget o g = s.fget o g := by rw [State.fget, hregs, State.fget]
  have hlossy : y.lossy e = s.lossy e := congrArg (· == 1) (hfget (R.ETH_CTL e) F.ETH_CTL_LOSSY)
  have heth : (y.ceMark e f).eth e = { s.eth e with
      stamps := if f.ptpEvent then (s.eth e).stamps ++ [s.clk.tb] else (s.eth e).stamps,
      raw := if f.roce then (s.eth e).raw else (s.eth e).raw ++ [f] } := by
    rw [eth_of_eths (eths_ceMark y), ← hy, eth_frameTaken]
    rfl
  refine ⟨y.ceMark e f, hx, ?_, ?_, fun hc hl => ⟨?_, ?_, fun hr => ?_⟩, fun h => ?_, ?_, eq_of_offEth ((offEth_ceMark y).trans hoff),
    fun k hk => ?_⟩
  · rw [heth]
    cases f.ptpEvent <;> simp
  · rw [heth]
    cases f.roce <;> simp
  · rw [State.fget, regs_ceMark_of_seen hc (hlossy.trans hl), ← State.fget, ecn_ceSeen]
  · rw [State.fget, regs_ceMark_of_seen hc (hlossy.trans hl), ← State.fget, ce_ceSeen, hfget]
  · rw [tx_ceMark hc (hlossy.trans hl) hr, hqp]
  · rw [ceMark_of_ignored (h.imp_right hlossy.trans)]
    exact ⟨hregs, hqps⟩
  · have hv : (y.ceMark e f).rxView e = (s.bwEnd, (s.rxBytes s.bwEnd e + f.bytes) % 2 ^ 64) := by
      rw [rxView_ceMark, ← hy]
      exact congrArg (Prod.mk s.bwEnd) hb
    obtain ⟨hend, hrx⟩ := Prod.mk.inj hv
    rw [hend] at hrx
    exact hrx
  · rw [sameRegs_ceMark y k hk, hregs]

end Frame

/-! ### Acknowledgements and packets sent again (R359) -/

theorem dropWhile_append_found {α : Type} (p : α → Bool) {l r : List α} {k : α} (hl : ∀ x ∈ l, p x = true) (hk : p k = false) :
    (l ++ k :: r).dropWhile p = k :: r := by
  induction l with
  | nil => simp [hk]
  | cons x l ih =>
    rw [List.cons_append, List.dropWhile_cons_of_pos (hl x (List.mem_cons_self ..)), ih fun y hy => hl y (List.mem_cons_of_mem _ hy)]

theorem qpAck_covers {psn : Nat} {l r : List EthPkt} {k : EthPkt} (h : (s.qp e q).unacked = l ++ k :: r) (hk : k.psn = some psn)
    (hl : ∀ x ∈ l, x.psn ≠ some psn) (hw : (s.qp e q).wait = []) : s.qpAck e q psn = s.setQp e q { s.qp e q with unacked := r } := by
  have hd : ((s.qp e q).unacked.dropWhile fun k => k.psn != some psn).drop 1 = r := by
    rw [h, dropWhile_append_found _ (fun x hx => by simpa using hl x hx) (by simp [hk])]
    rfl
  unfold State.qpAck
  dsimp only
  rw [if_pos (by simp [h, hk]), hd, hw]
  rfl

theorem qp_qpOut (e q : Nat) (k : EthPkt) (s : State) : (s.qpOut e q k).qp e q = { s.qp e q with tx := (s.qp e q).tx ++ [k] } :=
  qp_setQp_self e q { s.qp e q with tx := (s.qp e q).tx ++ [k] } s

/-- Packets leave on a queue pair in turn. -/
def State.qpOuts (s : State) (e q : Nat) (l : List EthPkt) : State := l.foldl (fun s k => s.qpOut e q k) s

theorem qp_qpOuts (e q : Nat) (l : List EthPkt) (s : State) : (s.qpOuts e q l).qp e q = { s.qp e q with tx := (s.qp e q).tx ++ l } := by
  induction l generalizing s with
  | nil => simp [State.qpOuts]
  | cons k l ih => rw [show s.qpOuts e q (k :: l) = (s.qpOut e q k).qpOuts e q l from rfl, ih, qp_qpOut, List.append_assoc]; rfl

theorem regs_qpOut (e q : Nat) (k : EthPkt) (s : State) : (s.qpOut e q k).regs = s.regs := rfl

theorem offEth_qpOut (e q : Nat) (k : EthPkt) (s : State) : (s.qpOut e q k).offEth = s.offEth := by
  rw [State.qpOut, offEth_bwAdd, offEth_setQp]

theorem eths_qpOut (e q : Nat) (k : EthPkt) (s : State) : (s.qpOut e q k).eths = s.eths := rfl

theorem qpOuts_keeps {β : Type} {v : State → β} (hv : ∀ k s, v (State.qpOut s e q k) = v s) (l : List EthPkt) (s : State) :
    v (s.qpOuts e q l) = v s := by
  have h := foldl_keeps (v := v) (f := fun (s : State) (k : EthPkt) => s.qpOut e q k) (fun s k => hv k s) l s
  exact h

/-- What is sent again on a queue pair, and counted. -/
def State.resent (s : State) (e q : Nat) (l : List EthPkt) : State :=
  ((s.setQp e q { s.qp e q with unacked := l }).qpOuts e q l).fadd (R.ETH_ERR e) F.ETH_ERR_RETX l.length

theorem qp_fset (o n : Nat) (g : Fld) (e q : Nat) (s : State) : (s.fset o g n).qp e q = s.qp e q := rfl
theorem regs_setQp (e q : Nat) (x : Qp) (s : State) : (s.setQp e q x).regs = s.regs := rfl
theorem eths_setQp (e q : Nat) (x : Qp) (s : State) : (s.setQp e q x).eths = s.eths := rfl

theorem qp_resent (e q : Nat) (l : List EthPkt) (s : State) :
    (s.resent e q l).qp e q = { s.qp e q with unacked := l, tx := (s.qp e q).tx ++ l } := by
  rw [State.resent, State.fadd, qp_fset, qp_qpOuts, qp_setQp_self]

theorem regs_resent (e q : Nat) (l : List EthPkt) (s : State) :
    (s.resent e q l).regs = (s.fadd (R.ETH_ERR e) F.ETH_ERR_RETX l.length).regs := by
  have h : ((s.setQp e q { s.qp e q with unacked := l }).qpOuts e q l).regs = s.regs := by
    rw [qpOuts_keeps (v := State.regs) fun k s => regs_qpOut e q k s, regs_setQp]
  simp only [State.resent, State.fadd, State.fset, State.fget, h]

theorem offEth_resent (e q : Nat) (l : List EthPkt) (s : State) : (s.resent e q l).offEth = s.offEth := by
  rw [State.resent, State.fadd, offEth_fset, qpOuts_keeps (v := State.offEth) fun k s => offEth_qpOut e q k s, offEth_setQp]

theorem eths_resent (e q : Nat) (l : List EthPkt) (s : State) : (s.resent e q l).eths = s.eths := by
  rw [State.resent, State.fadd, eths_fset, qpOuts_keeps (v := State.eths) fun k s => eths_qpOut e q k s, eths_setQp]

theorem exec_roceRetransmit {psn : Nat} (hw : instrWf (.roceRetransmit e q psn) = true) (hq : q < 16384)
    (ha : ((s.qp e q).unacked.any fun x => x.psn == some psn) = true) : exec (.roceRetransmit e q psn) s =
      .next (State.qpDrain e q (s.qp e q).wait.length (s.resent e q ((s.qp e q).unacked.dropWhile fun x => x.psn != some psn))) := by
  refine (State.runIf_true s hw _).trans ?_
  dsimp only
  rw [if_pos ⟨hq, ha⟩]
  rfl

theorem roceRetransmit_spec (psn : Nat) (l : List EthPkt) (hw : instrWf (.roceRetransmit e q psn) = true) (hq : q < 16384)
    (ha : ((s.qp e q).unacked.any fun x => x.psn == some psn) = true) (hl : l = (s.qp e q).unacked.dropWhile (fun x => x.psn != some psn)) :
    ∃ u : State, exec (.roceRetransmit e q psn) s = .next (State.qpDrain e q (s.qp e q).wait.length u)
      ∧ u.qp e q = { s.qp e q with unacked := l, tx := (s.qp e q).tx ++ l }
      ∧ u.fget (R.ETH_ERR e) F.ETH_ERR_RETX = min (s.fget (R.ETH_ERR e) F.ETH_ERR_RETX + l.length) (2 ^ F.ETH_ERR_RETX.w - 1)
      ∧ u = { s with regs := u.regs, qps := u.qps, bw := u.bw } ∧ SameRegs s u [regKey (R.ETH_ERR e) F.ETH_ERR_RETX] := by
  subst hl
  refine ⟨_, exec_roceRetransmit hw hq ha, qp_resent e q _ s, ?_, ?_, fun k hk => ?_⟩
  · rw [State.fget, regs_resent, ← State.fget, fget_fadd_self]
  · exact eq_of_offEth_eths (offEth_resent e q _ s) (eths_resent e q _ s)
  · rw [regs_resent, State.fadd, State.find?_fset_ne _ _ (by simpa using hk)]

/-! ### Congestion (R359) -/

/-- A congestion notification has been counted. -/
def State.cnpSeen (s : State) (e : Nat) : State := s.fadd (R.ETH_ERR e) F.ETH_ERR_CNP_RX 1

/-- The rate of a queue pair falls by ALPHA / 256 of itself. -/
def State.rateFalls (s : State) (e q : Nat) : State :=
  s.setQp e q { s.qp e q with rate := (s.qp e q).rate - (s.qp e q).rate * s.fget (R.ETH_CC e) F.ETH_CC_ALPHA / 256 }

theorem fget_cnpSeen {o : Nat} {g : Fld} (h : regKey o g ≠ regKey (R.ETH_ERR e) F.ETH_ERR_CNP_RX) : (s.cnpSeen e).fget o g = s.fget o g :=
  fget_fadd_ne h

theorem lossy_cnpSeen (e : Nat) (s : State) : (s.cnpSeen e).lossy e = s.lossy e := by
  have hk : regKey (R.ETH_CTL e) F.ETH_CTL_LOSSY ≠ regKey (R.ETH_ERR e) F.ETH_ERR_CNP_RX :=
    regKey_ne_of_off (.inl (by simp only [R.ETH_CTL, R.ETH_ERR]; omega)) (by decide) (by decide)
  rw [State.lossy, State.fbit, fget_cnpSeen hk, State.lossy, State.fbit]

theorem qp_cnpSeen (e q : Nat) (s : State) : (s.cnpSeen e).qp e q = s.qp e q := rfl

theorem exec_cnpRx (hw : instrWf (.cnpRx e q) = true) (hup : s.ethUp e = true) (hq : q < 16384) :
    exec (.cnpRx e q) s = .next (if s.lossy e then s.cnpSeen e else (s.cnpSeen e).rateFalls e q) := by
  have hn : ¬ qpCount ≤ q := Nat.not_le.2 hq
  refine (State.runIf_true s hw _).trans ?_
  rw [hup, if_neg (by decide), if_neg hn, ← lossy_cnpSeen e s]
  rfl

theorem cnpRx_spec (hw : instrWf (.cnpRx e q) = true) (hup : s.ethUp e = true) (hq : q < 16384) :
    ∃ u : State, exec (.cnpRx e q) s = .next u
      ∧ u.fget (R.ETH_ERR e) F.ETH_ERR_CNP_RX = min (s.fget (R.ETH_ERR e) F.ETH_ERR_CNP_RX + 1) (2 ^ F.ETH_ERR_CNP_RX.w - 1)
      ∧ u.qp e q = { s.qp e q with
          rate := if s.lossy e then (s.qp e q).rate
            else (s.qp e q).rate - (s.qp e q).rate * s.fget (R.ETH_CC e) F.ETH_CC_ALPHA / 256 }
      ∧ u = { s with regs := u.regs, qps := u.qps } ∧ SameRegs s u [regKey (R.ETH_ERR e) F.ETH_ERR_CNP_RX] := by
  have hx := exec_cnpRx hw hup hq
  have hregs : SameRegs s (s.cnpSeen e) [regKey (R.ETH_ERR e) F.ETH_ERR_CNP_RX] :=
    fun _ hk => State.find?_fset_ne _ _ (by simpa using hk)
  cases hl : s.lossy e with
  | true =>
    rw [hl, if_pos rfl] at hx
    exact ⟨s.cnpSeen e, hx, fget_fadd_self _, qp_cnpSeen e q s, rfl, hregs⟩
  | false =>
    rw [hl, if_neg (by decide)] at hx
    have hk : regKey (R.ETH_CC e) F.ETH_CC_ALPHA ≠ regKey (R.ETH_ERR e) F.ETH_ERR_CNP_RX :=
      regKey_ne_of_off (.inl (by simp only [R.ETH_CC, R.ETH_ERR]; omega)) (by decide) (by decide)
    refine ⟨(s.cnpSeen e).rateFalls e q, hx, fget_fadd_self (s := s) _, ?_, rfl, hregs⟩
    rw [State.rateFalls, qp_setQp_self, fget_cnpSeen hk, qp_cnpSeen, if_neg (by decide)]

theorem rateRecover_spec (hw : instrWf (.rateRecover e q) = true) (hq : q < 16384) (hl : s.lossy e = false) :
    exec (.rateRecover e q) s =
      .next (s.setQp e q { s.qp e q with rate := min 800000000000 ((s.qp e q).rate + 25000000000) }) := by
  have hr : lineRate / 32 = 25000000000 := by norm_num [lineRate]
  refine (State.runIf_true s hw _).trans ?_
  rw [if_pos ⟨hq, hl⟩, hr, lineRate]

/-! ### Packets that the DMA of a port serves (R348, R358) -/

/-- The work of a unit, tried: what its accesses need stands in the package from where it begins. -/
theorem workTry_eq (u : Nat) (f : State → State) (s : State) : s.workTry u f = f (s.workTry u id) := rfl

theorem roceIn_of_up (h : s.ethUp e = true) (f : Nat → State → State) :
    s.roceIn e q f = s.work (ethUnit e) fun s => s.qpContext e q f := if_pos h

/-- What is done with a packet whose queue pair's context can be read. -/
theorem workTry_qpContext {x : Nat} (f : Nat → State → State) (hq : q < 16384)
    (h : (s.workTry (ethUnit e) id).load (Reach.eth none e) (s.fget (R.ETH_QPC_BASE e) F.ETH_QPC_BASE_ADDR * 64 + 256 * q) 256 = (.ok x, t)) :
    s.workTry (ethUnit e) (fun s => s.qpContext e q f) = f x t := by
  have hn : q < qpCount := hq
  have hb : (s.workTry (ethUnit e) id).fget (R.ETH_QPC_BASE e) F.ETH_QPC_BASE_ADDR = s.fget (R.ETH_QPC_BASE e) F.ETH_QPC_BASE_ADDR := rfl
  rw [workTry_eq, State.qpContext, if_pos hn, hb, h]

section Send
variable {x : Nat} {l : List Nat}

theorem exec_roceSend (hw : instrWf (.roceSend e q l) = true) (hup : s.ethUp e = true) :
    exec (.roceSend e q l) s = .next (s.work (ethUnit e) fun s => s.qpContext e q (State.sendServe e q l)).collGo :=
  (State.runIf_true s hw _).trans (congrArg (fun y : State => Host.Outcome.next y.collGo) (roceIn_of_up hup _))

/-- A queue pair's user receives a payload. -/
def State.qpGets (s : State) (e q : Nat) (l : List Nat) : State := s.setQp e q { s.qp e q with rx := (s.qp e q).rx ++ [l] }

theorem sendServe_of_user (h : Config.qpUser x ≠ 0) : State.sendServe e q l x t = (t.qpSend e q .ack).qpGets e q l := if_neg h

theorem sendServe_of_engine (h : Config.qpUser x = 0) : State.sendServe e q l x t = (t.qpSend e q .ack).collSendIn e q l := if_pos h

theorem qp_qpSend (o : EthOut) : (t.qpSend e q o).qp e q = { t.qp e q with tx := (t.qp e q).tx ++ [{ out := o }] } :=
  qp_qpOut e q { out := o } t

theorem qp_qpGets : (t.qpGets e q l).qp e q = { t.qp e q with rx := (t.qp e q).rx ++ [l] } := qp_setQp_self _ _ _ _

/-- What a packet that is acknowledged and delivered leaves but for queue pairs and byte counters. -/
def State.offQp (s : State) : State := { s with qps := [], bw := [] }

theorem offQp_setQp (y : Qp) : (t.setQp e q y).offQp = t.offQp := rfl
theorem offQp_bwAdd (b d n : Nat) : (t.bwAdd b d n).offQp = t.offQp := rfl

theorem offQp_qpSend (o : EthOut) : (t.qpSend e q o).offQp = t.offQp := by rw [State.qpSend, State.qpOut, offQp_bwAdd, offQp_setQp]

theorem eq_of_offQp (h : t.offQp = s.offQp) : t = { s with qps := t.qps, bw := t.bw } :=
  congrArg (fun x : State => { x with qps := t.qps, bw := t.bw }) h

theorem sendServe_user (h : Config.qpUser x ≠ 0) :
    (State.sendServe e q l x t).qp e q = { t.qp e q with tx := (t.qp e q).tx ++ [{ out := .ack }], rx := (t.qp e q).rx ++ [l] }
      ∧ State.sendServe e q l x t = { t with qps := (State.sendServe e q l x t).qps, bw := (State.sendServe e q l x t).bw } := by
  rw [sendServe_of_user h]
  refine ⟨?_, eq_of_offQp ?_⟩
  · rw [qp_qpGets, qp_qpSend]
  · rw [State.qpGets, offQp_setQp, offQp_qpSend]

theorem sendServe_stot {slot : Nat} (h : Config.qpUser x = 0) (hs : Config.ethStot l = some slot) :
    State.sendServe e q l x t = (t.qpSend e q .ack).stotArrive (e / 4) none slot := by
  rw [sendServe_of_engine h, State.collSendIn, hs]

theorem collIn_qpSend (o : EthOut) : (t.qpSend e q o).collIn = t.collIn :=
  (congrArg State.collIn (offQp_qpSend o) : (t.qpSend e q o).offQp.collIn = t.offQp.collIn)

theorem sendServe_coll {g i p} (h : Config.qpUser x = 0) (hs : Config.ethStot l = none) (hc : Config.ethColl l = some (g, i, p)) :
    State.sendServe e q l x t =
      { t.qpSend e q .ack with collIn := t.collIn ++ [{ die := e / 4, group := g, at0 := i, part := p }] } := by
  rw [sendServe_of_engine h, State.collSendIn, hs]
  dsimp only
  rw [hc]
  dsimp only
  rw [collIn_qpSend]

end Send

section Write
variable {x a : Nat} {l : List Nat}

theorem exec_roceWrite (hw : instrWf (.roceWrite e q a l) = true) (hup : s.ethUp e = true) :
    exec (.roceWrite e q a l) s = .next (s.work (ethUnit e) fun s => s.qpContext e q (State.writeServe e q a l)) :=
  (State.runIf_true s hw _).trans (congrArg Host.Outcome.next (roceIn_of_up hup _))

theorem writeServe_refused (h : Config.qpRegion x a l.length = none) :
    State.writeServe e q a l x t = (t.ethDrop e).qpSend e q .accessError := by
  rw [State.writeServe, h]
  rfl

theorem writeServe_stored {p n : Nat} {s1 : State} (h : Config.qpRegion x a l.length = some p)
    (hs : t.store (Reach.eth (some p) e) a l.length (packCodes 8 l) = (.ok n, s1)) :
    State.writeServe e q a l x t = s1.qpSend e q .ack := by
  unfold State.writeServe
  rw [h]
  dsimp only
  rw [hs]

end Write

section Read
variable {x a n : Nat}

theorem exec_roceRead (hw : instrWf (.roceRead e q a n) = true) (hup : s.ethUp e = true) :
    exec (.roceRead e q a n) s = .next (s.work (ethUnit e) fun s => s.qpContext e q (State.readServe e q a n)) :=
  (State.runIf_true s hw _).trans (congrArg Host.Outcome.next (roceIn_of_up hup _))

theorem readServe_refused (h : Config.qpRegion x a n = none) :
    State.readServe e q a n x t = (t.ethDrop e).qpSend e q .accessError := by
  rw [State.readServe, h]
  rfl

/-- What fits in the path MTU leaves in one packet. -/
theorem mtuParts_of_le {l : List Nat} (h : l.length ≤ 4096) : mtuParts l = [(l, false)] := by
  have hn : max 1 ((l.length + mtu - 1) / mtu) = 1 := by
    simp only [mtu]
    omega
  unfold mtuParts
  rw [hn]
  simp [mtu, List.take_of_length_le h]

theorem readServe_loaded {p v : Nat} {s1 : State} (h : Config.qpRegion x a n = some p)
    (hl : t.load (Reach.eth (some p) e) a n = (.ok v, s1)) (hn : n ≤ 4096) :
    State.readServe e q a n x t =
      (s1.charge p 2 ((n + 63) / 64) 1).qpOut e q { out := .readData ((List.range n).map fun i => bits v (8 * i) 8) } := by
  unfold State.readServe
  rw [h]
  dsimp only
  rw [hl]
  dsimp only
  rw [State.readAnswer, mtuParts_of_le (by simpa using hn)]
  rfl

end Read

/-! ### Inbound device accesses (R363, R364) -/

section Pcie
variable {rp a b : Nat} {wr : Bool} {l : List Nat}

theorem exec_pcieInbound_msi {c : Nat} (hw : instrWf (.pcieInbound rp true a l) = true) (hc : Config.msiTarget rp a = some c) :
    exec (.pcieInbound rp true a l) s = .next ({ s with msis := s.msis ++ [(c, packCodes 8 l)] }.answer .ok 0) := by
  refine (State.runIf_true s hw _).trans ?_
  rw [hc]
  rfl

/-- No message-signalled interrupt: a read, or a write of another address. -/
theorem msi_none (h : wr = false ∨ Config.msiTarget rp a = none) : ((Config.msiTarget rp a).filter fun _ => wr) = none := by
  rcases h with h | h <;> simp [h]

theorem exec_pcieInbound_fault (hw : instrWf (.pcieInbound rp wr a l) = true) (hm : wr = false ∨ Config.msiTarget rp a = none)
    (hi : Config.iommu rp (Map.get [] s.pcieCfg rp) wr a = none) :
    exec (.pcieInbound rp wr a l) s = .next (s.answer .accessFault 0) := by
  refine (State.runIf_true s hw _).trans ?_
  rw [msi_none hm]
  dsimp only
  rw [hi]

theorem exec_pcieInbound_access (hw : instrWf (.pcieInbound rp wr a l) = true) (hm : wr = false ∨ Config.msiTarget rp a = none)
    (hi : Config.iommu rp (Map.get [] s.pcieCfg rp) wr a = some b) :
    exec (.pcieInbound rp wr a l) s = .next (s.work (rootUnit rp) fun s => s.rootAccess rp wr b l) := by
  refine (State.runIf_true s hw _).trans ?_
  rw [msi_none hm]
  dsimp only
  rw [hi]

theorem rootAccess_stored {n : Nat} (h : s.store (Reach.pcie rp) b l.length (packCodes 8 l) = (.ok n, t)) :
    s.rootAccess rp true b l = t.answer .ok 0 := by
  rw [State.rootAccess, if_pos rfl, h]

theorem rootAccess_loaded {v : Nat} (h : s.load (Reach.pcie rp) b l.length = (.ok v, t)) :
    s.rootAccess rp false b l = t.answer .ok v := by
  rw [State.rootAccess, if_neg (by decide), h]

theorem pcieInbound_spec (hw : instrWf (.pcieInbound rp wr a l) = true) :
    ∃ u : State, exec (.pcieInbound rp wr a l) s = .next u
      ∧ (∀ c, wr = true → Config.msiTarget rp a = some c → u = { s with msis := s.msis ++ [(c, packCodes 8 l)] }.answer .ok 0)
      ∧ ((wr = false ∨ Config.msiTarget rp a = none) →
          (Config.iommu rp (Map.get [] s.pcieCfg rp) wr a = none → u = s.answer .accessFault 0)
          ∧ ∀ b, Config.iommu rp (Map.get [] s.pcieCfg rp) wr a = some b →
              (s.workGoes (rootUnit rp) (fun _ => true) (fun s => s.rootAccess rp wr b l) = true →
                u = s.workDone (rootUnit rp) (fun _ => true) fun s => s.rootAccess rp wr b l)
              ∧ (∀ n t, wr = true → (s.workTry (rootUnit rp) id).store (Reach.pcie rp) b l.length (packCodes 8 l) = (.ok n, t) →
                  s.workTry (rootUnit rp) (fun s => s.rootAccess rp wr b l) = t.answer .ok 0)
              ∧ ∀ v t, wr = false → (s.workTry (rootUnit rp) id).load (Reach.pcie rp) b l.length = (.ok v, t) →
                  s.workTry (rootUnit rp) (fun s => s.rootAccess rp wr b l) = t.answer .ok v) := by
  by_cases hm : wr = false ∨ Config.msiTarget rp a = none
  · have hmsi (c : Nat) (hwr : wr = true) (hc : Config.msiTarget rp a = some c) : False := by simp [hwr, hc] at hm
    cases hi : Config.iommu rp (Map.get [] s.pcieCfg rp) wr a with
    | none =>
      exact ⟨_, exec_pcieInbound_fault hw hm hi, fun c hwr hc => (hmsi c hwr hc).elim,
        fun _ => ⟨fun _ => rfl, fun b hb => by cases hb⟩⟩
    | some b =>
      refine ⟨_, exec_pcieInbound_access hw hm hi, fun c hwr hc => (hmsi c hwr hc).elim, fun _ => ⟨fun h => (by cases h), ?_⟩⟩
      rintro b' ⟨⟩
      refine ⟨workIf_goes, fun n t hwr h => ?_, fun v t hwr h => ?_⟩
      · rw [workTry_eq, hwr, rootAccess_stored h]
      · rw [workTry_eq, hwr, rootAccess_loaded h]
  · obtain ⟨hwr, hc⟩ := not_or.1 hm
    obtain rfl : wr = true := by simpa using hwr
    obtain ⟨c, hc⟩ := Option.ne_none_iff_exists'.1 hc
    refine ⟨_, exec_pcieInbound_msi hw hc, fun c' _ hc' => ?_, fun h => absurd h hm⟩
    obtain rfl : c = c' := Option.some.inj (hc.symm.trans hc')
    rfl

end Pcie

/-- Settles O37: the links and frames of a port, acknowledgements, the packets that its DMA serves, congestion, and inbound
PCIe accesses. -/
theorem ethernetAndQueuePairs : Obligations.EthernetAndQueuePairs := by
  unfold Obligations.EthernetAndQueuePairs
  refine ⟨fun s e hw h => ethLinkDown_spec hw h, fun s e hw h => ethLinkUp_spec hw h,
    fun s e f hw hup => ⟨drop_spec hw hup, pfc_spec hw hup, fun hd hp => ?_⟩,
    fun s e q psn l r k h hk hl hw => qpAck_covers h hk hl hw,
    fun s t e q x l hw hup hq h => ⟨_, exec_roceSend hw hup, fun hg => congrArg State.collGo (workIf_goes hg), workTry_qpContext _ hq h,
      sendServe_user, fun hu slot => sendServe_stot hu, fun hu hs g i p => sendServe_coll hu hs⟩,
    fun s t e q x a l hw hup hq h => ⟨_, exec_roceWrite hw hup, workIf_goes, workTry_qpContext _ hq h, writeServe_refused,
      fun p n s1 => writeServe_stored⟩,
    fun s t e q x a n hw hup hq h => ⟨_, exec_roceRead hw hup, workIf_goes, workTry_qpContext _ hq h, readServe_refused,
      fun p v s1 => readServe_loaded⟩,
    fun s e q hw hup hq => cnpRx_spec hw hup hq, fun s e q hw hq hl => rateRecover_spec hw hq hl,
    fun s e q psn l hw hq ha hl => roceRetransmit_spec psn l hw hq ha hl, fun s rp a wr l hw => pcieInbound_spec hw⟩
  obtain ⟨u, hx, hu⟩ := taken_spec hw hup hd hp
  refine ⟨u, hx.trans (congrArg Host.Outcome.next ?_), hu⟩
  cases hr : f.roce <;> cases ha : f.ack <;> simp only [State.ackTaken, hr, ha]

end Sys2Proof.Machine
end

section
/-!
The number formats (O59): what the fields of a code say of its value, why a value on the grid of a format rounds to itself, and
that no finite code of a format lies above its largest.
-/

set_option Elab.async false

namespace Sys2Proof.Machine

variable {f : FF} {r : Rnd} {c e m e' m' : Nat}

/-! ### Codes and their values -/

/-- The integer significand of a code's exponent and fraction fields: the leading bit is there but for the lowest binade. -/
def FF.sig (f : FF) (e m : Nat) : Nat := if e = 0 then m else 2 ^ f.mb + m

theorem sig_zero (m : Nat) : f.sig 0 m = m := if_pos rfl

theorem sig_normal (h : e ≠ 0) (m : Nat) : f.sig e m = 2 ^ f.mb + m := if_neg h

theorem fraction_lt (f : FF) (c : Nat) : bits c 0 f.mb < 2 ^ f.mb := Nat.mod_lt _ (Nat.two_pow_pos _)

/-- A code without its sign is its exponent field above its fraction field. -/
theorem magBits_eq (f : FF) (c : Nat) : bits c 0 (f.eb + f.mb) = bits c f.mb f.eb * 2 ^ f.mb + bits c 0 f.mb := by
  rw [bits, bits, bits, Nat.add_comm f.eb, pow_add, Nat.mod_mul, Nat.shiftRight_zero, Nat.shiftRight_eq_div_pow]
  ring

/-- A code is its sign with the rest of its bits. -/
theorem signed_magBits (hc : c < 2 ^ f.width) : f.signed (bit c (f.eb + f.mb)) (bits c 0 (f.eb + f.mb)) = c := by
  have hw : 2 ^ f.width = 2 ^ (f.eb + f.mb) * 2 := by rw [FF.width, Nat.add_assoc, Nat.add_comm, pow_succ]
  have hs : c / 2 ^ (f.eb + f.mb) < 2 := Nat.div_lt_of_lt_mul (hw ▸ hc)
  have hd := Nat.div_add_mod c (2 ^ (f.eb + f.mb))
  rw [FF.signed, bit, bits, bits, Nat.shiftRight_zero, Nat.shiftRight_eq_div_pow, pow_one, Nat.mod_eq_of_lt hs]
  obtain h | h : c / 2 ^ (f.eb + f.mb) = 0 ∨ c / 2 ^ (f.eb + f.mb) = 1 := Nat.le_one_iff_eq_zero_or_eq_one.1 (Nat.le_of_lt_succ hs)
  · simpa [h] using hd
  · simpa [h, Nat.add_comm] using hd

/-- The value of a finite code (R75), both binades in one form. -/
theorem value_of_finite (h : (f.value c).nonfinite = false) :
    f.value c = .fin (bit c (f.eb + f.mb)) (f.sig (bits c f.mb f.eb) (bits c 0 f.mb)) (f.gmin + (bits c f.mb f.eb - 1 : Nat)) := by
  unfold FF.value at h ⊢
  dsimp only at h ⊢
  by_cases h0 : bits c f.mb f.eb = 0
  · simp [h0, sig_zero]
  · rw [if_neg h0] at h ⊢
    rw [sig_normal h0, Nat.cast_sub (Nat.one_le_iff_ne_zero.2 h0), Nat.cast_one]
    split at h
    · split at h <;> cases h
    · next hinf =>
      split at h
      · cases h
      · next hnan => rw [if_neg hinf, if_neg hnan]

/-! ### Rounding on the grid (R96) -/

/-- A rounding mode of R93, whose dither has 16 bits. -/
def Rnd.proper (r : Rnd) : Prop := r = .rne ∨ ∃ d, d < 65536 ∧ r = .sr d

/-- An integer rounds to itself. -/
theorem roundQ_one (hr : r.proper) (n : Nat) : roundQ r n 1 = n := by
  obtain rfl | ⟨d, hd, rfl⟩ := hr
  · simp [roundQ]
  · simp [roundQ, hd]

theorem asQ_self (m : Nat) (e : Int) : asQ m e e = (m, 1) := by simp [asQ]

/-- The grid step of a value of a format is the exponent that its code gives. -/
theorem grid_sig (hm : m < 2 ^ f.mb) (e : Nat) : f.grid (f.sig e m) (f.gmin + (e - 1 : Nat)) = f.gmin + (e - 1 : Nat) := by
  unfold FF.grid
  by_cases he : e = 0
  · subst he
    rw [sig_zero]
    split
    · simp
    · have : Nat.log2 m < f.mb := (Nat.log2_lt ‹_›).2 hm
      omega
  · rw [sig_normal he, if_neg (by positivity)]
    have : Nat.log2 (2 ^ f.mb + m) = f.mb := (Nat.log2_eq_iff (by positivity)).2 ⟨by omega, by rw [pow_succ]; omega⟩
    omega

/-- A value of a format rounds to its own code. -/
theorem roundMag_sig (hr : r.proper) (hm : m < 2 ^ f.mb) (e : Nat) :
    f.roundMag r (f.sig e m) (f.gmin + (e - 1 : Nat)) = e * 2 ^ f.mb + m := by
  unfold FF.roundMag
  dsimp only
  rw [grid_sig hm, asQ_self, roundQ_one hr, FF.encode, add_sub_cancel_left, Int.toNat_natCast]
  cases e with
  | zero => simp [sig_zero]
  | succ e =>
    rw [sig_normal e.succ_ne_zero, Nat.add_sub_cancel]
    ring

/-! ### The largest finite code (R94) -/

/-- Fields that do not exceed others in their order give no larger a magnitude. -/
theorem cmpMag_sig (hm : m < 2 ^ f.mb) (h : e * 2 ^ f.mb + m ≤ e' * 2 ^ f.mb + m') (hm' : m' < 2 ^ f.mb) :
    cmpMag (f.sig e m) (f.gmin + (e - 1 : Nat)) (f.sig e' m') (f.gmin + (e' - 1 : Nat)) ≠ .gt := by
  have he : e ≤ e' := by
    by_contra hlt
    have := Nat.mul_le_mul_right (2 ^ f.mb) (Nat.succ_le_of_lt (not_le.1 hlt))
    rw [Nat.succ_mul] at this
    omega
  rw [cmpMag, Nat.compare_ne_gt, min_eq_left (by omega), scaleTo, scaleTo, sub_self, Int.toNat_zero, Nat.shiftLeft_zero,
    Nat.shiftLeft_eq]
  obtain rfl | hlt := he.eq_or_lt
  · rw [sub_self, Int.toNat_zero, pow_zero, mul_one]
    unfold FF.sig
    split <;> omega
  · rw [sig_normal (by omega : e' ≠ 0)]
    have hk : (f.gmin + (e' - 1 : Nat) - (f.gmin + (e - 1 : Nat))).toNat = (e' - 1) - (e - 1) := by omega
    rw [hk]
    by_cases h0 : e = 0
    · subst h0
      rw [sig_zero]
      calc m ≤ 2 ^ f.mb + m' := by omega
        _ ≤ (2 ^ f.mb + m') * 2 ^ (e' - 1 - (0 - 1)) := Nat.le_mul_of_pos_right _ (Nat.two_pow_pos _)
    · rw [sig_normal h0]
      calc 2 ^ f.mb + m ≤ (2 ^ f.mb + m') * 2 ^ 1 := by omega
        _ ≤ (2 ^ f.mb + m') * 2 ^ (e' - 1 - (e - 1)) := Nat.mul_le_mul_left _ (Nat.pow_le_pow_right (by omega) (by omega))

/-- The formats of R74. -/
def FF.ofSpec (f : FF) : Prop := f = .e4m3 ∨ f = .e5m2 ∨ f = .bf16 ∨ f = .fp16 ∨ f = .b32

/-- The fields of a finite code above the lowest binade spell no infinity and no NaN (R75). -/
theorem fields_of_finite (h : (f.value c).nonfinite = false) (he : bits c f.mb f.eb ≠ 0) :
    (f.hasInf = true → bits c f.mb f.eb ≠ 2 ^ f.eb - 1) ∧ (f.hasInf = false → bits c 0 (f.eb + f.mb) ≠ f.nanCode) := by
  unfold FF.value at h
  dsimp only at h
  rw [if_neg he] at h
  constructor
  · intro hi hx
    rw [hi, hx] at h
    simp only [Bool.true_and, beq_self_eq_true, if_true] at h
    split at h <;> cases h
  · intro hi hx
    rw [hi, hx] at h
    simp [XVal.nonfinite, XVal.isNan] at h

/-- With infinities, the codes from that of the infinity on are not finite. -/
theorem magBits_lt_infCode (hi : f.hasInf = true) (hb : 0 < f.eb) (h : (f.value c).nonfinite = false) :
    bits c 0 (f.eb + f.mb) < f.infCode := by
  have hlt : bits c f.mb f.eb < 2 ^ f.eb := Nat.mod_lt _ (Nat.two_pow_pos _)
  have htwo : 2 ≤ 2 ^ f.eb := Nat.le_self_pow (by omega) 2
  have hne : bits c f.mb f.eb ≠ 2 ^ f.eb - 1 := by
    by_cases h0 : bits c f.mb f.eb = 0
    · omega
    · exact (fields_of_finite h h0).1 hi
  rw [magBits_eq, FF.infCode, Nat.shiftLeft_eq]
  calc bits c f.mb f.eb * 2 ^ f.mb + bits c 0 f.mb < (bits c f.mb f.eb + 1) * 2 ^ f.mb := by
        rw [Nat.succ_mul]; exact Nat.add_lt_add_left (fraction_lt f c) _
    _ ≤ (2 ^ f.eb - 1) * 2 ^ f.mb := Nat.mul_le_mul_right _ (by omega)

/-- E4M3 has one NaN, which is the code above its largest. -/
theorem magBits_le_e4m3 (h : (FF.e4m3.value c).nonfinite = false) : bits c 0 7 ≤ 0x7E := by
  have hlt : bits c 0 7 < 2 ^ 7 := Nat.mod_lt _ (Nat.two_pow_pos _)
  by_cases h0 : bits c 3 4 = 0
  · have heq : bits c 0 7 = bits c 3 4 * 2 ^ 3 + bits c 0 3 := magBits_eq FF.e4m3 c
    have hfr : bits c 0 3 < 2 ^ 3 := fraction_lt FF.e4m3 c
    omega
  · have : bits c 0 7 ≠ 0x7F := (fields_of_finite h h0).2 rfl
    omega

/-- No finite code of a format exceeds its largest, which is finite. -/
theorem magBits_le_maxCode (hf : f.ofSpec) (h : (f.value c).nonfinite = false) :
    bits c 0 (f.eb + f.mb) ≤ bits f.maxCode 0 (f.eb + f.mb) := by
  obtain rfl | rfl | rfl | rfl | rfl := hf
  · exact magBits_le_e4m3 h
  all_goals exact Nat.le_of_lt_succ (magBits_lt_infCode rfl (by decide) h)

theorem maxCode_finite (hf : f.ofSpec) : (f.value f.maxCode).nonfinite = false := by
  obtain rfl | rfl | rfl | rfl | rfl := hf <;> decide

/-- No finite value of a format lies above its largest. -/
theorem cmpMag_largest (hf : f.ofSpec) (h : (f.value c).nonfinite = false) :
    cmpMag (f.sig (bits c f.mb f.eb) (bits c 0 f.mb)) (f.gmin + (bits c f.mb f.eb - 1 : Nat)) f.largest.1 f.largest.2 ≠ .gt := by
  rw [FF.largest, value_of_finite (maxCode_finite hf)]
  refine cmpMag_sig (fraction_lt f c) ?_ (fraction_lt f _)
  rw [← magBits_eq, ← magBits_eq]
  exact magBits_le_maxCode hf h

/-! ### Conversion (R94) -/

theorem convert_above {m : Nat} {e : Int} (r : Rnd) (e4inf neg : Bool) (h : cmpMag m e f.largest.1 f.largest.2 = .gt) :
    f.convert r e4inf none (.fin neg m e) = { code := f.signed neg f.maxCode, cvtOvf := true, sat := true } := if_pos h

theorem convert_within {m : Nat} {e : Int} (r : Rnd) (e4inf neg : Bool) (h : cmpMag m e f.largest.1 f.largest.2 ≠ .gt) :
    f.convert r e4inf none (.fin neg m e) = { code := f.signed neg (f.roundMag r m e) } := if_neg h

/-- A finite code comes back from its value. -/
theorem convert_value (hf : f.ofSpec) (hr : r.proper) (e4inf : Bool) (hc : c < 2 ^ f.width) (h : (f.value c).nonfinite = false) :
    f.convert r e4inf none (f.value c) = { code := c } := by
  rw [value_of_finite h, convert_within r e4inf _ (cmpMag_largest hf h), roundMag_sig hr (fraction_lt f c), ← magBits_eq,
    signed_magBits hc]

/-! ### Saturated sums -/

/-- What is held to w bits is an integer of w bits, and the flag tells whether it was held. -/
theorem satInt_range (w : Nat) (i : Int) :
    -(2 ^ (w - 1) : Int) ≤ (satInt w i).1 ∧ (satInt w i).1 < 2 ^ (w - 1) ∧ ((satInt w i).2 = false ↔ (satInt w i).1 = i) := by
  have hp : (0 : Int) < 2 ^ (w - 1) := by positivity
  unfold satInt
  push_cast
  generalize (2 ^ (w - 1) : Int) = b at hp ⊢
  split
  · simp only [Bool.true_eq_false, false_iff]
    omega
  · split
    · simp only [Bool.true_eq_false, false_iff]
      omega
    · simp only [and_true]
      omega

/-- Settles O59: a value on the grid of its format rounds to itself, and no finite code lies above the largest. -/
theorem numberFormats : Obligations.NumberFormats := by
  unfold Obligations.NumberFormats
  refine ⟨fun f r e4inf c hf hr hc h => convert_value hf hr e4inf hc h, fun f r e4inf neg m e h => ?_,
    fun w i _ => satInt_range w i, fun seed tensor index step => Nat.mod_lt _ (Nat.two_pow_pos 16)⟩
  rw [convert_above r e4inf neg h]
  exact ⟨rfl, rfl⟩

end Sys2Proof.Machine
end

section
/-!
Instructions of the vector engine that issue (O16): what a step leaves of the package outside tiles, the rules of the flags, of the work in
every member and of the launch, and then the instructions.
-/

set_option Elab.async false

namespace Sys2Proof.Machine

variable {P Q : Nat → Prop} {s t u : State}

/-! ### The package outside tiles -/

theorem SameUnitsBut.refl (s : State) : SameUnitsBut P s s := ⟨rfl, fun _ _ _ => rfl⟩

theorem SameUnitsBut.trans (h1 : SameUnitsBut P s t) (h2 : SameUnitsBut P t u) : SameUnitsBut P s u :=
  ⟨h1.1.trans h2.1, fun k hk hp => (h2.2 k hk hp).trans (h1.2 k hk hp)⟩

theorem SameUnitsBut.mono (h : SameUnitsBut P s t) (hPQ : ∀ o, P o → Q o) : SameUnitsBut Q s t :=
  ⟨h.1, fun k hk hq => h.2 k hk fun hp => hq (hPQ _ hp)⟩

theorem SameUnits.but (h : SameUnits s t) : SameUnitsBut P s t := ⟨h.1, fun k hk _ => h.2 k hk⟩

theorem SameUnitsBut.tile (h : SameUnitsBut P s t) (v : Nat) : t.tile v = s.tile v := by rw [h.1]; rfl

/-- A field of a register that P names is set. -/
theorem sameUnitsBut_fset (s : State) {off : Nat} {f : Fld} (v : Nat) (hP : P off) (ho : off % 8 = 0) (hf : f.lo < 64) :
    SameUnitsBut P s (s.fset off f v) :=
  ⟨rfl, fun k _ hp => State.find?_fset_ne s v (by rintro rfl; exact hp (by rwa [keyReg_regKey ho hf]))⟩

theorem sameUnitsBut_when {b : Bool} {f : State → State} (h : SameUnitsBut P s (f s)) : SameUnitsBut P s (s.when b f) := by
  cases b
  · exact .refl s
  · exact h

/-- Tiles apart, everything but registers that P names, and what memory accesses and events touch, is the same. -/
def SameOffTiles (P : Nat → Prop) (s t : State) : Prop := SameUnitsBut P { s with tiles := t.tiles } t

theorem SameUnitsBut.offTiles (h : SameUnitsBut P s t) : SameOffTiles P s t := by
  have ht : t.tiles = s.tiles := by rw [h.1]
  rw [SameOffTiles, ht]
  exact h

theorem SameRest.withTiles (h : SameRest { s with tiles := t.tiles } t) (x : Map Tile) :
    SameRest { s with tiles := x } { t with tiles := x } := by
  unfold SameRest
  exact congrArg (fun y : State => { y with tiles := x }) h

theorem SameOffTiles.trans (h1 : SameOffTiles P s t) (h2 : SameOffTiles P t u) : SameOffTiles P s u :=
  ⟨(h1.1.withTiles u.tiles).trans h2.1, fun k hk hp => (h2.2 k hk hp).trans (h1.2 k hk hp)⟩

theorem SameOffTiles.mono (h : SameOffTiles P s t) (hPQ : ∀ o, P o → Q o) : SameOffTiles Q s t := SameUnitsBut.mono h hPQ

theorem sameOffTiles_refl (s : State) : SameOffTiles P s s := SameUnitsBut.refl s

theorem sameOffTiles_setTile (s : State) (v : Nat) (x : Tile) : SameOffTiles P s (s.setTile v x) := .refl _

theorem sameOffTiles_modTile (s : State) (v : Nat) (f : Tile → Tile) : SameOffTiles P s (s.modTile v f) := .refl _

theorem tile_modTile_self (s : State) (v : Nat) (f : Tile → Tile) : (s.modTile v f).tile v = f (s.tile v) :=
  State.tile_setTile_self ..

theorem tile_modTile_ne (s : State) {v w : Nat} (f : Tile → Tile) (h : w ≠ v) : (s.modTile v f).tile w = s.tile w :=
  State.tile_setTile_ne s _ h

/-! ### Sticky flags (R149) -/

theorem vstatus_aligned (v : Nat) : R.TIL_VSTATUS v % 8 = 0 := by
  simp only [R.TIL_VSTATUS, B.til, B.hrd, B.die]
  omega

/-- Setting the flags of a tile touches its flag register, and what performance counters touch. -/
theorem sameUnitsBut_setVflags (s : State) (v fl : Nat) : SameUnitsBut (· = R.TIL_VSTATUS v) s (s.setVflags v fl) := by
  have hset (s : State) (i : Nat) (f : Fld) (hf : f.lo < 64) :
      SameUnitsBut (· = R.TIL_VSTATUS v) s (s.when (bit fl i) fun s => s.fset (R.TIL_VSTATUS v) f 1) :=
    sameUnitsBut_when (sameUnitsBut_fset s 1 rfl (vstatus_aligned v) hf)
  have hcount (s : State) (code n : Nat) : SameUnitsBut (· = R.TIL_VSTATUS v) s (s.pmcTile v code n) :=
    ((sameUnits_pmcTile v code n).2 (.refl s)).but
  exact (hset s 0 F.TIL_VSTATUS_CVT_OVF (by decide)).trans <| (hset _ 1 F.TIL_VSTATUS_CVT_INVALID (by decide)).trans <|
    (hset _ 2 F.TIL_VSTATUS_ARITH_OVF (by decide)).trans <| (hset _ 3 F.TIL_VSTATUS_ARITH_INVALID (by decide)).trans <|
    (hset _ 4 F.TIL_VSTATUS_PERM_RANGE (by decide)).trans <| (hcount _ 0x0F _).trans (hcount _ 0x10 _)

theorem tile_setVflags (s : State) (v fl w : Nat) : (s.setVflags v fl).tile w = s.tile w := (sameUnitsBut_setVflags s v fl).tile w

/-! ### Work in every member of a gang (R130) -/

/-- The flag registers of members. -/
def memberFlags (r : Run) (o : Nat) : Prop := ∃ m ∈ r.members, o = R.TIL_VSTATUS m

/-- The work of a tile function in the member with a place. -/
def State.memberWork (s : State) (r : Run) (f : Nat → Tile → Tile × Nat) (k : Nat) : State :=
  let v := r.members.getD k 0
  (s.setTile v (f k (s.tile v)).1).setVflags v (f k (s.tile v)).2

section Members
variable {r : Run} {f : Nat → Tile → Tile × Nat} {k n : Nat}

theorem getD_members_mem (hk : k < r.members.length) : r.members.getD k 0 ∈ r.members := by
  rw [List.getD_eq_getElem _ _ hk]
  exact List.getElem_mem hk

theorem getD_members_inj (hn : r.members.Nodup) (hk : k < r.members.length) (hl : n < r.members.length)
    (h : r.members.getD k 0 = r.members.getD n 0) : k = n := by
  rw [List.getD_eq_getElem _ _ hk, List.getD_eq_getElem _ _ hl] at h
  exact (List.Nodup.getElem_inj_iff hn).1 h

theorem tile_memberWork_self (s : State) (r : Run) (f : Nat → Tile → Tile × Nat) (k : Nat) :
    (s.memberWork r f k).tile (r.members.getD k 0) = (f k (s.tile (r.members.getD k 0))).1 :=
  (tile_setVflags ..).trans (State.tile_setTile_self ..)

theorem tile_memberWork_ne (s : State) (f : Nat → Tile → Tile × Nat) {v : Nat} (h : v ≠ r.members.getD k 0) :
    (s.memberWork r f k).tile v = s.tile v := (tile_setVflags ..).trans (State.tile_setTile_ne _ _ h)

theorem sameOffTiles_memberWork (s : State) (f : Nat → Tile → Tile × Nat) (hk : k < r.members.length) :
    SameOffTiles (memberFlags r) s (s.memberWork r f k) :=
  (sameOffTiles_setTile _ _ _).trans
    ((sameUnitsBut_setVflags _ _ _).offTiles.mono fun _ ho => ⟨_, getD_members_mem hk, ho⟩)

/-- The work of a tile function in the first n members. -/
def State.firstMembers (s : State) (r : Run) (f : Nat → Tile → Tile × Nat) (n : Nat) : State :=
  forRange n (fun k s => s.memberWork r f k) s

theorem firstMembers_succ (s : State) (r : Run) (f : Nat → Tile → Tile × Nat) (n : Nat) :
    s.firstMembers r f (n + 1) = (s.firstMembers r f n).memberWork r f n := forRange_succ ..

theorem vecMembers_eq (s : State) (r : Run) (f : Nat → Tile → Tile × Nat) : s.vecMembers r f = s.firstMembers r f r.members.length := rfl

/-- Members whose turn has come hold what the function makes of them, and the others what they held. -/
theorem tile_firstMembers (hn : r.members.Nodup) (s : State) (f : Nat → Tile → Tile × Nat) (hl : n ≤ r.members.length)
    (hk : k < r.members.length) :
    (s.firstMembers r f n).tile (r.members.getD k 0) =
      if k < n then (f k (s.tile (r.members.getD k 0))).1 else s.tile (r.members.getD k 0) := by
  induction n with
  | zero => rfl
  | succ n ih =>
    have ih := ih (by omega)
    rw [firstMembers_succ]
    by_cases h : k = n
    · subst h
      rw [tile_memberWork_self, ih, if_neg (lt_irrefl k), if_pos (Nat.lt_succ_self k)]
    · rw [tile_memberWork_ne _ _ fun e => h (getD_members_inj hn hk hl e), ih]
      simp only [show k < n + 1 ↔ k < n by omega]

theorem tile_firstMembers_ne (s : State) (f : Nat → Tile → Tile × Nat) {v : Nat} (hv : v ∉ r.members) (hl : n ≤ r.members.length) :
    (s.firstMembers r f n).tile v = s.tile v := by
  induction n with
  | zero => rfl
  | succ n ih =>
    rw [firstMembers_succ, tile_memberWork_ne _ _ fun e => hv (by rw [e]; exact getD_members_mem hl), ih (by omega)]

theorem sameOffTiles_firstMembers (s : State) (f : Nat → Tile → Tile × Nat) (hl : n ≤ r.members.length) :
    SameOffTiles (memberFlags r) s (s.firstMembers r f n) := by
  induction n with
  | zero => exact sameOffTiles_refl s
  | succ n ih =>
    rw [firstMembers_succ]
    exact (ih (by omega)).trans (sameOffTiles_memberWork _ f hl)

/-- Every member holds what the function makes of it. -/
theorem tile_vecMembers (hn : r.members.Nodup) (s : State) (f : Nat → Tile → Tile × Nat) (hk : k < r.members.length) :
    (s.vecMembers r f).tile (r.members.getD k 0) = (f k (s.tile (r.members.getD k 0))).1 := by
  rw [vecMembers_eq, tile_firstMembers hn s f le_rfl hk, if_pos hk]

theorem tile_vecMembers_ne (s : State) (f : Nat → Tile → Tile × Nat) {v : Nat} (hv : v ∉ r.members) :
    (s.vecMembers r f).tile v = s.tile v := tile_firstMembers_ne s f hv le_rfl

theorem sameOffTiles_vecMembers (s : State) (r : Run) (f : Nat → Tile → Tile × Nat) :
    SameOffTiles (memberFlags r) s (s.vecMembers r f) := sameOffTiles_firstMembers s f le_rfl

/-- Work on the data of members leaves what runs on a tile. -/
theorem run_vecMembers (hn : r.members.Nodup) (s : State) (hf : ∀ k x, (f k x).1.run = x.run) (v : Nat) :
    ((s.vecMembers r f).tile v).run = (s.tile v).run := by
  by_cases hv : v ∈ r.members
  · obtain ⟨k, hk, rfl⟩ := List.mem_iff_getElem.1 hv
    rw [← List.getD_eq_getElem _ 0 hk, tile_vecMembers hn s f hk, hf]
  · rw [tile_vecMembers_ne s f hv]

end Members

/-! ### Launch (R170, R184, R185, R462) -/

section Launch
variable {r r' : Run} {e : Engine} {x : TIns}

@[simp] theorem flights_setFlights (r : Run) (e : Engine) (l : List Flight) : (r.setFlights e l).flights e = l := by cases e <;> rfl

theorem creds_setFlights (r : Run) (e : Engine) (l : List Flight) : (r.setFlights e l).creds = r.creds := by cases e <;> rfl

/-- A credit that has room is given, and nothing in flight differs. -/
theorem give_one {p n : Nat} {c : Engine} (h : (r.give p [(c, n)]).isSome = true) (hc : r'.creds = r.creds) :
    ∃ r2, r'.give p [(c, n)] = some r2 ∧ ∀ e, r2.flights e = r'.flights e := by
  have hcred : r'.cred p (engineCode c) = r.cred p (engineCode c) := by rw [Run.cred, Run.cred, hc]
  simp only [Run.give, hcred] at h ⊢
  split at h
  · cases h
  · rw [if_neg ‹_›]
    exact ⟨_, rfl, fun e => by cases e <;> rfl⟩

/-- What a launch that has room for its early credit leaves: a tag that finds no room is counted (R462), and the tile runs on. -/
def State.launchedAs (s : State) (v : Nat) (dropped : Bool) (tags : Nat) (r : Run) : State :=
  ((s.when dropped fun s => s.fadd (R.PMC_SMP_PTR v) F.PMC_SMP_PTR_DROPPED 1).modTile v fun y =>
    { y with sampFlight := y.sampFlight + tags }).modTile v fun y => { y with run := some r }

theorem launched_eq {v idx eaddr : Nat} (hr : (s.tile v).run = some r) (he : tinsEngine x = some e) (hp : PostFits r e (tinsPost x)) :
    ∃ dropped tags r' f, s.launched v idx x eaddr = s.launchedAs v dropped tags r' ∧ r'.flights e = r.flights e ++ [f] ∧ f.idx = idx := by
  unfold State.launched State.launch
  rw [hr, he]
  dsimp only
  split
  · obtain ⟨r2, hg, hf⟩ := give_one (hp ‹_›) (creds_setFlights r e _)
    rw [hg]
    exact ⟨_, _, r2, _, rfl, (hf e).trans (flights_setFlights ..), rfl⟩
  · exact ⟨_, _, _, _, rfl, flights_setFlights .., rfl⟩

theorem tile_whenDropped (s : State) (v w : Nat) (b : Bool) :
    (s.when b fun s => s.fadd (R.PMC_SMP_PTR v) F.PMC_SMP_PTR_DROPPED 1).tile w = s.tile w := by cases b <;> rfl

theorem tile_launchedAs_self (s : State) (v : Nat) (b : Bool) (n : Nat) (r : Run) :
    (s.launchedAs v b n r).tile v = { s.tile v with sampFlight := (s.tile v).sampFlight + n, run := some r } := by
  rw [State.launchedAs, tile_modTile_self, tile_modTile_self, tile_whenDropped]

theorem tile_launchedAs_ne (s : State) {v w : Nat} (b : Bool) (n : Nat) (r : Run) (h : w ≠ v) :
    (s.launchedAs v b n r).tile w = s.tile w := by
  rw [State.launchedAs, tile_modTile_ne _ _ h, tile_modTile_ne _ _ h, tile_whenDropped]

theorem SameData.refl (y : Tile) : SameData y y := ⟨rfl, rfl, rfl, rfl, rfl, rfl, rfl⟩

/-- A launch leaves what instructions compute with. -/
theorem sameData_launchedAs (s : State) (v : Nat) (b : Bool) (n : Nat) (r : Run) (w : Nat) :
    SameData (s.tile w) ((s.launchedAs v b n r).tile w) := by
  by_cases h : w = v
  · subst h
    rw [tile_launchedAs_self]
    exact .refl _
  · rw [tile_launchedAs_ne s b n r h]
    exact .refl _

theorem sampPtr_aligned (v : Nat) : R.PMC_SMP_PTR v % 8 = 0 := by
  simp only [R.PMC_SMP_PTR, B.til, B.hrd, B.die]
  omega

theorem sameOffTiles_launchedAs (s : State) (v : Nat) (b : Bool) (n : Nat) (r : Run) :
    SameOffTiles (· = R.PMC_SMP_PTR v) s (s.launchedAs v b n r) :=
  have hdrop (s : State) : SameUnitsBut (· = R.PMC_SMP_PTR v) s (s.fadd (R.PMC_SMP_PTR v) F.PMC_SMP_PTR_DROPPED 1) :=
    sameUnitsBut_fset s _ rfl (sampPtr_aligned v) (by decide)
  (sameUnitsBut_when (hdrop s)).offTiles.trans <| (sameOffTiles_modTile _ _ _).trans (sameOffTiles_modTile _ _ _)

end Launch

/-! ### Issue on the vector engine -/

section Issue
variable {r : Run} {x : TIns} {idx : Nat}

theorem members_issue (r : Run) (idx : Nat) (x : TIns) : (r.issue idx x).members = r.members := by
  unfold Run.issue
  dsimp only
  split <;> rfl

theorem flights_issue (r : Run) (idx : Nat) (x : TIns) (e : Engine) : (r.issue idx x).flights e = r.flights e := by
  unfold Run.issue
  dsimp only
  split <;> cases e <;> rfl

theorem issueOr_of_issues {v : Nat} (h : Issues s v idx x r) (f g : Run → State → State) :
    s.issueOr v idx x f g = f (r.issue idx x) (s.issuedAt v idx x r) := by
  obtain ⟨hr, hi⟩ := h
  unfold State.issueOr
  rw [hr]
  exact if_pos hi

theorem tile_issuedAt_self (s : State) (v idx : Nat) (x : TIns) (r : Run) :
    (s.issuedAt v idx x r).tile v = { s.tile v with run := some (r.issue idx x) } := tile_modTile_self ..

/-- The package once an instruction has done its work in every member, and is in flight. -/
def State.vectorAt (s : State) (v idx : Nat) (x : TIns) (r : Run) (f : Nat → Tile → Tile × Nat) (eaddr : Nat) : State :=
  ((s.issuedAt v idx x r).vecMembers (r.issue idx x) f).launched v idx x eaddr

/-- Work that leaves what runs on a tile is done in every member, its instruction is in flight, and the frame of the vector engine
holds. -/
theorem vectorAt_spec {v : Nat} (hn : r.members.Nodup) (he : tinsEngine x = some .vector)
    (hp : PostFits (r.issue idx x) .vector (tinsPost x)) {f : Nat → Tile → Tile × Nat} (hf : ∀ k y, (f k y).1.run = y.run)
    (s : State) (eaddr : Nat) :
    WritesTiles (s.issuedAt v idx x r) (s.vectorAt v idx x r f eaddr) r (fun k y => (f k y).1)
      ∧ InFlight (s.vectorAt v idx x r f eaddr) v r .vector idx (fun _ => True) ∧ TileFrame s (s.vectorAt v idx x r f eaddr) v r := by
  have hm := members_issue r idx x
  have hn' : (r.issue idx x).members.Nodup := hm ▸ hn
  have hrun : (((s.issuedAt v idx x r).vecMembers (r.issue idx x) f).tile v).run = some (r.issue idx x) := by
    rw [run_vecMembers hn' _ hf, tile_issuedAt_self]
  obtain ⟨b, n, r', fl, hu, hfl, hidx⟩ := launched_eq (idx := idx) (eaddr := eaddr) hrun he hp
  rw [State.vectorAt, hu]
  refine ⟨fun k hk => ?_, ⟨r', fl, ?_, ?_, hidx, trivial⟩, fun w hw hwm => ?_, ?_⟩
  · rw [← hm] at hk ⊢
    dsimp only
    rw [← tile_vecMembers hn' _ f hk]
    exact sameData_launchedAs ..
  · rw [tile_launchedAs_self]
  · rw [hfl, flights_issue]
  · rw [tile_launchedAs_ne _ b n r' hw, tile_vecMembers_ne _ f (hm ▸ hwm)]
    exact tile_modTile_ne _ _ hw
  · refine SameOffTiles.trans (sameOffTiles_modTile s v _) (.trans
      ((sameOffTiles_vecMembers _ (r.issue idx x) f).mono ?_) ((sameOffTiles_launchedAs _ v b n r').mono fun _ h => .inr h))
    rintro o ⟨m, hmem, rfl⟩
    exact .inl ⟨m, hm ▸ hmem, .inl rfl⟩

/-- An instruction of the vector engine whose data stops nothing and that posts no credit. -/
theorem vector_spec {v : Nat} {c : Instr} {g : NumCtx → Tile → Tile × Nat} (hw : instrWf c = true)
    (hx : exec c s = s.runIf (instrWf c) (s.vector v idx x g)) (hi : Issues s v idx x r) (hn : r.members.Nodup)
    (he : tinsEngine x = some .vector) (hp : (tinsPost x).en = false) (hg : ∀ n y, (g n y).1.run = y.run) :
    ∃ u : State, exec c s = .next u
      ∧ WritesTiles (s.issuedAt v idx x r) u r (fun _ y => (g ((s.issuedAt v idx x r).numCtx v (r.issue idx x)) y).1)
      ∧ InFlight u v r .vector idx (fun _ => True) ∧ TileFrame s u v r :=
  ⟨_, hx.trans ((State.runIf_true s hw _).trans (congrArg Host.Outcome.next (issueOr_of_issues hi _ _))),
    vectorAt_spec hn he (fun h => by simp [hp] at h) (fun _ y => hg _ y) s 0⟩

end Issue

/-! ### What tile functions leave of a tile -/

theorem run_foldl {α : Type} {g : Tile → α → Tile} (h : ∀ y a, (g y a).run = y.run) (l : List α) (y : Tile) :
    (l.foldl g y).run = y.run := by
  induction l generalizing y with
  | nil => rfl
  | cons a l ih => exact (ih _).trans (h y a)

theorem run_putRstat (n : Nat) (ws : List Wr) (y : Tile) (q : Nat) : (putRstat n ws y q).run = y.run := by
  unfold putRstat
  split <;> rfl

theorem run_writeRegAs (y : Tile) (n : Nat) (ws : List Wr) (code : Wr → Nat) : (y.writeRegAs n ws code).run = y.run :=
  (run_foldl (run_putRstat n ws) _ _).trans (run_foldl (g := fun y w => y.setTreg n w.r w.c (code w)) (fun _ _ => rfl) ws y)

theorem run_putReg (y : Tile) (n : Nat) (ws : List Wr) : (y.putReg n ws).1.run = y.run := run_writeRegAs y n ws _

theorem run_mergeRec (y : Tile) (w : View) (bi bj st : Nat) : (y.mergeRec w bi bj st).run = y.run := by
  unfold Tile.mergeRec
  split <;> rfl

theorem run_setView (y : Tile) (w : View) (i j : Nat) (o : Out) : (y.setView w i j o).run = y.run := by
  unfold Tile.setView
  split
  · exact run_mergeRec ..
  · rfl

theorem run_putView (y : Tile) (w : View) (i j : Nat) (ws : List Wr) : (y.putView w i j ws).1.run = y.run :=
  run_foldl (fun _ _ => run_setView ..) ws y

theorem run_paddApply (n : NumCtx) (y : Tile) (o : VecOps) : (paddApply n y o).1.run = y.run :=
  (run_writeRegAs ..).trans (run_putReg ..)

theorem run_redApply (n : NumCtx) (y : Tile) (o : RedOps) (op : RedOp) : (redApply n y o op).1.run = y.run := by
  unfold redApply
  cases o.axis
  · exact run_putReg ..
  · exact run_putReg ..
  · rfl

theorem run_redFn (op : RedKind) (o : RedOps) (n : NumCtx) (y : Tile) : (redFn op o n y).1.run = y.run := by
  cases op
  · exact run_redApply ..
  · exact run_putReg ..
  · exact run_putReg ..

theorem run_cvtApply (n : NumCtx) (y : Tile) (views : List View) (o : CvtOps) : (cvtApply n y views o).1.run = y.run := by
  unfold cvtApply
  split
  · split
    · exact run_putView ..
    · rfl
  · exact run_putReg ..

theorem sval_setScalar (y : Tile) (n v st : Nat) : (y.setScalar n v st).sval n = v % 2 ^ 32 := by
  rw [Tile.sval, Tile.setScalar, Map.get_put_self, bits, Nat.shiftRight_zero, Nat.add_mul_mod_self_left, Nat.mod_mod]

/-- A reduction over all of the active area writes its scalar and nothing else (R146). -/
theorem redApply_all (n : NumCtx) (y : Tile) {o : RedOps} (op : RedOp) (h : o.axis = .all) :
    ∃ st, (redApply n y o op).1 = y.setScalar o.dst (redRes y o op 32 .rne (area o.vr o.vl)).code st := by
  unfold redApply
  rw [h]
  exact ⟨_, rfl⟩

/-! ### The instructions -/

theorem red_spec {c : Instr} {k : RedKind} {v idx : Nat} {o : RedOps} {r : Run} (hw : instrWf c = true)
    (hx : exec c s = s.runIf (instrWf c) (s.vector v idx (.red k o) (redFn k o))) (hi : Issues s v idx (.red k o) r)
    (hn : r.members.Nodup) :
    ∃ u : State, exec c s = .next u
      ∧ WritesTiles (s.issuedAt v idx (.red k o) r) u r
          (fun _ y => (redFn k o ((s.issuedAt v idx (.red k o) r).numCtx v (r.issue idx (.red k o))) y).1)
      ∧ InFlight u v r .vector idx (fun _ => True) ∧ TileFrame s u v r :=
  vector_spec hw hx hi hn rfl rfl (run_redFn k o)

theorem exec_cvt {v idx : Nat} {o : CvtOps} {r : Run} (hw : instrWf (.cvt v idx o) = true) (hi : Issues s v idx (.cvt o) r)
    (hb : (s.issuedAt v idx (.cvt o) r).cvtBad idx o (r.issue idx (.cvt o)) = false) :
    exec (.cvt v idx o) s = .next (s.vectorAt v idx (.cvt o) r ((s.issuedAt v idx (.cvt o) r).cvtFn v idx o (r.issue idx (.cvt o)))
      (cvtEaddr ((r.issue idx (.cvt o)).viewsAt idx 0) o)) := by
  refine (State.runIf_true s hw _).trans (congrArg Host.Outcome.next ((issueOr_of_issues hi _ _).trans ?_))
  rw [hb]
  rfl

/-- Settles O16: each instruction of the vector engine issues as its tile function in every member, followed by its launch. -/
theorem vectorReductionsAndConversion : Obligations.VectorReductionsAndConversion := by
  unfold Obligations.VectorReductionsAndConversion
  refine ⟨fun s t idx o r hw hi hn => vector_spec hw rfl hi hn rfl rfl (fun n y => run_paddApply n y o),
    fun s t idx o r hw hi hn => red_spec hw rfl hi hn, fun s t idx o r hw hi hn => red_spec hw rfl hi hn,
    fun s t idx o r hw hi hn => red_spec hw rfl hi hn, fun s t idx o r hw hi hn => red_spec hw rfl hi hn,
    fun s t idx o r hw hi hn => red_spec hw rfl hi hn, fun s t idx o r hw hi hn => red_spec hw rfl hi hn,
    fun s t idx o r hw hi hn => red_spec hw rfl hi hn, fun s t idx o r hw hi hn => red_spec hw rfl hi hn,
    fun s t idx o r hw hi hn => red_spec hw rfl hi hn, fun n x o op ha => ?_,
    fun s t idx o r hw hi hn hb hp => ⟨_, exec_cvt hw hi hb, vectorAt_spec hn rfl hp (fun _ y => run_cvtApply _ y _ o) s _⟩⟩
  obtain ⟨st, h⟩ := redApply_all n x op ha
  rw [h]
  exact ⟨sval_setScalar .., rfl, rfl, rfl⟩

end Sys2Proof.Machine
end

section
/-!
MMUL (O18): what the array makes of one member, the members in turn, and the instruction as it issues.
-/

set_option Elab.async false

namespace Sys2Proof.Machine

variable {P Q : Nat → Prop} {s t u : State}

/-! ### The package outside tiles and partitions -/

/-- Tiles and partitions apart, everything but registers that P names, and what memory accesses and events touch, is the same. -/
def SameOffParts (P : Nat → Prop) (s t : State) : Prop := SameUnitsBut P { s with tiles := t.tiles, parts := t.parts } t

theorem SameOffTiles.offParts (h : SameOffTiles P s t) : SameOffParts P s t := by
  have hp : t.parts = s.parts := by rw [h.1]
  rw [SameOffParts, hp]
  exact h

theorem SameRest.withParts (h : SameRest { s with tiles := t.tiles, parts := t.parts } t) (x : Map Tile) (y : Map Part) :
    SameRest { s with tiles := x, parts := y } { t with tiles := x, parts := y } := by
  unfold SameRest
  exact congrArg (fun z : State => { z with tiles := x, parts := y }) h

theorem SameOffParts.trans (h1 : SameOffParts P s t) (h2 : SameOffParts P t u) : SameOffParts P s u :=
  ⟨(h1.1.withParts u.tiles u.parts).trans h2.1, fun k hk hp => (h2.2 k hk hp).trans (h1.2 k hk hp)⟩

theorem SameOffParts.mono (h : SameOffParts P s t) (hPQ : ∀ o, P o → Q o) : SameOffParts Q s t := SameUnitsBut.mono h hPQ

theorem sameOffParts_refl (s : State) : SameOffParts P s s := SameUnitsBut.refl s

/-- A register that P does not name, and that is none of a unit, reads as before. -/
theorem SameOffParts.fget (h : SameOffParts P s t) {off : Nat} {f : Fld} (ho : off % 8 = 0) (hf : f.lo < 64) (hu : ¬ unitReg off)
    (hP : ¬ P off) : t.fget off f = s.fget off f := by
  have hk := h.2 (regKey off f) (by rwa [keyReg_regKey ho hf]) (by rwa [keyReg_regKey ho hf])
  simp only [State.fget, Map.get, hk]

/-! ### Registers of tiles -/

/-- The first 4 KiB of the registers of a tile hold none that units write. -/
theorem not_unitReg_til (v : Nat) {d : Nat} (hd : d < 0x1000) : ¬ unitReg (B.til v + d) := by
  have hlow : 0x41000000 ≤ B.til v := by simp only [B.til, B.hrd, B.die]; omega
  rintro ((⟨x, hx, h⟩ | ⟨p, i, hp, hi, h⟩ | ⟨k, hk, h | h | h⟩ | ⟨x, hx, h | h⟩ | ⟨i, hi, h⟩ | ⟨x, i, hx, hi, h⟩)
    | h | h | h | h | ⟨n, w, hn, hw, h⟩ | ⟨x, i, hi, h | h | h | h⟩)
  case inl.inr.inr.inl.inl | inl.inr.inr.inl.inr.inl | inl.inr.inr.inl.inr.inr =>
    simp only [R.COH_STAT, R.COH_SF, R.COH_BUSY, B.coh, B.til, B.hrd, B.die] at h
    split at h <;> omega
  case inl.inr.inr.inr.inl.inl | inl.inr.inr.inr.inl.inr =>
    simp only [errReg, errAddrReg, B.unit, B.stk, B.cap, B.til, B.hrd, B.die] at h
    split at h <;> omega
  all_goals
    simp only [R.PLC_RMC_STAT, B.plcDie, R.PLC_REG_LVL, R.LIF_CNT, R.LIF_HIST, R.FLT_LOG_PTR, R.FLT_ERRCNT, R.PKG_EVQ_PTR,
      R.PKG_PMC_CTL, R.FLT_LOG, R.PMC_TEVT, R.PMC_HEVT, B.til, B.hrd, B.die] at h hlow
    omega

theorem mmaStatus_aligned (v : Nat) : R.TIL_MMA_STATUS v % 8 = 0 := by
  simp only [R.TIL_MMA_STATUS, B.til, B.hrd, B.die]
  omega

theorem mmaStatus_inj {v w : Nat} (h : R.TIL_MMA_STATUS v = R.TIL_MMA_STATUS w) : v = w := by
  simp only [R.TIL_MMA_STATUS, B.til, B.hrd, B.die] at h
  omega

theorem mmaStatus_ne_vstatus (v w : Nat) : R.TIL_MMA_STATUS v ≠ R.TIL_VSTATUS w := by
  simp only [R.TIL_MMA_STATUS, R.TIL_VSTATUS, B.til, B.hrd, B.die]
  omega

theorem mmaStatus_ne_smpPtr (v w : Nat) : R.TIL_MMA_STATUS w ≠ R.PMC_SMP_PTR v := by
  simp only [R.PMC_SMP_PTR, R.TIL_MMA_STATUS, B.til, B.hrd, B.die]
  omega

/-- The flags and the array status of a tile. -/
def mmulReg (v o : Nat) : Prop := o = R.TIL_VSTATUS v ∨ o = R.TIL_MMA_STATUS v

theorem le_of_mmulReg {v o : Nat} (h : mmulReg v o) : 0x900000 ≤ o := by
  rcases h with rfl | rfl <;> simp only [R.TIL_VSTATUS, R.TIL_MMA_STATUS, B.til, B.hrd, B.die] <;> omega

/-! ### What the numeric context of a run reads (R102, R105) -/

/-- What a dither takes from the running context: the seed of its job and its step. -/
def Slot.dither (c : Slot) : Nat × Nat := (c.seed, if c.step.live then c.step.step else c.released.getD 0)

/-- Two packages give the segments of every herd the same seed and step. -/
def SameDither (s t : State) : Prop :=
  (∀ h, t.partOfHerd h = s.partOfHerd h) ∧ ∀ p, (t.running p).map Slot.dither = (s.running p).map Slot.dither

theorem SameDither.refl (s : State) : SameDither s s := ⟨fun _ => rfl, fun _ => rfl⟩

theorem SameDither.trans (h1 : SameDither s t) (h2 : SameDither t u) : SameDither s u :=
  ⟨fun h => (h2.1 h).trans (h1.1 h), fun p => (h2.2 p).trans (h1.2 p)⟩

theorem slotOfRun_eq (s : State) (v : Nat) : s.slotOfRun v = (s.partOfHerd (v / 12)).bind s.running := by
  unfold State.slotOfRun State.ctxOfHerd
  cases s.partOfHerd (v / 12) with
  | none => rfl
  | some p => cases h : s.running p <;> simp [h]

theorem numCtx_eq (s : State) (v : Nat) (r : Run) :
    s.numCtx v r = { seed := ((s.slotOfRun v).map Slot.dither).elim 0 Prod.fst, step := ((s.slotOfRun v).map Slot.dither).elim 0 Prod.snd,
                     srEn := bit r.numctl 1, e4inf := bit r.numctl 0 } := by
  unfold State.numCtx
  cases s.slotOfRun v <;> rfl

theorem SameDither.slotOfRun (h : SameDither s t) (v : Nat) :
    (t.slotOfRun v).map Slot.dither = (s.slotOfRun v).map Slot.dither := by
  rw [slotOfRun_eq, slotOfRun_eq, h.1]
  cases s.partOfHerd (v / 12) with
  | none => rfl
  | some p => exact h.2 p

theorem SameDither.numCtx (h : SameDither s t) (v : Nat) (r : Run) : t.numCtx v r = s.numCtx v r := by
  rw [numCtx_eq, numCtx_eq, h.slotOfRun]

/-- What partitions hold, and the registers that map herds to them, decide what dithers take. -/
theorem SameDither.of_parts (hp : t.parts = s.parts) (hr : ∀ p, p < 8 → t.herdsOf p = s.herdsOf p) : SameDither s t := by
  refine ⟨fun h => ?_, fun p => ?_⟩
  · unfold State.partOfHerd firstUpTo
    exact List.find?_congr fun p hm => by rw [hr p (List.mem_range.1 hm)]
  · simp only [State.running, State.slot?, State.part, hp]

theorem SameOffTiles.dither (h : SameOffTiles P s t) (hP : ∀ o, P o → 0x900000 ≤ o) : SameDither s t := by
  refine .of_parts (by rw [h.1]) fun p hp => ?_
  have hlo : 0x800000 ≤ R.SCH_PART p ∧ R.SCH_PART p < 0x900000 ∧ R.SCH_PART p % 8 = 0 := by
    simp only [R.SCH_PART, B.sch]
    omega
  obtain ⟨hge, hlt, ho⟩ := hlo
  exact h.offParts.fget ho (by decide) (not_unitReg (.inr ⟨hge, hlt⟩)) fun hx => absurd (hP _ hx) (by omega)

/-- Counting in a register of a context changes nothing that dithers take. -/
theorem SameDither.modSlot (s : State) (p k : Nat) {f : Slot → Slot} (hf : ∀ c, (f c).dither = c.dither) :
    SameDither s (s.modSlot p k f) := by
  unfold State.modSlot
  cases hc : s.slot? p k with
  | none => exact .refl s
  | some c =>
    refine ⟨fun _ => rfl, fun q => ?_⟩
    have hrun : ((s.setSlot p k (f c)).part q).run = (s.part q).run := by
      by_cases hq : q = p
      · rw [hq, State.setSlot, State.part_setPart_self]
      · rw [State.setSlot, State.part_setPart_ne _ _ hq]
    have hslot (j : Nat) : ((s.setSlot p k (f c)).slot? q j).map Slot.dither = (s.slot? q j).map Slot.dither := by
      by_cases hq : q = p ∧ j = k
      · rw [hq.1, hq.2, State.slot?_setSlot_self, hc]
        exact congrArg some (hf c)
      · rw [State.slot?_setSlot_ne _ _ hq]
    unfold State.running
    rw [hrun]
    cases (s.part q).run with
    | none => rfl
    | some j => exact hslot j

/-! ### The status of the array (R115, R122, R127) -/

theorem bit_setBits_self (x k : Nat) (b : Bool) : bit (setBits x k 1 (b2n b)) k = b := by
  have h := Nat.div_add_mod x (2 ^ k)
  have hb : bit (setBits x k 1 (b2n b)) k = ((x - x / 2 ^ k % 2 * 2 ^ k + b2n b % 2 * 2 ^ k) / 2 ^ k % 2 == 1) := by
    simp [bit, bits, setBits, Nat.shiftRight_eq_div_pow, Nat.shiftLeft_eq]
  rw [hb, Nat.add_mul_div_right _ _ (Nat.two_pow_pos k), Nat.mul_comm _ (2 ^ k), Nat.sub_mul_div]
  cases b <;> simp only [b2n, Bool.false_eq_true, if_true, if_false, beq_iff_eq, beq_eq_false_iff_ne] <;> omega

theorem bit_mod_two_pow {x w k : Nat} (h : k < w) : bit (x % 2 ^ w) k = bit x k := by
  rw [bit_eq_testBit, bit_eq_testBit, Nat.testBit_mod_two_pow, decide_eq_true h, Bool.true_and]

theorem sameUnitsBut_mmaFlags (s : State) (v : Nat) (o : MmulOps) (d : MmaDone) :
    SameUnitsBut (· = R.TIL_MMA_STATUS v) s (s.mmaFlags v o d) := by
  have hset (f : Fld) (x : Nat) (hf : f.lo < 64) (s : State) :
      SameUnitsBut (· = R.TIL_MMA_STATUS v) s (s.fset (R.TIL_MMA_STATUS v) f x) :=
    sameUnitsBut_fset s x rfl (mmaStatus_aligned v) hf
  unfold State.mmaFlags
  exact (hset F.TIL_MMA_STATUS_SET_VALID _ (by decide) s).trans <|
    (sameUnitsBut_when (hset F.TIL_MMA_STATUS_SET_DRAINING _ (by decide) _)).trans <|
    (sameUnitsBut_when (hset F.TIL_MMA_STATUS_IN_NONFINITE 1 (by decide) _)).trans <|
    sameUnitsBut_when ((hset F.TIL_MMA_STATUS_INT_SAT 1 (by decide) _).trans (hset F.TIL_MMA_STATUS_SAT_COUNT _ (by decide) _))

/-- The set is valid after an MMUL without output, and invalid after one with output (R115). -/
theorem setValid_mmaFlags (s : State) (v : Nat) {o : MmulOps} (d : MmaDone) (ho : o.set < 2) :
    (s.mmaFlags v o d).setValid v o.set = (o.okind == .none) := by
  have hne (f : Fld) (x : Nat) (hf : F.TIL_MMA_STATUS_SET_VALID.lo ≠ f.lo) (s : State) :
      (s.fset (R.TIL_MMA_STATUS v) f x).fget (R.TIL_MMA_STATUS v) F.TIL_MMA_STATUS_SET_VALID
        = s.fget (R.TIL_MMA_STATUS v) F.TIL_MMA_STATUS_SET_VALID := State.fget_fset_ne s x (regKey_ne_of_lo hf)
  have hkept : (s.mmaFlags v o d).fget (R.TIL_MMA_STATUS v) F.TIL_MMA_STATUS_SET_VALID =
      setBits (s.fget (R.TIL_MMA_STATUS v) F.TIL_MMA_STATUS_SET_VALID) o.set 1 (b2n (!(o.okind != .none))) % 2 ^ 2 := by
    refine (when_keeps (v := fun s => s.fget _ F.TIL_MMA_STATUS_SET_VALID) (fun s => ?_) _).trans <|
      (when_keeps (v := fun s => s.fget _ F.TIL_MMA_STATUS_SET_VALID) (hne F.TIL_MMA_STATUS_IN_NONFINITE 1 (by decide)) _).trans <|
      (when_keeps (v := fun s => s.fget _ F.TIL_MMA_STATUS_SET_VALID) (fun s => ?_) _).trans (State.fget_fset_self ..)
    · exact (hne F.TIL_MMA_STATUS_SAT_COUNT _ (by decide) _).trans (hne F.TIL_MMA_STATUS_INT_SAT 1 (by decide) _)
    · exact hne F.TIL_MMA_STATUS_SET_DRAINING _ (by decide) _
  rw [State.setValid, hkept, bit_mod_two_pow ho, bit_setBits_self]
  cases o.okind <;> rfl

/-! ### Statistics (R221, R222) -/

/-- Statistics apart, two packages are the same: the units of one run, and counts in contexts. -/
structure StatsOnly (v : Nat) (s t : State) : Prop where
  tile : ∀ w, w ≠ v → t.tile w = s.tile w
  data : SameData (s.tile v) (t.tile v)
  run : ∀ r, (s.tile v).run = some r → ∃ st, (t.tile v).run = some { r with stats := st }
  regs : t.regs = s.regs
  rest : SameRest { s with tiles := t.tiles, parts := t.parts } t
  dither : SameDither s t

theorem StatsOnly.refl (v : Nat) (s : State) : StatsOnly v s s :=
  ⟨fun _ _ => rfl, .refl _, fun r h => ⟨r.stats, h⟩, rfl, rfl, .refl s⟩

theorem statsOnly_when {v : Nat} {b : Bool} {f : State → State} (h : StatsOnly v s (f s)) : StatsOnly v s (s.when b f) := by
  cases b
  · exact .refl v s
  · exact h

/-- The statistics units of a run are replaced. -/
theorem statsOnly_modTile {v : Nat} {r : Run} (hr : (s.tile v).run = some r) (st : Map (List StatRec)) :
    StatsOnly v s (s.modTile v fun y => { y with run := some { r with stats := st } }) where
  tile _ hw := tile_modTile_ne s _ hw
  data := by
    rw [tile_modTile_self]
    exact .refl _
  run r' hr' := by
    cases hr.symm.trans hr'
    exact ⟨st, by rw [tile_modTile_self]⟩
  regs := rfl
  rest := rfl
  dither := .of_parts rfl fun _ _ => rfl

theorem modSlot_eq (s : State) (p k : Nat) (f : Slot → Slot) : ∃ y, s.modSlot p k f = { s with parts := y } := by
  unfold State.modSlot
  split
  · exact ⟨_, rfl⟩
  · exact ⟨s.parts, rfl⟩

/-- A count in a context is no datum of a tile. -/
theorem StatsOnly.modSlot {v : Nat} (h : StatsOnly v s t) (p k off : Nat) (f : Fld) (n : Nat) :
    StatsOnly v s (t.modSlot p k fun c => c.fadd off f n) := by
  have hd := SameDither.modSlot t p k (f := fun c => c.fadd off f n) fun _ => rfl
  obtain ⟨y, hy⟩ := modSlot_eq t p k fun c => c.fadd off f n
  rw [hy] at hd ⊢
  exact ⟨h.tile, h.data, h.run, h.regs, h.rest.withParts _ _, h.dither.trans hd⟩

theorem statsOnly_mmaStats (s : State) (v idx : Nat) (o : MmulOps) (p : PSlot) (m w : Nat) (r : Run) :
    StatsOnly v s (s.mmaStats v idx o p m w r) := by
  unfold State.mmaStats
  split
  · exact .refl v s
  · dsimp only
    split
    · exact (statsOnly_modTile ‹_› _).modSlot ..
    · exact statsOnly_modTile ‹_› _

theorem StatsOnly.offParts {v : Nat} (h : StatsOnly v s t) : SameOffParts P s t := ⟨h.rest, fun _ _ _ => by rw [h.regs]⟩

theorem SameData.trans {x y z : Tile} (h1 : SameData x y) (h2 : SameData y z) : SameData x z := by
  obtain ⟨a1, b1, c1, d1, e1, f1, g1⟩ := h1
  obtain ⟨a2, b2, c2, d2, e2, f2, g2⟩ := h2
  exact ⟨a2.trans a1, b2.trans b1, c2.trans c1, d2.trans d1, e2.trans e1, f2.trans f1, g2.trans g1⟩

theorem StatsOnly.sameData {v : Nat} (h : StatsOnly v s t) (w : Nat) : SameData (s.tile w) (t.tile w) := by
  by_cases hw : w = v
  · exact hw ▸ h.data
  · rw [h.tile w hw]
    exact .refl _

theorem StatsOnly.setValid {v : Nat} (h : StatsOnly v s t) (w set : Nat) : t.setValid w set = s.setValid w set := by
  rw [State.setValid, State.setValid, State.fget, State.fget, h.regs]

/-! ### One member -/

section Member
variable {v idx m w x : Nat} {o : MmulOps} {p : PSlot} {r : Run} {lead : Tile}

/-- What the array leaves of a member, statistics apart. -/
def State.mmulData (s : State) (w : Nat) (o : MmulOps) (d : MmaDone) : State :=
  ((s.setTile w { d.tile with run := (s.tile w).run }).setVflags w d.flags).mmaFlags w o d

theorem sameOffTiles_mmulData (s : State) (w : Nat) (o : MmulOps) (d : MmaDone) : SameOffTiles (mmulReg w) s (s.mmulData w o d) :=
  (sameOffTiles_setTile _ _ _).trans <| ((sameUnitsBut_setVflags _ _ _).offTiles.mono fun _ => .inl).trans
    ((sameUnitsBut_mmaFlags _ _ _ _).offTiles.mono fun _ => .inr)

theorem tile_mmulData_self (s : State) (w : Nat) (o : MmulOps) (d : MmaDone) :
    (s.mmulData w o d).tile w = { d.tile with run := (s.tile w).run } := by
  rw [State.mmulData, (sameUnitsBut_mmaFlags ..).tile, tile_setVflags, State.tile_setTile_self]

theorem tile_mmulData_ne (s : State) (o : MmulOps) (d : MmaDone) (h : x ≠ w) : (s.mmulData w o d).tile x = s.tile x := by
  rw [State.mmulData, (sameUnitsBut_mmaFlags ..).tile, tile_setVflags, State.tile_setTile_ne _ _ h]

theorem run_mmulData (s : State) (w : Nat) (o : MmulOps) (d : MmaDone) (x : Nat) :
    ((s.mmulData w o d).tile x).run = (s.tile x).run := by
  by_cases h : x = w
  · rw [h, tile_mmulData_self]
  · rw [tile_mmulData_ne s o d h]

/-- What the array makes of a member, given its place (R131). -/
def State.mmaOf (s : State) (v idx : Nat) (o : MmulOps) (r : Run) (lead : Tile) (m : Nat) (y : Tile) : MmaDone :=
  mmaRun (s.numCtx v r) lead y (r.viewsAt idx 0) (r.viewsAt idx m) o (r.slotOf idx (.mmul o)) m

/-- An MMUL in the member with a place. -/
def State.mmulAt (s : State) (v idx : Nat) (o : MmulOps) (r : Run) (lead : Tile) (m : Nat) : State :=
  s.mmulMember v idx o (r.slotOf idx (.mmul o)) r lead m (r.members.getD m 0)

/-- A member holds what the array makes of it; statistics follow. -/
theorem statsOnly_mmulAt (s : State) (v idx : Nat) (o : MmulOps) (r : Run) (lead : Tile) (m : Nat) :
    StatsOnly v (s.mmulData (r.members.getD m 0) o (s.mmaOf v idx o r lead m (s.tile (r.members.getD m 0))))
      (s.mmulAt v idx o r lead m) := by
  unfold State.mmulAt State.mmulMember
  exact statsOnly_when (statsOnly_mmaStats ..)

theorem sameData_mmulAt_self (s : State) (v idx : Nat) (o : MmulOps) (r : Run) (lead : Tile) (m : Nat) :
    SameData (s.mmaOf v idx o r lead m (s.tile (r.members.getD m 0))).tile ((s.mmulAt v idx o r lead m).tile (r.members.getD m 0)) := by
  have h := (statsOnly_mmulAt s v idx o r lead m).sameData (r.members.getD m 0)
  rw [tile_mmulData_self] at h
  exact h

theorem sameData_mmulAt_ne (h : x ≠ r.members.getD m 0) : SameData (s.tile x) ((s.mmulAt v idx o r lead m).tile x) := by
  have hs := (statsOnly_mmulAt s v idx o r lead m).sameData x
  rwa [tile_mmulData_ne _ _ _ h] at hs

theorem tile_mmulAt_ne (h : x ≠ r.members.getD m 0) (hv : x ≠ v) : (s.mmulAt v idx o r lead m).tile x = s.tile x :=
  ((statsOnly_mmulAt s v idx o r lead m).tile x hv).trans (tile_mmulData_ne _ _ _ h)

theorem run_mmulAt (s : State) (v idx : Nat) (o : MmulOps) (r : Run) (lead : Tile) (m : Nat) {now : Run} (h : (s.tile v).run = some now) :
    ∃ st, ((s.mmulAt v idx o r lead m).tile v).run = some { now with stats := st } :=
  (statsOnly_mmulAt s v idx o r lead m).run now (by rw [run_mmulData, h])

theorem dither_mmulAt (s : State) (v idx : Nat) (o : MmulOps) (r : Run) (lead : Tile) (m : Nat) :
    SameDither s (s.mmulAt v idx o r lead m) :=
  ((sameOffTiles_mmulData _ _ _ _).dither fun _ => le_of_mmulReg).trans (statsOnly_mmulAt s v idx o r lead m).dither

theorem sameOffParts_mmulAt (s : State) (v idx : Nat) (o : MmulOps) (r : Run) (lead : Tile) (m : Nat) :
    SameOffParts (mmulReg (r.members.getD m 0)) s (s.mmulAt v idx o r lead m) :=
  (sameOffTiles_mmulData _ _ _ _).offParts.trans (statsOnly_mmulAt s v idx o r lead m).offParts

theorem setValid_mmulAt_self (s : State) (v idx : Nat) (r : Run) (lead : Tile) (m : Nat) (ho : o.set < 2) :
    (s.mmulAt v idx o r lead m).setValid (r.members.getD m 0) o.set = (o.okind == .none) :=
  ((statsOnly_mmulAt s v idx o r lead m).setValid _ _).trans (setValid_mmaFlags _ _ _ ho)

/-- A package that differs in registers of other tiles has the same sets valid. -/
theorem SameOffParts.setValid (h : SameOffParts P s t) (hP : ¬ P (R.TIL_MMA_STATUS x)) (set : Nat) :
    t.setValid x set = s.setValid x set := by
  rw [State.setValid, State.setValid, h.fget (mmaStatus_aligned x) (by decide) (not_unitReg_til x (by decide)) hP]

theorem setValid_mmulAt_ne (h : x ≠ r.members.getD m 0) (set : Nat) :
    (s.mmulAt v idx o r lead m).setValid x set = s.setValid x set := by
  refine (sameOffParts_mmulAt s v idx o r lead m).setValid ?_ set
  rintro (hx | hx)
  · exact mmaStatus_ne_vstatus _ _ hx
  · exact h (mmaStatus_inj hx)

end Member

/-! ### The members in turn (R130, R131) -/

section Members
variable {v idx n k : Nat} {o : MmulOps} {r : Run}

/-- An MMUL in the first n members; A is what the lead held before it. -/
def State.mmulFirst (s : State) (v idx : Nat) (o : MmulOps) (r : Run) (n : Nat) : State :=
  forRange n (fun m w => w.mmulAt v idx o r (s.tile v) m) s

theorem mmulFirst_succ (s : State) (v idx : Nat) (o : MmulOps) (r : Run) (n : Nat) :
    s.mmulFirst v idx o r (n + 1) = (s.mmulFirst v idx o r n).mmulAt v idx o r (s.tile v) n := forRange_succ ..

theorem dither_mmulFirst (s : State) (v idx : Nat) (o : MmulOps) (r : Run) (n : Nat) : SameDither s (s.mmulFirst v idx o r n) := by
  induction n with
  | zero => exact .refl s
  | succ n ih =>
    rw [mmulFirst_succ]
    exact ih.trans (dither_mmulAt ..)

theorem run_mmulFirst (hr : (s.tile v).run = some r) (idx : Nat) (o : MmulOps) (n : Nat) :
    ∃ st, ((s.mmulFirst v idx o r n).tile v).run = some { r with stats := st } := by
  induction n with
  | zero => exact ⟨r.stats, hr⟩
  | succ n ih =>
    obtain ⟨st, h⟩ := ih
    obtain ⟨st', h'⟩ := run_mmulAt _ v idx o r (s.tile v) n h
    exact ⟨st', by rw [mmulFirst_succ, h']⟩

/-- The flags and the array status of the members. -/
def membersReg (r : Run) (a : Nat) : Prop := ∃ m ∈ r.members, mmulReg m a

theorem sameOffParts_mmulFirst (s : State) (v idx : Nat) (o : MmulOps) (hl : n ≤ r.members.length) :
    SameOffParts (membersReg r) s (s.mmulFirst v idx o r n) := by
  induction n with
  | zero => exact sameOffParts_refl s
  | succ n ih =>
    rw [mmulFirst_succ]
    exact (ih (by omega)).trans ((sameOffParts_mmulAt ..).mono fun _ ha => ⟨_, getD_members_mem hl, ha⟩)

theorem tile_mmulFirst_outside {x : Nat} (hv : v ∈ r.members) (hx : x ∉ r.members) (hl : n ≤ r.members.length) :
    (s.mmulFirst v idx o r n).tile x = s.tile x := by
  induction n with
  | zero => rfl
  | succ n ih =>
    rw [mmulFirst_succ, tile_mmulAt_ne (ne_of_mem_of_not_mem (getD_members_mem hl) hx).symm (ne_of_mem_of_not_mem hv hx).symm,
      ih (by omega)]

variable (hn : r.members.Nodup) (hlead : r.members.getD 0 0 = v) (hk : k < r.members.length)
include hn hk

include hlead in
/-- A member whose turn has still to come is as it was. -/
theorem tile_mmulFirst_later (hnk : n ≤ k) :
    (s.mmulFirst v idx o r n).tile (r.members.getD k 0) = s.tile (r.members.getD k 0) := by
  induction n with
  | zero => rfl
  | succ n ih =>
    have hne {j : Nat} (hj : j < k) : r.members.getD k 0 ≠ r.members.getD j 0 :=
      fun h => absurd (getD_members_inj hn hk (by omega) h) (by omega)
    rw [mmulFirst_succ, tile_mmulAt_ne (hne (by omega)) (by rw [← hlead]; exact hne (by omega)), ih (by omega)]

include hlead in
/-- A member whose turn has come holds what the array makes of it. -/
theorem sameData_mmulFirst (hkn : k < n) (hl : n ≤ r.members.length) :
    SameData (s.mmaOf v idx o r (s.tile v) k (s.tile (r.members.getD k 0))).tile
      ((s.mmulFirst v idx o r n).tile (r.members.getD k 0)) := by
  induction n with
  | zero => omega
  | succ n ih =>
    rw [mmulFirst_succ]
    by_cases h : k = n
    · subst h
      have hs := sameData_mmulAt_self (s.mmulFirst v idx o r k) v idx o r (s.tile v) k
      rwa [tile_mmulFirst_later hn hlead hk le_rfl, State.mmaOf, (dither_mmulFirst ..).numCtx] at hs
    · exact (ih (by omega) (by omega)).trans (sameData_mmulAt_ne fun e => h (getD_members_inj hn hk (by omega) e))

/-- The set of a member whose turn has come is valid where the MMUL has no output. -/
theorem setValid_mmulFirst (ho : o.set < 2) (hkn : k < n) (hl : n ≤ r.members.length) :
    (s.mmulFirst v idx o r n).setValid (r.members.getD k 0) o.set = (o.okind == .none) := by
  induction n with
  | zero => omega
  | succ n ih =>
    rw [mmulFirst_succ]
    by_cases h : k = n
    · subst h
      exact setValid_mmulAt_self _ _ _ _ _ _ ho
    · rw [setValid_mmulAt_ne fun e => h (getD_members_inj hn hk (by omega) e)]
      exact ih (by omega) (by omega)

end Members

/-! ### The instruction -/

theorem viewsAt_issue (r : Run) (idx : Nat) (x : TIns) (i m : Nat) : (r.issue idx x).viewsAt i m = r.viewsAt i m := by
  unfold Run.issue
  dsimp only
  split <;> rfl

theorem slotOf_issue (r : Run) (idx : Nat) (x : TIns) (i : Nat) (y : TIns) : (r.issue idx x).slotOf i y = r.slotOf i y := by
  unfold Run.issue
  dsimp only
  split <;> rfl

/-- A launch that has room for its early credit, with the set that it drains. -/
theorem launch_eq {v idx eaddr : Nat} {r r0 : Run} {e : Engine} {x : TIns} (drain : Option Nat) (hr : (s.tile v).run = some r)
    (he : tinsEngine x = some e) (hp : PostFits r0 e (tinsPost x)) (hc : r.creds = r0.creds) :
    ∃ dropped tags r' f, s.launch v idx x .plain true [] drain eaddr = s.launchedAs v dropped tags r'
      ∧ r'.flights e = r.flights e ++ [f] ∧ f.idx = idx ∧ f.drain = drain := by
  unfold State.launch
  rw [hr, he]
  dsimp only
  split
  · obtain ⟨r2, hg, hf⟩ := give_one (hp ‹_›) ((creds_setFlights r e _).trans hc)
    rw [hg]
    exact ⟨_, _, r2, _, rfl, (hf e).trans (flights_setFlights ..), rfl, rfl⟩
  · exact ⟨_, _, _, _, rfl, flights_setFlights .., rfl, rfl⟩

section Issue
variable {v idx : Nat} {o : MmulOps} {r : Run}

/-- The package once an MMUL that nothing stops is in flight. -/
def State.mmulled (s : State) (v idx : Nat) (o : MmulOps) (r : Run) : State :=
  (s.mmulFirst v idx o r r.members.length).launch v idx (.mmul o) .plain true [] (if o.okind = .none then none else some o.set)
    (2 ^ 63 + ((r.viewsAt idx 0).getD o.av {}).base)

/-- Sets that are valid where they are continued, and records that R87 allows, stop nothing. -/
theorem mmul_eq (hv : o.init = .cont → ∀ m ∈ r.members, s.setValid m o.set = true)
    (hs : r.anyMember (fun m w => !mmaScaleOk (s.tile v) (s.tile w) (r.viewsAt idx 0) (r.viewsAt idx m) o (r.slotOf idx (.mmul o)) m)
      = false) : s.mmul v idx o false r = s.mmulled v idx o r := by
  have hvalid : (o.init == .cont && r.anyMember fun _ w => !s.setValid w o.set) = false := by
    rw [Bool.and_eq_false_imp, beq_iff_eq]
    intro hi
    rw [Run.anyMember, List.any_eq_false]
    intro k hk
    rw [hv hi _ (getD_members_mem (List.mem_range.1 hk))]
    decide
  unfold State.mmul
  dsimp only
  rw [hvalid, hs]
  simp only [Bool.false_eq_true, if_false, beq_iff_eq]
  rfl

/-- An MMUL in every member, in flight. -/
theorem mmulled_spec (hn : r.members.Nodup) (hlead : r.members[0]? = some v) (ho : o.set < 2) (hr : (s.tile v).run = some r)
    (hp : PostFits r .array o.post) :
    WritesTiles s (s.mmulled v idx o r) r (fun k y => (s.mmaOf v idx o r (s.tile v) k y).tile)
      ∧ (∀ m ∈ r.members, (s.mmulled v idx o r).setValid m o.set = (o.okind == .none))
      ∧ InFlight (s.mmulled v idx o r) v r .array idx (fun f => f.drain = if o.okind = .none then none else some o.set)
      ∧ (∀ w, w ∉ r.members → (s.mmulled v idx o r).tile w = s.tile w)
      ∧ SameOffParts (tileRegs v r) s (s.mmulled v idx o r) := by
  have hmem : v ∈ r.members := List.mem_of_getElem? hlead
  have hlead' : r.members.getD 0 0 = v := by rw [List.getD_eq_getElem?_getD, hlead]; rfl
  obtain ⟨st, hrun⟩ := run_mmulFirst hr idx o r.members.length
  obtain ⟨b, n, r', f, hu, hfl, hidx, hdrain⟩ := launch_eq (idx := idx) (eaddr := 2 ^ 63 + ((r.viewsAt idx 0).getD o.av {}).base)
    (x := .mmul o) (if o.okind = .none then none else some o.set) hrun rfl hp rfl
  rw [State.mmulled, hu]
  refine ⟨fun k hk => ?_, fun m hm => ?_, ⟨r', f, ?_, hfl, hidx, hdrain⟩, fun w hw => ?_, ?_⟩
  · exact (sameData_mmulFirst hn hlead' hk hk le_rfl).trans (sameData_launchedAs ..)
  · obtain ⟨k, hk, rfl⟩ := List.mem_iff_getElem.1 hm
    rw [(sameOffTiles_launchedAs ..).offParts.setValid (mmaStatus_ne_smpPtr _ _), ← List.getD_eq_getElem _ 0 hk]
    exact setValid_mmulFirst hn hk ho hk le_rfl
  · rw [tile_launchedAs_self]
  · rw [tile_launchedAs_ne _ _ _ _ (ne_of_mem_of_not_mem hmem hw).symm, tile_mmulFirst_outside hmem hw le_rfl]
  · exact ((sameOffParts_mmulFirst s v idx o le_rfl).mono fun a ha => .inl ha).trans
      ((sameOffTiles_launchedAs ..).offParts.mono fun _ => .inr)

end Issue

/-- Settles O18: nothing stops the MMUL, and each member in turn holds what the array makes of it. -/
theorem matrixMultiply : Obligations.MatrixMultiply := by
  unfold Obligations.MatrixMultiply
  intro s t idx o r hw hi hn hlead hready hp hvalid hscale
  have hm := members_issue r idx (.mmul o)
  have ho : o.set < 2 := by
    simp only [instrWf, mmulWf, Bool.and_eq_true, decide_eq_true_eq] at hw
    omega
  have hexec : exec (.mmul t idx o) s = .next ((s.issuedAt t idx (.mmul o) r).mmulled t idx o (r.issue idx (.mmul o))) := by
    refine (State.runIf_true s hw _).trans (congrArg Host.Outcome.next ?_)
    rw [if_pos hready, issueOr_of_issues hi]
    refine mmul_eq (fun h m hx => hvalid h m (hm ▸ hx)) ?_
    simpa only [viewsAt_issue, slotOf_issue] using hscale
  obtain ⟨hdata, hset, hfl, hout, hrest⟩ := mmulled_spec (s := s.issuedAt t idx (.mmul o) r) (idx := idx) (hm ▸ hn) (hm ▸ hlead) ho
    (by rw [tile_issuedAt_self]) hp
  have hregs : tileRegs t (r.issue idx (.mmul o)) = tileRegs t r := by
    funext a
    rw [tileRegs, tileRegs, hm]
  refine ⟨_, hexec, fun k hk => ?_, fun m hx => hset m (hm ▸ hx), ?_, fun w hw => ?_, ?_⟩
  · simpa only [State.mmaOf, viewsAt_issue, slotOf_issue, hm] using hdata k (by rwa [hm])
  · simpa only [InFlight, flights_issue] using hfl
  · rw [hout w (by rwa [hm])]
    exact tile_modTile_ne _ _ (ne_of_mem_of_not_mem (List.mem_of_getElem? hlead) hw).symm
  · exact (sameOffTiles_modTile s t _).offParts.trans (hregs ▸ hrest)

end Sys2Proof.Machine
end

section
/-!
Gang settings, scalars and TIL_NUMCTL (O19): what each command leaves, once its write has reached the register.
-/

set_option Elab.async false

namespace Sys2Proof.Machine

variable {s : State} {a : Agent}

theorem bits_mod_width (x lo w : Nat) : bits x lo w % 2 ^ w = bits x lo w := Nat.mod_mod _ _

/-- A write that reaches its register answers what the register does, after the answer to the agent. -/
theorem exec_writeReg_reach {c : Instr} {b : Blk} {i off : Nat} {f : State → State} (hw : instrWf c = true)
    (hx : exec c s = s.runIf (instrWf c) (s.writeReg a b i off f)) (he : s.entry a b i off true = .reach) :
    exec c s = .next (f (s.answer .ok 0)) := by
  rw [hx, State.runIf_true _ hw, State.writeReg_reach _ he]

/-! ### Frames of several fields -/

/-- Setting a listed field keeps the fields that are not listed. -/
theorem SameRegs.fset {t : State} {ks : List Nat} (h : SameRegs s t ks) {off : Nat} {f : Fld} (v : Nat) (hk : regKey off f ∈ ks) :
    SameRegs s (t.fset off f v) ks :=
  fun k hn => (State.find?_fset_ne t v (by rintro rfl; exact hn hk)).trans (h k hn)

theorem SameRegs.when {t : State} {ks : List Nat} {b : Bool} {f : State → State} (h : SameRegs s t ks) (hf : SameRegs s (f t) ks) :
    SameRegs s (t.when b f) ks := by
  cases b
  · exact h
  · exact hf

/-! ### Gangs (R60, R129) -/

theorem herd_pendGang_self (s : State) (h join width : Nat) :
    (s.pendGang h join width).herd h = { s.herd h with gangPend := some (join, width) } := State.herd_setHerd_self ..

theorem herd_pendGang_ne (s : State) {h g : Nat} (join width : Nat) (n : g ≠ h) : (s.pendGang h join width).herd g = s.herd g :=
  State.herd_setHerd_ne _ _ n

theorem pending_pendGang (s : State) (h join width : Nat) : (s.pendGang h join width).fget (R.HRD_GANG h) F.HRD_GANG_PENDING = 1 :=
  State.fget_fset_self ..

/-- Another field reads as before a setting became pending. -/
theorem fget_pendGang_ne (s : State) {h o : Nat} {f : Fld} (join width : Nat)
    (hk : regKey o f ≠ regKey (R.HRD_GANG h) F.HRD_GANG_PENDING) : (s.pendGang h join width).fget o f = s.fget o f :=
  State.fget_fset_ne _ _ hk

theorem SameRegs.pendGang {t : State} {ks : List Nat} {h : Nat} (hs : SameRegs s t ks) (join width : Nat)
    (hk : regKey (R.HRD_GANG h) F.HRD_GANG_PENDING ∈ ks) : SameRegs s (t.pendGang h join width) ks :=
  SameRegs.fset (t := t.setHerd h _) hs 1 hk

/-- HRD_GANG and HRD_GANG_WIDTH are registers of their own. -/
theorem gangWidthKey_ne (h : Nat) : regKey (R.HRD_GANG_WIDTH h) F.HRD_GANG_WIDTH_WIDTH ≠ regKey (R.HRD_GANG h) F.HRD_GANG_PENDING :=
  regKey_ne_of_off (.inr le_rfl) (by decide) (by decide)

theorem herd_whenFset (s : State) (b : Bool) (off : Nat) (f : Fld) (v g : Nat) :
    (s.when b fun s => s.fset off f v).herd g = s.herd g := by cases b <;> rfl

/-- A write of HRD_GANG clears PUSH_REFUSED where it writes a 1 to it, and makes its JOIN pending (R129). -/
theorem gangWriteEffect_spec (h v : Nat) (s : State) :
    let u := gangWriteEffect h v s
    u.fget (R.HRD_GANG h) F.HRD_GANG_JOIN = bits v 1 11 ∧ u.fget (R.HRD_GANG h) F.HRD_GANG_PENDING = 1
      ∧ u.herd h = { s.herd h with gangPend := some (bits v 1 11, (s.gangPending h).2) }
      ∧ (bit v 15 = true → u.fget (R.HRD_GANG h) F.HRD_GANG_PUSH_REFUSED = 0)
      ∧ u = { s with regs := u.regs, rsp := u.rsp, herds := u.herds } ∧ u.rsp = s.rsp ∧ (∀ g, g ≠ h → u.herd g = s.herd g)
      ∧ SameRegs s u [regKey (R.HRD_GANG h) F.HRD_GANG_JOIN, regKey (R.HRD_GANG h) F.HRD_GANG_PENDING,
          regKey (R.HRD_GANG h) F.HRD_GANG_PUSH_REFUSED] := by
  refine ⟨?_, pending_pendGang .., ?_, fun hb => ?_, ?_, ?_, fun g hg => ?_, ?_⟩
  · rw [gangWriteEffect, fget_pendGang_ne _ _ _ (regKey_ne_of_lo (by decide)), State.fget_fset_self]
    exact bits_mod_width ..
  · rw [gangWriteEffect, herd_pendGang_self]
    exact congrArg (fun x : Herd => { x with gangPend := some (bits v 1 11, (s.gangPending h).2) }) (herd_whenFset ..)
  · rw [gangWriteEffect, fget_pendGang_ne _ _ _ (regKey_ne_of_lo (by decide)), State.fget_fset_ne _ _ (regKey_ne_of_lo (by decide)), hb]
    exact State.fget_fset_self ..
  · rw [gangWriteEffect]
    cases bit v 15 <;> rfl
  · rw [gangWriteEffect]
    cases bit v 15 <;> rfl
  · exact (herd_pendGang_ne _ _ _ hg).trans (herd_whenFset ..)
  · exact .pendGang (.fset (.when (.refl s _) (.fset (.refl s _) 0 (by simp))) _ (by simp)) _ _ (by simp)

/-- A write of HRD_GANG_WIDTH with a width that it permits makes the width pending (R129). -/
theorem gangWidthEffect_spec (h v : Nat) (s : State) (hv : gangWidths.contains (bits v 0 4) = true) :
    let u := gangWidthEffect a h v s
    u.fget (R.HRD_GANG_WIDTH h) F.HRD_GANG_WIDTH_WIDTH = bits v 0 4 ∧ u.fget (R.HRD_GANG h) F.HRD_GANG_PENDING = 1
      ∧ u.herd h = { s.herd h with gangPend := some ((s.gangPending h).1, bits v 0 4) }
      ∧ u = { s with regs := u.regs, rsp := u.rsp, herds := u.herds } ∧ u.rsp = s.rsp ∧ (∀ g, g ≠ h → u.herd g = s.herd g)
      ∧ SameRegs s u [regKey (R.HRD_GANG_WIDTH h) F.HRD_GANG_WIDTH_WIDTH, regKey (R.HRD_GANG h) F.HRD_GANG_PENDING] := by
  have hu : gangWidthEffect a h v s =
      (s.fset (R.HRD_GANG_WIDTH h) F.HRD_GANG_WIDTH_WIDTH (bits v 0 4)).pendGang h (s.gangPending h).1 (bits v 0 4) :=
    if_pos (by rw [hv]; rfl)
  rw [hu]
  refine ⟨?_, pending_pendGang .., herd_pendGang_self .., rfl, rfl, fun g hg => herd_pendGang_ne _ _ _ hg, ?_⟩
  · rw [fget_pendGang_ne _ _ _ (gangWidthKey_ne h), State.fget_fset_self]
    exact bits_mod_width ..
  · exact .pendGang (.fset (.refl s _) _ (by simp)) _ _ (by simp)

/-- The package once the pending setting of a herd is in force. -/
def State.gangSet (s : State) (h join width : Nat) : State :=
  (((s.setHerd h { s.herd h with gangPend := none }).fset (R.HRD_GANG h) F.HRD_GANG_PENDING 0).fset (R.HRD_GANG h)
    F.HRD_GANG_ACTIVE_JOIN (if width = 0 then join else widthJoin width)).fset (R.HRD_GANG h) F.HRD_GANG_ACTIVE_WIDTH width

/-- A setting is applied at a boundary at which no tile of the herd runs a segment (R60). -/
theorem exec_gangApply {h join width : Nat} (hh : h < 16) (hp : (s.herd h).gangPend = some (join, width)) (hc : s.clk.phase < 9)
    (hr : ∀ i, i < 12 → (s.tile (12 * h + i)).run = none) : exec (.gangApply h) s = .next (s.gangSet h join width) := by
  have hidle : ((herdTiles h).all fun t => (s.tile t).run.isNone) = true := by
    rw [herdTiles, List.all_map, List.all_eq_true]
    intro i hi
    simp [hr i (List.mem_range.1 hi)]
  refine (State.runIf_true s (decide_eq_true hh) _).trans (congrArg Host.Outcome.next ?_)
  rw [hp]
  exact if_pos (by rw [hidle, decide_eq_true hc]; rfl)

/-! ### Scalars (R137) -/

/-- A scalar written from outside while no segment runs takes effect at once. -/
theorem tile_putSreg_idle {t : Nat} (n v : Nat) (h : s.runAt t = none) :
    (s.putSreg t n v).tile t = { s.tile t with sregs := Map.put 0 (s.tile t).sregs n v, sregHeld := (s.tile t).sregHeld.erase n } := by
  rw [State.putSreg, State.tile_setTile_self, h]
  rfl

/-- A scalar written from outside while a segment runs is held. -/
theorem tile_putSreg_running {t : Nat} {r : Run} (n v : Nat) (h : s.runAt t = some r) :
    (s.putSreg t n v).tile t = { s.tile t with sregHeld := (s.tile t).sregHeld.insert n v } := by
  rw [State.putSreg, State.tile_setTile_self, h]
  rfl

theorem sregEffect_of_status {t n v : Nat} (h : bits v 32 2 ≠ 3) (s : State) : sregEffect a t n v s = s.putSreg t n (bits v 0 34) :=
  if_neg h

/-! ### TIL_NUMCTL (R491) -/

theorem numctlEffect_spec (t v : Nat) (s : State) :
    let u := numctlEffect t v s
    u.fget (R.TIL_NUMCTL t) F.TIL_NUMCTL_SR_EN = bits v 1 1 ∧ u.fget (R.TIL_NUMCTL t) F.TIL_NUMCTL_E4M3_INF = bits v 0 1
      ∧ (u.tile t).run = (s.tile t).run := by
  refine ⟨?_, ?_, rfl⟩
  · rw [numctlEffect, State.fget_fset_ne _ _ (regKey_ne_of_lo (by decide)), State.fget_fset_self]
    exact bits_mod_width ..
  · rw [numctlEffect, State.fget_fset_self]
    exact bits_mod_width ..

theorem onlyAnswer_numctlEffect (t v : Nat) (s : State) :
    OnlyAnswer s (numctlEffect t v (s.answer .ok 0))
      [regKey (R.TIL_NUMCTL t) F.TIL_NUMCTL_SR_EN, regKey (R.TIL_NUMCTL t) F.TIL_NUMCTL_E4M3_INF] :=
  .fset (.fset (.answer (.refl s _) .ok 0) _ (by simp)) _ (by simp)

/-! ### The commands -/

/-- Settles O19: each write reaches its register and does there what its lemma says; a pending setting is applied as `gangSet`. -/
theorem gangsScalarsAndNumctl : Obligations.GangsScalarsAndNumctl := by
  unfold Obligations.GangsScalarsAndNumctl
  refine ⟨fun s a h v hw he => ?_, fun s a h v hw he hv => ?_, fun s h join width hh hp hc hr => ?_,
    fun s a t n v hw he hv => ?_, fun s a t v hw he => ?_⟩
  · obtain ⟨hjoin, hpend, hherd, hclear, hrest, hrsp, hothers, hregs⟩ := gangWriteEffect_spec h v (s.answer .ok 0)
    exact ⟨_, exec_writeReg_reach hw rfl he, hrsp, hjoin, hpend, hherd, hclear, hrest, hothers, hregs⟩
  · obtain ⟨hwidth, hpend, hherd, hrest, hrsp, hothers, hregs⟩ := gangWidthEffect_spec (a := a) h v (s.answer .ok 0) hv
    exact ⟨_, exec_writeReg_reach hw rfl he, hrsp, hwidth, hpend, hherd, hrest, hothers, hregs⟩
  · refine ⟨_, exec_gangApply hh hp hc hr, State.herd_setHerd_self .., ?_, State.fget_fset_self .., ?_, rfl,
      fun g hg => State.herd_setHerd_ne _ _ hg⟩
    · rw [State.gangSet, State.fget_fset_ne _ _ (regKey_ne_of_lo (by decide)), State.fget_fset_ne _ _ (regKey_ne_of_lo (by decide))]
      exact State.fget_fset_self ..
    · rw [State.gangSet, State.fget_fset_ne _ _ (regKey_ne_of_lo (by decide))]
      exact State.fget_fset_self ..
  · have hu : exec (.sregWrite a t n v) s = .next ((s.answer .ok 0).putSreg t n (bits v 0 34)) := by
      rw [← sregEffect_of_status hv]
      exact exec_writeReg_reach hw rfl he
    refine ⟨_, hu, rfl, fun hr => ?_, fun r hr => ?_, fun m hm => State.tile_setTile_ne _ _ hm, rfl⟩
    · rw [tile_putSreg_idle (s := s.answer .ok 0) n _ hr]
      exact ⟨Map.get_put_self .., fun m hm => Map.get_put_ne _ _ _ _ hm, rfl⟩
    · rw [tile_putSreg_running (s := s.answer .ok 0) n _ hr]
      exact ⟨Map.find?_insert_self .., rfl⟩
  · obtain ⟨hsr, hinf, hrun⟩ := numctlEffect_spec t v (s.answer .ok 0)
    exact ⟨_, exec_writeReg_reach hw rfl he, rfl, hsr, hinf, hrun, onlyAnswer_numctlEffect t v s⟩

end Sys2Proof.Machine
end

section
/-!
Sticky flags and the completion of instructions (O13): what a mask of flags sets and clears, how the segment of a tile runs on once its
oldest instruction has completed, and the writes of a vector instruction that was held.
-/

set_option Elab.async false

namespace Sys2Proof.Machine

variable {P : Nat → Prop} {s t u : State}

/-! ### Fields of one register -/

/-- The package with its tiles and its register space left out. -/
def State.sansTileRegs (s : State) : State := { s with tiles := [], regs := [] }

theorem eq_of_sansTileRegs (h : u.sansTileRegs = s.sansTileRegs) : u = { s with tiles := u.tiles, regs := u.regs } :=
  congrArg (fun x : State => { x with tiles := u.tiles, regs := u.regs }) h

section FsetAll
variable {off o : Nat} {l : List Fld} {x : Fld → Nat}

/-- What setting a field keeps, setting several fields keeps. -/
theorem fsetAll_keeps {β : Type} {v : State → β} (hv : ∀ s f n, f ∈ l → v (s.fset off f n) = v s) (s : State) :
    v (s.fsetAll off l x) = v s := by
  induction l generalizing s with
  | nil => rfl
  | cons f l ih => exact (ih (fun s g n hg => hv s g n (.tail f hg)) _).trans (hv s f _ (.head l))

theorem sansTileRegs_fsetAll (s : State) : (s.fsetAll off l x).sansTileRegs = s.sansTileRegs :=
  fsetAll_keeps (v := State.sansTileRegs) (fun _ _ _ _ => rfl) s

theorem tile_fsetAll (s : State) (w : Nat) : (s.fsetAll off l x).tile w = s.tile w :=
  fsetAll_keeps (v := fun s : State => s.tile w) (fun _ _ _ _ => rfl) s

/-- Fields of another register read as before. -/
theorem fget_fsetAll_of_off {g : Fld} (ho : o + 8 ≤ off ∨ off + 8 ≤ o) (hg : g.lo < 64) (hl : ∀ f ∈ l, f.lo < 64) (s : State) :
    (s.fsetAll off l x).fget o g = s.fget o g :=
  fsetAll_keeps (v := fun s => s.fget o g) (fun s f n hf => State.fget_fset_ne s n (regKey_ne_of_off ho hg (hl f hf))) s

theorem onlyRegs_fsetAll {ks : List Nat} (ht : OnlyRegs s t ks) (hl : ∀ f ∈ l, regKey off f ∈ ks) :
    OnlyRegs s (t.fsetAll off l x) ks := by
  induction l generalizing t with
  | nil => exact ht
  | cons f l ih => exact ih (ht.fset _ (hl f (.head l))) fun g hg => hl g (.tail f hg)

end FsetAll

/-! ### Masks of sticky flags (R149) -/

/-- The sticky flags of a tile; a mask names each by its bit in TIL_VSTATUS. -/
def flagFields : List Fld :=
  [F.TIL_VSTATUS_CVT_OVF, F.TIL_VSTATUS_CVT_INVALID, F.TIL_VSTATUS_ARITH_OVF, F.TIL_VSTATUS_ARITH_INVALID, F.TIL_VSTATUS_PERM_RANGE]

theorem width_flagFields : ∀ f ∈ flagFields, f.w = 1 := by decide

theorem lo_flagFields : ∀ f ∈ flagFields, f.lo < 64 := by decide

/-- The flags that a mask names. -/
def flagsOf (fl : Nat) : List Fld := flagFields.filter fun f => bit fl f.lo

theorem mem_flagFields_of_flagsOf {fl : Nat} {f : Fld} (h : f ∈ flagsOf fl) : f ∈ flagFields := (List.mem_filter.1 h).1

theorem clearVflags_eq (s : State) (v fl : Nat) : s.clearVflags v fl = s.fsetAll (R.TIL_VSTATUS v) (flagsOf fl) fun _ => 0 := by
  rw [State.fsetAll, flagsOf, List.foldl_filter]
  rfl

/-- A mask without counts sets the flags that it names, and counts nothing. -/
theorem setVflags_eq (s : State) (v : Nat) {fl : Nat} (h : fl < 32) :
    s.setVflags v fl = s.fsetAll (R.TIL_VSTATUS v) (flagsOf fl) fun _ => 1 := by
  have hcvt : bits fl 5 35 = 0 := by
    rw [bits, Nat.shiftRight_eq_div_pow, Nat.div_eq_of_lt h]
    rfl
  have harith : fl / 2 ^ 40 = 0 := Nat.div_eq_of_lt (by omega)
  rw [State.fsetAll, flagsOf, List.foldl_filter, State.setVflags, hcvt, harith]
  rfl

section Flags
variable {f : Fld} (hf : f ∈ flagFields)
include hf

theorem fget_fsetAll_flagsOf (s : State) (off fl : Nat) (x : Fld → Nat) :
    (s.fsetAll off (flagsOf fl) x).fget off f = if bit fl f.lo = true then x f % 2 else s.fget off f := by
  rw [flagsOf, fget_fsetAll_filter (by decide) hf, width_flagFields f hf, pow_one]

theorem fget_setVflags (s : State) (v : Nat) {fl : Nat} (h : fl < 32) :
    (s.setVflags v fl).fget (R.TIL_VSTATUS v) f = if bit fl f.lo = true then 1 else s.fget (R.TIL_VSTATUS v) f := by
  rw [setVflags_eq s v h, fget_fsetAll_flagsOf hf]

theorem fget_clearVflags (s : State) (v fl w : Nat) :
    (s.clearVflags v fl).fget (R.TIL_VSTATUS w) f =
      if w = v ∧ bit fl f.lo = true then 0 else s.fget (R.TIL_VSTATUS w) f := by
  rw [clearVflags_eq]
  by_cases h : w = v
  · subst h
    simp [fget_fsetAll_flagsOf hf]
  · have hoff : R.TIL_VSTATUS w + 8 ≤ R.TIL_VSTATUS v ∨ R.TIL_VSTATUS v + 8 ≤ R.TIL_VSTATUS w := by
      simp only [R.TIL_VSTATUS, B.til, B.hrd, B.die]
      omega
    rw [if_neg fun hw => h hw.1]
    exact fget_fsetAll_of_off hoff (lo_flagFields f hf) (fun g hg => lo_flagFields g (mem_flagFields_of_flagsOf hg)) s

/-- Members lose the flags that a mask names, and no other flag differs. -/
theorem fget_foldl_clearVflags (l : List Nat) (fl w : Nat) (s : State) :
    (l.foldl (fun s v => s.clearVflags v fl) s).fget (R.TIL_VSTATUS w) f =
      if w ∈ l ∧ bit fl f.lo = true then 0 else s.fget (R.TIL_VSTATUS w) f := by
  induction l generalizing s with
  | nil => simp
  | cons v l ih =>
    rw [List.foldl_cons, ih, fget_clearVflags hf]
    by_cases hb : bit fl f.lo = true <;> by_cases hv : w = v <;> simp [hb, hv]

end Flags

/-! ### FLAGCLR (R149) -/

section FlagClear
variable {r : Run} {v idx fl : Nat}

/-- What is done in every member whatever its place is done along the list of members. -/
theorem onMembers_eq_foldl (r : Run) (g : Nat → State → State) (s : State) :
    r.onMembers (fun _ => g) s = r.members.foldl (fun s v => g v s) s := by
  have hmap : (List.range r.members.length).map (fun m => r.members.getD m 0) = r.members :=
    List.ext_getElem (by simp) fun i _ hi => by simp [hi]
  conv_rhs => rw [← hmap, List.foldl_map]
  rfl

/-- The flags that a mask names are clear in every member. -/
def State.clearMembers (s : State) (r : Run) (fl : Nat) : State := r.members.foldl (fun s v => s.clearVflags v fl) s

theorem sansTileRegs_clearMembers (s : State) (r : Run) (fl : Nat) : (s.clearMembers r fl).sansTileRegs = s.sansTileRegs :=
  foldl_keeps (f := fun s v => State.clearVflags s v fl) (fun s v => by rw [clearVflags_eq, sansTileRegs_fsetAll]) r.members s

theorem tile_clearMembers (s : State) (r : Run) (fl w : Nat) : (s.clearMembers r fl).tile w = s.tile w :=
  foldl_keeps (v := fun s : State => s.tile w) (f := fun s v => State.clearVflags s v fl)
    (fun s v => by rw [clearVflags_eq, tile_fsetAll]) r.members s

theorem sansTileRegs_modTile (s : State) (v : Nat) (f : Tile → Tile) : (s.modTile v f).sansTileRegs = s.sansTileRegs := rfl

theorem sansTileRegs_launchedAs (s : State) (v : Nat) (b : Bool) (n : Nat) (r : Run) :
    (s.launchedAs v b n r).sansTileRegs = s.sansTileRegs := by
  rw [State.launchedAs, sansTileRegs_modTile, sansTileRegs_modTile]
  cases b <;> rfl

/-- The flags of no tile differ by a launch. -/
theorem fget_vstatus_launchedAs (s : State) (v : Nat) (b : Bool) (n : Nat) (r : Run) (w : Nat) {f : Fld} (hf : f ∈ flagFields) :
    (s.launchedAs v b n r).fget (R.TIL_VSTATUS w) f = s.fget (R.TIL_VSTATUS w) f := by
  refine (sameOffTiles_launchedAs s v b n r).offParts.fget (vstatus_aligned w) (lo_flagFields f hf)
    (not_unitReg_til w (by decide)) fun h => ?_
  simp only [R.TIL_VSTATUS, R.PMC_SMP_PTR, B.til, B.hrd, B.die] at h
  omega

/-- The package once a FLAGCLR is in flight. -/
def State.flagCleared (s : State) (v idx fl : Nat) (r : Run) (dropped : Bool) (tags : Nat) (r' : Run) : State :=
  ((s.issuedAt v idx (.flagclr fl) r).clearMembers r fl).launchedAs v dropped tags r'

theorem exec_flagclr (hw : instrWf (.flagclr v idx fl) = true) (hi : Issues s v idx (.flagclr fl) r) :
    ∃ b n r', exec (.flagclr v idx fl) s = .next (s.flagCleared v idx fl r b n r') := by
  have hrun : (((s.issuedAt v idx (.flagclr fl) r).clearMembers r fl).tile v).run = some (r.issue idx (.flagclr fl)) := by
    rw [tile_clearMembers, tile_issuedAt_self]
  obtain ⟨b, n, r', _, hu, -⟩ :=
    launched_eq (idx := idx) (eaddr := 0) (x := .flagclr fl) hrun rfl fun h => absurd h Bool.false_ne_true
  refine ⟨b, n, r', (State.runIf_true s hw _).trans (congrArg Host.Outcome.next ((issueOr_of_issues hi _ _).trans ?_))⟩
  rw [onMembers_eq_foldl, members_issue]
  exact hu

section Cleared
variable (s : State) (v idx fl : Nat) (r : Run) (b : Bool) (n : Nat) (r' : Run)

theorem fget_flagCleared {f : Fld} (hf : f ∈ flagFields) (m : Nat) :
    (s.flagCleared v idx fl r b n r').fget (R.TIL_VSTATUS m) f =
      if m ∈ r.members ∧ bit fl f.lo = true then 0 else s.fget (R.TIL_VSTATUS m) f :=
  (fget_vstatus_launchedAs _ v b n r' m hf).trans (fget_foldl_clearVflags hf r.members fl m _)

theorem vflags_flagCleared {m : Nat} (hm : m ∉ r.members) : (s.flagCleared v idx fl r b n r').vflags m = s.vflags m := by
  have hkeep {f : Fld} (hf : f ∈ flagFields) :
      (s.flagCleared v idx fl r b n r').fget (R.TIL_VSTATUS m) f = s.fget (R.TIL_VSTATUS m) f := by
    rw [fget_flagCleared s v idx fl r b n r' hf, if_neg fun h => hm h.1]
  rw [State.vflags, State.vflags, hkeep (f := F.TIL_VSTATUS_CVT_OVF) (by decide), hkeep (f := F.TIL_VSTATUS_CVT_INVALID) (by decide),
    hkeep (f := F.TIL_VSTATUS_ARITH_OVF) (by decide), hkeep (f := F.TIL_VSTATUS_ARITH_INVALID) (by decide),
    hkeep (f := F.TIL_VSTATUS_PERM_RANGE) (by decide)]

theorem sameData_flagCleared : SameData (s.tile v) ((s.flagCleared v idx fl r b n r').tile v) := by
  have h := sameData_launchedAs ((s.issuedAt v idx (.flagclr fl) r).clearMembers r fl) v b n r' v
  rw [tile_clearMembers, tile_issuedAt_self] at h
  exact h

theorem tile_flagCleared_ne {w : Nat} (h : w ≠ v) : (s.flagCleared v idx fl r b n r').tile w = s.tile w := by
  rw [State.flagCleared, tile_launchedAs_ne _ b n r' h, tile_clearMembers]
  exact tile_modTile_ne s _ h

theorem sansTileRegs_flagCleared : (s.flagCleared v idx fl r b n r').sansTileRegs = s.sansTileRegs := by
  rw [State.flagCleared, sansTileRegs_launchedAs, sansTileRegs_clearMembers]
  exact sansTileRegs_modTile s v _

end Cleared

end FlagClear

/-! ### The run of a tile -/

section Runs
variable {r r' r2 : Run} {e e' : Engine} {l : List Flight}

theorem flights_setFlights_ne (r : Run) (l : List Flight) (h : e' ≠ e) : (r.setFlights e l).flights e' = r.flights e' := by
  cases e <;> cases e' <;> simp_all [Run.setFlights, Run.flights]

theorem finished_setFlights (r : Run) (e : Engine) (l : List Flight) : (r.setFlights e l).finished = r.finished := by cases e <;> rfl

theorem members_setFlights (r : Run) (e : Engine) (l : List Flight) : (r.setFlights e l).members = r.members := by cases e <;> rfl

theorem length_flights_setFlights (h : l.length = (r.flights e).length) (e' : Engine) :
    ((r.setFlights e l).flights e').length = (r.flights e').length := by
  by_cases he : e' = e
  · rw [he, flights_setFlights, h]
  · rw [flights_setFlights_ne r l he]

/-- Giving credits looks at the counts alone, and changes nothing else (R185). -/
theorem give_congr {p : Nat} {l : List (Engine × Nat)} (hc : r'.creds = r.creds) (h : r.give p l = some r2) :
    r'.give p l = some { r' with creds := r2.creds } := by
  induction l generalizing r r' with
  | nil =>
    cases h
    rw [← hc]
    rfl
  | cons a l ih =>
    obtain ⟨c, n⟩ := a
    have hcred : r'.cred p (engineCode c) = r.cred p (engineCode c) := by rw [Run.cred, Run.cred, hc]
    simp only [Run.give, hcred, hc] at h ⊢
    split at h
    · cases h
    · exact (if_neg ‹_›).trans (ih (by rfl) h)

/-- The segment of a tile runs on from one package to the next: as many instructions of it have finished, its credits are the same and as
many instructions are in flight, what it computes with is the same, other tiles are as they were, and so is all but tiles, partitions and
registers that P names. -/
structure RunsOn (P : Nat → Prop) (v : Nat) (s u : State) : Prop where
  run : ∀ r, (s.tile v).run = some r → ∃ r', (u.tile v).run = some r' ∧ r'.finished = r.finished ∧ r'.creds = r.creds
    ∧ ∀ e, (r'.flights e).length = (r.flights e).length
  data : SameData (s.tile v) (u.tile v)
  tile : ∀ w, w ≠ v → u.tile w = s.tile w
  rest : SameOffParts P s u

variable {v : Nat}

theorem RunsOn.trans (h1 : RunsOn P v s t) (h2 : RunsOn P v t u) : RunsOn P v s u where
  run r hr := by
    obtain ⟨r1, hr1, hf1, hc1, hl1⟩ := h1.run r hr
    obtain ⟨r2, hr2, hf2, hc2, hl2⟩ := h2.run r1 hr1
    exact ⟨r2, hr2, hf2.trans hf1, hc2.trans hc1, fun e => (hl2 e).trans (hl1 e)⟩
  data := h1.data.trans h2.data
  tile w hw := (h2.tile w hw).trans (h1.tile w hw)
  rest := h1.rest.trans h2.rest

theorem SameUnitsBut.runsOn (h : SameUnitsBut P s t) (v : Nat) : RunsOn P v s t where
  run r hr := ⟨r, by rw [h.tile, hr], rfl, rfl, fun _ => rfl⟩
  data := by
    rw [h.tile]
    exact .refl _
  tile w _ := h.tile w
  rest := h.offTiles.offParts

theorem RunsOn.refl (s : State) : RunsOn P v s s := (SameUnitsBut.refl s).runsOn v

/-- A tile is changed in what is neither its run nor what instructions compute with. -/
theorem runsOn_modTile (s : State) {f : Tile → Tile} (hr : (f (s.tile v)).run = (s.tile v).run)
    (hd : SameData (s.tile v) (f (s.tile v))) : RunsOn P v s (s.modTile v f) where
  run r h := ⟨r, by rw [tile_modTile_self, hr, h], rfl, rfl, fun _ => rfl⟩
  data := by rwa [tile_modTile_self]
  tile _ hw := tile_modTile_ne s f hw
  rest := (sameOffTiles_modTile s v f).offParts

/-- The run of a tile is replaced by one that has as many instructions in flight. -/
theorem runsOn_setFlights (hr : (s.tile v).run = some r) (hl : l.length = (r.flights e).length) :
    RunsOn P v s (s.modTile v fun y => { y with run := some (r.setFlights e l) }) where
  run r0 h0 := by
    cases hr.symm.trans h0
    exact ⟨r.setFlights e l, by rw [tile_modTile_self], finished_setFlights .., creds_setFlights .., length_flights_setFlights hl⟩
  data := by
    rw [tile_modTile_self]
    exact .refl _
  tile _ hw := tile_modTile_ne s _ hw
  rest := (sameOffTiles_modTile s v _).offParts

theorem RunsOn.sampPtr (h : RunsOn (tileRegs v r) v s t) {f : Fld} (hf : f.lo < 64) (n : Nat) :
    RunsOn (tileRegs v r) v s (t.fset (R.PMC_SMP_PTR v) f n) :=
  h.trans ((sameUnitsBut_fset t n (.inr rfl) (sampPtr_aligned v) hf).runsOn v)

/-- A sampling record changes the buffer and its pointers, and raises an event where the buffer has filled as far as it is set to (R462,
R463). -/
theorem runsOn_sampWrite (s : State) (v : Nat) (r : Run) (f : Flight) (eaddr wait lat : Nat) :
    RunsOn (tileRegs v r) v s (s.sampWrite v r f eaddr wait lat) := by
  have hevent (b : Bool) (t : State) :
      RunsOn (tileRegs v r) v t (t.when b fun s => s.event (R.PMC_SMP_PTR v) (some F.PMC_SMP_PTR_FILL) []) :=
    (sameUnitsBut_when ((sameUnits_event _ _ _).2 (.refl t)).but).runsOn v
  have hbuf {g : Tile → Tile} (hr : (g (s.tile v)).run = (s.tile v).run) (hd : SameData (s.tile v) (g (s.tile v))) (n : Nat) :
      RunsOn (tileRegs v r) v s ((s.modTile v g).fset (R.PMC_SMP_PTR v) F.PMC_SMP_PTR_WR n) :=
    (runsOn_modTile s hr hd).sampPtr (by decide) n
  unfold State.sampWrite
  dsimp only
  split
  · exact (RunsOn.refl s).sampPtr (by decide) _
  · split
    · exact (hbuf rfl (.refl _) _).sampPtr (by decide) _
    · exact ((hbuf rfl (.refl _) _).sampPtr (by decide) _).trans (hevent _ _)

/-- The signal of a SEMSIG that has become the oldest in flight goes to the semaphore unit of its partition (R189). -/
theorem runsOn_sendHead (s : State) (v : Nat) (e : Engine) : RunsOn P v s (s.sendHead v e) := by
  have hsig (t : State) (p : Nat) (g : SemSig) (h : RunsOn P v s t) : RunsOn P v s (t.sendSig p g) :=
    ⟨h.run, h.data, h.tile, h.rest.trans (.refl _)⟩
  unfold State.sendHead
  split
  · exact .refl s
  · rename_i r hr
    split
    · split
      · exact hsig _ _ _ (runsOn_setFlights hr (by simp [*]))
      · exact .refl s
    · exact .refl s

/-- The sets that an instruction has drained are free in its members. -/
def State.freeDrained (s : State) (r : Run) : Option Nat → State
  | some set => r.onMembers (fun _ u s => s.fset (R.TIL_MMA_STATUS u) F.TIL_MMA_STATUS_SET_DRAINING
      (setBits (s.fget (R.TIL_MMA_STATUS u) F.TIL_MMA_STATUS_SET_DRAINING) set 1 0)) s
  | none => s

theorem sameUnitsBut_foldl {α : Type} {f : State → α → State} {l : List α} (hf : ∀ s, ∀ a ∈ l, SameUnitsBut P s (f s a)) (s : State) :
    SameUnitsBut P s (l.foldl f s) := by
  induction l generalizing s with
  | nil => exact .refl s
  | cons a l ih => exact (hf s a (.head l)).trans (ih (fun s b hb => hf s b (.tail a hb)) _)

theorem sameUnitsBut_freeDrained (s : State) (v : Nat) (r : Run) (d : Option Nat) : SameUnitsBut (tileRegs v r) s (s.freeDrained r d) := by
  cases d with
  | none => exact .refl s
  | some set =>
    rw [State.freeDrained, onMembers_eq_foldl]
    refine sameUnitsBut_foldl (fun s m hm => ?_) s
    exact sameUnitsBut_fset s _ (.inl ⟨m, hm, .inr rfl⟩) (mmaStatus_aligned m) (by decide)

end Runs

/-! ### INSTR_COMPLETE (R184, R185) -/

section Complete
variable {r r2 : Run} {v : Nat} {e : Engine} {f : Flight} {l : List Flight} {wait lat : Nat}

/-- The package once an instruction of the run `r` has retired: `r'` is the run without it, its credits posted. -/
def State.retired (s : State) (v : Nat) (r r' : Run) (f : Flight) : State :=
  (s.freeDrained r f.drain).modTile v fun x => { x with run := some r', sampFlight := x.sampFlight - b2n f.tag.isSome }

/-- The sampling record of an instruction, where it was tagged (R462). -/
def State.sampleTagged (s : State) (v : Nat) (r : Run) (f : Flight) (wait lat : Nat) : State :=
  match f.tag with
  | some a => s.sampWrite v r f a wait lat
  | none => s

theorem runsOn_sampleTagged (s : State) (v : Nat) (r : Run) (f : Flight) (wait lat : Nat) :
    RunsOn (tileRegs v r) v s (s.sampleTagged v r f wait lat) := by
  unfold State.sampleTagged
  split
  · exact runsOn_sampWrite ..
  · exact .refl s

/-- What follows on an instruction that has retired: its sampling record, the count of its class and the signal behind it. -/
def State.follows (s : State) (v : Nat) (e : Engine) (r : Run) (f : Flight) (wait lat : Nat) : State :=
  (if f.cls = 2 then (s.sampleTagged v r f wait lat).pmcTile v 0x0E 1 else s.sampleTagged v r f wait lat).sendHead v e

theorem runsOn_follows (s : State) (v : Nat) (e : Engine) (r : Run) (f : Flight) (wait lat : Nat) :
    RunsOn (tileRegs v r) v s (s.follows v e r f wait lat) := by
  have hcount (t : State) : RunsOn (tileRegs v r) v t (t.pmcTile v 0x0E 1) :=
    ((sameUnits_pmcTile v 0x0E 1).2 (.refl t)).but.runsOn v
  have hsamp := runsOn_sampleTagged s v r f wait lat
  unfold State.follows
  split
  · exact (hsamp.trans (hcount _)).trans (runsOn_sendHead _ v e)
  · exact hsamp.trans (runsOn_sendHead _ v e)

/-- The run without its oldest instruction on an engine, and with credits as they are given. -/
def Run.retire (r : Run) (e : Engine) (l : List Flight) (creds : List Nat) : Run :=
  { r.setFlights e l with finished := r.finished + 1, creds := creds }

theorem flights_retire (r : Run) (e : Engine) (l : List Flight) (c : List Nat) : (r.retire e l c).flights e = l := by cases e <;> rfl

theorem completeHead_eq (hr : (s.tile v).run = some r) (hf : r.flights e = f :: l) (hd : s.flightDone v f = true)
    (hg : r.give (engineCode e) f.posts = some r2) :
    s.completeHead v e wait lat = (s.retired v r (r.retire e l r2.creds) f).follows v e r f wait lat := by
  have hg1 := give_congr (r' := { r.setFlights e l with finished := r.finished + 1 }) (creds_setFlights r e l) hg
  unfold State.completeHead
  rw [hr]
  dsimp only
  rw [hf]
  dsimp only
  rw [hd, hg1]
  rfl

/-- An instruction in flight that still waits for something does not complete. -/
theorem completeHead_of_waits (hr : (s.tile v).run = some r) (hf : r.flights e = f :: l) (hd : s.flightDone v f = false) :
    s.completeHead v e wait lat = s := by
  unfold State.completeHead
  rw [hr]
  dsimp only
  rw [hf]
  dsimp only
  rw [hd]
  rfl

theorem sameOffParts_retired (s : State) (v : Nat) (r r' : Run) (f : Flight) :
    SameOffParts (tileRegs v r) s (s.retired v r r' f) :=
  (sameUnitsBut_freeDrained s v r f.drain).offTiles.offParts.trans (sameOffTiles_modTile _ _ _).offParts

theorem tile_retired_self (s : State) (v : Nat) (r r' : Run) (f : Flight) :
    (s.retired v r r' f).tile v = { s.tile v with run := some r', sampFlight := (s.tile v).sampFlight - b2n f.tag.isSome } := by
  rw [State.retired, tile_modTile_self, (sameUnitsBut_freeDrained s v r f.drain).tile]

theorem tile_retired_ne (s : State) (r r' : Run) (f : Flight) {w : Nat} (h : w ≠ v) : (s.retired v r r' f).tile w = s.tile w := by
  rw [State.retired, tile_modTile_ne _ _ h, (sameUnitsBut_freeDrained s v r f.drain).tile]

/-- The oldest instruction of an engine has completed: `r` was the run, `creds` are its credits with those posted, and `n` instructions
are left in flight on the engine. -/
structure Completed (v : Nat) (e : Engine) (r : Run) (creds : List Nat) (n : Nat) (s u : State) : Prop where
  run : ∃ r', (u.tile v).run = some r' ∧ r'.finished = r.finished + 1 ∧ r'.creds = creds ∧ (r'.flights e).length = n
  data : SameData (s.tile v) (u.tile v)
  tile : ∀ w, w ≠ v → u.tile w = s.tile w
  rest : SameOffParts (tileRegs v r) s u

theorem Completed.sameData {creds : List Nat} {n : Nat} (h : Completed v e r creds n s u) (w : Nat) : SameData (s.tile w) (u.tile w) := by
  by_cases hw : w = v
  · exact hw ▸ h.data
  · rw [h.tile w hw]
    exact .refl _

/-- An instruction that waits for nothing, and whose credits fit, completes. -/
theorem completed_completeHead (hr : (s.tile v).run = some r) (hf : r.flights e = f :: l) (hd : s.flightDone v f = true)
    (hg : r.give (engineCode e) f.posts = some r2) (wait lat : Nat) :
    Completed v e r r2.creds l.length s (s.completeHead v e wait lat) := by
  have hself := tile_retired_self s v r (r.retire e l r2.creds) f
  have hfollow := runsOn_follows (s.retired v r (r.retire e l r2.creds) f) v e r f wait lat
  obtain ⟨r', hrun, hfin, hcreds, hlen⟩ := hfollow.run (r.retire e l r2.creds) (by rw [hself])
  have hdata : SameData (s.tile v) ((s.retired v r (r.retire e l r2.creds) f).tile v) := by
    rw [hself]
    exact .refl _
  rw [completeHead_eq hr hf hd hg]
  exact {
    run := ⟨r', hrun, hfin, hcreds, by rw [hlen, flights_retire]⟩
    data := hdata.trans hfollow.data
    tile := fun w hw => (hfollow.tile w hw).trans (tile_retired_ne s r _ f hw)
    rest := (sameOffParts_retired s v r _ f).trans hfollow.rest }

end Complete

/-! ### Instructions whose writes wait (R186, R291, R343) -/

section Held
variable {r r2 : Run} {v : Nat} {e : Engine} {f : Flight} {l : List Flight} {ms : List Mem}

theorem flightDone_of_held (s : State) (v : Nat) (h : f.held = some ms) : s.flightDone v f = false := by
  simp [State.flightDone, h]

theorem held_of_flightDone (h : s.flightDone v f = true) : f.held = none := by
  simp only [State.flightDone, Bool.and_eq_true, Option.isNone_iff_eq_none] at h
  obtain ⟨⟨-, hheld⟩, -⟩ := h
  exact hheld

/-- An instruction whose writes have been made has nothing to carry out. -/
theorem carryOut_of_done (hr : (s.tile v).run = some r) (hf : r.flights e = f :: l) (h : f.held = none) : s.carryOut v e = s := by
  unfold State.carryOut
  rw [hr]
  dsimp only
  rw [hf]
  dsimp only
  rw [h]

/-- Writes wait for registers that are not free, for answers to remote accesses and for tokens. -/
theorem carryOut_of_waits {x : TIns} (hr : (s.tile v).run = some r) (hf : r.flights e = f :: l) (h : f.held = some ms)
    (hx : r.ins f.idx = some x) (hw : r.clear f.idx x = false ∨ s.insAsks v f.idx = true ∨ s.regPast f.marks = false) :
    s.carryOut v e = s := by
  have hc : (s.insAsks v f.idx || !r.clear f.idx x || !s.regPast f.marks) = true := by
    rcases hw with hw | hw | hw <;> simp [hw]
  unfold State.carryOut
  rw [hr]
  dsimp only
  rw [hf]
  dsimp only
  rw [h, hx]
  exact if_pos hc

/-! ### A vector instruction that was held -/

theorem run_maskApply (y : Tile) (o : VecOps) (g : Nat → Nat → Bool) : (maskApply y o g).run = y.run := by
  refine run_foldl (fun x p => ?_) _ y
  split
  · rfl
  · split <;> rfl

theorem run_vecFn (op : VecOp) (o : VecOps) (n : NumCtx) (y : Tile) : (vecFn op o n y).1.run = y.run := by
  cases op with
  | add | mul | fma | min | max | sel | iadd | imin | imax => exact run_putReg ..
  | cmp | icmp | mand | mor | mxor | mandn | mnot => exact run_maskApply ..
  | padd => exact run_paddApply ..

theorem setVflags_zero (s : State) (v : Nat) : s.setVflags v 0 = s := rfl

/-- Writes alone are the work of a tile function that sets no flag. -/
theorem vecWrites_eq (s : State) (r : Run) (g : Nat → Tile → Tile × Nat) :
    s.vecWrites r g = s.vecMembers r fun k => plainTile fun y => (g k y).1 := by
  simp only [State.vecWrites, State.vecMembers, plainTile, setVflags_zero]

theorem run_vecWrites {g : Nat → Tile → Tile × Nat} (hn : r.members.Nodup) (s : State) (hg : ∀ k y, (g k y).1.run = y.run) (v : Nat) :
    ((s.vecWrites r g).tile v).run = (s.tile v).run := by
  rw [vecWrites_eq]
  exact run_vecMembers (f := fun k => plainTile fun y => (g k y).1) hn s hg v

/-- The package with no work in hand. -/
def State.workless (s : State) : State := { s with acc := {} }

theorem runsOn_workless (s : State) : RunsOn P v s s.workless :=
  have h : SameUnitsBut P s s.workless := ⟨rfl, fun _ _ _ => rfl⟩
  h.runsOn v

/-- Work that makes no access is done at once. -/
theorem workNow_done {α : Type} {w : Nat} {paid : Bool} {g : State → α × State} {z : α × State}
    (hz : g (s.attempt w paid fun s => s) = z) (hh : z.2.acc.halt = none) (hd : z.2.acc.due = []) :
    s.workNow w paid g = .done z.1 z.2.workless := by
  unfold State.workNow
  dsimp only
  rw [hz, hh, hd]
  rfl

theorem vecWrites_acc (s : State) (r : Run) (g : Nat → Tile → Tile × Nat) (a : Work) :
    ({ s with acc := a } : State).vecWrites r g = { s.vecWrites r g with acc := a } :=
  forRange_comm (g := fun s : State => { s with acc := a }) (fun _ _ => rfl) _ s

/-- The instruction has made its writes, and holds nothing any more. -/
def Flight.made (f : Flight) : Flight := { f with held := none, got := [], marks := [] }

theorem carryOut_vec {op : VecOp} {o : VecOps} (hr : (s.tile v).run = some r) (hf : r.flights .vector = f :: l) (h : f.held = some ms)
    (hx : r.ins f.idx = some (.vec op o)) (hc : r.clear f.idx (.vec op o) = true) (ha : s.insAsks v f.idx = false)
    (hm : s.regPast f.marks = true) :
    s.carryOut v .vector =
      (s.vecWrites r fun _ y => vecFn op o (s.numCtx v r) y).workless.modFlight v .vector f.idx Flight.made := by
  have hwork : s.workNow (movUnit v) f.paid (fun s => s.perform v r f ms) =
      .done .ok (s.vecWrites r fun _ y => vecFn op o (s.numCtx v r) y).workless := by
    refine workNow_done (z := (TEnd.ok, { s.vecWrites r (fun _ y => vecFn op o (s.numCtx v r) y) with
      acc := { on := true, unit := movUnit v, paid := f.paid } })) ?_ rfl rfl
    rw [State.perform, hx]
    exact congrArg (Prod.mk TEnd.ok) (vecWrites_acc ..)
  unfold State.carryOut
  rw [hr]
  dsimp only
  rw [hf]
  dsimp only
  rw [h, hx]
  dsimp only
  rw [hc, ha, hm, hwork]
  rfl

theorem modFlight_eq (hr : (s.tile v).run = some r) (i : Nat) (g : Flight → Flight) :
    s.modFlight v e i g =
      s.modTile v fun y => { y with run := some (r.setFlights e ((r.flights e).map fun x => if x.idx = i then g x else x)) } := by
  unfold State.modFlight State.modRun State.modTile
  dsimp only
  rw [hr]
  rfl

theorem insAsks_vecWrites (s : State) (r : Run) (g : Nat → Tile → Tile × Nat) (i : Nat) :
    (s.vecWrites r g).insAsks v i = s.insAsks v i :=
  forRange_keeps (v := fun s : State => s.insAsks v i)
    (f := fun m s => s.setTile (r.members.getD m 0) (g m (s.tile (r.members.getD m 0))).1) (fun _ _ => rfl) _ s

/-- What runs on into the completion of an instruction completes with it. -/
theorem RunsOn.completed {r1 : Run} {creds : List Nat} {n : Nat} (h : RunsOn (tileRegs v r) v s t) (hr : (s.tile v).run = some r)
    (hr1 : (t.tile v).run = some r1) (hm : r1.members = r.members) (hc : Completed v e r1 creds n t u) :
    Completed v e r creds n s u where
  run := by
    obtain ⟨r1', hr1', hfin1, -, -⟩ := h.run r hr
    cases hr1.symm.trans hr1'
    obtain ⟨r', hrun, hfin, hrest⟩ := hc.run
    exact ⟨r', hrun, by rw [hfin, hfin1], hrest⟩
  data := h.data.trans hc.data
  tile w hw := (hc.tile w hw).trans (h.tile w hw)
  rest := by
    have hregs : tileRegs v r1 = tileRegs v r := by
      funext o
      rw [tileRegs, tileRegs, hm]
    exact h.rest.trans (hregs ▸ hc.rest)

/-- An instruction whose writes have just been made completes. -/
theorem completed_made (hr : (s.tile v).run = some r) (hf : r.flights e = f :: l) (hready : f.ready = true)
    (ha : s.insAsks v f.idx = false) (hg : r.give (engineCode e) f.posts = some r2) (wait lat : Nat) :
    Completed v e r r2.creds l.length s ((s.modFlight v e f.idx Flight.made).completeHead v e wait lat) := by
  have hmap : (r.flights e).map (fun x => if x.idx = f.idx then x.made else x) =
      f.made :: l.map fun x => if x.idx = f.idx then x.made else x := by
    rw [hf, List.map_cons, if_pos rfl]
  rw [modFlight_eq hr, hmap, ← List.length_map (as := l) fun x => if x.idx = f.idx then x.made else x]
  generalize l.map (fun x => if x.idx = f.idx then x.made else x) = l' at hmap
  have hruns := runsOn_setFlights (P := tileRegs v r) (e := e) (l := f.made :: l') hr (by rw [← hmap, List.length_map])
  refine hruns.completed hr (by rw [tile_modTile_self]) (members_setFlights ..) ?_
  refine completed_completeHead (r2 := { r.setFlights e (f.made :: l') with creds := r2.creds })
    (by rw [tile_modTile_self]) (flights_setFlights ..) ?_ (give_congr (creds_setFlights ..) hg) wait lat
  have hasks : (s.modTile v fun y => { y with run := some (r.setFlights e (f.made :: l')) }).insAsks v f.idx = false := ha
  rw [State.flightDone, Bool.and_eq_true, Bool.and_eq_true]
  exact ⟨⟨hready, rfl⟩, congrArg (!·) hasks⟩

/-- A vector instruction that was held makes its writes in every member, and then completes. -/
theorem completed_vec {op : VecOp} {o : VecOps} (hr : (s.tile v).run = some r) (hf : r.flights .vector = f :: l) (h : f.held = some ms)
    (hready : f.ready = true) (hx : r.ins f.idx = some (.vec op o)) (hc : r.clear f.idx (.vec op o) = true)
    (ha : s.insAsks v f.idx = false) (hm : s.regPast f.marks = true) (hn : r.members.Nodup)
    (hg : r.give (engineCode .vector) f.posts = some r2) (wait lat : Nat) :
    Completed v .vector r r2.creds l.length (s.vecWrites r fun _ y => vecFn op o (s.numCtx v r) y)
      ((s.carryOut v .vector).completeHead v .vector wait lat) := by
  have hrun : ((s.vecWrites r fun _ y => vecFn op o (s.numCtx v r) y).tile v).run = some r :=
    (run_vecWrites hn s (fun _ y => run_vecFn op o (s.numCtx v r) y) v).trans hr
  rw [carryOut_vec hr hf h hx hc ha hm]
  exact (runsOn_workless _).completed hrun hrun rfl
    (completed_made (s := State.workless _) hrun hf hready ((insAsks_vecWrites s r _ f.idx).trans ha) hg wait lat)

end Held

/-! ### The statement -/

/-- Settles O13: FLAGCLR clears flags member by member; an instruction completes where its flight is done, once the writes that it held
are made. -/
theorem flagsAndCompletion : Obligations.FlagsAndCompletion := by
  unfold Obligations.FlagsAndCompletion
  refine ⟨fun s t idx flags r hw hi => ?_, fun s t wait lat e r r2 f l hw hr hf hd hg => ?_,
    fun s t wait lat e r f l ms x hw hr hf h hx hwait => ?_,
    fun s t wait lat r r2 f l ms op o hw hr hf h hready _ _ hx hc ha hm hn hg => ?_, fun s t fl hfl => ?_⟩
  · obtain ⟨b, n, r', hexec⟩ := exec_flagclr hw hi
    have hclear {f : Fld} (hf : f ∈ flagFields) {m : Nat} (hm : m ∈ r.members) (hb : bit flags f.lo = true) :
        (s.flagCleared t idx flags r b n r').fget (R.TIL_VSTATUS m) f = 0 := by
      rw [fget_flagCleared s t idx flags r b n r' hf, if_pos ⟨hm, hb⟩]
    exact ⟨_, hexec,
      fun m hm => ⟨hclear (f := F.TIL_VSTATUS_CVT_OVF) (by decide) hm, hclear (f := F.TIL_VSTATUS_CVT_INVALID) (by decide) hm,
        hclear (f := F.TIL_VSTATUS_ARITH_OVF) (by decide) hm, hclear (f := F.TIL_VSTATUS_ARITH_INVALID) (by decide) hm,
        hclear (f := F.TIL_VSTATUS_PERM_RANGE) (by decide) hm⟩,
      fun m hm => vflags_flagCleared s t idx flags r b n r' hm, sameData_flagCleared ..,
      fun w hw => tile_flagCleared_ne s t idx flags r b n r' hw, eq_of_sansTileRegs (sansTileRegs_flagCleared ..)⟩
  · have hdone := completed_completeHead hr hf hd hg wait lat
    obtain ⟨r', hrun, hfin, hcreds, hlen⟩ := hdone.run
    have hexec : exec (.instrComplete t e wait lat) s = .next (s.completeHead t e wait lat) := by
      refine (State.runIf_true s hw _).trans (congrArg Host.Outcome.next ?_)
      rw [carryOut_of_done hr hf (held_of_flightDone hd)]
    exact ⟨_, r', hexec, hrun, hfin, hcreds, hlen, hdone.data, hdone.tile, hdone.rest⟩
  · refine (State.runIf_true s hw _).trans (congrArg Host.Outcome.next ?_)
    rw [carryOut_of_waits hr hf h hx hwait]
    exact completeHead_of_waits hr hf (flightDone_of_held s t h)
  · have hdone := completed_vec hr hf h hready hx hc ha hm hn hg wait lat
    obtain ⟨r', hrun, hfin, hcreds, hlen⟩ := hdone.run
    have hflags (o : Nat) (ho : memberFlags r o) : tileRegs t r o := by
      obtain ⟨m, hm, ho⟩ := ho
      exact .inl ⟨m, hm, .inl ho⟩
    refine ⟨_, r', State.runIf_true s hw _, hrun, hfin, hcreds, hlen, fun k hk => ?_, fun w hw hm => ?_, ?_⟩
    · have hdata := hdone.sameData (r.members.getD k 0)
      rwa [vecWrites_eq, tile_vecMembers hn s _ hk] at hdata
    · rw [hdone.tile w hw, vecWrites_eq, tile_vecMembers_ne s _ hm]
    · refine SameOffParts.trans ?_ hdone.rest
      rw [vecWrites_eq]
      exact ((sameOffTiles_vecMembers s r _).mono hflags).offParts
  · have hset {f : Fld} (hf : f ∈ flagFields) := fget_setVflags hf s t hfl
    refine ⟨hset (f := F.TIL_VSTATUS_CVT_OVF) (by decide), hset (f := F.TIL_VSTATUS_CVT_INVALID) (by decide),
      hset (f := F.TIL_VSTATUS_ARITH_OVF) (by decide), hset (f := F.TIL_VSTATUS_ARITH_INVALID) (by decide),
      hset (f := F.TIL_VSTATUS_PERM_RANGE) (by decide), ?_⟩
    rw [setVflags_eq s t hfl]
    exact onlyRegs_fsetAll (ks := flagFields.map (regKey (R.TIL_VSTATUS t))) (.refl s _)
      fun f hf => List.mem_map_of_mem (mem_flagFields_of_flagsOf hf)

end Sys2Proof.Machine
end

section
/-!
The words of tile instructions (O57). A packed word reads field by field as its fields were packed; the decoder of each class then sees
those fields in a word of which nothing else is known.
-/

set_option Elab.async false

namespace Sys2Proof.Machine

/-! ### Fields of a packed word -/

/-- The bits that a list of fields takes. -/
@[simp] def fieldsWidth : List (Nat × Nat) → Nat
  | [] => 0
  | f :: l => f.1 + fieldsWidth l

/-- What a packed list of fields holds at bits [lo + w - 1 : lo]: a whole field, a part of one, or bits of several. -/
@[simp] def fieldAt : List (Nat × Nat) → Nat → Nat → Nat
  | [], lo, w => bits 0 lo w
  | f :: l, lo, w =>
    if lo + w ≤ fieldsWidth l then fieldAt l lo w
    else if lo = fieldsWidth l ∧ w = f.1 then f.2
    else if fieldsWidth l ≤ lo then bits f.2 (lo - fieldsWidth l) w else bits (packWord (f :: l)) lo w

theorem packWord_cons_eq (f : Nat × Nat) (l : List (Nat × Nat)) :
    packWord (f :: l) = f.2 * 2 ^ fieldsWidth l + packWord l := by
  have hfold (a : Nat) : l.foldl (fun w f => w * 2 ^ f.1 + f.2) a = a * 2 ^ fieldsWidth l + packWord l := by
    induction l generalizing a with
    | nil => simp [packWord, fieldsWidth]
    | cons g l ih =>
      rw [packWord, List.foldl_cons, List.foldl_cons, ih, ih (0 * _ + _), fieldsWidth, Nat.pow_add]
      ring
  rw [packWord, List.foldl_cons, hfold, Nat.zero_mul, Nat.zero_add]

theorem packWord_lt {l : List (Nat × Nat)} (h : fieldsFit l = true) : packWord l < 2 ^ fieldsWidth l := by
  induction l with
  | nil => exact Nat.one_pos
  | cons f l ih =>
    obtain ⟨hf, hl⟩ : f.2 < 2 ^ f.1 ∧ fieldsFit l = true := by simpa [fieldsFit] using h
    rw [packWord_cons_eq, fieldsWidth, Nat.pow_add]
    calc f.2 * 2 ^ fieldsWidth l + packWord l < f.2 * 2 ^ fieldsWidth l + 2 ^ fieldsWidth l := Nat.add_lt_add_left (ih hl) _
      _ = (f.2 + 1) * 2 ^ fieldsWidth l := by ring
      _ ≤ 2 ^ f.1 * 2 ^ fieldsWidth l := Nat.mul_le_mul_right _ hf

theorem bits_of_lt {x w : Nat} (h : x < 2 ^ w) : bits x 0 w = x := Nat.mod_eq_of_lt h

theorem bits_bits {x lo n a b : Nat} (h : a + b ≤ n) : bits (bits x lo n) a b = bits x (lo + a) b := by
  refine Nat.eq_of_testBit_eq fun k => ?_
  simp only [testBit_bits, Nat.add_assoc]
  by_cases hk : k < b
  · rw [decide_eq_true (show a + k < n by omega), Bool.true_and]
  · rw [decide_eq_false hk, Bool.false_and, Bool.false_and]

theorem bits_pair_low {a n p lo w : Nat} (h : lo + w ≤ n) : bits (a * 2 ^ n + p) lo w = bits p lo w := by
  obtain ⟨d, rfl⟩ := Nat.exists_eq_add_of_le h
  have hsplit : a * 2 ^ (lo + w + d) + p = p + 2 ^ lo * (2 ^ w * (a * 2 ^ d)) := by
    rw [Nat.pow_add, Nat.pow_add]
    ring
  rw [bits, bits, hsplit, Nat.shiftRight_eq_div_pow, Nat.shiftRight_eq_div_pow, Nat.add_mul_div_left _ _ (Nat.two_pow_pos lo),
    Nat.add_mul_mod_self_left]

theorem bits_pair_high {a n p lo w : Nat} (hp : p < 2 ^ n) (h : n ≤ lo) : bits (a * 2 ^ n + p) lo w = bits a (lo - n) w := by
  have hshift : (a * 2 ^ n + p) >>> n = a := by
    rw [Nat.shiftRight_eq_div_pow, Nat.add_comm, Nat.add_mul_div_right _ _ (Nat.two_pow_pos n), Nat.div_eq_of_lt hp, Nat.zero_add]
  rw [bits, bits, ← Nat.add_sub_cancel' h, Nat.shiftRight_add, hshift, Nat.add_sub_cancel_left]

/-- Each field of a packed word reads as it was packed. -/
theorem bits_packWord {l : List (Nat × Nat)} (hfit : fieldsFit l = true) (lo w : Nat) : bits (packWord l) lo w = fieldAt l lo w := by
  induction l with
  | nil => rfl
  | cons f l ih =>
    obtain ⟨hf, hl⟩ : f.2 < 2 ^ f.1 ∧ fieldsFit l = true := by simpa [fieldsFit] using hfit
    rw [fieldAt]
    split
    case isTrue hlow => rw [packWord_cons_eq, bits_pair_low hlow, ih hl]
    case isFalse =>
      split
      case isTrue hwhole =>
        rw [packWord_cons_eq, bits_pair_high (packWord_lt hl) (Nat.le_of_eq hwhole.1.symm), hwhole.1, hwhole.2, Nat.sub_self, bits_of_lt hf]
      case isFalse =>
        split
        case isTrue hhigh => rw [packWord_cons_eq, bits_pair_high (packWord_lt hl) hhigh]
        case isFalse => rfl

/-! ### Codes and what they name -/

@[simp] theorem fmtOf_fmtCode (f : Fmt) : fmtOf (fmtCode f) = some f := by cases f <;> rfl
@[simp] theorem engineOf_engineCode (e : Engine) : engineOf (engineCode e) = e := by cases e <;> rfl
@[simp] theorem credOf_credCode (c : Cred) : credOf (credCode c) = c := by
  obtain ⟨en, early, e⟩ := c
  cases en <;> cases early <;> cases e <;> rfl
@[simp] theorem vselOf_vselCode (v : VSel) : vselOf (vselCode v) = some v := by cases v <;> rfl
@[simp] theorem modeOf_modeCode (m : MmaMode) : modeOf (modeCode m) = some m := by cases m <;> rfl
@[simp] theorem initOf_initCode (i : MmaInit) : initOf (initCode i) = some i := by cases i <;> rfl
@[simp] theorem placeOf_placeBits (p : Place) : placeOf (placeBits p) = some p := by cases p <;> rfl
@[simp] theorem vtyOf_vtyCode (t : VTy) : vtyOf (vtyCode t) = some t := by cases t <;> rfl
@[simp] theorem axisOf_axisCode (a : Axis) : axisOf (axisCode a) = some a := by cases a <;> rfl
@[simp] theorem combineOf_combineCode (c : Combine) : combineOf (combineCode c) = c := by cases c <;> rfl
@[simp] theorem vecOpOf_vecCode (op : VecOp) : vecOpOf (vecCode op) = some op := by
  cases op with
  | cmp r => cases r <;> rfl
  | icmp r => cases r <;> rfl
  | _ => rfl
@[simp] theorem redKindOf_redCode (op : RedKind) : redKindOf (redCode op) = some op := by
  cases op with
  | red o => cases o <;> rfl
  | _ => rfl
@[simp] theorem b2n_beq_one (b : Bool) : (b2n b == 1) = b := by cases b <;> rfl

/-- A word whose fields are those of a list. -/
def Spells (w : Nat) (l : List (Nat × Nat)) : Prop := ∀ lo n, bits w lo n = fieldAt l lo n

theorem spells_packWord {l : List (Nat × Nat)} (h : fieldsFit l = true) : Spells (packWord l) l := bits_packWord h

theorem tinsWf_fits {i : TIns} (h : tinsWf i = true) : fieldsFit (tinsFields i) = true := (Bool.and_eq_true_iff.mp h).1

theorem Spells.bit {w : Nat} {l : List (Nat × Nat)} (h : Spells w l) (k : Nat) : bit w k = (fieldAt l k 1 == 1) := by
  rw [Machine.bit, h]

variable {w : Nat}

/-! ### The words of each class -/

theorem decCtl_nop (h : Spells w (tinsFields .nop)) : decCtl w = some .nop := by
  simp [decCtl, h _ _, tinsFields, guardO]

theorem decCtl_vbase {v n : Nat} (h : Spells w (tinsFields (.vbase v n))) : decCtl w = some (.vbase v n) := by
  simp [decCtl, h _ _, tinsFields, guardO]

theorem decCtl_trap {c : Nat} (h : Spells w (tinsFields (.trap c))) : decCtl w = some (.trap c) := by
  simp [decCtl, h _ _, tinsFields, guardO]

theorem decMov_movFields {op : MovOp} {o : MovOps} (h : Spells w (movFields op o)) (hwait : waitOk (movEngine op) o.wait = true)
    (hpost : postOk (movEngine op) (movEngine op == .store) o.post = true) (hherd : (op == .hld || op == .hst) = true → o.dslot = 0) :
    decMov w = some (.mov op o) := by
  cases op <;> simp [movEngine] at hwait hpost hherd <;> simp [decMov, h _ _, h.bit, movFields, movCode, guardO, hwait, hpost]
  case hld => exact hherd
  case hst => exact hherd

theorem decMmul_mmulFields {o : MmulOps} (h : Spells w (mmulFields o)) (hwait : waitOk .array o.wait = true)
    (hpost : postOk .array true o.post = true) (hout : o.okind = .regs → o.out % 4 = 0) : decMmul w = some (.mmul o) := by
  simp [decMmul, h _ _, h.bit, mmulFields, guardO, hwait, hpost]
  exact hout

theorem decMma_mspan {o : SpanOps} (h : Spells w (spanFields o)) : decMma w = some (.mspan o) := by
  simp [decMma, h _ _, spanFields, guardO]

theorem decMma_mwin {o : WinOps} (h : Spells w (winFields o))
    (hl : if o.lkind = .none then o.lsrc = 0 ∧ o.lpair = false ∧ o.lfmt = .bf16 else fmt16 o.lfmt = true ∨ o.lfmt = .int32) :
    decMma w = some (.mwin o) := by
  obtain ⟨slot, rowoff, coloff, lkind, lsrc, lpair, lfmt⟩ := o
  cases lkind <;> simp [decMma, h _ _, h.bit, winFields, guardO, placeOf, placeBits] at hl ⊢
  case none => exact ⟨hl.1.symm, hl.2.1, hl.2.2.symm⟩
  case view => grind
  case regs => grind

theorem vsrcOf_bits (w lo : Nat) :
    vsrcOf (bits w lo 8) = { scl := bit w (lo + 7), neg := bit w (lo + 6), abs := bit w (lo + 5), reg := bits w lo 5 } := by
  simp [vsrcOf, bit, bits_bits]

theorem decVec_vecFields {op : VecOp} {o : VecOps} (h : Spells w (vecFields op o)) (hvl : 1 ≤ o.vl) (hvr : 1 ≤ o.vr)
    (hok : vecOk op o = true) : decVec w = some (.vec op o) := by
  simp only [decVec, vsrcOf_bits]
  simp [h _ _, h.bit, vecFields, guardO, srcFields, Nat.sub_add_cancel hvl, Nat.sub_add_cancel hvr, hok]

theorem decRed_redFields {op : RedKind} {o : RedOps} (h : Spells w (redFields op o)) (hvl : 1 ≤ o.vl) (hvr : 1 ≤ o.vr)
    (hok : redOk op o = true) : decRed w = some (.red op o) := by
  simp [decRed, h _ _, h.bit, redFields, guardO, Nat.sub_add_cancel hvl, Nat.sub_add_cancel hvr, hok]

theorem bits_of_register {r : Nat} (h : r < 32) : bits r 5 1 = 0 ∧ bits r 0 5 = r :=
  ⟨by simp [bits, Nat.shiftRight_eq_div_pow, Nat.div_eq_of_lt h], bits_of_lt h⟩

theorem decCvt_cvtFields {o : CvtOps} (h : Spells w (cvtFields o)) (hvl : 1 ≤ o.vl) (hvr : 1 ≤ o.vr)
    (hwait : waitOk .vector o.wait = true) (hpost : postOk .vector o.smem o.post = true)
    (hsrc : o.smem = false → fmtInReg o.sfmt = true ∧ o.src < 32) (hdst : o.dmem = false → fmtInReg o.dfmt = true ∧ o.dst < 32) :
    decCvt w = some (.cvt o) := by
  obtain ⟨wait, post, sfmt, dfmt, smem, src, dmem, dst, vl, vr, sr, keygrp, org, men, mask, mz⟩ := o
  simp [decCvt, h _ _, h.bit, cvtFields, guardO, Nat.sub_add_cancel hvl, Nat.sub_add_cancel hvr, hwait, hpost]
  have hs := fun hm => bits_of_register (hsrc hm).2
  have hd := fun hm => bits_of_register (hdst hm).2
  cases smem <;> cases dmem <;> simp_all

theorem countsOf_countFields {op : Nat} {e : Engine} {n : Counts} (h : Spells w (countFields op e n)) (hn : countsFit e n = true) :
    countsOf w = some n := by
  simp [countsFit] at hn
  simp [countsOf, h _ _, countFields, guardO, hn]

theorem decSyn_cwait {e : Engine} {n : Counts} (h : Spells w (countFields 0 e n)) (hn : countsFit e n = true) :
    decSyn w = some (.cwait e n) := by
  simp [decSyn, countsOf_countFields h hn, h _ _]
  simp [countFields]

theorem decSyn_cpost {e : Engine} {n : Counts} (h : Spells w (countFields 1 e n)) (hn : countsFit e n = true) :
    decSyn w = some (.cpost e n) := by
  simp [decSyn, countsOf_countFields h hn, h _ _]
  simp [countFields]

theorem decSyn_semwait {e : Engine} {sem n : Nat} (h : Spells w (semFields 2 e sem n)) (hn : n ≠ 0) :
    decSyn w = some (.semwait e sem n) := by
  simp [decSyn, h _ _, semFields, guardO, hn]

theorem decSyn_semsig {e : Engine} {sem n : Nat} (h : Spells w (semFields 3 e sem n)) (hn : n ≠ 0) :
    decSyn w = some (.semsig e sem n) := by
  simp [decSyn, h _ _, semFields, guardO, hn]

theorem decSyn_flagclr {f : Nat} (h : Spells w (tinsFields (.flagclr f))) : decSyn w = some (.flagclr f) := by
  simp [decSyn, h _ _, tinsFields, guardO]

theorem decSumm_summFields {o : SummOps} (h : Spells w (summFields o)) (hok : summFits o = true) : decSumm w = some (.summ o) := by
  obtain ⟨kind, tag, clr, drain, combine, ty, imm, vl, vr, men, mask, reg, k⟩ := o
  by_cases hk : kind = 4
  · subst hk
    simp [decSumm, h _ _, h.bit, summFields, guardO, summFits] at hok ⊢
    tauto
  · simp [decSumm, h _ _, h.bit, summFields, guardO, summFits, shapeWf, hk] at hok ⊢
    grind

theorem decSyn_summ {o : SummOps} (h : Spells w (summFields o)) (hok : summFits o = true) : decSyn w = some (.summ o) := by
  have hop : bits w 52 8 = 4 := by rw [h, summFields]; split <;> simp
  simp [decSyn, hop, decSumm_summFields h hok]

theorem decCol_colFields {op : Nat} {o : ColOps} (h : Spells w (colFields op o)) (hop : op ≤ 2) (hwait : waitOk .store o.wait = true) :
    decCol w = some (.col op o) := by
  simp [decCol, h _ _, colFields, guardO, hop, hwait]

theorem decMma_mmul {o : MmulOps} (h : Spells w (mmulFields o)) (hdec : decMmul w = some (.mmul o)) : decMma w = some (.mmul o) := by
  simpa [decMma, h _ _, mmulFields] using hdec

/-! ### Every class -/

theorem tileDecode_of_spells {i : TIns} (h : Spells w (tinsFields i)) (hwf : tinsWf i = true) : tileDecode w = some i := by
  obtain ⟨-, hok⟩ := Bool.and_eq_true_iff.mp hwf
  cases i with
  | nop => simpa [tileDecode, h 60 4, tinsFields] using decCtl_nop h
  | vbase v n => simpa [tileDecode, h 60 4, tinsFields] using decCtl_vbase h
  | trap c => simpa [tileDecode, h 60 4, tinsFields] using decCtl_trap h
  | mov op o =>
    simp at hok
    obtain ⟨⟨hwait, hpost⟩, hherd⟩ := hok
    have hdec := decMov_movFields h hwait hpost (by simp; tauto)
    simpa [tileDecode, h 60 4, tinsFields, movFields] using hdec
  | mmul o =>
    simp at hok
    obtain ⟨⟨hwait, hpost⟩, hout⟩ := hok
    have hdec := decMma_mmul h (decMmul_mmulFields h hwait hpost (by tauto))
    simpa [tileDecode, h 60 4, tinsFields, mmulFields] using hdec
  | mspan o => simpa [tileDecode, h 60 4, tinsFields, spanFields] using decMma_mspan h
  | mwin o =>
    have hdec := decMma_mwin h (by simpa [and_assoc] using hok)
    simpa [tileDecode, h 60 4, tinsFields, winFields] using hdec
  | vec op o =>
    simp [shapeWf] at hok
    obtain ⟨⟨hvl, hvr⟩, hops⟩ := hok
    simpa [tileDecode, h 60 4, tinsFields, vecFields, srcFields] using decVec_vecFields h hvl hvr hops
  | cvt o =>
    simp [shapeWf] at hok
    obtain ⟨⟨⟨⟨hwait, hpost⟩, hvl, hvr⟩, hsrc⟩, hdst⟩ := hok
    have hdec := decCvt_cvtFields h hvl hvr hwait hpost (by grind) (by grind)
    simpa [tileDecode, h 60 4, tinsFields, cvtFields] using hdec
  | red op o =>
    simp [shapeWf] at hok
    obtain ⟨⟨hvl, hvr⟩, hops⟩ := hok
    simpa [tileDecode, h 60 4, tinsFields, redFields] using decRed_redFields h hvl hvr hops
  | cwait e n => simpa [tileDecode, h 60 4, tinsFields, countFields] using decSyn_cwait h hok
  | cpost e n => simpa [tileDecode, h 60 4, tinsFields, countFields] using decSyn_cpost h hok
  | semwait e sem n => simpa [tileDecode, h 60 4, tinsFields, semFields] using decSyn_semwait h (by simpa using hok)
  | semsig e sem n => simpa [tileDecode, h 60 4, tinsFields, semFields] using decSyn_semsig h (by simpa using hok)
  | summ o =>
    have hcls : bits w 60 4 = 6 := by rw [h, tinsFields, summFields]; split <;> simp
    simpa [tileDecode, hcls] using decSyn_summ h hok
  | flagclr f => simpa [tileDecode, h 60 4, tinsFields] using decSyn_flagclr h
  | col op o =>
    simp at hok
    simpa [tileDecode, h 60 4, tinsFields, colFields] using decCol_colFields h hok.1 hok.2

/-- Settles O57: the word of an instruction spells its fields, and each class decodes what spells the fields of its instructions. -/
theorem tileWords : Obligations.TileWords := by
  unfold Obligations.TileWords
  exact fun i hi => tileDecode_of_spells (spells_packWord (tinsWf_fits hi)) hi

end Sys2Proof.Machine
end

section
/-!
Segment queues (O8): what a push leaves, where it joins its queue and where it is lost, and the flags of a segment that runs too long.
-/

set_option Elab.async false

namespace Sys2Proof.Machine

variable {s u : State} {a : Agent} {t v : Nat} {r : Run}

/-! ### Pushes (R69, R195) -/

/-- A push that reaches its tile has its effect, after the answer to the agent. -/
theorem exec_segqPush (hw : instrWf (.segqPush a t v) = true) (he : s.entry a .til t (R.TIL_SEGQ_PUSH t) true = .reach) :
    exec (.segqPush a t v) s = .next (segqPushEffect a t v (s.answer .ok 0)) := by
  refine (State.runIf_true s hw _).trans (congrArg Host.Outcome.next ?_)
  rw [he, State.writeReg_reach _ he]
  rfl

/-- The queue of a tile once a push has joined it. -/
def State.pushed (s : State) (t v : Nat) : State :=
  s.modTile t fun x =>
    { x with queue := x.queue ++ [{ herd := bit v 63, addr := bits v 6 50 * 64, ctx := s.pushCtx t, upd := s.pushUpd t }] }

theorem segqPushEffect_joins (hl : s.isLead t = true) (hf : s.tileFenced t = false) (hq : (s.tile t).queue.length < 64) :
    segqPushEffect a t v s = (s.pushed t v).pushBeat a := by
  have hroom : decide (segQueueSize ≤ (s.tile t).queue.length) = false := decide_eq_false (Nat.not_le.2 hq)
  simp only [segqPushEffect, hl, hf, hroom, Bool.not_true, Bool.false_eq_true, if_false, Bool.or_self]
  rfl

theorem herd_progress_ne (s : State) {h g : Nat} (n : g ≠ h) : (s.progress h).herd g = s.herd g := State.herd_setHerd_ne s _ n

theorem herd_progress_self (s : State) (h : Nat) : (s.progress h).herd h = { s.herd h with wd := 0 } := State.herd_setHerd_self ..

theorem pushBeat_of_not_control (s : State) (h : ∀ c b, a ≠ .control c b) : s.pushBeat a = s := by
  cases a with
  | control c b => exact absurd rfl (h c b)
  | server | mgmt | test => rfl

/-- The heartbeat of a control core, the count of its herd event apart (R69). -/
def State.beaten (s : State) (c : Nat) : State := (s.setCore c { s.core c with hb := 0 }).progress (c / 2)

theorem beaten_eq (s : State) (c : Nat) :
    s.beaten c = { s with cores := (s.beaten c).cores, herds := (s.beaten c).herds, dieWd := (s.beaten c).dieWd } := by
  unfold State.beaten State.progress State.setCore State.setHerd
  rfl

theorem sameUnits_pushBeat (s : State) (c : Nat) (b : Bool) : SameUnits (s.beaten c) (s.pushBeat (.control c b)) :=
  (sameUnits_pmcHerd ..).2 (.refl _)

theorem herd_beaten (s : State) (c h : Nat) : (s.beaten c).herd h = { s.herd h with wd := ((s.beaten c).herd h).wd } := by
  unfold State.beaten
  by_cases hh : h = c / 2
  · rw [hh, herd_progress_self]
    rfl
  · rw [herd_progress_ne _ hh]
    rfl

/-- What changes only cores, herds and watchdogs of dies, and then what units change, shows its own in these. -/
theorem SameUnits.cores_herds {w : State} (h : SameUnits w u) (hw : w = { s with cores := w.cores, herds := w.herds, dieWd := w.dieWd }) :
    SameUnits { s with cores := u.cores, herds := u.herds, dieWd := u.dieWd } u := by
  have hc : u.cores = w.cores := by rw [h.1]
  have hh : u.herds = w.herds := by rw [h.1]
  rw [hc, hh, h.dieWd, ← hw]
  exact h

/-- The heartbeat that goes with a push is progress of the herd and the die of a control core, and changes nothing else of a herd. -/
theorem pushBeat_spec (s : State) (a : Agent) :
    (∀ c b, a = .control c b → ((s.pushBeat a).core c).hb = 0 ∧ ((s.pushBeat a).herd (c / 2)).wd = 0
        ∧ Map.get 0 (s.pushBeat a).dieWd (c / 2 / 8) = 0)
      ∧ (∀ h, (s.pushBeat a).herd h = { s.herd h with wd := ((s.pushBeat a).herd h).wd })
      ∧ SameUnits { s with cores := (s.pushBeat a).cores, herds := (s.pushBeat a).herds, dieWd := (s.pushBeat a).dieWd } (s.pushBeat a) := by
  by_cases hc : ∃ c b, a = .control c b
  · obtain ⟨c, b, rfl⟩ := hc
    have hp := sameUnits_pushBeat s c b
    refine ⟨fun d b' he => ?_, fun h => ?_, hp.cores_herds (beaten_eq s c)⟩
    · cases he
      rw [hp.core, hp.herd, hp.dieWd, State.beaten, core_progress, State.core_setCore_self, wd_progress, dieWd_progress]
      exact ⟨rfl, rfl, rfl⟩
    · rw [hp.herd]
      exact herd_beaten s c h
  · rw [pushBeat_of_not_control s fun c b he => hc ⟨c, b, he⟩]
    exact ⟨fun c b he => absurd ⟨c, b, he⟩ hc, fun _ => rfl, .refl s⟩

theorem leadOf_answer (s : State) (k : RspKind) (d h i : Nat) : (s.answer k d).leadOf h i = s.leadOf h i := by
  induction i with
  | zero => rfl
  | succ i ih =>
    simp only [State.leadOf, ih]
    rfl

theorem isLead_answer (s : State) (k : RspKind) (d t : Nat) : (s.answer k d).isLead t = s.isLead t := by
  rw [State.isLead, State.isLead, leadOf_answer]

/-- The registers of a push that is lost, the count of its herd event apart. -/
def State.pushRefused (s : State) (t : Nat) : State :=
  (s.when (!s.isLead t) fun s => s.fset (R.HRD_GANG (t / 12)) F.HRD_GANG_PUSH_REFUSED 1).fset (R.TIL_SEG_STATUS t)
    F.TIL_SEG_STATUS_PUSH_LOST 1

theorem segqPushEffect_lost (h : s.isLead t = false ∨ s.tileFenced t = true ∨ 64 ≤ (s.tile t).queue.length) :
    segqPushEffect a t v s = (s.pushRefused t).pmcHerd (t / 12) 4 1 := by
  cases hl : s.isLead t
  · simp only [segqPushEffect, State.pushRefused, hl, Bool.not_false, if_true]
    rfl
  · have hlost : (s.tileFenced t || decide (segQueueSize ≤ (s.tile t).queue.length)) = true := by
      rw [Bool.or_eq_true]
      exact (h.resolve_left (by simp [hl])).imp_right decide_eq_true
    simp only [segqPushEffect, State.pushRefused, hl, hlost, Bool.not_true, Bool.false_eq_true, if_false, if_true]
    rfl

theorem gangKey_ne_segStatus (t h : Nat) (f : Fld) (hf : f.lo < 64) :
    regKey (R.HRD_GANG h) F.HRD_GANG_PUSH_REFUSED ≠ regKey (R.TIL_SEG_STATUS t) f := by
  refine regKey_ne_of_off ?_ (by decide) hf
  simp only [R.HRD_GANG, R.TIL_SEG_STATUS, B.til, B.hrd, B.die]
  omega

theorem onlyAnswer_pushRefused (s : State) (t : Nat) :
    OnlyAnswer s ((s.answer .ok 0).pushRefused t) [regKey (R.TIL_SEG_STATUS t) F.TIL_SEG_STATUS_PUSH_LOST,
      regKey (R.HRD_GANG (t / 12)) F.HRD_GANG_PUSH_REFUSED] := by
  have h0 := (OnlyAnswer.refl s [regKey (R.TIL_SEG_STATUS t) F.TIL_SEG_STATUS_PUSH_LOST,
    regKey (R.HRD_GANG (t / 12)) F.HRD_GANG_PUSH_REFUSED]).answer .ok 0
  unfold State.pushRefused
  refine .fset ?_ 1 (by simp)
  cases !(s.answer .ok 0).isLead t
  · exact h0
  · exact h0.fset 1 (by simp)

/-! ### Segments over time (R59, R198) -/

theorem exec_segOverrun (ht : t < 192) (hr : (s.tile t).run = some r) (ho : r.overran = false) (hp : s.period ≤ s.elapsed r) :
    exec (.segOverrun t) s = .next ((((s.modTile t fun x => { x with run := some { r with overran := true } }).segFlag t
      F.TIL_SEG_STATUS_SEG_OVERRUN).fadd (R.TIL_SEG_RETIRED t) F.TIL_SEG_RETIRED_OVERRUNS 1).pmcTile t 0x13 1) := by
  refine (State.runIf_true s (decide_eq_true ht) _).trans (congrArg Host.Outcome.next ?_)
  simp only [hr, ho, Nat.not_lt.2 hp, decide_false, Bool.or_self, Bool.false_eq_true, if_false]

theorem exec_budgetOver (ht : t < 192) (hr : (s.tile t).run = some r) (ho : r.overBudget = false) (hb : r.img.budget < s.elapsed r) :
    exec (.budgetOver t) s =
      .next ((s.modTile t fun x => { x with run := some { r with overBudget := true } }).segFlag t F.TIL_SEG_STATUS_BUDGET_OVER) := by
  refine (State.runIf_true s (decide_eq_true ht) _).trans (congrArg Host.Outcome.next ?_)
  simp only [hr, ho, Nat.not_le.2 hb, decide_false, Bool.or_self, Bool.false_eq_true, if_false]

theorem segRetired_ne_segStatus (t : Nat) :
    regKey (R.TIL_SEG_STATUS t) F.TIL_SEG_STATUS_SEG_OVERRUN ≠ regKey (R.TIL_SEG_RETIRED t) F.TIL_SEG_RETIRED_OVERRUNS :=
  regKey_ne_of_off (.inl le_rfl) (by decide) (by decide)

/-- Settles O8: a push has the effect of its register; a segment that runs too long sets its flag once, and runs on. -/
theorem segmentQueue : Obligations.SegmentQueue := by
  unfold Obligations.SegmentQueue
  refine ⟨fun s a t v hw he hl hf hq => ?_, fun s a t v hw he hlost => ?_, fun s t r ht hr ho hp => ?_, fun s t r ht hr ho hb => ?_⟩
  · obtain ⟨hbeat, hherd, hrest⟩ := pushBeat_spec ((s.answer .ok 0).pushed t v) a
    have htile (m : Nat) : (((s.answer .ok 0).pushed t v).pushBeat a).tile m = ((s.answer .ok 0).pushed t v).tile m := hrest.tile m
    have htiles : (((s.answer .ok 0).pushed t v).pushBeat a).tiles = ((s.answer .ok 0).pushed t v).tiles := by rw [hrest.1]
    refine ⟨_, (exec_segqPush hw he).trans (congrArg _ (segqPushEffect_joins ((isLead_answer ..).trans hl) hf hq)), hrest.rsp, ?_,
      fun m hm => ?_,
      hbeat, hherd, ?_⟩
    · exact (htile t).trans (tile_modTile_self ..)
    · exact (htile m).trans (tile_modTile_ne _ _ hm)
    · rw [htiles, hrest.rsp]
      exact hrest
  · refine ⟨_, (exec_segqPush hw he).trans (congrArg _ (segqPushEffect_lost (by rwa [isLead_answer]))), State.fget_fset_self ..,
      fun hl => ?_, onlyAnswer_pushRefused s t⟩
    rw [State.pushRefused, State.fget_fset_ne _ _ (gangKey_ne_segStatus t _ _ (by decide)), isLead_answer, hl]
    exact State.fget_fset_self ..
  · refine ⟨_, exec_segOverrun ht hr ho hp, ?_, fun v hv => ?_, ?_, ?_, rfl, ?_⟩
    · rw [State.tile_fadd, State.segFlag, State.tile_fset, tile_modTile_self]
    · rw [State.tile_fadd, State.segFlag, State.tile_fset, tile_modTile_ne _ _ hv]
    · rw [State.fadd, State.fget_fset_ne _ _ (segRetired_ne_segStatus t)]
      exact State.fget_fset_self ..
    · exact (fget_fadd_self 1).trans (by rw [State.segFlag, State.fget_fset_ne _ _ (segRetired_ne_segStatus t).symm]; rfl)
    · exact (SameRegs.fset (.fset (.refl s _) 1 (by simp)) _ (by simp))
  · exact ⟨_, exec_budgetOver ht hr ho hb, (State.tile_fset ..).trans (tile_modTile_self ..),
      fun v hv => (State.tile_fset ..).trans (tile_modTile_ne _ _ hv), State.fget_fset_self .., rfl,
      SameRegs.fset (.refl s _) 1 (by simp)⟩

end Sys2Proof.Machine
end

section
/-!
The instructions of the dispatcher (O10): what the dispatcher leaves of a run, and the end of a segment by a fault (R171, R175, R199).
-/

set_option Elab.async false

namespace Sys2Proof.Machine

variable {s u : State} {t idx : Nat} {x : TIns} {r : Run}

/-! ### The run of a tile in the dispatcher -/

theorem modRun_eq (h : (s.tile t).run = some r) (f : Run → Run) : s.modRun t f = s.modTile t fun y => { y with run := some (f r) } := by
  rw [State.modRun, State.modTile, State.modTile, h]
  rfl

theorem run_issuedAt (s : State) (t idx : Nat) (x : TIns) (r : Run) : ((s.issuedAt t idx x r).tile t).run = some (r.issue idx x) := by
  rw [tile_issuedAt_self]

theorem onlyTile_modTile (s : State) (t : Nat) (f : Tile → Tile) : OnlyTile s (s.modTile t f) t :=
  ⟨rfl, fun _ hv => tile_modTile_ne s f hv⟩

theorem OnlyTile.trans {w : State} (h1 : OnlyTile s u t) (h2 : OnlyTile u w t) : OnlyTile s w t :=
  ⟨h2.1.trans (congrArg (fun y : State => { y with tiles := w.tiles }) h1.1), fun v hv => (h2.2 v hv).trans (h1.2 v hv)⟩

/-- The dispatcher has taken an instruction that changes the run. -/
def State.dispatched (s : State) (t idx : Nat) (x : TIns) (r : Run) (f : Run → Run) : State :=
  ((s.issuedAt t idx x r).modRun t f).taken t

theorem dispatched_spec (s : State) (t idx : Nat) (x : TIns) (r : Run) (f : Run → Run) :
    OnlyTile s (s.dispatched t idx x r f) t
      ∧ (s.dispatched t idx x r f).tile t =
          { s.tile t with run := some { f (r.issue idx x) with finished := (f (r.issue idx x)).finished + 1 } } := by
  have h1 := modRun_eq (run_issuedAt s t idx x r) f
  have hrun : (((s.issuedAt t idx x r).modRun t f).tile t).run = some (f (r.issue idx x)) := by rw [h1, tile_modTile_self]
  have h2 : s.dispatched t idx x r f = _ := modRun_eq hrun fun r => { r with finished := r.finished + 1 }
  refine ⟨?_, ?_⟩
  · rw [h2, h1]
    exact ((onlyTile_modTile s t _).trans (onlyTile_modTile _ t _)).trans (onlyTile_modTile _ t _)
  · rw [h2, tile_modTile_self, h1, tile_modTile_self, tile_issuedAt_self]

/-- An instruction of the dispatcher that changes nothing else of the run. -/
theorem nopTaken_spec (s : State) (t idx : Nat) (x : TIns) (r : Run) :
    OnlyTile s ((s.issuedAt t idx x r).taken t) t
      ∧ ((s.issuedAt t idx x r).taken t).tile t =
          { s.tile t with run := some { r.issue idx x with finished := (r.issue idx x).finished + 1 } } := by
  have h : (s.issuedAt t idx x r).taken t = _ := modRun_eq (run_issuedAt s t idx x r) fun r => { r with finished := r.finished + 1 }
  rw [h]
  exact ⟨(onlyTile_modTile s t _).trans (onlyTile_modTile _ t _), by rw [tile_modTile_self, tile_issuedAt_self]⟩

/-! ### The end of a segment by a fault (R199) -/

/-- What decides which partition a tile belongs to. -/
theorem partOfHerd_congr (h : ∀ p, p < 8 → u.herdsOf p = s.herdsOf p) (i : Nat) : u.partOfHerd i = s.partOfHerd i := by
  unfold State.partOfHerd firstUpTo
  exact List.find?_congr fun p hp => by rw [h p (List.mem_range.1 hp)]

theorem herdsOf_dropAcc (s : State) (m : Nat) {p : Nat} (_hp : p < 8) : (s.dropAcc m).herdsOf p = s.herdsOf p := by
  have hoff : R.SCH_PART p + 8 ≤ R.TIL_MMA_STATUS m ∨ R.TIL_MMA_STATUS m + 8 ≤ R.SCH_PART p := by
    simp only [R.SCH_PART, R.TIL_MMA_STATUS, B.sch, B.til, B.hrd, B.die]
    omega
  rw [State.herdsOf, State.dropAcc, State.fget_fset_ne _ _ (regKey_ne_of_off hoff (by decide) (by decide)),
    State.fget_fset_ne _ _ (regKey_ne_of_off hoff (by decide) (by decide)), State.fget_setTile, State.herdsOf]

/-- What a stopped run leaves alone: the faults that wait, the contexts, and the herds of every partition. -/
theorem stopRun_keeps (s : State) (t : Nat) :
    (s.stopRun t).jobFaults = s.jobFaults ∧ (s.stopRun t).ctxs = s.ctxs ∧ ∀ p, p < 8 → (s.stopRun t).herdsOf p = s.herdsOf p := by
  rcases h : (s.tile t).run with _ | r
  · unfold State.stopRun
    rw [h]
    exact ⟨rfl, rfl, fun _ _ => rfl⟩
  · obtain ⟨f, k, e⟩ := stopRun_eq h
    have key {β : Type} {v : State → β} (hslot : ∀ p k y s, v (State.setSlot s p k y) = v s) (hacc : ∀ s m, v (State.dropAcc s m) = v s)
        (hasks : ∀ s f, v (State.asksGone s f) = v s) (htile : ∀ s m y, v (State.setTile s m y) = v s)
        (hwait : ∀ s m, v (State.dropWaiters s m) = v s) : v (s.stopRun t) = v s := by
      have hstats : v (s.statsDropped t k) = v s := by
        unfold State.statsDropped State.modSlot
        split
        · split
          · split
            · exact hslot ..
            · rfl
          · rfl
        · rfl
      have hsamp (w : State) : v (w.sampEnd t r) = v w := by
        unfold State.sampEnd
        split
        · exact htile ..
        · rfl
      rw [e, hwait, State.idles, htile, hsamp, hasks, State.accsDropped, foldl_keeps hacc, hstats]
    exact ⟨key (fun _ _ _ _ => rfl) (fun _ _ => rfl) (fun _ _ => rfl) (fun _ _ _ => rfl) (fun _ _ => rfl),
      key (fun _ _ _ _ => rfl) (fun _ _ => rfl) (fun _ _ => rfl) (fun _ _ _ => rfl) (fun _ _ => rfl),
      fun p hp => key (v := fun s => s.herdsOf p) (fun _ _ _ _ => rfl) (fun s m => herdsOf_dropAcc s m hp) (fun _ _ => rfl)
        (fun _ _ _ => rfl) (fun _ _ => rfl)⟩

section Fault
variable {cause log arg : Nat}

theorem jobFault_kept (f : JobFault) (s : State) : (s.jobFault f).kept = s.kept := rfl

/-- A segment that ends with a fault leaves time, memory, herds and cores, and its tile runs nothing. -/
theorem segFault_kept (s : State) (t : Nat) (r : Run) (idx cause log arg : Nat) :
    (s.segFault t r idx cause log arg).kept.noTiles = s.kept.noTiles ∧ ((s.segFault t r idx cause log arg).tile t).run = none := by
  have hk : (s.segFault t r idx cause log arg).kept = (s.stopRun t).kept := by
    rw [State.segFault, State.tileFault, jobFault_kept, kept_segRecord]
  exact ⟨(congrArg Kept.noTiles hk).trans (noTiles_stopRun t s), by rw [tiles_of_kept hk, run_stopRun]⟩

/-- The fault waits behind those that were there. -/
theorem jobFaults_segFault (s : State) (t : Nat) (r : Run) (idx cause log arg : Nat) :
    (s.segFault t r idx cause log arg).jobFaults = s.jobFaults ++ [{
      unit := t, kind := 1, cause := log, segId := r.img.segId, index := idx, arg := arg, ctx := r.ctx, job := s.jobOf r.ctx,
      part := (s.partOfTile t).getD 0 }] := by
  obtain ⟨hfaults, hctxs, hherds⟩ := stopRun_keeps s t
  have hpart : (s.stopRun t).partOfTile t = s.partOfTile t := partOfHerd_congr hherds _
  have hjob : (s.stopRun t).jobOf r.ctx = s.jobOf r.ctx := by rw [State.jobOf, State.jobOf, hctxs]
  have hrec (w : State) (n : Nat) : (w.segRecord t n idx cause).jobFaults = w.jobFaults := by
    unfold State.segRecord
    dsimp only
    split <;> rfl
  rw [State.segFault, State.tileFault, State.jobFault, hrec, hfaults, hpart, hjob]

theorem fget_segFault (s : State) (t : Nat) (r : Run) (idx cause log arg off : Nat) (f : Fld) :
    (s.segFault t r idx cause log arg).fget off f = ((s.stopRun t).segRecord t r.img.segId idx cause).fget off f := rfl

/-- TIL_SEG_STATUS names the cause of the fault and the index of its instruction, and the flag of the cause is set. -/
theorem status_segFault (s : State) (t : Nat) (r : Run) (idx log arg : Nat) {f : Fld} (h : causeFlag cause = some f)
    (hw : f.w = 1) (hc : f.lo ≠ F.TIL_SEG_STATUS_FAULT_CAUSE.lo) (hi : f.lo ≠ F.TIL_SEG_STATUS_FAULT_INDEX.lo) :
    (s.segFault t r idx cause log arg).fget (R.TIL_SEG_STATUS t) f = 1
      ∧ (s.segFault t r idx cause log arg).fget (R.TIL_SEG_STATUS t) F.TIL_SEG_STATUS_FAULT_CAUSE =
          cause % 2 ^ F.TIL_SEG_STATUS_FAULT_CAUSE.w
      ∧ (s.segFault t r idx cause log arg).fget (R.TIL_SEG_STATUS t) F.TIL_SEG_STATUS_FAULT_INDEX =
          idx % 2 ^ F.TIL_SEG_STATUS_FAULT_INDEX.w := by
  simp only [fget_segFault, State.segRecord, h]
  refine ⟨?_, ?_, ?_⟩
  · rw [State.fget_fset_self, hw]
    rfl
  · rw [State.fget_fset_ne _ _ (regKey_ne_of_lo hc.symm), State.fget_fset_self]
  · rw [State.fget_fset_ne _ _ (regKey_ne_of_lo hi.symm), State.fget_fset_ne _ _ (regKey_ne_of_lo (by decide)), State.fget_fset_self]

end Fault

/-! ### The instructions -/

theorem exec_issued {c : Instr} {f : Run → State → State} (hw : instrWf c = true)
    (hx : exec c s = s.runIf (instrWf c) (s.issue t idx x f)) (hi : Issues s t idx x r) :
    exec c s = .next (f (r.issue idx x) (s.issuedAt t idx x r)) :=
  hx.trans ((State.runIf_true s hw _).trans (congrArg Host.Outcome.next (issueOr_of_issues hi _ _)))

/-- The bases that a VBASE gives the members all make the view valid. -/
theorem vbase_of_valid {view sreg : Nat} (h : ∀ m, m < r.members.length →
      View.valid { (r.viewsAt idx m).getD view {} with base := (s.tile (r.members.getD m 0)).sval sreg % 2 ^ 22 } = true) :
    s.vbase t idx view sreg r = (s.modRun t fun x => { x with vbases := x.vbases ++ [(idx, view, r.members.map fun m =>
      (s.tile m).sval sreg % 2 ^ 22)] }).taken t := by
  refine if_neg ?_
  simp only [Run.anyMember, List.any_eq_true, List.mem_range, Bool.not_eq_true', not_exists, not_and]
  exact fun m hm hv => Bool.false_ne_true (hv.symm.trans (h m hm))

theorem vbase_of_invalid {view sreg : Nat} (h : ∃ m, m < r.members.length ∧
      View.valid { (r.viewsAt idx m).getD view {} with base := (s.tile (r.members.getD m 0)).sval sreg % 2 ^ 22 } = false) :
    s.vbase t idx view sreg r = s.segFault t r idx 8 8 0 := by
  obtain ⟨m, hm, hv⟩ := h
  refine if_pos ?_
  simp only [Run.anyMember, List.any_eq_true, List.mem_range, Bool.not_eq_true']
  exact ⟨m, hm, hv⟩

/-- Settles O10: each instruction is taken by the dispatcher with its change of the run; TRAP, and a VBASE that makes a view invalid, end
the segment with their fault. -/
theorem dispatcherInstructions : Obligations.DispatcherInstructions := by
  unfold Obligations.DispatcherInstructions
  refine ⟨fun s t idx r hw hi => ?_, fun s t idx view sreg r hw hi hv => ?_, fun s t idx o r hw hi => ?_, fun s t idx o r hw hi => ?_,
    fun s t idx code r hw hi => ?_, fun s t idx view sreg r hw hi hv => ?_⟩
  · exact ⟨_, exec_issued hw rfl hi, nopTaken_spec ..⟩
  · have hm : (r.issue idx (.vbase view sreg)).members = r.members := rfl
    refine ⟨_, (exec_issued hw rfl hi).trans (congrArg _ (vbase_of_valid (by rwa [hm]))), dispatched_spec ..⟩
  · exact ⟨_, exec_issued hw rfl hi, dispatched_spec ..⟩
  · exact ⟨_, exec_issued hw rfl hi, dispatched_spec ..⟩
  · obtain ⟨hkept, hrun⟩ := segFault_kept (s.issuedAt t idx (.trap code) r) t (r.issue idx (.trap code)) idx 9 9 code
    obtain ⟨hflag, hcause, hindex⟩ := status_segFault (cause := 9) (s.issuedAt t idx (.trap code) r) t (r.issue idx (.trap code)) idx 9 code
      rfl rfl (by decide) (by decide)
    exact ⟨_, exec_issued hw rfl hi, hrun, hflag, hcause, hindex, jobFaults_segFault .., congrArg Kept.mem hkept, congrArg Kept.clk hkept,
      congrArg Kept.herds hkept, congrArg Kept.cores hkept⟩
  · have hm : (r.issue idx (.vbase view sreg)).members = r.members := rfl
    refine ⟨_, (exec_issued hw rfl hi).trans (congrArg _ (vbase_of_invalid (by rwa [hm]))), (segFault_kept ..).2, ?_⟩
    exact (status_segFault _ t _ idx 8 0 rfl rfl (by decide) (by decide)).1

end Sys2Proof.Machine
end

section
/-!
The SYN class (O11): how an instruction without a POST goes in flight, the credits that it takes, and what it leaves at a semaphore
(R181, R185, R189).
-/

set_option Elab.async false

namespace Sys2Proof.Machine

variable {s u w : State} {t idx : Nat} {x : TIns} {r : Run} {e : Engine}

/-! ### Launch of an instruction without a POST -/

/-- An instruction without a POST goes in flight behind those of its engine. -/
theorem launch_noPost {kind : FlightKind} {ready : Bool} {posts : List (Engine × Nat)} {drain : Option Nat} {eaddr : Nat}
    (hr : (s.tile t).run = some r) (he : tinsEngine x = some e) (hp : (tinsPost x).en = false) :
    ∃ dropped tags f, s.launch t idx x kind ready posts drain eaddr = s.launchedAs t dropped tags (r.setFlights e (r.flights e ++ [f]))
      ∧ f.idx = idx ∧ f.kind = kind ∧ f.ready = ready ∧ f.posts = posts ∧ f.sent = false := by
  unfold State.launch
  rw [hr, he]
  simp only [hp, Bool.false_and, Bool.false_eq_true, if_false]
  exact ⟨_, _, _, rfl, rfl, rfl, rfl, List.append_nil _, rfl⟩

theorem sameRegs_launchedAs (s : State) (v : Nat) (b : Bool) (n : Nat) (r : Run) :
    SameRegs s (s.launchedAs v b n r) [regKey (R.PMC_SMP_PTR v) F.PMC_SMP_PTR_DROPPED] := by
  have h : SameRegs s (s.when b fun s => s.fadd (R.PMC_SMP_PTR v) F.PMC_SMP_PTR_DROPPED 1) [regKey (R.PMC_SMP_PTR v) F.PMC_SMP_PTR_DROPPED] :=
    .when (.refl s _) (.fset (.refl s _) _ (by simp))
  exact h

/-- An instruction of tile t changes that tile, but for what it computes with, and of the registers only the sampling counter. -/
structure Silent (t : Nat) (s u : State) : Prop where
  data : SameData (s.tile t) (u.tile t)
  tile : ∀ v, v ≠ t → u.tile v = s.tile v
  rest : u = { s with tiles := u.tiles, regs := u.regs }
  regs : SameRegs s u [regKey (R.PMC_SMP_PTR t) F.PMC_SMP_PTR_DROPPED]

theorem Silent.trans (h1 : Silent t s u) (h2 : Silent t u w) : Silent t s w where
  data := h1.data.trans h2.data
  tile v hv := (h2.tile v hv).trans (h1.tile v hv)
  rest := h2.rest.trans (congrArg (fun y : State => { y with tiles := w.tiles, regs := w.regs }) h1.rest)
  regs k hk := (h2.regs k hk).trans (h1.regs k hk)

theorem silent_modTile (s : State) {f : Tile → Tile} (h : SameData (s.tile t) (f (s.tile t))) : Silent t s (s.modTile t f) where
  data := by rwa [tile_modTile_self]
  tile _ hv := tile_modTile_ne s f hv
  rest := rfl
  regs := .refl _ _

theorem silent_issuedAt (s : State) (t idx : Nat) (x : TIns) (r : Run) : Silent t s (s.issuedAt t idx x r) := silent_modTile s (.refl _)

theorem silent_launchedAs (s : State) (t : Nat) (b : Bool) (n : Nat) (r : Run) : Silent t s (s.launchedAs t b n r) where
  data := sameData_launchedAs s t b n r t
  tile _ hv := tile_launchedAs_ne s b n r hv
  rest := eq_of_sansTileRegs (sansTileRegs_launchedAs s t b n r)
  regs := sameRegs_launchedAs s t b n r

theorem run_launchedAs (s : State) (t : Nat) (b : Bool) (n : Nat) (r : Run) : ((s.launchedAs t b n r).tile t).run = some r := by
  rw [tile_launchedAs_self]

/-! ### Credits (R181, R185) -/

/-- The counts that a CWAIT names are taken. -/
def Run.takeAll (r : Run) (e : Engine) (l : List (Engine × Nat)) : Run :=
  l.foldl (fun r q => r.take (engineCode q.1) (engineCode e) q.2) r

theorem flights_takeAll (r : Run) (e e' : Engine) (l : List (Engine × Nat)) : (r.takeAll e l).flights e' = r.flights e' :=
  foldl_keeps (v := fun r : Run => r.flights e') (fun r q => by cases e' <;> rfl) l r

theorem creds_takeAll_congr {r' : Run} (h : r'.creds = r.creds) (e : Engine) (l : List (Engine × Nat)) :
    (r'.takeAll e l).creds = (r.takeAll e l).creds := by
  induction l generalizing r r' with
  | nil => exact h
  | cons q l ih => exact ih (by simp only [Run.take, Run.cred, h])

theorem creds_issue (r : Run) (idx : Nat) {x : TIns} (h : (tinsWait x).en = false) : (r.issue idx x).creds = r.creds := by
  simp only [Run.issue, h, Bool.false_eq_true, if_false]

theorem exec_cwait {n : Counts} (hw : instrWf (.cwait t idx e n) = true) (hi : Issues s t idx (.cwait e n) r)
    (hc : s.countsReady t e n = true) :
    exec (.cwait t idx e n) s = .next ((s.issuedAt t idx (.cwait e n) r).cwait t idx e n (r.issue idx (.cwait e n))) :=
  (State.runIf_true s hw _).trans (congrArg Host.Outcome.next ((if_pos hc).trans (issueOr_of_issues hi _ _)))

/-- A CWAIT has taken its counts, and is in flight. -/
theorem cwait_spec {n : Counts} (s : State) (t idx : Nat) (e : Engine) (r : Run) :
    ∃ f, (((s.cwait t idx e n r).tile t).run = some ((r.takeAll e (countList n)).setFlights e (r.flights e ++ [f])))
      ∧ f.idx = idx ∧ f.kind = .plain ∧ f.ready = true ∧ Silent t s (s.cwait t idx e n r) := by
  have hrun : ((s.modTile t fun y => { y with run := some (r.takeAll e (countList n)) }).tile t).run = some (r.takeAll e (countList n)) := by
    rw [tile_modTile_self]
  obtain ⟨b, k, f, hu, hidx, hkind, hready, -, -⟩ := launch_noPost (x := .cwait e n) (idx := idx) (kind := .plain) (ready := true)
    (posts := []) (drain := none) (eaddr := 0) hrun rfl rfl
  rw [flights_takeAll] at hu
  have hu : s.cwait t idx e n r = _ := hu
  rw [hu]
  exact ⟨f, run_launchedAs .., hidx, hkind, hready, (silent_modTile s (.refl _)).trans (silent_launchedAs ..)⟩

/-! ### Semaphores (R189) -/

theorem sem_congr {p key : Nat} (hp : u.parts = s.parts) (hg : u.gsems = s.gsems) : u.sem p key = s.sem p key := by
  simp only [State.sem, State.part, hp, hg]

theorem sem_setSem_self (s : State) (p key : Nat) (y : Sem) : (s.setSem p key y).sem p key = y := by
  unfold State.setSem State.sem
  split
  · rw [State.part_setPart_self, Map.get_put_self]
  · exact Map.get_put_self ..

theorem setSem_eq (s : State) (p key : Nat) (y : Sem) :
    s.setSem p key y = { s with parts := (s.setSem p key y).parts, gsems := (s.setSem p key y).gsems } := by
  unfold State.setSem
  split <;> rfl

/-! ### The package once an instruction without a POST is in flight -/

theorem Silent.herdsOf (h : Silent t s u) (p : Nat) : u.herdsOf p = s.herdsOf p := by
  have hne : regKey (R.SCH_PART p) F.SCH_PART_HERDS ∉ [regKey (R.PMC_SMP_PTR t) F.PMC_SMP_PTR_DROPPED] := by
    simp only [List.mem_singleton, regKey, R.SCH_PART, R.PMC_SMP_PTR, B.sch, B.til, B.hrd, B.die, F.SCH_PART_HERDS, F.PMC_SMP_PTR_DROPPED]
    omega
  simp only [State.herdsOf, State.fget, Map.get, h.regs _ hne]

theorem Silent.partOfTile (h : Silent t s u) (v : Nat) : u.partOfTile v = s.partOfTile v := partOfHerd_congr (fun p _ => h.herdsOf p) _

theorem Silent.parts (h : Silent t s u) : u.parts = s.parts := by rw [h.rest]

theorem Silent.gsems (h : Silent t s u) : u.gsems = s.gsems := by rw [h.rest]

theorem Silent.semKey (h : Silent t s u) (p n : Nat) : u.semKey p n = s.semKey p n := by rw [h.rest]; rfl

theorem Silent.sem (h : Silent t s u) (p key : Nat) : u.sem p key = s.sem p key := sem_congr h.parts h.gsems

/-- What an instruction without a POST or a WAIT leaves: it stands last in flight, its counts are as they were, and the tile is silent. -/
theorem launch_issued {kind : FlightKind} {ready : Bool} {posts : List (Engine × Nat)} {drain : Option Nat} {eaddr : Nat}
    (s : State) (t idx : Nat) (r : Run) (he : tinsEngine x = some e) (hp : (tinsPost x).en = false) (hw : (tinsWait x).en = false) :
    ∃ r' f, (((s.issuedAt t idx x r).launch t idx x kind ready posts drain eaddr).tile t).run = some r'
      ∧ r'.flights e = r.flights e ++ [f] ∧ r'.creds = r.creds ∧ r'.ctx = r.ctx
      ∧ (f.idx = idx ∧ f.kind = kind ∧ f.ready = ready ∧ f.posts = posts ∧ f.sent = false)
      ∧ Silent t s ((s.issuedAt t idx x r).launch t idx x kind ready posts drain eaddr) := by
  obtain ⟨b, k, f, hu, hf⟩ := launch_noPost (s := s.issuedAt t idx x r) (idx := idx) (kind := kind) (ready := ready) (posts := posts)
    (drain := drain) (eaddr := eaddr) (run_issuedAt s t idx x r) he hp
  rw [hu]
  refine ⟨_, f, run_launchedAs .., ?_, ?_, ?_, hf, (silent_issuedAt s t idx x r).trans (silent_launchedAs ..)⟩
  · rw [flights_setFlights, flights_issue]
  · rw [creds_setFlights, creds_issue r idx hw]
  · have hctx (r : Run) (l : List Flight) : (r.setFlights e l).ctx = r.ctx := by cases e <;> rfl
    rw [hctx, Run.issue, hw]
    rfl

/-- A semaphore takes a waiter, and its tile runs on. -/
theorem semwait_spec {sem n p : Nat} (hp : s.partOfTile t = some p) (hn : (s.sem p (s.semKey p sem)).lock = true → n = 1) :
    (s.issuedAt t idx (.semwait e sem n) r).semwait t idx e sem n (r.issue idx (.semwait e sem n)) =
      ((s.issuedAt t idx (.semwait e sem n) r).launch t idx (.semwait e sem n) .semWait false [] none 0).setSem p (s.semKey p sem)
        { s.sem p (s.semKey p sem) with
          waiters := (s.sem p (s.semKey p sem)).waiters ++ [{ tile := t, eng := e, idx := idx, n := n }] } := by
  have h := silent_issuedAt s t idx (.semwait e sem n) r
  unfold State.semwait
  rw [h.partOfTile t, hp]
  dsimp only [Option.getD_some]
  rw [h.semKey, h.sem, if_neg]
  cases hl : (s.sem p (s.semKey p sem)).lock
  · simp
  · simp [hn hl]

theorem tile_setSem (s : State) (p key : Nat) (y : Sem) (v : Nat) : (s.setSem p key y).tile v = s.tile v := by
  rw [setSem_eq]
  rfl

theorem regs_setSem (s : State) (p key : Nat) (y : Sem) : (s.setSem p key y).regs = s.regs := by
  rw [setSem_eq]

/-- A silent tile whose instruction then changes a semaphore. -/
theorem Silent.setSem_rest (h : Silent t s u) (p key : Nat) (y : Sem) :
    u.setSem p key y = { s with tiles := (u.setSem p key y).tiles, regs := (u.setSem p key y).regs,
                                parts := (u.setSem p key y).parts, gsems := (u.setSem p key y).gsems } := by
  have ht : (u.setSem p key y).tiles = u.tiles := by rw [setSem_eq]
  rw [ht, regs_setSem]
  exact (setSem_eq u p key y).trans
    (congrArg (fun z : State => { z with parts := (u.setSem p key y).parts, gsems := (u.setSem p key y).gsems }) h.rest)

theorem tile_sendSig (s : State) (p : Nat) (g : SemSig) (v : Nat) : (s.sendSig p g).tile v = s.tile v := rfl

/-! ### The oldest signal of an engine (R189) -/

theorem sendHead_signal {f : Flight} {l : List Flight} {n v p : Nat} (hr : (s.tile t).run = some r) (hf : r.flights e = f :: l)
    (hk : f.kind = .semSig n v) (hs : f.sent = false) (hp : s.partOfTile t = some p) :
    s.sendHead t e = (s.modTile t fun y => { y with run := some (r.setFlights e ({ f with sent := true } :: l)) }).sendSig p
      { sem := s.semKey p n, n := v, origin := .tile t e f.idx r.ctx } := by
  unfold State.sendHead
  rw [hr]
  dsimp only
  rw [hf]
  dsimp only
  rw [hk, hs, hp]
  rfl

/-- A signal of the oldest instruction leaves or does not: the flights behind it are as they were. -/
theorem sendHead_behind {f g : Flight} {l : List Flight} (hr : (s.tile t).run = some r) (hf : r.flights e = (f :: l) ++ [g]) :
    ∃ r' f', ((s.sendHead t e).tile t).run = some r' ∧ r'.flights e = (f' :: l) ++ [g] := by
  unfold State.sendHead
  rw [hr]
  dsimp only
  rw [hf]
  dsimp only [List.cons_append]
  split
  · exact ⟨_, _, by rw [tile_sendSig, tile_modTile_self], flights_setFlights ..⟩
  · exact ⟨r, f, hr, hf⟩

theorem sendHead_frame (s : State) (t : Nat) (e : Engine) :
    SameData (s.tile t) ((s.sendHead t e).tile t) ∧ (∀ v, v ≠ t → (s.sendHead t e).tile v = s.tile v)
      ∧ s.sendHead t e = { s with tiles := (s.sendHead t e).tiles, parts := (s.sendHead t e).parts } := by
  unfold State.sendHead
  split
  · exact ⟨.refl _, fun _ _ => rfl, rfl⟩
  · split
    · split
      · refine ⟨?_, fun v hv => ?_, rfl⟩
        · rw [tile_sendSig, tile_modTile_self]
          exact .refl _
        · rw [tile_sendSig, tile_modTile_ne _ _ hv]
      · exact ⟨.refl _, fun _ _ => rfl, rfl⟩
    · exact ⟨.refl _, fun _ _ => rfl, rfl⟩

/-- A silent tile whose instruction then sends the signal of its engine. -/
theorem Silent.sendHead_rest (h : Silent t s u) (e : Engine) :
    u.sendHead t e = { s with tiles := (u.sendHead t e).tiles, regs := (u.sendHead t e).regs, parts := (u.sendHead t e).parts } := by
  obtain ⟨-, -, hrest⟩ := sendHead_frame u t e
  have hregs : (u.sendHead t e).regs = u.regs := by rw [hrest]
  rw [hregs]
  exact hrest.trans (congrArg (fun y : State => { y with tiles := (u.sendHead t e).tiles, parts := (u.sendHead t e).parts }) h.rest)

/-- Settles O11: each instruction is launched once it is issued; CWAIT has then taken its counts, SEMWAIT has joined the waiters, and
SEMSIG has sent its signal where it is the oldest of its engine. -/
theorem creditAndSemaphoreInstructions : Obligations.CreditAndSemaphoreInstructions := by
  refine ⟨fun s t idx e n r hw hi hc => ?_, fun s t idx e n r hw hi => ?_, fun s t idx e sem n p r hw hi hp hn => ?_,
    fun s t idx e sem n p r hw hi hp => ?_⟩
  · obtain ⟨f, hrun, hidx, hkind, hready, hs⟩ := cwait_spec (n := n) (s.issuedAt t idx (.cwait e n) r) t idx e (r.issue idx (.cwait e n))
    have h := (silent_issuedAt s t idx (.cwait e n) r).trans hs
    refine ⟨_, exec_cwait hw hi hc, ⟨_, f, hrun, ?_, hidx, hkind, hready⟩, fun r' hr' => ?_, h.data, h.tile, h.rest, h.regs⟩
    · rw [flights_setFlights, flights_issue]
    · obtain rfl := Option.some.inj (hr'.symm.trans hrun)
      rw [creds_setFlights]
      exact creds_takeAll_congr (creds_issue r idx rfl) e _
  · obtain ⟨r', f, hrun, hfl, hcr, -, ⟨hidx, -, hready, hposts, -⟩, h⟩ := launch_issued (e := e) (x := .cpost e n) (kind := .plain)
      (ready := true) (posts := countList n) (drain := none) (eaddr := 0) s t idx r rfl rfl rfl
    refine ⟨_, exec_issued hw rfl hi, ⟨r', f, hrun, hfl, hidx, hposts, hready⟩, fun r'' hr'' => ?_, h.data, h.tile, h.rest, h.regs⟩
    obtain rfl := Option.some.inj (hr''.symm.trans hrun)
    exact hcr
  · obtain ⟨r', f, hrun, hfl, -, -, ⟨hidx, hkind, hready, -, -⟩, h⟩ := launch_issued (e := e) (x := .semwait e sem n) (kind := .semWait)
      (ready := false) (posts := []) (drain := none) (eaddr := 0) s t idx r rfl rfl rfl
    refine ⟨_, (exec_issued hw rfl hi).trans (congrArg _ (semwait_spec hp hn)), ⟨r', f, ?_, hfl, hidx, hkind, hready⟩,
      sem_setSem_self .., ?_, fun v hv => ?_, ?_, ?_⟩
    · rwa [tile_setSem]
    · rw [tile_setSem]
      exact h.data
    · rw [tile_setSem]
      exact h.tile v hv
    · exact h.setSem_rest ..
    · intro k hk
      rw [regs_setSem]
      exact h.regs k hk
  · obtain ⟨r', f, hrun, hfl, -, hctx, ⟨hidx, hkind, hready, -, hsent⟩, h⟩ := launch_issued (e := e) (x := .semsig e sem n)
      (kind := .semSig sem n) (ready := false) (posts := []) (drain := none) (eaddr := 0) s t idx r rfl rfl rfl
    generalize hg : (s.issuedAt t idx (.semsig e sem n) r).launch t idx (.semsig e sem n) (.semSig sem n) false [] none 0 = u at hrun h
    obtain ⟨hdata, htile, hrest⟩ := sendHead_frame u t e
    refine ⟨u.sendHead t e, (exec_issued hw rfl hi).trans (congrArg (fun y : State => Host.Outcome.next (y.sendHead t e)) hg),
      fun h0 => ?_, fun h1 => ?_,
      h.data.trans hdata, fun v hv => (htile v hv).trans (h.tile v hv),
      h.sendHead_rest e, ?_⟩
    · rw [h0, List.nil_append] at hfl
      rw [sendHead_signal hrun hfl hkind hsent ((h.partOfTile t).trans hp), hctx, h.semKey]
      refine ⟨⟨r'.setFlights e [{ f with sent := true }], { f with sent := true }, ?_, ?_, hidx, hkind, hready, rfl⟩, ?_⟩
      · rw [tile_sendSig, tile_modTile_self]
      · rw [flights_setFlights, h0]
        rfl
      · rw [State.sendSig, State.part_setPart_self, hidx]
        have hpart : u.part p = s.part p := by simp only [State.part, h.parts]
        change (u.part p).sigs ++ _ = _
        rw [hpart]
    · obtain ⟨g, l, hl⟩ := List.exists_cons_of_ne_nil h1
      rw [hl] at hfl
      obtain ⟨r2, g', hrun2, hfl2⟩ := sendHead_behind hrun hfl
      exact ⟨r2, f, hrun2, hfl2 ▸ List.getLast?_concat, hidx, hkind, hready, hsent⟩
    · intro k hk
      rw [hrest]
      exact h.regs k hk

end Sys2Proof.Machine
end

section
/-!
The semaphore units, and the summaries of a segment (O12): what a signal, a grant, a write and an add leave in a semaphore (R189, R190),
and what a summary puts in its queue (R150 to R152).
-/

set_option Elab.async false

namespace Sys2Proof.Machine

variable {s t u : State} {r : Run}

/-! ### Semaphores (R189, R190) -/

theorem sigs_setSem (s : State) (p key : Nat) (y : Sem) : ((s.setSem p key y).part p).sigs = (s.part p).sigs := by
  unfold State.setSem
  split
  · rw [State.part_setPart_self]
  · rfl

/-- A signal leaves the queue of its unit, and every semaphore is as it was. -/
theorem sem_dropSig (s : State) (p key : Nat) (l : List SemSig) : (s.setPart p { s.part p with sigs := l }).sem p key = s.sem p key := by
  unfold State.sem
  rw [State.part_setPart_self]
  rfl

theorem sem_flightReady (s : State) (v : Nat) (e : Engine) (idx p key : Nat) : (s.flightReady v e idx).sem p key = s.sem p key := rfl

theorem flightReady_eq (s : State) (v : Nat) (e : Engine) (idx : Nat) :
    s.flightReady v e idx = { s with tiles := (s.flightReady v e idx).tiles } := rfl

/-- The flight of an instruction is marked. -/
theorem mem_flightReady {v idx : Nat} {e : Engine} {f : Flight} (hr : (s.tile v).run = some r) (hf : f ∈ r.flights e) (hi : f.idx = idx) :
    ∃ r', ((s.flightReady v e idx).tile v).run = some r' ∧ { f with ready := true } ∈ r'.flights e := by
  rw [State.flightReady, modFlight_eq hr, tile_modTile_self]
  refine ⟨_, rfl, ?_⟩
  rw [flights_setFlights]
  exact List.mem_map.2 ⟨f, hf, if_pos hi⟩

/-- A sum that misuses nothing is below 2^32. -/
theorem value_plus {x : Sem} {n : Nat} (h : x.value + n ≤ 0xFFFFFFFF) : (x.plus n).value = x.value + n := Nat.mod_eq_of_lt (by omega)

theorem value_of_not_misused {x : Sem} {n ctx : Nat} (h : x.misused n ctx = false) : x.value + n ≤ 0xFFFFFFFF := by
  simp only [Sem.misused, Bool.or_eq_false_iff, decide_eq_false_iff_not, Nat.not_lt] at h
  exact h.2

theorem sigApply_tile {g : SemSig} {p v idx ctx : Nat} {e : Engine} (hg : g.origin = .tile v e idx ctx)
    (hm : (s.sem p g.sem).misused g.n ctx = false) :
    s.sigApply p g = (s.setSem p g.sem ((s.sem p g.sem).plus g.n)).flightReady v e idx := by
  unfold State.sigApply
  rw [hg]
  dsimp only
  rw [hm, State.sigDone, hg]
  rfl

theorem exec_semSignalApply {p : Nat} {g : SemSig} {l : List SemSig} {v idx ctx : Nat} {e : Engine} (hp : p < 8)
    (hs : (s.part p).sigs = g :: l) (hg : g.origin = .tile v e idx ctx) (hm : (s.sem p g.sem).misused g.n ctx = false) :
    exec (.semSignalApply p) s =
      .next (((s.setPart p { s.part p with sigs := l }).setSem p g.sem ((s.sem p g.sem).plus g.n)).flightReady v e idx) := by
  have hw : instrWf (.semSignalApply p) = true := by simpa [instrWf] using hp
  refine (State.runIf_true s hw _).trans (congrArg Host.Outcome.next ?_)
  rw [hs]
  have h := sigApply_tile (s := s.setPart p { s.part p with sigs := l }) hg (by rwa [sem_dropSig])
  rw [sem_dropSig] at h
  exact h

/-- The semaphore once its head waiter is granted. -/
def Sem.granted (x : Sem) (w : Waiter) (l : List Waiter) (ctx : Nat) : Sem :=
  { x with value := x.value - w.n, waiters := l, held := x.held || x.lock, holder := if x.lock then ctx else x.holder }

theorem exec_semGrant {p sem : Nat} {w : Waiter} {l : List Waiter} (hw : instrWf (.semGrant p sem) = true)
    (hl : (s.sem p (s.semKey p sem)).waiters = w :: l) (hn : w.n ≤ (s.sem p (s.semKey p sem)).value) :
    ∃ ctx, exec (.semGrant p sem) s =
      .next ((s.setSem p (s.semKey p sem) ((s.sem p (s.semKey p sem)).granted w l ctx)).flightReady w.tile w.eng w.idx) := by
  have key (ctx : Nat) (hctx : (match (s.tile w.tile).run with | some r => r.ctx | none => 0) = ctx) :
      exec (.semGrant p sem) s =
        .next ((s.setSem p (s.semKey p sem) ((s.sem p (s.semKey p sem)).granted w l ctx)).flightReady w.tile w.eng w.idx) := by
    refine (State.runIf_true s hw _).trans (congrArg Host.Outcome.next ?_)
    subst hctx
    dsimp only
    rw [hl]
    exact if_neg (Nat.not_lt.2 hn)
  exact ⟨_, key _ rfl⟩

/-- The frame of a semaphore that changes, with the flight of a tile. -/
theorem setSem_flightReady_eq (s : State) (p key : Nat) (y : Sem) (v : Nat) (e : Engine) (idx : Nat) :
    (s.setSem p key y).flightReady v e idx = { s with parts := (s.setSem p key y).parts, gsems := (s.setSem p key y).gsems,
                                                      tiles := ((s.setSem p key y).flightReady v e idx).tiles } :=
  (flightReady_eq ..).trans
    (congrArg (fun z : State => { z with tiles := ((s.setSem p key y).flightReady v e idx).tiles }) (setSem_eq s p key y))

/-- A write or an add that reaches the unit answers the agent, and changes the semaphore alone. -/
theorem setSem_answer_eq (s : State) (p key : Nat) (y : Sem) :
    (s.answer .ok 0).setSem p key y =
      { s with parts := ((s.answer .ok 0).setSem p key y).parts, gsems := ((s.answer .ok 0).setSem p key y).gsems,
               rsp := ((s.answer .ok 0).setSem p key y).rsp } := by
  have hrsp : ((s.answer .ok 0).setSem p key y).rsp = (s.answer .ok 0).rsp := by rw [setSem_eq]
  rw [hrsp]
  exact setSem_eq ..

theorem served_setSem (s : State) (p key : Nat) (y : Sem) : Served ((s.answer .ok 0).setSem p key y) 0 := by
  rw [Served, setSem_eq]
  rfl

theorem semAddAt_of_fits {a : Agent} {p key off v : Nat} (h : (s.sem p key).value + bits v 0 32 ≤ 0xFFFFFFFF)
    (hl : (s.sem p key).lock = true → (s.sem p key).value + bits v 0 32 ≤ 1) :
    semAddAt a p key off v s = s.setSem p key ((s.sem p key).plus (bits v 0 32)) := by
  refine if_neg ?_
  simp only [Bool.or_eq_true, Bool.and_eq_true, decide_eq_true_eq, not_or, not_and, Nat.not_lt]
  exact ⟨h, hl⟩

/-! ### Summaries (R150 to R152) -/

variable {P : Nat → Prop}

/-- Two packages that differ in tiles and control cores, in what memory accesses and events change, and in registers that P names. -/
def SameOffCores (P : Nat → Prop) (s t : State) : Prop := SameUnitsBut P { s with tiles := t.tiles, cores := t.cores } t

theorem SameOffTiles.offCores (h : SameOffTiles P s t) : SameOffCores P s t := by
  have hc : t.cores = s.cores := by rw [h.1]
  rw [SameOffCores, hc]
  exact h

theorem SameRest.withCores (h : SameRest { s with tiles := t.tiles, cores := t.cores } t) (x : Map Tile) (y : Map Core) :
    SameRest { s with tiles := x, cores := y } { t with tiles := x, cores := y } := by
  unfold SameRest
  exact congrArg (fun z : State => { z with tiles := x, cores := y }) h

theorem SameOffCores.trans (h1 : SameOffCores P s t) (h2 : SameOffCores P t u) : SameOffCores P s u :=
  ⟨(h1.1.withCores u.tiles u.cores).trans h2.1, fun k hk hp => (h2.2 k hk hp).trans (h1.2 k hk hp)⟩

theorem sameOffCores_when {b : Bool} {f : State → State} (h : SameOffCores P s (f s)) : SameOffCores P s (s.when b f) := by
  cases b
  · exact SameUnitsBut.refl s
  · exact h

/-- The interrupt of a summary queue is its control core's (R154). -/
theorem sameOffCores_summIrq (s : State) (v : Nat) : SameOffCores P s (s.summIrq v) := by
  have hcore (c : Nat) (x : Core) (h : Nat) : SameOffCores P s ((s.setCore c x).pmcHerd h 6 1) := by
    have hset : SameOffCores P s (s.setCore c x) := SameUnitsBut.refl _
    have hpmc : SameUnits (s.setCore c x) ((s.setCore c x).pmcHerd h 6 1) := (sameUnits_pmcHerd ..).2 (.refl _)
    exact hset.trans hpmc.but.offTiles.offCores
  unfold State.summIrq
  exact sameOffCores_when (hcore _ _ _)

theorem tile_summIrq (s : State) (v w : Nat) : (s.summIrq v).tile w = s.tile w := by
  have hpmc (s : State) (c : Nat) (x : Core) (h : Nat) : ((s.setCore c x).pmcHerd h 6 1).tile w = s.tile w := by
    rw [SameUnits.tile ((sameUnits_pmcHerd (s := s.setCore c x) ..).2 (.refl _))]
    rfl
  unfold State.summIrq
  exact when_keeps (v := fun s : State => s.tile w) (fun s => hpmc s _ _ _) s

theorem sameOffTiles_clearMembers (s : State) (r : Run) (fl v : Nat) : SameOffTiles (tileRegs v r) s (s.clearMembers r fl) :=
  (sameUnitsBut_foldl (P := tileRegs v r) (f := fun s w => State.clearVflags s w fl) (l := r.members) (fun s w hw => by
    rw [clearVflags_eq]
    exact sameUnitsBut_foldl (fun s f hf => sameUnitsBut_fset s _ (.inl ⟨w, hw, .inl rfl⟩) (vstatus_aligned w)
      (lo_flagFields f (mem_flagFields_of_flagsOf hf))) s) s).offTiles

/-- The word of the summary of a segment. -/
def State.summaryOf (s : State) (o : SummOps) (r : Run) : Nat :=
  summWord o.kind o.tag ((r.members.map fun m => summPart (s.tile m) o).foldl (fun a q => mergeStatus a q.status) 0)
    (r.members.foldl (fun a m => a ||| s.vflags m) 0) (summValue o (r.members.map fun m => summPart (s.tile m) o))

/-- The package when a summary has joined its queue, the flags that it takes are clear, and the interrupt is given. -/
def State.summed (s : State) (v : Nat) (o : SummOps) (r : Run) : State :=
  (((s.modTile v fun x => { x with summ := x.summ ++ [s.summaryOf o r] }).when o.clr fun w =>
      w.clearMembers r (r.members.foldl (fun a m => a ||| s.vflags m) 0)).when (s.tile v).summ.isEmpty fun w => w.summIrq v)

theorem summ_eq {o : SummOps} (hk : ¬ ((o.kind = 1 ∨ o.kind = 2) ∧ 32 < o.reg + o.k)) (s : State) (v idx : Nat) (r : Run) :
    s.summ v idx o r = (s.summed v o r).launched v idx (.summ o) 0 := by
  have hopen (status value : Nat) : s.summOpen o status value = (status, value, s) := if_neg (by simpa using hk)
  have hclr (fl : Nat) (w : State) : r.onMembers (fun _ m s => s.clearVflags m fl) w = w.clearMembers r fl := onMembers_eq_foldl ..
  unfold State.summ
  simp only [hopen, hclr]
  rfl

theorem tile_summed (s : State) (v : Nat) (o : SummOps) (r : Run) (w : Nat) :
    (s.summed v o r).tile w = (s.modTile v fun x => { x with summ := x.summ ++ [s.summaryOf o r] }).tile w :=
  (when_keeps (v := fun s : State => s.tile w) (fun s => tile_summIrq s v w) _).trans
    (when_keeps (v := fun s : State => s.tile w) (fun s => tile_clearMembers s r _ w) _)

theorem sameOffCores_summed (s : State) (v : Nat) (o : SummOps) (r : Run) : SameOffCores (tileRegs v r) s (s.summed v o r) :=
  SameOffCores.trans (sameOffTiles_modTile s v _).offCores <|
    .trans (sameOffCores_when (sameOffTiles_clearMembers ..).offCores) (sameOffCores_when (sameOffCores_summIrq ..))

theorem exec_summ {v idx : Nat} {o : SummOps} (hw : instrWf (.summ v idx o) = true) (hi : Issues s v idx (.summ o) r)
    (hready : s.summReady v idx o = true) (hk : ¬ ((o.kind = 1 ∨ o.kind = 2) ∧ 32 < o.reg + o.k)) :
    ∃ b n r', exec (.summ v idx o) s =
      .next (((s.issuedAt v idx (.summ o) r).summed v o (r.issue idx (.summ o))).launchedAs v b n r') := by
  have hrun : (((s.issuedAt v idx (.summ o) r).summed v o (r.issue idx (.summ o))).tile v).run = some (r.issue idx (.summ o)) := by
    rw [tile_summed, tile_modTile_self, tile_issuedAt_self]
  obtain ⟨b, n, f, hu, -⟩ := launch_noPost (x := .summ o) (e := .vector) (idx := idx) (kind := .plain) (ready := true) (posts := [])
    (drain := none) (eaddr := 0) hrun rfl rfl
  have hexec := (issueOr_of_issues hi (fun r s => s.summ v idx o r) fun _ s => s).trans ((summ_eq hk ..).trans hu)
  exact ⟨b, n, _, (State.runIf_true s hw _).trans (congrArg Host.Outcome.next ((if_pos hready).trans hexec))⟩

theorem tileRegs_issue (v : Nat) (r : Run) (idx : Nat) (x : TIns) : tileRegs v (r.issue idx x) = tileRegs v r := by
  unfold tileRegs
  rw [members_issue]

theorem sameOffCores_summ (s : State) (v idx : Nat) (o : SummOps) (r : Run) (b : Bool) (n : Nat) (r' : Run) :
    SameOffCores (tileRegs v r) s (((s.issuedAt v idx (.summ o) r).summed v o (r.issue idx (.summ o))).launchedAs v b n r') := by
  have hissue : SameOffCores (tileRegs v r) s (s.issuedAt v idx (.summ o) r) := (sameOffTiles_modTile s v _).offCores
  have hsum := sameOffCores_summed (s.issuedAt v idx (.summ o) r) v o (r.issue idx (.summ o))
  rw [tileRegs_issue] at hsum
  exact hissue.trans (hsum.trans ((sameOffTiles_launchedAs _ v b n r').mono fun _ ho => .inr ho).offCores)

/-! ### The oldest entry of a summary queue (R152) -/

theorem exec_summPop {a : Agent} {v : Nat} (hw : instrWf (.summPop a v) = true)
    (he : s.entry a .hrd (v / 12) (R.HRD_SUMM_Q (v / 12) (v % 12)) false = .reach) :
    exec (.summPop a v) s = .next (summPopEffect v (s.answer .ok 0)) :=
  (State.runIf_true s hw _).trans (congrArg Host.Outcome.next (State.readReg_reach _ he))

theorem summPopEffect_spec {v w : Nat} {l : List Nat} (h : (s.tile v).summ = w :: l) :
    Served (summPopEffect v (s.answer .ok 0)) w ∧ (summPopEffect v (s.answer .ok 0)).tile v = { s.tile v with summ := l }
      ∧ (∀ m, m ≠ v → (summPopEffect v (s.answer .ok 0)).tile m = s.tile m)
      ∧ SameUnits { s with tiles := (summPopEffect v (s.answer .ok 0)).tiles, rsp := (summPopEffect v (s.answer .ok 0)).rsp }
          (summPopEffect v (s.answer .ok 0)) := by
  have heff : summPopEffect v (s.answer .ok 0) =
      (((s.modTile v fun x => { x with summ := l }).answer .ok 0).pmcHerd (v / 12) 5 1).answer .ok w := by
    unfold summPopEffect
    change (match (s.tile v).summ with | w :: l => _ | [] => _) = _
    rw [h]
    rfl
  have hpmc : SameUnits ((s.modTile v fun x => { x with summ := l }).answer .ok 0)
      (((s.modTile v fun x => { x with summ := l }).answer .ok 0).pmcHerd (v / 12) 5 1) := (sameUnits_pmcHerd ..).2 (.refl _)
  rw [heff]
  generalize ((s.modTile v fun x => { x with summ := l }).answer .ok 0).pmcHerd (v / 12) 5 1 = q at hpmc
  have htile (m : Nat) : (q.answer .ok w).tile m = (s.modTile v fun x => { x with summ := l }).tile m := hpmc.tile m
  refine ⟨rfl, ?_, fun m hm => ?_, ?_⟩
  · rw [htile, tile_modTile_self]
  · rw [htile, tile_modTile_ne _ _ hm]
  · have ht : q.tiles = (s.modTile v fun x => { x with summ := l }).tiles := by
      rw [hpmc.1]
      rfl
    change SameUnits { s with tiles := q.tiles, rsp := _ } _
    rw [ht]
    exact hpmc.window_answer { kind := .ok, data := w }

/-- Settles O12: a signal, a grant, a write and an add each change their semaphore alone, besides the flight that a grant or a signal
marks; a summary joins its queue, and SUMM_POP takes the oldest. -/
theorem semaphoreUnitsAndSummaries : Obligations.SemaphoreUnitsAndSummaries := by
  refine ⟨fun s p g l t idx ctx e hp hs hg hm => ?_, fun s p sem w l hw hl hn => ?_, fun s a p sem v hw he => ?_,
    fun s a p sem v hw he hv hlock => ?_, fun s t idx o r hw hi hready hk => ?_, fun s a t w l hw he hl => ?_, fun s a t hw he hl => ?_⟩
  · refine ⟨_, exec_semSignalApply hp hs hg hm, ?_, ?_, ?_, fun r f hr hf hi => mem_flightReady ?_ hf hi, ?_⟩
    · exact (sigs_setSem ..).trans (by rw [State.part_setPart_self])
    · rw [sem_flightReady, sem_setSem_self]
      exact value_plus (value_of_not_misused hm)
    · rw [sem_flightReady, sem_setSem_self]
      rfl
    · rw [tile_setSem]
      exact hr
    · exact setSem_flightReady_eq ..
  · obtain ⟨c, hu⟩ := exec_semGrant hw hl hn
    refine ⟨_, hu, ?_, ?_, ?_, setSem_flightReady_eq ..⟩ <;> rw [sem_flightReady, sem_setSem_self] <;> rfl
  · exact ⟨_, exec_writeReg_reach hw rfl he, served_setSem .., sem_setSem_self .., setSem_answer_eq ..⟩
  · have hadd : semAddEffect a p sem (R.SCH_SEMADD p sem) v (s.answer .ok 0) =
        (s.answer .ok 0).setSem p (s.semKey p sem) ((s.sem p (s.semKey p sem)).plus (bits v 0 32)) :=
      semAddAt_of_fits (s := s.answer .ok 0) hv hlock
    refine ⟨_, (exec_writeReg_reach hw rfl he).trans (congrArg _ hadd), served_setSem .., ?_, setSem_answer_eq ..⟩
    rw [sem_setSem_self, value_plus hv]
  · obtain ⟨b, n, r', hu⟩ := exec_summ hw hi hready hk
    refine ⟨_, hu, ?_, ?_, fun v hv => ?_, sameOffCores_summ ..⟩
    · rw [tile_launchedAs_self, tile_summed, tile_modTile_self, tile_issuedAt_self, State.summaryOf, members_issue]
      rfl
    · rw [tile_launchedAs_self, tile_summed, tile_modTile_self, tile_issuedAt_self]
      exact .refl _
    · rw [tile_launchedAs_ne _ b n r' hv, tile_summed, tile_modTile_ne _ _ hv, State.issuedAt, tile_modTile_ne _ _ hv]
  · exact ⟨_, exec_summPop hw he, summPopEffect_spec hl⟩
  · refine (exec_summPop hw he).trans (congrArg Host.Outcome.next ?_)
    unfold summPopEffect
    change (match (s.tile t).summ with | w :: l => _ | [] => _) = _
    rw [hl]
    rfl

end Sys2Proof.Machine
end

section
/-!
The tokens that an attempt at work owes (O20, O36): every entry of the account of an attempt is a partition's and a tier's (R290, R291), so
that what the regulators take for it changes only registers of the memory system.
-/

set_option Elab.async false

namespace Sys2Proof.Machine

variable {s t : State}

/-- Every entry that an attempt owes is a partition's and a tier's. -/
def Work.Fair (a : Work) : Prop := ∀ d ∈ a.due, d.1 / 4 < 8 ∧ d.1 % 4 < 3

/-! ### What keeps the account as it is -/

@[simp] theorem acc_when (b : Bool) (f : State → State) : (t.when b f).acc = if b = true then (f t).acc else t.acc := by
  cases b <;> rfl

@[simp] theorem acc_fadd (off : Nat) (f : Fld) (n : Nat) : (t.fadd off f n).acc = t.acc := by
  rw [State.fadd, State.fset_acc]
@[simp] theorem acc_lifeAdd (i n : Nat) : (t.lifeAdd i n).acc = t.acc := acc_fadd ..
@[simp] theorem acc_histAdd (h b n : Nat) : (t.histAdd h b n).acc = t.acc := rfl
@[simp] theorem acc_draw : t.draw.2.acc = t.acc := rfl
@[simp] theorem acc_setRegQ (p i : Nat) (q : RegQ) : (t.setRegQ p i q).acc = t.acc := rfl
@[simp] theorem acc_markPeer (a : Nat) : (t.markPeer a).acc = t.acc := rfl
@[simp] theorem acc_markDirty (l : Nat) : (t.markDirty l).acc = t.acc := rfl
@[simp] theorem acc_putLine (l d : Nat) : (t.putLine l d).acc = t.acc := rfl
@[simp] theorem acc_filterUse (l : Nat) : (t.filterUse l).acc = t.acc := rfl
@[simp] theorem acc_alert : t.alert.acc = t.acc := rfl

@[simp] theorem acc_logFault (e : LogEntry) : (t.logFault e).acc = t.acc := by
  unfold State.logFault
  dsimp only
  rw [State.fset_acc, State.fset_acc]
  exact forRange_keeps (v := State.acc) (fun _ _ => State.fset_acc ..) _ t

@[simp] theorem acc_timeoutAt (e : LogEntry) : (t.timeoutAt e).acc = t.acc := by
  rw [State.timeoutAt, State.health_acc, State.timeoutLog, acc_fadd, acc_logFault]
@[simp] theorem acc_ueAt (l : Nat) : (t.ueAt l).acc = t.acc := by
  rw [State.ueAt, acc_logFault, acc_fadd]
@[simp] theorem acc_fenceRefusal (k u : Nat) : (t.fenceRefusal k u).acc = t.acc := by simp [State.fenceRefusal]
@[simp] theorem acc_decodeErr : t.decodeErr.acc = t.acc := acc_fadd ..
@[simp] theorem acc_linkRefusal (a b : Nat) : (t.linkRefusal a b).acc = t.acc := by simp [State.linkRefusal]

@[simp] theorem acc_issueTokens (p i n c : Nat) : (t.issueTokens p i n c).1.acc = t.acc := by
  unfold State.issueTokens
  dsimp only
  repeat' split
  all_goals rfl

@[simp] theorem acc_chargeNow (p i n c : Nat) : (t.chargeNow p i n c).acc = t.acc := by
  have h := acc_issueTokens (t := t) p i n c
  unfold State.chargeNow
  split <;> rename_i e <;> rw [e] at h <;> exact h

@[simp] theorem acc_chargeBack (part : Option Nat) (i : Nat) : (t.chargeBack part i).acc = t.acc := by
  unfold State.chargeBack
  split <;> simp

@[simp] theorem acc_idleFlit (g : Nat) (k : Bool) : (t.idleFlit g k).acc = t.acc := by simp [State.idleFlit]

@[simp] theorem acc_pump (g n : Nat) : (State.pump g n t).acc = t.acc := by
  induction n generalizing t with
  | zero => rfl
  | succ n ih =>
    simp only [State.pump]
    repeat' split
    all_goals simp [ih]

@[simp] theorem acc_sendOn (g : Nat) (m : AfrMsg) : (t.sendOn g m).acc = t.acc := by
  simp [State.sendOn]

@[simp] theorem acc_outPort (e : Nat) (m : AfrMsg) (l : Nat) : (t.outPort e m l).2.acc = t.acc := by
  unfold State.outPort
  dsimp only
  repeat' split
  all_goals simp

@[simp] theorem acc_ucieBytes (l m a b n : Nat) : (t.ucieBytes l m a b n).acc = t.acc := by simp [State.ucieBytes]

@[simp] theorem acc_carry (a b line n : Nat) : (t.carry a b line n).acc = t.acc := by
  unfold State.carry
  repeat' split
  all_goals simp

@[simp] theorem acc_sendVia (d : Nat) (m : AfrMsg) (l : Nat) : (t.sendVia d m l).2.acc = t.acc := by
  unfold State.sendVia
  split
  · simp
  · rename_i e he
    split
    · simp
    · have h := acc_outPort (t := t) e m l
      split <;> rename_i s1 ho <;> rw [ho] at h <;> simpa using h

@[simp] theorem acc_sendTo (d : Nat) (m : AfrMsg) : (t.sendTo d m).2.acc = t.acc := acc_sendVia d m _
@[simp] theorem acc_sendReq (die tag : Nat) (q : RReq) : (t.sendReq die tag q).acc = t.acc := by simp [State.sendReq]

@[simp] theorem acc_nextReq : t.nextReq.acc = t.acc := by
  unfold State.nextReq
  split <;> simp

@[simp] theorem acc_sendReqs : t.sendReqs.acc = t.acc := forRange_keeps (v := State.acc) (fun _ _ => acc_nextReq) _ t

@[simp] theorem acc_rmcUse (d r : Nat) : (t.rmcUse d r).acc = t.acc := by
  unfold State.rmcUse
  dsimp only
  split <;> rw [acc_fadd]

@[simp] theorem acc_touch (die range : Nat) : (t.touch die range).acc = t.acc := by
  unfold State.touch
  dsimp only
  repeat' split
  all_goals simp

@[simp] theorem acc_savedWrite (g : Nat) : (t.savedWrite g).acc = t.acc := by
  unfold State.savedWrite
  dsimp only
  rw [apply_ite State.acc, State.setRm_acc, ite_self]

@[simp] theorem acc_cross (a b line out back : Nat) : (t.cross a b line out back).2.acc = t.acc := by
  unfold State.cross
  repeat' split
  all_goals simp

@[simp] theorem acc_chkWrite (b : Nat) (c : ChkLine) : (t.chkWrite b c).acc = t.acc := by
  unfold State.chkWrite
  split <;> simp

@[simp] theorem acc_chkTouch (u n : Nat) : (t.chkTouch u n).acc = t.acc := by
  unfold State.chkTouch
  split
  · rfl
  · dsimp only
    split
    · simp
    · exact (foldl_keeps (v := State.acc) (fun _ _ => acc_chkWrite ..) _ _).trans rfl

@[simp] theorem acc_chkWrote (u n : Nat) : (t.chkWrote u n).acc = t.acc := by
  unfold State.chkWrote
  dsimp only
  split <;> simp

@[simp] theorem acc_countCe (u line : Nat) : (t.countCe u line).acc = t.acc := by
  unfold State.countCe
  dsimp only
  split <;> simp

@[simp] theorem acc_chanWrote (line : Nat) : (t.chanWrote line).acc = t.acc := by simp [State.chanWrote]

/-! ### Homes -/

@[simp] theorem acc_llcUse (line : Nat) : (t.llcUse line).acc = t.acc := by
  unfold State.llcUse
  split <;> simp

@[simp] theorem acc_homeWrite (line d : Nat) : (t.homeWrite line d).acc = t.acc := by simp [State.homeWrite]
@[simp] theorem acc_homeFull (line d : Nat) : (t.homeFull line d).acc = t.acc := by simp [State.homeFull]

@[simp] theorem acc_patch (f n v : Nat) : (t.patch f n v).acc = t.acc := by
  unfold State.patch
  dsimp only
  rw [acc_chanWrote, acc_markDirty]
  dsimp only
  rw [apply_ite State.acc, acc_putLine, ite_self]

@[simp] theorem acc_post (m : CohMsg) : (t.post m).acc = t.acc := by
  unfold State.post
  split <;> simp
@[simp] theorem acc_writeBack (line ag d : Nat) : (t.writeBack line ag d).acc = t.acc := by simp [State.writeBack]

@[simp] theorem acc_ownerData (c : CLine) : (t.ownerData c).2.acc = t.acc := by
  unfold State.ownerData
  split <;> simp

@[simp] theorem acc_ownerDirty (c : CLine) : (t.ownerDirty c).2.acc = t.acc := by
  unfold State.ownerDirty State.drawBit
  split <;> simp

@[simp] theorem acc_killAll (line : Nat) (f : Nat → Nat) (l : List Nat) : (t.killAll line f l).acc = t.acc :=
  foldl_keeps (v := State.acc) (fun _ _ => acc_post _) l t

@[simp] theorem acc_invalidate (line : Nat) (b : Busy) : (t.invalidate line b).acc = t.acc := by simp [State.invalidate]

@[simp] theorem acc_endDrop (line : Nat) (d : HeldDrop) : (State.endDrop line t d).acc = t.acc := by
  unfold State.endDrop
  dsimp only
  rw [acc_post]
  repeat' split
  all_goals simp

@[simp] theorem acc_endTxn (line : Nat) : (t.endTxn line).acc = t.acc := by
  unfold State.endTxn
  split
  · rfl
  · rename_i b _
    have h : (b.drops.foldl (State.endDrop line) t).acc = t.acc := foldl_keeps (v := State.acc) (fun _ _ => acc_endDrop ..) _ t
    dsimp only
    rw [← h]
    generalize b.drops.foldl (State.endDrop line) t = u
    repeat' split
    all_goals simp

@[simp] theorem acc_postFail (line : Nat) (q : Txn) (why : Nat) : (t.postFail line q why).acc = t.acc := by simp [State.postFail]
@[simp] theorem acc_failTxn (line : Nat) (q : Txn) : (t.failTxn line q).acc = t.acc := by simp [State.failTxn]
@[simp] theorem acc_sendLine (line : Nat) (q : Txn) (g v : Nat) : (t.sendLine line q g v).acc = t.acc := by simp [State.sendLine]
@[simp] theorem acc_postDone (line : Nat) (q : Txn) : (t.postDone line q).acc = t.acc := by simp [State.postDone]
@[simp] theorem acc_snpDone (line ag f : Nat) : (t.snpDone line ag f).acc = t.acc := by simp [State.snpDone]

@[simp] theorem acc_ownerHome (line : Nat) : (t.ownerHome line).acc = t.acc := by
  unfold State.ownerHome
  split
  · rename_i c _
    have h := acc_ownerDirty (t := t) c
    split <;> rename_i e <;> rw [e] at h <;> simpa using h
  · rfl

@[simp] theorem acc_dropHolders (line : Nat) : (t.dropHolders line).acc = t.acc :=
  foldl_keeps (v := State.acc) (f := fun s g => (s.carry _ (agDie g) line 16).carry (agDie g) _ line 16)
    (fun _ _ => (acc_carry ..).trans (acc_carry ..)) _ t

@[simp] theorem acc_savedAt (line : Nat) (q : Txn) : (t.savedAt line q).acc = t.acc := by
  unfold State.savedAt
  rw [acc_when]
  repeat' split
  all_goals simp

@[simp] theorem acc_modBusy (line : Nat) (f : Busy → Busy) : (t.modBusy line f).acc = t.acc := by
  unfold State.modBusy
  split <;> simp

@[simp] theorem acc_arbWin (k ag : Nat) : (t.arbWin k ag).acc = t.acc := by
  unfold State.arbWin
  split <;> simp

@[simp] theorem acc_afterSend (line o p : Nat) (c : CLine) : (t.afterSend line o p c).acc = t.acc := by
  unfold State.afterSend
  repeat' split
  all_goals simp

@[simp] theorem acc_takeSend (m : CohMsg) : (t.takeSend m).acc = t.acc := by
  unfold State.takeSend
  dsimp only
  repeat' split
  all_goals simp

@[simp] theorem acc_takeKill (m : CohMsg) : (t.takeKill m).acc = t.acc := by
  unfold State.takeKill
  dsimp only
  split
  · split <;> simp
  · rename_i c _ _
    split
    · have h := acc_ownerDirty (t := t.uncache m.line m.ag) c
      split <;> rename_i e <;> rw [e] at h <;> simpa using h
    · simp
  · simp

@[simp] theorem acc_takeDone (m : CohMsg) : (t.takeDone m).acc = t.acc := by
  unfold State.takeDone
  repeat' split
  all_goals simp

@[simp] theorem acc_ownerWrote (line r d : Nat) : (t.ownerWrote line r d).acc = t.acc := by
  unfold State.ownerWrote
  repeat' split
  all_goals simp

@[simp] theorem acc_takeLine (m : CohMsg) (d x : Nat) : (t.takeLine m d x).acc = t.acc := by
  unfold State.takeLine
  dsimp only
  generalize (if m.a = 2 ∧ m.data = none ∧ x = 1 then 3 else m.a) = g
  split <;> simp

@[simp] theorem acc_waitsFinal (line : Nat) : (t.waitsFinal line).acc = t.acc := by
  unfold State.waitsFinal
  split <;> simp

@[simp] theorem acc_mapFails (line : Nat) (q : Txn) (why : Nat) : (t.mapFails line q why).acc = t.acc := by
  unfold State.mapFails
  repeat' split
  all_goals simp

/-! ### What the regulators are owed -/

theorem fair_charge {p i : Nat} (hp : p < 8) (hi : i < 3) (n c : Nat) : (t.charge p i n c).acc.Fair ↔ t.acc.Fair := by
  unfold State.charge
  split
  · split
    · rfl
    · have hnew : (4 * p + i) / 4 < 8 ∧ (4 * p + i) % 4 < 3 := by omega
      simp only [Work.Fair, List.forall_mem_append, List.forall_mem_singleton, hnew, and_self, and_true]
  · rw [acc_chargeNow]

theorem fair_chargeLine (part : Option Nat) {i : Nat} (hi : i < 3) (line : Nat) (w : Bool) :
    (t.chargeLine part i line w).acc.Fair ↔ t.acc.Fair := by
  unfold State.chargeLine
  split
  · split
    · rename_i h
      rw [fair_charge h.1 hi]
      split <;> rfl
    · rfl
  · rfl

theorem tierOfKey_lt (k : Nat) : tierOfKey k < 3 := by
  unfold tierOfKey
  split <;> decide

@[simp] theorem fair_remote (r : Reach) (die win off : Nat) (wr : Option (Nat × Nat)) :
    (t.remote r die win off wr).2.acc.Fair ↔ t.acc.Fair := by
  unfold State.remote
  dsimp only
  split
  · simp
  · cases wr <;> simp [fair_chargeLine]

@[simp] theorem fair_reach (r : Reach) (a f out back : Nat) (w : Bool) : (t.reach r a f out back w).2.acc.Fair ↔ t.acc.Fair := by
  unfold State.reach
  dsimp only
  generalize (if r.passes = true then homeDie (f / 2 ^ 20) else r.die) = die
  have h : (((if a < 2 ^ 42 then t.touch die (a / 2 ^ 20) else t).chargeLine r.part (tierOfKey (f / 2 ^ 20)) (f / 64) w).cross
      die (homeDie (f / 2 ^ 20)) (f / 64) out back).2.acc.Fair ↔ t.acc.Fair := by
    rw [acc_cross, fair_chargeLine _ (tierOfKey_lt _)]
    split <;> simp
  split <;> rename_i e <;> rw [e] at h <;> simpa using h

@[simp] theorem fair_halts (h : Halt) : (t.halts h).acc.Fair ↔ t.acc.Fair := by
  unfold State.halts
  split <;> rfl

@[simp] theorem fair_loadWindow (r : Reach) (a n die win off : Nat) : (t.loadWindow r a n die win off).2.acc.Fair ↔ t.acc.Fair := by
  have hs (x : Reach) : (if a < 2 ^ 42 then t.touch x.die (a / 2 ^ 20) else t).acc.Fair ↔ t.acc.Fair := by split <;> simp
  unfold State.loadWindow
  dsimp only
  split
  · rw [acc_when, apply_ite Work.Fair, fair_chargeLine _ (by decide), hs, ite_self]
  · exact hs _
  · have h := (fair_remote (t := if a < 2 ^ 42 then t.touch (t.asker r).die (a / 2 ^ 20) else t) (t.asker r) die win off none).trans (hs _)
    split <;> rename_i e <;> rw [e] at h <;> simpa using h
  · split <;> simp

/-! ### Error events, and what a home does with them -/

/-- An error event owes what partitions and tiers owe. -/
def FairEv (ev : ErrEv) : Prop := ∀ s u, (ev s u).acc.Fair ↔ s.acc.Fair

theorem fair_foldl {α : Type} {f : State → α → State} (hf : ∀ s x, (f s x).acc.Fair ↔ s.acc.Fair) (l : List α) :
    (l.foldl f t).acc.Fair ↔ t.acc.Fair := by
  induction l generalizing t with
  | nil => rfl
  | cons x l ih => rw [List.foldl_cons, ih, hf]

theorem fair_forRange {n : Nat} {f : Nat → State → State} (hf : ∀ k s, (f k s).acc.Fair ↔ s.acc.Fair) :
    (forRange n f t).acc.Fair ↔ t.acc.Fair := fair_foldl (f := fun s k => f k s) (fun s k => hf k s) _

section Requests
variable {ev : ErrEv} (hev : FairEv ev)
include hev

theorem fair_errAt (u line kind : Nat) : (State.errAt ev t u line kind).acc.Fair ↔ t.acc.Fair := by
  unfold State.errAt
  dsimp only
  rw [acc_when]
  split
  · rw [hev, State.fset_acc, State.fset_acc]
  · rw [State.fset_acc, State.fset_acc]

theorem fair_correct (u line f : Nat) : (State.correct ev t u line f).acc.Fair ↔ t.acc.Fair := by
  unfold State.correct State.countHard
  dsimp only
  rw [acc_when]
  split
  · simp [fair_errAt hev]
  · simp

theorem fair_chanRead (line : Nat) : (State.chanRead ev t line).acc.Fair ↔ t.acc.Fair := by
  unfold State.chanRead State.decodeLine State.countUe
  dsimp only
  split
  · simp
  · simp [fair_errAt hev]
  · simp [fair_correct hev]
  · simp [fair_errAt hev]

theorem fair_fetch (line : Nat) (a : Bool) : (State.fetch ev t line a).acc.Fair ↔ t.acc.Fair := by
  unfold State.fetch
  repeat' split
  all_goals simp [fair_chanRead hev]

theorem fair_rawLoad (f n : Nat) : (State.rawLoad ev t f n).2.acc.Fair ↔ t.acc.Fair := by
  unfold State.rawLoad
  dsimp only
  split <;> simp [fair_fetch hev]

theorem fair_rawStore (f n v : Nat) : (State.rawStore ev t f n v).2.acc.Fair ↔ t.acc.Fair := by
  unfold State.rawStore
  dsimp only
  repeat' split
  all_goals simp [fair_fetch hev]

theorem fair_rawMask (line v m : Nat) : (State.rawMask ev t line v m).2.acc.Fair ↔ t.acc.Fair := by
  unfold State.rawMask
  dsimp only
  split <;> simp [fair_fetch hev]

theorem fair_mergeAt (q : Txn) : (State.mergeAt ev t q).acc.Fair ↔ t.acc.Fair := by
  unfold State.mergeAt
  dsimp only
  split
  · simp [fair_fetch hev]
  · have h := fair_rawLoad (t := (State.fetch ev t (q.recAddr / 64) false).patch q.recAddr 2 (mergeWord (t.homeBytes q.recAddr 2) q.status))
      hev q.mapAddr 1
    split <;> rename_i e <;> rw [e] at h <;> simpa [fair_rawStore hev, fair_fetch hev] using h

theorem fair_finishTxn (line : Nat) (b : Busy) (q : Txn) : (State.finishTxn ev t line b q).acc.Fair ↔ t.acc.Fair := by
  unfold State.finishTxn
  dsimp only
  repeat' split
  all_goals simp [fair_fetch hev, fair_mergeAt hev]

theorem fair_goTxn (line : Nat) : (State.goTxn ev t line).acc.Fair ↔ t.acc.Fair := by
  unfold State.goTxn
  repeat' split
  all_goals simp [fair_finishTxn hev]

theorem fair_unpark (which : Nat → Txn → Bool) : (State.unpark ev which t).acc.Fair ↔ t.acc.Fair :=
  fair_foldl (f := fun s (e : Nat × Busy) => if e.2.parked && e.2.cur.any (which e.1) then State.goTxn ev s e.1 else s)
    (fun s e => by split <;> simp [fair_goTxn hev]) _

theorem fair_startTxn (line : Nat) (q : Txn) (b : Busy) : (State.startTxn ev t line q b).acc.Fair ↔ t.acc.Fair := by
  unfold State.startTxn
  dsimp only
  rw [fair_goTxn hev, acc_killAll]
  split <;> simp

theorem fair_beginTxn (line : Nat) (q : Txn) (b : Busy) : (State.beginTxn ev t line q b).acc.Fair ↔ t.acc.Fair := by
  unfold State.beginTxn
  split
  · rw [fair_startTxn hev]
    simp
  · simp
  · simp

theorem fair_serveLine (line : Nat) : (State.serveLine ev t line).acc.Fair ↔ t.acc.Fair := by
  unfold State.serveLine
  repeat' split
  all_goals simp [fair_beginTxn hev]

theorem fair_takeSnpDone (m : CohMsg) : (State.takeSnpDone ev t m).acc.Fair ↔ t.acc.Fair := by
  simp [State.takeSnpDone, fair_goTxn hev]
theorem fair_takeLineHome (m : CohMsg) (d : Nat) : (State.takeLineHome ev t m d).acc.Fair ↔ t.acc.Fair := by
  simp [State.takeLineHome, fair_goTxn hev]
theorem fair_takeGot (m : CohMsg) : (State.takeGot ev t m).acc.Fair ↔ t.acc.Fair := by
  simp [State.takeGot, fair_goTxn hev]

theorem fair_land (m : CohMsg) : (State.land ev t m).acc.Fair ↔ t.acc.Fair := by
  unfold State.land
  dsimp only
  repeat' split
  all_goals simp [fair_takeSnpDone hev, fair_takeLineHome hev, fair_takeGot hev]

theorem fair_settleN (line n : Nat) : (State.settleN ev line n t).acc.Fair ↔ t.acc.Fair := by
  induction n generalizing t with
  | zero => rfl
  | succ n ih =>
    simp only [State.settleN]
    repeat' split
    all_goals simp [ih, fair_land hev, fair_unpark hev, fair_serveLine hev]

theorem fair_settle (line : Nat) : (State.settle ev t line).acc.Fair ↔ t.acc.Fair := by
  unfold State.settle
  repeat' split
  all_goals simp [fair_settleN hev]

theorem fair_ordered (line : Nat) : (State.ordered ev t line).acc.Fair ↔ t.acc.Fair := by simp [State.ordered, fair_settle hev]

/-! ### Loads and stores -/

theorem fair_homeLoad (f n : Nat) : (State.homeLoad ev t f n).2.acc.Fair ↔ t.acc.Fair := by
  simp [State.homeLoad, fair_rawLoad hev, fair_ordered hev]
theorem fair_homeStore (f n v : Nat) : (State.homeStore ev t f n v).2.acc.Fair ↔ t.acc.Fair := by
  simp [State.homeStore, fair_rawStore hev, fair_ordered hev]
theorem fair_homeMask (l v m : Nat) : (State.homeMask ev t l v m).2.acc.Fair ↔ t.acc.Fair := by
  simp [State.homeMask, fair_rawMask hev, fair_ordered hev]
theorem fair_formHome (f : Nat) (w : StoreForm) : (StoreForm.home ev t f w).2.acc.Fair ↔ t.acc.Fair := by
  cases w <;> simp [StoreForm.home, fair_homeStore hev, fair_homeMask hev]

theorem fair_loadLineE (r : Reach) (a n : Nat) : (State.loadLineE ev t r a n).2.acc.Fair ↔ t.acc.Fair := by
  unfold State.loadLineE
  split
  · rename_i f _
    split
    · simp
    · have h := fair_reach (t := t) r a f 16 80 false
      split <;> rename_i s1 e <;> rw [e] at h <;> dsimp only at h
      · have h2 := fair_homeLoad (t := s1) hev f n
        split <;> rename_i e2 <;> rw [e2] at h2 <;> simpa [h] using h2
      · exact h
  all_goals simp

theorem fair_storeFormE (r : Reach) (sa : Bool) (a : Nat) (w : StoreForm) : (State.storeFormE ev t r sa a w).2.acc.Fair ↔ t.acc.Fair := by
  unfold State.storeFormE
  split
  · rename_i f _
    split
    · simp
    · have h := fair_reach (t := t) r a f w.size 16 true
      split <;> rename_i s1 e <;> rw [e] at h <;> dsimp only at h
      · have h2 : (StoreForm.home ev (if a < 2 ^ 42 ∧ sa then s1.savedWrite (a / 2 ^ 20) else s1) f w).2.acc.Fair ↔ t.acc.Fair := by
          rw [fair_formHome hev, ← h]
          split <;> simp
        split <;> rename_i e2 <;> rw [e2] at h2 <;> simpa using h2
      · exact h
  · rename_i die win off _
    have h : ((if a < 2 ^ 42 then (t.touch r.die (a / 2 ^ 20)).markPeer a else t).remote (t.asker r) die win off
        (some (w.line off))).2.acc.Fair ↔ t.acc.Fair := by
      rw [fair_remote]
      split <;> simp
    split <;> rename_i e <;> rw [e] at h <;> simpa using h
  all_goals simp

end Requests

/-! ### Events and performance counters -/

@[simp] theorem fair_event (off : Nat) (f : Option Fld) (args : List Nat) : (t.event off f args).acc.Fair ↔ t.acc.Fair := by
  unfold State.event
  dsimp only
  split
  · simp
  · rw [acc_when, acc_alert, ite_self, State.fset_acc]
    simp [State.putRing, State.storeLineE, fair_storeFormE (ev := fun s _ => s) fun _ _ => .rfl]

theorem fairEv_unitEvent : FairEv unitEvent := fun s u => by simp [unitEvent]

theorem fair_loadLine (r : Reach) (a n : Nat) : (t.loadLine r a n).2.acc.Fair ↔ t.acc.Fair := fair_loadLineE fairEv_unitEvent r a n
theorem fair_storeLine (r : Reach) (sa : Bool) (a n v : Nat) : (t.storeLine r sa a n v).2.acc.Fair ↔ t.acc.Fair :=
  fair_storeFormE fairEv_unitEvent r sa a _

@[simp] theorem fair_loadN (r : Reach) (k a n : Nat) : (State.loadN r k t a n).2.acc.Fair ↔ t.acc.Fair := by
  induction k generalizing t a n with
  | zero => rfl
  | succ k ih =>
    simp only [State.loadN]
    split
    · rfl
    · have h := fair_loadLine (t := t) r a (min n (64 - a % 64))
      split <;> rename_i s1 e <;> rw [e] at h
      · rw [← h]
        have h2 := ih (t := s1) (a + min n (64 - a % 64)) (n - min n (64 - a % 64))
        split <;> rename_i s2 e2 <;> rw [e2] at h2 <;> exact h2
      · exact h

@[simp] theorem fair_load (r : Reach) (a n : Nat) : (t.load r a n).2.acc.Fair ↔ t.acc.Fair := fair_loadN r _ a n

@[simp] theorem fair_storeN (r : Reach) (sa : Bool) (k a n v : Nat) : (State.storeN r sa k t a n v).2.acc.Fair ↔ t.acc.Fair := by
  induction k generalizing t a n v with
  | zero => rfl
  | succ k ih =>
    simp only [State.storeN]
    split
    · rfl
    · have h := fair_storeLine (t := t) r sa a (min n (64 - a % 64)) (v % 2 ^ (8 * min n (64 - a % 64)))
      split <;> rename_i s1 e <;> rw [e] at h
      · rw [← h]
        exact ih _ _ _
      · exact h

@[simp] theorem fair_storeWords (r : Reach) (a : Nat) (ws : List Nat) : (t.storeWords r a ws).acc.Fair ↔ t.acc.Fair :=
  fair_storeN r _ _ a _ _

@[simp] theorem fair_loadWords (r : Reach) (a k : Nat) : (t.loadWords r a k).2.acc.Fair ↔ t.acc.Fair := by
  have h := fair_load (t := t) r a (8 * k)
  unfold State.loadWords
  split <;> rename_i e <;> rw [e] at h <;> exact h

theorem fair_pmcWrap (e : Nat) : (t.pmcWrap e).acc.Fair ↔ t.acc.Fair := by
  unfold State.pmcWrap
  dsimp only
  split <;> split <;> simp

theorem fair_pmcCount (e : Nat) (c : Option Nat) (code n : Nat) : (t.pmcCount e c code n).acc.Fair ↔ t.acc.Fair := by
  unfold State.pmcCount
  dsimp only
  repeat' split
  all_goals simp [fair_pmcWrap]

@[simp] theorem fair_pmcHerd (h code n : Nat) : (t.pmcHerd h code n).acc.Fair ↔ t.acc.Fair := by
  unfold State.pmcHerd
  split
  · rfl
  · exact fair_forRange fun _ _ => fair_pmcCount ..

/-! ### Work that goes on (R290, R291, R343) -/

theorem sameUnits_chargeAll {due : List (Nat × Nat × Nat)} (h : ∀ d ∈ due, d.1 / 4 < 8 ∧ d.1 % 4 < 3) : SameUnits t (t.chargeAll due).1 := by
  induction due generalizing t with
  | nil => exact .refl t
  | cons d due ih =>
    obtain ⟨⟨hp, hi⟩, hdue⟩ := List.forall_mem_cons.1 h
    exact ((sameUnits_chargeNow hp hi d.2.1 d.2.2).2 (.refl t)).trans (ih hdue)

section Work
variable {u : Nat} {ok : State → Bool} {f : State → State}

theorem SameUnits.workEnds (h : SameUnits s t) (u : Nat) : SameUnits (s.workEnds u) (t.workEnds u) := by
  obtain ⟨hrest, hregs⟩ := h
  refine ⟨?_, hregs⟩
  unfold SameRest at *
  rw [hrest]
  rfl

/-- What the work of a unit leaves, where what it owes is owed for partitions and tiers: the tokens change registers of the memory system
alone. -/
theorem sameUnits_workDone (h : (s.workTry u f).acc.Fair) : SameUnits ((s.workTry u f).workEnds u) (s.workDone u ok f) := by
  refine (sameUnits_chargeAll ?_).workEnds u
  unfold State.workDue
  dsimp only
  split
  · exact fun _ hd => absurd hd List.not_mem_nil
  · exact h

/-- An attempt begins with nothing owed. -/
theorem fair_workTry_id (s : State) (u : Nat) : (s.workTry u id).acc.Fair := fun _ hd => absurd hd List.not_mem_nil

theorem sameUnits_workTry_id (s : State) (u : Nat) : SameUnits s (s.workTry u id) := sameUnits_acc.2 (.refl s)

end Work

end Sys2Proof.Machine
end

section
/-!
The life of a segment and the release of a step (O20): what a fetch reads and leaves, what a start takes, and what a retirement frees
(R196 to R198); and the release of a step that is due (R44).
-/

set_option Elab.async false

namespace Sys2Proof.Machine

variable {s t u : State}

/-! ### Work that waits leaves memory and tiles (R291, R343) -/

theorem kept_outPort (e : Nat) (m : AfrMsg) (l : Nat) (s : State) : (s.outPort e m l).2.kept = s.kept := by
  unfold State.outPort
  dsimp only
  repeat' split
  all_goals rfl

theorem kept_ucieBytes (l m a b n : Nat) (s : State) : (s.ucieBytes l m a b n).kept = s.kept :=
  (when_keeps (v := State.kept) (fun s => kept_bwAdd _ _ _ s) _).trans (when_keeps (v := State.kept) (fun s => kept_bwAdd _ _ _ s) s)

theorem kept_carry (a b line n : Nat) (s : State) : (s.carry a b line n).kept = s.kept := by
  unfold State.carry
  repeat' split
  · rfl
  · exact (kept_ucieBytes ..).trans (when_keeps (v := State.kept) (fun s => kept_health _ _ s) s)
  · rfl

theorem kept_sendVia (d : Nat) (m : AfrMsg) (l : Nat) (s : State) : (s.sendVia d m l).2.kept = s.kept := by
  unfold State.sendVia
  split
  · rfl
  · rename_i e _
    split
    · rfl
    · have hport := kept_outPort e m l s
      split <;> rename_i h <;> rw [h] at hport
      · exact (kept_sendOn ..).trans ((kept_carry ..).trans hport)
      · exact hport

theorem kept_nextReq (s : State) : s.nextReq.kept = s.kept := by
  unfold State.nextReq State.sendReq
  split
  · exact (kept_sendVia ..).trans rfl
  · rfl

theorem kept_haltAt (n : Nat) (h : Halt) (s : State) : (s.haltAt n h).kept = s.kept := by
  unfold State.haltAt
  repeat' split
  · rfl
  · rfl
  · rfl
  · exact (forRange_keeps (v := State.kept) (fun _ s => kept_nextReq s) _ _).trans rfl

theorem kept_chargeNow (p i n c : Nat) (s : State) : (s.chargeNow p i n c).kept = s.kept := by
  have htok : (s.issueTokens p i n c).1.kept = s.kept := by
    unfold State.issueTokens
    dsimp only
    repeat' split
    all_goals rfl
  unfold State.chargeNow
  split <;> rename_i h <;> rw [h] at htok <;> exact htok

theorem kept_chargeAll (due : List (Nat × Nat × Nat)) (s : State) : (s.chargeAll due).1.kept = s.kept :=
  foldl_keeps (v := State.kept) (fun s _ => kept_chargeNow _ _ _ _ s) due s

/-- Work that waits changes no memory. -/
theorem kept_workIf_waits {n : Nat} {ok : State → Bool} {f : State → State} (h : s.workGoes n ok f = false) :
    (s.workIf n ok f).kept = s.kept := by
  unfold State.workIf
  rw [h, if_neg Bool.false_ne_true]
  repeat' split
  · rfl
  · exact kept_haltAt ..
  · exact (kept_chargeAll (s.workDue n ok f) s : _)

/-! ### Fetch (R196) -/

theorem sameUnits_fetchWords (v : Nat) (herd : Bool) (a n : Nat) : SameUnits s (t.fetchWords v herd a n).2.2 ↔ SameUnits s t := by
  have h := sameUnits_load (s := s) (t := t) (Reach.tile ((t.partOfTile v).getD 0) v) a (8 * n)
  unfold State.fetchWords
  split
  · split
    · exact sameUnits_pmcHerd ..
    · exact sameUnits_decodeErr
  · split <;> rename_i e <;> rw [e] at h <;> exact h

theorem fair_fetchWords (v : Nat) (herd : Bool) (a n : Nat) : (t.fetchWords v herd a n).2.2.acc.Fair ↔ t.acc.Fair := by
  have h := fair_load (t := t) (Reach.tile ((t.partOfTile v).getD 0) v) a (8 * n)
  unfold State.fetchWords
  split
  · split
    · exact fair_pmcHerd ..
    · rw [acc_decodeErr]
  · split <;> rename_i e <;> rw [e] at h <;> exact h

theorem sameUnits_fetchDescs (v : Nat) (l : List Nat) : SameUnits s (State.fetchDescs v l t).2.2 ↔ SameUnits s t := by
  induction l generalizing t with
  | nil => rfl
  | cons w l ih =>
    have h := sameUnits_fetchWords (s := s) (t := t) v (bit w 63) (bits w 6 50 * 64) 8
    unfold State.fetchDescs
    split <;> rename_i s1 e <;> rw [e] at h
    · have h2 := (ih (t := s1)).trans h
      split <;> rename_i e2 <;> rw [e2] at h2 <;> exact h2
    · exact h

theorem fair_fetchDescs (v : Nat) (l : List Nat) : (State.fetchDescs v l t).2.2.acc.Fair ↔ t.acc.Fair := by
  induction l generalizing t with
  | nil => rfl
  | cons w l ih =>
    have h := fair_fetchWords (t := t) v (bit w 63) (bits w 6 50 * 64) 8
    unfold State.fetchDescs
    split <;> rename_i s1 e <;> rw [e] at h
    · have h2 := (ih (t := s1)).trans h
      split <;> rename_i e2 <;> rw [e2] at h2 <;> exact h2
    · exact h

/-- A change of one tile keeps what units keep. -/
theorem SameUnits.modTile (h : SameUnits s t) (v : Nat) (f : Tile → Tile) : SameUnits (s.modTile v f) (t.modTile v f) := by
  obtain ⟨hrest, hregs⟩ := h
  refine ⟨?_, hregs⟩
  unfold SameRest at *
  rw [hrest]
  rfl

/-- The work of a unit that changes one tile, besides what units change. -/
theorem sameUnits_workDone_modTile {n v : Nat} {ok : State → Bool} {f : State → State} {g : Tile → Tile}
    (hf : s.workTry n f = t.modTile v g) (hst : SameUnits s t) (ht : t.acc.Fair) :
    SameUnits { s.modTile v g with came := s.came.erase n, tickets := s.tickets.erase n } (s.workDone n ok f) := by
  have hdone := sameUnits_workDone (s := s) (u := n) (ok := ok) (f := f) (by rw [hf]; exact ht)
  rw [hf] at hdone
  exact sameUnits_acc.1 (((hst.modTile v g).workEnds n).trans hdone).symm |>.symm

section Fetch
variable {v p : Nat} {q : SegRef} {l : List SegRef} {x : Slot}

/-- The segment that an image and the words of its descriptors make. -/
def fetchedSeg (q : SegRef) (x : Slot) (h : Header) (im : Image) (dws : List (List Nat)) : SegImg :=
  { segId := h.segId, budget := h.budget, fit := h.fit, upd := q.upd, gen := x.gen, descs := dws.filterMap descOf,
    cur := (dws.filterMap descOf).map (curSlot x), views := im.views.filterMap id, code := im.code }

/-- A legal image whose words have come is held. -/
theorem fetchImage_legal {s0 s1 s2 s3 : State} {w ws : List Nat} {h : Header} {dws : List (List Nat)} {e1 e2 e3 : Ld}
    (h1 : s0.fetchWords v q.herd q.addr 1 = (some w, e1, s1)) (hh : headerOf (w.getD 0 0) = some h)
    (h2 : s1.fetchWords v q.herd q.addr h.words = (some ws, e2, s2))
    (h3 : State.fetchDescs v (imageOf h ws).ptrs s2 = (some dws, e3, s3)) (hl : segLegal s3.period (imageOf h ws) dws = true)
    (hd : descsStatus dws = 0) :
    s0.fetchImage v q x = s3.modTile v fun y => { y with fetched := some (fetchedSeg q x h (imageOf h ws) dws) } := by
  unfold State.fetchImage
  rw [h1]
  dsimp only
  rw [hh]
  dsimp only
  rw [h2]
  dsimp only
  rw [h3]
  dsimp only
  unfold State.fetchCheck
  rw [hl, hd]
  rfl

theorem exec_segmentFetch (ht : v < 192) (hq : (s.tile v).queue = q :: l) (hf : (s.tile v).fetched = none)
    (hc : s.ctxOfHerd (v / 12) = some (p, x)) (hx : q.ctx = x.ctx) (hsw : (s.part p).sw = none) (hfe : s.tileFenced v = false)
    (hg : q.gather = none) : exec (.segmentFetch v) s = .next (s.work (fetchUnit v) fun s => s.fetchImage v q x) := by
  have hw : instrWf (.segmentFetch v) = true := by simpa [instrWf] using ht
  refine (State.runIf_true s hw _).trans (congrArg Host.Outcome.next ?_)
  rw [hq, hf, hc]
  dsimp only
  rw [hx, hsw, hfe, hg]
  simp

/-- The fetch of a legal image: the tile holds it, and of the rest only what units change, and what had come for the fetch, differ. -/
theorem segmentFetch_spec {s0 s1 s2 s3 : State} {w ws : List Nat} {h : Header} {dws : List (List Nat)} {e1 e2 e3 : Ld}
    (h0 : s.workTry (fetchUnit v) id = s0)
    (h1 : s0.fetchWords v q.herd q.addr 1 = (some w, e1, s1)) (hh : headerOf (w.getD 0 0) = some h)
    (h2 : s1.fetchWords v q.herd q.addr h.words = (some ws, e2, s2))
    (h3 : State.fetchDescs v (imageOf h ws).ptrs s2 = (some dws, e3, s3)) (hl : segLegal s3.period (imageOf h ws) dws = true)
    (hd : descsStatus dws = 0) :
    SameUnits { s.modTile v (fun y => { y with fetched := some (fetchedSeg q x h (imageOf h ws) dws) }) with
        came := s.came.erase (fetchUnit v), tickets := s.tickets.erase (fetchUnit v) }
      (s.workDone (fetchUnit v) (fun _ => true) fun s => s.fetchImage v q x) := by
  have u1 := sameUnits_fetchWords (s := s0) (t := s0) v q.herd q.addr 1
  have u2 := sameUnits_fetchWords (s := s0) (t := s1) v q.herd q.addr h.words
  have u3 := sameUnits_fetchDescs (s := s0) (t := s2) v (imageOf h ws).ptrs
  have f1 := fair_fetchWords (t := s0) v q.herd q.addr 1
  have f2 := fair_fetchWords (t := s1) v q.herd q.addr h.words
  have f3 := fair_fetchDescs (t := s2) v (imageOf h ws).ptrs
  rw [h1] at u1 f1
  rw [h2] at u2 f2
  rw [h3] at u3 f3
  subst h0
  refine sameUnits_workDone_modTile (t := s3) (fetchImage_legal h1 hh h2 h3 hl hd) ?_ ?_
  · exact (sameUnits_workTry_id s _).trans (u3.2 (u2.2 (u1.2 (.refl _))))
  · exact f3.2 (f2.2 (f1.2 (fair_workTry_id s _)))

/-- What a tile that holds a fetched segment differs in. -/
theorem held_of_fetched {g : SegImg} {n : Nat} (h : SameUnits { s.modTile v (fun y => { y with fetched := some g }) with
      came := s.came.erase n, tickets := s.tickets.erase n } u) :
    (u.tile v).fetched = some g ∧ u.tile v = { s.tile v with fetched := (u.tile v).fetched } ∧ (∀ m, m ≠ v → u.tile m = s.tile m)
      ∧ SameUnits { s with tiles := u.tiles, came := u.came, tickets := u.tickets } u := by
  have htile : u.tile v = { s.tile v with fetched := some g } :=
    (h.tile v).trans (tile_modTile_self s v fun y => { y with fetched := some g })
  have htiles : u.tiles = (s.modTile v fun y => { y with fetched := some g }).tiles := by rw [h.1]
  have hcame : u.came = s.came.erase n := by rw [h.1]
  have htick : u.tickets = s.tickets.erase n := by rw [h.1]
  refine ⟨by rw [htile], by rw [htile], fun m hm => (h.tile m).trans (tile_modTile_ne s (fun y => { y with fetched := some g }) hm), ?_⟩
  rw [htiles, hcame, htick]
  exact h

end Fetch

/-! ### Start (R197) -/

section Start
variable {v p : Nat} {img : SegImg} {x : Slot}

/-- The tiles of a gang that are taken: their accumulator sets are invalid, and held scalar writes take effect. -/
def State.takeGang (s : State) (l : List Nat) : State := l.foldl (fun s m => (s.dropAcc m).modTile m Tile.takeHeld) s

theorem tile_dropAcc_self (s : State) (m : Nat) : (s.dropAcc m).tile m = { s.tile m with acc := [], accNf := [] } := by
  rw [State.dropAcc, State.tile_fset, State.tile_fset, State.tile_setTile_self]

theorem tile_dropAcc_ne (s : State) {m n : Nat} (h : n ≠ m) : (s.dropAcc m).tile n = s.tile n := by
  rw [State.dropAcc, State.tile_fset, State.tile_fset, State.tile_setTile_ne _ _ h]

theorem tile_takeGang_of_notMem {l : List Nat} {m : Nat} (h : m ∉ l) (s : State) : (s.takeGang l).tile m = s.tile m := by
  induction l generalizing s with
  | nil => rfl
  | cons n l ih =>
    have hne := List.ne_of_not_mem_cons h
    have hl := List.not_mem_of_not_mem_cons h
    exact (ih hl _).trans ((tile_modTile_ne _ _ hne).trans (tile_dropAcc_ne s hne))

/-- What a start leaves of a tile of the gang. -/
theorem taken_takeGang {l : List Nat} {m : Nat} (h : m ∈ l) (s : State) :
    ((s.takeGang l).tile m).acc = [] ∧ ((s.takeGang l).tile m).sregHeld = [] := by
  induction l generalizing s with
  | nil => exact absurd h List.not_mem_nil
  | cons n l ih =>
    by_cases hl : m ∈ l
    · exact ih hl _
    · obtain rfl : m = n := (List.mem_cons.1 h).resolve_right hl
      have ht : (s.takeGang (m :: l)).tile m = ({ s.tile m with acc := [], accNf := [] } : Tile).takeHeld :=
        (tile_takeGang_of_notMem hl _).trans ((tile_modTile_self ..).trans (congrArg Tile.takeHeld (tile_dropAcc_self s m)))
      rw [ht]
      exact ⟨rfl, rfl⟩

theorem queue_takeGang (s : State) (l : List Nat) (m : Nat) : ((s.takeGang l).tile m).queue = (s.tile m).queue := by
  refine foldl_keeps (v := fun s : State => (s.tile m).queue) (fun s n => ?_) l s
  rcases eq_or_ne m n with rfl | h
  · rw [tile_modTile_self, tile_dropAcc_self]
    rfl
  · rw [tile_modTile_ne _ _ h, tile_dropAcc_ne s h]

/-- Accumulator sets that are invalid stay so, and those of the gang become it. -/
theorem setValid_takeGang {m : Nat} (l : List Nat) (s : State)
    (h : m ∈ l ∨ s.fget (R.TIL_MMA_STATUS m) F.TIL_MMA_STATUS_SET_VALID = 0) :
    (s.takeGang l).fget (R.TIL_MMA_STATUS m) F.TIL_MMA_STATUS_SET_VALID = 0 := by
  have hdrop (s : State) : (s.dropAcc m).fget (R.TIL_MMA_STATUS m) F.TIL_MMA_STATUS_SET_VALID = 0 := by
    rw [State.dropAcc, State.fget_fset_ne _ _ (regKey_ne_of_lo (by decide)), State.fget_fset_self]
    rfl
  have hkeep (s : State) {n : Nat} (hn : m ≠ n) :
      (s.dropAcc n).fget (R.TIL_MMA_STATUS m) F.TIL_MMA_STATUS_SET_VALID = s.fget (R.TIL_MMA_STATUS m) F.TIL_MMA_STATUS_SET_VALID := by
    have hoff : R.TIL_MMA_STATUS m + 8 ≤ R.TIL_MMA_STATUS n ∨ R.TIL_MMA_STATUS n + 8 ≤ R.TIL_MMA_STATUS m := by
      simp only [R.TIL_MMA_STATUS, B.til, B.hrd, B.die]
      omega
    rw [State.dropAcc, State.fget_fset_ne _ _ (regKey_ne_of_off hoff (by decide) (by decide)),
      State.fget_fset_ne _ _ (regKey_ne_of_off hoff (by decide) (by decide)), State.fget_setTile]
  induction l generalizing s with
  | nil => exact h.resolve_left List.not_mem_nil
  | cons n l ih =>
    refine ih _ ?_
    rcases eq_or_ne m n with rfl | hn
    · exact .inr (hdrop s)
    · rcases h with h | h
      · exact .inl ((List.mem_cons.1 h).resolve_left hn)
      · exact .inr ((hkeep s hn).trans h)

theorem sansTileRegs_takeGang (s : State) (l : List Nat) : (s.takeGang l).sansTileRegs = s.sansTileRegs := by
  refine foldl_keeps (v := State.sansTileRegs) (f := fun s m => (s.dropAcc m).modTile m Tile.takeHeld) (fun s m => ?_) l s
  have hfset (s : State) (off : Nat) (f : Fld) (n : Nat) : (s.fset off f n).sansTileRegs = s.sansTileRegs := rfl
  have hset (s : State) (m : Nat) (x : Tile) : (s.setTile m x).sansTileRegs = s.sansTileRegs := rfl
  rw [sansTileRegs_modTile, State.dropAcc, hfset, hfset, hset]

/-- The package once a segment has started. -/
def State.started (s : State) (v : Nat) (img : SegImg) (x : Slot) : State :=
  ((s.takeGang (s.gangOf v)).dropHead v).modTile v fun y =>
    { y with run := some (startRun img (s.gangOf v) s.clk.tb (s.numctl v) x.ctx) }

theorem exec_segmentStart (ht : v < 192) (hf : (s.tile v).fetched = some img) (hc : s.ctxOfHerd (v / 12) = some (p, x))
    (hs : s.canStart v img p x = true) : exec (.segmentStart v) s = .next (s.started v img x) := by
  have hw : instrWf (.segmentStart v) = true := by simpa [instrWf] using ht
  refine (State.runIf_true s hw _).trans (congrArg Host.Outcome.next ?_)
  rw [hf, hc]
  dsimp only
  rw [hs]
  rfl

theorem tile_started_self (s : State) (v : Nat) (img : SegImg) (x : Slot) :
    (s.started v img x).tile v = { (s.takeGang (s.gangOf v)).tile v with
      queue := (s.tile v).queue.drop 1, fetched := none, run := some (startRun img (s.gangOf v) s.clk.tb (s.numctl v) x.ctx) } := by
  rw [State.started, tile_modTile_self, State.dropHead, tile_modTile_self, queue_takeGang]

theorem tile_started_ne (s : State) {v m : Nat} (img : SegImg) (x : Slot) (h : m ≠ v) :
    (s.started v img x).tile m = (s.takeGang (s.gangOf v)).tile m := by
  rw [State.started, tile_modTile_ne _ _ h, State.dropHead, tile_modTile_ne _ _ h]

theorem sansTileRegs_started (s : State) (v : Nat) (img : SegImg) (x : Slot) : (s.started v img x).sansTileRegs = s.sansTileRegs := by
  rw [State.started, sansTileRegs_modTile, State.dropHead, sansTileRegs_modTile, sansTileRegs_takeGang]

end Start

/-! ### Retirement (R198, R230) -/

section Retire
variable {v : Nat} {r : Run}

/-- What the retirement of the segment of a tile leaves: time, control cores and domains, the queue of the package, and of the tile its
queue, its reports, and what its instructions compute with in memory and data registers. -/
structure Retires (v : Nat) (s u : State) : Prop where
  clk : u.clk = s.clk
  cores : u.cores = s.cores
  doms : u.doms = s.doms
  pending : u.pending = s.pending
  queue : (u.tile v).queue = (s.tile v).queue
  report : (u.tile v).report = (s.tile v).report
  mem : (u.tile v).mem = (s.tile v).mem
  tregs : (u.tile v).tregs = (s.tile v).tregs

theorem Retires.refl (v : Nat) (s : State) : Retires v s s := ⟨rfl, rfl, rfl, rfl, rfl, rfl, rfl, rfl⟩

theorem Retires.trans (h1 : Retires v s t) (h2 : Retires v t u) : Retires v s u :=
  ⟨h2.clk.trans h1.clk, h2.cores.trans h1.cores, h2.doms.trans h1.doms, h2.pending.trans h1.pending, h2.queue.trans h1.queue,
    h2.report.trans h1.report, h2.mem.trans h1.mem, h2.tregs.trans h1.tregs⟩

theorem SameUnits.retires (h : SameUnits s t) (v : Nat) : Retires v s t := by
  have ht := h.tile v
  exact ⟨h.clk, by rw [h.1], h.doms, h.pending, by rw [ht], by rw [ht], by rw [ht], by rw [ht]⟩

/-- A tile whose other parts change. -/
theorem retires_setTile (s : State) (v m : Nat) {x : Tile} (hq : x.queue = (s.tile m).queue) (hr : x.report = (s.tile m).report)
    (hm : x.mem = (s.tile m).mem) (ht : x.tregs = (s.tile m).tregs) : Retires v s (s.setTile m x) := by
  rcases eq_or_ne v m with rfl | h
  · refine ⟨rfl, rfl, rfl, rfl, ?_, ?_, ?_, ?_⟩ <;> rw [State.tile_setTile_self] <;> assumption
  · refine ⟨rfl, rfl, rfl, rfl, ?_, ?_, ?_, ?_⟩ <;> rw [State.tile_setTile_ne _ _ h]

theorem Retires.fset (h : Retires v s t) (off : Nat) (f : Fld) (n : Nat) : Retires v s (t.fset off f n) :=
  ⟨h.clk, h.cores, h.doms, h.pending, h.queue, h.report, h.mem, h.tregs⟩

theorem retires_dropAcc (s : State) (v m : Nat) : Retires v s (s.dropAcc m) := by
  have hset : Retires v s (s.setTile m { s.tile m with acc := [], accNf := [] }) := retires_setTile s v m rfl rfl rfl rfl
  exact (hset.fset _ _ _).fset _ _ _

/-- A retired segment as one member counts it. -/
def State.countRetired (s : State) (segId m : Nat) : State := ((s.countSeg m segId).dropAcc m).pmcTile m 2 1

theorem retires_countRetired (s : State) (v segId m : Nat) : Retires v s (s.countRetired segId m) := by
  have hcount : Retires v s (s.countSeg m segId) := by
    unfold State.countSeg
    exact ((Retires.refl v s).fset _ _ _).fset _ _ _
  have hpmc (t : State) : SameUnits t (t.pmcTile m 2 1) := (sameUnits_pmcTile ..).2 (.refl t)
  unfold State.countRetired
  exact hcount.trans ((retires_dropAcc _ v m).trans ((hpmc _).retires v))

theorem tile_countRetired_ne (s : State) (segId : Nat) {m n : Nat} (h : n ≠ m) : (s.countRetired segId m).tile n = s.tile n := by
  have hpmc (t : State) : SameUnits t (t.pmcTile m 2 1) := (sameUnits_pmcTile ..).2 (.refl t)
  rw [State.countRetired, (hpmc _).tile, tile_dropAcc_ne _ h, State.countSeg, State.tile_fset, State.tile_fset]

theorem retires_foldl_countRetired (l : List Nat) (segId : Nat) (s : State) :
    Retires v s (l.foldl (fun s m => s.countRetired segId m) s) := by
  induction l generalizing s with
  | nil => exact .refl v s
  | cons m l ih =>
    rw [List.foldl_cons]
    exact (retires_countRetired s v segId m).trans (ih _)

theorem tile_foldl_countRetired {l : List Nat} {m : Nat} (h : m ∉ l) (segId : Nat) (s : State) :
    (l.foldl (fun s m => s.countRetired segId m) s).tile m = s.tile m := by
  induction l generalizing s with
  | nil => rfl
  | cons n l ih =>
    have hne := List.ne_of_not_mem_cons h
    have hl := List.not_mem_of_not_mem_cons h
    rw [List.foldl_cons, ih hl, tile_countRetired_ne s segId hne]

theorem sampEnd_spec (s : State) (v : Nat) (r : Run) : Retires v s (s.sampEnd v r) ∧ ∀ m, m ≠ v → (s.sampEnd v r).tile m = s.tile m := by
  unfold State.sampEnd
  split
  · exact ⟨retires_setTile s v v rfl rfl rfl rfl, fun m hm => State.tile_setTile_ne _ _ hm⟩
  · exact ⟨.refl v s, fun _ _ => rfl⟩

/-- The package once a segment has been counted in its members. -/
def State.countedOff (s : State) (v : Nat) (r : Run) : State :=
  r.members.foldl (fun s m => s.countRetired r.img.segId m) (s.sampEnd v r)

theorem retires_countedOff (s : State) (v : Nat) (r : Run) : Retires v s (s.countedOff v r) :=
  (sampEnd_spec s v r).1.trans (retires_foldl_countRetired ..)

/-- The package when a segment has retired in its members, its tile is free, and its herd has made progress. -/
def State.tileFreed (s : State) (v : Nat) (r : Run) : State :=
  (((s.countedOff v r).modTile v fun x => { x with run := none, sampFlight := 0 }).noteRetired v r.img.segId).progress (v / 12)

theorem gatherDone_eq (s : State) (p : Nat) (r : Run) : ∃ m, s.gatherDone p r = { s with parts := m } := by
  unfold State.gatherDone
  split
  · exact modSlot_eq ..
  · exact ⟨s.parts, rfl⟩

/-- What the statistics and the GATHER task of a retired segment change is in its context (R222, R230). -/
theorem retireSeg_eq (s : State) (v : Nat) (r : Run) : ∃ m, s.retireSeg v r = { s.tileFreed v r with parts := m } := by
  have hr : s.retireSeg v r = match (s.tileFreed v r).partOfTile v with
      | some p =>
        match ((s.tileFreed v r).part p).run with
        | some k => ((s.tileFreed v r).modSlot p k fun x =>
            if x.ctx = r.ctx then (r.stats.flatMap fun e => e.2).foldl Slot.report x else x).gatherDone p r
        | none => s.tileFreed v r
      | none => s.tileFreed v r := rfl
  rw [hr]
  split
  · rename_i p _
    split
    · rename_i k _
      obtain ⟨m, hm⟩ := modSlot_eq (s.tileFreed v r) p k fun x =>
        if x.ctx = r.ctx then (r.stats.flatMap fun e => e.2).foldl Slot.report x else x
      rw [hm]
      exact (gatherDone_eq _ p r).imp fun _ h => h
    · exact ⟨_, rfl⟩
  · exact ⟨_, rfl⟩

/-- The segment of a tile whose instructions have completed, and whose GATHER work is done, retires where its writes are answered. -/
theorem exec_segmentRetire (ht : v < 192) (hr : (s.tile v).run = some r) (hover : r.over = true)
    (hg : ∀ g, r.img.gather = some g → r.gathered = true) :
    exec (.segmentRetire v) s = .next (if s.segOver v r then s.retireSeg v r else s) := by
  have hw : instrWf (.segmentRetire v) = true := by simpa [instrWf] using ht
  have hwork : s.segWork v r = s := by
    unfold State.segWork
    split
    · rename_i g _ hgath _
      exact if_pos (hg g hgath)
    · rfl
  refine (State.runIf_true s hw _).trans (congrArg Host.Outcome.next ?_)
  rw [hr]
  dsimp only
  rw [hover, hwork, hr]
  rfl

/-- A retired segment is reported at once, or waits for the next boundary (R55, R56). -/
theorem noteRetired_spec (s : State) (v segId : Nat) :
    (s.noteRetired v segId).tile v = { s.tile v with report := (s.tile v).report ++ (if s.clk.phase < 9 then [] else [segId]) }
      ∧ (∀ m, m ≠ v → (s.noteRetired v segId).tile m = s.tile m)
      ∧ (s.noteRetired v segId).clk = s.clk ∧ (s.noteRetired v segId).cores = s.cores ∧ (s.noteRetired v segId).doms = s.doms
      ∧ (s.noteRetired v segId).pending = s.pending := by
  unfold State.noteRetired
  split
  · have hrep : ∃ m, s.segReport v segId 0 = { s with parts := m } := by
      unfold State.segReport
      split
      · exact ⟨_, rfl⟩
      · exact ⟨s.parts, rfl⟩
    obtain ⟨m, hm⟩ := hrep
    rw [hm, List.append_nil]
    exact ⟨rfl, fun _ _ => rfl, rfl, rfl, rfl, rfl⟩
  · exact ⟨tile_modTile_self .., fun m hm => tile_modTile_ne _ _ hm, rfl, rfl, rfl, rfl⟩

theorem retires_progress (s : State) (v h : Nat) : Retires v s (s.progress h) := ⟨rfl, rfl, rfl, rfl, rfl, rfl, rfl, rfl⟩

theorem herd_progress_wd (s : State) (h : Nat) : ((s.progress h).herd h).wd = 0 := by
  have hwd : (s.progress h).herd h = (s.setHerd h { s.herd h with wd := 0 }).herd h := rfl
  rw [hwd, State.herd_setHerd_self]

/-- What a tile that a retired segment has freed holds. -/
theorem tileFreed_spec (s : State) (v : Nat) (r : Run) :
    ((s.tileFreed v r).tile v).run = none
      ∧ ((s.tileFreed v r).tile v).report = (s.tile v).report ++ (if s.clk.phase < 9 then [] else [r.img.segId])
      ∧ ((s.tileFreed v r).herd (v / 12)).wd = 0 ∧ ((s.tileFreed v r).tile v).queue = (s.tile v).queue
      ∧ ((s.tileFreed v r).tile v).mem = (s.tile v).mem ∧ ((s.tileFreed v r).tile v).tregs = (s.tile v).tregs
      ∧ (∀ m, m ≠ v → m ∉ r.members → (s.tileFreed v r).tile m = s.tile m)
      ∧ (s.tileFreed v r).clk = s.clk ∧ (s.tileFreed v r).cores = s.cores ∧ (s.tileFreed v r).doms = s.doms
      ∧ (s.tileFreed v r).pending = s.pending := by
  have hc := retires_countedOff s v r
  generalize hw : (s.countedOff v r).modTile v (fun x => { x with run := none, sampFlight := 0 }) = w
  obtain ⟨hself, hne, hnclk, hncores, hndoms, hnpend⟩ := noteRetired_spec w v r.img.segId
  have hprog := retires_progress (w.noteRetired v r.img.segId) v (v / 12)
  have hfreed : s.tileFreed v r = (w.noteRetired v r.img.segId).progress (v / 12) := by rw [← hw]; rfl
  have htile (m : Nat) : (s.tileFreed v r).tile m = (w.noteRetired v r.img.segId).tile m := by rw [hfreed]; rfl
  have hwv : w.tile v = { (s.countedOff v r).tile v with run := none, sampFlight := 0 } := by rw [← hw, tile_modTile_self]
  have hclk : w.clk = s.clk := by rw [← hw]; exact hc.clk
  refine ⟨?_, ?_, ?_, ?_, ?_, ?_, fun m hm hmem => ?_, ?_, ?_, ?_, ?_⟩
  · rw [htile, hself, hwv]
  · rw [htile, hself, hwv, hclk]
    exact congrArg (· ++ _) hc.report
  · rw [hfreed]
    exact herd_progress_wd ..
  · rw [htile, hself, hwv]
    exact hc.queue
  · rw [htile, hself, hwv]
    exact hc.mem
  · rw [htile, hself, hwv]
    exact hc.tregs
  · rw [htile, hne m hm, ← hw, tile_modTile_ne _ _ hm, State.countedOff, tile_foldl_countRetired hmem, (sampEnd_spec s v r).2 m hm]
  · rw [hfreed, hprog.clk, hnclk, hclk]
  · rw [hfreed, hprog.cores, hncores, ← hw]
    exact hc.cores
  · rw [hfreed, hprog.doms, hndoms, ← hw]
    exact hc.doms
  · rw [hfreed, hprog.pending, hnpend, ← hw]
    exact hc.pending

end Retire

/-! ### Release (R44, R101, R238) -/

section Release
variable {p k : Nat} {x y : Slot}

/-- What the work of a release leaves: time, tiles, herds, control cores, partitions and domains. -/
structure Plant where
  clk : Clock
  tiles : Map Tile
  herds : Map Herd
  cores : Map Core
  parts : Map Part
  doms : List Dom

def State.plant (s : State) : Plant := ⟨s.clk, s.tiles, s.herds, s.cores, s.parts, s.doms⟩

theorem SameRest.plant (h : SameRest s t) : t.plant = s.plant := by
  rw [h]
  rfl

theorem plant_fset (off : Nat) (f : Fld) (n : Nat) (s : State) : (s.fset off f n).plant = s.plant := rfl
theorem plant_setStream (p : Nat) (x : Stream) (s : State) : (s.setStream p x).plant = s.plant := rfl
theorem plant_event (off : Nat) (f : Option Fld) (args : List Nat) (s : State) : (s.event off f args).plant = s.plant :=
  ((sameUnits_event ..).2 (.refl s)).1.plant

theorem plant_inkStore (p a n v : Nat) (s : State) : (s.inkStore p a n v).plant = s.plant := by
  have hstore : (s.store (Reach.intake p) a n v).2.plant = s.plant := ((sameUnits_store ..).2 (.refl s)).1.plant
  unfold State.inkStore
  split <;> rename_i e <;> rw [e] at hstore
  · exact hstore
  · rw [State.inkError, plant_event, plant_setStream, plant_fset, plant_fset]
    exact hstore

theorem plant_inkShow (p : Nat) (s : State) : (s.inkShow p).plant = s.plant := by
  unfold State.inkShow
  dsimp only
  repeat' split
  all_goals simp only [plant_event, plant_setStream, plant_fset]

theorem plant_inkBind (p ctx step : Nat) (s : State) : (s.inkBind p ctx step).plant = s.plant := by
  unfold State.inkBind
  repeat' split
  · rfl
  · rfl
  · rw [plant_inkShow, plant_setStream, plant_inkStore, plant_inkStore]

theorem plant_readTasks (p : Nat) (x : Slot) (s : State) : (s.readTasks p x).2.plant = s.plant :=
  foldl_keeps (v := fun a : List (List Nat) × State => a.2.plant) (fun _ _ => ((sameUnits_loadWords ..).2 (.refl _)).1.plant) _ _

theorem plant_workEnds (n : Nat) (s : State) : (s.workEnds n).plant = s.plant := rfl

/-- The tokens of work change no part of the plant. -/
theorem plant_workDone (n : Nat) (ok : State → Bool) (f : State → State) (s : State) :
    (s.workDone n ok f).plant = (s.workTry n f).plant :=
  (plant_workEnds ..).trans (SameRest.chargeAll (SameUnits.refl (s.workTry n f)).1 _).plant

/-- A release takes its step and its tasks, and counts the step. -/
theorem release_slot (x : Slot) (tasks : List (List Nat)) (now tb : Nat) :
    (x.release tasks now tb).step.live = true ∧ (x.release tasks now tb).step.step = x.nextStep
      ∧ (x.release tasks now tb).step.tasks = tasks ∧ (x.release tasks now tb).step.releasedAt = now
      ∧ (x.release tasks now tb).released = some x.nextStep
      ∧ (x.release tasks now tb).stepsLeft =
          if x.newStep = true ∧ x.stepsLeft ≠ 0xFFFFFFFF then x.stepsLeft - 1 else x.stepsLeft := by
  have hpipe (x : Slot) : x.takePipe.stepsLeft = x.stepsLeft := rfl
  have hfset (x : Slot) (off : Nat) (f : Fld) (n : Nat) : (x.fset off f n).stepsLeft = x.stepsLeft := rfl
  unfold Slot.release
  dsimp only
  refine ⟨rfl, rfl, rfl, rfl, rfl, ?_⟩
  rw [hpipe, hfset, hfset, hfset]
  cases x.newStep
  · simp
  · by_cases h : x.stepsLeft = 0xFFFFFFFF <;> simp [h]

theorem fields_of_plant (h : t.plant = s.plant) :
    t.clk = s.clk ∧ t.tiles = s.tiles ∧ t.herds = s.herds ∧ t.cores = s.cores ∧ t.doms = s.doms :=
  ⟨congrArg Plant.clk h, congrArg Plant.tiles h, congrArg Plant.herds h, congrArg Plant.cores h, congrArg Plant.doms h⟩

theorem slot?_of_plant (h : t.plant = s.plant) (q j : Nat) : t.slot? q j = s.slot? q j := by
  have hparts : t.parts = s.parts := congrArg Plant.parts h
  rw [State.slot?, State.part, hparts]
  rfl

/-- What has been read and bound before a release takes its step. -/
def State.bound (s : State) (p : Nat) (x : Slot) : State :=
  if x.newStep then (s.readTasks p x).2.inkBind p x.ctx x.nextStep else (s.readTasks p x).2

theorem plant_bound (p : Nat) (x : Slot) (s : State) : (s.bound p x).plant = s.plant := by
  unfold State.bound
  split
  · rw [plant_inkBind, plant_readTasks]
  · exact plant_readTasks ..

theorem release_eq (h : s.numctlDiff p = none) :
    s.release p k x = (s.bound p x).setSlot p k (x.release (s.readTasks p x).1 s.tick s.clk.tb) := by
  unfold State.release
  rw [h]
  rfl

/-- The package in which the release of a step is examined. -/
def State.examined (s : State) (p k : Nat) (x : Slot) : State := (s.took 6).setSlot p k { x with relAt := some s.tick }

theorem exec_stepRelease (hp : p < 8) (hk : k < 4) (hx : s.slot? p k = some x) (hb : s.atBoundary 6 = true)
    (hset : x.settled s.tick = true) (hrel : x.relAt ≠ some s.tick) (hf : s.fenced 5 0 = false)
    (hc : (s.examined p k x).blockCode p { x with relAt := some s.tick } = 0) :
    exec (.stepRelease p k) s =
      .next ((s.examined p k x).work (schedUnit p k) fun s' => s'.release p k { x with relAt := some s.tick }) := by
  have hw : instrWf (.stepRelease p k) = true := by simp [instrWf, hp, hk]
  have hexam : (!(s.atBoundary 6 && x.settled s.tick) || x.relAt == some s.tick || s.fenced 5 0) = false := by
    simp [hb, hset, hf, hrel]
  refine (State.runIf_true s hw _).trans (congrArg Host.Outcome.next ?_)
  rw [hx]
  dsimp only
  rw [hexam, if_neg Bool.false_ne_true]
  change (match (s.examined p k x).blockCode p _ with | 0 => _ | 3 => _ | 4 => _ | _ => _) = _
  rw [hc]
  rfl

theorem tick_workTry_id (s : State) (n : Nat) : (s.workTry n id).tick = s.tick := rfl

theorem tick_examined (s : State) (p k : Nat) (x : Slot) : (s.examined p k x).tick = s.tick := by
  have hset (t : State) (y : Slot) : (t.setSlot p k y).tick = t.tick := rfl
  have htook (t : State) : (t.took 6).tick = t.tick := rfl
  rw [State.examined, hset, htook]

theorem tb_examined (s : State) (p k : Nat) (x : Slot) : (s.examined p k x).clk.tb = s.clk.tb := rfl

theorem slot?_examined_ne (s : State) {q j : Nat} (x : Slot) (h : ¬ (q = p ∧ j = k)) : (s.examined p k x).slot? q j = s.slot? q j := by
  have htook (t : State) : (t.took 6).slot? q j = t.slot? q j := rfl
  rw [State.examined, State.slot?_setSlot_ne _ _ h, htook]

/-- What differs once the slot of a release that was examined is replaced. -/
theorem examined_setSlot (h : u.plant = ((s.examined p k x).setSlot p k y).plant) :
    u.slot? p k = some y ∧ u.clk = (s.took 6).clk ∧ u.tiles = s.tiles ∧ u.herds = s.herds ∧ u.cores = s.cores ∧ u.doms = s.doms
      ∧ ∀ q j, ¬ (q = p ∧ j = k) → u.slot? q j = s.slot? q j := by
  obtain ⟨hclk, htiles, hherds, hcores, hdoms⟩ := fields_of_plant h
  refine ⟨?_, ?_, ?_, ?_, ?_, ?_, fun q j hqj => ?_⟩
  · rw [slot?_of_plant h, State.slot?_setSlot_self]
  · rw [hclk, State.setSlot_clk, State.examined, State.setSlot_clk]
  · rw [htiles, State.setSlot_tiles, State.examined, State.setSlot_tiles, State.took]
  · rw [hherds, State.setSlot_herds, State.examined, State.setSlot_herds, State.took]
  · rw [hcores, State.setSlot_cores, State.examined, State.setSlot_cores, State.took]
  · rw [hdoms, State.setSlot_doms, State.examined, State.setSlot_doms, State.took]
  · rw [slot?_of_plant h, State.slot?_setSlot_ne _ _ hqj, slot?_examined_ne s x hqj]

theorem workGoes_congr {n : Nat} {ok : State → Bool} {f g : State → State} (h : s.workTry n f = s.workTry n g) :
    s.workGoes n ok f = s.workGoes n ok g := by
  simp only [State.workGoes, State.workDue, h]

/-- The package once the release of a step is done: its context has taken the step, and the rest of the plant is as it was. -/
theorem stepRelease_spec {n : Nat} {ok : State → Bool} (h : s.numctlDiff p = none) :
    (s.workDone n ok fun s => s.release p k x).plant =
      (s.setSlot p k (x.release ((s.workTry n id).readTasks p x).1 s.tick s.clk.tb)).plant := by
  have hsame : (s.workTry n id).plant = s.plant := rfl
  have htry : s.workTry n (fun s => s.release p k x) =
      ((s.workTry n id).bound p x).setSlot p k (x.release ((s.workTry n id).readTasks p x).1 s.tick s.clk.tb) :=
    (workTry_eq ..).trans (release_eq (s := s.workTry n id) h)
  have hset (t : State) (y : Slot) (ht : t.plant = s.plant) : (t.setSlot p k y).plant = (s.setSlot p k y).plant := by
    have hparts : t.parts = s.parts := congrArg Plant.parts ht
    have hput : (t.setSlot p k y).parts = (s.setSlot p k y).parts := by
      simp only [State.setSlot, State.setPart, State.part, hparts]
    have hplant (t : State) : (t.setSlot p k y).plant = { t.plant with parts := (t.setSlot p k y).parts } := rfl
    rw [hplant, hplant, ht, hput]
  rw [plant_workDone, htry]
  exact hset _ _ ((plant_bound ..).trans hsame)

end Release

/-- Settles O20: a fetch that goes holds the image that it has read, and one that waits changes requests and tokens alone; a start takes the
gang, a retirement frees the tile, and a release gives the context its step. -/
theorem segmentLifeAndStepRelease : Obligations.SegmentLifeAndStepRelease := by
  refine ⟨?_, ?_, ?_, ?_, ?_, ?_⟩
  · intro s s0 s1 s2 s3 t p x q l w ws h dws e1 e2 e3 ht hq hf hc hx hsw hfe hg hgo h0 h1 hh h2 h3 hl hd
    have hu := segmentFetch_spec (x := x) h0 h1 hh h2 h3 hl hd
    have hexec := exec_segmentFetch ht hq hf hc hx hsw hfe hg
    rw [State.work, workIf_goes hgo] at hexec
    generalize s.workDone (fetchUnit t) (fun _ => true) (fun s => s.fetchImage t q x) = u at hu hexec
    exact ⟨u, hexec, held_of_fetched hu⟩
  · intro s t p x q l ht hq hf hc hx hsw hfe hg hgo
    have hk : (s.work (fetchUnit t) fun s => s.fetchImage t q x).kept = s.kept := kept_workIf_waits hgo
    have hr := workIf_waits hgo
    exact ⟨_, exec_segmentFetch ht hq hf hc hx hsw hfe hg, congrArg Kept.tiles hk, congrArg Kept.mem hk, congrArg Kept.clk hk,
      (congrArg State.jobFaults hr : _), (congrArg State.parts hr : _)⟩
  · intro s t p img x ht hf hc hs
    refine ⟨_, exec_segmentStart ht hf hc hs, by rw [tile_started_self], by rw [tile_started_self], by rw [tile_started_self], fun m hm => ?_,
      fun m hm hgang => ?_, eq_of_sansTileRegs (sansTileRegs_started s t img x)⟩
    · obtain ⟨hacc, hheld⟩ := taken_takeGang hm s
      have hvalid : (s.started t img x).fget (R.TIL_MMA_STATUS m) F.TIL_MMA_STATUS_SET_VALID = 0 := setValid_takeGang _ s (.inl hm)
      rcases eq_or_ne m t with rfl | hm
      · rw [tile_started_self]
        exact ⟨hacc, hheld, hvalid⟩
      · rw [tile_started_ne s img x hm]
        exact ⟨hacc, hheld, hvalid⟩
    · rw [tile_started_ne s img x hm, tile_takeGang_of_notMem hgang]
  · intro s t r g ht hr hover hg hdone hasks
    refine (exec_segmentRetire ht hr hover fun g' hg' => hdone).trans (congrArg Host.Outcome.next (if_neg ?_))
    rw [State.segOver, hg, hasks]
    simp
  · intro s t r ht hr hover hdone
    have hexec := exec_segmentRetire ht hr hover fun g hg => (hdone.resolve_left (by simp [hg])).1
    have hseg : s.segOver t r = true := by
      rw [State.segOver, hover]
      rcases hdone with hnone | ⟨hgath, hasks⟩
      · simp [hnone]
      · simp [hgath, hasks]
    rw [if_pos hseg] at hexec
    obtain ⟨m, hm⟩ := retireSeg_eq s t r
    rw [hm] at hexec
    exact ⟨_, hexec, tileFreed_spec s t r⟩
  · intro s v p k x hp hk hx hb hset hrel hf hv hc hn hgo
    obtain rfl : v = s.examined p k x := hv
    have hexec := exec_stepRelease hp hk hx hb hset hrel hf hc
    have htick : ((s.examined p k x).workTry (schedUnit p k) id).tick = s.tick := (tick_workTry_id ..).trans (tick_examined ..)
    have htry : (s.examined p k x).workTry (schedUnit p k) (fun s' => s'.release p k { x with relAt := some s'.tick }) =
        (s.examined p k x).workTry (schedUnit p k) fun s' => s'.release p k { x with relAt := some s.tick } :=
      congrArg (fun n => ((s.examined p k x).workTry (schedUnit p k) id).release p k { x with relAt := some n }) htick
    have hgoes := (workGoes_congr htry).symm.trans hgo
    rw [State.work, workIf_goes hgoes] at hexec
    have hplant := stepRelease_spec (n := schedUnit p k) (ok := fun _ => true) (k := k) (x := { x with relAt := some s.tick }) hn
    rw [tick_examined, tb_examined] at hplant
    have hslot := release_slot { x with relAt := some s.tick }
      (((s.examined p k x).workTry (schedUnit p k) id).readTasks p { x with relAt := some s.tick }).1 s.tick s.clk.tb
    generalize Slot.release { x with relAt := some s.tick } _ s.tick s.clk.tb = y at hplant hslot
    obtain ⟨hlive, hstep, htasks, hat, hreleased, hleft⟩ := hslot
    generalize (s.examined p k x).workDone (schedUnit p k) _ _ = u at hplant hexec
    obtain ⟨hself, hclk, htiles, hherds, hcores, hdoms, hothers⟩ := examined_setSlot hplant
    exact ⟨u, y, hexec, hself, hlive, hstep, htasks, hat, hreleased, hleft, hclk, htiles, hherds, hcores, hdoms, hothers⟩

end Sys2Proof.Machine
end

section
/-!
Collectives (O36): how an engine takes one (R182, R246, R354), what its checks give it (R349, R350), what a chain message and a timeout do
with it (R345, R353, R355), and how it leaves its queue.
-/

set_option Elab.async false

namespace Sys2Proof.Machine

variable {s t u : State}

/-! ### Acceptance (R182, R246, R354) -/

section Accept
variable {v idx op : Nat} {o : ColOps} {r : Run} {sl : Nat × Nat} {c : Instr}

theorem img_issue (r : Run) (idx : Nat) (x : TIns) : (r.issue idx x).img = r.img := by
  unfold Run.issue
  dsimp only
  split <;> rfl

theorem ctx_issue (r : Run) (idx : Nat) (x : TIns) : (r.issue idx x).ctx = r.ctx := by
  unfold Run.issue
  dsimp only
  split <;> rfl

/-- Each instruction of a collective issues as its operation. -/
theorem exec_col (hw : instrWf c = true)
    (hc : c = .allreduce v idx o ∧ op = 0 ∨ c = .reduceScatter v idx o ∧ op = 1 ∨ c = .allgather v idx o ∧ op = 2) :
    exec c s = .next (s.colIssue v idx op o) := by
  obtain ⟨rfl, rfl⟩ | ⟨rfl, rfl⟩ | ⟨rfl, rfl⟩ := hc
  · exact State.runIf_true s hw _
  · exact State.runIf_true s hw _
  · exact State.runIf_true s hw _

/-- The collective that an instruction gives the engine of its die. -/
def State.collOf (s : State) (v op : Nat) (o : ColOps) (r : Run) (sl : Nat × Nat) : Coll :=
  { op := op, rop := o.rop, group := o.group, sem := s.semKey ((s.partOfTile v).getD 0) o.sem, part := (s.partOfTile v).getD 0,
    ctx := r.ctx, tile := v, sdesc := (r.img.descs[o.sslot]?).getD {}, ddesc := (r.img.descs[o.dslot]?).getD {}, sslot := sl.1,
    dslot := sl.2, tag := s.freeTag.getD 0, e4inf := (s.numCtx v r).e4inf }

/-- The package in which a collective stands last in the queue of its engine. -/
def State.collQueued (s : State) (v : Nat) (x : Coll) : State :=
  { s with colls := Map.put [] s.colls (v / 96) (Map.get [] s.colls (v / 96) ++ [x]) }

theorem colIssue_taken (hroom : s.collRoom (v / 96) ((s.partOfTile v).getD 0) = true) (hpin : s.colPinned v o = false)
    (hi : Issues s v idx (.col op o) r) (hsl : colSlots r.img o = some sl)
    (hbad : (s.issuedAt v idx (.col op o) r).colBad v o (r.issue idx (.col op o)) sl = false) :
    s.colIssue v idx op o = ((s.issuedAt v idx (.col op o) r).collQueued v
      ((s.issuedAt v idx (.col op o) r).collOf v op o (r.issue idx (.col op o)) sl)).collGo.launched v idx (.col op o) 0 := by
  unfold State.colIssue
  rw [hroom, hpin]
  refine (if_neg Bool.false_ne_true).trans ((issueOr_of_issues hi _ _).trans ?_)
  rw [img_issue, hsl]
  dsimp only
  rw [hbad]
  rfl

/-- An engine that takes no collective, and a pinned destination, stall it. -/
theorem colIssue_stalls (h : s.collRoom (v / 96) ((s.partOfTile v).getD 0) = false ∨ s.colPinned v o = true) :
    s.colIssue v idx op o = s := by
  refine if_pos ?_
  rcases h with h | h <;> simp [h]

end Accept

/-! ### Checks (R349, R350, R355) -/

section Check
variable {d : Nat} {c : Coll} {e : Option (List Nat)}

theorem collCheck_form (h3 : c.op ≠ 3) (hf : collForm c.op c.rop c.sdesc c.ddesc = false) : s.collCheck d c e = ({ c with status := 3 }, s) := by
  refine if_pos ?_
  simp [h3, hf]

/-- A collective whose form is in order goes by the entry of its group. -/
theorem collCheck_formed (hf : collForm c.op c.rop c.sdesc c.ddesc = true) :
    (c.op != 3 && !collForm c.op c.rop c.sdesc c.ddesc) = false := by
  simp [hf]

theorem collCheck_unread (hf : collForm c.op c.rop c.sdesc c.ddesc = true) : s.collCheck d c none = ({ c with status := 2 }, s) := by
  unfold State.collCheck
  rw [collCheck_formed hf]
  rfl

theorem collCheck_undefined {l : List Nat} (hf : collForm c.op c.rop c.sdesc c.ddesc = true) (hv : bit (l.getD 0 0) 63 = false) :
    s.collCheck d c (some l) = ({ c with status := 2 }, s) := by
  unfold State.collCheck
  rw [collCheck_formed hf]
  dsimp only
  rw [hv]
  rfl

theorem collCheck_foreign {l : List Nat} (hf : collForm c.op c.rop c.sdesc c.ddesc = true) (hv : bit (l.getD 0 0) 63 = true)
    (hp : bits (l.getD 0 0) 60 3 ≠ c.part) : s.collCheck d c (some l) = ({ c with status := 3 }, s) := by
  unfold State.collCheck
  rw [collCheck_formed hf]
  dsimp only
  rw [hv]
  refine (if_neg Bool.false_ne_true).trans ((if_neg (by simp)).trans (if_pos ?_))
  simp only [Bool.or_eq_true, decide_eq_true_eq]
  exact .inl (.inl (.inl hp))

end Check

/-! ### Messages (R345, R353, R355) -/

section Messages
variable {g d status : Nat} {m : AfrMsg} {q : CollPart} {x : Coll}

theorem takeRx_eq (s : State) (g : Nat) (m : AfrMsg) : s.takeRx g m = { s with ports := (s.takeRx g m).ports } := by
  unfold State.takeRx
  cases (s.port g).rx.contains m <;> rfl

theorem fget_takeRx (s : State) (g : Nat) (m : AfrMsg) (off : Nat) (f : Fld) : (s.takeRx g m).fget off f = s.fget off f := by
  rw [takeRx_eq]
  rfl

theorem roleOk_takeRx (s : State) (g : Nat) (m m' : AfrMsg) : (s.takeRx g m).roleOk m' = s.roleOk m' := by
  rw [takeRx_eq]
  rfl

/-- A well-formed message of its type for this package is taken from its port. -/
theorem receive_mine {typ : Nat} {f : State → State} (ht : m.typ = typ) (hup : s.portUp g = true) (hok : msgOk m = true)
    (hm : s.mine m = true) : s.receive g m typ f = f (s.takeRx g m) := by
  unfold State.receive
  rw [if_neg (by simp [ht, hup]), if_neg (by simp [hok]), if_pos hm]

/-- The messages of a chain are on their own virtual channel. -/
theorem vc_of_msgOk (hok : msgOk m = true) (ht : m.typ = 0x20 ∨ m.typ = 0x21) : m.vc = 2 := by
  unfold msgOk at hok
  rcases ht with ht | ht <;> rw [ht] at hok <;> simp [msgForm] at hok <;> tauto

theorem staleDrop_chain (s : State) (g : Nat) (hvc : m.vc = 2) :
    s.staleDrop g m = (s.fadd (R.AFR_STAT (g / 18)) F.AFR_STAT_STALE_DROPS 1).collNack (g / 18) m 5 := if_pos hvc

/-- What a part that has come for a group does: it joins the arrived parts where the group is defined, and is refused otherwise. -/
theorem collDataIn_fresh {e : List Nat} {s1 : State} (ht : m.typ = 0x20) (hup : s.portUp g = true) (hok : msgOk m = true)
    (hm : s.mine m = true) (hrole : s.roleOk m = true)
    (hl : (s.takeRx g m).loadWords (Reach.engine d) (s.groupAddr d (bits m.arg 44 12)) 8 = (some e, s1)) :
    s.collDataIn d g m q = (if bit (e.getD 0 0) 63 then
      { s1.carry (g / 18) d (bits m.arg 0 44 / (if q.words = [] then 3 else 8)) (partBytes q) with
        collIn := s1.collIn ++ [{
          die := d, group := bits m.arg 44 12, at0 := bits m.arg 0 44 / (if q.words = [] then 3 else 8), part := q }] }
      else s1.collNack (g / 18) m 2) := by
  have haddr : (s.takeRx g m).groupAddr d (bits m.arg 44 12) = s.groupAddr d (bits m.arg 44 12) := by
    rw [State.groupAddr, fget_takeRx, State.groupAddr]
  unfold State.collDataIn
  dsimp only
  rw [receive_mine ht hup hok hm, roleOk_takeRx, hrole, haddr, hl]
  rfl

theorem collDataIn_stale (ht : m.typ = 0x20) (hup : s.portUp g = true) (hok : msgOk m = true) (hm : s.mine m = true)
    (hrole : s.roleOk m = false) :
    s.collDataIn d g m q = ((s.takeRx g m).fadd (R.AFR_STAT (g / 18)) F.AFR_STAT_STALE_DROPS 1).collNack (g / 18) m 5 := by
  unfold State.collDataIn
  dsimp only
  rw [receive_mine ht hup hok hm, roleOk_takeRx, hrole]
  exact staleDrop_chain _ g (vc_of_msgOk hok (.inl ht))

/-! ### The collective of a group -/

theorem find?_modFirst {l : List Coll} {f : Coll → Coll} (hl : l.find? (fun c => c.group == g) = some x) (hf : (f x).group = g) :
    (modFirst g f l).find? (fun c => c.group == g) = some (f x) := by
  induction l with
  | nil => cases hl
  | cons c l ih =>
    rw [modFirst]
    by_cases hc : c.group = g
    · rw [List.find?_cons_of_pos (by simpa using hc)] at hl
      obtain rfl := Option.some.inj hl
      rw [if_pos hc, List.find?_cons_of_pos (by simpa using hf)]
    · rw [List.find?_cons_of_neg (by simpa using hc)] at hl
      rw [if_neg hc, List.find?_cons_of_neg (by simpa using hc)]
      exact ih hl

theorem group_of_collHead (h : s.collHead d g = some x) : x.group = g := by simpa using List.find?_some h

/-- A collective that has not ended fails with a status. -/
theorem collHead_collFail (h : s.collHead d g = some x) (ho : x.over = false) :
    (s.collFail d g status).collHead d g = some { x with status := status } := by
  have hg : x.group = g := group_of_collHead h
  have hf : (if x.over then x else { x with status := status }) = { x with status := status } := by rw [ho]; rfl
  have hfind := find?_modFirst (l := Map.get [] s.colls d) (x := x) (f := fun c => if c.over then c else { c with status := status }) h
    (by rw [hf]; exact hg)
  rw [hf] at hfind
  rw [State.collHead, State.collFail, State.modColl]
  dsimp only
  rw [Map.get_put_self]
  exact hfind

theorem collHead_of_collRuns (h : s.collRuns d g = some x) : s.collHead d g = some x ∧ x.over = false := by
  unfold State.collRuns at h
  split at h
  · split at h
    · split at h
      · cases h
      · rename_i c hc hgo
        obtain rfl := Option.some.inj h
        exact ⟨hc, by simp only [Bool.or_eq_true, not_or, Bool.not_eq_true] at hgo; exact hgo.1⟩
    · cases h
  · cases h

end Messages

/-! ### The end of a collective (R349, R352, R355) -/

section Leave
variable {P : Nat → Prop} {d : Nat} {x : Coll}

theorem afrStat_aligned (d : Nat) : R.AFR_STAT d % 8 = 0 := by
  simp only [R.AFR_STAT, B.afrEng, B.die]
  omega

/-- The registers of the collective engines are not registers of the memory system. -/
theorem not_unitReg_afrEng (d : Nat) {k : Nat} (hk : k < 0x1000) : ¬ unitReg (B.afrEng d + k) := by
  rintro ((⟨x, hx, h⟩ | ⟨p, i, hp, hi, h⟩ | ⟨n, hn, h | h | h⟩ | ⟨x, hx, h | h⟩ | ⟨i, hi, h⟩ | ⟨x, i, hx, hi, h⟩)
    | h | h | h | h | ⟨n, w, hn, hw, h⟩ | ⟨x, i, hi, h | h | h | h⟩)
  case inl.inr.inr.inl.inl | inl.inr.inr.inl.inr.inl | inl.inr.inr.inl.inr.inr =>
    simp only [R.COH_STAT, R.COH_SF, R.COH_BUSY, B.coh, B.afrEng, B.die] at h
    split at h <;> omega
  case inl.inr.inr.inr.inl.inl | inl.inr.inr.inr.inl.inr =>
    simp only [errReg, errAddrReg, B.unit, B.stk, B.cap, B.afrEng, B.die] at h
    split at h <;> omega
  all_goals
    simp only [R.PLC_RMC_STAT, B.plcDie, R.PLC_REG_LVL, R.LIF_CNT, R.LIF_HIST, R.FLT_LOG_PTR, R.FLT_ERRCNT, R.PKG_EVQ_PTR,
      R.PKG_PMC_CTL, R.FLT_LOG, R.PMC_TEVT, R.PMC_HEVT, B.afrEng, B.til, B.hrd, B.die] at h
    omega

/-- Two packages that differ in partitions, in what memory accesses change, and in registers that P names. -/
def SameOffSlots (P : Nat → Prop) (s t : State) : Prop := SameUnitsBut P { s with parts := t.parts } t

theorem SameUnitsBut.offSlots (h : SameUnitsBut P s t) : SameOffSlots P s t := by
  have hp : t.parts = s.parts := by rw [h.1]
  rw [SameOffSlots, hp]
  exact h

theorem SameRest.withSlots (h : SameRest { s with parts := t.parts } t) (y : Map Part) :
    SameRest { s with parts := y } { t with parts := y } := by
  unfold SameRest
  exact congrArg (fun z : State => { z with parts := y }) h

theorem SameOffSlots.trans (h1 : SameOffSlots P s t) (h2 : SameOffSlots P t u) : SameOffSlots P s u :=
  ⟨(h1.1.withSlots u.parts).trans h2.1, fun k hk hp => (h2.2 k hk hp).trans (h1.2 k hk hp)⟩

/-- What the accesses of a collective that ends keep: a fair account, and the signals of every partition. -/
structure Ending (P : Nat → Prop) (s t : State) : Prop where
  frame : SameOffSlots P s t
  fair : s.acc.Fair → t.acc.Fair
  sigs : ∀ p, (t.part p).sigs = (s.part p).sigs

theorem Ending.refl (s : State) : Ending P s s := ⟨SameUnitsBut.refl s, id, fun _ => rfl⟩

theorem Ending.trans (h1 : Ending P s t) (h2 : Ending P t u) : Ending P s u :=
  ⟨h1.frame.trans h2.frame, fun h => h2.fair (h1.fair h), fun p => (h2.sigs p).trans (h1.sigs p)⟩

theorem SameUnits.ending (h : SameUnits s t) (hf : t.acc.Fair ↔ s.acc.Fair) : Ending P s t :=
  ⟨h.but.offSlots, hf.2, fun p => by rw [h.part]⟩

theorem ending_loadRec (r : Reach) (a : Ten) (b : Nat) (s : State) : Ending P s (s.loadRec r a b).2.2 := by
  have hload := (sameUnits_load r (a.recAddr b) 2).2 (.refl s)
  have hfair := fair_load (t := s) r (a.recAddr b) 2
  unfold State.loadRec
  split
  · exact .refl s
  · split <;> rename_i e <;> rw [e] at hload hfair <;> exact hload.ending hfair

theorem ending_modSlot (p k : Nat) (f : Slot → Slot) (s : State) : Ending P s (s.modSlot p k f) := by
  unfold State.modSlot
  split
  · refine ⟨SameUnitsBut.refl _, id, fun q => ?_⟩
    rcases eq_or_ne q p with rfl | h
    · rw [State.setSlot, State.part_setPart_self]
    · rw [State.setSlot, State.part_setPart_ne _ _ h]
  · exact .refl s

theorem ending_collBlocks (d : Nat) (c : Coll) (s : State) : Ending P s (s.collBlocks d c).2.2 := by
  have key (l : List Nat) (a : Nat × State) : Ending P a.2 (l.foldl (fun (a : Nat × State) b =>
      match a.2.loadRec (Reach.coll c.part d) c.dst b with
      | (some w, _, s1) => (a.1 + b2n (recStatus w == 2), s1)
      | (none, _, s1) => (a.1, s1)) a).2 := by
    induction l generalizing a with
    | nil => exact .refl a.2
    | cons b l ih =>
      have h := ending_loadRec (P := P) (Reach.coll c.part d) c.dst b a.2
      rw [List.foldl_cons]
      refine .trans ?_ (ih _)
      split <;> rename_i e <;> rw [e] at h <;> exact h
  exact key _ (0, s)

theorem ending_collCount (d : Nat) (c : Coll) (s : State) : Ending P s (s.collCount d c) := by
  unfold State.collCount
  repeat' split
  · exact .refl s
  · exact (ending_collBlocks d c s).trans (ending_modSlot ..)
  · exact .refl s
  · exact .refl s

/-- The entry of the group of a collective takes its status (R349). -/
def State.entryStatus (s : State) (d : Nat) (c : Coll) : State :=
  match s.loadWords (Reach.engine d) (s.groupAddr d c.group) 8 with
  | (some e, s1) =>
    if bit (e.getD 0 0) 63 then
      s1.storeWords (Reach.engine d) (s.groupAddr d c.group + 16) [setBits (e.getD 2 0) 56 8 c.status]
    else s1
  | (none, s1) => s1

theorem ending_entryStatus (d : Nat) (c : Coll) (s : State) : Ending P s (s.entryStatus d c) := by
  have hload := (sameUnits_loadWords (Reach.engine d) (s.groupAddr d c.group) 8).2 (.refl s)
  have hfair := fair_loadWords (t := s) (Reach.engine d) (s.groupAddr d c.group) 8
  unfold State.entryStatus
  split <;> rename_i s1 e <;> rw [e] at hload hfair
  · refine Ending.trans (hload.ending hfair) ?_
    split
    · exact SameUnits.ending ((sameUnits_storeWords ..).2 (.refl s1)) (fair_storeWords ..)
    · exact .refl s1
  · exact hload.ending hfair

/-- AFR_STAT takes the status of a collective (R355). -/
def State.statStatus (s : State) (d : Nat) (c : Coll) : State :=
  (s.fset (R.AFR_STAT d) F.AFR_STAT_LAST_STATUS c.status).when (c.status != 0) fun s => s.fadd (R.AFR_STAT d) F.AFR_STAT_COLL_FAILED 1

theorem ending_statStatus (d : Nat) (c : Coll) (s : State) : Ending (· = R.AFR_STAT d) s (s.statStatus d c) := by
  have hset (s : State) (f : Fld) (n : Nat) (hf : f.lo < 64) : Ending (· = R.AFR_STAT d) s (s.fset (R.AFR_STAT d) f n) :=
    ⟨(sameUnitsBut_fset (P := (· = R.AFR_STAT d)) s n rfl (afrStat_aligned d) hf).offSlots, id, fun _ => rfl⟩
  unfold State.statStatus
  cases c.status != 0
  · exact hset s _ _ (by decide)
  · exact (hset s _ _ (by decide)).trans (hset _ _ _ (by decide))

theorem fget_statStatus (d : Nat) (c : Coll) (s : State) :
    (s.statStatus d c).fget (R.AFR_STAT d) F.AFR_STAT_LAST_STATUS = c.status % 2 ^ F.AFR_STAT_LAST_STATUS.w
      ∧ (s.statStatus d c).fget (R.AFR_STAT d) F.AFR_STAT_COLL_FAILED = (if c.status = 0 then s.fget (R.AFR_STAT d) F.AFR_STAT_COLL_FAILED
          else min (s.fget (R.AFR_STAT d) F.AFR_STAT_COLL_FAILED + 1) (2 ^ F.AFR_STAT_COLL_FAILED.w - 1)) := by
  unfold State.statStatus
  by_cases h : c.status = 0
  · rw [h, if_pos rfl]
    exact ⟨State.fget_fset_self .., State.fget_fset_ne _ _ (regKey_ne_of_lo (by decide))⟩
  · have hb : (c.status != 0) = true := by simpa using h
    rw [hb, if_neg h]
    refine ⟨(fget_fadd_ne (regKey_ne_of_lo (by decide))).trans (State.fget_fset_self ..), (fget_fadd_self 1).trans ?_⟩
    rw [State.fget_fset_ne _ _ (regKey_ne_of_lo (by decide))]

/-- The semaphore of a collective that is no exchange is signalled (R349). -/
def State.collSignal (s : State) (c : Coll) : State :=
  if c.op = 3 then s else s.setPart c.part { s.part c.part with sigs := (s.part c.part).sigs ++ [{ sem := c.sem, n := 1, origin := .coll }] }

theorem collRecord_eq (s : State) (d : Nat) (c : Coll) : s.collRecord d c = ((s.entryStatus d c).statStatus d c).collSignal c := rfl

theorem sigs_collSignal (s : State) (c : Coll) :
    ((s.collSignal c).part c.part).sigs =
      (s.part c.part).sigs ++ (if c.op = 3 then [] else [{ sem := c.sem, n := 1, origin := .coll }]) := by
  unfold State.collSignal
  split
  · rw [List.append_nil]
  · rw [State.part_setPart_self]

theorem collSignal_eq (s : State) (c : Coll) : s.collSignal c = { s with parts := (s.collSignal c).parts } := by
  unfold State.collSignal
  split <;> rfl

theorem sameOffSlots_collSignal (s : State) (c : Coll) : SameOffSlots P s (s.collSignal c) := by
  rw [SameOffSlots, ← collSignal_eq]
  exact .refl _

/-- What the end of a collective leaves before its queue: its blocks counted, its status recorded and its semaphore signalled. -/
def State.collEnded (s : State) (d : Nat) (c : Coll) : State := (s.collCount d c).collRecord d c

theorem ending_toStat (d : Nat) (c : Coll) (s : State) :
    Ending (· = R.AFR_STAT d) s (((s.collCount d c).entryStatus d c).statStatus d c) :=
  (ending_collCount d c s).trans ((ending_entryStatus d c _).trans (ending_statStatus d c _))

theorem sameOffSlots_collEnded (s : State) (d : Nat) (c : Coll) : SameOffSlots (· = R.AFR_STAT d) s (s.collEnded d c) := by
  rw [State.collEnded, collRecord_eq]
  exact (ending_toStat d c s).frame.trans (sameOffSlots_collSignal ..)

theorem fair_collEnded (d : Nat) (c : Coll) (h : s.acc.Fair) : (s.collEnded d c).acc.Fair := by
  rw [State.collEnded, collRecord_eq, collSignal_eq]
  exact (ending_toStat d c s).fair h

theorem sigs_collEnded (s : State) (d : Nat) (c : Coll) :
    ((s.collEnded d c).part c.part).sigs =
      (s.part c.part).sigs ++ (if c.op = 3 then [] else [{ sem := c.sem, n := 1, origin := .coll }]) := by
  rw [State.collEnded, collRecord_eq, sigs_collSignal, (ending_toStat d c s).sigs]

theorem fget_collEnded (s : State) (d : Nat) (c : Coll) :
    (s.collEnded d c).fget (R.AFR_STAT d) F.AFR_STAT_LAST_STATUS = c.status % 2 ^ F.AFR_STAT_LAST_STATUS.w
      ∧ (s.collEnded d c).fget (R.AFR_STAT d) F.AFR_STAT_COLL_FAILED = (if c.status = 0 then s.fget (R.AFR_STAT d) F.AFR_STAT_COLL_FAILED
          else min (s.fget (R.AFR_STAT d) F.AFR_STAT_COLL_FAILED + 1) (2 ^ F.AFR_STAT_COLL_FAILED.w - 1)) := by
  obtain ⟨_, hregs⟩ := ((ending_collCount (P := fun _ => False) d c s).trans (ending_entryStatus d c _)).frame
  have hbase : ((s.collCount d c).entryStatus d c).fget (R.AFR_STAT d) F.AFR_STAT_COLL_FAILED =
      s.fget (R.AFR_STAT d) F.AFR_STAT_COLL_FAILED := by
    have hkey : keyReg (regKey (R.AFR_STAT d) F.AFR_STAT_COLL_FAILED) = R.AFR_STAT d := keyReg_regKey (afrStat_aligned d) (by decide)
    have hfind := hregs (regKey (R.AFR_STAT d) F.AFR_STAT_COLL_FAILED) (by rw [hkey]; exact not_unitReg_afrEng d (by decide)) id
    simp only [State.fget, Map.get, hfind]
  have hsig (w : State) (f : Fld) : (w.collSignal c).fget (R.AFR_STAT d) f = w.fget (R.AFR_STAT d) f := by
    rw [collSignal_eq]
    rfl
  rw [State.collEnded, collRecord_eq, hsig, hsig, ← hbase]
  exact fget_statStatus d c _

/-- The queue of an engine and the work of a unit change beside what a collective keeps. -/
theorem SameOffSlots.leave (h : SameOffSlots P s t) (m : Map (List Coll)) (n : Nat) :
    SameUnitsBut P { s with parts := t.parts, colls := m, came := s.came.erase n, tickets := s.tickets.erase n }
      ({ t with colls := m }.workEnds n) := by
  obtain ⟨hrest, hregs⟩ := h
  refine ⟨?_, hregs⟩
  unfold SameRest at *
  rw [hrest]
  rfl

/-- The package when a collective has left its engine, and its tokens have been charged. -/
theorem collLeaves_spec {n : Nat} {ok : State → Bool} (s : State) (d : Nat) (x : Coll) :
    ∃ u, s.workDone n ok (fun s => s.collLeaves d x) = u
      ∧ Map.get [] u.colls d = dropFirst x.group (Map.get [] s.colls d)
      ∧ u.fget (R.AFR_STAT d) F.AFR_STAT_LAST_STATUS = x.status % 2 ^ F.AFR_STAT_LAST_STATUS.w
      ∧ u.fget (R.AFR_STAT d) F.AFR_STAT_COLL_FAILED = (if x.status = 0 then s.fget (R.AFR_STAT d) F.AFR_STAT_COLL_FAILED
          else min (s.fget (R.AFR_STAT d) F.AFR_STAT_COLL_FAILED + 1) (2 ^ F.AFR_STAT_COLL_FAILED.w - 1))
      ∧ (u.part x.part).sigs = (s.part x.part).sigs ++ (if x.op = 3 then [] else [{ sem := x.sem, n := 1, origin := .coll }])
      ∧ SameUnitsBut (· = R.AFR_STAT d) { s with parts := u.parts, colls := u.colls, came := u.came, tickets := u.tickets } u := by
  generalize hw : s.workTry n id = w
  have hws : SameUnits s w := hw ▸ sameUnits_workTry_id s n
  have hfair : w.acc.Fair := hw ▸ fair_workTry_id s n
  have htry : s.workTry n (fun s => s.collLeaves d x) =
      { w.collEnded d x with colls := Map.put [] (w.collEnded d x).colls d (dropFirst x.group (Map.get [] (w.collEnded d x).colls d)) } := by
    rw [workTry_eq, hw]
    rfl
  have hdone := sameUnits_workDone (s := s) (u := n) (ok := ok) (f := fun s => s.collLeaves d x)
    (by rw [htry]; exact fair_collEnded d x hfair)
  obtain ⟨hlast, hfailed⟩ := fget_collEnded w d x
  have hsigs := sigs_collEnded w d x
  have hframe := sameOffSlots_collEnded w d x
  rw [htry] at hdone
  generalize w.collEnded d x = v at *
  generalize s.workDone n ok (fun s => s.collLeaves d x) = u at hdone
  have hsv : SameOffSlots (· = R.AFR_STAT d) s v := hws.but.offSlots.trans hframe
  have hcolls : v.colls = s.colls := by rw [hsv.1]
  rw [hcolls] at hdone
  have hucolls : u.colls = Map.put [] s.colls d (dropFirst x.group (Map.get [] s.colls d)) := by rw [hdone.1]; rfl
  have huparts : u.parts = v.parts := by rw [hdone.1]; rfl
  have hucame : u.came = s.came.erase n := by rw [hdone.1, State.workEnds, hsv.1]
  have hutick : u.tickets = s.tickets.erase n := by rw [hdone.1, State.workEnds, hsv.1]
  have hfget (f : Fld) (hf : f.lo < 64) : u.fget (R.AFR_STAT d) f = v.fget (R.AFR_STAT d) f :=
    hdone.fget (afrStat_aligned d) hf (not_unitReg_afrEng d (by decide))
  have hbase : w.fget (R.AFR_STAT d) F.AFR_STAT_COLL_FAILED = s.fget (R.AFR_STAT d) F.AFR_STAT_COLL_FAILED :=
    hws.fget (afrStat_aligned d) (by decide) (not_unitReg_afrEng d (by decide))
  refine ⟨u, rfl, by rw [hucolls, Map.get_put_self], (hfget _ (by decide)).trans hlast, ?_, ?_, ?_⟩
  · rw [hfget _ (by decide), hfailed, hbase]
  · have hpart : u.part x.part = v.part x.part := by rw [State.part, huparts, State.part]
    rw [hpart, hsigs, hws.part]
  · rw [huparts, hucolls, hucame, hutick]
    exact (hsv.leave _ n).trans hdone.but

theorem exec_collectiveEnd {g : Nat} (hw : instrWf (.collectiveEnd d g) = true) (hc : s.collHead d g = some x) (ho : x.over = true)
    (hm : s.regPast x.marks = true) (ha : s.unitAsks (collUnit d g) = false)
    (hgo : s.workGoes (collUnit d g) (fun _ => true) (fun s => s.collLeaves d x) = true) :
    exec (.collectiveEnd d g) s =
      .next (((s.workDone (collUnit d g) (fun _ => true) fun s => s.collLeaves d x).collOutcome x).collGo) := by
  have hends : (!x.over || !s.regPast x.marks || s.unitAsks (collUnit d g)) = false := by simp [ho, hm, ha]
  refine (State.runIf_true s hw _).trans (congrArg Host.Outcome.next ?_)
  rw [hc]
  dsimp only
  rw [hends, if_neg Bool.false_ne_true, if_pos hgo, State.work, workIf_goes hgo]

end Leave

theorem exec_collData {g d : Nat} {m : AfrMsg} {q : CollPart} (hw : instrWf (.collData g m q) = true) (hd : d = s.collDie g m)
    (hgo : s.workGoes (portUnit g) (fun _ => true) (fun s => s.collDataIn d g m q) = true) :
    exec (.collData g m q) s = .next (s.workDone (portUnit g) (fun _ => true) fun s => s.collDataIn d g m q).collGo := by
  subst hd
  rw [← workIf_goes hgo]
  exact State.runIf_true s hw _

theorem exec_collNack {g : Nat} {m : AfrMsg} (hw : instrWf (.collNack g m) = true) (ht : m.typ = 0x21) (hup : s.portUp g = true)
    (hok : msgOk m = true) (hm : s.mine m = true) :
    exec (.collNack g m) s = .next (if !(s.takeRx g m).roleOk m then (s.takeRx g m).staleDrop g m
      else (s.takeRx g m).collFail ((s.takeRx g m).collDie g m) (bits m.arg 44 12) (m.arg % 256)) :=
  (State.runIf_true s hw _).trans (congrArg Host.Outcome.next (receive_mine ht hup hok hm))

theorem exec_collTimeout {d g : Nat} {x : Coll} (hw : instrWf (.collTimeout d g) = true) (hc : s.collRuns d g = some x)
    (hx : s.fget (R.AFR_CTL d) F.AFR_CTL_COLL_TICKS ≤ x.waited) : exec (.collTimeout d g) s = .next (s.collFail d g 6) := by
  refine (State.runIf_true s hw _).trans (congrArg Host.Outcome.next ?_)
  rw [hc]
  exact if_pos hx

/-- Settles O36: a collective that is taken stands last in its queue, its checks and chain messages give it the statuses and parts that
they name, and one that ends leaves its queue with its status recorded and its semaphore signalled. -/
theorem collectives : Obligations.Collectives := by
  refine ⟨?_, ?_, ?_, ?_, ?_, ?_, ?_, ?_⟩
  · intro s t idx op o r sl c hw hc hroom hpin hi hsl hbad
    refine ⟨_, _, (exec_col hw hc).trans (congrArg Host.Outcome.next (colIssue_taken hroom hpin hi hsl hbad)), Map.get_put_self ..,
      rfl, rfl, rfl, rfl, ctx_issue .., rfl, rfl, ?_, ?_, rfl, rfl, rfl, rfl, rfl, rfl, rfl⟩
    · rw [State.collOf, img_issue]
    · rw [State.collOf, img_issue]
  · intro s t idx op o c hw hc h
    exact (exec_col hw hc).trans (congrArg Host.Outcome.next (colIssue_stalls h))
  · intro s d c e h3
    refine ⟨fun hf => collCheck_form h3 hf, fun hf he => ?_, fun l hf he hv => ?_, fun l hf he hv hp => ?_⟩ <;> subst he
    · exact collCheck_unread hf
    · exact collCheck_undefined hf hv
    · exact collCheck_foreign hf hv hp
  · intro s g d m q hw ht hup hok hm hd hgo
    refine ⟨exec_collData hw hd hgo, fun hrole e s1 hl => ?_, fun hrole => ?_⟩
    · exact collDataIn_fresh (s := s.workTry (portUnit g) id) ht hup hok hm hrole hl
    · exact collDataIn_stale (s := s.workTry (portUnit g) id) ht hup hok hm hrole
  · intro s g m x hw ht hup hok hm hrole hc ho
    have hexec := exec_collNack hw ht hup hok hm
    rw [roleOk_takeRx, hrole] at hexec
    refine ⟨_, hexec, collHead_collFail ?_ ho, rfl⟩
    rw [takeRx_eq] at hc ⊢
    exact hc
  · intro s g m hw ht hup hok hm hrole
    have hexec := exec_collNack hw ht hup hok hm
    rw [roleOk_takeRx, hrole] at hexec
    exact hexec.trans (congrArg Host.Outcome.next (staleDrop_chain _ g (vc_of_msgOk hok (.inr ht))))
  · intro s d g x hw hc hx
    obtain ⟨hhead, ho⟩ := collHead_of_collRuns hc
    exact ⟨_, exec_collTimeout hw hc hx, collHead_collFail hhead ho, rfl⟩
  · intro s d g x hw hc ho hm ha hgo
    have hexec := exec_collectiveEnd hw hc ho hm ha hgo
    obtain ⟨u, hu, hcolls, hlast, hfailed, hsigs, hframe⟩ := collLeaves_spec (n := collUnit d g) (ok := fun _ => true) s d x
    rw [hu] at hexec
    rw [group_of_collHead hc] at hcolls
    exact ⟨u, hexec, hcolls, hlast, hfailed, hsigs, hframe⟩

end Sys2Proof.Machine
end

section
/-!
The registers of a context (O23): a write of a per-context register reaches the context of the selected slot, and changes that context alone
(R220, R245, R258, R391, R422).
-/

set_option Elab.async false

namespace Sys2Proof.Machine

variable {s : State} {a : Agent} {p k : Nat} {x y : Slot}

/-! ### The context in a slot -/

theorem modSlot_of_slot (h : s.slot? p k = some x) (f : Slot → Slot) : s.modSlot p k f = s.setSlot p k (f x) := by
  rw [State.modSlot, h]

theorem onlySlot_setSlot (s : State) (p k : Nat) (y : Slot) : OnlySlot s (s.setSlot p k y) p k := by
  refine ⟨rfl, fun q hq => State.part_setPart_ne _ _ hq, ?_, fun j hj => State.slot?_setSlot_ne s y fun h => hj h.2⟩
  rw [State.setSlot, State.part_setPart_self]

/-- A write of a per-context register that changes the context of the selected slot is served, and changes nothing else (R391). -/
theorem exec_writeCtx {c : Instr} {off : Nat} {f : Nat → State → State} (hw : instrWf c = true)
    (hx : exec c s = s.runIf (instrWf c) (s.writeCtx a p off f)) (he : s.entry a .sch p (B.sch p + off) true = .reach)
    (hk : s.selSlot a p = some k) (hf : f k (s.answer .ok 0) = (s.answer .ok 0).setSlot p k y) :
    ∃ u, exec c s = .next u ∧ Served u 0 ∧ u.slot? p k = some y ∧ OnlySlot { s with rsp := u.rsp } u p k :=
  ⟨_, hx.trans ((State.runIf_true s hw _).trans (congrArg Host.Outcome.next ((State.writeCtx_reach f he hk).trans hf))), rfl,
    State.slot?_setSlot_self .., onlySlot_setSlot ..⟩

theorem modSlot_answer (h : s.slot? p k = some x) (f : Slot → Slot) :
    (s.answer .ok 0).modSlot p k f = (s.answer .ok 0).setSlot p k (f x) := modSlot_of_slot (s := s.answer .ok 0) h f

/-! ### Pins (R245) -/

theorem pinFld_width (g : Nat) : (pinFld g).w = 8 := by
  unfold pinFld
  split <;> rfl

theorem pin_eq (x : Slot) (g : Nat) : x.pin g = { x with regs := (x.pin g).regs } := by
  unfold Slot.pin
  dsimp only
  split <;> rfl

theorem fget_pin_of_taken {g : Nat} (h : g = x.gen ∧ x.fget R.SCH_VER (pinFld g) < 255) :
    (x.pin g).fget R.SCH_VER (pinFld g) = x.fget R.SCH_VER (pinFld g) + 1 := by
  rw [Slot.pin, if_pos h, Slot.fget_fset_self, pinFld_width]
  omega

theorem fget_pin_of_refused {g : Nat} (h : g ≠ x.gen ∨ 255 ≤ x.fget R.SCH_VER (pinFld g)) :
    (x.pin g).fget R.SCH_VER F.SCH_VER_PIN_REFUSED = 1 := by
  rw [Slot.pin, if_neg (by omega), Slot.fget_fset_self]
  rfl

theorem unpin_eq (x : Slot) (g : Nat) : x.unpin g = { x with regs := (x.unpin g).regs } := by
  unfold Slot.unpin
  dsimp only
  split <;> rfl

theorem fget_unpin_of_held {g : Nat} (hn : x.fget R.SCH_VER (pinFld g) < 256) (h : x.fget R.SCH_VER (pinFld g) ≠ 0) :
    (x.unpin g).fget R.SCH_VER (pinFld g) = x.fget R.SCH_VER (pinFld g) - 1 := by
  rw [Slot.unpin, if_neg h, Slot.fget_fset_self, pinFld_width]
  omega

theorem fget_unpin_of_none {g : Nat} (h : x.fget R.SCH_VER (pinFld g) = 0) :
    (x.unpin g).fget R.SCH_VER F.SCH_VER_PIN_REFUSED = 1 := by
  rw [Slot.unpin, if_pos h, Slot.fget_fset_self]
  rfl

/-! ### Step sizes (R257, R258) -/

/-- Step-size group n as a write leaves it. -/
def Slot.lrWritten (x : Slot) (c : Clock) (n v : Nat) : Slot :=
  ((((x.lrKeep c n).fset (R.SCH_LR n) F.SCH_LR_VALUE (bits v 0 32)).fset (R.SCH_LR n) F.SCH_LR_EN (bits v 63 1)).fset (R.SCH_LR n)
    F.SCH_LR_HOLD (bits v 62 1)).fset (R.SCH_LR n) F.SCH_LR_WRITTEN 1

theorem lrWriteEffect_of_ok {n v : Nat} (h : s.slot? p k = some x) (hv : bits v 0 32 < 0x7F800000) :
    lrWriteEffect a p n v k (s.answer .ok 0) = (s.answer .ok 0).setSlot p k (x.lrWritten s.clk n v) := by
  have hs : (s.answer .ok 0).slot? p k = some x := h
  have hok : lrOk (bits v 0 32) = true := decide_eq_true hv
  rw [lrWriteEffect, hs]
  dsimp only
  rw [hok, if_neg (by simp)]
  rfl

theorem lrKeep_eq (x : Slot) (c : Clock) (n : Nat) :
    x.lrKeep c n = { x with lrCycle := (x.lrKeep c n).lrCycle, lrAt := (x.lrKeep c n).lrAt } := by
  unfold Slot.lrKeep
  split <;> rfl

theorem lrWritten_eq (x : Slot) (c : Clock) (n v : Nat) :
    x.lrWritten c n v =
      { x with regs := (x.lrWritten c n v).regs, lrCycle := (x.lrWritten c n v).lrCycle, lrAt := (x.lrWritten c n v).lrAt } := by
  unfold Slot.lrWritten
  rw [lrKeep_eq]
  rfl

theorem fget_lrWritten (x : Slot) (c : Clock) (n v : Nat) :
    (x.lrWritten c n v).fget (R.SCH_LR n) F.SCH_LR_VALUE = bits v 0 32
      ∧ (x.lrWritten c n v).fget (R.SCH_LR n) F.SCH_LR_WRITTEN = 1
      ∧ (x.lrWritten c n v).fget (R.SCH_LR n) F.SCH_LR_EN = bits v 63 1
      ∧ (x.lrWritten c n v).fget (R.SCH_LR n) F.SCH_LR_HOLD = bits v 62 1 := by
  unfold Slot.lrWritten
  refine ⟨?_, Slot.fget_fset_self .., ?_, ?_⟩
  · rw [Slot.fget_fset_ne _ _ (regKey_ne_of_lo (by decide)), Slot.fget_fset_ne _ _ (regKey_ne_of_lo (by decide)),
      Slot.fget_fset_ne _ _ (regKey_ne_of_lo (by decide)), Slot.fget_fset_self]
    exact bits_mod_width ..
  · rw [Slot.fget_fset_ne _ _ (regKey_ne_of_lo (by decide)), Slot.fget_fset_ne _ _ (regKey_ne_of_lo (by decide)), Slot.fget_fset_self]
    exact bits_mod_width ..
  · rw [Slot.fget_fset_ne _ _ (regKey_ne_of_lo (by decide)), Slot.fget_fset_self]
    exact bits_mod_width ..

/-! ### Resumption and regroup (R220, R422) -/

/-- A context whose job is no longer held. -/
def Slot.unheld (x : Slot) : Slot :=
  { (x.fset R.SCH_NUM_STAT F.SCH_NUM_STAT_SKIP_RUN 0).fset R.SCH_PIPE_STAT F.SCH_PIPE_STAT_HELD 0 with skipHeld := false }

theorem fget_unheld (x : Slot) :
    x.unheld.fget R.SCH_NUM_STAT F.SCH_NUM_STAT_SKIP_RUN = 0 ∧ x.unheld.fget R.SCH_PIPE_STAT F.SCH_PIPE_STAT_HELD = 0 :=
  have hheld : regKey R.SCH_NUM_STAT F.SCH_NUM_STAT_SKIP_RUN ≠ regKey R.SCH_PIPE_STAT F.SCH_PIPE_STAT_HELD := by decide
  ⟨(Slot.fget_fset_ne _ 0 hheld).trans (Slot.fget_fset_self ..),
    Slot.fget_fset_self (x.fset R.SCH_NUM_STAT F.SCH_NUM_STAT_SKIP_RUN 0) _ _ 0⟩

theorem exec_regroupExpiry (hp : p < 8) (hk : k < 4) (hs : s.slot? p k = some x) (hx : x.regroupOut s.clk.tb = true) :
    exec (.regroupExpiry p k) s = .next ((s.setSlot p k (x.fset R.SCH_REGROUP F.SCH_REGROUP_EXPIRED 1)).event (B.sch p + R.SCH_REGROUP)
      (some F.SCH_REGROUP_EXPIRED) []) := by
  have hw : instrWf (.regroupExpiry p k) = true := by simp [instrWf, hp, hk]
  refine (State.runIf_true s hw _).trans (congrArg Host.Outcome.next ?_)
  rw [hs]
  exact if_pos hx

/-- Settles O23: each write reaches the context of the selected slot and leaves of it what its lemma says; REGROUP_EXPIRY marks the
context and raises its event. -/
theorem contextRegisters : Obligations.ContextRegisters := by
  refine ⟨fun s a p k x hw he hk hs => ?_, fun s a p k x g hw he hk hs => ?_, fun s a p k x g hw he hk hs hn => ?_,
    fun s a p k x n v hw he hk hs hv => ?_, fun s a p k x hw he hk hs ha => ?_, fun s p k x hp hk hs hx => ?_⟩
  · obtain ⟨u, hu, hserved, hslot, honly⟩ := exec_writeCtx hw rfl he hk (modSlot_answer hs Slot.unheld)
    exact ⟨u, _, hu, hserved, hslot, (fget_unheld x).1, (fget_unheld x).2, honly, rfl⟩
  · obtain ⟨u, hu, hserved, hslot, honly⟩ := exec_writeCtx hw rfl he hk (modSlot_answer hs fun x => x.pin g)
    exact ⟨u, _, hu, hserved, hslot, fget_pin_of_taken, fget_pin_of_refused, honly, pin_eq x g⟩
  · obtain ⟨u, hu, hserved, hslot, honly⟩ := exec_writeCtx hw rfl he hk (modSlot_answer hs fun x => x.unpin g)
    exact ⟨u, _, hu, hserved, hslot, fget_unpin_of_held hn, fget_unpin_of_none, honly, unpin_eq x g⟩
  · obtain ⟨u, hu, hserved, hslot, honly⟩ := exec_writeCtx hw rfl he hk (lrWriteEffect_of_ok hs hv)
    obtain ⟨hvalue, hwritten, hen, hhold⟩ := fget_lrWritten x s.clk n v
    exact ⟨u, _, hu, hserved, hslot, hvalue, hwritten, hen, hhold, honly, lrWritten_eq x s.clk n v⟩
  · have hrejoin := modSlot_answer hs fun x => if x.fget R.SCH_REGROUP F.SCH_REGROUP_ACTIVE = 1 then { x with rejoin := true } else x
    rw [if_pos ha] at hrejoin
    obtain ⟨u, hu, hserved, hslot, honly⟩ := exec_writeCtx hw rfl he hk hrejoin
    exact ⟨u, hu, hserved, hslot, honly⟩
  · exact ⟨_, exec_regroupExpiry hp hk hs hx, State.slot?_setSlot_self .., onlySlot_setSlot ..⟩

end Sys2Proof.Machine
end

section
/-!
What messages to other packages leave alone: ports, queue pairs and what waits for them apart, the package is as it was (R332 to R343,
R346 to R348, R359).
-/

set_option Elab.async false

namespace Sys2Proof.Machine

variable {s t : State}

/-- The package without what leaves it and what waits to leave it, the counts of what has left, and the migrations. -/
def State.inner (s : State) : State :=
  { s with ports := [], bw := [], hltEv := [], trunkRr := [], holds := [], rwait := [], rreqs := [], migs := [], qps := [], stotSeen := [],
           ethStot := [] }

@[simp] theorem inner_setPort (g : Nat) (x : Port) (s : State) : (s.setPort g x).inner = s.inner := rfl
@[simp] theorem inner_bwAdd (b d n : Nat) (s : State) : (s.bwAdd b d n).inner = s.inner := rfl
@[simp] theorem inner_health (i n : Nat) (s : State) : (s.health i n).inner = s.inner := rfl
@[simp] theorem inner_setQp (e q : Nat) (x : Qp) (s : State) : (s.setQp e q x).inner = s.inner := rfl

theorem inner_when {b : Bool} {f : State → State} (hf : ∀ s, (f s).inner = s.inner) (s : State) : (s.when b f).inner = s.inner :=
  when_keeps (v := State.inner) hf s

@[simp] theorem inner_pump (g n : Nat) (s : State) : (State.pump g n s).inner = s.inner := by
  induction n generalizing s with
  | zero => rfl
  | succ n ih =>
    simp only [State.pump]
    split
    · exact inner_setPort ..
    · split
      · simp [ih]
      · rfl

@[simp] theorem inner_sendOn (g : Nat) (m : AfrMsg) (s : State) : (s.sendOn g m).inner = s.inner := inner_when (by simp) s

@[simp] theorem inner_ucieBytes (l m a b n : Nat) (s : State) : (s.ucieBytes l m a b n).inner = s.inner :=
  (inner_when (fun s => inner_bwAdd _ _ _ s) _).trans (inner_when (fun s => inner_bwAdd _ _ _ s) s)

@[simp] theorem inner_carry (a b line n : Nat) (s : State) : (s.carry a b line n).inner = s.inner := by
  unfold State.carry
  repeat' split
  · rfl
  · exact (inner_ucieBytes ..).trans (inner_when (fun s => inner_health _ _ s) s)
  · rfl

theorem inner_outPort (e : Nat) (m : AfrMsg) (l : Nat) (s : State) : (s.outPort e m l).2.inner = s.inner := by
  unfold State.outPort
  dsimp only
  repeat' split
  all_goals rfl

@[simp] theorem inner_sendVia (d : Nat) (m : AfrMsg) (l : Nat) (s : State) : (s.sendVia d m l).2.inner = s.inner := by
  unfold State.sendVia
  split
  · rfl
  · rename_i e _
    split
    · rfl
    · have hport := inner_outPort e m l s
      split <;> rename_i h <;> rw [h] at hport
      · simpa using hport
      · exact hport

theorem inner_nextReq (s : State) : s.nextReq.inner = s.inner := by
  unfold State.nextReq State.sendReq
  split
  · exact (inner_sendVia ..).trans rfl
  · rfl

/-- What work that cannot go on has asked for leaves the package otherwise as it was. -/
theorem inner_haltAt (n : Nat) (h : Halt) (s : State) : (s.haltAt n h).inner = s.inner := by
  cases h with
  | slot => rfl
  | final line => rfl
  | ask die q =>
    unfold State.haltAt
    dsimp only
    split
    · rfl
    · exact (forRange_keeps (v := State.inner) (fun _ s => inner_nextReq s) _ _).trans rfl

theorem inner_qpDrain (e q n : Nat) (s : State) : (State.qpDrain e q n s).inner = s.inner := by
  induction n generalizing s with
  | zero => rfl
  | succ n ih =>
    simp only [State.qpDrain]
    repeat' split
    · rfl
    · simp [ih, State.qpOut]
    · rfl

theorem inner_ethSend (d n : Nat) (l : List Nat) (s : State) : (s.ethSend d n l).inner = s.inner :=
  (inner_qpDrain ..).trans (inner_setQp ..)

theorem inner_stotEthernet (slot : Nat) (s : State) : (s.stotEthernet slot).inner = s.inner := by
  unfold State.stotEthernet
  extract_lets ps one die s1
  have hone (d : Nat) (s : State) (m : Nat) : (one d s m).inner = s.inner := by
    simp only [one]
    split
    · exact inner_ethSend ..
    · rfl
  have hdie (s : State) (d : Nat) : (die s d).inner = s.inner :=
    foldl_keeps (v := State.inner) (fun s e => foldl_keeps (v := State.inner) (hone d) _ s) _ s
  split
  · rfl
  · exact (hdie ..).trans ((hdie ..).trans rfl)

/-- A STOT that is sent leaves the package otherwise as it was. -/
theorem inner_stotOriginate (kind job lost : Nat) (s : State) : (s.stotOriginate kind job lost).inner = s.inner := by
  have hflood (m : AfrMsg) (s : State) : (s.flood none m).inner = s.inner := by
    refine forRange_keeps (v := State.inner) (fun g s => ?_) 36 s
    rw [if_neg (Option.some_ne_none g).symm]
    exact inner_sendOn g m s
  unfold State.stotOriginate State.stotRecord State.stotNote
  rw [inner_stotEthernet, hflood]
  rfl

theorem fields_of_inner (h : t.inner = s.inner) :
    t.parts = s.parts ∧ t.mem = s.mem ∧ t.regs = s.regs ∧ t.tiles = s.tiles ∧ t.clk = s.clk := by
  refine ⟨?_, ?_, ?_, ?_, ?_⟩
  · exact (congrArg State.parts h : t.inner.parts = s.inner.parts)
  · exact (congrArg State.mem h : t.inner.mem = s.inner.mem)
  · exact (congrArg State.regs h : t.inner.regs = s.inner.regs)
  · exact (congrArg State.tiles h : t.inner.tiles = s.inner.tiles)
  · exact (congrArg State.clk h : t.inner.clk = s.inner.clk)

theorem slot?_of_parts (h : t.parts = s.parts) (p k : Nat) : t.slot? p k = s.slot? p k := by
  rw [State.slot?, State.slot?, State.part, State.part, h]

end Sys2Proof.Machine
end

section
/-!
The commit exchange and the decision (O22): what a step brings to its exchange and what it takes from it (R218, R247, R248, R250, R356), and
what a flip, or a skip by vote, leaves of the context (R219, R249).
-/

set_option Elab.async false

namespace Sys2Proof.Machine

variable {s t v : State} {p k : Nat} {x y : Slot}

theorem slotWf {p k : Nat} (hp : p < 8) (hk : k < 4) : (decide (p < 8) && decide (k < 4)) = true := by simp [hp, hk]

/-! ### The exchange is issued (R218, R247, R356) -/

/-- The step has come to the issue of its exchange (R47, R247). -/
def State.exchangeDue (s : State) (p : Nat) (x : Slot) : Bool :=
  x.step.live && x.step.abort.isNone && x.step.issued.isNone && x.stepOver && s.statsIn p x && !s.fenced 5 0

theorem exec_stepComplete (hp : p < 8) (hk : k < 4) (hs : s.slot? p k = some x) :
    exec (.stepComplete p k) s = .next (
      if s.exchangeDue p x then
        if !x.exchanges then
          s.setSlot p k { x with step := { x.step with issued := some s.tick, result := some (x.localRes s.tick) } }
        else if s.collRoom (s.xchgDie p) p then
          (s.setSlot p k { x with step := { x.step with issued := some s.tick } }).xchgIssue p x
        else s
      else s) := by
  refine (State.runIf_true s (slotWf hp hk) _).trans (congrArg Host.Outcome.next ?_)
  rw [hs]
  rfl

theorem exchangeDue_of_over (hlive : x.step.live = true) (habort : x.step.abort = none) (hissued : x.step.issued = none)
    (hover : x.stepOver = true) (hstats : s.statsIn p x = true) (hfence : s.fenced 5 0 = false) : s.exchangeDue p x = true := by
  simp [State.exchangeDue, *]

/-- A fence of the step scheduler holds the exchange (R47). -/
theorem stepComplete_fenced (hp : p < 8) (hk : k < 4) (hfence : s.fenced 5 0 = true) : exec (.stepComplete p k) s = .next s := by
  cases hs : s.slot? p k with
  | none =>
    refine (State.runIf_true s (slotWf hp hk) _).trans (congrArg Host.Outcome.next ?_)
    rw [hs]
  | some x =>
    have hdue : s.exchangeDue p x = false := by simp [State.exchangeDue, hfence]
    rw [exec_stepComplete hp hk hs, hdue, if_neg Bool.false_ne_true]

/-- The exchange carries three counts, and 33 words for each enabled gradient-format slot (R356). -/
theorem length_xchgWords (x : Slot) (now : Nat) : (x.xchgWords now).length = 3 + 33 * x.pgSlots.length := by
  have hrow (l : List Nat) (f : Nat → List Nat) (hf : ∀ n, (f n).length = 33) : (l.flatMap f).length = 33 * l.length := by
    induction l with
    | nil => rfl
    | cons n l ih => rw [List.flatMap_cons, List.length_append, hf, ih, List.length_cons]; omega
  unfold Slot.xchgWords
  rw [List.length_append, hrow]
  · rfl
  · intro n
    split <;> simp

/-! ### The words of the exchange (R356) -/

theorem toInt_word (n : Nat) : toInt 64 n =
    if n % 18446744073709551616 < 9223372036854775808 then ((n % 18446744073709551616 : Nat) : Int)
    else ((n % 18446744073709551616 : Nat) : Int) - ((18446744073709551616 : Nat) : Int) := rfl

theorem toInt_ofInt {z : Int} (hlo : -9223372036854775808 ≤ z) (hhi : z < 9223372036854775808) : toInt 64 (ofInt 64 z) = z := by
  have hn : ((ofInt 64 z : Nat) : Int) = z % 18446744073709551616 := Int.toNat_of_nonneg (Int.emod_nonneg _ (by decide))
  rw [toInt_word]
  split <;> omega

theorem toInt_bounds (n : Nat) : -9223372036854775808 ≤ toInt 64 n ∧ toInt 64 n < 9223372036854775808 := by
  rw [toInt_word]
  split <;> omega

/-- I and MAXEXP are reduced to the largest. -/
theorem toInt_xchgFold {i a b : Nat} (h : xchgMax i = true) : toInt 64 (xchgFold i a b) = max (toInt 64 a) (toInt 64 b) := by
  obtain ⟨hla, hha⟩ := toInt_bounds a
  obtain ⟨hlb, hhb⟩ := toInt_bounds b
  rw [xchgFold, if_pos h]
  exact toInt_ofInt (le_max_of_le_left hla) (max_lt hha hhb)

theorem xchgFold_sum {i a b : Nat} (h : xchgMax i = false) : xchgFold i a b = (a + b) % 2 ^ 64 := by
  rw [xchgFold, h, if_neg Bool.false_ne_true]

/-! ### The result of the exchange (R248, R250, R356) -/

/-- An exchange that has ended gives its step what it has come to. -/
theorem collOutcome_exchange {c : Coll} {e : Ctx} (hop : c.op = 3) (hstatus : c.status = 0) (he : v.ctxs.find? c.ctx = some e)
    (hk : e.slot = some k) (hy : v.slot? e.part k = some y) (hissued : y.step.issued ≠ none) :
    (v.collOutcome c).slot? e.part k = some { y with step := { y.step with xres := some (xchgRes 0 c.pg c.words) } } := by
  have hnot : ¬ (c.status = 7 ∨ y.step.issued.isNone = true) := by simp [hstatus, hissued]
  have hend : v.collOutcome c = v.xchgEnd c := if_pos hop
  rw [hend, State.xchgEnd, he]
  dsimp only
  rw [hk]
  dsimp only
  rw [modSlot_of_slot hy, State.slot?_setSlot_self, if_neg hnot, hstatus]

theorem Slot.fget_fadd_self (x : Slot) (off : Nat) (f : Fld) (n : Nat) :
    (x.fadd off f n).fget off f = min (x.fget off f + n) (2 ^ f.w - 1) := by
  have hw : 0 < 2 ^ f.w := Nat.two_pow_pos _
  rw [Slot.fadd, Slot.fget_fset_self, satAdd]
  exact Nat.mod_eq_of_lt (by omega)

/-- A context whose step has taken the result of its exchange. -/
def Slot.takesResult (x : Slot) (res : XchgRes) (now : Nat) : Slot :=
  let y := { x with step := { x.step with result := some res } }
  if x.commitPoint res ≤ now then y.fadd R.SCH_COMMIT F.SCH_COMMIT_LATE_RESULTS 1 else y

theorem exec_exchangeResult {i : Nat} {res : XchgRes} (hw : instrWf (.exchangeResult p k res) = true) (hs : s.slot? p k = some x)
    (hlive : x.step.live = true) (habort : x.step.abort = none) (hres : x.step.result = none) (hx : x.step.xres = some res)
    (hi : x.step.issued = some i) (hstatus : res.status = 0) :
    exec (.exchangeResult p k res) s = .next (s.setSlot p k (x.takesResult res s.tick)) := by
  refine (State.runIf_true s hw _).trans (congrArg Host.Outcome.next ?_)
  have htakes : (x.step.live && x.step.abort.isNone && x.step.result.isNone && x.step.xres == some res) = true := by simp [*]
  rw [hs]
  dsimp only
  rw [htakes]
  split
  · exact if_neg (not_not.2 hstatus)
  · rename_i hnot
    exact absurd hi (hnot i rfl)

theorem step_takesResult (x : Slot) (res : XchgRes) (now : Nat) :
    (x.takesResult res now).step = { x.step with result := some res } := by
  unfold Slot.takesResult
  dsimp only
  split <;> rfl

theorem fget_takesResult (x : Slot) (res : XchgRes) (now : Nat) :
    (x.takesResult res now).fget R.SCH_COMMIT F.SCH_COMMIT_LATE_RESULTS =
      (if x.commitPoint res ≤ now then
        min (x.fget R.SCH_COMMIT F.SCH_COMMIT_LATE_RESULTS + 1) (2 ^ F.SCH_COMMIT_LATE_RESULTS.w - 1)
       else x.fget R.SCH_COMMIT F.SCH_COMMIT_LATE_RESULTS) := by
  unfold Slot.takesResult
  dsimp only
  split
  · exact Slot.fget_fadd_self ..
  · rfl

/-- A context whose exchange has not completed, with its abort asked for. -/
def Slot.exchangeLost (x : Slot) (now cause : Nat) : Slot :=
  let y := x.fset R.SCH_COMMIT F.SCH_COMMIT_OUTCOME 4
  { y with step := { y.step with abort := some { outcome := 4, origin := now, regroup := cause } } }

/-- The abort that an exchange asks for (R250), without the STOT that it sends. -/
theorem abortAndStot_eq {r : AbortReq} (hs : s.slot? p k = some x) (hlive : x.step.live = true) (habort : x.step.abort = none) :
    s.abortAndStot p k r =
      (s.setSlot p k { x with step := { x.step with abort := some { r with origin := s.tick } } }).stotOriginate 0 x.job 0xFFFF := by
  have hask : (x.step.live && x.step.abort.isNone) = true := by simp [hlive, habort]
  rw [State.abortAndStot, hs]
  dsimp only
  rw [if_pos hlive, State.askAbort, modSlot_of_slot hs, if_pos hask]

/-- The package whose exchange has not completed, up to the event. -/
def State.exchangeStops (s : State) (p k cause : Nat) (x : Slot) : State :=
  (s.setSlot p k (x.fset R.SCH_COMMIT F.SCH_COMMIT_OUTCOME 4)).abortAndStot p k { outcome := 4, regroup := cause }

theorem exec_exchangeTimeout {i : Nat} (hp : p < 8) (hk : k < 4) (hs : s.slot? p k = some x) (hlive : x.step.live = true)
    (habort : x.step.abort = none) (hres : x.step.result = none) (hi : x.step.issued = some i)
    (hlate : i + x.pget F.SCH_PIPE_CTL_XCH_TICKS ≤ s.tick) :
    exec (.exchangeTimeout p k) s =
      .next ((s.exchangeStops p k 3 x).event (B.sch p + R.SCH_COMMIT) (some F.SCH_COMMIT_OUTCOME) [i]) := by
  refine (State.runIf_true s (slotWf hp hk) _).trans (congrArg Host.Outcome.next ?_)
  simp only [hs, hlive, habort, hres, hi]
  exact if_pos hlate

theorem inner_exchangeStops (cause : Nat) (hlive : x.step.live = true) (habort : x.step.abort = none) :
    (s.exchangeStops p k cause x).inner = ((s.setSlot p k (x.fset R.SCH_COMMIT F.SCH_COMMIT_OUTCOME 4)).setSlot p k
      (x.exchangeLost s.tick cause)).inner := by
  rw [State.exchangeStops, abortAndStot_eq (x := x.fset R.SCH_COMMIT F.SCH_COMMIT_OUTCOME 4) (State.slot?_setSlot_self ..) hlive habort,
    inner_stotOriginate]
  rfl

theorem exchangeStops_spec (cause : Nat) (hlive : x.step.live = true) (habort : x.step.abort = none) :
    (s.exchangeStops p k cause x).slot? p k = some (x.exchangeLost s.tick cause) ∧ (s.exchangeStops p k cause x).mem = s.mem
      ∧ (s.exchangeStops p k cause x).regs = s.regs ∧ (s.exchangeStops p k cause x).tiles = s.tiles
      ∧ (s.exchangeStops p k cause x).clk = s.clk := by
  obtain ⟨hparts, hmem, hregs, htiles, hclk⟩ := fields_of_inner (inner_exchangeStops (s := s) (p := p) (k := k) cause hlive habort)
  exact ⟨(slot?_of_parts hparts p k).trans (State.slot?_setSlot_self ..), hmem, hregs, htiles, hclk⟩

/-! ### The decision (R219, R249) -/

/-- A context without the fields of its registers. -/
def Slot.offRegs (x : Slot) : Slot := { x with regs := [] }

theorem offRegs_fset (off : Nat) (f : Fld) (v : Nat) (x : Slot) : (x.fset off f v).offRegs = x.offRegs := rfl

theorem eq_of_offRegs (h : y.offRegs = x.offRegs) : y = { x with regs := y.regs } :=
  (congrArg (fun z : Slot => { z with regs := y.regs }) h : { y.offRegs with regs := y.regs } = { x.offRegs with regs := y.regs })

theorem showMax_eq (x : Slot) : x.showMax = { x with regs := x.showMax.regs } :=
  eq_of_offRegs (forRange_keeps (v := Slot.offRegs) (fun n x => offRegs_fset (R.SCH_PG_ID n) F.SCH_PG_ID_MAXEXP _ x) 64 x)

theorem snapCommit_eq (x : Slot) (n b period : Nat) : x.snapCommit n b period = { x with snap := (x.snapCommit n b period).snap } := by
  unfold Slot.snapCommit
  split <;> rfl

/-- The fields that a decision writes in the registers of a context, of both outcomes. -/
def decidedKeys : List Nat :=
  [regKey R.SCH_VER F.SCH_VER_MB_REF, regKey R.SCH_VER F.SCH_VER_UPD_HELD, regKey R.SCH_COMMIT F.SCH_COMMIT_LAST_B,
    regKey R.SCH_COMMIT F.SCH_COMMIT_OUTCOME] ++ (List.range 64).map fun n => regKey (R.SCH_PG_ID n) F.SCH_PG_ID_MAXEXP

theorem fget_showMax {off : Nat} {f : Fld} (h : regKey off f ∉ decidedKeys) (x : Slot) : x.showMax.fget off f = x.fget off f := by
  unfold Slot.showMax
  refine forRange_keeps_lt (v := fun x : Slot => x.fget off f) 64 (fun n hn x => Slot.fget_fset_ne _ _ fun heq => h ?_) x
  rw [heq]
  exact List.mem_append_right _ (List.mem_map_of_mem (List.mem_range.2 hn))

/-- A context whose table has entered the window, with the boundary and the outcome of its step. -/
def Slot.logged (x : Slot) (r : XchgRes) (b outcome : Nat) : Slot :=
  ((Slot.showMax { (x.setRefs []).fset R.SCH_VER F.SCH_VER_UPD_HELD 0 with window := (r.slots.map xchgRow :: x.window).take 8 }).fset
    R.SCH_COMMIT F.SCH_COMMIT_LAST_B b).fset R.SCH_COMMIT F.SCH_COMMIT_OUTCOME outcome

theorem decided_eq (x : Slot) (r : XchgRes) (b now outcome : Nat) : x.decided r b now outcome =
    { x.logged r b outcome with
        nextStep := x.nextStep + 1, pass := 1, got := [], passBad := [], decidedAt := some now, prevOff := some x.step.offsets,
        pfAhead := [], step := {} } := rfl

theorem fget_of_decided (off : Nat) (f : Fld) (x : Slot) (r : XchgRes) (b now outcome : Nat) :
    (x.decided r b now outcome).fget off f = (x.logged r b outcome).fget off f := by
  rw [decided_eq]
  generalize x.logged r b outcome = y
  rfl

/-- A decision leaves the other fields of the registers. -/
theorem fget_decided {off : Nat} {f : Fld} (h : regKey off f ∉ decidedKeys) (x : Slot) (r : XchgRes) (b now outcome : Nat) :
    (x.decided r b now outcome).fget off f = x.fget off f := by
  have hne {o : Nat} {g : Fld} (hg : regKey o g ∈ decidedKeys) (y : Slot) (n : Nat) : (y.fset o g n).fget off f = y.fget off f :=
    Slot.fget_fset_ne _ _ fun heq => h (heq ▸ hg)
  have hrefs : (x.setRefs []).fget off f = x.fget off f :=
    hne (by simp [decidedKeys] : regKey R.SCH_VER F.SCH_VER_MB_REF ∈ decidedKeys) { x with step := { x.step with refs := [] } } 0
  have hheld := hne (by simp [decidedKeys] : regKey R.SCH_VER F.SCH_VER_UPD_HELD ∈ decidedKeys) (x.setRefs []) 0
  have hlast : regKey R.SCH_COMMIT F.SCH_COMMIT_LAST_B ∈ decidedKeys := by simp [decidedKeys]
  have houtcome : regKey R.SCH_COMMIT F.SCH_COMMIT_OUTCOME ∈ decidedKeys := by simp [decidedKeys]
  rw [fget_of_decided, Slot.logged, hne houtcome, hne hlast, fget_showMax h]
  exact hheld.trans hrefs

theorem outcome_decided (x : Slot) (r : XchgRes) (b now outcome : Nat) :
    (x.decided r b now outcome).fget R.SCH_COMMIT F.SCH_COMMIT_OUTCOME = outcome % 2 ^ F.SCH_COMMIT_OUTCOME.w := by
  rw [fget_of_decided, Slot.logged, Slot.fget_fset_self]

theorem windowAndFlip_logged (x : Slot) (r : XchgRes) (b outcome : Nat) :
    (x.logged r b outcome).window = (r.slots.map xchgRow :: x.window).take 8 ∧ (x.logged r b outcome).lastFlip = x.lastFlip := by
  rw [Slot.logged, showMax_eq]
  generalize Slot.regs _ = m
  exact ⟨rfl, rfl⟩

/-- A context has decided its step on the result of the exchange: the step is over, and the rescale pass is due (R249). -/
def Slot.Decides (x : Slot) (r : XchgRes) (now : Nat) (y : Slot) : Prop :=
  y.step = {} ∧ y.pass = 1 ∧ y.nextStep = x.nextStep + 1 ∧ y.decidedAt = some now ∧
    y.window = (r.slots.map xchgRow :: x.window).take 8

theorem decides_decided (x : Slot) (r : XchgRes) (b now outcome : Nat) : x.Decides r now (x.decided r b now outcome) := by
  obtain ⟨hwindow, -⟩ := windowAndFlip_logged x r b outcome
  rw [decided_eq]
  generalize x.logged r b outcome = y at *
  exact ⟨rfl, rfl, rfl, rfl, hwindow⟩

theorem lastFlip_decided (x : Slot) (r : XchgRes) (b now outcome : Nat) : (x.decided r b now outcome).lastFlip = x.lastFlip := by
  obtain ⟨-, hflip⟩ := windowAndFlip_logged x r b outcome
  rw [decided_eq]
  generalize x.logged r b outcome = y at *
  exact hflip

/-- A context that flips, before its step is over. -/
def Slot.flips (x : Slot) : Slot := (x.fset R.SCH_VER F.SCH_VER_GEN (1 - x.gen)).fset R.SCH_NUM_STAT F.SCH_NUM_STAT_SKIP_RUN 0

theorem commit_eq (x : Slot) (r : XchgRes) (b now period : Nat) : x.commit r b now period =
    Slot.snapCommit { x.flips.decided r b now 1 with lastFlip := some b } x.step.step b period := rfl

theorem decides_commit (x : Slot) (r : XchgRes) (b now period : Nat) : x.Decides r now (x.commit r b now period) := by
  have hdecides := decides_decided x.flips r b now 1
  rw [commit_eq]
  generalize x.flips.decided r b now 1 = y at *
  rw [snapCommit_eq]
  exact hdecides

/-- A flip turns G and clears SKIP_RUN (R249). -/
theorem commit_spec (x : Slot) (r : XchgRes) (b now period : Nat) :
    (x.commit r b now period).gen = (1 - x.gen) % 2 ^ F.SCH_VER_GEN.w
      ∧ (x.commit r b now period).fget R.SCH_NUM_STAT F.SCH_NUM_STAT_SKIP_RUN = 0
      ∧ (x.commit r b now period).fget R.SCH_COMMIT F.SCH_COMMIT_OUTCOME = 1 ∧ (x.commit r b now period).lastFlip = some b := by
  have hgen : (x.flips.decided r b now 1).gen = (1 - x.gen) % 2 ^ F.SCH_VER_GEN.w := by
    rw [Slot.gen, fget_decided (by decide), Slot.flips, Slot.fget_fset_ne _ _ (by decide), Slot.fget_fset_self]
  have hskips : (x.flips.decided r b now 1).fget R.SCH_NUM_STAT F.SCH_NUM_STAT_SKIP_RUN = 0 := by
    rw [fget_decided (by decide), Slot.flips, Slot.fget_fset_self]
    rfl
  have houtcome := outcome_decided x.flips r b now 1
  rw [commit_eq]
  generalize x.flips.decided r b now 1 = y at *
  rw [snapCommit_eq]
  exact ⟨hgen, hskips, houtcome, rfl⟩

/-- A context whose step is skipped, before its step is over. -/
def Slot.skips (x : Slot) : Slot :=
  let y := (x.fadd R.SCH_NUM_STAT F.SCH_NUM_STAT_NF_SKIPS 1).fadd R.SCH_NUM_STAT F.SCH_NUM_STAT_SKIP_RUN 1
  { y with skipHeld := decide (y.fget R.SCH_NUM_CTL F.SCH_NUM_CTL_SKIP_LIMIT ≤ y.fget R.SCH_NUM_STAT F.SCH_NUM_STAT_SKIP_RUN) }

theorem skip_eq (x : Slot) (r : XchgRes) (b now : Nat) : x.skip r b now = x.skips.decided r b now 2 := rfl

theorem decides_skip (x : Slot) (r : XchgRes) (b now : Nat) : x.Decides r now (x.skip r b now) := decides_decided x.skips r b now 2

/-- A skip leaves G and the last flip (R219). -/
theorem skip_spec (x : Slot) (r : XchgRes) (b now : Nat) :
    (x.skip r b now).gen = x.gen ∧ (x.skip r b now).fget R.SCH_COMMIT F.SCH_COMMIT_OUTCOME = 2
      ∧ (x.skip r b now).lastFlip = x.lastFlip := by
  rw [skip_eq]
  refine ⟨?_, outcome_decided .., lastFlip_decided ..⟩
  have hgen : x.skips.gen = x.gen := (Slot.fget_fset_ne _ _ (by decide)).trans (Slot.fget_fset_ne x _ (by decide))
  exact (fget_decided (by decide) x.skips r b now 2).trans hgen

/-! ### What a decision leaves of the package (R219, R249, R374, R381, R382, R384) -/

theorem plant_inkOpen (p : Nat) (s : State) : (s.inkOpen p).plant = s.plant := by
  unfold State.inkOpen
  dsimp only
  repeat' split
  all_goals rfl

theorem plant_inkConsume (p ctx : Nat) (s : State) : (s.inkConsume p ctx).plant = s.plant :=
  (plant_inkOpen ..).trans ((plant_inkShow ..).trans (plant_setStream ..))

theorem plant_inkRecord (p : Nat) (s : State) : (s.inkRecord p).plant = s.plant := by
  unfold State.inkRecord
  dsimp only
  split
  · rfl
  · exact plant_inkStore ..

theorem plant_seqFull (p : Nat) (b : OpenBatch) (s : State) : (s.seqFull p b).2.plant = s.plant := plant_inkStore ..

theorem plant_seqPad (p : Nat) (b : OpenBatch) (s : State) : (s.seqPad p b).2.plant = s.plant :=
  (plant_seqFull ..).trans (plant_inkStore ..)

theorem plant_piece (p : Nat) (b : OpenBatch) (x : Sample) (slow : Bool) (ids : List Nat) (s : State) :
    (s.piece p b x slow ids).2.plant = s.plant := by
  unfold State.piece
  dsimp only
  split
  · exact (plant_seqFull ..).trans (plant_inkStore ..)
  · split
    · exact (plant_seqPad ..).trans (plant_inkStore ..)
    · exact plant_inkStore ..

theorem plant_packDoc (p : Nat) (slow : Bool) (doc : List Nat) (n : Nat) (s : State) (b : OpenBatch) (x : Sample) :
    (State.packDoc p slow doc n s b x).2.2.plant = s.plant := by
  induction n generalizing s b x with
  | zero => rfl
  | succ n ih =>
    simp only [State.packDoc]
    repeat' split
    · rfl
    · exact (ih ..).trans (plant_seqPad ..)
    · exact (ih ..).trans (plant_piece ..)

theorem plant_placeSample (p : Nat) (b : OpenBatch) (x : Sample) (slow : Bool) (s : State) :
    (s.placeSample p b x slow).2.2.plant = s.plant := by
  unfold State.placeSample
  dsimp only
  split
  · exact plant_packDoc ..
  · split
    · rfl
    · exact plant_inkStore ..

theorem plant_placeFrom (p i : Nat) (s : State) : (s.placeFrom p i).plant = s.plant := by
  unfold State.placeFrom
  dsimp only
  split
  · rename_i b x _ _
    split
    · rfl
    · have hplace := plant_placeSample p b x (decide (256 ≤ i)) s
      split
      · exact hplace
      · exact hplace
  · rfl

theorem plant_placeAll (p : Nat) (s : State) : (s.placeAll p).plant = s.plant :=
  foldl_keeps (v := State.plant) (fun s i => plant_placeFrom p i s) _ s

theorem plant_skipEvents (p : Nat) (x y : Slot) (r : XchgRes) (s : State) : (s.skipEvents p x y r).plant = s.plant :=
  (when_keeps (v := State.plant) (fun s => plant_event _ _ _ s) _).trans (plant_event ..)

/-- A decision changes the plant in its context alone. -/
theorem plant_flip (s : State) (p k : Nat) (x : Slot) (r : XchgRes) (b : Nat) :
    (s.flip p k x r b).plant = (s.setSlot p k (if x.skipVote r then x.skip r b s.tick else x.commit r b s.tick s.pLog)).plant := by
  refine (plant_inkRecord ..).trans ((plant_placeAll ..).trans ((plant_inkConsume ..).trans ?_))
  cases x.skipVote r
  · rfl
  · exact plant_skipEvents ..

theorem exec_commitFlip {r : XchgRes} {b : Nat} (hp : p < 8) (hk : k < 4) (hs : s.slot? p k = some x) (hb : s.atBoundary 4 = true)
    (hfence : s.fenced 5 0 = false) (hdue : s.flipDue x = some (r, b)) :
    exec (.commitFlip p k) s = .next ((s.took 4).flip p k x r b) := by
  refine (State.runIf_true s (slotWf hp hk) _).trans (congrArg Host.Outcome.next ?_)
  simp only [hs, hb, hfence, hdue, Bool.not_false, Bool.and_self]

end Sys2Proof.Machine
end

section
/-!
The passes over the rescale list (O22): what the rescale pass and the discard pass leave of the context whose tables they rewrite (R212 to
R215, R223 to R225), and how far a pass comes (R214).
-/

set_option Elab.async false

namespace Sys2Proof.Machine

variable {s t w : State} {p k : Nat} {x y : Slot}

/-! ### What a pass leaves of a context -/

/-- The step of a context, and what its ends decide: the next step, the boundary of the last decision, the STOTs that wait, and G. -/
structure Plan where
  step : StepSt
  nextStep : Nat
  decidedAt : Option Nat
  stots : List StotIn
  gen : Nat

def Slot.plan (x : Slot) : Plan := ⟨x.step, x.nextStep, x.decidedAt, x.stots, x.gen⟩

theorem plan_fset {off : Nat} {f : Fld} (h : regKey R.SCH_VER F.SCH_VER_GEN ≠ regKey off f) (x : Slot) (v : Nat) :
    (x.fset off f v).plan = x.plan := congrArg (Plan.mk x.step x.nextStep x.decidedAt x.stots) (Slot.fget_fset_ne _ _ h)

theorem plan_passFails (x : Slot) (i : Nat) (count : Bool) : (x.passFails i count).plan = x.plan := by
  unfold Slot.passFails
  split
  · rfl
  · exact plan_fset (by decide) x _

/-- The registers of the gradient-format slots are not SCH_VER. -/
theorem gen_ne_pg {n : Nat} (hn : n < 64) {f : Fld} (hf : f.lo < 64) :
    regKey R.SCH_VER F.SCH_VER_GEN ≠ regKey (R.SCH_PG n) f ∧ regKey R.SCH_VER F.SCH_VER_GEN ≠ regKey (R.SCH_PG_ID n) f := by
  constructor <;> refine regKey_ne_of_off ?_ (by decide) hf <;> simp only [R.SCH_VER, R.SCH_PG, R.SCH_PG_ID] <;> omega

/-- Time, and the plan of the context in a slot. -/
def State.course (s : State) (p k : Nat) : Clock × Option Plan := (s.clk, (s.slot? p k).map Slot.plan)

/-- Time, tiles and herds, and the plan of the context in a slot. -/
def State.stage (s : State) (p k : Nat) : (Clock × Option Plan) × Map Tile × Map Herd := (s.course p k, s.tiles, s.herds)

theorem SameRest.stage (h : SameRest s t) (p k : Nat) : t.stage p k = s.stage p k := by
  rw [h]
  rfl

theorem SameUnits.stage (h : SameUnits s t) (p k : Nat) : t.stage p k = s.stage p k := h.1.stage p k

theorem course_of_stage (h : t.stage p k = s.stage p k) : t.course p k = s.course p k := congrArg Prod.fst h

theorem course_of_parts {q : Nat} (hclk : t.clk = s.clk) (hne : ∀ j, j ≠ q → t.part j = s.part j)
    (hslots : (t.part q).slots = (s.part q).slots) (p k : Nat) : t.course p k = s.course p k := by
  have hpart : (t.part p).slots = (s.part p).slots := by
    rcases eq_or_ne p q with rfl | h
    · exact hslots
    · rw [hne p h]
  rw [State.course, State.course, State.slot?, State.slot?, hclk, hpart]

theorem slot_of_course (h : t.course p k = s.course p k) (hs : s.slot? p k = some x) :
    t.clk = s.clk ∧ ∃ z, t.slot? p k = some z ∧ z.plan = x.plan := by
  obtain ⟨hclk, hslot⟩ := Prod.mk.inj h
  rw [hs, Option.map_some, Option.map_eq_some_iff] at hslot
  exact ⟨hclk, hslot⟩

/-- A change of a context that keeps its plan. -/
theorem stage_modSlot {f : Slot → Slot} (hf : ∀ y, (f y).plan = y.plan) (q j : Nat) (s : State) :
    (s.modSlot q j f).stage p k = s.stage p k := by
  unfold State.modSlot
  split
  · rename_i x hx
    have hslot : ((s.setSlot q j (f x)).slot? p k).map Slot.plan = (s.slot? p k).map Slot.plan := by
      by_cases h : p = q ∧ k = j
      · rw [h.1, h.2, State.slot?_setSlot_self, hx]
        exact congrArg some (hf x)
      · rw [State.slot?_setSlot_ne s (f x) h]
    exact congrArg (fun o => ((s.clk, o), s.tiles, s.herds)) hslot
  · rfl

/-! ### The tables of an entry (R212, R213, R215) -/

theorem stage_load (r : Reach) (a n : Nat) (s : State) : (s.load r a n).2.stage p k = s.stage p k :=
  ((sameUnits_load ..).2 (.refl s)).stage p k

theorem stage_store (r : Reach) (a n v : Nat) (s : State) : (s.store r a n v).2.stage p k = s.stage p k :=
  ((sameUnits_store ..).2 (.refl s)).stage p k

theorem stage_storeRec (r : Reach) (a : Ten) (b v : Nat) (s : State) : (s.storeRec r a b v).2.stage p k = s.stage p k :=
  ((sameUnits_storeN ..).2 (.refl s)).stage p k

theorem stage_loadRec (r : Reach) (a : Ten) (b : Nat) (s : State) : (s.loadRec r a b).2.2.stage p k = s.stage p k := by
  have hload := stage_load (p := p) (k := k) r (a.recAddr b) 2 s
  unfold State.loadRec
  split
  · rfl
  · split <;> rename_i e <;> rw [e] at hload <;> exact hload

theorem stage_readDesc (r : Reach) (a : Nat) (s : State) : (s.readDesc r a).2.stage p k = s.stage p k := by
  have hload := ((sameUnits_loadWords r a 8).2 (.refl s)).stage p k
  unfold State.readDesc
  split <;> rename_i e <;> rw [e] at hload
  · repeat' split
    all_goals exact hload
  · exact hload

theorem stage_passTensor (r : Reach) (a : Ten) (f : Nat → Nat → Rescaled) (s : State) :
    (s.passTensor r a f).2.2.2.stage p k = s.stage p k := by
  refine foldl_keeps (v := fun z : Ld × Nat × Nat × State => z.2.2.2.stage p k) (fun z b => ?_) _ _
  have hpair (w : State) : (if fmtFp8 a.d.fmt then w.load r (a.mapAddr b) 1 else (Ld.ok 0, w)).2.stage p k = w.stage p k := by
    split
    · exact stage_load ..
    · rfl
  have hrec := stage_loadRec (p := p) (k := k) r a b z.2.2.2
  dsimp only
  split
  · rfl
  · split <;> rename_i e1 <;> rw [e1] at hrec
    · exact hrec
    · rename_i w1 _ s1
      have hload := hpair s1
      split <;> rename_i e2 <;> rw [e2] at hload
      · rename_i m s2
        have hstore := stage_storeRec (p := p) (k := k) r a b (f w1 (bits m (2 * (b % 4)) 2)).word s2
        split <;> rename_i e3 <;> rw [e3] at hstore
        · refine Eq.trans ?_ (hstore.trans (hload.trans hrec))
          split
          · exact stage_store ..
          · rfl
        · exact hstore.trans (hload.trans hrec)
      · exact hload.trans hrec

theorem stage_rescaleTensor (r : Reach) (v : Nat) (s : State) : (s.rescaleTensor r v).2.stage p k = s.stage p k := by
  unfold State.rescaleTensor
  dsimp only
  repeat' split
  · rfl
  · exact stage_readDesc ..
  · exact stage_readDesc ..

theorem stage_passEntry (q j : Nat) (x : Slot) (count : Bool) (skip : List Nat) (f : Fmt → Nat → Nat → Rescaled) (i : Nat)
    (s : State) :
    (s.passEntry q j x count skip f i).stage p k = s.stage p k := by
  have hbad (s : State) : (s.modSlot q j fun y => y.passFails i count).stage p k = s.stage p k :=
    stage_modSlot (fun y => plan_passFails y i count) q j s
  have hcount (up down : Nat) (s : State) : (s.modSlot q j fun y => (y.fadd R.SCH_SCALE_STAT F.SCH_SCALE_STAT_SCALE_CEIL up).fadd
      R.SCH_SCALE_STAT F.SCH_SCALE_STAT_SCALE_FLOOR down).stage p k = s.stage p k :=
    stage_modSlot (fun y => (plan_fset (by decide) _ _).trans (plan_fset (by decide) y _)) q j s
  have hentry : (s.rescaleEntry (Reach.pass q j i x.got) x i).2.stage p k = s.stage p k := stage_load ..
  unfold State.passEntry
  dsimp only
  split <;> rename_i e1 <;> rw [e1] at hentry
  · rename_i v s1
    split
    · exact hentry
    · have htensor := stage_rescaleTensor (p := p) (k := k) (Reach.pass q j i x.got) v s1
      split <;> rename_i e2 <;> rw [e2] at htensor
      · exact (hbad _).trans (htensor.trans hentry)
      · rename_i ten s2
        split
        · exact htensor.trans hentry
        · have hpass := stage_passTensor (p := p) (k := k) (Reach.pass q j i x.got) ten (f ten.d.fmt) s2
          refine (when_keeps (v := fun s => s.stage p k) (fun s => hcount _ _ s) _).trans ?_
          split
          · exact hpass.trans (htensor.trans hentry)
          · exact (hbad _).trans (hpass.trans (htensor.trans hentry))
  · exact (hbad _).trans hentry

theorem stage_passList (q j : Nat) (x : Slot) (count : Bool) (skip : List Nat) (f : Fmt → Nat → Nat → Rescaled) (s : State) :
    (s.passList q j x count skip f).stage p k = s.stage p k :=
  forRange_keeps (v := fun s => s.stage p k) (fun i s => stage_passEntry q j x count skip f i s) _ s

/-! ### Gradient format choice (R223 to R225) -/

theorem stage_pgApply {n : Nat} (hn : n < 64) (r : Reach) (q j fmt : Nat) (x : Slot) (d : Desc) (s : State) :
    (s.pgApply r q j n fmt x d).stage p k = s.stage p k := by
  have hset (s : State) : (s.modSlot q j fun y => (y.fset (R.SCH_PG n) F.SCH_PG_FMT fmt).fset (R.SCH_PG_ID n) F.SCH_PG_ID_SINCE 0).stage
      p k = s.stage p k :=
    stage_modSlot (fun y => (plan_fset (gen_ne_pg hn (by decide)).2 _ _).trans (plan_fset (gen_ne_pg hn (by decide)).1 y _)) q j s
  unfold State.pgApply
  dsimp only
  refine (hset _).trans ((stage_passTensor ..).trans ((stage_store ..).trans (stage_load ..)))

theorem stage_pgChoose {n : Nat} (hn : n < 64) (q j : Nat) (s : State) : (s.pgChoose q j n).2.stage p k = s.stage p k := by
  have hoff (s : State) : (s.modSlot q j fun y => (y.fset (R.SCH_PG n) F.SCH_PG_EN 0).countBad 1).stage p k = s.stage p k :=
    stage_modSlot (fun y => (plan_fset (by decide) _ _).trans (plan_fset (gen_ne_pg hn (by decide)).1 y _)) q j s
  have hstay (s : State) : (s.modSlot q j fun y => y.pgStay n).stage p k = s.stage p k :=
    stage_modSlot (fun y => plan_fset (gen_ne_pg hn (by decide)).2 y _) q j s
  unfold State.pgChoose
  split
  · rfl
  · extract_lets r g cur since d c
    split
    · exact (hoff _).trans (stage_readDesc ..)
    · split
      · exact (hstay _).trans (stage_readDesc ..)
      · exact (stage_pgApply hn ..).trans (stage_readDesc ..)

theorem stage_pgAll (q j : Nat) (x : Slot) (s : State) : (s.pgAll q j x).2.stage p k = s.stage p k :=
  foldl_keeps_mem (v := fun z : List Nat × State => z.2.stage p k)
    (f := fun (a : List Nat × State) (n : Nat) => (a.1 ++ (a.2.pgChoose q j n).1, (a.2.pgChoose q j n).2)) x.pgSlots
    (fun _ hn z => stage_pgChoose (List.mem_range.1 (List.mem_filter.1 hn).1) q j z.2) ([], s)

theorem stage_rescaleWork (q j : Nat) (x : Slot) (s : State) : (s.rescaleWork q j x).stage p k = s.stage p k :=
  (stage_passList ..).trans (stage_pgAll ..)

/-! ### How far a pass comes (R214) -/

section Pass
variable {n phase : Nat} {paid : Bool} {f : State → State} {ends : State → Slot → Slot} {m : List (Nat × Nat)}

/-- A pass that is done has made its accesses, and its tokens are charged. -/
theorem eq_of_workNow_done (h : s.workNow n paid (fun s => ((), f s)) = .done () w) :
    ∃ due, w = { ((f (s.attempt n paid fun s => s)).chargeAll due).1 with acc := {} } := by
  unfold State.workNow at h
  dsimp only at h
  split at h
  · cases h
  · split at h
    · cases h
      exact ⟨_, rfl⟩
    · cases h

/-- A pass that waits for tokens has asked for them. -/
theorem eq_of_workNow_waits (h : s.workNow n paid (fun s => ((), f s)) = .waits w m) : ∃ due, w = (s.chargeAll due).1 := by
  unfold State.workNow at h
  dsimp only at h
  split at h
  · cases h
  · split at h
    · cases h
    · rename_i e
      cases h
      exact ⟨_, (congrArg Prod.fst e).symm⟩

theorem stage_chargeAll (due : List (Nat × Nat × Nat)) (s : State) : (s.chargeAll due).1.stage p k = s.stage p k :=
  (SameRest.chargeAll (SameUnits.refl s).1 due).stage p k

theorem stage_workNow_done (hf : ∀ s, (f s).stage p k = s.stage p k) (h : s.workNow n paid (fun s => ((), f s)) = .done () w) :
    w.stage p k = s.stage p k := by
  obtain ⟨due, rfl⟩ := eq_of_workNow_done h
  exact (stage_chargeAll due (f (s.attempt n paid fun s => s))).trans (hf _)

theorem runPass_done (h : s.workNow (schedUnit p k) (x.passMarks != []) (fun s => ((), f s)) = .done () w) :
    s.runPass p k phase x f ends = w.modSlot p k fun y => { ends w y with got := [], passMarks := [] } := by
  rw [State.runPass, h]

theorem runPass_halts {h : Halt} (hw : s.workNow (schedUnit p k) (x.passMarks != []) (fun s => ((), f s)) = .halts h) :
    s.runPass p k phase x f ends = (s.modSlot p k fun y => { y with pass := phase }).haltAt (schedUnit p k) h := by
  rw [State.runPass, hw]

theorem runPass_waits (h : s.workNow (schedUnit p k) (x.passMarks != []) (fun s => ((), f s)) = .waits w m) :
    s.runPass p k phase x f ends = w.modSlot p k fun y => { y with pass := phase, passMarks := m } := by
  rw [State.runPass, h]

/-- A pass whose work and whose end keep the plan of the context keeps it also where it waits. -/
theorem stage_runPass (hf : ∀ s, (f s).stage p k = s.stage p k) (hends : ∀ s y, (ends s y).plan = y.plan) :
    (s.runPass p k phase x f ends).stage p k = s.stage p k := by
  cases h : s.workNow (schedUnit p k) (x.passMarks != []) (fun s => ((), f s)) with
  | done e w =>
    rw [runPass_done h]
    exact (stage_modSlot (f := fun y => { ends w y with got := [], passMarks := [] }) (fun y => hends w y) p k w).trans
      (stage_workNow_done hf h)
  | halts h' =>
    rw [runPass_halts h]
    exact ((sameUnits_haltAt _ h').stage p k).trans (stage_modSlot (f := fun y => { y with pass := phase }) (fun _ => rfl) p k s)
  | waits w m =>
    obtain ⟨due, rfl⟩ := eq_of_workNow_waits h
    rw [runPass_waits h]
    exact (stage_modSlot (f := fun y => { y with pass := phase, passMarks := m }) (fun _ => rfl) p k _).trans (stage_chargeAll due s)

theorem stage_discardPass (s : State) : (s.discardPass p k).stage p k = s.stage p k := by
  unfold State.discardPass
  split
  · exact stage_runPass (fun s => stage_passList p k _ false [] discardOf s) fun _ _ => rfl
  · rfl

end Pass

/-! ### The rescale pass (R213, R214) -/

theorem exec_rescalePass (hp : p < 8) (hk : k < 4) (hs : s.slot? p k = some x) (hpass : x.pass = 1) (hasks : s.passAsks p k = false)
    (hpast : s.regPast x.passMarks = true) (hfence : s.fenced 5 0 = false) :
    exec (.rescalePass p k) s =
      .next (s.runPass p k 1 x (fun s => s.rescaleWork p k x) fun _ y => { y with pass := 2 }) := by
  refine (State.runIf_true s (slotWf hp hk) _).trans (congrArg Host.Outcome.next ?_)
  simp only [hs, hasks, hpast, hfence, Bool.not_true, Bool.or_self, Bool.false_eq_true, if_false, hpass, if_true, State.rescalePass]

theorem exec_rescalePass_held (hp : p < 8) (hk : k < 4) (hs : s.slot? p k = some x)
    (h : s.passAsks p k = true ∨ s.regPast x.passMarks = false ∨ s.fenced 5 0 = true) : exec (.rescalePass p k) s = .next s := by
  have hheld : (s.passAsks p k || !s.regPast x.passMarks || s.fenced 5 0) = true := by
    rcases h with h | h | h <;> simp [h]
  refine (State.runIf_true s (slotWf hp hk) _).trans (congrArg Host.Outcome.next ?_)
  rw [hs]
  exact if_pos hheld

/-- The rescale pass has run: its writes and tokens are awaited. -/
theorem rescalePass_done (hp : p < 8) (hk : k < 4) (hs : s.slot? p k = some x) (hpass : x.pass = 1) (hasks : s.passAsks p k = false)
    (hpast : s.regPast x.passMarks = true) (hfence : s.fenced 5 0 = false)
    (hw : s.workNow (schedUnit p k) (x.passMarks != []) (fun s => ((), s.rescaleWork p k x)) = .done () w) :
    ∃ (u : State) (y : Slot), exec (.rescalePass p k) s = .next u ∧ u.slot? p k = some y ∧ y.pass = 2 ∧ y.got = []
      ∧ y.passMarks = [] ∧ y.step = x.step ∧ y.nextStep = x.nextStep ∧ u.mem = w.mem ∧ u.tiles = s.tiles ∧ u.herds = s.herds
      ∧ u.clk = s.clk := by
  have hstage := stage_workNow_done (fun s => stage_rescaleWork (p := p) (k := k) p k x s) hw
  obtain ⟨hclk, z, hz, hplan⟩ := slot_of_course (course_of_stage hstage) hs
  obtain ⟨htiles, hherds⟩ := Prod.mk.inj (congrArg Prod.snd hstage)
  rw [exec_rescalePass hp hk hs hpass hasks hpast hfence, runPass_done hw, modSlot_of_slot hz]
  exact ⟨_, _, rfl, State.slot?_setSlot_self .., rfl, rfl, rfl, congrArg Plan.step hplan, congrArg Plan.nextStep hplan, rfl, htiles,
    hherds, hclk⟩

/-- A rescale pass that waits for a line has asked for it, and changed nothing. -/
theorem rescalePass_halts {h : Halt} (hp : p < 8) (hk : k < 4) (hs : s.slot? p k = some x) (hpass : x.pass = 1)
    (hasks : s.passAsks p k = false) (hpast : s.regPast x.passMarks = true) (hfence : s.fenced 5 0 = false)
    (hw : s.workNow (schedUnit p k) (x.passMarks != []) (fun s => ((), s.rescaleWork p k x)) = .halts h) :
    ∃ u : State, exec (.rescalePass p k) s = .next u ∧ u.slot? p k = some x ∧ u.mem = s.mem ∧ u.tiles = s.tiles ∧
      u.regs = s.regs := by
  rw [exec_rescalePass hp hk hs hpass hasks hpast hfence, runPass_halts hw, modSlot_of_slot hs, ← hpass]
  obtain ⟨hparts, hmem, hregs, htiles, -⟩ := fields_of_inner (inner_haltAt (schedUnit p k) h (s.setSlot p k x))
  exact ⟨_, rfl, (slot?_of_parts hparts p k).trans (State.slot?_setSlot_self ..), hmem, htiles, hregs⟩

/-- A rescale pass that waits for tokens has changed nothing else. -/
theorem rescalePass_waits {m : List (Nat × Nat)} (hp : p < 8) (hk : k < 4) (hs : s.slot? p k = some x) (hpass : x.pass = 1)
    (hasks : s.passAsks p k = false) (hpast : s.regPast x.passMarks = true) (hfence : s.fenced 5 0 = false)
    (hw : s.workNow (schedUnit p k) (x.passMarks != []) (fun s => ((), s.rescaleWork p k x)) = .waits w m) :
    ∃ u : State, exec (.rescalePass p k) s = .next u ∧ u.slot? p k = some { x with passMarks := m } ∧ u.mem = s.mem
      ∧ u.tiles = s.tiles := by
  obtain ⟨due, rfl⟩ := eq_of_workNow_waits hw
  have hrest := SameRest.chargeAll (SameUnits.refl s).1 due
  have hslot : (s.chargeAll due).1.slot? p k = some x := (slot?_of_plant hrest.plant p k).trans hs
  rw [exec_rescalePass hp hk hs hpass hasks hpast hfence, runPass_waits hw, modSlot_of_slot hslot, ← hpass]
  exact ⟨_, rfl, State.slot?_setSlot_self .., congrArg Kept.mem (kept_chargeAll due s), congrArg Kept.tiles (kept_chargeAll due s)⟩

theorem exec_rescalePassDone (hp : p < 8) (hk : k < 4) (hs : s.slot? p k = some x) (hpass : x.pass = 2) (hasks : s.passAsks p k = false) :
    exec (.rescalePassDone p k) s = .next (s.setSlot p k { x with pass := 0, passAt := some s.tick }) := by
  refine (State.runIf_true s (slotWf hp hk) _).trans (congrArg Host.Outcome.next ?_)
  simp only [hs, hasks, Bool.false_eq_true, if_false, hpass, if_true]

theorem exec_rescalePassDone_asks (hp : p < 8) (hk : k < 4) (hasks : s.passAsks p k = true) :
    exec (.rescalePassDone p k) s = .next s := by
  refine (State.runIf_true s (slotWf hp hk) _).trans (congrArg Host.Outcome.next ?_)
  cases s.slot? p k with
  | none => rfl
  | some x => exact if_pos hasks

end Sys2Proof.Machine
end

section
/-!
Aborts (O22): the work of a job stops, and the step returns to its start with G and the step number as they were (R200, R215, R251, R421);
and the statement of the commit exchange, the decision, the rescale pass and aborts as a whole.
-/

set_option Elab.async false

namespace Sys2Proof.Machine

variable {s t : State} {p k : Nat} {x y : Slot}

/-! ### In-flight work stops (R200, R251, R289) -/

theorem course_statsDropped (n m : Nat) (s : State) : (s.statsDropped n m).course p k = s.course p k := by
  unfold State.statsDropped
  repeat' split
  · exact course_of_stage (stage_modSlot (fun y => plan_fset (by decide) y _) _ _ s)
  · rfl
  · rfl

theorem course_sampEnd (n : Nat) (r : Run) (s : State) : (s.sampEnd n r).course p k = s.course p k := by
  unfold State.sampEnd
  split <;> rfl

theorem course_dropWaiters (n : Nat) (s : State) : (s.dropWaiters n).course p k = s.course p k := by
  have hpart (q : Nat) : ((s.dropWaiters n).part q).slots = (s.part q).slots := by
    have hmap := part_mapParts (s := s)
      (f := fun x => { x with sems := x.sems.map fun m => (m.1, m.2.dropTile n), sigs := x.sigs.map fun g => g.orphan n }) rfl q
    exact (congrArg Part.slots hmap).trans rfl
  rw [State.course, State.course, State.slot?, State.slot?, hpart]
  rfl

theorem course_stopRun (n : Nat) (s : State) : (s.stopRun n).course p k = s.course p k := by
  rcases h : (s.tile n).run with _ | r
  · unfold State.stopRun
    rw [h]
  · obtain ⟨f, m, e⟩ := stopRun_eq h
    have hacc : ((s.statsDropped n m).accsDropped r.members).course p k = (s.statsDropped n m).course p k :=
      foldl_keeps (v := fun s : State => s.course p k) (f := fun (s : State) (m : Nat) => s.dropAcc m) (fun _ _ => rfl) _ _
    rw [e, course_dropWaiters]
    exact (course_sampEnd n r (((s.statsDropped n m).accsDropped r.members).asksGone f)).trans (hacc.trans (course_statsDropped n m s))

theorem course_segReport (n segId status : Nat) (s : State) : (s.segReport n segId status).course p k = s.course p k := by
  unfold State.segReport
  split
  · rename_i q _
    have hslots (r : List SegReport) : ((s.setPart q { s.part q with reports := r }).part q).slots = (s.part q).slots := by
      rw [State.part_setPart_self]
    exact course_of_parts (s := s) (t := s.setPart q _) rfl (fun j hj => State.part_setPart_ne s _ hj) (hslots _) p k
  · rfl

theorem course_abortTile (ctx n : Nat) (s : State) : (s.abortTile ctx n).course p k = s.course p k := by
  have hasks (b : Bool) (f : Asker → Bool) (s : State) : (s.when b fun s => s.asksGone f).course p k = s.course p k :=
    when_keeps (v := fun s : State => s.course p k) (f := fun s => s.asksGone f) (fun _ => rfl) s
  unfold State.abortTile
  dsimp only
  refine (hasks _ _ _).trans ?_
  repeat' split
  · exact (course_segReport ..).trans (course_stopRun ..)
  · rfl
  · rfl

/-- The work of a context stops without a change of time or of any plan. -/
theorem course_stopWork (q j ctx : Nat) (s : State) : (s.stopWork q j ctx).course p k = s.course p k := by
  unfold State.stopWork
  split
  · have htiles := foldl_keeps (v := fun s : State => s.course p k) (fun s n => course_abortTile ctx n s) (s.partTiles q) s
    refine Eq.trans ?_ htiles
    exact foldl_keeps (v := fun s : State => s.course p k)
      (f := fun (s : State) (h : Nat) => s.setHerd h ((s.herd h).dropTasks j)) (fun _ _ => rfl) _ _
  · rfl

/-! ### What an abort leaves of the context (R251, R421) -/

theorem plan_enterRegroup (x : Slot) (cause lost tb : Nat) : (x.enterRegroup cause lost tb).plan = x.plan := by
  have hend (y : Slot) (e : Option Nat) : ({ y with rejoin := false, regroupEnd := e } : Slot).plan = y.plan := rfl
  unfold Slot.enterRegroup
  dsimp only
  rw [hend, plan_fset (by decide), plan_fset (by decide), plan_fset (by decide), plan_fset (by decide)]

theorem plan_regroupAfter (y x : Slot) (due : List StotIn) (tb : Nat) : (y.regroupAfter x due tb).plan = y.plan := by
  unfold Slot.regroupAfter
  repeat' split
  · exact plan_enterRegroup ..
  · rfl
  · exact plan_enterRegroup ..
  · rfl

/-- The plan of a context whose step is aborted at a boundary. -/
def Plan.aborted (m : Plan) (now : Nat) : Plan :=
  { m with step := {}, decidedAt := some now, stots := m.stots.filter fun e => decide (now ≤ e.came) }

theorem plan_aborted (x : Slot) (outcome now : Nat) : (x.aborted outcome now).plan = x.plan.aborted now := by
  have hgen : (x.aborted outcome now).gen = x.gen :=
    (Slot.fget_fset_ne _ _ (by decide)).trans ((Slot.fget_fset_ne _ _ (by decide)).trans (Slot.fget_fset_ne _ _ (by decide)))
  exact congrArg (Plan.mk {} x.nextStep (some now) (x.stots.filter fun e => decide (now ≤ e.came))) hgen

theorem abortStep_spec (hs : s.slot? p k = some x) (due : List StotIn) :
    (s.abortStep p k x due).clk = s.clk ∧ ∃ y, (s.abortStep p k x due).slot? p k = some y ∧ y.plan = x.plan.aborted s.tick := by
  obtain ⟨hclk, z, hz, hplan⟩ := slot_of_course (course_stopWork p k x.ctx s) hs
  unfold State.abortStep
  dsimp only
  rw [modSlot_of_slot hz]
  obtain ⟨hclk', y, hy, hplan'⟩ := slot_of_course (course_of_stage (stage_discardPass _)) (State.slot?_setSlot_self ..)
  refine ⟨hclk'.trans hclk, y, hy, hplan'.trans ?_⟩
  rw [plan_regroupAfter, plan_aborted, hplan]

/-- A STOT that takes effect with no step in flight leaves the step, the step number and G (R57, R58). -/
theorem stopJob_spec (hs : s.slot? p k = some x) (due : List StotIn) :
    (s.stopJob p k x due).clk = s.clk ∧ ∃ y, (s.stopJob p k x due).slot? p k = some y
      ∧ y.plan = { x.plan with stots := x.stots.filter fun e => decide (s.tick ≤ e.came) } := by
  obtain ⟨hclk, z, hz, hplan⟩ := slot_of_course (course_stopWork p k x.ctx s) hs
  unfold State.stopJob
  rw [modSlot_of_slot hz]
  refine ⟨hclk, _, State.slot?_setSlot_self .., ?_⟩
  rw [plan_regroupAfter, ← hplan]
  rfl

/-- The STOTs of a context that are due at a boundary (R55). -/
def Slot.stotsDue (x : Slot) (now : Nat) : List StotIn := x.stots.filter fun e => decide (e.came < now)

theorem exec_stepAbort_live (hp : p < 8) (hk : k < 4) (hs : s.slot? p k = some x) (hb : s.atBoundary 5 = true)
    (hlive : x.step.live = true) (hdue : s.abortDue x = true) :
    exec (.stepAbort p k) s = .next ((s.took 5).abortStep p k x (x.stotsDue s.tick)) := by
  refine (State.runIf_true s (slotWf hp hk) _).trans (congrArg Host.Outcome.next ?_)
  simp only [hs, hb, hlive, hdue, Bool.not_true, Bool.false_eq_true, if_false, if_true]
  rfl

theorem exec_stepAbort_idle (hp : p < 8) (hk : k < 4) (hs : s.slot? p k = some x) (hb : s.atBoundary 5 = true)
    (hlive : x.step.live = false) (hdue : ∃ e ∈ x.stots, e.came < s.tick) :
    exec (.stepAbort p k) s = .next ((s.took 5).stopJob p k x (x.stotsDue s.tick)) := by
  have hsome : (x.stotsDue s.tick != []) = true := by
    obtain ⟨e, he, hcame⟩ := hdue
    exact bne_iff_ne.2 (List.ne_nil_of_mem (List.mem_filter.2 ⟨he, decide_eq_true hcame⟩))
  refine (State.runIf_true s (slotWf hp hk) _).trans (congrArg Host.Outcome.next ?_)
  simp only [hs, hb, hlive, Bool.not_true, Bool.false_eq_true, if_false]
  exact if_pos hsome

/-- Settles O22: each command as its lemma says, from the issue of the exchange to the end of the step. -/
theorem commitAndPass : Obligations.CommitAndPass := by
  refine ⟨fun s p k x hp hk hs hlive habort hissued hover hstats hfence => ?_, fun s p k hp hk hf => stepComplete_fenced hp hk hf,
    fun i a b h => xchgFold_sum h, fun i a b h _ _ => toInt_xchgFold h,
    fun s v d g c e p k y hw hc hop hdone hstatus hpast hasks hgo hv he hpart hk hy hissued => ?_,
    fun s p k i res x hw hs hlive habort hres hx hi hstatus => ?_, fun s p k i x hp hk hs hlive habort hres hi hlate => ?_,
    fun s p k b x r hp hk hs hb hfence hdue _ => ?_,
    fun s w p k x hp hk hs hpass hasks hpast hfence hw => rescalePass_done hp hk hs hpass hasks hpast hfence hw,
    fun s p k x h hp hk hs hpass hasks hpast hfence hw => rescalePass_halts hp hk hs hpass hasks hpast hfence hw,
    fun s w p k x m hp hk hs hpass hasks hpast hfence hw => rescalePass_waits hp hk hs hpass hasks hpast hfence hw,
    fun s p k x hp hk hs h => exec_rescalePass_held hp hk hs h, fun s p k x hp hk hs hpass hasks => ?_,
    fun s p k hp hk hasks => exec_rescalePassDone_asks hp hk hasks, fun s p k x hp hk hs hb hlive hdue => ?_,
    fun s p k x hp hk hs hb hlive hdue => ?_⟩
  · have hexec := exec_stepComplete hp hk hs
    rw [if_pos (exchangeDue_of_over hlive habort hissued hover hstats hfence)] at hexec
    refine ⟨fun hx => ?_, fun hx hroom => ?_, fun hx hroom => ?_⟩
    · rw [hx] at hexec
      exact ⟨_, hexec, onlySlot_setSlot .., State.slot?_setSlot_self ..⟩
    · rw [hx, hroom] at hexec
      exact ⟨hexec, length_xchgWords x s.tick⟩
    · rw [hx, hroom] at hexec
      exact hexec
  · have hended : c.over = true := by simp [Coll.over, hdone]
    subst hv hpart
    exact ⟨exec_collectiveEnd hw hc hended hpast hasks hgo, collOutcome_exchange hop hstatus he hk hy hissued⟩
  · exact ⟨_, _, exec_exchangeResult hw hs hlive habort hres hx hi hstatus, onlySlot_setSlot .., State.slot?_setSlot_self ..,
      step_takesResult .., fget_takesResult ..⟩
  · obtain ⟨hslot, hmem, hregs, htiles, hclk⟩ := exchangeStops_spec (s := s) (p := p) (k := k) 3 hlive habort
    exact ⟨_, _, exec_exchangeTimeout hp hk hs hlive habort hres hi hlate, hslot,
      Slot.fget_fset_self x R.SCH_COMMIT F.SCH_COMMIT_OUTCOME 4, rfl, hmem, hregs, htiles, hclk⟩
  · have hplant := plant_flip (s.took 4) p k x r b
    obtain ⟨hclk, htiles, hherds, -, -⟩ := fields_of_plant hplant
    have hslot := (slot?_of_plant hplant p k).trans (State.slot?_setSlot_self ..)
    obtain ⟨hstep, hpass, hnext, hat, hwindow⟩ : x.Decides r s.tick
        (if x.skipVote r then x.skip r b (s.took 4).tick else x.commit r b (s.took 4).tick (s.took 4).pLog) := by
      split
      · exact decides_skip x r b s.tick
      · exact decides_commit x r b s.tick s.pLog
    refine ⟨_, _, exec_commitFlip hp hk hs hb hfence hdue, hslot, hstep, hpass, hnext, hat, hwindow, fun hv => ?_, fun hv => ?_, hclk,
      htiles, hherds⟩
    · rw [hv]
      exact commit_spec ..
    · rw [hv]
      exact skip_spec ..
  · exact ⟨_, exec_rescalePassDone hp hk hs hpass hasks, onlySlot_setSlot .., State.slot?_setSlot_self ..⟩
  · obtain ⟨hclk, y, hy, hplan⟩ := abortStep_spec (s := s.took 5) (p := p) (k := k) hs (x.stotsDue s.tick)
    exact ⟨_, y, exec_stepAbort_live hp hk hs hb hlive hdue, hy, congrArg Plan.step hplan, congrArg Plan.nextStep hplan,
      congrArg Plan.decidedAt hplan, congrArg Plan.stots hplan, congrArg Plan.gen hplan, hclk⟩
  · obtain ⟨hclk, y, hy, hplan⟩ := stopJob_spec (s := s.took 5) (p := p) (k := k) hs (x.stotsDue s.tick)
    exact ⟨_, y, exec_stepAbort_idle hp hk hs hb hlive hdue, hy, congrArg Plan.step hplan, congrArg Plan.stots hplan,
      congrArg Plan.gen hplan, hclk⟩

end Sys2Proof.Machine
end
